-- ==== Sys2Proof/Word.lean ====
section
/-! DEFINITION. The word types of the ND1280 (72-bit native word, 144-bit items and records) and the
sparse table type that State uses for its numbered collections. -/

namespace Sys2Proof

/-- A byte of byte-addressed memory. -/
abbrev Byte := BitVec 8

/-- The native word of the device (R6): registers, instructions, PX72 pixels, field words. -/
abbrev W72 := BitVec 72

/-- Work items, completion records and reset records (R82). -/
abbrev W144 := BitVec 144

/-- A numbered collection: pairs of a number and its value, numbers strictly rising. A number that is
not listed has the default that the reader names. -/
abbrev Tab (α : Type) := List (Nat × α)

end Sys2Proof
end

