-- ==== Sys2Proof/Machine/Bits.lean ====
section
/-! DEFINITION. Helpers that carry no meaning of the device: tables with defaults, bit fields, the byte
order of R6, and lists. -/

namespace Sys2Proof.Machine

/-- The value listed under k, or the default. -/
def tget {α : Type} (t : Tab α) (k : Nat) (dflt : α) : α :=
  match t with
  | [] => dflt
  | (j, v) :: r => if j = k then v else tget r k dflt

/-- The value listed under k, if one is. -/
def tfind {α : Type} (t : Tab α) (k : Nat) : Option α :=
  match t with
  | [] => none
  | (j, v) :: r => if j = k then some v else tfind r k

/-- The table with v under k, numbers kept rising. -/
def tset {α : Type} (t : Tab α) (k : Nat) (v : α) : Tab α :=
  match t with
  | [] => [(k, v)]
  | (j, u) :: r => if k < j then (k, v) :: (j, u) :: r else if j = k then (k, v) :: r else (j, u) :: tset r k v

/-- The table without k. -/
def tdel {α : Type} (t : Tab α) (k : Nat) : Tab α :=
  match t with
  | [] => []
  | (j, u) :: r => if j = k then r else (j, u) :: tdel r k

/-- n bits of x from bit lo upward, as a number. -/
def bitsN (x lo n : Nat) : Nat := (x >>> lo) % 2 ^ n

/-- Bits [lo+n-1:lo] of a word, as a number. -/
def fld {w : Nat} (x : BitVec w) (lo n : Nat) : Nat := bitsN x.toNat lo n

/-- Bit i of a word. -/
def bit {w : Nat} (x : BitVec w) (i : Nat) : Bool := x.getLsbD i

/-- x with bits [lo+n-1:lo] replaced by the low n bits of v. -/
def setFld {w : Nat} (x : BitVec w) (lo n v : Nat) : BitVec w :=
  let m := BitVec.ofNat w ((2 ^ n - 1) <<< lo)
  (x &&& ~~~m) ||| (BitVec.ofNat w (v <<< lo) &&& m)

/-- x with bit i set to b. -/
def setBit {w : Nat} (x : BitVec w) (i : Nat) (b : Bool) : BitVec w := setFld x i 1 b.toNat

/-- A number of n bits read as two's complement. -/
def toSigned (n x : Nat) : Int := if x % 2 ^ n < 2 ^ (n - 1) then (x % 2 ^ n : Nat) else ((x % 2 ^ n : Nat) : Int) - (2 ^ n : Nat)

/-- An integer as n bits of two's complement. -/
def ofSigned (n : Nat) (x : Int) : Nat := (x % ((2 ^ n : Nat) : Int)).toNat

/-- Sign extension of the low n bits of a number to a word of w bits. -/
def sextTo (w n x : Nat) : BitVec w := BitVec.ofInt w (toSigned n x)

/-- An integer limited to lo and hi. -/
def clampI (lo hi x : Int) : Int := if x < lo then lo else if hi < x then hi else x

/-- The n bytes of a number, the byte at the lowest address first (R6, R82). -/
def toBytes (n x : Nat) : List Byte :=
  match n with
  | 0 => []
  | m + 1 => BitVec.ofNat 8 x :: toBytes m (x / 256)

/-- The number whose bytes these are (R6, R82). -/
def ofBytes (l : List Byte) : Nat :=
  match l with
  | [] => 0
  | b :: r => b.toNat + 256 * ofBytes r

/-- The number of one bits among the low n bits. -/
def popCount (n x : Nat) : Nat :=
  match n with
  | 0 => 0
  | m + 1 => (if x % 2 = 1 then 1 else 0) + popCount m (x / 2)

/-- The element at index i of a list, or the default. -/
def nth {α : Type} (l : List α) (i : Nat) (dflt : α) : α := (l[i]?).getD dflt

/-- The list with the element at index i replaced. -/
def setNth {α : Type} (l : List α) (i : Nat) (v : α) : List α := l.set i v

/-- The least element of a list of numbers, or the default when it is empty. -/
def minOr (l : List Nat) (dflt : Nat) : Nat :=
  match l with
  | [] => dflt
  | x :: r => r.foldl Nat.min x

/-- The numbers from 0 to n - 1 at which p holds. -/
def indices (n : Nat) (p : Nat → Bool) : List Nat := (List.range n).filter p

/-- Insertion of x into a list sorted by the order le, after its equals. -/
def insertBy {α : Type} (le : α → α → Bool) (x : α) (l : List α) : List α :=
  match l with
  | [] => [x]
  | y :: r => if le y x then y :: insertBy le x r else x :: y :: r

/-- A list sorted by the order le, equals kept in their order. -/
def sortBy {α : Type} (le : α → α → Bool) (l : List α) : List α := l.foldl (fun acc x => insertBy le x acc) []

/-- The list without repeats, first occurrences kept. -/
def dedup (l : List Nat) : List Nat := l.foldl (fun acc x => if acc.contains x then acc else acc ++ [x]) []

/-- A counter of n bits that counts one more and stops at its largest value. -/
def satInc {n : Nat} (x : BitVec n) : BitVec n := if x.toNat + 1 = 2 ^ n then x else x + 1

/-- Addition that stops at 2^n - 1. -/
def satAdd (n x y : Nat) : Nat := Nat.min (x + y) (2 ^ n - 1)

/-- Ceiling of a quotient. -/
def ceilDiv (x y : Nat) : Nat := (x + y - 1) / y

/-- A quotient rounded to the nearest whole number, halves up: the stamp rule of R40. -/
def roundHalfUp (n d : Nat) : Nat := (2 * n + d) / (2 * d)

/-- The integer square root, by halving of the interval [lo, lo + 2^fuel). -/
def isqrtFrom (fuel lo n : Nat) : Nat :=
  match fuel with
  | 0 => lo
  | k + 1 => if (lo + 2 ^ k) * (lo + 2 ^ k) ≤ n then isqrtFrom k (lo + 2 ^ k) n else isqrtFrom k lo n

/-- The largest number whose square is not above n. -/
def isqrt (n : Nat) : Nat := isqrtFrom (Nat.log2 n / 2 + 1) 0 n

end Sys2Proof.Machine
end

