-- ==== Sys2Proof/Syntax.lean ====
section
/-! DEFINITION. The commands of the ND1280: one constructor of Instr per row of the table of operations
and events, with the operands a row takes (the executing thread and the fields of the instruction word;
the addressed register and the value; the op-id; the instant of an event; what the world outside the
device supplies). -/

namespace Sys2Proof

/-- Who executes an Opolkin instruction: the guest thread of a ring (R21), a firmware thread (cores 0 to 7
are SQ0 to SQ7, 8 and 9 are AX0 and AX1), a resident wave of the raster engine, an audio slice. -/
inductive Ctx where
  | guest (ring : Fin 256)
  | firmware (core : Fin 10) (thread : Fin 4)
  | wave (id : Nat)
  | slice (n : Fin 4)
  deriving DecidableEq, Repr

/-- The fields of an instruction word other than the major opcode (R46), which the row names. -/
structure Insn where
  fmt : BitVec 3
  dst : BitVec 6
  srcA : BitVec 6
  srcB : BitVec 6
  pred : BitVec 3
  neg : Bool
  sub : BitVec 3
  low : BitVec 36
  deriving DecidableEq, Repr

/-- The op-id of an engine operation: global ring number, accession number, operation index (R68). -/
structure OpId where
  ring : Fin 256
  acc : Nat
  idx : Nat
  deriving DecidableEq, Repr

/-- What a touch channel's controller answers when the channel starts (R306, R307, R315): nothing, or the bytes of its HID report
descriptor (empty for a raw channel). -/
structure TouchDesc where
  answered : Bool
  bytes : List Byte
  deriving DecidableEq, Repr

/-- How a transfer on a touch channel's bus ends that brings no report (R315). -/
inductive TouchBus where
  | quiet
  | error
  | noAcknowledge
  deriving DecidableEq, Repr

/-- A frame on the supervisor port after its opcode byte (R510): ARG, LENGTH, the payload and the CRC as sent. -/
structure SvpFrame where
  arg : BitVec 32
  length : Nat
  payload : List Byte
  crc : BitVec 16
  deriving DecidableEq, Repr

/-- Who reads a latched group: a host through a BAR of a function, or the supervisor port. -/
inductive Reader where
  | bar0 (f : Fin 64)
  | bar4 (f : Fin 64)
  | svp
  deriving DecidableEq, Repr

/-- The capability structures that R122 names, present or absent. -/
inductive CfgCap where
  | powerManagement | pciExpress | msi | msix | aer | ari | sriov | ptm | l1Substates | resizableBar | vfResizableBar | laneMargining
  | ats | pri | pasid
  deriving DecidableEq, Repr

/-- The configuration-space registers whose values the manual states or uses (R3, R4, R122, R123, R126, R131, R136). -/
inductive CfgReg where
  | vendorId | deviceId | revisionId | classCode | subsystemVendorId | subsystemId
  | totalVfs | numVfs | firstVfOffset | vfStride | vfDeviceId | vfEnable | interruptPin
  | msixEnable | msixFunctionMask | ptmEnable | bar2Size
  | vfBar2Size | bar (n : Fin 6) | vfBar (n : Fin 6) | capability (c : CfgCap) | msixTableSize | noSoftReset | d1d2Support | flrSupport
  | maxPayloadSupport | linkSpeeds | maxLinkWidth | aspmSupport | l1SubstatesSupport | functionNumber
  | errorControl | errorStatus | aerUncorrectable | aerUncorrectableMask | aerUncorrectableSeverity | aerCorrectable | aerCorrectableMask
  deriving DecidableEq, Repr

/-- Causes of the loss of a display link (R300). -/
inductive LossCause where
  | hpdLow | lockLost | busContention
  deriving DecidableEq, Repr

/-- The sink's reply to one sideband transaction (R284). -/
inductive SideReply where
  | ack (data : List Byte)
  | nack
  | defer
  | dsiError (report : BitVec 16)
  deriving DecidableEq, Repr

/-- A pulse on a GLK input (R289): its width in 1/64 ns, and whether its edge is a falling one. -/
structure GlkPulse where
  width64 : Nat
  falling : Bool
  deriving DecidableEq, Repr

/-- What a reading of MR4 gives (R400): the register, and whether the temperature is above the DRAM's range. -/
structure Mr4 where
  code : BitVec 8
  tooHot : Bool
  deriving DecidableEq, Repr

/-- What a retraining burst finds (R406): more bursts are needed, or it ends the retraining, the channel trained or failed. -/
inductive BurstEnd where
  | more
  | trained
  | failed
  deriving DecidableEq, Repr

/-- What a monitor of R496, a CVU-independent hardware check or an engine reports to the safety manager. -/
inductive Monitor where
  | voltage (rail : Fin 10) (measuredMv : Nat)
  | clock (k : Fin 6) (measuredKhz : Nat)
  | tempSensor (n : Fin 16) (reading median : Int)
  deriving DecidableEq, Repr

/-- A place the scrubber or the DRAM patrol reads (R390, R391, R505), with what it finds there. -/
inductive ScrubPlace where
  | sram (locus : W72)
  | cacheClean (addr : Nat)
  | cacheDirty (addr : Nat)
  | stripLine (pipe : Fin 12) (row line : Nat)
  | dram (addr : Nat)
  | cvuRef (unit : Fin 32)
  | vitrineWord (addr : Nat)
  | audioSlice (n : Fin 4)
  deriving DecidableEq, Repr

/-- A wake source of R436. -/
inductive WakeSrc where
  | host (m : Fin 4)
  | svp
  | wakein (n : Fin 4)
  | alarm
  | hs (n : Fin 2)
  | tch (n : Fin 12)
  deriving DecidableEq, Repr

/-- What the boot sequence finds on the board at a device reset (R449 to R460): the two image checks, the
flash mode, and the speed points at which each channel trains, as one bit per speed point code. -/
structure BootEnv where
  slotAOk : Bool
  slotBOk : Bool
  octalOk : Bool
  channelOk : List (BitVec 4)
  channelMr8 : List (Nat × Nat)
  dramId : List (List Byte)
  deriving DecidableEq, Repr

/-- A debug action of DBG_ACCESS (R514). -/
inductive DbgAction where
  | halt (c : Ctx)
  | step (c : Ctx)
  | readReg (c : Ctx) (n : BitVec 6)
  | writeReg (c : Ctx) (n : BitVec 6) (v : W72)
  | readMem (addr : Nat)
  | writeMem (addr : Nat) (v : Byte)
  deriving DecidableEq, Repr

/-- The commands: one constructor per row of the table of operations and events. -/
inductive Instr where
  /-- R57: Opcode 0x00 raises EX_ILLEGAL. -/
  | ill (c : Ctx) (w : Insn)
  /-- R57: Does nothing. -/
  | nop (c : Ctx) (w : Insn)
  /-- R57: Copies a register or a sign-extended immediate into d. -/
  | mov (c : Ctx) (w : Insn)
  /-- R57: Writes imm36 into d[71:36] and keeps d[35:0]. -/
  | movhi (c : Ctx) (w : Insn)
  /-- R58: Integer add, wrapping, or saturating when SAT is 1. -/
  | add (c : Ctx) (w : Insn)
  /-- R58: Integer subtract, wrapping, or saturating when SAT is 1. -/
  | sub (c : Ctx) (w : Insn)
  /-- R58: Low 72 bits of the product, or saturated when SAT is 1. -/
  | mul (c : Ctx) (w : Insn)
  /-- R58: High 72 bits of the signed or unsigned 144-bit product. -/
  | mulh (c : Ctx) (w : Insn)
  /-- R58: Integer quotient truncated toward zero, with the zero-divisor and overflow cases defined. -/
  | div (c : Ctx) (w : Insn)
  /-- R58: Integer remainder with the sign of a, with the special cases defined. -/
  | rem (c : Ctx) (w : Insn)
  /-- R57: Signed or unsigned minimum. -/
  | min (c : Ctx) (w : Insn)
  /-- R57: Signed or unsigned maximum. -/
  | max (c : Ctx) (w : Insn)
  /-- R57: Absolute value of a. -/
  | abs (c : Ctx) (w : Insn)
  /-- R57: Computes 0 − a. -/
  | neg (c : Ctx) (w : Insn)
  /-- R58: Bitwise AND, with a zero-extended immediate. -/
  | andW (c : Ctx) (w : Insn)
  /-- R58: Bitwise OR, with a zero-extended immediate. -/
  | orW (c : Ctx) (w : Insn)
  /-- R58: Bitwise XOR, with a zero-extended immediate. -/
  | xorW (c : Ctx) (w : Insn)
  /-- R58: Computes a AND NOT b, with a zero-extended immediate. -/
  | andn (c : Ctx) (w : Insn)
  /-- R58: Shift left, giving 0 for counts of 72 or more. -/
  | shl (c : Ctx) (w : Insn)
  /-- R58: Logical shift right. -/
  | shr (c : Ctx) (w : Insn)
  /-- R58: Arithmetic shift right. -/
  | sar (c : Ctx) (w : Insn)
  /-- R58: Rotate right within 72 bits. -/
  | rot (c : Ctx) (w : Insn)
  /-- R58: Extracts a bit field, zero- or sign-extended, with bounds checked. -/
  | bfx (c : Ctx) (w : Insn)
  /-- R58: Inserts the low bits of a into a field of d. -/
  | bfi (c : Ctx) (w : Insn)
  /-- R57: Counts leading zeros, 0 to 72. -/
  | clz (c : Ctx) (w : Insn)
  /-- R57: Counts the 1 bits. -/
  | popc (c : Ctx) (w : Insn)
  /-- R58: Signed compare that writes a predicate register. -/
  | cmp (c : Ctx) (w : Insn)
  /-- R57: Unsigned compare that writes a predicate register. -/
  | cmpu (c : Ctx) (w : Insn)
  /-- R57: Selects a or b by k[sub]. -/
  | sel (c : Ctx) (w : Insn)
  /-- R57: Logic operation on predicate registers. -/
  | plog (c : Ctx) (w : Insn)
  /-- R52: F18 × 4 add or subtract. -/
  | faddH (c : Ctx) (w : Insn)
  /-- R52: F18 × 4 product. -/
  | fmulH (c : Ctx) (w : Insn)
  /-- R52: F18 × 4 fused multiply-add with one rounding. -/
  | ffmaH (c : Ctx) (w : Insn)
  /-- R54: F18 × 4 minimum or maximum. -/
  | fmnxH (c : Ctx) (w : Insn)
  /-- R57: F18 × 4 compare giving lane masks. -/
  | fcmpH (c : Ctx) (w : Insn)
  /-- R57: F18 × 4 abs, negate or copysign. -/
  | fsgnH (c : Ctx) (w : Insn)
  /-- R57: Conversion selected by sub-operation, from the conversion table. -/
  | fcvt (c : Ctx) (w : Insn)
  /-- R52: F36 × 2 add or subtract. -/
  | faddS (c : Ctx) (w : Insn)
  /-- R52: F36 × 2 product. -/
  | fmulS (c : Ctx) (w : Insn)
  /-- R52: F36 × 2 fused multiply-add. -/
  | ffmaS (c : Ctx) (w : Insn)
  /-- R54: F36 × 2 minimum or maximum. -/
  | fmnxS (c : Ctx) (w : Insn)
  /-- R57: F36 × 2 compare. -/
  | fcmpS (c : Ctx) (w : Insn)
  /-- R55: F36 × 2 correctly rounded division. -/
  | fdivS (c : Ctx) (w : Insn)
  /-- R54: F36 × 2 correctly rounded square root. -/
  | fsqrtS (c : Ctx) (w : Insn)
  /-- R57: F36 × 2 abs, negate or copysign. -/
  | fsgnS (c : Ctx) (w : Insn)
  /-- R56: S36 × 2 saturating add. -/
  | saddQ (c : Ctx) (w : Insn)
  /-- R56: S36 × 2 saturating subtract. -/
  | ssubQ (c : Ctx) (w : Insn)
  /-- R58: S36 × 2 product rounded to Q4.31 and saturated. -/
  | smulQ (c : Ctx) (w : Insn)
  /-- R58: S36 × 2 ab + c with one rounding. -/
  | smadQ (c : Ctx) (w : Insn)
  /-- R56: S36 × 2 saturating abs or negate. -/
  | sabsQ (c : Ctx) (w : Insn)
  /-- R57: Extracts or inserts an F18 or 36-bit lane. -/
  | lane (c : Ctx) (w : Insn)
  /-- R57: Swizzles F18 lanes by the immediate. -/
  | swzH (c : Ctx) (w : Insn)
  /-- R59: PC-relative branch, with a check against the program range. -/
  | br (c : Ctx) (w : Insn)
  /-- R59: Jumps to a register address. -/
  | jmp (c : Ctx) (w : Insn)
  /-- R60: Pushes PC + 1 and branches relative. -/
  | call (c : Ctx) (w : Insn)
  /-- R60: Pushes PC + 1 and jumps to a register address. -/
  | callr (c : Ctx) (w : Insn)
  /-- R60: Pops the return index. -/
  | ret (c : Ctx) (w : Insn)
  /-- R57: Decrements the counter and branches while it is nonzero. -/
  | loop (c : Ctx) (w : Insn)
  /-- R61: Ends the program and sets the result source. -/
  | endProg (c : Ctx) (w : Insn)
  /-- R62: Ends the program with EX_FAIL. -/
  | fail (c : Ctx) (w : Insn)
  /-- R57: Gives up the issue slot for one cycle. -/
  | yield (c : Ctx) (w : Insn)
  /-- R63: Zero-extending load of the size selected by sub-operation. -/
  | ld (c : Ctx) (w : Insn)
  /-- R63: Sign-extending load. -/
  | lds (c : Ctx) (w : Insn)
  /-- R63: Store of the selected size. -/
  | st (c : Ctx) (w : Insn)
  /-- R57: Loads a parameter-block word, raising EX_PARAM beyond the block. -/
  | ldp (c : Ctx) (w : Insn)
  /-- R64: 64-bit atomic read-modify-write. -/
  | atom (c : Ctx) (w : Insn)
  /-- R57: Prefetches a 64-byte line. -/
  | pref (c : Ctx) (w : Insn)
  /-- R387: Writes a line back from the system cache. -/
  | flush (c : Ctx) (w : Insn)
  /-- R65: Orders the thread's memory accesses. -/
  | mfence (c : Ctx) (w : Insn)
  /-- R68: Buffers an engine operation and assigns it an operation index. -/
  | enq (c : Ctx) (w : Insn)
  /-- R70: Releases the buffered operations to their engines. -/
  | kick (c : Ctx) (w : Insn)
  /-- R72: Starts a wait for an event or a timeout. -/
  | waitev (c : Ctx) (w : Insn)
  /-- R70: Releases the buffered operations and waits for all of the item's operations. -/
  | fence (c : Ctx) (w : Insn)
  /-- R73: Opens a transaction with an apply point. -/
  | txb (c : Ctx) (w : Insn)
  /-- R75: Checks and commits the shadow. -/
  | txc (c : Ctx) (w : Insn)
  /-- R76: Aborts the transaction and ends the program. -/
  | txa (c : Ctx) (w : Insn)
  /-- R74: Writes a state-object field into the shadow. -/
  | sto (c : Ctx) (w : Insn)
  /-- R543: Reads the applied value of a field, with an ownership check. -/
  | ldo (c : Ctx) (w : Insn)
  /-- R120: Snapshots a named set of objects from one publication. -/
  | snap (c : Ctx) (w : Insn)
  /-- R57: Reads DEVTIME. -/
  | rdtime (c : Ctx) (w : Insn)
  /-- R57: Reads the identity value selected by sub-operation. -/
  | rdid (c : Ctx) (w : Insn)
  /-- R171: Per-lane F18 add. -/
  | vaddH (c : Ctx) (w : Insn)
  /-- R171: Per-lane F18 multiply. -/
  | vmulH (c : Ctx) (w : Insn)
  /-- R171: Per-lane F18 fused multiply-add. -/
  | vfmaH (c : Ctx) (w : Insn)
  /-- R171: Per-lane F18 minimum or maximum. -/
  | vmnxH (c : Ctx) (w : Insn)
  /-- R171: Per-lane F36 add. -/
  | vaddS (c : Ctx) (w : Insn)
  /-- R171: Per-lane F36 multiply. -/
  | vmulS (c : Ctx) (w : Insn)
  /-- R171: Per-lane F36 fused multiply-add. -/
  | vfmaS (c : Ctx) (w : Insn)
  /-- R172: Per-lane reciprocal or reciprocal square root. -/
  | vrcp (c : Ctx) (w : Insn)
  /-- R172: Per-lane exp2 or log2. -/
  | vexl (c : Ctx) (w : Insn)
  /-- R172: Per-lane sine or cosine. -/
  | vtrg (c : Ctx) (w : Insn)
  /-- R171: Per-lane integer add, subtract, multiply, min or max. -/
  | viadd (c : Ctx) (w : Insn)
  /-- R171: Per-lane logic operation. -/
  | vlog (c : Ctx) (w : Insn)
  /-- R171: Per-lane shift or rotate. -/
  | vshf (c : Ctx) (w : Insn)
  /-- R171: Per-lane compare that writes a lane predicate. -/
  | vcmp (c : Ctx) (w : Insn)
  /-- R171: Per-lane select. -/
  | vsel (c : Ctx) (w : Insn)
  /-- R171: Per-lane conversion. -/
  | vcvt (c : Ctx) (w : Insn)
  /-- R171: Broadcasts a scalar to all active lanes. -/
  | vbcast (c : Ctx) (w : Insn)
  /-- R171: Reduces the lanes to a scalar in a fixed tree. -/
  | vred (c : Ctx) (w : Insn)
  /-- R171: Cross-lane permute. -/
  | vperm (c : Ctx) (w : Insn)
  /-- R173: Local memory load. -/
  | vldl (c : Ctx) (w : Insn)
  /-- R173: Local memory store. -/
  | vstl (c : Ctx) (w : Insn)
  /-- R174: Device-virtual gather. -/
  | vldg (c : Ctx) (w : Insn)
  /-- R174: Device-virtual scatter. -/
  | vstg (c : Ctx) (w : Insn)
  /-- R174: Per-lane atomic in ascending lane order. -/
  | vatom (c : Ctx) (w : Insn)
  /-- R176: Filtered sample with implicit LOD. -/
  | tex (c : Ctx) (w : Insn)
  /-- R176: Filtered sample at an explicit LOD. -/
  | texl (c : Ctx) (w : Insn)
  /-- R176: Gathers one component of the four bilinear texels. -/
  | texg (c : Ctx) (w : Insn)
  /-- R176: Unfiltered texel fetch. -/
  | texf (c : Ctx) (w : Insn)
  /-- R176: Queries level size or counts. -/
  | texq (c : Ctx) (w : Insn)
  /-- R178: Reads a tile-memory pixel sample. -/
  | pxld (c : Ctx) (w : Insn)
  /-- R178: Writes a tile-memory pixel, deferred outside an interlock region. -/
  | pxst (c : Ctx) (w : Insn)
  /-- R178: Blends into a tile-memory pixel. -/
  | pxbld (c : Ctx) (w : Insn)
  /-- R180: Begins a raster-order interlock region and waits for lower primitives. -/
  | ilkb (c : Ctx) (w : Insn)
  /-- R180: Ends the interlock region. -/
  | ilke (c : Ctx) (w : Insn)
  /-- R181: Turns the lane into a helper and discards its deferred writes. -/
  | kill (c : Ctx) (w : Insn)
  /-- R182: Writes a vertex output word. -/
  | emit (c : Ctx) (w : Insn)
  /-- R182: Interpolates an attribute at the pixel centre. -/
  | attr (c : Ctx) (w : Insn)
  /-- R182: Quad derivative in x or y. -/
  | deriv (c : Ctx) (w : Insn)
  /-- R347: Accumulator multiply-add. -/
  | amac (c : Ctx) (w : Insn)
  /-- R347: Accumulator multiply-subtract. -/
  | amsu (c : Ctx) (w : Insn)
  /-- R347: Loads a coefficient, edge gain or node field. -/
  | aldc (c : Ctx) (w : Insn)
  /-- R347: Reads a delay line or a node state word. -/
  | adlr (c : Ctx) (w : Insn)
  /-- R347: Writes a delay line or a node state word. -/
  | adlw (c : Ctx) (w : Insn)
  /-- R348: Reads a node output sample. -/
  | ain (c : Ctx) (w : Insn)
  /-- R347: Writes a node output sample. -/
  | aout (c : Ctx) (w : Insn)
  /-- R347: Rounds and saturates an accumulator to S36. -/
  | arnd (c : Ctx) (w : Insn)
  /-- R347: Computes one biquad section. -/
  | abiq (c : Ctx) (w : Insn)
  /-- R347: Takes one gain-ramp step. -/
  | aramp (c : Ctx) (w : Insn)
  /-- R347: Updates a level meter. -/
  | apeak (c : Ctx) (w : Insn)
  /-- R78: Reads a CSR. -/
  | csrr (c : Ctx) (w : Insn)
  /-- R78: Writes a CSR. -/
  | csrw (c : Ctx) (w : Insn)
  /-- R78: Returns from an exception and clears ECODE. -/
  | eret (c : Ctx) (w : Insn)
  /-- R57: Loads at a device-physical address. -/
  | pld (c : Ctx) (w : Insn)
  /-- R57: Stores at a device-physical address. -/
  | pst (c : Ctx) (w : Insn)
  /-- R57: Invalidates IOMMU entries of a function range. -/
  | ioinv (c : Ctx) (w : Insn)
  /-- R57: Starts, stops or resets a thread. -/
  | thrd (c : Ctx) (w : Insn)
  /-- R57: Reads or writes a ledger entry. -/
  | ledg (c : Ctx) (w : Insn)
  /-- R57: Waits for a firmware interrupt. -/
  | halt (c : Ctx) (w : Insn)
  /-- R496: Services the thread's watchdog. -/
  | wdog (c : Ctx) (w : Insn)
  /-- R72: The awaited event or the timeout ends a WAITEV. -/
  | waitevWake (c : Ctx) (at_ : Nat)
  /-- R70: The item's operations complete and the thread resumes after FENCE. -/
  | fenceWake (g : Fin 256)
  /-- R88: A DOORBELL write sets TAIL or is discarded with DB_OVERRUN. -/
  | doorbell (f : Fin 64) (k : Fin 4) (v : BitVec 32)
  /-- R89: A CMPL_HEAD write advances HEAD or sets HEAD_INVALID. -/
  | cmplHead (f : Fin 64) (k : Fin 4) (v : BitVec 32)
  /-- R87: A RING_CTL write enables or disables admission, or is discarded. -/
  | ringCtl (f : Fin 64) (k : Fin 4) (v : BitVec 32)
  /-- R91: The port complex admits an item once every admission condition holds. -/
  | itemAdmit (g : Fin 256)
  /-- R30: A ring's thread starts the next admitted item. -/
  | itemStart (g : Fin 256)
  /-- R66: An engine starts a released operation and reads its descriptor. -/
  | engineOpStart (id : OpId)
  /-- R103: An engine reports an operation complete to the ledger, with op-id deduplication. -/
  | opComplete (id : OpId)
  /-- R29: The ledger writes an item's completion record once all conditions hold. -/
  | completionRecordWrite (g : Fin 256)
  /-- R90: A record that has waited 20 µs raises EV_COMPLETION. -/
  | completionCoalesceTimeout (g : Fin 256) (at_ : Nat)
  /-- R95: The ledger retries a faulted record write. -/
  | cmplRetry (g : Fin 256)
  /-- R113: A scheduling epoch boundary applies EPOCH commits, shares and status publication. -/
  | epochBoundary (at_ : Nat)
  /-- R105: A sequencer-core reset interrupts the items running on the core. -/
  | sequencerCoreReset (c : Fin 8)
  /-- R105: The core restarts its guest threads and reruns the interrupted items. -/
  | sequencerCoreRestart (c : Fin 8) (at_ : Nat)
  /-- R157: A Function Level Reset requests a function reset. -/
  | flr (f : Fin 64)
  /-- R157: A write to RESET_REQ.RESET requests a reset of the function. -/
  | resetReq (f : Fin 64) (v : BitVec 32)
  /-- R157: A write to FUNC_CTL.RESET requests a reset of the function. -/
  | funcCtlReset (host f : Fin 64) (v : BitVec 32)
  /-- R146: A write to FUNC_CTL.HOLD stops or resumes admission on the function's rings. -/
  | funcCtlHold (host f : Fin 64) (v : BitVec 32)
  /-- R158: DRAIN_LIMIT elapses and the drain continues as a squash. -/
  | drainLimitExpiry (f : Fin 64) (at_ : Nat)
  /-- R98: A reset held for stale operations continues once none remain. -/
  | heldResetRelease (f : Fin 64)
  /-- R158: An engine cancels a released operation at its next safe point. -/
  | opCancel (id : OpId)
  /-- R162: A function reset ends, resets the BAR0 registers and raises EV_RESET_DONE. -/
  | resetEnd (f : Fin 64)
  /-- R161: A link down or Hot Reset gives every function of the port a generation-discard reset. -/
  | linkDown (p : Fin 4) (hotReset : Bool)
  /-- R129: Setting VF Enable creates VFs, or is refused with BUDGET_ERR. -/
  | vfEnableSet (p : Fin 4)
  /-- R161: Clearing VF Enable resets and removes the VFs and returns their objects. -/
  | vfEnableClear (p : Fin 4)
  /-- R122: A NumVFs write is taken or discarded. -/
  | numvfsWrite (p : Fin 4) (v : BitVec 16)
  /-- R125: A function enters or leaves D3hot, holding or releasing MSI-X messages. -/
  | d3hotTransition (f : Fin 64) (enter : Bool)
  /-- R136: A pending MSI-X message is sent once sending is allowed again. -/
  | msixPendingSend (f : Fin 64) (vec : Fin 8)
  /-- R136: A W1C write to EV_STATUS clears bits and may send the message again. -/
  | evStatusClear (f : Fin 64) (v : BitVec 32) (again : BitVec 9)
  /-- R137: A host read through the aperture, translated by the IOMMU. -/
  | bar2Read (f : Fin 64) (off len : Nat)
  /-- R137: A host write through the aperture, logged and checked for overwrites. -/
  | bar2Write (f : Fin 64) (off : Nat) (data : List (Option Byte))
  /-- R145: A write to IOMMU_ROOT sets the mode and root and starts a whole-space invalidation. -/
  | iommuRoot (host f : Fin 64) (v : BitVec 64)
  /-- R145: A write to INV_CTL.GO starts an IOTLB invalidation. -/
  | invCtl (host f : Fin 64) (v : BitVec 32)
  /-- R145: An invalidation completes and GO returns to 0. -/
  | invalidationDone (f : Fin 64)
  /-- R149: A write to DIRTY_CTL.ENABLE starts or stops dirty logging, or is discarded. -/
  | dirtyCtlEnable (host f : Fin 64) (v : BitVec 32)
  /-- R149: A write of 1 to SWAP exchanges the active dirty bitmap. -/
  | swap (host f : Fin 64) (v : BitVec 32)
  /-- R149: Every logged write has set its bit and SWAP reads 0. -/
  | swapDone (f : Fin 64)
  /-- R163: A write of PTM_CTL.REQ starts one PTM dialog. -/
  | ptmCtlReq (f : Fin 64) (v : BitVec 32)
  /-- R163: The automatic period starts a PTM dialog. -/
  | ptmPeriodExpiry (p : Fin 4) (at_ : Nat)
  /-- R164: A PTM Response updates the PTM sample registers. -/
  | ptmResponse (p : Fin 4) (ok : Bool) (sentAt hostTime delay : Nat)
  /-- R415: A MEM_PART write repartitions the system cache or is discarded. -/
  | memPart (f : Fin 64) (v : BitVec 32)
  /-- R414: A MEM_RETRY write clears a channel's CEILING and retrains it. -/
  | memRetry (f : Fin 64) (v : BitVec 32)
  /-- R404: A MEM_SPEED.CAP write changes the permitted speed point. -/
  | memSpeed (f : Fin 64) (v : BitVec 32)
  /-- R420: A write of PWR_OP.TARGET starts an operating-point change. -/
  | pwrOpTarget (f : Fin 64) (v : BitVec 32)
  /-- R430: A PWR_REQ write with GO requests SHOWCASE or STANDBY. -/
  | pwrReq (f : Fin 64) (v : BitVec 32)
  /-- R443: A PWR_ERESET GO resets one engine. -/
  | pwrEreset (f : Fin 64) (v : BitVec 32)
  /-- R442: A PWR_DEVRESET key write resets the device. -/
  | pwrDevreset (f : Fin 64) (v : BitVec 32) (env : BootEnv)
  /-- R466: A BOOT_LC write schedules the move to FIELD or is refused. -/
  | bootLc (f : Fin 64) (v : BitVec 32)
  /-- R450: A configuration request is answered, with retry status before READY. -/
  | configRequest (f : Fin 64) (reg : CfgReg) (write : Option (BitVec 32))
  /-- R13: A latching read captures a ROL group. -/
  | latchRead (r : Reader) (addr : Nat) (wide : Bool)
  /-- R9: A write to a register without a row of its own, under its access codes. -/
  | registerWrite (r : Reader) (addr : Nat) (wide : Bool) (v : BitVec 64)
  /-- R185: Raster operation that bins and shades draws into attachments. -/
  | drawPass (id : OpId)
  /-- R191: Raster operation that runs compute waves. -/
  | dispatch (id : OpId)
  /-- R191: Raster operation that clears a surface. -/
  | clear (id : OpId)
  /-- R191: Raster operation that averages samples into a destination. -/
  | resolve (id : OpId)
  /-- R200: A waiting pass obtains its first tile-list block. -/
  | poolBlockGrant (id : OpId)
  /-- R194: A core at a boundary takes a ready compositor tile. -/
  | compositorTileDispatch (p : Fin 12) (tile : Nat) (core : Fin 16)
  /-- R195: A normal tile that has run PREEMPT_LIMIT is evicted for the compositor. -/
  | tileEvict (core : Fin 16) (at_ : Nat)
  /-- R215: A shader core reset re-executes the core's tiles, batches and waves elsewhere. -/
  | shaderCoreReset (core : Fin 16)
  /-- R215: A reset core returns to service. -/
  | shaderCoreReturn (core : Fin 16) (at_ : Nat)
  /-- R249: Compose operation that completes at the flip stamp of the presented content. -/
  | present (id : OpId)
  /-- R222: Registers a surface description under a handle. -/
  | bufRegister (id : OpId)
  /-- R223: Starts freeing a handle; the handle becomes FREEING. -/
  | bufFree (id : OpId)
  /-- R223: A FREEING handle becomes FREE and the BUF_FREE completes. -/
  | handleFreed (f : Fin 64) (h : BitVec 8)
  /-- R244: A frame-mode composition misses its deadline and the previous buffer is scanned again. -/
  | frameComposeDeadline (p : Fin 12) (at_ : Nat)
  /-- R246: A strip's deadline window opens when its ring position is released. -/
  | stripWindowOpen (p : Fin 12) (strip : Nat) (at_ : Nat)
  /-- R247: A strip misses its deadline and its lines show BACKGROUND. -/
  | stripMiss (p : Fin 12) (strip : Nat) (at_ : Nat)
  /-- R253: Checked write into Vitrine pages, compared on arrival. -/
  | vitrineWrite (id : OpId)
  /-- R277: A pipe's VBLANK instant advances the frame counter and applies commits. -/
  | vblank (p : Fin 12) (at_ : Nat)
  /-- R278: The first active line stamps the frame, raises FLIP_DONE and completes flips. -/
  | firstActiveLine (p : Fin 12) (at_ : Nat)
  /-- R281: Flip operation that completes at the flip stamp of its frame. -/
  | flip (id : OpId)
  /-- R282: Writes a mode-table entry to memory. -/
  | modeRead (id : OpId)
  /-- R283: Defines a mode entry, explicitly or by CVT-RB2. -/
  | modeDefine (id : OpId)
  /-- R284: Carries one sideband transaction on a port. -/
  | portMsg (id : OpId)
  /-- R284: No reply within 10 ms completes the PORT_MSG ST_TIMEOUT. -/
  | portMsgTimeout (id : OpId) (at_ : Nat)
  /-- R287: An adaptive-sync hold ends at a line boundary. -/
  | adaptiveHoldEnd (p : Fin 12) (at_ : Nat)
  /-- R291: A qualified GLK frame edge updates the genlock loop and state; the edge's instant is in 1/64 ns. -/
  | glkFrameEdge (g : Fin 2) (at64 : Nat) (pulse : GlkPulse)
  /-- R292: No frame edge within 1.25 × Pn puts the pipe in HOLDOVER. -/
  | glkEdgeTimeout (p : Fin 12) (at_ : Nat)
  /-- R294: A qualified TE edge sets the VBLANK instant in command mode. -/
  | teEdge (t : Fin 4) (at_ widthNs : Nat) (falling : Bool)
  /-- R295: No TE edge within 1.5 frame periods switches to predicted instants. -/
  | teLost (p : Fin 12) (at_ : Nat)
  /-- R300: A short HPD low pulse makes the device check the link and retrain. -/
  | hpdIrq (q : Fin 12) (lowNs : Nat) (linkGood : Bool)
  /-- R300: A long HPD low, lost lock or bus contention puts the port DOWN. -/
  | linkLoss (q : Fin 12) (cause : LossCause) (at_ : Nat)
  /-- R300: HPD rise or a retry timer retrains the link. -/
  | linkRetry (q : Fin 12) (at_ : Nat)
  /-- R462: Link training or PANEL_INIT completes and LINK reads UP. -/
  | linkUp (q : Fin 12) (at_ : Nat)
  /-- R463: One PANEL_INIT sideband write, after its delay. -/
  | panelInitStep (q : Fin 12) (ok : Bool) (at_ : Nat)
  /-- R308: A HID report arrives, its identifier and its data, and its contacts are filtered, hit-tested and delivered. -/
  | touchReport (ch : Fin 12) (at_ : Nat) (id : Option Byte) (data : List Byte)
  /-- R310: A raw touch frame arrives and peaks are detected and tracked. -/
  | rawFrame (ch : Fin 12) (at_ : Nat) (bytes : List Byte)
  /-- R315: No report for REPORT_TIMEOUT cancels every contact. -/
  | reportTimeout (ch : Fin 12) (at_ : Nat)
  /-- R306: A channel starts or restarts, reading its descriptor or entering BASELINE. -/
  | touchChannelStart (ch : Fin 12) (desc : TouchDesc)
  /-- R315: A channel in FAULT restarts every 100 ms. -/
  | touchFaultRetry (ch : Fin 12) (at_ : Nat) (bus : TouchBus)
  /-- R319: Posts a buffer for delivery records. -/
  | touchReceive (id : OpId)
  /-- R318: Stores a raw channel's baseline in the settings store. -/
  | baselineSave (id : OpId)
  /-- R318: Cancels contacts and relearns the baseline. -/
  | baselineRelearn (id : OpId)
  /-- R327: At each 24 kHz sample, the haptic channels compute and send their drive. -/
  | hapticSample (at_ : Nat) (di : List (List (BitVec 32)))
  /-- R333: Loads an effect slot and makes the caller its holder. -/
  | slotLoad (id : OpId)
  /-- R333: Releases an effect slot. -/
  | slotRelease (id : OpId)
  /-- R334: Haptic PLAY starts an effect under the trigger rules. -/
  | hapticPlay (id : OpId)
  /-- R335: Queues streamed haptic samples on a channel. -/
  | stream (id : OpId)
  /-- R336: A HAP_TRIG write with GO triggers an effect or is refused. -/
  | hapTrig (f : Fin 64) (c : Fin 16) (v : BitVec 32)
  /-- R345: Each internal sample runs the graph program on the slices. -/
  | audioSample (at_ : Nat)
  /-- R343: A block boundary applies AUDIO_BLOCK commits, swaps graphs and publishes status. -/
  | audioBlock (at_ : Nat)
  /-- R351: Fetches and checks a graph for swap. -/
  | graphLoad (id : OpId)
  /-- R354: Ramps the sinks down and stops the graph. -/
  | graphStop (id : OpId)
  /-- R355: Queues a playback buffer on a stream. -/
  | audioPlay (id : OpId)
  /-- R355: Queues a capture buffer on a stream. -/
  | capture (id : OpId)
  /-- R363: Waits for a headset state change. -/
  | hsWait (id : OpId)
  /-- R358: A converter locks and fades in its output. -/
  | asrcLock (node : Nat) (at_ : Nat)
  /-- R361: A slave port loses FS or its rate and enters LOST. -/
  | portLost (q : Fin 12) (mHz : Nat)
  /-- R361: A LOST port sees 8 good frames and restarts. -/
  | portRecover (q : Fin 12) (mHz : Nat)
  /-- R362: The headset mic line and detect are sampled and debounced. -/
  | hsSample (n : Fin 2) (at_ : Nat) (det : Bool) (mv : Nat)
  /-- R374: A unit finalises a period's value and compares it. -/
  | cvuPeriodEnd (u : Fin 32) (at_ : Nat)
  /-- R379: Ends a host-ingress period and returns its value. -/
  | cvuSample (id : OpId)
  /-- R380: Suspends a unit and writes its context. -/
  | cvuSave (id : OpId)
  /-- R381: Loads a unit context and resumes. -/
  | cvuRestore (id : OpId)
  /-- R411: DMA copy of rows. -/
  | copy (id : OpId)
  /-- R411: DMA fill with a 72-bit pattern. -/
  | fill (id : OpId)
  /-- R400: A per-bank refresh falls due. -/
  | dramRefresh (ch : Fin 16) (rank : Fin 2) (bank : Fin 16)
  /-- R400: MR4 is read every 16 ms to set the refresh rate and check temperature. -/
  | mr4Read (ch : Fin 16) (at_ : Nat) (mr4 : Mr4)
  /-- R401: A rank idle for 32 CK enters power-down. -/
  | powerDownEntry (ch : Fin 16) (rank : Fin 2) (idleCk : Nat)
  /-- R402: An idle group with enough tolerance enters self-refresh. -/
  | selfRefreshGroupEntry (g : Fin 4) (at_ : Nat)
  /-- R402: A request or low tolerance makes a group leave self-refresh. -/
  | selfRefreshGroupExit (g : Fin 4) (at_ : Nat)
  /-- R406: The WCK2DQ oscillator is read every 100 ms and the delays corrected. -/
  | driftRead (ch : Fin 16) (at_ : Nat) (drift1024 : Nat) (linkCe : Nat) (linkUe : Bool)
  /-- R406: One retraining burst runs on a channel. -/
  | retrainBurst (ch : Fin 16) (at_ : Nat) (result : BurstEnd)
  /-- R407: A group changes speed point in its latency window. -/
  | speedChange (g : Fin 4) (at_ : Nat)
  /-- R407: No window within 50 ms forces the speed change. -/
  | speedChangeForced (g : Fin 4) (at_ : Nat)
  /-- R408: A failed retraining steps the channel down through lower speed points. -/
  | dramStepDown (ch : Fin 16) (working : BitVec 4)
  /-- R415: A repartition completes and BUSY clears. -/
  | repartitionDone (at_ : Nat)
  /-- R420: A raised or lowered rail reaches its voltage and the change continues. -/
  | railSettled (rail : Fin 2) (mv : Nat)
  /-- R421: A rail fails to rise within 500 µs and the change is abandoned. -/
  | railTimeout (rail : Fin 2) (mv : Nat) (at_ : Nat)
  /-- R422: A rail below a setting's minimum makes the gate slow CLK_SHD. -/
  | undervoltage (rail : Fin 2) (mv : Nat) (ns : Nat)
  /-- R424: The safety manager steps LIMIT from the sensor readings. -/
  | thermalTick (at_ : Nat) (temps : List Int)
  /-- R426: A shader core idle for 1 ms is power-gated. -/
  | shaderPowerGate (core : Fin 16) (at_ : Nat)
  /-- R431: The wind-down ends and block stopping begins. -/
  | windDownDone (at_ : Nat)
  /-- R432: A block reports stopped or refuses, and the next block is asked or rollback starts. -/
  | blockStopped (at_ : Nat)
  /-- R433: A block does not answer within 100 µs and the entry rolls back. -/
  | blockStopTimeout (at_ : Nat)
  /-- R438: A wake source returns the device to ACTIVE. -/
  | wake (src : WakeSrc) (at_ : Nat)
  /-- R448: VDD_AON enters its limits, the plinth starts and DEVTIME restarts. -/
  | vddAonRamp
  /-- R530: VDD_AON falls below 0.65 V for more than 1 µs. -/
  | vddAonDrop (lowNs : Nat) (mv : Nat)
  /-- R447: SYS_RST_N goes low and the device enters reset. -/
  | sysRstNFall (lowNs : Nat)
  /-- R449: SYS_RST_N rises and the boot sequence runs. -/
  | sysRstNRise (at_ : Nat) (env : BootEnv)
  /-- R450: A PERST_N edge starts link training or takes the port down. -/
  | perstN (p : Fin 4) (high : Bool)
  /-- R473: Opens, joins or replaces the staging session. -/
  | sessionOpen (id : OpId)
  /-- R474: Stages one image piece into flash. -/
  | piecePut (id : OpId)
  /-- R476: Writes the session's status and piece bitmap. -/
  | sessionStatus (id : OpId)
  /-- R475: Ends the staging session. -/
  | sessionCancel (id : OpId)
  /-- R479: Authenticates the staged image and hands over to the new Curator. -/
  | activate (id : OpId) (at_ : Nat)
  /-- R483: Confirms the trial image. -/
  | confirm (id : OpId)
  /-- R483: CONFIRM_S seconds of TRIAL pass and confirmation runs. -/
  | autoConfirmExpiry (at_ : Nat)
  /-- R484: Returns to the old Curator during TRIAL. -/
  | revert (id : OpId)
  /-- R475: The staging lease runs out and the session ends. -/
  | leaseExpiry (at_ : Nat)
  /-- R490: Writes a settings item record. -/
  | settingsWrite (id : OpId)
  /-- R490: Reads a settings item. -/
  | settingsRead (id : OpId)
  /-- R508: Self-tests shader cores one at a time. -/
  | coreTest (id : OpId) (failed : BitVec 16)
  /-- R507: Self-tests pipes with test lines in blanking. -/
  | pipeTest (id : OpId) (failed : BitVec 12)
  /-- R507: Marches over the reserved rows of DRAM groups. -/
  | dramTest (id : OpId) (failed : BitVec 4)
  /-- R509: The Curator's schedule starts a self-test through AX1. -/
  | scheduledSelftest (kind : Fin 3) (element : Nat) (passed : Bool)
  /-- R495: SM0 and SM1 disagree and the pair restarts or halts. -/
  | lockstepMismatch (at_ : Nat)
  /-- R495: The safety manager restarts from ROM and queues a LOCKSTEP record. -/
  | smRestartDone (at_ : Nat)
  /-- R496: A voltage, clock or temperature monitor detects a fault. -/
  | monitorFault (m : Monitor)
  /-- R497: REFCLK fails and the supervisor's oscillator takes over. -/
  | refclkLoss
  /-- R497: A firmware watchdog expires and the core is reset. -/
  | fwWatchdog (core : Fin 10) (thread : Fin 4) (at_ : Nat)
  /-- R510: No heartbeat arrives within the window and EXT_MONITOR is raised. -/
  | heartbeatTimeout (at_ : Nat)
  /-- R505: The scrubber or DRAM patrol reads and corrects words. -/
  | scrub (place : ScrubPlace) (correctable : Bool)
  /-- R510: SVP command returning the 32-byte status block. -/
  | status (frame : SvpFrame)
  /-- R501: SVP command returning and removing the oldest record. -/
  | faultRead (frame : SvpFrame)
  /-- R504: SVP command that releases SM_FAULT_N when no signalling record is unread. -/
  | faultAck (frame : SvpFrame)
  /-- R510: SVP command reading a permitted register. -/
  | regRead (frame : SvpFrame)
  /-- R510: SVP command writing an SVP-only register while unlocked. -/
  | regWrite (frame : SvpFrame)
  /-- R510: SVP heartbeat answered and checked against its window. -/
  | heartbeat (frame : SvpFrame) (at_ : Nat)
  /-- R503: SVP command ending pipe forces. -/
  | forceClear (frame : SvpFrame)
  /-- R510: SVP command forcing pipes to Vitrine-only output. -/
  | forceSet (frame : SvpFrame)
  /-- R430: SVP command requesting STANDBY. -/
  | sleep (frame : SvpFrame)
  /-- R510: SVP command resetting the device. -/
  | reset (frame : SvpFrame) (env : BootEnv)
  /-- R516: SVP command requesting a freeze. -/
  | freeze (frame : SvpFrame)
  /-- R516: SVP command restarting the Aitin read-out. -/
  | readout (frame : SvpFrame)
  /-- R451: SVP command moving BLANK to PROVISION with the owner-key hash. -/
  | lcProvision (frame : SvpFrame)
  /-- R510: SVP command moving the device to RETURNED. -/
  | lcReturn (frame : SvpFrame)
  /-- R453: SVP command writing a recovery image into slot A. -/
  | recoveryWrite (frame : SvpFrame)
  /-- R437: The SVP wake pattern frame wakes the device from a sleep state. -/
  | svpWakePattern (word : BitVec 32) (edges : Nat)
  /-- R516: FREEZE_N held low requests a freeze. -/
  | freezeNAssert (lowNs : Nat)
  /-- R516: The end frame repeats every 1 ms after the read-out. -/
  | readoutRepeat (at_ : Nat)
  /-- R515: JTAG instruction returning a debug unlock challenge. -/
  | dbgChallenge (random : List Byte)
  /-- R515: JTAG instruction checking a signed response and unlocking debug. -/
  | dbgResponse (key sig : List Byte)
  /-- R514: JTAG instruction giving halt, step and memory access. -/
  | dbgAccess (a : DbgAction)
  /-- R514: JTAG IDCODE instruction. -/
  | idcode
  /-- R514: JTAG BYPASS instruction. -/
  | bypass (tdi : Bool)
  /-- R514: JTAG SAMPLE/PRELOAD instruction. -/
  | samplePreload (data : List Bool)
  /-- R514: JTAG EXTEST instruction, accepted only in reset. -/
  | extest
  /-- R514: JTAG CLAMP instruction, accepted only in reset. -/
  | clamp
  /-- R514: JTAG HIGHZ instruction, accepted only in reset. -/
  | highz
  /-- R440: A host port's PCIe link reaches L0, after training or an exit from L1. -/
  | hostLinkL0 (p : Fin 4)
  /-- R300: A display port's training attempt fails or is not UP within 1 s, counting towards FAILED after three attempts. -/
  | linkTrainingFailed (q : Fin 12) (at_ : Nat)
  /-- R497: REFCLK returns to range and the device leaves the supervisor's oscillator, or releases an internal reset held for it. -/
  | refclkReturn (at_ : Nat)
  /-- R293: A genlock correction by offset has held for |e| / RANGE of scan time and N returns to nominal. -/
  | offsetCorrectionEnd (p : Fin 12) (at_ : Nat)
  /-- R284: The sink's reply to a PORT_MSG (ACK, NACK, DEFER or DSI report) arrives and the operation completes or retries. -/
  | sidebandReply (id : OpId) (reply : SideReply)
  /-- R510: An SVP frame with an unknown opcode or a CRC error is answered with status 0x02 or 0x01 and does nothing else. -/
  | unknownOpcode (opcode : Byte) (frame : SvpFrame)
  deriving DecidableEq, Repr

end Sys2Proof
end

