-- ==== Sys2Proof/Decode.lean ====
section
/-! DEFINITION. Decoding of a word by the bits of the table of operations, and the Opolkin instruction word: its fields and the
instruction that its opcode selects (R46, R49, R51, R57). -/

namespace Sys2Proof

/-- The command that a word spells by the table's bits. No row of the table gives bits, so no word spells one. -/
def decodeTableWord (_nbits _w : Nat) : Option Instr := none

/-- The fields of an instruction word beside the opcode (R46). -/
def Insn.ofWord (x : W72) : Insn :=
  { fmt := x.extractLsb' 61 3, dst := x.extractLsb' 55 6, srcA := x.extractLsb' 49 6, srcB := x.extractLsb' 43 6
    pred := x.extractLsb' 40 3, neg := x.getLsbD 39, sub := x.extractLsb' 36 3, low := x.extractLsb' 0 36 }

/-- The instruction word of an opcode and its fields (R46). -/
def Insn.word (op : BitVec 8) (w : Insn) : W72 :=
  op ++ (w.fmt ++ (w.dst ++ (w.srcA ++ (w.srcB ++ (w.pred ++ (BitVec.ofBool w.neg ++ (w.sub ++ w.low)))))))

/-- The instruction that an opcode names in the opcode map; none for a reserved one (R57). -/
def opcodeRow (op : Nat) : Option (Ctx → Insn → Instr) :=
  match op with
  | 0x00 => some .ill
  | 0x01 => some .nop
  | 0x02 => some .mov
  | 0x03 => some .movhi
  | 0x04 => some .add
  | 0x05 => some .sub
  | 0x06 => some .mul
  | 0x07 => some .mulh
  | 0x08 => some .div
  | 0x09 => some .rem
  | 0x0A => some .min
  | 0x0B => some .max
  | 0x0C => some .abs
  | 0x0D => some .neg
  | 0x10 => some .andW
  | 0x11 => some .orW
  | 0x12 => some .xorW
  | 0x13 => some .andn
  | 0x14 => some .shl
  | 0x15 => some .shr
  | 0x16 => some .sar
  | 0x17 => some .rot
  | 0x18 => some .bfx
  | 0x19 => some .bfi
  | 0x1A => some .clz
  | 0x1B => some .popc
  | 0x1C => some .cmp
  | 0x1D => some .cmpu
  | 0x1E => some .sel
  | 0x1F => some .plog
  | 0x20 => some .faddH
  | 0x21 => some .fmulH
  | 0x22 => some .ffmaH
  | 0x23 => some .fmnxH
  | 0x24 => some .fcmpH
  | 0x25 => some .fsgnH
  | 0x26 => some .fcvt
  | 0x28 => some .faddS
  | 0x29 => some .fmulS
  | 0x2A => some .ffmaS
  | 0x2B => some .fmnxS
  | 0x2C => some .fcmpS
  | 0x2D => some .fdivS
  | 0x2E => some .fsqrtS
  | 0x2F => some .fsgnS
  | 0x30 => some .saddQ
  | 0x31 => some .ssubQ
  | 0x32 => some .smulQ
  | 0x33 => some .smadQ
  | 0x34 => some .sabsQ
  | 0x38 => some .lane
  | 0x39 => some .swzH
  | 0x40 => some .br
  | 0x41 => some .jmp
  | 0x42 => some .call
  | 0x43 => some .callr
  | 0x44 => some .ret
  | 0x45 => some .loop
  | 0x46 => some .endProg
  | 0x47 => some .fail
  | 0x48 => some .yield
  | 0x60 => some .ld
  | 0x61 => some .lds
  | 0x62 => some .st
  | 0x63 => some .ldp
  | 0x64 => some .atom
  | 0x65 => some .pref
  | 0x66 => some .flush
  | 0x67 => some .mfence
  | 0x80 => some .enq
  | 0x81 => some .kick
  | 0x82 => some .waitev
  | 0x83 => some .fence
  | 0x84 => some .txb
  | 0x85 => some .txc
  | 0x86 => some .txa
  | 0x87 => some .sto
  | 0x88 => some .ldo
  | 0x89 => some .snap
  | 0x8A => some .rdtime
  | 0x8B => some .rdid
  | 0xA0 => some .vaddH
  | 0xA1 => some .vmulH
  | 0xA2 => some .vfmaH
  | 0xA3 => some .vmnxH
  | 0xA4 => some .vaddS
  | 0xA5 => some .vmulS
  | 0xA6 => some .vfmaS
  | 0xA7 => some .vrcp
  | 0xA8 => some .vexl
  | 0xA9 => some .vtrg
  | 0xAA => some .viadd
  | 0xAB => some .vlog
  | 0xAC => some .vshf
  | 0xAD => some .vcmp
  | 0xAE => some .vsel
  | 0xAF => some .vcvt
  | 0xB0 => some .vbcast
  | 0xB1 => some .vred
  | 0xB2 => some .vperm
  | 0xB8 => some .vldl
  | 0xB9 => some .vstl
  | 0xBA => some .vldg
  | 0xBB => some .vstg
  | 0xBC => some .vatom
  | 0xC0 => some .tex
  | 0xC1 => some .texl
  | 0xC2 => some .texg
  | 0xC3 => some .texf
  | 0xC4 => some .texq
  | 0xD0 => some .pxld
  | 0xD1 => some .pxst
  | 0xD2 => some .pxbld
  | 0xD3 => some .ilkb
  | 0xD4 => some .ilke
  | 0xD5 => some .kill
  | 0xD6 => some .emit
  | 0xD7 => some .attr
  | 0xD8 => some .deriv
  | 0xE0 => some .amac
  | 0xE1 => some .amsu
  | 0xE2 => some .aldc
  | 0xE3 => some .adlr
  | 0xE4 => some .adlw
  | 0xE5 => some .ain
  | 0xE6 => some .aout
  | 0xE7 => some .arnd
  | 0xE8 => some .abiq
  | 0xE9 => some .aramp
  | 0xEA => some .apeak
  | 0xF0 => some .csrr
  | 0xF1 => some .csrw
  | 0xF2 => some .eret
  | 0xF3 => some .pld
  | 0xF4 => some .pst
  | 0xF5 => some .ioinv
  | 0xF6 => some .thrd
  | 0xF7 => some .ledg
  | 0xF8 => some .halt
  | 0xF9 => some .wdog
  | _ => none

/-- Whether a context is a guest thread. -/
def Ctx.isGuest (c : Ctx) : Bool :=
  match c with
  | .guest _ => true
  | _ => false

/-- The command that a context issues when it decodes an instruction word (R46, R57). A reserved opcode acts as ILL, which raises EX_ILLEGAL; one of
the privileged range acts on a guest thread as the privileged opcode WDOG, which raises EX_PRIV there (R49, R51). -/
def decodeInsn (c : Ctx) (x : W72) : Instr :=
  match opcodeRow (x.extractLsb' 64 8).toNat with
  | some row => row c (.ofWord x)
  | none => if c.isGuest && decide (0xF0 ≤ (x.extractLsb' 64 8).toNat) then .wdog c (.ofWord x) else .ill c (.ofWord x)

end Sys2Proof
end

