-- ==== Sys2Proof/Machine/CoreParts.lean ====
section
/-! DEFINITION. The parts of the device state that chapters 01 to 04 name: register banks and threads,
rings with their ledger entries, operations held by engines, transactions, functions and host ports. -/

namespace Sys2Proof.Machine

/-- One scalar register bank: g0 to g63 (absent reads 0) and k0 to k7 as bits (R48). -/
structure Bank where
  g : Tab W72
  k : BitVec 8
  deriving DecidableEq, Repr

/-- The bank at program entry: every register zero and k0 one (R80, R48). -/
def Bank.entry : Bank := { g := [], k := 1 }

/-- What every program counter carries, whatever runs it: its bank, the instruction index, the call stack,
the program's address, length and step limit, and the steps taken (R59, R60, R79, R81). -/
structure Seq where
  bank : Bank
  pc : Nat
  stack : List Nat
  base : BitVec 48
  length : Nat
  limit : Nat
  steps : Nat
  deriving DecidableEq, Repr

/-- A sequence at rest. -/
def Seq.idle : Seq := { bank := .entry, pc := 0, stack := [], base := 0, length := 0, limit := 0, steps := 0 }

/-- What an executing program is waiting for: FENCE (R70) or an event of WAITEV (R72), with the register
that receives the outcome, the deadline, and whether the event has occurred, by then, since the wait began. -/
inductive Wait where
  | none
  | fence
  | event (kind param dst deadline : Nat) (met : Bool)
  deriving DecidableEq, Repr

/-- An operation in a thread's issue buffer (R70). -/
structure Enq where
  idx : Nat
  target : BitVec 8
  kind : BitVec 8
  addr : BitVec 48
  len : Nat
  deriving DecidableEq, Repr

/-- A transaction that is open on a thread: its apply point (0 IMMEDIATE, 1 PIPE_VBLANK, 2 AUDIO_BLOCK,
3 EPOCH), its pipe, the shadow in write order and the overflow mark (R73, R74, R110). `full` is the commit time of a TXC that found
64 commits pending for its instance, until that instance has passed (R115). -/
structure Tx where
  point : BitVec 2
  pipe : Nat
  shadow : List (Nat × W72)
  overflow : Bool
  full : Option Nat
  deriving DecidableEq, Repr

/-- The guest thread of a ring (R21, R80). `acc` is the item whose program runs. -/
structure Thread where
  acc : Option Nat
  seq : Seq
  paramBase : BitVec 48
  paramLen : Nat
  buf : List Enq
  nextIdx : Nat
  wait : Wait
  tx : Option Tx
  txOpened : Nat
  txcPos : Nat
  deriving DecidableEq, Repr

/-- A thread at rest. -/
def Thread.idle : Thread :=
  { acc := .none, seq := .idle, paramBase := 0, paramLen := 0, buf := [], nextIdx := 0, wait := .none, tx := .none, txOpened := 0, txcPos := 0 }

/-- A firmware thread and its CSRs (R78), with what it waits for (R72) and the instant of its last watchdog service (R496). -/
structure FwThread where
  started : Bool
  halted : Bool
  wait : Wait
  seq : Seq
  epc : W72
  ecode : W72
  eaddr : W72
  evec : W72
  lastWdog : Nat
  deriving DecidableEq, Repr

/-- How far an accepted item has come (R158: unstarted, running, program ended). -/
inductive ItemPhase where
  | unstarted
  | running
  | ended
  deriving DecidableEq, Repr

/-- One operation index of an item as the ledger counts it (R103): complete or not, with what the engine reported. -/
structure OpRep where
  done : Bool
  status : BitVec 8
  result : Option (BitVec 64)
  late : Bool
  deferred : Bool
  superseded : Bool
  replayed : Bool
  cancelled : Bool
  deriving DecidableEq, Repr

/-- A ledger entry with the progress kept beside it (R84, R91, R102, R106). -/
structure Entry where
  acc : Nat
  item : W144
  gen : BitVec 8
  phase : ItemPhase
  progStatus : BitVec 8
  result : Option (BitVec 64)
  ops : Tab OpRep
  runs : Nat
  interrupts : Nat
  txcs : Tab Nat
  squashed : Bool
  covered : Bool
  deriving DecidableEq, Repr

/-- One ring (R86) with its thread, its ledger entries in accession order, and what R90, R95 and the
RING_RATE and RING_WAIT counts keep; `backlog` is TAIL - ACC at the last epoch boundary, and `shared` counts the shared ledger entries that
the ring holds, in use or in its reservation (R91, R94). `lost` marks a kept record that the end of the function's reset gives up (R160). -/
structure Ring where
  base : BitVec 64
  cmplBase : BitVec 64
  enable : Bool
  depthLog2 : BitVec 4
  every : BitVec 4
  tail : BitVec 16
  acc : BitVec 16
  head : BitVec 16
  cmplTail : BitVec 16
  err : BitVec 4
  nextAcc : Nat
  doneAcc : Nat
  offered : Nat
  admitted : Nat
  curOffered : Nat
  curAdmitted : Nat
  blocked : Nat
  backlog : Nat
  sinceEv : Nat
  oldestRec : Option Nat
  kept : Option W144
  lost : Bool
  entries : List Entry
  shared : Nat
  thread : Thread
  deriving DecidableEq, Repr

/-- A ring after device reset (R86, R96). -/
def Ring.atReset : Ring :=
  { base := 0, cmplBase := 0, enable := false, depthLog2 := 4, every := 0, tail := 0, acc := 0, head := 0,
    cmplTail := 0, err := 0, nextAcc := 1, doneAcc := 0, offered := 0, admitted := 0, curOffered := 0,
    curAdmitted := 0, blocked := 0, backlog := 0, sinceEv := 0, oldestRec := .none, kept := .none, lost := false,
    entries := [], shared := 0, thread := .idle }

/-- The life of an operation in an engine: released, started (descriptor read), finished, reported (R66, R103). -/
inductive OpPhase where
  | released
  | started
  | finished
  | reported
  deriving DecidableEq, Repr

/-- What a function may use of the haptic engine at the release of an operation (R332): the channels it owns, the slots it holds, the slots
that are empty, and whether it is the manager. -/
structure Rights where
  owned : List Nat
  held : List Nat
  empty : List Nat
  manager : Bool
  deriving DecidableEq, Repr

/-- An operation that an engine holds (R97, R103): its descriptor words once read, its stage inside the
engine, an instant that it keeps (its release at first), and what it reports. -/
structure Op where
  id : OpId
  fn : Nat
  gen : BitVec 8
  target : BitVec 8
  kind : BitVec 8
  addr : BitVec 48
  len : Nat
  desc : List W72
  phase : OpPhase
  stage : Nat
  due : Nat
  status : BitVec 8
  result : Option (BitVec 64)
  late : Bool
  deferred : Bool
  superseded : Bool
  replayed : Bool
  cancel : Bool
  rights : Option Rights := none
  deriving DecidableEq, Repr

/-- A commit that has passed its checks and waits for its apply point (R112 to R116); `planes` holds the translations of the pages that the
enabled Vitrine planes it writes read, and `bases` that of BASE of every plane it writes, made at the commit (R256). -/
structure Commit where
  ring : Nat
  acc : Nat
  time : Nat
  point : BitVec 2
  pipe : Nat
  writes : List (Nat × W72)
  planes : Tab (Tab Nat)
  bases : Tab Nat
  widths : Tab Nat
  deriving DecidableEq, Repr

/-- A page-table entry that the IOMMU has cached: the addresses it covers and the value read (R145). -/
structure TlbEntry where
  va : Nat
  size : Nat
  value : BitVec 64
  deriving DecidableEq, Repr

/-- A function reset in progress (R157 to R162): 1 drain, 2 squash, 3 generation discard; `waitFrom` lists,
per ring kind, the first accession without a record at step 1 of generation discard. -/
structure FnReset where
  mode : BitVec 2
  held : Bool
  begun : Nat
  limitAt : Nat
  cfg : Bool
  vanish : Bool
  waitFrom : Tab Nat
  keepFault : Bool
  deriving DecidableEq, Repr

/-- A function (R131, R133, R135, R136, R145, R146, R150): `invWhole` says that the invalidation in progress takes in the whole
space, `invQueued` that such a one follows it; `bar2Log2` is the size of a PF's BAR2, and `bars` the base addresses of its BARs. `errCtl` and
`errStat` are bits 3 to 0 of PCIe Base's Device Control and Device Status, and the `aer` fields its AER registers (R122, R123). -/
structure Fn where
  gen : BitVec 8
  evStatus : BitVec 9
  evEnable : BitVec 9
  faultInfo : BitVec 32
  faultAddr : BitVec 48
  apertureBase : BitVec 64
  pipeEv : Tab (BitVec 8)
  pipeEvEn : Tab (BitVec 8)
  hapStat : Tab (BitVec 32)
  msixTable : Tab (BitVec 128)
  pba : BitVec 8
  msixEnable : Bool
  msixMask : Bool
  d3hot : Bool
  iommuRoot : BitVec 64
  invVa : BitVec 64
  invGo : Bool
  invPages : BitVec 20
  invQueued : Bool
  invWhole : Bool
  bar2Log2 : Nat
  bars : Tab (BitVec 64)
  errCtl : BitVec 4
  errStat : BitVec 4
  aerUnc : BitVec 32
  aerUncMask : BitVec 32
  aerUncSev : BitVec 32
  aerCor : BitVec 32
  aerCorMask : BitVec 32
  tlb : Tab TlbEntry
  hold : Bool
  rst : Option FnReset
  dirtyEnable : Bool
  dirtySwap : Bool
  dirtyActive : Bool
  dirtyOut : Bool
  dirtyCount : BitVec 32
  dirtyBaseA : BitVec 64
  dirtyBaseB : BitVec 64
  dirtyVaBase : BitVec 64
  dirtyPages : BitVec 32
  ssVid : BitVec 16
  ssId : BitVec 16
  deriving DecidableEq, Repr

/-- Function f after device reset (R133, R135, R146, R150, R4); `m` is the manager. The AER masks and severities are PCIe Base's defaults
(PRESUMED, log entry 118). -/
def Fn.atReset (m f : Nat) : Fn :=
  { gen := 0, evStatus := 0, evEnable := 0x1FF, faultInfo := 0, faultAddr := 0, apertureBase := 0,
    pipeEv := [], pipeEvEn := [], hapStat := [], msixTable := [], pba := 0, msixEnable := false, msixMask := false,
    d3hot := false, iommuRoot := if f = m then 2 else 0, invVa := 0, invGo := false, invPages := 0,
    invQueued := false, invWhole := false, bar2Log2 := 28, bars := [], errCtl := 0, errStat := 0, aerUnc := 0, aerUncMask := 0,
    aerUncSev := 0x00062010, aerCor := 0, aerCorMask := 0x00002000, tlb := [], hold := false, rst := .none, dirtyEnable := false, dirtySwap := false,
    dirtyActive := false, dirtyOut := false, dirtyCount := 0, dirtyBaseA := 0, dirtyBaseB := 0, dirtyVaBase := 0,
    dirtyPages := 0, ssVid := 0x1D7A, ssId := 0 }

/-- The PCIe link of a host port (R122, R440). -/
inductive Link where
  | down
  | training
  | l0
  | l1
  deriving DecidableEq, Repr

/-- The four budget registers of a port that a scheduling epoch puts in force (R128). -/
structure Budget where
  maxVfs : Nat
  maxShared : Nat
  shareRc : BitVec 32
  shareDa : BitVec 32
  winBase : BitVec 64
  winSize : BitVec 64
  deriving DecidableEq, Repr

/-- The error messages of PCIe Base (R123), and one as sent by a function. -/
inductive ErrKind where
  | cor
  | nonfatal
  | fatal
  deriving DecidableEq, Repr

structure ErrMsg where
  fn : Nat
  kind : ErrKind
  deriving DecidableEq, Repr

/-- A host port (R122, R123, R128, R131, R163); `ptmBusy` while a dialog runs, which began at `ptmFrom`. `vfBar2Log2` and `vfBars` are the
size of BAR2 and the base addresses of the BARs of its VFs, and `errs` the error messages that it has sent. -/
structure Port where
  link : Link
  perst : Bool
  numVfs : Nat
  vfEnable : Bool
  written : Budget
  inForce : Budget
  budgetErr : Bool
  ptmDevtime : BitVec 64
  ptmHost : BitVec 64
  ptmDelay : BitVec 32
  ptmReq : Bool
  ptmBusy : Bool
  ptmFrom : Nat
  ptmValid : Bool
  ptmPeriod : BitVec 16
  ptmEnable : Bool
  ptmNext : Nat
  vfBar2Log2 : Nat
  vfBars : Tab (BitVec 64)
  errs : List ErrMsg
  deriving DecidableEq, Repr

/-- An MSI-X message write as sent: function, vector and table entry (R136). -/
structure Msg where
  fn : Nat
  vec : Nat
  entry : BitVec 128
  deriving DecidableEq, Repr

end Sys2Proof.Machine
end

