-- ==== Sys2Proof/Machine/CompParts.lean ====
section
/-! DEFINITION. The parts of the state that chapter 06 names: buffer handles, compositions and their strips,
frames that have not retired with their ownership maps, and the Vitrine pages. -/

namespace Sys2Proof.Machine

/-- The state of a buffer handle (R220). -/
inductive HandleState where
  | free
  | registered
  | freeing
  deriving DecidableEq, Repr

/-- A handle-table entry (R220, R222, R227): its surface words, how often it was registered, the BUF_FREE that waits for it, and whether
its VF has been disabled. -/
structure Handle where
  state : HandleState
  words : List W72
  serial : Nat
  freeOp : Option OpId
  vanished : Bool
  deriving DecidableEq, Repr

/-- A handle after device reset. -/
def Handle.atReset : Handle := { state := .free, words := [], serial := 0, freeOp := .none, vanished := false }

/-- A rectangle of an ownership map (R259), bottom first: edges included, owner, touch passing through. -/
structure MapRect where
  x0 : Int
  y0 : Int
  x1 : Int
  y1 : Int
  owner : Nat
  pass : Bool
  deriving DecidableEq, Repr

/-- A haptic zone as applied for a frame (R337): instance and its words 1 to 4 and owner. -/
structure MapZone where
  inst : Nat
  words : List W72
  deriving DecidableEq, Repr

/-- A composition (R242, R244, R246): the VBLANK it is of, the field words it reads by key with the function of each handle
word, the handles it reads with how often each was registered, the slots it shows, the size composed, the frame buffer it
writes, its deadline, the tiles finished, whether it came late. -/
structure Composition where
  frame : Nat
  settings : Tab W72
  fns : Tab Nat
  handles : Tab Nat
  shown : Tab W72
  width : Nat
  height : Nat
  target : Nat
  toB : Bool
  deadline : Nat
  tilesDone : List Nat
  doneAt : Option Nat
  late : Bool
  deriving DecidableEq, Repr

/-- A frame of a pipe that has not retired, or whose map is retained (R224, R242, R259, R261, R316). `kind` is 0 for
BACKGROUND, 1 for a frame buffer, 2 for a chased frame; `content` the VBLANK from which its content was composed. -/
structure Frame where
  n : Nat
  kind : Nat
  content : Nat
  stamp : Option Nat
  dark : Bool
  late : Bool
  handles : List Nat
  map : List MapRect
  layoutOwner : Nat
  zones : List MapZone
  shown : Tab W72
  retired : Bool
  deriving DecidableEq, Repr

/-- A PRESENT that waits (R249): its op-id, its release, the VBLANK it is due at once that has begun, and LATE. -/
structure PresentWait where
  id : OpId
  at_ : Nat
  frame : Option Nat
  late : Bool
  deriving DecidableEq, Repr

/-- Composition state of one pipe (R237, R242 to R249). `current` is the frame-mode composition under way or not yet scanned,
`content` the one that the frame buffer scanned holds, `chase` the frame chased; `strips` holds the layer result of the frame
chased, by pixel; `opened` and `missed` are strips of that frame, `stripBad` its poisoned lines of the strip ring, by row (R390); `misses` the frames of the strips missed. `block` is the block of the
tile-list pool that the compositor context holds for them (R200). -/
structure PipeComp where
  mode : BitVec 2
  fallback : Bool
  wantFallback : Bool
  shownB : Bool
  ringW : Nat
  misses : List Nat
  current : Option Composition
  content : Option Composition
  chase : Option Composition
  strips : Tab W72
  opened : List Nat
  missed : List Nat
  stripBad : List (Nat × Nat)
  presents : List PresentWait
  frames : List Frame
  block : Option Nat
  deriving DecidableEq, Repr

/-- A pipe's composition state after device reset (R237). -/
def PipeComp.atReset : PipeComp :=
  { mode := 0, fallback := false, wantFallback := false, shownB := false, ringW := 0, misses := [], current := .none, content := .none,
    chase := .none, strips := [], opened := [], missed := [], stripBad := [], presents := [], frames := [], block := none }

/-- Composition and Vitrine. `handles` is numbered 256 × function + handle; `slotFn` gives the function whose
table a slot's HANDLE, or a layout's handles, are taken from (R229); `planes` the translations held (R256); `live`
the status words not yet published (R263). -/
structure Comp where
  handles : Tab Handle
  slotFn : Tab Nat
  pipes : Tab PipeComp
  pages : Tab (BitVec 2)
  planes : Tab (Tab Nat)
  live : Tab W72
  deriving DecidableEq, Repr

/-- Composition and Vitrine after device reset. -/
def Comp.atReset : Comp := { handles := [], slotFn := [], pipes := [], pages := [], planes := [], live := [] }

end Sys2Proof.Machine
end

