-- ==== Sys2Proof/Machine/GlassParts.lean ====
section
/-! DEFINITION. The parts of the state that chapters 07 and 08 name: pipe timing, genlock and TE inputs,
output ports, touch channels and their contacts, haptic channels and effect slots. -/

namespace Sys2Proof.Machine

/-- Timing of one pipe (R40, R276, R277, R287, R288, R291 to R296). `lastVb` and `firstLine` are the stamps of the frame being scanned and
`vbAt` the exact instant of its VBLANK; at the exact instant `mark`, from which on the increment has not changed, the pipe had scanned
`markPos` pixels since that VBLANK. `hold` is the number of lines that its adaptive hold lasted, once it has ended; `relinkUp` the instant
at which its link came UP; `quiet` counts frames towards self-refresh. `missPhase` counts edges in LOCKED with a large error, `held` is the
loop's frequency state; `slipLines` lengthens the frame being scanned, `slipNext` the one that follows, `offsetWant` is an error in ns that
an offset of N is to correct, and `offsetUntil` the exact instant at which the offset in force ends. `lastEdge` is in 1/64 ns; `showcase`
while the frame scanned is a Vitrine-only one of SHOWCASE; `teLostAt` the instant of the last TE_LOST; `ltNow` the smallest latency
tolerance of the frame being scanned so far, `ltMin` that of the last one; `late` while data of the frame scanned have arrived late (R407). -/
structure PipeTime where
  frame : BitVec 48
  inc : BitVec 40
  mark : Rat
  markPos : Rat
  vbAt : Rat
  lastVb : Option Nat
  firstLine : Option Nat
  stampedFrame : BitVec 48
  flipStamp : BitVec 64
  darkFrames : BitVec 24
  glk : BitVec 3
  good : Nat
  bad : Nat
  missPhase : Nat
  held : Rat
  offsetUntil : Option Rat
  offsetWant : Option Rat
  slipLines : Nat
  slipNext : Nat
  phaseErr : BitVec 24
  glkPeriod : BitVec 40
  lastEdge : Option Nat
  relinkUp : Option Nat
  quiet : Nat
  selfRefresh : Bool
  active : Bool
  hold : Option Nat
  showcase : Bool
  teLast : Option Nat
  tePrev : Option Nat
  teMissing : Bool
  teLostAt : Nat
  ltNow : Nat
  ltMin : Nat
  late : Bool
  deriving DecidableEq, Repr

/-- A pipe after device reset (R273, R277). -/
def PipeTime.atReset : PipeTime :=
  { frame := 0, inc := 0, mark := 0, markPos := 0, vbAt := 0, lastVb := .none, firstLine := .none, stampedFrame := 0, flipStamp := 0, darkFrames := 0,
    glk := 0, good := 0, bad := 0, missPhase := 0, held := 0, offsetUntil := .none, offsetWant := .none, slipLines := 0, slipNext := 0, phaseErr := 0,
    glkPeriod := 0, lastEdge := .none, relinkUp := .none, quiet := 0, selfRefresh := false, active := false,
    hold := .none, showcase := false, teLast := .none, tePrev := .none, teMissing := false, teLostAt := 0,
    ltNow := 16777215, ltMin := 16777215, late := false }

/-- A display port (R273, R300, R302, R462, R463): LINK code 0 OFF, 1 TRAINING, 2 UP, 3 DOWN, 4 FAILED. `initStep`
is the next PANEL_INIT write, `initFails` its failures, `tries` the failed attempts to train; `trainFrom` is the instant of the last
change of LINK. -/
structure DispPort where
  link : BitVec 3
  hpd : Bool
  edp : Bool
  tries : Nat
  trainFrom : Nat
  trained : BitVec 4
  losses : BitVec 16
  irqs : BitVec 24
  initStep : Nat
  initFails : Nat
  initDue : Nat
  deriving DecidableEq, Repr

/-- A display port after device reset. -/
def DispPort.atReset : DispPort :=
  { link := 0, hpd := false, edp := false, tries := 0, trainFrom := 0, trained := 0, losses := 0, irqs := 0,
    initStep := 0, initFails := 0, initDue := 0 }

/-- A GLK input (R289, R302): last period in 1/64 ns, instants of the last frame edge and line pulse in 1/64 ns, and the period that
line pulses measured last, in 1/64 ns. -/
structure GlkIn where
  period : BitVec 40
  lastEdge : Option Nat
  lastLine : Option Nat
  linePeriod : Option Nat
  deriving DecidableEq, Repr

/-- A FLIP that waits (R281): its VBLANK once due, and LATE. -/
structure FlipWait where
  id : OpId
  fn : Nat
  pipe : Nat
  at_ : Nat
  frame : Option Nat
  late : Bool
  deriving DecidableEq, Repr

/-- One PANEL_INIT sideband write (R463): kind, type, address, data and the delay after it in ns. -/
structure PanelStep where
  kind : Nat
  type : Nat
  addr : Nat
  data : List Byte
  delay : Nat
  deriving DecidableEq, Repr

/-- Display state (R269, R302). `modes` holds the panel and defined entries by mode number; `msgs` the PORT_MSGs sent,
with the instant and the retries left. -/
structure Disp where
  pipes : Tab PipeTime
  ports : Tab DispPort
  glks : Tab GlkIn
  modes : Tab (List W72)
  override : BitVec 12
  flips : List FlipWait
  msgs : List (OpId × Nat × Nat)
  panelInit : Tab (List PanelStep)
  deriving DecidableEq, Repr

/-- Display state after device reset without provisioning. -/
def Disp.atReset : Disp :=
  { pipes := [], ports := [], glks := [], modes := [], override := 0, flips := [], msgs := [], panelInit := [] }

/-- An active contact (R308 to R317). Positions are F36 pixel coordinates; `sentX` and `sentY` the last delivered
position; `ident` is the HID contact identifier, `serial` the contact's number among all that the channel has begun; `px` and `py` the raw peak position in 1/65536 node. -/
structure Contact where
  num : Nat
  serial : Nat
  ident : Nat
  owner : Nat
  px : Int
  py : Int
  x : Nat
  y : Nat
  sentX : Nat
  sentY : Nat
  width : Nat
  height : Nat
  pressure : Nat
  sentPressure : Nat
  absent : Nat
  fresh : Bool
  deriving DecidableEq, Repr

/-- One finger entry of a HID report (R307, R308), with the logical ranges of its X and Y. -/
structure Finger where
  tip : Bool
  confidence : Bool
  id : Nat
  x : Int
  y : Int
  xMin : Int
  xMax : Int
  yMin : Int
  yMax : Int
  width : Nat
  height : Nat
  pressure : Nat
  deriving DecidableEq, Repr

/-- A data field of an input report (R307): the report's identifier, the field's first bit after it and its size, its usage (page × 65536
+ usage), the Finger collection that holds it, if one does, and its logical range. -/
structure HidField where
  report : Nat
  pos : Nat
  size : Nat
  usage : Nat
  finger : Option Nat
  lo : Int
  hi : Int
  deriving DecidableEq, Repr

/-- What the engine keeps of a report descriptor (R307): whether its reports begin with an identifier, whether it holds a Touch Screen
collection, how many Finger collections that holds, and the data fields within it; `lens` the bits of each input report. -/
structure HidDesc where
  ids : Bool
  touchScreen : Bool
  fingers : Nat
  fields : List HidField
  lens : Tab Nat
  deriving DecidableEq, Repr

/-- A touch channel (R304, R306, R308, R311, R315). `serial` counts the contacts begun. `sums` holds, by node, the sum of the frames learnt in BASELINE and the
run of frames with a signal far below zero in ACTIVE. -/
structure TouchChan where
  state : BitVec 3
  cause : BitVec 5
  src : BitVec 8
  reports : BitVec 48
  rangeDrops : BitVec 16
  timeouts : BitVec 16
  overflows : BitVec 16
  busErrors : BitVec 16
  lastStamp : BitVec 64
  errRun : Nat
  faultAt : Nat
  desc : Option HidDesc
  scanLeft : Nat
  scan : List Finger
  contacts : List Contact
  baseline : List Int
  learnt : Nat
  sums : List Nat
  serial : Nat
  deriving DecidableEq, Repr

/-- A touch channel after device reset (R304). -/
def TouchChan.atReset : TouchChan :=
  { state := 0, cause := 0, src := 0, reports := 0, rangeDrops := 0, timeouts := 0, overflows := 0, busErrors := 0,
    lastStamp := 0, errRun := 0, faultAt := 0, desc := .none, scanLeft := 0, scan := [], contacts := [],
    baseline := [], learnt := 0, sums := [], serial := 0 }

/-- A posted TOUCH_RECEIVE buffer (R319). -/
structure TouchBuf where
  id : OpId
  addr : BitVec 48
  count : Nat
  filled : Nat
  deriving DecidableEq, Repr

/-- Delivery to one function (R319 to R321): posted buffers, SEQ and OVERFLOW, and the records held: four words; a fifth,
the zone and one, while the record waits for the start of its effect; and a sixth, the contact's serial number. -/
structure TouchFn where
  bufs : List TouchBuf
  held : List (List W72)
  seq : BitVec 16
  overflow : Bool
  deriving DecidableEq, Repr

/-- A function's delivery state after device reset. -/
def TouchFn.atReset : TouchFn := { bufs := [], held := [], seq := 0, overflow := false }

/-- The touch engine; stored baselines lie in the settings store (R489). -/
structure Touch where
  chans : Tab TouchChan
  fns : Tab TouchFn
  deriving DecidableEq, Repr

/-- The touch engine after device reset. -/
def Touch.atReset : Touch := { chans := [], fns := [] }

/-- What started an effect (R339, R340): a zone fire with its delivery record's holder, a GO write, a PLAY. -/
inductive TrigKind where
  | zone (zone : Nat)
  | go (fn : Nat)
  | play (id : OpId)
  deriving DecidableEq, Repr

/-- A trigger accepted and waiting for its sample (R339). -/
structure Trig where
  kind : TrigKind
  slot : Nat
  gain : Nat
  reached : Option Nat
  deriving DecidableEq, Repr

/-- A queued STREAM (R335). -/
structure StreamBuf where
  id : OpId
  samples : List Nat
  sent : Nat
  released : Nat
  deriving DecidableEq, Repr

/-- A haptic channel (R325, R327 to R330, R335): state code, the effect playing with its position and gain, the
integrator, last drive, model state and envelopes (as F36 patterns), brake counters, and what waits. `ofSlot` while what plays, or brakes, is a
slot's effect and no stream. -/
structure HapChan where
  state : BitVec 3
  streaming : Bool
  ofSlot : Bool
  slot : Nat
  pos : Nat
  gain : Nat
  integ : Nat
  lastU : Nat
  clipped : Bool
  model : List Nat
  envelope : List Nat
  command : List Nat
  residual : List Nat
  odCount : Nat
  brakeCount : Nat
  zeroCross : List Nat
  lastEmf : Nat
  f0Est : BitVec 18
  pending : List Trig
  deferred : List Trig
  queue : List StreamBuf
  lastRelease : Nat
  lastStart : BitVec 64
  deferrals : BitVec 16
  underruns : BitVec 16
  faults : BitVec 16
  clips : BitVec 16
  peakI : BitVec 18
  curPeak : BitVec 18
  deriving DecidableEq, Repr

/-- A haptic channel after device reset (R325). -/
def HapChan.atReset : HapChan :=
  { state := 0, streaming := false, ofSlot := false, slot := 0, pos := 0, gain := 0, integ := 0, lastU := 0, clipped := false, model := [],
    envelope := [], command := [], residual := [], odCount := 0, brakeCount := 0, zeroCross := [], lastEmf := 0,
    f0Est := 0, pending := [], deferred := [], queue := [], lastRelease := 0, lastStart := 0, deferrals := 0,
    underruns := 0, faults := 0, clips := 0, peakI := 0, curPeak := 0 }

/-- An effect slot (R331, R333). -/
structure EffSlot where
  holder : Option Nat
  samples : List Nat
  emptyAfter : Bool
  deriving DecidableEq, Repr

/-- The haptic engine: channels, slots, the zones' live status words, the frame last sent on HLK_DO of each link (R323), the number of
24 kHz samples taken and the instant of the last, and where the sample clock's grid began: an instant, and the sample taken there. -/
structure Haptic where
  chans : Tab HapChan
  slots : Tab EffSlot
  fires : Tab (W72 × W72)
  links : List (List (BitVec 32))
  samples : Nat
  lastAt : Nat
  origin : Option (Nat × Nat)
  deriving DecidableEq, Repr

/-- The haptic engine after device reset. -/
def Haptic.atReset : Haptic := { chans := [], slots := [], fires := [], links := [], samples := 0, lastAt := 0, origin := none }

end Sys2Proof.Machine
end

