-- ==== Sys2Proof/Machine/Hid.lean ====
section
/-! DEFINITION. HID report descriptors and reports of touch controllers (R307, R308), as the HID specification that R303 names codes them.
PRESUMED: the item coding is that of the Device Class Definition for HID 1.11, which the manual does not repeat. -/

namespace Sys2Proof.Machine

/-! Usages, page × 65536 + usage (R307). -/

def useTouchScreen : Nat := 0x000D0004
def useFinger : Nat := 0x000D0022
def useTip : Nat := 0x000D0042
def useContact : Nat := 0x000D0051
def useConfidence : Nat := 0x000D0047
def useWidth : Nat := 0x000D0048
def useHeight : Nat := 0x000D0049
def usePressure : Nat := 0x000D0030
def useCount : Nat := 0x000D0054
def useX : Nat := 0x00010030
def useY : Nat := 0x00010031

/-! The descriptor. -/

/-- The global items in force: usage page, logical range, report size, identifier and count. -/
structure HidGlobals where
  page : Nat
  lo : Int
  hi : Int
  size : Nat
  id : Nat
  count : Nat
  deriving DecidableEq, Repr

/-- A descriptor being read: globals and those pushed, the usages since the last main item (0x100000000 above those that name their
page) and a usage range begun, the open collections (whether each is the Touch Screen one, and its Finger number), and what is kept. -/
structure HidRead where
  now : HidGlobals
  stack : List HidGlobals
  usages : List Nat
  first : Nat
  path : List (Bool × Option Nat)
  desc : HidDesc
  deriving DecidableEq, Repr

/-- Before the first item. -/
def HidRead.start : HidRead :=
  { now := { page := 0, lo := 0, hi := 0, size := 0, id := 0, count := 0 }, stack := [], usages := [], first := 0, path := [],
    desc := { ids := false, touchScreen := false, fingers := 0, fields := [], lens := [] } }

/-- A usage with the page in force at the main item, where it names none. -/
def HidRead.usage (r : HidRead) (u : Nat) : Nat := if 2 ^ 32 ≤ u then u - 2 ^ 32 else r.now.page * 65536 + u

/-- Usage i of a main item: the last one serves the rest. -/
def HidRead.usageAt (r : HidRead) (i : Nat) : Nat := r.usage (nth r.usages i (r.usages.getLastD 0))

/-- An INPUT item: data variables within the Touch Screen collection are kept, arrays and constants only take their bits. -/
def HidRead.input (r : HidRead) (flags : Nat) : HidRead :=
  let g := r.now
  let used := tget r.desc.lens g.id 0
  let field (i : Nat) : HidField :=
    { report := g.id, pos := used + i * g.size, size := g.size, usage := r.usageAt i, finger := (r.path.findSome? (fun p => p.2)), lo := g.lo, hi := g.hi }
  let keep := flags % 4 = 2 && r.path.any (fun p => p.1)
  { r with
    usages := []
    desc := { r.desc with
      fields := if keep then r.desc.fields ++ (List.range g.count).map field else r.desc.fields
      lens := tset r.desc.lens g.id (used + g.count * g.size) } }

/-- A COLLECTION item: an application collection of usage Touch Screen, and within it the logical collections of usage Finger. -/
def HidRead.openCollection (r : HidRead) (kind : Nat) : HidRead :=
  let u := r.usageAt 0
  let screen := kind = 1 && u = useTouchScreen
  let finger := kind = 2 && u = useFinger && r.path.any (fun p => p.1)
  { r with
    usages := [], path := (screen, if finger then some r.desc.fingers else none) :: r.path
    desc := { r.desc with touchScreen := r.desc.touchScreen || screen, fingers := r.desc.fingers + finger.toNat } }

/-- One short item: type and tag, and its n data bytes as the number v. -/
def HidRead.item (r : HidRead) (kind tag n v : Nat) : HidRead :=
  let s : Int := if n = 0 then 0 else toSigned (8 * n) v
  match kind, tag with
  | 0, 0x8 => r.input v
  | 0, 0xA => r.openCollection v
  | 0, 0xC => { r with usages := [], path := r.path.tail }
  | 0, _ => { r with usages := [] }
  | 1, 0x0 => { r with now := { r.now with page := v } }
  | 1, 0x1 => { r with now := { r.now with lo := s } }
  | 1, 0x2 => { r with now := { r.now with hi := s } }
  | 1, 0x7 => { r with now := { r.now with size := v } }
  | 1, 0x8 => { r with now := { r.now with id := v }, desc := { r.desc with ids := true } }
  | 1, 0x9 => { r with now := { r.now with count := v } }
  | 1, 0xA => { r with stack := r.now :: r.stack }
  | 1, 0xB => { r with now := r.stack.headD r.now, stack := r.stack.tail }
  | 2, 0x0 => { r with usages := r.usages ++ [if n = 4 then v + 2 ^ 32 else v] }
  | 2, 0x1 => { r with first := if n = 4 then v + 2 ^ 32 else v }
  | 2, 0x2 =>
    let last := if n = 4 then v + 2 ^ 32 else v
    { r with usages := r.usages ++ (List.range (Nat.min (last + 1 - r.first) 65536)).map (fun i => r.first + i) }
  | _, _ => r

/-- The items of a descriptor: short items, and long items, which are skipped. Bytes that end within an item are not one. -/
def HidRead.items (fuel : Nat) (r : HidRead) (l : List Byte) : HidRead :=
  match fuel, l with
  | k + 1, b :: t =>
    if b = 0xFE then HidRead.items k r (t.drop (2 + ofBytes (t.take 1)))
    else
      let n := nth [0, 1, 2, 4] (b.toNat % 4) 0
      if t.length < n then r else HidRead.items k (r.item (b.toNat / 4 % 4) (b.toNat / 16) n (ofBytes (t.take n))) (t.drop n)
  | _, _ => r

/-- The descriptor that bytes code. -/
def hidDesc (l : List Byte) : HidDesc := (HidRead.items l.length .start l).desc

/-- Whether a Finger collection, or with none the report level, holds a usage. -/
def HidDesc.has (x : HidDesc) (finger : Option Nat) (u : Nat) : Bool := x.fields.any (fun f => f.finger = finger && f.usage = u)

/-- Whether a report descriptor meets R307. -/
def descUsable (l : List Byte) : Bool :=
  let x := hidDesc l
  decide (l.length ≤ 4096) && x.touchScreen && (1 ≤ x.fingers && x.fingers ≤ 10) && x.has none useCount &&
    (List.range x.fingers).all (fun n => [useTip, useContact, useX, useY].all (fun u => x.has (some n) u))

/-! Reports. -/

/-- The value of a field in the bytes of a report after its identifier: signed where its logical minimum is negative. -/
def HidField.value (f : HidField) (l : List Byte) : Int :=
  let v := ofBytes l / 2 ^ f.pos % 2 ^ f.size
  if f.lo < 0 then toSigned f.size v else (v : Int)

/-- A touch report read by its descriptor (R308): Contact Count and the finger entries, in the descriptor's order. A report of another
identifier, without a Contact Count, or shorter than its descriptor says is none (DESIGN CHOICE, the log's entry 82). -/
def HidDesc.report (x : HidDesc) (bytes : List Byte) : Option (Nat × List Finger) :=
  let id := if x.ids then ofBytes (bytes.take 1) else 0
  let l := if x.ids then bytes.drop 1 else bytes
  let mine := x.fields.filter (fun f => f.report = id)
  let look (n : Option Nat) (u : Nat) : Option HidField := mine.find? (fun f => f.finger = n && f.usage = u)
  match look none useCount with
  | none => none
  | some cc =>
    if 8 * l.length < tget x.lens id 0 then none
    else
      let num (n : Nat) (u : Nat) : Nat := match look (some n) u with | some f => (f.value l).toNat | none => 0
      let finger (n : Nat) : Option Finger :=
        match look (some n) useX, look (some n) useY with
        | some fx, some fy =>
          some
            { tip := num n useTip ≠ 0, confidence := (look (some n) useConfidence).isNone || num n useConfidence ≠ 0, id := num n useContact
              x := fx.value l, y := fy.value l, xMin := fx.lo, xMax := fx.hi, yMin := fy.lo, yMax := fy.hi
              width := num n useWidth, height := num n useHeight, pressure := num n usePressure }
        | _, _ => none
      some ((cc.value l).toNat, (List.range x.fingers).filterMap finger)

end Sys2Proof.Machine
end

