-- ==== Sys2Proof/Machine/Crypto.lean ====
section
/-! DEFINITION. The published functions that the manual names and does not define, in the form of their standards (PRESUMED, log entry 12):
SHA-384 (FIPS 180-4), ECDSA P-384 verification (FIPS 186-5) and the AES-256-GCM tag (FIPS 197, SP 800-38D). -/

namespace Sys2Proof.Machine

/-- Bytes as a number, the most significant first, and back. -/
def natBE (l : List Byte) : Nat := l.foldl (fun n b => n * 256 + b.toNat) 0
def toBytesBE (n x : Nat) : List Byte := (toBytes n x).reverse

/-! SHA-384. -/

/-- The round constants of SHA-512. -/
def shaConstants : List Nat :=
  [0x428a2f98d728ae22, 0x7137449123ef65cd, 0xb5c0fbcfec4d3b2f, 0xe9b5dba58189dbbc, 0x3956c25bf348b538,
   0x59f111f1b605d019, 0x923f82a4af194f9b, 0xab1c5ed5da6d8118, 0xd807aa98a3030242, 0x12835b0145706fbe,
   0x243185be4ee4b28c, 0x550c7dc3d5ffb4e2, 0x72be5d74f27b896f, 0x80deb1fe3b1696b1, 0x9bdc06a725c71235,
   0xc19bf174cf692694, 0xe49b69c19ef14ad2, 0xefbe4786384f25e3, 0x0fc19dc68b8cd5b5, 0x240ca1cc77ac9c65] ++
  [0x2de92c6f592b0275, 0x4a7484aa6ea6e483, 0x5cb0a9dcbd41fbd4, 0x76f988da831153b5, 0x983e5152ee66dfab,
   0xa831c66d2db43210, 0xb00327c898fb213f, 0xbf597fc7beef0ee4, 0xc6e00bf33da88fc2, 0xd5a79147930aa725,
   0x06ca6351e003826f, 0x142929670a0e6e70, 0x27b70a8546d22ffc, 0x2e1b21385c26c926, 0x4d2c6dfc5ac42aed,
   0x53380d139d95b3df, 0x650a73548baf63de, 0x766a0abb3c77b2a8, 0x81c2c92e47edaee6, 0x92722c851482353b] ++
  [0xa2bfe8a14cf10364, 0xa81a664bbc423001, 0xc24b8b70d0f89791, 0xc76c51a30654be30, 0xd192e819d6ef5218,
   0xd69906245565a910, 0xf40e35855771202a, 0x106aa07032bbd1b8, 0x19a4c116b8d2d0c8, 0x1e376c085141ab53,
   0x2748774cdf8eeb99, 0x34b0bcb5e19b48a8, 0x391c0cb3c5c95a63, 0x4ed8aa4ae3418acb, 0x5b9cca4f7763e373,
   0x682e6ff3d6b2b8a3, 0x748f82ee5defb2fc, 0x78a5636f43172f60, 0x84c87814a1f0ab72, 0x8cc702081a6439ec] ++
  [0x90befffa23631e28, 0xa4506cebde82bde9, 0xbef9a3f7b2c67915, 0xc67178f2e372532b, 0xca273eceea26619c,
   0xd186b8c721c0c207, 0xeada7dd6cde0eb1e, 0xf57d4f7fee6ed178, 0x06f067aa72176fba, 0x0a637dc5a2c898a6,
   0x113f9804bef90dae, 0x1b710b35131c471b, 0x28db77f523047d84, 0x32caab7b40c72493, 0x3c9ebe0a15c9bebc,
   0x431d67c49c100d4c, 0x4cc5d4becb3e42b6, 0x597f299cfc657e2a, 0x5fcb6fab3ad6faec, 0x6c44198c4a475817]

/-- The initial hash value of SHA-384. -/
def shaInit : List Nat :=
  [0xcbbb9d5dc1059ed8, 0x629a292a367cd507, 0x9159015a3070dd17, 0x152fecd8f70e5939, 0x67332667ffc00b31,
   0x8eb44a8768581511, 0xdb0c2e0d64f98fa7, 0x47b5481dbefa4fa4]

/-- Rotation and shift to the right of a 64-bit word. -/
def shaRot (n x : Nat) : Nat := x >>> n + (x <<< (64 - n)) % 2 ^ 64
def shaXor (a b c : Nat) : Nat := Nat.xor (Nat.xor a b) c

/-- The message schedule, the newest word first: n more words after the first sixteen. -/
def shaSchedule (n : Nat) (w : List Nat) : List Nat :=
  match n with
  | 0 => w
  | m + 1 =>
    let s0 := let x := nth w 14 0; shaXor (shaRot 1 x) (shaRot 8 x) (x >>> 7)
    let s1 := let x := nth w 1 0; shaXor (shaRot 19 x) (shaRot 61 x) (x >>> 6)
    shaSchedule m ((s1 + nth w 6 0 + s0 + nth w 15 0) % 2 ^ 64 :: w)

/-- One round over the eight working variables, with the word and the constant of the round. -/
def shaRound (v : List Nat) (wk : Nat × Nat) : List Nat :=
  match v with
  | [a, b, c, d, e, f, g, h] =>
    let t1 := h + shaXor (shaRot 14 e) (shaRot 18 e) (shaRot 41 e) + Nat.xor (Nat.land e f) (Nat.land (2 ^ 64 - 1 - e) g) + wk.1 + wk.2
    let t2 := shaXor (shaRot 28 a) (shaRot 34 a) (shaRot 39 a) + shaXor (Nat.land a b) (Nat.land a c) (Nat.land b c)
    [(t1 + t2) % 2 ^ 64, a, b, c, (d + t1) % 2 ^ 64, e, f, g]
  | _ => v

/-- One block of 128 bytes taken into the hash value. -/
def shaBlock (hash : List Nat) (block : List Byte) : List Nat :=
  let w := (shaSchedule 64 ((List.range 16).map (fun i => natBE ((block.drop (8 * i)).take 8))).reverse).reverse
  List.zipWith (fun a b => (a + b) % 2 ^ 64) hash ((w.zip shaConstants).foldl shaRound hash)

/-- The blocks of a padded message. -/
def shaBlocks (n : Nat) (hash : List Nat) (l : List Byte) : List Nat :=
  match n with
  | 0 => hash
  | m + 1 => shaBlocks m (shaBlock hash (l.take 128)) (l.drop 128)

/-- SHA-384 of a byte string: 48 bytes. -/
def sha384 (l : List Byte) : List Byte :=
  let zeros := (239 - l.length % 128) % 128
  let padded := l ++ 0x80 :: List.replicate zeros 0 ++ toBytesBE 16 (8 * l.length)
  ((shaBlocks (padded.length / 128) shaInit padded).take 6).flatMap (toBytesBE 8)

/-! ECDSA over P-384. -/

/-- The field, the order of the base point, and the coefficient b of y^2 = x^3 - 3 x + b. -/
def p384 : Nat := 2 ^ 384 - 2 ^ 128 - 2 ^ 96 + 2 ^ 32 - 1
def p384Order : Nat := 0xffffffffffffffffffffffffffffffffffffffffffffffffc7634d81f4372ddf581a0db248b0a77aecec196accc52973
def p384B : Nat := 0xb3312fa7e23ee7e4988e056be3f82d19181d9c6efe8141120314088f5013875ac656398d8a2ed19d2a85c8edd3ec2aef

/-- The base point. -/
def p384Base : Nat × Nat :=
  (0xaa87ca22be8b05378eb1c71ef320ad746e1d3b628ba79b9859f741e082542a385502f25dbf55296c3a545e3872760ab7,
   0x3617de4a96262c6f5d9e98bf9292dc29f8f41dbd289a147ce9da3113b5f0b8c00a60b1ce1d7e819d7a431d7c90ea0e5f)

/-- x to the power e modulo m, by the low n bits of e; and the inverse modulo a prime of at most 384 bits. -/
def powMod (n : Nat) (x e m : Nat) : Nat :=
  match n with
  | 0 => 1 % m
  | k + 1 => let r := powMod k (x * x % m) (e / 2) m; if e % 2 = 1 then x * r % m else r
def invMod (x m : Nat) : Nat := powMod 384 (x % m) (m - 2) m

/-- The sum of two points of the curve; none is the point at infinity. -/
def p384Add (a b : Option (Nat × Nat)) : Option (Nat × Nat) :=
  match a, b with
  | none, b => b
  | a, none => a
  | some (x1, y1), some (x2, y2) =>
    if x1 = x2 && (y1 + y2) % p384 = 0 then none
    else
      let l := if x1 = x2 then 3 * (x1 * x1 + p384 - 1) * invMod (2 * y1) p384 % p384
        else (y2 + p384 - y1) * invMod (x2 + p384 - x1) p384 % p384
      let x := (l * l + 2 * p384 - x1 - x2) % p384
      some (x, (l * (x1 + p384 - x) + p384 - y1) % p384)

/-- k times a point, by the low n bits of k. -/
def p384Mul (n : Nat) (k : Nat) (q : Option (Nat × Nat)) : Option (Nat × Nat) :=
  match n with
  | 0 => none
  | m + 1 => let r := p384Mul m (k / 2) (p384Add q q); if k % 2 = 1 then p384Add q r else r

/-- Whether a signature (r, then s) verifies over a SHA-384 digest with an uncompressed public key of 97 bytes. -/
def ecdsaVerify (key digest signature : List Byte) : Bool :=
  let x := natBE ((key.drop 1).take 48)
  let y := natBE (key.drop 49)
  let r := natBE (signature.take 48)
  let s := natBE (signature.drop 48)
  if key.length ≠ 97 || key.head? ≠ some 4 || signature.length ≠ 96 || decide (p384 ≤ x) || decide (p384 ≤ y) ||
      y * y % p384 ≠ (x * x * x + (p384 - 3) * x + p384B) % p384 || r = 0 || s = 0 || decide (p384Order ≤ r) || decide (p384Order ≤ s) then false
  else
    let w := invMod s p384Order
    let u1 := natBE (digest.take 48) * w % p384Order
    let u2 := r * w % p384Order
    match p384Add (p384Mul 384 u1 (some p384Base)) (p384Mul 384 u2 (some (x, y))) with
    | none => false
    | some (v, _) => v % p384Order = r

/-! AES-256-GCM. -/

/-- Multiplication in the field of AES, by the low n bits of b; and a to the power 2^(n+1) - 2, which for n = 7 is its inverse, 0 for 0. -/
def aesMul (n : Nat) (a b : Nat) : Nat :=
  match n with
  | 0 => 0
  | m + 1 => Nat.xor (if b % 2 = 1 then a else 0) (aesMul m (if 128 ≤ a then Nat.xor (2 * a) 0x11B else 2 * a) (b / 2))
def aesPower (n : Nat) (a : Nat) : Nat := match n with | 0 => 1 | m + 1 => let s := aesMul 8 a a; aesMul 8 s (aesPower m s)

/-- The substitution of a byte. -/
def aesSub (a : Nat) : Nat :=
  let x := aesPower 7 a
  let rot (k : Nat) : Nat := (x <<< k) % 256 + x >>> (8 - k)
  Nat.xor (Nat.xor (Nat.xor x (rot 1)) (Nat.xor (rot 2) (rot 3))) (Nat.xor (rot 4) 0x63)

/-- The words of the key schedule, the newest first: n more words from the word numbered i, of four bytes each. -/
def aesExpand (n i : Nat) (w : List (List Nat)) : List (List Nat) :=
  match n with
  | 0 => w
  | m + 1 =>
    let last := nth w 0 []
    let t :=
      if i % 8 = 0 then
        let r := (last.drop 1 ++ last.take 1).map aesSub
        Nat.xor (nth r 0 0) (2 ^ (i / 8 - 1)) :: r.drop 1
      else if i % 8 = 4 then last.map aesSub else last
    aesExpand m (i + 1) (List.zipWith Nat.xor (nth w 7 []) t :: w)

/-- The fifteen round keys of a key of 32 bytes. -/
def aesKeys (key : List Byte) : List (List Nat) :=
  let k := key.map (·.toNat)
  let w := (aesExpand 52 8 ((List.range 8).map (fun i => (k.drop (4 * i)).take 4)).reverse).reverse
  (List.range 15).map (fun r => ((w.drop (4 * r)).take 4).flatten)

/-- MixColumns of one column. -/
def aesMix (c : List Nat) : List Nat :=
  (List.range 4).map (fun i =>
    let at_ (j : Nat) : Nat := nth c ((i + j) % 4) 0
    Nat.xor (Nat.xor (aesMul 8 (at_ 0) 2) (aesMul 8 (at_ 1) 3)) (Nat.xor (at_ 2) (at_ 3)))

/-- One round with its key; the last round mixes no columns. -/
def aesRound (mix : Bool) (s k : List Nat) : List Nat :=
  let sub := s.map aesSub
  let rows := (List.range 16).map (fun i => nth sub ((i + 4 * (i % 4)) % 16) 0)
  List.zipWith Nat.xor (if mix then (List.range 4).flatMap (fun c => aesMix ((rows.drop (4 * c)).take 4)) else rows) k

/-- AES-256 of one block, as a number whose first byte is the most significant. -/
def aes256 (key block : List Byte) : Nat :=
  let ks := aesKeys key
  let s := (List.range 13).foldl (fun s r => aesRound true s (nth ks (r + 1) [])) (List.zipWith Nat.xor (block.map (·.toNat)) (nth ks 0 []))
  (aesRound false s (nth ks 14 [])).foldl (fun n b => n * 256 + b) 0

/-- Multiplication in the field of GHASH, by the bits of x from the most significant of 128, n of them left. -/
def ghashMul (n : Nat) (x v : Nat) : Nat :=
  match n with
  | 0 => 0
  | m + 1 =>
    Nat.xor (if x / 2 ^ m % 2 = 1 then v else 0) (ghashMul m x (if v % 2 = 1 then Nat.xor (v / 2) (0xE1 * 2 ^ 120) else v / 2))

/-- GHASH of n blocks of 16 bytes, the last filled up with zeros. -/
def ghash (n : Nat) (h y : Nat) (l : List Byte) : Nat :=
  match n with
  | 0 => y
  | m + 1 => ghash m h (ghashMul 128 (Nat.xor y (natBE (l.take 16 ++ List.replicate (16 - l.length) 0))) h) (l.drop 16)

/-- Whether the tag of a ciphertext without further data checks: a key of 32 bytes, a nonce of 12. -/
def gcmCheck (key nonce bytes tag : List Byte) : Bool :=
  let h := aes256 key (List.replicate 16 0)
  let y := ghash ((bytes.length + 15) / 16) h 0 bytes
  natBE tag = Nat.xor (ghashMul 128 (Nat.xor y (8 * bytes.length)) h) (aes256 key (nonce ++ [0, 0, 0, 1]))

end Sys2Proof.Machine
end

