-- ==== Sys2Proof/Config.lean ====
section
/-! DEFINITION. What the manual leaves open or takes from a published standard without giving the values: constants
without a body, so that nothing can be proved about their values (log entries 10 to 19). -/

namespace Sys2Proof.Config

/-- The n-th free bit string: a value that the manual leaves open, taken at counter n. -/
opaque freeBits (n : Nat) : Nat

/-- Old (true) or new entry for an access that meets a changed page-table entry before invalidation (R145). -/
opaque staleChoice (n : Nat) : Bool

/-- The bits that VRCP, VEXL and VTRG give for a value that is no special case, within the bound of R172, by operation 0 to 5 (1/a, 1/sqrt a, 2^a, log2 a,
sin 2 pi a, cos 2 pi a) and format width (18 or 36): a fixed function of the input bits. -/
opaque elementary (op width : Nat) (x : Nat) : Nat

/-- Whether the range operand of IOINV, whose layout the manual does not give, takes in the entry that maps va to va + size. -/
opaque invRange (b va size : Nat) : Bool

/-- The Zelmal manufacturing public key (R451). -/
opaque zelmalKey : List Byte

/-- The owner's public key, by its fused hash (R451): neither the fuses nor the image hold the key itself. -/
opaque ownerKey (hash : List Byte) : List Byte

/-- What a transfer curve gives where its standard states no value (R231, R232, R240), of the exact input n / d: 0 ST 2084 beyond its pole,
1 HLG beside a channel that is no number of at least zero, 2 to 4 TRANSFER of that number below zero, as F18; 10 the HLG signal of
channel d of pixel n, times 2^32. -/
opaque curve (which : Nat) (n d : Nat) : Nat

/-- The fixed entries of the mode table: VESA DMT IDs and CTA-861 VICs (R269, R270), four words each. -/
opaque standardMode (mode : Nat) : List W72

/-- The filter of a sample-rate converter (R357): the frames of one channel that it spans, newest first, as S36 patterns, the place of the
sample that it computes between two of them, and the ratio offset in 0.01 ppm. -/
opaque converter (window : List Nat) (phase : Nat) (ppm : Int) : Nat

/-- What arrives in a slot, or from a microphone, of an audio port (R361): port, slot, the stamp of the sample and the frame within it. -/
opaque portInput (port slot stamp frame : Nat) : Nat

/-- The ratio offset that a converter measures, or that its loop demands, in 0.01 ppm (R358, R359): node, sample count, the frames queued
and the frames of TARGET_US, and the offset in force. -/
opaque converterPpm (node count queued target : Nat) (ppm : Int) : Nat

/-- The second-order resonator model of R328 at resonance f0 and quality q (F18 patterns): the next state and output
as F36 patterns from the state and the drive. -/
opaque resonator (f0 q : Nat) (state : List Nat) (u : Nat) : List Nat

/-- The natural frequency of the genlock loop by the code of BW (R291), in 1e-6 rad/s: by which measure of bandwidth BW is meant, the manual does
not state. -/
opaque loopFrequency (bw : Nat) : Nat

/-- The JTAG IDCODE (R514): the BSDL file states it. -/
opaque idcode : BitVec 32

/-- The provisioned reset values of the firmware CSRs EVEC and EBASE (R78), by core and thread, and the length that the header of the
firmware program at an address declares (R79). -/
opaque firmwareEntry (core thread : Nat) : BitVec 72
opaque firmwareBase (core thread : Nat) : BitVec 48
opaque firmwareLength (base : Nat) : Nat

/-- The core time an operation consumed, in ns (R190), and other measured times: by counter. -/
opaque measured (n : Nat) : Nat

/-- The contents of the boot ROM and of a memory region that the manual does not state: byte at an address. -/
opaque romByte (addr : Nat) : Byte

/-- The words of a region of the freeze read-out whose layout the manual does not give (R517): region, word index. -/
opaque regionWord (region index : Nat) : W72

/-- A value for which the manual states no result, as a function of what it depends on: a tag that names the place (log
entry 19 lists them) and the operands. -/
opaque unstated (tag : Nat) (args : List Nat) : Nat

end Sys2Proof.Config
end

