-- ==== Sys2Proof/Machine/MemParts.lean ====
section
/-! DEFINITION. The parts of the state that chapter 11 names: DRAM channels and groups, the memory
registers, and the partition of the system cache. -/

namespace Sys2Proof.Machine

/-- One DRAM channel (R404 to R408, R414). `state` is coded as MEM_CHn_STAT.STATE;
`drift` is in 1/1024 UI; `retraining` from the need for a
retraining to its end, `begun` once its first burst has run, `burstAt`, `mr4At` and `driftAt` the instants of its last burst, MR4 reading and drift reading; `down` lists the ranks in power-down. -/
structure Chan where
  state : BitVec 3
  speed : BitVec 2
  ceiling : BitVec 2
  ue : BitVec 8
  retrains : BitVec 16
  linkCe : BitVec 16
  ce : BitVec 16
  drift : Nat
  retraining : Bool
  begun : Bool
  storedAt : Option Nat
  mr4 : BitVec 8
  postponed : Tab Nat
  down : List Nat
  burstAt : Option Nat
  mr4At : Option Nat
  driftAt : Option Nat
  deriving DecidableEq, Repr

/-- A channel after device reset (R414). -/
def Chan.atReset : Chan :=
  { state := 0, speed := 0, ceiling := 0, ue := 0, retrains := 0, linkCe := 0, ce := 0, drift := 0,
    retraining := false, begun := false, storedAt := .none, mr4 := 0, postponed := [], down := [], burstAt := .none, mr4At := .none, driftAt := .none }

/-- One interleave group (R402, R407, R409): 0 ACTIVE, 1 DEGRADED, 2 FENCED. `change` is the instant of a
waiting speed-point change, `lastReq` that of the last request. -/
structure Group where
  state : BitVec 2
  selfRefresh : Bool
  forced : BitVec 16
  change : Option Nat
  lastReq : Nat
  deriving DecidableEq, Repr

/-- A group after device reset (R414). -/
def Group.atReset : Group := { state := 0, selfRefresh := false, forced := 0, change := .none, lastReq := 0 }

/-- A line in the general partition of the system cache (R386, R388, R389): its way, whether it is dirty, whether it is protected. -/
structure CacheLine where
  line : Nat
  way : Nat
  dirty : Bool
  keep : Bool
  deriving DecidableEq, Repr

/-- A request for a DRAM line on its way to its channel (R385, R396): the port that it entered and when, and whether it holds one of the
entries that only urgent requests take. -/
structure MemReq where
  port : Nat
  line : Nat
  write : Bool
  at_ : Nat
  reserved : Bool
  deriving DecidableEq, Repr

/-- An open row of a bank (R397, R398): the row hits served in a row, and when it closes, in 1/3 ns. -/
structure OpenRow where
  row : Nat
  hits : Nat
  closes : Nat
  deriving DecidableEq, Repr

/-- A channel controller (R396 to R398): the requests that wait in the lattice and those it holds, oldest first, whether it drains writes, its
open rows by 16 × rank + bank, the instant up to which it has served in 1/3 ns, and the instant of its last request. -/
structure ChanQueue where
  waiting : List MemReq
  queued : List MemReq
  drain : Bool
  rows : Tab OpenRow
  servedTo : Nat
  lastReq : Nat
  deriving DecidableEq, Repr

/-- A channel controller after device reset. -/
def ChanQueue.atReset : ChanQueue := { waiting := [], queued := [], drain := false, rows := [], servedTo := 0, lastReq := 0 }

/-- A read that a command makes: address and bytes, whether it flushes the line instead, and its port where that is not the command's. -/
structure MemAsk where
  addr : Nat
  bytes : Nat
  flush : Bool
  port : Option Nat
  deriving DecidableEq, Repr

/-- The lattice, the system cache and the channel controllers (R384 to R399). `asks` are the reads of the command being executed; `who` the
port and the allocation hint of its accesses, where they are not those of MP16. The cache holds the lines of each set by 2,048 × slice + set,
most recently used first. -/
structure Lattice where
  asks : List MemAsk
  who : Option (Nat × Nat)
  cache : Tab (List CacheLine)
  chans : Tab ChanQueue
  deriving DecidableEq, Repr

/-- The lattice after device reset: nothing cached, nothing queued. -/
def Lattice.atReset : Lattice := { asks := [], who := .none, cache := [], chans := [] }

/-- The memory system's registers and its groups (R414). `capacity` is C in units of 256 MiB. -/
structure Dram where
  inlineEcc : Bool
  maxSpeed : BitVec 2
  twoRanks : Bool
  capacity : Nat
  scratchWays : Nat
  chaseWays : Nat
  busyFrom : Option Nat
  cap : BitVec 2
  chans : Tab Chan
  groups : Tab Group
  ports : Tab (BitVec 32)
  deriving DecidableEq, Repr

end Sys2Proof.Machine
end

