-- ==== Sys2Proof/Machine/RasterParts.lean ====
section
/-! DEFINITION. The parts of the state that chapter 05 names: waves and their lanes, passes with their primitives and
tile memory, shader cores and the raster registers. -/

namespace Sys2Proof.Machine

/-- A deferred output write of a lane (R179): attachment, sample (none: every covered sample), value, blend or not. -/
structure Defer where
  att : Nat
  sample : Option Nat
  value : W72
  blend : Bool
  deriving DecidableEq, Repr

/-- One lane of a wave (R168, R169). `act` is 0 inactive, 1 active, 2 helper; `ilk` is 0 outside, 1 inside an interlock
region, 2 after one; `cover` is the coverage of its samples, `mask` those of them that no depth test has failed; `prim` the place of its
primitive in the pass; `out` the vertex output words. -/
structure Lane where
  v : Tab W72
  k : BitVec 8
  act : BitVec 2
  x : Nat
  y : Nat
  cover : Nat
  mask : Nat
  prim : Nat
  out : Tab W72
  defer : List Defer
  ilk : BitVec 2
  deriving DecidableEq, Repr

/-- A lane that is inactive, as at wave entry. -/
def Lane.idle : Lane := { v := [], k := 1, act := 0, x := 0, y := 0, cover := 0, mask := 0, prim := 0, out := [], defer := [], ilk := 0 }

/-- What a wave runs for: vertices, the pixels of a draw, or compute. -/
inductive WaveKind where
  | vertex
  | pixel
  | compute
  deriving DecidableEq, Repr

/-- A resident wave (R166, R169): its operation, core, draw, tile, index within its kind, declared registers and local words,
the local words written, the texture table it names. -/
structure Wave where
  op : OpId
  fn : Nat
  kind : WaveKind
  core : Nat
  draw : Nat
  tile : Nat
  index : Nat
  nv : Nat
  words : Nat
  seq : Seq
  lanes : List Lane
  locals : Tab W72
  texN : Nat
  texAt : BitVec 48
  deriving DecidableEq, Repr

/-- One vertex of a triangle after clipping (R188): snapped x and y in 1/256 pixel, depth, w, and its weights of the
original vertices. -/
structure Vtx where
  x : Int
  y : Int
  z : Rat
  w : Rat
  lam : List Rat
  deriving DecidableEq, Repr

/-- A triangle on the screen. -/
structure Tri where
  a : Vtx
  b : Vtx
  c : Vtx
  deriving DecidableEq, Repr

/-- A primitive that covers something (R188): its draw, sequence number, facing, triangles, and the attribute words of its
original vertices, first vertex first. -/
structure Prim where
  draw : Nat
  num : Nat
  front : Bool
  tris : List Tri
  outs : List (List W72)
  deriving DecidableEq, Repr

/-- A program that a draw or dispatch names: address, length, step limit, entry. -/
structure WaveProg where
  base : Nat
  length : Nat
  limit : Nat
  entry : Nat
  deriving DecidableEq, Repr

/-- A draw record as read (R187), with its programs. -/
structure Draw where
  words : List W72
  vertex : WaveProg
  pixel : WaveProg
  deriving DecidableEq, Repr

/-- A tile of the current segment (R193, R195, R201): its core, when it started, the quads whose waves have been started, and
its tile memory by plane, in the order of R206. `guard` is the core of the lower region at a guard tile of a split pass (R211). A tile with no
wave started is held beside the one being shaded (R185). -/
structure TileRun where
  core : Nat
  guard : Option Nat
  since : Nat
  used : Nat
  planes : Tab (List W72)
  deriving DecidableEq, Repr

/-- A DRAW_PASS or DISPATCH in a context (R185, R190, R192, R200, R201, R216). `stage` is 0 before binning, 1 while vertex or compute
waves run, 2 while tiles are shaded. `outs` holds vertex outputs by draw, instance and position; `segLo` to `segHi` is the
current segment of `prims`; `todo` its tiles not yet taken up; `tiles` those on cores; `touched` the tiles spilled;
`blocks` the pool blocks held; `interrupts` counts core resets by unit. -/
structure Pass where
  id : OpId
  fn : Nat
  stage : Nat
  draws : List Draw
  outs : Tab (Tab W72)
  prims : List Prim
  segLo : Nat
  segHi : Nat
  todo : List Nat
  tiles : Tab TileRun
  touched : List Nat
  blocks : List Nat
  maxBlocks : Nat
  resolves : Nat
  reexec : Nat
  interrupts : Tab Nat
  deriving DecidableEq, Repr

/-- A line of a texture cache (R208): its number, the device-physical address over 64, and its bytes as they were read. -/
structure TexLine where
  line : Nat
  bytes : List Byte
  deriving DecidableEq, Repr

/-- A shader core (R196, R208, R215, R426, R508): power-gated, in self-test, asked for by one, failed, in reset since, idle since, the
operation that it worked for last, and the lines of its texture cache by set, oldest first. -/
structure Core where
  gated : Bool
  inTest : Bool
  testWanted : Bool
  failed : Bool
  resetAt : Option Nat
  idleFrom : Nat
  work : Option OpId
  tex : Tab (List TexLine)
  deriving DecidableEq, Repr

/-- A core after device reset. -/
def Core.atReset : Core := { gated := false, inTest := false, testWanted := false, failed := false, resetAt := .none, idleFrom := 0, work := .none, tex := [] }

/-- The raster engine (R197); `sampling` is the core whose texture unit reads, within one texture instruction (R208). -/
structure Raster where
  poolBase : BitVec 64
  blocks : Nat
  preemptLimit : Nat
  compReserve : Nat
  reserves : Tab Nat
  waves : Tab Wave
  nextWave : Nat
  passes : List Pass
  cores : Tab Core
  sampling : Option Nat
  deriving DecidableEq, Repr

end Sys2Proof.Machine
end

