-- ==== Sys2Proof/Machine/SoundParts.lean ====
section
/-! DEFINITION. The parts of the state that chapters 09 and 10 name: audio slices, the graph and its memories,
streams, converters, ports and headsets, and the check-value units. -/

namespace Sys2Proof.Machine

/-- An audio slice (R345, R346): lane 0 in `seq`, lanes 1 to 7 in `others`, accumulators a0 to a15 of each lane
(16 × lane + number) in units of 2^-62. `running` while its run of the current sample has not ended. -/
structure Slice where
  idle : Bool
  running : Bool
  seq : Seq
  others : List Bank
  acc : Tab Int
  instrs : Nat
  words : List W72
  entry : Nat
  deriving DecidableEq, Repr

/-- A slice without a program. -/
def Slice.atReset : Slice :=
  { idle := true, running := false, seq := .idle, others := List.replicate 7 .entry, acc := [], instrs := 0, words := [], entry := 0 }

/-- A node of a graph table (R349). -/
structure GNode where
  node : Nat
  type : Nat
  slice : Nat
  channels : Nat
  delayBase : Nat
  delayLen : Nat
  deriving DecidableEq, Repr

/-- An edge of a graph table (R349): 0 steady, 1 added, 2 removed. -/
structure GEdge where
  src : Nat
  dst : Nat
  kind : Nat
  deriving DecidableEq, Repr

/-- The program of a slice as loaded (R79, R349): entry, step limit, instruction words; none of these for an idle slice. -/
structure AProg where
  entry : Nat
  limit : Nat
  words : List W72
  deriving DecidableEq, Repr

/-- A graph as loaded (R349, R351): identifier, ramp, table and the programs by slice. -/
structure Graph where
  id : Nat
  rampMs : Nat
  nodes : List GNode
  edges : List GEdge
  consts : List W72
  progs : Tab AProg
  deriving DecidableEq, Repr

/-- A converter of a source or sink node (R357 to R359): state 0 idle, 1 muted, 2 locked; ratio offset in 0.01 ppm; the sample at which it
locked. `frames` are the last frames that entered it, newest first, by channel (S36 patterns), and `line` the last that it computed, which leave
it when its group delay has passed; `taken` counts the frames that entered since it started, `age` the samples; `phase` is the fraction of a frame
of a port consumed, and `out` the frame last given to a port. -/
structure Conv where
  state : BitVec 3
  ppm : BitVec 24
  lockedAt : Nat
  unders : BitVec 16
  overs : BitVec 16
  frames : List (List Nat)
  line : List (List Nat)
  taken : Nat
  age : Nat
  ref : BitVec 24
  steady : Nat
  phase : Nat
  out : List (List Nat)
  deriving DecidableEq, Repr

/-- A converter at first use. -/
def Conv.atReset : Conv :=
  { state := 1, ppm := 0, lockedAt := 0, unders := 0, overs := 0, frames := [], line := [], taken := 0, age := 0, ref := 0, steady := 0, phase := 0, out := [] }

/-- A converter that starts again (R358): its counts stay. -/
def Conv.restart (x : Conv) : Conv := { Conv.atReset with unders := x.unders, overs := x.overs }

/-- A queued playback or capture buffer (R355, R356). -/
structure StreamOp where
  id : OpId
  addr : BitVec 48
  frames : Nat
  recAt : BitVec 48
  done : Nat
  first : Option Nat
  flags : BitVec 8
  status : BitVec 8
  deriving DecidableEq, Repr

/-- A host stream (R355, R359): its queue, the fraction of a frame already consumed, and captured frames held. -/
structure Stream where
  queue : List StreamOp
  phase : Nat
  held : List (List Nat)
  flags : BitVec 8
  deriving DecidableEq, Repr

/-- A stream without buffers. -/
def Stream.atReset : Stream := { queue := [], phase := 0, held := [], flags := 0 }

/-- An audio port or headset (R360 to R362): STATE, HS_TYPE, BUTTON, last mic reading, ERRORS, MEASURED, and the
debounce counters in ms; `fade` counts the samples until a port that restarts has faded out. -/
structure AudPort where
  state : BitVec 3
  hsType : BitVec 3
  button : BitVec 3
  micMv : BitVec 12
  errors : BitVec 48
  measured : BitVec 40
  good : Nat
  det : Nat
  rel : Nat
  settle : Nat
  sum : Nat
  band : Nat
  bandMs : Nat
  changeAt : Nat
  bias : Bool
  fade : Nat
  phase : Nat
  place : Nat
  due : Nat
  frames : Nat
  deriving DecidableEq, Repr

/-- A port after device reset (R360). -/
def AudPort.atReset : AudPort :=
  { state := 0, hsType := 0, button := 0, micMv := 0, errors := 0, measured := 0, good := 0, det := 0, rel := 0,
    settle := 0, sum := 0, band := 0, bandMs := 0, changeAt := 0, bias := false, fade := 0, phase := 0, place := 0, due := 0, frames := 0 }

/-- The audio engine. `state` is AUD_GRAPH.STATE. `count` is the number of samples begun;
`outs` and `prev` are node outputs (8 × node + channel) of this and the previous sample, `written` those of this sample by slice;
`nodeState` node state words (128 × node + 16 × channel + word); `delay` the delay memory; `meters` block maxima; `since` and
`stopAt` the counts of the sample after a swap and after a GRAPH_STOP; `sources` the nodes whose converters run; `mutes` how far
the MUTE fade of a node has come; `sent` what the sinks carry. -/
structure Audio where
  running : Bool
  count : Nat
  startAt : Nat
  state : BitVec 3
  faultCode : BitVec 8
  faultSlice : BitVec 2
  faultPc : BitVec 24
  graph : Option Graph
  loaded : Option (Graph × OpId × Nat)
  since : Nat
  stopOp : Option OpId
  stopAt : Nat
  slices : Tab Slice
  outs : Tab Nat
  prev : Tab Nat
  written : List Nat
  sources : List GNode
  mutes : Tab Nat
  nodeState : Tab W72
  delay : Tab Nat
  meters : Tab Nat
  convs : Tab Conv
  plays : Tab Stream
  caps : Tab Stream
  ports : Tab AudPort
  waits : List OpId
  sampleReg : BitVec 64
  stampReg : BitVec 64
  sent : Tab Nat
  deriving DecidableEq, Repr

/-- The audio engine after device reset. -/
def Audio.atReset : Audio :=
  { running := false, count := 0, startAt := 0, state := 0, faultCode := 0, faultSlice := 0, faultPc := 0,
    graph := .none, loaded := .none, since := 0, stopOp := .none, stopAt := 0, slices := [], outs := [], prev := [],
    written := [], sources := [], mutes := [], nodeState := [], delay := [], meters := [], convs := [], plays := [], caps := [], ports := [],
    waits := [], sampleReg := 0, stampReg := 0, sent := [] }

/-- A check-value unit's working state (R367, R369, R374, R380). `refBad` marks a reference word that reads uncorrectable. -/
structure Cvu where
  state : BitVec 3
  reg : BitVec 64
  active : Bool
  segments : Nat
  bytes : Nat
  next : Option (BitVec 48)
  wait : Bool
  ended : List (BitVec 64)
  frame : Nat
  last : BitVec 64
  held : BitVec 64
  tag : BitVec 48
  mismatches : BitVec 24
  refFaults : BitVec 16
  abandoned : BitVec 16
  suspects : BitVec 16
  cleared : BitVec 16
  refBad : Bool
  deriving DecidableEq, Repr

/-- A unit after device reset (R369). -/
def Cvu.atReset : Cvu :=
  { state := 0, reg := 0, active := false, segments := 0, bytes := 0, next := .none, wait := false, ended := [], frame := 0, last := 0, held := 0, tag := 0, mismatches := 0, refFaults := 0, abandoned := 0, suspects := 0,
    cleared := 0, refBad := false }

end Sys2Proof.Machine
end

