-- ==== Sys2Proof/Machine/SystemParts.lean ====
section
/-! DEFINITION. The parts of the state that chapters 12 to 16 name: power states and operating points, boot and
fuses, the flash with its update session and settings, the safety manager, debug access and freeze, and pins. -/

namespace Sys2Proof.Machine

/-- The power states of R425, with the sequences between them: 0 ACTIVE (IDLE is computed), 2 ENTERING, 3 SHOWCASE,
4 EXITING are PWR_STAT.STATE codes; STANDBY is 5 here, in which no host reads the register. -/
inductive PowerState where
  | active
  | entering
  | showcase
  | standby
  | exiting
  deriving DecidableEq, Repr

/-- An operating-point change under way (R420): the target, the stage (0 raising rails,
1 changing DRAM speed points, 2 lowering rails), the raised and lowered rails not yet settled,
the instant of the writes and the codes to write back. -/
structure OpChange where
  target : Nat
  stage : Nat
  raising : List Nat
  lowering : List Nat
  writtenAt : Nat
  oldShdMv : Nat
  oldCoreMv : Nat
  deriving DecidableEq, Repr

/-- The entry to a sleep state (R430 to R434): its target, when GO was written, whether it began in SHOWCASE, the
order number of the block asked (0 during the wind-down) and when, and the blocks that have stopped. -/
structure SleepEntry where
  target : BitVec 2
  goAt : Nat
  deep : Bool
  order : Nat
  askedAt : Nat
  stopped : List Nat
  deriving DecidableEq, Repr

/-- A provisioned rail record (R441, R489): the regulator's address and register, and its map from code to voltage: V0 in mV, the step in µV,
the largest code. -/
structure RailMap where
  addr : Nat
  reg : Nat
  v0 : Nat
  step : Nat
  top : Nat
  deriving DecidableEq, Repr

/-- The power manager (R420 to R444). `railMaps` are the provisioned rail records, and `regulators` what each rail's regulator last received:
address, register and code (rail 0 VDD_SHD, 1 VDD_CORE). Voltages in mV as last written; `rail` tells
whether provisioning holds the RAIL items; `shdDiv` is the CLK_SHD divider in use; `asked` a request that waits for an
operating-point change, with its target and whether SVP made it; `latched` the wake sources fired since GO. -/
structure Power where
  state : PowerState
  opTarget : BitVec 3
  limit : BitVec 3
  current : BitVec 3
  change : Option OpChange
  failedFor : Option Nat
  rail : Bool
  shdMv : Nat
  coreMv : Nat
  shdDiv : Nat
  reqGo : Bool
  reqDiscarded : Bool
  reqTarget : BitVec 2
  asked : Option (BitVec 2 × Bool)
  entry : Option SleepEntry
  result : BitVec 8
  reason : BitVec 3
  last : BitVec 2
  entries : BitVec 16
  locus : W72
  wakeEn : BitVec 32
  wakeSrc : BitVec 32
  wakeAt : BitVec 64
  showcase : BitVec 12
  eresetErr : Bool
  eresetSub : BitVec 6
  eresetEng : BitVec 8
  pendingEresets : List (Nat × Nat)
  latched : BitVec 32
  lowFrom : Tab Nat
  hotAt : Nat
  coolAt : Nat
  opAt : Nat
  wakeN : BitVec 4
  stby : Bool
  shdOff : Bool
  railMaps : Tab RailMap
  regulators : Tab (Nat × Nat × Nat)
  deriving DecidableEq, Repr

/-- Where the boot sequence stands (R447, R449, R453): held in reset, RECOVERY, or READY. -/
inductive BootStage where
  | held
  | recovery
  | ready
  deriving DecidableEq, Repr

/-- The one-time-programmable fuses (R451). -/
structure Fuses where
  uid : BitVec 64
  grade : BitVec 2
  lifecycle : BitVec 2
  ownerHash : List Byte
  imageKey : List Byte
  minSv : Nat
  lcNext : Option (BitVec 2)
  deriving DecidableEq, Repr

/-- Boot and lifecycle (R449, R456, R465, R466). `resets` lies in the plinth; `trainAll` is the provisioned TRAIN_ALL. -/
structure Boot where
  stage : BootStage
  fuses : Fuses
  resets : BitVec 16
  slotB : Bool
  fallback : Bool
  otherSlot : Bool
  imageSv : BitVec 8
  fullTrain : BitVec 4
  fenced : BitVec 4
  settings : BitVec 4
  trainAll : Bool
  curatorAt : BitVec 64
  readyAt : BitVec 64
  lcRefused : Bool
  lcPending : Bool
  deriving DecidableEq, Repr

/-- The latest record of an item of a settings area (R488): TAG, INDEX, SEQ and data; unreadable when its record fails. -/
structure Item where
  tag : Nat
  index : Nat
  data : List Byte
  seq : Nat
  readable : Bool
  deriving DecidableEq, Repr

/-- A settings area (R482, R487): its format, the half in use with its HALF_SEQ, the SEQ of its last record, the bytes of the half in use, and the
latest record of each item. -/
structure Area where
  valid : Bool
  format : Nat
  half : Bool
  halfSeq : Nat
  seq : Nat
  used : Nat
  items : List Item
  deriving DecidableEq, Repr

/-- An image slot (R469, R486): its state 0 EMPTY, 1 STAGING, 2 STAGED, 3 CONFIRMED, 4 TRIAL, and its pieces as stored. -/
structure Slot where
  state : Nat
  pieces : Tab (List Byte)
  deriving DecidableEq, Repr

/-- The external flash as the device uses it (R468, R486): the directory in force, with its SEQ and the copy that holds it, the slots and the
settings areas. -/
structure Flash where
  dirValid : Bool
  dirSeq : Nat
  dirCopy : Bool
  confirmedSlot : Bool
  trialSlot : Option Bool
  activeArea : Bool
  trialArea : Option Bool
  slotA : Slot
  slotB : Slot
  area0 : Area
  area1 : Area
  deriving DecidableEq, Repr

/-- The staging session (R473 to R476); absent when its number is 0. -/
structure Session where
  number : BitVec 16
  digest : List Byte
  opener : Nat
  slotB : Bool
  pieces : Nat
  held : List Nat
  leaseEnd : Nat
  deriving DecidableEq, Repr

/-- The update engine (R473, R479, R483, R492): STATE and LAST_OUTCOME codes as UPD_STAT has them. `step` is what waits for a
frame boundary after `stepAt`: 1 a handover, 2 a return with `returnOutcome`, 3 the end of a confirmation; `parked` the firmware
threads of the Curator that has halted; `confirmAt` the time to AUTO_CONFIRM, from the start of TRIAL on its instant. -/
structure Update where
  state : BitVec 3
  outcome : BitVec 4
  session : Option Session
  lastNumber : BitVec 16
  trialAt : BitVec 64
  activateOp : Option OpId
  autoConfirm : Bool
  confirmAt : Nat
  confirmOp : Option OpId
  revertOp : Option OpId
  step : Nat
  stepAt : Nat
  returnOutcome : BitVec 4
  parked : List Nat
  imageSv : Nat
  imageAdvance : Bool
  imageFormat : Nat
  imageMinFormat : Nat
  deriving DecidableEq, Repr

/-- A fault record (R499) as its fields. -/
structure Rec where
  locus : W72
  cls : BitVec 8
  stamp : Nat
  seq : BitVec 16
  fn : Option Nat
  lost : Bool
  action : BitVec 3
  dataA : BitVec 64
  dataB : BitVec 64
  deriving DecidableEq, Repr

/-- A self-test under way (R507, R508): the elements not yet done and the instant of release. -/
structure SelfTest where
  id : OpId
  kind : Nat
  left : List Nat
  tested : Nat
  failed : Nat
  deriving DecidableEq, Repr

/-- The safety manager (R495 to R512). `state` is SM_STAT.STATE. `policy` and the other registers by class; `arrivals`
the instants of records by class; `macroFixes` corrections by locus (the instants of the last second). -/
structure Safety where
  state : BitVec 3
  mismatchAt : Option Nat
  restarting : Bool
  queue : List Rec
  seq : BitVec 16
  lost : BitVec 16
  lostMark : Bool
  plinthRec : Option Rec
  policy : Tab (BitVec 32)
  lock : Bool
  freezeEn : Bool
  hbPeriod : Nat
  forceSet : BitVec 12
  froSel : BitVec 6
  force : BitVec 12
  forceWanted : BitVec 12
  faultN : Bool
  arrivals : Tab (List Nat)
  ue : Tab (BitVec 16)
  ce : Tab (BitVec 16)
  temps : List Int
  excluded : BitVec 16
  macroFixes : List (W72 × Nat)
  macroRec : List (W72 × Nat)
  hbCount : BitVec 16
  hbArmed : Bool
  hbLast : Nat
  hbLate : Bool
  refclkLost : Bool
  escalate : Bool
  freezeWanted : Bool
  tests : List SelfTest
  deriving DecidableEq, Repr

/-- A frame of the Aitin read-out as sent (R517): type, sequence number, payload words, locus, word offset and error flag. -/
structure FroFrame where
  type : Nat
  seq : Nat
  flag : Bool
  locus : W72
  offset : Nat
  payload : List W72
  deriving DecidableEq, Repr

/-- Freeze state and read-out (R516, R517): when frozen and by what, and the frames sent. -/
structure Freeze where
  at_ : Option Nat
  source : Nat
  frames : List FroFrame
  nextEnd : Nat
  deriving DecidableEq, Repr

/-- A reply on the supervisor port (R510): status and response bytes. -/
structure SvpReply where
  status : Byte
  data : List Byte
  deriving DecidableEq, Repr

/-- Debug access (R514, R515): `jtag` is the instruction in force, `tdo` what it returned, `boundary` the cells
preloaded, `halted` the threads under halt, `stepping` those of them that may execute one instruction. -/
structure Debug where
  unlocked : Bool
  challenge : Option (List Byte)
  failures : Nat
  jtag : Nat
  tdo : List Byte
  bypassBit : Bool
  boundary : List Bool
  halted : List Ctx
  stepping : List Ctx
  deriving DecidableEq, Repr

end Sys2Proof.Machine
end

