-- ==== Sys2Proof/Machine/State.lean ====
section
/-! DEFINITION. The state of the ND1280: the device, with every register, memory, queue and pin that the manual
gives it, and the queue of waiting commands; the reasons a command can stop; the state after reset. -/

namespace Sys2Proof.Machine

/-- What the board presents (R449, R450, R497, R531): REFCLK in range, SYS_RST_N held low, and what a boot sequence
last found on it, which a device reset by policy (R502) meets again. -/
structure Board where
  refclkOk : Bool
  sysRstLow : Bool
  env : BootEnv
  deriving DecidableEq, Repr

/-- What the host received for its last request (R138, R439, R450): data, Unsupported Request, or a configuration retry. -/
inductive HostReply where
  | data (bytes : List Byte)
  | unsupported
  | retry
  deriving DecidableEq, Repr

/-- The device: all of its state. `mem` lists the bytes of DRAM, the Vitrine and the scratch partition that differ from
zero, by device-physical address; `writes` holds the bytes that the command being executed has stored, newest first;
`free` counts the free values taken; `events` counts the instants that WAITEV can wait for. -/
structure Dev where
  now : Nat
  free : Nat
  events : Tab Nat
  mem : List Host.Cell
  writes : List (Nat × Byte)
  poison : List Nat
  board : Board
  manager : Nat
  fns : Tab Fn
  ports : Tab Port
  rings : Tab Ring
  rrGrant : Nat
  ops : List Op
  commits : List Commit
  publication : Nat
  objs : Tab W72
  epochAt : Nat
  held : List Instr
  latch : Tab (BitVec 64)
  msgs : List Msg
  host : Option HostReply
  fw : Tab FwThread
  coreDown : Tab Nat
  raster : Raster
  comp : Comp
  disp : Disp
  touch : Touch
  haptic : Haptic
  audio : Audio
  cvus : Tab Cvu
  dram : Dram
  bus : Lattice
  power : Power
  boot : Boot
  flash : Flash
  update : Update
  safety : Safety
  freeze : Freeze
  svp : Option SvpReply
  probe : Debug
  deriving DecidableEq, Repr

/-- The machine: the device and the commands that wait, first in, first out. -/
structure State where
  dev : Dev
  pending : List Instr
  deriving DecidableEq, Repr

/-- Why a command stops without a next state. -/
inductive Fault where
  /-- Raised by PLD, PST and DBG_ACCESS at an address of the internal control space, whose contents the manual does not
  give (R42): the model stops where the device goes on. Safe. -/
  | controlSpace (addr : Nat)
  deriving DecidableEq, Repr

/-- Why the model gives a command no meaning. -/
inductive Refusal where
  /-- A command of the table that has no meaning yet. Safe. -/
  | notModelled (mnemonic : String)
  deriving DecidableEq, Repr

/-- A host port after device reset (R128, R163); window size 0 until DRAM is known. -/
def Port.atReset : Port :=
  let b : Budget := { maxVfs := 15, maxShared := 1024, shareRc := 0x0FF00FF0, shareDa := 0x0FF00FF0, winBase := 0, winSize := 0 }
  { link := .down, perst := false, numVfs := 0, vfEnable := false, written := b, inForce := b, budgetErr := false,
    ptmDevtime := 0, ptmHost := 0, ptmDelay := 0, ptmReq := false, ptmBusy := false, ptmValid := false, ptmPeriod := 10,
    ptmFrom := 0, ptmEnable := false, ptmNext := 0, vfBar2Log2 := 28, vfBars := [], errs := [] }

/-- The raster engine after device reset (R197); the pool is placed when DRAM is known (R456). -/
def Raster.atReset : Raster :=
  { poolBase := 0, blocks := 80, preemptLimit := 100, compReserve := 16, reserves := [], waves := [], nextWave := 0,
    passes := [], cores := [], sampling := none }

/-- The memory system after device reset (R414, R456); the capacity is read at boot (R460). -/
def Dram.atReset : Dram :=
  { inlineEcc := false, maxSpeed := 1, twoRanks := true, capacity := 8, scratchWays := 0, chaseWays := 4,
    busyFrom := .none, cap := 0, chans := [], groups := [], ports := [] }

/-- The power manager after the VDD_AON ramp and device reset (R441, R444, R448, R456). -/
def Power.atReset : Power :=
  { state := .active, opTarget := 3, limit := 0, current := 3, change := .none, failedFor := .none, rail := false, shdMv := 680, coreMv := 800,
    shdDiv := 8, reqGo := false, reqDiscarded := false, reqTarget := 0, asked := .none, entry := .none, result := 0, reason := 0,
    last := 0, entries := 0, locus := 0, wakeEn := 0x8000000F, wakeSrc := 0, wakeAt := 0, showcase := 0,
    eresetErr := false, eresetSub := 0, eresetEng := 0, pendingEresets := [], latched := 0, lowFrom := [], hotAt := 0,
    coolAt := 0, opAt := 0, wakeN := 0, stby := false, shdOff := false
    railMaps := [], regulators := [] }

/-- The fuses of a part that the board has not programmed (R451). -/
def Fuses.blank : Fuses :=
  { uid := 0, grade := 0, lifecycle := 0, ownerHash := [], imageKey := [], minSv := 0, lcNext := .none }

/-- Boot state while the device is held in reset (R447, R465). -/
def Boot.atReset : Boot :=
  { stage := .held, fuses := .blank, resets := 0, slotB := false, fallback := false, otherSlot := false, imageSv := 0,
    fullTrain := 0, fenced := 0, settings := 0, trainAll := false, curatorAt := 0, readyAt := 0, lcRefused := false, lcPending := false }

/-- An erased flash (R486). -/
def Flash.erased : Flash :=
  let s : Slot := { state := 0, pieces := [] }
  let a : Area := { valid := false, format := 1, half := false, halfSeq := 0, seq := 0, used := 0, items := [] }
  { dirValid := false, dirSeq := 0, dirCopy := false, confirmedSlot := false, trialSlot := .none, activeArea := false, trialArea := .none,
    slotA := s, slotB := s, area0 := a, area1 := a }

/-- The update engine without a session (R473, R492). -/
def Update.atReset : Update :=
  { state := 0, outcome := 0, session := .none, lastNumber := 0, trialAt := 0, activateOp := .none, autoConfirm := false,
    confirmAt := 0, confirmOp := .none, revertOp := .none, step := 0, stepAt := 0, returnOutcome := 0, parked := [], imageSv := 0, imageAdvance := false,
    imageFormat := 1, imageMinFormat := 1 }

/-- The safety manager after device reset (R500, R502, R511, R512). -/
def Safety.atReset : Safety :=
  { state := 0, mismatchAt := .none, restarting := false, queue := [], seq := 0, lost := 0, lostMark := false,
    plinthRec := .none, policy := [], lock := false, freezeEn := false, hbPeriod := 0, forceSet := 0, froSel := 3,
    force := 0, forceWanted := 0, faultN := false, arrivals := [], ue := [], ce := [], temps := [], excluded := 0,
    macroFixes := [], macroRec := [], hbCount := 0, hbArmed := false, hbLast := 0, hbLate := false, refclkLost := false,
    escalate := false, freezeWanted := false, tests := [] }

/-- Not frozen (R516). -/
def Freeze.off : Freeze := { at_ := .none, source := 0, frames := [], nextEnd := 0 }

/-- Debug locked (R514, R515). -/
def Debug.locked : Debug :=
  { unlocked := false, challenge := .none, failures := 0, jtag := 0, tdo := [], bypassBit := false,
    boundary := [], halted := [], stepping := [] }

/-- A board of which no boot has found anything yet. -/
def BootEnv.none : BootEnv :=
  { slotAOk := false, slotBOk := false, octalOk := false, channelOk := [], channelMr8 := [], dramId := [] }

/-- The device after reset, SYS_RST_N still low, with nothing provisioned (R447, R448, R456). -/
def Dev.atReset : Dev :=
  { now := 0, free := 0, events := [], mem := [], writes := [], poison := [],
    board := { refclkOk := true, sysRstLow := true, env := BootEnv.none }, manager := 0, fns := [], ports := [], rings := [], rrGrant := 255,
    ops := [], commits := [], publication := 0, objs := [], epochAt := 0, held := [], latch := [],
    msgs := [], host := .none, fw := [], coreDown := [], raster := .atReset, comp := .atReset, disp := .atReset,
    touch := .atReset, haptic := .atReset, audio := .atReset, cvus := [], dram := .atReset, bus := .atReset, power := .atReset,
    boot := .atReset, flash := .erased, update := .atReset, safety := .atReset, freeze := .off, svp := .none,
    probe := .locked }

/-- The machine right after reset: no command waits. -/
def State.reset : State := { dev := .atReset, pending := [] }

end Sys2Proof.Machine
end

