-- ==== Sys2Proof/Machine/Mem.lean ====
section
/-! DEFINITION. Memory: the device-physical map (R42, R388, R393, R394), the canonical list of bytes, poisoned lines
and fenced groups (R390, R391, R409), and translation by the IOMMU (R141 to R146). -/

namespace Sys2Proof.Machine

/-- The byte at an address; an unlisted address reads zero. -/
def cellGet (m : List Host.Cell) (a : Nat) : Byte :=
  match m with
  | [] => 0
  | (x, b) :: r => if x = a then b else cellGet r a

/-- The list with byte b at address a; zero is never listed and addresses stay rising. -/
def cellSet (m : List Host.Cell) (a : Nat) (b : Byte) : List Host.Cell :=
  match m with
  | [] => if b = 0 then [] else [(a, b)]
  | (x, c) :: r =>
    if a < x then (if b = 0 then (x, c) :: r else (a, b) :: (x, c) :: r)
    else if x = a then (if b = 0 then r else (a, b) :: r)
    else (x, c) :: cellSet r a b

/-- All stores of a list, the last element first: the newest store stands. -/
def cellSetAll (m : List Host.Cell) (w : List (Nat × Byte)) : List Host.Cell :=
  match w with
  | [] => m
  | (a, b) :: r => cellSet (cellSetAll m r) a b

/-- The canonical form: addresses strictly rising above lo, no listed byte zero. -/
def cellsWfFrom (lo : Nat) (m : List Host.Cell) : Bool :=
  match m with
  | [] => true
  | (x, b) :: r => decide (lo ≤ x) && (b != 0) && cellsWfFrom (x + 1) r

/-- The canonical form of memory. -/
abbrev Memory.wf (m : List Host.Cell) : Bool := cellsWfFrom 0 m

/-- The kinds of device-physical address (R42). -/
inductive Region where
  | dram
  | vitrine
  | scratch
  | control
  | rom
  | none
  deriving DecidableEq, Repr

/-- C, the capacity of one channel (R392, R414). -/
def chanCapacity (r : Dram) : Nat := (if r.capacity = 0 then 16 else r.capacity) * 2 ^ 28

/-- D, the data capacity of one channel (R393). -/
def chanData (r : Dram) : Nat := if r.inlineEcc then (chanCapacity r - 65536) * 7 / 8 else chanCapacity r - 65536

/-- G, the size of an interleave group (R393). -/
def groupSize (r : Dram) : Nat := 4 * chanData r

/-- The top of populated DRAM (R393). -/
def dramTop (r : Dram) : Nat := 4 * groupSize r

/-- The scratch partition's size (R388). -/
def scratchSize (r : Dram) : Nat := r.scratchWays * 2 ^ 21

/-- The base of the Vitrine and of the scratch partition (R42). -/
def vitrineBase : Nat := 0x8000000000
def scratchBase : Nat := 0x9000000000

/-- What lies at a device-physical address (R42, R388, R393). -/
def regionOf (r : Dram) (a : Nat) : Region :=
  if a < 0x1000000000 then (if a < dramTop r then .dram else .none)
  else if vitrineBase ≤ a ∧ a < vitrineBase + 0x3000000 then .vitrine
  else if scratchBase ≤ a ∧ a < scratchBase + scratchSize r then .scratch
  else if 0xC000000000 ≤ a ∧ a < 0xC100000000 then .control
  else if 0xFFF0000000 ≤ a ∧ a < 0xFFF0040000 then .rom
  else .none

/-- The interleave group, channel, bank, row, rank and column of a DRAM address (R394, R395). -/
structure DramLoc where
  group : Nat
  chan : Nat
  bank : Nat
  row : Nat
  rank : Nat
  column : Nat
  deriving DecidableEq, Repr

/-- The DRAM location of a device-physical address (R394). -/
def dramLoc (r : Dram) (x : Nat) : DramLoc :=
  let g := x / groupSize r
  let a := x % groupSize r
  let c := Nat.xor (Nat.xor (bitsN a 8 2) (bitsN a 18 2)) (bitsN a 28 2)
  let a0 := a / 1024 * 256 + a % 256
  let a1 := if r.inlineEcc then a0 / 1792 * 2048 + a0 % 1792 else a0
  let cap := chanCapacity r
  let half := if r.twoRanks then cap / 2 else cap
  { group := g, chan := 4 * g + c, bank := Nat.xor (bitsN a1 11 4) (bitsN a1 19 4), row := a1 % half / 2 ^ 15,
    rank := if r.twoRanks then a1 / half % 2 else 0, column := a1 % 2048 }

/-- The system-cache slice and set of a line address (R386). -/
def cacheSlice (p : Nat) : Nat := Nat.xor (Nat.xor (bitsN p 6 4) (bitsN p 10 4)) (Nat.xor (bitsN p 14 4) (bitsN p 18 4))
def cacheSet (p : Nat) : Nat := bitsN p 10 11

/-- A DRAM group and channel. -/
def Dev.group (d : Dev) (g : Nat) : Group := tget d.dram.groups g .atReset
def Dev.chan (d : Dev) (n : Nat) : Chan := tget d.dram.chans n .atReset

/-- Whether an address lies in a fenced group (R409). -/
def Dev.isLost (d : Dev) (a : Nat) : Bool :=
  regionOf d.dram a = .dram && (d.group (a / groupSize d.dram)).state = 2

/-- The byte that a read at a device-physical address finds: this command's stores first. -/
def Dev.peekByte (d : Dev) (a : Nat) : Byte :=
  match d.writes.find? (fun p => p.1 = a) with
  | some p => p.2
  | none => cellGet d.mem a

/-- n bytes from a device-physical address. -/
def Dev.peek (d : Dev) (a n : Nat) : List Byte := (List.range n).map (fun i => d.peekByte (a + i))

/-- n bytes from a device-physical address as a number. -/
def Dev.peekNat (d : Dev) (a n : Nat) : Nat := ofBytes (d.peek a n)

/-- The stores of a byte string at an address, put before the list. -/
def consBytes (a : Nat) (bytes : List Byte) (w : List (Nat × Byte)) : List (Nat × Byte) :=
  match bytes with
  | [] => w
  | b :: r => consBytes (a + 1) r ((a, b) :: w)

/-- What is uncorrectable, as listed: line l of 64 bytes (R390, R391), or word w of the Vitrine as 2^40 + w (R258); its first byte
and its size. -/
def wordPoison (a : Nat) : Nat := 2 ^ 40 + (a - vitrineBase) / 9
def poisonAt (l : Nat) : Nat × Nat := if l < 2 ^ 40 then (64 * l, 64) else (vitrineBase + 9 * (l - 2 ^ 40), 9)

/-- A store of bytes at a device-physical address; a whole line or word written clears its poison (R391). -/
def Dev.poke (d : Dev) (a : Nat) (bytes : List Byte) : Dev :=
  { d with
    writes := consBytes a bytes d.writes
    poison := d.poison.filter (fun l => !(decide (a ≤ (poisonAt l).1) && decide ((poisonAt l).1 + (poisonAt l).2 ≤ a + bytes.length))) }

/-- The first trouble in the n bytes at a: 0 none, 0xD uncorrectable data, 0xE a fenced group (R144). -/
def Dev.dataCause (d : Dev) (a n : Nat) : Nat :=
  if n = 0 then 0
  else if d.isLost a || d.isLost (a + n - 1) then 0xE
  else if d.poison.any (fun l => decide (a < (poisonAt l).1 + (poisonAt l).2) && decide ((poisonAt l).1 < a + n)) then 0xD
  else 0

/-- A read of device-physical memory noted for the end of the command (R384), on a port of its own or the command's; a flush of a line. -/
def Dev.ask (d : Dev) (a n : Nat) (port : Option Nat) : Dev :=
  { d with bus := { d.bus with asks := d.bus.asks ++ [{ addr := a, bytes := n, flush := false, port := port }] } }
def Dev.askFlush (d : Dev) (a : Nat) : Dev :=
  { d with bus := { d.bus with asks := d.bus.asks ++ [{ addr := a, bytes := 1, flush := true, port := none }] } }

/-- The memory port of a function's host port (R384). -/
def mpHost (f : Nat) : Nat := 17 + f / 16

/-! State objects, functions, ports and rings. -/

/-- The key of a field word in the table of state objects: class, instance, word (R117). -/
def objKey (cls inst word : Nat) : Nat := cls * 2 ^ 32 + inst * 2 ^ 16 + word

/-- A field word's value when nothing has written it: the reset values of R152, R153, R228, R237, R304 and R337;
every other word, and every owner field but the manager's number, is zero. Owner fields start at the manager (R23). -/
def objReset (manager : Nat) (cls word : Nat) : W72 :=
  if word = 0 then BitVec.ofNat 72 manager
  else if cls = 0x02 then
    (if word = 1 then 0x3C3230 else if word = 2 then 0x00FEDCBA9876543210 else if word = 3 then 0x00000000000000F800
     else if word = 4 then BitVec.ofNat 72 (2000 * 2 ^ 16) else if word = 6 then BitVec.ofNat 72 (0x0F400 * 2 ^ 36 + 0x10800 * 2 ^ 18 + 0x11000)
     else if word = 7 then BitVec.ofNat 72 (0x0F800 * 2 ^ 8) else 0)
  else if cls = 0x03 then
    (if word = 4 ∨ word = 5 then 0x0F800
     else if word = 6 ∨ word = 10 then 0x80000000 else if word = 8 then 0x80000000 else 0)
  else if cls = 0x09 then
    (if word = 3 then BitVec.ofNat 72 (0x80000000 * 2 ^ 36) else if word = 5 then BitVec.ofNat 72 (0x80000000 * 2 ^ 36)
     else if word = 6 then BitVec.ofNat 72 (127 * 2 ^ 28 + 8 * 2 ^ 20 + 50 * 2 ^ 12 + 3 * 2 ^ 8 + 10)
     else if word = 7 then BitVec.ofNat 72 (200 * 2 ^ 48 + 120 * 2 ^ 32 + 32 * 2 ^ 24 + 8 * 2 ^ 20) else 0)
  else if cls = 0x0B then (if word = 1 then 0x10101010 else 0)
  else if cls = 0x0C then (if word = 1 then BitVec.ofNat 72 (50 * 2 ^ 8) else 0)
  else 0

/-- The applied value of a field word. -/
def Dev.obj (d : Dev) (cls inst word : Nat) : W72 := tget d.objs (objKey cls inst word) (objReset d.manager cls word)

/-- The device with an applied field word replaced. -/
def Dev.setObj (d : Dev) (cls inst word : Nat) (v : W72) : Dev := { d with objs := tset d.objs (objKey cls inst word) v }

/-- The owner of an instance (R23, R117). -/
def Dev.owner (d : Dev) (cls inst : Nat) : Nat := fld (d.obj cls inst 0) 0 6

/-- A function's touch delivery (R319, R320), and the device with it replaced. -/
def Dev.tfn (d : Dev) (f : Nat) : TouchFn := tget d.touch.fns f .atReset
def Dev.setTfn (d : Dev) (f : Nat) (x : TouchFn) : Dev := { d with touch := { d.touch with fns := tset d.touch.fns f x } }

/-- The frame of a link on HLK_DO (R323): drive samples, enables, zeros; by actuator, a code and an enable. -/
def linkFrame (codes : List (BitVec 24 × Bool)) : List (BitVec 32) :=
  codes.map (fun c => BitVec.ofNat 32 (c.1.toNat * 256)) ++ codes.map (fun c => BitVec.ofNat 32 (c.2.toNat * 2 ^ 31)) ++ List.replicate 8 0

/-- An effect slot (R331), and the device with it replaced. -/
def Dev.effSlot (d : Dev) (n : Nat) : EffSlot := tget d.haptic.slots n { holder := none, samples := [], emptyAfter := false }
def Dev.setEffSlot (d : Dev) (n : Nat) (x : EffSlot) : Dev := { d with haptic := { d.haptic with slots := tset d.haptic.slots n x } }

/-- A function's registers, and the device with them replaced. -/
def Dev.fn (d : Dev) (f : Nat) : Fn := tget d.fns f (.atReset d.manager f)
def Dev.setFn (d : Dev) (f : Nat) (x : Fn) : Dev := { d with fns := tset d.fns f x }

/-- A host port, and the device with it replaced. -/
def Dev.port (d : Dev) (p : Nat) : Port := tget d.ports p .atReset
def Dev.setPort (d : Dev) (p : Nat) (x : Port) : Dev := { d with ports := tset d.ports p x }

/-- A ring, and the device with it replaced. -/
def Dev.ring (d : Dev) (g : Nat) : Ring := tget d.rings g .atReset
def Dev.setRing (d : Dev) (g : Nat) (x : Ring) : Dev := { d with rings := tset d.rings g x }

/-- The critical and privileged marks of a function (R152). -/
def Dev.critical (d : Dev) (f : Nat) : Bool := bit (d.obj 0x0C f 1) 0
def Dev.privileged (d : Dev) (f : Nat) : Bool := bit (d.obj 0x0C f 1) 1

/-- Whether a function exists (FUNC_STATE.ENABLED, R146): a PF always, a VF by VF Enable and NumVFs. -/
def Dev.exists_ (d : Dev) (f : Nat) : Bool :=
  f < 64 && (f % 16 = 0 || ((d.port (f / 16)).vfEnable && f % 16 ≤ (d.port (f / 16)).numVfs))

/-! Translation. -/

/-- What an access does with the memory it reaches: read, write, program fetch, checked Vitrine write (R143, R252). -/
inductive Acc where
  | read
  | write
  | exec
  | vitrine
  deriving DecidableEq, Repr

/-- Whether the n bytes at a lie in the permitted range of a function (R143); Vitrine leaves are judged apart. -/
def Dev.permitted (d : Dev) (f a n : Nat) : Bool :=
  let inDram := regionOf d.dram a = .dram && regionOf d.dram (a + n - 1) = .dram
  if f = d.manager then
    inDram || (regionOf d.dram a = .scratch && regionOf d.dram (a + n - 1) = .scratch)
  else
    let b := (d.port (f / 16)).inForce
    inDram && decide (b.winBase.toNat ≤ a) && decide (a + n ≤ b.winBase.toNat + b.winSize.toNat)

/-- Whether a page has bytes of internal control space or of the boot ROM (R42). -/
def hitsControl (page size : Nat) : Bool :=
  (decide (page < 0xC100000000) && decide (0xC000000000 < page + size)) || (decide (page < 0xFFF0040000) && decide (0xFFF0000000 < page + size))

/-- The cause for the page of a leaf (R144, item 3 and 4): none, or a cause code. -/
def Dev.pageCause (d : Dev) (f : Nat) (acc : Acc) (page size : Nat) (perms : Nat) : Option Nat :=
  let lo := regionOf d.dram page
  let hi := regionOf d.dram (page + size - 1)
  if hitsControl page size then some 0x8
  else if lo = .none ∨ hi = .none then some 0x7
  else if lo = .vitrine && (!d.critical f || acc = .write) then some 0x9
  else if acc = .vitrine && lo ≠ .vitrine then some 0x9
  else if lo ≠ .vitrine && !d.permitted f page size then some 0x6
  else if acc = .exec && perms / 4 % 2 = 0 then some 0x4
  else if (acc = .write || acc = .vitrine) && perms / 2 % 2 = 0 then some 0x3
  else if acc = .read && perms % 2 = 0 then some 0x2
  else none

/-- The value of a table entry for an access: the one in memory, or an old one that is still cached (R145), with the
cause when the entry cannot be read. -/
def Dev.fetchEntry (d0 : Dev) (f entry va size : Nat) : Dev × Except Nat (BitVec 64) :=
  let d := if (tfind (d0.fn f).tlb entry).isSome then d0 else d0.ask entry 8 (some (mpHost f))
  let fresh : Except Nat (BitVec 64) :=
    let c := d.dataCause entry 8
    if c = 0xE then .error 0xC else if c = 0xD then .error 0xB else .ok (BitVec.ofNat 64 (d.peekNat entry 8))
  let keep (v : BitVec 64) : Dev :=
    if v.getLsbD 0 then d.setFn f { d.fn f with tlb := tset (d.fn f).tlb entry { va := va, size := size, value := v } } else d
  match tfind (d.fn f).tlb entry, fresh with
  | none, .ok v => (keep v, .ok v)
  | none, .error c => (d, .error c)
  | some old, .ok v =>
    if old.value = v then (d, .ok v)
    else if Config.staleChoice d.free then ({ d with free := d.free + 1 }, .ok old.value)
    else ({ d with free := d.free + 1 }, .ok v)
  | some old, .error c =>
    if Config.staleChoice d.free then ({ d with free := d.free + 1 }, .ok old.value)
    else ({ d with free := d.free + 1 }, .error c)

/-- A walk from the table at `table` on the given levels, L3 first (R141 to R144). -/
def Dev.walk (d : Dev) (f va : Nat) (acc : Acc) (levels : List Nat) (table : Nat) : Dev × Except Nat Nat :=
  match levels with
  | [] => (d, .error 0x5)
  | lv :: rest =>
    if !d.permitted f table 4096 then (d, .error 0x6)
    else
      let size := 2 ^ (12 + 9 * lv)
      let entry := table + 8 * bitsN va (12 + 9 * lv) 9
      match d.fetchEntry f entry (va / size * size) size with
      | (d1, .error c) => (d1, .error c)
      | (d1, .ok e) =>
        let leaf := e.getLsbD 1
        let addr := fld e 12 28 * 4096
        if !e.getLsbD 0 then (d1, .error 0x1)
        else if fld e 40 12 ≠ 0 ∨ fld e 5 7 ≠ 0 ∨ (leaf ∧ lv = 3) ∨ (!leaf ∧ lv = 0) ∨ (leaf ∧ addr % size ≠ 0) then
          (d1, .error 0x5)
        else if leaf then
          match d1.pageCause f acc addr size (fld e 2 3) with
          | some c => (d1, .error c)
          | none => (d1, .ok (addr + va % size))
        else d1.walk f va acc rest addr

/-- The device-physical address of a device-virtual one, or the cause of R144 (R141 to R146). -/
def Dev.translate (d : Dev) (f va : Nat) (acc : Acc) : Dev × Except Nat Nat :=
  let mode := fld (d.fn f).iommuRoot 0 2
  if mode = 2 then
    (if 2 ^ 40 ≤ va then (d, .error 0x7)
     else match d.pageCause f acc va 1 7 with
       | some c => (d, .error c)
       | none => (d, .ok va))
  else if mode = 1 then d.walk f va acc [3, 2, 1, 0] (fld (d.fn f).iommuRoot 12 28 * 4096)
  else (d, .error 0xA)

/-- The pieces of a device-virtual range that lie in one 4 KiB page each: address and length. -/
def pagePieces (fuel va n : Nat) : List (Nat × Nat) :=
  match fuel with
  | 0 => []
  | k + 1 =>
    if n = 0 then []
    else
      let a := va % 2 ^ 48
      let m := Nat.min n (4096 - a % 4096)
      (a, m) :: pagePieces k (va + m) (n - m)

/-- The pieces of a range of n bytes. -/
def pieces (va n : Nat) : List (Nat × Nat) := pagePieces (n / 4096 + 2) va n

/-- All pieces translated: device-virtual, device-physical address and length, or the first cause with its address. -/
def Dev.translateAll (d : Dev) (f : Nat) (acc : Acc) (l : List (Nat × Nat)) : Dev × Except (Nat × Nat) (List (Nat × Nat × Nat)) :=
  match l with
  | [] => (d, .ok [])
  | (va, n) :: r =>
    match d.translate f va acc with
    | (d1, .error c) => (d1, .error (c, va))
    | (d1, .ok pa) =>
      match d1.translateAll f acc r with
      | (d2, .error e) => (d2, .error e)
      | (d2, .ok t) => (d2, .ok ((va, pa, n) :: t))

/-- n bytes of a function's device-virtual space, or the cause and its address (R143, R144, R391, R409). -/
def Dev.readV (d : Dev) (f va n : Nat) (acc : Acc) : Dev × Except (Nat × Nat) (List Byte) :=
  match d.translateAll f acc (pieces va n) with
  | (d1, .error e) => (d1, .error e)
  | (d1, .ok t) =>
    match t.find? (fun x => d1.dataCause x.2.1 x.2.2 ≠ 0) with
    | some x => (d1, .error (d1.dataCause x.2.1 x.2.2, x.1))
    | none => (t.foldl (fun d x => d.ask x.2.1 x.2.2 none) d1, .ok (t.flatMap (fun x => d1.peek x.2.1 x.2.2)))

/-- n packed 72-bit words of a device-virtual array (R6, R7). -/
def wordsOf (bytes : List Byte) (n : Nat) : List W72 :=
  (List.range n).map (fun i => BitVec.ofNat 72 (ofBytes ((bytes.drop (9 * i)).take 9)))

/-- n packed 72-bit words read at a device-virtual address. -/
def Dev.readWords (d : Dev) (f va n : Nat) (acc : Acc) : Dev × Except (Nat × Nat) (List W72) :=
  match d.readV f va (9 * n) acc with
  | (d1, .error e) => (d1, .error e)
  | (d1, .ok b) => (d1, .ok (wordsOf b n))

/-- The item status of a fault cause (R144, R391, R409). -/
def causeStatus (c : Nat) : BitVec 8 := if c = 0xB ∨ c = 0xD then 0x22 else if c = 0xC ∨ c = 0xE then 0x21 else 0x20

/-- The exception code of a fault cause for a program (R77, R144): EX_ECC or EX_LOST for its data, EX_MEM for a translation that fails. -/
def causeExc (c : Nat) : BitVec 8 := if c = 0xD then 0x07 else if c = 0xE then 0x08 else 0x06

end Sys2Proof.Machine
end

