-- ==== Sys2Proof/Machine/Lattice.lean ====
section
/-! DEFINITION. The system cache and the lattice (R384 to R389, R396, R399): what the accesses of a command leave there when it ends. What
order the requests are served in is DramQueue.lean's. -/

namespace Sys2Proof.Machine

/-! Parts. -/

def Dev.queue (d : Dev) (n : Nat) : ChanQueue := tget d.bus.chans n .atReset
def Dev.setQueue (d : Dev) (n : Nat) (x : ChanQueue) : Dev := { d with bus := { d.bus with chans := tset d.bus.chans n x } }

/-- The port and hint of an access within a command, kept for its end (R384, R389). Port 24 stands for accesses that are no requests. -/
def Dev.asked (d : Dev) (who : Option (Nat × Nat)) : Dev := { d with bus := { d.bus with who := who } }

/-- The memory ports (R384): shader core n, sequencers, streams, CVUs, the supervisor; mpHost in Mem.lean. -/
def mpCore (n : Nat) : Nat := 12 + n / 4
def mpSeq : Nat := 16
def mpStream : Nat := 21
def mpCheck : Nat := 22
def mpSuper : Nat := 23
def mpNone : Nat := 24

/-- The default allocation hint of a port (R384, R389): 0 normal, 1 streaming. -/
def mpHint (port : Nat) : Nat := if port < 12 || (21 ≤ port && port ≤ 23) then 1 else 0

/-- LAT_TARGET and PAGE of a memory port after reset (R384): page policy 0 open, 1 closed, 2 adaptive (R398). -/
def memPortReset (m : Nat) : Nat :=
  let lat := if m < 12 then 16777215 else if m < 16 then 2000 else if m = 16 then 500 else if m < 22 then 1000 else if m = 22 then 5000 else 10000
  (if 12 ≤ m ∧ m < 16 then 0 else 2) * 2 ^ 28 + lat

/-! The cache. -/

/-- The key of a line's set (R386). -/
def setKey (line : Nat) : Nat := 2048 * cacheSlice (64 * line) + cacheSet (64 * line)

/-- The ways of the general partition (R388). -/
def Dram.generalWays (r : Dram) : List Nat := (List.range 16).drop (r.scratchWays + r.chaseWays)

/-- The line that makes room in a set for one with a hint (R389): none where a way is free; absent where no line may go. -/
def victim (ways : List Nat) (keep : Bool) (set : List CacheLine) : Option (Option CacheLine) :=
  if keep && decide (ways.length ≤ 2 * (set.filter (fun x => x.keep)).length) then (set.reverse.find? (fun x => x.keep)).map some
  else if ways.any (fun w => set.all (fun x => x.way ≠ w)) then some none
  else (set.reverse.find? (fun x => !x.keep)).map some

/-- An access to a line by its hint (R389): the set afterwards, and the DRAM accesses that it makes: line, write. `whole` for a write of every
byte of the line. -/
def cacheAccess (ways : List Nat) (hint : Nat) (write whole : Bool) (line : Nat) (set : List CacheLine) : List CacheLine × List (Nat × Bool) :=
  match set.find? (fun x => x.line = line) with
  | some x =>
    let through := hint = 1 && write
    ({ x with dirty := x.dirty || (write && !through) } :: set.filter (fun y => y.line ≠ line), if through then [(line, true)] else [])
  | none =>
    match (if hint = 1 then none else victim ways (hint = 2) set) with
    | none => (set, [(line, write)])
    | some out =>
      let rest := match out with | some v => set.filter (fun y => y.line ≠ v.line) | none => set
      let way := (ways.find? (fun w => rest.all (fun x => x.way ≠ w))).getD 0
      let back := match out with | some v => if v.dirty then [(v.line, true)] else [] | none => []
      ({ line := line, way := way, dirty := write, keep := hint = 2 } :: rest, back ++ (if write && whole then [] else [(line, false)]))

/-- A line written back that stays valid (R387). -/
def cacheFlush (line : Nat) (set : List CacheLine) : List CacheLine × List (Nat × Bool) :=
  if set.any (fun x => x.line = line && x.dirty) then (set.map (fun x => if x.line = line then { x with dirty := false } else x), [(line, true)]) else (set, [])

/-! Requests. -/

/-- A request enters the lattice (R385, R396); a read of a line with a write queued is served from that (R399). -/
def Dev.request (d : Dev) (port line : Nat) (write : Bool) : Dev :=
  let n := (dramLoc d.dram (64 * line)).chan
  let q := d.queue n
  if !write && (q.queued ++ q.waiting).any (fun r => r.write && r.line = line) then d
  else d.setQueue n { q with waiting := q.waiting ++ [{ port := port, line := line, write := write, at_ := d.now, reserved := false }] }

/-- The result of an access to the cache taken over. -/
def Dev.cached (d : Dev) (port line : Nat) (h : List CacheLine → List CacheLine × List (Nat × Bool)) : Dev :=
  let k := setKey line
  let r := h (tget d.bus.cache k [])
  r.2.foldl (fun d x => d.request port x.1 x.2) { d with bus := { d.bus with cache := tset d.bus.cache k r.1 } }

/-- The lines of n bytes at an address that are DRAM and not lost. -/
def Dev.dramLines (d : Dev) (a n : Nat) : List Nat :=
  if n = 0 then []
  else ((List.range ((a + n - 1) / 64 + 1 - a / 64)).map (fun i => a / 64 + i)).filter (fun l => regionOf d.dram (64 * l) = .dram && !d.isLost (64 * l))

/-- The lines that a command has stored to, oldest first, and whether every byte of one has been. -/
def linesWritten (writes : List (Nat × Byte)) : List Nat := dedup ((writes.map (fun x => x.1 / 64)).reverse)
def lineWhole (writes : List (Nat × Byte)) (line : Nat) : Bool := (List.range 64).all (fun i => writes.any (fun x => x.1 = 64 * line + i))

/-- What the accesses of a command leave in the cache and the lattice: `who` is the port and hint of those that name none. -/
def Dev.traffic (d : Dev) (who : Nat × Nat) : Dev :=
  match d.bus.who.getD who with
  | (port, hint) =>
    if port = mpNone then d
    else
      let ways := d.dram.generalWays
      let d1 := d.bus.asks.foldl (fun d x =>
        let p := x.port.getD port
        let h := match x.port with | some p => mpHint p | none => hint
        (d.dramLines x.addr x.bytes).foldl (fun d l => d.cached p l (if x.flush then cacheFlush l else cacheAccess ways h false false l)) d) d
      (linesWritten d.writes).foldl (fun d l =>
        (d.dramLines (64 * l) 64).foldl (fun d l => d.cached port l (cacheAccess ways hint true (lineWhole d.writes l) l)) d) d1

/-- The lattice at the end of a command. -/
def Dev.busStep (d : Dev) (who : Nat × Nat) : Lattice :=
  if d.bus.asks = [] ∧ d.writes = [] then { d.bus with who := none } else { (d.traffic who).bus with asks := [], who := none }

/-- The lines and requests of a fenced group are dropped (R409). -/
def Dev.dropGroup (d : Dev) (g : Nat) : Dev :=
  { d with bus :=
      { d.bus with
        cache := d.bus.cache.map (fun x => (x.1, x.2.filter (fun l => (dramLoc d.dram (64 * l.line)).group ≠ g)))
        chans := d.bus.chans.filter (fun x => x.1 / 4 ≠ g) } }

/-- The ways that leave the general partition are written back and invalidated (R415). -/
def Dev.leaveWays (d : Dev) (ways : List Nat) : Dev :=
  let gone (x : CacheLine) : Bool := !ways.contains x.way
  let back := (d.bus.cache.flatMap (fun x => x.2.filter (fun l => gone l && l.dirty))).map (fun l => l.line)
  back.foldl (fun d l => d.request mpSuper l true)
    { d with bus := { d.bus with cache := d.bus.cache.map (fun x => (x.1, x.2.filter (fun l => !gone l))) } }

/-- Whether a line is in the general partition, and dirty there (R390). -/
def Dev.lineIn (d : Dev) (line : Nat) (dirty : Bool) : Bool := (tget d.bus.cache (setKey line) []).any (fun x => x.line = line && x.dirty = dirty)

end Sys2Proof.Machine
end

