-- ==== Sys2Proof/Machine/Operands.lean ====
section
/-! DEFINITION. The operands of an instruction word: the registers it names (R46, R48), the formats and sub-operations
that an opcode accepts (R49, R50, R57, R544), immediates, and the effective address (R63). -/

namespace Sys2Proof.Machine

end Sys2Proof.Machine

namespace Sys2Proof

open Sys2Proof.Machine

/-- The fields of the word as register numbers. -/
def Insn.d (w : Insn) : Nat := w.dst.toNat
def Insn.a (w : Insn) : Nat := w.srcA.toNat
def Insn.b (w : Insn) : Nat := w.srcB.toNat
def Insn.c (w : Insn) : Nat := fld w.low 30 6
def Insn.kd (w : Insn) : Nat := fld w.dst 0 3
def Insn.ka (w : Insn) : Nat := fld w.srcA 0 3
def Insn.kb (w : Insn) : Nat := fld w.srcB 0 3
def Insn.s (w : Insn) : Nat := w.sub.toNat

/-- imm36, sign-extended and zero-extended to 72 bits (R50, R58). -/
def Insn.imm (w : Insn) : W72 := w.low.signExtend 72
def Insn.immZ (w : Insn) : W72 := w.low.zeroExtend 72

/-- The rounding mode and SAT of formats 0 and 6; other formats round to nearest even without SAT (R50). -/
def Insn.rm (w : Insn) : Nat := if w.fmt = 0 ∨ w.fmt = 6 then fld w.low 28 2 else 0
def Insn.sat (w : Insn) : Bool := (w.fmt = 0 || w.fmt = 6) && bit w.low 27

end Sys2Proof

namespace Sys2Proof.Machine

/-! Register banks. -/

/-- A general register; g0 reads zero (R48). -/
def Bank.rd (b : Bank) (n : Nat) : W72 := if n = 0 then 0 else tget b.g n 0

/-- A general register written; a write to g0 is discarded (R48). -/
def Bank.wr (b : Bank) (n : Nat) (v : W72) : Bank := if n = 0 then b else { b with g := tset b.g n v }

/-- A predicate register; k0 reads one (R48). -/
def Bank.rdK (b : Bank) (n : Nat) : Bool := if n = 0 then true else bit b.k n

/-- A predicate register written; a write to k0 is discarded (R48). -/
def Bank.wrK (b : Bank) (n : Nat) (v : Bool) : Bank := if n = 0 then b else { b with k := setBit b.k n v }

/-- Whether the instruction executes on a bank: k[predicate] XOR negate (R47). -/
def Bank.holds (b : Bank) (w : Insn) : Bool := b.rdK w.pred.toNat != w.neg

/-- Operand a, and operand b or the immediate of format 1 (R58). -/
def Bank.opA (b : Bank) (w : Insn) : W72 := b.rd w.a
def Bank.opB (b : Bank) (w : Insn) : W72 := if w.fmt = 1 then w.imm else b.rd w.b
def Bank.opBZ (b : Bank) (w : Insn) : W72 := if w.fmt = 1 then w.immZ else b.rd w.b
def Bank.opC (b : Bank) (w : Insn) : W72 := b.rd w.c

/-- The effective address of format 2: base + index × scale + offset, modulo 2^48. -/
def Bank.addr (b : Bank) (w : Insn) : Nat :=
  let scale := nth [1, 9, 64, 576] (fld w.low 34 2) 1
  ofSigned 48 (((b.rd w.a).toNat + (b.rd w.b).toNat * scale : Nat) + toSigned 32 (fld w.low 0 32))

/-! What an opcode accepts. -/

/-- How an opcode uses a register field: not at all, as a general or vector register, as a predicate register. -/
inductive Use where
  | none
  | reg
  | pred
  deriving DecidableEq, Repr

/-- The profiles that execute an opcode (R51). -/
inductive Profile where
  | all
  | sv
  | s
  | v
  | a
  | firmware
  deriving DecidableEq, Repr

/-- A row of the opcode map (R57): formats, uses of dst, srcA, srcB, whether there is a c operand, how many
sub-operations from 0 up are defined, the profiles. -/
structure Shape where
  formats : List (BitVec 3)
  dst : Use
  a : Use
  b : Use
  c : Bool
  subs : Nat
  prof : Profile
  deriving DecidableEq, Repr

/-- A field that the opcode does not use must be zero; one that names a predicate register has three zero bits (R46, R50). -/
def Use.bad (u : Use) (x : BitVec 6) : Bool :=
  match u with
  | .none => x != 0
  | .reg => false
  | .pred => fld x 3 3 ≠ 0

/-- The upper bits of a field that names a predicate register (R46). -/
def Use.badPred (u : Use) (x : BitVec 6) : Bool := u = .pred && fld x 3 3 ≠ 0

/-- The profile a context runs programs of. -/
def Profile.runsOn (p : Profile) (c : Ctx) : Bool :=
  match c, p with
  | .guest _, .all => true
  | .guest _, .sv => true
  | .guest _, .s => true
  | .firmware _ _, .all => true
  | .firmware _ _, .sv => true
  | .firmware _ _, .s => true
  | .firmware _ _, .firmware => true
  | .wave _, .all => true
  | .wave _, .sv => true
  | .wave _, .v => true
  | .slice _, .all => true
  | .slice _, .a => true
  | _, _ => false

end Sys2Proof.Machine

namespace Sys2Proof

open Sys2Proof.Machine

/-- A nonzero bit in a field that the format marks must-be-zero, the hint 3, or the length 0 (R49, R50, R544). -/
def Insn.badFields (w : Insn) (sh : Shape) : Bool :=
  match w.fmt.toNat with
  | 0 => sh.dst.bad w.dst || sh.a.bad w.srcA || sh.b.bad w.srcB || (!sh.c && fld w.low 30 6 ≠ 0) || fld w.low 0 27 ≠ 0
  | 1 => (w.srcB != 0 && !(sh.b = .reg && sh.formats = [1])) || sh.dst.badPred w.dst
  | 2 => fld w.low 32 2 = 3
  | 3 => w.dst != 0 || w.srcB != 0 || sh.a.bad w.srcA
  | 4 => w.srcB != 0 || fld w.low 0 8 ≠ 0 || fld w.low 8 12 = 0
  | 6 => (!sh.c && fld w.low 30 6 ≠ 0) || sh.dst.badPred w.dst || sh.a.badPred w.srcA || sh.b.badPred w.srcB
  | _ => false

/-- Whether the word decodes under its opcode's row (R49), the profile apart. -/
def Insn.legal (w : Insn) (sh : Shape) : Bool := sh.formats.contains w.fmt && decide (w.s < sh.subs) && !w.badFields sh

/-- The exception code of decoding, if the word raises one: EX_PRIV first on a guest thread, then EX_ILLEGAL (R49, R51). -/
def Insn.decodeExc (w : Insn) (sh : Shape) (c : Ctx) : Option (BitVec 8) :=
  match c, sh.prof with
  | .guest _, .firmware => some 0x02
  | _, _ => if sh.prof.runsOn c && w.legal sh then none else some 0x01

end Sys2Proof

namespace Sys2Proof.Machine

/-- Shapes that several opcodes share: d, a, b with an immediate form; d, a, b; d, a; none; LD and ST. -/
def Shape.abImm (subs : Nat) : Shape := { formats := [0, 1], dst := .reg, a := .reg, b := .reg, c := false, subs := subs, prof := .all }
def Shape.ab (subs : Nat) : Shape := { formats := [0], dst := .reg, a := .reg, b := .reg, c := false, subs := subs, prof := .all }
def Shape.abc (subs : Nat) : Shape := { formats := [0], dst := .reg, a := .reg, b := .reg, c := true, subs := subs, prof := .all }
def Shape.a1 (subs : Nat) : Shape := { formats := [0], dst := .reg, a := .reg, b := .none, c := false, subs := subs, prof := .all }
def Shape.aImm (subs : Nat) : Shape := { formats := [1], dst := .reg, a := .reg, b := .none, c := false, subs := subs, prof := .all }
def Shape.bare (p : Profile) : Shape := { formats := [0], dst := .none, a := .none, b := .none, c := false, subs := 1, prof := p }
def Shape.mem (subs : Nat) (p : Profile) : Shape := { formats := [2], dst := .reg, a := .reg, b := .reg, c := false, subs := subs, prof := p }
def Shape.branch (a : Use) : Shape := { formats := [3], dst := .none, a := a, b := .none, c := false, subs := 1, prof := .all }
def Shape.vec (d a b : Use) (c : Bool) (subs : Nat) : Shape := { formats := [6], dst := d, a := a, b := b, c := c, subs := subs, prof := .v }
def Shape.aud (subs : Nat) : Shape := { formats := [7], dst := .reg, a := .reg, b := .reg, c := false, subs := subs, prof := .a }

end Sys2Proof.Machine
end

