-- ==== Sys2Proof/Machine/Events.lean ====
section
/-! DEFINITION. Events: EV_STATUS, MSI-X messages and the PBA (R133 to R136), pipe events (R134), the fault
record of a function (R43, R133, R144), and the instants that WAITEV counts (R72). -/

namespace Sys2Proof.Machine

/-- Time moves to an instant, never back (R40). -/
def Dev.tick (d : Dev) (t : Nat) : Dev := { d with now := Nat.max d.now t }

/-- The next free value (R145 and the values that the manual leaves open). -/
def Dev.free1 (d : Dev) : Dev × Nat := ({ d with free := d.free + 1 }, Config.freeBits d.free)

/-- The key of an event that WAITEV waits for (R72): its kind and parameter. -/
def evKey (kind param : Nat) : Nat := kind * 65536 + param

/-- How often an event has occurred, and one more occurrence. -/
def Dev.evCount (d : Dev) (kind param : Nat) : Nat := tget d.events (evKey kind param) 0
def Dev.counted (d : Dev) (kind param : Nat) : Dev :=
  { d with events := tset d.events (evKey kind param) (d.evCount kind param + 1) }

/-- A wait that an event of this kind and parameter at instant t meets, when its deadline has not passed (R72). -/
def Wait.meet (kind param t : Nat) (x : Wait) : Wait :=
  match x with
  | .event k p dst deadline met => .event k p dst deadline (met || (k = kind && p = param && decide (t ≤ deadline)))
  | .none => .none
  | .fence => .fence

/-- An event that WAITEV can wait for occurs now: it is counted, and the waits for it are met. -/
def Dev.occur (d : Dev) (kind param : Nat) : Dev :=
  { d.counted kind param with
    rings := d.rings.map (fun x => (x.1, { x.2 with thread := { x.2.thread with wait := x.2.thread.wait.meet kind param d.now } }))
    fw := d.fw.map (fun x => (x.1, { x.2 with wait := x.2.wait.meet kind param d.now })) }

/-- The vector that carries an EV_STATUS bit (R135). -/
def vectorOf (b : Nat) : Nat := if b ≤ 5 then b else if b ≤ 7 then 6 else 7

/-- An MSI-X table entry; after reset its vector is masked, as PCIe Base has it. -/
def Fn.msix (x : Fn) (v : Nat) : BitVec 128 := tget x.msixTable v (BitVec.ofNat 128 (2 ^ 96))

/-- Whether a function may send the message of a vector now (R125, R136). -/
def Dev.canSend (d : Dev) (f v : Nat) : Bool :=
  let x := d.fn f
  x.msixEnable && !x.msixMask && !bit (x.msix v) 96 && !x.d3hot && (d.port (f / 16)).link = .l0

/-- The message of a vector: sent, or its PBA bit set (R136). -/
def Dev.sendVector (d : Dev) (f v : Nat) : Dev :=
  if d.canSend f v then { d with msgs := d.msgs ++ [{ fn := f, vec := v, entry := (d.fn f).msix v }] }
  else d.setFn f { d.fn f with pba := setBit (d.fn f).pba v true }

/-- Whether a function receives the events of a pipe (R134). -/
def Dev.seesPipe (d : Dev) (f p : Nat) : Bool :=
  f = d.manager || d.owner 0x01 p = f || d.owner 0x02 p = f ||
  (List.range 16).any (fun s => d.owner 0x03 (16 * p + s) = f) || (List.range 4).any (fun v => d.owner 0x04 (4 * p + v) = f)

/-- PIPE_EVn as a function reads it. -/
def Dev.pipeEv (d : Dev) (f p : Nat) : BitVec 8 := if d.seesPipe f p then tget (d.fn f).pipeEv p 0 else 0

/-- EV_STATUS.PIPE: whether any enabled pipe event is 1 (R135). -/
def Dev.pipeStatus (d : Dev) (f : Nat) : Bool :=
  (List.range 12).any (fun p => (d.pipeEv f p) &&& (tget (d.fn f).pipeEvEn p 0) != 0)

/-- EV_STATUS as read. -/
def Dev.evStatus (d : Dev) (f : Nat) : BitVec 9 := setBit (d.fn f).evStatus 8 (d.pipeStatus f)

/-- An event of a function: its bit is set, and a message falls due when an enabled bit changes from 0 to 1 (R136). -/
def Dev.setEv (d : Dev) (f b : Nat) : Dev :=
  let x := d.fn f
  let d1 := d.setFn f { x with evStatus := setBit x.evStatus b true }
  if !bit x.evStatus b && bit x.evEnable b then d1.sendVector f (vectorOf b) else d1

/-- An event of pipe p in the functions that receive it (R133, R134): bit 0 VBLANK, 1 FLIP_DONE, 2 TE_LOST,
3 GLK_HOLDOVER, 4 GLK_RELOCKED, 5 CHASE_MISS, 6 SCANOUT_OVERWRITE, 7 CVU_MISMATCH. -/
def Dev.pipeEvent (d : Dev) (p b : Nat) : Dev :=
  (List.range 64).foldl (fun d f =>
    if d.exists_ f && d.seesPipe f p then
      let x := d.fn f
      let before := d.pipeStatus f
      let d1 := d.setFn f { x with pipeEv := tset x.pipeEv p (setBit (tget x.pipeEv p 0) b true) }
      if !before && d1.pipeStatus f && bit x.evEnable 8 then d1.sendVector f 7 else d1
    else d) d

/-- The fault sources of FAULT_INFO (R133). -/
def srcFetch : Nat := 0
def srcProgram : Nat := 1
def srcEngine : Nat := 2
def srcBarRead : Nat := 3
def srcBarWrite : Nat := 4
def srcItem : Nat := 5
def srcRecord : Nat := 6

/-- A fault recorded for a function, with EV_FAULT (R43, R133): the first one is kept, a further one sets OVERRUN. -/
def Dev.faultRec (d : Dev) (f cause source ring va : Nat) : Dev :=
  let x := d.fn f
  let x1 :=
    if bit x.faultInfo 31 then { x with faultInfo := setBit x.faultInfo 30 true }
    else
      { x with
        faultInfo := setBit (setBit (BitVec.ofNat 32 (cause * 2 ^ 16 + source * 2 ^ 12 + ring * 2 ^ 8)) 31 true) 30 (bit x.faultInfo 30)
        faultAddr := BitVec.ofNat 48 va
        rst := x.rst.map (fun r => { r with keepFault := decide (source = 6) }) }
  (d.setFn f x1).setEv f 5

/-- The fault of an access that ended with a cause (R43, R144): recorded, with EV_FAULT. A failure of the data (0xD, 0xE) is
recorded for engines, BAR2 accesses, ring item reads and record writes (R85, R138, R160, R183, R250, R409, R413). For a program's access it
raises EV_FAULT alone. -/
def Dev.accessFault (d : Dev) (f cause source ring va : Nat) : Dev :=
  if (cause = 0xD ∨ cause = 0xE) ∧ (source = 0 ∨ source = 1) then d.setEv f 5
  else d.faultRec f cause source ring va

/-- The fault of an access that raises an exception: EX_LOST raises no EV_FAULT (R77, R183). -/
def Dev.excFault (d : Dev) (f cause source ring va : Nat) : Dev :=
  if cause = 0xE then d else d.accessFault f cause source ring va

end Sys2Proof.Machine
end

