-- ==== Sys2Proof/Machine/Records.lean ====
section
/-! DEFINITION. Fault records of the safety manager: loci (R18, R19, R41, R498), record classes and policy (R499 to
R502), forces (R503), and the error counters (R506). -/

namespace Sys2Proof.Machine

/-- A locus (R41): subsystem, engine, unit, macro block, bit cell. -/
def locusOf (sub eng unit mac cell : Nat) : W72 :=
  BitVec.ofNat 72 (sub * 2 ^ 60 + eng * 2 ^ 52 + unit * 2 ^ 42 + mac * 2 ^ 26 + cell)

/-- The whole of an engine, and the whole of a unit (R19). -/
def locusEngine (sub eng : Nat) : W72 := locusOf sub eng 0x3FF 0xFFFF 0x3FFFFFF
def locusUnit (sub eng unit : Nat) : W72 := locusOf sub eng unit 0xFFFF 0x3FFFFFF

/-- The default action of a class (R500). -/
def classAction (c : Nat) : Nat :=
  if c = 0x05 then 2
  else if c = 0x02 ∨ c = 0x11 ∨ c = 0x22 ∨ c = 0x2B ∨ c = 0x30 ∨ c = 0x3A then 0
  else 1

/-- Whether a class code is one of R500's list. -/
def isClass (c : Nat) : Bool :=
  [0x01, 0x02, 0x03, 0x04, 0x05, 0x06, 0x10, 0x11, 0x12, 0x13, 0x14, 0x18, 0x20, 0x21, 0x22, 0x24, 0x28, 0x29, 0x2A, 0x2B,
   0x30, 0x31, 0x32, 0x38, 0x39, 0x3A].contains c

/-- SM_POLICYc (R500, R502, R511): ESCALATE and ACTION; the defaults until written. -/
def Dev.policy (d : Dev) (c : Nat) : BitVec 32 :=
  tget d.safety.policy c (BitVec.ofNat 32 (classAction c + if c = 0x20 then 3 * 2 ^ 8 else 0))

/-- The output port that an enabled pipe selects, and the pipe that drives a port (R266). -/
def Dev.pipePort (d : Dev) (p : Nat) : Nat := fld (d.obj 0x01 p 1) 16 4
def Dev.pipeOn (d : Dev) (p : Nat) : Bool := bit (d.obj 0x01 p 1) 31
def Dev.portPipe (d : Dev) (q : Nat) : Option Nat := (List.range 12).find? (fun p => d.pipeOn p && d.pipePort p = q)

/-- The engine value of an output port in the display subsystem (R18). -/
def portEngine (q : Nat) : Nat := 0x10 + q

/-- The pipes that a FORCE for a locus acts on (R503). -/
def Dev.forcePipes (d : Dev) (locus : W72) : Nat :=
  let sub := fld locus 60 6
  let eng := fld locus 52 8
  if (sub = 0x05 ∨ sub = 0x04) ∧ eng < 12 then 2 ^ eng
  else if sub = 0x05 ∧ 0x10 ≤ eng ∧ eng ≤ 0x1B then
    (match d.portPipe (eng - 0x10) with | some p => 2 ^ p | none => d.safety.forceSet.toNat)
  else if sub = 0x09 ∧ eng < 32 then
    (let tap := fld (d.obj 0x0A eng 1) 24 7
     if 1 ≤ tap ∧ tap ≤ 12 then 2 ^ (tap - 1) else d.safety.forceSet.toNat)
  else d.safety.forceSet.toNat

/-- The packed words of a record (R499). -/
def Rec.words (r : Rec) : List W72 :=
  [r.locus,
   BitVec.ofNat 72 (r.cls.toNat * 2 ^ 64 + r.stamp % 2 ^ 64),
   BitVec.ofNat 72 (r.seq.toNat * 2 ^ 56 + (r.fn.getD 0) % 64 * 2 ^ 50 + r.fn.isSome.toNat * 2 ^ 49 + r.lost.toNat * 2 ^ 48 + r.action.toNat * 2 ^ 45),
   BitVec.ofNat 72 r.dataA.toNat, BitVec.ofNat 72 r.dataB.toNat]

/-- A detected fault reaches the safety manager (R495, R497, R499 to R503): the record is queued or dropped, and the
action of its class, raised by ESCALATE, is taken. A halted pair records nothing. -/
def Dev.smRecord (d : Dev) (cls : Nat) (locus : W72) (fn : Option Nat) (dataA dataB : Nat) : Dev :=
  let s := d.safety
  if s.state = 2 then d
  else
    let times := (tget s.arrivals cls []).filter (fun t => decide (d.now < t + 1000000000)) ++ [d.now]
    let esc := fld (d.policy cls) 8 8
    let act0 := fld (d.policy cls) 0 3
    let act := if esc ≠ 0 ∧ esc ≤ times.length then Nat.min 4 (act0 + 1) else act0
    let seq := s.seq + 1
    let r : Rec :=
      { locus := locus, cls := BitVec.ofNat 8 cls, stamp := d.now, seq := seq, fn := fn, lost := s.lostMark,
        action := BitVec.ofNat 3 act, dataA := BitVec.ofNat 64 dataA,
        dataB := if s.refclkLost then setBit (BitVec.ofNat 64 dataB) 63 true else BitVec.ofNat 64 dataB }
    let full := 64 ≤ s.queue.length
    { d with
      safety :=
        { s with
          seq := seq
          arrivals := tset s.arrivals cls times
          queue := if full then s.queue else s.queue ++ [r]
          lost := if full then satInc s.lost else s.lost
          lostMark := full
          faultN := s.faultN || decide (1 ≤ act)
          forceWanted := if 2 ≤ act then s.forceWanted ||| BitVec.ofNat 12 (d.forcePipes locus) else s.forceWanted
          escalate := s.escalate || act = 3
          plinthRec := if act = 3 then some r else s.plinthRec
          freezeWanted := s.freezeWanted || decide (4 ≤ act) } }

/-- The error counters of a subsystem (R506, R512): one uncorrectable error, one corrected error. -/
def Dev.countUe (d : Dev) (sub : Nat) : Dev := { d with safety := { d.safety with ue := tset d.safety.ue sub (satInc (tget d.safety.ue sub 0)) } }
/-- SRAM_UE, with a syndrome that the manual does not state (tag 31), and the count of its subsystem (R500, R506). -/
def Dev.sramUe (d : Dev) (l : W72) (fn : Option Nat) : Dev :=
  (d.countUe (fld l 60 6)).smRecord 0x01 l fn (Config.unstated 31 [l.toNat, d.now]) 0
def Dev.countCe (d : Dev) (sub : Nat) : Dev := { d with safety := { d.safety with ce := tset d.safety.ce sub (satInc (tget d.safety.ce sub 0)) } }

/-- A corrected error in a macro (R506): counted, and CE_THRESHOLD at 16 within a second, at most once a second. -/
def Dev.macroFix (d : Dev) (locus : W72) : Dev :=
  let recent := d.safety.macroFixes.filter (fun x => decide (d.now < x.2 + 1000000000)) ++ [(locus, d.now)]
  let n := (recent.filter (fun x => x.1 = locus)).length
  let said := d.safety.macroRec.any (fun x => decide (x.1 = locus) && decide (d.now < x.2 + 1000000000))
  let d1 := ({ d with safety := { d.safety with macroFixes := recent } } : Dev).countCe (fld locus 60 6)
  if 16 ≤ n && !said then
    ({ d1 with safety := { d1.safety with macroRec := d1.safety.macroRec.filter (fun x => decide (d.now < x.2 + 1000000000)) ++ [(locus, d.now)] } } : Dev).smRecord
      0x02 locus none n 0
  else d1

end Sys2Proof.Machine
end

