-- ==== Sys2Proof/Machine/Num.lean ====
section
/-! DEFINITION. The arithmetic formats of R52 to R56: F18 and F36 values taken exactly and rounded once,
S36 and S80 fixed point, the four rounding modes of R50 and the conversions. -/

namespace Sys2Proof.Machine

/-- A float format: exponent width, fraction width, bias. -/
structure FFmt where
  eb : Nat
  fb : Nat
  bias : Nat
  deriving DecidableEq, Repr

/-- F18: sign, six exponent bits, eleven fraction bits, bias 31. -/
def f18 : FFmt := { eb := 6, fb := 11, bias := 31 }

/-- F36: sign, eight exponent bits, twenty-seven fraction bits, bias 127. -/
def f36 : FFmt := { eb := 8, fb := 27, bias := 127 }

/-- A float taken apart: NaN with its bits, an infinity, or (-1)^neg × m × 2^e exactly. -/
inductive FVal where
  | nan (bits : Nat)
  | inf (neg : Bool)
  | fin (neg : Bool) (m : Nat) (e : Int)
  deriving DecidableEq, Repr

/-- The value of a bit pattern; subnormals at their exact value (R52). -/
def FFmt.unpack (f : FFmt) (x : Nat) : FVal :=
  let frac := x % 2 ^ f.fb
  let ex := bitsN x f.fb f.eb
  let neg := bitsN x (f.fb + f.eb) 1 = 1
  if ex = 2 ^ f.eb - 1 then (if frac = 0 then .inf neg else .nan (x % 2 ^ (f.fb + f.eb + 1)))
  else if ex = 0 then .fin neg frac (1 - (f.bias : Int) - f.fb)
  else .fin neg (2 ^ f.fb + frac) ((ex : Int) - f.bias - f.fb)

/-- The sign bit in place. -/
def FFmt.signBit (f : FFmt) (neg : Bool) : Nat := if neg then 2 ^ (f.fb + f.eb) else 0

/-- The magnitude bits of infinity. -/
def FFmt.infBits (f : FFmt) : Nat := (2 ^ f.eb - 1) * 2 ^ f.fb

/-- The canonical quiet NaN. -/
def FFmt.qnan (f : FFmt) : Nat := f.infBits + 2 ^ (f.fb - 1)

/-- A NaN operand as a result: its fraction MSB set (R54). -/
def FFmt.quiet (f : FFmt) (x : Nat) : Nat := x ||| 2 ^ (f.fb - 1)

/-- Whether a truncated magnitude goes up: `rem` against the unit `unit`, `odd` the last bit kept (R50). -/
def roundsUp (rm : Nat) (neg odd : Bool) (rem unit : Nat) : Bool :=
  if rem = 0 then false
  else if rm = 0 then (unit < 2 * rem) || (2 * rem = unit && odd)
  else if rm = 1 then false
  else if rm = 2 then !neg
  else neg

/-- n / d rounded to a whole number in the mode rm; `neg` is the sign of the value. -/
def roundDiv (rm : Nat) (neg : Bool) (n d : Nat) : Nat :=
  let q := n / d
  if roundsUp rm neg (q % 2 = 1) (n % d) d then q + 1 else q

/-- x / 2^sh rounded in the mode rm. -/
def roundShift (rm : Nat) (x : Int) (sh : Nat) : Int :=
  if x < 0 then - (roundDiv rm true x.natAbs (2 ^ sh) : Int) else (roundDiv rm false x.natAbs (2 ^ sh) : Int)

/-- The result for a magnitude beyond the largest finite value (R53). -/
def FFmt.overflow (f : FFmt) (rm : Nat) (sat neg : Bool) : Nat :=
  let toInf := (rm = 0) || (rm = 2 && !neg) || (rm = 3 && neg)
  f.signBit neg + (if toInf && !sat then f.infBits else f.infBits - 1)

/-- (-1)^neg × n / d × 2^e rounded once to the format (R52, R53); zero keeps the sign. -/
def FFmt.round (f : FFmt) (rm : Nat) (sat neg : Bool) (n d : Nat) (e : Int) : Nat :=
  if n = 0 then f.signBit neg else
  let top : Int := (Nat.log2 n : Int) - Nat.log2 d + e
  let umin : Int := 1 - (f.bias : Int) - f.fb
  -- the quotient in units of 2^l, with at least two bits below the last place kept
  let l : Int := (if umin < top - f.fb - 1 then top - f.fb - 1 else umin) - 3
  let sh : Int := e - l
  let num := if 0 ≤ sh then n * 2 ^ sh.toNat else n
  let den := if 0 ≤ sh then d else d * 2 ^ (-sh).toNat
  let t := num / den
  let u0 : Int := (Nat.log2 t : Int) + l - f.fb
  let u : Int := if u0 < umin then umin else u0
  let unit := den * 2 ^ (u - l).toNat
  let q := num / unit
  let m := if roundsUp rm neg (q % 2 = 1) (num % unit) unit then q + 1 else q
  let bits := (u - umin).toNat * 2 ^ f.fb + m
  if f.infBits ≤ bits then f.overflow rm sat neg else f.signBit neg + bits

/-- The infinity that a finite operation delivers, under SAT (R53). -/
def FFmt.infOf (f : FFmt) (sat neg : Bool) : Nat := f.signBit neg + (if sat then f.infBits - 1 else f.infBits)

/-- Exact sum of two finite values, as sign, magnitude and exponent; none when it is exactly zero. -/
def finSum (n1 : Bool) (m1 : Nat) (e1 : Int) (n2 : Bool) (m2 : Nat) (e2 : Int) : Option (Bool × Nat × Int) :=
  let e := if e1 < e2 then e1 else e2
  let x : Int := (if n1 then -1 else 1) * (m1 * 2 ^ (e1 - e).toNat : Nat)
  let y : Int := (if n2 then -1 else 1) * (m2 * 2 ^ (e2 - e).toNat : Nat)
  if x + y = 0 then none else some (decide (x + y < 0), (x + y).natAbs, e)

/-- The sum of two values that are not NaN (R52, R54, R55). -/
def FFmt.addVals (f : FFmt) (rm : Nat) (sat : Bool) (x y : FVal) : Nat :=
  match x, y with
  | .inf a, .inf b => if a = b then f.signBit a + f.infBits else f.qnan
  | .inf a, _ => f.signBit a + f.infBits
  | _, .inf b => f.signBit b + f.infBits
  | .fin n1 m1 e1, .fin n2 m2 e2 =>
    match finSum n1 m1 e1 n2 m2 e2 with
    | some (n, m, e) => f.round rm sat n m 1 e
    | none => f.signBit (if n1 = n2 then n1 else rm = 3)
  | _, _ => f.qnan

/-- A value with its sign inverted when `s`. -/
def FVal.flip (s : Bool) (x : FVal) : FVal :=
  match x with
  | .nan b => .nan b
  | .inf n => .inf (n != s)
  | .fin n m e => .fin (n != s) m e

/-- The first NaN of the operands, if one is (R54). -/
def firstNan (l : List FVal) : Option Nat :=
  match l with
  | [] => none
  | .nan b :: _ => some b
  | _ :: r => firstNan r

/-- a + b, or a - b when `s` (FADD). -/
def FFmt.add (f : FFmt) (rm : Nat) (sat s : Bool) (a b : Nat) : Nat :=
  let x := f.unpack a
  let y := f.unpack b
  match firstNan [x, y] with
  | some n => f.quiet n
  | none => f.addVals rm sat x (y.flip s)

/-- The exact product of two values that are not NaN; none when it is invalid (R54). -/
def mulVals (x y : FVal) : Option FVal :=
  match x, y with
  | .inf a, .inf b => some (.inf (a != b))
  | .inf a, .fin b m _ => if m = 0 then none else some (.inf (a != b))
  | .fin a m _, .inf b => if m = 0 then none else some (.inf (a != b))
  | .fin a m e, .fin b m' e' => some (.fin (a != b) (m * m') (e + e'))
  | _, _ => none

/-- a × b (FMUL). -/
def FFmt.mul (f : FFmt) (rm : Nat) (sat : Bool) (a b : Nat) : Nat :=
  let x := f.unpack a
  let y := f.unpack b
  match firstNan [x, y] with
  | some n => f.quiet n
  | none =>
    match mulVals x y with
    | none => f.qnan
    | some (.inf n) => f.signBit n + f.infBits
    | some (.fin n m e) => f.round rm sat n m 1 e
    | some (.nan _) => f.qnan

/-- (-1)^np × a × b + (-1)^nc × c with one rounding (FFMA). -/
def FFmt.fma (f : FFmt) (rm : Nat) (sat np nc : Bool) (a b c : Nat) : Nat :=
  let x := f.unpack a
  let y := f.unpack b
  let z := f.unpack c
  match firstNan [x, y, z] with
  | some n => f.quiet n
  | none =>
    match mulVals x y with
    | none => f.qnan
    | some p => f.addVals rm sat (p.flip np) (z.flip nc)

/-- a / b correctly rounded (FDIV, R54, R55). -/
def FFmt.div (f : FFmt) (rm : Nat) (sat : Bool) (a b : Nat) : Nat :=
  let x := f.unpack a
  let y := f.unpack b
  match firstNan [x, y] with
  | some n => f.quiet n
  | none =>
    match x, y with
    | .inf _, .inf _ => f.qnan
    | .inf n, .fin n' _ _ => f.signBit (n != n') + f.infBits
    | .fin n _ _, .inf n' => f.signBit (n != n')
    | .fin n m e, .fin n' m' e' =>
      if m' = 0 then (if m = 0 then f.qnan else f.infOf sat (n != n'))
      else f.round rm sat (n != n') m m' (e - e')
    | _, _ => f.qnan

/-- The square root correctly rounded (FSQRT, R54); the root of -0 is -0. -/
def FFmt.sqrt (f : FFmt) (rm : Nat) (sat : Bool) (a : Nat) : Nat :=
  match f.unpack a with
  | .nan n => f.quiet n
  | .inf neg => if neg then f.qnan else f.infBits
  | .fin neg m e =>
    if m = 0 then f.signBit neg
    else if neg then f.qnan
    else
      let odd := e % 2 = 1
      let m' := (if odd then 2 * m else m) * 2 ^ (2 * (f.fb + 4))
      let e' := (if odd then e - 1 else e) / 2 - (f.fb + 4)
      let r := isqrt m'
      f.round rm sat false (2 * r + (if r * r = m' then 0 else 1)) 1 (e' - 1)

/-- The order of two values that are not NaN: -1, 0 or 1. -/
def cmpVals (x y : FVal) : Int :=
  match x, y with
  | .inf a, .inf b => if a = b then 0 else if a then -1 else 1
  | .inf a, _ => if a then -1 else 1
  | _, .inf b => if b then 1 else -1
  | .fin n1 m1 e1, .fin n2 m2 e2 =>
    match finSum n1 m1 e1 (!n2) m2 e2 with
    | none => 0
    | some (neg, _, _) => if neg then -1 else 1
  | _, _ => 0

/-- The sign of a value. -/
def FVal.isNeg (x : FVal) : Bool :=
  match x with
  | .nan _ => false
  | .inf n => n
  | .fin n _ _ => n

/-- FMIN and FMAX: the other operand for one NaN, the first NaN for two, -0 below +0 (R54). -/
def FFmt.minmax (f : FFmt) (wantMax : Bool) (a b : Nat) : Nat :=
  let x := f.unpack a
  let y := f.unpack b
  match x, y with
  | .nan n, .nan _ => f.quiet n
  | .nan _, _ => b
  | _, .nan _ => a
  | _, _ =>
    let c := cmpVals x y
    let aLess := c < 0 || (c = 0 && x.isNeg && !y.isNeg)
    if aLess = wantMax then b else a

/-- FCMP: 0 EQ, 1 NE, 2 LT, 3 LE, 4 unordered (R57). R57 states no result of the first four for a NaN operand: NE then holds and the others
do not (DESIGN CHOICE, log entry 116). -/
def FFmt.cmp (f : FFmt) (sub : Nat) (a b : Nat) : Bool :=
  let x := f.unpack a
  let y := f.unpack b
  let un := (firstNan [x, y]).isSome
  let c := cmpVals x y
  if sub = 0 then !un && c = 0
  else if sub = 1 then un || c ≠ 0
  else if sub = 2 then !un && c < 0
  else if sub = 3 then !un && c ≤ 0
  else un

/-- FSGN: 0 abs, 1 negate, 2 magnitude of a with the sign of b. A NaN among the operands it reads is the result, its fraction MSB set (R54). -/
def FFmt.sgn (f : FFmt) (sub : Nat) (a b : Nat) : Nat :=
  let s := 2 ^ (f.fb + f.eb)
  let mag := a % s
  match firstNan (if sub = 2 then [f.unpack a, f.unpack b] else [f.unpack a]) with
  | some n => f.quiet n
  | none => if sub = 0 then mag else if sub = 1 then (if a / s % 2 = 1 then mag else mag + s) else mag + (if b / s % 2 = 1 then s else 0)

/-- A number of one format in another, rounded once; a NaN keeps the most significant fraction bits. -/
def FFmt.convert (src dst : FFmt) (rm : Nat) (a : Nat) : Nat :=
  match src.unpack a with
  | .nan n =>
    let frac := n % 2 ^ src.fb
    let moved := if src.fb ≤ dst.fb then frac * 2 ^ (dst.fb - src.fb) else frac / 2 ^ (src.fb - dst.fb)
    dst.quiet (dst.signBit (bitsN n (src.fb + src.eb) 1 = 1) + dst.infBits + moved)
  | .inf neg => dst.signBit neg + dst.infBits
  | .fin neg m e => dst.round rm false neg m 1 e

/-- An integer scaled by 2^-sh as a float. -/
def FFmt.ofInt (f : FFmt) (rm : Nat) (x : Int) (sh : Nat) : Nat := f.round rm false (x < 0) x.natAbs 1 (-(sh : Int))

/-- A float scaled by 2^sh as an integer in [lo, hi]: rounded, saturated, NaN giving 0. -/
def FFmt.toInt (f : FFmt) (rm : Nat) (a sh : Nat) (lo hi : Int) : Int :=
  match f.unpack a with
  | .nan _ => 0
  | .inf neg => if neg then lo else hi
  | .fin neg m e =>
    let s := e + sh
    let mag := if 0 ≤ s then m * 2 ^ s.toNat else roundDiv rm neg m (2 ^ (-s).toNat)
    clampI lo hi (if neg then -(mag : Int) else mag)

/-- The limits of S36 in units of 2^-31. -/
def s36Lo : Int := -(2 ^ 35)
def s36Hi : Int := 2 ^ 35 - 1

/-- An S36 pattern as an integer of 2^-31, and back with saturation (R56). -/
def s36Val (x : Nat) : Int := toSigned 36 x
def s36Sat (x : Int) : Nat := ofSigned 36 (clampI s36Lo s36Hi x)

/-- S36 product: exact Q8.62 rounded to Q4.31, saturated (R58). -/
def s36Mul (rm : Nat) (a b : Nat) : Nat := s36Sat (roundShift rm (s36Val a * s36Val b) 31)

/-- S36 a × b + c with one rounding (R58). -/
def s36Mad (rm : Nat) (a b c : Nat) : Nat := s36Sat (roundShift rm (s36Val a * s36Val b + s36Val c * 2 ^ 31) 31)

/-- A word lane by lane: n lanes of width w, each from the lanes of three source words. -/
def lanes (n w : Nat) (f : Nat → Nat → Nat → Nat) (a b c : W72) : W72 :=
  BitVec.ofNat 72 ((List.range n).foldl
    (fun acc i => acc + (f (fld a (w * i) w) (fld b (w * i) w) (fld c (w * i) w) % 2 ^ w) * 2 ^ (w * i)) 0)

/-- FCVT by sub-operation, from the conversion table. -/
def fcvtWord (sub rm : Nat) (a : W72) : W72 :=
  let h (i : Nat) := fld a (18 * i) 18
  let s (i : Nat) := fld a (36 * i) 36
  let two (x y : Nat) : W72 := BitVec.ofNat 72 (x + y * 2 ^ 36)
  match sub with
  | 0 => two (f18.convert f36 0 (h 0)) (f18.convert f36 0 (h 1))
  | 1 => BitVec.ofNat 72 (f36.convert f18 rm (s 0) + f36.convert f18 rm (s 1) * 2 ^ 18)
  | 2 => two (f36.ofInt rm (s36Val (s 0)) 31) (f36.ofInt rm (s36Val (s 1)) 31)
  | 3 => two (ofSigned 36 (f36.toInt rm (s 0) 31 s36Lo s36Hi)) (ofSigned 36 (f36.toInt rm (s 1) 31 s36Lo s36Hi))
  | 4 => two (f36.ofInt rm (toSigned 36 (s 0)) 0) (f36.ofInt rm (toSigned 36 (s 1)) 0)
  | 5 => two (ofSigned 36 (f36.toInt rm (s 0) 0 s36Lo s36Hi)) (ofSigned 36 (f36.toInt rm (s 1) 0 s36Lo s36Hi))
  | 6 => BitVec.ofNat 72 ((List.range 4).foldl
      (fun acc i => acc + f18.round 0 false false (fld a (8 * i) 8) 255 0 * 2 ^ (18 * i)) 0)
  | _ => BitVec.ofNat 72 ((List.range 4).foldl (fun acc i => acc + unormOf rm 255 (h i) * 2 ^ (8 * i)) 0)
where
  /-- An F18 value clamped to [0, 1], times the scale, rounded; NaN gives 0. -/
  unormOf (rm scale x : Nat) : Nat :=
    match f18.unpack x with
    | .nan _ => 0
    | .inf neg => if neg then 0 else scale
    | .fin neg m e =>
      if neg then 0
      else
        let v := if 0 ≤ e then m * 2 ^ e.toNat * scale else roundDiv rm false (m * scale) (2 ^ (-e).toNat)
        Nat.min v scale


end Sys2Proof.Machine
end

