-- ==== Sys2Proof/Machine/Real.lean ====
section
/-! DEFINITION. Exact values of the float formats as rationals, and the functions that R172, R177, R231, R232 and R240 take
from mathematics and from named standards: powers, logarithms, sines, computed to 160 fraction bits and then rounded once. -/

namespace Sys2Proof.Machine

/-! Rationals. -/

/-- 2 to an integer power. -/
def pow2 (e : Int) : Rat := if 0 ≤ e then ((2 ^ e.toNat : Nat) : Rat) else 1 / ((2 ^ (-e).toNat : Nat) : Rat)

/-- The exact value of a finite pattern. -/
def FFmt.exact (f : FFmt) (x : Nat) : Option Rat :=
  match f.unpack x with
  | .fin neg m e => some ((if neg then -1 else 1) * (m : Rat) * pow2 e)
  | _ => none

/-- The value of a pattern where the manual states none for infinities and NaN: a free one for those (tag 1). -/
def FFmt.value (f : FFmt) (x : Nat) : Rat :=
  match f.exact x with
  | some q => q
  | none => ((Config.unstated 1 [f.fb, x] : Nat) : Rat) - 2 ^ 64

/-- A rational rounded once to a format, to nearest even. -/
def FFmt.ofRat (f : FFmt) (q : Rat) : Nat := f.round 0 false (decide (q < 0)) q.num.natAbs q.den 0

/-- A rational rounded to the nearest integer, ties to even. -/
def ratRound (q : Rat) : Int :=
  let f := q.floor
  let r := q - (f : Rat)
  if r < 1 / 2 then f else if 1 / 2 < r then f + 1 else if f % 2 = 0 then f else f + 1

/-- A rational limited to lo and hi. -/
def clampQ (lo hi q : Rat) : Rat := if q < lo then lo else if hi < q then hi else q

/-- The greater and the lesser of two rationals. -/
def maxQ (a b : Rat) : Rat := if a ≤ b then b else a
def minQ (a b : Rat) : Rat := if a ≤ b then a else b

/-- The sum of a list of rationals, and the magnitude of one. -/
def sumQ (l : List Rat) : Rat := l.foldl (· + ·) 0
def absQ (q : Rat) : Rat := if q < 0 then -q else q

/-- floor(log2 |q|) of a nonzero rational. -/
def log2Floor (q : Rat) : Int :=
  let e : Int := (Nat.log2 q.num.natAbs : Int) - Nat.log2 q.den
  if absQ q < pow2 e then e - 1 else e

/-! Fixed point with 160 fraction bits. -/

/-- The fraction bits. -/
def fixBits : Nat := 160

/-- The sum of n terms pw × t2^j / (i + 2j). -/
def atanhSum (n i t2 pw acc : Nat) : Nat :=
  match n with
  | 0 => acc
  | k + 1 => atanhSum k (i + 2) t2 (pw * t2 / 2 ^ fixBits) (acc + pw / i)

/-- ln((1 + t) / (1 - t)) for t up to 1/3. -/
def lnRatio (t : Nat) : Nat := 2 * atanhSum 60 1 (t * t / 2 ^ fixBits) t 0

/-- ln 2. -/
def ln2Fix : Nat := lnRatio (2 ^ fixBits / 3)

/-- log2(n / d) for positive n and d. -/
def log2Fix (n d : Nat) : Int :=
  let e : Int := (Nat.log2 n : Int) - Nat.log2 d
  let n1 := if 0 ≤ e then n else n * 2 ^ (-e).toNat
  let d1 := if 0 ≤ e then d * 2 ^ e.toNat else d
  let n2 := if n1 < d1 then 2 * n1 else n1
  let e2 := if n1 < d1 then e - 1 else e
  e2 * (2 ^ fixBits : Nat) + (lnRatio ((n2 - d1) * 2 ^ fixBits / (n2 + d1)) * 2 ^ fixBits / ln2Fix : Nat)

/-- The sum of n terms pw × y^j / (k × (k + 1) × … × (k + j - 1)). -/
def expSum (n k y pw acc : Nat) : Nat :=
  match n with
  | 0 => acc
  | m + 1 => expSum m (k + 1) y (pw * y / 2 ^ fixBits / k) (acc + pw)

/-- 2 to the power x / 2^160. -/
def exp2Fix (x : Int) : Rat :=
  let one : Int := (2 ^ fixBits : Nat)
  ((expSum 45 1 ((x % one).toNat * ln2Fix / 2 ^ fixBits) (2 ^ fixBits) 0 : Nat) : Rat) * pow2 (x / one - fixBits)

/-- e to the power of a rational. -/
def expQ (q : Rat) : Rat := exp2Fix ((q * ((2 ^ (2 * fixBits) : Nat) : Rat)).floor / (ln2Fix : Int))

/-- ln of a positive rational. -/
def lnQ (q : Rat) : Rat := ((log2Fix q.num.natAbs q.den * (ln2Fix : Int) : Int) : Rat) / ((2 ^ (2 * fixBits) : Nat) : Rat)

/-- log2 of a positive rational. -/
def log2Q (q : Rat) : Rat := (log2Fix q.num.natAbs q.den : Rat) / ((2 ^ fixBits : Nat) : Rat)

/-- q to the power a / b, for q at least 0. -/
def powQ (q : Rat) (a b : Nat) : Rat := if q ≤ 0 then 0 else exp2Fix (log2Fix q.num.natAbs q.den * (a : Int) / (b : Int))

/-- The alternating sum of n terms pw, pw × y2 / (k (k + 1)), … -/
def trigSum (n k y2 : Nat) (pw : Nat) (minus : Bool) (acc : Int) : Int :=
  match n with
  | 0 => acc
  | m + 1 => trigSum m (k + 2) y2 (pw * y2 / 2 ^ fixBits / (k * (k + 1))) (!minus) (if minus then acc - (pw : Int) else acc + pw)

/-- Pi times 2^192. -/
def pi192 : Nat := 19720096697726538562396133364228268891463450865190089732560

/-- sin of 2 pi q. -/
def sinTurn (q : Rat) : Rat :=
  let quarter := ((q - (q.floor : Rat)) * 4)
  let k := quarter.floor
  let u := ((quarter - (k : Rat)) * ((2 ^ fixBits : Nat) : Rat)).floor.toNat
  -- the angle inside its quarter, and its square
  let y := u * pi192 / 2 ^ 193
  let y2 := y * y / 2 ^ fixBits
  let s := trigSum 30 2 y2 y false 0
  let c := trigSum 30 1 y2 (2 ^ fixBits) false 0
  let v : Int := if k = 0 then s else if k = 1 then c else if k = 2 then -s else -c
  (v : Rat) / ((2 ^ fixBits : Nat) : Rat)

/-- The square root of a rational at least 0. -/
def sqrtQ (q : Rat) : Rat :=
  if q ≤ 0 then 0 else (isqrt (q.num.natAbs * 2 ^ (4 * fixBits) / q.den) : Rat) / ((2 ^ (2 * fixBits) : Nat) : Rat)

/-! The curves of ST 2084 and BT.2100 that R231, R232 and R240 name (PRESUMED from those standards, log entry 14). -/

/-- The constants m1 = 1305/8192, m2 = 2523/32 and c1 = c3 - c2 + 1, c2, c3 of ST 2084. -/
def pqC1 : Rat := 107 / 128
def pqC2 : Rat := 2413 / 128
def pqC3 : Rat := 2392 / 128

/-- The ST 2084 EOTF in cd/m², none where its denominator is not positive. -/
def pqEotf (v : Rat) : Option Rat :=
  let p := powQ v 32 2523
  if pqC2 ≤ pqC3 * p then none else some (10000 * powQ (maxQ (p - pqC1) 0 / (pqC2 - pqC3 * p)) 8192 1305)

/-- The inverse of the ST 2084 EOTF, of a luminance clamped to [0, 10,000] cd/m². -/
def pqInverse (l : Rat) : Rat :=
  let p := powQ (clampQ 0 10000 l / 10000) 1305 8192
  powQ ((pqC1 + pqC2 * p) / (1 + pqC3 * p)) 2523 32

/-- The constants a, b and c of the HLG OETF. -/
def hlgA : Rat := 17883277 / 100000000
def hlgB : Rat := 28466892 / 100000000
def hlgC : Rat := 55991073 / 100000000

/-- The HLG inverse OETF of a signal at least 0, and the HLG OETF of scene light at least 0. -/
def hlgScene (v : Rat) : Rat := if v ≤ 1 / 2 then v * v / 3 else (expQ ((v - hlgC) / hlgA) + hlgB) / 12
def hlgSignal (e : Rat) : Rat := if e ≤ 1 / 12 then sqrtQ (3 * e) else hlgA * lnQ (12 * e - hlgB) + hlgC

/-- The luminance of BT.2100 primaries. -/
def lum2100 (r g b : Rat) : Rat := (2627 * r + 6780 * g + 593 * b) / 10000

/-- The HLG OOTF at nominal peak 1,000 cd/m² and gamma 1.2: the light of a scene component e where the scene's luminance is y. -/
def hlgDisplay (y e : Rat) : Rat := 1000 * powQ y 1 5 * e

/-- Its inverse: the scene component of display light f where the display's luminance is y. -/
def hlgInverse (y f : Rat) : Rat := if y ≤ 0 then 0 else f / 1000 / powQ (y / 1000) 1 6

end Sys2Proof.Machine
end

