-- ==== Sys2Proof/Machine/Surface.lean ====
section
/-! DEFINITION. Surfaces and pixels: formats, layouts and element addresses (R204 to R207), tile compression (R213,
R214), conversion to and from PX72 (R231 to R233), and the output encoding (R240). -/

namespace Sys2Proof.Machine

/-- A surface description: words 0 to 2 of a texture-table entry (R175, R222). -/
structure Surf where
  format : Nat
  layout : Nat
  base : Nat
  width : Nat
  height : Nat
  layers : Nat
  levels : Nat
  pitch : Nat
  aux : Nat
  deriving DecidableEq, Repr

/-- A surface from its three words. -/
def surfOf (w0 w1 w2 : W72) : Surf :=
  { format := fld w0 64 8, layout := fld w0 62 2, base := fld w0 0 48, width := fld w1 58 14 + 1, height := fld w1 44 14 + 1,
    layers := fld w1 33 11 + 1, levels := fld w1 29 4 + 1, pitch := fld w1 0 29, aux := fld w2 0 48 }

/-- A surface from a list of three words; missing words are zero. -/
def surfOfList (l : List W72) : Surf := surfOf (nth l 0 0) (nth l 1 0) (nth l 2 0)

/-- Whether the format is one of blocks: ASTC, ETC2, EAC. -/
def isBlockFormat (f : Nat) : Bool := (0x10 ≤ f && f ≤ 0x3D && f % 16 ≤ 13) || (0x40 ≤ f && f ≤ 0x49)

/-- Whether a code names a format (R204). -/
def isFormat (f : Nat) : Bool := (1 ≤ f && f ≤ 0x0B) || isBlockFormat f || f = 0x50

/-- Block width and height of a format: 1 × 1 unless compressed (R204). -/
def blockDims (f : Nat) : Nat × Nat :=
  if 0x10 ≤ f ∧ f ≤ 0x3D then
    nth [(4, 4), (5, 4), (5, 5), (6, 5), (6, 6), (8, 5), (8, 6), (8, 8), (10, 5), (10, 6), (10, 8), (10, 10), (12, 10), (12, 12)] (f % 16) (1, 1)
  else if 0x40 ≤ f ∧ f ≤ 0x49 then (4, 4)
  else (1, 1)

/-- Element size in bytes (R204); A4 is half a byte and answers 0, Y'CbCr answers its luma size. -/
def elemBytes (f : Nat) : Nat :=
  if f = 0x01 ∨ f = 0x50 then 9
  else if f = 0x02 ∨ f = 0x03 ∨ f = 0x04 ∨ f = 0x05 then 4
  else if f = 0x06 then 8
  else if f = 0x07 then 1
  else if f = 0x08 then 2
  else if f = 0x09 ∨ f = 0x0A then 1
  else if 0x10 ≤ f ∧ f ≤ 0x3D then 16
  else if f = 0x40 ∨ f = 0x41 ∨ f = 0x42 ∨ f = 0x43 ∨ f = 0x46 ∨ f = 0x47 then 8
  else if 0x40 ≤ f ∧ f ≤ 0x49 then 16
  else 0

/-- Whether a format may be rendered to as colour (R204). -/
def isTarget (f : Nat) : Bool := f = 0x01 || f = 0x02 || f = 0x03 || f = 0x04 || f = 0x05 || f = 0x06 || f = 0x0A

/-- The layouts that a format permits (R204). -/
def layoutOk (f l : Nat) : Bool :=
  if isTarget f || f = 0x50 then l ≤ 2 else if f = 0x0B then l = 0 else l ≤ 1

/-- Rounded up to 4 KiB. -/
def up4k (n : Nat) : Nat := (n + 4095) / 4096 * 4096

/-- Whether BASE and PITCH meet R205 in the linear layout, R206 in the tiled ones, and R207 for Y'CbCr tiled surfaces. -/
def pitchOk (s : Surf) : Bool :=
  let e := elemBytes s.format
  if s.layout = 0 then s.base % 64 = 0 && s.pitch % (if e = 9 then 576 else 64) = 0
  else
    let tb := 1024 * e
    let unit := if s.format = 0x07 ∨ s.format = 0x08 then 2 * tb else tb
    s.pitch % unit = 0 && decide (ceilDiv (ceilDiv s.width (blockDims s.format).1) 32 * tb ≤ s.pitch)

/-- The pitch of a level (R207): PITCH at level 0. -/
def levelPitch (s : Surf) (lv : Nat) : Nat :=
  if lv = 0 then s.pitch
  else
    let e := elemBytes s.format
    let w := ceilDiv (Nat.max 1 (s.width / 2 ^ lv)) (blockDims s.format).1
    if s.layout = 0 then
      let unit := if e = 9 then 576 else 64
      ceilDiv (if s.format = 0x0B then (w + 1) / 2 else w * e) unit * unit
    else ceilDiv w 32 * (1024 * e)

/-- The bytes of one level's plane (R205, R206), the chroma plane of Y'CbCr included (R207). -/
def levelBytes (s : Surf) (lv : Nat) : Nat :=
  let h := ceilDiv (Nat.max 1 (s.height / 2 ^ lv)) (blockDims s.format).2
  let rows := if s.layout = 0 then h else ceilDiv h 32
  let luma := rows * levelPitch s lv
  if s.format = 0x07 ∨ s.format = 0x08 then
    let ch := (h + 1) / 2
    up4k luma + (if s.layout = 0 then ch else ceilDiv ch 32) * levelPitch s lv
  else luma

/-- Where a level starts within a layer (R207). -/
def levelStart (s : Surf) (lv : Nat) : Nat := (List.range lv).foldl (fun acc k => acc + up4k (levelBytes s k)) 0

/-- The bytes from one layer to the next (R207). -/
def layerStride (s : Surf) : Nat := levelStart s s.levels

/-- All bytes of a surface from its base. -/
def surfBytes (s : Surf) : Nat := (s.layers - 1) * layerStride s + levelStart s (s.levels - 1) + levelBytes s (s.levels - 1)

/-- The bytes that AUX names: a palette, or the metadata of a single-sample surface in layout 2 (R175, R204, R213). -/
def auxBytes (s : Surf) : Nat :=
  if s.format = 0x09 then 2304 else if s.layout = 2 then 64 + s.pitch / (1024 * elemBytes s.format) * ceilDiv s.height 32 else 0

/-- The index of element (a, b) inside a 32 × 32 tile (R206). -/
def tileIndex (a b : Nat) : Nat :=
  (List.range 5).foldl (fun acc k => acc + bitsN a k 1 * 2 ^ (2 * k) + bitsN b k 1 * 2 ^ (2 * k + 1)) 0

/-- The offset of element (x, y) of size e in a plane (R205, R206). -/
def elemOffset (layout pitch e x y : Nat) : Nat :=
  if layout = 0 then y * pitch + x * e
  else y / 32 * pitch + x / 32 * (1024 * e) + e * tileIndex (x % 32) (y % 32)

/-- The device-virtual address of element (x, y) of a level and layer. -/
def elemAddr (s : Surf) (layer lv x y : Nat) : Nat :=
  s.base + layer * layerStride s + levelStart s lv + elemOffset s.layout (levelPitch s lv) (elemBytes s.format) x y

/-- The address of the metadata byte of a tile of sample plane smp (R213). -/
def metaAddr (s : Surf) (smp tx ty : Nat) : Nat :=
  let perRow := s.pitch / (1024 * elemBytes s.format)
  let tiles := ceilDiv s.width 32 * ceilDiv s.height 32
  s.aux + 64 + smp * 64 * ceilDiv tiles 64 + ty * perRow + tx

/-- The field widths of an element for tile compression, in ascending bit position (R214). -/
def compFields (f : Nat) : List Nat :=
  if f = 0x01 then [18, 18, 18, 18]
  else if f = 0x50 then [8, 28, 36]
  else if f = 0x02 ∨ f = 0x03 then [8, 8, 8, 8]
  else if f = 0x04 ∨ f = 0x05 then [10, 10, 10, 2]
  else if f = 0x06 then [16, 16, 16, 16]
  else [8]

/-- The fields of an element. -/
def splitFields (ws : List Nat) (x : Nat) : List Nat :=
  match ws with
  | [] => []
  | w :: r => x % 2 ^ w :: splitFields r (x / 2 ^ w)

/-- The smallest width whose signed range holds d. -/
def signedWidth (d : Int) : Nat := if d = 0 then 0 else if 0 < d then Nat.log2 d.toNat + 2 else (if d = -1 then 1 else Nat.log2 (-d - 1).toNat + 2)

/-- A bit string being written, least significant bit first: value and length. -/
structure Bits where
  value : Nat
  len : Nat
  deriving DecidableEq, Repr

/-- The string with n more bits. -/
def Bits.put (b : Bits) (n x : Nat) : Bits := { value := b.value + (x % 2 ^ n) * 2 ^ b.len, len := b.len + n }

/-- One compressed block of 64 elements (R214), starting at a byte boundary. -/
def compressBlock (ws : List Nat) (elemBits : Nat) (b : Bits) (els : List Nat) : Bits :=
  let base := splitFields ws (els.headD 0)
  let deltas := els.tail.map (fun x =>
    (List.range ws.length).map (fun c => toSigned (nth ws c 1) (nth (splitFields ws x) c 0 + 2 ^ nth ws c 1 - nth base c 0)))
  let widths := (List.range ws.length).map (fun c => deltas.foldl (fun m d => Nat.max m (signedWidth (nth d c 0))) 0)
  let b0 : Bits := { b with len := (b.len + 7) / 8 * 8 }
  let b1 := widths.foldl (fun acc w => acc.put 6 w) b0
  let b2 := b1.put elemBits (els.headD 0)
  deltas.foldl (fun acc d => (List.range ws.length).foldl (fun acc c => acc.put (nth widths c 0) (ofSigned (nth widths c 0) (nth d c 0))) acc) b2

/-- The compressed bytes of a tile of 1,024 elements, none when they need all its lines (R214). -/
def compressTile (f : Nat) (els : List Nat) : Option (List Byte) :=
  let e := elemBytes f
  let bits := (List.range 16).foldl (fun acc j => compressBlock (compFields f) (8 * e) acc ((els.drop (64 * j)).take 64)) { value := 0, len := 0 }
  let n := (bits.len + 7) / 8
  let m := ceilDiv n 64
  if 1024 * e / 64 ≤ m then none else some (toBytes (m * 64) bits.value)

/-- One block read back from bit position pos: its elements and the position after it (R214). -/
def expandBlock (ws : List Nat) (elemBits stream pos : Nat) : List Nat × Nat :=
  let p0 := (pos + 7) / 8 * 8
  let widths := (List.range ws.length).map (fun c => bitsN stream (p0 + 6 * c) 6)
  let p1 := p0 + 6 * ws.length
  let base := bitsN stream p1 elemBits
  let per := widths.foldl (· + ·) 0
  let at_ (k c : Nat) := p1 + elemBits + (k - 1) * per + (widths.take c).foldl (· + ·) 0
  let elem (k : Nat) : Nat :=
    (List.range ws.length).foldl (fun acc c =>
      let w := nth ws c 1
      let dw := nth widths c 0
      let d := if dw = 0 then 0 else toSigned dw (bitsN stream (at_ k c) dw)
      acc + ofSigned w ((nth (splitFields ws base) c 0 : Nat) + d) * 2 ^ ((ws.take c).foldl (· + ·) 0)) 0
  (base :: (List.range 63).map (fun k => elem (k + 1)), p1 + elemBits + 63 * per)

/-- The 1,024 elements of a compressed tile. -/
def expandTile (f : Nat) (bytes : List Byte) : List Nat :=
  let stream := ofBytes bytes
  ((List.range 16).foldl (fun (acc : List Nat × Nat) _ =>
    let r := expandBlock (compFields f) (8 * elemBytes f) stream acc.2
    (acc.1 ++ r.1, r.2)) ([], 0)).1

/-! Conversions. -/

/-- A PX72 word from its four F18 lanes R, G, B, A. -/
def px (r g b a : Nat) : W72 := BitVec.ofNat 72 (a % 2 ^ 18 + (b % 2 ^ 18) * 2 ^ 18 + (g % 2 ^ 18) * 2 ^ 36 + (r % 2 ^ 18) * 2 ^ 54)

/-- The F18 lane of a PX72 word: 3 R, 2 G, 1 B, 0 A. -/
def lane18 (p : W72) (i : Nat) : Nat := fld p (18 * i) 18

/-- 1.0 in F18 and in F36. -/
def one18 : Nat := 0x0F800
def one36 : Nat := 0x3F8000000

/-- An exact nonnegative fraction as F18, rounded once, RNE. -/
def f18OfFrac (n d : Nat) : Nat := f18.round 0 false false n d 0

/-- The value of a finite nonnegative F18 code as a fraction over 2^41. -/
def f18Units (c : Nat) : Nat :=
  match f18.unpack c with
  | .fin _ m e => m * 2 ^ (e + 41).toNat
  | _ => 2 ^ 80

/-- The largest code below hi at which p holds, found by halving; p is falling and holds at lo. -/
def searchCode (fuel lo : Nat) (p : Nat → Bool) : Nat :=
  match fuel with
  | 0 => lo
  | k + 1 => if p (lo + 2 ^ k) then searchCode k (lo + 2 ^ k) p else searchCode k lo p

/-- (n / d)^2.4 as F18, rounded to nearest, ties to even: compares fifth powers with twelfth powers. -/
def pow24 (n d : Nat) : Nat :=
  -- code c is at most the value when units(c)^5 / 2^205 ≤ n^12 / d^12
  let le (u : Nat) : Bool := decide (u ^ 5 * d ^ 12 ≤ n ^ 12 * 2 ^ 205)
  let c := searchCode 17 0 (fun c => decide (c < 0x1F800) && le (f18Units c))
  -- the midpoint of c and c + 1, in half units
  let m := f18Units c + f18Units (c + 1)
  let l := m ^ 5 * d ^ 12
  let r := n ^ 12 * 2 ^ 210
  if l < r then c + 1 else if l = r then c + c % 2 else c

/-- The sRGB EOTF of a fraction n / d in [0, ...) as F18 (R232). -/
def srgbEotf (n d : Nat) : Nat :=
  if n * 100000 ≤ 4045 * d then f18OfFrac (n * 100) (d * 1292)
  else pow24 (n * 1000 + 55 * d) (d * 1055)

/-- The HLG scene luminance of three signals (R232): none where one of them is no number of at least zero. -/
def hlgLum (r g b : Option Rat) : Option Rat :=
  match r, g, b with
  | some r, some g, some b => some (lum2100 (hlgScene r) (hlgScene g) (hlgScene b))
  | _, _, _ => none

/-- TRANSFER of an exact fraction with its sign, as F18 (R232): 0 and 5 linear, 1 sRGB, 2 BT.1886, 3 PQ, 4 HLG with the OOTF of the
scene luminance `lum`. Where the standard gives no value (below zero; PQ beyond its pole; HLG beside a channel that is no number of at
least zero) it is a free value of the curve. -/
def transferFrac (t : Nat) (lum : Option Rat) (neg : Bool) (n d : Nat) : Nat :=
  let q : Rat := (n : Rat) / (d : Rat)
  let open_ (k : Nat) : Nat := Config.curve k n d % 2 ^ 18
  if t = 0 ∨ t = 5 then f18.round 0 false neg n d 0
  else if t = 1 then (if neg then f18.round 0 false true (n * 100) (d * 1292) 0 else srgbEotf n d)
  else if neg && n ≠ 0 then open_ t
  else if t = 2 then pow24 n d
  else if t = 3 then (match pqEotf q with | some l => f18.ofRat (l / 203) | none => open_ 0)
  else match lum with | some y => f18.ofRat (hlgDisplay y (hlgScene q) / 203) | none => open_ 1

/-- A float value as a signal of at least zero. -/
def FFmt.signal (f : FFmt) (x : Nat) : Option Rat := match f.exact x with | some q => if q < 0 then none else some q | none => none

/-- TRANSFER of a float value of a format; NaN and infinities pass as R54 has them. -/
def transferVal (f : FFmt) (t : Nat) (lum : Option Rat) (x : Nat) : Nat :=
  match f.unpack x with
  | .nan n => FFmt.convert f f18 0 n
  | .inf neg => f18.signBit neg + f18.infBits
  | .fin neg m e => if 0 ≤ e then transferFrac t lum neg (m * 2 ^ e.toNat) 1 else transferFrac t lum neg m (2 ^ (-e).toNat)

/-- TRANSFER of three codes over d, and of three float values, with an F18 alpha. -/
def transferCodes (t : Nat) (r g b d a : Nat) : W72 :=
  let q (v : Nat) : Option Rat := some ((v : Rat) / (d : Rat))
  let y := if t = 4 then hlgLum (q r) (q g) (q b) else none
  px (transferFrac t y false r d) (transferFrac t y false g d) (transferFrac t y false b d) a
def transferVals (f : FFmt) (t : Nat) (r g b a : Nat) : W72 :=
  let y := if t = 4 then hlgLum (f.signal r) (f.signal g) (f.signal b) else none
  px (transferVal f t y r) (transferVal f t y g) (transferVal f t y b) a

/-- binary16. -/
def f16 : FFmt := { eb := 5, fb := 10, bias := 15 }

/-- What a conversion needs beside the element (R231 to R233). -/
structure ConvCtx where
  transfer : Nat
  fill : W72
  palette : Nat → W72

/-- A one-word element as PX72 (R231). -/
def toPx (f : Nat) (c : ConvCtx) (x : Nat) : W72 :=
  let u8 (i : Nat) := bitsN x (8 * i) 8
  let u10 (i : Nat) := bitsN x (10 * i) 10
  if f = 0x01 ∨ f = 0x50 then BitVec.ofNat 72 x
  else if f = 0x02 then
    transferCodes c.transfer (u8 0) (u8 1) (u8 2) 255 (f18OfFrac (u8 3) 255)
  else if f = 0x03 then px (srgbEotf (u8 0) 255) (srgbEotf (u8 1) 255) (srgbEotf (u8 2) 255) (f18OfFrac (u8 3) 255)
  else if f = 0x04 then px (srgbEotf (u10 0) 1023) (srgbEotf (u10 1) 1023) (srgbEotf (u10 2) 1023) (f18OfFrac (bitsN x 30 2) 3)
  else if f = 0x05 then transferCodes 3 (u10 0) (u10 1) (u10 2) 1023 (f18OfFrac (bitsN x 30 2) 3)
  else if f = 0x06 then
    let h (i : Nat) := bitsN x (16 * i) 16
    transferVals f16 c.transfer (h 0) (h 1) (h 2) (f16.convert f18 0 (h 3))
  else if f = 0x09 then c.palette (x % 256)
  else if f = 0x0A ∨ f = 0x0B then
    let d := if f = 0x0A then 255 else 15
    let mulFrac (v : Nat) : Nat :=
      match f18.unpack v with
      | .nan n => f18.quiet n
      | .inf neg => if x = 0 then f18.qnan else f18.signBit neg + f18.infBits
      | .fin neg m e => f18.round 0 false neg (m * x) d e
    px (mulFrac (lane18 c.fill 3)) (mulFrac (lane18 c.fill 2)) (mulFrac (lane18 c.fill 1)) (mulFrac (lane18 c.fill 0))
  else 0

/-- F36 arithmetic with RNE. -/
def add36 (a b : Nat) : Nat := f36.add 0 false false a b
def sub36 (a b : Nat) : Nat := f36.add 0 false true a b
def mul36 (a b : Nat) : Nat := f36.mul 0 false a b
def div36 (a b : Nat) : Nat := f36.div 0 false a b
def max36 (a b : Nat) : Nat := f36.minmax true a b
def min36 (a b : Nat) : Nat := f36.minmax false a b
def lt36 (a b : Nat) : Bool := f36.cmp 2 a b
def le36 (a b : Nat) : Bool := f36.cmp 3 a b
def frac36 (n d : Nat) : Nat := f36.round 0 false false n d 0
def intTo36 (x : Int) : Nat := f36.ofInt 0 x 0
def wide (h : Nat) : Nat := f18.convert f36 0 h
def narrow (s : Nat) : Nat := f36.convert f18 0 s

/-- Kr and Kb of a MATRIX code, as F36 (R233). -/
def matrixK (m : Nat) : Nat × Nat :=
  if m = 0 then (frac36 299 1000, frac36 114 1000)
  else if m = 1 then (frac36 2126 10000, frac36 722 10000) else (frac36 2627 10000, frac36 593 10000)

/-- A Y'CbCr triple as PX72 (R233): codes of n bits, the chroma codes as F36 after interpolation. -/
def yccToPx (n : Nat) (matrix : Nat) (full : Bool) (transfer : Nat) (y : Nat) (cb cr : Nat) : W72 :=
  let s := 2 ^ (n - 8)
  let y' := if full then div36 (intTo36 y) (intTo36 (2 ^ n - 1 : Nat)) else div36 (sub36 (intTo36 y) (intTo36 (16 * s : Nat))) (intTo36 (219 * s : Nat))
  let c (v : Nat) := if full then div36 (sub36 v (intTo36 (2 ^ (n - 1) : Nat))) (intTo36 (2 ^ n - 1 : Nat))
    else div36 (sub36 v (intTo36 (128 * s : Nat))) (intTo36 (224 * s : Nat))
  let (kr, kb) := matrixK matrix
  let two := intTo36 2
  let r := add36 y' (mul36 (mul36 two (sub36 one36 kr)) (c cr))
  let b := add36 y' (mul36 (mul36 two (sub36 one36 kb)) (c cb))
  let g := div36 (sub36 (sub36 y' (mul36 kr r)) (mul36 kb b)) (sub36 (sub36 one36 kr) kb)
  let cl (v : Nat) := min36 (max36 v 0) one36
  let t := if transfer = 0 then 2 else transfer
  transferVals f36 t (cl r) (cl g) (cl b) one18

/-- A channel value clamped to [0, 1] as a fraction (R240); NaN counts as 0. -/
def unitFrac (v : Nat) : Nat × Nat :=
  match f18.unpack v with
  | .nan _ => (0, 1)
  | .inf neg => if neg then (0, 1) else (1, 1)
  | .fin neg m e =>
    if neg then (0, 1) else if 0 ≤ e then (if m = 0 then (0, 1) else (1, 1)) else (Nat.min m (2 ^ (-e).toNat), 2 ^ (-e).toNat)

/-- Whether e is at least (or above, when `strict`) the threshold tn / td, for the inverse sRGB EOTF e of x: its linear
part below 0.04045 / 12.92, else by x^5 against ((t + 0.055) / 1.055)^12. -/
def srgbAtLeast (strict : Bool) (x : Nat × Nat) (tn td : Nat) : Bool :=
  if x.1 * 1292000 ≤ 4045 * x.2 then
    (if strict then decide (tn * x.2 * 100 < x.1 * 1292 * td) else decide (tn * x.2 * 100 ≤ x.1 * 1292 * td))
  else
    let yn := tn * 1000 + 55 * td
    let yd := td * 1055
    if strict then decide (yn ^ 12 * x.2 ^ 5 < x.1 ^ 5 * yd ^ 12) else decide (yn ^ 12 * x.2 ^ 5 ≤ x.1 ^ 5 * yd ^ 12)

/-- round(off + e × scale + d / dd) for the inverse sRGB EOTF e of a channel clamped to [0, 1], ties to even, limited
to [0, hi]. -/
def encodeSrgb (scale : Nat) (d : Int) (dd off hi v : Nat) : Nat :=
  let x := unitFrac v
  let thr (k : Nat) : Int := (2 * (k : Int) - 1 - 2 * (off : Int)) * (dd : Int) - 2 * d
  let ge (strict : Bool) (k : Nat) : Bool :=
    if thr k < 0 then true else srgbAtLeast strict x (thr k).toNat (2 * dd * scale)
  let k := searchCode 12 0 (fun k => k = 0 || (decide (k ≤ hi) && ge false k))
  if k % 2 = 1 && !(ge true k) then k - 1 else k

/-- The PQ signal of a channel (R240): the light 203 c cd/m² clamped to [0, 10,000]; NaN counts as 0. -/
def pqSignal (v : Nat) : Rat :=
  match f18.unpack v with
  | .nan _ => pqInverse 0
  | .inf neg => if neg then pqInverse 0 else 1
  | .fin _ _ _ => pqInverse (203 * (f18.exact v).getD 0)

/-- The PQ code of a channel on 10 bits (R204, 0x05). -/
def pqCode (v : Nat) : Nat := (ratRound (pqSignal v * 1023)).toNat

/-- A channel in cd/m² (R240): NaN counts as 0; none where it is infinite. -/
def channelLight (v : Nat) : Option Rat :=
  match f18.unpack v with
  | .nan _ => some 0
  | .inf _ => none
  | .fin _ _ _ => (f18.exact v).map (fun q => 203 * q)

/-- The HLG signal of a channel of a pixel (R240): BT.2100's inverse OOTF, of the pixel's luminance, and OETF. Where a channel is infinite
or negative the standard gives no value: a free value of the curve. -/
def hlgSignalOf (p : W72) (i : Nat) : Rat :=
  let open_ : Rat := (Config.curve 10 p.toNat i : Rat) / ((2 ^ 32 : Nat) : Rat)
  match channelLight (lane18 p 3), channelLight (lane18 p 2), channelLight (lane18 p 1), channelLight (lane18 p i) with
  | some r, some g, some b, some f =>
    if r < 0 ∨ g < 0 ∨ b < 0 then open_ else hlgSignal (hlgInverse (lum2100 r g b) f)
  | _, _, _, _ => open_

/-- Four fields packed from the least significant: widths a, a, a and b. -/
def pack4 (a x0 x1 x2 x3 : Nat) : Nat := x0 + x1 * 2 ^ a + x2 * 2 ^ (2 * a) + x3 * 2 ^ (3 * a)

/-- A PX72 value as an element of a render-target format (R204): the inverse of R231, rounded RNE. -/
def fromPx (f : Nat) (p : W72) : Nat :=
  let r := lane18 p 3
  let g := lane18 p 2
  let b := lane18 p 1
  let a := lane18 p 0
  let code (scale v : Nat) := encodeSrgb scale 0 1 0 scale v
  match f with
  | 1 | 80 => p.toNat
  | 2 => pack4 8 (fcvtWord.unormOf 0 255 r) (fcvtWord.unormOf 0 255 g) (fcvtWord.unormOf 0 255 b) (fcvtWord.unormOf 0 255 a)
  | 3 => pack4 8 (code 255 r) (code 255 g) (code 255 b) (fcvtWord.unormOf 0 255 a)
  | 4 => pack4 10 (code 1023 r) (code 1023 g) (code 1023 b) (fcvtWord.unormOf 0 3 a)
  | 5 => pack4 10 (pqCode r) (pqCode g) (pqCode b) (fcvtWord.unormOf 0 3 a)
  | 6 => pack4 16 (f18.convert f16 0 r) (f18.convert f16 0 g) (f18.convert f16 0 b) (f18.convert f16 0 a)
  | 10 => fcvtWord.unormOf 0 255 a
  | _ => 0

/-- The dither matrix of R240. -/
def ditherB (x y : Nat) : Nat := nth [0, 8, 2, 10, 12, 4, 14, 6, 3, 11, 1, 9, 15, 7, 13, 5] (4 * (y % 4) + x % 4) 0

/-- The output code of channel i of a pixel (R240): encoding 0 sRGB, 1 PQ, 2 HLG; depth 8, 10, 12. -/
def encodeChannel (enc depth : Nat) (limited dither : Bool) (x y : Nat) (p : W72) (i : Nat) : Nat :=
  let n := 2 ^ depth - 1
  let sc := 2 ^ (depth - 8)
  let scale := if limited then 219 * sc else n
  let off := if limited then 16 * sc else 0
  let hi := if limited then 235 * sc else n
  let b2 : Int := if dither then 2 * (ditherB x y : Int) - 15 else 0
  let c :=
    if enc = 0 then encodeSrgb scale b2 32 off hi (lane18 p i)
    else
      let e := if enc = 1 then pqSignal (lane18 p i) else hlgSignalOf p i
      (ratRound (e * (scale : Rat) + (off : Rat) + (b2 : Rat) / 32)).toNat
  if c < off then off else if hi < c then hi else c

/-- The bytes that a pixel presents to a check-value unit (R372): R, G, B, one byte each at depth 8, else two. -/
def pixelBytes (enc depth : Nat) (limited dither : Bool) (x y : Nat) (p : W72) : List Byte :=
  [3, 2, 1].flatMap (fun i => toBytes (if depth = 8 then 1 else 2) (encodeChannel enc depth limited dither x y p i))

end Sys2Proof.Machine
end

