-- ==== Sys2Proof/Machine/Ops.lean ====
section
/-! DEFINITION. The shared operations: stores through the IOMMU with dirty logging and the scan watch (R147, R148, R261,
R262), the ledger's entries and records (R91 to R104), operations in engines, and how a program ends (R61, R70, R76, R77). -/

namespace Sys2Proof.Machine

/-! Stores. -/

/-- Logging of a write to one page (R147, R148): the bit of the active bitmap, DIRTY_COUNT, or OUT_OF_RANGE. R150 requires the bitmaps to lie
in the function's permitted range and does not say what happens elsewhere; the bit is set at the device-physical address that the
registers give, unchecked (DESIGN CHOICE, log entry 118). -/
def Dev.dirtyLog (d : Dev) (f va : Nat) : Dev :=
  let x := d.fn f
  if !x.dirtyEnable then d
  else
    let page := va / 4096
    let base := x.dirtyVaBase.toNat / 4096
    if page < base ∨ base + x.dirtyPages.toNat ≤ page then d.setFn f { x with dirtyOut := true }
    else
      let n := page - base
      let a := (if x.dirtyActive then x.dirtyBaseB else x.dirtyBaseA).toNat + n / 8
      let old := d.peekByte a
      if bit old (n % 8) then d
      else (d.poke a [setBit old (n % 8) true]).setFn f { x with dirtyCount := satInc x.dirtyCount }

/-- A status word as the device keeps it between publications (R263), and with it replaced. -/
def Dev.live (d : Dev) (cls inst word : Nat) : W72 := tget d.comp.live (objKey cls inst word) (d.obj cls inst word)
def Dev.setLive (d : Dev) (cls inst word : Nat) (v : W72) : Dev :=
  { d with comp := { d.comp with live := tset d.comp.live (objKey cls inst word) v } }

/-- The composition state and the timing state of a pipe, and each replaced. -/
def Dev.pc (d : Dev) (p : Nat) : PipeComp := tget d.comp.pipes p .atReset
def Dev.setPc (d : Dev) (p : Nat) (x : PipeComp) : Dev := { d with comp := { d.comp with pipes := tset d.comp.pipes p x } }
def Dev.pt (d : Dev) (p : Nat) : PipeTime := tget d.disp.pipes p .atReset
def Dev.setPt (d : Dev) (p : Nat) (x : PipeTime) : Dev := { d with disp := { d.disp with pipes := tset d.disp.pipes p x } }

/-- The handle-table entry numbered 256 × function + handle, and it replaced. -/
def Dev.handle (d : Dev) (k : Nat) : Handle := tget d.comp.handles k .atReset
def Dev.setHandle (d : Dev) (k : Nat) (h : Handle) : Dev := { d with comp := { d.comp with handles := tset d.comp.handles k h } }

/-- Whether a page lies in the buffer of a handle (R261): its surface, or the palette or tile metadata that AUX names. -/
def Dev.pageInHandle (d : Dev) (k page : Nat) : Bool :=
  let s := surfOfList (d.handle k).words
  let within (a n : Nat) : Bool := n ≠ 0 && decide (a / 4096 ≤ page) && decide (page ≤ (a + n - 1) / 4096)
  within s.base (surfBytes s) || within s.aux (auxBytes s)

/-- The overwrite words: the page, the count and the frame of the most recent one (R262). -/
def Dev.countOverwrite (d : Dev) (cls inst word page frame : Nat) : Dev :=
  let n := satAdd 16 (fld (d.live cls inst (word + 1)) 48 16) 1
  (d.setLive cls inst word (BitVec.ofNat 72 (page * 4096))).setLive cls inst (word + 1) (BitVec.ofNat 72 (n * 2 ^ 48 + frame))

/-- The scan sets of a pipe (R261): the handles that frames not yet retired and the composition under way read, with the slots
that show them. -/
def Dev.scanSets (d : Dev) (p : Nat) : List (List Nat × Tab W72) :=
  ((d.pc p).frames.filter (fun fr => !fr.retired)).map (fun fr => (fr.handles, fr.shown)) ++
    (match (d.pc p).current with | some c => [(c.handles.map (fun x => x.1), c.shown)] | none => [])

/-- The scan watch on a write of function f to a page (R261, R262). -/
def Dev.scanWatch (d : Dev) (f va : Nat) : Dev :=
  let page := va / 4096
  (List.range 12).foldl (fun d p =>
    let sets := d.scanSets p
    let hit (k : Nat) : Bool := k / 256 = f && d.pageInHandle k page
    let hits := dedup ((sets.flatMap (fun x => x.1)).filter hit)
    if hits = [] then d
    else
      let slots := dedup (sets.flatMap (fun x => (x.2.filter (fun y => hit (fld y.2 48 14))).map (fun y => y.1)))
      let inSlot (k : Nat) : Bool := sets.any (fun x => x.2.any (fun y => fld y.2 48 14 = k))
      let frame := (d.pt p).frame.toNat
      let d1 := slots.foldl (fun d s => d.countOverwrite 0x03 s 21 page frame) d
      let d2 := if hits.any (fun k => !inSlot k) then d1.countOverwrite 0x02 p 28 page frame else d1
      d2.pipeEvent p 6) d

/-- The translated pieces of a write, stored: bytes, dirty bits, and the scan watch unless the compositor writes. -/
def Dev.storePieces (d : Dev) (f : Nat) (watch : Bool) (l : List (Nat × Nat × Nat)) (bytes : List Byte) : Dev :=
  match l with
  | [] => d
  | (va, pa, n) :: r =>
    let d1 := (d.poke pa (bytes.take n)).dirtyLog f va
    let d2 := if watch then d1.scanWatch f va else d1
    d2.storePieces f watch r (bytes.drop n)

/-- Bytes stored in a function's device-virtual space, or the cause and its address with nothing stored. -/
def Dev.writeVia (d : Dev) (f va : Nat) (bytes : List Byte) (watch : Bool) : Dev × Except (Nat × Nat) Unit :=
  match d.translateAll f .write (pieces va bytes.length) with
  | (d1, .error e) => (d1, .error e)
  | (d1, .ok t) =>
    match t.find? (fun x => d1.dataCause x.2.1 x.2.2 = 0xE) with
    | some x => (d1, .error (0xE, x.1))
    | none => (d1.storePieces f watch t bytes, .ok ())

/-- Bytes stored for a program, an engine, a host or the ledger. -/
def Dev.writeV (d : Dev) (f va : Nat) (bytes : List Byte) : Dev × Except (Nat × Nat) Unit := d.writeVia f va bytes true

/-- Packed 72-bit words as bytes (R6, R7). -/
def bytesOfWords (l : List W72) : List Byte := l.flatMap (fun w => toBytes 9 w.toNat)

/-- Packed 72-bit words stored. -/
def Dev.writeWords (d : Dev) (f va : Nat) (l : List W72) : Dev × Except (Nat × Nat) Unit := d.writeV f va (bytesOfWords l)

/-! Rings and ledger entries. -/

/-- A ring's function and kind (R20). -/
def ringFn (g : Nat) : Nat := g / 4
def ringKind (g : Nat) : Nat := g % 4

/-- The depth of a ring (R86). -/
def Ring.depth (r : Ring) : Nat := 2 ^ r.depthLog2.toNat

/-- INFLIGHT: accepted items neither completed nor covered (R86). -/
def Ring.inflight (r : Ring) : Nat := (r.entries.filter (fun e => !e.covered)).length

/-- Shared ledger entries that a ring holds (R86, R91, R94). -/
def Ring.sharedHeld (r : Ring) : Nat := r.shared

/-- Whether the ring's reservation has an entry free (R91): 16 of its own, and the shared ones that it holds. -/
def Ring.reserved (r : Ring) : Bool := decide (r.entries.length < 16 + r.shared)

/-- Shared entries held by a port's rings, and by all rings. -/
def Dev.portShared (d : Dev) (p : Nat) : Nat := ((List.range 64).map (fun i => (d.ring (64 * p + i)).sharedHeld)).foldl (· + ·) 0
def Dev.allShared (d : Dev) : Nat := ((List.range 4).map d.portShared).foldl (· + ·) 0

/-- The entry of an item. -/
def Ring.entry (r : Ring) (acc : Nat) : Option Entry := r.entries.find? (fun e => e.acc = acc)
def Dev.entry (d : Dev) (g acc : Nat) : Option Entry := (d.ring g).entry acc

/-- A change of an item's entry. -/
def Ring.updEntry (r : Ring) (acc : Nat) (h : Entry → Entry) : Ring :=
  { r with entries := r.entries.map (fun e => if e.acc = acc then h e else e) }
def Dev.updEntry (d : Dev) (g acc : Nat) (h : Entry → Entry) : Dev := d.setRing g ((d.ring g).updEntry acc h)

/-- A change of a ring's thread. -/
def Dev.updThread (d : Dev) (g : Nat) (h : Thread → Thread) : Dev :=
  d.setRing g { d.ring g with thread := h (d.ring g).thread }

/-- An operation index not yet complete. -/
def OpRep.waiting : OpRep :=
  { done := false, status := 0, result := none, late := false, deferred := false, superseded := false, replayed := false, cancelled := false }

/-- Whether every operation that an item released has completed (R29, R70). -/
def Entry.opsDone (e : Entry) : Bool := e.ops.all (fun x => x.2.done)

/-- The functions of a port's reset state: whether a reset of the function is in progress. -/
def Dev.resetting (d : Dev) (f : Nat) : Bool := (d.fn f).rst.isSome

/-! Operations in engines. -/

/-- The operation that an engine holds under an op-id. -/
def Dev.op (d : Dev) (id : OpId) : Option Op := d.ops.find? (fun o => o.id = id)

/-- A change of an operation. -/
def Dev.updOp (d : Dev) (id : OpId) (h : Op → Op) : Dev := { d with ops := d.ops.map (fun o => if o.id = id then h o else o) }

/-- An operation ends with a status and what it supplies (R101, R103). -/
def Dev.finish (d : Dev) (id : OpId) (status : Nat) (result : Option Nat) : Dev :=
  d.updOp id (fun o => { o with phase := .finished, status := BitVec.ofNat 8 status, result := result.map (BitVec.ofNat 64) })

/-- An operation ends on a fault of memory: the status of R144, EV_FAULT with source 2 (R66). -/
def Dev.opFault (d : Dev) (id : OpId) (f cause va : Nat) : Dev :=
  (d.accessFault f cause srcEngine (ringKind id.ring.val) va).finish id (causeStatus cause).toNat none

/-- An operation ends on a fault of its descriptor's read (R66): FAULT_INFO records a failed translation, and failed data raises
EV_FAULT alone. -/
def Dev.descFault (d : Dev) (id : OpId) (f cause va : Nat) : Dev :=
  if cause = 0xD ∨ cause = 0xE then (d.setEv f 5).finish id (causeStatus cause).toNat none else d.opFault id f cause va

/-- Whether an operation is started: its descriptor has been read, it is not finished, and its function's generation is
the one it carries or it was started before (R104). -/
def Op.active (o : Op) : Bool := o.phase = .started

/-- The operation to act on: of the given target and type, started and not finished. -/
def Dev.activeOp (d : Dev) (id : OpId) (target kind : Nat) : Option Op :=
  match d.op id with
  | some o => if o.active && o.target.toNat = target && o.kind.toNat = kind then some o else none
  | none => none

/-- Whether an operation released before o is still to end, of those that p names: operations are kept in release order. -/
def Dev.earlier (d : Dev) (o : Op) (p : Op → Bool) : Bool :=
  (d.ops.takeWhile (fun x => x.id ≠ o.id)).any (fun x => (x.phase = .released || x.phase = .started) && !x.cancel && p x)

/-- A descriptor word; absent words are zero. -/
def Op.word (o : Op) (i : Nat) : W72 := nth o.desc i 0

/-- The memory port and the hint of an operation's accesses (R384, R389): the host port's for DMA by its HINT field, the shader cores' for
passes, that of streams, checks and the supervisor for theirs. R384 names no port for VITRINE_WRITE and FLIP: the host port's (DESIGN CHOICE,
log entry 121). -/
def Dev.opPort (d : Dev) (id : OpId) : Nat × Nat :=
  match d.op id with
  | none => (mpSeq, 0)
  | some o =>
    let t := o.target.toNat
    let p :=
      if t ≤ 1 then mpCore 0 else if t ≤ 4 then mpHost o.fn else if t ≤ 7 then mpStream else if t = 8 || t = 10 then mpCheck else mpSuper
    (p, if t = 2 then fld (o.word 3) 0 2 else mpHint p)

/-- What a function may use of the haptic engine (R332), which the release of an operation for it checks and keeps. -/
def Dev.rights (d : Dev) (f : Nat) (target : BitVec 8) : Option Rights :=
  if target = 6 then
    some
      { owned := indices 16 (fun c => d.owner 0x07 c = f), held := indices 64 (fun n => (d.effSlot n).holder = some f)
        empty := indices 64 (fun n => (d.effSlot n).holder.isNone), manager := f = d.manager }
  else none

/-- An enqueued operation released to its engine (R66, R70, R97, R103): a held op-id discards the new copy. -/
def Dev.release (d : Dev) (g acc : Nat) (e : Enq) : Dev :=
  if h : g < 256 then
    let id : OpId := { ring := ⟨g, h⟩, acc := acc, idx := e.idx }
    match d.op id with
    | some _ => d
    | none =>
      let o : Op :=
        { id := id, fn := ringFn g, gen := (d.fn (ringFn g)).gen, target := e.target, kind := e.kind, addr := e.addr, len := e.len,
          desc := [], phase := .released, stage := 0, due := d.now, status := 0, result := none, late := false, deferred := false,
          superseded := false, replayed := false, cancel := false, rights := d.rights (ringFn g) e.target }
      ({ d with ops := d.ops ++ [o] } : Dev).updEntry g acc (fun en =>
        { en with ops := match tfind en.ops e.idx with | some _ => en.ops | none => tset en.ops e.idx OpRep.waiting })
  else d

/-- Every buffered operation of a guest thread released, in index order (R70). -/
def Dev.kick (d : Dev) (g : Nat) : Dev :=
  match (d.ring g).thread.acc with
  | none => d
  | some acc => ((d.ring g).thread.buf.foldl (fun d e => d.release g acc e) d).updThread g (fun t => { t with buf := [] })

/-! How a program on a guest thread ends. -/

/-- The thread is free for its ring's next item; buffered operations and the shadow are gone (R70, R76). -/
def Thread.freed (_ : Thread) : Thread := .idle

/-- The program of a guest thread ends with a status and, if it sets one, a result (R61, R70, R76, R77). -/
def Dev.endProgram (d : Dev) (g : Nat) (status : BitVec 8) (result : Option (BitVec 64)) : Dev :=
  match (d.ring g).thread.acc with
  | none => d
  | some acc =>
    (d.updEntry g acc (fun e => { e with phase := .ended, progStatus := status, result := result })).updThread g Thread.freed

/-- The item status of an exception code (R77). -/
def excStatus (code : BitVec 8) : BitVec 8 :=
  if code = 0x06 then 0x20 else if code = 0x07 then 0x22 else if code = 0x08 then 0x21 else if code = 0x09 then 0x12 else 0x10

/-- The byte address of instruction i of a program (R59, R79). -/
def Seq.byteAddr (q : Seq) (i : Nat) : Nat := (q.base.toNat + 9 * i) % 2 ^ 48

/-- The result field of an exception: code, and the byte address of the instruction (R77). -/
def excResult (code : BitVec 8) (addr : Nat) : BitVec 64 := BitVec.ofNat 64 (code.toNat * 2 ^ 56 + addr % 2 ^ 48)

/-! Firmware threads. -/

/-- The number of instructions that the header of the firmware program at an address declares (R79): the manual does not give the
firmware, so within R79's range it is a free value of the address. -/
def firmwareLength (base : BitVec 48) : Nat := 1 + Config.firmwareLength base.toNat % 16777213

/-- A firmware thread, by core and thread number; before anything starts it, its CSRs hold their reset values (R78). -/
def FwThread.atReset (core thread : Nat) : FwThread :=
  let base := Config.firmwareBase core thread
  { started := false, halted := false, wait := .none, seq := { Seq.idle with base := base, pc := 2, length := firmwareLength base }
    epc := 0, ecode := 0, eaddr := 0, evec := Config.firmwareEntry core thread, lastWdog := 0 }
def Dev.fwt (d : Dev) (core thread : Nat) : FwThread := tget d.fw (4 * core + thread) (.atReset core thread)
def Dev.setFwt (d : Dev) (core thread : Nat) (x : FwThread) : Dev := { d with fw := tset d.fw (4 * core + thread) x }

/-- The locus of a sequencer or annex core (R18): engine 0x00 to 0x09 of the sequencer cluster. -/
def coreLocus (core : Nat) : W72 := locusEngine 0x02 core

/-- Whether the device executes programs: booted, not frozen, not asleep (R425, R494, R516). -/
def Dev.awake (d : Dev) : Bool :=
  d.boot.stage = .ready && d.freeze.at_.isNone && !d.board.sysRstLow && (d.power.state = .active || d.power.state = .entering)

/-- Whether a block of R432, by its order number, runs: the device is awake and no entry to a sleep state has stopped it. -/
def Dev.runs (d : Dev) (block : Nat) : Bool := d.awake && match d.power.entry with | some e => !e.stopped.contains block | none => true

/-- The ledger entries, ops and shadow of items are released when their record is written or they are covered and every
released operation of them has ended (R94, R103). -/
def Dev.releaseEntries (d : Dev) (g : Nat) : Dev :=
  let r := d.ring g
  let gone := r.entries.filter (fun e => e.covered && !(d.ops.any (fun o => o.id.ring.val = g && o.id.acc = e.acc && o.phase ≠ .reported)))
  let goneAcc := gone.map (fun e => e.acc)
  if gone = [] then d
  else
    let left := r.entries.filter (fun e => !goneAcc.contains e.acc)
    { (d.setRing g { r with entries := left, shared := Nat.min r.shared left.length }) with
      ops := d.ops.filter (fun o => !(o.id.ring.val = g && goneAcc.contains o.id.acc)) }

/-! Records. -/

/-- The operation of an item that decides its status: the lowest-indexed one that is not ST_OK (R102). -/
def Entry.opStatus (e : Entry) : BitVec 8 :=
  match e.ops.find? (fun x => x.2.status ≠ 0) with
  | some x => x.2.status
  | none => 0

/-- The status of an item (R102). -/
def Entry.status (e : Entry) : BitVec 8 :=
  if e.squashed || e.ops.any (fun x => x.2.cancelled) then 0x02
  else if e.progStatus ≠ 0 then e.progStatus
  else e.opStatus

/-- The value that the last result-supplying operation supplied, or zero (R61). -/
def Entry.opResult (e : Entry) : BitVec 64 := e.ops.foldl (fun acc x => x.2.result.getD acc) 0

/-- The result field of an item's record (R61, R99): what a superseded operation supplied, else what a deferred one did, else the ordinary
result. Of two such operations the later stands, and SUPERSEDED_BY goes before DEFERRED (DESIGN CHOICE, log entry 117). -/
def Entry.resultField (e : Entry) : BitVec 64 :=
  match (e.ops.filter (fun x => x.2.superseded)).getLast?, (e.ops.filter (fun x => x.2.deferred && x.2.result.isSome)).getLast? with
  | some x, _ => x.2.result.getD 0
  | none, some x => x.2.result.getD 0
  | none, none => e.result.getD e.opResult

/-- The completion record of an item (R99). -/
def Entry.record (e : Entry) : W144 :=
  let flag (p : OpRep → Bool) : Nat := (e.ops.any (fun x => p x.2)).toNat
  BitVec.ofNat 144 (e.acc % 2 ^ 64 * 2 ^ 80 + e.status.toNat * 2 ^ 72 + flag (fun o => o.superseded) * 2 ^ 67 + flag (fun o => o.deferred) * 2 ^ 66 +
    flag (fun o => o.late) * 2 ^ 65 + (decide (1 < e.runs) || e.ops.any (fun x => x.2.replayed)).toNat * 2 ^ 64 + e.resultField.toNat)

/-- A reset record (R100). -/
def resetRecord (first gen mode last : Nat) : W144 :=
  BitVec.ofNat 144 (first % 2 ^ 64 * 2 ^ 80 + gen % 256 * 2 ^ 72 + 2 ^ 71 + mode % 4 * 2 ^ 65 + last % 2 ^ 64)

/-- The address of a ring's next record slot (R82). -/
def Ring.recordAddr (r : Ring) : Nat := (r.cmplBase.toNat + 18 * (r.cmplTail.toNat % r.depth)) % 2 ^ 48

/-- A record counted as written (R86, R94, R160): CMPL_TAIL, DONE_ACCESSION, and the items up to `last` are covered. -/
def Dev.recordDone (d : Dev) (g last : Nat) : Dev :=
  let r := d.ring g
  let d1 := d.setRing g
    { r with cmplTail := r.cmplTail + 1, doneAcc := last, kept := none, lost := false
             entries := r.entries.map (fun e => if e.acc ≤ last then { e with covered := true } else e) }
  d1.releaseEntries g

/-- EV_COMPLETION after a record, or its wait begun (R90). -/
def Dev.recordEvent (d : Dev) (g : Nat) (notify : Bool) : Dev :=
  let r := d.ring g
  let n := r.sinceEv + 1
  if notify || r.every.toNat + 1 ≤ n then
    (d.setRing g { r with sinceEv := 0, oldestRec := none }).setEv (ringFn g) (ringKind g)
  else d.setRing g { r with sinceEv := n, oldestRec := some (r.oldestRec.getD d.now) }

/-- A record write (R82, R95, R160): on a fault the ledger keeps the record, sets CMPL_FAULT and raises EV_FAULT; the end of a reset
of the ring's function gives up one that faults in it. `last` is the last item it completes or covers. -/
def Dev.writeRecord (d : Dev) (g : Nat) (rec : W144) (last : Nat) (notify : Bool) : Dev :=
  let f := ringFn g
  match d.writeV f (d.ring g).recordAddr (toBytes 18 rec.toNat) with
  | (d1, .ok _) => (d1.recordDone g last).recordEvent g notify
  | (d1, .error (c, va)) =>
    let d2 := d1.accessFault f c srcRecord (ringKind g) va
    d2.setRing g { d2.ring g with kept := some rec, lost := d2.resetting f, err := setBit (d2.ring g).err 1 true }

end Sys2Proof.Machine
end

