-- ==== Sys2Proof/Machine/Clocks.lean ====
section
/-! DEFINITION. The mode table and pixel clocks (R269 to R271, R276), operating points (R417 to R423), DRAM speed
points (R404, R407), step-down and fencing (R408, R409), and the start of a display port (R462). -/

namespace Sys2Proof.Machine

/-! Modes. -/

/-- A standard entry (R269, R270): the timing is its standard's; a present one has a pixel clock of at most 1.5 GHz, its standard as SOURCE
and every port class. DMT defines no ID above 0x58. -/
def standardEntry (n : Nat) : List W72 :=
  let l := Config.standardMode n
  let w (i : Nat) : W72 := nth l i 0
  if (0x58 < n ∧ n ≤ 0x100) ∨ !bit (w 0) 71 ∨ 1500000000 < fld (w 0) 32 32 then [0, 0, 0, 0]
  else
    [setFld (setFld (setFld (w 0) 68 3 (if n < 0x100 then 0 else 1)) 64 4 7) 0 2 0, setFld (setFld (w 1) 56 16 0) 0 14 0, setFld (setFld (w 2) 56 16 0) 0 14 0, 0]

/-- A mode-table entry (R269): fixed, panel or defined; four words, word 0 zero when absent. -/
def Dev.modeEntry (d : Dev) (n : Nat) : List W72 :=
  if n = 0 ∨ 0x280 ≤ n then [0, 0, 0, 0]
  else if 0x200 ≤ n then tget d.disp.modes n [0, 0, 0, 0]
  else standardEntry n

/-- The timing that an entry states (R271). -/
structure Timing where
  valid : Bool
  source : Nat
  ports : Nat
  pclk : Nat
  hact : Nat
  vact : Nat
  hfront : Nat
  hsync : Nat
  hback : Nat
  vfront : Nat
  vsync : Nat
  vback : Nat
  panelBpp : Nat
  panelSlices : Nat
  panelSliceH : Nat
  cmdOnly : Bool
  videoOnly : Bool
  deriving DecidableEq, Repr

/-- The fields of an entry (R271). -/
def timingOf (e : List W72) : Timing :=
  let w (i : Nat) := nth e i 0
  { valid := bit (w 0) 71, source := fld (w 0) 68 3, ports := fld (w 0) 64 4, pclk := fld (w 0) 32 32, hact := fld (w 0) 18 14 + 1,
    vact := fld (w 0) 4 14 + 1, hfront := fld (w 1) 42 14, hsync := fld (w 1) 28 14, hback := fld (w 1) 14 14,
    vfront := fld (w 2) 42 14, vsync := fld (w 2) 28 14, vback := fld (w 2) 14 14, panelBpp := fld (w 3) 46 10,
    panelSlices := fld (w 3) 44 2, panelSliceH := fld (w 3) 34 10, cmdOnly := bit (w 3) 33, videoOnly := bit (w 3) 32 }

def Timing.htotal (t : Timing) : Nat := t.hact + t.hfront + t.hsync + t.hback
def Timing.vblank (t : Timing) : Nat := t.vfront + t.vsync + t.vback
def Timing.vtotal (t : Timing) : Nat := t.vact + t.vblank

/-- The rules of a panel or defined entry (R272). -/
def Timing.ok (t : Timing) : Bool :=
  (64 ≤ t.hact && t.hact ≤ 8192 && 64 ≤ t.vact && t.vact ≤ 8192) && (8 ≤ t.hfront && 8 ≤ t.hsync && 8 ≤ t.hback) &&
  (1 ≤ t.vfront && 1 ≤ t.vsync && 1 ≤ t.vback && 8 ≤ t.vblank) && t.pclk ≤ 1500000000 &&
  (23 * (t.htotal * t.vtotal) ≤ t.pclk && t.pclk ≤ 240 * (t.htotal * t.vtotal)) && !(t.cmdOnly && t.videoOnly)

/-- Whether the words of an explicit entry hold no reserved bit (R271). -/
def entryBitsOk (l : List W72) : Bool :=
  let w (i : Nat) : W72 := nth l i 0
  !bit (w 0) 67 && fld (w 0) 0 2 = 0 && fld (w 1) 56 16 = 0 && fld (w 1) 0 14 = 0 && fld (w 2) 56 16 = 0 && fld (w 2) 0 14 = 0 && fld (w 3) 56 16 = 0 &&
    fld (w 3) 0 32 = 0 && (fld (w 3) 46 10 ≠ 0 || fld (w 3) 34 10 = 0)

/-- The applied timing of a pipe, and FRAC1001. -/
def Dev.timing (d : Dev) (p : Nat) : Timing := timingOf (d.modeEntry (fld (d.obj 0x01 p 1) 20 10))
def Dev.frac1001 (d : Dev) (p : Nat) : Bool := bit (d.obj 0x01 p 1) 30

/-- The nominal accumulator increment N (R276). -/
def incOf (pclk : Nat) (frac : Bool) : Nat :=
  if frac then roundDiv 0 false (pclk * 1000 * 2 ^ 40) (1001 * 6400000000) else roundDiv 0 false (pclk * 2 ^ 40) 6400000000
def Dev.nominalInc (d : Dev) (p : Nat) : Nat := incOf (d.timing p).pclk (d.frac1001 p)

/-- The stamp of an exact instant (R40): the nearest whole nanosecond, halves up. -/
def stampOf (t : Rat) : Nat := (t + 1 / 2).floor.toNat

/-- Whether a command's instant is a stamp of an instant whose ideal stamp is y: a real copy of DEVTIME differs by at most 2 ns (R40). -/
def near (x y : Nat) : Bool := decide (x ≤ y + 2) && decide (y ≤ x + 2)

/-- The exact time of x pixels at an increment, in ns (R276): x × 2^40 / (6.4 × inc). -/
def pixelsNs (x : Rat) (inc : Nat) : Rat := x * (2 ^ 40 * 10 : Nat) / (64 * inc : Nat)

/-- The nominal frame period and line time of a pipe, exactly (R276, R290), and the frame period to the nearest ns. -/
def Dev.frameNs (d : Dev) (p : Nat) : Rat := pixelsNs ((d.timing p).htotal * (d.timing p).vtotal : Nat) (d.nominalInc p)
def Dev.lineNs (d : Dev) (p : Nat) : Rat := pixelsNs ((d.timing p).htotal : Nat) (d.nominalInc p)
def Dev.framePeriod (d : Dev) (p : Nat) : Nat := stampOf (d.frameNs p)

/-- The exact instant at which a pipe has scanned so many pixels since its VBLANK, and how many it has scanned at an instant. -/
def PipeTime.instant (x : PipeTime) (pos : Rat) : Rat := x.mark + pixelsNs (pos - x.markPos) x.inc.toNat
def PipeTime.posAt (x : PipeTime) (t : Rat) : Rat := x.markPos + (t - x.mark) * (64 * x.inc.toNat : Nat) / (2 ^ 40 * 10 : Nat)

/-- A VBLANK at an exact instant, and a change of the increment at one. -/
def PipeTime.anchor (x : PipeTime) (t : Rat) : PipeTime := { x with mark := t, markPos := 0, vbAt := t }
def PipeTime.retune (x : PipeTime) (t : Rat) (n : Nat) : PipeTime := { x with mark := t, markPos := x.posAt t, inc := BitVec.ofNat 40 n }

/-- RANGE in ppm (R273), and an increment brought within RANGE of the nominal one (R291). -/
def rangePpm (w3 : W72) : Nat := nth [100, 500, 1000, 5000] (fld w3 41 2) 100
def Dev.clampInc (d : Dev) (p : Nat) (n : Rat) : Rat :=
  let nom : Rat := (d.nominalInc p : Nat)
  let step : Rat := (d.nominalInc p * rangePpm (d.obj 0x01 p 3) / 1000000 : Nat)
  max (nom - step) (min (nom + step) n)

/-- The pixels from VBLANK to the start of active line y of the frame that a pipe scans. -/
def Dev.linePos (d : Dev) (p y : Nat) : Rat := (((d.timing p).vblank + (d.pt p).slipLines + y) * (d.timing p).htotal : Nat)

/-- The exact instant at which active line y of that frame begins; that of line VACTIVE ends the active area. -/
def Dev.lineInstant (d : Dev) (p y : Nat) : Rat := (d.pt p).instant (d.linePos p y)

/-- When a pipe starts to scan its frame and line y of it; the latter once the first line has begun (R277, R278). -/
def Dev.lineStart (d : Dev) (p y : Nat) : Option Nat := (d.pt p).lastVb.map (fun _ => stampOf (d.lineInstant p y))
def Dev.scanStart (d : Dev) (p : Nat) : Option Nat := d.lineStart p 0
def Dev.lineAt (d : Dev) (p y : Nat) : Option Nat := (d.pt p).firstLine.map (fun _ => stampOf (d.lineInstant p y))

/-- The end of the last active line of the frame that a pipe scans: its next VBLANK, holds and TE edges apart (R277). -/
def Dev.nextVblank (d : Dev) (p : Nat) : Nat := (d.lineStart p (d.timing p).vact).getD d.now

/-- TIMING, ADAPTIVE and DSI_CMD as applied. -/
def Dev.locked (d : Dev) (p : Nat) : Bool := bit (d.obj 0x01 p 1) 15
def Dev.adaptive (d : Dev) (p : Nat) : Bool := bit (d.obj 0x01 p 1) 14
def Dev.dsiCmd (d : Dev) (p : Nat) : Bool := bit (d.obj 0x01 p 1) 12

/-! Operating points. -/

def opDiv (op : Nat) : Nat := nth [4, 5, 5, 8, 8, 16, 16, 16] op 8
def opShdMv (op : Nat) : Nat := nth [900, 800, 800, 680, 680, 580, 580, 580] op 680
def opCoreMv (op : Nat) : Nat := if op ≤ 1 then 800 else 750
def opSpeed (op : Nat) : Nat := nth [0, 0, 1, 1, 2, 2, 3, 3] op 1

/-- The minimum VDD_SHD of a CLK_SHD divider, in mV (R419). -/
def divMinMv (n : Nat) : Nat := if n ≤ 4 then 860 else if n ≤ 5 then 760 else if n ≤ 8 then 640 else 550

/-- The operating point in force (R418); without a RAIL record it is held at OP3 (R456). -/
def Power.inForce (p : Power) : Nat := if p.rail then Nat.max p.opTarget.toNat p.limit.toNat else 3

/-- The operating point whose settings are applied: the target once the raised rails have settled (R420). -/
def Power.applied (p : Power) : Nat :=
  match p.change with
  | some c => if 1 ≤ c.stage then c.target else p.current.toNat
  | none => p.current.toNat

/-- The code of a voltage in mV on a rail's map (R441). Where no code gives just that voltage, the code written is a free value (tag 41). -/
def RailMap.code (m : RailMap) (mv : Nat) : Nat :=
  let uv := 1000 * (mv - m.v0)
  if m.v0 ≤ mv ∧ m.step ≠ 0 ∧ uv % m.step = 0 ∧ uv / m.step ≤ m.top then uv / m.step else Config.unstated 41 [m.v0, m.step, m.top, mv] % (m.top + 1)

/-- The regulator of a rail receives the code of a voltage (R441), where the rail has its record. -/
def Power.codeSent (p : Power) (rail mv : Nat) : Power :=
  match tfind p.railMaps rail with
  | some m => { p with regulators := tset p.regulators rail (m.addr, m.reg, m.code mv) }
  | none => p

/-- A rail is set to a voltage (R420, R421, R438, R441): rail 0 is VDD_SHD, rail 1 VDD_CORE. -/
def Power.railSet (p : Power) (rail mv : Nat) : Power :=
  { p.codeSent rail mv with shdMv := if rail = 0 then mv else p.shdMv, coreMv := if rail = 0 then p.coreMv else mv }

/-- The voltage of a rail at an operating point. -/
def opRailMv (op rail : Nat) : Nat := if rail = 0 then opShdMv op else opCoreMv op

/-- Whether a shader core is in service (R196, R215, R417, R508): gated cores stay in service (R426). -/
def Dev.coreOf (d : Dev) (n : Nat) : Core := tget d.raster.cores n .atReset
def Dev.setCore (d : Dev) (n : Nat) (x : Core) : Dev := { d with raster := { d.raster with cores := tset d.raster.cores n x } }
/-- A core given work of an operation, or of the compositor (R426): its texture cache is invalidated when it starts work for it (R208). -/
def Dev.wakeCore (d : Dev) (core : Nat) (work : Option OpId) : Dev :=
  let x := d.coreOf core
  d.setCore core { x with gated := false, idleFrom := d.now, work := work, tex := if x.work = work then x.tex else [] }

def Dev.inService (d : Dev) (n : Nat) : Bool :=
  let c := d.coreOf n
  n < 16 && !(8 ≤ n && d.power.applied = 7) && c.resetAt.isNone && !c.inTest && !c.failed

/-! DRAM speed points. -/

def Dev.setChan (d : Dev) (n : Nat) (x : Chan) : Dev := { d with dram := { d.dram with chans := tset d.dram.chans n x } }
def Dev.setGroup (d : Dev) (g : Nat) (x : Group) : Dev := { d with dram := { d.dram with groups := tset d.dram.groups g x } }

/-- The speed point a channel is to run at (R404). -/
def Dev.speedFor (d : Dev) (n : Nat) : Nat :=
  Nat.max (Nat.max (opSpeed d.power.applied) d.dram.cap.toNat) (Nat.max (d.chan n).ceiling.toNat d.dram.maxSpeed.toNat)

/-- Whether a group's channels are to change speed point. -/
def Dev.groupWants (d : Dev) (g : Nat) : Bool :=
  (d.group g).state ≠ 2 && (List.range 4).any (fun i => (d.chan (4 * g + i)).speed.toNat ≠ d.speedFor (4 * g + i))

/-- Speed-point changes requested for the groups that need one (R407, step 1). -/
def Dev.requestSpeeds (d : Dev) : Dev :=
  (List.range 4).foldl (fun d g =>
    if d.groupWants g then (if (d.group g).change.isSome then d else d.setGroup g { d.group g with change := some d.now })
    else d.setGroup g { d.group g with change := none }) d

/-- The end of an operating-point change: CURRENT and BUSY (R420, step 6). -/
def Dev.opFinish (d : Dev) : Dev :=
  match d.power.change with
  | none => d
  | some c => { d with power := { d.power with current := BitVec.ofNat 3 c.target, change := none } }

/-- Steps 4 and 5 of R420: the divider of CLK_SHD, then the falling rails' codes. -/
def Dev.opLower (d : Dev) : Dev :=
  match d.power.change with
  | none => d
  | some c =>
    let low := (if opShdMv c.target < d.power.shdMv then [0] else []) ++ (if opCoreMv c.target < d.power.coreMv then [1] else [])
    let d1 : Dev :=
      { d with power := { low.foldl (fun p r => p.railSet r (opRailMv c.target r)) d.power with
          shdDiv := opDiv c.target
          shdMv := opShdMv c.target
          coreMv := opCoreMv c.target
          change := some { c with stage := 2, lowering := low, writtenAt := d.now } } }
    if low = [] then d1.opFinish else d1

/-- The change goes on when no group waits for its speed point (R420, step 3). -/
def Dev.opContinue (d : Dev) : Dev :=
  match d.power.change with
  | none => d
  | some c => if c.stage = 1 && (List.range 4).all (fun g => (d.group g).change.isNone) then d.opLower else d

/-- Step 3 of R420: the raised rails have settled. -/
def Dev.opRaised (d : Dev) : Dev :=
  match d.power.change with
  | none => d
  | some c => (({ d with power := { d.power with change := some { c with stage := 1, raising := [] }, opAt := d.now } } : Dev).requestSpeeds).opContinue

/-- An operating-point change taken up when one is due (R420, R421, R423). -/
def Dev.opCheck (d : Dev) : Dev :=
  let p := d.power
  let t := p.inForce
  if p.change.isSome || p.current.toNat = t || p.failedFor = some t || p.state ≠ .active then d
  else
    let up := (if p.shdMv < opShdMv t then [0] else []) ++ (if p.coreMv < opCoreMv t then [1] else [])
    let c : OpChange := { target := t, stage := 0, raising := up, lowering := [], writtenAt := d.now, oldShdMv := p.shdMv, oldCoreMv := p.coreMv }
    let d1 : Dev :=
      { d with power := { up.foldl (fun p r => p.railSet r (opRailMv t r)) p with change := some c } }
    if up = [] then d1.opRaised else d1

/-! Step-down and fencing. -/

/-- The locus of a DRAM channel (R18). -/
def chanLocus (n : Nat) : W72 := locusEngine 0x0A (0x10 + n)

/-- A group is fenced because of a channel (R409): its channels, EV_FAULT to the manager, DRAM_FENCED. -/
def Dev.fence (d : Dev) (n : Nat) : Dev :=
  let g := n / 4
  let d1 := (d.setGroup g { d.group g with state := 2, change := none }).dropGroup g
  let d2 := (List.range 4).foldl (fun d i => d.setChan (4 * g + i) { d.chan (4 * g + i) with state := 5, retraining := false }) d1
  (d2.setEv d.manager 5).smRecord 0x05 (chanLocus n) none g 0

/-- The first speed point at or below `p` (slower) that works, coded as bits of `working`. -/
def firstPoint (working : BitVec 4) (p : Nat) : Option Nat := (List.range 4).find? (fun q => decide (p ≤ q) && bit working q)

/-- A channel steps down to a slower point (R408). -/
def Dev.stepDown (d : Dev) (n q : Nat) : Dev :=
  let d1 := d.setChan n { d.chan n with state := 0, speed := BitVec.ofNat 2 q, ceiling := BitVec.ofNat 2 q, retraining := false }
  let d2 := d1.setGroup (n / 4) { d1.group (n / 4) with state := 1 }
  (d2.setEv d.manager 5).smRecord 0x04 (chanLocus n) none q 0

/-! Ports of the display. -/

def Dev.dport (d : Dev) (q : Nat) : DispPort := tget d.disp.ports q .atReset
def Dev.setDport (d : Dev) (q : Nat) (x : DispPort) : Dev := { d with disp := { d.disp with ports := tset d.disp.ports q x } }

/-- A port starts its link (R462): TRAINING until the training or PANEL_INIT has passed. -/
def Dev.portStart (d : Dev) (q : Nat) : Dev :=
  d.setDport q { d.dport q with link := 1, tries := 0, trainFrom := d.now, initStep := 0, initFails := 0, initDue := d.now }

/-- A port goes OFF. -/
def Dev.portOff (d : Dev) (q : Nat) : Dev := d.setDport q { d.dport q with link := 0 }

/-- A pipe starts to scan (R461): VBLANK now, the counter one higher, genlock in ACQUIRE when LOCKED (R292). -/
def Dev.pipeStart (d : Dev) (p : Nat) : Dev :=
  let x := d.pt p
  ((((d.setPt p
    { x.anchor (d.now : Nat) with
      active := true, frame := x.frame + 1, inc := BitVec.ofNat 40 (d.nominalInc p), held := (d.nominalInc p : Nat), lastVb := some d.now
      firstLine := none, glk := if bit (d.obj 0x01 p 1) 15 then 1 else 0, good := 0, bad := 0, slipLines := 0, slipNext := 0
      offsetUntil := none, offsetWant := none, quiet := 0, selfRefresh := false, hold := none, relinkUp := none, teLast := none
      tePrev := none, teMissing := false, lastEdge := none, ltNow := 16777215, late := false }).portStart (d.pipePort p)).pipeEvent p 0).occur 1 p)

end Sys2Proof.Machine
end

