-- ==== Sys2Proof/Machine/Handover.lean ====
section
/-! DEFINITION. What the update engine does at frame boundaries (R479 to R485, R493): the handover to a new Curator with its
migration, the return to the old one, and the move that ends a confirmation. -/

namespace Sys2Proof.Machine

/-- EV_UPDATE in every existing function (R493). -/
def Dev.updateEvent (d : Dev) : Dev := (List.range 64).foldl (fun d f => if d.exists_ f then d.setEv f 7 else d) d

/-- UPD_STAT.STATE replaced; a change raises EV_UPDATE. -/
def Dev.setUpdState (d : Dev) (s : BitVec 3) : Dev :=
  if d.update.state = s then d else ({ d with update := { d.update with state := s } } : Dev).updateEvent

/-- An image slot, and it replaced: B is true. -/
def Flash.slot (x : Flash) (b : Bool) : Slot := if b then x.slotB else x.slotA
def Flash.setSlot (x : Flash) (b : Bool) (s : Slot) : Flash := if b then { x with slotB := s } else { x with slotA := s }

/-- The fields of a directory record (R486). -/
def Flash.directory (x : Flash) : List Nat :=
  let trial (b : Option Bool) : Nat := match b with | some c => c.toNat | none => 0xFF
  let format (b : Bool) : Nat := if b then x.area1.format else x.area0.format
  [x.confirmedSlot.toNat, trial x.trialSlot, x.activeArea.toNat, trial x.trialArea, format x.activeArea,
   match x.trialArea with | some b => format b | none => 0, x.slotA.state, x.slotB.state]

/-- The flash with new content: a directory whose fields change goes into the other copy under the next SEQ (R486). -/
def Dev.setFlash (d : Dev) (x : Flash) : Dev :=
  let y := d.flash
  let same := y.dirValid && y.directory = x.directory
  { d with flash := { x with
      dirValid := true, dirSeq := if same then y.dirSeq else y.dirSeq + 1, dirCopy := if same then y.dirCopy else y.dirValid && !y.dirCopy } }

/-- The bytes that a record of so many data bytes takes, and those of a settings half (R487, R488). -/
def recordSize (n : Nat) : Nat := 16 + (n + 15) / 16 * 16
def halfSize : Nat := 0x80000

/-- A half that holds the latest record of each item and nothing else, under a header with the next HALF_SEQ (R487). -/
def Area.compact (a : Area) (half : Bool) (halfSeq : Nat) : Area :=
  { a with half := half, halfSeq := halfSeq, used := 16 + (a.items.map (fun i => recordSize i.data.length)).foldl (· + ·) 0 }

/-- The handover pipe (R479). -/
def Dev.handoverPipe (d : Dev) : Option Nat := (List.range 12).find? (fun p => d.pipeOn p)

/-- Whether a frame boundary has come since an instant (R479): a VBLANK of the handover pipe, or an epoch boundary. -/
def Dev.boundarySince (d : Dev) (t : Nat) : Bool :=
  match d.handoverPipe with
  | some p => (match (d.pt p).lastVb with | some v => decide (t < v) | none => false)
  | none => decide (t < d.epochAt)

/-- An UPDATE operation that is still held ends. -/
def Dev.endUpdateOp (d : Dev) (id : Option OpId) (status : Nat) : Dev :=
  match id with
  | some i => (match d.op i with | some o => if o.active then d.finish i status none else d | none => d)
  | none => d

/-- Whether the active settings area can be migrated (R482). -/
def Dev.migrates (d : Dev) : Bool :=
  let a := if d.flash.activeArea then d.flash.area1 else d.flash.area0
  a.valid && decide (d.update.imageMinFormat ≤ a.format) && decide (a.format ≤ d.update.imageFormat)

/-- The converted set in the other area (R482). -/
def Dev.migrate (d : Dev) : Dev :=
  let x := d.flash
  let a := if x.activeArea then x.area1 else x.area0
  let b := ({ a with format := d.update.imageFormat } : Area).compact false 1
  d.setFlash (if x.activeArea then { x with area0 := b, trialArea := some false } else { x with area1 := b, trialArea := some true })

/-- Whether the write of the converted set fails (R482): a free value (tag 42). The other area, erased first, then holds no valid set. -/
def Dev.migrationFails (d : Dev) : Bool := Config.unstated 42 [d.now] % 2 = 1
def Dev.otherAreaLost (d : Dev) : Dev :=
  let x := d.flash
  d.setFlash (if x.activeArea then { x with area0 := { x.area0 with valid := false } } else { x with area1 := { x.area1 with valid := false } })

/-- A return is under way (R484): the old Curator resumes at the next frame boundary. -/
def Dev.beginReturn (d : Dev) (outcome : BitVec 4) : Dev :=
  ({ d with update := { d.update with step := 2, stepAt := d.now, returnOutcome := outcome } } : Dev).setUpdState 5

/-- Steps 4 to 7 of R479: the new Curator serves on AX0, TRIAL begins, and the settings are migrated or a return begins. -/
def Dev.handover (d : Dev) : Dev :=
  let u := d.update
  let parked := (d.fw.filter (fun x => decide (x.1 < 32) && x.2.started)).map (fun x => x.1)
  let b := match u.session with | some s => s.slotB | none => !d.flash.confirmedSlot
  let fw := (d.fw.map (fun x => if x.1 < 32 then (x.1, { x.2 with started := false }) else x))
  let d1 : Dev :=
    { d with
      fw := tset fw 32 { FwThread.atReset 8 0 with started := true, lastWdog := d.now }
      update := { u with trialAt := BitVec.ofNat 64 d.now, parked := parked, step := 0, confirmAt := d.now + u.confirmAt } }
  let x := d1.flash
  let d2 := (d1.setFlash { x.setSlot b { x.slot b with state := 4 } with trialSlot := some b }).setUpdState 4
  if d2.migrates && d2.migrationFails then d2.otherAreaLost.beginReturn 3
  else if d2.migrates then
    let d3 := d2.migrate.endUpdateOp u.activateOp 0
    ({ d3 with update := { d3.update with activateOp := none } } : Dev).updateEvent
  else d2.beginReturn 3

/-- The old Curator's threads run again, and AX0 returns to self-test. -/
def Dev.unpark (d : Dev) : Dev :=
  let on := d.update.parked
  { d with
    fw := tset (d.fw.map (fun x => if on.contains x.1 then (x.1, { x.2 with started := true, lastWdog := d.now }) else x)) 32
      { FwThread.atReset 8 0 with started := true, lastWdog := d.now }
    update := { d.update with parked := [] } }

/-- The end of a return (R484). -/
def Dev.returnDone (d : Dev) : Dev :=
  let u := d.update
  let x := d.flash
  let y := match x.trialSlot with | some b => x.setSlot b { x.slot b with state := 2 } | none => x
  let d1 := (d.setFlash { y with trialSlot := none, trialArea := none }).unpark
  let d2 : Dev :=
    { d1 with update := { d1.update with step := 0, outcome := u.returnOutcome, activateOp := none, revertOp := none, confirmOp := none, autoConfirm := false } }
  ((d2.setUpdState 2).endUpdateOp u.activateOp 0x42).endUpdateOp u.revertOp 0

/-- The end of a confirmation (R483, items 3 and 4): the new Curator's threads start afresh. -/
def Dev.confirmDone (d : Dev) : Dev :=
  let u := d.update
  let on := u.parked
  let d1 : Dev := { d with fw := d.fw.map (fun x => if on.contains x.1 then (x.1, FwThread.atReset (x.1 / 4) (x.1 % 4)) else x) }
  let d2 := d1.unpark
  let d3 : Dev :=
    { d2 with
      boot := { d2.boot with slotB := d2.flash.confirmedSlot, imageSv := BitVec.ofNat 8 u.imageSv }
      update := { d2.update with step := 0, outcome := 1, session := none, activateOp := none, confirmOp := none, autoConfirm := false } }
  (d3.setUpdState 0).endUpdateOp u.confirmOp 0

/-- What a frame boundary lets the update engine do: step 1 is a handover, 2 a return, 3 the end of a confirmation. -/
def Dev.updateStep (d : Dev) : Dev :=
  if d.update.step = 0 || !d.runs 2 || !d.boundarySince d.update.stepAt then d
  else if d.update.step = 1 then d.handover
  else if d.update.step = 2 then d.returnDone
  else d.confirmDone

end Sys2Proof.Machine
end

