-- ==== Sys2Proof/Machine/Publish.lean ====
section
/-! DEFINITION. The publication of status words (R119, R263, R264, R275, R322, R374): the publication counter, and the words of a
pipe's timing, layout, slots, planes, zones and output units. -/

namespace Sys2Proof.Machine

/-- The parts of an object key. -/
def keyCls (k : Nat) : Nat := k / 2 ^ 32
def keyInst (k : Nat) : Nat := k / 2 ^ 16 % 2 ^ 16
def keyWord (k : Nat) : Nat := k % 2 ^ 16

/-- The class of a tap: 1 pipe, 2 arrival, 3 ingress, 4 DMA, 5 audio, 0 none. -/
def tapKind (t : Nat) : Nat :=
  if 1 ≤ t ∧ t ≤ 0x0C then 1 else if t = 0x10 then 2 else if 0x20 ≤ t ∧ t ≤ 0x23 then 3 else if t = 0x30 then 4 else if 0x40 ≤ t ∧ t ≤ 0x47 then 5 else 0

/-- A check-value unit, and it replaced. -/
def Dev.cvu (d : Dev) (u : Nat) : Cvu := tget d.cvus u .atReset
def Dev.setCvu (d : Dev) (u : Nat) (x : Cvu) : Dev := { d with cvus := tset d.cvus u x }

/-- Whether two states of the device agree in every field word. -/
def objsEq (a b : Dev) : Bool :=
  (a.objs ++ b.objs).all (fun x => a.obj (keyCls x.1) (keyInst x.1) (keyWord x.1) = b.obj (keyCls x.1) (keyInst x.1) (keyWord x.1))

/-- The publication counter after an instant that may have changed fields (R119, R263). -/
def Dev.published (d0 d : Dev) : Dev := if objsEq d0 d then d else { d with publication := d.publication + 1 }

/-- The status words of an instance taken over from their live values (R263). -/
def Dev.publishWords (d : Dev) (cls inst : Nat) (ws : List Nat) : Dev :=
  ws.foldl (fun d w => let v := d.live cls inst w; if d.obj cls inst w = v then d else d.setObj cls inst w v) d

/-- PIPE_TIMING words 12 to 15 (R273, R275). -/
def Dev.timingStatus (d : Dev) (p : Nat) : Dev :=
  let x := d.pt p
  let q := d.pipePort p
  let y := d.dport q
  let on := d.pipeOn p
  let d1 := d.setLive 0x01 p 12 (BitVec.ofNat 72 (x.darkFrames.toNat * 2 ^ 48 + x.stampedFrame.toNat))
  let d2 := d1.setLive 0x01 p 13 (BitVec.ofNat 72 x.flipStamp.toNat)
  let d3 := d2.setLive 0x01 p 14 (BitVec.ofNat 72 (x.glk.toNat * 2 ^ 69 + x.phaseErr.toNat * 2 ^ 40 + x.glkPeriod.toNat))
  d3.setLive 0x01 p 15 (BitVec.ofNat 72 ((if on then y.link.toNat else 0) * 2 ^ 69 + x.teMissing.toNat * 2 ^ 68 + y.trained.toNat * 2 ^ 64 +
    y.losses.toNat * 2 ^ 48 + x.ltMin * 2 ^ 24 + y.irqs.toNat))

/-- CVU words 12 to 15 (R369). -/
def Dev.cvuStatus (d : Dev) (u : Nat) : Dev :=
  let x := d.cvu u
  let d1 := d.setLive 0x0A u 12 (BitVec.ofNat 72 (x.state.toNat * 2 ^ 69 + x.last.toNat))
  let d2 := d1.setLive 0x0A u 13 (BitVec.ofNat 72 x.held.toNat)
  let d3 := d2.setLive 0x0A u 14 (BitVec.ofNat 72 (x.mismatches.toNat * 2 ^ 48 + x.tag.toNat))
  d3.setLive 0x0A u 15 (BitVec.ofNat 72 (x.refFaults.toNat * 2 ^ 48 + x.abandoned.toNat * 2 ^ 32 + x.suspects.toNat * 2 ^ 16 + x.cleared.toNat))

/-- The pipe whose VBLANK publishes a unit's status (R374): its output tap's, else none. -/
def Dev.cvuPipe (d : Dev) (u : Nat) : Option Nat := let t := fld (d.obj 0x0A u 1) 24 7; if tapKind t = 1 then some (t - 1) else none

/-- PIPE_LAYOUT word 30 apart from CHASE_MISSES and COMPOSED, which the composition keeps live (R237). -/
def Dev.layoutStatus (d : Dev) (p : Nat) : Dev :=
  let x := d.pc p
  let w := d.live 0x02 p 30
  d.setLive 0x02 p 30 (setFld (setFld (setFld w 51 1 x.fallback.toNat) 49 2 x.mode.toNat) 48 1 x.shownB.toNat)

/-- The status of a pipe's objects, its zones and its output units published (R263, R275, R322, R374). -/
def Dev.publishPipe (d : Dev) (p : Nat) : Dev :=
  let d1 := (d.timingStatus p).layoutStatus p
  let d2 := (d1.publishWords 0x01 p [12, 13, 14, 15]).publishWords 0x02 p [28, 29, 30]
  let d3 := (List.range 16).foldl (fun d s => d.publishWords 0x03 (16 * p + s) [20, 21, 22, 23]) d2
  let d4 := (List.range 4).foldl (fun d v => d.publishWords 0x04 (4 * p + v) [14, 15]) d3
  let d5 := (List.range 256).foldl (fun d z => if fld (d.obj 0x08 z 1) 25 4 = p then d.publishWords 0x08 z [6, 7] else d) d4
  (List.range 32).foldl (fun d u => if d.cvuPipe u = some p then (d.cvuStatus u).publishWords 0x0A u [12, 13, 14, 15] else d) d5

end Sys2Proof.Machine
end

