-- ==== Sys2Proof/Machine/Store.lean ====
section
/-! DEFINITION. The settings store as the device itself reads and writes it (R405, R451, R457, R487 to R491). -/

namespace Sys2Proof.Machine

/-- A little-endian number inside a byte string. -/
def natAt (l : List Byte) (off n : Nat) : Nat := ofBytes ((l.drop off).take n)

/-- An item of an area, by TAG and INDEX (R488). -/
def Area.item (a : Area) (tag index : Nat) : Option Item := a.items.find? (fun i => i.tag = tag && i.index = index)

/-- The data of a readable item. -/
def Area.data (a : Area) (tag index : Nat) : Option (List Byte) :=
  match a.item tag index with
  | some i => if i.readable then some i.data else none
  | none => none

/-- The area as a record finds it (R487): an unused one gets a header, and one without room for the record is compacted into its other half. -/
def Area.ready (a : Area) (len : Nat) : Area :=
  let b : Area := if a.valid then a else { a with valid := true, half := false, halfSeq := 1, seq := 0, used := 16, items := [] }
  if b.used + recordSize len ≤ halfSize then b else b.compact (!b.half) (b.halfSeq + 1)

/-- The area with a record of an item written; no data deletes it (R488). -/
def Area.put (a : Area) (tag index : Nat) (data : List Byte) : Area :=
  let b := a.ready data.length
  let rest := b.items.filter (fun i => !(i.tag = tag && i.index = index))
  { b with
    seq := b.seq + 1, used := b.used + recordSize data.length
    items := if data = [] then rest else rest ++ [{ tag := tag, index := index, data := data, seq := b.seq + 1, readable := true }] }

/-- The area that the Curator in charge writes its own items into: the trial area in TRIAL (R491). -/
def Flash.areaNow (x : Flash) : Bool := x.trialArea.getD x.activeArea

/-- The flash with an item put into area 0 or 1. -/
def Flash.putItem (x : Flash) (one : Bool) (tag index : Nat) (data : List Byte) : Flash :=
  if one then { x with area1 := x.area1.put tag index data } else { x with area0 := x.area0.put tag index data }

/-- A device item written (R491), and read when it is used (R457). -/
def Dev.storeItem (d : Dev) (tag index : Nat) (data : List Byte) : Dev := d.setFlash (d.flash.putItem d.flash.areaNow tag index data)
def Dev.deviceItem (d : Dev) (tag index : Nat) : Option (List Byte) :=
  let a := if d.flash.areaNow then d.flash.area1 else d.flash.area0
  if d.flash.dirValid && a.valid && d.boot.fuses.lifecycle ≠ 3 then a.data tag index else none

/-! Training sets (R405, R489). -/

/-- The DRAM identity of a channel as its dice report it, 32 bytes. -/
def Dev.dramId (d : Dev) (n : Nat) : List Byte := (nth d.board.env.dramId n [] ++ List.replicate 32 0).take 32

/-- Whether the store holds a valid training set for a speed point of a channel: of this device and this DRAM. -/
def Dev.setValid (d : Dev) (n p : Nat) : Bool :=
  match d.deviceItem 0x0202 (4 * n + p) with
  | some b => natAt b 0 8 = d.boot.fuses.uid.toNat && (b.drop 8).take 32 = d.dramId n
  | none => false

/-- The training set of a speed point stored after a training; the controller's values are what it measured (tag 37). -/
def Dev.storeSet (d : Dev) (n p : Nat) : Dev :=
  d.storeItem 0x0202 (4 * n + p) (toBytes 8 d.boot.fuses.uid.toNat ++ d.dramId n ++
    (List.range 2048).map (fun i => BitVec.ofNat 8 (Config.unstated 37 [n, p, d.now, i])))

/-- A speed point of a channel in use: trained, and its set stored, unless the store holds a valid one. -/
def Dev.needSet (d : Dev) (n p : Nat) : Dev := if d.setValid n p then d else d.storeSet n p

end Sys2Proof.Machine
end

