-- ==== Sys2Proof/Machine/Image.lean ====
section
/-! DEFINITION. Dziarn images: header, pieces, and the checks of a signed image (R451, R452, R470, R471). -/

namespace Sys2Proof.Machine

/-! Images (R470, R471). -/

/-- The fields of a header block. -/
def hdrPieces (h : List Byte) : Nat := natAt h 6 1
def hdrLength (h : List Byte) : Nat := natAt h 8 4
def hdrFormat (h : List Byte) : Nat := natAt h 12 2
def hdrMinFormat (h : List Byte) : Nat := natAt h 14 2
def hdrSection (h : List Byte) (i : Nat) : Nat × Nat × Nat := (natAt h (32 + 16 * i) 2, natAt h (36 + 16 * i) 4, natAt h (40 + 16 * i) 4)
def hdrEncrypted (h : List Byte) : Bool := natAt h 17 1 % 2 = 1

/-- Whether bytes are all zero. -/
def zeros (h : List Byte) (off n : Nat) : Bool := ((h.drop off).take n).all (fun b => b = 0)

/-- The sections of a header that are in use. -/
def hdrSections (h : List Byte) : List (Nat × Nat × Nat) := ((List.range 8).map (hdrSection h)).filter (fun s => s.1 ≠ 0)

/-- Whether a header is well-formed (R470). -/
def hdrOk (h : List Byte) : Bool :=
  let n := hdrPieces h
  let len := hdrLength h
  let secs := hdrSections h
  let apart := (List.range secs.length).all (fun i => (List.range i).all (fun j =>
    let a := nth secs i (0, 0, 0)
    let b := nth secs j (0, 0, 0)
    a.2.2 = 0 || b.2.2 = 0 || decide (a.2.1 + a.2.2 ≤ b.2.1) || decide (b.2.1 + b.2.2 ≤ a.2.1)))
  natAt h 0 4 = 0x4E525A44 && natAt h 4 2 = 1 && decide (1 ≤ n) && decide (natAt h 7 1 ≤ 64) && decide ((n - 1) * 65536 < len) && decide (len ≤ n * 65536) &&
    decide (1 ≤ hdrFormat h) && decide (1 ≤ hdrMinFormat h) && decide (hdrMinFormat h ≤ hdrFormat h) && decide (natAt h 17 1 < 4) && zeros h 18 14 &&
    (List.range 8).all (fun i => zeros h (34 + 16 * i) 2 && zeros h (44 + 16 * i) 4) && secs.all (fun s => decide (s.1 ≤ 3) && decide (s.2.1 + s.2.2 ≤ len)) &&
    (secs.filter (fun s => s.1 = 1)).length = 1 && secs.all (fun s => s.1 ≠ 1 || decide (s.2.2 ≤ 0x200000)) && apart && zeros h 236 788 &&
    zeros h (1024 + 48 * n) (16288 - (1024 + 48 * n))

/-- The length of piece k as stored. -/
def pieceLen (h : List Byte) (k : Nat) : Nat :=
  if k = 0 then 16384 else if k = hdrPieces h then hdrLength h - (hdrPieces h - 1) * 65536 else 65536

/-- The hash of piece k in the piece table. -/
def pieceHash (h : List Byte) (k : Nat) : List Byte := (h.drop (1024 + 48 * (k - 1))).take 48

/-- The header, a piece and the CORE section of a slot as stored (R469, R470). -/
def Slot.header (s : Slot) : List Byte := (tget s.pieces 0 []).take 16384
def Slot.piece (s : Slot) (k : Nat) : List Byte := (tget s.pieces k []).take (pieceLen s.header k)
def Slot.core (s : Slot) : List Byte :=
  match (hdrSections s.header).find? (fun z => z.1 = 1) with
  | some z => (((List.range (hdrPieces s.header)).flatMap (fun i => s.piece (i + 1))).drop z.2.1).take z.2.2
  | none => []

/-- The key that the lifecycle names (R451): Zelmal's, or the owner's, known by its fused hash. -/
def Dev.imageKey (d : Dev) : List Byte :=
  if d.boot.fuses.lifecycle = 0 || d.boot.fuses.lifecycle = 3 then Config.zelmalKey else Config.ownerKey d.boot.fuses.ownerHash

/-- What R452 and R478 both ask of an image: the CORE section's digest, the signature over the header, ROM_MIN, in FIELD the security
version, and the tag of an encrypted core. The ROM is version 0x01 (R465). -/
def Dev.imageSigned (d : Dev) (s : Slot) : Bool :=
  let h := s.header
  sha384 s.core = (h.drop 160).take 48 && ecdsaVerify d.imageKey (sha384 (h.take 16288)) (h.drop 16288) && natAt h 16 1 ≤ 1 &&
    (d.boot.fuses.lifecycle ≠ 2 || decide (d.boot.fuses.minSv ≤ natAt h 7 1)) &&
    (!hdrEncrypted h || gcmCheck d.boot.fuses.imageKey ((h.drop 208).take 12) s.core ((h.drop 220).take 16))

/-- Whether the boot ROM's checks of a slot pass (R452). DESIGN CHOICE (log entry 5): the image that a slot holds before anything was written
through the device stands outside the model, and the boot environment says whether it passes. -/
def Dev.slotBoots (d : Dev) (slotB : Bool) (env : BootEnv) : Bool :=
  let s := d.flash.slot slotB
  (if slotB then env.slotBOk else env.slotAOk) && (s.pieces.isEmpty || (hdrOk s.header && d.imageSigned s))

end Sys2Proof.Machine
end

