-- ==== Sys2Proof/Machine/Boot.lean ====
section
/-! DEFINITION. Device reset (R442, R448, R455), the boot sequence (R449 to R461), provisioned items (R456, R489), and
freeze (R516, R517). -/

namespace Sys2Proof.Machine

/-! Settings. -/

/-- The settings area that the Curator reads (R485, R486). -/
def Flash.area (x : Flash) : Area := if x.activeArea then x.area1 else x.area0

/-- The provisioning in force: empty when the directory or the area is not valid, or in RETURNED (R451, R486). -/
def Dev.provision (d : Dev) : Area :=
  let a := d.flash.area
  if d.flash.dirValid && a.valid && d.boot.fuses.lifecycle ≠ 3 then a else { a with items := [] }

/-- Packed words in a byte string from an offset. -/
def wordAt (l : List Byte) (i : Nat) : W72 := BitVec.ofNat 72 (natAt l (9 * i) 9)

/-- An action on each item that is present, by index below n. -/
def Area.forEach (a : Area) (tag n : Nat) (h : Dev → Nat → List Byte → Dev) (d : Dev) : Dev :=
  (List.range n).foldl (fun d i => match a.data tag i with | some b => h d i b | none => d) d

/-! Device reset. -/

/-- Fuses that the boot ROM programs at a device reset (R451, R466). -/
def Boot.program (b : Boot) : Fuses :=
  { b.fuses with lifecycle := b.fuses.lcNext.getD (if b.lcPending then 2 else b.fuses.lifecycle), lcNext := none }

/-- The flash as a device reset in TRIAL leaves it (R485): the trial slot is STAGED again, the trial area forgotten. -/
def Flash.untried (x : Flash) : Flash :=
  let y := match x.trialSlot with | some b => x.setSlot b { x.slot b with state := 2 } | none => x
  { y with trialSlot := none, trialArea := none }

/-- The lease of a session in ns (R475). -/
def leaseNs : Nat := 604800000000000

/-- A device reset (R442): everything outside the plinth at its reset value, every memory byte zero, links down; DEVTIME,
a session's lease from its last record (R475), the wake registers, the thermal history, SM_FAULT_N, a halted pair (R495) and an escalation's record (R501), the flash, the fuses and
the board stay. -/
def Dev.deviceReset (d : Dev) : Dev :=
  let z := Dev.atReset
  { z with
    now := d.now
    free := d.free + 1
    mem := d.mem
    writes := (d.mem ++ d.writes).map (fun c => (c.1, (0 : Byte)))
    board := d.board
    msgs := d.msgs
    bus := { z.bus with who := some (mpNone, 0) }
    ports := (List.range 4).map (fun p => (p, { Port.atReset with perst := (d.port p).perst }))
    flash := d.flash.untried
    update :=
      { d.update with
        session := d.update.session.map (fun s => { s with leaseEnd := Nat.min (d.now + leaseNs) (s.leaseEnd + Config.measured d.free % 3600000000001) })
        activateOp := none, confirmOp := none, revertOp := none, step := 0, autoConfirm := false, parked := []
        state := if d.update.state = 4 ∨ d.update.state = 5 then 2 else if d.update.state = 3 then 2 else d.update.state
        outcome := if d.update.state = 4 then 6 else d.update.outcome }
    disp := { z.disp with ports := (List.range 12).map (fun q => (q, { DispPort.atReset with hpd := (d.dport q).hpd })) }
    power :=
      { z.power with
        wakeEn := d.power.wakeEn, wakeSrc := d.power.wakeSrc, wakeAt := d.power.wakeAt, hotAt := d.power.hotAt, coolAt := d.power.coolAt
        shdMv := 680, coreMv := 800, regulators := d.power.regulators }
    boot := { z.boot with fuses := d.boot.program, resets := satInc d.boot.resets }
    safety :=
      { z.safety with
        faultN := d.safety.faultN
        state := if d.safety.state = 2 then 2 else 0
        temps := d.safety.temps
        plinthRec := none
        refclkLost := d.safety.refclkLost
        queue := match d.safety.plinthRec with | some r => [r] | none => [] }
    svp := d.svp }

/-! Owners. -/

/-- The classes of state objects (R117): the number of instances and of words; none where the code is reserved. -/
def classInfo (cls : Nat) : Option (Nat × Nat) :=
  nth [none, some (12, 16), some (12, 32), some (192, 24), some (48, 16), some (1024, 64), some (12, 16), some (16, 32), some (256, 8),
    some (12, 32), some (32, 16), some (64, 8), some (64, 8)] cls none

/-- Whether an owner field may name a function (R27, R118): it exists, has the mark that the class needs, and FUNCTION_ATTR
and SHARE name whom they may. The manager passes. -/
def Dev.ownerAllowed (d : Dev) (cls inst f : Nat) : Bool :=
  f = d.manager || (d.exists_ f && (cls ≠ 0x04 || d.critical f) && (cls ≠ 0x07 || inst < 12 || d.privileged f))
def Dev.ownerRange (d : Dev) (cls inst f : Nat) : Bool :=
  if cls = 0x0C then f = d.manager
  else if cls = 0x0B then f = d.manager || (inst % 16 ≠ 0 && f = inst / 16 * 16)
  else true

/-- One OWNERS triple as a manager commit at IMMEDIATE (R458), or BOOT_STAT bit 22. -/
def Dev.applyOwner (d : Dev) (cls inst f : Nat) : Dev :=
  let exists_ := match classInfo cls with | some (n, _) => decide (inst < n) | none => false
  if exists_ && decide (f < 64) && d.ownerRange cls inst f && d.ownerAllowed cls inst f then
    (let d1 := d.setObj cls inst 0 (BitVec.ofNat 72 f)
     if d.owner cls inst = f then d1 else { d1 with publication := d1.publication + 1 })
  else { d with boot := { d.boot with settings := setBit d.boot.settings 2 true } }

/-! The boot sequence. -/

/-- Step 6: the provisioned items (R456, R489). -/
def Dev.applyItems (d : Dev) : Dev :=
  let a := d.provision
  let absent := a.items.all (fun i => decide (0x0200 ≤ i.tag))
  let bad := a.items.any (fun i => !i.readable)
  let manager := match a.data 0x0101 0 with | some b => natAt b 0 1 | none => 0
  let d1 : Dev :=
    { d with
      manager := manager
      boot := { d.boot with settings := BitVec.ofNat 4 (absent.toNat + 2 * bad.toNat) } }
  let d2 := a.forEach 0x0102 64 (fun d f b => d.setFn f { d.fn f with ssVid := BitVec.ofNat 16 (natAt b 0 2), ssId := BitVec.ofNat 16 (natAt b 2 2) }) d1
  let d3 := a.forEach 0x0104 64 (fun d f b => d.setObj 0x0C f 1 (BitVec.ofNat 72 (50 * 2 ^ 8 + natAt b 0 1 % 4))) d2
  let d4 := a.forEach 0x0106 640 (fun d n b => { d with disp := { d.disp with modes := tset d.disp.modes n ((List.range 4).map (wordAt b)) } }) d3
  let d5 :=
    match a.data 0x0107 0 with
    | some b => (List.range 4).foldl (fun d q => d.setDport q { d.dport q with edp := bitsN (natAt b 0 1) q 1 = 1 }) d4
    | none => d4
  let steps (b : List Byte) : List PanelStep :=
    (List.range (b.length / 20)).map (fun i =>
      let s := (b.drop (20 * i)).take 20
      { kind := natAt s 0 1, delay := natAt s 1 1 * 1000000, type := natAt s 3 1, addr := natAt s 3 1, data := (s.drop 4).take (Nat.min 16 (natAt s 2 1)) })
  let d6 := a.forEach 0x0108 12 (fun d q b => { d with disp := { d.disp with panelInit := tset d.disp.panelInit q (steps b) } }) d5
  let words (cls first : Nat) (n : Nat) (d : Dev) (i : Nat) (b : List Byte) : Dev :=
    (List.range n).foldl (fun d k => d.setObj cls i (first + k) (wordAt b k)) d
  let d7 := a.forEach 0x0109 12 (words 0x01 1 4) d6
  let d8 := a.forEach 0x010E 12 (words 0x09 1 7) d7
  let d9 := a.forEach 0x010F 16 (words 0x07 2 3) d8
  let d10 := a.forEach 0x0110 12 (words 0x06 1 3) d9
  let rail := (a.data 0x010C 0).isSome && (a.data 0x010C 1).isSome
  let maps : Tab RailMap := (List.range 2).filterMap (fun r => (a.data 0x010C r).map (fun b =>
    (r, { addr := natAt b 0 1, reg := natAt b 1 1, v0 := natAt b 2 2, step := natAt b 4 2, top := natAt b 6 2 })))
  let target := match a.data 0x010D 0 with | some b => natAt b 0 1 % 8 | none => if rail then 0 else 3
  let d11 : Dev := { d10 with power := { d10.power with rail := rail, opTarget := BitVec.ofNat 3 target, railMaps := maps } }
  match a.data 0x0111 0 with
  | some b => { d11 with power := { d11.power with wakeEn := setFld d11.power.wakeEn 4 4 (natAt b 0 1) } }
  | none => d11

/-- Step 6, last: OWNERS in record order (R458), after the items that they rest on. -/
def Dev.applyOwners (d : Dev) : Dev :=
  match d.provision.data 0x0105 0 with
  | some b => (List.range (b.length / 4)).foldl (fun d i => d.applyOwner (natAt b (4 * i) 1) (natAt b (4 * i + 2) 2) (natAt b (4 * i + 1) 1)) d
  | none => d

/-- Step 7: MEM_CFG, MEM_PART and the channels (R459, R460). -/
def Dev.bootDram (d : Dev) (env : BootEnv) : Dev :=
  let a := d.provision
  let probe (n : Nat) : Nat × Nat := nth env.channelMr8 n (8, 2)
  let cfg : Dram :=
    match a.data 0x010A 0 with
    | some b =>
      let c := natAt b 0 4
      let m := natAt b 4 4
      { d.dram with
        inlineEcc := bitsN c 31 1 = 1, maxSpeed := BitVec.ofNat 2 (bitsN c 24 2), twoRanks := bitsN c 16 1 = 1, capacity := bitsN c 0 4
        chaseWays := bitsN m 8 5, scratchWays := bitsN m 0 4 }
    | none => { d.dram with inlineEcc := false, maxSpeed := 1, twoRanks := (probe 0).2 = 2, capacity := (probe 0).1 % 16, chaseWays := 4, scratchWays := 0 }
  let all : Bool := match a.data 0x010A 0 with | some b => natAt b 8 1 % 2 = 1 | none => false
  let d1 : Dev := { d with dram := cfg }
  let fits (n : Nat) : Bool := (probe n).1 % 16 = cfg.capacity && ((probe n).2 = 2) = cfg.twoRanks
  let bring (d : Dev) (n : Nat) : Dev :=
    let p := d.speedFor n
    let works := nth env.channelOk n 0
    let trained (d : Dev) (full : Bool) : Dev := if full then { d with boot := { d.boot with fullTrain := setBit d.boot.fullTrain (n / 4) true } } else d
    if (d.group (n / 4)).state = 2 then d
    else if !fits n then d.fence n
    else
      match firstPoint works p with
      | none => (trained d (!d.setValid n p)).fence n
      | some q =>
        let d2 := trained d (!d.setValid n p || !d.setValid n q)
        let more := if all then (List.range 4).filter (fun x => bit works x) else [q]
        let d3 := more.foldl (fun d x => d.needSet n x) (d2.setChan n { d2.chan n with speed := BitVec.ofNat 2 q, state := 0, driftAt := some d2.now })
        if q = p then d3 else d3.stepDown n q
  let d4 := (List.range 16).foldl bring (if all then { d1 with boot := { d1.boot with trainAll := true } } else d1)
  let fenced := (List.range 4).foldl (fun acc g => acc + (if (d4.group g).state = 2 then 2 ^ g else 0)) 0
  { d4 with boot := { d4.boot with
      fenced := BitVec.ofNat 4 fenced
      settings := if (List.range 16).all (fun n => (List.range 4).all (fun p => !d.setValid n p)) then setBit d4.boot.settings 3 true else d4.boot.settings } }

/-- Budgets and the tile-list pool, which rest on the top of populated DRAM (R456). -/
def Dev.bootBudgets (d : Dev) : Dev :=
  let a := d.provision
  let top := dramTop d.dram
  let d1 := (List.range 4).foldl (fun d p =>
    let b : Budget :=
      match a.data 0x0103 p with
      | some x => { Port.atReset.written with maxVfs := natAt x 0 4 % 16, winBase := BitVec.ofNat 64 (natAt x 4 8), winSize := BitVec.ofNat 64 (natAt x 12 8) }
      | none => { Port.atReset.written with winBase := 0, winSize := BitVec.ofNat 64 (top - 0x10000000) }
    d.setPort p { d.port p with written := b, inForce := b }) d
  match a.data 0x010B 0 with
  | some x =>
    { d1 with raster := { d1.raster with
        poolBase := BitVec.ofNat 64 (natAt x 0 8) &&& 0x000000FFFFE00000, blocks := natAt x 8 4 % 4096, compReserve := natAt x 12 4 % 4096
        reserves := (List.range 64).map (fun f => (f, natAt x (16 + 4 * f) 4 % 4096)) } }
  | none =>
    { d1 with raster := { d1.raster with
        poolBase := BitVec.ofNat 64 (top - 0x10000000), blocks := 80, compReserve := 16, reserves := (List.range 64).map (fun f => (f, 1)) } }

/-- The firmware threads that run after boot: the annex cores' first threads (R449, R496). -/
def Dev.bootFirmware (d : Dev) : Dev :=
  (d.setFwt 8 0 { d.fwt 8 0 with started := true, lastWdog := d.now }).setFwt 9 0 { d.fwt 9 0 with started := true, lastWdog := d.now }

/-- Step 3: the ports whose PERST_N is high train (R449, R450). -/
def Dev.bootLinks (d : Dev) : Dev :=
  (List.range 4).foldl (fun d p => d.setPort p { d.port p with link := if (d.port p).perst then .training else .down }) d

/-! Touch channels start. -/

def Dev.tch (d : Dev) (c : Nat) : TouchChan := tget d.touch.chans c .atReset
def Dev.setTch (d : Dev) (c : Nat) (x : TouchChan) : Dev := { d with touch := { d.touch with chans := tset d.touch.chans c x } }

/-- A field word of a channel's applied TOUCH_CHANNEL object. -/
def Dev.tw (d : Dev) (c w : Nat) : W72 := d.obj 0x09 c w

/-- A stored baseline that fits the channel (R311, R489). -/
def Dev.storedBaseline (d : Dev) (c : Nat) : Option (List Int) :=
  match d.deviceItem 0x0201 c with
  | none => none
  | some b =>
    let rows := fld (d.tw c 2) 40 8
    let cols := fld (d.tw c 2) 32 8
    if natAt b 0 8 = d.boot.fuses.uid.toNat && natAt b 8 1 = rows && natAt b 9 1 = cols && decide (10 + 2 * rows * cols ≤ b.length) then
      some ((List.range (rows * cols)).map (fun i => ((natAt b (10 + 2 * i) 2 : Nat) : Int)))
    else none

/-- BASELINE entered, to learn over 32 frames. -/
def Dev.learnBaseline (d : Dev) (c : Nat) : Dev := d.setTch c { d.tch c with state := 2, src := 0, learnt := 0, sums := [], baseline := [] }

/-- A channel without contacts begins (R306, R311): INIT, or for a raw channel ACTIVE with a stored baseline and BASELINE without one. -/
def Dev.touchBegin (d : Dev) (c : Nat) : Dev :=
  let d1 := d.setTch c { d.tch c with state := 1, cause := 0, scan := [], scanLeft := 0, errRun := 0, desc := none }
  if fld (d1.tw c 1) 26 2 = 1 then
    (match d1.storedBaseline c with
     | some b => d1.setTch c { d1.tch c with state := 3, src := 1, baseline := b, sums := [] }
     | none => d1.learnBaseline c)
  else d1

/-- Step 8 and 9: pipes, touch channels, the audio engine, F0_EST, READY and the host links (R330, R343, R450, R461). -/
def Dev.bootStart (d : Dev) : Dev :=
  let on := indices 12 d.pipeOn
  let d1 := d.published (on.foldl (fun d p => d.publishPipe p) (on.foldl (fun d p => d.pipeStart p) d))
  let d2 := (indices 12 (fun c => bit (d1.tw c 1) 31)).foldl Dev.touchBegin d1.bootLinks
  { d2 with
    audio :=
      { d2.audio with
        running := true, startAt := d2.now, count := 0
        ports := (List.range 12).map (fun i => (i, { AudPort.atReset with state := if bit (d2.obj 0x06 i 1) 31 then 1 else 0 })) }
    haptic :=
      { d2.haptic with
        chans := (List.range 16).map (fun c => (c, { HapChan.atReset with f0Est := BitVec.ofNat 18 (fld (d2.obj 0x07 c 3) 18 18) })) }
    boot := { d2.boot with stage := .ready, readyAt := BitVec.ofNat 64 d2.now } }

/-- The boot sequence (R449 to R461): RECOVERY when neither slot passes R452, else READY. The instants are measured
ones: free values within the bounds of R449. -/
def Dev.bootRun (d : Dev) (env : BootEnv) : Dev :=
  let d0 : Dev := { d with board := { d.board with env := env } }
  if d0.board.sysRstLow || !d0.board.refclkOk then d0
  else
    let firstB := d.flash.dirValid && d.flash.confirmedSlot
    let firstOk := d0.slotBoots firstB env
    let otherOk := d0.slotBoots (!firstB) env
    let slotB := if firstOk then firstB else !firstB
    let header := (d.flash.slot slotB).header
    let b1 : Boot := { d0.boot with fallback := !env.octalOk, otherSlot := !firstOk, slotB := slotB, imageSv := BitVec.ofNat 8 (natAt header 7 1) }
    let t1 := d0.now + Config.measured d0.free % (if env.octalOk then 11500001 else 347500001)
    if !firstOk && !otherOk then ({ d0 with boot := { b1 with stage := .recovery } } : Dev).bootLinks
    else
      let d1 : Dev := { d0 with free := d0.free + 2, now := t1, boot := { b1 with curatorAt := BitVec.ofNat 64 t1 } }
      let d2 := (d1.applyItems).bootDram env
      let bound := 11000000 + (if d2.boot.fullTrain = 0 then 0 else 40000000) + (if d2.boot.trainAll then 160000000 else 0)
      let t2 := t1 + Config.measured (d0.free + 1) % (bound + 1)
      ((({ d2.bootBudgets.applyOwners with now := t2 } : Dev).bootFirmware).bootStart).opCheck

/-- A device reset followed by the boot sequence on the board as it was last found. -/
def Dev.resetAndBoot (d : Dev) (env : BootEnv) : Dev := d.deviceReset.bootRun env

/-! Freeze. -/

/-- Whether a freeze is honoured (R516). -/
def Dev.freezeAllowed (d : Dev) : Bool := d.boot.fuses.lifecycle ≠ 2 || d.probe.unlocked || d.safety.freezeEn

/-- Frames of one region, 512 words each (R517); `bad` tells of an offset whether the frame holds an uncorrectable word. -/
def regionFrames (bad : Nat → Bool) (fuel seq off : Nat) (locus : W72) (words : List W72) : List FroFrame :=
  match fuel with
  | 0 => []
  | k + 1 =>
    if words = [] then []
    else { type := 3, seq := seq % 65536, flag := bad off, locus := locus, offset := off, payload := words.take 512 } ::
      regionFrames bad k (seq + 1) (off + 512) locus (words.drop 512)

/-- The regions of FRO_SEL: number of words and the macro named (R517). -/
def froRegions : List (Nat × W72) :=
  [(16384, locusOf 0x02 0x0A 0 0 0x3FFFFFF), (233016, locusOf 0x02 0x08 3 0 0x3FFFFFF), (233016, locusOf 0x0C 0x00 1 0 0x3FFFFFF),
   (333141, locusOf 0x02 0x00 3 0 0x3FFFFFF), (16 * 50972, locusOf 0x03 0x00 2 0 0x3FFFFFF), (5592405, locusOf 0x04 0x10 0 0 0x3FFFFFF)]

/-- The words of a region as sent: the Vitrine from memory, the others as the manual leaves them. -/
def Dev.regionWords (d : Dev) (r : Nat) : List W72 :=
  let n := (nth froRegions r (0, 0)).1
  if r = 5 then (List.range n).map (fun i => BitVec.ofNat 72 (d.peekNat (vitrineBase + 9 * i) 9))
  else (List.range n).map (Config.regionWord r)

/-- Whether 512 words of a region from an offset hold an uncorrectable one: of the Vitrine as its list says, of the others a free value (tag 39). -/
def Dev.regionBad (d : Dev) (r off : Nat) : Bool :=
  if r = 5 then d.poison.any (fun l => decide (2 ^ 40 + off ≤ l) && decide (l < 2 ^ 40 + off + 512)) else Config.unstated 39 [r, off, d.now] % 2 = 1

/-- BOOT_ID (R465); the ROM is version 0x01. -/
def Dev.bootId (d : Dev) : Nat :=
  d.boot.fuses.grade.toNat * 2 ^ 30 + d.boot.fuses.lifecycle.toNat * 2 ^ 28 + d.boot.slotB.toNat * 2 ^ 27 + d.boot.fallback.toNat * 2 ^ 26 +
    d.boot.otherSlot.toNat * 2 ^ 25 + Nat.min 64 d.boot.fuses.minSv * 2 ^ 16 + d.boot.imageSv.toNat * 2 ^ 8 + 1

/-- The time a read-out takes: 28 bytes a frame and its payload, 100 ns a byte (R517). -/
def froTime (l : List FroFrame) : Nat := (l.map (fun x => 2800 + 900 * x.payload.length)).foldl (· + ·) 0

/-- The frames of a read-out (R517): header, records, the regions of FRO_SEL except in FIELD, end. -/
def Dev.readout (d : Dev) (at_ source : Nat) : List FroFrame :=
  let field := d.boot.fuses.lifecycle = 2
  let recs := d.safety.queue.flatMap Rec.words
  let sel := (List.range 6).filter (fun r => !field && bit d.safety.froSel r)
  let body := sel.foldl (fun (acc : List FroFrame) r =>
    acc ++ regionFrames (d.regionBad r) ((nth froRegions r (0, 0)).1 / 512 + 1) (2 + acc.length) 0 (nth froRegions r (0, 0)).2 (d.regionWords r)) []
  let header : List W72 :=
    [BitVec.ofNat 72 d.boot.fuses.uid.toNat, BitVec.ofNat 72 d.bootId, BitVec.ofNat 72 at_, BitVec.ofNat 72 source, BitVec.ofNat 72 d.safety.froSel.toNat,
     BitVec.ofNat 72 d.safety.queue.length, BitVec.ofNat 72 (body.length + 2), 0]
  let plain (t s : Nat) (p : List W72) : FroFrame := { type := t, seq := s % 65536, flag := false, locus := 0, offset := 0, payload := p }
  [plain 0 0 header, plain 1 1 recs] ++ body ++ [plain 15 (2 + body.length) []]

/-- A freeze request (R516): honoured, or ignored with FREEZE_IGNORED. -/
def Dev.freezeRequest (d : Dev) (source : Nat) : Dev :=
  if d.freeze.at_.isSome then d
  else if !d.freezeAllowed then d.smRecord 0x3A (locusEngine 0x0C 0) none source 0
  else
    let d1 := (List.range 4).foldl (fun d p => d.setPort p { d.port p with link := .down }) d
    let d2 := (List.range 12).foldl (fun d q => d.portOff q) d1
    let frames := d2.readout d.now source
    { d2 with
      free := d2.free + 1
      safety := { d2.safety with faultN := true }
      freeze := { at_ := some d.now, source := source, frames := frames, nextEnd := d.now + Config.measured d2.free % 1000001 + froTime frames + 1000000 } }

/-- What a command leaves to be done: a step of the update engine at a frame boundary (R479), and the safety manager's actions
(R502), a device reset or a freeze. -/
def Dev.settle (d0 : Dev) : Dev :=
  let d := if d0.update.step = 0 then d0 else d0.updateStep
  let d1 := if d.safety.freezeWanted then ({ d with safety := { d.safety with freezeWanted := false } } : Dev).freezeRequest 2 else d
  if d1.safety.escalate then d1.resetAndBoot d1.board.env else d1

end Sys2Proof.Machine
end

