-- ==== Sys2Proof/Machine/Flags.lean ====
section
/-! DEFINITION. The integer operations of R56 to R58 on 72-bit words, the comparisons that write predicate
registers (R57, R58), and predicate logic (PLOG). -/

namespace Sys2Proof.Machine

/-- The limits of a 72-bit word. -/
def i72Lo : Int := -(2 ^ 71)
def i72Hi : Int := 2 ^ 71 - 1
def u72Hi : Int := 2 ^ 72 - 1

/-- A word limited to the signed range, or to the unsigned range when sub-operation bit 0 is 1 (R56). -/
def satW (uns : Bool) (x : Int) : W72 := BitVec.ofInt 72 (if uns then clampI 0 u72Hi x else clampI i72Lo i72Hi x)

/-- A word as the integer that a saturating operation reads: unsigned or signed. -/
def intW (uns : Bool) (x : W72) : Int := if uns then x.toNat else x.toInt

/-- ADD, SUB and MUL: modulo 2^72, or saturated when SAT is 1 (R56, R58). -/
def addW (uns sat : Bool) (a b : W72) : W72 := if sat then satW uns (intW uns a + intW uns b) else a + b
def subW (uns sat : Bool) (a b : W72) : W72 := if sat then satW uns (intW uns a - intW uns b) else a - b
def mulW (uns sat : Bool) (a b : W72) : W72 := if sat then satW uns (intW uns a * intW uns b) else a * b

/-- MULH: bits 143 to 72 of the product (R58). -/
def mulhW (uns : Bool) (a b : W72) : W72 := BitVec.ofInt 72 ((intW uns a * intW uns b) / 2 ^ 72)

/-- DIV: truncated toward zero; all ones for a zero divisor, -2^71 for -2^71 / -1 (R58). -/
def divW (uns : Bool) (a b : W72) : W72 :=
  if b = 0 then BitVec.allOnes 72
  else if uns then BitVec.ofNat 72 (a.toNat / b.toNat)
  else BitVec.ofInt 72 (Int.tdiv a.toInt b.toInt)

/-- REM: a for a zero divisor, else a - trunc(a / b) × b (R58). -/
def remW (uns : Bool) (a b : W72) : W72 :=
  if b = 0 then a
  else if uns then BitVec.ofNat 72 (a.toNat % b.toNat)
  else BitVec.ofInt 72 (Int.tmod a.toInt b.toInt)

/-- MIN and MAX. -/
def minW (uns : Bool) (a b : W72) : W72 := if intW uns a ≤ intW uns b then a else b
def maxW (uns : Bool) (a b : W72) : W72 := if intW uns a ≤ intW uns b then b else a

/-- ABS: -2^71 stays -2^71 unless SAT is 1. -/
def absW (sat : Bool) (a : W72) : W72 :=
  if a.toInt < 0 then (if sat then satW false (-a.toInt) else -a) else a

/-- Shifts: counts of 72 or more give 0, or copies of the sign for SAR (R58). -/
def shlW (a b : W72) : W72 := if 72 ≤ b.toNat then 0 else a <<< b.toNat
def shrW (a b : W72) : W72 := if 72 ≤ b.toNat then 0 else a >>> b.toNat
def sarW (a b : W72) : W72 := a.sshiftRight (Nat.min b.toNat 72)
def rotW (a b : W72) : W72 := a.rotateRight (b.toNat % 72)

/-- BFX: w bits of a from pos, zero- or sign-extended (R58). -/
def bfxW (sign : Bool) (pos w : Nat) (a : W72) : W72 := if sign then sextTo 72 w (fld a pos w) else BitVec.ofNat 72 (fld a pos w)

/-- CLZ: leading zeros, 0 to 72. -/
def clzW (a : W72) : W72 := if a = 0 then 72 else BitVec.ofNat 72 (71 - Nat.log2 a.toNat)

/-- POPC: the number of 1 bits. -/
def popcW (a : W72) : W72 := BitVec.ofNat 72 (popCount 72 a.toNat)

/-- CMP and CMPU: 0 EQ, 1 NE, 2 LT, 3 LE, 4 GT, 5 GE (R57). -/
def compareInt (sub : Nat) (x y : Int) : Bool :=
  match sub with
  | 0 => x = y
  | 1 => x ≠ y
  | 2 => x < y
  | 3 => x ≤ y
  | 4 => y < x
  | _ => y ≤ x

/-- PLOG: 0 AND, 1 OR, 2 XOR, 3 ANDN, 4 NOT ka, 5 clear, 6 set (R57). -/
def plog (sub : Nat) (a b : Bool) : Bool :=
  match sub with
  | 0 => a && b
  | 1 => a || b
  | 2 => a != b
  | 3 => a && !b
  | 4 => !a
  | 5 => false
  | _ => true

/-- LANE: extract or insert an F18 lane or a 36-bit lane (R57); d is the old destination. -/
def laneW (sub : Nat) (imm : Nat) (a d : W72) : W72 :=
  match sub with
  | 0 => BitVec.ofNat 72 (fld a (18 * (imm % 4)) 18)
  | 1 => setFld d (18 * (imm % 4)) 18 a.toNat
  | 2 => BitVec.ofNat 72 (fld a (36 * (imm % 2)) 36)
  | _ => setFld d (36 * (imm % 2)) 36 a.toNat

/-- SWZ.h: lane i takes lane imm[2i+1:2i] of a. -/
def swzW (imm : Nat) (a : W72) : W72 :=
  BitVec.ofNat 72 ((List.range 4).foldl (fun acc i => acc + fld a (18 * bitsN imm (2 * i) 2) 18 * 2 ^ (18 * i)) 0)

/-- FFMA signs by sub-operation: 0 ab + c, 1 ab - c, 2 -ab + c, 3 -ab - c. -/
def fmaNegP (sub : Nat) : Bool := sub = 2 || sub = 3
def fmaNegC (sub : Nat) : Bool := sub = 1 || sub = 3

/-- A lane mask: all ones or zero (FCMP). -/
def maskOf (n : Nat) (b : Bool) : Nat := if b then 2 ^ n - 1 else 0

/-- SABS.q: saturating absolute value or negation. -/
def s36Abs (sub : Nat) (a : Nat) : Nat := if sub = 0 then s36Sat (if s36Val a < 0 then -s36Val a else s36Val a) else s36Sat (-s36Val a)

end Sys2Proof.Machine
end

