-- ==== Sys2Proof/Machine/Issue.lean ====
section
/-! DEFINITION. How a command takes effect (commit and run), and how an instruction issues on each kind of program counter:
decode, predicate, step limit, fetch, exceptions, and the next instruction (R47, R49, R51, R59, R77, R78, R81, R183, R365). -/

namespace Sys2Proof.Machine

/-! Commands. -/

/-- The state after a command whose effect on the device is d: its stores take their place in memory, and its accesses, from the memory port
and with the hint `who`, in the system cache. -/
def commit (who : Nat × Nat) (s : State) (d : Dev) : State :=
  { s with dev := { d with mem := cellSetAll s.dev.mem d.writes, writes := [], bus := d.busStep who } }

/-- A command with the effect h on the device, whose accesses use a memory port (R384); what the safety manager decides follows at once (R502). -/
def runFrom (who : Nat × Nat) (h : Dev → Dev) (s : State) : Host.Outcome State Fault Refusal := .next (commit who s (h s.dev).settle)

/-- A command of the sequencers, or without accesses; of a port with its default hint; of an operation. -/
def run (h : Dev → Dev) (s : State) : Host.Outcome State Fault Refusal := runFrom (mpSeq, 0) h s
def runAs (port : Nat) (h : Dev → Dev) (s : State) : Host.Outcome State Fault Refusal := runFrom (port, mpHint port) h s
def runOp (id : OpId) (h : Dev → Dev) (s : State) : Host.Outcome State Fault Refusal := runFrom (s.dev.opPort id) h s

/-! Program counters. -/

/-- An exception: its code, the data address a firmware thread reports, the result field when it is not R77's (FAIL), and the fault cause of a
memory access that raised it, else 0. -/
structure Exc where
  code : Nat
  addr : Nat
  own : Option (BitVec 64)
  cause : Nat
  deriving DecidableEq, Repr

/-- An exception without a data address. -/
def exc (code : Nat) : Exc := { code := code, addr := 0, own := none, cause := 0 }

/-- The exception of a memory access that ended with a fault cause (R77, R144). -/
def memExc (cause va : Nat) : Exc := { exc (causeExc cause).toNat with addr := va, cause := cause }

/-- The status of an exception: its code's (R77), or that of its fault cause (R144: a table entry that is uncorrectable or lost has its own). -/
def Exc.status (e : Exc) : BitVec 8 := if e.cause = 0 then excStatus (BitVec.ofNat 8 e.code) else causeStatus e.cause

/-- The exception codes of R77. -/
def exIllegal : Exc := exc 0x01
def exPc : Exc := exc 0x03
def exStack : Exc := exc 0x04
def exAlign : Exc := exc 0x05
def exParam : Exc := exc 0x0A
def exState : Exc := exc 0x0B

/-- Where the program goes after an instruction: the next index, an index (R59), nowhere yet, or it has ended. -/
inductive Flow where
  | next
  | goto (i : Int)
  | stay
  | done
  deriving DecidableEq, Repr

/-- A resident wave, and a slice, and each replaced. -/
def Dev.wave (d : Dev) (i : Nat) : Option Wave := tfind d.raster.waves i
def Dev.setWave (d : Dev) (i : Nat) (x : Wave) : Dev := { d with raster := { d.raster with waves := tset d.raster.waves i x } }
def Dev.slice (d : Dev) (n : Nat) : Slice := tget d.audio.slices n .atReset
def Dev.setSlice (d : Dev) (n : Nat) (x : Slice) : Dev := { d with audio := { d.audio with slices := tset d.audio.slices n x } }

/-- The program counter of a context, when there is one. -/
def Dev.seq (d : Dev) (c : Ctx) : Option Seq :=
  match c with
  | .guest g => if (d.ring g.val).thread.acc.isSome then some (d.ring g.val).thread.seq else none
  | .firmware k t => some (d.fwt k.val t.val).seq
  | .wave i => (d.wave i).map (fun x => x.seq)
  | .slice n => some (d.slice n.val).seq

/-- A change of a context's program counter. A firmware thread that goes on no longer waits for its interrupt. -/
def Dev.updSeq (d : Dev) (c : Ctx) (h : Seq → Seq) : Dev :=
  match c with
  | .guest g => d.updThread g.val (fun t => { t with seq := h t.seq })
  | .firmware k t => d.setFwt k.val t.val { d.fwt k.val t.val with halted := false, seq := h (d.fwt k.val t.val).seq }
  | .wave i => match d.wave i with | some x => d.setWave i { x with seq := h x.seq } | none => d
  | .slice n => d.setSlice n.val { d.slice n.val with seq := h (d.slice n.val).seq }

/-- The function whose device-virtual space a context uses, and the ring kind its faults report. The manual names no function for a
firmware thread's LD, ST, LDS, ATOM, PREF and FLUSH: they use the manager's (DESIGN CHOICE, log entry 116). -/
def Dev.ctxFn (d : Dev) (c : Ctx) : Nat :=
  match c with
  | .guest g => ringFn g.val
  | .wave i => match d.wave i with | some x => x.fn | none => d.manager
  | _ => d.manager
def Dev.ctxKind (d : Dev) (c : Ctx) : Nat :=
  match c with
  | .guest g => ringKind g.val
  | .wave i => match d.wave i with | some x => ringKind x.op.ring.val | none => 0
  | _ => 0

/-- The fault source of a context's memory accesses (R67, R133, R183). -/
def ctxSource (c : Ctx) : Nat :=
  match c with
  | .wave _ => srcEngine
  | _ => srcProgram

/-- Whether a context can issue an instruction: it runs, waits for nothing, and nothing holds its core (R70, R72, R105, R514). -/
def Dev.canIssue (d : Dev) (c : Ctx) : Bool :=
  d.runs (match c with | .wave _ => 4 | .slice _ => 7 | _ => 3) && (!d.probe.halted.contains c || d.probe.stepping.contains c) &&
  match c with
  | .guest g =>
    let t := (d.ring g.val).thread
    t.acc.isSome && t.wait = .none && (tfind d.coreDown (g.val % 8)).isNone
  | .firmware k t => (d.fwt k.val t.val).started && (d.fwt k.val t.val).wait = .none && (tfind d.coreDown k.val).isNone
  | .wave i => (d.wave i).isSome
  | .slice n => (d.slice n.val).running

/-- The graph enters FAULT (R365): the sinks carry zero, the manager receives EV_FAULT. -/
def Dev.graphFault (d : Dev) (n code pc : Nat) : Dev :=
  let a := d.audio
  let d1 : Dev :=
    { d with audio :=
        { a with
          state := 3
          faultCode := BitVec.ofNat 8 code
          faultSlice := BitVec.ofNat 2 n
          faultPc := BitVec.ofNat 24 pc
          outs := []
          slices := a.slices.map (fun x => (x.1, { x.2 with running := false })) } }
  d1.setEv d1.manager 5

/-- A raster operation stops (R183, R196): its waves, its tiles and its pool blocks are gone. -/
def Dev.stopPass (d : Dev) (id : OpId) : Dev :=
  { d with raster :=
      { d.raster with
        waves := d.raster.waves.filter (fun x => x.2.op ≠ id)
        passes := d.raster.passes.filter (fun p => p.id ≠ id) } }

/-- An exception ends the program of a guest thread (R77), traps a firmware thread (R78), ends a raster operation (R183) or faults
the graph (R365). -/
def Dev.raise (d : Dev) (c : Ctx) (e : Exc) : Dev :=
  match c with
  | .guest g =>
    let q := (d.ring g.val).thread.seq
    d.endProgram g.val e.status (some (e.own.getD (excResult (BitVec.ofNat 8 e.code) (q.byteAddr q.pc))))
  | .firmware k t =>
    let x := d.fwt k.val t.val
    if x.ecode ≠ 0 then
      (d.setFwt k.val t.val { x with started := false }).smRecord 0x21 (coreLocus k.val) none x.ecode.toNat x.epc.toNat
    else
      d.setFwt k.val t.val
        { x with
          epc := BitVec.ofNat 72 x.seq.pc, ecode := BitVec.ofNat 72 e.code, eaddr := BitVec.ofNat 72 e.addr
          seq := { x.seq with pc := fld x.evec 0 24 } }
  | .wave i =>
    match d.wave i with
    | some x =>
      let r := e.own.getD (excResult (BitVec.ofNat 8 e.code) (x.seq.byteAddr x.seq.pc))
      (d.stopPass x.op).finish x.op e.status.toNat (some r.toNat)
    | none => d
  | .slice n => d.graphFault n.val e.code (d.slice n.val).seq.pc

/-- The memory port of a context's accesses (R384), and a memory instruction's accesses under its cache hint (R50, R389). -/
def Dev.wavePort (d : Dev) (c : Ctx) : Nat :=
  match c with
  | .wave i => match d.wave i with | some x => mpCore x.core | none => mpSeq
  | _ => mpSeq
def Dev.hinted (d : Dev) (c : Ctx) (w : Insn) : Dev := d.asked (some (d.wavePort c, fld w.low 32 2))

/-- Whether an index lies in the program (R59, R79): 2 to length + 1. -/
def Seq.holds (q : Seq) (i : Int) : Bool := decide (2 ≤ i) && decide (i ≤ (q.length : Int) + 1)

/-- Whether the step limit applies (R81): not on firmware threads. -/
def limited (c : Ctx) : Bool :=
  match c with
  | .firmware _ _ => false
  | _ => true

/-- Fetch of the instruction at the program counter of a guest thread or a wave (R59, R77, R143, R183): its fault, if any. -/
def Dev.fetch (d : Dev) (c : Ctx) (q : Seq) : Dev × Option Exc :=
  match c with
  | .guest g =>
    match d.readV (ringFn g.val) (q.byteAddr q.pc) 9 .exec with
    | (d1, .ok _) => (d1, none)
    | (d1, .error (cause, va)) =>
      (d1.excFault (ringFn g.val) cause srcFetch (ringKind g.val) va, some (memExc cause va))
  | .wave _ =>
    match d.readV (d.ctxFn c) (q.byteAddr q.pc) 9 .exec with
    | (d1, .ok _) => (d1.asked (some (d.wavePort c, 0)), none)
    | (d1, .error (cause, va)) => (d1.excFault (d.ctxFn c) cause srcEngine (d.ctxKind c) va, some (memExc cause va))
  | _ => (d, none)

/-- The checks before an instruction executes: step limit, program counter, fetch, decode (R49, R51, R59, R81). Where both hold, EX_STEPS
comes before EX_PC (DESIGN CHOICE, log entry 116). -/
def Dev.precheck (d : Dev) (c : Ctx) (sh : Shape) (w : Insn) (q : Seq) : Dev × Option Exc :=
  if limited c && decide (q.limit ≤ q.steps) then (d, some (exc 0x09))
  else if !q.holds q.pc then (d, some exPc)
  else
    match d.fetch c q with
    | (d1, some e) => (d1, some e)
    | (d1, none) => (d1, (w.decodeExc sh c).map (fun x => exc x.toNat))

/-- Whether an instruction with the bank's predicate executes. Vector instructions, and every instruction of a slice that
is no control transfer, judge the predicate lane by lane instead (R168, R345). -/
def Dev.predicate (d : Dev) (c : Ctx) (sh : Shape) (w : Insn) (control : Bool) : Bool :=
  match c with
  | .slice n => !control || (d.slice n.val).seq.bank.holds w
  | .wave i => if sh.prof = .v then true else match d.wave i with | some x => x.seq.bank.holds w | none => false
  | _ => match d.seq c with | some q => q.bank.holds w | none => false

/-- The program goes on (R59): to the next index, or to one inside the program, else EX_PC. -/
def Dev.proceed (d : Dev) (c : Ctx) (f : Flow) : Dev :=
  match f with
  | .next => d.updSeq c (fun q => { q with pc := q.pc + 1 })
  | .goto i =>
    match d.seq c with
    | some q => if q.holds i then d.updSeq c (fun q => { q with pc := i.toNat }) else d.raise c exPc
    | none => d
  | .stay => d
  | .done => d

/-- A context under halt has used the step that it was given (R514). -/
def Dev.unstep (d : Dev) (c : Ctx) : Dev :=
  if d.probe.stepping.contains c then { d with probe := { d.probe with stepping := d.probe.stepping.filter (fun x => x ≠ c) } } else d

/-- One instruction on a context (R47, R49, R59, R81): nothing when the context cannot issue; the exception of the checks;
nothing but a step when the predicate does not hold; else its effect, and where the program goes. -/
def issue (c : Ctx) (sh : Shape) (w : Insn) (control : Bool) (eff : Dev → Dev × Except Exc Flow) (d : Dev) : Dev :=
  if !d.canIssue c then d
  else
    match d.seq c with
    | none => d
    | some q =>
      match (d.unstep c).precheck c sh w q with
      | (d1, some e) => d1.raise c e
      | (d1, none) =>
        let d2 := d1.updSeq c (fun q => { q with steps := q.steps + 1 })
        if !d2.predicate c sh w control then d2.proceed c .next
        else
          match eff d2 with
          | (d3, .error e) => d3.raise c e
          | (d3, .ok f) => d3.proceed c f

/-! Scalar instructions. -/

/-- An operation on each lane of a slice whose predicate holds (R345). -/
def banksApply (w : Insn) (h : Bank → Except Exc Bank) (l : List Bank) : Except Exc (List Bank) :=
  match l with
  | [] => .ok []
  | b :: r =>
    match (if b.holds w then h b else .ok b) with
    | .error e => .error e
    | .ok b1 => match banksApply w h r with | .error e => .error e | .ok t => .ok (b1 :: t)

/-- An operation on the bank of a context, or on the eight banks of a slice. -/
def Dev.onBank (d : Dev) (c : Ctx) (w : Insn) (h : Bank → Except Exc Bank) : Dev × Except Exc Flow :=
  match c with
  | .slice n =>
    let x := d.slice n.val
    match banksApply w h (x.seq.bank :: x.others) with
    | .error e => (d, .error e)
    | .ok l => (d.setSlice n.val { x with seq := { x.seq with bank := l.headD x.seq.bank }, others := l.tail }, .ok .next)
  | _ =>
    match d.seq c with
    | none => (d, .ok .next)
    | some q =>
      match h q.bank with
      | .error e => (d, .error e)
      | .ok b => (d.updSeq c (fun q => { q with bank := b }), .ok .next)

/-- A scalar instruction: a change of the registers of a bank, and nothing else (R57, R58). -/
def scalar (c : Ctx) (sh : Shape) (w : Insn) (h : Bank → Except Exc Bank) (d : Dev) : Dev :=
  issue c sh w false (fun d => d.onBank c w h) d

/-- A scalar instruction that writes dst with a value computed from the bank. -/
def scalarD (c : Ctx) (sh : Shape) (w : Insn) (h : Bank → W72) (d : Dev) : Dev := scalar c sh w (fun b => .ok (b.wr w.d (h b))) d

/-- A scalar instruction that writes a predicate register. -/
def scalarK (c : Ctx) (sh : Shape) (w : Insn) (h : Bank → Bool) (d : Dev) : Dev := scalar c sh w (fun b => .ok (b.wrK w.kd (h b))) d

/-- The bank of a context that control transfers and memory instructions read. -/
def Dev.bank (d : Dev) (c : Ctx) : Bank := match d.seq c with | some q => q.bank | none => .entry

/-- A register of a context written: every lane's register on a slice. -/
def Dev.wrReg (d : Dev) (c : Ctx) (n : Nat) (v : W72) : Dev :=
  match c with
  | .slice k =>
    let x := d.slice k.val
    d.setSlice k.val { x with seq := { x.seq with bank := x.seq.bank.wr n v }, others := x.others.map (fun b => b.wr n v) }
  | _ => d.updSeq c (fun q => { q with bank := q.bank.wr n v })

end Sys2Proof.Machine
end

