-- ==== Sys2Proof/Machine/Objects.lean ====
section
/-! DEFINITION. The catalogue of state objects (R117) and the checks of a commit (R27, R111, R112, R118): ownership, apply
point, field ranges, and the cross-field rules of each class. -/

namespace Sys2Proof.Machine

/-! What may be written. -/

/-- The bits of [hi:lo]. -/
def ones (hi lo : Nat) : Nat := (2 ^ (hi + 1 - lo) - 1) * 2 ^ lo

/-- The status words of a class, which no commit writes. -/
def isStatusWord (cls w : Nat) : Bool :=
  match cls with
  | 0x01 => decide (12 ≤ w)
  | 0x02 => decide (28 ≤ w) && decide (w ≤ 30)
  | 0x03 => decide (20 ≤ w)
  | 0x04 => decide (14 ≤ w)
  | 0x05 => decide (58 ≤ w)
  | 0x06 => decide (12 ≤ w)
  | 0x07 => decide (28 ≤ w)
  | 0x08 => decide (6 ≤ w)
  | 0x09 => decide (28 ≤ w)
  | 0x0A => decide (12 ≤ w)
  | _ => false

/-- The bits of a field word that are neither reserved nor marked zero (R117, R152, R153, R228, R237, R255, R273, R304,
R325, R337, R360, R364, R369). R364 does not say whether the bits of words 2 to 47 of an AUDIO_NODE that its type does not name are
reserved: any value of them is accepted (DESIGN CHOICE, log entry 122). -/
def fieldMask (cls inst w : Nat) : Nat :=
  if w = 0 then 0x3F else
  match cls with
  | 0x01 => nth [0, ones 31 12, ones 47 7, ones 47 25, ones 39 23] w 0
  | 0x02 => nth [0, ones 23 12 + ones 10 8 + ones 6 4 + ones 1 0, ones 63 0, ones 71 0, ones 35 0, ones 7 0, ones 53 0, ones 25 0] w 0
  | 0x03 =>
    nth [0, ones 31 26 + ones 23 9 + 1, ones 55 0, ones 55 0, ones 17 0, ones 17 0, ones 71 0, ones 71 0, ones 71 0, ones 71 0, ones 35 0, ones 71 0] w 0
  | 0x04 => nth [0, ones 7 0, ones 47 0, ones 28 0, ones 27 0, ones 27 0, ones 71 0, ones 47 0, ones 55 0, ones 4 0, ones 63 0] w 0
  | 0x05 => if w = 1 then ones 15 10 + 1 else if w ≤ 47 then ones 71 0 else 0
  | 0x06 =>
    if w = 1 then (if inst < 8 then ones 31 15 else if inst < 10 then ones 31 31 + ones 7 0 else ones 31 31 + 1)
    else if w = 2 ∧ inst < 8 then ones 31 0 else 0
  | 0x07 => nth [0, ones 31 30, ones 71 0, ones 71 0, ones 71 20 + 1] w 0
  | 0x08 => nth [0, ones 31 15 + ones 7 0, ones 55 0] w 0
  | 0x09 => nth [0, ones 31 20 + ones 16 8 + ones 6 0, ones 47 32 + ones 15 0, ones 71 0, ones 71 0, ones 71 0, ones 35 8 + ones 3 0, ones 63 20] w 0
  | 0x0A => nth [0, ones 31 7, ones 63 0, ones 63 0, ones 63 0, ones 55 0, ones 53 0, ones 63 0] w 0
  | 0x0B => if w = 1 then ones 31 0 else 0
  | 0x0C => if w = 1 then ones 15 8 + ones 3 0 else 0
  | _ => 0

/-- The tap codes of R371: none, pipe outputs, Vitrine arrival, host ingress, DMA, audio sinks. -/
def isTap (t : Nat) : Bool := t ≤ 0x0C || t = 0x10 || (0x20 ≤ t && t ≤ 0x23) || t = 0x30 || (0x40 ≤ t && t ≤ 0x47)

/-- Whether a field word holds no reserved encoding and every value lies in its range (R16). R364 neither lists the AUDIO_NODE TYPE codes 12
to 31 nor calls them reserved: they fail as reserved encodings do (DESIGN CHOICE, log entry 122). -/
def fieldRange (cls inst w : Nat) (v : W72) : Bool :=
  let f (lo n : Nat) := fld v lo n
  if w = 0 then true else
  match cls, w with
  | 0x01, 1 => f 16 4 < 12
  | 0x01, 2 => f 33 4 < 11
  | 0x01, 3 => f 43 2 < 3
  | 0x02, 1 => (1 ≤ f 16 8 && 1 ≤ f 12 4 && 1 ≤ f 8 3) && (f 4 3 < 6 && f 0 2 < 3)
  | 0x02, 5 => f 4 2 < 3 && f 2 2 < 3
  | 0x03, 1 => f 29 3 < 6 && f 27 2 < 3
  | 0x04, 1 => f 4 4 < 6
  | 0x05, 1 => f 10 6 < 12 || 32 ≤ f 10 6
  | 0x06, 1 => if inst < 8 then f 24 4 < 9 && f 22 2 < 3 else if inst < 10 then f 4 4 < 2 else true
  | 0x08, 1 => f 25 4 < 12
  | 0x09, 1 => f 28 3 < 4 && f 26 2 < 2 && f 22 4 < 12 && f 8 9 ≤ 500
  | 0x09, 2 => (f 40 8 = 0 || (4 ≤ f 40 8 && f 40 8 ≤ 64)) && (f 32 8 = 0 || (4 ≤ f 32 8 && f 32 8 ≤ 64))
  | 0x09, 6 => 1 ≤ f 12 8 && 1 ≤ f 8 4 && 1 ≤ f 0 4 && f 0 4 ≤ 10
  | 0x09, 7 => 4 ≤ f 20 4 && f 20 4 ≤ 12
  | 0x0A, 1 => isTap (f 24 7) && f 20 4 < 7 && f 17 3 < 5 && (f 7 6 = 0 || 7 ≤ f 7 6)
  | 0x0C, 1 => 1 ≤ f 8 8 && f 8 8 ≤ 90 && f 2 2 < 3
  | _, _ => true

/-- Whether class, instance and field word exist (R117). -/
def keyExists (k : Nat) : Bool := match classInfo (keyCls k) with | some (n, m) => decide (keyInst k < n) && decide (keyWord k < m) | none => false
def instExists (k : Nat) : Bool := match classInfo (keyCls k) with | some (n, _) => decide (keyInst k < n) | none => false

/-! Projected state. -/

/-- The values of all field words under some view of the device. -/
abbrev View := Nat → Nat → Nat → W72

/-- The last pending write of a key, commits in the order in which they apply (R112, R114). -/
def pendingValue (l : List Commit) (k : Nat) : Option W72 := l.foldl (fun acc c => match tfind c.writes k with | some v => some v | none => acc) none

/-- The projected state (R112). -/
def Dev.projected (d : Dev) : View := fun cls inst w => (pendingValue d.commits (objKey cls inst w)).getD (d.obj cls inst w)

/-- A view overlaid with a commit's writes. -/
def View.overlay (v : View) (writes : List (Nat × W72)) : View := fun cls inst w => (tfind writes (objKey cls inst w)).getD (v cls inst w)

/-- The function whose handle table a handle field is taken from (R229): the last commit that writes the word. -/
def Dev.handleFn (d : Dev) (k : Nat) : Nat :=
  d.commits.foldl (fun acc c => match tfind c.writes k with | some _ => ringFn c.ring | none => acc) (tget d.comp.slotFn k d.manager)

/-! Cross-field rules, class by class: the view v is the projected state overlaid with the commit of function f. -/

/-- A registered handle of a function. -/
def Dev.registered (d : Dev) (f h : Nat) : Bool := h ≠ 0 && (d.handle (256 * f + h)).state = .registered
def Dev.handleSurf (d : Dev) (f h : Nat) : Surf := surfOfList (d.handle (256 * f + h)).words

/-- The lines of a strip by STRIP_LINES (R237). -/
def stripLines (c : Nat) : Nat := nth [16, 32, 48, 64, 96, 128] c 16

/-- The size of a strip ring (R245). -/
def ringSize (w1 : W72) (width : Nat) : Nat := (fld w1 8 3 + 1) * stripLines (fld w1 4 3) * (ceilDiv width 64 * 576)

/-- The size of the chase partition (R388). -/
def chaseSize (r : Dram) : Nat := r.chaseWays * 2 ^ 21

/-- The active width that a pipe's projected timing names; zero where the mode is none or not VALID (R245). -/
def Dev.modeWidth (d : Dev) (v : View) (p : Nat) : Nat :=
  let t := timingOf (d.modeEntry (fld (v 0x01 p 1) 20 10))
  if t.valid then t.hact else 0

/-- The active width of pipe p's ring once the commits of a list have applied (R245): what the last of them that sized it fixed. -/
def Dev.ringWidth (d : Dev) (l : List Commit) (p : Nat) : Nat := l.foldl (fun w c => tget c.widths p w) (d.pc p).ringW

/-- The bytes of pipe p's strip ring once the commits of a list have applied; none unless MODE is CHASE then (R245). -/
def Dev.ringBytes (d : Dev) (l : List Commit) (p : Nat) : Nat :=
  let w1 := (pendingValue l (objKey 0x02 p 1)).getD (d.obj 0x02 p 1)
  if fld w1 0 2 = 2 then ringSize w1 (d.ringWidth l p) else 0

/-- The bytes of the ring that pipe p holds, in applied state or in a pending commit: the most of them (R245, R415). -/
def Dev.ringHeld (d : Dev) (p : Nat) : Nat :=
  ((List.range (d.commits.length + 1)).map (fun n => d.ringBytes (d.commits.take n) p)).foldl Nat.max 0

/-- Whether a chase partition keeps every ring that is held (R415). -/
def Dev.ringsKept (d : Dev) (r : Dram) : Bool := decide (((List.range 12).map d.ringHeld).foldl (· + ·) 0 ≤ chaseSize r)

/-- Whether a commit sizes the ring of pipe p anew: it writes MODE, STRIP_LINES and STRIP_DEPTH and leaves CHASE. -/
def sizesRing (writes : List (Nat × W72)) (p : Nat) : Bool :=
  match tfind writes (objKey 0x02 p 1) with | some x => fld x 0 2 = 2 | none => false

/-- The bytes of pipe p's ring in the view of a commit with these writes (R245). -/
def Dev.ringIn (d : Dev) (v : View) (writes : List (Nat × W72)) (p : Nat) : Nat :=
  if fld (v 0x02 p 1) 0 2 = 2 then ringSize (v 0x02 p 1) (if sizesRing writes p then d.modeWidth v p else d.ringWidth d.commits p) else 0

/-- Whether the rings that the pipes hold in the projected state fit the chase partition (R245). -/
def Dev.ringsFit (d : Dev) (v : View) (writes : List (Nat × W72)) : Bool :=
  decide (((List.range 12).map (d.ringIn v writes)).foldl (· + ·) 0 ≤ chaseSize d.dram)

/-- F18 comparisons; a NaN fails each. -/
def lt18 (a b : Nat) : Bool := f18.cmp 2 a b
def le18 (a b : Nat) : Bool := f18.cmp 3 a b

/-- R241: the frame buffers are handles of function f, the LUT is one of function g. -/
def Dev.checkLayout (d : Dev) (v : View) (writes : List (Nat × W72)) (f g p : Nat) : Bool :=
  let w (i : Nat) := v 0x02 p i
  let mode := fld (w 1) 0 2
  let fa := fld (w 4) 0 8
  let fb := fld (w 4) 8 8
  let frameOk (h : Nat) : Bool :=
    let s := d.handleSurf f h
    d.registered f h && (s.format = 0x01 || s.format = 0x06) && decide (s.layout ≤ 2)
  let lut := fld (w 7) 0 8
  let ls := d.handleSurf g lut
  let lutOk := d.registered g lut && ls.format = 0x01 && ls.layout = 0 && ls.width = 33 && ls.height = 1089
  let knee := fld (w 6) 36 18
  let pout := fld (w 6) 18 18
  let pin := fld (w 6) 0 18
  let toneOk := le18 0 knee && lt18 knee one18 && lt18 pout pin && lt18 0 pout
  let perm := (List.range 16).all (fun s => (List.range 16).any (fun k => fld (w 2) (4 * k) 4 = s))
  let enc (x : W72) := fld x 2 6
  (mode = 0 || (fa ≠ fb && frameOk fa && frameOk fb)) && (!bit (w 5) 1 || lutOk) && (!bit (w 5) 0 || toneOk) && perm &&
    (mode ≠ 2 || d.ringsFit v writes) && (enc (w 5) = enc (d.projected 0x02 p 5) || (List.range 4).all (fun i => !bit (v 0x04 (4 * p + i) 1) 2))

/-- R230. -/
def Dev.checkSlot (d : Dev) (v : View) (writes : List (Nat × W72)) (f s : Nat) : Bool :=
  let w (i : Nat) := v 0x03 s i
  if !bit (w 1) 0 then true
  else
    let hf := match tfind writes (objKey 0x03 s 1) with | some _ => f | none => d.handleFn (objKey 0x03 s 1)
    let h := fld (w 1) 16 8
    let u := d.handleSurf hf h
    let rect (x : W72) (i : Nat) := fld x (14 * i) 14
    let sw := rect (w 2) 2 + 1
    let sh := rect (w 2) 3 + 1
    let dw := rect (w 3) 2 + 1
    let dh := rect (w 3) 3 + 1
    let tr := bit (w 1) 13
    let scaleOk (dst src : Nat) : Bool := decide (src ≤ 8 * dst) && decide (dst ≤ 16 * src)
    let ycc := u.format = 0x07 || u.format = 0x08
    d.registered hf h && (decide (rect (w 2) 0 + sw ≤ u.width) && decide (rect (w 2) 1 + sh ≤ u.height)) &&
      (scaleOk dw (if tr then sh else sw) && scaleOk dh (if tr then sw else sh)) &&
      (fld (w 1) 29 3 = 0 || u.format = 0x02 || u.format = 0x06 || ycc) && (ycc || fld (w 1) 26 3 = 0) &&
      (le18 0 (fld (w 4) 0 18) && le18 (fld (w 4) 0 18) one18)

/-- The surface format of a plane's FORMAT code (R255). -/
def planeFormat (c : Nat) : Nat := nth [0x01, 0x02, 0x03, 0x09, 0x0A, 0x0B] c 0x01

/-- The bytes of a plane row. -/
def planeRow (fmt width : Nat) : Nat := if planeFormat fmt = 0x0B then (width + 1) / 2 else width * elemBytes (planeFormat fmt)

/-- The pages, by number, of the n bytes at an address. -/
def pagesOf (va n : Nat) : List Nat := if n = 0 then [] else (List.range ((va + n - 1) / 4096 + 1 - va / 4096)).map (fun i => va / 4096 + i)

/-- The device-virtual pages of a plane's rows and its palette (R256). -/
def planePages (v : View) (i : Nat) : List Nat :=
  let fmt := fld (v 0x04 i 1) 4 4
  let base := fld (v 0x04 i 2) 0 48
  let pitch := fld (v 0x04 i 3) 0 29
  let width := fld (v 0x04 i 4) 0 14 + 1
  let height := fld (v 0x04 i 4) 14 14 + 1
  dedup ((List.range height).flatMap (fun r => pagesOf (base + r * pitch) (planeRow fmt width)) ++
    (if fmt = 3 then pagesOf (fld (v 0x04 i 7) 0 48) 2304 else []))

/-- The state of a Vitrine page (R251): 0 UNWRITTEN, 1 PENDING, 2 CHECKED, 3 BAD. -/
def Dev.pageState (d : Dev) (pa : Nat) : Nat := (tget d.comp.pages ((pa - vitrineBase) / 4096) 0).toNat

/-- The status of a commit whose plane has a page that does not translate (R144, R256, R409): a table entry that is uncorrectable or lost has
its own, every other page is one that is not in the Vitrine. -/
def planeStatus (cause : Nat) : BitVec 8 := if cause = 0xB ∨ cause = 0xC then causeStatus cause else 0x03

/-- The translations of a plane's pages, each CHECKED in the Vitrine, or the status with which the commit fails (R256, R409). -/
def Dev.planeTranslate (d : Dev) (owner : Nat) (pages : List Nat) : Dev × Except (BitVec 8) (Tab Nat) :=
  match pages with
  | [] => (d, .ok [])
  | g :: r =>
    match d.translate owner (g % 2 ^ 36 * 4096) .read with
    | (d1, .error cause) => (d1, .error (planeStatus cause))
    | (d1, .ok pa) =>
      if regionOf d1.dram pa = .vitrine && d1.pageState pa = 2 then
        (match d1.planeTranslate owner r with
         | (d2, .ok t) => (d2, .ok (tset t g (pa / 4096)))
         | (d2, .error st) => (d2, .error st))
      else (d1, .error 0x03)

/-- The Vitrine address that BASE or PALETTE translates into; zero where it translates into none. -/
def Dev.planeBase (d : Dev) (owner va : Nat) : Dev × Nat :=
  match d.translate owner va .read with
  | (d1, .ok pa) => (d1, if regionOf d1.dram pa = .vitrine then pa else 0)
  | (d1, .error _) => (d1, 0)

/-- R255 and R256: the translations to hold for the plane and the address of BASE, or the status with which the commit fails. A disabled
plane holds none, and fails only by its PITCH. -/
def Dev.checkPlane (d0 : Dev) (v : View) (i : Nat) : Dev × Except (BitVec 8) (Tab Nat × Nat) :=
  let w (k : Nat) := v 0x04 i k
  let owner := fld (w 0) 0 6
  let (d1, base) := d0.planeBase owner (fld (w 2) 0 48)
  let d := (d1.planeBase owner (fld (w 7) 0 48)).1
  if fld (w 3) 0 29 % (if fld (w 1) 4 4 = 0 then 576 else 64) ≠ 0 then (d0, .error 0x03)
  else if !bit (w 1) 0 then (d, .ok ([], base))
  else
    let width := fld (w 4) 0 14 + 1
    let height := fld (w 4) 14 14 + 1
    let r := w 8
    let u := fld (w 9) 0 5
    let checkOk :=
      !bit (w 1) 2 ||
      (decide (fld r 0 14 + fld r 28 14 + 1 ≤ width) && decide (fld r 14 14 + fld r 42 14 + 1 ≤ height) &&
       fld (v 0x0A u 0) 0 6 = owner && bit (v 0x0A u 1) 31 && fld (v 0x0A u 1) 24 7 = i / 4 + 1 &&
       (List.range 48).all (fun j => j = i || !bit (v 0x04 j 1) 2 || fld (v 0x04 j 9) 0 5 ≠ u))
    if !checkOk then (d, .error 0x03)
    else
      match d.planeTranslate owner (planePages v i) with
      | (d2, .ok t) => (d2, .ok (t, base))
      | (d2, .error st) => (d2, .error st)

/-- PROV permitted for a tap (R371). -/
def provOk (kind prov : Nat) : Bool :=
  match kind with
  | 1 => prov = 0 || prov = 3 || prov = 4
  | 2 => prov = 1
  | 3 => prov = 0 || prov = 1
  | 4 => prov = 0 || prov = 1 || prov = 2
  | 5 => prov = 0 || prov = 3
  | _ => false

/-- R370, and the ranges of SCOPE that rest on the tap (R369). -/
def Dev.checkCvu (d : Dev) (v : View) (u : Nat) : Bool :=
  let w (i : Nat) := v 0x0A u i
  let en := bit (w 1) 31
  let tap := fld (w 1) 24 7
  let then_ (n i k : Nat) : W72 := (pendingValue (d.commits.take n) (objKey 0x04 i k)).getD (d.obj 0x04 i k)
  let named := (List.range (d.commits.length + 1)).any (fun n => (List.range 48).any (fun i => bit (then_ n i 1) 2 && fld (then_ n i 9) 0 5 = u))
  let keeps := !named || (en && tap = fld (d.projected 0x0A u 1) 24 7)
  let wd := fld (w 1) 7 6 + 1
  let params := if fld (w 1) 20 4 = 0 then 7 ≤ fld (w 1) 7 6 && (fld (w 2) 0 64 < 2 ^ wd && fld (w 3) 0 64 < 2 ^ wd && fld (w 4) 0 64 < 2 ^ wd) && bit (w 2) 0
    else fld (w 1) 7 8 = 0 && w 2 = 0 && w 3 = 0 && w 4 = 0
  let kind := tapKind tap
  let owner := fld (w 0) 0 6
  let same (j : Nat) : Bool :=
    fld (v 0x0A j 1) 20 4 = fld (w 1) 20 4 && fld (v 0x0A j 1) 7 8 = fld (w 1) 7 8 && v 0x0A j 2 = w 2 && v 0x0A j 3 = w 3 && v 0x0A j 4 = w 4
  let tapRule :=
    if kind = 2 then owner = d.manager && (List.range 32).all (fun j => j = u || !bit (v 0x0A j 1) 31 || fld (v 0x0A j 1) 24 7 ≠ 0x10 || same j)
    else if kind = 3 then
      let sf := fld (w 6) 48 6
      sf / 16 = tap - 0x20 && (owner = sf || owner = 16 * (sf / 16) || owner = d.manager) && 1 ≤ fld (w 6) 0 48
    else if kind = 5 then fld (w 5) 16 16 &&& fld (v 0x06 (tap - 0x40) 2) 16 16 = fld (w 5) 16 16 && 1 ≤ fld (w 5) 0 16
    else true
  keeps && (kind = 3 || w 6 = 0) && (!en || (params && kind ≠ 0 && provOk kind (fld (w 1) 17 3) && tapRule))

/-- R305, and the fields that are zero for the other kind (R304). -/
def checkTouch (v : View) (c : Nat) : Bool :=
  let w (i : Nat) := v 0x09 c i
  let tr := fld (w 1) 28 3
  let rows := fld (w 2) 40 8
  let cols := fld (w 2) 32 8
  let tunnelled (j : Nat) : Bool := bit (v 0x09 j 1) 31 && fld (v 0x09 j 1) 28 3 = 3 && fld (v 0x09 j 1) 20 2 = fld (w 1) 20 2
  !bit (w 1) 31 ||
  ((1 ≤ fld (w 1) 8 9 && fld (w 1) 8 9 ≤ nth [10, 125, 500, 10] tr 0) && (tr ≠ 3 || decide ((indices 12 tunnelled).length ≤ 3)) &&
   (tr ≠ 2 || fld (w 1) 0 7 = 0) &&
   (if fld (w 1) 26 2 = 1 then rows ≠ 0 && cols ≠ 0 && rows * cols ≤ 2560 && fld (w 7) 32 16 ≤ fld (w 7) 48 16 && 0 < fld (w 7) 24 8 && fld (w 2) 0 16 = 0
    else rows = 0 && cols = 0))

/-- R326. -/
def checkChannel (v : View) (c : Nat) : Bool :=
  let w (i : Nat) := v 0x07 c i
  let f (i lo : Nat) := fld (w i) lo 18
  let finite (x : Nat) : Bool := le18 0 x && lt18 x 0x1F800
  let int18 (n : Nat) : Nat := f18OfFrac n 1
  !bit (w 1) 31 ||
  (lt18 0 (f 2 0) && lt18 0 (f 3 54) && le18 (f 3 54) one18 && finite (f 2 54) && finite (f 2 36) && finite (f 2 18) &&
   (if c < 12 then w 4 = 0
    else le18 (int18 50) (f 3 18) && le18 (f 3 18) (int18 500) && le18 one18 (f 3 0) && le18 (f 3 0) (int18 100) && lt18 0 (f 3 36) &&
      le18 one18 (f 4 54) && le18 (f 4 54) (int18 4) && le18 0 (f 4 36) && le18 (f 4 36) (int18 4) && fld (w 4) 28 8 ≤ 48 &&
      (1 ≤ fld (w 4) 20 8 && fld (w 4) 20 8 ≤ 72)))

/-- The check of a zone left enabled (R337). -/
def Dev.checkZone (d : Dev) (v : View) (z : Nat) : Bool :=
  let w1 := v 0x08 z 1
  let owner := fld (v 0x08 z 0) 0 6
  !bit w1 31 || (fld w1 29 2 ≠ 0 && fld (v 0x07 (fld w1 21 4) 0) 0 6 = owner && (d.effSlot (fld w1 15 6)).holder = some owner)

/-- The rates of a port, in Hz, and slot counts and widths (R360). -/
def portRate (c : Nat) : Nat := nth [8000, 16000, 32000, 44100, 48000, 88200, 96000, 176400, 192000] c 8000
def portSlots (c : Nat) : Nat := nth [2, 4, 8, 16] c 2
def slotWidth (c : Nat) : Nat := nth [16, 24, 32] c 16

/-- The check of a TDM port left enabled (R360). -/
def checkAudioPort (v : View) (i : Nat) : Bool :=
  let w1 := v 0x06 i 1
  let slots := portSlots (fld w1 28 2)
  let sw := slotWidth (fld w1 22 2)
  let rate := portRate (fld w1 24 4)
  decide (8 ≤ i) || !bit w1 31 ||
  (nth [16, 20, 24, 32] (fld w1 20 2) 16 ≤ sw && fld (v 0x06 i 2) 16 16 < 2 ^ slots && fld (v 0x06 i 2) 0 16 < 2 ^ slots &&
   slots * sw * rate ≤ 24576000 && (!bit w1 15 || 256 * rate ≤ 24576000))

/-- A node of the running graph. -/
def Dev.gnode (d : Dev) (n : Nat) : Option GNode := match d.audio.graph with | some g => g.nodes.find? (fun x => x.node = n) | none => none

/-- The check of a node (R364). -/
def Dev.checkNode (d : Dev) (v : View) (n : Nat) : Bool :=
  let w (i : Nat) := v 0x05 n i
  let t := fld (w 1) 10 6
  let loading := match d.audio.loaded with | some (g, _, _) => g.nodes.any (fun x => x.node = n) | none => false
  let stays := t = fld (d.projected 0x05 n 1) 10 6 || ((d.gnode n).isNone && !loading)
  let rateOk := 8000 ≤ fld (w 2) 16 20 && fld (w 2) 16 20 ≤ 192000
  let ch := match d.gnode n with | some x => x.channels | none => 1
  let slotsOk := fld (w 2) 4 5 + ch ≤ (if 8 ≤ fld (w 2) 0 4 then 4 else 16)
  let sec (s : Nat) : Bool :=
    let a1 := s36Val (fld (w (4 + 3 * s)) 36 36)
    let a2 := s36Val (fld (w (5 + 3 * s)) 0 36)
    decide (a2.natAbs < 2 ^ 31) && decide ((a1.natAbs : Int) < 2 ^ 31 + a2)
  let fields :=
    match t with
    | 1 => rateOk && 1000 ≤ fld (w 3) 0 17 && fld (w 3) 0 17 ≤ 100000
    | 2 => fld (w 2) 0 6 < 32 && rateOk
    | 3 => fld (w 2) 0 4 ≤ 9 && slotsOk
    | 4 => fld (w 2) 0 4 ≤ 7 && slotsOk
    | 5 => fld (w 6) 0 8 ≤ 50
    | 6 => fld (w 10) 0 8 ≤ 50
    | 7 => (List.range (fld (w 2) 0 3 + 1)).all sec
    | 8 => match d.gnode n with | some x => fld (w 2) 0 14 < x.delayLen | none => true
    | 9 =>
      0 ≤ s36Val (fld (w 2) 0 36) && s36Val (fld (w 2) 0 36) ≤ 2 ^ 31 && (0x08000000 ≤ fld (w 2) 36 36 && fld (w 2) 36 36 ≤ 0x80000000) &&
        (10 ≤ fld (w 3) 24 24 && fld (w 3) 24 24 ≤ 1000000) && (1000 ≤ fld (w 3) 0 24 && fld (w 3) 0 24 ≤ 10000000)
    | 10 =>
      (20000 ≤ fld (w 2) 0 32 && fld (w 2) 0 32 ≤ 20000000) && 0 ≤ s36Val (fld (w 2) 36 36) && s36Val (fld (w 2) 36 36) ≤ 2 ^ 31
    | _ => true
  stays && fields

/-- The usable link rate in bit/s times 100 × 7, and whether the link fields are valid for the port class (R267, R268). -/
def Dev.linkUsable (d : Dev) (q : Nat) (w2 : W72) : Option Nat :=
  let lr := fld w2 38 10
  let cphy := bit w2 37
  let rate := fld w2 33 4
  let lanes := fld w2 30 3
  if q < 4 then
    (if lr ≠ 0 ∨ cphy ∨ !(lanes = 1 || lanes = 2 || lanes = 4) ∨ 11 ≤ rate ∨ (7 ≤ rate ∧ !(d.dport q).edp) then none
     else some (lanes * nth [1620, 2700, 5400, 8100, 10000, 13500, 20000, 2160, 2430, 3240, 4320] rate 0 * 1000000 * (if 4 ≤ rate ∧ rate ≤ 6 then 96 else 80) * 7))
  else if q < 8 then
    (if lr ≠ 0 ∨ cphy ∨ lanes ≠ 0 ∨ rate = 0 ∨ 6 ≤ rate then none else some (nth [0, 2000, 4000, 8000, 12000, 16000] rate 0 * 1000000 * 90 * 7))
  else
    (if rate ≠ 0 ∨ lanes = 0 ∨ (if cphy then 4 else 5) ≤ lanes ∨ lr < 8 ∨ (if cphy then 600 else 450) < lr then none
     else some (lanes * lr * 10000000 * 95 * (if cphy then 16 else 7)))

/-- The pixel clock of a timing, in Hz times 1001 (R276). -/
def pclk1001 (t : Timing) (frac : Bool) : Nat := if frac then t.pclk * 1000 else t.pclk * 1001

/-- Bits per channel by DEPTH code. -/
def depthBits (c : Nat) : Nat := nth [8, 10, 12] c 8

/-- Items 3 and 4 of R274 on an enabled pipe. Of a disabled pipe, whose words provisioning may leave zero, the link fields state no link. -/
def Dev.checkLink (d : Dev) (v : View) (p : Nat) : Bool :=
  let w (i : Nat) := v 0x01 p i
  let k := pclk1001 (timingOf (d.modeEntry (fld (w 1) 20 10))) (bit (w 1) 30)
  decide (k ≤ 1500000000 * 1001) &&
  (match d.linkUsable (fld (w 1) 16 4) (w 2) with
   | none => false
   | some u => decide (k * (if bit (w 2) 29 then fld (w 2) 17 10 else 48 * depthBits (fld (v 0x02 p 5) 4 2)) * 700 ≤ u * 1001 * 16))

/-- Items 8 and 9 of R274 on any pipe. -/
def Dev.checkDsc (d : Dev) (v : View) (p : Nat) : Bool :=
  let w2 := v 0x01 p 2
  let t := timingOf (d.modeEntry (fld (v 0x01 p 1) 20 10))
  let bpp := fld w2 17 10
  let slices := fld w2 27 2
  let sh := fld w2 7 10
  if bit w2 29 then
    decide (128 ≤ bpp) && decide (bpp ≤ 48 * depthBits (fld (v 0x02 p 5) 4 2)) && t.hact % 2 ^ slices = 0 && sh ≠ 0 && t.vact % sh = 0 &&
      (t.panelBpp = 0 || (bpp = t.panelBpp && slices = t.panelSlices && sh = t.panelSliceH))
  else t.panelBpp = 0

/-- The bandwidth and DSC conditions of R274, to which a PIPE_LAYOUT commit is subject too. -/
def Dev.checkBand (d : Dev) (v : View) : Bool :=
  let on := indices 12 (fun p => bit (v 0x01 p 1) 31)
  let clk (p : Nat) := pclk1001 (timingOf (d.modeEntry (fld (v 0x01 p 1) 20 10))) (bit (v 0x01 p 1) 30)
  on.all (d.checkLink v) && (List.range 12).all (d.checkDsc v) && decide ((on.map clk).foldl (· + ·) 0 ≤ 8000000000 * 1001)

/-- Items 5 to 7 of R274 on any pipe. -/
def Dev.checkPipe (d : Dev) (v : View) (p : Nat) : Bool :=
  let w (i : Nat) := v 0x01 p i
  let t := timingOf (d.modeEntry (fld (w 1) 20 10))
  let q := fld (w 1) 16 4
  let k := pclk1001 t (bit (w 1) 30)
  let total := t.htotal * t.vtotal * nth [1, 2, 4] (fld (w 3) 43 2) 4 * 1001
  let timing := bit (w 1) 15
  let cmd := bit (w 1) 12
  (!(timing || bit (w 1) 14) || (decide (q < 4) && !(timing && bit (w 1) 14))) &&
  (!timing || (k ≠ 0 && decide (23976 * total ≤ k * 1000) && decide (k ≤ 240 * total))) &&
  (!cmd || decide (8 ≤ q)) && (decide (q < 8) || ((!t.cmdOnly || cmd) && !(t.videoOnly && cmd))) &&
  (!bit (w 1) 13 || (decide (q < 4) && (d.dport q).edp) || cmd)

/-- R274, in the projected state of every pipe. -/
def Dev.checkTiming (d : Dev) (v : View) : Bool :=
  let on := indices 12 (fun p => bit (v 0x01 p 1) 31)
  let port (p : Nat) := fld (v 0x01 p 1) 16 4
  let te (p : Nat) := fld (v 0x01 p 4) 24 2
  let cmd (p : Nat) := bit (v 0x01 p 1) 12
  let entry (p : Nat) := timingOf (d.modeEntry (fld (v 0x01 p 1) 20 10))
  on.all (fun p => (entry p).valid && bit (BitVec.ofNat 4 (entry p).ports) (port p / 4)) && on.all (fun p => on.all (fun r => p = r || port p ≠ port r)) &&
    (List.range 12).all (fun p => (List.range 12).all (fun r => p = r || !(cmd p && cmd r && te p = te r))) &&
    (List.range 12).all (d.checkPipe v) && d.checkBand v

/-- The weight of a class of a function (R153): 0 RASTER, 1 COMPOSE, 2 DMA, 3 AUDIO. -/
def weightOf (v : View) (f k : Nat) : Nat := fld (v 0x0B f 1) (8 * k) 8

/-- The limits that PB_SHARE_RC and PB_SHARE_DA set on the weight sums of a port (R128): 12 bits each. -/
def Budget.shareLimit (b : Budget) (k : Nat) : Nat := fld (if k < 2 then b.shareRc else b.shareDa) (if k % 2 = 0 then 0 else 16) 12

/-- R156: the weight sums of a port under its limits, for a commit of a PF that is not the manager. -/
def Dev.checkShare (d : Dev) (v : View) (f inst : Nat) : Bool :=
  let p := inst / 16
  f = d.manager || f ≠ 16 * p ||
  (List.range 4).all (fun k =>
    decide (((List.range 16).map (fun i => if d.exists_ (16 * p + i) then weightOf v (16 * p + i) k else 0)).foldl (· + ·) 0 ≤ (d.port p).inForce.shareLimit k))

/-! The classes of a PIPE_TIMING change (R297). -/

/-- 0 no change that counts, 1 SEAMLESS, 2 RELINK, 3 PORT, 4 DISABLE. -/
def Dev.timingClass (d : Dev) (o n : Nat → W72) : Nat :=
  let oe := bit (o 1) 31
  let ne := bit (n 1) 31
  let t (x : Nat → W72) := timingOf (d.modeEntry (fld (x 1) 20 10))
  if !ne then (if oe then 4 else 0)
  else if !oe || fld (o 1) 16 4 ≠ fld (n 1) 16 4 then 3
  else if pclk1001 (t o) (bit (o 1) 30) ≠ pclk1001 (t n) (bit (n 1) 30) || o 2 ≠ n 2 || (t o).hact ≠ (t n).hact || (t o).vact ≠ (t n).vact then 2
  else 1

/-- Whether a plane of the pipe must be shown, applied or pending (R299). -/
def Dev.mustShow (d : Dev) (p : Nat) : Bool :=
  (List.range 4).any (fun i =>
    let must (x : W72) : Bool := bit x 0 && bit x 1
    must (d.obj 0x04 (4 * p + i) 1) || d.commits.any (fun c => match tfind c.writes (objKey 0x04 (4 * p + i) 1) with | some x => must x | none => false))

/-- R299: a change that darkens a pipe whose plane must be shown, without the override. -/
def Dev.darkens (d : Dev) (v : View) (p : Nat) : Bool :=
  decide (2 ≤ d.timingClass (fun i => d.projected 0x01 p i) (fun i => v 0x01 p i)) && d.mustShow p && !bit d.disp.override p

/-! The checks of R111. -/

/-- The pipe that an instance belongs to. -/
def Dev.pipeOf (d : Dev) (cls inst : Nat) : Option Nat :=
  match cls with
  | 0x01 | 0x02 => some inst
  | 0x03 => some (inst / 16)
  | 0x04 => some (inst / 4)
  | 0x08 => some (fld (d.projected 0x08 inst 1) 25 4)
  | _ => none

/-- Check 2. -/
def Dev.check2 (d : Dev) (f k : Nat) : Bool := !keyExists k || d.owner (keyCls k) (keyInst k) = f || (f = d.manager && keyWord k = 0)

/-- The apply points of a class for words 1 onward (R117): 0 IMMEDIATE, 1 PIPE_VBLANK, 2 AUDIO_BLOCK, 3 EPOCH. -/
def Dev.pointOk (d : Dev) (point : BitVec 2) (pipe cls inst : Nat) : Bool :=
  match cls with
  | 0x01 | 0x02 | 0x03 | 0x04 => point = 1 && d.pipeOf cls inst = some pipe
  | 0x05 => point = 2
  | 0x06 => point = 2 || point = 0
  | 0x07 | 0x09 => point = 0 || point = 3
  | 0x08 => point = 0 || (point = 1 && d.pipeOf cls inst = some pipe)
  | 0x0A => point = 0 || point = 1
  | 0x0B => point = 3
  | 0x0C => point = 0
  | _ => false

/-- Check 3, with R118. -/
def Dev.check3 (d : Dev) (point : BitVec 2) (pipe k : Nat) (v : W72) : Bool :=
  let cls := keyCls k
  let inst := keyInst k
  keyExists k && !isStatusWord cls (keyWord k) &&
    (if keyWord k = 0 then point = 0 && d.ownerRange cls inst (fld v 0 6) else d.pointOk point pipe cls inst)

/-- The handles that a field word names (R223). -/
def handlesIn (cls w : Nat) (v : W72) : List Nat :=
  if cls = 0x03 ∧ w = 1 then [fld v 16 8] else if cls = 0x02 ∧ w = 4 then [fld v 0 8, fld v 8 8] else if cls = 0x02 ∧ w = 7 then [fld v 0 8] else []

/-- Check 4, with R223 and R299. -/
def Dev.check4 (d : Dev) (f : Nat) (view : View) (k : Nat) (v : W72) : Bool :=
  let cls := keyCls k
  let inst := keyInst k
  let w := keyWord k
  v.toNat &&& fieldMask cls inst w = v.toNat && fieldRange cls inst w v &&
    (handlesIn cls w v).all (fun h => (d.handle (256 * f + h)).state ≠ .freeing) && !(cls = 0x01 && d.darkens view inst)

/-- Check 5 on one written object, an owner field included; planes are judged apart, since they are translated. Where the commit writes no
field word of a layout, its handles stay those of the function that wrote them (R229). -/
def Dev.check5 (d : Dev) (f : Nat) (view : View) (writes : List (Nat × W72)) (k : Nat) (v : W72) : Bool :=
  let cls := keyCls k
  let inst := keyInst k
  let fields := writes.any (fun x => x.1 / 2 ^ 16 = k / 2 ^ 16 && keyWord x.1 ≠ 0)
  (keyWord k ≠ 0 || d.ownerAllowed cls inst (fld v 0 6)) &&
    (match cls with
     | 0x01 => d.checkTiming view
     | 0x02 => d.checkLayout view writes (if fields then f else d.handleFn (objKey 0x02 inst 4)) (if fields then f else d.handleFn (objKey 0x02 inst 7)) inst && d.checkBand view
     | 0x03 => d.checkSlot view writes f inst
     | 0x05 => d.checkNode view inst
     | 0x06 => checkAudioPort view inst
     | 0x07 => checkChannel view inst
     | 0x08 => d.checkZone view inst
     | 0x09 => checkTouch view inst
     | 0x0A => d.checkCvu view inst
     | 0x0B => d.checkShare view f inst
     | _ => true)

/-- Check 6: no pending commit to the object at another apply point, owner fields apart. -/
def Dev.check6 (d : Dev) (point : BitVec 2) (pipe k : Nat) : Bool :=
  keyWord k = 0 ||
  d.commits.all (fun c => (c.point = point && (point ≠ 1 || c.pipe = pipe)) || c.writes.all (fun x => x.1 / 2 ^ 16 ≠ k / 2 ^ 16 || keyWord x.1 = 0))

/-- The translations of the planes that a commit writes. -/
def Dev.checkPlanes (d : Dev) (view : View) (insts : List Nat) : Dev × Except (BitVec 8) (Tab (Tab Nat × Nat)) :=
  match insts with
  | [] => (d, .ok [])
  | i :: r =>
    match d.checkPlane view i with
    | (d1, .error st) => (d1, .error st)
    | (d1, .ok t) => match d1.checkPlanes view r with | (d2, .ok l) => (d2, .ok (tset l i t)) | (d2, .error st) => (d2, .error st)

/-- The checks of a commit in their order (R111): a status, or the planes' translations. -/
def Dev.checkCommit (d : Dev) (f : Nat) (tx : Tx) : Dev × Except (BitVec 8) (Tab (Tab Nat × Nat)) :=
  let ws := tx.shadow
  let view := View.overlay d.projected ws
  if tx.overflow then (d, .error 0x03)
  else if !ws.all (fun x => d.check2 f x.1) then (d, .error 0x11)
  else if !ws.all (fun x => d.check3 tx.point tx.pipe x.1 x.2) then (d, .error 0x10)
  else if !ws.all (fun x => d.check4 f view x.1 x.2) then (d, .error 0x10)
  else if !ws.all (fun x => d.check5 f view ws x.1 x.2) then (d, .error 0x03)
  else
    match d.checkPlanes view (dedup ((ws.filter (fun x => keyCls x.1 = 0x04)).map (fun x => keyInst x.1))) with
    | (d1, .error st) => (d1, .error st)
    | (d1, .ok t) => if ws.all (fun x => d1.check6 tx.point tx.pipe x.1) then (d1, .ok t) else (d1, .error 0x03)

end Sys2Proof.Machine
end

