-- ==== Sys2Proof/Machine/TouchOps.lean ====
section
/-! DEFINITION. The touch engine's shared operations: mapping, hit-testing and capture, zones, delivery records, and the start
of a channel (R306 to R321, R338). -/

namespace Sys2Proof.Machine

/-! Parts of the engine. -/

def Dev.hch (d : Dev) (c : Nat) : HapChan := tget d.haptic.chans c .atReset
def Dev.setHch (d : Dev) (c : Nat) (x : HapChan) : Dev := { d with haptic := { d.haptic with chans := tset d.haptic.chans c x } }

/-- The pipe a channel is bound to. -/
def Dev.touchPipe (d : Dev) (c : Nat) : Nat := fld (d.tw c 1) 22 4

/-- W and H of R312. -/
def Dev.touchSize (d : Dev) (p : Nat) : Nat × Nat := let t := d.timing p; if t.valid then (t.hact, t.vact) else (4096, 4096)

/-- An S36 element as F36. -/
def s36To36 (x : Nat) : Nat := f36.ofInt 0 (s36Val x) 31

/-- The mapped position of normalised coordinates (R312): F36 pixels. -/
def Dev.touchMap (d : Dev) (c u v : Nat) : Nat × Nat :=
  let a (w : Nat) := s36To36 (fld (d.tw c w) 36 36)
  let b (w : Nat) := s36To36 (fld (d.tw c w) 0 36)
  let u' := add36 (add36 (mul36 (a 3) u) (mul36 (b 3) v)) (a 4)
  let v' := add36 (add36 (mul36 (b 4) u) (mul36 (a 5) v)) (b 5)
  let (w, h) := d.touchSize (d.touchPipe c)
  (mul36 u' (intTo36 w), mul36 v' (intTo36 h))

/-- Whether a mapped position lies in the active area (R313). -/
def Dev.touchInside (d : Dev) (c x y : Nat) : Bool :=
  let (w, h) := d.touchSize (d.touchPipe c)
  le36 0 x && lt36 x (intTo36 w) && le36 0 y && lt36 y (intTo36 h)

/-- A position in 1/16 pixel, and in whole pixels (R260, R314). -/
def sixteenths (x : Nat) : Nat := (f36.toInt 0 x 4 0 (2 ^ 18 - 1)).toNat
def pixelOf (x : Nat) : Int := ((sixteenths x / 16 : Nat) : Int)

/-! Hit-testing. -/

/-- What a hit test finds (R260, R316): the owner, the rectangle's index, the map's frame, OLD_MAP, NO_MAP, the zones. -/
structure Hit where
  owner : Nat
  rect : Nat
  frame : Nat
  oldMap : Bool
  noMap : Bool
  zones : List MapZone
  deriving DecidableEq, Repr

/-- The maps retained for a pipe, newest first. -/
def Dev.maps (d : Dev) (p : Nat) : List Frame := ((d.pc p).frames.filter (fun f => f.stamp.isSome)).reverse.take 8

/-- The hit test of a point at a stamp (R33, R260, R316). -/
def Dev.hitTest (d : Dev) (c stamp : Nat) (x y : Int) : Hit :=
  let p := d.touchPipe c
  let maps := d.maps p
  let cur := maps.find? (fun f => decide (f.stamp.getD 0 ≤ stamp))
  match (match cur with | some f => some (f, false) | none => maps.getLast?.map (fun f => (f, true))) with
  | none => { owner := d.owner 0x09 c, rect := 31, frame := 0, oldMap := false, noMap := true, zones := [] }
  | some (f, old) =>
    if !d.pipeOn p then { owner := d.owner 0x09 c, rect := 31, frame := 0, oldMap := false, noMap := true, zones := [] }
    else
      let n := f.map.length
      let inside (i : Nat) : Bool :=
        match f.map[i]? with
        | some r => decide (r.x0 ≤ x) && decide (x ≤ r.x1) && decide (r.y0 ≤ y) && decide (y ≤ r.y1) && !r.pass
        | none => false
      match ((List.range n).reverse).find? inside with
      | some i => { owner := (f.map[i]?.map (fun r => r.owner)).getD 0, rect := i, frame := f.n, oldMap := old, noMap := false, zones := f.zones }
      | none => { owner := f.layoutOwner, rect := 31, frame := f.n, oldMap := old, noMap := false, zones := f.zones }

/-! Delivery. -/

/-- The delivery record's fields (R321), SEQ and OVERFLOW apart. -/
def touchRec (event c stamp x y num rect zone flags pipe frame pressure width height : Nat) : List W72 :=
  [BitVec.ofNat 72 (event * 2 ^ 68 + c * 2 ^ 64 + stamp % 2 ^ 64),
   BitVec.ofNat 72 (sixteenths x * 2 ^ 54 + sixteenths y * 2 ^ 36 + num * 2 ^ 32 + rect * 2 ^ 27 + zone * 2 ^ 16 + flags),
   BitVec.ofNat 72 (pipe * 2 ^ 48 + frame % 2 ^ 48),
   BitVec.ofNat 72 (Nat.min pressure 1023 * 2 ^ 46 + Nat.min width 4095 * 2 ^ 34 + Nat.min height 4095 * 2 ^ 22)]

/-- Whether a held record waits for its zone effect, and whether two records are of one contact. -/
def recWaits (r : List W72) : Bool := nth r 4 0 ≠ 0
def recKey (r : List W72) : Nat := fld (nth r 0 0) 64 4 + (nth r 5 0).toNat * 16
def recIsMove (r : List W72) : Bool := fld (nth r 0 0) 68 4 = 2

/-- The first held record that may be delivered: one that does not wait, no earlier one of its contact waiting (R321). -/
def firstReady (seen : List Nat) (l : List (List W72)) : Option (List W72) :=
  match l with
  | [] => none
  | r :: t =>
    if recWaits r then firstReady (recKey r :: seen) t else if seen.contains (recKey r) then firstReady seen t else some r

/-- The records held for a function written into its posted buffers, as far as both last (R319 to R321). -/
def Dev.deliver (fuel f : Nat) (d : Dev) : Dev :=
  match fuel with
  | 0 => d
  | n + 1 =>
    let t := d.tfn f
    match t.bufs, firstReady [] t.held with
    | b :: rest, some r =>
      let seq := t.seq + 1
      let w1 := nth r 1 0 ||| (if t.overflow then BitVec.ofNat 72 (2 ^ 8) else 0)
      let w3 := nth r 3 0 ||| BitVec.ofNat 72 (seq.toNat * 2 ^ 56)
      match d.writeWords f ((b.addr.toNat + 36 * b.filled) % 2 ^ 48) [nth r 0 0, w1, nth r 2 0, w3] with
      | (d1, .error (cause, va)) => Dev.deliver n f ((d1.setTfn f { d1.tfn f with bufs := rest }).opFault b.id f cause va)
      | (d1, .ok _) =>
        let full := b.count ≤ b.filled + 1
        let d2 := d1.setTfn f
          { t with seq := seq, overflow := false, held := t.held.erase r, bufs := if full then rest else { b with filled := b.filled + 1 } :: rest }
        let d3 := d2.setEv f 4
        Dev.deliver n f (if full then d3.finish b.id 0 (some b.count) else d3)
    | _, _ => d

/-- Delivery as far as it goes. -/
def Dev.deliverAll (d : Dev) (f : Nat) : Dev := Dev.deliver ((d.tfn f).held.length + (d.tfn f).bufs.length + 1) f d

/-- One more discard: OVERFLOW on the next record, OVERFLOWS of the channel (R320). -/
def Dev.touchDrop (d : Dev) (f c : Nat) : Dev :=
  let d1 := d.setTfn f { d.tfn f with overflow := true }
  d1.setTch c { d1.tch c with overflows := satInc (d1.tch c).overflows }

/-- A record for a function: held, and delivered when it may be; a MOVE that another replaces is discarded (R320). -/
def Dev.touchPut (d : Dev) (f c : Nat) (r : List W72) : Dev :=
  let t := d.tfn f
  if t.bufs ≠ [] ∨ t.held.length < 128 then (d.setTfn f { t with held := t.held ++ [r] }).deliverAll f
  else
    match (if recIsMove r then t.held.reverse.find? (fun h => recIsMove h && recKey h = recKey r) else none) with
    | some h => (d.setTfn f { t with held := t.held.map (fun x => if x = h then r else x) }).touchDrop f c
    | none =>
      match t.held.find? recIsMove with
      | some h => (d.setTfn f { t with held := t.held.erase h ++ [r] }).touchDrop f (fld (nth h 0 0) 64 4)
      | none => d.touchDrop f c

/-! Zones. -/

/-- The zone that an event fires (R338). -/
def zoneFor (zones : List MapZone) (up : Bool) (owner : Nat) (x y : Int) : Option MapZone :=
  zones.find? (fun z =>
    let w1 := nth z.words 1 0
    let r := nth z.words 2 0
    let x0 : Int := (fld r 0 14 : Nat)
    let y0 : Int := (fld r 14 14 : Nat)
    bit w1 31 && bit w1 (if up then 30 else 29) && fld (nth z.words 0 0) 0 6 = owner &&
      decide (x0 ≤ x) && decide (x ≤ x0 + (fld r 28 14 : Nat)) && decide (y0 ≤ y) && decide (y ≤ y0 + (fld r 42 14 : Nat)))

/-- A zone fires (R338): whether it plays. The trigger reaches its channel at the next sample (R339). -/
def Dev.zoneFire (d : Dev) (z : MapZone) (frame stamp : Nat) : Dev × Bool :=
  let w1 := nth z.words 1 0
  let owner := fld (nth z.words 0 0) 0 6
  let ch := fld w1 21 4
  let slot := fld w1 15 6
  let n := satAdd 16 (fld (d.live 0x08 z.inst 6) 48 16) 1
  let d1 := (d.setLive 0x08 z.inst 6 (BitVec.ofNat 72 (n * 2 ^ 48 + frame % 2 ^ 48))).setLive 0x08 z.inst 7 (BitVec.ofNat 72 stamp)
  let e := d1.effSlot slot
  if d1.owner 0x07 ch = owner && e.holder = some owner && e.samples ≠ [] then
    (d1.setHch ch { d1.hch ch with pending := (d1.hch ch).pending ++ [{ kind := .zone z.inst, slot := slot, gain := fld w1 0 8, reached := none }] }, true)
  else (d1, false)

/-! Contacts. -/

/-- The record of an event of a contact that needs no hit test: MOVE, CANCEL. -/
def Dev.touchPlain (d : Dev) (c event stamp flags : Nat) (k : Contact) : Dev :=
  d.touchPut k.owner c
    (touchRec event c stamp k.sentX k.sentY k.num 31 0 flags (d.touchPipe c) 0 k.pressure k.width k.height ++ [0, BitVec.ofNat 72 k.serial])

/-- The record of a DOWN or UP at its position, hit-tested: zones may fire. For a DOWN the owner found captures it. -/
def Dev.touchHit (d : Dev) (c stamp flags : Nat) (up : Bool) (k : Contact) : Dev × Contact :=
  let x := pixelOf k.sentX
  let y := pixelOf k.sentY
  let h := d.hitTest c stamp x y
  let k1 := if up then k else { k with owner := h.owner }
  let fl := flags + h.oldMap.toNat * 8 + h.noMap.toNat * 16
  let put (d : Dev) (zone fl : Nat) (wait : W72) : Dev :=
    d.touchPut k1.owner c (touchRec (if up then 3 else 1) c stamp k.sentX k.sentY k.num h.rect zone fl (d.touchPipe c) h.frame k.pressure k.width k.height ++ [wait, BitVec.ofNat 72 k.serial])
  match zoneFor h.zones up k1.owner x y with
  | none => (put d 0 fl 0, k1)
  | some z =>
    match d.zoneFire z h.frame stamp with
    | (d1, true) => (put d1 z.inst (fl + 1) (BitVec.ofNat 72 (z.inst + 1)), k1)
    | (d1, false) => (put d1 z.inst (fl + 4) 0, k1)

/-- Every contact of a channel ends with CANCEL (R306, R315). -/
def Dev.cancelContacts (d : Dev) (c stamp flags : Nat) : Dev :=
  let ks := (d.tch c).contacts
  let d1 := d.setTch c { d.tch c with contacts := [] }
  ks.foldl (fun d k => d.touchPlain c 4 stamp flags k) d1

/-- The waiting record of a zone fire resolved (R339): the deferral in ns, or none where nothing was deferred. -/
def Dev.zoneResolved (d : Dev) (zone : Nat) (defer : Nat) : Dev :=
  (List.range 64).foldl (fun d f =>
    let t := d.tfn f
    match t.held.find? (fun r => nth r 4 0 = BitVec.ofNat 72 (zone + 1)) with
    | none => d
    | some r =>
      let r1 := [nth r 0 0, nth r 1 0 ||| (if defer = 0 then 0 else 2), nth r 2 0, nth r 3 0 ||| BitVec.ofNat 72 (defer % 2 ^ 22), 0, nth r 5 0]
      (d.setTfn f { t with held := t.held.map (fun x => if x = r then r1 else x) }).deliverAll f) d

/-! Starting a channel. -/

/-- A channel starts or restarts (R306, R311): its contacts are cancelled, and it begins. -/
def Dev.touchStart (d : Dev) (c : Nat) : Dev := (d.cancelContacts c d.now 0).touchBegin c

/-- A channel stops: contacts cancelled, OFF. -/
def Dev.touchStop (d : Dev) (c : Nat) : Dev :=
  let d1 := d.cancelContacts c d.now 0
  d1.setTch c { d1.tch c with state := 0, cause := 0, scan := [], scanLeft := 0 }

/-- A channel enters FAULT with a cause (R306, R315). -/
def Dev.touchFault (d : Dev) (c cause : Nat) : Dev :=
  let d1 := d.cancelContacts c d.now 0
  d1.setTch c { d1.tch c with state := 4, cause := BitVec.ofNat 5 cause, faultAt := d1.now, scan := [], scanLeft := 0 }

end Sys2Proof.Machine
end

