-- ==== Sys2Proof/Machine/Commits.lean ====
section
/-! DEFINITION. How commits apply (R26, R27, R112 to R119): the writes, what each class does when its words change, the
publication counter, and the publication of status words (R263, R275, R322, R343, R374). -/

namespace Sys2Proof.Machine

/-! What the classes do. -/

/-- Whether a commit writes a word of an instance. -/
def wrote (writes : List (Nat × W72)) (cls inst w : Nat) : Bool := writes.any (fun x => x.1 = objKey cls inst w)

/-- Every instance of a class with owner f, from `lo` up to below `hi`, returns to the manager (R27, R28). -/
def Dev.returnOwned (d : Dev) (cls lo hi f : Nat) : Dev :=
  (List.range hi).foldl (fun d i => if lo ≤ i && d.owner cls i = f && f ≠ d.manager then d.setObj cls i 0 (BitVec.ofNat 72 d.manager) else d) d

/-- Whether the ring of a pipe in CHASE is narrower than the active area that it scans (R245). -/
def Dev.ringNarrow (d : Dev) (p : Nat) : Bool :=
  fld (d.obj 0x02 p 1) 0 2 = 2 && decide ((d.pc p).ringW < (d.timing p).hact) && bit (d.obj 0x01 p 1) 31

/-- A frame retires (R224): the SHOWN words of its slots (R228). -/
def Dev.retireFrame (d : Dev) (f : Frame) : Dev := f.shown.foldl (fun d x => d.setLive 0x03 x.1 20 (x.2 ||| BitVec.ofNat 72 (f.n % 2 ^ 48))) d

/-- A pipe stops scanning: its last frame retires, and a composition under way is given up (R224, R261). -/
def Dev.retireAll (d : Dev) (p : Nat) : Dev :=
  let pc := d.pc p
  (pc.frames.filter (fun f => !f.retired)).foldl Dev.retireFrame
    (d.setPc p { pc with frames := pc.frames.map (fun f => { f with retired := true }), current := none, content := none, chase := none, strips := [], stripBad := [], block := none })

/-- A change of PIPE_TIMING (R245, R291, R292, R297, R299): ports, genlock, the override bit, and the fall-back of a chase whose
ring is too narrow. Edges seen under another GLK_SEL, GLK_TYPE or GLK_POL measure no period any more. -/
def Dev.timingApplied (d0 d : Dev) (p : Nat) : Dev :=
  let o (i : Nat) := d0.obj 0x01 p i
  let n (i : Nat) := d.obj 0x01 p i
  let cls := d.timingClass o n
  let oldPort := fld (o 1) 16 4
  let locked := bit (n 1) 15 && bit (n 1) 31
  let fresh := cls = 2 || cls = 3 || !locked
  let nominal := d.nominalInc p
  let x := d.pt p
  let sameInput := fld (o 3) 45 3 = fld (n 3) 45 3
  let d1 := d.setPt p
    { x with
      glk := if !locked then 0 else if bit (o 1) 15 && bit (o 1) 31 then x.glk else 1
      good := if locked && sameInput then x.good else 0, bad := if sameInput then x.bad else 0, lastEdge := if sameInput then x.lastEdge else none
      offsetUntil := if fresh then none else x.offsetUntil, offsetWant := if fresh then none else x.offsetWant
      slipNext := if fresh then 0 else x.slipNext
      inc := if fresh then BitVec.ofNat 40 nominal else BitVec.ofNat 40 (d.clampInc p x.inc.toNat).floor.toNat
      held := if fresh then (nominal : Rat) else d.clampInc p x.held }
  let d2 :=
    if cls = 4 then
      ((d1.portOff oldPort).setPt p { d1.pt p with active := false, glk := 0, firstLine := none, hold := none, selfRefresh := false }).retireAll p
    else if cls = 3 then
      let d3 := if bit (o 1) 31 then d1.portOff oldPort else d1
      if bit (o 1) 31 then d3.portStart (d3.pipePort p) else d3.pipeStart p
    else if cls = 2 then d1.portStart (d1.pipePort p)
    else d1
  let d3 : Dev := if 2 ≤ cls then { d2 with disp := { d2.disp with override := setBit d2.disp.override p false } } else d2
  if d3.ringNarrow p then d3.setPc p { d3.pc p with fallback := true } else d3

/-- Whether a unit is inside a period (R371, R376): for a pipe tap, from the window's first line on until the frame's period
has ended. -/
def Dev.cvuInPeriod (d : Dev) (u : Nat) (w1 w5 : W72) : Bool :=
  let x := d.cvu u
  let tap := fld w1 24 7
  if tapKind tap = 1 then
    let p := tap - 1
    match d.lineAt p (fld w5 14 14) with
    | some t => (d.pt p).active && decide (t ≤ d.now) && x.frame ≠ (d.pt p).frame.toNat
    | none => false
  else x.active

/-- The frame in which a changed unit on a pipe's output takes no period any more (R376): the one whose window has begun. -/
def Dev.cvuSkip (d : Dev) (u : Nat) (dflt : Nat) : Nat :=
  let p := fld (d.obj 0x0A u 1) 24 7 - 1
  if tapKind (fld (d.obj 0x0A u 1) 24 7) ≠ 1 then dflt
  else
    match d.lineAt p (fld (d.obj 0x0A u 5) 14 14) with
    | some t => if t ≤ d.now then (d.pt p).frame.toNat else dflt
    | none => dflt

/-- A change of a CVU object (R376, R382, R383). -/
def Dev.cvuApplied (d0 d : Dev) (writes : List (Nat × W72)) (u : Nat) : Dev :=
  let o (i : Nat) := d0.obj 0x0A u i
  let n (i : Nat) := d.obj 0x0A u i
  let x := d.cvu u
  let changed := (List.range 7).any (fun i => o (i + 1) ≠ n (i + 1))
  let inside := bit (o 1) 31 && changed && d0.cvuInPeriod u (o 1) (o 5)
  let x1 : Cvu := if inside then { x with active := false, bytes := 0, segments := 0, next := none, abandoned := satInc x.abandoned, frame := d.cvuSkip u x.frame }
    else if changed then { x with active := false, bytes := 0, segments := 0, next := none, frame := d.cvuSkip u x.frame } else x
  let named := (List.range 48).any (fun i => bit (d.obj 0x04 i 1) 2 && fld (d.obj 0x04 i 9) 0 5 = u)
  let x2 : Cvu := if wrote writes 0x0A u 7 && !named then { x1 with refBad := false, state := if 3 ≤ x1.state.toNat then 1 else x1.state } else x1
  let x3 : Cvu := if bit (n 1) 31 then (if bit (o 1) 31 then x2 else { x2 with state := 1 }) else { x2 with state := 0, active := false }
  d.setCvu u x3

/-- The effect of a channel ends: PEAK_I is that of the effect (R325). -/
def HapChan.effectEnd (x : HapChan) : HapChan := { x with peakI := x.curPeak, curPeak := 0 }

/-- A change of a HAPTIC_CHANNEL object (R324, R327, R330). A disabled channel ends its effect without a brake. -/
def Dev.channelApplied (d0 d : Dev) (writes : List (Nat × W72)) (c : Nat) : Dev :=
  let x := d.hch c
  let on := bit (d.obj 0x07 c 1) 31
  let was := bit (d0.obj 0x07 c 1) 31
  let x1 : HapChan := if wrote writes 0x07 c 3 then { x with f0Est := BitVec.ofNat 18 (fld (d.obj 0x07 c 3) 18 18) } else x
  let x2 : HapChan := if wrote writes 0x07 c 1 && x1.state = 4 then { x1 with state := 0 } else x1
  let x3 : HapChan := if on && !was then { x2 with integ := 0, lastU := 0, clipped := false } else x2
  let x4 : HapChan := if !on then { (if x3.state = 1 || x3.state = 2 then x3.effectEnd else x3) with state := 0, streaming := false, pos := 0, lastU := 0 } else x3
  d.setHch c x4

/-- An audio port, and it replaced; the converters of nodes bound to a port start again (R358, R361). -/
def Dev.aport (d : Dev) (i : Nat) : AudPort := tget d.audio.ports i .atReset
def Dev.setAport (d : Dev) (i : Nat) (x : AudPort) : Dev := { d with audio := { d.audio with ports := tset d.audio.ports i x } }
def Dev.unlockPort (d : Dev) (i : Nat) : Dev :=
  { d with audio := { d.audio with
      convs := d.audio.convs.map (fun x =>
        let t := fld (d.obj 0x05 x.1 1) 10 6
        if (t = 3 || t = 4) && fld (d.obj 0x05 x.1 2) 0 4 = i then (x.1, x.2.restart) else x) } }

/-- The encoded state of a headset port (R363). -/
def AudPort.code (x : AudPort) : Nat := x.state.toNat * 40 + x.hsType.toNat * 5 + x.button.toNat

/-- HS_WAITs whose port no longer has the state they expect complete (R363). -/
def Dev.hsNotify (d : Dev) : Dev :=
  d.audio.waits.foldl (fun d id =>
    match d.op id with
    | none => { d with audio := { d.audio with waits := d.audio.waits.filter (fun x => x ≠ id) } }
    | some o =>
      let x := d.aport (fld (o.word 0) 0 4)
      if !o.active then { d with audio := { d.audio with waits := d.audio.waits.filter (fun x => x ≠ id) } }
      else if x.code = fld (o.word 0) 8 8 then d
      else
        ({ d with audio := { d.audio with waits := d.audio.waits.filter (fun x => x ≠ id) } } : Dev).finish id 0
          (some (x.code * 2 ^ 56 + x.button.toNat * 2 ^ 48 + x.changeAt % 2 ^ 48))) d

/-- A port with a new state; a change of a headset port's encoded state is stamped and counted (R360, R363). -/
def Dev.setHeadset (d : Dev) (i : Nat) (x : AudPort) : Dev :=
  let old := d.aport i
  if i < 10 then d.setAport i x
  else (d.setAport i (if x.code = old.code then x else { x with changeAt := d.now, errors := satInc x.errors })).hsNotify

/-- A change of an AUDIO_NODE object (R352): a source or sink bound to another stream or port starts its converter again. -/
def Dev.nodeApplied (d0 d : Dev) (n : Nat) : Dev :=
  let bound (d : Dev) : Nat × Nat := (fld (d.obj 0x05 n 1) 10 6, fld (d.obj 0x05 n 2) 0 (if fld (d.obj 0x05 n 1) 10 6 ≤ 2 then 6 else 4))
  if bound d0 = bound d then d
  else match tfind d.audio.convs n with | some _ => { d with audio := { d.audio with convs := tset d.audio.convs n .atReset } } | none => d

/-- The samples of the fade of 5 ms of a port's sinks (R361). -/
def portFade : Nat := 960

/-- A change of an AUDIO_PORT object (R361, R362): a port starts, restarts or stops. A TDM port that runs fades its sinks out first. -/
def Dev.audioPortApplied (d0 d : Dev) (i : Nat) : Dev :=
  let on := bit (d.obj 0x06 i 1) 31
  let was := bit (d0.obj 0x06 i 1) 31
  let changed := d0.obj 0x06 i 1 ≠ d.obj 0x06 i 1 || d0.obj 0x06 i 2 ≠ d.obj 0x06 i 2
  if !changed then d
  else if !on then (if was then (d.setHeadset i { d.aport i with state := 0, fade := 0, hsType := 0, button := 0, good := 0, det := 0, rel := 0, settle := 0, bias := false }).unlockPort i else d)
  else if was && decide (i < 8) && (d.aport i).state = 2 && d.audio.running then d.setAport i { d.aport i with fade := portFade }
  else (d.setHeadset i { d.aport i with state := 1, fade := 0, hsType := 0, button := 0, good := 0, det := 0, rel := 0, settle := 0, sum := 0, bias := false }).unlockPort i

/-- A change of a TOUCH_CHANNEL object (R306). -/
def Dev.touchApplied (d0 d : Dev) (c : Nat) : Dev :=
  let o (i : Nat) := d0.obj 0x09 c i
  let n (i : Nat) := d.obj 0x09 c i
  if bit (n 1) 31 then (if !bit (o 1) 31 || o 1 ≠ n 1 || o 2 ≠ n 2 || o 7 ≠ n 7 then d.touchStart c else d)
  else if bit (o 1) 31 then d.touchStop c else d

/-- A change of FUNCTION_ATTR: marks lost return planes and channels (R27). -/
def Dev.attrApplied (d0 d : Dev) (f : Nat) : Dev :=
  let d1 := if d0.critical f && !d.critical f then d.returnOwned 0x04 0 48 f else d
  if d0.privileged f && !d.privileged f then d1.returnOwned 0x07 12 16 f else d1

/-- A change of a Vitrine plane (R256, R383): its translations, PHYS_BASE, and the unit whose reference was written. -/
def Dev.planeApplied (d : Dev) (c : Commit) (i : Nat) : Dev :=
  let writes := c.writes
  let d1 := ({ d with comp := { d.comp with planes := tset d.comp.planes i (tget c.planes i []) } } : Dev).setLive 0x04 i 14 (BitVec.ofNat 72 (tget c.bases i 0))
  let u := fld (d1.obj 0x04 i 9) 0 5
  if wrote writes 0x04 i 10 && bit (d1.obj 0x04 i 1) 2 && 3 ≤ (d1.cvu u).state.toNat then d1.setCvu u { d1.cvu u with state := 1, refBad := false } else d1

/-- A change of PIPE_LAYOUT: a write of MODE clears AUTO_FALLBACK (R243, R248), unless the ring is too narrow (R245). The misses that led to
a fall-back have had their effect; others go on to count. -/
def Dev.layoutApplied (d : Dev) (writes : List (Nat × W72)) (p : Nat) : Dev :=
  let pc := d.pc p
  if wrote writes 0x02 p 1 then d.setPc p { pc with fallback := d.ringNarrow p, wantFallback := false, misses := if pc.fallback then [] else pc.misses } else d

/-- What the class of an instance does when a commit of function f has written words of it. -/
def Dev.classApplied (d0 : Dev) (c : Commit) (d : Dev) (inst : Nat) : Dev :=
  let writes := c.writes
  let i := inst % 2 ^ 16
  if !writes.any (fun x => x.1 / 2 ^ 16 = inst && keyWord x.1 ≠ 0) then d
  else
    match inst / 2 ^ 16 with
    | 0x01 => d0.timingApplied d i
    | 0x02 => d.layoutApplied writes i
    | 0x04 => d.planeApplied c i
    | 0x05 => d0.nodeApplied d i
    | 0x06 => d0.audioPortApplied d i
    | 0x07 => d0.channelApplied d writes i
    | 0x09 => d0.touchApplied d i
    | 0x0A => d0.cvuApplied d writes i
    | 0x0C => d0.attrApplied d i
    | _ => d

/-- One write of a commit of function f: an owner field names the manager where its function no longer qualifies (R27). -/
def Dev.applyWrite (f : Nat) (d : Dev) (x : Nat × W72) : Dev :=
  let cls := keyCls x.1
  let inst := keyInst x.1
  let w := keyWord x.1
  if w = 0 then d.setObj cls inst 0 (BitVec.ofNat 72 (if d.ownerAllowed cls inst (fld x.2 0 6) then fld x.2 0 6 else d.manager))
  else
    let d1 := d.setObj cls inst w x.2
    if handlesIn cls w x.2 = [] then d1 else { d1 with comp := { d1.comp with slotFn := tset d1.comp.slotFn x.1 f } }

/-- A commit applies. -/
def Dev.applyCommit (d : Dev) (c : Commit) : Dev :=
  let d0 := c.widths.foldl (fun d x => d.setPc x.1 { d.pc x.1 with ringW := x.2 }) d
  let d1 := c.writes.foldl (Dev.applyWrite (ringFn c.ring)) d0
  (dedup (c.writes.map (fun x => x.1 / 2 ^ 16))).foldl (d.classApplied c) d1

/-! Status words of the channels. -/

/-- TOUCH_CHANNEL words 28 to 30 (R304). -/
def Dev.touchStatus (d : Dev) (c : Nat) : Dev :=
  let x := d.tch c
  let d1 := d.setLive 0x09 c 28 (BitVec.ofNat 72 (x.state.toNat * 2 ^ 69 + x.cause.toNat * 2 ^ 64 + x.src.toNat * 2 ^ 56 + x.contacts.length * 2 ^ 52 + x.reports.toNat))
  let d2 := d1.setLive 0x09 c 29 (BitVec.ofNat 72 (x.rangeDrops.toNat * 2 ^ 48 + x.timeouts.toNat * 2 ^ 32 + x.overflows.toNat * 2 ^ 16 + x.busErrors.toNat))
  (d2.setLive 0x09 c 30 (BitVec.ofNat 72 x.lastStamp.toNat)).publishWords 0x09 c [28, 29, 30]

/-- HAPTIC_CHANNEL words 28 to 31 (R325). -/
def Dev.hapStatus (d : Dev) (c : Nat) : Dev :=
  let x := d.hch c
  let playing := x.ofSlot && (x.state = 1 || x.state = 2 || x.state = 3)
  let d1 := d.setLive 0x07 c 28 (BitVec.ofNat 72 (x.state.toNat * 2 ^ 69 + x.streaming.toNat * 2 ^ 68 + (if playing then x.slot else 0) * 2 ^ 62))
  let d2 := d1.setLive 0x07 c 29 (BitVec.ofNat 72 x.lastStart.toNat)
  let d3 := d2.setLive 0x07 c 30 (BitVec.ofNat 72 (x.deferrals.toNat * 2 ^ 48 + x.underruns.toNat * 2 ^ 32 + x.f0Est.toNat))
  (d3.setLive 0x07 c 31 (BitVec.ofNat 72 (x.faults.toNat * 2 ^ 48 + x.clips.toNat * 2 ^ 32 + x.peakI.toNat))).publishWords 0x07 c [28, 29, 30, 31]

/-- What an epoch boundary publishes (R263, R322, R374): touch and haptic channels, units without a pipe, pipes that do not scan. A pipe whose
first VBLANK the boundary is has published there. -/
def Dev.publishEpoch (d : Dev) : Dev :=
  let d1 := (List.range 12).foldl (fun d c => d.touchStatus c) d
  let d2 := (List.range 16).foldl (fun d c => d.hapStatus c) d1
  let d3 := (List.range 32).foldl (fun d u => if (d.cvuPipe u).isNone then (d.cvuStatus u).publishWords 0x0A u [12, 13, 14, 15] else d) d2
  (List.range 12).foldl (fun d p => if d.pipeOn p then d else d.publishPipe p) d3

/-- A live status word with a value. -/
def Dev.putLive (d : Dev) (cls inst word : Nat) (v : W72) : Dev := if d.live cls inst word = v then d else d.setLive cls inst word v

/-- Words 58 to 63 of every AUDIO_NODE and words 12 and 13 of every AUDIO_PORT, published at a block boundary (R343, R360, R364). -/
def Dev.publishBlock (d : Dev) : Dev :=
  let a := d.audio
  let node (d : Dev) (n : Nat) : Dev :=
    let c := tget a.convs n .atReset
    let st := match tfind a.convs n with | some c => c.state.toNat | none => 0
    let peak (i : Nat) := tget a.meters (8 * n + i) 0
    let d1 := d.putLive 0x05 n 58 (BitVec.ofNat 72 (st * 2 ^ 69 + c.ppm.toNat * 2 ^ 40 + c.unders.toNat * 2 ^ 16 + c.overs.toNat))
    let d2 := d1.putLive 0x05 n 59 (BitVec.ofNat 72 a.count)
    let d3 := (List.range 4).foldl (fun d i => d.putLive 0x05 n (60 + i) (BitVec.ofNat 72 (peak (2 * i) + peak (2 * i + 1) * 2 ^ 36))) d2
    d3.publishWords 0x05 n [58, 59, 60, 61, 62, 63]
  let port (d : Dev) (i : Nat) : Dev :=
    let x := d.aport i
    let d1 := d.setLive 0x06 i 12 (BitVec.ofNat 72 (x.state.toNat * 2 ^ 69 + x.hsType.toNat * 2 ^ 66 + x.button.toNat * 2 ^ 63 + x.micMv.toNat * 2 ^ 51 + x.errors.toNat))
    (d1.setLive 0x06 i 13 (BitVec.ofNat 72 x.measured.toNat)).publishWords 0x06 i [12, 13]
  (List.range 12).foldl port ((List.range 1024).foldl node d)

/-! Apply points. -/

/-- The order of R114: commit time, then ring. -/
def commitLe (a b : Commit) : Bool := decide (a.time < b.time) || (decide (a.time = b.time) && decide (a.ring ≤ b.ring))

/-- The records that waited for a commit may be written once it has applied; nothing else happens then. -/
def Dev.addCommit (d : Dev) (c : Commit) : Dev := { d with commits := insertBy commitLe c d.commits }

/-- Whether the apply point of a commit is served at the epoch boundary: EPOCH, a pipe that does not scan, a stopped audio
engine (R113). -/
def Dev.pointAtEpoch (d : Dev) (point : BitVec 2) (pipe : Nat) : Bool := point = 3 || (point = 1 && !d.pipeOn pipe) || (point = 2 && !d.audio.running)
def Dev.atEpoch (d : Dev) (c : Commit) : Bool := d.pointAtEpoch c.point c.pipe

/-- All pending commits that satisfy `due` apply together, with what the instant publishes (R114, R119, R263). -/
def Dev.applyDue (d : Dev) (due : Commit → Bool) (publish : Dev → Dev) : Dev :=
  let now := d.commits.filter due
  let d1 : Dev := { d with commits := d.commits.filter (fun c => !due c) }
  d.published (publish (now.foldl Dev.applyCommit d1))

end Sys2Proof.Machine
end

