-- ==== Sys2Proof/Machine/Exact.lean ====
section
/-! DEFINITION. Exact values of the float formats as rationals, rounded once where a rule says so (R172, R177, R182, R188). -/

namespace Sys2Proof.Machine

/-- floor(frac × 256) / 256 of the fraction of q (R177), as a number of 1/256. -/
def frac256 (q : Rat) : Nat := ((q - (q.floor : Rat)) * 256).floor.toNat

/-- The unit in the last place of a format at a value. -/
def FFmt.ulp (f : FFmt) (v : Rat) : Rat :=
  let low : Int := 1 - (f.bias : Int)
  pow2 ((if v = 0 then low else if log2Floor v < low then low else log2Floor v) - f.fb)

/-- The mathematical value of a function of R172 at a finite argument, to 160 bits: operation 0 1/a, 1 1/sqrt a, 2 2^a, 3 log2 a,
4 sin 2 pi a, 5 cos 2 pi a. Powers beyond every format stand at 2^400 and 2^-400. -/
def elementaryValue (op : Nat) (q : Rat) : Rat :=
  match op with
  | 0 => 1 / q
  | 1 => 1 / sqrtQ q
  | 2 => exp2Fix ((clampQ (-400) 400 q * ((2 ^ fixBits : Nat) : Rat)).floor)
  | 3 => log2Q q
  | 4 => sinTurn q
  | _ => sinTurn (q + 1 / 4)

/-- How far from the value v a result at argument q may lie (R172). -/
def FFmt.elementaryBound (f : FFmt) (op : Nat) (q v : Rat) : Rat :=
  let near := if f.fb = 11 then pow2 (-10) else pow2 (-24)
  if op = 0 then f.ulp v
  else if op = 1 ∨ op = 2 then 2 * f.ulp v
  else if op = 3 then (if 1 / 2 ≤ q ∧ q ≤ 2 then maxQ near (2 * f.ulp v) else 2 * f.ulp v)
  else near

/-- The result at a finite argument that is no special case: the fixed function of the input bits where it lies within R172's bound,
else the value rounded to nearest. -/
def FFmt.elementary (f : FFmt) (op x : Nat) (q : Rat) : Nat :=
  let w := f.fb + f.eb + 1
  let v := elementaryValue op q
  let r := Config.elementary op w x % 2 ^ w
  match f.exact r with
  | some y => if absQ (y - v) ≤ f.elementaryBound op q v then r else f.ofRat v
  | none => f.ofRat v

/-- A result from a finite operand under SAT: an infinity becomes the largest finite value of its sign (R53, R544). -/
def FFmt.limited (f : FFmt) (sat : Bool) (r : Nat) : Nat := if sat && r % 2 ^ (f.fb + f.eb) = f.infBits then r - 1 else r

/-- The functions of R172 with their special values. -0 under 1/sqrt a, and infinity under 1/sqrt a and log2 a, for which R172 states no
value, take the bits of the fixed function. -/
def FFmt.special (f : FFmt) (sat : Bool) (op x : Nat) : Nat :=
  let w := f.fb + f.eb + 1
  let open_ := Config.elementary op w x % 2 ^ w
  match f.unpack x with
  | .nan n => f.quiet n
  | .inf neg =>
    if op = 0 then f.signBit neg
    else if op = 1 then (if neg then f.qnan else open_)
    else if op = 2 then (if neg then 0 else f.infBits)
    else if op = 3 then (if neg then f.qnan else open_)
    else f.qnan
  | .fin neg m e =>
    let q := (if neg then -1 else 1) * (m : Rat) * pow2 e
    f.limited sat
      (if m = 0 ∧ op = 0 then f.signBit neg + f.infBits
       else if m = 0 ∧ op = 1 then (if neg then open_ else f.infBits)
       else if m = 0 ∧ op = 3 then f.signBit true + f.infBits
       else if neg ∧ (op = 1 ∨ op = 3) then f.qnan
       else f.elementary op x q)

/-- The 36-bit elements of a word. -/
def el36 (w : W72) (i : Nat) : Nat := fld w (36 * i) 36

/-- A word of two 36-bit elements. -/
def two36 (lo hi : Nat) : W72 := BitVec.ofNat 72 (lo % 2 ^ 36 + (hi % 2 ^ 36) * 2 ^ 36)

end Sys2Proof.Machine
end

