-- ==== Sys2Proof/Machine/Control.lean ====
section
/-! DEFINITION. Control flow (R59, R60, the LOOP row of R57) and YIELD; END and FAIL stand with the engines whose work
they end. -/

namespace Sys2Proof.Machine

/-- The index that an offset of format 3 names. -/
def branchTo (w : Insn) (q : Seq) : Int := (q.pc : Int) + toSigned 36 w.low.toNat

/-- The program counter of a context that has one, for an instruction that is issuing on it. -/
def Dev.seqD (d : Dev) (c : Ctx) : Seq := (d.seq c).getD .idle

/-- BR (R59). -/
def execBr (c : Ctx) (w : Insn) (s : State) : Host.Outcome State Fault Refusal :=
  run (issue c (.branch .none) w true (fun d => (d, .ok (.goto (branchTo w (d.seqD c)))))) s

/-- The row of JMP and CALLR: one register. -/
def Shape.jump : Shape := { formats := [0], dst := .none, a := .reg, b := .none, c := false, subs := 1, prof := .all }

/-- The index that a register names: bits 23 to 0. -/
def jumpTo (w : Insn) (q : Seq) : Int := (fld (q.bank.rd w.a) 0 24 : Nat)

/-- JMP (R59). -/
def execJmp (c : Ctx) (w : Insn) (s : State) : Host.Outcome State Fault Refusal :=
  run (issue c .jump w true (fun d => (d, .ok (.goto (jumpTo w (d.seqD c)))))) s

/-- A call: EX_STACK on a full stack, EX_PC outside the program, else PC + 1 is pushed (R59, R60). -/
def Dev.call (d : Dev) (c : Ctx) (target : Int) : Dev × Except Exc Flow :=
  let q := d.seqD c
  if 16 ≤ q.stack.length then (d, .error exStack)
  else if !q.holds target then (d, .error exPc)
  else (d.updSeq c (fun q => { q with stack := (q.pc + 1) :: q.stack }), .ok (.goto target))

/-- CALL (R60). -/
def execCall (c : Ctx) (w : Insn) (s : State) : Host.Outcome State Fault Refusal :=
  run (issue c (.branch .none) w true (fun d => d.call c (branchTo w (d.seqD c)))) s

/-- CALLR (R60). -/
def execCallr (c : Ctx) (w : Insn) (s : State) : Host.Outcome State Fault Refusal :=
  run (issue c .jump w true (fun d => d.call c (jumpTo w (d.seqD c)))) s

/-- RET: EX_STACK on an empty stack, else to the index popped (R59, R60). -/
def execRet (c : Ctx) (w : Insn) (s : State) : Host.Outcome State Fault Refusal :=
  run (issue c (.bare .all) w true (fun d =>
    match (d.seqD c).stack with
    | [] => (d, .error exStack)
    | i :: r => if (d.seqD c).holds i then (d.updSeq c (fun q => { q with stack := r }), .ok (.goto i)) else (d, .error exPc))) s

/-- One less in a register, modulo 2^72, in every lane of a slice. -/
def Dev.countDown (d : Dev) (c : Ctx) (n : Nat) : Dev :=
  match c with
  | .slice k =>
    let x := d.slice k.val
    let one (b : Bank) : Bank := b.wr n (b.rd n - 1)
    d.setSlice k.val { x with seq := { x.seq with bank := one x.seq.bank }, others := x.others.map one }
  | _ => d.updSeq c (fun q => { q with bank := q.bank.wr n (q.bank.rd n - 1) })

/-- LOOP: the counter, an unsigned word, is decremented and then tested (R57); a target outside the program is refused
with the counter kept (R59). LOOP on g0, for which no rule states the test, tests g0 - 1, which is not zero: it branches, and the
write is discarded (R48; DEDUCED, log entry 116). -/
def execLoop (c : Ctx) (w : Insn) (s : State) : Host.Outcome State Fault Refusal :=
  run (issue c (.branch .reg) w true (fun d =>
    let q := d.seqD c
    if q.bank.rd w.a - 1 = 0 then (d.countDown c w.a, .ok .next)
    else if q.holds (branchTo w q) then (d.countDown c w.a, .ok (.goto (branchTo w q)))
    else (d, .error exPc))) s

/-- YIELD: a hint (R57). -/
def execYield (c : Ctx) (w : Insn) (s : State) : Host.Outcome State Fault Refusal :=
  run (issue c (.bare .all) w true (fun d => (d, .ok .next))) s

end Sys2Proof.Machine
end

