-- ==== Sys2Proof/Machine/Memory.lean ====
section
/-! DEFINITION. Memory access by programs: LD, LDS, ST, LDP, ATOM, PREF, FLUSH and MFENCE (R63 to R67). -/

namespace Sys2Proof.Machine

/-- The bytes of an access by sub-operation; 6 and 7 are reserved. -/
def accessBytes (sub : Nat) : Nat := nth [1, 2, 4, 8, 9, 18] sub 0

/-- The check of R63 before an access: EX_ILLEGAL for a 144-bit access with d = 63, then EX_ALIGN. -/
def accessExc (sub d : Nat) (va : Nat) : Option Exc :=
  if sub = 5 ∧ d = 63 then some exIllegal
  else if sub < 4 ∧ va % accessBytes sub ≠ 0 then some { exAlign with addr := va }
  else none

/-- The exception of an access that ended with a cause, and its fault recorded (R43, R67, R77). -/
def Dev.dataExc (d : Dev) (c : Ctx) (cause va : Nat) : Dev × Except Exc Flow :=
  (d.excFault (d.ctxFn c) cause (ctxSource c) (d.ctxKind c) va, .error (memExc cause va))

/-- The value of loaded bytes in a register: zero- or sign-extended. -/
def loadWord (sign : Bool) (bytes : List Byte) : W72 :=
  if sign && decide (bytes.length < 9) then sextTo 72 (8 * bytes.length) (ofBytes bytes) else BitVec.ofNat 72 (ofBytes bytes)

/-- Loaded bytes to d, or to d and d + 1 (R63). -/
def Dev.loaded (d : Dev) (c : Ctx) (w : Insn) (sign : Bool) (bytes : List Byte) : Dev :=
  if w.s = 5 then (d.wrReg c w.d (BitVec.ofNat 72 (ofBytes (bytes.take 9)))).wrReg c (w.d + 1) (BitVec.ofNat 72 (ofBytes (bytes.drop 9)))
  else d.wrReg c w.d (loadWord sign bytes)

/-- A load at the effective address in the function's space. -/
def Dev.load (d : Dev) (c : Ctx) (w : Insn) (sign : Bool) : Dev × Except Exc Flow :=
  let va := (d.bank c).addr w
  match accessExc w.s w.d va with
  | some e => (d, .error e)
  | none =>
    match d.readV (d.ctxFn c) va (accessBytes w.s) .read with
    | (d1, .error (cause, a)) => d1.dataExc c cause a
    | (d1, .ok bytes) => (d1.loaded c w sign bytes, .ok .next)

/-- LD (R57, R63). -/
def execLd (c : Ctx) (w : Insn) (s : State) : Host.Outcome State Fault Refusal :=
  run (issue c (.mem 6 .sv) w false (fun d => (d.hinted c w).load c w false)) s

/-- LDS (R57, R63). -/
def execLds (c : Ctx) (w : Insn) (s : State) : Host.Outcome State Fault Refusal :=
  run (issue c (.mem 6 .sv) w false (fun d => (d.hinted c w).load c w true)) s

/-- The bytes that a store takes from d, or from d and d + 1. -/
def storeBytes (b : Bank) (w : Insn) : List Byte :=
  if w.s = 5 then toBytes 9 (b.rd w.d).toNat ++ toBytes 9 (b.rd (w.d + 1)).toNat else toBytes (accessBytes w.s) (b.rd w.d).toNat

/-- A store at the effective address in the function's space. -/
def Dev.store (d : Dev) (c : Ctx) (w : Insn) : Dev × Except Exc Flow :=
  let b := d.bank c
  let va := b.addr w
  match accessExc w.s w.d va with
  | some e => (d, .error e)
  | none =>
    match d.writeV (d.ctxFn c) va (storeBytes b w) with
    | (d1, .error (cause, a)) => d1.dataExc c cause a
    | (d1, .ok _) => (d1, .ok .next)

/-- ST (R57, R63, R67). -/
def execSt (c : Ctx) (w : Insn) (s : State) : Host.Outcome State Fault Refusal :=
  run (issue c (.mem 6 .sv) w false (fun d => (d.hinted c w).store c w)) s

/-- LDP: word imm of the item's parameter block, EX_PARAM beyond it. A firmware thread has none, so every word
lies beyond it (DEDUCED, log entry 30). -/
def execLdp (c : Ctx) (w : Insn) (s : State) : Host.Outcome State Fault Refusal :=
  run (issue c { formats := [1], dst := .reg, a := .none, b := .none, c := false, subs := 1, prof := .s } w false (fun d =>
    match c with
    | .guest g =>
      let t := (d.ring g.val).thread
      if t.paramLen ≤ w.immZ.toNat then (d, .error exParam)
      else
        match d.readWords (ringFn g.val) ((t.paramBase.toNat + 9 * w.immZ.toNat) % 2 ^ 48) 1 .read with
        | (d1, .error (cause, a)) => d1.dataExc c cause a
        | (d1, .ok l) => (d1.wrReg c w.d (nth l 0 0), .ok .next)
    | _ => (d, .error exParam))) s

/-- The 64-bit value that an atomic leaves, or none for a CAS that fails (R64). -/
def atomValue (sub : Nat) (old x y : BitVec 64) : Option (BitVec 64) :=
  match sub with
  | 0 => some (old + x)
  | 1 => some (old &&& x)
  | 2 => some (old ||| x)
  | 3 => some (old ^^^ x)
  | 4 => some x
  | _ => if old = x then some y else none

/-- An atomic on a 64-bit location: the old value, or a cause and its address (R64). WRITE is checked before READ. -/
def Dev.atomic (d : Dev) (f va sub : Nat) (x y : BitVec 64) : Dev × Except (Nat × Nat) (BitVec 64) :=
  match d.translateAll f .write [(va, 8)] with
  | (d1, .error e) => (d1, .error e)
  | (d1, .ok _) =>
    match d1.readV f va 8 .read with
    | (d2, .error e) => (d2, .error e)
    | (d2, .ok bytes) =>
      let old := BitVec.ofNat 64 (ofBytes bytes)
      match atomValue sub old x y with
      | none => (d2, .ok old)
      | some v => match d2.writeV f va (toBytes 8 v.toNat) with | (d3, .error e) => (d3, .error e) | (d3, .ok _) => (d3, .ok old)

/-- ATOM (R64). -/
def execAtom (c : Ctx) (w : Insn) (s : State) : Host.Outcome State Fault Refusal :=
  run (issue c (.mem 6 .sv) w false (fun d0 =>
    let d := d0.hinted c w
    let b := d.bank c
    let va := b.addr w
    if w.s = 5 ∧ w.d = 63 then (d, .error exIllegal)
    else if va % 8 ≠ 0 then (d, .error { exAlign with addr := va })
    else
      match d.atomic (d.ctxFn c) va w.s ((b.rd w.d).setWidth 64) ((b.rd (w.d + 1)).setWidth 64) with
      | (d1, .error (cause, a)) => d1.dataExc c cause a
      | (d1, .ok old) => (d1.wrReg c w.d (old.setWidth 72), .ok .next))) s

/-- The row of PREF and FLUSH: an address and no register. -/
def Shape.line : Shape := { formats := [2], dst := .none, a := .reg, b := .reg, c := false, subs := 1, prof := .sv }

/-- The line that PREF and FLUSH name translated, and what they do to it in the system cache (R387, R389). -/
def Dev.touchLine (d : Dev) (c : Ctx) (w : Insn) (h : Dev → Nat → Dev) : Dev × Except Exc Flow :=
  match d.translate (d.ctxFn c) ((d.bank c).addr w) .read with
  | (d1, .error cause) => d1.dataExc c cause ((d.bank c).addr w)
  | (d1, .ok pa) => (h d1 pa, .ok .next)

/-- PREF (R57). -/
def execPref (c : Ctx) (w : Insn) (s : State) : Host.Outcome State Fault Refusal :=
  run (issue c .line w false (fun d => (d.hinted c w).touchLine c w (fun d pa => d.ask (pa / 64 * 64) 64 none))) s

/-- FLUSH (R387). -/
def execFlush (c : Ctx) (w : Insn) (s : State) : Host.Outcome State Fault Refusal :=
  run (issue c .line w false (fun d => (d.hinted c w).touchLine c w Dev.askFlush)) s

/-- MFENCE (R65): accesses of a thread take effect in program order here, so it orders what is ordered. -/
def execMfence (c : Ctx) (w : Insn) (s : State) : Host.Outcome State Fault Refusal :=
  run (issue c (.bare .sv) w false (fun d => (d, .ok .next))) s

end Sys2Proof.Machine
end

