-- ==== Sys2Proof/Machine/Txn.lean ====
section
/-! DEFINITION. Engine and queue instructions, transactions, LDO and SNAP, and the ends of FENCE and WAITEV (R68 to R76, R110 to
R121, R543). A firmware thread runs no item: no target is permitted there, nothing is buffered, no operation index is
assigned, and no transaction is open. -/

namespace Sys2Proof.Machine

/-- The guest thread of a context and its ring, for the instructions that act on an item. A firmware thread runs none, and takes `fw`
(DEDUCED, log entry 30). -/
def onItem (c : Ctx) (fw : Dev → Dev × Except Exc Flow) (h : Nat → Thread → Dev → Dev × Except Exc Flow) (d : Dev) : Dev × Except Exc Flow :=
  match c with
  | .guest g => h g.val (d.ring g.val).thread d
  | .firmware _ _ => fw d
  | _ => (d, .error exIllegal)

/-- What a firmware thread does with an instruction that finds no item: an exception, or nothing. -/
def fwExc (e : Exc) (d : Dev) : Dev × Except Exc Flow := (d, .error e)
def fwNext (d : Dev) : Dev × Except Exc Flow := (d, .ok .next)

/-! Engine operations. -/

/-- Whether a target is permitted on a ring kind (R71): kinds 0 DRAW, 1 COMPOSE, 2 MEDIA, 3 CTL. -/
def targetOk (target kind : Nat) : Bool :=
  match target with
  | 0 => kind = 0
  | 1 => kind = 1
  | 2 => true
  | 3 => kind ≠ 2
  | 4 => kind = 1
  | 5 | 6 | 7 => kind = 2
  | 8 | 9 | 10 => kind = 3
  | _ => false

/-- ENQ (R68 to R71): a full buffer is released first; d takes the operation index. -/
def execEnq (c : Ctx) (w : Insn) (s : State) : Host.Outcome State Fault Refusal :=
  run (issue c { formats := [4], dst := .reg, a := .reg, b := .none, c := false, subs := 1, prof := .s } w false (onItem c (fwExc (exc 0x0E)) (fun g t d =>
    if !targetOk (fld w.low 28 8) (ringKind g) then (d, .error (exc 0x0E))
    else if 65536 ≤ t.nextIdx then (d, .error (exc 0x0D))
    else
      let e : Enq :=
        { idx := t.nextIdx, target := BitVec.ofNat 8 (fld w.low 28 8), kind := BitVec.ofNat 8 (fld w.low 20 8),
          addr := (t.seq.bank.rd w.a).setWidth 48, len := fld w.low 8 12 }
      let d1 := if 32 ≤ t.buf.length then d.kick g else d
      ((d1.updThread g (fun t => { t with buf := t.buf ++ [e], nextIdx := t.nextIdx + 1 })).wrReg c w.d (BitVec.ofNat 72 t.nextIdx), .ok .next)))) s

/-- KICK (R70). -/
def execKick (c : Ctx) (w : Insn) (s : State) : Host.Outcome State Fault Refusal :=
  run (issue c (.bare .s) w false (onItem c fwNext (fun g _ d => (d.kick g, .ok .next)))) s

/-- Whether every operation that the item of a ring's thread released has completed. -/
def Dev.itemOpsDone (d : Dev) (g : Nat) : Bool :=
  match (d.ring g).thread.acc with
  | some acc => match d.entry g acc with | some e => e.opsDone | none => true
  | none => true

/-- FENCE (R70). -/
def execFence (c : Ctx) (w : Insn) (s : State) : Host.Outcome State Fault Refusal :=
  run (issue c (.bare .s) w false (onItem c fwNext (fun g _ d =>
    let d1 := d.kick g
    (if d1.itemOpsDone g then d1 else d1.updThread g (fun t => { t with wait := .fence }), .ok .next)))) s

/-- Whether operation idx of the item that a ring's thread runs has completed. -/
def Dev.itemOpDone (d : Dev) (g idx : Nat) : Bool :=
  match (d.ring g).thread.acc with
  | some acc => match d.entry g acc with | some e => (match tfind e.ops idx with | some o => o.done | none => false) | none => false
  | none => false

/-- What a thread waits for, and it replaced. -/
def Dev.waitOf (d : Dev) (c : Ctx) : Wait :=
  match c with
  | .guest g => (d.ring g.val).thread.wait
  | .firmware k t => (d.fwt k.val t.val).wait
  | _ => .none
def Dev.setWait (d : Dev) (c : Ctx) (x : Wait) : Dev :=
  match c with
  | .guest g => d.updThread g.val (fun t => { t with wait := x })
  | .firmware k t => d.setFwt k.val t.val { d.fwt k.val t.val with wait := x }
  | _ => d

/-- The timeout of WAITEV in ns: g[srcB], limited to a second; g0 means a second (R72). -/
def waitTimeout (b : Bank) (w : Insn) : Nat :=
  if w.b = 0 ∨ 1000000000 < (b.rd w.b).toNat then 1000000000 else (b.rd w.b).toNat

/-- The parameter of the event that WAITEV names: the operation index, the pipe, or the DEVTIME of kind 5 (R72). -/
def waitParam (b : Bank) (w : Insn) : Nat :=
  match fld w.low 32 4 with
  | 0 => fld w.low 0 16
  | 1 => fld w.low 0 4
  | 2 => fld w.low 0 4
  | 5 => (b.rd w.a).toNat
  | _ => 0

/-- Whether WAITEV names no event: a reserved kind, an index at or above those that the run has assigned, a pipe above 11 (R72). -/
def waitBad (b : Bank) (w : Insn) (assigned : Nat) : Bool :=
  decide (6 ≤ fld w.low 32 4) || (decide (fld w.low 32 4 = 0) && decide (assigned ≤ waitParam b w)) ||
    ((decide (fld w.low 32 4 = 1) || decide (fld w.low 32 4 = 2)) && decide (12 ≤ waitParam b w))

/-- WAITEV on a context whose run has assigned so many operation indices (R72): kinds 0 and 5 may have passed already. -/
def Dev.waitev (d : Dev) (c : Ctx) (w : Insn) (passed : Bool) : Dev × Except Exc Flow :=
  let b := d.bank c
  if passed then (d.wrReg c w.d 0, .ok .next)
  else (d.setWait c (.event (fld w.low 32 4) (waitParam b w) w.d (d.now + waitTimeout b w) false), .ok .next)

/-- WAITEV (R72). -/
def execWaitev (c : Ctx) (w : Insn) (s : State) : Host.Outcome State Fault Refusal :=
  run (issue c { formats := [1], dst := .reg, a := .reg, b := .reg, c := false, subs := 1, prof := .s } w false (fun d =>
    let b := d.bank c
    let x := waitParam b w
    let timePassed := decide (fld w.low 32 4 = 5) && decide (x ≤ d.now)
    onItem c (fun d => if waitBad b w 0 then (d, .error exIllegal) else d.waitev c w timePassed)
      (fun g t d =>
        if waitBad b w t.nextIdx then (d, .error exIllegal)
        else
          let d1 := if fld w.low 32 4 = 0 && t.buf.any (fun e => e.idx = x) then d.kick g else d
          d1.waitev c w (timePassed || (decide (fld w.low 32 4 = 0) && d1.itemOpDone g x))) d)) s

/-- Whether a guest thread's core runs it, and whether the core of a context that can wait does. -/
def Dev.threadUp (d : Dev) (g : Nat) : Bool := d.runs 3 && (tfind d.coreDown (g % 8)).isNone
def Dev.waiterUp (d : Dev) (c : Ctx) : Bool :=
  match c with
  | .guest g => d.threadUp g.val
  | .firmware k t => d.runs 3 && (tfind d.coreDown k.val).isNone && (d.fwt k.val t.val).started
  | _ => false

/-- How a wait stands (R72): 0 when the event came by the deadline, 1 when the deadline has passed without it. -/
def Dev.waitOver (d : Dev) (kind param deadline : Nat) (met : Bool) : Option W72 :=
  if met || (decide (kind = 5) && decide (param ≤ d.now) && decide (param ≤ deadline)) then some 0
  else if deadline ≤ d.now then some 1
  else none

/-- WAITEV_WAKE: the event ends the wait with 0, the timeout with 1; the event wins at the deadline itself (R72). -/
def execWaitevWake (c : Ctx) (at_ : Nat) (s : State) : Host.Outcome State Fault Refusal :=
  run (fun d =>
    match d.waitOf c with
    | .event kind param dst deadline met =>
      let d1 := d.tick at_
      if !d.waiterUp c then d
      else
        match d1.waitOver kind param deadline met with
        | some v => (d1.setWait c .none).wrReg c dst v
        | none => d
    | _ => d) s

/-- FENCE_WAKE: the item's operations have completed (R70). -/
def execFenceWake (g : Fin 256) (s : State) : Host.Outcome State Fault Refusal :=
  run (fun d =>
    match (d.ring g.val).thread.wait with
    | .fence => if d.threadUp g.val && d.itemOpsDone g.val then d.updThread g.val (fun t => { t with wait := .none }) else d
    | _ => d) s

/-! Transactions. -/

/-- TXB (R73, R110). -/
def execTxb (c : Ctx) (w : Insn) (s : State) : Host.Outcome State Fault Refusal :=
  run (issue c { formats := [1], dst := .none, a := .none, b := .none, c := false, subs := 4, prof := .s } w false (onItem c (fwExc exState) (fun g t d =>
    let pipe := fld w.low 0 4
    if w.s = 1 ∧ 12 ≤ pipe then (d, .error exIllegal)
    else if t.tx.isSome ∨ 16 ≤ t.txOpened then (d, .error exState)
    else
      (d.updThread g (fun t =>
        { t with txOpened := t.txOpened + 1
                 tx := some { point := BitVec.ofNat 2 w.s, pipe := if w.s = 1 then pipe else 0, shadow := [], overflow := false, full := none } }), .ok .next)))) s

/-- The program ends with a status and the byte address of its instruction (R75, R121, R543). -/
def Dev.endAt (d : Dev) (g : Nat) (status : BitVec 8) : Dev :=
  let q := (d.ring g).thread.seq
  d.endProgram g status (some (BitVec.ofNat 64 (q.byteAddr q.pc)))

/-- The program of a context ends so; only a guest's does, for the manager, whose objects a firmware thread reads, owns what it names
(R25, R543; DEDUCED, log entry 30). -/
def Dev.endOn (d : Dev) (c : Ctx) (status : BitVec 8) : Dev :=
  match c with
  | .guest g => d.endAt g.val status
  | _ => d

/-- The next instant of an apply point, as predicted from the timing in force (R113, R115). -/
def Dev.nextInstant (d : Dev) (c : Commit) : Nat :=
  if d.atEpoch c then (d.now / 1000000 + 1) * 1000000
  else if c.point = 1 then Nat.max (d.now + 1) ((d.pt c.pipe).lastVb.getD d.now + d.framePeriod c.pipe)
  else d.audio.startAt + ((d.now - d.audio.startAt) / 250000 + 1) * 250000

/-- Whether two commits are served at the same kind of instant. -/
def Dev.samePoint (d : Dev) (a b : Commit) : Bool :=
  (d.atEpoch a && d.atEpoch b) || (!d.atEpoch a && !d.atEpoch b && a.point = b.point && (a.point ≠ 1 || a.pipe = b.pipe))

/-- The last instant at which an apply point was served (R113). -/
def Dev.servedAt (d : Dev) (point : BitVec 2) (pipe : Nat) : Nat :=
  if d.pointAtEpoch point pipe then d.epochAt
  else if point = 1 then (d.pt pipe).lastVb.getD 0
  else d.audio.stampReg.toNat

/-- Whether a TXC waits for the instance that it found full to pass (R115): the first that is 2,000 ns after its commit time. -/
def Dev.txWaits (d : Dev) (tx : Tx) : Bool :=
  match tx.full with
  | some t => decide (d.servedAt tx.point tx.pipe < t + 2000)
  | none => false

/-- Whether 64 commits are already due at the instant at which c would apply (R115). -/
def Dev.pointFull (d : Dev) (c : Commit) : Bool :=
  let n := d.nextInstant c
  decide (64 ≤ (d.commits.filter (fun x => d.samePoint x c && decide (x.time + 2000 ≤ n) = decide (c.time + 2000 ≤ n))).length)

/-- The active widths that a commit fixes for the strip rings which it sizes (R245). -/
def Dev.sizedRings (d : Dev) (writes : List (Nat × W72)) : Tab Nat :=
  ((List.range 12).filter (sizesRing writes)).map (fun p => (p, d.modeWidth (View.overlay d.projected writes) p))

/-- A commit that has passed (R112, R113, R115): applied at once at IMMEDIATE, else pending. -/
def Dev.pass (d : Dev) (c : Commit) : Dev := if c.point = 0 then d.published (d.applyCommit c) else d.addCommit c

/-- TXC (R75, R106, R111 to R115): a recorded position applies nothing again; else the checks end within 250 ns + 10 ns per
write, and the instant of their end is the commit time. One that waited for a full instance to pass is checked again then, against the
projected state and with the commit time of that moment (DESIGN CHOICE, log entry 117). -/
def execTxc (c : Ctx) (w : Insn) (s : State) : Host.Outcome State Fault Refusal :=
  run (issue c { formats := [0], dst := .reg, a := .none, b := .none, c := false, subs := 1, prof := .s } w false (onItem c (fwExc exState) (fun g t d =>
    match t.tx, t.acc with
    | some tx, some acc =>
      let closed (d : Dev) (time : Nat) : Dev × Except Exc Flow :=
        ((d.updThread g (fun t => { t with tx := none, txcPos := t.txcPos + 1 })).wrReg c w.d (BitVec.ofNat 72 time), .ok .next)
      match (match d.entry g acc with | some e => tfind e.txcs t.txcPos | none => none) with
      | some time => closed d time
      | none =>
        let stay (d : Dev) : Dev × Except Exc Flow := (d.updSeq c (fun q => { q with steps := q.steps - 1 }), .ok .stay)
        if d.txWaits tx then stay d
        else
        let time := d.now + Config.measured d.free % (251 + 10 * tx.shadow.length)
        let d1 : Dev := ({ d with free := d.free + 1 } : Dev).tick time
        match d1.checkCommit (ringFn g) tx with
        | (d2, .error status) => (d2.endAt g status, .ok .done)
        | (d2, .ok planes) =>
          let cm : Commit :=
            { ring := g, acc := acc, time := d2.now, point := tx.point, pipe := tx.pipe, writes := tx.shadow
              planes := planes.map (fun x => (x.1, x.2.1)), bases := planes.map (fun x => (x.1, x.2.2))
              widths := d2.sizedRings tx.shadow }
          if tx.point ≠ 0 && d2.pointFull cm then stay (d2.updThread g (fun t => { t with tx := some { tx with full := some cm.time } }))
          else closed ((d2.pass cm).updEntry g acc (fun e => { e with txcs := tset e.txcs t.txcPos cm.time })) cm.time
    | _, _ => (d, .error exState)))) s

/-- TXA (R76). -/
def execTxa (c : Ctx) (w : Insn) (s : State) : Host.Outcome State Fault Refusal :=
  run (issue c (.bare .s) w false (onItem c (fwExc exState) (fun g t d =>
    if t.tx.isSome then (d.endProgram g 0x03 (some 0), .ok .done) else (d, .error exState)))) s

/-- The object key that the operands of STO and LDO name (R74). -/
def objectOf (b : Bank) (w : Insn) : Nat := objKey (fld w.low 28 8) (fld w.low 16 12 + fld (b.rd w.b) 0 12) (fld w.low 0 16)

/-- STO (R74, R110). -/
def execSto (c : Ctx) (w : Insn) (s : State) : Host.Outcome State Fault Refusal :=
  run (issue c { formats := [5], dst := .none, a := .reg, b := .reg, c := false, subs := 1, prof := .s } w false (onItem c (fwExc exState) (fun g t d =>
    match t.tx with
    | none => (d, .error exState)
    | some tx =>
      let k := objectOf t.seq.bank w
      let v := t.seq.bank.rd w.a
      let known := tx.shadow.any (fun x => x.1 = k)
      let tx1 : Tx :=
        if known then { tx with shadow := tx.shadow.map (fun x => if x.1 = k then (k, v) else x) }
        else if 910 ≤ tx.shadow.length then { tx with overflow := true }
        else { tx with shadow := tx.shadow ++ [(k, v)] }
      (d.updThread g (fun t => { t with tx := some tx1 }), .ok .next)))) s

/-- LDO (R25, R543). -/
def execLdo (c : Ctx) (w : Insn) (s : State) : Host.Outcome State Fault Refusal :=
  run (issue c { formats := [5], dst := .reg, a := .none, b := .reg, c := false, subs := 1, prof := .s } w false (fun d =>
    let k := objectOf (d.bank c) w
    let f := d.ctxFn c
    if !keyExists k then (d, .error exIllegal)
    else if f ≠ d.manager ∧ d.owner (keyCls k) (keyInst k) ≠ f then (d.endOn c 0x11, .ok .done)
    else (d.wrReg c w.d (d.obj (keyCls k) (keyInst k) (keyWord k)), .ok .next))) s

/-- The object that a word of a SNAP descriptor names, as a key of its word 0; none for a reserved one (R120, R121). -/
def snapObject (x : W72) : Option Nat :=
  let k := objKey (fld x 28 8) (fld x 16 12) 0
  if fld x 36 36 = 0 ∧ fld x 0 16 = 0 ∧ instExists k then some k else none

/-- SNAP (R120, R121): every named object's field words at one instant. -/
def execSnap (c : Ctx) (w : Insn) (s : State) : Host.Outcome State Fault Refusal :=
  run (issue c { formats := [0], dst := .reg, a := .reg, b := .reg, c := false, subs := 1, prof := .s } w false (fun d =>
    let f := d.ctxFn c
    let src := ((d.bank c).rd w.a).toNat % 2 ^ 48
    let dst := ((d.bank c).rd w.b).toNat % 2 ^ 48
    match d.readWords f src 1 .read with
    | (d1, .error (cause, a)) => d1.dataExc c cause a
    | (d1, .ok h) =>
      let n := (nth h 0 0).toNat
      if n < 1 ∨ 64 < n then (d1, .error exIllegal)
      else
        match d1.readWords f ((src + 9) % 2 ^ 48) n .read with
        | (d2, .error (cause, a)) => d2.dataExc c cause a
        | (d2, .ok names) =>
          let keys := names.filterMap snapObject
          if keys.length < n then (d2, .error exIllegal)
          else if f ≠ d2.manager ∧ !keys.all (fun k => d2.owner (keyCls k) (keyInst k) = f) then (d2.endOn c 0x11, .ok .done)
          else
            let words := keys.flatMap (fun k =>
              (List.range (match classInfo (keyCls k) with | some (_, m) => m | none => 0)).map (fun i => d2.obj (keyCls k) (keyInst k) i))
            match d2.writeWords f dst words with
            | (d3, .error (cause, a)) => d3.dataExc c cause a
            | (d3, .ok _) => (d3.wrReg c w.d (BitVec.ofNat 72 (d3.publication % 2 ^ 64)), .ok .next))) s

/-! Time and identity. -/

/-- The row of RDTIME and RDID. -/
def Shape.read (subs : Nat) : Shape := { formats := [0], dst := .reg, a := .none, b := .none, c := false, subs := subs, prof := .s }

/-- RDTIME: DEVTIME. -/
def execRdtime (c : Ctx) (w : Insn) (s : State) : Host.Outcome State Fault Refusal :=
  run (issue c (.read 1) w false (fun d => (d.wrReg c w.d (BitVec.ofNat 72 (d.now % 2 ^ 64)), .ok .next))) s

/-- RDID: accession, ring, function and generation, client tag, indices assigned (R57). A firmware thread has assigned none, and its other
identity values are free values. -/
def execRdid (c : Ctx) (w : Insn) (s : State) : Host.Outcome State Fault Refusal :=
  run (issue c (.read 5) w false (onItem c
    (fun d => (({ d with free := d.free + 1 } : Dev).wrReg c w.d (if w.s = 4 then 0 else BitVec.ofNat 72 (Config.freeBits d.free)), .ok .next))
    (fun g t d =>
    let acc := t.acc.getD 0
    let v : Nat :=
      match w.s with
      | 0 => acc
      | 1 => g
      | 2 => ringFn g + (d.fn (ringFn g)).gen.toNat * 256
      | 3 => match d.entry g acc with | some e => fld e.item 0 48 | none => 0
      | _ => t.nextIdx
    (d.wrReg c w.d (BitVec.ofNat 72 v), .ok .next)))) s

end Sys2Proof.Machine
end

