-- ==== Sys2Proof/Machine/Rings.lean ====
section
/-! DEFINITION. Rings and the ledger: doorbells, admission, the start of items, operations started and reported, records, the
epoch boundary, and sequencer-core resets (R29, R30, R66, R82 to R109, R113, R128). -/

namespace Sys2Proof.Machine

/-! Host requests. -/

/-- Whether the device holds host requests back: from the commit step of an entry to a sleep state to the end of the exit (R439). -/
def Dev.asleep (d : Dev) : Bool :=
  d.power.state = .showcase || d.power.state = .standby || d.power.state = .exiting || (match d.power.entry with | some e => e.deep | none => false)

/-- Whether a request of a host reaches a function's BARs: READY, the function exists in D0, its link is up, no freeze. -/
def Dev.hostReach (d : Dev) (f : Nat) : Bool :=
  d.boot.stage = .ready && d.exists_ f && ((d.port (f / 16)).link = .l0 || (d.port (f / 16)).link = .l1) && !(d.fn f).d3hot && d.freeze.at_.isNone

/-- A packet received from a port during an entry to, or in, a sleep state: HOSTm has fired (R434, R436). -/
def Dev.hostFired (d : Dev) (f : Nat) : Dev :=
  if d.power.state = .active then d else { d with power := { d.power with latched := setBit d.power.latched (f / 16) true } }

/-- Whether a host's command is a read, whose sender awaits an answer. -/
def hostRead (i : Instr) : Bool := match i with | .latchRead _ _ _ => true | .bar2Read _ _ _ => true | _ => false

/-- An error message of a function (R123). -/
def Dev.errMsg (d : Dev) (f : Nat) (k : ErrKind) : Dev := d.setPort (f / 16) { d.port (f / 16) with errs := (d.port (f / 16)).errs ++ [⟨f, k⟩] }

/-- An Unsupported Request at a function (R122, R123), as PCIe Base has an endpoint record and report it: a write is an uncorrectable error
of the severity set, a read that is not fatal an advisory one. Enables, masks and severities of VFs are their PF's (PRESUMED, log
entry 118). -/
def Dev.requestError (d : Dev) (f : Nat) (posted : Bool) : Dev :=
  let x := d.fn f
  let c := d.fn (f / 16 * 16)
  let shown := bit c.errCtl 3
  let stat (i : Nat) : BitVec 4 := setBit (setBit x.errStat 3 true) i true
  let unc := setBit x.aerUnc 20 true
  if bit c.aerUncSev 20 then
    let d1 := d.setFn f { x with errStat := stat 2, aerUnc := unc }
    if !bit c.aerUncMask 20 && bit c.errCtl 2 && shown then d1.errMsg f .fatal else d1
  else if posted then
    let d1 := d.setFn f { x with errStat := stat 1, aerUnc := unc }
    if !bit c.aerUncMask 20 && bit c.errCtl 1 && shown then d1.errMsg f .nonfatal else d1
  else
    let d1 := d.setFn f { x with errStat := stat 0, aerCor := setBit x.aerCor 13 true, aerUnc := if bit c.aerCorMask 13 then x.aerUnc else unc }
    if !bit c.aerCorMask 13 && bit c.errCtl 0 && shown then d1.errMsg f .cor else d1

/-- A host request that no function takes (R450): a write is discarded, a read completes with Unsupported Request. A function in D3hot records
the error (R122). -/
def Dev.unclaimed (d : Dev) (i : Instr) (f : Nat) : Dev :=
  let link := (d.port (f / 16)).link
  if (link ≠ .l0 ∧ link ≠ .l1) ∨ d.freeze.at_.isSome then d
  else
    let d1 : Dev := if hostRead i then { d with host := some .unsupported } else d
    if d.boot.stage = .ready ∧ d.exists_ f then d1.requestError f !(hostRead i) else d1

/-- A host request with effect h: it waits through a sleep state (R439), and has no effect when nothing takes it (R450). -/
def hosted (i : Instr) (f : Nat) (h : Dev → Dev) (d : Dev) : Dev :=
  if !d.hostReach f then d.unclaimed i f else if d.asleep then ({ d with held := d.held ++ [i] } : Dev).hostFired f else h (d.hostFired f)

/-- A write to a ring register of a function: discarded while the function is being reset (R158). -/
def ringWrite (i : Instr) (f : Nat) (h : Dev → Dev) (d : Dev) : Dev := hosted i f (fun d => if d.resetting f then d else h d) d

/-- n steps forward from a to b, modulo 2^16. -/
def span (a b : BitVec 16) : Nat := (b - a).toNat

/-- DOORBELL (R88). -/
def Dev.doorbell (d : Dev) (g : Nat) (new : BitVec 16) : Dev :=
  let r := d.ring g
  if span r.tail new ≤ span r.tail (r.acc + BitVec.ofNat 16 r.depth) then
    d.setRing g { r with tail := new, curOffered := r.curOffered + span r.tail new }
  else (d.setRing g { r with err := setBit r.err 0 true }).setEv (ringFn g) 5

/-- DOORBELL (R88). -/
def execDoorbell (f : Fin 64) (k : Fin 4) (v : BitVec 32) (s : State) : Host.Outcome State Fault Refusal :=
  run (ringWrite (.doorbell f k v) f.val (fun d => d.doorbell (4 * f.val + k.val) (v.setWidth 16))) s

/-- The last item that a record completes or covers, and whether it asks for a notice. -/
def Dev.recordLast (d : Dev) (g : Nat) (rec : W144) : Nat × Bool :=
  if bit rec 71 then (fld rec 0 64, false)
  else (fld rec 80 64, match d.entry g (fld rec 80 64) with | some e => bit e.item 52 | none => false)

/-- The write of a kept record tried again (R95); one that a reset gives up is not (R160). -/
def Dev.retryRecord (d : Dev) (g : Nat) : Dev :=
  match (d.ring g).kept, (d.ring g).lost with
  | some rec, false => let (last, notify) := d.recordLast g rec; d.writeRecord g rec last notify
  | _, _ => d

/-- CMPL_HEAD (R89, R95). -/
def Dev.cmplHead (d : Dev) (g : Nat) (new : BitVec 16) : Dev :=
  let r := d.ring g
  (d.setRing g (if span r.head new ≤ span r.head r.cmplTail then { r with head := new } else { r with err := setBit r.err 3 true })).retryRecord g

/-- CMPL_HEAD (R89, R95). -/
def execCmplHead (f : Fin 64) (k : Fin 4) (v : BitVec 32) (s : State) : Host.Outcome State Fault Refusal :=
  run (ringWrite (.cmplHead f k v) f.val (fun d => d.cmplHead (4 * f.val + k.val) (v.setWidth 16))) s

/-- RING_CTL (R16, R86, R87): a reserved depth, or another depth while the ring is enabled or holds items, discards the write. -/
def Dev.ringCtl (d : Dev) (g : Nat) (v : BitVec 32) : Dev :=
  let r := d.ring g
  let depth := fld v 4 4
  if depth < 4 ∨ 10 < depth ∨ (depth ≠ r.depthLog2.toNat ∧ (r.enable ∨ r.inflight ≠ 0)) then d
  else d.setRing g { r with enable := bit v 31, depthLog2 := BitVec.ofNat 4 depth, every := v.setWidth 4 }

/-- RING_CTL (R87). -/
def execRingCtl (f : Fin 64) (k : Fin 4) (v : BitVec 32) (s : State) : Host.Outcome State Fault Refusal :=
  run (ringWrite (.ringCtl f k v) f.val (fun d => d.ringCtl (4 * f.val + k.val) v)) s

/-! Admission. -/

/-- Conditions 1 to 4 of R91, and that the device admits at all (R146, R158, R432). -/
def Dev.mayAdmit (d : Dev) (g : Nat) : Bool :=
  let r := d.ring g
  let f := ringFn g
  d.runs 1 && d.exists_ f && !(d.fn f).hold && !d.resetting f && r.enable && !bit r.err 1 && r.acc != r.tail && decide (r.inflight < 128) &&
    decide (r.inflight + span r.head r.cmplTail < r.depth)

/-- Whether a ring waits for a shared entry that its port's budget permits (R91, R130). -/
def Dev.waitsShared (d : Dev) (g : Nat) : Bool :=
  !(d.ring g).reserved && decide (d.portShared (g / 64) < (d.port (g / 64)).inForce.maxShared) && d.mayAdmit g

/-- Whether ring g receives a shared entry now (R91, R93): one is free, and no ring that waits for one comes before it in the rotation.
The rotation also orders rings that find entries free at once (DEDUCED, log entry 117). -/
def Dev.grantsShared (d : Dev) (g : Nat) : Bool :=
  let before := (List.range 256).filter (fun i => decide ((i + 255 - d.rrGrant) % 256 < (g + 255 - d.rrGrant) % 256) && d.waitsShared i)
  d.waitsShared g && decide (d.allShared < 4096) && before = []

/-- An entry of the ledger for an item just admitted. -/
def Entry.new (acc : Nat) (gen : BitVec 8) (item : W144) (status : Option Nat) : Entry :=
  { acc := acc, item := item, gen := gen, phase := if status.isSome then .ended else .unstarted, progStatus := BitVec.ofNat 8 (status.getD 0),
    result := status.map (fun _ => 0), ops := [], runs := 0, interrupts := 0, txcs := [], squashed := false, covered := false }

/-- An item admitted: read once, with its accession number; one that cannot be read or has a reserved bit runs nothing (R84,
R85, R91, R96). NOTIFY and BARRIER of an item that could not be read are taken as 0: the ledger's copy is zero (DESIGN CHOICE, log
entry 117). -/
def Dev.admitItem (d : Dev) (g : Nat) : Dev :=
  let r := d.ring g
  let f := ringFn g
  let take (d : Dev) (item : W144) (status : Option Nat) : Dev :=
    let r := d.ring g
    d.setRing g
      { r with acc := r.acc + 1, nextAcc := r.nextAcc + 1, curAdmitted := r.curAdmitted + 1
               entries := r.entries ++ [Entry.new r.nextAcc (d.fn f).gen item status] }
  match d.readV f ((r.base.toNat + 18 * (r.acc.toNat % r.depth)) % 2 ^ 48) 18 .read with
  | (d1, .error (cause, va)) =>
    let d2 := d1.accessFault f cause srcItem (ringKind g) va
    take (d2.setRing g { d2.ring g with err := setBit (d2.ring g).err 2 true }) 0 (some (causeStatus cause).toNat)
  | (d1, .ok bytes) =>
    let item := BitVec.ofNat 144 (ofBytes bytes)
    take d1 item (if fld item 54 6 ≠ 0 ∨ fld item 48 4 ≠ 0 then some 0x10 else none)

/-- ITEM_ADMIT (R91 to R93). -/
def execItemAdmit (g : Fin 256) (s : State) : Host.Outcome State Fault Refusal :=
  runAs (mpHost (ringFn g.val)) (fun d =>
    if !d.mayAdmit g.val then d
    else if (d.ring g.val).reserved then d.admitItem g.val
    else if d.grantsShared g.val then
      (({ d with rrGrant := g.val } : Dev).setRing g.val { d.ring g.val with shared := (d.ring g.val).shared + 1 }).admitItem g.val
    else d) s

/-! The start of an item. -/

/-- What a program header declares (R79): length, step limit, entry, parameter length. -/
structure Header where
  length : Nat
  limit : Nat
  entry : Nat
  params : Nat
  deriving DecidableEq, Repr

/-- A header checked for the profile that the program's use requires (R79): 0 S, 1 V, 2 A. -/
def checkHeader (profile : Nat) (w0 w1 : W72) : Option Header :=
  let len := fld w0 32 24
  let entry := fld w1 48 24
  if fld w0 64 8 = 0xD5 ∧ fld w0 62 2 = profile ∧ fld w0 58 4 = 1 ∧ fld w0 56 2 = 0 ∧ 1 ≤ len ∧ len ≤ 16777213 ∧ 2 ≤ entry ∧ entry ≤ len + 1 ∧
      fld w1 0 32 = 0 then
    some { length := len, limit := if fld w0 0 32 = 0 then 2 ^ 32 else fld w0 0 32, entry := entry, params := fld w1 32 16 }
  else none

/-- The program and parameter addresses of an item (R83). -/
def itemProg (item : W144) : Nat := fld item 102 42 * 64
def itemParam (item : W144) : Nat := fld item 60 42 * 64

/-- The registers at entry of an item's program (R80). -/
def entryBank (param bytes acc tag : Nat) : Bank :=
  { Bank.entry with g := [(1, BitVec.ofNat 72 param), (2, BitVec.ofNat 72 bytes), (3, BitVec.ofNat 72 acc), (4, BitVec.ofNat 72 tag)] }

/-- A run of an item's program begins on its ring's thread (R79, R80, R105): a header that cannot be fetched or is not valid
ends it at once. No instruction has run then, and the instruction address in the result field is the program's address (DESIGN CHOICE, log
entry 116). -/
def Dev.beginRun (d : Dev) (g : Nat) (e : Entry) : Dev :=
  let f := ringFn g
  let base := itemProg e.item
  let idle := { Thread.idle with acc := some e.acc, seq := { Seq.idle with base := BitVec.ofNat 48 base } }
  let d0 := (d.updThread g (fun _ => idle)).updEntry g e.acc (fun e => { e with phase := .running, runs := e.runs + 1 })
  let stop (d : Dev) (status code : BitVec 8) : Dev := d.endProgram g status (some (excResult code base))
  match d0.readWords f base 2 .exec with
  | (d1, .error (cause, va)) => stop (d1.excFault f cause srcFetch (ringKind g) va) (causeStatus cause) (causeExc cause)
  | (d1, .ok ws) =>
    match checkHeader 0 (nth ws 0 0) (nth ws 1 0) with
    | none => stop d1 0x10 0x0C
    | some h =>
      d1.updThread g (fun _ =>
        { idle with
          seq := { bank := entryBank (itemParam e.item) (9 * h.params) e.acc (fld e.item 0 48), pc := h.entry, stack := [], base := BitVec.ofNat 48 base
                   length := h.length, limit := h.limit, steps := 0 }
          paramBase := BitVec.ofNat 48 (itemParam e.item), paramLen := h.params })

/-- ITEM_START (R30, R83, R158): the next unstarted item, when the thread is free; BARRIER waits for every earlier item. -/
def execItemStart (g : Fin 256) (s : State) : Host.Outcome State Fault Refusal :=
  run (fun d =>
    let r := d.ring g.val
    match r.entries.find? (fun e => e.phase = .unstarted && !e.covered) with
    | none => d
    | some e =>
      let earlier := r.entries.all (fun x => x.acc ≥ e.acc || x.covered)
      if !d.threadUp g.val || r.thread.acc.isSome || d.resetting (ringFn g.val) || (bit e.item 53 && !earlier) then d else d.beginRun g.val e) s

/-! Operations. -/

/-- Whether a target accepts an operation type with a descriptor of this many words (R184, R221, R252, R280, R318, R332, R350,
R378, R410, R472, R507); the length of a DRAW_PASS rests on its descriptor. -/
def opLengthOk (target kind len : Nat) : Bool :=
  match target, kind with
  | 0, 1 => decide (3 ≤ len)
  | 0, 2 => len = 4
  | 0, 3 => len = 4
  | 0, 4 => len = 8
  | 1, 1 => len = 1
  | 1, 2 => len = 4
  | 1, 3 => len = 1
  | 2, 1 => len = 4
  | 2, 2 => len = 4
  | 3, 1 => len = 4
  | 4, 1 => len = 1
  | 4, 2 => len = 2
  | 4, 3 => len = 5
  | 4, 4 => len = 2
  | 5, 1 => len = 5
  | 5, 2 => len = 1
  | 5, 3 => len = 4
  | 5, 4 => len = 4
  | 5, 5 => len = 1
  | 6, 1 => len = 3
  | 6, 2 => len = 1
  | 6, 3 => len = 1
  | 6, 4 => len = 2
  | 7, 1 => len = 2
  | 7, 2 => len = 1
  | 7, 3 => len = 1
  | 8, 1 => len = 1
  | 8, 2 => len = 2
  | 8, 3 => len = 2
  | 9, 1 => len = 7
  | 9, 2 => len = 2
  | 9, 3 => len = 2
  | 9, 4 => len = 1
  | 9, 5 => len = 1
  | 9, 6 => len = 1
  | 9, 7 => len = 1
  | 9, 8 => len = 2
  | 9, 9 => len = 2
  | 10, 1 => len = 1
  | 10, 2 => len = 1
  | 10, 3 => len = 1
  | _, _ => false

/-- The share class of a target's operations (R153): none where their work stands outside shares. The class COMPOSE holds passes, no operations. -/
def shareClass (target : Nat) : Option Nat := match target with | 0 => some 0 | 2 => some 2 | 5 => some 3 | _ => none

/-- The block of R432 that stops a target's operations. -/
def targetBlock (target : Nat) : Nat := match target with | 0 => 4 | 1 => 4 | 2 => 5 | 3 => 5 | 4 => 10 | 5 => 7 | 6 => 8 | 7 => 9 | 8 => 6 | 9 => 2 | _ => 3

/-- An operation ends without a report to the ledger (R104), and the entries that waited for it are released (R94). -/
def Dev.dropOp (d : Dev) (id : OpId) : Dev := (d.updOp id (fun o => { o with phase := .reported })).releaseEntries id.ring.val

/-- Whether an operation carries its function's generation (R97, R104). -/
def Dev.current (d : Dev) (o : Op) : Bool := o.gen = (d.fn o.fn).gen

/-- What the ledger keeps of a finished operation. -/
def Op.report (o : Op) : OpRep :=
  { done := true, status := o.status, result := o.result, late := o.late, deferred := o.deferred, superseded := o.superseded, replayed := o.replayed
    cancelled := o.cancel && o.status = 0x02 }

/-- The WAITEV of an item's thread that waits for an operation sees it complete (R72). -/
def Dev.opSeen (d : Dev) (id : OpId) : Dev :=
  if (d.ring id.ring.val).thread.acc = some id.acc then d.updThread id.ring.val (fun t => { t with wait := t.wait.meet 0 id.idx d.now }) else d

/-- OP_COMPLETE (R29, R103, R104): the index counts once; the completion of another generation is discarded. -/
def execOpComplete (id : OpId) (s : State) : Host.Outcome State Fault Refusal :=
  run (fun d =>
    match d.op id with
    | none => d
    | some o =>
      if o.phase ≠ .finished then d
      else if !d.current o then d.dropOp id
      else
        ((d.updEntry id.ring.val id.acc (fun e =>
          { e with ops := e.ops.map (fun x => if x.1 = id.idx && !x.2.done then (x.1, o.report) else x) })).opSeen id).dropOp id) s

/-! Records. -/

/-- Whether a commit of an item still waits for its apply point (R115). -/
def Dev.commitWaits (d : Dev) (g acc : Nat) : Bool := d.commits.any (fun c => c.ring = g && c.acc = acc)

/-- Whether the record of an item is decided (R102, R115): its program has ended, its operations and commits are done. -/
def Dev.decided (d : Dev) (g : Nat) (e : Entry) : Bool := e.phase = .ended && e.opsDone && !d.commitWaits g e.acc

/-- The item whose completion record may be written now (R29, R95, R115, R158): the oldest one without a record, its program
ended, its operations complete, its commits applied. -/
def Dev.recordable (d : Dev) (g : Nat) : Option Entry :=
  let r := d.ring g
  match r.entries.find? (fun e => !e.covered) with
  | none => none
  | some e =>
    let discarding := match (d.fn (ringFn g)).rst with | some x => decide (x.mode = 3) | none => false
    if d.decided g e && !discarding && r.kept.isNone then some e else none

/-- COMPLETION_RECORD_WRITE (R29, R95, R99, R160). -/
def execCompletionRecordWrite (g : Fin 256) (s : State) : Host.Outcome State Fault Refusal :=
  runAs (mpHost (ringFn g.val)) (fun d =>
    if !d.runs 3 then d
    else
      match d.recordable g.val with
      | some e => d.writeRecord g.val e.record e.acc (bit e.item 52)
      | none => d) s

/-- COMPLETION_COALESCE_TIMEOUT (R90). -/
def execCompletionCoalesceTimeout (g : Fin 256) (at_ : Nat) (s : State) : Host.Outcome State Fault Refusal :=
  runAs (mpHost (ringFn g.val)) (fun d =>
    let d1 := d.tick at_
    let r := d1.ring g.val
    match r.oldestRec with
    | some t => if t + 20000 ≤ d1.now then (d1.setRing g.val { r with sinceEv := 0, oldestRec := none }).setEv (ringFn g.val) (ringKind g.val) else d
    | none => d) s

/-- CMPL_RETRY (R95): the retry of an epoch boundary. -/
def execCmplRetry (g : Fin 256) (s : State) : Host.Outcome State Fault Refusal := runAs (mpHost (ringFn g.val)) (fun d => if d.runs 3 then d.retryRecord g.val else d) s

/-! The epoch boundary. -/

/-- The counts that a ring keeps for a complete epoch (R86): rates, and BLOCKED when an item offered at its start still waits. -/
def Ring.epoch (r : Ring) : Ring :=
  { r with
    offered := Nat.min r.curOffered 0xFFFF, admitted := Nat.min r.curAdmitted 0xFFFF, curOffered := 0, curAdmitted := 0
    blocked := if r.curAdmitted < r.backlog then satAdd 24 r.blocked 1 else r.blocked
    backlog := span r.acc r.tail }

/-! Sequencer cores. -/

/-- The rings served by a sequencer core (R21). -/
def coreRings (c : Nat) : List Nat := (List.range 32).map (fun i => 8 * i + c)

/-- An item whose program is interrupted: its shadow and buffered operations are gone; a fourth time ends it (R70, R105, R106, R109). -/
def Dev.interrupt (d : Dev) (g : Nat) : Dev :=
  match (d.ring g).thread.acc with
  | none => d
  | some acc =>
    let d1 := d.updEntry g acc (fun e => { e with interrupts := e.interrupts + 1 })
    let n := match d1.entry g acc with | some e => e.interrupts | none => 0
    if 4 ≤ n then d1.endProgram g 0x12 (some 4)
    else d1.updThread g (fun t => { t with buf := [], tx := none, wait := .none })

/-- A sequencer core reset (R105, R443). -/
def Dev.coreReset (d : Dev) (c : Nat) : Dev :=
  (coreRings c).foldl (fun d g => d.interrupt g) { d with coreDown := tset d.coreDown c d.now }

/-- SEQUENCER_CORE_RESET (R105). -/
def execSequencerCoreReset (c : Fin 8) (s : State) : Host.Outcome State Fault Refusal :=
  run (fun d => if d.awake && (tfind d.coreDown c.val).isNone then d.coreReset c.val else d) s

/-- A core's guest threads start again: each interrupted item from its entry (R105). -/
def Dev.coreRestart (d : Dev) (c : Nat) : Dev :=
  (coreRings c).foldl (fun d g =>
    match (d.ring g).thread.acc with
    | none => d
    | some acc => match d.entry g acc with | some e => d.beginRun g e | none => d) { d with coreDown := tdel d.coreDown c }

/-- SEQUENCER_CORE_RESTART (R105, R109). -/
def execSequencerCoreRestart (c : Fin 8) (at_ : Nat) (s : State) : Host.Outcome State Fault Refusal :=
  run (fun d => if d.awake && (tfind d.coreDown c.val).isSome then (d.tick at_).coreRestart c.val else d) s

end Sys2Proof.Machine
end

