-- ==== Sys2Proof/Machine/Audio.lean ====
section
/-! DEFINITION. The A-profile instructions on the audio slices (R345 to R348), the ramp curve (R353), and what a node's output
reads as. -/

namespace Sys2Proof.Machine

/-! Ramps. -/

/-- Pi times 2^160. -/
def pi160 : Int := 4591442807048218921384805199743311128454155024418

/-- cos(pi k / n) times 2^160, by its power series; the error lies below 2^-140. -/
def cosPi (k n : Nat) : Int :=
  let x := pi160 * (k : Int) / (n : Int)
  let x2 := x * x / 2 ^ 160
  ((List.range 32).foldl (fun (acc : Int × Int) i =>
    let t := -(acc.2 * x2 / 2 ^ 160) / (((2 * i + 1) * (2 * i + 2) : Nat) : Int)
    (acc.1 + t, t)) ((2 : Int) ^ 160, (2 : Int) ^ 160)).1

/-- The S36 pattern of 1.0. -/
def s36One : Int := 2 ^ 31

/-- The gain of an edge of KIND 0 steady, 1 added, 2 removed, k samples after the swap, over n samples (R353). -/
def rampGain (kind k n : Nat) : Int :=
  match kind with
  | 0 => s36One
  | 1 => if n ≤ k then s36One else roundShift 0 (2 ^ 160 - cosPi k n) 130
  | _ => if n ≤ k then 0 else roundShift 0 (2 ^ 160 + cosPi k n) 130

/-- An S36 value times an S36 gain, rounded to nearest even. -/
def scaled (gain v : Int) : Int := clampI s36Lo s36Hi (roundShift 0 (gain * v) 31)

/-! The graph that runs. -/

/-- The graph that runs (R351, R365): none while there is none or it is in FAULT. -/
def Audio.active (a : Audio) : Option Graph := if a.state = 0 ∨ a.state = 3 then none else a.graph

/-- The index of the sample that runs, and samples since the swap and since a GRAPH_STOP. -/
def Audio.index (a : Audio) : Nat := a.count - 1
def Audio.sinceSwap (a : Audio) : Nat := a.index - a.since
def Audio.sinceStop (a : Audio) : Nat := a.index - a.stopAt

/-- N of R353. -/
def Graph.rampLen (g : Graph) : Nat := g.rampMs * 192

/-- A source or sink node's ends: STREAM_IN and PORT_IN; STREAM_OUT and PORT_OUT (R364). -/
def GNode.isSource (n : GNode) : Bool := n.type = 1 || n.type = 3
def GNode.isSink (n : GNode) : Bool := n.type = 2 || n.type = 4

/-- The samples over which MUTE fades a node (R364): RAMP_MS where the type has it, else 5 ms. -/
def Dev.muteLen (d : Dev) (n : Nat) : Nat :=
  match fld (d.obj 0x05 n 1) 10 6 with
  | 5 => fld (d.obj 0x05 n 6) 0 8 * 192
  | 6 => fld (d.obj 0x05 n 10) 0 8 * 192
  | _ => 960

/-- A node output under MUTE (R364): as it is, zero once the fade has ended, a value the manual does not state during it (tag 18). -/
def Dev.muted (d : Dev) (n : Nat) (v : Int) : Int :=
  let k := tget d.audio.mutes n 0
  if k = 0 then v else if d.muteLen n ≤ k then 0 else s36Val (Config.unstated 18 [n, k, ofSigned 36 v])

/-- The converter of a node. -/
def Dev.conv (d : Dev) (n : Nat) : Conv := tget d.audio.convs n .atReset
def Dev.setConv (d : Dev) (n : Nat) (x : Conv) : Dev := { d with audio := { d.audio with convs := tset d.audio.convs n x } }

/-- Whether a port input channel carries a signal (R361): the port runs and the slot or microphone is enabled. -/
def Dev.portCarries (d : Dev) (n c : Nat) : Bool :=
  let w := d.obj 0x05 n 2
  let port := fld w 0 4
  let slot := fld w 4 5 + c
  (d.aport port).state = 2 && (if port < 8 then bit (d.obj 0x06 port 2) slot else bit (d.obj 0x06 port 1) slot)

/-! Converters (R357, R358). -/

/-- The frames that a filter spans, and the frames by which what it computes is delayed: with the former's half, the group delays of R357. -/
def outerSpan : Nat := 49
def innerSpan : Nat := 33
def innerDelay : Nat := 16
def outerDelay : Nat := 24

/-- What the filter makes of one channel of the frames it spans: of zeros alone, zero. -/
def filterOf (span phase c : Nat) (ppm : Int) (l : List (List Nat)) : Nat :=
  let window := (l.take span).map (fun f => nth f c 0 % 2 ^ 36)
  if window.all (fun v => v = 0) then 0 else Config.converter window phase ppm % 2 ^ 36

/-- A frame that enters a converter, of an input converter or an output converter; `counts` for one of the source. -/
def Conv.enter (x : Conv) (span : Nat) (counts : Bool) (f : List Nat) : Conv :=
  { x with frames := (f :: x.frames).take span, taken := if counts then x.taken + 1 else x.taken }

/-- A ratio offset in force for a sample: how long it has stayed within 1 ppm since the first input (R358). -/
def Conv.measure (x : Conv) (ppm : Int) : Conv :=
  let near_ := x.taken ≠ 0 && decide ((ppm - x.ref.toInt).natAbs ≤ 100)
  { x with ppm := BitVec.ofInt 24 ppm, ref := if near_ then x.ref else BitVec.ofInt 24 ppm, steady := if near_ then x.steady + 1 else 0 }

/-- A frame computed, which waits in the line of `delay` frames. -/
def Conv.compute (x : Conv) (span delay channels phase : Nat) (ppm : Int) : Conv :=
  { x with line := ((List.range channels).map (fun c => filterOf span phase c ppm x.frames) :: x.line).take (delay + 1) }

/-- The frame that leaves the line. -/
def Conv.leaving (x : Conv) (delay : Nat) : List Nat := nth x.line delay []

/-- What channel c of a source node gives for a sample (R348, R357, R358): zero while muted, else the converter's output, faded in over
5 ms. -/
def Dev.sourceSample (d : Dev) (n : GNode) (c i : Nat) : Int :=
  let x := d.conv n.node
  if n.channels ≤ c || x.state ≠ 2 then 0
  else scaled (rampGain 1 (i - x.lockedAt) 960) (s36Val (nth (x.leaving innerDelay) c 0))

/-! Refs and elements. -/

/-- The fields of format 7: aD, aS, bank, offset. -/
def accD (w : Insn) : Nat := fld w.low 32 4
def accS (w : Insn) : Nat := fld w.low 28 4
def refBank (w : Insn) : Nat := fld w.low 24 4
def refOff (w : Insn) : Nat := fld w.low 0 24
def refNode (w : Insn) : Nat := fld w.low 14 10

/-- The bits of an offset that its bank leaves zero; ABIQ takes a state word in bank 0. -/
def offsetOk (abiq : Bool) (w : Insn) : Bool :=
  match refBank w with
  | 0 => fld w.low 4 4 = 0 && (abiq || fld w.low 0 4 = 0)
  | 2 => fld w.low 4 10 = 0
  | 4 => fld w.low 0 12 = 0
  | 5 => fld w.low 3 11 = 0
  | 15 => refOff w = 0
  | _ => true

/-- What an A-profile opcode uses of a word: dst, srcA, srcB with bank 15, aD, aS, and the banks of its ref (none: the ref is zero). -/
structure AudUse where
  dst : Bool
  a : Bool
  aD : Bool
  aS : Bool
  banks : List Nat
  subs : Nat
  deriving DecidableEq, Repr

/-- Whether a word leaves zero what its opcode does not use, and names a bank that it accepts (R49, R50, R347). -/
def AudUse.ok (u : AudUse) (abiq : Bool) (w : Insn) : Bool :=
  (u.dst || w.dst = 0) && (u.a || w.srcA = 0) && ((u.banks.contains 15 && refBank w = 15) || w.srcB = 0) && (u.aD || accD w = 0) && (u.aS || accS w = 0) &&
    (if u.banks = [] then refBank w = 0 && refOff w = 0 else u.banks.contains (refBank w) && offsetOk abiq w)

/-- The row of an opcode for a word: one that accepts nothing when the word breaks the rules of its fields. -/
def AudUse.shape (u : AudUse) (abiq : Bool) (w : Insn) : Shape := if u.ok abiq w then .aud u.subs else { Shape.aud u.subs with formats := [] }

/-- Element i of a register as an S36 value, and a register with an element replaced. -/
def elemVal (x : W72) (i : Nat) : Int := s36Val (fld x (36 * i) 36)
def setElem (x : W72) (i : Nat) (v : Int) : W72 := setFld x (36 * i) 36 (ofSigned 36 v)

/-- The sub-operation's two element selectors. -/
def sel0 (w : Insn) : Nat := w.s % 2
def sel1 (w : Insn) : Nat := w.s / 2 % 2

/-- A field word of a node; one beyond word 63 is not stated (tag 21). -/
def Dev.nodeField (d : Dev) (n i : Nat) : W72 := if i < 64 then d.obj 0x05 n i else BitVec.ofNat 72 (Config.unstated 21 [n, i])

/-- The operand that a ref of banks 0, 1, 4 or 15 names. -/
def Dev.refVal (d : Dev) (w : Insn) (b : Bank) : Except Exc Int :=
  match refBank w with
  | 0 => if (d.gnode (refNode w)).isNone then .error exIllegal else .ok (elemVal (d.nodeField (refNode w) (fld w.low 8 6)) (sel1 w))
  | 1 =>
    match d.audio.graph.bind (fun g => g.consts[refOff w]?) with
    | some x => .ok (elemVal x (sel1 w))
    | none => .error exParam
  | 4 =>
    match d.audio.graph with
    | some g =>
      match g.edges[fld w.low 12 12]? with
      | some e => .ok (if sel1 w = 0 then rampGain e.kind d.audio.sinceSwap g.rampLen else s36Val (Config.unstated 20 [1]))
      | none => .ok (s36Val (Config.unstated 20 [0, fld w.low 12 12]))
    | none => .ok 0
  | _ => .ok (elemVal (b.rd w.b) (sel1 w))

/-! Lanes. -/

/-- An instruction on each lane of a slice whose predicate holds, in order of lanes. -/
def Dev.laneFold (h : Dev → Nat → Bank → Dev × Except Exc Bank) (w : Insn) (d : Dev) (l : Nat) (banks : List Bank) : Dev × Except Exc (List Bank) :=
  match banks with
  | [] => (d, .ok [])
  | b :: r =>
    match (if b.holds w then h d l b else (d, .ok b)) with
    | (d1, .error e) => (d1, .error e)
    | (d1, .ok b1) =>
      match Dev.laneFold h w d1 (l + 1) r with
      | (d2, .error e) => (d2, .error e)
      | (d2, .ok t) => (d2, .ok (b1 :: t))

/-- An A-profile instruction: on slice n, h acts on each lane. -/
def audio (c : Ctx) (u : AudUse) (abiq : Bool) (w : Insn) (h : Nat → Dev → Nat → Bank → Dev × Except Exc Bank) (d : Dev) : Dev :=
  issue c (u.shape abiq w) w false (fun d =>
    match c with
    | .slice n =>
      let x := d.slice n.val
      match Dev.laneFold (h n.val) w d 0 (x.seq.bank :: x.others) with
      | (d1, .error e) => (d1, .error e)
      | (d1, .ok l) =>
        let y := d1.slice n.val
        (d1.setSlice n.val { y with seq := { y.seq with bank := l.headD y.seq.bank }, others := l.tail }, .ok .next)
    | _ => (d, .ok .next)) d

/-- An accumulator of a lane, and it replaced: units of 2^-62, saturated to S80. -/
def Dev.acc (d : Dev) (n l i : Nat) : Int := tget (d.slice n).acc (16 * l + i) 0
def Dev.setAcc (d : Dev) (n l i : Nat) (v : Int) : Dev :=
  d.setSlice n { d.slice n with acc := tset (d.slice n).acc (16 * l + i) (clampI (-(2 ^ 79)) (2 ^ 79 - 1) v) }

/-- AMAC and AMSU. -/
def multiplyAdd (neg : Bool) (w : Insn) (n : Nat) (d : Dev) (l : Nat) (b : Bank) : Dev × Except Exc Bank :=
  match d.refVal w b with
  | .error e => (d, .error e)
  | .ok v =>
    let p := elemVal (b.rd w.a) (sel0 w) * v
    (d.setAcc n l (accD w) (d.acc n l (accD w) + (if neg then -p else p)), .ok b)

/-- AMAC (R347). -/
def execAmac (c : Ctx) (w : Insn) (s : State) : Host.Outcome State Fault Refusal :=
  run (audio c { dst := false, a := true, aD := true, aS := false, banks := [0, 1, 4, 15], subs := 4 } false w (multiplyAdd false w)) s

/-- AMSU (R347). -/
def execAmsu (c : Ctx) (w : Insn) (s : State) : Host.Outcome State Fault Refusal :=
  run (audio c { dst := false, a := true, aD := true, aS := false, banks := [0, 1, 4, 15], subs := 4 } false w (multiplyAdd true w)) s

/-- ALDC (R347). -/
def execAldc (c : Ctx) (w : Insn) (s : State) : Host.Outcome State Fault Refusal :=
  run (audio c { dst := true, a := false, aD := false, aS := false, banks := [0, 1, 4], subs := 4 } false w (fun _ d _ b =>
    match d.refVal w b with
    | .error e => (d, .error e)
    | .ok v => (d, .ok (b.wr w.d (setElem (b.rd w.d) (sel0 w) v))))) s

/-- The key of a state word of a node's channel, and the place of a tap in the delay memory. -/
def stateKey (n c i : Nat) : Nat := 128 * n + 16 * c + i
def GNode.delayAt (g : GNode) (c t : Nat) : Nat := g.delayBase + c * g.delayLen + t

/-- The node of a ref, with the tap or state word checked (R347). -/
def Dev.delayNode (d : Dev) (w : Insn) : Except Exc GNode :=
  match d.gnode (refNode w) with
  | none => .error exIllegal
  | some g => if refBank w = 3 && decide (g.delayLen ≤ fld w.low 0 14) then .error exParam else .ok g

/-- ADLR (R347): a delay line that no channel has gives a value that is never delivered (tag 19). -/
def execAdlr (c : Ctx) (w : Insn) (s : State) : Host.Outcome State Fault Refusal :=
  run (audio c { dst := true, a := false, aD := false, aS := false, banks := [2, 3], subs := 4 } false w (fun _ d l b =>
    match d.delayNode w with
    | .error e => (d, .error e)
    | .ok g =>
      let v : Int :=
        if refBank w = 2 then elemVal (tget d.audio.nodeState (stateKey g.node l (fld w.low 0 4)) 0) 0
        else if g.channels ≤ l then s36Val (Config.unstated 19 [g.node, l])
        else
          let t := (d.audio.index % g.delayLen + g.delayLen - fld w.low 0 14) % g.delayLen
          elemVal (BitVec.ofNat 72 (tget d.audio.delay (g.delayAt l t) 0)) (sel1 w)
      (d, .ok (b.wr w.d (setElem (b.rd w.d) (sel0 w) v))))) s

/-- ADLW (R347). -/
def execAdlw (c : Ctx) (w : Insn) (s : State) : Host.Outcome State Fault Refusal :=
  run (audio c { dst := false, a := true, aD := false, aS := false, banks := [2, 3], subs := 4 } false w (fun _ d l b =>
    match d.delayNode w with
    | .error e => (d, .error e)
    | .ok g =>
      let v := elemVal (b.rd w.a) (sel0 w)
      let a := d.audio
      if refBank w = 2 then ({ d with audio := { a with nodeState := tset a.nodeState (stateKey g.node l (fld w.low 0 4)) (BitVec.ofInt 72 v) } }, .ok b)
      else if g.channels ≤ l then (d, .ok b)
      else
        let k := g.delayAt l (a.index % g.delayLen)
        ({ d with audio := { a with delay := tset a.delay k (setElem (BitVec.ofNat 72 (tget a.delay k 0)) (sel1 w) v).toNat } }, .ok b))) s

/-- The key of a node output, and of one written by a slice in the run of this sample. -/
def outKey (n c : Nat) : Nat := 8 * n + c
def writtenKey (slice n c : Nat) : Nat := slice * 8192 + outKey n c

/-- AIN (R348). -/
def execAin (c : Ctx) (w : Insn) (s : State) : Host.Outcome State Fault Refusal :=
  run (audio c { dst := true, a := false, aD := false, aS := false, banks := [5], subs := 2 } false w (fun n d l b =>
    match d.gnode (refNode w) with
    | none => (d, .error exIllegal)
    | some g =>
      let ch := (l + fld w.low 0 3) % 8
      let a := d.audio
      let raw : Int :=
        if g.isSource then d.sourceSample g ch a.index
        else s36Val (tget (if a.written.contains (writtenKey n g.node ch) then a.outs else a.prev) (outKey g.node ch) 0)
      (d, .ok (b.wr w.d (setElem (b.rd w.d) (sel0 w) (d.muted g.node raw)))))) s

/-- AOUT (R347). -/
def execAout (c : Ctx) (w : Insn) (s : State) : Host.Outcome State Fault Refusal :=
  run (audio c { dst := false, a := true, aD := false, aS := false, banks := [5], subs := 2 } false w (fun n d l b =>
    match d.gnode (refNode w) with
    | none => (d, .error exIllegal)
    | some g =>
      let ch := (l + fld w.low 0 3) % 8
      let a := d.audio
      if g.channels ≤ ch then (d, .ok b)
      else
        ({ d with audio :=
            { a with
              outs := tset a.outs (outKey g.node ch) (fld (b.rd w.a) (36 * sel0 w) 36)
              written := writtenKey n g.node ch :: a.written } }, .ok b))) s

/-- ARND (R347). -/
def execArnd (c : Ctx) (w : Insn) (s : State) : Host.Outcome State Fault Refusal :=
  run (audio c { dst := true, a := false, aD := false, aS := true, banks := [], subs := 4 } false w (fun n d l b =>
    let v := clampI s36Lo s36Hi (roundShift 0 (d.acc n l (accS w)) 31)
    (if sel1 w = 1 then d.setAcc n l (accS w) 0 else d, .ok (b.wr w.d (setElem (b.rd w.d) (sel0 w) v))))) s

/-- A value saturated to Q9.62 in 72 bits. -/
def sat72 (x : Int) : Int := clampI (-(2 ^ 71)) (2 ^ 71 - 1) x

/-- ABIQ (R347): coefficients b0, b1, b2, a1, a2 in three field words, z1 and z2 in two state words. -/
def execAbiq (c : Ctx) (w : Insn) (s : State) : Host.Outcome State Fault Refusal :=
  run (audio c { dst := true, a := true, aD := false, aS := false, banks := [0], subs := 2 } true w (fun _ d l b =>
    let n := refNode w
    let k := fld w.low 0 4
    if (d.gnode n).isNone then (d, .error exIllegal)
    else if 14 < k then (d, .error exParam)
    else
      let f (i : Nat) : W72 := d.nodeField n (fld w.low 8 6 + i)
      let z (i : Nat) : Int := toSigned 72 (tget d.audio.nodeState (stateKey n l (k + i)) 0).toNat
      let x := elemVal (b.rd w.a) (sel0 w)
      let y := clampI s36Lo s36Hi (roundShift 0 (elemVal (f 0) 0 * x + z 0) 31)
      let z1 := sat72 (elemVal (f 0) 1 * x - elemVal (f 1) 1 * y + z 1)
      let z2 := sat72 (elemVal (f 1) 0 * x - elemVal (f 2) 0 * y)
      let a := d.audio
      ({ d with audio := { a with nodeState := tset (tset a.nodeState (stateKey n l k) (BitVec.ofInt 72 z1)) (stateKey n l (k + 1)) (BitVec.ofInt 72 z2) } },
        .ok (b.wr w.d (setElem (b.rd w.d) (sel0 w) y))))) s

/-- ARAMP (R347). -/
def execAramp (c : Ctx) (w : Insn) (s : State) : Host.Outcome State Fault Refusal :=
  run (audio c { dst := true, a := true, aD := false, aS := false, banks := [0, 1], subs := 4 } false w (fun _ d _ b =>
    match d.refVal w b with
    | .error e => (d, .error e)
    | .ok t =>
      let σ : Int := ((elemVal (b.rd w.a) (sel0 w)).natAbs : Int)
      let v := elemVal (b.rd w.d) (sel0 w)
      let r := if ((t - v).natAbs : Int) ≤ σ then t else if v < t then v + σ else v - σ
      (d, .ok (b.wr w.d (setElem (b.rd w.d) (sel0 w) (clampI s36Lo s36Hi r)))))) s

/-- APEAK (R347): bank 0 with the node ID only. -/
def execApeak (c : Ctx) (w : Insn) (s : State) : Host.Outcome State Fault Refusal :=
  run (audio c { dst := false, a := true, aD := false, aS := false, banks := if fld w.low 8 6 = 0 then [0] else [16], subs := 2 } false w (fun _ d l b =>
    match d.gnode (refNode w) with
    | none => (d, .error exIllegal)
    | some g =>
      let v := Nat.min (elemVal (b.rd w.a) (sel0 w)).natAbs (2 ^ 35 - 1)
      let k := outKey g.node l
      if g.channels ≤ l then (d, .ok b)
      else ({ d with audio := { d.audio with meters := tset d.audio.meters k (Nat.max (tget d.audio.meters k 0) v) } }, .ok b))) s

end Sys2Proof.Machine
end

