-- ==== Sys2Proof/Machine/Resets.lean ====
section
/-! DEFINITION. Function resets (R97, R98, R157 to R162), virtual functions (R28, R122, R129, R161, R227, R333), D3hot and
MSI-X (R125, R136), and the control registers of IOMMU, dirty logging and PTM (R145, R146, R149, R163). -/

namespace Sys2Proof.Machine

/-! Parts of a reset. -/

/-- The rings of a function. -/
def fnRings (f : Nat) : List Nat := [4 * f, 4 * f + 1, 4 * f + 2, 4 * f + 3]

/-- Whether an operation is outstanding with the generation that a reset of its function would produce (R98). -/
def Dev.wouldCollide (d : Dev) (f : Nat) : Bool := d.ops.any (fun o => o.fn = f && o.phase ≠ .reported && o.gen = (d.fn f).gen + 1)

/-- A change of the reset in progress of a function. -/
def Dev.updReset (d : Dev) (f : Nat) (h : FnReset → FnReset) : Dev := d.setFn f { d.fn f with rst := (d.fn f).rst.map h }

/-- The program on a ring's thread stops before its next instruction; shadow and unreleased operations are gone (R70, R76, R158). -/
def Dev.stopProgram (d : Dev) (g : Nat) : Dev :=
  match (d.ring g).thread.acc with
  | none => d
  | some acc => (d.updEntry g acc (fun e => { e with phase := .ended, squashed := true })).updThread g Thread.freed

/-- The pending commits of a function withdrawn; their items are squashed (R102, R158). -/
def Dev.withdraw (d : Dev) (f : Nat) : Dev :=
  let mine := d.commits.filter (fun c => ringFn c.ring = f)
  mine.foldl (fun d c => d.updEntry c.ring c.acc (fun e => { e with squashed := true })) { d with commits := d.commits.filter (fun c => ringFn c.ring ≠ f) }

/-- Engines are to cancel the operations that a function has released. -/
def Dev.cancelOps (d : Dev) (f : Nat) : Dev :=
  { d with ops := d.ops.map (fun o => if o.fn = f && (o.phase = .released || o.phase = .started) then { o with cancel := true } else o) }

/-- Programs, shadows and pending commits of a function stop (step 2 of a squash, step 1 of a generation discard). -/
def Dev.stopAll (d : Dev) (f : Nat) : Dev := ((fnRings f).foldl (fun d g => d.stopProgram g) d).withdraw f

/-- The first item of a ring that no written or kept record completes. -/
def Dev.firstOpen (d : Dev) (g : Nat) : Option Nat :=
  let r := d.ring g
  let kept := match r.kept with | some rec => (d.recordLast g rec).1 | none => 0
  (r.entries.find? (fun e => !e.covered && decide (kept < e.acc))).map (fun e => e.acc)

/-- Step 1 of a generation discard (R98, R158): the items without a record are fixed. Engines cancel operations in a later step, which a
held discard has not reached. -/
def Dev.beginDiscard (d : Dev) (f : Nat) (cfg vanish keepFault : Bool) : Dev :=
  let held := d.wouldCollide f
  let d0 := d.stopAll f
  let d1 := if held then d0 else d0.cancelOps f
  let from_ := (List.range 4).filterMap (fun k => (d1.firstOpen (4 * f + k)).map (fun a => (k, a)))
  let r : FnReset :=
    { mode := 3, held := held, begun := d1.now, limitAt := 0, cfg := cfg, vanish := vanish, waitFrom := from_, keepFault := keepFault }
  d1.setFn f { d1.fn f with rst := some r }

/-- A reset begins in a mode (R157, R158): 1 drain, 2 squash, 3 generation discard. -/
def Dev.beginReset (d : Dev) (f mode : Nat) (cfg : Bool) : Dev :=
  if mode = 3 then d.beginDiscard f cfg false false
  else
    let held := d.wouldCollide f
    let r : FnReset :=
      { mode := BitVec.ofNat 2 mode, held := held, begun := d.now, limitAt := d.now + fld (d.obj 0x0C f 1) 8 8 * 1000000, cfg := cfg, vanish := false
        waitFrom := [], keepFault := false }
    let d1 := d.setFn f { d.fn f with rst := some r }
    if mode = 2 && !held then (d1.stopAll f).cancelOps f else d1

/-- A reset requested in the function's RESET_MODE; one that is in progress takes the request in (R157, R158, R161). -/
def Dev.requestReset (d : Dev) (f : Nat) (cfg : Bool) : Dev :=
  match (d.fn f).rst with
  | some _ => d.updReset f (fun r => { r with cfg := r.cfg || cfg })
  | none => d.beginReset f (fld (d.obj 0x0C f 1) 2 2 + 1) cfg

/-- A generation-discard request (R98, R161): it replaces a drain or a squash, held or not. -/
def Dev.discardReset (d : Dev) (f : Nat) (cfg vanish : Bool) : Dev :=
  match (d.fn f).rst with
  | some r =>
    if r.mode = 3 then d.updReset f (fun r => { r with cfg := r.cfg || cfg, vanish := r.vanish || vanish })
    else d.beginDiscard f (r.cfg || cfg) (r.vanish || vanish) r.keepFault
  | none => d.beginDiscard f cfg vanish false

/-! Requests. -/

/-- Whether a configuration request of a host reaches a function: in D3hot too. -/
def Dev.cfgReach (d : Dev) (f : Nat) : Bool :=
  d.boot.stage = .ready && d.exists_ f && ((d.port (f / 16)).link = .l0 || (d.port (f / 16)).link = .l1) && d.freeze.at_.isNone

/-- A configuration request with effect h: it waits through a sleep state (R439). -/
def cfgHosted (i : Instr) (f : Nat) (h : Dev → Dev) (d : Dev) : Dev :=
  if !d.cfgReach f then d else if d.asleep then ({ d with held := d.held ++ [i] } : Dev).hostFired f else h (d.hostFired f)

/-- FLR (R157, R162). -/
def execFlr (f : Fin 64) (s : State) : Host.Outcome State Fault Refusal :=
  run (cfgHosted (.flr f) f.val (fun d => d.requestReset f.val true)) s

/-- RESET_REQ.RESET (R157, R158). -/
def execResetReq (f : Fin 64) (v : BitVec 32) (s : State) : Host.Outcome State Fault Refusal :=
  run (hosted (.resetReq f v) f.val (fun d => if bit v 0 && !d.resetting f.val then d.requestReset f.val false else d)) s

/-- Whether a host function reaches the control block of function f (R126): the manager any, a PF those of its port's VFs. -/
def Dev.reachesBlock (d : Dev) (host f : Nat) : Bool := host = d.manager || (host % 16 = 0 && f / 16 = host / 16 && f ≠ host)

/-- A write to a control block. -/
def blockWrite (i : Instr) (host f : Nat) (h : Dev → Dev) (d : Dev) : Dev := hosted i host (fun d => if d.reachesBlock host f then h d else d) d

/-- FUNC_CTL (R146, R157). -/
def Dev.funcCtl (d : Dev) (f : Nat) (v : BitVec 32) : Dev :=
  let d1 := d.setFn f { d.fn f with hold := bit v 1 }
  if bit v 0 then d1.requestReset f false else d1

/-- FUNC_CTL.RESET (R157). -/
def execFuncCtlReset (host f : Fin 64) (v : BitVec 32) (s : State) : Host.Outcome State Fault Refusal :=
  run (blockWrite (.funcCtlReset host f v) host.val f.val (fun d => d.funcCtl f.val v)) s

/-- FUNC_CTL.HOLD (R146). -/
def execFuncCtlHold (host f : Fin 64) (v : BitVec 32) (s : State) : Host.Outcome State Fault Refusal :=
  run (blockWrite (.funcCtlHold host f v) host.val f.val (fun d => d.funcCtl f.val v)) s

/-- DRAIN_LIMIT_EXPIRY (R158): the drain goes on as a squash. -/
def execDrainLimitExpiry (f : Fin 64) (at_ : Nat) (s : State) : Host.Outcome State Fault Refusal :=
  run (fun d =>
    let d1 := d.tick at_
    match (d1.fn f.val).rst with
    | some r =>
      if r.mode ≠ 1 ∨ d1.now < r.limitAt then d
      else
        let d2 := d1.updReset f.val (fun r => { r with mode := 2 })
        if r.held then d2 else (d2.stopAll f.val).cancelOps f.val
    | none => d) s

/-- HELD_RESET_RELEASE (R98). -/
def execHeldResetRelease (f : Fin 64) (s : State) : Host.Outcome State Fault Refusal :=
  run (fun d =>
    match (d.fn f.val).rst with
    | some r =>
      if !r.held || d.wouldCollide f.val then d
      else
        let d1 := d.updReset f.val (fun r => { r with held := false })
        if r.mode = 2 then (d1.stopAll f.val).cancelOps f.val else if r.mode = 3 then d1.cancelOps f.val else d1
    | none => d) s

/-! The end of a reset. -/

/-- Whether no program of a ring runs and every started item has its record (R158), or, behind a record that faulted, has it decided (R160). -/
def Dev.drained (d : Dev) (g : Nat) : Bool :=
  let r := d.ring g
  let started := r.entries.takeWhile (fun e => e.phase ≠ .unstarted)
  r.thread.acc.isNone && started.all (fun e => e.covered || (r.kept.isSome && d.decided g e))

/-- A kept record at the end of a reset (R160): tried once more if it has not faulted in the reset, and then given up, which counts as written. -/
def Dev.giveUp (d : Dev) (g : Nat) : Dev :=
  let d1 := d.retryRecord g
  match (d1.ring g).kept with
  | some rec => d1.recordDone g (d1.recordLast g rec).1
  | none => d1

/-- The decided records of a ring, written or given up in order (R160); at most n of them. -/
def Dev.finishRecords (d : Dev) (g : Nat) (n : Nat) : Dev :=
  match n with
  | 0 => d.giveUp g
  | n + 1 =>
    let d1 := d.giveUp g
    match d1.recordable g with
    | some e => (d1.writeRecord g e.record e.acc (bit e.item 52)).finishRecords g n
    | none => d1

/-- The reset record of a ring, when the range it covers is not empty (R100, R158). -/
def Dev.resetRecordOn (d : Dev) (f mode g : Nat) (first : Option Nat) : Dev :=
  let last := (d.ring g).nextAcc - 1
  match first with
  | some a => if a ≤ last then (d.writeRecord g (resetRecord a (d.fn f).gen.toNat (mode - 1) last) last false).giveUp g else d
  | none => d

/-- The ring registers at their reset values (R86, R162); accession numbers and entries stay. -/
def Ring.cleared (r : Ring) : Ring := { Ring.atReset with nextAcc := r.nextAcc, doneAcc := r.doneAcc, entries := r.entries, shared := r.shared }

/-- The configuration space and MSI-X table of a function reset (R162); PCIe Base keeps the AER registers. -/
def Fn.cfgReset (x : Fn) : Fn :=
  { x with
    msixTable := [], pba := 0, msixEnable := false, msixMask := false, d3hot := false, bar2Log2 := 28, bars := [], errCtl := 0, errStat := 0 }

/-- What a PF's configuration space holds of its port's VFs and of PTM, reset (R131, R162, R163). -/
def Port.cfgReset (x : Port) : Port :=
  { x with numVfs := 0, ptmEnable := false, ptmReq := false, ptmBusy := false, vfBar2Log2 := 28, vfBars := [] }

/-- Whether a channel plays an effect slot (R325, R333). -/
def Dev.slotPlaying (d : Dev) (n : Nat) : Bool :=
  (List.range 16).any (fun c => let x := d.hch c; x.ofSlot && (x.state = 1 || x.state = 2 || x.state = 3) && x.slot = n)

/-- A VF that has ceased to exist: its objects return to the manager, its handles are being freed, its slots become empty
once their effects end (R28, R227, R333). -/
def Dev.vanish (d : Dev) (f : Nat) : Dev :=
  let d1 := [1, 2, 3, 4, 5, 6, 7, 8, 9, 10, 11].foldl (fun d cls => d.returnOwned cls 0 (match classInfo cls with | some (n, _) => n | none => 0) f) d
  let d2 := (List.range 256).foldl (fun d h =>
    let x := d.handle (256 * f + h)
    if x.state = .free then d else d.setHandle (256 * f + h) { x with state := .freeing, freeOp := none, vanished := true }) d1
  (List.range 64).foldl (fun d n =>
    let x := d.effSlot n
    if x.holder ≠ some f then d
    else if d.slotPlaying n then d.setEffSlot n { x with emptyAfter := true }
    else d.setEffSlot n { holder := none, samples := [], emptyAfter := false }) d2

/-- A PF clears VF Enable (R161): the VFs that exist are reset and cease to exist. -/
def Dev.vfClear (d : Dev) (p : Nat) : Dev :=
  let x := d.port p
  if !x.vfEnable then d
  else
    let d1 := (List.range 16).foldl (fun d i => if 1 ≤ i && i ≤ x.numVfs then d.discardReset (16 * p + i) true true else d) d
    d1.setPort p { d1.port p with vfEnable := false }

/-- The actions of R162, and the new generation (R97, R104, R159); the latched groups of BAR0 are unlatched, and held delivery records are
discarded (R320). -/
def Dev.finishReset (d : Dev) (f : Nat) (r : FnReset) : Dev :=
  let x := d.fn f
  let keep := match x.rst with | some y => y.keepFault | none => false
  let x1 : Fn :=
    { x with
      gen := x.gen + 1, rst := none, evStatus := 0, evEnable := 0x1FF, apertureBase := 0, pipeEv := [], pipeEvEn := [], hapStat := []
      faultInfo := if keep then x.faultInfo else 0, faultAddr := if keep then x.faultAddr else 0 }
  let x2 := if r.cfg then x1.cfgReset else x1
  let d0 : Dev := { d with latch := d.latch.filter (fun y => y.1 / 2 ^ 20 ≠ f) }
  let d1 := (fnRings f).foldl (fun d g => d.setRing g (d.ring g).cleared) (d0.setFn f x2)
  let d2 : Dev := { d1 with ops := d1.ops.map (fun o => if o.fn = f && o.phase = .released && o.gen ≠ x2.gen then { o with phase := .reported } else o) }
  let d3 := ((fnRings f).foldl (fun d g => d.releaseEntries g) d2).setEv f 6
  let d4 := if r.cfg && f % 16 = 0 then (let d4 := d3.vfClear (f / 16); d4.setPort (f / 16) (d4.port (f / 16)).cfgReset) else d3
  let d5 := d4.setTfn f { d4.tfn f with held := [] }
  if r.vanish then d5.vanish f else d5

/-- RESET_END (R100, R158 to R162): when the mode's conditions hold, the reset records, the register reset and EV_RESET_DONE. -/
def execResetEnd (f : Fin 64) (s : State) : Host.Outcome State Fault Refusal :=
  runAs (mpHost f.val) (fun d =>
    match (d.fn f.val).rst with
    | none => d
    | some r =>
      if r.held then d
      else
        let rings := fnRings f.val
        let d1 := rings.foldl (fun d g => d.finishRecords g (d.ring g).entries.length) d
        if r.mode = 3 then
          (rings.foldl (fun d g => d.resetRecordOn f.val 3 g (tfind r.waitFrom (ringKind g))) d1).finishReset f.val r
        else if rings.all (fun g => d.drained g) then
          (rings.foldl (fun d g => d.resetRecordOn f.val r.mode.toNat g (d.firstOpen g)) d1).finishReset f.val r
        else d) s

/-! Links and virtual functions. -/

/-- Every existing function of a port undergoes a generation discard (R161). -/
def Dev.portReset (d : Dev) (p : Nat) : Dev :=
  let live := (List.range 16).filter (fun i => d.exists_ (16 * p + i))
  live.foldl (fun d i => d.discardReset (16 * p + i) true false) (d.setPort p { d.port p with ptmValid := false, ptmReq := false, ptmBusy := false })

/-- LINK_DOWN (R136, R161). -/
def execLinkDown (p : Fin 4) (hotReset : Bool) (s : State) : Host.Outcome State Fault Refusal :=
  run (fun d =>
    if (d.port p.val).link = .down then d
    else (d.setPort p.val { d.port p.val with link := if hotReset then .training else .down }).portReset p.val) s

/-- VF Enable set by a PF (R129). -/
def Dev.vfSet (d : Dev) (p : Nat) : Dev :=
  let x := d.port p
  if x.vfEnable then d
  else if x.inForce.maxVfs < x.numVfs then d.setPort p { x with budgetErr := true }
  else d.setPort p { x with vfEnable := true }

/-- NumVFs written by a PF (R122). -/
def Dev.numVfsSet (d : Dev) (p v : Nat) : Dev :=
  let x := d.port p
  if 15 < v || x.vfEnable then d else d.setPort p { x with numVfs := v }

/-- VF_ENABLE_SET (R129). -/
def execVfEnableSet (p : Fin 4) (s : State) : Host.Outcome State Fault Refusal :=
  run (cfgHosted (.vfEnableSet p) (16 * p.val) (fun d => d.vfSet p.val)) s

/-- VF_ENABLE_CLEAR (R28, R161). -/
def execVfEnableClear (p : Fin 4) (s : State) : Host.Outcome State Fault Refusal :=
  run (cfgHosted (.vfEnableClear p) (16 * p.val) (fun d => d.vfClear p.val)) s

/-- NUMVFS_WRITE (R122). -/
def execNumvfsWrite (p : Fin 4) (v : BitVec 16) (s : State) : Host.Outcome State Fault Refusal :=
  run (cfgHosted (.numvfsWrite p v) (16 * p.val) (fun d => d.numVfsSet p.val v.toNat)) s

/-- D3HOT_TRANSITION (R125). -/
def execD3hotTransition (f : Fin 64) (enter : Bool) (s : State) : Host.Outcome State Fault Refusal :=
  run (cfgHosted (.d3hotTransition f enter) f.val (fun d => d.setFn f.val { d.fn f.val with d3hot := enter })) s

/-- Whether an enabled event of a vector is still 1 (R135, R136). -/
def Dev.vectorActive (d : Dev) (f v : Nat) : Bool := (List.range 9).any (fun b => vectorOf b = v && bit (d.evStatus f) b && bit (d.fn f).evEnable b)

/-- MSIX_PENDING_SEND (R136). -/
def execMsixPendingSend (f : Fin 64) (vec : Fin 8) (s : State) : Host.Outcome State Fault Refusal :=
  run (fun d =>
    let x := d.fn f.val
    if !bit x.pba vec.val || !d.canSend f.val vec.val then d
    else
      let d1 := d.setFn f.val { x with pba := setBit x.pba vec.val false }
      if d.vectorActive f.val vec.val then d1.sendVector f.val vec.val else d1) s

/-- EV_STATUS_CLEAR (R11, R136): events that coincide with the clear leave their bits at 1 and are sent again. -/
def execEvStatusClear (f : Fin 64) (v : BitVec 32) (again : BitVec 9) (s : State) : Host.Outcome State Fault Refusal :=
  run (hosted (.evStatusClear f v again) f.val (fun d =>
    let x := d.fn f.val
    let d1 := d.setFn f.val { x with evStatus := x.evStatus &&& ~~~(v.setWidth 9) }
    (List.range 8).foldl (fun d b => if bit again b then d.setEv f.val b else d) d1)) s

/-! IOMMU. -/

/-- A whole-space invalidation starts, or follows the one in progress (R145). -/
def Fn.invWholeSpace (x : Fn) : Fn := if x.invGo then { x with invQueued := true } else { x with invGo := true, invWhole := true }

/-- IOMMU_ROOT (R16, R145, R146). -/
def Dev.iommuRoot (d : Dev) (f : Nat) (v : BitVec 64) : Dev :=
  let mode := fld v 0 2
  if mode = 3 ∨ (mode = 2 ∧ f ≠ d.manager) then d
  else d.setFn f ({ d.fn f with iommuRoot := v &&& 0x000000FFFFFFF003 } : Fn).invWholeSpace

/-- IOMMU_ROOT (R145, R146). -/
def execIommuRoot (host f : Fin 64) (v : BitVec 64) (s : State) : Host.Outcome State Fault Refusal :=
  run (blockWrite (.iommuRoot host f v) host.val f.val (fun d => d.iommuRoot f.val v)) s

/-- INV_CTL (R145): discarded while GO is 1. -/
def Dev.invCtl (d : Dev) (f : Nat) (v : BitVec 32) : Dev :=
  let x := d.fn f
  if x.invGo then d
  else d.setFn f { x with invPages := v.setWidth 20, invGo := bit v 31, invWhole := bit v 31 && (v.setWidth 20 : BitVec 20) = 0 }

/-- INV_CTL (R145). -/
def execInvCtl (host f : Fin 64) (v : BitVec 32) (s : State) : Host.Outcome State Fault Refusal :=
  run (blockWrite (.invCtl host f v) host.val f.val (fun d => d.invCtl f.val v)) s

/-- Whether an invalidation takes in a cached entry. -/
def Fn.invCovers (x : Fn) (e : TlbEntry) : Bool :=
  x.invWhole || (decide (x.invVa.toNat < e.va + e.size) && decide (e.va < x.invVa.toNat + 4096 * x.invPages.toNat))

/-- INVALIDATION_DONE (R145). -/
def execInvalidationDone (f : Fin 64) (s : State) : Host.Outcome State Fault Refusal :=
  run (fun d =>
    let x := d.fn f.val
    if !x.invGo then d
    else d.setFn f.val { x with tlb := x.tlb.filter (fun e => !x.invCovers e.2), invGo := x.invQueued, invWhole := x.invQueued, invQueued := false }) s

/-! Dirty logging. -/

/-- DIRTY_CTL (R11, R12, R149, R150): ENABLE without covered pages discards the write. -/
def Dev.dirtyCtl (d : Dev) (f : Nat) (v : BitVec 32) : Dev :=
  let x := d.fn f
  let en := bit v 31
  if en && x.dirtyPages = 0 then d
  else
    let x1 : Fn := { x with dirtyEnable := en, dirtyCount := if en && !x.dirtyEnable then 0 else x.dirtyCount, dirtyOut := x.dirtyOut && !bit v 28 }
    d.setFn f (if bit v 30 && !x.dirtySwap then { x1 with dirtyActive := !x.dirtyActive, dirtyCount := 0, dirtySwap := true } else x1)

/-- DIRTY_CTL.ENABLE (R149). -/
def execDirtyCtlEnable (host f : Fin 64) (v : BitVec 32) (s : State) : Host.Outcome State Fault Refusal :=
  run (blockWrite (.dirtyCtlEnable host f v) host.val f.val (fun d => d.dirtyCtl f.val v)) s

/-- SWAP (R149). -/
def execSwap (host f : Fin 64) (v : BitVec 32) (s : State) : Host.Outcome State Fault Refusal :=
  run (blockWrite (.swap host f v) host.val f.val (fun d => d.dirtyCtl f.val v)) s

/-- SWAP_DONE (R149). -/
def execSwapDone (f : Fin 64) (s : State) : Host.Outcome State Fault Refusal := run (fun d => d.setFn f.val { d.fn f.val with dirtySwap := false }) s

/-! PTM. -/

/-- A dialog starts at an instant (R163): PTM Enable is set, the link is up and no dialog runs. -/
def Port.ptmStart (x : Port) (now : Nat) : Port := if x.ptmEnable && x.link = .l0 && !x.ptmBusy then { x with ptmBusy := true, ptmFrom := now } else x

/-- The dialog that a REQ waits for, when it can start (R163). -/
def Port.ptmPending (x : Port) (now : Nat) : Port := if x.ptmReq then x.ptmStart now else x

/-- PTM Enable (R163): cleared, it ends the dialog in progress; set, it starts the one that REQ waits for. -/
def Port.ptmSet (x : Port) (on : Bool) (now : Nat) : Port :=
  if on then ({ x with ptmEnable := true } : Port).ptmPending now else { x with ptmEnable := false, ptmReq := x.ptmReq && !x.ptmBusy, ptmBusy := false }

/-- PTM_CTL (R163): VFs' writes are discarded. -/
def Dev.ptmCtl (d : Dev) (f : Nat) (v : BitVec 32) : Dev :=
  let p := f / 16
  let x := d.port p
  if f % 16 ≠ 0 then d
  else
    let x1 : Port := { x with ptmPeriod := v.setWidth 16, ptmNext := d.now + (v.setWidth 16 : BitVec 16).toNat * 1000000 }
    d.setPort p (if bit v 31 then ({ x1 with ptmReq := true } : Port).ptmStart d.now else x1)

/-- PTM_CTL.REQ (R163). -/
def execPtmCtlReq (f : Fin 64) (v : BitVec 32) (s : State) : Host.Outcome State Fault Refusal :=
  run (hosted (.ptmCtlReq f v) f.val (fun d => d.ptmCtl f.val v)) s

/-- PTM_PERIOD_EXPIRY (R163). -/
def execPtmPeriodExpiry (p : Fin 4) (at_ : Nat) (s : State) : Host.Outcome State Fault Refusal :=
  run (fun d =>
    let d1 := d.tick at_
    let x := d1.port p.val
    if x.ptmPeriod = 0 ∨ d1.now < x.ptmNext ∨ !d1.awake then d
    else d1.setPort p.val (({ x with ptmNext := d1.now + x.ptmPeriod.toNat * 1000000 } : Port).ptmStart d1.now)) s

/-- PTM_RESPONSE (R163, R164): the dialog ends; one that succeeds gives the sample. The request left within the dialog, and the host time is
the one that PCIe Base derives for that instant, as the port takes it from the response (DESIGN CHOICE, log entry 5). -/
def execPtmResponse (p : Fin 4) (ok : Bool) (sentAt hostTime delay : Nat) (s : State) : Host.Outcome State Fault Refusal :=
  run (fun d =>
    let x := d.port p.val
    if !x.ptmBusy || (ok && (decide (sentAt < x.ptmFrom) || decide (Nat.max d.now x.ptmFrom < sentAt))) then d
    else if !ok then d.setPort p.val { x with ptmBusy := false, ptmReq := false }
    else
      d.setPort p.val
        { x with ptmBusy := false, ptmReq := false, ptmValid := true, ptmDevtime := BitVec.ofNat 64 sentAt, ptmHost := BitVec.ofNat 64 hostTime
                 ptmDelay := BitVec.ofNat 32 delay }) s

end Sys2Proof.Machine
end

