-- ==== Sys2Proof/Machine/Blocks.lean ====
section
/-! DEFINITION. The texels of ETC2 and EAC blocks (R204, R209), as the Khronos specification of those formats decodes them (PRESUMED, log
entry 15: the manual names it and does not restate it). -/

namespace Sys2Proof.Machine

/-! Blocks of 64 bits, their first byte highest. -/

/-- Eight bytes as a number, and a signed field of n bits. -/
def blockNat (l : List Byte) : Nat := ofBytes l.reverse
def signedN (x n : Nat) : Int := if x < 2 ^ (n - 1) then x else (x : Int) - (2 ^ n : Nat)

/-- A number held to 0 … 255, and n bits spread to eight. -/
def clip255 (x : Int) : Nat := if x < 0 then 0 else if 255 < x then 255 else x.toNat
def spread8 (x n : Nat) : Nat := x * 2 ^ (8 - n) + x / 2 ^ (2 * n - 8)

/-- A colour of three codes, and one with a number added to each. -/
structure Rgb where
  r : Int
  g : Int
  b : Int
  deriving DecidableEq, Repr

def Rgb.add (c : Rgb) (k : Int) : Rgb := { r := c.r + k, g := c.g + k, b := c.b + k }

/-- The intensity modifiers of a subblock, by table, and the distances of the T and H modes. -/
def etcModifier (table : Nat) : Int × Int := nth [(2, 8), (5, 17), (9, 29), (13, 42), (18, 60), (24, 80), (33, 106), (47, 183)] table (2, 8)
def etcDistance (i : Nat) : Int := nth [3, 6, 11, 16, 23, 32, 41, 64] i 3

/-- A pixel of an ETC2 colour block: column, row, and whether transparent pixels are possible; none for a transparent one. -/
def etcPixel (v x y : Nat) (punch : Bool) : Option Rgb :=
  let p := 4 * x + y
  let i := 2 * bitsN v (16 + p) 1 + bitsN v p 1
  let diff := bitsN v 33 1 = 1
  let clear := punch && !diff && i = 2
  let sub2 := if bitsN v 32 1 = 1 then decide (2 ≤ y) else decide (2 ≤ x)
  let d5 (lo : Nat) : Int := (bitsN v (lo + 3) 5 : Int) + signedN (bitsN v lo 3) 3
  let out (c : Int) : Bool := decide (c < 0) || decide (31 < c)
  let c4 (r g b : Nat) : Rgb := { r := (17 * r : Nat), g := (17 * g : Nat), b := (17 * b : Nat) }
  let plain (base : Rgb) : Option Rgb :=
    let m := etcModifier (bitsN v (if sub2 then 34 else 37) 3)
    let k := if i = 0 then (if punch && !diff then 0 else m.1) else if i = 1 then m.2 else if i = 2 then -m.1 else -m.2
    if clear then none else some (base.add k)
  if !diff && !punch then
    let o := if sub2 then 0 else 4
    plain (c4 (bitsN v (56 + o) 4) (bitsN v (48 + o) 4) (bitsN v (40 + o) 4))
  else if out (d5 56) then
    let a := c4 (4 * bitsN v 59 2 + bitsN v 56 2) (bitsN v 52 4) (bitsN v 48 4)
    let b := c4 (bitsN v 44 4) (bitsN v 40 4) (bitsN v 36 4)
    let d := etcDistance (2 * bitsN v 34 2 + bitsN v 32 1)
    if clear then none else some (if i = 0 then a else if i = 1 then b.add d else if i = 2 then b else b.add (-d))
  else if out (d5 48) then
    let a := c4 (bitsN v 59 4) (2 * bitsN v 56 3 + bitsN v 52 1) (8 * bitsN v 51 1 + bitsN v 47 3)
    let b := c4 (bitsN v 43 4) (bitsN v 39 4) (bitsN v 35 4)
    let order (c : Rgb) : Int := 65536 * c.r + 256 * c.g + c.b
    let d := etcDistance (4 * bitsN v 34 1 + 2 * bitsN v 32 1 + (decide (order b ≤ order a)).toNat)
    if clear then none else some (if i = 0 then a.add d else if i = 1 then a.add (-d) else if i = 2 then b.add d else b.add (-d))
  else if out (d5 40) then
    let at_ (o h w n : Nat) : Int :=
      let e (c : Nat) : Int := (spread8 c n : Nat)
      ((x : Int) * (e h - e o) + (y : Int) * (e w - e o) + 4 * e o + 2) / 4
    some
      { r := at_ (bitsN v 57 6) (2 * bitsN v 34 5 + bitsN v 32 1) (bitsN v 13 6) 6
        g := at_ (64 * bitsN v 56 1 + bitsN v 49 6) (bitsN v 25 7) (bitsN v 6 7) 7
        b := at_ (32 * bitsN v 48 1 + 8 * bitsN v 43 2 + bitsN v 39 3) (bitsN v 19 6) (bitsN v 0 6) 6 }
  else
    let c (lo : Nat) : Int := let k := if sub2 then (d5 lo).toNat else bitsN v (lo + 3) 5; (spread8 k 5 : Nat)
    plain { r := c 56, g := c 48, b := c 40 }

/-- The modifiers of EAC, by table and index. -/
def eacModifier (table i : Nat) : Int :=
  nth
    (nth
      ([[-3, -6, -9, -15, 2, 5, 8, 14], [-3, -7, -10, -13, 2, 6, 9, 12], [-2, -5, -8, -13, 1, 4, 7, 12], [-2, -4, -6, -13, 1, 3, 5, 12],
        [-3, -6, -8, -12, 2, 5, 7, 11], [-3, -7, -9, -11, 2, 6, 8, 10], [-4, -7, -8, -11, 3, 6, 7, 10], [-3, -5, -8, -11, 2, 4, 7, 10],
        [-2, -6, -8, -10, 1, 5, 7, 9], [-2, -5, -8, -10, 1, 4, 7, 9], [-2, -4, -8, -10, 1, 3, 7, 9], [-2, -5, -7, -10, 1, 4, 6, 9],
        [-3, -4, -7, -10, 2, 3, 6, 9], [-1, -2, -3, -10, 0, 1, 2, 9], [-4, -6, -8, -9, 3, 5, 7, 8], [-3, -5, -7, -9, 2, 4, 6, 8]] : List (List Int))
      table []) i 0

/-- The modifier of a pixel of an EAC block, and its multiplier. -/
def eacStep (v x y : Nat) : Int := eacModifier (bitsN v 48 4) (bitsN v (45 - 3 * (4 * x + y)) 3)
def eacScale (v : Nat) : Nat := bitsN v 52 4

/-- A pixel of an EAC block: an 8-bit alpha; and an 11-bit value as an F18. -/
def eacAlpha (v x y : Nat) : Nat := clip255 ((bitsN v 56 8 : Int) + eacStep v x y * (eacScale v : Nat))
def eacValue (v x y : Nat) (signed : Bool) : Nat :=
  let k := if eacScale v = 0 then eacStep v x y else eacStep v x y * (8 * eacScale v : Nat)
  if signed then
    let base := signedN (bitsN v 56 8) 8
    let n := max (-1023) (min 1023 ((if base = -128 then -127 else base) * 8 + k))
    f18.round 0 false (decide (n < 0)) n.natAbs 1023 0
  else f18OfFrac (max 0 (min 2047 ((8 * bitsN v 56 8 + 4 : Nat) + k))).toNat 2047

/-- A texel of an ETC2 or EAC block (R204, R209). -/
def etcTexel (f : Nat) (bytes : List Byte) (x y : Nat) : W72 :=
  let v0 := blockNat (bytes.take 8)
  let v1 := blockNat ((bytes.drop 8).take 8)
  if f = 0x46 ∨ f = 0x47 then px (eacValue v0 x y (f = 0x47)) 0 0 one18
  else if f = 0x48 ∨ f = 0x49 then px (eacValue v0 x y (f = 0x49)) (eacValue v1 x y (f = 0x49)) 0 one18
  else
    let deep := f = 0x44 ∨ f = 0x45
    let chan (c : Int) : Nat := if f % 2 = 1 then srgbEotf (clip255 c) 255 else f18OfFrac (clip255 c) 255
    match etcPixel (if deep then v1 else v0) x y (f = 0x42 || f = 0x43) with
    | none => 0
    | some c => px (chan c.r) (chan c.g) (chan c.b) (if deep then f18OfFrac (eacAlpha v0 x y) 255 else one18)

end Sys2Proof.Machine
end

