-- ==== Sys2Proof/Machine/Astc.lean ====
section
/-! DEFINITION. The texels of ASTC blocks (R204, R209), as the Khronos ASTC specification decodes two-dimensional blocks in its LDR and HDR
profiles (PRESUMED, log entry 15: the manual names it and does not restate it). -/

namespace Sys2Proof.Machine

/-! Integer sequences. -/

/-- A quantisation level: bits, and whether each value has a trit or a quint beside them. -/
structure Quant where
  bits : Nat
  trit : Bool
  quint : Bool
  deriving DecidableEq, Repr

/-- The 21 levels, from 2 values to 256. -/
def quantOf (q : Nat) : Quant :=
  let b (n : Nat) : Quant := { bits := n, trit := false, quint := false }
  let t (n : Nat) : Quant := { bits := n, trit := true, quint := false }
  let k (n : Nat) : Quant := { bits := n, trit := false, quint := true }
  nth [b 1, t 0, b 2, k 0, t 1, b 3, k 1, t 2, b 4, k 2, t 3, b 5, k 3, t 4, b 6, k 4, t 5, b 7, k 5, t 6, b 8] q (b 8)

/-- The bits of a sequence of n values. -/
def Quant.size (q : Quant) (n : Nat) : Nat := q.bits * n + (if q.trit then (8 * n + 4) / 5 else if q.quint then (7 * n + 2) / 3 else 0)

/-- The five trits of a packed number, and the three quints of one. -/
def tritsOf (t : Nat) : List Nat :=
  let b (i : Nat) := bitsN t i 1
  let (c, t3, t4) : Nat × Nat × Nat :=
    if bitsN t 2 3 = 7 then (4 * bitsN t 5 3 + bitsN t 0 2, 2, 2)
    else if bitsN t 5 2 = 3 then (bitsN t 0 5, b 7, 2) else (bitsN t 0 5, bitsN t 5 2, b 7)
  let x (i : Nat) := bitsN c i 1
  if bitsN c 0 2 = 3 then [2 * x 3 + (if x 3 = 1 then 0 else x 2), x 4, 2, t3, t4]
  else if bitsN c 2 2 = 3 then [bitsN c 0 2, 2, 2, t3, t4]
  else [2 * x 1 + (if x 1 = 1 then 0 else x 0), bitsN c 2 2, x 4, t3, t4]
def quintsOf (t : Nat) : List Nat :=
  let b (i : Nat) := bitsN t i 1
  if bitsN t 1 2 = 3 && bitsN t 5 2 = 0 then [4, 4, 4 * b 0 + (if b 0 = 1 then 0 else 2 * b 4 + b 3)]
  else
    let (c, q2) : Nat × Nat := if bitsN t 1 2 = 3 then (8 * bitsN t 3 2 + 2 * (3 - bitsN t 5 2) + b 0, 4) else (bitsN t 0 5, bitsN t 5 2)
    if bitsN c 0 3 = 5 then [bitsN c 3 2, 4, q2] else [bitsN c 0 3, bitsN c 3 2, q2]

/-- Value i of a sequence in the bits of v from `lo` on, of which only `size` count: its trit or quint, and its bits. -/
def Quant.value (q : Quant) (v lo size i : Nat) : Nat × Nat :=
  let w := bitsN v lo size
  let m := q.bits
  if q.trit then
    let at_ := i / 5 * (5 * m + 8)
    let piece (k n j : Nat) : Nat := bitsN w (at_ + (k + 1) * m + j) n
    let t := piece 0 2 0 + 4 * piece 1 2 2 + 16 * piece 2 1 4 + 32 * piece 3 2 5 + 128 * piece 4 1 7
    let k := i % 5
    (nth (tritsOf t) k 0, bitsN w (at_ + k * m + nth [0, 2, 4, 5, 7] k 0) m)
  else if q.quint then
    let at_ := i / 3 * (3 * m + 7)
    let piece (k n j : Nat) : Nat := bitsN w (at_ + (k + 1) * m + j) n
    let t := piece 0 3 0 + 8 * piece 1 2 3 + 32 * piece 2 2 5
    let k := i % 3
    (nth (quintsOf t) k 0, bitsN w (at_ + k * m + nth [0, 3, 5] k 0) m)
  else (0, bitsN w (i * m) m)

/-- n bits repeated downwards until they fill `to_`. -/
def repeatBits (x n to_ : Nat) : Nat := if n = 0 then 0 else ((List.range (to_ / n + 1)).map (fun i => x * 2 ^ (n * (to_ / n + 1) - n * (i + 1)))).foldl (· + ·) 0 / 2 ^ (n * (to_ / n + 1) - to_)

/-- Places of a bit string filled from bits of x: a place holds bit i − 1 where the list has i, zero where it has 0; highest place first. -/
def placed (x : Nat) (l : List Nat) : Nat := l.foldl (fun acc i => 2 * acc + (if i = 0 then 0 else bitsN x (i - 1) 1)) 0

/-- A colour value at eight bits. -/
def Quant.colour (q : Quant) (v : Nat × Nat) : Nat :=
  if !q.trit && !q.quint then repeatBits v.2 q.bits 8
  else
    let (l, c) : List Nat × Nat :=
      if q.trit then
        nth [([], 0), ([], 204), ([2, 0, 0, 0, 2, 0, 2, 2, 0], 93), ([3, 2, 0, 0, 0, 3, 2, 3, 2], 44), ([4, 3, 2, 0, 0, 0, 4, 3, 2], 22),
          ([5, 4, 3, 2, 0, 0, 0, 5, 4], 11), ([6, 5, 4, 3, 2, 0, 0, 0, 6], 5)] q.bits ([], 0)
      else
        nth [([], 0), ([], 113), ([2, 0, 0, 0, 0, 2, 2, 0, 0], 54), ([3, 2, 0, 0, 0, 0, 3, 2, 3], 26), ([4, 3, 2, 0, 0, 0, 0, 4, 3], 13),
          ([5, 4, 3, 2, 0, 0, 0, 0, 5], 6)] q.bits ([], 0)
    let a := if v.2 % 2 = 1 then 0x1FF else 0
    let t := Nat.xor (v.1 * c + placed v.2 l) a
    bitsN a 7 1 * 128 + t / 4 % 128

/-- A weight at 0 to 64. -/
def Quant.weight (q : Quant) (v : Nat × Nat) : Nat :=
  let w :=
    if q.bits = 0 then (if q.trit then nth [0, 32, 63] v.1 0 else nth [0, 16, 32, 47, 63] v.1 0)
    else if !q.trit && !q.quint then repeatBits v.2 q.bits 6
    else
      let (l, c) : List Nat × Nat :=
        if q.trit then nth [([], 0), ([], 50), ([2, 0, 0, 0, 2, 0, 2], 23), ([3, 2, 0, 0, 0, 3, 2], 11)] q.bits ([], 0)
        else nth [([], 0), ([], 28), ([2, 0, 0, 0, 0, 2, 0], 13)] q.bits ([], 0)
      let a := if v.2 % 2 = 1 then 0x7F else 0
      let t := Nat.xor (v.1 * c + placed v.2 l) a
      bitsN a 5 1 * 32 + t / 4 % 32
  if 32 < w then w + 1 else w

/-! Block modes. -/

/-- The weight grid of a block mode: width, height, quantisation level and whether there are two planes; none where it is reserved. -/
def astcMode (m : Nat) : Option (Nat × Nat × Nat × Bool) :=
  let a := bitsN m 5 2
  let b := bitsN m 7 2
  let low := bitsN m 0 2
  let high (wide : Bool) : Nat := if wide then 6 * bitsN m 9 1 else 0
  let dual := bitsN m 10 1 = 1
  let mk (w h r : Nat) (wide : Bool) : Option (Nat × Nat × Nat × Bool) := some (w, h, r - 2 + high wide, dual && wide)
  if low ≠ 0 then
    let r := bitsN m 4 1 + 2 * low
    let k := bitsN m 2 2
    if k = 0 then mk (b + 4) (a + 2) r true
    else if k = 1 then mk (b + 8) (a + 2) r true
    else if k = 2 then mk (a + 2) (b + 8) r true
    else if bitsN m 8 1 = 0 then mk (a + 2) (b % 2 + 6) r true
    else mk (b % 2 + 2) (a + 2) r true
  else
    let r := bitsN m 4 1 + 2 * bitsN m 2 2
    if bitsN m 2 2 = 0 then none
    else if b = 0 then mk 12 (a + 2) r true
    else if b = 1 then mk (a + 2) 12 r true
    else if b = 2 then mk (a + 6) (bitsN m 9 2 + 6) r false
    else if a = 0 then mk 6 10 r true
    else if a = 1 then mk 10 6 r true
    else none

/-- The partition of a texel: the index field, the number of partitions, and whether the block has fewer than 31 texels. -/
def astcPartition (seed parts : Nat) (small : Bool) (x y : Nat) : Nat :=
  if parts ≤ 1 then 0
  else
    let m := 2 ^ 32
    let s := seed + (parts - 1) * 1024
    let p := Nat.xor s (s / 2 ^ 15)
    let p := (p + m - p * 2 ^ 17 % m) % m
    let p := (p + p * 2 ^ 7) % m
    let p := (p + p * 2 ^ 4) % m
    let p := Nat.xor p (p / 2 ^ 5)
    let p := (p + p * 2 ^ 16) % m
    let p := Nat.xor p (p / 2 ^ 7)
    let p := Nat.xor p (p / 2 ^ 3)
    let p := Nat.xor p (p * 2 ^ 6 % m)
    let r := Nat.xor p (p / 2 ^ 17)
    let odd := if s / 2 % 2 = 1 then 4 else 5
    let three := if parts = 3 then 6 else 5
    let (sh1, sh2) : Nat × Nat := if s % 2 = 1 then (odd, three) else (three, odd)
    let k (lo sh : Nat) : Nat := let n := bitsN r lo 4; n * n / 2 ^ sh
    let z := if small then 2 else 1
    let at_ (a b lo : Nat) : Nat := (a * (z * x) + b * (z * y) + r / 2 ^ lo) % 64
    let a := at_ (k 0 sh1) (k 4 sh2) 14
    let b := at_ (k 8 sh1) (k 12 sh2) 10
    let c := if parts ≤ 2 then 0 else at_ (k 16 sh1) (k 20 sh2) 6
    let d := if parts ≤ 3 then 0 else at_ (k 24 sh1) (k 28 sh2) 2
    if b ≤ a && c ≤ a && d ≤ a then 0 else if c ≤ b && d ≤ b then 1 else if d ≤ c then 2 else 3

/-! Endpoints. -/

/-- Two colours of four components, whether their RGB is HDR, and whether their alpha is. LDR components have eight bits, HDR ones twelve. -/
structure Ends where
  lo : List Int
  hi : List Int
  hdr : Bool
  hdrAlpha : Bool
  deriving DecidableEq, Repr

/-- Bits taken over between a base and a signed offset: the offset and the base. -/
def transferSigned (a b : Nat) : Int × Nat :=
  let n := a / 2 % 64
  (if 32 ≤ n then (n : Int) - 64 else n, b / 2 + (if 128 ≤ a then 128 else 0))

def clipTo (n x : Int) : Int := max 0 (min n x)
def ldrEnds (lo hi : List Int) : Ends := { lo := lo.map (clipTo 255), hi := hi.map (clipTo 255), hdr := false, hdrAlpha := false }
def contract (c : List Int) : List Int := let b := nth c 2 0; [(nth c 0 0 + b) / 2, (nth c 1 0 + b) / 2, b, nth c 3 0]

/-- The first element of a list of three exchanged with another by the index of the major component. -/
def majorFirst (k : Nat) (l : List Int) : List Int :=
  if k = 1 then [nth l 1 0, nth l 0 0, nth l 2 0] else if k = 2 then [nth l 2 0, nth l 1 0, nth l 0 0] else l

/-- HDR RGB by a base and a scale. -/
def hdrScale (v : Nat → Nat) : Ends :=
  let mv := bitsN (v 0) 6 2 + 4 * bitsN (v 1) 7 1 + 8 * bitsN (v 2) 7 1
  let (major, mode) : Nat × Nat := if mv / 4 ≠ 3 then (mv / 4, mv % 4) else if mv ≠ 15 then (mv % 4, 4) else (0, 5)
  let x (i : Nat) : Nat := nth [bitsN (v 1) 6 1, bitsN (v 1) 5 1, bitsN (v 2) 6 1, bitsN (v 2) 5 1, bitsN (v 3) 7 1, bitsN (v 3) 6 1, bitsN (v 3) 5 1] i 0
  let on (mask i sh : Nat) : Nat := if bitsN mask mode 1 = 1 then x i * 2 ^ sh else 0
  let green := bitsN (v 1) 0 5 + on 0x30 0 6 + on 0x3A 1 5
  let blue := bitsN (v 2) 0 5 + on 0x30 2 6 + on 0x3A 3 5
  let scale := bitsN (v 3) 0 5 + on 0x3D 6 5 + on 0x2D 5 6 + on 0x04 4 7
  let red := bitsN (v 0) 0 6 + on 0x3B 4 6 + on 0x04 3 6 + on 0x10 5 7 + on 0x0F 2 7 + on 0x05 1 8 + on 0x0A 0 8 + on 0x05 0 9 + on 0x02 6 9 +
    on 0x01 3 10 + on 0x02 5 10
  let up (n : Nat) : Int := (n * 2 ^ nth [1, 1, 2, 3, 4, 5] mode 1 : Nat)
  let c := majorFirst major (if mode = 5 then [up red, up green, up blue] else [up red, up red - up green, up red - up blue])
  { lo := c.map (fun y => clipTo 0xFFF (y - up scale)) ++ [0x780], hi := c.map (clipTo 0xFFF) ++ [0x780], hdr := true, hdrAlpha := true }

/-- HDR RGB directly. -/
def hdrDirect (v : Nat → Nat) : List Int × List Int :=
  let major := bitsN (v 4) 7 1 + 2 * bitsN (v 5) 7 1
  if major = 3 then
    ([(16 * v 0 : Nat), (16 * v 2 : Nat), (32 * bitsN (v 4) 0 7 : Nat)], [(16 * v 1 : Nat), (16 * v 3 : Nat), (32 * bitsN (v 5) 0 7 : Nat)])
  else
    let mode := bitsN (v 1) 7 1 + 2 * bitsN (v 2) 7 1 + 4 * bitsN (v 3) 7 1
    let x (i : Nat) : Nat := nth [bitsN (v 2) 6 1, bitsN (v 3) 6 1, bitsN (v 4) 6 1, bitsN (v 5) 6 1, bitsN (v 4) 5 1, bitsN (v 5) 5 1] i 0
    let on (mask i sh : Nat) : Nat := if bitsN mask mode 1 = 1 then x i * 2 ^ sh else 0
    let db := nth [7, 6, 7, 6, 5, 6, 5, 6] mode 7
    let s : Int := (2 ^ Nat.xor (mode / 2) 3 : Nat)
    let va := (v 0 + 256 * bitsN (v 1) 6 1 + on 0xA4 0 9 + on 0x08 2 9 + on 0x50 4 9 + on 0x50 5 10 + on 0xA0 1 10 + on 0xC0 2 11 : Nat) * s
    let vc := (bitsN (v 1) 0 6 + on 0x04 1 6 + on 0xE8 3 6 + on 0x20 2 7 : Nat) * s
    let vb0 := (bitsN (v 2) 0 6 + on 0x5B 0 6 + on 0x12 2 7 : Nat) * s
    let vb1 := (bitsN (v 3) 0 6 + on 0x5B 1 6 + on 0x12 3 7 : Nat) * s
    let vd0 := signedN (bitsN (v 4) 0 db) db * s
    let vd1 := signedN (bitsN (v 5) 0 db) db * s
    let fix (l : List Int) : List Int := majorFirst major (l.map (clipTo 0xFFF))
    (fix [va - vc, va - vb0 - vc - vd0, va - vb1 - vc - vd1], fix [va, va - vb0, va - vb1])

/-- HDR alpha. -/
def hdrAlphaEnds (a b : Nat) : Int × Int :=
  let sel := bitsN a 7 1 + 2 * bitsN b 7 1
  let x := a % 128
  let y := b % 128
  if sel = 3 then ((32 * x : Nat), (32 * y : Nat))
  else
    let base := (x + y * 2 ^ (sel + 1) / 128 % 16 * 128) * 2 ^ (4 - sel)
    let off : Int := ((Nat.xor (y % 2 ^ (6 - sel)) (2 ^ (5 - sel)) : Nat) - (2 ^ (5 - sel) : Nat) : Int) * (2 ^ (4 - sel) : Nat)
    ((base : Nat), clipTo 0xFFF (base + off))

/-- The endpoints of a colour endpoint mode from its values. -/
def endsOf (mode : Nat) (v : Nat → Nat) : Ends :=
  let i (k : Nat) : Int := (v k : Nat)
  let gray (a b : Int) : List Int := [a, a, a, b]
  let ts (k : Nat) : Int × Nat := transferSigned (v (k + 1)) (v k)
  let hdrOf (lo hi : List Int) (alpha : Bool) : Ends := { lo := lo, hi := hi, hdr := true, hdrAlpha := alpha }
  if mode = 0 then ldrEnds (gray (i 0) 255) (gray (i 1) 255)
  else if mode = 1 then
    let l := v 0 / 4 + v 1 / 64 * 64
    ldrEnds (gray (l : Nat) 255) (gray (l + v 1 % 64 : Nat) 255)
  else if mode = 2 then
    let (a, b) : Int × Int := if v 0 ≤ v 1 then (16 * i 0, 16 * i 1) else (16 * i 1 + 8, 16 * i 0 - 8)
    hdrOf (gray a 0x780) (gray b 0x780) true
  else if mode = 3 then
    let (a, b) : Nat × Nat :=
      if 128 ≤ v 0 then (v 1 / 32 * 512 + v 0 % 128 * 4, v 1 % 32 * 4) else (v 1 / 16 * 256 + v 0 % 128 * 2, v 1 % 16 * 2)
    hdrOf (gray (a : Nat) 0x780) (gray (clipTo 0xFFF (a + b : Nat)) 0x780) true
  else if mode = 4 then ldrEnds (gray (i 0) (i 2)) (gray (i 1) (i 3))
  else if mode = 5 then
    let a := ts 0
    let b := ts 2
    ldrEnds (gray (a.2 : Nat) (b.2 : Nat)) (gray ((a.2 : Nat) + a.1) ((b.2 : Nat) + b.1))
  else if mode = 6 ∨ mode = 10 then
    let s (k : Nat) : Int := (v k * v 3 / 256 : Nat)
    ldrEnds [s 0, s 1, s 2, if mode = 6 then 255 else i 4] [i 0, i 1, i 2, if mode = 6 then 255 else i 5]
  else if mode = 7 then hdrScale v
  else if mode = 8 ∨ mode = 12 then
    let a (k : Nat) : Int := if mode = 8 then 255 else i k
    let lo : List Int := [i 0, i 2, i 4, a 6]
    let hi : List Int := [i 1, i 3, i 5, a 7]
    if v 0 + v 2 + v 4 ≤ v 1 + v 3 + v 5 then ldrEnds lo hi else ldrEnds (contract hi) (contract lo)
  else if mode = 9 ∨ mode = 13 then
    let t (k : Nat) : Int × Nat := if k = 6 && mode = 9 then (0, 255) else ts k
    let lo : List Int := [0, 2, 4, 6].map (fun k => ((t k).2 : Int))
    let hi : List Int := [0, 2, 4, 6].map (fun k => ((t k).2 : Int) + (t k).1)
    if 0 ≤ (t 0).1 + (t 2).1 + (t 4).1 then ldrEnds lo hi else ldrEnds (contract hi) (contract lo)
  else
    let e := hdrDirect v
    if mode = 11 then hdrOf (e.1 ++ [0x780]) (e.2 ++ [0x780]) true
    else if mode = 14 then hdrOf (e.1 ++ [i 6]) (e.2 ++ [i 7]) false
    else let a := hdrAlphaEnds (v 6) (v 7); hdrOf (e.1 ++ [a.1]) (e.2 ++ [a.2]) true

/-! Blocks. -/

/-- The value of a component: a UNORM16, or a binary16 code. -/
inductive AstcValue where
  | unorm (x : Nat)
  | half (x : Nat)
  deriving DecidableEq, Repr

/-- An interpolated HDR component as binary16. -/
def hdrHalf (c : Nat) : Nat :=
  let m := c % 2048
  let t := if m < 512 then 3 * m else if 1536 ≤ m then 5 * m - 2048 else 4 * m - 512
  Nat.min 0x7BFF (c / 2048 * 1024 + t / 8)

/-- A component between two endpoints with a weight. -/
def mixEnds (srgb hdr : Bool) (a b : Int) (w : Nat) : AstcValue :=
  let up (x : Int) : Nat := if hdr then 16 * x.toNat else 256 * x.toNat + (if srgb then 128 else x.toNat)
  let c := (up a * (64 - w) + up b * w + 32) / 64
  if hdr then .half (hdrHalf c) else .unorm c

/-- The infilled weight of a texel from the weights of a grid. -/
def gridWeight (w : Nat → Nat) (gw gh bw bh x y : Nat) : Nat :=
  let g (p size n : Nat) : Nat := ((1024 + size / 2) / (size - 1) * p * (n - 1) + 32) / 64
  let gs := g x bw gw
  let gt := g y bh gh
  let fs := gs % 16
  let ft := gt % 16
  let at_ := gs / 16 + gt / 16 * gw
  let w11 := (fs * ft + 8) / 16
  (w at_ * (16 + w11 - fs - ft) + w (at_ + 1) * (fs - w11) + w (at_ + gw) * (ft - w11) + w (at_ + gw + 1) * w11 + 8) / 16

/-- 128 bits in reverse order. -/
def reverse128 (v : Nat) : Nat := (List.range 128).foldl (fun acc i => 2 * acc + bitsN v i 1) 0

/-- A void-extent block: its colour; none where it is invalid. -/
def voidExtent (hdr : Bool) (v : Nat) : Option (List AstcValue) :=
  let s0 := bitsN v 12 13
  let s1 := bitsN v 25 13
  let t0 := bitsN v 38 13
  let t1 := bitsN v 51 13
  let open_ := [s0, s1, t0, t1].all (fun x => x = 8191)
  let wide := bitsN v 9 1 = 1
  if bitsN v 10 2 ≠ 3 || (!open_ && (decide (s1 ≤ s0) || decide (t1 ≤ t0))) || (wide && !hdr) then none
  else some ((List.range 4).map (fun i => let c := bitsN v (64 + 16 * i) 16; if wide then .half c else .unorm c))

/-- A texel of a block: its components; none for the error colour. -/
def astcDecode (hdr srgb : Bool) (bw bh v x y : Nat) : Option (List AstcValue) :=
  if bitsN v 0 9 = 0x1FC then voidExtent hdr v
  else
    match astcMode (bitsN v 0 11) with
    | none => none
    | some (gw, gh, wq, dual) =>
      let count := gw * gh * (if dual then 2 else 1)
      let wquant := quantOf wq
      let wbits := wquant.size count
      let parts := bitsN v 11 2 + 1
      if bw < gw || bh < gh || 64 < count || wbits < 24 || 96 < wbits || (dual && parts = 4) then none
      else
        let sel := bitsN v 23 2
        let extra := if parts = 1 || sel = 0 then 0 else 3 * parts - 4
        let code := bitsN v 23 6 + 64 * bitsN v (128 - wbits - extra) extra
        let cem (p : Nat) : Nat :=
          if parts = 1 then bitsN v 13 4
          else if sel = 0 then bitsN code 2 4
          else 4 * (sel - 1 + bitsN code (2 + p) 1) + bitsN code (2 + parts + 2 * p) 2
        let need (p : Nat) : Nat := 2 * (cem p / 4 + 1)
        let first (p : Nat) : Nat := ((List.range p).map need).foldl (· + ·) 0
        let total := first parts
        let from_ := if parts = 1 then 17 else 29
        let space := 128 - wbits - extra - (if dual then 2 else 0) - from_
        match (List.range 21).reverse.find? (fun q => decide (4 ≤ q) && decide ((quantOf q).size total ≤ space)) with
        | none => none
        | some cq =>
          if 18 < total || 128 < wbits + extra + (if dual then 2 else 0) + from_ then none
          else
            let q := quantOf cq
            let p := astcPartition (bitsN v 13 10) parts (bw * bh < 31) x y
            let e := endsOf (cem p) (fun k => q.colour (q.value v from_ (q.size total) (first p + k)))
            if !hdr && (e.hdr || e.hdrAlpha) then none
            else
              let r := reverse128 v
              let plane (k : Nat) : Nat :=
                gridWeight (fun n => wquant.weight (wquant.value r 0 wbits (if dual then 2 * n + k else n))) gw gh bw bh x y
              let ccs := bitsN v (128 - wbits - extra - 2) 2
              some ((List.range 4).map (fun i =>
                mixEnds srgb (if i = 3 then e.hdrAlpha else e.hdr) (nth e.lo i 0) (nth e.hi i 0) (plane (if dual && i = ccs then 1 else 0))))

/-- A UNORM16 of an HDR texture as binary16, rounded towards zero. -/
def halfOfUnorm (x : Nat) : Nat := if x = 65535 then 0x3C00 else f16.round 1 false false x 65536 0

/-- A texel of an ASTC block (R204, R209). In the HDR profile the standard lets the error colour be magenta or NaN: a free value (tag 36). -/
def astcTexel (f : Nat) (bytes : List Byte) (x y : Nat) : W72 :=
  let hdr := decide (0x30 ≤ f)
  let srgb := decide (0x20 ≤ f) && !hdr
  let (bw, bh) := blockDims f
  match astcDecode hdr srgb bw bh (ofBytes bytes) x y with
  | none => if hdr && Config.unstated 36 [] % 2 = 1 then px f18.qnan f18.qnan f18.qnan f18.qnan else px one18 0 one18 one18
  | some l =>
    let c (i : Nat) : Nat :=
      match nth l i (.unorm 0) with
      | .half h => f16.convert f18 0 h
      | .unorm u =>
        if hdr then f16.convert f18 0 (halfOfUnorm u)
        else if srgb then (if i = 3 then f18OfFrac (u / 256) 255 else srgbEotf (u / 256) 255) else f18OfFrac u 65535
    px (c 0) (c 1) (c 2) (c 3)

/-- A texel of a compressed block (R209). -/
def blockTexel (f : Nat) (bytes : List Byte) (x y : Nat) : W72 := if f < 0x40 then astcTexel f bytes x y else etcTexel f bytes x y

end Sys2Proof.Machine
end

