-- ==== Sys2Proof/Machine/Vector.lean ====
section
/-! DEFINITION. V-profile execution lane by lane (R166, R168 to R170) and the vector ALU instructions (R171, R172). -/

namespace Sys2Proof.Machine

/-! Lanes. -/

/-- A lane's vector register, and the lane with it replaced. -/
def Lane.rd (l : Lane) (n : Nat) : W72 := tget l.v n 0
def Lane.wr (l : Lane) (n : Nat) (x : W72) : Lane := { l with v := tset l.v n x }

/-- A lane's predicate register; k0 reads one and discards writes (R48, R168). -/
def Lane.rdK (l : Lane) (n : Nat) : Bool := if n = 0 then true else bit l.k n
def Lane.wrK (l : Lane) (n : Nat) (x : Bool) : Lane := if n = 0 then l else { l with k := setBit l.k n x }

/-- Whether a vector instruction executes in a lane (R168, R169): active or a helper, and its own predicate holds. -/
def Lane.runs (l : Lane) (w : Insn) : Bool := l.act != 0 && (l.rdK w.pred.toNat != w.neg)

/-- Whether a lane is a helper. -/
def Lane.helper (l : Lane) : Bool := l.act = 2

end Sys2Proof.Machine

namespace Sys2Proof

/-- The lane-type field, imm16, and the texture slot of format 6 (R46, R170, R175). -/
def Insn.lt (w : Insn) : Nat := Machine.fld w.low 24 3
def Insn.imm16 (w : Insn) : Nat := Machine.fld w.low 0 16
def Insn.slot (w : Insn) : Nat := Machine.fld w.low 16 8

end Sys2Proof

namespace Sys2Proof.Machine

/-- Which register fields of a vector instruction name vector registers. -/
structure VRegs where
  d : Bool
  a : Bool
  b : Bool
  c : Bool
  deriving DecidableEq, Repr

/-- The common sets: d, a, b; d, a, b, c; d, a. -/
def VRegs.dab : VRegs := { d := true, a := true, b := true, c := false }
def VRegs.dabc : VRegs := { d := true, a := true, b := true, c := true }
def VRegs.da : VRegs := { d := true, a := true, b := false, c := false }

/-- Whether an instruction names a vector register that the wave does not have (R166). -/
def VRegs.beyond (u : VRegs) (nv : Nat) (w : Insn) : Bool :=
  (u.d && decide (nv ≤ w.d)) || (u.a && decide (nv ≤ w.a)) || (u.b && decide (nv ≤ w.b)) || (u.c && decide (nv ≤ w.c))

/-- An effect on each lane that executes the instruction, in ascending lane order; the first exception stands (R183). The
effect may change the device (memory, tile memory) and the lane; it is told the lane's number. -/
def lanesRun (w : Insn) (h : Dev → Nat → Lane → Dev × Except Exc Lane) (d : Dev) (n : Nat) (l : List Lane) : Dev × Except Exc (List Lane) :=
  match l with
  | [] => (d, .ok [])
  | x :: r =>
    match (if x.runs w then h d n x else (d, .ok x)) with
    | (d1, .error e) => (d1, .error e)
    | (d1, .ok y) =>
      match lanesRun w h d1 (n + 1) r with
      | (d2, .error e) => (d2, .error e)
      | (d2, .ok t) => (d2, .ok (y :: t))

/-- A vector instruction whose effect takes the whole wave: EX_ILLEGAL for a lane type it does not have and for a vector
register at or above Nv (R166, R170). -/
def waveOp (c : Ctx) (sh : Shape) (w : Insn) (types : List Nat) (u : VRegs) (h : Dev → Nat → Wave → Dev × Except Exc Flow) (d : Dev) : Dev :=
  issue c sh w false (fun d =>
    match c with
    | .wave i =>
      match d.wave i with
      | some x => if !types.contains w.lt || u.beyond x.nv w then (d, .error exIllegal) else h d i x
      | none => (d, .error exIllegal)
    | _ => (d, .error exIllegal)) d

/-- A vector instruction with an effect per lane. -/
def vector (c : Ctx) (sh : Shape) (w : Insn) (types : List Nat) (u : VRegs) (h : Wave → Dev → Nat → Lane → Dev × Except Exc Lane) (d : Dev) : Dev :=
  waveOp c sh w types u (fun d i x =>
    match lanesRun w (h x) d 0 x.lanes with
    | (d1, .error e) => (d1, .error e)
    | (d1, .ok ls) =>
      match d1.wave i with
      | some y => (d1.setWave i { y with lanes := ls }, .ok .next)
      | none => (d1, .ok .next)) d

/-- A vector instruction that changes registers of its lane only. -/
def vectorL (c : Ctx) (sh : Shape) (w : Insn) (types : List Nat) (u : VRegs) (h : Lane → Lane) (d : Dev) : Dev :=
  vector c sh w types u (fun _ d _ l => (d, .ok (h l))) d

/-- A vector instruction that writes vd with a value computed from its lane. -/
def vectorD (c : Ctx) (sh : Shape) (w : Insn) (types : List Nat) (u : VRegs) (h : Lane → W72) (d : Dev) : Dev :=
  vectorL c sh w types u (fun l => l.wr w.d (h l)) d

/-- The rows of vector opcodes that name d, a, b, and c. -/
def Shape.vdab (subs : Nat) : Shape := .vec .reg .reg .reg false subs
def Shape.vdabc (subs : Nat) : Shape := .vec .reg .reg .reg true subs

/-! The element layouts of R170. -/

/-- Elements per lane and bits per element of a lane type. -/
def elemCount (lt : Nat) : Nat := nth [1, 2, 4, 4, 2, 2] lt 1
def elemWidth (lt : Nat) : Nat := nth [72, 36, 18, 18, 36, 36] lt 72

/-- An operation on each element of the operands of a lane. -/
def perElem (lt : Nat) (h : Nat → Nat → Nat → Nat) (a b c : W72) : W72 := lanes (elemCount lt) (elemWidth lt) h a b c

/-- The float format of lane types 3 and 4. -/
def laneFmt (lt : Nat) : FFmt := if lt = 3 then f18 else f36

/-! The vector ALU. -/

/-- VADD.h (R171). -/
def execVaddH (c : Ctx) (w : Insn) (s : State) : Host.Outcome State Fault Refusal :=
  run (vectorD c (.vdab 2) w [0] .dab (fun l => perElem 3 (fun x y _ => f18.add w.rm w.sat (w.s = 1) x y) (l.rd w.a) (l.rd w.b) 0)) s

/-- VMUL.h (R171). -/
def execVmulH (c : Ctx) (w : Insn) (s : State) : Host.Outcome State Fault Refusal :=
  run (vectorD c (.vdab 1) w [0] .dab (fun l => perElem 3 (fun x y _ => f18.mul w.rm w.sat x y) (l.rd w.a) (l.rd w.b) 0)) s

/-- VFMA.h (R171). -/
def execVfmaH (c : Ctx) (w : Insn) (s : State) : Host.Outcome State Fault Refusal :=
  run (vectorD c (.vdabc 4) w [0] .dabc (fun l =>
    perElem 3 (fun x y z => f18.fma w.rm w.sat (fmaNegP w.s) (fmaNegC w.s) x y z) (l.rd w.a) (l.rd w.b) (l.rd w.c))) s

/-- VMNX.h (R54, R171). -/
def execVmnxH (c : Ctx) (w : Insn) (s : State) : Host.Outcome State Fault Refusal :=
  run (vectorD c (.vdab 2) w [0] .dab (fun l => perElem 3 (fun x y _ => f18.minmax (w.s = 1) x y) (l.rd w.a) (l.rd w.b) 0)) s

/-- VADD.s (R171). -/
def execVaddS (c : Ctx) (w : Insn) (s : State) : Host.Outcome State Fault Refusal :=
  run (vectorD c (.vdab 2) w [0] .dab (fun l => perElem 4 (fun x y _ => f36.add w.rm w.sat (w.s = 1) x y) (l.rd w.a) (l.rd w.b) 0)) s

/-- VMUL.s (R171). -/
def execVmulS (c : Ctx) (w : Insn) (s : State) : Host.Outcome State Fault Refusal :=
  run (vectorD c (.vdab 1) w [0] .dab (fun l => perElem 4 (fun x y _ => f36.mul w.rm w.sat x y) (l.rd w.a) (l.rd w.b) 0)) s

/-- VFMA.s (R171). -/
def execVfmaS (c : Ctx) (w : Insn) (s : State) : Host.Outcome State Fault Refusal :=
  run (vectorD c (.vdabc 4) w [0] .dabc (fun l =>
    perElem 4 (fun x y z => f36.fma w.rm w.sat (fmaNegP w.s) (fmaNegC w.s) x y z) (l.rd w.a) (l.rd w.b) (l.rd w.c))) s

/-- The row of VRCP, VEXL and VTRG: d and a. -/
def Shape.vda (subs : Nat) : Shape := .vec .reg .reg .none false subs

/-- VRCP: 1/a, 1/sqrt a (R172). -/
def execVrcp (c : Ctx) (w : Insn) (s : State) : Host.Outcome State Fault Refusal :=
  run (vectorD c (.vda 2) w [3, 4] .da (fun l => perElem w.lt (fun x _ _ => (laneFmt w.lt).special w.sat w.s x) (l.rd w.a) 0 0)) s

/-- VEXL: 2^a, log2 a (R172). -/
def execVexl (c : Ctx) (w : Insn) (s : State) : Host.Outcome State Fault Refusal :=
  run (vectorD c (.vda 2) w [3, 4] .da (fun l => perElem w.lt (fun x _ _ => (laneFmt w.lt).special w.sat (2 + w.s) x) (l.rd w.a) 0 0)) s

/-- VTRG: sin 2 pi a, cos 2 pi a (R172). -/
def execVtrg (c : Ctx) (w : Insn) (s : State) : Host.Outcome State Fault Refusal :=
  run (vectorD c (.vda 2) w [3, 4] .da (fun l => perElem w.lt (fun x _ _ => (laneFmt w.lt).special w.sat (4 + w.s) x) (l.rd w.a) 0 0)) s

/-- One element of VIADD, n bits wide: 0 add, 1 subtract, 2 low bits of the product, 3 to 6 the minima and maxima; SAT limits the
first three to the signed range. -/
def viaddElem (sub n : Nat) (sat : Bool) (x y : Nat) : Nat :=
  let a := toSigned n x
  let b := toSigned n y
  let out (v : Int) : Nat := ofSigned n (if sat then clampI (-(2 ^ (n - 1) : Nat)) ((2 ^ (n - 1) : Nat) - 1) v else v)
  match sub with
  | 0 => out (a + b)
  | 1 => out (a - b)
  | 2 => out (a * b)
  | 3 => if a ≤ b then x else y
  | 4 => if a ≤ b then y else x
  | 5 => Nat.min x y
  | _ => Nat.max x y

/-- VIADD (R171). -/
def execViadd (c : Ctx) (w : Insn) (s : State) : Host.Outcome State Fault Refusal :=
  run (vectorD c (.vdab 7) w [0, 1, 2] .dab (fun l =>
    perElem w.lt (fun x y _ => viaddElem w.s (elemWidth w.lt) w.sat x y) (l.rd w.a) (l.rd w.b) 0)) s

/-- VLOG (R171). -/
def execVlog (c : Ctx) (w : Insn) (s : State) : Host.Outcome State Fault Refusal :=
  run (vectorD c (.vdab 5) w [0] .dab (fun l =>
    let a := l.rd w.a
    let b := l.rd w.b
    match w.s with
    | 0 => a &&& b
    | 1 => a ||| b
    | 2 => a ^^^ b
    | 3 => a &&& ~~~b
    | _ => ~~~a)) s

/-- One element of VSHF, n bits wide, by the element of vb (R58, R171). -/
def vshfElem (sub n x y : Nat) : Nat :=
  match sub with
  | 0 => if n ≤ y then 0 else x * 2 ^ y % 2 ^ n
  | 1 => if n ≤ y then 0 else x / 2 ^ y
  | 2 => ofSigned n (toSigned n x / ((2 ^ Nat.min y n : Nat) : Int))
  | _ => x / 2 ^ (y % n) + x * 2 ^ (n - y % n) % 2 ^ n

/-- VSHF (R171). -/
def execVshf (c : Ctx) (w : Insn) (s : State) : Host.Outcome State Fault Refusal :=
  run (vectorD c (.vdab 4) w [0, 1, 2] .dab (fun l =>
    perElem w.lt (fun x y _ => vshfElem w.s (elemWidth w.lt) x y) (l.rd w.a) (l.rd w.b) 0)) s

/-- VCMP of one element: signed for types 0 to 2 and 5, as a float for 3 and 4. -/
def vcmpElem (sub lt x y : Nat) : Bool :=
  if lt = 3 ∨ lt = 4 then (laneFmt lt).cmp sub x y else compareInt sub (toSigned (elemWidth lt) x) (toSigned (elemWidth lt) y)

/-- VCMP over the elements of a lane: all, or any when imm16[0] is 1. -/
def vcmpLane (w : Insn) (a b : W72) : Bool :=
  let one (i : Nat) : Bool := vcmpElem w.s w.lt (fld a (elemWidth w.lt * i) (elemWidth w.lt)) (fld b (elemWidth w.lt * i) (elemWidth w.lt))
  if w.imm16 % 2 = 1 then (List.range (elemCount w.lt)).any one else (List.range (elemCount w.lt)).all one

/-- VCMP: writes a lane predicate (R168, R171); a float compare has five sub-operations. -/
def execVcmp (c : Ctx) (w : Insn) (s : State) : Host.Outcome State Fault Refusal :=
  run (vectorL c (.vec .pred .reg .reg false 6) w (if w.s = 5 then [0, 1, 2, 5] else [0, 1, 2, 3, 4, 5])
    { d := false, a := true, b := true, c := false } (fun l => l.wrK w.kd (vcmpLane w (l.rd w.a) (l.rd w.b)))) s

/-- VSEL (R171). -/
def execVsel (c : Ctx) (w : Insn) (s : State) : Host.Outcome State Fault Refusal :=
  run (vectorD c (.vdab 8) w [0] .dab (fun l => if l.rdK w.s then l.rd w.a else l.rd w.b)) s

/-- VCVT (R171). -/
def execVcvt (c : Ctx) (w : Insn) (s : State) : Host.Outcome State Fault Refusal :=
  run (vectorD c (.vda 8) w [0] .da (fun l => fcvtWord w.s w.rm (l.rd w.a))) s

/-- VBCAST (R171). -/
def execVbcast (c : Ctx) (w : Insn) (s : State) : Host.Outcome State Fault Refusal :=
  run (vector c (.vda 1) w [0] { d := true, a := false, b := false, c := false }
    (fun x d _ l => (d, .ok (l.wr w.d (x.seq.bank.rd w.a))))) s

/-- One node of a VRED tree on two elements: 0 sum, 1 min, 2 max, 3 AND, 4 OR. -/
def vredElem (sub lt rm : Nat) (sat : Bool) (x y : Nat) : Nat :=
  let n := elemWidth lt
  let fl := lt = 3 ∨ lt = 4
  match sub with
  | 0 => if fl then (laneFmt lt).add rm sat false x y else if lt = 5 then s36Sat (s36Val x + s36Val y) else (x + y) % 2 ^ n
  | 1 => if fl then (laneFmt lt).minmax false x y else if toSigned n x ≤ toSigned n y then x else y
  | 2 => if fl then (laneFmt lt).minmax true x y else if toSigned n x ≤ toSigned n y then y else x
  | 3 => Nat.land x y
  | _ => Nat.lor x y

/-- One level of the tree: neighbours joined. -/
def pairUp (h : W72 → W72 → W72) (l : List W72) : List W72 :=
  match l with
  | x :: y :: r => h x y :: pairUp h r
  | l => l

/-- The fixed tree over 64 values (R171). -/
def vredTree (h : W72 → W72 → W72) (l : List W72) : W72 := ((List.range 6).foldl (fun l _ => pairUp h l) l).headD 0

/-- Whether VRED takes a lane in: active, no helper, its predicate holding. -/
def Lane.counts (l : Lane) (w : Insn) : Bool := l.runs w && !l.helper

/-- VRED: 0 the sum over the fixed tree; 1 to 4 over the lanes taken in, ascending (no lane: not stated, tag 2); 5 their number with
lane k[imm16[2:0]] one. -/
def vredWord (w : Insn) (l : List Lane) : W72 :=
  let node (x y : W72) : W72 := perElem w.lt (fun p q _ => vredElem w.s w.lt w.rm w.sat p q) x y 0
  let taken := l.filter (fun x => x.counts w)
  if w.s = 0 then vredTree node (l.map (fun x => if x.counts w then x.rd w.a else 0))
  else if w.s = 5 then BitVec.ofNat 72 (taken.filter (fun x => x.rdK (w.imm16 % 8))).length
  else
    match taken.map (fun x => x.rd w.a) with
    | [] => BitVec.ofNat 72 (Config.unstated 2 [w.s, w.lt])
    | x :: r => r.foldl node x

/-- VRED: writes the wave's scalar register (R171). -/
def execVred (c : Ctx) (w : Insn) (s : State) : Host.Outcome State Fault Refusal :=
  run (waveOp c (.vda 6) w [0, 1, 2, 3, 4, 5] { d := false, a := true, b := false, c := false }
    (fun d _ x => (d.wrReg c w.d (vredWord w x.lanes), .ok .next))) s

/-- VPERM: the source lane of lane i (R171). -/
def permSource (w : Insn) (i : Nat) (l : Lane) : Nat :=
  match w.s with
  | 0 => fld (l.rd w.b) 0 6
  | 1 => Nat.xor i (w.imm16 % 64)
  | _ => (i + w.imm16 % 64) % 64

/-- VPERM (R171). -/
def execVperm (c : Ctx) (w : Insn) (s : State) : Host.Outcome State Fault Refusal :=
  run (vector c (.vdab 3) w [0] .dab (fun x d i l => (d, .ok (l.wr w.d ((nth x.lanes (permSource w i l) .idle).rd w.a))))) s

end Sys2Proof.Machine
end

