-- ==== Sys2Proof/Machine/Texture.lean ====
section
/-! DEFINITION. Texels of a surface (R204 to R209, R213, R214, R231, R233) and the texture instructions (R175 to R177). -/

namespace Sys2Proof.Machine

/-! Texels. -/

/-- What the conversion of an element needs beside the element: TRANSFER, the fill colour of A8 and A4, and the matrix and range
of Y'CbCr. -/
structure TexCtx where
  transfer : Nat
  fill : W72
  matrix : Nat
  full : Bool
  deriving DecidableEq, Repr

/-- The context of a texture: TRANSFER 0 (R231); fill, matrix and range, which the manual does not state for textures, are
free (tags 3, 4 and 5). -/
def texCtx : TexCtx :=
  { transfer := 0, fill := BitVec.ofNat 72 (Config.unstated 3 []), matrix := Config.unstated 4 [] % 3, full := Config.unstated 5 [] % 2 = 1 }

/-- A device with a value read, or the cause and address of the fault. -/
abbrev Got (α : Type) := Dev × Except (Nat × Nat) α

/-- A value read passed on. -/
def Got.bind {α β : Type} (x : Got α) (h : Dev → α → Got β) : Got β :=
  match x with
  | (d, .error e) => (d, .error e)
  | (d, .ok v) => h d v

/-- A computation over a list, in order; the first fault ends it. -/
def mapGot {α β : Type} (h : Dev → α → Got β) (d : Dev) (l : List α) : Got (List β) :=
  match l with
  | [] => (d, .ok [])
  | x :: r => Got.bind (h d x) (fun d1 y => Got.bind (mapGot h d1 r) (fun d2 t => (d2, .ok (y :: t))))

/-- The set of a line in a texture cache (R208), and the lines that hold n bytes from a device-physical address: line, offset, length. -/
def texSet (line : Nat) : Nat := Nat.xor (bitsN line 0 7) (bitsN line 7 7)
def texPieces (pa n : Nat) : List (Nat × Nat × Nat) :=
  (List.range ((pa % 64 + n + 63) / 64)).map (fun i =>
    let line := pa / 64 + i
    let off := if i = 0 then pa % 64 else 0
    (line, off, Nat.min (64 - off) (pa + n - (64 * line + off))))

/-- A line as a core's texture unit reads it (R208): from its cache, or from memory, which fills the cache. The manual does not state which of
the 8 ways a full set gives up: a free value (tag 33). -/
def Dev.texLine (d : Dev) (core line : Nat) : Dev × Except Nat (List Byte) :=
  let x := d.coreOf core
  let s := texSet line
  let l := tget x.tex s []
  match l.find? (fun y => y.line = line) with
  | some y => (d, .ok y.bytes)
  | none =>
    let cause := d.dataCause (64 * line) 64
    if cause ≠ 0 then (d, .error cause)
    else
      let bytes := d.peek (64 * line) 64
      let kept := if l.length < 8 then l else l.eraseIdx (Config.unstated 33 (core :: line :: l.map (fun y => y.line)) % 8)
      ((d.ask (64 * line) 64 (some (mpCore core))).setCore core { x with tex := tset x.tex s (kept ++ [{ line := line, bytes := bytes }]) }, .ok bytes)

/-- Bytes of one piece of a page: device-virtual and device-physical address, length. Only DRAM and the scratch partition are cached. -/
def Dev.texPiece (d : Dev) (core : Nat) (x : Nat × Nat × Nat) : Got (List Byte) :=
  let (va, pa, n) := x
  if regionOf d.dram pa = .dram || regionOf d.dram pa = .scratch then
    Got.bind (mapGot (fun d (y : Nat × Nat × Nat) =>
      match d.texLine core y.1 with
      | (d1, .error cause) => (d1, .error (cause, va))
      | (d1, .ok b) => (d1, .ok ((b.drop y.2.1).take y.2.2))) d (texPieces pa n)) (fun d l => (d, .ok l.flatten))
  else if d.dataCause pa n ≠ 0 then (d, .error (d.dataCause pa n, va))
  else (d, .ok (d.peek pa n))

/-- n bytes of a function's space: through the texture cache of the core whose texture unit reads, else straight from memory. -/
def Dev.texRead (d : Dev) (f va n : Nat) : Got (List Byte) :=
  match d.raster.sampling with
  | none => d.readV f va n .read
  | some core =>
    match d.translateAll f .read (pieces va n) with
    | (d1, .error e) => (d1, .error e)
    | (d1, .ok t) => Got.bind (mapGot (fun d x => d.texPiece core x) d1 t) (fun d l => (d, .ok l.flatten))

/-- n bytes as a number. -/
def Dev.readNat (d : Dev) (f va n : Nat) : Got Nat := Got.bind (d.texRead f (va % 2 ^ 48) n) (fun d b => (d, .ok (ofBytes b)))

/-- A tile of sample plane smp of a layout-2 surface (R213, R214): its 1,024 elements by tiled index, as elements; a reserved
metadata byte reads as the clear value and raises EV_FAULT. `clear` turns the clear word into an element. -/
def Dev.readTile2 (d : Dev) (f : Nat) (s : Surf) (smp tx ty base : Nat) (clear : W72 → Nat) : Got (List Nat) :=
  let e := elemBytes s.format
  let slot := base + ty * s.pitch + tx * (1024 * e)
  let lines := 1024 * e / 64
  let cleared (d : Dev) : Got (List Nat) :=
    Got.bind (d.readNat f s.aux 9) (fun d x => (d, .ok (List.replicate 1024 (clear (BitVec.ofNat 72 x)))))
  Got.bind (d.readNat f (metaAddr s smp tx ty) 1) (fun d m =>
    if m = 0 then cleared d
    else if m = 0xFF then
      Got.bind (d.texRead f (slot % 2 ^ 48) (1024 * e)) (fun d b =>
        (d, .ok ((List.range 1024).map (fun i => ofBytes ((b.drop (e * i)).take e)))))
    else if m < lines then Got.bind (d.texRead f (slot % 2 ^ 48) (64 * m)) (fun d b => (d, .ok (expandTile s.format b)))
    else cleared (d.setEv f 5))

/-- A PX72 clear word as an element of a format: the word itself for D36S8. -/
def clearElem (format : Nat) (p : W72) : Nat := if format = 0x50 then p.toNat else fromPx format p

/-- The chroma pair (i, j) of a Y'CbCr surface: codes of Cb and Cr (R207). -/
def Dev.chroma (d : Dev) (f : Nat) (s : Surf) (layer lv i j : Nat) : Got (Nat × Nat) :=
  let e := elemBytes s.format
  let h := Nat.max 1 (s.height / 2 ^ lv)
  let rows := if s.layout = 0 then h else ceilDiv h 32
  let plane := s.base + layer * layerStride s + levelStart s lv + up4k (rows * levelPitch s lv)
  Got.bind (d.readNat f (plane + elemOffset s.layout (levelPitch s lv) (2 * e) i j) (2 * e)) (fun d x =>
    (d, .ok (x % 2 ^ (8 * e), x / 2 ^ (8 * e))))

/-- A Y'CbCr pixel (R233): chroma co-sited horizontally and centred vertically, interpolated with weights of 1/256. -/
def Dev.yccTexel (d : Dev) (f : Nat) (s : Surf) (t : TexCtx) (layer lv x y : Nat) : Got W72 :=
  let e := elemBytes s.format
  let n := if s.format = 0x07 then 8 else 10
  let cw := (Nat.max 1 (s.width / 2 ^ lv) + 1) / 2
  let ch := (Nat.max 1 (s.height / 2 ^ lv) + 1) / 2
  let i0 := Nat.min (x / 2) (cw - 1)
  let i1 := if x % 2 = 0 then i0 else Nat.min (i0 + 1) (cw - 1)
  let wx := if x % 2 = 0 then 0 else 128
  -- row y lies at y / 2 - 1/4 in chroma rows
  let jq : Int := 2 * (y : Int) - 1
  let j0 := if jq < 0 then 0 else Nat.min (jq.toNat / 4) (ch - 1)
  let j1 := if jq < 0 then 0 else Nat.min (jq.toNat / 4 + 1) (ch - 1)
  let wy := (jq % 4).toNat * 64
  let wt (a b : Nat) : Nat := frac36 (a * b) 65536
  Got.bind (d.readNat f (elemAddr s layer lv x y) e) (fun d luma =>
  Got.bind (mapGot (fun d (p : Nat × Nat) => d.chroma f s layer lv p.1 p.2) d [(i0, j0), (i1, j0), (i0, j1), (i1, j1)]) (fun d cs =>
    let ws := [wt (256 - wx) (256 - wy), wt wx (256 - wy), wt (256 - wx) wy, wt wx wy]
    let mix (g : Nat × Nat → Nat) : Nat := (cs.zip ws).foldl (fun acc p => add36 acc (mul36 (intTo36 (g p.1 % 2 ^ n : Nat)) p.2)) 0
    (d, .ok (yccToPx n t.matrix t.full t.transfer (luma % 2 ^ n) (mix (fun p => p.1)) (mix (fun p => p.2))))))

/-- The texel (x, y) of a level and layer as PX72 (R204 to R207, R209, R213, R231, R233). -/
def Dev.texel (d : Dev) (f : Nat) (s : Surf) (t : TexCtx) (layer lv x y : Nat) : Got W72 :=
  let cc (p : W72) : ConvCtx := { transfer := t.transfer, fill := t.fill, palette := fun _ => p }
  if s.format = 0x07 ∨ s.format = 0x08 then d.yccTexel f s t layer lv x y
  else if isBlockFormat s.format then
    let (bw, bh) := blockDims s.format
    Got.bind (d.texRead f (elemAddr s layer lv (x / bw) (y / bh) % 2 ^ 48) (elemBytes s.format)) (fun d b =>
      (d, .ok (blockTexel s.format b (x % bw) (y % bh))))
  else if s.format = 0x0B then
    let a := s.base + layer * layerStride s + levelStart s lv + y * levelPitch s lv + x / 2
    Got.bind (d.readNat f a 1) (fun d v => (d, .ok (toPx 0x0B (cc 0) (if x % 2 = 0 then v % 16 else v / 16))))
  else if s.layout = 2 then
    Got.bind (d.readTile2 f s 0 (x / 32) (y / 32) s.base (clearElem s.format)) (fun d els =>
      (d, .ok (toPx s.format (cc 0) (nth els (tileIndex (x % 32) (y % 32)) 0))))
  else
    Got.bind (d.readNat f (elemAddr s layer lv x y) (elemBytes s.format)) (fun d v =>
      if s.format = 0x09 then Got.bind (d.readNat f (s.aux + 9 * v) 9) (fun d p => (d, .ok (BitVec.ofNat 72 p)))
      else (d, .ok (toPx s.format (cc 0) v)))

/-! The texture table. -/

/-- A texture-table entry (R175). -/
structure Tex where
  surf : Surf
  aniso : Nat
  mip : Nat
  minLinear : Bool
  magLinear : Bool
  wrapU : Nat
  wrapV : Nat
  border : Nat
  compare : Nat
  minLod : Nat
  maxLod : Nat
  bias : Nat
  deriving DecidableEq, Repr

/-- An entry of four words, none when a field is reserved or the combination is not permitted (R175, R205 to R209). -/
def texOf (l : List W72) : Option Tex :=
  let w (i : Nat) : W72 := nth l i 0
  let s := surfOf (w 0) (w 1) (w 2)
  let auxOk := s.layout = 2 || s.format = 0x09 || s.aux = 0
  let ok := isFormat s.format && s.layout ≤ 2 && layoutOk s.format s.layout && fld (w 0) 48 14 = 0 && fld (w 1) 29 4 ≠ 15 &&
    fld (w 2) 48 24 = 0 && auxOk && pitchOk s && (s.layout ≠ 2 || (s.levels = 1 && s.layers = 1)) &&
    fld (w 3) 69 3 ≤ 4 && fld (w 3) 67 2 ≤ 2 && fld (w 3) 59 2 ≤ 2 && fld (w 3) 54 2 = 0
  if ok then
    some { surf := s, aniso := 2 ^ fld (w 3) 69 3, mip := fld (w 3) 67 2, minLinear := bit (w 3) 66, magLinear := bit (w 3) 65,
           wrapU := fld (w 3) 63 2, wrapV := fld (w 3) 61 2, border := fld (w 3) 59 2, compare := fld (w 3) 56 3,
           minLod := fld (w 3) 36 18, maxLod := fld (w 3) 18 18, bias := fld (w 3) 0 18 }
  else none

/-- The entry that a slot names: a fault of its read, none for a slot beyond the table or an entry that is not permitted. -/
def Dev.texEntry (d : Dev) (x : Wave) (slot : Nat) : Got (Option Tex) :=
  if x.texN ≤ slot then (d, .ok none)
  else Got.bind (d.readWords x.fn ((x.texAt.toNat + 36 * slot) % 2 ^ 48) 4 .read) (fun d l => (d, .ok (texOf l)))

/-! Filtering (R177). -/

/-- A coordinate under a wrap mode in a level of n texels; none is the border. -/
def wrapAt (mode n : Nat) (i : Int) : Option Nat :=
  match mode with
  | 0 => some (i % (n : Int)).toNat
  | 1 => let m := (i % (2 * n : Int)).toNat; some (if n ≤ m then 2 * n - 1 - m else m)
  | 2 => some (clampI 0 ((n : Int) - 1) i).toNat
  | _ => if 0 ≤ i ∧ i < (n : Int) then some i.toNat else none

/-- The size of a level. -/
def Surf.levelW (s : Surf) (lv : Nat) : Nat := Nat.max 1 (s.width / 2 ^ lv)
def Surf.levelH (s : Surf) (lv : Nat) : Nat := Nat.max 1 (s.height / 2 ^ lv)

/-- A layer that the surface has; another one is not stated (tag 6). -/
def Surf.layerOf (s : Surf) (i : Nat) : Nat := if i < s.layers then i else Config.unstated 6 [i, s.layers] % s.layers

/-- The comparison of a reference with a texel's depth (R175, R176), as F36; a surface without depth has none to compare (tag 7). -/
def compareTexel (t : Tex) (ref : Nat) (p : W72) : W72 :=
  let dep := if t.surf.format = 0x50 then el36 p 1 else Config.unstated 7 [p.toNat] % 2 ^ 36
  let hit : Bool :=
    match t.compare with
    | 1 => f36.cmp 2 ref dep
    | 2 => f36.cmp 0 ref dep
    | 3 => f36.cmp 3 ref dep
    | 4 => f36.cmp 2 dep ref
    | 5 => f36.cmp 1 ref dep
    | 6 => f36.cmp 3 dep ref
    | _ => true
  if hit then px one18 one18 one18 one18 else 0

/-- What filtering sees of a texel: the comparison's result, the colour, or for depth without comparison a value that the
manual does not state (tag 8). -/
def filterTexel (t : Tex) (ref : Nat) (p : W72) : W72 :=
  if t.compare ≠ 0 then compareTexel t ref p else if t.surf.format = 0x50 then BitVec.ofNat 72 (Config.unstated 8 [p.toNat]) else p

/-- The border colour. -/
def borderPx (t : Tex) : W72 := match t.border with | 0 => 0 | 1 => px 0 0 0 one18 | _ => px one18 one18 one18 one18

/-- The texel at wrapped coordinates as filtering sees it. -/
def Dev.wrapped (d : Dev) (f : Nat) (t : Tex) (ref layer lv : Nat) (i j : Int) : Got W72 :=
  match wrapAt t.wrapU (t.surf.levelW lv) i, wrapAt t.wrapV (t.surf.levelH lv) j with
  | some x, some y => Got.bind (d.texel f t.surf texCtx layer lv x y) (fun d p => (d, .ok (filterTexel t ref p)))
  | _, _ => (d, .ok (borderPx t))

/-- The texels of one level that a sample takes, with weights of 1/65536, in the order of R177. -/
def taps (s : Surf) (linear : Bool) (lv : Nat) (u v : Rat) : List ((Int × Int) × Nat) :=
  let x := u * (s.levelW lv : Rat) - (if linear then 1 / 2 else 0)
  let y := v * (s.levelH lv : Rat) - (if linear then 1 / 2 else 0)
  let i := x.floor
  let j := y.floor
  if linear then
    let a := frac256 x
    let b := frac256 y
    [((i, j), (256 - a) * (256 - b)), ((i + 1, j), a * (256 - b)), ((i, j + 1), (256 - a) * b), ((i + 1, j + 1), a * b)]
  else [((i, j), 65536)]

/-- The levels of a sample at LOD lam, lower first, with weights of 1/256. -/
def levelsAt (t : Tex) (lam : Rat) : List (Nat × Nat) :=
  let top := t.surf.levels - 1
  match t.mip with
  | 0 => [(0, 256)]
  | 1 => [(Nat.min top (lam + 1 / 2).floor.toNat, 256)]
  | _ =>
    let lo := Nat.min top lam.floor.toNat
    let w := frac256 lam
    if w = 0 then [(lo, 256)] else [(lo, 256 - w), (Nat.min top (lo + 1), w)]

/-- The filtered value over sample positions (R177): each of N samples over the levels, accumulated in F36. -/
def Dev.filter (d : Dev) (f : Nat) (t : Tex) (ref layer : Nat) (lam : Rat) (at_ : List (Rat × Rat)) : Got W72 :=
  let linear := if 0 < lam then t.minLinear else t.magLinear
  let n := at_.length
  let all : List ((Nat × (Int × Int)) × Nat) :=
    at_.flatMap (fun (p : Rat × Rat) => (levelsAt t lam).flatMap (fun (lv : Nat × Nat) =>
      (taps t.surf linear lv.1 p.1 p.2).map (fun (q : (Int × Int) × Nat) => ((lv.1, q.1), q.2 * lv.2))))
  Got.bind (mapGot (fun d (q : (Nat × (Int × Int)) × Nat) =>
    Got.bind (d.wrapped f t ref layer q.1.1 q.1.2.1 q.1.2.2) (fun d p => (d, .ok (p, frac36 q.2 (2 ^ 24 * n))))) d all) (fun d l =>
      let ch (i : Nat) : Nat := narrow (l.foldl (fun acc (x : W72 × Nat) => add36 acc (mul36 (wide (lane18 x.1 i)) x.2)) 0)
      (d, .ok (px (ch 3) (ch 2) (ch 1) (ch 0))))

/-- An LOD limited to MIN_LOD and MAX_LOD and to the levels present (R177). -/
def clampLod (t : Tex) (lam : Rat) : Rat := clampQ 0 ((t.surf.levels : Rat) - 1) (clampQ (f18.value t.minLod) (f18.value t.maxLod) lam)

/-- The least power of two not below q, and at most `most`. -/
def powerAtLeast (fuel most : Nat) (q : Rat) : Nat :=
  match fuel with
  | 0 => most
  | k + 1 => if q ≤ ((most / 2 ^ (k + 1) : Nat) : Rat) ∧ 1 ≤ most / 2 ^ (k + 1) then most / 2 ^ (k + 1) else powerAtLeast k most q

/-- The u and v of a lane. -/
def Lane.uv (l : Lane) (w : Insn) : Rat × Rat := (f36.value (el36 (l.rd w.a) 0), f36.value (el36 (l.rd w.a) 1))

/-- The lanes of a quad: right neighbour minus left of a lane's row, and bottom minus top of its column (R177, R182). -/
def quadStep (x : Wave) (i : Nat) (h : Lane → Rat × Rat) : (Rat × Rat) × (Rat × Rat) :=
  let at_ (j : Nat) : Rat × Rat := h (nth x.lanes j .idle)
  let q := i / 4 * 4
  let row := i % 4 / 2 * 2
  let col := i % 2
  let sub (a b : Rat × Rat) : Rat × Rat := (a.1 - b.1, a.2 - b.2)
  (sub (at_ (q + row + 1)) (at_ (q + row)), sub (at_ (q + 2 + col)) (at_ (q + col)))

/-- The implicit LOD and the anisotropic sample positions of a lane (R177). -/
def implicitLod (t : Tex) (x : Wave) (i : Nat) (w : Insn) (l : Lane) : Rat × List (Rat × Rat) :=
  let (dx, dy) := quadStep x i (fun l => l.uv w)
  let rho (g : Rat × Rat) : Rat := maxQ (abs g.1 * (t.surf.width : Rat)) (abs g.2 * (t.surf.height : Rat))
  let hi := maxQ (rho dx) (rho dy)
  let lo := minQ (rho dx) (rho dy)
  let n := if hi = 0 then 1 else if lo = 0 then t.aniso else powerAtLeast 4 t.aniso (hi / lo)
  let major := if rho dy ≤ rho dx then dx else dy
  let q := hi / (n : Rat)
  let lam := if hi = 0 then f18.value t.minLod else log2Q q + f18.value t.bias
  let (u, v) := l.uv w
  (clampLod t lam, (List.range n).map (fun k =>
    let o : Rat := ((k : Rat) + 1 / 2) / (n : Rat) - 1 / 2
    (u + o * major.1, v + o * major.2)))

/-! The instructions. -/

/-- The row of the texture instructions: d, a, b and the reference in c. -/
def texShape (subs : Nat) : Shape := .vdabc subs

/-- A computation of a core's texture unit (R208). -/
def sampled {α : Type} (core : Nat) (h : Dev → Got α) (d : Dev) : Got α :=
  let (d1, r) := h { d with raster := { d.raster with sampling := some core } }
  ({ d1 with raster := { d1.raster with sampling := none } }, r)

/-- A texture instruction per lane; a fault of memory raises its exception (R77, R183), an entry that is not permitted
EX_ILLEGAL (R175). Waves of another kind than those named raise EX_ILLEGAL (R176). -/
def texOp (c : Ctx) (sh : Shape) (w : Insn) (pixelOnly : Bool) (u : VRegs) (h : Wave → Nat → Lane → Tex → Dev → Got W72) (d : Dev) : Dev :=
  vector c sh w [0] u (fun x d i l =>
    if pixelOnly && x.kind ≠ .pixel then (d, .error exIllegal)
    else
      match Got.bind (d.texEntry x w.slot) (fun d e =>
        match e with
        | none => (d, .ok none)
        | some t => Got.bind (sampled x.core (h x i l t) d) (fun d p => (d, .ok (some p)))) with
      | (d1, .error (cause, va)) =>
        (d1.excFault x.fn cause srcEngine (d1.ctxKind c) va, .error (memExc cause va))
      | (d1, .ok none) => (d1, .error exIllegal)
      | (d1, .ok (some p)) => (d1, .ok (l.wr w.d p))) d

/-- The layer and the reference of a lane. -/
def Lane.layer (l : Lane) (w : Insn) : Nat := el36 (l.rd w.b) 0
def Lane.ref (l : Lane) (w : Insn) : Nat := el36 (l.rd w.c) 0

/-- TEX (R176, R177). -/
def execTex (c : Ctx) (w : Insn) (s : State) : Host.Outcome State Fault Refusal :=
  run (texOp c (texShape 1) w true .dabc (fun x i l t d =>
    let (lam, at_) := implicitLod t x i w l
    d.filter x.fn t (l.ref w) (t.surf.layerOf (l.layer w)) lam at_)) s

/-- TEXL (R176, R177). -/
def execTexl (c : Ctx) (w : Insn) (s : State) : Host.Outcome State Fault Refusal :=
  run (texOp c (texShape 1) w false .dabc (fun x _ l t d =>
    d.filter x.fn t (l.ref w) (t.surf.layerOf (l.layer w)) (clampLod t (f36.value (el36 (l.rd w.b) 1))) [l.uv w])) s

/-- TEXG: one component of the four bilinear texels at the first level of the implicit LOD (R176). -/
def execTexg (c : Ctx) (w : Insn) (s : State) : Host.Outcome State Fault Refusal :=
  run (texOp c (texShape 4) w true .dabc (fun x i l t d =>
    let lv := (nth (levelsAt t (implicitLod t x i w l).1) 0 (0, 256)).1
    let (u, v) := l.uv w
    Got.bind (mapGot (fun d (q : (Int × Int) × Nat) => d.wrapped x.fn t (l.ref w) (t.surf.layerOf (l.layer w)) lv q.1.1 q.1.2) d (taps t.surf true lv u v))
      (fun d ps =>
        let one (i : Nat) : Nat := lane18 (nth ps i 0) w.s
        (d, .ok (px (one 0) (one 1) (one 2) (one 3)))))) s

/-- TEXF: the texel, zero outside the level (R176); a level or layer that is not there is not stated (tag 9). -/
def execTexf (c : Ctx) (w : Insn) (s : State) : Host.Outcome State Fault Refusal :=
  run (texOp c (.vdab 1) w false .dab (fun x _ l t d =>
    let a : Int := toSigned 36 (el36 (l.rd w.a) 0)
    let b : Int := toSigned 36 (el36 (l.rd w.a) 1)
    let lv := el36 (l.rd w.b) 0
    let layer := el36 (l.rd w.b) 1
    if t.surf.levels ≤ lv ∨ t.surf.layers ≤ layer then (d, .ok (BitVec.ofNat 72 (Config.unstated 9 [lv, layer])))
    else if a < 0 ∨ b < 0 ∨ (t.surf.levelW lv : Int) ≤ a ∨ (t.surf.levelH lv : Int) ≤ b then (d, .ok 0)
    else
      Got.bind (d.texel x.fn t.surf texCtx layer lv a.toNat b.toNat) (fun d p => (d, .ok (filterTexel { t with compare := 0 } 0 p))))) s

/-- TEXQ: the size of a level, or the counts (R176); the size of a level that is not there is not stated (tag 10). -/
def execTexq (c : Ctx) (w : Insn) (s : State) : Host.Outcome State Fault Refusal :=
  run (texOp c (.vec .reg .none .reg false 2) w false { d := true, a := false, b := true, c := false } (fun _ _ l t d =>
    let lv := el36 (l.rd w.b) 0
    if w.s = 1 then (d, .ok (two36 t.surf.levels t.surf.layers))
    else if t.surf.levels ≤ lv then (d, .ok (BitVec.ofNat 72 (Config.unstated 10 [lv])))
    else (d, .ok (two36 (t.surf.levelW lv) (t.surf.levelH lv))))) s

end Sys2Proof.Machine
end

