-- ==== Sys2Proof/Machine/Raster.lean ====
section
/-! DEFINITION. The raster engine's data: attachments and tile memory (R178, R185, R186, R201, R202, R213), blending (R178,
R235), draw records (R187), and the rasteriser (R182, R188). -/

namespace Sys2Proof.Machine

/-! Attachments. -/

/-- An attachment record (R186). -/
structure Att where
  format : Nat
  layout : Nat
  load : Nat
  store : Nat
  blend : Nat
  mask : Nat
  base : Nat
  pitch : Nat
  aux : Nat
  clear : W72
  deriving DecidableEq, Repr

/-- The record in four words. -/
def attOf (l : List W72) : Att :=
  let w (i : Nat) : W72 := nth l i 0
  { format := fld (w 0) 64 8, layout := fld (w 0) 62 2, load := fld (w 0) 60 2, store := fld (w 0) 58 2, blend := fld (w 0) 55 3,
    mask := fld (w 0) 51 4, base := fld (w 0) 0 48, pitch := fld (w 1) 0 29, aux := fld (w 2) 0 48, clear := w 3 }

/-- Sample plane smp of an attachment as a surface (R186). -/
def Att.surf (a : Att) (width height smp : Nat) : Surf :=
  { format := a.format, layout := a.layout, base := (a.base + smp * a.pitch * 32 * ceilDiv height 32) % 2 ^ 48, width := width, height := height,
    layers := 1, levels := 1, pitch := a.pitch, aux := a.aux }

/-- Whether a record of four words is one that a pass of these dimensions and samples may name (R186, R204 to R206). -/
def attOk (depth : Bool) (width height samples : Nat) (l : List W72) : Bool :=
  let w (i : Nat) : W72 := nth l i 0
  let a := attOf l
  (if depth then a.format = 0x50 && a.blend = 0 else isTarget a.format) && a.layout ≤ 2 && layoutOk a.format a.layout && a.load ≤ 2 &&
    a.store ≤ 2 && a.blend ≤ 5 && (a.store ≠ 1 || 1 < samples) && fld (w 0) 48 3 = 0 && fld (w 1) 29 43 = 0 && fld (w 2) 48 24 = 0 &&
    (a.layout = 2 || a.aux = 0) && pitchOk (a.surf width height 0)

/-- A DRAW_PASS descriptor (R185): the colour attachments and then the depth attachment in `planes`. -/
structure PassDesc where
  width : Nat
  height : Nat
  samples : Nat
  order : Nat
  colours : Nat
  depth : Bool
  drawCount : Nat
  drawList : Nat
  spill : Nat
  regions : Nat
  planes : List Att
  deriving DecidableEq, Repr

/-- The fields of a descriptor. -/
def passDesc (ws : List W72) : PassDesc :=
  let w (i : Nat) : W72 := nth ws i 0
  let colours := fld (w 0) 34 4
  let depth := bit (w 0) 33
  { width := fld (w 0) 58 14 + 1, height := fld (w 0) 44 14 + 1, samples := 2 ^ fld (w 0) 42 2, order := fld (w 0) 38 2, colours := colours,
    depth := depth, drawCount := fld (w 1) 48 16, drawList := fld (w 1) 0 48, spill := fld (w 2) 0 48,
    regions := if !bit (w 0) 41 then 1 else if bit (w 0) 40 then 4 else 2,
    planes := (List.range (colours + depth.toNat)).map (fun i => attOf ((ws.drop (3 + 4 * i)).take 4)) }

/-- Whether a descriptor is in range (R184 to R186). -/
def passOk (ws : List W72) : Bool :=
  let w (i : Nat) : W72 := nth ws i 0
  let p := passDesc ws
  let n := p.colours + p.depth.toNat
  ws.length = 3 + 4 * n && p.colours ≤ 8 && p.spill ≠ 0 && p.spill % 64 = 0 && fld (w 0) 42 2 ≠ 3 && p.order ≠ 3 && fld (w 0) 0 33 = 0 &&
    fld (w 1) 64 8 = 0 && p.drawCount ≠ 0 && p.drawList % 64 = 0 && fld (w 2) 48 24 = 0 && n * p.samples ≤ 20 &&
    (List.range n).all (fun i => attOk (p.depth && i = p.colours) p.width p.height p.samples ((ws.drop (3 + 4 * i)).take 4))

/-- The tiles of a target, and where one lies. -/
def PassDesc.tilesX (p : PassDesc) : Nat := ceilDiv p.width 32
def PassDesc.tileCount (p : PassDesc) : Nat := p.tilesX * ceilDiv p.height 32
def PassDesc.tileAt (p : PassDesc) (t : Nat) : Nat × Nat := (t % p.tilesX, t / p.tilesX)

/-- The footprint of a pass, and the tiles that a core holds of it (R185). -/
def PassDesc.footprint (p : PassDesc) : Nat := p.planes.length * p.samples
def PassDesc.perCore (p : PassDesc) : Nat := if p.footprint ≤ 10 then 2 else 1

/-- The region of a split pass that holds a row of pixels (R211), and the two regions of a row of tiles: they differ in a guard row. -/
def PassDesc.region (p : PassDesc) (y : Nat) : Nat := Nat.min (p.regions - 1) (y / (16 * ceilDiv p.height (16 * p.regions)))
def PassDesc.upper (p : PassDesc) (t : Nat) : Nat := p.region (32 * (p.tileAt t).2)
def PassDesc.lower (p : PassDesc) (t : Nat) : Nat := p.region (Nat.min (32 * (p.tileAt t).2 + 31) (p.height - 1))
def PassDesc.guardTile (p : PassDesc) (t : Nat) : Bool := p.upper t ≠ p.lower t

/-- The plane that an attachment selector names (R178): 0 to 7 colour, 8 depth-stencil. -/
def PassDesc.planeOf (p : PassDesc) (sel : Nat) : Option Nat :=
  if sel = 8 then (if p.depth then some p.colours else none) else if sel < p.colours then some sel else none

/-- The place of element i of a tile (R206), the inverse of its index. -/
def tileXY (i : Nat) : Nat × Nat :=
  ((List.range 5).foldl (fun acc k => acc + bitsN i (2 * k) 1 * 2 ^ k) 0, (List.range 5).foldl (fun acc k => acc + bitsN i (2 * k + 1) 1 * 2 ^ k) 0)

/-- A tile-memory word as an element of an attachment, and back: D36S8 stays as it is. -/
def toElem (format : Nat) (p : W72) : Nat := if format = 0x50 then p.toNat else fromPx format p
def ofElem (format : Nat) (x : Nat) : W72 := toPx format { transfer := 0, fill := texCtx.fill, palette := fun _ => 0 } x

/-- The words of an op-id, for free values that belong to its operation. -/
def opWords (id : OpId) : List Nat := [id.ring.val, id.acc, id.idx]

/-- A tile of one sample plane as its LOAD action gives it (R186): the clear value, the surface, or free values (tag 11), which `key` names, so that
a tile loaded again is the same (R212). -/
def Dev.loadPlane (d : Dev) (f : Nat) (a : Att) (width height smp tx ty : Nat) (key : List Nat) : Got (List W72) :=
  let s := a.surf width height smp
  match a.load with
  | 0 => (d, .ok (List.replicate 1024 a.clear))
  | 1 =>
    if a.layout = 2 then
      Got.bind (d.readTile2 f s smp tx ty s.base (clearElem a.format)) (fun d l => (d, .ok (l.map (ofElem a.format))))
    else
      mapGot (fun d i =>
        let (x, y) := tileXY i
        if 32 * tx + x < width ∧ 32 * ty + y < height then
          Got.bind (d.readNat f (elemAddr s 0 0 (32 * tx + x) (32 * ty + y)) (elemBytes a.format)) (fun d v => (d, .ok (ofElem a.format v)))
        else (d, .ok 0)) d (List.range 1024)
  | _ => (d, .ok ((List.range 1024).map (fun i => BitVec.ofNat 72 (Config.unstated 11 (key ++ [smp, tx, ty, i])))))

/-- Bytes stored by an engine, as a step that may fault; the compositor's own writes are not watched (R261). -/
def Dev.put (d : Dev) (f : Nat) (watch : Bool) (va : Nat) (bytes : List Byte) : Got Unit := d.writeVia f (va % 2 ^ 48) bytes watch

/-- A tile of one sample plane stored in its surface (R205, R206, R213, R214): in layout 2 its lines and its metadata byte. -/
def Dev.storePlane (d : Dev) (f : Nat) (watch : Bool) (a : Att) (width height smp tx ty : Nat) (words : List W72) : Got Unit :=
  let s := a.surf width height smp
  let e := elemBytes a.format
  let els := words.map (toElem a.format)
  if a.layout = 2 then
    let slot := s.base + ty * s.pitch + tx * (1024 * e)
    let flag (d : Dev) (m : Nat) : Got Unit := d.put f watch (metaAddr s smp tx ty) (toBytes 1 m)
    Got.bind (d.readNat f s.aux 9) (fun d c =>
      if els.all (fun x => x = clearElem a.format (BitVec.ofNat 72 c)) then flag d 0
      else
        match compressTile a.format els with
        | some bytes => Got.bind (d.put f watch slot bytes) (fun d _ => flag d (bytes.length / 64))
        | none => Got.bind (d.put f watch slot (els.flatMap (fun x => toBytes e x))) (fun d _ => flag d 0xFF))
  else
    Got.bind (mapGot (fun d i =>
      let (x, y) := tileXY i
      if 32 * tx + x < width ∧ 32 * ty + y < height then d.put f watch (elemAddr s 0 0 (32 * tx + x) (32 * ty + y)) (toBytes e (nth els i 0))
      else (d, .ok ())) d (List.range 1024)) (fun d _ => (d, .ok ()))

/-- The average of samples of one channel, rounded once (R186): exact for finite values, else by F36 sums. -/
def averageF (f : FFmt) (l : List Nat) : Nat :=
  let vals := l.map f.exact
  if vals.all (fun v => v.isSome) then f.ofRat (sumQ (vals.map (fun v => v.getD 0)) / (l.length : Rat))
  else f36.convert f 0 (div36 (l.foldl (fun acc x => add36 acc (f.convert f36 0 x)) 0) (intTo36 (l.length : Nat)))

/-- The average of the samples of a pixel (R186): four F18 channels; for D36S8 the depth, with a stencil that the manual does not
state (tag 12). -/
def averagePx (format : Nat) (l : List W72) : W72 :=
  if format = 0x50 then
    BitVec.ofNat 72 (averageF f36 (l.map (fun p => el36 p 1)) * 2 ^ 36 + Config.unstated 12 (l.map (fun p => fld p 0 8)) % 256)
  else
    let ch (i : Nat) : Nat := averageF f18 (l.map (fun p => lane18 p i))
    px (ch 3) (ch 2) (ch 1) (ch 0)

/-- The planes of a tile stored under an attachment's STORE action (R186). -/
def Dev.storeAtt (d : Dev) (f : Nat) (a : Att) (width height tx ty : Nat) (samples : List (List W72)) : Got Unit :=
  match a.store with
  | 0 =>
    Got.bind (mapGot (fun d i => d.storePlane f true a width height i tx ty (nth samples i [])) d (List.range samples.length)) (fun d _ => (d, .ok ()))
  | 1 => d.storePlane f true a width height 0 tx ty ((List.range 1024).map (fun i => averagePx a.format (samples.map (fun l => nth l i 0))))
  | _ => (d, .ok ())

/-- The key of a plane in a tile's memory: attachment and sample. -/
def planeKey (a smp : Nat) : Nat := 4 * a + smp

/-- All planes of a tile: attachment and sample. -/
def PassDesc.planeList (p : PassDesc) : List (Nat × Nat) :=
  (List.range p.planes.length).flatMap (fun a => (List.range p.samples).map (fun s => (a, s)))

/-- The attachment of a plane. -/
def PassDesc.att (p : PassDesc) (a : Nat) : Att := nth p.planes a (attOf [])

/-- Where a plane of a tile lies in the spill area (R202). -/
def PassDesc.spillAt (p : PassDesc) (t a smp : Nat) : Nat := p.spill + ((t * p.planes.length + a) * p.samples + smp) * 9216

/-- A tile brought into tile memory (R201): from the spill area, or by its LOAD actions. -/
def Dev.loadTile (d : Dev) (f : Nat) (p : PassDesc) (id : OpId) (t : Nat) (spilled : Bool) : Got (Tab (List W72)) :=
  let (tx, ty) := p.tileAt t
  Got.bind (mapGot (fun d (k : Nat × Nat) =>
    if spilled then Got.bind (d.readWords f (p.spillAt t k.1 k.2 % 2 ^ 48) 1024 .read) (fun d l => (d, .ok (planeKey k.1 k.2, l)))
    else Got.bind (d.loadPlane f (p.att k.1) p.width p.height k.2 tx ty (opWords id ++ [k.1])) (fun d l => (d, .ok (planeKey k.1 k.2, l)))) d p.planeList)
    (fun d l => (d, .ok (l.foldl (fun m (x : Nat × List W72) => tset m x.1 x.2) [])))

/-- A tile spilled in tile-memory form (R201, R202), or stored by its STORE actions. -/
def Dev.putTile (d : Dev) (f : Nat) (p : PassDesc) (t : Nat) (spill : Bool) (m : Tab (List W72)) : Got Unit :=
  let (tx, ty) := p.tileAt t
  if spill then
    Got.bind (mapGot (fun d (k : Nat × Nat) => d.put f true (p.spillAt t k.1 k.2) (bytesOfWords (tget m (planeKey k.1 k.2) []))) d p.planeList)
      (fun d _ => (d, .ok ()))
  else
    Got.bind (mapGot (fun d a =>
      d.storeAtt f (p.att a) p.width p.height tx ty ((List.range p.samples).map (fun s => tget m (planeKey a s) []))) d (List.range p.planes.length))
      (fun d _ => (d, .ok ()))

/-! Blending. -/

/-- s + x × (1 - a), computed exactly and rounded once (R178, R235); infinities, NaN and zeros as R53 to R55 have them. -/
def overCh (s x a : Nat) : Nat :=
  let special := narrow (add36 (wide s) (mul36 (wide x) (sub36 one36 (wide a))))
  match f18.exact s, f18.exact x, f18.exact a with
  | some s', some x', some a' => let q := s' + x' * (1 - a'); if q = 0 then special else f18.ofRat q
  | _, _, _ => special

/-- A channel under a BLEND mode (R178): s source, x stored, a the source's alpha. -/
def blendCh (mode s x a : Nat) : Nat :=
  match mode with
  | 0 => s
  | 1 => overCh s x a
  | 2 => f18.add 0 false false s x
  | 3 => f18.mul 0 false s x
  | 4 => f18.minmax false s x
  | _ => f18.minmax true s x

/-- PXBLD (R178): the blended word, and the channels of WRITE_MASK in the stored one; a depth attachment is replaced. -/
def blendPx (a : Att) (s x : W72) : W72 :=
  if a.format = 0x50 then s
  else
    let ch (i : Nat) : Nat := blendCh a.blend (lane18 s i) (lane18 x i) (lane18 s 0)
    px (ch 3) (ch 2) (ch 1) (ch 0)
def maskPx (a : Att) (s x : W72) : W72 :=
  if a.format = 0x50 then s
  else
    let ch (i : Nat) : Nat := if bitsN a.mask i 1 = 1 then lane18 s i else lane18 x i
    px (ch 3) (ch 2) (ch 1) (ch 0)

/-! Draw records. -/

/-- Vertices of a primitive by topology (R187, R199). -/
def topoVerts (topo : Nat) : Nat := match topo with | 0 => 3 | 1 => 3 | 2 => 2 | _ => 1

def Draw.w (r : Draw) (i : Nat) : W72 := nth r.words i 0
def Draw.topology (r : Draw) : Nat := fld (r.w 0) 69 3
def Draw.late (r : Draw) : Bool := bit (r.w 0) 66
def Draw.depthFunc (r : Draw) : Nat := fld (r.w 0) 63 3
def Draw.depthWrite (r : Draw) : Bool := bit (r.w 0) 62
def Draw.cull (r : Draw) : Nat := fld (r.w 0) 60 2
def Draw.frontCw (r : Draw) : Bool := bit (r.w 0) 59
def Draw.attrs (r : Draw) : Nat := fld (r.w 0) 55 4
def Draw.count (r : Draw) : Nat := fld (r.w 1) 40 32
def Draw.instances (r : Draw) : Nat := fld (r.w 1) 8 32

/-- Nv of a wave (R166): a multiple of 8 from 8 to 64. -/
def nvOk (n : Nat) : Bool := n % 8 = 0 && 8 ≤ n && n ≤ 64

/-- Whether the words of a draw record hold no reserved code (R187). -/
def drawOk (l : List W72) : Bool :=
  let w (i : Nat) : W72 := nth l i 0
  fld (w 0) 69 3 ≤ 3 && fld (w 0) 60 2 ≠ 3 && fld (w 0) 48 7 = 0 && fld (w 1) 8 32 ≠ 0 && fld (w 1) 0 8 = 0 && nvOk (fld (w 2) 64 8) &&
    nvOk (fld (w 3) 64 8) && fld (w 4) 56 16 = 0 && fld (w 4) 0 48 % 64 = 0 && fld (w 5) 48 24 = 0 && fld (w 6) 56 16 = 0 && w 7 = 0

/-- The address of draw record i (R187). -/
def PassDesc.drawAt (p : PassDesc) (i : Nat) : Nat := (p.drawList + 72 * i) % 2 ^ 48

/-! Geometry (R188). -/

/-- A vertex in clip space: position, w, and weights of the original vertices. -/
structure Clip where
  x : Rat
  y : Rat
  z : Rat
  w : Rat
  lam : List Rat
  deriving DecidableEq, Repr

/-- The point at t from p to q. -/
def Clip.lerp (p q : Clip) (t : Rat) : Clip :=
  let m (a b : Rat) : Rat := a + (b - a) * t
  { x := m p.x q.x, y := m p.y q.y, z := m p.z q.z, w := m p.w q.w, lam := (p.lam.zip q.lam).map (fun v => m v.1 v.2) }

/-- The part of an edge p, q where f is not negative, without its end q. -/
def clipEdge (f : Clip → Rat) (p q : Clip) : List Clip :=
  (if 0 ≤ f p then [p] else []) ++ (if decide (0 ≤ f p) != decide (0 ≤ f q) then [p.lerp q (f p / (f p - f q))] else [])

/-- A polygon clipped against one plane. -/
def clipPlane (f : Clip → Rat) (l : List Clip) : List Clip :=
  match l with
  | [] => []
  | p :: r => ((p :: r).zip (r ++ [p])).flatMap (fun e => clipEdge f e.1 e.2)

/-- The planes of R188: z = 0, z = w, and the window range -16,384 to 32,767. -/
def clipPlanes (width height : Nat) : List (Clip → Rat) :=
  let hw : Rat := (width : Rat) / 2
  let hh : Rat := (height : Rat) / 2
  [fun v => v.z, fun v => v.w - v.z, fun v => (v.x + v.w) * hw + 16384 * v.w, fun v => 32767 * v.w - (v.x + v.w) * hw,
   fun v => (v.w - v.y) * hh + 16384 * v.w, fun v => 32767 * v.w - (v.w - v.y) * hh]

/-- A segment clipped against one plane. -/
def clipLine (f : Clip → Rat) (l : List Clip) : List Clip :=
  match l with
  | [p, q] =>
    if f p < 0 ∧ f q < 0 then []
    else if f p < 0 then [p.lerp q (f p / (f p - f q)), q]
    else if f q < 0 then [p, p.lerp q (f p / (f p - f q))]
    else [p, q]
  | l => l.filter (fun v => decide (0 ≤ f v))

/-- A vertex in window coordinates, snapped to 1/256 pixel (R188). -/
def toScreen (width height : Nat) (v : Clip) : Vtx :=
  { x := ratRound ((v.x / v.w + 1) * (width : Rat) / 2 * 256), y := ratRound ((1 - v.y / v.w) * (height : Rat) / 2 * 256), z := v.z / v.w, w := v.w,
    lam := v.lam }

/-- Twice the signed area of p, q, r: positive when they turn clockwise on the screen. -/
def area2 (p q r : Int × Int) : Int := (q.1 - p.1) * (r.2 - p.2) - (q.2 - p.2) * (r.1 - p.1)

/-- A vertex's place. -/
def Vtx.at_ (v : Vtx) : Int × Int := (v.x, v.y)

/-- Twice the signed area of a triangle. -/
def Tri.turn (t : Tri) : Int := area2 t.a.at_ t.b.at_ t.c.at_

/-- A polygon as the triangles of its fan. -/
def fan (l : List Vtx) : List Tri :=
  match l with
  | a :: r => (r.zip r.tail).map (fun e => { a := a, b := e.1, c := e.2 })
  | [] => []

/-- A vertex moved by an offset. -/
def Vtx.move (v : Vtx) (dx dy : Int) : Vtx := { v with x := v.x + dx, y := v.y + dy }

/-- A parallelogram as two triangles. -/
def parallelogram (a b c e : Vtx) : List Tri := [{ a := a, b := b, c := c }, { a := a, b := c, c := e }]

/-- The triangles of a line: a parallelogram one pixel wide across its minor axis. -/
def lineTris (p q : Vtx) : List Tri :=
  if (q.y - p.y).natAbs ≤ (q.x - p.x).natAbs then parallelogram (p.move 0 (-128)) (q.move 0 (-128)) (q.move 0 128) (p.move 0 128)
  else parallelogram (p.move (-128) 0) (q.move (-128) 0) (q.move 128 0) (p.move 128 0)

/-- The triangles of a point: a square of one pixel. -/
def pointTris (p : Vtx) : List Tri := parallelogram (p.move (-128) (-128)) (p.move 128 (-128)) (p.move 128 128) (p.move (-128) 128)

/-- The triangles of a primitive from its vertices in clip space; none when nothing is left. -/
def clipPrim (width height : Nat) (l : List Clip) : List Tri :=
  let whole (r : List Clip) : List Vtx := if r.all (fun v => decide (0 < v.w)) then r.map (toScreen width height) else []
  match l with
  | [_, _, _] => (fan (whole ((clipPlanes width height).foldl (fun r f => clipPlane f r) l))).filter (fun t => t.turn ≠ 0)
  | l =>
    match whole ((clipPlanes width height).foldl (fun r f => clipLine f r) l) with
    | [p, q] => lineTris p q
    | [p] => pointTris p
    | _ => []

/-- Whether a w makes R182 cull: zero or NaN. -/
def badW (x : Nat) : Bool := match f36.unpack x with | .nan _ => true | .inf _ => false | .fin _ m _ => m = 0

/-- A vertex's position words in clip space; its weight is 1 at place i of n. -/
def clipOf (outs : List W72) (i n : Nat) : Clip :=
  let p := nth outs 0 0
  let q := nth outs 1 0
  { x := f36.value (el36 p 0), y := f36.value (el36 p 1), z := f36.value (el36 q 0), w := f36.value (el36 q 1),
    lam := (List.range n).map (fun k => if k = i then 1 else 0) }

/-- A primitive from the outputs of its vertices: none when it is culled or covers nothing (R182, R187, R188). -/
def makePrim (p : PassDesc) (r : Draw) (draw num : Nat) (outs : List (List W72)) : Option Prim :=
  if outs.any (fun o => badW (el36 (nth o 1 0) 1)) then none
  else
    let n := outs.length
    let tris := clipPrim p.width p.height ((List.range n).map (fun i => clipOf (nth outs i []) i n))
    let cw : Bool := decide (0 < (tris.map Tri.turn).foldl (· + ·) 0)
    let front := n < 3 || cw = r.frontCw
    if tris = [] || (3 ≤ n && ((r.cull = 1 && !front) || (r.cull = 2 && front))) then none
    else some { draw := draw, num := num, front := front, tris := tris, outs := outs }

/-- The positions of the vertices of primitive k of a draw (R187). -/
def primPositions (topo k : Nat) : List Nat :=
  match topo with
  | 0 => [3 * k, 3 * k + 1, 3 * k + 2]
  | 1 => if k % 2 = 0 then [k, k + 1, k + 2] else [k, k + 2, k + 1]
  | 2 => [2 * k, 2 * k + 1]
  | _ => [k]

/-- The primitives of one instance of a draw. -/
def primCount (topo n : Nat) : Nat := match topo with | 0 => n / 3 | 1 => n - 2 | 2 => n / 2 | _ => n

/-- The key of a vertex: draw, instance, position. -/
def vertKey (draw inst pos : Nat) : Nat := (draw * 2 ^ 32 + inst) * 2 ^ 32 + pos

/-- The primitives of a pass in sequence (R188), those that are culled or cover nothing left out. -/
def assemble (p : PassDesc) (draws : List Draw) (outs : Tab (Tab W72)) : List Prim :=
  ((List.range draws.length).foldl (fun (acc : Nat × List Prim) i =>
    let r := nth draws i { words := [], vertex := ⟨0, 0, 0, 0⟩, pixel := ⟨0, 0, 0, 0⟩ }
    let n := primCount r.topology r.count
    (List.range r.instances).foldl (fun (acc : Nat × List Prim) j =>
      (acc.1 + n, acc.2 ++ (List.range n).filterMap (fun k =>
        makePrim p r i (acc.1 + k) ((primPositions r.topology k).map (fun v =>
          let o := tget outs (vertKey i j v) []
          (List.range (2 + r.attrs)).map (fun e => tget o e 0)))))) acc) (0, [])).2

/-! Coverage (R188). -/

/-- Sample positions in 1/256 pixel. -/
def samplePos (samples : Nat) : List (Int × Int) :=
  match samples with
  | 1 => [(128, 128)]
  | 2 => [(192, 192), (64, 64)]
  | _ => [(96, 32), (224, 96), (32, 160), (160, 224)]

/-- Whether a point is on the inner side of an edge of a clockwise triangle, or on it when it is a top or left edge. -/
def edgeIn (p q s : Int × Int) : Bool :=
  let e := area2 p q s
  let dy := q.2 - p.2
  0 < e || (e = 0 && (dy < 0 || (dy = 0 && p.1 < q.1)))

/-- Whether a triangle covers a point. -/
def Tri.covers (t : Tri) (s : Int × Int) : Bool :=
  let a := t.a.at_
  let (b, c) := if 0 < t.turn then (t.b.at_, t.c.at_) else (t.c.at_, t.b.at_)
  edgeIn a b s && edgeIn b c s && edgeIn c a s

/-- The samples of pixel (x, y) that a primitive covers, as a mask, within the target and the scissor (R187). -/
def coverMask (p : PassDesc) (r : Draw) (m : Prim) (x y : Nat) : Nat :=
  let inside := x < p.width && y < p.height && fld (r.w 6) 0 14 ≤ x && fld (r.w 6) 14 14 ≤ y && x ≤ fld (r.w 6) 28 14 && y ≤ fld (r.w 6) 42 14
  if !inside then 0
  else
    (List.range p.samples).foldl (fun acc i =>
      let s := nth (samplePos p.samples) i (0, 0)
      if m.tris.any (fun t => t.covers (256 * (x : Int) + s.1, 256 * (y : Int) + s.2)) then acc + 2 ^ i else acc) 0

/-- The record of a draw. -/
def Pass.drawRec (q : Pass) (i : Nat) : Draw := nth q.draws i { words := [], vertex := ⟨0, 0, 0, 0⟩, pixel := ⟨0, 0, 0, 0⟩ }

/-- A quad of a primitive: its place in the list of primitives, its sequence number, and its top-left pixel. -/
structure Quad where
  prim : Nat
  num : Nat
  draw : Nat
  x : Nat
  y : Nat
  deriving DecidableEq, Repr

/-- The quads of primitive k of a pass in tile t. -/
def Pass.primQuads (q : Pass) (p : PassDesc) (t k : Nat) (m : Prim) : List Quad :=
  let (tx, ty) := p.tileAt t
  (List.range 256).filterMap (fun i =>
    let x := 32 * tx + 2 * (i % 16)
    let y := 32 * ty + 2 * (i / 16)
    if (List.range 4).any (fun j => coverMask p (q.drawRec m.draw) m (x + j % 2) (y + j / 2) ≠ 0) then
      some { prim := k, num := m.num, draw := m.draw, x := x, y := y }
    else none)

/-- The quads of a tile in the current segment, in sequence (R188). -/
def Pass.tileQuads (q : Pass) (p : PassDesc) (t : Nat) : List Quad :=
  (List.range (q.segHi - q.segLo)).flatMap (fun i =>
    match q.prims[q.segLo + i]? with
    | some m => q.primQuads p t (q.segLo + i) m
    | none => [])

/-- The tiles that a primitive touches (R199). -/
def Pass.primTiles (q : Pass) (p : PassDesc) (k : Nat) (m : Prim) : List Nat :=
  (List.range p.tileCount).filter (fun t => q.primQuads p t k m ≠ [])

/-! Interpolation (R182, R188). -/

/-- The triangle of a primitive that speaks for a pixel: the first that covers one of its samples, else the first. -/
def Prim.triFor (m : Prim) (samples x y : Nat) : Option Tri :=
  match m.tris.find? (fun t => (samplePos samples).any (fun s => t.covers (256 * (x : Int) + s.1, 256 * (y : Int) + s.2))) with
  | some t => some t
  | none => m.tris.head?

/-- The weights of a triangle's vertices at a point, linear on the screen. -/
def Tri.weights (t : Tri) (s : Int × Int) : List Rat :=
  let n : Rat := (t.turn : Rat)
  [(area2 t.b.at_ t.c.at_ s : Rat) / n, (area2 t.c.at_ t.a.at_ s : Rat) / n, (area2 t.a.at_ t.b.at_ s : Rat) / n]

/-- The interpolated depth of a primitive at a sample of a pixel, as F36 (R181, R188). -/
def Prim.depthAt (m : Prim) (samples x y i : Nat) : Nat :=
  let s := nth (samplePos samples) i (0, 0)
  let at_ : Int × Int := (256 * (x : Int) + s.1, 256 * (y : Int) + s.2)
  match (match m.tris.find? (fun t => t.covers at_) with | some t => some t | none => m.tris.head?) with
  | some t => f36.ofRat (sumQ ((t.weights at_).zip [t.a.z, t.b.z, t.c.z] |>.map (fun v => v.1 * v.2)))
  | none => 0

/-- One element of an attribute at the pixel centre: sub-operation 0 perspective-correct, 1 linear on the screen. A value at an
infinity or NaN, or where the perspective divisor is zero, is not stated (tags 1 and 13). -/
def Prim.interp (m : Prim) (samples x y sub : Nat) (vals : List Rat) : Rat :=
  let c : Int × Int := (256 * (x : Int) + 128, 256 * (y : Int) + 128)
  match m.triFor samples x y with
  | none => 0
  | some t =>
    let b := t.weights c
    let vs := [t.a, t.b, t.c]
    let attr (v : Vtx) : Rat := sumQ (v.lam.zip vals |>.map (fun e => e.1 * e.2))
    if sub = 1 then sumQ (b.zip vs |>.map (fun e => e.1 * attr e.2))
    else
      let den := sumQ (b.zip vs |>.map (fun e => e.1 / e.2.w))
      if den = 0 then ((Config.unstated 13 [x, y] : Nat) : Rat)
      else sumQ (b.zip vs |>.map (fun e => e.1 / e.2.w * attr e.2)) / den

/-- Attribute word n of a primitive at a pixel (R182): computed in F36 and rounded to the float format of the lane type. The manual does not
give the steps of the computation in F36; the model rounds its exact result to F36 once (DESIGN CHOICE, log entry 62). -/
def Prim.attr (m : Prim) (samples x y sub lt n : Nat) : W72 :=
  let word (o : List W72) : W72 := nth o (2 + n) 0
  if sub = 2 then word (m.outs.headD [])
  else
    let f := laneFmt lt
    let wd := elemWidth lt
    BitVec.ofNat 72 ((List.range (elemCount lt)).foldl (fun acc i =>
      let q := f36.ofRat (m.interp samples x y sub (m.outs.map (fun o => f.value (fld (word o) (wd * i) wd))))
      acc + (if lt = 3 then f36.convert f 0 q else q) * 2 ^ (wd * i)) 0)

/-- A depth comparison (R187): z against the stored depth. -/
def depthPass (func z stored : Nat) : Bool :=
  match func with
  | 0 => false
  | 1 => f36.cmp 2 z stored
  | 2 => f36.cmp 0 z stored
  | 3 => f36.cmp 3 z stored
  | 4 => f36.cmp 2 stored z
  | 5 => f36.cmp 1 z stored
  | 6 => f36.cmp 3 stored z
  | _ => true

/-- A sample's word in a tile's memory, and the memory with it replaced. -/
def TileRun.px (r : TileRun) (plane smp x y : Nat) : W72 := nth (tget r.planes (planeKey plane smp) []) (tileIndex (x % 32) (y % 32)) 0
def TileRun.setPx (r : TileRun) (plane smp x y : Nat) (v : W72) : TileRun :=
  { r with planes := tset r.planes (planeKey plane smp) (setNth (tget r.planes (planeKey plane smp) []) (tileIndex (x % 32) (y % 32)) v) }

/-- The depth test of the samples of a mask at a pixel: those that pass, their depth written when DEPTH_WRITE says so
(R181, R187). `given` replaces the interpolated depth of a sample. -/
def depthTest (p : PassDesc) (r : Draw) (m : Prim) (x y mask : Nat) (given : Nat → Option Nat) (t : TileRun) : TileRun × Nat :=
  if !p.depth then (t, mask)
  else
    (List.range p.samples).foldl (fun (acc : TileRun × Nat) i =>
      if bitsN mask i 1 = 0 then acc
      else
        let z := (given i).getD (m.depthAt p.samples x y i)
        let old := acc.1.px p.colours i x y
        if depthPass r.depthFunc z (el36 old 1) then
          ((if r.depthWrite then acc.1.setPx p.colours i x y (setFld old 36 36 z) else acc.1), acc.2 + 2 ^ i)
        else acc) (t, 0)

end Sys2Proof.Machine
end

