-- ==== Sys2Proof/Machine/Pixels.lean ====
section
/-! DEFINITION. Memory, pixel, interlock and geometry instructions of the V-profile (R173, R174, R178 to R182). -/

namespace Sys2Proof.Machine

/-! The operation that a wave works for. -/

/-- The pass under way of an operation, and the passes with one replaced. -/
def Dev.passOf (d : Dev) (id : OpId) : Option Pass := d.raster.passes.find? (fun q => q.id = id)
def Dev.setPass (d : Dev) (q : Pass) : Dev :=
  { d with raster := { d.raster with passes := d.raster.passes.map (fun r => if r.id = q.id then q else r) } }

/-- The descriptor of an operation's pass. -/
def Dev.descOf (d : Dev) (id : OpId) : PassDesc := match d.op id with | some o => passDesc o.desc | none => passDesc []

/-- A change of the tile that a wave shades. -/
def Dev.updTile (d : Dev) (x : Wave) (h : TileRun → TileRun) : Dev :=
  match d.passOf x.op with
  | some q =>
    match tfind q.tiles x.tile with
    | some r => d.setPass { q with tiles := tset q.tiles x.tile (h r) }
    | none => d
  | none => d

/-- The tile that a wave shades. -/
def Dev.tileRun (d : Dev) (x : Wave) : TileRun :=
  match d.passOf x.op with
  | some q => (tfind q.tiles x.tile).getD { core := 0, guard := none, since := 0, used := 0, planes := [] }
  | none => { core := 0, guard := none, since := 0, used := 0, planes := [] }

/-- The draw record of a wave. -/
def Dev.waveDraw (d : Dev) (x : Wave) : Draw :=
  match d.passOf x.op with | some q => q.drawRec x.draw | none => { words := [], vertex := ⟨0, 0, 0, 0⟩, pixel := ⟨0, 0, 0, 0⟩ }

/-! Local memory. -/

/-- The word of local memory that a lane addresses (R173). -/
def localAt (w : Insn) (l : Lane) : Nat := (fld (l.rd w.a) 0 16 + w.imm16) % 2 ^ 16

/-- The row of VLDL and VSTL, and of VLDG and VSTG: the register in d, the address in a. -/
def Shape.vmem (subs : Nat) : Shape := .vda subs

/-- The EX_MEM of an address at or above L (R173), recorded with source 2 (R183). The cause and the address that the record then holds the manual
does not state: free values (tag 34). -/
def Dev.localExc (d : Dev) (c : Ctx) (x : Wave) (a : Nat) : Dev × Except Exc Lane :=
  (d.faultRec x.fn (Config.unstated 34 [a] % 16) srcEngine (d.ctxKind c) (Config.unstated 34 [a, 0] % 2 ^ 48), .error { exc 0x06 with addr := a })

/-- VLDL (R173): a word that nothing has written is free (tag 15). -/
def execVldl (c : Ctx) (w : Insn) (s : State) : Host.Outcome State Fault Refusal :=
  run (vector c (.vmem 1) w [0] .da (fun x d _ l =>
    let a := localAt w l
    if x.words ≤ a then d.localExc c x a
    else (d, .ok (l.wr w.d ((tfind x.locals a).getD (BitVec.ofNat 72 (Config.unstated 15 [x.index, x.draw, x.tile, a]))))))) s

/-- VSTL (R169, R173): lanes in ascending order, so that the highest one stands. -/
def execVstl (c : Ctx) (w : Insn) (s : State) : Host.Outcome State Fault Refusal :=
  run (vector c (.vmem 1) w [0] .da (fun x d _ l =>
    let a := localAt w l
    if l.helper then (d, .ok l)
    else if x.words ≤ a then d.localExc c x a
    else
      match c with
      | .wave i =>
        match d.wave i with
        | some y => (d.setWave i { y with locals := tset y.locals a (l.rd w.d) }, .ok l)
        | none => (d, .ok l)
      | _ => (d, .ok l))) s

/-! Device-virtual memory (R174). -/

/-- The bytes of a gather or scatter by sub-operation, and the address of a lane. -/
def vecBytes (sub : Nat) : Nat := nth [1, 2, 4, 8, 9] sub 1
def vecAddr (w : Insn) (l : Lane) : Nat := ofSigned 48 ((fld (l.rd w.a) 0 48 : Nat) + toSigned 16 w.imm16)

/-- The exception of a lane's access that ended with a cause, its fault recorded with source 2 (R183). -/
def Dev.laneExc (d : Dev) (c : Ctx) (f cause va : Nat) : Dev × Except Exc Lane :=
  (d.excFault f cause srcEngine (d.ctxKind c) va, .error (memExc cause va))

/-- VLDG (R174). -/
def execVldg (c : Ctx) (w : Insn) (s : State) : Host.Outcome State Fault Refusal :=
  run (vector c (.vmem 5) w [0] .da (fun x d0 _ l =>
    let d := d0.hinted c w
    let va := vecAddr w l
    if w.s < 4 ∧ va % vecBytes w.s ≠ 0 then (d, .error { exAlign with addr := va })
    else
      match d.readV x.fn va (vecBytes w.s) .read with
      | (d1, .error (cause, a)) => d1.laneExc c x.fn cause a
      | (d1, .ok b) => (d1, .ok (l.wr w.d (loadWord false b))))) s

/-- VSTG (R169, R174). -/
def execVstg (c : Ctx) (w : Insn) (s : State) : Host.Outcome State Fault Refusal :=
  run (vector c (.vmem 5) w [0] .da (fun x d0 _ l =>
    let d := d0.hinted c w
    let va := vecAddr w l
    if l.helper then (d, .ok l)
    else if w.s < 4 ∧ va % vecBytes w.s ≠ 0 then (d, .error { exAlign with addr := va })
    else
      match d.writeV x.fn va (toBytes (vecBytes w.s) (l.rd w.d).toNat) with
      | (d1, .error (cause, a)) => d1.laneExc c x.fn cause a
      | (d1, .ok _) => (d1, .ok l))) s

/-- VATOM (R64, R174). -/
def execVatom (c : Ctx) (w : Insn) (s : State) : Host.Outcome State Fault Refusal :=
  run (vector c (.vdabc 6) w [0] .dabc (fun x d _ l =>
    let va := vecAddr w l
    if l.helper then (d, .ok l)
    else if va % 8 ≠ 0 then (d, .error { exAlign with addr := va })
    else
      let b := (l.rd w.b).setWidth 64
      let r := (l.rd w.c).setWidth 64
      match d.atomic x.fn va w.s b r with
      | (d1, .error (cause, a)) => d1.laneExc c x.fn cause a
      | (d1, .ok old) => (d1, .ok (l.wr w.d (old.setWidth 72))))) s

/-! Tile memory (R178 to R181). -/

/-- The attachment selector and the sample of a pixel instruction. -/
def pxAtt (w : Insn) : Nat := w.imm16 % 16
def pxSmp (w : Insn) : Nat := w.imm16 / 16 % 4

/-- A pixel instruction: EX_STATE in a wave that is no pixel wave (R182), EX_ILLEGAL for an attachment above 8 (R178). -/
def pixelOp (c : Ctx) (sh : Shape) (w : Insn) (u : VRegs) (h : Wave → Dev → Lane → Dev × Except Exc Lane) (d : Dev) : Dev :=
  vector c sh w [0] u (fun x d _ l =>
    if 8 < (pxAtt w) then (d, .error exIllegal) else if x.kind ≠ .pixel then (d, .error exState) else h x d l) d

/-- A sample of the lane's pixel; an attachment or sample that the pass does not have holds nothing stated (tag 14). -/
def Dev.pxRead (d : Dev) (x : Wave) (l : Lane) (att smp : Nat) : W72 :=
  let p := d.descOf x.op
  match p.planeOf att with
  | some a => if smp < p.samples then (d.tileRun x).px a smp l.x l.y else BitVec.ofNat 72 (Config.unstated 14 [att, smp])
  | none => BitVec.ofNat 72 (Config.unstated 14 [att, smp])

/-- The samples of a lane that a write takes (R178, R181): the covered ones, or the selected one; none that has failed the depth test. -/
def pxSamples (p : PassDesc) (cover mask : Nat) (sel : Option Nat) : List Nat :=
  (List.range p.samples).filter (fun i =>
    match sel with
    | some s => i = s && (bitsN mask i 1 = 1 || bitsN cover i 1 = 0)
    | none => bitsN mask i 1 = 1)

/-- One output write applied to a tile (R178): blended under WRITE_MASK, or as it is. -/
def pxApply (p : PassDesc) (x y cover mask : Nat) (t : TileRun) (e : Defer) : TileRun :=
  match p.planeOf e.att with
  | none => t
  | some a =>
    (pxSamples p cover mask e.sample).foldl (fun t i =>
      let old := t.px a i x y
      t.setPx a i x y (if e.blend then maskPx (p.att a) (blendPx (p.att a) e.value old) old else e.value)) t

/-- PXLD: outside an interlock region EX_STATE (R179). -/
def execPxld (c : Ctx) (w : Insn) (s : State) : Host.Outcome State Fault Refusal :=
  run (pixelOp c (.vec .reg .none .none false 1) w { d := true, a := false, b := false, c := false } (fun x d l =>
    if l.ilk ≠ 1 then (d, .error exState) else (d, .ok (l.wr w.d (d.pxRead x l (pxAtt w) (pxSmp w)))))) s

/-- An output write: at once inside an interlock region, else deferred (R179, R180); none from a helper (R169). -/
def Dev.pxWrite (d : Dev) (x : Wave) (l : Lane) (e : Defer) : Dev × Lane :=
  if l.helper then (d, l)
  else if l.ilk = 1 then (d.updTile x (fun t => pxApply (d.descOf x.op) l.x l.y l.cover l.mask t e), l)
  else (d, { l with defer := l.defer ++ [e] })

/-- PXST: attachment 8 needs LATE_DEPTH (R181). -/
def execPxst (c : Ctx) (w : Insn) (s : State) : Host.Outcome State Fault Refusal :=
  run (pixelOp c (.vec .none .reg .none false 2) w { d := false, a := true, b := false, c := false } (fun x d l =>
    if (pxAtt w) = 8 && !(d.waveDraw x).late then (d, .error exState)
    else
      let (d1, l1) := d.pxWrite x l { att := (pxAtt w), sample := if w.s = 1 then some (pxSmp w) else none, value := l.rd w.a, blend := false }
      (d1, .ok l1))) s

/-- PXBLD: inside a region the blended value is also returned; deferred it leaves vd (R178, R179). -/
def execPxbld (c : Ctx) (w : Insn) (s : State) : Host.Outcome State Fault Refusal :=
  run (pixelOp c (.vda 1) w .da (fun x d l =>
    let p := d.descOf x.op
    let old := d.pxRead x l (pxAtt w) (pxSmp w)
    let out := match p.planeOf (pxAtt w) with | some a => blendPx (p.att a) (l.rd w.a) old | none => l.rd w.a
    let (d1, l1) := d.pxWrite x l { att := (pxAtt w), sample := some (pxSmp w), value := l.rd w.a, blend := true }
    (d1, .ok (if l.ilk = 1 && !l.helper then l1.wr w.d out else l1)))) s

/-- ILKB (R180): pixel waves of a tile run in sequence order, none holding a pixel twice, so every lower primitive has ended. -/
def execIlkb (c : Ctx) (w : Insn) (s : State) : Host.Outcome State Fault Refusal :=
  run (vector c (.vec .none .none .none false 1) w [0] { d := false, a := false, b := false, c := false } (fun x d _ l =>
    if x.kind ≠ .pixel ∨ l.ilk ≠ 0 then (d, .error exState) else (d, .ok { l with ilk := 1 }))) s

/-- ILKE (R180). -/
def execIlke (c : Ctx) (w : Insn) (s : State) : Host.Outcome State Fault Refusal :=
  run (vector c (.vec .none .none .none false 1) w [0] { d := false, a := false, b := false, c := false } (fun x d _ l =>
    if x.kind ≠ .pixel ∨ l.ilk ≠ 1 then (d, .error exState) else (d, .ok { l with ilk := 2 }))) s

/-- KILL (R181). -/
def execKill (c : Ctx) (w : Insn) (s : State) : Host.Outcome State Fault Refusal :=
  run (vector c (.vec .none .none .none false 1) w [0] { d := false, a := false, b := false, c := false } (fun x d _ l =>
    if x.kind ≠ .pixel then (d, .error exState) else (d, .ok { l with act := 2, defer := [] }))) s

/-- EMIT (R182): output words 0 to 1 + A. -/
def execEmit (c : Ctx) (w : Insn) (s : State) : Host.Outcome State Fault Refusal :=
  run (vector c (.vec .none .reg .none false 1) w [0] { d := false, a := true, b := false, c := false } (fun x d _ l =>
    if x.kind ≠ .vertex then (d, .error exState)
    else if l.helper then (d, .ok l)
    else if 1 + (d.waveDraw x).attrs < w.imm16 % 256 then (d, .error exIllegal)
    else (d, .ok { l with out := tset l.out (w.imm16 % 256) (l.rd w.a) }))) s

/-- ATTR (R182). -/
def execAttr (c : Ctx) (w : Insn) (s : State) : Host.Outcome State Fault Refusal :=
  run (vector c (.vec .reg .none .none false 3) w [3, 4] { d := true, a := false, b := false, c := false } (fun x d _ l =>
    if x.kind ≠ .pixel then (d, .error exState)
    else
      match (d.passOf x.op).bind (fun q => q.prims[l.prim]?) with
      | some m => (d, .ok (l.wr w.d (m.attr (d.descOf x.op).samples l.x l.y w.s w.lt (w.imm16 % 16))))
      | none => (d, .ok l))) s

/-- DERIV (R182): right minus left, or bottom minus top, of the quad's lanes. -/
def execDeriv (c : Ctx) (w : Insn) (s : State) : Host.Outcome State Fault Refusal :=
  run (vector c (.vda 2) w [3, 4] .da (fun x d i l =>
    if x.kind ≠ .pixel then (d, .error exState)
    else
      let q := i / 4 * 4
      let (hi, lo) := if w.s = 0 then (q + i % 4 / 2 * 2 + 1, q + i % 4 / 2 * 2) else (q + 2 + i % 2, q + i % 2)
      let v (j : Nat) : W72 := (nth x.lanes j .idle).rd w.a
      (d, .ok (l.wr w.d (perElem w.lt (fun a b _ => (laneFmt w.lt).add w.rm w.sat true a b) (v hi) (v lo) 0))))) s

end Sys2Proof.Machine
end

