-- ==== Sys2Proof/Machine/Compose.lean ====
section
/-! DEFINITION. Composition: slots sampled and blended (R229 to R239, R250), frames and their ownership maps (R242 to R249, R259,
R260), strips, the pixels that a pipe puts out (R236, R258), and buffer handles (R220 to R227). -/

namespace Sys2Proof.Machine

/-! What a composition reads. -/

/-- A field word of a composition's settings. -/
def Composition.w (c : Composition) (cls inst word : Nat) : W72 := tget c.settings (objKey cls inst word) 0

/-- The handle, by its number over all functions, that a handle field of a word names; none for handle 0 (R229). -/
def Dev.handleNo (d : Dev) (cls inst word h : Nat) : Option Nat :=
  if h = 0 then none else some (256 * tget d.comp.slotFn (objKey cls inst word) d.manager + h)

/-- The enabled slots of pipe p with their handles. -/
def Dev.slotHandles (d : Dev) (p : Nat) : List (Nat × Nat) :=
  (List.range 16).filterMap (fun s =>
    let w := d.obj 0x03 (16 * p + s) 1
    if bit w 0 then (d.handleNo 0x03 (16 * p + s) 1 (fld w 16 8)).map (fun h => (16 * p + s, h)) else none)

/-- The LUT of pipe p when it is enabled, and its frame buffers. -/
def Dev.lutHandle (d : Dev) (p : Nat) : Option Nat := if bit (d.obj 0x02 p 5) 1 then d.handleNo 0x02 p 7 (fld (d.obj 0x02 p 7) 0 8) else none
def Dev.frameHandle (d : Dev) (p : Nat) (b : Bool) : Option Nat := d.handleNo 0x02 p 4 (fld (d.obj 0x02 p 4) (if b then 8 else 0) 8)

/-- A list without an option. -/
def optList {α : Type} (o : Option α) : List α := match o with | some x => [x] | none => []

/-- The handles that the composition of the applied state reads. -/
def Dev.readsOf (d : Dev) (p : Nat) : List Nat := (d.slotHandles p).map (fun x => x.2) ++ optList (d.lutHandle p)

/-- The SHOWN word of each slot with a handle, the frame counter apart (R228). -/
def Dev.shownOf (d : Dev) (p : Nat) : Tab W72 :=
  (d.slotHandles p).foldl (fun t x => tset t x.1 (BitVec.ofNat 72 (x.2 / 256 * 2 ^ 56 + x.2 % 256 * 2 ^ 48))) []

/-- A surface by handle number. -/
def Dev.surfNo (d : Dev) (k : Nat) : Surf := surfOfList (d.handle k).words

/-- A composition of the applied state of pipe p, of VBLANK n (R242): the words of its PIPE_LAYOUT and slots as they stand. -/
def Dev.snapshot (d : Dev) (p n : Nat) (target : Option Nat) (toB : Bool) (deadline : Nat) : Composition :=
  let keys := (List.range 8).map (fun i => objKey 0x02 p i) ++ (List.range 16).flatMap (fun s => (List.range 12).map (fun i => objKey 0x03 (16 * p + s) i))
  let t := d.timing p
  let fb := match target with | some k => d.surfNo k | none => surfOf 0 0 0
  let hs := d.readsOf p ++ optList target
  { frame := n
    settings := keys.foldl (fun m k => tset m k (d.obj (k / 2 ^ 32) (k / 2 ^ 16 % 2 ^ 16) (k % 2 ^ 16))) []
    fns := keys.foldl (fun m k => match tfind d.comp.slotFn k with | some f => tset m k f | none => m) []
    handles := hs.foldl (fun m k => tset m k (d.handle k).serial) []
    shown := d.shownOf p
    width := if target.isSome then Nat.min t.hact fb.width else t.hact
    height := if target.isSome then Nat.min t.vact fb.height else t.vact
    target := target.getD 0, toB := toB, deadline := deadline, tilesDone := [], doneAt := none, late := false }

/-! Tiles and strips. -/

/-- The lines of a strip, the strips of a ring, and the strips of a frame (R245). -/
def Composition.stripH (c : Composition) (p : Nat) : Nat := stripLines (fld (c.w 0x02 p 1) 4 3)
def Composition.ringDepth (c : Composition) (p : Nat) : Nat := fld (c.w 0x02 p 1) 8 3 + 1
def Composition.strips (c : Composition) (p : Nat) : Nat := ceilDiv c.height (c.stripH p)

/-- Tiles across, and rows of tiles in a strip (R246). -/
def Composition.tilesX (c : Composition) : Nat := ceilDiv c.width 32
def Composition.stripRows (c : Composition) (p : Nat) : Nat := ceilDiv (c.stripH p) 32

/-- The number of tiles, and the first line and last line + 1 of tile t: in a chased frame rows of tiles start at each strip. -/
def Composition.tileCount (c : Composition) (p : Nat) (chase : Bool) : Nat :=
  if chase then c.strips p * c.stripRows p * c.tilesX else ceilDiv c.height 32 * c.tilesX
def Composition.tileStrip (c : Composition) (p t : Nat) : Nat := t / c.tilesX / c.stripRows p
def Composition.tileRows (c : Composition) (p : Nat) (chase : Bool) (t : Nat) : Nat × Nat :=
  let row := t / c.tilesX
  if chase then
    let j := row / c.stripRows p
    let top := j * c.stripH p + row % c.stripRows p * 32
    (top, Nat.min (Nat.min (top + 32) ((j + 1) * c.stripH p)) c.height)
  else (32 * row, Nat.min (32 * row + 32) c.height)

/-- The pixels of a tile. -/
def Composition.tilePixels (c : Composition) (p : Nat) (chase : Bool) (t : Nat) : List (Nat × Nat) :=
  let (lo, hi) := c.tileRows p chase t
  let x0 := t % c.tilesX * 32
  (List.range (hi - lo)).flatMap (fun j => (List.range (Nat.min 32 (c.width - x0))).map (fun i => (x0 + i, lo + j)))

/-- The deadline of a strip (R246). -/
def Dev.stripDeadline (d : Dev) (p : Nat) (c : Composition) (j : Nat) : Option Nat := (d.lineStart p (j * c.stripH p)).map (fun t => t - 8000)

/-- Whether every tile of a strip is finished. -/
def Composition.stripDone (c : Composition) (p j : Nat) : Bool :=
  (List.range (c.stripRows p * c.tilesX)).all (fun i =>
    let t := j * c.stripRows p * c.tilesX + i
    c.tilesDone.contains t || (c.tilePixels p true t).isEmpty)

/-! Sampling (R229 to R234, R250). -/

/-- A slot's conversion context (R231 to R233): TRANSFER 0 is BT.1886 for Y'CbCr, linear for RGBA8 and RGBA16F. -/
def slotCtx (c : Composition) (s : Nat) : TexCtx :=
  let w1 := c.w 0x03 s 1
  { transfer := fld w1 29 3, fill := c.w 0x03 s 11, matrix := fld w1 27 2, full := bit w1 26 }

/-- The source position of destination pixel (x, y) of a slot (R234). -/
def slotSource (c : Composition) (s x y : Nat) : Rat × Rat :=
  let w1 := c.w 0x03 s 1
  let src := c.w 0x03 s 2
  let dst := c.w 0x03 s 3
  let a : Rat := ((x : Rat) - (fld dst 0 14 : Rat) + 1 / 2) / ((fld dst 28 14 + 1 : Nat) : Rat)
  let b : Rat := ((y : Rat) - (fld dst 14 14 : Rat) + 1 / 2) / ((fld dst 42 14 + 1 : Nat) : Rat)
  let (a, b) := if bit w1 13 then (b, a) else (a, b)
  let a := if bit w1 11 then 1 - a else a
  let b := if bit w1 12 then 1 - b else b
  ((fld src 0 14 : Rat) + a * ((fld src 28 14 + 1 : Nat) : Rat), (fld src 14 14 : Rat) + b * ((fld src 42 14 + 1 : Nat) : Rat))

/-- A coefficient of GAMUT as F36 (R228). -/
def gamutAt (c : Composition) (s i : Nat) : Nat := f36.ofInt 0 (s36Val (el36 (c.w 0x03 s (6 + i / 2)) (i % 2))) 31

/-- GAMUT and GAIN on a colour (R234), rounded to F18; alpha stays. -/
def gamutGain (c : Composition) (s : Nat) (p : W72) : W72 :=
  let v (i : Nat) : Nat := wide (lane18 p (3 - i))
  let gain := wide (fld (c.w 0x03 s 5) 0 18)
  let row (r : Nat) : Nat :=
    narrow (mul36 gain (add36 (add36 (mul36 (gamutAt c s (3 * r)) (v 0)) (mul36 (gamutAt c s (3 * r + 1)) (v 1))) (mul36 (gamutAt c s (3 * r + 2)) (v 2))))
  px (row 0) (row 1) (row 2) (lane18 p 0)

/-- The sample of a slot at a destination pixel (R234). -/
def Dev.slotSample (d : Dev) (f : Nat) (surf : Surf) (c : Composition) (s x y : Nat) : Got W72 :=
  let src := c.w 0x03 s 2
  let (u, v) := slotSource c s x y
  let cx (i : Int) : Nat := (clampI (fld src 0 14 : Nat) ((fld src 0 14 + fld src 28 14 : Nat) : Int) i).toNat
  let cy (j : Int) : Nat := (clampI (fld src 14 14 : Nat) ((fld src 14 14 + fld src 42 14 : Nat) : Int) j).toNat
  let one (d : Dev) (i j : Int) : Got W72 := d.texel f surf (slotCtx c s) 0 0 (cx i) (cy j)
  Got.bind
    (if bit (c.w 0x03 s 1) 10 then
      let a := frac256 (u - 1 / 2)
      let b := frac256 (v - 1 / 2)
      let i := (u - 1 / 2).floor
      let j := (v - 1 / 2).floor
      Got.bind (mapGot (fun d (q : (Int × Int) × Nat) => Got.bind (one d q.1.1 q.1.2) (fun d p => (d, .ok (p, frac36 q.2 65536)))) d
        [((i, j), (256 - a) * (256 - b)), ((i + 1, j), a * (256 - b)), ((i, j + 1), (256 - a) * b), ((i + 1, j + 1), a * b)]) (fun d l =>
          let ch (k : Nat) : Nat := narrow (l.foldl (fun acc (z : W72 × Nat) => add36 acc (mul36 (wide (lane18 z.1 k)) z.2)) 0)
          (d, .ok (px (ch 3) (ch 2) (ch 1) (ch 0))))
    else one d u.floor v.floor)
    (fun d p => (d, .ok (gamutGain c s p)))

/-- Every channel of a pixel under an operation. -/
def mapPx (h : Nat → Nat) (p : W72) : W72 := px (h (lane18 p 3)) (h (lane18 p 2)) (h (lane18 p 1)) (h (lane18 p 0))

/-- A slot's sample blended over a pixel (R235). -/
def blendSlot (mode alpha : Nat) (s c : W72) : W72 :=
  let mul := f18.mul 0 false
  let s1 := if mode = 0 then setFld s 0 18 one18 else s
  let a := lane18 s1 0
  let s2 := if mode = 2 then px (mul (lane18 s1 3) a) (mul (lane18 s1 2) a) (mul (lane18 s1 1) a) a else s1
  let s3 := mapPx (fun v => mul v alpha) s2
  if mode = 3 then
    let sum (i : Nat) : Nat := f18.add 0 false false (lane18 s3 i) (lane18 c i)
    px (sum 3) (sum 2) (sum 1) (f18.minmax false (sum 0) one18)
  else
    let ch (i : Nat) : Nat := overCh (lane18 s3 i) (lane18 c i) (lane18 s3 0)
    px (ch 3) (ch 2) (ch 1) (ch 0)

/-- Whether a pixel lies in a rectangle word. -/
def inRect (w : W72) (x y : Nat) : Bool :=
  decide (fld w 0 14 ≤ x) && decide (x ≤ fld w 0 14 + fld w 28 14) && decide (fld w 14 14 ≤ y) && decide (y ≤ fld w 14 14 + fld w 42 14)

/-- A slot's contribution to the pixels of a tile, with what the tile holds so far: a fetch that faults leaves the slot out of
the tile, with FETCH_FAULT and EV_FAULT (R250). -/
def Dev.slotTile (d : Dev) (c : Composition) (s : Nat) (pixels : List (Nat × Nat)) (cs : List W72) : Dev × List W72 :=
  let w1 := c.w 0x03 s 1
  let f := tget c.fns (objKey 0x03 s 1) d.manager
  let surf := d.surfNo (256 * f + fld w1 16 8)
  if !bit w1 0 || fld w1 16 8 = 0 then (d, cs)
  else
    match mapGot (fun d (q : Nat × Nat) =>
        if inRect (c.w 0x03 s 3) q.1 q.2 then Got.bind (d.slotSample f surf c s q.1 q.2) (fun d p => (d, .ok (some p))) else (d, .ok none)) d pixels with
    | (d1, .error (cause, va)) =>
      ((d1.setLive 0x03 s 23 (BitVec.ofNat 72 (cause * 2 ^ 48 + va % 2 ^ 48))).accessFault f cause srcEngine 1 va, cs)
    | (d1, .ok ss) =>
      (d1, (ss.zip cs).map (fun (z : Option W72 × W72) =>
        match z.1 with | some p => blendSlot (fld w1 14 2) (fld (c.w 0x03 s 4) 0 18) p z.2 | none => z.2))

/-! Tone map and LUT (R238, R239). -/

/-- The tone map. -/
def toneMap (w6 : W72) (p : W72) : W72 :=
  let pk := wide (fld w6 18 18)
  let pin := wide (fld w6 0 18)
  let k := mul36 (wide (fld w6 36 18)) pk
  let r := sub36 pk k
  let h := sub36 pin k
  let v (i : Nat) : Nat := max36 (wide (lane18 p i)) 0
  let m := min36 (max36 (max36 (v 3) (v 2)) (v 1)) pin
  if le36 m k then px (narrow (v 3)) (narrow (v 2)) (narrow (v 1)) (lane18 p 0)
  else
    let e := sub36 m k
    let m' := add36 k (div36 e (add36 one36 (div36 (mul36 e (sub36 h r)) (mul36 h r))))
    let q := div36 m' m
    px (narrow (mul36 (v 3) q)) (narrow (mul36 (v 2) q)) (narrow (mul36 (v 1) q)) (lane18 p 0)

/-- The LUT coordinate of a channel (R239): grid index and weight of 1/256. -/
def lutCoord (scale v : Nat) : Nat × Nat :=
  let q := div36 (wide v) (wide scale)
  let c := match f36.unpack q with | .nan _ => 0 | _ => min36 (max36 q 0) one36
  let u := f36.value (mul36 (intTo36 32) (f36.sqrt 0 false c))
  (u.floor.toNat, frac256 u)

/-- The LUT on a pixel (R239); a grid point that cannot be fetched is transparent black (R38). -/
def Dev.lutPx (d : Dev) (f : Nat) (s : Surf) (scale : Nat) (p : W72) : Dev × W72 :=
  let r := lutCoord scale (lane18 p 3)
  let g := lutCoord scale (lane18 p 2)
  let b := lutCoord scale (lane18 p 1)
  let at_ (c : Nat × Nat) (i : Nat) : Nat := Nat.min 32 (c.1 + i)
  let wt (c : Nat × Nat) (i : Nat) : Nat := if i = 1 then c.2 else 256 - c.2
  let corner (acc : Dev × List (W72 × Nat)) (i : Nat) : Dev × List (W72 × Nat) :=
    let a := i % 2
    let e := i / 2 % 2
    let h := i / 4
    match acc.1.texel f s texCtx 0 0 (at_ r a) (at_ g e + 33 * at_ b h) with
    | (d1, .ok v) => (d1, acc.2 ++ [(v, frac36 (wt r a * wt g e * wt b h) (2 ^ 24))])
    | (d1, .error _) => (d1, acc.2 ++ [(0, 0)])
  let (d1, l) := (List.range 8).foldl corner (d, [])
  let ch (k : Nat) : Nat := narrow (l.foldl (fun acc (z : W72 × Nat) => add36 acc (mul36 (wide (lane18 z.1 k)) z.2)) 0)
  (d1, px (ch 3) (ch 2) (ch 1) (lane18 p 0))

/-- The pixels of a tile composed (R235, R238, R239). -/
def Dev.composeTile (d : Dev) (p : Nat) (c : Composition) (pixels : List (Nat × Nat)) : Dev × List W72 :=
  let order := (List.range 16).map (fun k => 16 * p + fld (c.w 0x02 p 2) (4 * k) 4)
  let (d1, cs) := order.foldl (fun (acc : Dev × List W72) s => acc.1.slotTile c s pixels acc.2) (d, pixels.map (fun _ => c.w 0x02 p 3))
  let w5 := c.w 0x02 p 5
  let cs1 := if bit w5 0 then cs.map (toneMap (c.w 0x02 p 6)) else cs
  if bit w5 1 then
    let f := tget c.fns (objKey 0x02 p 7) d.manager
    let s := d1.surfNo (256 * f + fld (c.w 0x02 p 7) 0 8)
    cs1.foldl (fun (acc : Dev × List W72) q => let r := acc.1.lutPx f s (fld (c.w 0x02 p 7) 8 18) q; (r.1, acc.2 ++ [r.2])) (d1, [])
  else (d1, cs1)

/-! Where the result goes. -/

/-- The layer result of a frame-mode tile stored in its frame buffer (R244); a store that faults is reported to the layout owner's
function and leaves the tile as it was. -/
def Dev.storeFrameTile (d : Dev) (c : Composition) (t : Nat) (pixels : List (Nat × Nat)) (words : List W72) : Dev :=
  let f := c.target / 256
  let s := d.surfNo c.target
  let a : Att := { format := s.format, layout := s.layout, load := 1, store := 0, blend := 0, mask := 15, base := s.base, pitch := s.pitch, aux := s.aux, clear := 0 }
  let r : Got Unit :=
    if s.layout = 2 then
      let tx := t % c.tilesX
      let ty := t / c.tilesX
      Got.bind (d.loadPlane f a s.width s.height 0 tx ty []) (fun d old =>
        let new := (pixels.zip words).foldl (fun (l : List W72) z => setNth l (tileIndex (z.1.1 % 32) (z.1.2 % 32)) z.2) old
        d.storePlane f false a s.width s.height 0 tx ty new)
    else
      Got.bind (mapGot (fun d (z : (Nat × Nat) × W72) =>
        d.put f false (elemAddr s 0 0 z.1.1 z.1.2) (toBytes (elemBytes s.format) (fromPx s.format z.2))) d (pixels.zip words)) (fun d _ => (d, .ok ()))
  match r with
  | (d1, .ok _) => d1
  | (d1, .error (cause, va)) => d1.accessFault f cause srcEngine 1 va

/-- The layer result of a pixel of a strip. -/
def stripKey (x y : Nat) : Nat := y * 2 ^ 14 + x

/-! The pixels of a pipe (R236, R258). -/

/-- The device-physical address that an applied plane's translation gives for a device-virtual one (R256). -/
def Dev.planeAddr (d : Dev) (inst va : Nat) : Option Nat := (tfind (tget d.comp.planes inst []) (va / 4096)).map (fun g => g * 4096 + va % 4096)

/-- n bytes of the Vitrine for a plane: none when their word has an uncorrectable error. -/
def Dev.planeBytes (d : Dev) (inst va n : Nat) : Option Nat :=
  match d.planeAddr inst va with
  | some a => if d.dataCause a n ≠ 0 then none else some (ofBytes ((List.range n).map (fun i => match d.planeAddr inst (va + i) with | some b => d.peekByte b | none => 0)))
  | none => none

/-- The pixel (x, y) of the active area in plane inst, when the plane holds it: transparent black where its word is lost. -/
def Dev.planePx (d : Dev) (inst x y : Nat) : Option W72 :=
  let w (i : Nat) := d.obj 0x04 inst i
  let f := planeFormat (fld (w 1) 4 4)
  let dx := fld (w 5) 0 14
  let dy := fld (w 5) 14 14
  if !bit (w 1) 0 || x < dx || y < dy || fld (w 4) 0 14 < x - dx || fld (w 4) 14 14 < y - dy then none
  else
    let px_ := x - dx
    let row := fld (w 2) 0 48 + (y - dy) * fld (w 3) 0 29
    let ctx (p : W72) : ConvCtx := { transfer := 0, fill := w 6, palette := fun _ => p }
    if f = 0x0B then some (match d.planeBytes inst (row + px_ / 2) 1 with | some v => toPx f (ctx 0) (if px_ % 2 = 0 then v % 16 else v / 16) | none => 0)
    else
      match d.planeBytes inst (row + px_ * elemBytes f) (elemBytes f) with
      | none => some 0
      | some v =>
        if f = 0x09 then some (match d.planeBytes inst (fld (w 7) 0 48 + 9 * v) 9 with | some p => BitVec.ofNat 72 p | none => 0)
        else some (toPx f (ctx 0) v)

/-- The bytes of the active area's lines, and of the palette, that an applied plane reads: whether the byte at va is one. -/
def Dev.planeReads (d : Dev) (inst va : Nat) : Bool :=
  let w (i : Nat) := d.obj 0x04 inst i
  let t := d.timing (inst / 4)
  let base := fld (w 2) 0 48
  let pitch := fld (w 3) 0 29
  let rows := Nat.min (fld (w 4) 14 14 + 1) (t.vact - fld (w 5) 14 14)
  let len := planeRow (fld (w 1) 4 4) (Nat.min (fld (w 4) 0 14 + 1) (t.hact - fld (w 5) 0 14))
  bit (w 1) 0 && decide (rows ≠ 0) &&
    ((decide (base ≤ va) && (if pitch = 0 then decide (va - base < len) else decide ((va - base) % pitch < len) && decide ((va - base) / pitch < rows))) ||
     (fld (w 1) 4 4 = 3 && decide (fld (w 7) 0 48 ≤ va) && decide (va < fld (w 7) 0 48 + 2304)))

/-- The locus of a Vitrine word (R18, R258, R498): which macro of its bank holds it, and at which place, the manual does not state (tag 32). -/
def vitrineLocus (a : Nat) : W72 :=
  let k := (a - vitrineBase) / 9
  locusOf 0x04 0x10 ((a - vitrineBase) / 2 ^ 20) (Config.unstated 32 [k] % 0xFFFF) (Config.unstated 32 [k, 1] % (2 ^ 19 - 1) * 128 + 127)

/-- The Vitrine words with an uncorrectable error that the frame scanned has read: a record of each (R258). -/
def Dev.vitrineScan (d : Dev) (p : Nat) : Dev :=
  let reads (a : Nat) : Bool := (List.range 4).any (fun v =>
    (tget d.comp.planes (4 * p + v) []).any (fun x => x.2 = a / 4096 && d.planeReads (4 * p + v) (x.1 * 4096 + a % 4096)))
  (d.poison.filter (fun l => decide (2 ^ 40 ≤ l) && (List.range 9).any (fun i => reads ((poisonAt l).1 + i)))).foldl (fun d l => d.sramUe (vitrineLocus (poisonAt l).1) none) d

/-- Whether a pipe puts out Vitrine planes over opaque black only (R38, R427, R503). -/
def Dev.vitrineOnly (d : Dev) (p : Nat) : Bool :=
  bit d.safety.force p || (d.pt p).showcase

/-- The newest frame of a pipe. -/
def Dev.frameOf (d : Dev) (p : Nat) : Option Frame := (d.pc p).frames.getLast?

/-- Whether a pixel of the frame chased lies in a poisoned line of the strip ring (R245, R390): 9 bytes of a packed row. -/
def PipeComp.badPixel (pc : PipeComp) (x y : Nat) : Bool := pc.stripBad.contains (y, 9 * x / 64) || pc.stripBad.contains (y, (9 * x + 8) / 64)

/-- Whether the strip ring holds a line of a row of the frame chased: its strip is complete. -/
def Dev.stripHeld (d : Dev) (p row line : Nat) : Bool :=
  match (d.pc p).chase with
  | some c => decide (row < c.height) && decide (line < 9 * ceilDiv c.width 64) && c.stripDone p (row / c.stripH p)
  | none => false

/-- Whether a pixel's data have arrived late (R407): which of a late frame's have is a free value (tag 43). -/
def Dev.pixelLate (d : Dev) (p x y : Nat) : Bool := (d.pt p).late && Config.unstated 43 [p, (d.pt p).frame.toNat, x, y] % 2 = 1

/-- The layer result of a pixel as the pipe fetches it (R38, R218, R236, R244, R247, R391, R407). -/
def Dev.layerPx (d : Dev) (p x y : Nat) : Dev × W72 :=
  let back := d.obj 0x02 p 3
  let pc := d.pc p
  if d.vitrineOnly p then (d, 0xF800)
  else
    match d.frameOf p with
    | none => (d, back)
    | some fr =>
      match fr.kind, pc.content, pc.chase with
      | 1, some c, _ =>
        if c.width ≤ x ∨ c.height ≤ y then (d, c.w 0x02 p 3)
        else if d.pixelLate p x y then (d, 0)
        else
          match d.texel (c.target / 256) (d.surfNo c.target) { transfer := 5, fill := 0, matrix := 0, full := false } 0 0 x y with
          | (d1, .ok v) => (d1, v)
          | (d1, .error _) => (d1, 0)
      | 2, _, some c =>
        let j := y / c.stripH p
        if pc.missed.contains j || !c.stripDone p j then (d, c.w 0x02 p 3)
        else if pc.badPixel x y then (d, 0)
        else (d, tget pc.strips (stripKey x y) back)
      | _, _, _ => (d, back)

/-- A pixel after the blend stage (R236): planes VP0 to VP3 over the layer result. -/
def Dev.pipePx (d : Dev) (p x y : Nat) : Dev × W72 :=
  let (d1, c) := d.layerPx p x y
  (d1, (List.range 4).foldl (fun c v =>
    match d1.planePx (4 * p + v) x y with
    | some q => let ch (i : Nat) : Nat := overCh (lane18 q i) (lane18 c i) (lane18 q 0); px (ch 3) (ch 2) (ch 1) (ch 0)
    | none => c) c)

/-! Maps. -/

/-- A rectangle of a map from a rectangle word. -/
def rectOf (w : W72) (owner : Nat) (pass : Bool) : MapRect :=
  { x0 := (fld w 0 14 : Nat), y0 := (fld w 14 14 : Nat), x1 := ((fld w 0 14 + fld w 28 14 : Nat) : Int), y1 := ((fld w 14 14 + fld w 42 14 : Nat) : Int),
    owner := owner, pass := pass }

/-- The slots of a composition as rectangles, in ORDER (R259). -/
def Composition.rects (c : Composition) (p : Nat) : List MapRect :=
  (List.range 16).filterMap (fun k =>
    let s := 16 * p + fld (c.w 0x02 p 2) (4 * k) 4
    if bit (c.w 0x03 s 1) 0 then some (rectOf (c.w 0x03 s 3) (fld (c.w 0x03 s 0) 0 6) (bit (c.w 0x03 s 1) 9)) else none)

/-- The planes of a pipe as rectangles, VP0 to VP3. -/
def Dev.planeRects (d : Dev) (p : Nat) : List MapRect :=
  (List.range 4).filterMap (fun v =>
    let i := 4 * p + v
    let w (k : Nat) := d.obj 0x04 i k
    if bit (w 1) 0 then
      some { x0 := (fld (w 5) 0 14 : Nat), y0 := (fld (w 5) 14 14 : Nat), x1 := ((fld (w 5) 0 14 + fld (w 4) 0 14 : Nat) : Int),
             y1 := ((fld (w 5) 14 14 + fld (w 4) 14 14 : Nat) : Int), owner := d.owner 0x04 i, pass := bit (w 1) 3 }
    else none)

/-- The haptic zones applied for a pipe (R259, R337). -/
def Dev.pipeZones (d : Dev) (p : Nat) : List MapZone :=
  (List.range 256).filterMap (fun z =>
    if bit (d.obj 0x08 z 1) 31 && fld (d.obj 0x08 z 1) 25 4 = p then some { inst := z, words := (List.range 6).map (fun i => d.obj 0x08 z i) } else none)

/-! Frames. -/

/-- The layout in force at a VBLANK (R243, R248): MODE, or FRAME while the fall-back holds. -/
def Dev.layoutMode (d : Dev) (p : Nat) : Nat :=
  let m := fld (d.obj 0x02 p 1) 0 2
  if m = 2 && (d.pc p).fallback then 1 else m

/-- Whether the strips missed lately, and `more` of now, call for the fall-back (R248). -/
def Dev.missesReach (d : Dev) (p n more : Nat) : Bool :=
  decide (fld (d.obj 0x02 p 1) 12 4 ≤ ((d.pc p).misses.filter (fun f => decide (n ≤ f + fld (d.obj 0x02 p 1) 16 8))).length + more)
def Dev.missedEnough (d : Dev) (p n : Nat) : Bool := fld (d.obj 0x02 p 1) 0 2 = 2 && ((d.pc p).wantFallback || d.missesReach p n 0)

/-- PRESENTs that become due at VBLANK n, which began at v (R249): the latest stands, the others are superseded by it. -/
def Dev.dueWaits (l : List PresentWait) (v n : Nat) : List PresentWait × List (OpId × Nat) :=
  let due := l.filter (fun w => w.frame.isNone && decide (w.at_ + 2000 ≤ v))
  match due.getLast? with
  | none => (l, [])
  | some last =>
    (l.filterMap (fun w => if w.id = last.id then some { w with frame := some n } else if due.any (fun u => u.id = w.id) then none else some w),
     (due.filter (fun u => u.id ≠ last.id)).map (fun u => (u.id, last.id.acc)))

/-- An operation still active ends with a status and result, its flags set by h. -/
def Dev.endOp (d : Dev) (id : OpId) (status : Nat) (result : Option Nat) (h : Op → Op) : Dev :=
  match d.op id with
  | some o => if o.active then (d.updOp id h).finish id status result else d
  | none => d

/-- Operations that a later one superseded (R249, R281): ST_SKIPPED with the later item's accession number. -/
def Dev.supersede (d : Dev) (l : List (OpId × Nat)) : Dev :=
  l.foldl (fun d x => d.endOp x.1 0x01 (some x.2) (fun o => { o with superseded := true })) d

/-- The slots of a function whose handles were taken back lose ENABLE at their pipe's VBLANK (R227). -/
def Dev.dropSlots (d : Dev) (p : Nat) : Dev :=
  (List.range 16).foldl (fun d s =>
    let i := 16 * p + s
    let w := d.obj 0x03 i 1
    match d.handleNo 0x03 i 1 (fld w 16 8) with
    | some h =>
      if (d.handle h).vanished then
        { (d.setObj 0x03 i 1 (setBit w 0 false)) with comp := { d.comp with slotFn := tdel d.comp.slotFn (objKey 0x03 i 1) } }
      else d
    | none => d) d

/-- The composition side of VBLANK n of pipe p (R242 to R249, R259): `dirty` says that a commit to its layout or slots applied. -/
def Dev.frameBegin (d : Dev) (p n v : Nat) (dirty : Bool) : Dev :=
  let pc0 := d.pc p
  let pc := { pc0 with fallback := pc0.fallback || d.missedEnough p n, wantFallback := false }
  let d := d.setPc p pc
  let mode := d.layoutMode p
  let prev := pc.mode.toNat
  let (waits0, old) := Dev.dueWaits pc.presents v n
  -- the composition of a PRESENT that has not been complete at its deadline makes it LATE
  let waits := match pc.current with
    | some c => if c.doneAt.isSome then waits0 else waits0.map (fun w => if (match w.frame with | some k => decide (k ≤ c.frame) | none => false) then { w with late := true } else w)
    | none => waits0
  let presented := waits.any (fun w => w.frame = some n)
  -- a frame-mode composition that is finished is scanned now; a late one is discarded when a newer one is due
  let renewed := match (match pc.current with | some c => some c | none => pc.content) with
    | some c => c.handles.any (fun x => (d.handle x.1).serial ≠ x.2)
    | none => false
  let due := mode = 1 && (prev ≠ 1 || dirty || presented || renewed || (pc.current.isNone && pc.content.isNone))
  let finished := prev = 1 && (match pc.current with | some c => c.doneAt.isSome | none => false)
  let content := if finished then pc.current else pc.content
  let shownB := if finished then (match pc.current with | some c => c.toB | none => pc.shownB) else pc.shownB
  let left := if finished then none else pc.current
  let kind := if mode = 2 then 2 else if mode = 1 then (if prev = 2 then 2 else if prev = 1 && content.isSome then 1 else 0) else 0
  let next := d.nextVblank p
  let toB := if content.isNone then false else !shownB
  let current :=
    if mode ≠ 1 then none
    else if due then some (d.snapshot p n (d.frameHandle p toB) toB next)
    else left.map (fun c => { c with late := true })
  let chase := if kind = 2 then some (d.snapshot p n none false 0) else none
  let from_ := if kind = 2 || mode = 0 then n else match content with | some c => if kind = 1 then c.frame else 0 | none => 0
  let shownComp := if kind = 2 then chase else if kind = 1 then content else none
  let depth := match chase with | some c => c.ringDepth p | none => 0
  let only := d.vitrineOnly p
  let fr : Frame :=
    { n := n, kind := kind, content := from_, stamp := none, dark := false, late := (match content with | some c => kind = 1 && c.late | none => false)
      handles := (if kind = 2 then d.readsOf p else if finished then (match content with | some c => c.handles.map (fun x => x.1) | none => []) else []) ++
        (if kind = 1 then (match content with | some c => [c.target] | none => []) else [])
      map := (match shownComp with | some c => if only then [] else c.rects p | none => []) ++ d.planeRects p
      layoutOwner := (match shownComp with | some c => fld (c.w 0x02 p 0) 0 6 | none => d.owner 0x02 p)
      zones := if only then [] else d.pipeZones p
      shown := match shownComp with | some c => c.shown | none => [], retired := false }
  (d.setPc p
    { pc with
      mode := BitVec.ofNat 2 mode, shownB := shownB, current := current, content := if mode = 1 then content else pc.content
      chase := chase, strips := [], opened := List.range depth, missed := [], stripBad := [], presents := waits
      misses := pc.misses.filter (fun f => decide (n ≤ f + 256)), frames := pc.frames ++ [fr] }).supersede old

/-- The frame that a pipe is in, formed when its start left it unformed (R461). -/
def Dev.ensureFrame (d : Dev) (p : Nat) : Dev :=
  let n := (d.pt p).frame.toNat
  match d.frameOf p with
  | some f => if f.n = n then d else d.frameBegin p n ((d.pt p).lastVb.getD d.now) true
  | none => d.frameBegin p n ((d.pt p).lastVb.getD d.now) true

/-- The frames of a pipe before n retire; maps of the last 8 stamped frames are retained (R224, R316). -/
def Dev.retireBefore (d : Dev) (p n : Nat) : Dev :=
  let pc := d.pc p
  let gone := pc.frames.filter (fun f => decide (f.n < n) && !f.retired)
  let all := pc.frames.map (fun f => if f.n < n then { f with retired := true } else f)
  gone.foldl (fun d f => d.retireFrame f) (d.setPc p { pc with frames := all.drop (all.length - 9) })

/-- The composition side of the flip stamp of the newest frame of pipe p (R224, R249, R259, R278): its map is formed, earlier
frames retire, PRESENTs whose content it shows complete, or carry LATE on from a dark frame. -/
def Dev.frameStamp (d : Dev) (p stamp : Nat) (dark : Bool) : Dev :=
  let n := (d.pt p).frame.toNat
  let pc := d.pc p
  let frames := pc.frames.map (fun f => if f.n = n then { f with stamp := some stamp, dark := dark, map := if dark then [] else f.map, zones := if dark then [] else f.zones } else f)
  match pc.frames.find? (fun f => f.n = n) with
  | none => d
  | some fr =>
    let shows (w : PresentWait) : Bool := match w.frame with | some k => decide (k ≤ fr.content) | none => false
    let done := if dark then [] else pc.presents.filter shows
    let rest := (pc.presents.filter (fun w => !done.any (fun u => u.id = w.id))).map (fun w => if dark && shows w then { w with late := true } else w)
    let d1 := (d.setPc p { pc with frames := frames, presents := rest }).retireBefore p n
    done.foldl (fun d w => d.endOp w.id 0 (some stamp) (fun o => { o with late := w.late || fr.late })) d1

/-! Tiles at cores. -/

/-- Whether a core, or the other core of a guard tile, holds a tile or unit. -/
def TileRun.on (t : TileRun) (core : Nat) : Bool := t.core = core || t.guard = some core

/-- Whether a core holds a tile or unit of a normal operation, and whether it is at a boundary: none of those that it holds has a wave
started (R185, R193, R195). -/
def Dev.coreBusy (d : Dev) (core : Nat) : Bool := d.raster.passes.any (fun q => q.tiles.any (fun t => t.2.on core))
def Dev.atBoundary (d : Dev) (core : Nat) : Bool := d.raster.passes.all (fun q => q.tiles.all (fun t => !t.2.on core || t.2.used = 0))

/-- A core at a boundary gives up the tile that it holds beside the one it has shaded; it awaits a core again. -/
def Dev.yieldCore (d : Dev) (core : Nat) : Dev :=
  { d with raster := { d.raster with
      passes := d.raster.passes.map (fun q =>
        { q with tiles := q.tiles.filter (fun t => !t.2.on core), todo := (q.tiles.filter (fun t => t.2.on core)).map (fun t => t.1) ++ q.todo }) } }

/-! The tile-list pool (R197 to R200). -/

/-- The blocks that the passes of a function hold. -/
def Dev.heldBy (d : Dev) (f : Nat) : Nat := ((d.raster.passes.filter (fun q => q.fn = f)).map (fun q => q.blocks.length)).foldl (· + ·) 0

/-- The blocks that the compositor context holds, and all that are held. -/
def Dev.compBlocks (d : Dev) : List Nat := (List.range 12).filterMap (fun p => (d.pc p).block)
def Dev.heldBlocks (d : Dev) : List Nat := d.raster.passes.flatMap (fun q => q.blocks) ++ d.compBlocks

/-- Whether a block lies in DRAM that is lost with a fenced group. -/
def Dev.blockLost (d : Dev) (i : Nat) : Bool := d.isLost (d.raster.poolBase.toNat + i * 2 ^ 21)

/-- The usable blocks that no operation holds. -/
def Dev.freeBlocks (d : Dev) : List Nat := (List.range d.raster.blocks).filter (fun i => !d.heldBlocks.contains i && !d.blockLost i)

/-- Whether the compositor's passes of a pipe have their block or can draw it (R200): within the compositor's reserve, and one is free. -/
def Dev.hasBlock (d : Dev) (p : Nat) : Bool := match (d.pc p).block with | some b => !d.blockLost b | none => false
def Dev.blockOk (d : Dev) (p : Nat) : Bool := d.hasBlock p || (decide (d.compBlocks.length < d.raster.compReserve) && d.freeBlocks ≠ [])

/-- The block drawn when a composition starts, and released when none is under way: a frame neither composed nor given up. -/
def Dev.drawBlock (d : Dev) (p : Nat) : Dev := if d.hasBlock p then d else d.setPc p { d.pc p with block := d.freeBlocks.head? }
def Dev.releaseBlock (d : Dev) (p : Nat) : Dev :=
  let pc := d.pc p
  let chasing := match pc.chase with | some c => (List.range (c.strips p)).any (fun j => !c.stripDone p j && !pc.missed.contains j) | none => false
  let composing := match pc.current with | some c => c.doneAt.isNone | none => false
  if chasing || composing then d else d.setPc p { pc with block := none }

/-- The tiles of a chased frame; the tiles of a composition for a frame buffer are numbered after them. -/
def Dev.chaseTiles (d : Dev) (p : Nat) : Nat := match (d.pc p).chase with | some c => c.tileCount p true | none => 0

/-- The deadline of a frame-mode composition (R244): the start of the next VBLANK, once an adaptive hold or a TE edge has fixed it; that of
a late one has passed. -/
def Dev.composeDue (d : Dev) (p : Nat) (c : Composition) : Option Nat :=
  if c.late then some c.deadline
  else if d.adaptive p then (d.pt p).hold.map (fun k => stampOf (d.lineInstant p ((d.timing p).vact + k)))
  else if d.dsiCmd p then none
  else some (d.nextVblank p)

/-- Whether a tile of a pipe's compositions is ready (R194, R200, R244, R246), with its deadline when it lies in its window. -/
def Dev.tileReady (d : Dev) (p t : Nat) : Option (Option Nat) :=
  let pc := d.pc p
  let n := d.chaseTiles p
  if d.vitrineOnly p || !d.blockOk p then none
  else if t < n then
    match pc.chase with
    | some c =>
      let j := c.tileStrip p t
      if !c.tilesDone.contains t && pc.opened.contains j && !pc.missed.contains j then some (d.stripDeadline p c j) else none
    | none => none
  else
    match pc.current with
    | some c =>
      let wd := fld (d.obj 0x02 p 4) 16 20 * 1000
      let due := (d.composeDue p c).getD (d.nextVblank p)
      let inside := wd = 0 || decide (d.framePeriod p < wd) || decide (due ≤ d.now + wd)
      if t - n < c.tileCount p false && !c.tilesDone.contains (t - n) && c.doneAt.isNone then some (if inside then some due else none) else none
    | none => none

/-- The number of tiles of a pipe's compositions. -/
def Dev.tilesOf (d : Dev) (p : Nat) : Nat := d.chaseTiles p + (match (d.pc p).current with | some c => c.tileCount p false | none => 0)

/-- The earliest deadline of a pipe's ready tiles (R194). -/
def Dev.earliest (d : Dev) (p : Nat) : Option Nat :=
  (List.range (d.tilesOf p)).foldl (fun acc t =>
    match d.tileReady p t with
    | some (some x) => some (match acc with | some y => Nat.min x y | none => x)
    | _ => acc) none

/-- Whether a compositor tile is ready inside its window (R194). -/
def Dev.compositorReady (d : Dev) : Bool := (List.range 12).any (fun p => (d.earliest p).isSome)

/-- Whether no ready tile of another pipe, or of this one, comes first (R194): earliest deadline, then ascending pipe. -/
def Dev.comesFirst (d : Dev) (p : Nat) (dl : Option Nat) : Bool :=
  (List.range 12).all (fun q =>
    match d.earliest q, dl with
    | none, _ => true
    | some x, some y => decide (y < x) || (decide (y = x) && decide (p ≤ q))
    | some _, none => false)

/-- COMPOSED (R237): the frame counter of the frame just composed. -/
def Dev.setComposed (d : Dev) (p n : Nat) : Dev := d.setLive 0x02 p 30 (setFld (d.live 0x02 p 30) 0 48 n)

/-- A strip missed (R247): BACKGROUND for its lines, CHASE_MISS, the count, and LATE on the PRESENTs of the frame. -/
def Dev.missStrip (d : Dev) (p strip : Nat) (c : Composition) : Dev :=
  let pc := d.pc p
  let w := d.live 0x02 p 30
  let d1 := (d.setPt p { d.pt p with ltNow := 0 }).setPc p
    { pc with
      missed := pc.missed ++ [strip], misses := pc.misses ++ [c.frame], wantFallback := pc.wantFallback || d.missesReach p c.frame 1
      presents := pc.presents.map (fun x => if x.frame = some c.frame then { x with late := true } else x) }
  (d1.setLive 0x02 p 30 (setFld w 56 16 (satAdd 16 (fld w 56 16) 1))).pipeEvent p 5

/-- Whether strip j of a chased frame has not been complete at its deadline (R247). -/
def Dev.stripOverdue (d : Dev) (p : Nat) (c : Composition) (j : Nat) : Bool :=
  (match d.stripDeadline p c j with | some t => decide (t < d.now) | none => false) && !c.stripDone p j && !(d.pc p).missed.contains j

/-- The strips of the frame chased whose deadline has passed are missed; a Vitrine-only frame has none. -/
def Dev.missOverdue (d : Dev) (p : Nat) : Dev :=
  match (d.pc p).chase with
  | some c => if d.vitrineOnly p then d else ((List.range (c.strips p)).filter (d.stripOverdue p c)).foldl (fun d j => d.missStrip p j c) d
  | none => d

/-! Latency tolerance (R296). -/

/-- The instant at which the scan consumes the first byte of layer data that lies beyond a full FIFO of 128 KiB, in whole pixels of e bytes. -/
def Dev.fifoEnd (d : Dev) (p e : Nat) : Nat :=
  let t := d.timing p
  let scanned := (d.pt p).posAt (d.now : Nat) - d.linePos p 0
  let lines := Nat.min t.vact (scanned / (t.htotal : Nat)).floor.toNat
  let done := if t.vact ≤ lines then t.vact * t.hact else lines * t.hact + Nat.min t.hact (scanned - (lines * t.htotal : Nat)).floor.toNat
  let k := done + 131072 / e
  let frame := t.hact * t.vact
  let pos := k / frame * (t.htotal * t.vtotal) + k % frame / t.hact * t.htotal + k % t.hact
  stampOf ((d.pt p).instant (d.linePos p 0 + (pos : Nat)))

/-- The tolerance of a chased frame: up to the deadline of the first strip not complete; when all are, that of the next frame's first. -/
def Dev.ltChase (d : Dev) (p : Nat) (c : Composition) : Nat :=
  match (List.range (c.strips p)).find? (fun j => !c.stripDone p j) with
  | some j => (d.stripDeadline p c j).getD 0 - d.now
  | none =>
    let t := d.timing p
    stampOf (d.lineInstant p t.vact + pixelsNs (t.vblank * t.htotal : Nat) (d.pt p).inc.toNat) - 8000 - d.now

/-- The latency tolerance of a pipe (R296). How full its FIFO is in frame mode, the manual does not state: a free value (tag 22) up to that of a
full FIFO. -/
def Dev.ltOf (d : Dev) (p : Nat) : Nat :=
  let pc := d.pc p
  if !(d.pt p).active || d.vitrineOnly p || (d.pt p).selfRefresh then 16777215
  else
    match d.frameOf p with
    | none => 16777215
    | some fr =>
      match fr.kind, pc.chase, pc.content with
      | 2, some c, _ => Nat.min 16777215 (d.ltChase p c)
      | 1, _, some c =>
        let full := d.fifoEnd p (Nat.max 1 (elemBytes (d.surfNo c.target).format)) - d.now
        Nat.min 16777215 (Config.unstated 22 [p, (d.pt p).frame.toNat, d.now] % (full + 1))
      | _, _, _ => 16777215

/-- DRAM has answered nothing for some time (R407, R408): data of the pipes that tolerate less arrive late. -/
def Dev.fetchLate (d : Dev) (ns : Nat) : Dev :=
  (List.range 12).foldl (fun d p =>
    match d.frameOf p with
    | some fr => if fr.kind = 1 && decide (d.ltOf p < ns) then d.setPt p { d.pt p with late := true, ltNow := 0 } else d
    | none => d) d

/-- A report of a pipe's latency tolerance, of which the smallest of each frame is kept. -/
def Dev.noteLt (d : Dev) (p : Nat) : Dev := d.setPt p { d.pt p with ltNow := Nat.min (d.pt p).ltNow (d.ltOf p) }

/-- A tile of a chased frame composed into the strip ring (R246). -/
def Dev.composeStrip (d : Dev) (p t : Nat) (c : Composition) : Dev :=
  let pixels := c.tilePixels p true t
  let (d1, cs) := d.composeTile p c pixels
  let strips := (pixels.zip cs).foldl (fun m (z : (Nat × Nat) × W72) => tset m (stripKey z.1.1 z.1.2) z.2) (d.pc p).strips
  let c1 := { c with tilesDone := c.tilesDone ++ [t] }
  let all := (List.range (c1.strips p)).all (fun j => c1.stripDone p j)
  let d2 := d1.setPc p { d1.pc p with strips := strips, chase := some { c1 with doneAt := if all then some d1.now else none } }
  if all then d2.setComposed p c.frame else d2

/-- A tile of a frame-mode composition composed and stored in its frame buffer (R244). -/
def Dev.composeFrame (d : Dev) (p t : Nat) (c : Composition) : Dev :=
  let pixels := c.tilePixels p false t
  let (d1, cs) := d.composeTile p c pixels
  let d2 := d1.storeFrameTile c t pixels cs
  let c1 := { c with tilesDone := c.tilesDone ++ [t] }
  let all := decide (c1.tileCount p false ≤ c1.tilesDone.length)
  let late := c1.late || (match d.composeDue p c with | some t => decide (t < d2.now) | none => false)
  let d3 := d2.setPc p { d2.pc p with current := some { c1 with doneAt := if all then some d2.now else none, late := late } }
  if all then d3.setComposed p (c.frame + 1) else d3

/-- A tile of a pipe's compositions composed. -/
def Dev.composeAt (d : Dev) (p t : Nat) : Dev :=
  if t < d.chaseTiles p then (match (d.pc p).chase with | some c => (d.noteLt p).composeStrip p t c | none => d)
  else match (d.pc p).current with | some c => d.composeFrame p (t - d.chaseTiles p) c | none => d

/-- Whether the layout owner's COMPOSE weight lets work outside its window be dispatched (R155, R244). -/
def Dev.composeShare (d : Dev) (p : Nat) : Bool := weightOf d.obj (d.owner 0x02 p) 1 ≠ 0

/-- COMPOSITOR_TILE_DISPATCH (R155, R193, R194, R196, R200, R244, R247): a core in service and at a boundary takes the ready tile that comes
first; strips whose deadline has passed are missed instead. -/
def execCompositorTileDispatch (p : Fin 12) (tile : Nat) (core : Fin 16) (s : State) : Host.Outcome State Fault Refusal :=
  runAs (mpCore core.val) (fun d =>
    let d1 := if (d.pt p.val).active then (d.ensureFrame p.val).missOverdue p.val else d
    if !d1.runs 4 || !d1.inService core.val || !d1.atBoundary core.val then d
    else
      match d1.tileReady p.val tile with
      | some dl =>
        if d1.comesFirst p.val dl && (dl.isSome || d1.composeShare p.val) then
          ((((d1.yieldCore core.val).wakeCore core.val none).drawBlock p.val).composeAt p.val tile).releaseBlock p.val
        else d1
      | none => d1) s

/-- FRAME_COMPOSE_DEADLINE (R244): the composition is late. -/
def execFrameComposeDeadline (p : Fin 12) (at_ : Nat) (s : State) : Host.Outcome State Fault Refusal :=
  run (fun d =>
    match (d.pc p.val).current with
    | some c =>
      match d.composeDue p.val c with
      | some t =>
        if d.runs 10 && decide (t ≤ Nat.max d.now at_) && c.doneAt.isNone then
          (d.tick at_).setPc p.val { d.pc p.val with current := some { c with late := true } }
        else d
      | none => d
    | none => d) s

/-- STRIP_WINDOW_OPEN (R246): the ring position of strip j is free once the scan has left the strip that held it. -/
def execStripWindowOpen (p : Fin 12) (strip : Nat) (at_ : Nat) (s : State) : Host.Outcome State Fault Refusal :=
  run (fun d =>
    let pc := d.pc p.val
    match pc.chase with
    | some c =>
      let depth := c.ringDepth p.val
      match d.lineStart p.val ((strip + 1 - depth) * c.stripH p.val) with
      | some t =>
        if d.runs 10 && decide (strip < c.strips p.val) && decide (depth ≤ strip) && decide (t ≤ Nat.max d.now at_) && !pc.opened.contains strip then
          (d.tick at_).setPc p.val { pc with opened := pc.opened ++ [strip] }
        else d
      | none => d
    | none => d) s

/-- STRIP_MISS (R247). -/
def execStripMiss (p : Fin 12) (strip : Nat) (at_ : Nat) (s : State) : Host.Outcome State Fault Refusal :=
  run (fun d =>
    let pc := d.pc p.val
    match pc.chase with
    | some c =>
      match d.stripDeadline p.val c strip with
      | some t =>
        if d.runs 10 && decide (strip < c.strips p.val) && decide (t ≤ Nat.max d.now at_) && !c.stripDone p.val strip && !pc.missed.contains strip then
          ((d.tick at_).missStrip p.val strip c).releaseBlock p.val
        else d
      | none => d
    | none => d) s

/-! Buffer handles (R220 to R227). -/

/-- Whether something still names or reads a handle (R223): applied fields, pending commits, frames not retired, the composition
under way. -/
def Dev.handleUsed (d : Dev) (k : Nat) : Bool :=
  let named (cls inst word : Nat) (v : W72) (f : Nat) : Bool := (handlesIn cls word v).any (fun h => 256 * f + h = k && h ≠ 0 && inst = inst)
  d.comp.slotFn.any (fun x => named (keyCls x.1) (keyInst x.1) (keyWord x.1) (d.obj (keyCls x.1) (keyInst x.1) (keyWord x.1)) x.2) ||
    d.commits.any (fun c => c.writes.any (fun x => named (keyCls x.1) (keyInst x.1) (keyWord x.1) x.2 (ringFn c.ring))) ||
    (List.range 12).any (fun p => (d.scanSets p).any (fun s => s.1.contains k))

/-- A handle that nothing names or reads becomes FREE, and its BUF_FREE completes (R223). -/
def Dev.freeHandle (d : Dev) (k : Nat) (waited : Bool) : Dev :=
  let h := d.handle k
  let d1 := d.setHandle k { h with state := .free, words := [], freeOp := none, vanished := false }
  match h.freeOp with
  | some id => d1.endOp id 0 (some d1.now) (fun o => { o with deferred := waited })
  | none => d1

/-- The registration of a surface under a handle (R222). -/
def Dev.registerHandle (d : Dev) (id : OpId) (k : Nat) (words : List W72) : Dev :=
  (d.setHandle k { state := .registered, words := words, serial := (d.handle k).serial + 1, freeOp := none, vanished := false }).finish id 0 none

/-- The checks of BUF_REGISTER (R222). -/
def registerOk (o : Op) : Bool :=
  let w0 := o.word 0
  let s := surfOfList (o.desc.drop 1)
  fld w0 64 8 ≠ 0 && fld w0 0 64 = 0 && 1 ≤ s.format && s.format ≤ 0x0B && s.layout ≤ 2 && layoutOk s.format s.layout && fld (o.word 1) 48 14 = 0 &&
    s.layers = 1 && s.levels = 1 && fld (o.word 3) 48 24 = 0 && pitchOk s && ((s.format ≠ 0x09 && s.layout ≠ 2) || s.aux ≠ 0)

/-- BUF_REGISTER (R222): waits while the handle is FREEING. -/
def execBufRegister (id : OpId) (s : State) : Host.Outcome State Fault Refusal :=
  run (fun d =>
    match d.activeOp id 1 2 with
    | none => d
    | some o =>
      let k := 256 * o.fn + fld (o.word 0) 64 8
      if !d.runs 5 then d
      else if !registerOk o then d.finish id 0x10 none
      else
        match (d.handle k).state with
        | .registered => d.finish id 0x10 none
        | .freeing => d
        | .free => d.registerHandle id k (o.desc.drop 1)) s

/-- BUF_FREE (R223): FREEING at once, FREE and complete when nothing names or reads the handle. -/
def execBufFree (id : OpId) (s : State) : Host.Outcome State Fault Refusal :=
  run (fun d =>
    match d.activeOp id 1 3 with
    | none => d
    | some o =>
      let k := 256 * o.fn + fld (o.word 0) 0 8
      if !d.runs 5 || (d.handle k).freeOp = some id then d
      else if fld (o.word 0) 8 64 ≠ 0 || fld (o.word 0) 0 8 = 0 || (d.handle k).state ≠ .registered then d.finish id 0x10 none
      else
        let d1 := d.setHandle k { d.handle k with state := .freeing, freeOp := some id, vanished := false }
        if d1.handleUsed k then d1 else d1.freeHandle k false) s

/-- HANDLE_FREED (R223, R227). -/
def execHandleFreed (f : Fin 64) (h : BitVec 8) (s : State) : Host.Outcome State Fault Refusal :=
  run (fun d =>
    let k := 256 * f.val + h.toNat
    if d.awake && (d.handle k).state = .freeing && !d.handleUsed k then d.freeHandle k true else d) s

/-- PRESENT (R249): it waits for its VBLANK. -/
def execPresent (id : OpId) (s : State) : Host.Outcome State Fault Refusal :=
  run (fun d =>
    match d.activeOp id 1 1 with
    | none => d
    | some o =>
      let p := fld (o.word 0) 0 4
      if !d.runs 5 then d
      else if fld (o.word 0) 4 68 ≠ 0 || 11 < p then d.finish id 0x10 none
      else if d.owner 0x02 p ≠ o.fn then d.finish id 0x11 none
      else if (d.pc p).presents.any (fun w => w.id = id) then d
      else d.setPc p { d.pc p with presents := (d.pc p).presents ++ [{ id := id, at_ := o.due, frame := none, late := false }] }) s

end Sys2Proof.Machine
end

