-- ==== Sys2Proof/Machine/Display.lean ====
section
/-! DEFINITION. Display pipes and ports (R265 to R303): VBLANK and the first active line, adaptive sync and self-refresh, genlock,
tearing-effect inputs, flips, mode entries, sideband messages, and the links of the ports (R461 to R464). -/

namespace Sys2Proof.Machine

/-! Timing of a pipe. -/

/-- Whether a pipe scans now: it is active and awake, or a showcase pipe (R265, R427). -/
def Dev.pipeRuns (d : Dev) (p : Nat) : Bool :=
  (d.pt p).active && d.boot.stage = .ready && d.freeze.at_.isNone && !d.board.sysRstLow &&
    (d.runs 10 || (bit d.power.showcase p && d.power.state ≠ .standby && d.power.state ≠ .active))

/-- The end of the last active line of the frame that a pipe scans, exactly and as a stamp. -/
def Dev.activeEndAt (d : Dev) (p : Nat) : Option Rat := (d.pt p).firstLine.map (fun _ => d.lineInstant p (d.timing p).vact)
def Dev.activeEnd (d : Dev) (p : Nat) : Option Nat := d.lineAt p (d.timing p).vact

/-- The origin of the predicted instants of a pipe in command mode (R295, R464). -/
def Dev.teBase (d : Dev) (p : Nat) : Nat := ((d.pt p).teLast).getD (((d.pt p).relinkUp).getD (((d.pt p).lastVb).getD 0))

/-- The predicted VBLANK instant while TE is lost (R295): the first one, whole frame periods after the origin, neither before the end of the
transfer nor before TE_LOST. -/
def Dev.predicted (d : Dev) (p : Nat) (e : Rat) : Rat :=
  let base : Rat := (d.teBase p : Nat)
  let period := d.frameNs p
  base + max 1 ((max e (d.pt p).teLostAt - base) / period).ceil * period

/-- The exact instant of a pipe's next VBLANK, once it is fixed (R277, R294, R295). -/
def Dev.vblankAt (d : Dev) (p : Nat) : Option Rat :=
  let x := d.pt p
  match d.activeEndAt p with
  | none => none
  | some e =>
    if d.dsiCmd p then
      if x.teMissing then some (d.predicted p e)
      else (match x.teLast, x.lastVb with | some l, some v => if v < l then some (max (l : Rat) e) else none | _, _ => none)
    else if d.adaptive p then x.hold.map (fun k => d.lineInstant p ((d.timing p).vact + k))
    else some e

/-- Whether VBLANK of a pipe falls at an instant (R40, R277). -/
def Dev.vblankDue (d : Dev) (p t : Nat) : Bool := match d.vblankAt p with | some v => near t (stampOf v) | none => false

/-! VBLANK. -/

/-- Whether a commit waits for VBLANK of pipe p at instant t. -/
def Commit.dueAt (c : Commit) (p t : Nat) : Bool := c.point = 1 && c.pipe = p && decide (c.time + 2000 ≤ t)

/-- Whether a commit writes words of an object of a pipe: any of R287's classes, or the layout and slots alone. -/
def Commit.touchesPipe (c : Commit) (p : Nat) : Bool :=
  c.writes.any (fun x => (keyCls x.1 = 1 && keyInst x.1 = p) || (keyCls x.1 = 2 && keyInst x.1 = p) || (keyCls x.1 = 3 && keyInst x.1 / 16 = p) ||
    (keyCls x.1 = 4 && keyInst x.1 / 4 = p))
def Commit.touchesLayers (c : Commit) (p : Nat) : Bool :=
  c.writes.any (fun x => (keyCls x.1 = 2 && keyInst x.1 = p) || (keyCls x.1 = 3 && keyInst x.1 / 16 = p))

/-- A condition that ends an adaptive hold, or a self-refresh, at an instant (R287, R288). -/
def Dev.holdEnds (d : Dev) (p t : Nat) : Bool :=
  d.commits.any (fun c => c.dueAt p t && c.touchesPipe p) || (d.pc p).presents.any (fun w => w.frame.isNone && decide (w.at_ + 2000 ≤ t)) ||
    d.disp.flips.any (fun w => w.pipe = p && w.frame.isNone && decide (w.at_ + 2000 ≤ t))

/-- FLIPs that become due at VBLANK n of pipe p at v, and those that a later one of the same function supersedes (R281). -/
def Dev.dueFlips (l : List FlipWait) (p n v : Nat) : List FlipWait × List (OpId × Nat) :=
  let due := l.filter (fun w => w.pipe = p && w.frame.isNone && decide (w.at_ + 2000 ≤ v))
  let last (w : FlipWait) : Option FlipWait := (due.filter (fun u => u.fn = w.fn)).getLast?
  (l.filterMap (fun w =>
    if due.any (fun u => u.id = w.id) then (match last w with | some u => if u.id = w.id then some { w with frame := some n } else none | none => some w) else some w),
   due.filterMap (fun w => match last w with | some u => if u.id = w.id then none else some (w.id, u.id.acc) | none => none))

/-- Whether a plane of a pipe has CHECK 1 (R288). -/
def Dev.checked (d : Dev) (p : Nat) : Bool := (List.range 4).any (fun i => bit (d.obj 0x04 (4 * p + i) 1) 0 && bit (d.obj 0x04 (4 * p + i) 1) 2)

/-- Whether the frame that ends was one of those that lead to self-refresh (R288). -/
def Dev.quietFrame (d : Dev) (p t : Nat) : Bool := !d.holdEnds p t && (d.pc p).mode ≠ 2 && (d.pc p).current.isNone && !d.checked p

/-- Self-refresh at a VBLANK (R288): quiet frames count; a condition, or a plane checked from now on, ends it. -/
def Dev.refreshStep (d : Dev) (p : Nat) (quiet : Bool) : Dev :=
  let x := d.pt p
  let n := if quiet then x.quiet + 1 else 0
  d.setPt p { x with quiet := n, selfRefresh := bit (d.obj 0x01 p 1) 13 && quiet && !d.checked p && (d.pc p).mode ≠ 2 && (x.selfRefresh || decide (2 ≤ n)) }

/-- An offset of N by RANGE, to correct an error in ns from the VBLANK instant on (R293). -/
def Dev.startOffset (d : Dev) (p : Nat) (e : Rat) : Dev :=
  let x := d.pt p
  let n := d.nominalInc p
  let r := rangePpm (d.obj 0x01 p 3)
  let step := roundDiv 0 false (n * r) 1000000
  d.setPt p
    { x.retune x.mark (if e < 0 then n - step else n + step) with
      offsetWant := none, offsetUntil := some (x.mark + (if e < 0 then -e else e) * 1000000 / (r : Nat)) }

/-- A slip takes effect on the frame that begins; a correction by offset begins once no slip is left (R293). -/
def Dev.alignStep (d : Dev) (p : Nat) : Dev :=
  let x := d.pt p
  let d1 := d.setPt p { x with slipLines := x.slipNext, slipNext := 0 }
  if x.slipNext ≠ 0 then d1 else match x.offsetWant with | some e => d1.startOffset p e | none => d1

/-- What a VBLANK publishes, with the frame that it begins (R242 to R249, R263, R288, R293, R296). -/
def Dev.vblankPublish (p n t : Nat) (dirty quiet : Bool) (d : Dev) : Dev :=
  if !(d.pt p).active then d.publishPipe p
  else
    let d1 := (((d.alignStep p).frameBegin p n t dirty).refreshStep p quiet)
    let d2 := (d1.setPt p { d1.pt p with ltMin := (d1.pt p).ltNow, ltNow := 16777215, late := false }).noteLt p
    d2.publishPipe p

/-- Whether a pipe puts out SHOWCASE's picture in the frame that begins (R427, R431, R433): from the first VBLANK of the entry to
the first one after the return whose composition is ready. -/
def Dev.showcaseNow (d : Dev) (p : Nat) : Bool :=
  let wanted := bit d.power.showcase p && (d.power.state = .showcase || (match d.power.entry with | some e => e.deep || e.target = 1 | none => false))
  wanted || ((d.pt p).showcase && (match (d.pc p).current with | some c => c.doneAt.isNone | none => false))

/-- The first VBLANK of a pipe that has just started (R281, R461): what it publishes, once the commits of the instant have applied. -/
def Dev.firstVblank (d : Dev) (p : Nat) : Dev :=
  let n := (d.pt p).frame.toNat
  let (flips, old) := Dev.dueFlips d.disp.flips p n d.now
  let d1 := d.setPt p { d.pt p with showcase := d.showcaseNow p }
  ((({ d1 with disp := { d1.disp with flips := flips } } : Dev).dropSlots p).vblankPublish p n d.now true false).supersede old

/-- The pipes that have started since a state of the device begin their first frame. -/
def Dev.beginStarted (d0 d : Dev) : Dev := (indices 12 (fun p => (d.pt p).active && !(d0.pt p).active)).foldl Dev.firstVblank d

/-- VBLANK of pipe p, stamped t (R27, R113, R227, R247 to R249, R258, R263, R277, R281, R293, R503). -/
def Dev.vblankStep (d0 : Dev) (p t : Nat) : Dev :=
  let d := ((d0.tick t).missOverdue p).vitrineScan p
  let x := d.pt p
  let n := (x.frame + 1).toNat
  let v := (d.vblankAt p).getD (t : Nat)
  let d1 := (d.setPt p { x.anchor v with frame := x.frame + 1, lastVb := some t, firstLine := none, hold := none, showcase := d.showcaseNow p }).occur 1 p
  let due (c : Commit) : Bool := c.dueAt p t && d.power.state ≠ .showcase
  let quiet := d1.quietFrame p t
  let dirty := d1.commits.any (fun c => due c && c.touchesLayers p)
  let (flips, old) := Dev.dueFlips d1.disp.flips p n t
  let forced := d1.safety.force ||| (d1.safety.forceWanted &&& BitVec.ofNat 12 (2 ^ p))
  let wanted := d1.safety.forceWanted &&& ~~~(BitVec.ofNat 12 (2 ^ p))
  let d2 : Dev := { d1 with disp := { d1.disp with flips := flips }, safety := { d1.safety with force := forced, forceWanted := wanted } }
  (((d2.dropSlots p).applyDue due (Dev.vblankPublish p n t dirty quiet)).supersede old).pipeEvent p 0

/-- VBLANK (R277). -/
def execVblank (p : Fin 12) (at_ : Nat) (s : State) : Host.Outcome State Fault Refusal :=
  run (fun d => if d.pipeRuns p.val && decide (d.now ≤ at_) && d.vblankDue p.val at_ then (d.ensureFrame p.val).vblankStep p.val at_ else d) s

/-! The first active line. -/

/-- Whether the frame that a pipe scans is dark (R278, R297): its link is not UP, or came UP less than 2,000 ns before its VBLANK. -/
def Dev.frameDark (d : Dev) (p : Nat) : Bool :=
  let x := d.pt p
  (d.dport (d.pipePort p)).link ≠ 2 || (match x.relinkUp, x.lastVb with | some u, some v => decide (v < u + 2000) | _, _ => false)

/-- Whether an applied plane of a pipe has ENABLE and MUST_SHOW (R301). -/
def Dev.mustShowNow (d : Dev) (p : Nat) : Bool := (List.range 4).any (fun i => bit (d.obj 0x04 (4 * p + i) 1) 0 && bit (d.obj 0x04 (4 * p + i) 1) 1)

/-- LINK_DARK for a pipe with a plane that must be shown (R301). -/
def Dev.linkDark (d : Dev) (p : Nat) : Dev :=
  let q := d.pipePort p
  if d.mustShowNow p then d.smRecord 0x18 (locusEngine 0x05 (portEngine q)) none (d.dport q).link.toNat p else d

/-- FLIPs of a pipe at a flip stamp (R278, R281): complete, or carry LATE on. -/
def Dev.completeFlips (d : Dev) (p n stamp : Nat) (dark : Bool) : Dev :=
  let here (w : FlipWait) : Bool := w.pipe = p && (match w.frame with | some k => decide (k ≤ n) | none => false)
  if dark then { d with disp := { d.disp with flips := d.disp.flips.map (fun w => if here w then { w with late := true } else w) } }
  else
    let done := d.disp.flips.filter here
    let d1 : Dev := { d with disp := { d.disp with flips := d.disp.flips.filter (fun w => !here w) } }
    done.foldl (fun d w => d.endOp w.id 0 (some stamp) (fun o => { o with late := w.late })) d1

/-- The first active line of the frame that pipe p scans, at t (R224, R228, R278, R301). -/
def Dev.firstLineStep (d : Dev) (p t : Nat) : Dev :=
  let x := d.pt p
  let dark := d.frameDark p
  let n := x.frame.toNat
  let wasDark := match ((d.pc p).frames.filter (fun f => f.stamp.isSome)).getLast? with | some f => f.dark | none => false
  let d1 := (d.tick t).setPt p
    { x with
      stampedFrame := x.frame, flipStamp := BitVec.ofNat 64 t, firstLine := some t
      darkFrames := if dark then satInc x.darkFrames else x.darkFrames }
  let d2 := (d1.frameStamp p t dark).completeFlips p n t dark
  let link := (d2.dport (d2.pipePort p)).link
  if !dark then (d2.pipeEvent p 1).occur 2 p
  else if link = 3 || link = 4 || wasDark then d2
  else d2.linkDark p

/-- FIRST_ACTIVE_LINE (R278). -/
def execFirstActiveLine (p : Fin 12) (at_ : Nat) (s : State) : Host.Outcome State Fault Refusal :=
  run (fun d0 =>
    let d := ((d0.tick at_).ensureFrame p.val).missOverdue p.val
    match d.scanStart p.val with
    | some t =>
      if d.pipeRuns p.val && (d.pt p.val).firstLine.isNone && decide (d0.now ≤ at_) && near at_ t then d.firstLineStep p.val at_ else d0
    | none => d0) s

/-- The stamp of the line boundary at which an adaptive hold has lasted k lines, and whether the hold may end there (R287). -/
def Dev.holdLine (d : Dev) (p k : Nat) : Nat := stampOf (d.lineInstant p ((d.timing p).vact + k))
def Dev.holdLimit (d : Dev) (p k : Nat) : Bool := d.holdEnds p (d.holdLine p k) || decide (fld (d.obj 0x01 p 4) 26 14 ≤ k)

/-- ADAPTIVE_HOLD_END (R287): the first line boundary at which a condition holds. -/
def execAdaptiveHoldEnd (p : Fin 12) (at_ : Nat) (s : State) : Host.Outcome State Fault Refusal :=
  run (fun d =>
    match d.activeEndAt p.val with
    | none => d
    | some e =>
      let k := stampOf (((at_ : Rat) - e) / pixelsNs ((d.timing p.val).htotal : Nat) (d.pt p.val).inc.toNat)
      if d.pipeRuns p.val && d.adaptive p.val && (d.pt p.val).hold.isNone && decide (d.now ≤ at_) && near at_ (d.holdLine p.val k) && d.holdLimit p.val k &&
          (k = 0 || !d.holdLimit p.val (k - 1)) then
        (d.tick at_).setPt p.val { d.pt p.val with hold := some k }
      else d) s

/-! FLIP and mode entries. -/

/-- FLIP (R280, R281): it waits for its VBLANK. -/
def execFlip (id : OpId) (s : State) : Host.Outcome State Fault Refusal :=
  run (fun d =>
    match d.activeOp id 4 1 with
    | none => d
    | some o =>
      let p := fld (o.word 0) 0 4
      if !d.runs 10 then d
      else if fld (o.word 0) 4 68 ≠ 0 || 11 < p then d.finish id 0x10 none
      else if !d.seesPipe o.fn p then d.finish id 0x11 none
      else if d.disp.flips.any (fun w => w.id = id) then d
      else { d with disp := { d.disp with flips := d.disp.flips ++ [{ id := id, fn := o.fn, pipe := p, at_ := o.due, frame := none, late := false }] } }) s

/-- MODE_READ (R282). -/
def execModeRead (id : OpId) (s : State) : Host.Outcome State Fault Refusal :=
  run (fun d =>
    match d.activeOp id 4 2 with
    | none => d
    | some o =>
      if !d.runs 10 then d
      else if fld (o.word 0) 10 62 ≠ 0 || fld (o.word 1) 48 24 ≠ 0 then d.finish id 0x10 none
      else
        let e := d.modeEntry (fld (o.word 0) 0 10)
        match d.writeWords o.fn (fld (o.word 1) 0 48) (if bit (nth e 0 0) 71 then (List.range 4).map (fun i => nth e i 0) else [0, 0, 0, 0]) with
        | (d1, .ok _) => d1.finish id 0 none
        | (d1, .error (cause, va)) => d1.opFault id o.fn cause va) s

/-- Whether an applied or pending PIPE_TIMING names a mode (R283). -/
def Dev.modeNamed (d : Dev) (m : Nat) : Bool :=
  (List.range 12).any (fun p => fld (d.obj 0x01 p 1) 20 10 = m) || d.commits.any (fun c => c.writes.any (fun x => keyCls x.1 = 1 && keyWord x.1 = 1 && fld x.2 20 10 = m))

/-- VESA CVT 2.0 reduced blanking version 2 (R283): 80 pixels of horizontal blanking, at least 460 us of vertical blanking, 8 lines of sync and 6 of
back porch, a clock in steps of 1 kHz. None where the result must break R272: a frame rate far above 240 Hz, or a clock above 1.5 GHz. -/
def cvtRb2 (width height millihertz ports : Nat) : Option (List W72) :=
  if millihertz = 0 ∨ 1000000 < millihertz then none
  else
    let vblank := Nat.max 15 (460 * height * millihertz / (1000000000 - 460 * millihertz) + 1)
    let pclk := millihertz * (width + 80) * (height + vblank) / 1000000 * 1000
    if 1500000000 < pclk then none
    else
      some [BitVec.ofNat 72 (2 ^ 71 + 2 * 2 ^ 68 + ports * 2 ^ 64 + pclk * 2 ^ 32 + (width - 1) * 2 ^ 18 + (height - 1) * 2 ^ 4 + 8),
            BitVec.ofNat 72 (8 * 2 ^ 42 + 32 * 2 ^ 28 + 40 * 2 ^ 14), BitVec.ofNat 72 ((vblank - 14) * 2 ^ 42 + 8 * 2 ^ 28 + 6 * 2 ^ 14), 0]

/-- The entry that a MODE_DEFINE defines (R283): none for a reserved kind or a reserved bit. -/
def definedEntry (o : Op) : Option (List W72) :=
  match fld (o.word 0) 70 2 with
  | 0 =>
    let l := o.desc.drop 1
    if entryBitsOk l then some (setFld (nth l 0 0) 68 3 4 :: l.drop 1) else none
  | 1 =>
    let w := o.word 1
    if fld w 60 12 ≠ 0 || o.word 2 ≠ 0 || o.word 3 ≠ 0 || o.word 4 ≠ 0 || bit w 59 then none
    else
      cvtRb2 (fld w 0 14 + 1) (fld w 14 14 + 1) (fld w 28 28) (fld w 56 3)
  | _ => none

/-- MODE_DEFINE (R280, R283). -/
def execModeDefine (id : OpId) (s : State) : Host.Outcome State Fault Refusal :=
  run (fun d =>
    match d.activeOp id 4 3 with
    | none => d
    | some o =>
      let m := fld (o.word 0) 0 10
      if !d.runs 10 then d
      else if o.fn ≠ d.manager then d.finish id 0x11 none
      else
        match definedEntry o with
        | none => d.finish id 0x10 none
        | some e =>
          let t := timingOf e
          if fld (o.word 0) 10 60 ≠ 0 || m < 0x240 || 0x280 ≤ m || !t.ok || d.modeNamed m then d.finish id 0x10 none
          else ({ d with disp := { d.disp with modes := tset d.disp.modes m e } } : Dev).finish id 0 (some t.pclk)) s

/-! PORT_MSG (R284). -/

/-- Whether a PORT_MSG descriptor is in range: the kind fits the class of the port, and nothing reserved is set. -/
def portMsgOk (o : Op) : Bool :=
  let w := o.word 0
  let kind := fld w 68 4
  let q := fld w 64 4
  let len := fld w 56 8
  let addr := fld w 28 20
  let cls := if kind ≤ 3 then 0 else if kind ≤ 6 then 2 else 1
  let i2c := kind = 2 || kind = 3 || kind = 7 || kind = 8
  kind ≤ 8 && q ≤ 11 && q / 4 = cls && 1 ≤ len && len ≤ 16 && fld w 0 28 = 0 && fld (o.word 1) 48 24 = 0 && (!i2c || !bit w 55) &&
    (2 ≤ kind || fld w 48 8 = 0) && (kind ≤ 1 || (if 4 ≤ kind && kind ≤ 6 then decide (addr < 4) else addr = 0)) &&
    !(kind = 0 && decide (addr < 0x200) && decide (0x100 < addr + len))

/-- Whether a kind reads from the sink. -/
def msgReads (kind : Nat) : Bool := kind = 1 || kind = 3 || kind = 6 || kind = 8

/-- Whether a function may send on a port (R280). -/
def Dev.mayMessage (d : Dev) (f q : Nat) : Bool := f = d.manager || (List.range 12).any (fun p => d.pipePort p = q && d.owner 0x01 p = f)

/-- PORT_MSG (R280, R284): one transaction at a time on a port, none while its link trains. -/
def execPortMsg (id : OpId) (s : State) : Host.Outcome State Fault Refusal :=
  runOp id (fun d =>
    match d.activeOp id 4 4 with
    | none => d
    | some o =>
      let q := fld (o.word 0) 64 4
      let busy := d.disp.msgs.any (fun m => match d.op m.1 with | some x => fld (x.word 0) 64 4 = q | none => false)
      if !d.runs 10 || d.disp.msgs.any (fun m => m.1 = id) then d
      else if !portMsgOk o then d.finish id 0x10 none
      else if !d.mayMessage o.fn q then d.finish id 0x11 none
      else if (d.dport q).link = 0 || (decide (q < 4) && !(d.dport q).hpd) then d.finish id 0x12 none
      else if busy || (d.dport q).link = 1 then d
      else
        let send (d : Dev) : Dev := { d with disp := { d.disp with msgs := d.disp.msgs ++ [(id, d.now, 7)] } }
        if msgReads (fld (o.word 0) 68 4) then send d
        else
          match d.readV o.fn (fld (o.word 1) 0 48) (fld (o.word 0) 56 8) .read with
          | (d1, .error (cause, va)) => d1.opFault id o.fn cause va
          | (d1, .ok _) => send d1) s

/-- A message is over. -/
def Dev.endMsg (d : Dev) (id : OpId) : Dev := { d with disp := { d.disp with msgs := d.disp.msgs.filter (fun m => m.1 ≠ id) } }

/-- PORT_MSG_TIMEOUT (R284): no reply within 10 ms. -/
def execPortMsgTimeout (id : OpId) (at_ : Nat) (s : State) : Host.Outcome State Fault Refusal :=
  run (fun d =>
    match d.disp.msgs.find? (fun m => m.1 = id) with
    | some (_, t, _) => if d.awake && decide (t + 10000000 ≤ Nat.max d.now at_) then ((d.tick at_).endMsg id).endOp id 0x12 none (fun o => o) else d
    | none => d) s

/-- SIDEBAND_REPLY (R284): the operation completes, or a DEFER is retried. -/
def execSidebandReply (id : OpId) (reply : SideReply) (s : State) : Host.Outcome State Fault Refusal :=
  runOp id (fun d =>
    match d.disp.msgs.find? (fun m => m.1 = id), d.op id with
    | some (_, _, left), some o =>
      let q := fld (o.word 0) 64 4
      let len := fld (o.word 0) 56 8
      let reads := msgReads (fld (o.word 0) 68 4)
      let d1 := d.endMsg id
      if !d.awake then d
      else if !o.active then d1
      else
        match reply with
        | .ack data =>
          let bytes := data.take len
          if reads then
            match d1.writeV o.fn (fld (o.word 1) 0 48) bytes with
            | (d2, .error (cause, va)) => d2.opFault id o.fn cause va
            | (d2, .ok _) => d2.finish id 0 (some bytes.length)
          else d1.finish id 0 (some len)
        | .nack => d1.finish id 0 (some 0x100)
        | .defer =>
          if left = 0 then d1.finish id 0 (some 0x200)
          else { d with disp := { d.disp with msgs := d.disp.msgs.map (fun m => if m.1 = id then (id, d.now, left - 1) else m) } }
        | .dsiError report =>
          (d1.setDport q { d1.dport q with irqs := satInc (d1.dport q).irqs }).finish id 0 (some (report.toNat * 2 ^ 16 + 0x300 + (if reads then 0 else len)))
    | _, _ => d) s

/-! Genlock (R289 to R293). -/

/-- RATIO and Pn of a pipe (R290), in ns. -/
def Dev.glkRatio (d : Dev) (p : Nat) : Nat := 2 ^ fld (d.obj 0x01 p 3) 43 2
def Dev.pn (d : Dev) (p : Nat) : Rat := (d.glkRatio p : Nat) * d.frameNs p

/-- The absolute value of a rational. -/
def absRat (x : Rat) : Rat := if x < 0 then -x else x

/-- Whether a period measured in 1/64 ns is in range (R290). -/
def Dev.inRange (d : Dev) (p period : Nat) : Bool :=
  decide (absRat ((period : Rat) / 64 - d.pn p) * 1000000 ≤ d.pn p * (rangePpm (d.obj 0x01 p 3) : Nat))

/-- x modulo n, and the representative of x nearest to zero. -/
def modRat (x n : Rat) : Rat := if n = 0 then 0 else x - n * (x / n).floor
def centred (x n : Rat) : Rat := modRat (x + n / 2) n - n / 2

/-- The target that a frame edge sets, and the phase error of the pipe's last VBLANK instant against the nearest target (R290), in ns. -/
def Dev.target (d : Dev) (p edge : Nat) : Rat := (edge : Rat) / 64 + toSigned 14 (fld (d.obj 0x01 p 3) 25 14) * d.lineNs p
def Dev.phase (d : Dev) (p edge : Nat) : Rat := centred ((d.pt p).vbAt - d.target p edge) (d.frameNs p)

/-- Alignment begins (R293): by offset alone when the error is within 2 lines, else a slip of whole lines first. -/
def Dev.align (d : Dev) (p edge : Nat) : Dev :=
  let x := d.pt p
  let frame := d.frameNs p
  let line := d.lineNs p
  let delta := modRat (d.target p edge - d.lineInstant p (d.timing p).vact) frame
  if delta ≤ 2 * line then d.setPt p { x with glk := 2, offsetWant := some (-delta), slipNext := 0 }
  else if frame - delta ≤ 2 * line then d.setPt p { x with glk := 2, offsetWant := some (frame - delta), slipNext := 0 }
  else d.setPt p { x with glk := 2, offsetWant := some (-(modRat delta line)), slipNext := (delta / line).floor.toNat }

/-- The nearest whole increment (R276: N varies in steps of 1). -/
def wholeInc (n : Rat) : Nat := (n + 1 / 2).floor.toNat

/-- LOCKED is left at an instant (R292): N is held at the loop's frequency state. -/
def Dev.holdover (d : Dev) (p : Nat) (t : Rat) : Dev :=
  let x := d.pt p
  (d.setPt p { x.retune t (wholeInc x.held) with glk := 4, good := 0, bad := 0, missPhase := 0 }).pipeEvent p 3

/-- The loop of R291 at a frame edge, of phase error e in ns, `dt` ns after the one before: of second order, with damping 0.7 and a natural frequency
that the code of BW fixes. The frequency state and the increment stay within RANGE of the nominal increment. -/
def Dev.loopStep (d : Dev) (p edge : Nat) (e dt : Rat) : Dev :=
  let x := d.pt p
  let n : Rat := (d.nominalInc p : Nat)
  let w : Rat := (Config.loopFrequency (fld (d.obj 0x01 p 3) 39 2) : Nat) / 1000000
  let held := d.clampInc p (x.held + n * w * w * (e / 1000000000) * (dt / 1000000000))
  let inc := d.clampInc p (held + n * (7 / 5) * w * (e / 1000000000))
  d.setPt p { x.retune ((edge : Rat) / 64) (wholeInc inc) with held := held }

/-- A frame edge at one pipe, in 1/64 ns (R291, R292). -/
def Dev.pipeEdge (d : Dev) (p edge : Nat) : Dev :=
  let x := d.pt p
  let period := x.lastEdge.map (fun l => edge - l)
  let good := match period with | some t => d.inRange p t | none => false
  let e := d.phase p edge
  let x1 : PipeTime :=
    { x with
      lastEdge := some edge, phaseErr := BitVec.ofInt 24 (clampI (-(2 ^ 23)) (2 ^ 23 - 1) (e + 1 / 2).floor)
      glkPeriod := match period with | some t => BitVec.ofNat 40 t | none => x.glkPeriod
      good := if good then x.good + 1 else 0, bad := if good || period.isNone then 0 else x.bad + 1 }
  let d1 := d.setPt p x1
  match x.glk.toNat with
  | 1 => if 8 ≤ x1.good then d1.align p edge else d1
  | 4 => if 8 ≤ x1.good then d1.align p edge else d1
  | 2 =>
    if absRat e ≤ 500 then
      (d1.setPt p { x1.retune ((edge : Rat) / 64) (d1.nominalInc p) with
        glk := 3, held := (d1.nominalInc p : Nat), offsetWant := none, offsetUntil := none, slipNext := 0, missPhase := 0, bad := 0 }).pipeEvent p 4
    else if x1.offsetWant.isNone && x1.offsetUntil.isNone && x1.slipNext = 0 then d1.align p edge
    else d1
  | 3 =>
    let miss := if 8 * d.lineNs p < absRat e then x.missPhase + 1 else 0
    let d2 := d1.setPt p { x1 with missPhase := miss }
    if 3 ≤ x1.bad || 4 ≤ miss then d2.holdover p ((edge : Rat) / 64)
    else d2.loopStep p edge e ((period.getD 0 : Nat) / 64)
  | _ => d1

/-- Whether a pipe has TIMING 1 and GLK input g applied (R302), and whether it runs by it. -/
def Dev.selects (d : Dev) (p g : Nat) : Bool := d.locked p && fld (d.obj 0x01 p 3) 47 1 = g
def Dev.follows (d : Dev) (p g : Nat) : Bool := d.pipeRuns p && bit (d.obj 0x01 p 1) 31 && d.selects p g

/-- What an edge of a GLK pulse is to GLK_TYPE and GLK_POL of a PIPE_TIMING word 3 (R289): a frame edge, or a line pulse. Widths in 1/64 ns. -/
def isFrameEdge (w3 : W72) (width64 : Nat) (falling : Bool) : Bool := falling = bit w3 45 && decide ((if bit w3 46 then 192000 else 6400) ≤ width64)
def isLinePulse (w3 : W72) (width64 : Nat) (falling : Bool) : Bool := falling = bit w3 45 && bit w3 46 && decide (6400 ≤ width64) && decide (width64 < 192000)

/-- PIPE_TIMING word 3 by which an input measures for its own registers: that of the lowest pipe that selects it, else reset values. -/
def Dev.glkWord (d : Dev) (g : Nat) : W72 := match (List.range 12).find? (fun p => d.selects p g) with | some p => d.obj 0x01 p 3 | none => 0

/-- An input after an edge (R289, R302): line pulses measure between 10 and 200 kHz. -/
def GlkIn.edge (x : GlkIn) (w3 : W72) (at64 width64 : Nat) (falling : Bool) : GlkIn :=
  if isFrameEdge w3 width64 falling then
    { x with period := (match x.lastEdge with | some l => BitVec.ofNat 40 (at64 - l) | none => x.period), lastEdge := some at64 }
  else if isLinePulse w3 width64 falling then
    { x with
      lastLine := some at64
      linePeriod := match x.lastLine with | some l => if 320000 ≤ at64 - l ∧ at64 - l ≤ 6400000 then some (at64 - l) else x.linePeriod | none => x.linePeriod }
  else x

/-- A GLK input. -/
def Dev.glkIn (d : Dev) (g : Nat) : GlkIn := tget d.disp.glks g { period := 0, lastEdge := none, lastLine := none, linePeriod := none }

/-- GLK_FRAME_EDGE (R289 to R293, R302): an edge of a pulse of that width, stamped with the resolution of 156.25 ps. -/
def execGlkFrameEdge (g : Fin 2) (at64 : Nat) (pulse : GlkPulse) (s : State) : Host.Outcome State Fault Refusal :=
  run (fun d =>
    let edge := at64 / 10 * 10
    let x := d.glkIn g.val
    if !d.awake || pulse.width64 < 1280 || edge + 128 < 64 * d.now || (match x.lastEdge with | some l => decide (edge ≤ l) | none => false) then d
    else
      let d1 := d.tick ((edge + 32) / 64)
      let d2 : Dev := { d1 with disp := { d1.disp with glks := tset d1.disp.glks g.val (x.edge (d1.glkWord g.val) edge pulse.width64 pulse.falling) } }
      (List.range 12).foldl (fun d p => if d.follows p g.val && isFrameEdge (d.obj 0x01 p 3) pulse.width64 pulse.falling then d.pipeEdge p edge else d) d2) s

/-- The instant at which the frame edge that follows edge l is missed (R292). -/
def Dev.edgeLimit (d : Dev) (p l : Nat) : Rat := (l : Rat) / 64 + 5 / 4 * d.pn p

/-- GLK_EDGE_TIMEOUT (R292). -/
def execGlkEdgeTimeout (p : Fin 12) (at_ : Nat) (s : State) : Host.Outcome State Fault Refusal :=
  run (fun d =>
    match (d.pt p.val).lastEdge with
    | some l =>
      if d.pipeRuns p.val && (d.pt p.val).glk = 3 && decide (stampOf (d.edgeLimit p.val l) ≤ Nat.max d.now at_) then
        (d.tick at_).holdover p.val (d.edgeLimit p.val l)
      else d
    | none => d) s

/-- OFFSET_CORRECTION_END (R293). -/
def execOffsetCorrectionEnd (p : Fin 12) (at_ : Nat) (s : State) : Host.Outcome State Fault Refusal :=
  run (fun d =>
    match (d.pt p.val).offsetUntil with
    | some t =>
      if d.pipeRuns p.val && near at_ (stampOf t) then
        (d.tick at_).setPt p.val { (d.pt p.val).retune t (d.nominalInc p.val) with offsetUntil := none }
      else d
    | none => d) s

/-! Tearing-effect inputs (R294, R295, R464). -/

/-- A qualified edge at one pipe: the state after it. -/
def Dev.teQualified (d : Dev) (p t : Nat) : Dev :=
  let x := d.pt p
  let period := d.framePeriod p
  let regained := match x.teLast with | some l => decide (9 * period ≤ 10 * (t - l)) && decide (10 * (t - l) ≤ 11 * period) | none => false
  (d.tick t).setPt p { x with tePrev := x.teLast, teLast := some t, teMissing := x.teMissing && !regained }

/-- Whether an edge counts at a pipe: half the frame period after the last one, and no transfer in progress (R294). -/
def Dev.teCounts (d : Dev) (p t : Nat) (falling : Bool) : Bool :=
  let x := d.pt p
  let apart := match x.teLast with | some l => decide (d.framePeriod p ≤ 2 * (t - l)) | none => true
  let sending := match d.activeEnd p with | some e => decide (t < e) | none => false
  d.pipeRuns p && d.dsiCmd p && (d.dport (d.pipePort p)).link = 2 && falling = bit (d.obj 0x01 p 4) 23 && apart && (x.teMissing || !sending)

/-- TE_EDGE (R294, R295). -/
def execTeEdge (t : Fin 4) (at_ widthNs : Nat) (falling : Bool) (s : State) : Host.Outcome State Fault Refusal :=
  run (fun d =>
    if widthNs < 1000 || decide (at_ < d.now) then d
    else (List.range 12).foldl (fun d p => if fld (d.obj 0x01 p 4) 24 2 = t.val && d.teCounts p at_ falling then d.teQualified p at_ else d) d) s

/-- TE_LOST (R295, R464). -/
def execTeLost (p : Fin 12) (at_ : Nat) (s : State) : Host.Outcome State Fault Refusal :=
  run (fun d =>
    if d.pipeRuns p.val && d.dsiCmd p.val && !(d.pt p.val).teMissing && (d.dport (d.pipePort p.val)).link = 2 &&
        decide (2 * d.teBase p.val + 3 * d.framePeriod p.val ≤ 2 * Nat.max d.now at_) then
      ((d.tick at_).setPt p.val { d.pt p.val with teMissing := true, teLostAt := Nat.max d.now at_ }).pipeEvent p.val 2
    else d) s

/-! Links (R300, R301, R462, R463). -/

/-- A port enters DOWN or FAILED. -/
def Dev.linkOut (d : Dev) (q : Nat) (state : BitVec 3) (x : DispPort) : Dev :=
  let d1 := d.setDport q { x with link := state, trainFrom := d.now }
  match d1.portPipe q with
  | some p => d1.linkDark p
  | none => d1

/-- An attempt to train begins. -/
def DispPort.train (x : DispPort) (now : Nat) : DispPort := { x with link := 1, trainFrom := now, initStep := 0, initFails := 0, initDue := now }

/-- HPD_IRQ (R300). -/
def execHpdIrq (q : Fin 12) (lowNs : Nat) (linkGood : Bool) (s : State) : Host.Outcome State Fault Refusal :=
  run (fun d =>
    let x := d.dport q.val
    if !d.awake || 4 ≤ q.val || lowNs < 250000 || 2000000 < lowNs then d
    else
      let y := { x with irqs := satInc x.irqs }
      d.setDport q.val (if x.link = 2 && !linkGood then y.train d.now else y)) s

/-- Whether a cause of loss belongs to the class of a port. -/
def lossFits (q : Nat) (c : LossCause) : Bool := match c with | .hpdLow => decide (q < 4) | .lockLost => q / 4 = 1 | .busContention => q / 4 = 2

/-- LINK_LOSS (R300, R301). -/
def execLinkLoss (q : Fin 12) (cause : LossCause) (at_ : Nat) (s : State) : Host.Outcome State Fault Refusal :=
  run (fun d =>
    if !d.awake || !lossFits q.val cause then d
    else
      let d1 := d.tick at_
      let x0 := d1.dport q.val
      let x := { x0 with hpd := x0.hpd && cause ≠ .hpdLow, irqs := if cause = .busContention then satInc x0.irqs else x0.irqs }
      if x.link = 1 || x.link = 2 then d1.linkOut q.val 3 { x with losses := satInc x.losses, tries := 0 } else d1.setDport q.val x) s

/-- LINK_RETRY (R300, R462): HPD rises, or a retry timer runs out. -/
def execLinkRetry (q : Fin 12) (at_ : Nat) (s : State) : Host.Outcome State Fault Refusal :=
  run (fun d =>
    let x := d.dport q.val
    let t := Nat.max d.now at_
    if !d.awake then d
    else if q.val < 4 && !x.hpd then
      let y := { x with hpd := true }
      (d.tick at_).setDport q.val (if x.link = 1 || x.link = 3 || x.link = 4 then y.train t else y)
    else if (x.link = 4 && decide (x.trainFrom + 1000000000 ≤ t)) || (x.link = 3 && decide (4 ≤ q.val) && decide (x.trainFrom + 100000000 ≤ t)) then
      (d.tick at_).setDport q.val (x.train t)
    else d) s

/-- LINK_TRAINING_FAILED (R300): DPX tries again at once, the others after their timer; the third failure gives FAILED. -/
def execLinkTrainingFailed (q : Fin 12) (at_ : Nat) (s : State) : Host.Outcome State Fault Refusal :=
  run (fun d =>
    let x := d.dport q.val
    if !d.awake || x.link ≠ 1 || (decide (q.val < 4) && !x.edp && !x.hpd) then d
    else
      let d1 := d.tick at_
      let y := { x with tries := x.tries + 1 }
      if 3 ≤ y.tries then d1.linkOut q.val 4 y
      else if q.val < 4 then d1.setDport q.val (y.train d1.now)
      else d1.linkOut q.val 3 y) s

/-- The PANEL_INIT steps of a port. -/
def Dev.panelSteps (d : Dev) (q : Nat) : List PanelStep := tget d.disp.panelInit q []

/-- An eDP panel's link settings (R462, R489): stored after a full training at RATE and LANES, for which none were stored; what
the training found for each lane is measured (tag 38). -/
def Dev.storeLink (d : Dev) (q p : Nat) : Dev :=
  let w := d.obj 0x01 p 2
  let fits := match d.deviceItem 0x0203 q with | some b => natAt b 0 1 = fld w 33 4 && natAt b 1 1 = fld w 30 3 | none => false
  if fits then d
  else
    d.storeItem 0x0203 q (toBytes 1 (fld w 33 4) ++ toBytes 1 (fld w 30 3) ++
      (List.range 6).map (fun i => BitVec.ofNat 8 (Config.unstated 38 [q, d.now, i])))

/-- LINK_UP (R462, R464). -/
def execLinkUp (q : Fin 12) (at_ : Nat) (s : State) : Host.Outcome State Fault Refusal :=
  run (fun d =>
    let x := d.dport q.val
    let ready := if q.val < 4 then x.edp || x.hpd else decide ((d.panelSteps q.val).length ≤ x.initStep) && decide (x.initDue ≤ Nat.max d.now at_)
    match d.portPipe q.val with
    | some p =>
      if d.awake && x.link = 1 && ready then
        let d0 := d.tick at_
        let d1 := if x.edp && decide (q.val < 4) then d0.storeLink q.val p else d0
        (d1.setDport q.val { x with link := 2, tries := 0, trainFrom := d1.now, trained := BitVec.ofNat 4 (fld (d1.obj 0x01 p 2) 33 4) }).setPt p
          { d1.pt p with relinkUp := some d1.now, teLast := none, tePrev := none }
      else d
    | none => d) s

/-- PANEL_INIT_STEP (R463): a step that fails twice gives FAILED. -/
def execPanelInitStep (q : Fin 12) (ok : Bool) (at_ : Nat) (s : State) : Host.Outcome State Fault Refusal :=
  run (fun d =>
    let x := d.dport q.val
    match (d.panelSteps q.val)[x.initStep]? with
    | some st =>
      if d.awake && decide (4 ≤ q.val) && x.link = 1 && decide (x.initDue ≤ Nat.max d.now at_) then
        let d1 := d.tick at_
        if ok then d1.setDport q.val { x with initStep := x.initStep + 1, initFails := 0, initDue := d1.now + st.delay }
        else if x.initFails = 0 then d1.setDport q.val { x with initFails := 1 }
        else d1.linkOut q.val 4 { x with initFails := 0 }
      else d
    | none => d) s

/-! The epoch boundary. -/

/-- EPOCH_BOUNDARY (R86, R95, R113, R114, R128, R263, R461): at multiples of 1 ms, in ACTIVE. -/
def execEpochBoundary (at_ : Nat) (s : State) : Host.Outcome State Fault Refusal :=
  run (fun d =>
    if !d.awake || at_ % 1000000 ≠ 0 || at_ < d.now || at_ ≤ d.epochAt then d
    else
      let d1 := ({ d.tick at_ with epochAt := at_ } : Dev).occur 4 0
      let d2 : Dev := { d1 with rings := d1.rings.map (fun x => (x.1, x.2.epoch)) }
      let d3 := (List.range 4).foldl (fun d p => d.setPort p { d.port p with inForce := (d.port p).written }) d2
      let d4 := d3.applyDue (fun c => d3.atEpoch c && decide (c.time + 2000 ≤ at_)) (fun d => (d3.beginStarted d).publishEpoch)
      d4.rings.foldl (fun d x => d.retryRecord x.1) d4) s

end Sys2Proof.Machine
end

