-- ==== Sys2Proof/Machine/Crc.lean ====
section
/-! DEFINITION. The check-value computation (R367, R368, R373), the parameters of a unit (R369), and a unit on an audio sink as the
port's frames pass it (R371, R380, R381). -/

namespace Sys2Proof.Machine

/-! The CRC model (R367, R368, R373). -/

/-- The parameters of a unit. -/
structure Crc where
  width : Nat
  poly : Nat
  init : Nat
  xorout : Nat
  refin : Bool
  refout : Bool
  deriving DecidableEq, Repr

/-- The low n bits of a number in reverse order. -/
def reverseBits (n x : Nat) : Nat :=
  match n with
  | 0 => 0
  | m + 1 => x % 2 * 2 ^ m + reverseBits m (x / 2)

/-- One step of the register. -/
def Crc.step (c : Crc) (r : Nat) : Nat :=
  if bitsN r (c.width - 1) 1 = 1 then Nat.xor (2 * r) c.poly % 2 ^ c.width else 2 * r % 2 ^ c.width

/-- One byte taken. -/
def Crc.byte (c : Crc) (r : Nat) (b : Byte) : Nat :=
  let v := if c.refin then reverseBits 8 b.toNat else b.toNat
  (List.range 8).foldl (fun r _ => c.step r) (Nat.xor r (v * 2 ^ (c.width - 8)))

/-- fold(P): the exclusive or of the W-bit fields of a provenance word. -/
def Crc.fold (c : Crc) (p : Nat) : Nat :=
  (List.range (ceilDiv 64 c.width)).foldl (fun acc i => Nat.xor acc (bitsN (p % 2 ^ 64) (i * c.width) c.width)) 0

/-- A segment: its provenance folded in, then its bytes. -/
def Crc.bytes (c : Crc) (r : Nat) (l : List Byte) : Nat := l.foldl c.byte r
def Crc.segment (c : Crc) (r p : Nat) (l : List Byte) : Nat := c.bytes (Nat.xor r (c.fold p)) l

/-- The value at a period's end. -/
def Crc.value (c : Crc) (r : Nat) : Nat := Nat.xor (if c.refout then reverseBits c.width r else r) c.xorout

/-- The presets of R368; preset 0 stands for none. -/
def crcPreset (n : Nat) : Crc :=
  let p (w poly init xorout : Nat) (r : Bool) : Crc := { width := w, poly := poly, init := init, xorout := xorout, refin := r, refout := r }
  nth [p 8 0 0 0 false, p 8 0x07 0 0 false, p 16 0x1021 0xFFFF 0 false, p 32 0x04C11DB7 0xFFFFFFFF 0xFFFFFFFF true,
       p 32 0x1EDC6F41 0xFFFFFFFF 0xFFFFFFFF true, p 32 0xF4ACFB13 0xFFFFFFFF 0xFFFFFFFF true,
       p 64 0x42F0E1EBA9EA3693 (2 ^ 64 - 1) (2 ^ 64 - 1) true] n (p 8 0 0 0 false)

/-- CRC-32C (R368, preset 4) and CRC-16/IBM-3740 (preset 2) of bytes. -/
def crc32c (l : List Byte) : Nat := let c := crcPreset 4; c.value (c.bytes c.init l)
def crc16 (l : List Byte) : Nat := let c := crcPreset 2; c.value (c.bytes c.init l)

/-- A field word of a unit, and its parameters (R369). -/
def Dev.cw (d : Dev) (u i : Nat) : W72 := d.obj 0x0A u i
def Dev.crcOf (d : Dev) (u : Nat) : Crc :=
  let w1 := d.cw u 1
  let n := fld w1 20 4
  if n ≠ 0 then crcPreset n
  else
    { width := fld w1 7 6 + 1, poly := fld (d.cw u 2) 0 64, init := fld (d.cw u 3) 0 64, xorout := fld (d.cw u 4) 0 64
      refin := bit w1 14, refout := bit w1 13 }

/-- ENABLE, TAP and PROV of a unit. -/
def Dev.cvuOn (d : Dev) (u : Nat) : Bool := bit (d.cw u 1) 31
def Dev.cvuTap (d : Dev) (u : Nat) : Nat := fld (d.cw u 1) 24 7
def Dev.cvuProv (d : Dev) (u : Nat) : Nat := fld (d.cw u 1) 17 3

/-! Audio sinks. -/

/-- One frame of a port, numbered from the port's start, taken by a unit: a segment is 48 frames, and the period's value is kept for its
end. DESIGN CHOICE (log entry 123): segments begin at the port's frames 0, 48, 96 and so on. -/
def Cvu.frameStep (x : Cvu) (c : Crc) (position : Bool) (period no : Nat) (bytes : List Byte) : Cvu :=
  let x1 : Cvu :=
    if no % 48 ≠ 0 then x
    else
      let segs := if x.active then x.segments else 0
      let r := if x.active then x.reg.toNat else c.init
      { x with
        active := true, wait := false, segments := segs, bytes := if x.active then x.bytes else 0
        reg := BitVec.ofNat 64 (Nat.xor r (c.fold (if position then segs else 0))) }
  if !x1.active || x1.wait then x1
  else
    let r := c.bytes x1.reg.toNat bytes
    let x2 : Cvu := { x1 with reg := BitVec.ofNat 64 r, bytes := (x1.bytes + bytes.length) % 2 ^ 48 }
    if no % 48 ≠ 47 then x2
    else if x1.segments + 1 < period then { x2 with segments := x1.segments + 1 }
    else { x2 with active := false, segments := 0, bytes := 0, ended := x2.ended ++ [BitVec.ofNat 64 (c.value r)] }

/-- One frame of port q, given by slot, passes a unit on its tap. -/
def Dev.tapFrame (d : Dev) (u no : Nat) (slot : Nat → List Byte) : Dev :=
  let x := d.cvu u
  if x.state = 2 then d
  else
    let bytes := ((List.range 16).filter (fun s => bit (d.cw u 5) (16 + s))).flatMap slot
    d.setCvu u (x.frameStep (d.crcOf u) (d.cvuProv u = 3) (fld (d.cw u 5) 0 16) no bytes)

end Sys2Proof.Machine
end

