-- ==== Sys2Proof/Machine/Sound.lean ====
section
/-! DEFINITION. The audio engine (R342 to R344, R349 to R365): samples, blocks, graphs, streams, converters, ports and headsets. -/

namespace Sys2Proof.Machine

/-! Streams (R355, R356, R359). -/

/-- The stream, format and rate of a STREAM_IN or STREAM_OUT node (R364). -/
def Dev.streamOf (d : Dev) (n : Nat) : Nat := fld (d.obj 0x05 n 2) 0 6
def Dev.streamFmt (d : Dev) (n : Nat) : Nat := fld (d.obj 0x05 n 2) 8 2
def Dev.streamRate (d : Dev) (n : Nat) : Nat := fld (d.obj 0x05 n 2) 16 20

/-- The bytes of an interleaved frame: S16, S24 in 32, S32, or S36 pairs in 72-bit words. -/
def frameBytes (fmt channels : Nat) : Nat := match fmt with | 0 => 2 * channels | 3 => 9 * ceilDiv channels 2 | _ => 4 * channels

/-- The samples of DEVTIME: the stamp of sample i (R40, R342, R344). -/
def Audio.stamp (a : Audio) (i : Nat) : Nat := a.startAt + (31250 * i + 3) / 6

/-- Flags of a stream record: UNDERRUN, OVERRUN, MUTED, LIMITED, LOST. -/
def flagUnder : BitVec 8 := 1
def flagOver : BitVec 8 := 2
def flagMuted : BitVec 8 := 4
def flagLimited : BitVec 8 := 8
def flagLost : BitVec 8 := 16

/-- Playback streams and capture streams, and each replaced. -/
def Dev.stream (d : Dev) (cap : Bool) (s : Nat) : Stream := tget (if cap then d.audio.caps else d.audio.plays) s .atReset
def Dev.setStream (d : Dev) (cap : Bool) (s : Nat) (x : Stream) : Dev :=
  { d with audio := if cap then { d.audio with caps := tset d.audio.caps s x } else { d.audio with plays := tset d.audio.plays s x } }

/-- A buffer is done: its stream record is written and its operation ends (R355, R356). -/
def Dev.endBuffer (d : Dev) (cap : Bool) (n s : Nat) (b : StreamOp) : Dev :=
  let x := d.stream cap s
  let c := d.conv n
  let flags := x.flags ||| b.flags ||| (if c.state = 1 then flagMuted else 0)
  let first := b.first.getD 0
  let d1 := d.setStream cap s { x with queue := x.queue.filter (fun y => y.id ≠ b.id), flags := 0 }
  match d1.op b.id with
  | none => d1
  | some o =>
    if !o.active then d1
    else
      let words := [BitVec.ofNat 72 (first % 2 ^ 64), BitVec.ofNat 72 (flags.toNat * 2 ^ 64 + c.ppm.toNat * 2 ^ 40 + b.done % 2 ^ 16)]
      match d1.writeWords o.fn b.recAt.toNat words with
      | (d2, .error (cause, va)) =>
        (d2.accessFault o.fn cause srcEngine (ringKind b.id.ring.val) va).finish b.id (if b.status = 0 then causeStatus cause else b.status).toNat (some first)
      | (d2, .ok _) => d2.finish b.id b.status.toNat (some first)

/-! Formats (R355, R364): S16, S24 in 32, S32, S36 pairs. DESIGN CHOICE (the log's entry 120): full scale is 1.0 of S36, and S24 takes the low
24 bits of its 32. -/

/-- A sample of a frame as an S36 value, and its bytes. -/
def sampleOf (fmt c : Nat) (bytes : List Byte) : Int :=
  match fmt with
  | 0 => toSigned 16 (natAt bytes (2 * c) 2) * 2 ^ 16
  | 1 => toSigned 24 (natAt bytes (4 * c) 4) * 2 ^ 8
  | 2 => toSigned 32 (natAt bytes (4 * c) 4)
  | _ => s36Val (natAt bytes (9 * (c / 2)) 9 / 2 ^ (36 * (c % 2)))
def sampleBytes (fmt : Nat) (v : Int) : List Byte :=
  let q (drop bits : Nat) : Int := clampI (-(2 ^ (bits - 1))) (2 ^ (bits - 1) - 1) (roundShift 0 v drop)
  match fmt with
  | 0 => toBytes 2 (ofSigned 16 (q 16 16))
  | 1 => toBytes 4 (ofSigned 32 (q 8 24))
  | _ => toBytes 4 (ofSigned 32 (q 0 32))

/-- A frame of S36 patterns read from bytes, and as bytes. -/
def samplesOf (fmt channels : Nat) (bytes : List Byte) : List Nat := (List.range channels).map (fun c => ofSigned 36 (sampleOf fmt c bytes))
def bytesOfFrame (fmt channels : Nat) (f : List Nat) : List Byte :=
  if fmt = 3 then (List.range (ceilDiv channels 2)).flatMap (fun i => toBytes 9 (nth f (2 * i) 0 % 2 ^ 36 + (nth f (2 * i + 1) 0 % 2 ^ 36) * 2 ^ 36))
  else (List.range channels).flatMap (fun c => sampleBytes fmt (s36Val (nth f c 0)))

/-- One frame of a buffer moved: the buffer with its first fault noted, after which frames play as zeros or are lost; the frame read. -/
def Dev.moveFrame (d : Dev) (cap : Bool) (n s : Nat) (b : StreamOp) (stamp size : Nat) (data : List Byte) : Dev × List Byte :=
  let f := match d.op b.id with | some o => o.fn | none => d.manager
  let va := (b.addr.toNat + b.done * size) % 2 ^ 48
  let (d1, got) : Dev × Except (Nat × Nat) (List Byte) :=
    if b.status ≠ 0 then (d, .ok [])
    else if cap then (match d.writeV f va data with | (e, .error x) => (e, .error x) | (e, .ok _) => (e, .ok []))
    else d.readV f va size .read
  let (d2, b1) : Dev × StreamOp := match got with
    | .error (cause, a) => (d1.accessFault f cause srcEngine (ringKind b.id.ring.val) a, { b with status := causeStatus cause, flags := b.flags ||| flagLost })
    | .ok _ => (d1, b)
  let b2 := { b1 with done := b1.done + 1, first := some (b1.first.getD stamp) }
  let x := d2.stream cap s
  let d3 := d2.setStream cap s { x with queue := x.queue.map (fun y => if y.id = b.id then b2 else y) }
  (if b2.frames ≤ b2.done then d3.endBuffer cap n s b2 else d3, match got with | .ok l => l | .error _ => [])

/-- Whether the transfers of an operation's function go on (R155, R355). -/
def Dev.transfers (d : Dev) (b : StreamOp) : Bool := match d.op b.id with | some o => weightOf d.obj o.fn 3 ≠ 0 | none => true

/-- A frame enters the converter of source node n. -/
def Dev.enterFrame (d : Dev) (n : GNode) (counts : Bool) (f : List Nat) : Dev := d.setConv n.node ((d.conv n.node).enter outerSpan counts f)

/-- k frames taken by the converter of source node n; an empty queue gives zeros and UNDERRUN (R356, R359). -/
def Dev.playFrames (k : Nat) (n : GNode) (s stamp : Nat) (d : Dev) : Dev :=
  match k with
  | 0 => d
  | k + 1 =>
    let fmt := d.streamFmt n.node
    let none_ (d : Dev) : Dev := (d.setStream false s { d.stream false s with flags := (d.stream false s).flags ||| flagUnder }).enterFrame n false []
    match (d.stream false s).queue with
    | b :: _ =>
      if d.transfers b then
        let (d1, l) := d.moveFrame false n.node s b stamp (frameBytes fmt n.channels) []
        Dev.playFrames k n s stamp (d1.enterFrame n true (samplesOf fmt n.channels l))
      else Dev.playFrames k n s stamp (none_ d)
    | [] => Dev.playFrames k n s stamp (none_ d)

/-- k frames of a port enter the converter of source node n: what arrives in its slots, zero where a slot carries nothing (R361). -/
def Dev.portFrames (k : Nat) (n : GNode) (stamp : Nat) (d : Dev) : Dev :=
  let w := d.obj 0x05 n.node 2
  (List.range k).foldl (fun d j =>
    d.enterFrame n true ((List.range n.channels).map (fun c =>
      if d.portCarries n.node c then Config.portInput (fld w 0 4) (fld w 4 5 + c) stamp j % 2 ^ 36 else 0))) d

/-- The frames that a converter moves in a sample, at its rate and offset, and the fraction left (R342, R359). -/
def framesDue (phase rate : Nat) (ppm : Int) : Nat × Nat :=
  let total : Int := (phase : Int) + (rate : Int) * (100000000 + ppm)
  ((total / 19200000000000).toNat, (total % 19200000000000).toNat)

/-- The port of a node. -/
def Dev.portOf (d : Dev) (n : Nat) : Nat := fld (d.obj 0x05 n 2) 0 4

/-- The frame rate of a port in Hz (R360). PDM microphones give a frame for each internal sample (DESIGN CHOICE, the log's entry 120). -/
def Dev.portHz (d : Dev) (port : Nat) : Nat := if 8 ≤ port then 192000 else portRate (fld (d.obj 0x06 port 1) 24 4)

/-- Whether the ratio of a node's converter is exact (R358): that of a master port or a PDM port. -/
def Dev.exactRatio (d : Dev) (n : Nat) : Bool :=
  let t := fld (d.obj 0x05 n 1) 10 6
  let port := fld (d.obj 0x05 n 2) 0 4
  (t = 3 || t = 4) && (decide (8 ≤ port) || !bit (d.obj 0x06 port 1) 30)

/-- The offset of a port's frame rate (R358, R361): one for all of its converters; none for a master or a PDM port. -/
def Dev.portPpm (d : Dev) (q i : Nat) : Int :=
  if decide (8 ≤ q) || !bit (d.obj 0x06 q 1) 30 then 0 else clampI (-100000) 100000 (toSigned 24 (Config.converterPpm (1024 + q) i 0 0 0))

/-- The frames of a port in sample i (R342, R361), counted while it runs. -/
def Dev.portTick (i : Nat) (d : Dev) (q : Nat) : Dev :=
  let x := d.aport q
  let (k, phase) := framesDue x.phase (d.portHz q) (d.portPpm q i)
  d.setAport q { x with phase := phase, place := x.phase, due := k, frames := if x.state = 2 then x.frames + k else 0 }

/-- The frames queued for playback on a stream. -/
def Dev.queued (d : Dev) (s : Nat) : Nat := ((d.stream false s).queue.map (fun b => b.frames - b.done)).foldl (· + ·) 0

/-- The offset that a converter measures or that its loop demands (R358, R359), in 0.01 ppm; none for an exact ratio. -/
def Dev.ppmWant (d : Dev) (n i : Nat) : Int :=
  let t := fld (d.obj 0x05 n 1) 10 6
  if d.exactRatio n then 0
  else if t = 3 || t = 4 then toSigned 24 (Config.converterPpm (1024 + d.portOf n) i 0 0 0)
  else
    let target := fld (d.obj 0x05 n 3) 0 17 * d.streamRate n / 1000000
    toSigned 24 (Config.converterPpm n i (d.queued (d.streamOf n)) target (d.conv n).ppm.toInt)

/-- The offset in force: at most 1,000 ppm. -/
def Dev.ppmOf (d : Dev) (n i : Nat) : Int := clampI (-100000) 100000 (d.ppmWant n i)

/-- The queued audio of a stream above twice TARGET_US with 16 buffers queued (R359). -/
def Dev.overfull (d : Dev) (n s : Nat) : Bool :=
  decide (16 ≤ (d.stream false s).queue.length) && decide (2 * fld (d.obj 0x05 n 3) 0 17 * d.streamRate n < d.queued s * 1000000)

/-- A sample computed by the converter of a source node; its age grows once the source has given it a frame. -/
def Dev.sourceCompute (d : Dev) (n : GNode) (phase : Nat) (ppm : Int) : Dev :=
  let c := d.conv n.node
  d.setConv n.node { c.compute outerSpan innerDelay n.channels phase ppm with age := if c.taken = 0 then 0 else c.age + 1 }

/-- The converter of a source node for a sample: its ratio, the frames of its stream or port, what it computes. -/
def Dev.sourceStep (i : Nat) (d : Dev) (n : GNode) : Dev :=
  let c := d.conv n.node
  let ppm := d.ppmOf n.node i
  let d1 := d.setConv n.node (c.measure ppm)
  if n.type ≠ 1 then
    let x := d1.aport (d1.portOf n.node)
    (Dev.portFrames x.due n (d1.audio.stamp i) d1).sourceCompute n x.phase ppm
  else
    let s := d1.streamOf n.node
    let x := d1.stream false s
    let (k, phase) := framesDue x.phase (d1.streamRate n.node) ppm
    let tooMuch := d1.overfull n.node s
    let empty := x.queue = [] && k ≠ 0
    let limited := d.ppmWant n.node i ≠ ppm
    let d2 := d1.setStream false s
      { x with phase := phase, flags := x.flags ||| (if tooMuch then flagOver else 0) ||| (if limited then flagLimited else 0) }
    let c1 := d2.conv n.node
    let c2 : Conv :=
      { c1 with
        unders := if empty && c1.state = 2 then satInc c1.unders else c1.unders
        overs := if tooMuch && !(x.flags &&& flagOver = flagOver) then satInc c1.overs else c1.overs }
    (Dev.playFrames k n s (d2.audio.stamp i) (d2.setConv n.node c2)).sourceCompute n phase ppm

/-- What a port's sinks carry while the port fades out to restart (R361): the manual states no curve (tag 35). -/
def Dev.portFaded (d : Dev) (n : GNode) (c : Nat) (v : Int) : Int :=
  let k := if n.type = 4 then (d.aport (fld (d.obj 0x05 n.node 2) 0 4)).fade else 0
  if k = 0 then v else s36Val (Config.unstated 35 [n.node, c, k, ofSigned 36 v])

/-- k frames that the converter of a sink node computes in a sample, and those that leave it: zeros while it is muted; faded in over 5 ms
from its lock (R357, R358). -/
def Dev.sinkFrames (k : Nat) (n : GNode) (i phase : Nat) (ppm : Int) (d : Dev) : Dev × List (List Nat) :=
  (List.range k).foldl (fun acc j =>
    let c := (acc.1.conv n.node).compute innerSpan outerDelay n.channels (phase + j * 2 ^ 48) ppm
    let fade (v : Nat) : Nat := ofSigned 36 (scaled (rampGain 1 (i - c.lockedAt) 960) (s36Val v))
    let f := if c.state ≠ 2 then List.replicate n.channels 0 else (List.range n.channels).map (fun x => fade (nth (c.leaving outerDelay) x 0))
    (acc.1.setConv n.node c, acc.2 ++ [f])) (d, [])

/-- Frames held for a capture stream written into its buffers as far as they last. -/
def Dev.captureFrames (fuel : Nat) (n : GNode) (s stamp : Nat) (d : Dev) : Dev :=
  match fuel with
  | 0 => d
  | fuel + 1 =>
    let x := d.stream true s
    match x.queue, x.held with
    | b :: _, fr :: rest =>
      if d.transfers b then
        let data := fr.map (fun v => BitVec.ofNat 8 v)
        Dev.captureFrames fuel n s stamp ((d.setStream true s { x with held := rest }).moveFrame true n.node s b stamp data.length data).1
      else d
    | _, _ => d

/-- The converter of a sink node for a sample: what its node carries enters it; STREAM_OUT gives frames to its stream, which holds at most
4,096 (R359), PORT_OUT to its port, which is driven low unless it runs (R361). -/
def Dev.sinkStep (i : Nat) (d : Dev) (n : GNode) : Dev :=
  let ppm := d.ppmOf n.node i
  let c := d.conv n.node
  let now := (List.range n.channels).map (fun x => ofSigned 36 (d.portFaded n x (s36Val (tget d.audio.sent (outKey n.node x) 0))))
  let d1 := d.setConv n.node { (c.enter innerSpan true now).measure ppm with age := c.age + 1 }
  if n.type ≠ 2 then
    let x := d1.aport (d1.portOf n.node)
    let (d2, frames) := Dev.sinkFrames x.due n i x.place ppm d1
    d2.setConv n.node { d2.conv n.node with out := if x.state = 2 then frames else [] }
  else
    let s := d1.streamOf n.node % 32
    let x := d1.stream true s
    let (k, phase) := framesDue x.phase (d1.streamRate n.node) ppm
    let (d2, got) := Dev.sinkFrames k n i x.phase ppm d1
    let fmt := d2.streamFmt n.node
    let frames := x.held ++ got.map (fun f => (bytesOfFrame fmt n.channels f).map (fun b => b.toNat))
    let d3 := Dev.captureFrames (frames.length + 1) n s (d2.audio.stamp i) (d2.setStream true s { x with phase := phase, held := frames })
    let y := d3.stream true s
    if y.held.length ≤ 4096 then d3
    else
      (d3.setStream true s { y with held := y.held.drop (y.held.length - 4096), flags := y.flags ||| flagOver }).setConv n.node
        { d3.conv n.node with overs := satInc (d3.conv n.node).overs }

/-- A sample as a TDM slot sends it (R360, R371): DATA_WIDTH bits left-aligned in the slot, as SLOT_WIDTH / 8 bytes, least significant first. -/
def Dev.slotBytes (d : Dev) (q v : Nat) : List Byte :=
  let w := d.obj 0x06 q 1
  let width := nth [16, 20, 24, 32] (fld w 20 2) 16
  let slot := nth [2, 3, 4] (fld w 22 2) 2
  let code := clampI (-(2 ^ (width - 1) : Nat)) (2 ^ (width - 1) - 1 : Nat) (roundShift 0 (s36Val v) (32 - width))
  toBytes slot (ofSigned (8 * slot) (code * (2 ^ (8 * slot - width) : Nat)))

/-- What slot s of frame j of this sample carries on a port: the channel of the PORT_OUT node bound to it, else zero. -/
def Dev.slotValue (d : Dev) (nodes : List GNode) (q j s : Nat) : Nat :=
  let first (n : GNode) : Nat := fld (d.obj 0x05 n.node 2) 4 5
  match nodes.find? (fun n => n.type = 4 && d.portOf n.node = q && decide (first n ≤ s) && decide (s < first n + n.channels)) with
  | some n => nth (nth (d.conv n.node).out j []) (s - first n) 0
  | none => 0

/-- The frames that the ports have sent in this sample pass the units on their sinks (R371). -/
def Dev.tapPorts (d : Dev) (nodes : List GNode) : Dev :=
  (List.range 32).foldl (fun d u =>
    let q := d.cvuTap u - 0x40
    let x := d.aport q
    if !d.cvuOn u || tapKind (d.cvuTap u) ≠ 5 || !d.runs 6 || x.state ≠ 2 then d
    else (List.range x.due).foldl (fun d j => d.tapFrame u (x.frames - x.due + j) (fun s => d.slotBytes q (d.slotValue nodes q j s))) d) d

/-! Samples. -/

/-- A sink's value during the fade of 5 ms before a sleep state, whose curve the manual does not state (R344, tag 29). -/
def Dev.sleepFade (d : Dev) (n c : Nat) (v : Int) : Int :=
  match d.power.entry with
  | none => v
  | some e =>
    let t := d.audio.stamp d.audio.count - e.goAt
    if t = 0 then v else if 5000000 ≤ t then 0 else s36Val (Config.unstated 29 [n, c, t, ofSigned 36 v])

/-- What the sinks carry of the sample that has ended (R354, R365): the sink nodes' outputs, faded while a GRAPH_STOP runs. -/
def Dev.sinkOuts (d : Dev) : Tab Nat :=
  match d.audio.active with
  | none => []
  | some g =>
    let gain : Int := if d.audio.state = 4 then rampGain 2 d.audio.sinceStop g.rampLen else s36One
    (g.nodes.filter GNode.isSink).foldl (fun m (n : GNode) =>
      (List.range n.channels).foldl (fun m c =>
        tset m (outKey n.node c) (ofSigned 36 (d.sleepFade n.node c (scaled gain (d.muted n.node (s36Val (tget d.audio.outs (outKey n.node c) 0))))))) m) []

/-- One step of the MUTE fade of every node (R364). -/
def Dev.muteStep (d : Dev) (nodes : List GNode) : Tab Nat :=
  nodes.foldl (fun m (n : GNode) =>
    let k := tget m n.node 0
    tset m n.node (if bit (d.obj 0x05 n.node 1) 0 then Nat.min (k + 1) (Nat.max 1 (d.muteLen n.node)) else k - 1)) d.audio.mutes

/-- A graph stops (R354). -/
def Dev.graphEnd (d : Dev) : Dev :=
  let a := d.audio
  let d1 : Dev := { d with audio := { a with state := 0, graph := none, stopOp := none, outs := [], prev := [], slices := [] } }
  match a.stopOp with
  | some id => match d.op id with | some o => if o.active then d1.finish id 0 none else d1 | none => d1
  | none => d1

/-- Ramps that end with the sample about to begin (R353, R354). -/
def Dev.rampEnd (d : Dev) (i : Nat) : Dev :=
  match d.audio.graph with
  | none => d
  | some g =>
    if d.audio.state = 4 then (if g.rampLen ≤ i - d.audio.stopAt then d.graphEnd else d)
    else if d.audio.state = 2 && decide (g.rampLen ≤ i - d.audio.since) then { d with audio := { d.audio with state := 1 } }
    else d

/-- One sample of the fades of ports that restart (R361): at its end the port starts again. -/
def Dev.portFades (d : Dev) : Dev :=
  (List.range 8).foldl (fun d q =>
    let x := d.aport q
    if x.fade = 0 then d
    else if x.fade = 1 then (d.setAport q { x with fade := 0, state := 1, good := 0 }).unlockPort q
    else d.setAport q { x with fade := x.fade - 1 }) d

/-- The runs of the slices begin (R345). -/
def Dev.startSlices (d : Dev) : Dev :=
  match d.audio.active with
  | none => d
  | some g =>
    g.progs.foldl (fun d p =>
      let x := d.slice p.1
      d.setSlice p.1
        { x with
          idle := false, running := true
          seq := { x.seq with pc := p.2.entry, stack := [], base := 0, length := p.2.words.length, limit := p.2.limit, steps := 0 } }) d

/-- Sample i begins (R342, R345, R348, R354, R355, R359). -/
def Dev.sampleStep (d : Dev) : Dev :=
  let i := d.audio.count
  let d1 : Dev := { d with audio := { d.audio with sent := d.sinkOuts } }
  let d2 := d1.rampEnd i
  let nodes : List GNode := match d2.audio.graph with | some g => g.nodes | none => []
  let mutes := d2.muteStep nodes
  let d3 : Dev := { d2 with audio := { d2.audio with prev := d2.audio.outs, written := [], mutes := mutes, count := i + 1 } }
  let d4 := (List.range 10).foldl (Dev.portTick i) d3
  let d5 := (nodes.filter GNode.isSink).foldl (Dev.sinkStep i) (d4.audio.sources.foldl (Dev.sourceStep i) d4)
  (d5.tapPorts nodes).portFades.startSlices

/-! Graph swap (R352). -/

/-- Whether a node keeps its state words, and its delay line, over a swap. -/
def keptNode (old : List GNode) (n : GNode) : Bool := old.any (fun o => o.node = n.node && o.type = n.type && o.channels = n.channels)
def keptDelay (old : List GNode) (n : GNode) : Bool :=
  old.any (fun o => o.node = n.node && o.type = n.type && o.channels = n.channels && o.delayBase = n.delayBase && o.delayLen = n.delayLen)

/-- The delay samples of a node. -/
def GNode.delays (n : GNode) (k : Nat) : Bool := decide (n.delayBase ≤ k) && decide (k < n.delayBase + n.channels * n.delayLen)

/-- A slice with a program, its registers zero. -/
def AProg.slice (p : AProg) : Slice :=
  { Slice.atReset with idle := false, words := p.words, entry := p.entry, seq := { Seq.idle with length := p.words.length, limit := p.limit, pc := p.entry } }

/-- A graph takes over at a block boundary whose sample has index i. -/
def Dev.swapGraph (d : Dev) (g : Graph) (id : OpId) (i stamp : Nat) : Dev :=
  let a := d.audio
  let old : List GNode := match a.active with | some o => o.nodes | none => []
  let here (n : GNode) : Bool := (a.sources ++ old).any (fun o => o.node = n.node && o.type = n.type)
  let convs := (g.nodes.filter (fun n => n.isSource || n.isSink)).foldl (fun m (n : GNode) =>
    tset m n.node (if here n then tget a.convs n.node .atReset else Conv.atReset)) []
  let keepOut (k : Nat) : Bool := g.nodes.any (fun n => n.node = k / 8 && keptNode old n)
  let d1 : Dev :=
    { d with audio :=
        { a with
          state := if g.rampMs = 0 then 1 else 2, faultCode := 0, faultSlice := 0, faultPc := 0, graph := some g, loaded := none, since := i
          slices := g.progs.map (fun p => (p.1, p.2.slice))
          outs := a.outs.filter (fun x => keepOut x.1)
          nodeState := a.nodeState.filter (fun x => g.nodes.any (fun n => n.node = x.1 / 128 && keptNode old n))
          delay := a.delay.filter (fun x => g.nodes.any (fun n => n.delays x.1 && keptDelay old n))
          mutes := a.mutes.filter (fun x => g.nodes.any (fun n => n.node = x.1 && keptNode old n))
          meters := [], convs := convs, sources := g.nodes.filter GNode.isSource } }
  match d1.op id with
  | some o => if o.active then d1.finish id 0 (some stamp) else d1
  | none => d1

/-- Whether an operation is a PLAY or CAPTURE to cancel. -/
def Op.streamCut (o : Op) : Bool := o.cancel && o.active && o.target = 5 && (o.kind = 3 || o.kind = 4)

/-- A PLAY or CAPTURE cancelled at its safe point (R355, R356): the stream record of one that has moved frames is written first. -/
def Dev.cutStream (d : Dev) (o : Op) : Dev :=
  let cap := o.kind = 4
  let s := fld (o.word 0) 0 6
  let nodes : List GNode := match d.audio.graph with | some g => g.nodes | none => []
  let node := ((d.audio.sources ++ nodes).find? (fun n => n.type = (if cap then 2 else 1) && d.streamOf n.node = s)).map (fun (n : GNode) => n.node)
  let x := d.stream cap s
  match x.queue.find? (fun b => b.id = o.id), node with
  | some b, some n =>
    if b.done = 0 then (d.setStream cap s { x with queue := x.queue.filter (fun y => y.id ≠ o.id) }).finish o.id 0x02 none
    else d.endBuffer cap n s { b with status := if b.status = 0 then 2 else b.status }
  | _, _ => (d.setStream cap s { x with queue := x.queue.filter (fun y => y.id ≠ o.id) }).finish o.id 0x02 none

/-- The block boundary at sample i (R113, R343, R351, R352, R355): operations at their safe point, commits, the swap, ports that have started, status words. -/
def Dev.blockStep (d : Dev) (i : Nat) : Dev :=
  let stamp := d.audio.stamp i
  let d0 := (d.tick stamp).occur 3 0
  let d1 := (d0.ops.filter Op.streamCut).foldl (fun d o => d.cutStream o) d0
  let publish (d : Dev) : Dev :=
    let d2 := match d.audio.loaded with
      | some (g, id, t) => if t ≤ stamp then d.swapGraph g id i stamp else d
      | none => d
    let d3 := (List.range 10).foldl (fun d q => if (d.aport q).state = 1 then d.setAport q { d.aport q with state := 2 } else d) d2
    d3.publishBlock
  let d4 := d1.applyDue (fun c => c.point = 2 && decide (c.time + 2000 ≤ stamp)) publish
  { d4 with audio := { d4.audio with meters := [], sampleReg := BitVec.ofNat 64 i, stampReg := BitVec.ofNat 64 stamp } }

/-- Whether the boundary at sample i has been taken. -/
def Audio.blockDone (a : Audio) (i : Nat) : Bool := a.stampReg.toNat = a.stamp i

/-- Whether the engine can go on to its next sample at an instant: it runs, the instant has come, and no run is unfinished. -/
def Dev.sampleReady (d : Dev) (at_ : Nat) : Bool :=
  d.audio.running && d.runs 7 && decide (d.audio.stamp d.audio.count ≤ Nat.max d.now at_) && d.audio.slices.all (fun x => !x.2.running)

/-- AUDIO_SAMPLE (R342, R345). -/
def execAudioSample (at_ : Nat) (s : State) : Host.Outcome State Fault Refusal :=
  runAs mpStream (fun d =>
    let i := d.audio.count
    if !d.sampleReady at_ then d
    else
      let d1 := d.tick (d.audio.stamp i)
      (if i % 48 = 0 && !d.audio.blockDone i then d1.blockStep i else d1).sampleStep) s

/-- AUDIO_BLOCK (R113, R343). -/
def execAudioBlock (at_ : Nat) (s : State) : Host.Outcome State Fault Refusal :=
  runAs mpStream (fun d =>
    let i := d.audio.count
    if d.sampleReady at_ && i % 48 = 0 && !d.audio.blockDone i then d.blockStep i else d) s

/-! Graph operations (R349 to R351, R354). -/

/-- A node word and an edge word of a graph table (R349). -/
def gnodeOf (w : W72) : GNode :=
  { node := fld w 62 10, type := fld w 56 6, slice := fld w 54 2, channels := fld w 50 4, delayBase := fld w 30 17, delayLen := fld w 15 15 }
def gedgeOf (w : W72) : GEdge := { src := fld w 62 10, dst := fld w 52 10, kind := fld w 50 2 }

/-- Whether a list has no repeats. -/
def distinct (l : List Nat) : Bool := (dedup l).length = l.length

/-- The header of a graph table (R349): whether its fields are in range. -/
def graphHeaderOk (h0 h1 : W72) : Bool :=
  fld h0 64 8 = 0xA5 && fld h0 56 8 = 1 && fld h0 40 16 ≠ 0 && decide (1 ≤ fld h0 12 12) && decide (fld h0 12 12 ≤ 1024) && decide (fld h1 56 16 ≤ 4096) &&
    decide (fld h1 48 8 ≤ 50) && fld h1 0 48 = 0

/-- Whether the words of nodes and edges are in range (R349). -/
def nodeWordOk (w : W72) : Bool :=
  let n := gnodeOf w
  fld w 47 3 = 0 && fld w 0 15 = 0 && decide (1 ≤ n.channels) && decide (n.channels ≤ 8) && decide (n.delayLen ≤ 16384) &&
    decide (n.delayBase + n.channels * n.delayLen ≤ 131072)
def edgeWordOk (w : W72) : Bool := fld w 50 2 ≠ 3 && fld w 0 50 = 0

/-- Whether the delay regions of nodes are apart (R351). -/
def delaysApart (l : List GNode) : Bool :=
  match l with
  | [] => true
  | n :: r =>
    r.all (fun m =>
      n.delayLen = 0 || m.delayLen = 0 || decide (n.delayBase + n.channels * n.delayLen ≤ m.delayBase) ||
        decide (m.delayBase + m.channels * m.delayLen ≤ n.delayBase)) && delaysApart r

/-- The edges that count as those of a graph: all but the removed ones. -/
def Graph.liveEdges (g : Graph) : List GEdge := g.edges.filter (fun e => e.kind ≠ 2)
def GEdge.same (a b : GEdge) : Bool := a.src = b.src && a.dst = b.dst

/-- The checks of R351 on a graph table read whole. -/
def Dev.graphOk (d : Dev) (g : Graph) (pred : Nat) : Bool :=
  let streams (t : Nat) : List Nat := (g.nodes.filter (fun n => n.type = t)).map (fun (n : GNode) => fld (d.projected 0x05 n.node 2) 0 6)
  let width (p : GNode → Bool) : Nat := ((g.nodes.filter p).map (fun (n : GNode) => n.channels)).foldl (· + ·) 0
  let running : Nat := match d.audio.active with | some r => r.id | none => 0
  let live : List GEdge := match d.audio.active with | some r => r.liveEdges | none => []
  distinct (g.nodes.map (fun n => n.node)) && distinct (streams 1) && distinct (streams 2) && delaysApart g.nodes &&
    g.edges.all (fun e => g.nodes.any (fun n => n.node = e.src) && g.nodes.any (fun n => n.node = e.dst)) &&
    decide (width GNode.isSource ≤ 64) && decide (width GNode.isSink ≤ 32) &&
    g.nodes.all (fun n => n.type = fld (d.projected 0x05 n.node 1) 10 6) && pred = running &&
    live.all (fun e => g.edges.any (fun x => x.same e && x.kind ≠ 1)) && g.edges.all (fun x => x.kind = 1 || live.any (fun e => x.same e))

/-- Why a GRAPH_LOAD ends: a fault of a fetch, or a failed check. -/
inductive LoadErr where
  | fault (cause va : Nat)
  | range
  deriving DecidableEq, Repr

/-- The program of a slice fetched (R79, R349): none for address 0. -/
def Dev.loadProg (d : Dev) (f addr : Nat) : Dev × Except LoadErr (Option AProg) :=
  if addr = 0 then (d, .ok none)
  else if addr % 64 ≠ 0 then (d, .error .range)
  else
    match d.readWords f addr 2 .exec with
    | (d1, .error (c, va)) => (d1, .error (.fault c va))
    | (d1, .ok ws) =>
      match checkHeader 2 (nth ws 0 0) (nth ws 1 0) with
      | none => (d1, .error .range)
      | some h =>
        if h.params ≠ 0 ∨ 2048 < h.limit then (d1, .error .range)
        else
          match d1.readWords f ((addr + 18) % 2 ^ 48) h.length .exec with
          | (d2, .error (c, va)) => (d2, .error (.fault c va))
          | (d2, .ok body) => (d2, .ok (some { entry := h.entry, limit := h.limit, words := body }))

/-- The programs of the slices from `n` on. -/
def Dev.loadProgs (d : Dev) (f n : Nat) (l : List Nat) : Dev × Except LoadErr (Tab AProg) :=
  match l with
  | [] => (d, .ok [])
  | a :: r =>
    match d.loadProg f a with
    | (d1, .error e) => (d1, .error e)
    | (d1, .ok p) =>
      match d1.loadProgs f (n + 1) r with
      | (d2, .error e) => (d2, .error e)
      | (d2, .ok t) => (d2, .ok (match p with | some x => (n, x) :: t | none => t))

/-- The graph table fetched, with its PRED_ID. -/
def Dev.loadTable (d : Dev) (f addr : Nat) (progs : Tab AProg) : Dev × Except LoadErr (Graph × Nat) :=
  if addr % 64 ≠ 0 then (d, .error .range)
  else
    match d.readWords f addr 2 .read with
    | (d1, .error (c, va)) => (d1, .error (.fault c va))
    | (d1, .ok h) =>
      let h0 := nth h 0 0
      let h1 := nth h 1 0
      let nn := fld h0 12 12
      let ne := fld h0 0 12
      if !graphHeaderOk h0 h1 then (d1, .error .range)
      else
        match d1.readWords f ((addr + 18) % 2 ^ 48) (nn + ne + fld h1 56 16) .read with
        | (d2, .error (c, va)) => (d2, .error (.fault c va))
        | (d2, .ok ws) =>
          let nodes := ws.take nn
          let edges := (ws.drop nn).take ne
          if nodes.all nodeWordOk && edges.all edgeWordOk then
            (d2, .ok ({ id := fld h0 40 16, rampMs := fld h1 48 8, nodes := nodes.map gnodeOf, edges := edges.map gedgeOf, consts := ws.drop (nn + ne)
                        progs := progs }, fld h0 24 16))
          else (d2, .error .range)

/-- A GRAPH_LOAD fetched and checked (R351): it waits for the first block boundary at least 2,000 ns later. -/
def Dev.graphLoad (d : Dev) (o : Op) : Dev :=
  let stop (d : Dev) (e : LoadErr) : Dev := match e with | .range => d.finish o.id 0x10 none | .fault c va => d.opFault o.id o.fn c va
  if (List.range 5).any (fun i => fld (o.word i) 48 24 ≠ 0) then d.finish o.id 0x10 none
  else
    match d.loadProgs o.fn 0 ((List.range 4).map (fun i => fld (o.word (i + 1)) 0 48)) with
    | (d1, .error e) => stop d1 e
    | (d1, .ok progs) =>
      match d1.loadTable o.fn (fld (o.word 0) 0 48) progs with
      | (d2, .error e) => stop d2 e
      | (d2, .ok (g, pred)) => if d2.graphOk g pred then { d2 with audio := { d2.audio with loaded := some (g, o.id, d2.now + 2000) } } else stop d2 .range

/-- GRAPH_LOAD (R350, R351): waits while a ramp is in progress or another graph awaits its boundary. -/
def execGraphLoad (id : OpId) (s : State) : Host.Outcome State Fault Refusal :=
  runOp id (fun d =>
    match d.activeOp id 5 1 with
    | none => d
    | some o =>
      if !d.runs 7 then d
      else if o.fn ≠ d.manager then d.finish id 0x11 none
      else if d.audio.state = 2 || d.audio.state = 4 || d.audio.loaded.isSome then d
      else d.graphLoad o) s

/-- GRAPH_STOP (R350, R354): with no graph running it completes at once. -/
def execGraphStop (id : OpId) (s : State) : Host.Outcome State Fault Refusal :=
  run (fun d =>
    match d.activeOp id 5 2 with
    | none => d
    | some o =>
      if !d.runs 7 then d
      else if o.fn ≠ d.manager then d.finish id 0x11 none
      else if o.word 0 ≠ 0 then d.finish id 0x10 none
      else if d.audio.active.isNone then d.finish id 0 none
      else if d.audio.state = 4 || d.audio.loaded.isSome then d
      else { d with audio := { d.audio with state := 4, stopOp := some id, stopAt := d.audio.count } }) s

/-! Streams. -/

/-- Whether function f owns a node of a type with a stream. -/
def Dev.ownsStream (d : Dev) (f t s : Nat) : Bool :=
  (List.range 1024).any (fun n => fld (d.obj 0x05 n 1) 10 6 = t && d.streamOf n = s && d.owner 0x05 n = f)

/-- Whether a PLAY or CAPTURE descriptor is in range. -/
def streamDescOk (cap : Bool) (o : Op) : Bool :=
  fld (o.word 0) 6 66 = 0 && (!cap || decide (fld (o.word 0) 0 6 < 32)) && fld (o.word 1) 48 24 = 0 && fld (o.word 2) 16 56 = 0 && fld (o.word 2) 0 16 ≠ 0 &&
    fld (o.word 3) 48 24 = 0 && fld (o.word 3) 0 48 % 8 = 0

/-- Whether an earlier PLAY or CAPTURE of the stream is still to be queued (R355); one whose descriptor has not been read may be of any
stream. -/
def Dev.bufferWaits (d : Dev) (cap : Bool) (o : Op) : Bool :=
  let s := fld (o.word 0) 0 6
  d.earlier o (fun x => x.target = 5 && x.kind = o.kind && (x.phase = .released || fld (x.word 0) 0 6 = s) &&
    (d.stream cap s).queue.all (fun b => b.id ≠ x.id))

/-- A buffer queued on its stream, at most 16 of them (R355). -/
def Dev.queueBuffer (d : Dev) (cap : Bool) (o : Op) : Dev :=
  let s := fld (o.word 0) 0 6
  let x := d.stream cap s
  if !streamDescOk cap o then d.finish o.id 0x10 none
  else if !d.ownsStream o.fn (if cap then 2 else 1) s then d.finish o.id 0x11 none
  else if x.queue.any (fun b => b.id = o.id) || decide (16 ≤ x.queue.length) || d.bufferWaits cap o then d
  else
    d.setStream cap s
      { x with
        queue := x.queue ++ [{ id := o.id, addr := BitVec.ofNat 48 (fld (o.word 1) 0 48), frames := fld (o.word 2) 0 16
                               recAt := BitVec.ofNat 48 (fld (o.word 3) 0 48), done := 0, first := none, flags := 0, status := 0 }] }

/-- PLAY (R350, R355). -/
def execAudioPlay (id : OpId) (s : State) : Host.Outcome State Fault Refusal :=
  runOp id (fun d => match d.activeOp id 5 3 with | some o => if d.runs 7 then d.queueBuffer false o else d | none => d) s

/-- CAPTURE (R350, R355). -/
def execCapture (id : OpId) (s : State) : Host.Outcome State Fault Refusal :=
  runOp id (fun d => match d.activeOp id 5 4 with | some o => if d.runs 7 then d.queueBuffer true o else d | none => d) s

/-- HS_WAIT (R350, R363). -/
def execHsWait (id : OpId) (s : State) : Host.Outcome State Fault Refusal :=
  run (fun d =>
    match d.activeOp id 5 5 with
    | none => d
    | some o =>
      let port := fld (o.word 0) 0 4
      if !d.runs 7 then d
      else if fld (o.word 0) 4 4 ≠ 0 || fld (o.word 0) 16 56 ≠ 0 || (port ≠ 10 && port ≠ 11) then d.finish id 0x10 none
      else if d.owner 0x06 port ≠ o.fn then d.finish id 0x11 none
      else if d.audio.waits.contains id then d.hsNotify
      else ({ d with audio := { d.audio with waits := d.audio.waits ++ [id] } } : Dev).hsNotify) s

/-! Converters, ports and headsets. -/

/-- Whether a converter may have locked (R358): its group delay has filled where its ratio is exact, else its measured ratio has stayed for
10 ms within 1 ppm. -/
def Dev.mayLock (d : Dev) (n : Nat) : Bool :=
  let c := d.conv n
  if d.exactRatio n then decide (outerDelay ≤ c.taken) && decide (innerDelay ≤ c.age) else decide (1920 ≤ c.steady)

/-- ASRC_LOCK (R358). -/
def execAsrcLock (node : Nat) (at_ : Nat) (s : State) : Host.Outcome State Fault Refusal :=
  run (fun d =>
    match tfind d.audio.convs node with
    | none => d
    | some c =>
      let t := fld (d.obj 0x05 node 1) 10 6
      let signal := (t = 1 || t = 2) || (d.aport (fld (d.obj 0x05 node 2) 0 4)).state = 2
      if d.audio.running && d.runs 7 && c.state = 1 && signal && d.mayLock node then (d.tick at_).setConv node { c with state := 2, lockedAt := d.audio.count } else d) s

/-- Whether a slave port's frame rate lies within 1,000 ppm of RATE (R361). -/
def Dev.rateGood (d : Dev) (q mHz : Nat) : Bool :=
  let r := portRate (fld (d.obj 0x06 q 1) 24 4) * 1000
  decide (((mHz : Int) - (r : Int)).natAbs * 1000 ≤ r)

/-- PORT_LOST (R361): FS is missing (rate 0) or out of range. -/
def execPortLost (q : Fin 12) (mHz : Nat) (s : State) : Host.Outcome State Fault Refusal :=
  run (fun d =>
    let x := d.aport q.val
    let w := d.obj 0x06 q.val 1
    if d.runs 7 && decide (q.val < 8) && bit w 31 && bit w 30 && (x.state = 1 || x.state = 2) && !d.rateGood q.val mHz then
      ((d.setAport q.val { x with state := 3, measured := BitVec.ofNat 40 mHz, errors := satInc x.errors, good := 0 }).unlockPort q.val).setEv (d.owner 0x06 q.val) 5
    else d) s

/-- PORT_RECOVER (R361): 8 good frames. -/
def execPortRecover (q : Fin 12) (mHz : Nat) (s : State) : Host.Outcome State Fault Refusal :=
  run (fun d =>
    let x := d.aport q.val
    if d.runs 7 && x.state = 3 && d.rateGood q.val mHz then d.setAport q.val { x with state := 1, measured := BitVec.ofNat 40 mHz, good := 8 } else d) s

/-- The band of a mic-line reading (R362): a button, 5 for a release, or none. -/
def micBand (mv : Nat) : Nat :=
  if mv ≤ 120 then 1 else if 180 ≤ mv ∧ mv ≤ 329 then 2 else if 330 ≤ mv ∧ mv ≤ 500 then 3 else if 560 ≤ mv ∧ mv ≤ 800 then 4 else if 1000 ≤ mv then 5 else 0

/-- HS_TYPE from the sum of ten readings (R362). -/
def micType (sum : Nat) : BitVec 3 := if sum < 1200 then 1 else if sum < 10000 then 3 else if sum < 25000 then 2 else 4

/-- One 1 kHz sample of an enabled headset port (R362). -/
def AudPort.hsStep (x0 : AudPort) (biasEn det : Bool) (mv : Nat) : AudPort :=
  let x := { x0 with micMv := BitVec.ofNat 12 (Nat.min mv 4095), det := if det then x0.det + 1 else 0, rel := if det then 0 else x0.rel + 1 }
  if x.state = 1 then (if 200 ≤ x.det then { x with state := 2, bias := biasEn, settle := 0, sum := 0, hsType := 0, button := 0 } else x)
  else if 10 ≤ x.rel then { x with state := 1, hsType := 0, button := 0, bias := false, det := 0, band := 0, bandMs := 0 }
  else if x.state = 2 then
    let n := x.settle + 1
    let sum := if 20 < n then x.sum + mv else 0
    if n < 30 then { x with settle := n, sum := sum }
    else { x with settle := n, sum := sum, state := 3, hsType := micType sum, bias := x.bias && micType sum = 2, band := 0, bandMs := 0 }
  else if x.hsType = 2 then
    let b := micBand mv
    let run := if b = x.band then x.bandMs + 1 else 1
    { x with band := b, bandMs := run, button := if run < 20 || b = 0 then x.button else if b = 5 then 0 else BitVec.ofNat 3 b }
  else x

/-- HS_SAMPLE (R362, R363). -/
def execHsSample (n : Fin 2) (at_ : Nat) (det : Bool) (mv : Nat) (s : State) : Host.Outcome State Fault Refusal :=
  run (fun d =>
    let i := 10 + n.val
    if d.runs 7 && bit (d.obj 0x06 i 1) 31 then
      let d1 := d.tick at_
      d1.setHeadset i ((d1.aport i).hsStep (bit (d1.obj 0x06 i 1) 0) det mv)
    else d) s

end Sys2Proof.Machine
end

