-- ==== Sys2Proof/Machine/Checks.lean ====
section
/-! DEFINITION. Check-value units (R366 to R383), Vitrine writes (R251 to R254), DMA operations (R410 to R413), and the host's
aperture (R137 to R140). -/

namespace Sys2Proof.Machine

/-! Comparison (R257, R374, R375, R382, R383). -/

/-- The plane with CHECK 1 that names a unit on its pipe's output tap. -/
def Dev.cvuPlane (d : Dev) (u : Nat) : Option Nat :=
  (List.range 48).find? (fun i => bit (d.obj 0x04 i 1) 2 && fld (d.obj 0x04 i 9) 0 5 = u && d.cvuTap u = i / 4 + 1)

/-- The reference of a unit's comparisons, and whether it makes them. -/
def Dev.cvuRef (d : Dev) (u : Nat) : Nat := match d.cvuPlane u with | some i => fld (d.obj 0x04 i 10) 0 64 | none => fld (d.cw u 7) 0 64
def Dev.cvuCompares (d : Dev) (u : Nat) : Bool := (d.cvuPlane u).isSome || bit (d.cw u 1) 16

/-- A record about a unit; one of a mismatch reaches the safety manager when REPORT is 1 or a plane names the unit. -/
def Dev.cvuRecord (d : Dev) (u cls a b : Nat) : Dev := d.smRecord cls (locusEngine 0x09 u) (some (d.owner 0x0A u)) a b
def Dev.cvuReport (d : Dev) (u cls a b : Nat) : Dev :=
  if (d.cvuPlane u).isSome || bit (d.cw u 1) 15 then d.cvuRecord u cls a b else d

/-- A mismatch counted and raised: CVU_MISMATCH on a pipe, EV_FAULT to the owner of an audio-sink unit (R257, R383). -/
def Dev.cvuMiss (d : Dev) (u : Nat) : Dev :=
  let d1 := d.setCvu u { d.cvu u with mismatches := satInc (d.cvu u).mismatches }
  let d2 := match d1.cvuPlane u with
    | some i => let w := d1.live 0x04 i 15; d1.setLive 0x04 i 15 (setFld w 48 16 (satAdd 16 (fld w 48 16) 1))
    | none => d1
  match d.cvuPipe u with
  | some p => d2.pipeEvent p 7
  | none => d2.setEv (d.owner 0x0A u) 5

/-- An uncorrectable reference at a comparison (R382). -/
def Dev.cvuRefFault (d : Dev) (u v : Nat) : Dev :=
  (d.setCvu u { d.cvu u with refFaults := satInc (d.cvu u).refFaults, state := 5 }).cvuRecord u 0x13 v 0

/-- The comparison of a recurring tap (R382, R383). -/
def Dev.judge (d : Dev) (u v : Nat) : Dev :=
  let x := d.cvu u
  let ref := d.cvuRef u
  if !d.cvuCompares u || x.state = 5 then d
  else if x.refBad then d.cvuRefFault u v
  else if v = ref then
    let d1 := match d.cvuPlane u with | some i => d.setLive 0x04 i 15 (setFld (d.live 0x04 i 15) 0 48 x.tag.toNat) | none => d
    if x.state = 3 then (d1.setCvu u { x with state := 1, cleared := satInc x.cleared }).cvuReport u 0x11 v ref
    else if x.state = 4 then (d1.setCvu u { x with state := 1 }).cvuReport u 0x11 v ref
    else d1
  else if x.state = 3 && v = x.held.toNat then
    ((d.setCvu u { x with state := 4, suspects := satInc x.suspects }).cvuMiss u).cvuReport u 0x12 v ref
  else if x.state = 4 && v = x.held.toNat then (d.cvuMiss u).cvuReport u 0x12 v ref
  else ((d.setCvu u { x with state := 3, held := BitVec.ofNat 64 v }).cvuMiss u).cvuReport u 0x10 v ref

/-- The comparison of a period that does not recur (R382, R383): whether it matches, or makes none. -/
def Dev.judgeOnce (d : Dev) (u v : Nat) : Dev × Bool :=
  let x := d.cvu u
  if !d.cvuCompares u || x.state = 5 then (d, true)
  else if x.refBad then (d.cvuRefFault u v, true)
  else if v = d.cvuRef u then (d, true)
  else ((d.setCvu u { x with mismatches := satInc x.mismatches }).cvuReport u 0x10 v (d.cvuRef u), false)

/-- A final value: LAST and PERIOD_TAG, and the next period from INIT (R374). -/
def Dev.cvuFinal (d : Dev) (u v tag : Nat) (active : Bool) : Dev :=
  d.setCvu u
    { d.cvu u with
      last := BitVec.ofNat 64 v, tag := BitVec.ofNat 48 tag, reg := BitVec.ofNat 64 (d.crcOf u).init, active := active
      segments := 0, bytes := 0, next := none }

/-- PERIOD_TAG of the next period of a tap that counts periods. -/
def Dev.cvuCount (d : Dev) (u : Nat) : Nat := (d.cvu u).tag.toNat + 1

/-! Recurring taps. -/

/-- The region of a pipe-output unit (R369, R375): x, y, width, height. -/
def Dev.cvuWindow (d : Dev) (u : Nat) : Nat × Nat × Nat × Nat :=
  match d.cvuPlane u with
  | some i =>
    let r := d.obj 0x04 i 8
    let s := d.obj 0x04 i 5
    (fld s 0 14 + fld r 0 14, fld s 14 14 + fld r 14 14, fld r 28 14 + 1, fld r 42 14 + 1)
  | none => let r := d.cw u 5; (fld r 0 14, fld r 14 14, fld r 28 14 + 1, fld r 42 14 + 1)

/-- The bytes of pixels x0 to below x1 of line y as pipe p sends them (R278, R372). -/
def Dev.lineBytes (d : Dev) (p y x0 x1 : Nat) : Dev × List Byte :=
  let w5 := d.obj 0x02 p 5
  (List.range (x1 - x0)).foldl (fun (acc : Dev × List Byte) i =>
    let (d1, q) := acc.1.pipePx p (x0 + i) y
    (d1, acc.2 ++ pixelBytes (fld w5 2 2) (depthBits (fld w5 4 2)) (bit w5 6) (bit w5 7) (x0 + i) y q)) (d, [])

/-- The provenance word of line y (R371, R373, R375). -/
def Dev.lineProv (d : Dev) (u p y : Nat) : Nat :=
  if (d.cvuPlane u).isSome || d.cvuProv u = 3 then y
  else if d.cvuProv u = 4 then (d.pt p).frame.toNat * 2 ^ 16 + y
  else 0

/-- The value of a frame's window (R371, R372). -/
def Dev.windowValue (d : Dev) (u p : Nat) : Dev × Nat :=
  let c := d.crcOf u
  let (x, y, w, h) := d.cvuWindow u
  let t := d.timing p
  let x1 := Nat.min (x + w) t.hact
  let lines := if x1 ≤ x then [] else (List.range (Nat.min (y + h) t.vact - y)).map (fun i => y + i)
  let (d1, r) := lines.foldl (fun (acc : Dev × Nat) l =>
    let (d1, b) := acc.1.lineBytes p l x x1
    (d1, c.segment acc.2 (d.lineProv u p l) b)) (d, c.init)
  (d1, c.value r)

/-- The end of a unit's period in the frame that pipe p scans: once a frame, after the window's last line. -/
def Dev.pipePeriod (d : Dev) (u p at_ : Nat) : Dev :=
  let n := (d.pt p).frame.toNat
  let (_, y, _, h) := d.cvuWindow u
  match d.lineAt p (Nat.min (y + h) (d.timing p).vact) with
  | none => d
  | some t =>
    if !d.pipeRuns p || !(d.runs 6 || (d.pt p).showcase) || (d.cvu u).frame = n then d
    else
      let (d1, v) := (d.tick (Nat.max t at_)).windowValue u p
      ((d1.setCvu u { d1.cvu u with frame := n }).cvuFinal u v n false).judge u v

/-- The end of an audio-sink unit's period whose segments the port has sent. -/
def Dev.sinkPeriod (d : Dev) (u at_ : Nat) : Dev :=
  let x := d.cvu u
  match x.ended with
  | v :: rest => if d.runs 6 then ((d.tick at_).setCvu u { x with ended := rest, last := v, tag := BitVec.ofNat 48 (d.cvuCount u) }).judge u v.toNat else d
  | [] => d

/-- CVU_PERIOD_END (R257, R367, R371 to R375, R382, R383): of a unit on a pipe's output or an audio sink. -/
def execCvuPeriodEnd (u : Fin 32) (at_ : Nat) (s : State) : Host.Outcome State Fault Refusal :=
  run (fun d =>
    let t := d.cvuTap u.val
    if !d.cvuOn u.val then d
    else if tapKind t = 1 then d.pipePeriod u.val (t - 1) at_
    else if tapKind t = 5 then d.sinkPeriod u.val at_
    else d) s

/-! Operations on units (R378 to R381). -/

/-- The unit operations' common checks: reserved bits, the owner, the tap. -/
def Dev.cvuOp (o : Op) (audio : Bool) (h : Dev → Nat → Dev) (d : Dev) : Dev :=
  let u := fld (o.word 0) 0 5
  let k := tapKind (d.cvuTap u)
  if fld (o.word 0) 5 67 ≠ 0 || (1 < o.len && (fld (o.word 1) 48 24 ≠ 0 || fld (o.word 1) 0 48 % 64 ≠ 0)) then d.finish o.id 0x10 none
  else if d.owner 0x0A u ≠ o.fn then d.finish o.id 0x11 none
  else if !d.cvuOn u || !(k = 3 || (audio && k = 5)) then d.finish o.id 0x10 none
  else h d u

/-- CVU_SAMPLE (R379). Of a SUSPENDED unit, in which no period runs, the manual states no value (tag 23). -/
def execCvuSample (id : OpId) (s : State) : Host.Outcome State Fault Refusal :=
  runOp id (fun d =>
    match d.activeOp id 8 1 with
    | none => d
    | some o =>
      if !d.runs 6 then d
      else
        Dev.cvuOp o false (fun d u =>
          let x := d.cvu u
          let c := d.crcOf u
          if x.state = 2 then d.finish id 0 (some (Config.unstated 23 [u, x.reg.toNat]))
          else
            let v := c.value (if x.active then x.reg.toNat else c.init)
            ((d.cvuFinal u v (d.cvuCount u) true).judgeOnce u v).1.finish id 0 (some v)) d) s

/-- CVU_SAVE (R380): on an audio sink at a segment boundary. -/
def execCvuSave (id : OpId) (s : State) : Host.Outcome State Fault Refusal :=
  runOp id (fun d =>
    match d.activeOp id 8 2 with
    | none => d
    | some o =>
      if !d.runs 6 then d
      else
        Dev.cvuOp o true (fun d u =>
          let x := d.cvu u
          let c := d.crcOf u
          let audio := tapKind (d.cvuTap u) = 5
          let inside := audio && x.state ≠ 2 && x.active && !x.wait && (d.aport (d.cvuTap u - 0x40)).frames % 48 ≠ 0
          if inside then d else
          let (segs, r, n) : Nat × Nat × Nat :=
            if x.state = 2 || x.active then (if audio then x.segments else 0, x.reg.toNat, x.bytes) else (0, c.init, x.bytes)
          let w0 : Nat := (c.width - 1) * 2 ^ 64 + r
          let w1 : Nat := segs % 2 ^ 16 * 2 ^ 48 + n % 2 ^ 48
          let w2 : Nat := if audio then 0 else match x.next with | some a => a.toNat | none => 0
          match d.writeWords o.fn (fld (o.word 1) 0 48) [BitVec.ofNat 72 w0, BitVec.ofNat 72 w1, BitVec.ofNat 72 w2] with
          | (d2, .error (cause, va)) => d2.opFault id o.fn cause va
          | (d2, .ok _) =>
            (d2.setCvu u { x with state := 2, active := false, reg := BitVec.ofNat 64 r, segments := segs, bytes := n }).finish id 0 (some r)) d) s

/-- CVU_RESTORE (R381). -/
def execCvuRestore (id : OpId) (s : State) : Host.Outcome State Fault Refusal :=
  runOp id (fun d =>
    match d.activeOp id 8 3 with
    | none => d
    | some o =>
      if !d.runs 6 then d
      else
        Dev.cvuOp o true (fun d u =>
          match d.readWords o.fn (fld (o.word 1) 0 48) 3 .read with
          | (d1, .error (cause, va)) => d1.opFault id o.fn cause va
          | (d1, .ok l) =>
            let x := d1.cvu u
            let w (i : Nat) := nth l i 0
            let wd := (d1.crcOf u).width
            let audio := tapKind (d1.cvuTap u) = 5
            if fld (w 0) 64 6 + 1 ≠ wd || fld (w 0) 70 2 ≠ 0 || fld (w 1) 64 8 ≠ 0 || fld (w 2) 64 8 ≠ 0 then d1.finish id 0x10 none
            else
              let n := fld (w 1) 0 48
              (d1.setCvu u
                { x with
                  state := 1, active := true, wait := audio, reg := BitVec.ofNat 64 (fld (w 0) 0 64 % 2 ^ wd), segments := if audio then fld (w 1) 48 16 else 0, bytes := n
                  next := if audio || n = 0 then none else some (BitVec.ofNat 48 (fld (w 2) 0 48))
                  abandoned := if x.state = 2 then x.abandoned else satInc x.abandoned }).finish id 0 none) d) s

/-! Vitrine writes (R251 to R254, R377). -/

/-- Whether a Vitrine page, by its number in the device-physical space, is covered (R251). -/
def Dev.covered (d : Dev) (g : Nat) : Bool :=
  d.comp.planes.any (fun x => x.2.any (fun y => y.2 = g)) || d.commits.any (fun c => c.planes.any (fun x => x.2.any (fun y => y.2 = g)))

/-- Pages of the Vitrine put into a state: 1 PENDING, 2 CHECKED, 3 BAD. -/
def Dev.markPages (d : Dev) (st : BitVec 2) (pas : List Nat) : Dev :=
  { d with comp := { d.comp with pages := pas.foldl (fun m a => tset m ((a - vitrineBase) / 4096) st) d.comp.pages } }

/-- The enabled arrival units, and whether one is busy with another VITRINE_WRITE (R377): a started one keeps its unit, by its number + 1. -/
def Dev.arrivalUnits (d : Dev) : List Nat := indices 32 (fun u => d.cvuOn u && d.cvuTap u = 0x10)
def Dev.arrivalBusy (d : Dev) (o : Op) (u : Nat) : Bool := d.ops.any (fun x => x.active && x.target = 3 && x.id ≠ o.id && x.stage = u + 1)

/-- The arrival unit of a VITRINE_WRITE (R377): the one that it keeps, else the lowest-numbered one that is not busy. -/
def Dev.arrivalUnit (d : Dev) (o : Op) : Option Nat :=
  match d.arrivalUnits.find? (fun u => u + 1 = o.stage) with
  | some u => some u
  | none => d.arrivalUnits.find? (fun u => !d.arrivalBusy o u)

/-- The descriptor words of an operation, read ahead where it has not been started. -/
def Dev.descAhead (d : Dev) (o : Op) : List W72 :=
  if o.phase = .released then (match d.readWords o.fn o.addr.toNat o.len .read with | (_, .ok l) => l | (_, .error _) => []) else o.desc

/-- The destination pages of a VITRINE_WRITE: device-virtual and device-physical, or a fault. -/
def vitrineDest (l : List W72) : List (Nat × Nat) := (List.range (fld (nth l 2 0) 0 11)).map (fun i => ((fld (nth l 0 0) 0 48 + 4096 * i) % 2 ^ 48, 4096))
def Dev.vitrinePas (d : Dev) (o : Op) : List Nat :=
  match d.translateAll o.fn .vitrine (vitrineDest (d.descAhead o)) with
  | (_, .ok t) => t.map (fun x => x.2.1)
  | (_, .error _) => []

/-- Operations of the same target that were released before one and have not ended. -/
def Dev.earlierOps (d : Dev) (o : Op) : List Op :=
  (d.ops.takeWhile (fun x => x.id ≠ o.id)).filter (fun x => x.target = o.target && (x.phase = .released || x.phase = .started))

/-- Whether an earlier VITRINE_WRITE has a page in common (R254), or every arrival unit is busy (R377). -/
def Dev.vitrineWaits (d : Dev) (o : Op) : Bool :=
  let mine := d.vitrinePas o
  (d.earlierOps o).any (fun x => (d.vitrinePas x).any (fun a => mine.contains a)) || (d.arrivalUnits ≠ [] && (d.arrivalUnit o).isNone)

/-- The checks of R252, in order: the arrival unit and the translated pages; a refused operation has ended. -/
def Dev.vitrineCheck (d : Dev) (o : Op) : Dev × Option (Nat × List (Nat × Nat × Nat)) :=
  let w := o.word
  let bad := fld (w 0) 48 24 ≠ 0 || fld (w 1) 48 24 ≠ 0 || fld (w 2) 11 61 ≠ 0 || fld (w 3) 64 8 ≠ 0 || fld (w 2) 0 11 = 0 || 1024 < fld (w 2) 0 11 ||
    fld (w 0) 0 48 % 4096 ≠ 0
  if bad then (d.finish o.id 0x10 none, none)
  else
    match d.arrivalUnit o with
    | none => (d.finish o.id 0x10 none, none)
    | some u =>
      match d.translateAll o.fn .vitrine (vitrineDest o.desc) with
      | (d1, .error (cause, va)) => (d1.opFault o.id o.fn cause va, none)
      | (d1, .ok t) => if t.any (fun x => d1.covered (x.2.1 / 4096)) then (d1.finish o.id 0x10 none, none) else (d1, some (u, t))

/-- Pages of data arriving (R253, R371, R373): each page a segment, its device-virtual address as provenance. -/
def Dev.arrive (d : Dev) (c : Crc) (f src : Nat) (l : List (Nat × Nat × Nat)) (r : Nat) : Dev × Except (Nat × Nat) Nat :=
  match l with
  | [] => (d, .ok r)
  | (va, pa, _) :: rest =>
    match d.readV f (src % 2 ^ 48) 4096 .read with
    | (d1, .error e) => (d1, .error e)
    | (d1, .ok b) => (d1.poke pa b).arrive c f (src + 4096) rest (c.segment r va b)

/-- The start of a VITRINE_WRITE that passes its checks (R253). -/
def Dev.vitrineStart (d : Dev) (id : OpId) : Dev :=
  match d.activeOp id 3 1 with
  | none => d
  | some o =>
    if d.vitrineWaits o then d
    else
      match d.vitrineCheck o with
      | (d1, some (u, t)) => (d1.markPages 1 (t.map (fun x => x.2.1))).updOp id (fun x => { x with stage := u + 1 })
      | (_, none) => d

/-- Whether the DMA engine runs as many operations as it can (R412). -/
def Dev.dmaFull (d : Dev) : Bool := decide (16 ≤ (d.ops.filter (fun o => o.active && decide (o.target = 2))).length)

/-- ENGINE_OP_START (R66, R104, R153, R155, R432): a stale operation is discarded, an unknown type or length completes ST_RANGE,
a weight of 0 or a full DMA engine (R412) holds it; else its descriptor is read, and the pages of a VITRINE_WRITE are PENDING from then on (R253). -/
def execEngineOpStart (id : OpId) (s : State) : Host.Outcome State Fault Refusal :=
  runOp id (fun d =>
    match d.op id with
    | none => d
    | some o =>
      let held := match shareClass o.target.toNat with | some k => weightOf d.obj o.fn k = 0 | none => false
      if o.phase ≠ .released then d
      else if !d.current o then d.dropOp id
      else if !d.runs (targetBlock o.target.toNat) || held || (o.target = 2 && d.dmaFull) then d
      else if !opLengthOk o.target.toNat o.kind.toNat o.len then d.finish id 0x10 none
      else
        match d.readWords o.fn o.addr.toNat o.len .read with
        | (d1, .error (cause, va)) => d1.descFault id o.fn cause va
        | (d1, .ok ws) => (d1.updOp id (fun o => { o with phase := .started, desc := ws })).vitrineStart id) s

/-- VITRINE_WRITE (R36, R44, R252 to R254, R366, R377, R382). -/
def execVitrineWrite (id : OpId) (s : State) : Host.Outcome State Fault Refusal :=
  runOp id (fun d =>
    match d.activeOp id 3 1 with
    | none => d
    | some o =>
      if !d.runs 5 || !d.runs 6 || d.vitrineWaits o then d
      else
        match d.vitrineCheck o with
        | (d1, none) => d1
        | (d1, some (u, t)) =>
          let c := d1.crcOf u
          let pas := t.map (fun x => x.2.1)
          match (d1.markPages 1 pas).arrive c o.fn (fld (o.word 1) 0 48) t c.init with
          | (d2, .error (cause, va)) => (d2.markPages 3 pas).opFault id o.fn cause va
          | (d2, .ok r) =>
            let v := c.value r
            let ref := fld (o.word 3) 0 64
            let d3 := d2.cvuFinal u v (d2.cvuCount u) false
            let x := d3.cvu u
            if x.refBad then
              (((d3.setCvu u { x with refBad := false, refFaults := satInc x.refFaults }).cvuRecord u 0x13 v 0).markPages 3 pas).finish id 0x22 (some v)
            else if v = ref then (d3.markPages 2 pas).finish id 0 (some v)
            else
              (((d3.setCvu u { x with mismatches := satInc x.mismatches }).smRecord 0x14 (locusEngine 0x09 u) (some o.fn) v ref).markPages 3 pas).finish
                id 0x22 (some v)) s

/-- A VITRINE_WRITE squashed at a page boundary (R254): k pages have arrived; all are BAD. One that waits for an earlier write has not begun. -/
def Dev.vitrineCut (d : Dev) (o : Op) (k : Nat) : Dev :=
  if d.vitrineWaits o then d.finish o.id 0x02 none else
  match d.vitrineCheck o with
  | (d1, none) => d1
  | (d1, some (u, t)) =>
    let n := k % (t.length + 1)
    match d1.arrive (d1.crcOf u) o.fn (fld (o.word 1) 0 48) (t.take n) 0 with
    | (d2, .error (cause, va)) => (d2.markPages 3 (t.map (fun x => x.2.1))).opFault o.id o.fn cause va
    | (d2, .ok _) => (d2.markPages 3 (t.map (fun x => x.2.1))).finish o.id 0x02 none

/-! DMA (R410 to R413). -/

/-- A DMA descriptor. -/
structure Dma where
  source : Nat
  pattern : W72
  dest : Nat
  bytes : Nat
  rows : Nat
  dstPitch : Nat
  srcPitch : Nat
  unit : Option Nat
  deriving DecidableEq, Repr

/-- The descriptor of four words. -/
def dmaOf (l : List W72) : Dma :=
  let w (i : Nat) := nth l i 0
  { source := fld (w 0) 0 48, pattern := w 0, dest := fld (w 1) 0 48, bytes := fld (w 2) 40 32, rows := fld (w 2) 16 24 + 1, dstPitch := fld (w 3) 40 32
    srcPitch := fld (w 3) 8 32, unit := if bit (w 3) 7 then some (fld (w 3) 2 5) else none }

/-- Whether a row of the source and a row of the destination have an address in common (R411). -/
def Dma.overlaps (m : Dma) : Bool :=
  (List.range m.rows).any (fun i => (List.range m.rows).any (fun j =>
    let a := m.source + i * m.srcPitch
    let b := m.dest + j * m.dstPitch
    decide (a < b + m.bytes) && decide (b < a + m.bytes)))

/-- Whether the fields are in range (R410, R411): the unit apart. -/
def dmaOk (copy : Bool) (l : List W72) : Bool :=
  let w (i : Nat) := nth l i 0
  let m := dmaOf l
  (!copy || fld (w 0) 48 24 = 0) && fld (w 1) 48 24 = 0 && fld (w 2) 0 16 = 0 && fld (w 3) 0 2 ≠ 3 && m.bytes ≠ 0 && (copy || m.srcPitch = 0) &&
    (m.rows = 1 || (decide (m.bytes ≤ m.dstPitch) && (!copy || decide (m.bytes ≤ m.srcPitch)))) && decide (m.rows * m.bytes ≤ 2 ^ 40) &&
    (!copy || !m.overlaps)

/-- The parts of a row that lie in one 64-byte line of the destination each: offset in the row and length. -/
def linePieces (fuel dest off n : Nat) : List (Nat × Nat) :=
  match fuel with
  | 0 => []
  | k + 1 =>
    if n ≤ off then []
    else let m := Nat.min (n - off) (64 - (dest + off) % 64); (off, m) :: linePieces k dest (off + m) n

/-- The lines of all rows: row, offset, length. -/
def Dma.lines (m : Dma) : List (Nat × Nat × Nat) :=
  (List.range m.rows).flatMap (fun r => (linePieces (m.bytes / 64 + 2) (m.dest + r * m.dstPitch) 0 m.bytes).map (fun x => (r, x.1, x.2)))

/-- The lines written one after the other, and the unit's register over them. -/
def Dev.dmaMove (d : Dev) (copy : Bool) (f : Nat) (m : Dma) (c : Crc) (l : List (Nat × Nat × Nat)) (reg : Nat) : Dev × Except (Nat × Nat) Nat :=
  match l with
  | [] => (d, .ok reg)
  | (r, off, n) :: rest =>
    let got : Dev × Except (Nat × Nat) (List Byte) :=
      if copy then d.readV f ((m.source + r * m.srcPitch + off) % 2 ^ 48) n .read
      else (d, .ok ((List.range n).map (fun i => BitVec.ofNat 8 (bitsN m.pattern.toNat (8 * ((off + i) % 9)) 8))))
    match got with
    | (d1, .error e) => (d1, .error e)
    | (d1, .ok b) =>
      match d1.writeV f ((m.dest + r * m.dstPitch + off) % 2 ^ 48) b with
      | (d2, .error e) => (d2, .error e)
      | (d2, .ok _) => d2.dmaMove copy f m c rest (c.bytes reg b)

/-- Whether an earlier operation names the same unit (R412). -/
def Dev.dmaWaits (d : Dev) (o : Op) : Bool :=
  match (dmaOf o.desc).unit with
  | none => false
  | some u => (d.earlierOps o).any (fun x => (dmaOf (d.descAhead x)).unit = some u)

/-- The checks of a DMA operation: the status that ends it, if one does. -/
def Dev.dmaStop (d : Dev) (copy : Bool) (o : Op) : Option Nat :=
  if !dmaOk copy o.desc then some 0x10
  else
    match (dmaOf o.desc).unit with
    | none => none
    | some u => if !d.cvuOn u || d.cvuTap u ≠ 0x30 then some 0x10 else if d.owner 0x0A u ≠ o.fn then some 0x11 else none

/-- The register of a unit at the start of a DMA operation: INIT with its provenance folded in (R371). -/
def Dev.dmaStart (d : Dev) (o : Op) (m : Dma) (u : Nat) : Nat :=
  let c := d.crcOf u
  Nat.xor c.init (c.fold (if d.cvuProv u = 1 then m.dest else if d.cvuProv u = 2 then o.id.acc else 0))

/-- A DMA operation (R366, R371, R411 to R413). -/
def Dev.dma (d : Dev) (copy : Bool) (o : Op) : Dev :=
  if !d.runs 5 || d.dmaWaits o then d
  else
    match d.dmaStop copy o with
    | some st => d.finish o.id st none
    | none =>
      let m := dmaOf o.desc
      match m.unit with
      | none =>
        (match d.dmaMove copy o.fn m (crcPreset 0) m.lines 0 with
         | (d1, .error (cause, va)) => d1.opFault o.id o.fn cause va
         | (d1, .ok _) => d1.finish o.id 0 none)
      | some u =>
        match d.dmaMove copy o.fn m (d.crcOf u) m.lines (d.dmaStart o m u) with
        | (d1, .error (cause, va)) => d1.opFault o.id o.fn cause va
        | (d1, .ok r) =>
          let v := (d.crcOf u).value r
          let (d2, ok) := (d1.cvuFinal u v (d1.cvuCount u) false).judgeOnce u v
          d2.finish o.id (if ok then 0 else 0x22) (some v)

/-- COPY (R411 to R413). -/
def execCopy (id : OpId) (s : State) : Host.Outcome State Fault Refusal :=
  runOp id (fun d => match d.activeOp id 2 1 with | some o => d.dma true o | none => d) s

/-- FILL (R411 to R413). -/
def execFill (id : OpId) (s : State) : Host.Outcome State Fault Refusal :=
  runOp id (fun d => match d.activeOp id 2 2 with | some o => d.dma false o | none => d) s

/-- A DMA operation squashed at a 4 KiB boundary of its destination (R413): k such boundaries have been reached. -/
def Dev.dmaCut (d : Dev) (copy : Bool) (o : Op) (k : Nat) : Dev :=
  match d.dmaStop copy o with
  | some st => d.finish o.id st none
  | none =>
    let m := dmaOf o.desc
    let marks := (List.range m.lines.length).filter (fun i =>
      match m.lines[i]? with | some (r, off, _) => (m.dest + r * m.dstPitch + off) % 4096 = 0 | none => false)
    let n := nth (0 :: marks) (k % (marks.length + 1)) 0
    match d.dmaMove copy o.fn m (crcPreset 0) (m.lines.take n) 0 with
    | (d1, .error (cause, va)) => d1.opFault o.id o.fn cause va
    | (d1, .ok _) => d1.finish o.id 0x02 none

/-! The aperture (R137 to R140). -/

/-- The log2 size of a function's BAR2: a PF's own, a VF's by its PF's SR-IOV capability (R131). -/
def Dev.bar2Log2 (d : Dev) (f : Nat) : Nat := if f % 16 = 0 then (d.fn f).bar2Log2 else (d.port (f / 16)).vfBar2Log2

/-- The device-virtual address of an offset in BAR2: the bits of APERTURE_BASE from the BAR's size upward (R133, R137). -/
def Dev.aperture (d : Dev) (f off : Nat) : Nat := ((d.fn f).apertureBase.toNat / 2 ^ d.bar2Log2 f * 2 ^ d.bar2Log2 f + off) % 2 ^ 48

/-- BAR2_READ (R137, R138, R140, R439). -/
def execBar2Read (f : Fin 64) (off len : Nat) (s : State) : Host.Outcome State Fault Refusal :=
  runAs (mpHost f.val) (hosted (.bar2Read f off len) f.val (fun d =>
    if 2 ^ d.bar2Log2 f.val < off + len then { d with host := some .unsupported }
    else
      match d.readV f.val (d.aperture f.val off) len .read with
      | (d1, .ok b) => { d1 with host := some (.data b) }
      | (d1, .error (cause, va)) => { (d1.accessFault f.val cause srcBarRead 0 va) with host := some (.data (List.replicate len 0xFF)) })) s

/-- The byte-enabled bytes of a write with their device-virtual addresses, rising. -/
def enabledBytes (va : Nat) (l : List (Option Byte)) : List (Nat × Byte) :=
  match l with
  | [] => []
  | some b :: r => (va % 2 ^ 48, b) :: enabledBytes (va + 1) r
  | none :: r => enabledBytes (va + 1) r

/-- A write seen by a host-ingress unit (R371, R376, R380). -/
def Dev.ingress (f : Nat) (l : List (Nat × Byte)) (d : Dev) (u : Nat) : Dev :=
  let x := d.cvu u
  let c := d.crcOf u
  let first := fld (d.cw u 5) 0 48
  let size := fld (d.cw u 6) 0 48
  let mine := l.filter (fun y => decide (first ≤ y.1) && decide (y.1 < first + size))
  if !d.cvuOn u || d.cvuTap u ≠ 0x20 + f / 16 || fld (d.cw u 6) 48 6 ≠ f || x.state = 2 then d
  else
    match mine.head?, mine.getLast? with
    | some (a, _), some (z, _) =>
      let r0 := if x.active then x.reg.toNat else c.init
      let joins := x.active && x.next = some (BitVec.ofNat 48 a)
      let r1 := if joins then r0 else Nat.xor r0 (c.fold (if d.cvuProv u = 1 then a else 0))
      d.setCvu u
        { x with
          active := true, reg := BitVec.ofNat 64 (c.bytes r1 (mine.map (fun y => y.2))), bytes := (x.bytes + mine.length) % 2 ^ 48
          next := some (BitVec.ofNat 48 (z + 1)) }
    | _, _ => d

/-- Bytes stored one by one; a fault has been ruled out. -/
def Dev.storeBytes (d : Dev) (l : List (Nat × Byte)) : Dev :=
  match l with
  | [] => d
  | x :: r => ({ d with writes := x :: d.writes } : Dev).storeBytes r

/-- A host write through the aperture: all of its enabled bytes, or a fault and none (R137, R138, R140). -/
def Dev.bar2Store (d : Dev) (f va : Nat) (data : List (Option Byte)) : Dev :=
  let l := enabledBytes va data
  let whole := data.all (fun x => x.isSome)
  match d.translateAll f .write (if whole then pieces (va % 2 ^ 48) data.length else l.map (fun x => (x.1, 1))) with
  | (d1, .error (cause, a)) => d1.accessFault f cause srcBarWrite 0 a
  | (d1, .ok t) =>
    match t.find? (fun x => d1.dataCause x.2.1 x.2.2 = 0xE) with
    | some x => d1.accessFault f 0xE srcBarWrite 0 x.1
    | none =>
      let d2 :=
        if whole then d1.storePieces f true t (l.map (fun x => x.2))
        else
          (dedup (l.map (fun x => x.1 / 4096))).foldl (fun d g => (d.dirtyLog f (g * 4096)).scanWatch f (g * 4096))
            (d1.storeBytes ((t.zip l).map (fun z => (z.1.2.1, z.2.2))))
      (List.range 32).foldl (Dev.ingress f l) d2

/-- BAR2_WRITE (R137 to R140, R371, R439). -/
def execBar2Write (f : Fin 64) (off : Nat) (data : List (Option Byte)) (s : State) : Host.Outcome State Fault Refusal :=
  runAs (mpHost f.val) (hosted (.bar2Write f off data) f.val (fun d =>
    if 2 ^ d.bar2Log2 f.val < off + data.length then d else d.bar2Store f.val (d.aperture f.val off) data)) s

end Sys2Proof.Machine
end

