-- ==== Sys2Proof/Machine/Touching.lean ====
section
/-! DEFINITION. The touch engine's commands: reports and raw frames, timeouts, starts and faults, and its operations (R303 to
R321). -/

namespace Sys2Proof.Machine

/-! Measurements. -/

/-- A measurement of a contact: its mapped position, pressure and size. -/
structure Meas where
  x : Nat
  y : Nat
  pressure : Nat
  width : Nat
  height : Nat
  px : Int
  py : Int
  deriving DecidableEq, Repr

/-- A quotient that a whole-number field reports; its rounding, and a quotient by zero, the manual leaves open (tag). -/
def openDiv (tag n d : Nat) : Nat := if d = 0 then Config.unstated tag [n, d] else if n % d = 0 then n / d else n / d + Config.unstated tag [n, d] % 2

/-- One smoothing step of R314. -/
def smooth (w6 : W72) (p m : Nat) : Nat := add36 p (mul36 (frac36 (fld w6 28 8 + 1) 256) (sub36 m p))

/-- Whether a position is at least HYST / 16 pixel from the delivered one (R314). -/
def movedBy (w6 : W72) (p sent : Nat) : Bool := le36 (frac36 (fld w6 20 8) 16) (sub36 p (frac36 (sixteenths sent) 16) % 2 ^ 35)

/-- A change of a contact of a channel. -/
def Dev.setContact (d : Dev) (c : Nat) (k : Contact) : Dev :=
  d.setTch c { d.tch c with contacts := (d.tch c).contacts.map (fun x => if x.num = k.num then k else x) }
def Dev.dropContact (d : Dev) (c num : Nat) : Dev := d.setTch c { d.tch c with contacts := (d.tch c).contacts.filter (fun x => x.num ≠ num) }

/-- A later measurement of an active contact (R314): the smoothed position, and a MOVE where it is due. -/
def Dev.touchMove (d : Dev) (c stamp : Nat) (k : Contact) (m : Meas) : Dev :=
  let w6 := d.tw c 6
  let x := smooth w6 k.x m.x
  let y := smooth w6 k.y m.y
  let p := Nat.min m.pressure 1023
  let k1 : Contact := { k with px := m.px, py := m.py, x := x, y := y, width := m.width, height := m.height, pressure := p, absent := 0, fresh := true }
  if movedBy w6 x k.sentX || movedBy w6 y k.sentY || decide (k.sentPressure + 16 ≤ p) || decide (p + 16 ≤ k.sentPressure) then
    let k2 : Contact := { k1 with sentX := x, sentY := y, sentPressure := p }
    (d.setContact c k2).touchPlain c 2 stamp 0 k2
  else d.setContact c k1

/-- The lowest contact number that is free (R321). -/
def TouchChan.freeNum (x : TouchChan) : Nat := ((List.range 10).find? (fun n => x.contacts.all (fun k => k.num ≠ n))).getD 0

/-- A new contact (R308, R314, R316, R317): DOWN, or a discard beyond MAX_CONTACTS. -/
def Dev.touchDown (d : Dev) (c stamp ident : Nat) (m : Meas) : Dev :=
  let x := d.tch c
  if Nat.min 10 (fld (d.tw c 6) 0 4) ≤ x.contacts.length then d.setTch c { x with overflows := satInc x.overflows }
  else
    let p := Nat.min m.pressure 1023
    let k : Contact :=
      { num := x.freeNum, serial := x.serial + 1, ident := ident, owner := 0, px := m.px, py := m.py, x := m.x, y := m.y, sentX := m.x, sentY := m.y, width := m.width
        height := m.height, pressure := p, sentPressure := p, absent := 0, fresh := true }
    let (d1, k1) := d.touchHit c stamp 0 false k
    d1.setTch c { d1.tch c with contacts := (d1.tch c).contacts ++ [k1], serial := x.serial + 1 }

/-- A contact ends with UP, hit-tested at its last delivered position, or with CANCEL. -/
def Dev.touchUp (d : Dev) (c stamp flags : Nat) (k : Contact) : Dev := ((d.dropContact c k.num).touchHit c stamp flags true k).1
def Dev.touchCancel (d : Dev) (c stamp flags : Nat) (k : Contact) : Dev := (d.dropContact c k.num).touchPlain c 4 stamp flags k

/-- The contacts that a report or frame does not measure (R315): absent, and lifted after STALE_REPORTS. -/
def Dev.touchStale (d : Dev) (c stamp : Nat) : Dev :=
  let limit := fld (d.tw c 6) 8 4
  let d1 := ((d.tch c).contacts.filter (fun k => !k.fresh)).foldl (fun d k =>
    if limit ≤ k.absent + 1 then d.touchUp c stamp 32 k else d.setContact c { k with absent := k.absent + 1 }) d
  d1.setTch c { d1.tch c with contacts := (d1.tch c).contacts.map (fun k => { k with fresh := false }) }

/-- A report or frame accepted (R304, R315). -/
def Dev.touchAccept (d : Dev) (c : Nat) : Dev :=
  d.setTch c { d.tch c with reports := satInc (d.tch c).reports, lastStamp := BitVec.ofNat 64 d.now, errRun := 0 }

/-- A bus error (R304, R315): the third in a row is a fault with its cause. -/
def Dev.touchError (d : Dev) (c cause : Nat) : Dev :=
  let x := d.tch c
  let d1 := d.setTch c { x with busErrors := satInc x.busErrors, errRun := x.errRun + 1 }
  if 3 ≤ x.errRun + 1 then d1.touchFault c cause else d1

/-! HID reports. -/

/-- A finger entry whose position is in its logical range (R308, R312, R313). HID sizes and pressures have no stated unit: free
values (tags 24, 25). -/
def Dev.finger (stamp c : Nat) (d : Dev) (f : Finger) : Dev :=
  let old := (d.tch c).contacts.find? (fun k => k.ident = f.id)
  if f.x < f.xMin || f.xMax < f.x || f.y < f.yMin || f.yMax < f.y then d.setTch c { d.tch c with rangeDrops := satInc (d.tch c).rangeDrops }
  else if !f.confidence then (match old with | some k => d.touchCancel c stamp 128 k | none => d)
  else if !f.tip then (match old with | some k => d.touchUp c stamp 0 k | none => d)
  else
    let unit (v lo hi : Int) : Nat := if lo = hi then f36.qnan else frac36 (v - lo).toNat (hi - lo).toNat
    let (x, y) := d.touchMap c (unit f.x f.xMin f.xMax) (unit f.y f.yMin f.yMax)
    if !d.touchInside c x y then d
    else
      let (w, h) := d.touchSize (d.touchPipe c)
      let m : Meas :=
        { x := x, y := y, pressure := Config.unstated 25 [f.pressure], width := Config.unstated 24 [f.width, (f.xMax - f.xMin).toNat, w]
          height := Config.unstated 24 [f.height, (f.yMax - f.yMin).toNat, h], px := 0, py := 0 }
      match old with
      | some k => d.touchMove c stamp k m
      | none => d.touchDown c stamp f.id m

/-- A scan that is complete (R308). -/
def Dev.touchScan (d : Dev) (c : Nat) (l : List Finger) : Dev :=
  let d1 := d.setTch c { d.tch c with scan := [], scanLeft := 0 }
  (l.foldl (Dev.finger d.now c) d1).touchStale c d.now

/-- TOUCH_REPORT (R33, R307, R308, R312 to R317): a report, read by the channel's descriptor as its bytes: its identifier, where it
has one, and its data. A Contact Count that starts a scan drops one that is not complete. -/
def execTouchReport (ch : Fin 12) (at_ : Nat) (id : Option Byte) (data : List Byte) (s : State) : Host.Outcome State Fault Refusal :=
  runAs mpStream (fun d =>
    let c := ch.val
    let x := d.tch c
    match x.desc.bind (fun t => t.report (id.toList ++ data)) with
    | none => d
    | some (contactCount, fingers) =>
      if x.state ≠ 3 || fld (d.tw c 1) 26 2 ≠ 0 || !d.runs 9 then d
      else
        let d1 := (d.tick at_).touchAccept c
        let (old, left) := if contactCount = 0 then (x.scan, x.scanLeft) else ([], contactCount)
        let now := if contactCount = 0 && left = 0 then fingers else fingers.take left
        let rest := left - now.length
        if rest = 0 then d1.touchScan c (old ++ now) else d1.setTch c { d1.tch c with scan := old ++ now, scanLeft := rest }) s

/-! Raw frames. -/

/-- ROWS and COLS of a channel. -/
def Dev.grid (d : Dev) (c : Nat) : Nat × Nat := (fld (d.tw c 2) 40 8, fld (d.tw c 2) 32 8)

/-- The signal of node (r, k); none outside the grid. -/
def signalAt (rows cols : Nat) (sig : List Int) (r k : Int) : Option Int :=
  if 0 ≤ r && 0 ≤ k && r < rows && k < cols then sig[r.toNat * cols + k.toNat]? else none

/-- The 3 × 3 neighbourhood of a node: its nodes in the grid, with their signals. -/
def around (rows cols : Nat) (sig : List Int) (n : Nat) : List (Nat × Int) :=
  [-1, 0, 1].flatMap (fun (dr : Int) => [-1, 0, 1].filterMap (fun (dk : Int) =>
    let r : Int := (n / cols : Nat) + dr
    let k : Int := (n % cols : Nat) + dk
    (signalAt rows cols sig r k).map (fun s => (r.toNat * cols + k.toNat, s))))

/-- A peak of a frame (R310): its node, its signal, and the centroid's row and column as numerators over a common weight. -/
structure Peak where
  node : Nat
  s : Int
  row : Nat
  col : Nat
  weight : Nat
  deriving DecidableEq, Repr

/-- The peaks of a frame, row by row. -/
def peaksOf (rows cols : Nat) (sig : List Int) (release : Int) : List Peak :=
  (List.range (rows * cols)).filterMap (fun n =>
    let s := (sig[n]?).getD 0
    let near := around rows cols sig n
    if release ≤ s && near.all (fun z => z.1 = n || decide (z.2 < s) || (decide (z.2 = s) && decide (n < z.1))) then
      let l := near.filter (fun z => decide (release ≤ z.2))
      let sum (h : Nat → Nat) : Nat := (l.map (fun z => h z.1 * z.2.toNat)).foldl (· + ·) 0
      some { node := n, s := s, row := sum (fun i => i / cols), col := sum (fun i => i % cols), weight := sum (fun _ => 1) }
    else none)

/-- A centroid coordinate in 1/65536 node. A peak without weight has none (tag 26). -/
def Peak.at_ (p : Peak) (x : Nat) : Int := if p.weight = 0 then ((Config.unstated 26 [p.node, x] : Nat) : Int) else ((x * 65536 / p.weight : Nat) : Int)

/-- What a peak measures (R310, R312). -/
def Dev.peakMeas (d : Dev) (c : Nat) (sig : List Int) (p : Peak) : Meas :=
  let (rows, cols) := d.grid c
  let release : Int := (fld (d.tw c 7) 32 16 : Nat)
  let unit (x n : Nat) : Nat := if p.weight = 0 then Config.unstated 26 [p.node, x, n] % 2 ^ 36 else frac36 (2 * x + p.weight) (2 * p.weight * n)
  let (x, y) := d.touchMap c (unit p.col cols) (unit p.row rows)
  let (w, h) := d.touchSize (d.touchPipe c)
  let on (i : Nat) : Bool := decide (release ≤ (sig[i]?).getD 0)
  let inCol := (indices rows (fun r => on (r * cols + p.node % cols))).length
  let inRow := (indices cols (fun k => on (p.node / cols * cols + k))).length
  { x := x, y := y, pressure := Nat.min 1023 (openDiv 27 (p.s.toNat * 256) (fld (d.tw c 7) 48 16)), width := openDiv 28 (inCol * w) cols
    height := openDiv 28 (inRow * h) rows, px := p.at_ p.col, py := p.at_ p.row }

/-- The pairs of peaks and contacts within TRACK_RADIUS, nearest first: squared distance, contact, peak. -/
def touchPairs (radius : Int) (peaks : List Peak) (ks : List Contact) : List (Int × Nat × Nat) :=
  let all := peaks.flatMap (fun p => ks.filterMap (fun k =>
    let dx := p.at_ p.col - k.px
    let dy := p.at_ p.row - k.py
    let q := dx * dx + dy * dy
    if q ≤ radius * radius then some (q, k.num, p.node) else none))
  sortBy (fun a b => decide (a.1 < b.1) || (decide (a.1 = b.1) && decide (a.2.1 ≤ b.2.1))) all

/-- The pairs kept: each contact and each peak at most once. -/
def matchPairs (l : List (Int × Nat × Nat)) : List (Nat × Nat) :=
  l.foldl (fun acc z => if acc.any (fun y => y.1 = z.2.1 || y.2 = z.2.2) then acc else acc ++ [(z.2.1, z.2.2)]) []

/-- The contacts of a frame (R310, R313 to R317). -/
def Dev.rawContacts (d : Dev) (c : Nat) (sig : List Int) : Dev :=
  let (rows, cols) := d.grid c
  let w7 := d.tw c 7
  let peaks := peaksOf rows cols sig (fld w7 32 16 : Nat)
  let pairs := matchPairs (touchPairs ((fld w7 24 8 * 4096 : Nat) : Int) peaks (d.tch c).contacts)
  let stamp := d.now
  let d1 := pairs.foldl (fun d z =>
    match peaks.find? (fun p => p.node = z.2), (d.tch c).contacts.find? (fun k => k.num = z.1) with
    | some p, some k =>
      let m := d.peakMeas c sig p
      if d.touchInside c m.x m.y then d.touchMove c stamp k m else d.setContact c { k with px := m.px, py := m.py }
    | _, _ => d) d
  let d2 := peaks.foldl (fun d p =>
    if pairs.any (fun z => z.2 = p.node) || decide (p.s < ((fld w7 48 16 : Nat) : Int)) then d
    else
      let m := d.peakMeas c sig p
      if d.touchInside c m.x m.y then d.touchDown c stamp 0 m else d) d1
  d2.touchStale c stamp

/-- The baseline followed, and the frames with a signal far below it counted (R311). -/
def Dev.trackBaseline (d : Dev) (c : Nat) (raw sig : List Int) : Dev :=
  let x := d.tch c
  let w7 := d.tw c 7
  let release : Int := (fld w7 32 16 : Nat)
  let touch : Int := (fld w7 48 16 : Nat)
  let runs := ((List.range sig.length).zip sig).map (fun z => if z.2 ≤ -touch then (x.sums[z.1]?).getD 0 + 1 else 0)
  if runs.any (fun n => decide (8 ≤ n)) then (d.cancelContacts c d.now 0).learnBaseline c
  else
    let step (b r s : Int) : Int := if -release < s && s < release then b + Int.tdiv (r - b) (2 ^ fld w7 20 4 : Nat) else b
    let base := if x.contacts = [] then (x.baseline.zip (raw.zip sig)).map (fun z => step z.1 z.2.1 z.2.2) else x.baseline
    d.setTch c { x with sums := runs, baseline := base }

/-- A frame in BASELINE (R311). -/
def Dev.learnFrame (d : Dev) (c : Nat) (raw : List Int) : Dev :=
  let x := d.tch c
  let sums := ((List.range raw.length).zip raw).map (fun z => (x.sums[z.1]?).getD 0 + z.2.toNat)
  if 32 ≤ x.learnt + 1 then d.setTch c { x with state := 3, src := 2, learnt := 32, sums := [], baseline := sums.map (fun n => ((n / 32 : Nat) : Int)) }
  else d.setTch c { x with learnt := x.learnt + 1, sums := sums }

/-- RAW_FRAME (R33, R309 to R317). -/
def execRawFrame (ch : Fin 12) (at_ : Nat) (bytes : List Byte) (s : State) : Host.Outcome State Fault Refusal :=
  runAs mpStream (fun d =>
    let c := ch.val
    let x := d.tch c
    let (rows, cols) := d.grid c
    if !(x.state = 2 || x.state = 3) || fld (d.tw c 1) 26 2 ≠ 1 || !d.runs 9 then d
    else
      let d1 := d.tick at_
      if natAt bytes 0 1 ≠ 0x5A || natAt bytes 2 1 ≠ rows || natAt bytes 3 1 ≠ cols then d1.touchError c 4
      else if bytes.length < 4 + 2 * (rows * cols) then d1.touchError c 3
      else
        let raw := (List.range (rows * cols)).map (fun i => ((natAt bytes (4 + 2 * i) 2 : Nat) : Int))
        let d2 := d1.touchAccept c
        if x.state = 2 then d2.learnFrame c raw
        else
          let sig := (x.baseline.zip raw).map (fun z => z.1 - z.2)
          (d2.rawContacts c sig).trackBaseline c raw sig) s

/-! Timeouts, starts and faults. -/

/-- REPORT_TIMEOUT (R315). -/
def execReportTimeout (ch : Fin 12) (at_ : Nat) (s : State) : Host.Outcome State Fault Refusal :=
  runAs mpStream (fun d =>
    let c := ch.val
    let x := d.tch c
    let d1 := d.tick at_
    if x.state ≠ 3 || x.contacts = [] || !d.runs 9 || decide (d1.now < x.lastStamp.toNat + fld (d.tw c 6) 12 8 * 1000000) then d
    else (d1.setTch c { x with timeouts := satInc x.timeouts }).cancelContacts c d1.now 64) s

/-- TOUCH_CHANNEL_START (R306, R307, R311, R315): an enabled channel that is OFF starts; a HID channel in INIT reads its descriptor. A
controller that does not acknowledge at a start is a fault. -/
def execTouchChannelStart (ch : Fin 12) (desc : TouchDesc) (s : State) : Host.Outcome State Fault Refusal :=
  run (fun d =>
    let c := ch.val
    if !bit (d.tw c 1) 31 || !d.runs 9 then d
    else
      let d1 := if (d.tch c).state = 0 then d.touchStart c else d
      if !desc.answered && ((d.tch c).state = 0 || (d1.tch c).state = 1) then d1.touchFault c 1
      else if (d1.tch c).state ≠ 1 then d1
      else if !descUsable desc.bytes then d1.touchFault c 2
      else d1.setTch c { d1.tch c with state := 3, desc := some (hidDesc desc.bytes) }) s

/-- What a transfer without a report does to a running channel (R315). -/
def Dev.touchBus (d : Dev) (c : Nat) (bus : TouchBus) : Dev :=
  match bus with
  | .quiet => d
  | .error => d.touchError c 3
  | .noAcknowledge => d.touchFault c 1

/-- TOUCH_FAULT_RETRY (R315): a channel in FAULT restarts after 100 ms; a bus error or a transfer without acknowledge meets a channel that
runs, or has just restarted. -/
def execTouchFaultRetry (ch : Fin 12) (at_ : Nat) (bus : TouchBus) (s : State) : Host.Outcome State Fault Refusal :=
  run (fun d =>
    let c := ch.val
    let x := d.tch c
    let d1 := d.tick at_
    if !bit (d.tw c 1) 31 || !d.runs 9 || x.state = 0 then d
    else if x.state = 4 then (if d1.now < x.faultAt + 100000000 then d else (d1.touchStart c).touchBus c bus)
    else if bus = .quiet then d
    else d1.touchBus c bus) s

/-! Operations (R318, R319). -/

/-- Whether an earlier TOUCH_RECEIVE of the function is still to be posted (R319). -/
def Dev.receiveWaits (d : Dev) (o : Op) : Bool :=
  d.earlier o (fun x => x.target = 7 && x.kind = 1 && x.fn = o.fn && (d.tfn o.fn).bufs.all (fun b => b.id ≠ x.id))

/-- TOUCH_RECEIVE (R318, R319). -/
def execTouchReceive (id : OpId) (s : State) : Host.Outcome State Fault Refusal :=
  runAs mpStream (fun d =>
    match d.activeOp id 7 1 with
    | none => d
    | some o =>
      let n := fld (o.word 1) 0 11
      let addr := fld (o.word 0) 0 48
      let t := d.tfn o.fn
      if !d.runs 9 || t.bufs.any (fun b => b.id = id) || d.receiveWaits o then d
      else if fld (o.word 0) 48 24 ≠ 0 || fld (o.word 1) 11 61 ≠ 0 || addr % 64 ≠ 0 || n = 0 || 1024 < n then d.finish id 0x10 none
      else (d.setTfn o.fn { t with bufs := t.bufs ++ [{ id := id, addr := BitVec.ofNat 48 addr, count := n, filled := 0 }] }).deliverAll o.fn) s

/-- The channel that a baseline operation names, when it is raw and ACTIVE (R318). -/
def Dev.rawActive (d : Dev) (o : Op) : Bool :=
  let c := fld (o.word 0) 0 4
  fld (o.word 0) 4 68 = 0 && decide (c < 12) && bit (d.tw c 1) 31 && fld (d.tw c 1) 26 2 = 1 && (d.tch c).state = 3

/-- The bytes of a stored baseline (R489): the part, ROWS, COLS, the values. -/
def Dev.baselineBytes (d : Dev) (c : Nat) : List Byte :=
  let (rows, cols) := d.grid c
  toBytes 8 d.boot.fuses.uid.toNat ++ toBytes 1 rows ++ toBytes 1 cols ++ (d.tch c).baseline.flatMap (fun b => toBytes 2 b.toNat)

/-- BASELINE_SAVE (R318, R489, R491). -/
def execBaselineSave (id : OpId) (s : State) : Host.Outcome State Fault Refusal :=
  run (fun d =>
    match d.activeOp id 7 2 with
    | none => d
    | some o =>
      let c := fld (o.word 0) 0 4
      if !d.runs 9 then d
      else if o.fn ≠ d.manager then d.finish id 0x11 none
      else if !d.rawActive o then d.finish id 0x10 none
      else (d.storeItem 0x0201 c (d.baselineBytes c)).finish id 0 none) s

/-- BASELINE_RELEARN (R311, R318). -/
def execBaselineRelearn (id : OpId) (s : State) : Host.Outcome State Fault Refusal :=
  run (fun d =>
    match d.activeOp id 7 3 with
    | none => d
    | some o =>
      let c := fld (o.word 0) 0 4
      if !d.runs 9 then d
      else if c < 12 && d.owner 0x09 c ≠ o.fn then d.finish id 0x11 none
      else if !d.rawActive o then d.finish id 0x10 none
      else ((d.cancelContacts c d.now 0).learnBaseline c).finish id 0 none) s

end Sys2Proof.Machine
end

