-- ==== Sys2Proof/Machine/Haptics.lean ====
section
/-! DEFINITION. The haptic engine (R323 to R341): the 24 kHz sample with drive, brake and triggers, effect slots, PLAY, STREAM and the
trigger registers. -/

namespace Sys2Proof.Machine

/-! Numbers. -/

/-- A field word of a channel, and an F18 field of it as F36. -/
def Dev.hw (d : Dev) (c w : Nat) : W72 := d.obj 0x07 c w
def Dev.hf (d : Dev) (c w lo : Nat) : Nat := wide (fld (d.hw c w) lo 18)

/-- A value limited to ±limit, and whether it was. -/
def clamp36 (u limit : Nat) : Nat × Bool :=
  if lt36 limit u then (limit, true) else if lt36 u (limit + 2 ^ 35) then (limit + 2 ^ 35, true) else (u, false)

/-- The sign of an F36 value. -/
def sign36 (x : Nat) : Int := if lt36 0 x then 1 else if lt36 x 0 then -1 else 0

/-- A signed 24-bit code as a fraction of full scale (R323), and the code of a drive. -/
def ofCode (x : BitVec 24) : Nat := f36.ofInt 0 x.toInt 23
def toCode (u : Nat) : BitVec 24 := BitVec.ofInt 24 (f36.toInt 0 u 23 (-(2 ^ 23)) (2 ^ 23 - 1))

/-- The magnitude of an F36 value, and the largest of a list of magnitudes. -/
def abs36 (x : Nat) : Nat := x % 2 ^ 35
def peak36 (l : List Nat) : Nat := l.foldl Nat.max 0

/-- An 18-bit Q1.17 sample as F36 (R331), and a gain code (R332). -/
def sample36 (x : Nat) : Nat := f36.ofInt 0 (toSigned 18 x) 17
def gain36 (g : Nat) : Nat := frac36 g 255

/-- ceil(12,000 / F0_EST) samples (R328, R329). -/
def envLen (f0 : BitVec 18) : Nat := Nat.max 1 (12000 / f18.value f0.toNat).ceil.toNat

/-- The sense data of one actuator (R323): signed 24-bit codes and status bits. -/
structure Sense where
  accel : BitVec 24
  current : BitVec 24
  backEmf : BitVec 24
  fault : Bool
  overTemp : Bool
  overCurrent : Bool
  deriving DecidableEq, Repr

/-- The sample in bits [31:8] of a slot (R323). -/
def slotSample (w : BitVec 32) : BitVec 24 := BitVec.ofNat 24 (fld w 8 24)

/-- The sense data of actuator i of a link in its HLK_DI frame (R323). -/
def senseOf (frame : List (BitVec 32)) (i : Nat) : Sense :=
  let slot (n : Nat) : BitVec 32 := nth frame n 0
  { accel := slotSample (slot (3 * i)), current := slotSample (slot (3 * i + 1)), backEmf := slotSample (slot (3 * i + 2))
    fault := bit (slot (12 + i)) 31, overTemp := bit (slot (12 + i)) 30, overCurrent := bit (slot (12 + i)) 29 }

/-- A history with a newest value, at most n long. -/
def keepLast (n : Nat) (l : List Nat) (x : Nat) : List Nat := (x :: l).take n

/-- HAP0 to HAP11 run closed-loop control; HAP12 to HAP15 are open-loop. -/
def closedLoop (c : Nat) : Bool := decide (c < 12)

/-! Triggers (R339, R340). -/

/-- HAP_STAT of a function for a channel, with a bit set. -/
def Dev.hapStat (d : Dev) (f c : Nat) : BitVec 32 := tget (d.fn f).hapStat c 0
def Dev.setHapStat (d : Dev) (f c : Nat) (v : BitVec 32) : Dev := d.setFn f { d.fn f with hapStat := tset (d.fn f).hapStat c v }

/-- What a trigger is told once it has its first drive sample, or has been replaced: the deferral in ns, and the sample's instant. -/
def Dev.trigDone (d : Dev) (c : Nat) (t : Trig) (defer at_ : Nat) : Dev :=
  let d1 := if defer = 0 then d else d.setHch c { d.hch c with deferrals := satInc (d.hch c).deferrals }
  match t.kind with
  | .zone z => d1.zoneResolved z defer
  | .go f => if defer = 0 then d1 else d1.setHapStat f c (setFld (setBit (d1.hapStat f c) 28 true) 0 22 defer)
  | .play id =>
    match d1.op id with
    | some o => if o.active then (d1.updOp id (fun o => { o with deferred := o.deferred || decide (defer ≠ 0) })).finish id 0 (some (defer % 2 ^ 22 * 2 ^ 42 + at_ % 2 ^ 42)) else d1
    | none => d1

/-- An effect starts: in OVERDRIVE on HAP12 to HAP15 (R328), at its first sample. -/
def HapChan.begin (x : HapChan) (c : Nat) (streaming : Bool) (slot gain at_ : Nat) : HapChan :=
  { x with
    state := if closedLoop c then 1 else 2, streaming := streaming, ofSlot := !streaming, slot := slot, pos := 0, gain := gain, odCount := 0, command := []
    lastStart := BitVec.ofNat 64 at_, curPeak := 0 }

/-- Triggers that start at one sample (R340): all but the last are replaced after zero samples. -/
def Dev.startTriggers (d : Dev) (c at_ : Nat) (l : List Trig) : Dev :=
  match l.getLast? with
  | none => d
  | some t =>
    let x := d.hch c
    let x1 := if x.state = 1 || x.state = 2 then x.effectEnd else x
    let d1 := d.setHch c { x1.begin c false t.slot t.gain at_ with deferred := [] }
    l.foldl (fun d t => d.trigDone c t (at_ - t.reached.getD at_) at_) d1

/-- The order of triggers at one sample: zone fires, GO writes, PLAYs. -/
def trigOrder (l : List Trig) : List Trig :=
  let kind (t : Trig) : Nat := match t.kind with | .zone _ => 0 | .go _ => 1 | .play _ => 2
  sortBy (fun a b => decide (kind a ≤ kind b)) l

/-- The zone fires that wait for a channel in FAULT are told that they start nothing, undeferred (R324, R338). -/
def Dev.tellZones (d : Dev) (c : Nat) : Dev :=
  let x := d.hch c
  let zone (t : Trig) : Option Nat := match t.kind with | .zone z => some z | _ => none
  let d1 := d.setHch c { x with pending := x.pending.filter (fun t => (zone t).isNone), deferred := x.deferred.filter (fun t => (zone t).isNone) }
  ((x.pending ++ x.deferred).filterMap zone).foldl (fun d z => d.zoneResolved z 0) d1

/-- Triggers that reach a channel at a sample, and those deferred by a brake that has ended (R339). A channel in FAULT keeps GO and PLAY
triggers (DESIGN CHOICE, the log's entry 84), and every channel keeps all of them during the entry to a sleep state (R431). -/
def Dev.triggerStep (d : Dev) (c at_ : Nat) : Dev :=
  let x := d.hch c
  if x.state = 4 then d.tellZones c
  else if d.power.entry.isSome then d
  else
    let now := (trigOrder x.pending).map (fun t => { t with reached := some at_ })
    let d1 := d.setHch c { x with pending := [] }
    if x.state = 3 && !closedLoop c then d1.setHch c { d1.hch c with deferred := x.deferred ++ now }
    else d1.startTriggers c at_ (x.deferred ++ now)

/-- A disabled channel gives up what waits for it: PLAY and STREAM complete ST_RANGE. -/
def Dev.flushChannel (d : Dev) (c : Nat) : Dev :=
  let x := d.hch c
  let d1 := d.setHch c { x with pending := [], deferred := [], queue := [] }
  let d2 := (x.pending ++ x.deferred).foldl (fun d t =>
    match t.kind with
    | .zone z => d.zoneResolved z 0
    | .go _ => d
    | .play id => d.finish id 0x10 none) d1
  x.queue.foldl (fun d b => d.finish b.id 0x10 none) d2

/-! One sample of a channel. -/

/-- The next sample of the effect or stream under way, if it has one. -/
def Dev.nextSample (d : Dev) (c : Nat) : Option Nat :=
  let x := d.hch c
  if x.streaming then (match x.queue with | b :: _ => b.samples[b.sent]? | [] => none)
  else (d.effSlot x.slot).samples[x.pos]?

/-- A sample taken (R333, R335): a STREAM whose last sample is sent completes. -/
def Dev.tookSample (d : Dev) (c at_ : Nat) : Dev :=
  let x := d.hch c
  if !x.streaming then d.setHch c { x with pos := x.pos + 1 }
  else
    match x.queue with
    | [] => d
    | b :: rest =>
      if b.samples.length ≤ b.sent + 1 then
        let late := rest = [] && decide (at_ < x.lastRelease + 10000000)
        (d.setHch c { x with queue := rest, underruns := if late then satInc x.underruns else x.underruns }).finish b.id 0 (some at_)
      else d.setHch c { x with queue := { b with sent := b.sent + 1 } :: rest }

/-- The end of an effect or a stream, and what follows at once (R329, R335): a brake on HAP12 to HAP15. -/
def HapChan.ended (x : HapChan) (c : Nat) : HapChan :=
  let y := x.effectEnd
  if closedLoop c then { y with state := 0, streaming := false, pos := 0 } else { y with state := 3, streaming := false, brakeCount := 0, pos := 0 }

/-- A stream starts or goes on when nothing else plays (R335). -/
def HapChan.resume (x : HapChan) (c at_ : Nat) : HapChan := if x.state = 0 && x.queue ≠ [] then x.begin c true 0 255 at_ else x

/-- Resonance tracking at the end of a brake (R330): the mean of the last four half-periods, in samples. -/
def Dev.trackF0 (d : Dev) (c : Nat) (x : HapChan) : HapChan :=
  match x.zeroCross with
  | [a, _, _, _, b] =>
    let f : Rat := 48000 / ((a - b : Nat) : Rat)
    let f0 := f18.value (fld (d.hw c 3) 18 18)
    if bit (d.hw c 4) 0 && a ≠ b && f0 * 4 / 5 ≤ f && f ≤ f0 * 6 / 5 then { x with f0Est := BitVec.ofNat 18 (f18.ofRat f) } else x
  | _ => x

/-- The brake of HAP12 to HAP15 (R329): the drive while it lasts. -/
def Dev.brakeStep (d : Dev) (c : Nat) (emf : Nat) (x : HapChan) : HapChan × Nat :=
  if le36 (d.hf c 3 36) (peak36 (x.residual.take (envLen x.f0Est))) && decide (x.brakeCount < fld (d.hw c 4) 20 8) then
    let limit := d.hf c 3 54
    let u := mul36 (d.hf c 4 36) limit
    let s := sign36 emf
    let (v, cl) := clamp36 (if s = 0 then 0 else if s < 0 then u else u + 2 ^ 35) limit
    ({ x with brakeCount := x.brakeCount + 1, clips := if cl then satInc x.clips else x.clips }, v)
  else (d.trackF0 c { x with state := 0 }, 0)

/-- The drive of a closed-loop channel (R327): sample and gain as F36, the measured acceleration. -/
def Dev.closedStep (d : Dev) (c smp am : Nat) (x : HapChan) : HapChan × Nat :=
  let at_ := mul36 smp (d.hf c 2 0)
  let e := sub36 at_ am
  let i := if x.clipped && sign36 e = sign36 x.lastU then x.integ else add36 x.integ (mul36 (d.hf c 2 36) e)
  let (u, cl) := clamp36 (add36 (add36 (mul36 (d.hf c 2 18) at_) (mul36 (d.hf c 2 54) e)) i) (d.hf c 3 54)
  ({ x with integ := i, clipped := cl, lastU := u, clips := if cl then satInc x.clips else x.clips }, u)

/-- The drive of an open-loop channel that plays (R328). -/
def Dev.openStep (d : Dev) (c smp : Nat) (x : HapChan) : HapChan × Nat :=
  let n := envLen x.f0Est
  let reached := x.odCount ≠ 0 && le36 (peak36 (x.command.take n)) (peak36 (x.envelope.take n))
  let x1 : HapChan := if x.state = 2 && (reached || decide (fld (d.hw c 4) 28 8 ≤ x.odCount)) then { x with state := 1 } else x
  let boosted := x1.state = 2
  let (u, cl) := clamp36 (if boosted then mul36 smp (d.hf c 4 54) else smp) (d.hf c 3 54)
  ({ x1 with odCount := if boosted then x1.odCount + 1 else x1.odCount, command := keepLast n x1.command (abs36 smp)
             clips := if cl then satInc x1.clips else x1.clips }, u)

/-- The histories of a channel at a sample: residual acceleration, zero crossings of the back-EMF, the effect's peak current. -/
def HapChan.sense (x : HapChan) (n am emf : Nat) (current : BitVec 24) : HapChan :=
  let crossed := (sign36 emf < 0) ≠ (sign36 x.lastEmf < 0)
  let i : Nat := f18.round 0 false false current.toInt.natAbs (2 ^ 23) 0
  { x with
    residual := keepLast 512 x.residual (abs36 am), lastEmf := emf
    zeroCross := if crossed then (n :: x.zeroCross).take 5 else x.zeroCross
    curPeak := if x.state = 1 || x.state = 2 then (if lt18 x.curPeak.toNat i then BitVec.ofNat 18 i else x.curPeak) else x.curPeak }

/-- The model of the actuator driven by u (R328): the output at the head of its state. -/
def Dev.modelStep (d : Dev) (c u : Nat) (x : HapChan) : HapChan :=
  if closedLoop c then x
  else
    let m := Config.resonator x.f0Est.toNat (fld (d.hw c 3) 0 18) x.model u
    { x with model := m, envelope := keepLast (envLen x.f0Est) x.envelope (abs36 (nth m 0 0)) }

/-- A driver's report of a fault (R324). -/
def Dev.driverFault (d : Dev) (c : Nat) (z : Sense) : Dev :=
  let x := d.hch c
  let o := d.owner 0x07 c
  let d1 := d.setHch c { (if x.state = 1 || x.state = 2 then x.effectEnd else x) with state := 4, streaming := false, pos := 0, lastU := 0, faults := satInc x.faults }
  let d2 := (d1.setEv o 5).setHapStat o c (setBit (d1.hapStat o c) 26 true)
  d2.smRecord 0x30 (locusEngine 0x07 c) (some o) ((z.fault.toNat * 4 + z.overTemp.toNat * 2 + z.overCurrent.toNat) * 2 ^ 29) 0

/-- The drive of a channel at a sample, from the sense of the frame before: its code and its enable. -/
def Dev.channelSample (at_ n : Nat) (z : Sense) (d : Dev) (c : Nat) : Dev × (BitVec 24 × Bool) :=
  let emf := ofCode z.backEmf
  let am := mul36 (ofCode z.accel) (d.hf c 2 0)
  let d0 := d.setHch c ((d.hch c).sense n am emf z.current)
  let still (d : Dev) : Dev × (BitVec 24 × Bool) := (d.setHch c (d.modelStep c 0 (d.hch c)), (0, false))
  if !bit (d.hw c 1) 31 then still (d0.flushChannel c)
  else if (d.hch c).state = 4 then still (d0.tellZones c)
  else if z.fault || z.overTemp || z.overCurrent then still (d0.driverFault c z)
  else
    let d1 := d0.triggerStep c at_
    let go (x : HapChan) : HapChan := if d.power.entry.isSome then x else x.resume c at_
    let d2 := d1.setHch c (go (d1.hch c))
    let x := d2.hch c
    let playing := x.state = 1 || x.state = 2
    let smp := if playing then d2.nextSample c else none
    let ends := playing && smp.isNone
    let y0 := if ends then go (x.ended c) else x
    let d3 := d2.setHch c y0
    let smp2 := if ends && y0.streaming then d3.nextSample c else smp
    let d4 := if smp2.isSome then d3.tookSample c at_ else d3
    let y := d4.hch c
    let s := match smp2 with | some v => mul36 (sample36 v) (gain36 y.gain) | none => 0
    let (y1, u) :=
      if closedLoop c then d4.closedStep c s am y
      else if y.state = 3 then d4.brakeStep c emf y
      else if smp2.isSome then d4.openStep c s y
      else (y, 0)
    let y2 := d4.modelStep c u { y1 with lastU := u }
    (d4.setHch c y2, (toCode (if bit (d.hw c 1) 30 then Nat.xor u (2 ^ 35) else u), true))

/-- Slots of functions that are gone, once no channel plays them (R333). -/
def Dev.emptySlots (d : Dev) : Dev :=
  (List.range 64).foldl (fun d n =>
    if (d.effSlot n).emptyAfter && !d.slotPlaying n then d.setEffSlot n { holder := none, samples := [], emptyAfter := false } else d) d

/-- The number of the sample at an instant, when it lies on the grid of 24 kHz that began at the origin and is later than the last
(R5, R40, R323): within 2 ns of its stamp. Before a grid has begun, any instant begins one. -/
def Haptic.sampleAt (h : Haptic) (at_ : Nat) : Option Nat :=
  match h.origin with
  | none => some h.samples
  | some (t, n) =>
    let k := n + roundHalfUp ((at_ - t) * 3) 125000
    let stamp := t + roundHalfUp ((k - n) * 125000) 3
    if h.samples ≤ k && decide (stamp ≤ at_ + 2) && decide (at_ ≤ stamp + 2) then some k else none

/-- HAPTIC_SAMPLE (R323, R324, R327 to R331, R334, R335, R339, R340): the HLK_DI frames of the four links, and the next HLK_DO frames. -/
def execHapticSample (at_ : Nat) (di : List (List (BitVec 32))) (s : State) : Host.Outcome State Fault Refusal :=
  run (fun d =>
    let h := d.haptic
    match h.sampleAt at_ with
    | none => d
    | some k =>
      if !d.runs 8 then d
      else
        let d1 := d.tick at_
        let (d2, codes) := (List.range 16).foldl (fun (acc : Dev × List (BitVec 24 × Bool)) c =>
          let (d2, w) := Dev.channelSample d1.now k (senseOf (nth di (c / 4) []) (c % 4)) acc.1 c
          (d2, acc.2 ++ [w])) (d1, [])
        ({ d2 with haptic :=
            { d2.haptic with
              links := (List.range 4).map (fun n => linkFrame ((codes.drop (4 * n)).take 4)), samples := k + 1, lastAt := d1.now
              origin := some (h.origin.getD (d1.now, k)) } } : Dev).emptySlots) s

/-! Operations (R332 to R335). -/

/-- Samples j of packed words (R331). -/
def effectSamples (l : List W72) (n : Nat) : List Nat := (List.range n).map (fun j => fld (nth l (j / 4) 0) (18 * (j % 4)) 18)

/-- The permissions of R332, which the release of the operation has checked. -/
def Op.ownsChannel (o : Op) (c : Nat) : Bool := match o.rights with | some r => r.owned.contains c | none => false
def Op.holdsSlot (o : Op) (n : Nat) : Bool := match o.rights with | some r => r.held.contains n | none => false
def Op.slotEmpty (o : Op) (n : Nat) : Bool := match o.rights with | some r => r.empty.contains n | none => false
def Op.byManager (o : Op) : Bool := match o.rights with | some r => r.manager | none => false

/-- SLOT_LOAD (R332, R333). -/
def execSlotLoad (id : OpId) (s : State) : Host.Outcome State Fault Refusal :=
  runOp id (fun d =>
    match d.activeOp id 6 1 with
    | none => d
    | some o =>
      let n := fld (o.word 0) 0 6
      let k := fld (o.word 2) 0 13
      if !d.runs 8 then d
      else if fld (o.word 0) 6 66 ≠ 0 || fld (o.word 1) 48 24 ≠ 0 || fld (o.word 2) 13 59 ≠ 0 || k = 0 || 4096 < k then d.finish id 0x10 none
      else if !(o.holdsSlot n || o.slotEmpty n) then d.finish id 0x11 none
      else if d.slotPlaying n then d.updOp id (fun o => { o with deferred := true })
      else
        match d.readWords o.fn (fld (o.word 1) 0 48) (ceilDiv k 4) .read with
        | (d1, .error (cause, va)) => d1.opFault id o.fn cause va
        | (d1, .ok l) => (d1.setEffSlot n { holder := some o.fn, samples := effectSamples l k, emptyAfter := false }).finish id 0 none) s

/-- SLOT_RELEASE (R332, R333). -/
def execSlotRelease (id : OpId) (s : State) : Host.Outcome State Fault Refusal :=
  run (fun d =>
    match d.activeOp id 6 2 with
    | none => d
    | some o =>
      let n := fld (o.word 0) 0 6
      if !d.runs 8 then d
      else if fld (o.word 0) 6 66 ≠ 0 then d.finish id 0x10 none
      else if !(o.holdsSlot n || o.byManager) then d.finish id 0x11 none
      else if d.slotPlaying n then d.updOp id (fun o => { o with deferred := true })
      else (d.setEffSlot n { holder := none, samples := [], emptyAfter := false }).finish id 0 none) s

/-- Whether a channel has accepted a trigger of an operation. -/
def HapChan.holds (x : HapChan) (id : OpId) : Bool := (x.pending ++ x.deferred).any (fun t => t.kind = .play id)

/-- PLAY (R332, R334): the trigger is accepted; the operation completes at its first drive sample. -/
def execHapticPlay (id : OpId) (s : State) : Host.Outcome State Fault Refusal :=
  run (fun d =>
    match d.activeOp id 6 3 with
    | none => d
    | some o =>
      let c := fld (o.word 0) 0 4
      let n := fld (o.word 0) 4 6
      let x := d.hch c
      if !d.runs 8 || x.holds id then d
      else if fld (o.word 0) 18 54 ≠ 0 then d.finish id 0x10 none
      else if !(o.ownsChannel c && o.holdsSlot n) then d.finish id 0x11 none
      else if !bit (d.hw c 1) 31 then d.finish id 0x10 none
      else d.setHch c { x with pending := x.pending ++ [{ kind := .play id, slot := n, gain := fld (o.word 0) 10 8, reached := none }] }) s

/-- Whether an earlier STREAM of the channel is still to be queued (R335); one whose descriptor has not been read may be of any channel. -/
def Dev.streamWaits (d : Dev) (o : Op) : Bool :=
  let c := fld (o.word 0) 0 4
  d.earlier o (fun x => x.target = 6 && x.kind = 4 && (x.phase = .released || fld (x.word 0) 0 4 = c) && (d.hch c).queue.all (fun b => b.id ≠ x.id))

/-- STREAM (R332, R335): at most eight in the queue of a channel. -/
def execStream (id : OpId) (s : State) : Host.Outcome State Fault Refusal :=
  runOp id (fun d =>
    match d.activeOp id 6 4 with
    | none => d
    | some o =>
      let c := fld (o.word 0) 0 4
      let k := fld (o.word 0) 4 13
      let x := d.hch c
      if !d.runs 8 || x.queue.any (fun b => b.id = id) || d.streamWaits o then d
      else if fld (o.word 0) 17 55 ≠ 0 || fld (o.word 1) 48 24 ≠ 0 || k = 0 || 4096 < k then d.finish id 0x10 none
      else if !o.ownsChannel c then d.finish id 0x11 none
      else if !bit (d.hw c 1) 31 then d.finish id 0x10 none
      else if 8 ≤ x.queue.length then d
      else
        match d.readWords o.fn (fld (o.word 1) 0 48) (ceilDiv k 4) .read with
        | (d1, .error (cause, va)) => d1.opFault id o.fn cause va
        | (d1, .ok l) =>
          d1.setHch c
            { x with queue := x.queue ++ [{ id := id, samples := effectSamples l k, sent := 0, released := o.due }], lastRelease := o.due }) s

/-- HAP_TRIG (R336): GO triggers as a PLAY would, or sets REFUSED. -/
def Dev.hapTrigger (d : Dev) (f c : Nat) (v : BitVec 32) : Dev :=
  let n := fld v 16 6
  let x := d.hch c
  if !bit v 31 then d
  else if d.owner 0x07 c = f && (d.effSlot n).holder = some f && bit (d.hw c 1) 31 then
    d.setHch c { x with pending := x.pending ++ [{ kind := .go f, slot := n, gain := fld v 0 8, reached := none }] }
  else d.setHapStat f c (setBit (d.hapStat f c) 27 true)

/-- HAP_TRIG (R336). -/
def execHapTrig (f : Fin 64) (c : Fin 16) (v : BitVec 32) (s : State) : Host.Outcome State Fault Refusal :=
  run (hosted (.hapTrig f c v) f.val (fun d => d.hapTrigger f.val c.val v)) s

end Sys2Proof.Machine
end

