-- ==== Sys2Proof/Machine/DramQueue.lean ====
section
/-! DEFINITION. The channel controllers (R385, R396 to R402): urgency, entries, the choice at each command slot, rows, and the latency
tolerance of a group. DESIGN CHOICE (the log's entry 121): a command slot lasts as long as the burst of one line at the channel's speed point, and
the controllers' work is brought up to date when a command of the memory system needs it. -/

namespace Sys2Proof.Machine

/-! Urgency (R385). -/

/-- MEM_PORTm (R384, R414): LAT_TARGET and PAGE. -/
def Dev.latTarget (d : Dev) (m : Nat) : Nat := fld (tget d.dram.ports m (BitVec.ofNat 32 (memPortReset m))) 0 24
def Dev.pagePolicy (d : Dev) (m : Nat) : Nat := fld (tget d.dram.ports m (BitVec.ofNat 32 (memPortReset m))) 28 2

/-- The urgency of a latency tolerance, and of an age at a port with a target. -/
def ltUrgency (lt : Nat) : Nat := if lt < 4000 then 3 else if lt < 16000 then 2 else if lt < 64000 then 1 else 0
def ageUrgency (target age : Nat) : Nat := if 2 * age < target then 0 else if age < target then 1 else if age < 2 * target then 2 else 3

/-- The urgency of a request at an instant: that of the pipe's LT on a pipe's port, of its age on the others. -/
def Dev.urgency (d : Dev) (now : Nat) (r : MemReq) : Nat :=
  if r.port < 12 then ltUrgency (d.ltOf r.port) else ageUrgency (d.latTarget r.port) (now - r.at_)

/-! Entries (R396). -/

/-- Whether a request of an urgency finds an entry that it may take, and whether that is one of the 24 for urgent ones. -/
def entryFor (queued : List MemReq) (urgency : Nat) (write : Bool) : Option Bool :=
  let held (b : Bool) : Nat := (queued.filter (fun r => r.reserved = b)).length
  if write && decide (64 ≤ (queued.filter (fun r => r.write)).length) then none
  else if 2 ≤ urgency && decide (held true < 24) then some true
  else if held false < 104 then some false
  else none

/-- The waiting requests that have come by an instant and find an entry take it, urgent ones first, then the oldest. -/
def Dev.admitReqs (d : Dev) (now : Nat) (q : ChanQueue) : ChanQueue :=
  let come := sortBy (fun a b => decide (d.urgency now b ≤ d.urgency now a)) (q.waiting.filter (fun r => decide (r.at_ ≤ now)))
  come.foldl (fun q r =>
    match entryFor q.queued (d.urgency now r) r.write with
    | none => q
    | some b => { q with queued := q.queued ++ [{ r with reserved := b }], waiting := q.waiting.erase r }) q

/-! The choice (R397). -/

/-- The bank of a request, and whether it hits the open row of its bank at an instant in 1/3 ns. -/
def Dev.reqBank (d : Dev) (r : MemReq) : Nat := let x := dramLoc d.dram (64 * r.line); 16 * x.rank + x.bank
def Dev.rowHit (d : Dev) (q : ChanQueue) (t : Nat) (r : MemReq) : Bool :=
  match tfind q.rows (d.reqBank r) with
  | some o => o.row = (dramLoc d.dram (64 * r.line)).row && decide (t < o.closes)
  | none => false

/-- Whether the controller drains writes at its next slot. -/
def Dev.drains (d : Dev) (now : Nat) (q : ChanQueue) : Bool :=
  let reads := q.queued.filter (fun r => !r.write)
  let writes := q.queued.filter (fun r => r.write)
  if q.drain then reads = [] || !(decide (writes.length ≤ 16) || reads.any (fun r => d.urgency now r = 3))
  else reads = [] || decide (48 ≤ writes.length)

/-- The best of a list: the first that no other beats. -/
def bestOf (better : MemReq → MemReq → Bool) (l : List MemReq) : Option MemReq :=
  l.foldl (fun acc r => match acc with | none => some r | some x => if better r x then some r else some x) none

/-- The request served next: an older one to another row of a bank that has served sixteen hits, else by urgency, row hit and age. -/
def Dev.chooseReq (d : Dev) (t : Nat) (q : ChanQueue) : Option MemReq :=
  let now := t / 3
  let l := q.queued.filter (fun r => r.write = d.drains now q)
  let starved (r : MemReq) : Bool := match tfind q.rows (d.reqBank r) with | some o => decide (16 ≤ o.hits) && !d.rowHit q t r | none => false
  match l.find? starved with
  | some r => some r
  | none =>
    bestOf (fun a b =>
      let ua := d.urgency now a
      let ub := d.urgency now b
      decide (ub < ua) || (ua = ub && d.rowHit q t a && !d.rowHit q t b) || (ua = ub && d.rowHit q t a = d.rowHit q t b && decide (a.at_ < b.at_))) l

/-- CK cycles of a speed point in 1/3 ns (R392, R398): PRESUMED, CK is a quarter of WCK. -/
def ckThirds (speed cycles : Nat) : Nat := 12 * cycles * 1000 / nth [4800, 3200, 1600, 800] speed 4800

/-- A command slot in 1/3 ns: 64 bytes at the rate of the speed point. -/
def slotThirds (speed : Nat) : Nat := nth [10, 15, 30, 60] speed 10

/-- A request served at an instant in 1/3 ns: its bank's row afterwards (R398). -/
def Dev.serveReq (d : Dev) (speed t : Nat) (r : MemReq) (q : ChanQueue) : ChanQueue :=
  let b := d.reqBank r
  let row := (dramLoc d.dram (64 * r.line)).row
  let left := q.queued.erase r
  let hits := if d.rowHit q t r then (match tfind q.rows b with | some o => o.hits + 1 | none => 1) else 1
  let policy := d.pagePolicy r.port
  let again := left.any (fun x => d.reqBank x = b && (dramLoc d.dram (64 * x.line)).row = row)
  let closes := if policy = 1 then (if again then t + ckThirds speed 32 else t) else t + ckThirds speed (if policy = 0 then 256 else 32)
  { q with queued := left, drain := d.drains (t / 3) q, rows := tset q.rows b { row := row, hits := hits, closes := closes }, servedTo := t, lastReq := t / 3 }

/-- The slots of a controller up to an instant in 1/3 ns. -/
def Dev.serveSlots (fuel : Nat) (d : Dev) (speed now : Nat) (q : ChanQueue) : ChanQueue :=
  match fuel with
  | 0 => q
  | k + 1 =>
    if q.queued = [] ∧ q.waiting = [] then { q with servedTo := now }
    else
      let first := (q.waiting.map (fun r => 3 * r.at_)).foldl Nat.min now
      let t := (if q.queued = [] then Nat.max q.servedTo first else q.servedTo) + slotThirds speed
      if now < t then d.admitReqs (now / 3) q
      else
        let q1 := d.admitReqs (t / 3) q
        match d.chooseReq t q1 with
        | none => { q1 with servedTo := t }
        | some r => Dev.serveSlots k d speed now (d.serveReq speed t r q1)

/-- A controller's work up to now: it stands still while its group is away or its channel has failed; a rank that is accessed leaves
power-down (R401). -/
def Dev.scheduleChan (d : Dev) (n : Nat) : Dev :=
  let q := d.queue n
  let x := d.chan n
  if !(d.runs 11 && (d.group (n / 4)).state ≠ 2 && !(d.group (n / 4)).selfRefresh) || x.state = 4 then d.setQueue n { q with servedTo := 3 * d.now }
  else
    let q1 := Dev.serveSlots (q.waiting.length + q.queued.length + 1) d x.speed.toNat (3 * d.now) q
    let left := q1.queued ++ q1.waiting
    let ranks := ((q.queued ++ q.waiting).filter (fun r => !left.any (fun y => y.line = r.line && y.at_ = r.at_))).map (fun r => d.reqBank r / 16)
    let d1 := d.setQueue n { q1 with lastReq := if left = [] then q1.lastReq else d.now }
    if ranks.any (fun r => x.down.contains r) then d1.setChan n { x with down := x.down.filter (fun r => !ranks.contains r) } else d1

/-- The controllers of a group brought up to now. -/
def Dev.scheduleGroup (d : Dev) (g : Nat) : Dev := (List.range 4).foldl (fun d i => d.scheduleChan (4 * g + i)) d

/-- Whether requests wait for a group, and the instant of its last one (R402). -/
def Dev.groupAsked (d : Dev) (g : Nat) : Bool := (List.range 4).any (fun i => (d.queue (4 * g + i)).queued ≠ [] || (d.queue (4 * g + i)).waiting ≠ [])
def Dev.groupLast (d : Dev) (g : Nat) : Nat := (List.range 4).foldl (fun t i => Nat.max t (d.queue (4 * g + i)).lastReq) (d.group g).lastReq

/-- Whether requests of urgency 3 wait for a bank of a channel (R400). -/
def Dev.bankUrgent (d : Dev) (n bank : Nat) : Bool :=
  ((d.queue n).queued ++ (d.queue n).waiting).any (fun r => d.reqBank r = bank && d.urgency d.now r = 3)

/-- The queued requests of a group are served and its rows precharged before it changes its speed point (R407, step 3). -/
def Dev.groupDrained (d : Dev) (g : Nat) : Dev :=
  (List.range 4).foldl (fun d i => d.setQueue (4 * g + i) { d.queue (4 * g + i) with queued := [], rows := [], drain := false, lastReq := d.now }) d

/-! Tolerance (R402). -/

/-- Whether a device-virtual page of a function lies in a group. -/
def Dev.pageInGroup (d : Dev) (f va g : Nat) : Bool :=
  match (d.translate f (va % 2 ^ 48) .read).2 with
  | .ok pa => regionOf d.dram pa = .dram && pa / groupSize d.dram = g
  | .error _ => false

/-- Whether the buffer of a handle has a page in a group. -/
def Dev.handleInGroup (d : Dev) (k g : Nat) : Bool :=
  let s := surfOfList (d.handle k).words
  (List.range (surfBytes s / 4096 + 2)).any (fun i => s.base / 4096 * 4096 + 4096 * i < s.base + surfBytes s && d.pageInGroup (k / 256) (s.base / 4096 * 4096 + 4096 * i) g)

/-- Whether a pipe fetches a layer result from a group now: it is within the active lines of a frame in frame mode (R242, R278). -/
def Dev.groupFetched (d : Dev) (g : Nat) : Bool :=
  (List.range 12).any (fun p =>
    d.pipeOn p && (d.pt p).active && !(d.pt p).selfRefresh && (d.pc p).chase.isNone && (match d.scanStart p with | some t => decide (t ≤ d.now) | none => false) &&
    (d.scanSets p).any (fun x => x.1.any (fun k => d.handleInGroup k g)))

/-- The latency tolerance of a group (R402): the smallest LT of the enabled pipes whose scan set holds a page in it. -/
def Dev.groupTolerance (d : Dev) (g : Nat) : Nat :=
  ((indices 12 (fun p => d.pipeOn p && (d.scanSets p).any (fun x => x.1.any (fun k => d.handleInGroup k g)))).map (fun p => d.ltOf p)).foldl Nat.min 16777215

end Sys2Proof.Machine
end

