-- ==== Sys2Proof/Machine/DramOps.lean ====
section
/-! DEFINITION. The memory system's own activity (R400 to R406, R415): refresh, power-down,
self-refresh, drift tracking and retraining, and the partition of the system cache. -/

namespace Sys2Proof.Machine

/-! Refresh and power-down. -/

/-- Whether the controllers of a group act: the memory system runs, the group is not fenced and not in self-refresh (R400 to R402). -/
def Dev.groupUp (d : Dev) (g : Nat) : Bool := d.runs 11 && (d.group g).state ≠ 2 && !(d.group g).selfRefresh

/-- DRAM_REFRESH (R400): postponed while requests of urgency 3 wait for the bank, at most eight times; else it and the postponed ones are issued, and the
rank leaves power-down. -/
def execDramRefresh (ch : Fin 16) (rank : Fin 2) (bank : Fin 16) (s : State) : Host.Outcome State Fault Refusal :=
  run (fun d0 =>
    let d := d0.scheduleChan ch.val
    let x := d.chan ch.val
    let b := 16 * rank.val + bank.val
    let n := tget x.postponed b 0
    if !d.groupUp (ch.val / 4) || x.state = 4 || (rank.val = 1 && !d.dram.twoRanks) then d
    else if d.bankUrgent ch.val b && decide (n < 8) then d.setChan ch.val { x with postponed := tset x.postponed b (n + 1) }
    else d.setChan ch.val { x with postponed := tset x.postponed b 0, down := x.down.filter (fun r => r ≠ rank.val) }) s

/-- Whether an interval has passed since an instant, if there is one. -/
def intervalUp (last : Option Nat) (now n : Nat) : Bool := match last with | some t => decide (t + n ≤ now) | none => true

/-- MR4_READ (R400), 16 ms after the one before: a temperature above the DRAM's range is reported. -/
def execMr4Read (ch : Fin 16) (at_ : Nat) (mr4 : Mr4) (s : State) : Host.Outcome State Fault Refusal :=
  run (fun d =>
    if !d.groupUp (ch.val / 4) || !intervalUp (d.chan ch.val).mr4At (d.tick at_).now 16000000 then d
    else
      let d0 := d.tick at_
      let d1 := d0.setChan ch.val { d.chan ch.val with mr4 := mr4.code, mr4At := some d0.now, down := [] }
      if mr4.tooHot then d1.smRecord 0x06 (chanLocus ch.val) none mr4.code.toNat 0 else d1) s

/-- POWER_DOWN_ENTRY (R401): no request is queued for the rank. -/
def execPowerDownEntry (ch : Fin 16) (rank : Fin 2) (idleCk : Nat) (s : State) : Host.Outcome State Fault Refusal :=
  run (fun d0 =>
    let d := d0.scheduleChan ch.val
    let q := d.queue ch.val
    let x := d.chan ch.val
    if !d.groupUp (ch.val / 4) || (q.queued ++ q.waiting).any (fun r => d.reqBank r / 16 = rank.val) || idleCk < 32 || x.down.contains rank.val || (rank.val = 1 && !d.dram.twoRanks) then d
    else d.setChan ch.val { x with down := x.down ++ [rank.val] }) s

/-! Self-refresh. -/

/-- Whether a training burst is running in a group: never between commands, for a burst is one command; a failed channel blocks the
group all the same. -/
def Dev.groupFailed (d : Dev) (g : Nat) : Bool := (List.range 4).any (fun i => (d.chan (4 * g + i)).state = 4)

/-- SELF_REFRESH_GROUP_ENTRY (R402): 1,000 ns after the last request, with a tolerance of at least 20,000 ns. -/
def execSelfRefreshGroupEntry (g : Fin 4) (at_ : Nat) (s : State) : Host.Outcome State Fault Refusal :=
  run (fun d =>
    let d1 := (d.tick at_).scheduleGroup g.val
    if !d.groupUp g.val || d.groupFailed g.val || d1.groupAsked g.val || d1.groupFetched g.val || decide (d1.now < d1.groupLast g.val + 1000) ||
      decide (d1.groupTolerance g.val < 20000) then d
    else d1.setGroup g.val { d1.group g.val with selfRefresh := true }) s

/-- SELF_REFRESH_GROUP_EXIT (R402): a request has arrived, or the tolerance has fallen to 5,000 ns. -/
def execSelfRefreshGroupExit (g : Fin 4) (at_ : Nat) (s : State) : Host.Outcome State Fault Refusal :=
  run (fun d =>
    let d1 := d.tick at_
    let x := d1.group g.val
    let asked := d1.groupAsked g.val || d1.groupFetched g.val
    if !d.runs 11 || !x.selfRefresh || !(asked || decide (d1.groupTolerance g.val ≤ 5000)) then d
    else d1.setGroup g.val { x with selfRefresh := false, lastReq := if asked then d1.now else x.lastReq }) s

/-! Drift and retraining. -/

/-- A channel is to be retrained (R406, R414): bursts follow. -/
def Chan.retrain (x : Chan) : Chan := { x with retraining := true, begun := false }

/-- DRIFT_READ (R406), 100 ms after the one before: corrections since the reading before, in 1/1024 UI, and the link errors of the 100 ms. -/
def execDriftRead (ch : Fin 16) (at_ : Nat) (drift1024 : Nat) (linkCe : Nat) (linkUe : Bool) (s : State) : Host.Outcome State Fault Refusal :=
  run (fun d =>
    let x := d.chan ch.val
    if !d.groupUp (ch.val / 4) || x.state = 4 || !intervalUp x.driftAt (d.tick at_).now 100000000 then d
    else
      let drift := x.drift + drift1024
      let x1 : Chan := { x with drift := drift, linkCe := BitVec.ofNat 16 (satAdd 16 x.linkCe.toNat linkCe), driftAt := some (d.tick at_).now, down := [] }
      (d.tick at_).setChan ch.val (if !x.retraining && (decide (128 < drift) || decide (16 ≤ linkCe) || linkUe) then x1.retrain else x1)) s

/-- The end of a retraining that found a working setting (R405, R406): a stored set is replaced at most once an hour. -/
def Dev.trained (d : Dev) (n : Nat) (x : Chan) : Dev :=
  let p := x.speed.toNat
  let store := intervalUp x.storedAt d.now 3600000000000 || !d.setValid n p
  let d1 := d.setChan n { x with state := 0, retraining := false, begun := false, drift := 0, storedAt := if store then some d.now else x.storedAt }
  if store then d1.storeSet n p else d1

/-- RETRAIN_BURST (R406, R408): 100 µs after the burst before, with a tolerance of at least 7,000 ns. The first burst counts in RETRAINS; the last one ends the retraining, or leaves the channel FAILED. -/
def execRetrainBurst (ch : Fin 16) (at_ : Nat) (result : BurstEnd) (s : State) : Host.Outcome State Fault Refusal :=
  run (fun d0 =>
    let d := d0.tick at_
    let x := d.chan ch.val
    if !d.groupUp (ch.val / 4) || !x.retraining || x.state = 4 || !intervalUp x.burstAt d.now 100000 || decide (d.groupTolerance (ch.val / 4) < 7000) then d0
    else
      let x1 : Chan := { x with state := 3, begun := true, burstAt := some d.now, retrains := if x.begun then x.retrains else satInc x.retrains }
      match result with
      | .more => d.setChan ch.val x1
      | .trained => d.trained ch.val x1
      | .failed => d.setChan ch.val { x1 with state := 4, retraining := false, begun := false }) s

/-! The manager's memory registers. -/

/-- A write to a register of the manager's BAR4 (R126, R414, R444). -/
def managed (i : Instr) (f : Nat) (h : Dev → Dev) (d : Dev) : Dev := hosted i f (fun d => if f = d.manager then h d else d) d

/-- Bytes of the scratch partition from an offset on are zero, and their poison is gone (R388, R415). -/
def Dev.zeroScratch (d : Dev) (lo : Nat) : Dev :=
  let from_ := scratchBase + lo
  let inside (a : Nat) : Bool := decide (from_ ≤ a) && decide (a < scratchBase + 0x1000000)
  { d with
    writes := ((d.mem ++ d.writes).filter (fun c => inside c.1)).map (fun c => (c.1, (0 : Byte))) ++ d.writes
    poison := d.poison.filter (fun l => !inside (64 * l)) }

/-- A MEM_PART write (R415): discarded, or a repartition begins. -/
def Dev.memPart (d : Dev) (v : BitVec 32) : Dev :=
  let sw := fld v 0 4
  let cw := fld v 8 5
  let r : Dram := { d.dram with scratchWays := sw, chaseWays := cw }
  if d.dram.busyFrom.isSome || 12 < cw || 8 < sw || 14 < sw + cw || !d.ringsKept r then d
  else
    let old := d.dram.scratchWays
    let d1 : Dev := { d.leaveWays r.generalWays with dram := { r with busyFrom := some d.now } }
    if old = sw then d1 else d1.zeroScratch (Nat.min old sw * 2 ^ 21)

/-- MEM_PART (R414, R415). -/
def execMemPart (f : Fin 64) (v : BitVec 32) (s : State) : Host.Outcome State Fault Refusal :=
  run (managed (.memPart f v) f.val (fun d => d.memPart v)) s

/-- REPARTITION_DONE (R415): BUSY has read 1 for at least 1 µs. -/
def execRepartitionDone (at_ : Nat) (s : State) : Host.Outcome State Fault Refusal :=
  run (fun d =>
    match d.dram.busyFrom with
    | none => d
    | some t =>
      if d.runs 11 && decide (t + 1000 ≤ Nat.max d.now at_) then (let d1 := d.tick at_; { d1 with dram := { d1.dram with busyFrom := none } }) else d) s

end Sys2Proof.Machine
end

