-- ==== Sys2Proof/Machine/Passes.lean ====
section
/-! DEFINITION. The end of a program (R61, R62, R70, R76, R179 to R182, R346), raster operations (R183 to R203), and the loss of
shader cores (R195, R215, R216). -/

namespace Sys2Proof.Machine

/-! The end of a wave. -/

/-- The words of a deferred PXST to attachment 8 of a lane, for sample i: the last one stands (R181). -/
def Lane.lateDepth (l : Lane) (i : Nat) : Option Nat :=
  ((l.defer.filter (fun e => e.att = 8 && (match e.sample with | some s => s = i | none => true))).getLast?).map (fun e => el36 e.value 1)

/-- The deferred writes of a lane applied when its wave ends (R179, R181): under LATE_DEPTH the samples that pass the test. -/
def Lane.apply (p : PassDesc) (r : Draw) (prims : List Prim) (l : Lane) (t : TileRun) : TileRun :=
  if l.act ≠ 1 then t
  else
    match prims[l.prim]? with
    | none => t
    | some m =>
      let (t1, mask) := if r.late then depthTest p r m l.x l.y l.cover l.lateDepth t else (t, l.mask)
      (l.defer.filter (fun e => !(r.late && e.att = 8))).foldl (pxApply p l.x l.y l.cover mask) t1

/-- A wave has ended: vertex outputs are kept, deferred output writes applied; its registers and words are free. -/
def Dev.endWave (d : Dev) (i : Nat) : Dev :=
  match d.wave i with
  | none => d
  | some x =>
    let d1 : Dev := { d with raster := { d.raster with waves := tdel d.raster.waves i } }
    match d.passOf x.op with
    | none => d1
    | some q =>
      match x.kind with
      | .compute => d1
      | .vertex =>
        d1.setPass { q with outs := x.lanes.foldl (fun m l => if l.act = 0 then m else tset m (vertKey x.draw l.x l.y) l.out) q.outs }
      | .pixel => d1.updTile x (fun t => x.lanes.foldl (fun t l => l.apply (d.descOf x.op) (q.drawRec x.draw) q.prims t) t)

/-- END (R61, R70, R76): a guest thread's item, a wave, a slice's run or a firmware thread ends. -/
def execEndProg (c : Ctx) (w : Insn) (s : State) : Host.Outcome State Fault Refusal :=
  run (issue c { formats := [0], dst := .none, a := .reg, b := .none, c := false, subs := 1, prof := .all } w true (fun d =>
    match c with
    | .guest g =>
      let t := (d.ring g.val).thread
      let result := if w.a = 0 then none else some ((t.seq.bank.rd w.a).setWidth 64)
      ((d.kick g.val).endProgram g.val (if t.tx.isSome then 0x03 else 0) result, .ok .done)
    | .firmware k t => (d.setFwt k.val t.val { d.fwt k.val t.val with started := false }, .ok .done)
    | .wave i => (d.endWave i, .ok .done)
    | .slice n => (d.setSlice n.val { d.slice n.val with running := false, instrs := (d.slice n.val).seq.steps }, .ok .done))) s

/-- FAIL (R62). -/
def execFail (c : Ctx) (w : Insn) (s : State) : Host.Outcome State Fault Refusal :=
  run (issue c { formats := [1], dst := .none, a := .none, b := .none, c := false, subs := 1, prof := .all } w true (fun d =>
    (d, .error { code := 0x0F, addr := 0, own := some (BitVec.ofNat 64 (0x0F * 2 ^ 56 + w.low.toNat)), cause := 0 }))) s

/-! How a raster operation ends. -/

/-- Why a raster operation cannot go on: a fault of a memory access of its own, a reserved value, an exception with its status and the address
it reports. -/
inductive PassErr where
  | fault (cause va : Nat)
  | range
  | exc (status code : BitVec 8) (addr : Nat)
  deriving DecidableEq, Repr

/-- A raster operation that stops (R66, R79, R183, R202). A fault of tile loads and stores names no instruction: the address field
is then free (tag 16). -/
def Dev.stopWith (d : Dev) (o : Op) (e : PassErr) : Dev :=
  match e with
  | .range => (d.stopPass o.id).finish o.id 0x10 none
  | .exc status code addr => (d.stopPass o.id).finish o.id status.toNat (some (excResult code addr).toNat)
  | .fault cause va =>
    ((d.stopPass o.id).accessFault o.fn cause srcEngine (ringKind o.id.ring.val) va).finish o.id (causeStatus cause).toNat
      (some (excResult (causeExc cause) (Config.unstated 16 [cause, va])).toNat)

/-- The result field of a raster operation that ends without exception (R190). -/
def passResult (resolves blocks again time : Nat) : Nat :=
  Nat.min resolves 255 * 2 ^ 56 + Nat.min blocks 255 * 2 ^ 48 + Nat.min again 255 * 2 ^ 40 + Nat.min time (2 ^ 40 - 1)

/-- A raster operation ends with a status and the result of R190. -/
def Dev.endPass (d : Dev) (q : Pass) (status : Nat) : Dev :=
  (({ d with free := d.free + 1 } : Dev).stopPass q.id).finish q.id status (some (passResult q.resolves q.maxBlocks q.reexec (Config.measured d.free)))

/-! The tile lists (R197 to R201). -/

/-- The guaranteed blocks of a function. -/
def Dev.tlReserve (d : Dev) (f : Nat) : Nat := tget d.raster.reserves f 1

/-- The blocks that function f could still draw. -/
def Dev.drawable (d : Dev) (f : Nat) : Nat := Nat.min (d.tlReserve f - d.heldBy f) d.freeBlocks.length

/-- The words that a block holds. -/
def blockWords : Nat := 233016

/-- The fill of the lists of a segment: blocks used, words left in the last one, references by tile. -/
structure Fill where
  blocks : Nat
  left : Nat
  refs : Tab Nat
  deriving DecidableEq, Repr

/-- r words placed, never across blocks. -/
def Fill.place (s : Fill) (r : Nat) : Fill :=
  if s.left < r then { s with blocks := s.blocks + 1, left := blockWords - r } else { s with left := s.left - r }

/-- A primitive's record and its references: 63 and a link in each chunk of 64 words (R199). -/
def Fill.add (s : Fill) (record : Nat) (tiles : List Nat) : Fill :=
  tiles.foldl (fun s t =>
    let n := tget s.refs t 0
    let s1 := if n % 63 = 0 then s.place 64 else s
    { s1 with refs := tset s1.refs t (n + 1) }) (s.place record)

/-- The end of the segment that begins at segLo, and the blocks its lists take: whole batches of 256 primitives, as many as the
limit holds and at least one (R200, R201). -/
def Pass.segment (q : Pass) (p : PassDesc) (limit : Nat) : Nat × Nat :=
  let rest := (List.range (q.prims.length - q.segLo)).filterMap (fun i => (q.prims[q.segLo + i]?).map (fun m => (q.segLo + i, m)))
  let batches := dedup (rest.map (fun x => x.2.num / 256))
  let r := batches.foldl (fun (acc : Fill × Nat × Nat × Bool) b =>
    let (s, hi, used, stop) := acc
    let batch := rest.filter (fun x => x.2.num / 256 = b)
    let s1 := batch.foldl (fun s x => let r := q.drawRec x.2.draw; s.add (topoVerts r.topology * (2 + r.attrs)) (q.primTiles p x.1 x.2)) s
    if stop || (hi ≠ q.segLo && limit < s1.blocks) then (s, hi, used, true) else (s1, hi + batch.length, s1.blocks, false))
    ({ blocks := 1, left := blockWords, refs := [] }, q.segLo, 1, false)
  (r.2.1, r.2.2.1)

/-! Cores and waves. -/

/-- Whether a core may take a unit of normal work now (R193, R194, R196). -/
def Dev.coreFree (d : Dev) (core : Nat) : Bool := d.inService core && !(d.coreOf core).testWanted && !d.coreBusy core

/-- The tiles or units of an operation that a core holds. -/
def Dev.coreTiles (d : Dev) (id : OpId) (core : Nat) : Nat :=
  match d.passOf id with | some q => (q.tiles.filter (fun t => t.2.on core)).length | none => 0

/-- Whether a core may take a tile of an operation (R185): its first, or one more beside tiles of the same operation. -/
def Dev.coreTakes (d : Dev) (id : OpId) (p : PassDesc) (core : Nat) : Bool :=
  d.coreFree core || (d.inService core && !(d.coreOf core).testWanted && decide (1 ≤ d.coreTiles id core) && decide (d.coreTiles id core < p.perCore))

/-- Whether a core is one of a region's own (R211). How the cores divide over the regions the manual does not state: those in service, in
turn; where they are fewer than the regions, each serves several (DESIGN CHOICE, log entry 119). -/
def Dev.servesRegion (d : Dev) (p : PassDesc) (core region : Nat) : Bool :=
  let l := (List.range 16).filter d.inService
  let i := l.idxOf core
  decide (i < l.length) && (if l.length < p.regions then region % l.length = i else i % p.regions = region)

/-- The core for the lower region of a guard tile that `core` takes up: itself where it serves both, else another that can take it. -/
def Dev.guardCore (d : Dev) (id : OpId) (p : PassDesc) (core t : Nat) : Option Nat :=
  if d.servesRegion p core (p.lower t) then some core
  else (List.range 16).find? (fun c => c ≠ core && d.servesRegion p c (p.lower t) && d.coreTakes id p c)

/-- Whether a core admits one more wave beside those it holds, with tile memory of `tile` words in use (R165, R166). -/
def Dev.coreRoom (d : Dev) (core nv words tile : Nat) : Bool :=
  let held := (d.raster.waves.filter (fun x => x.2.core = core)).map (fun x => x.2)
  decide (held.length < 16) && decide ((held.map (fun x => 64 * x.nv + 64)).foldl (· + ·) (64 * nv + 64) ≤ 29120) &&
    decide ((held.map (fun x => x.words)).foldl (· + ·) (words + tile) ≤ 21845)

/-- A wave made resident. -/
def Dev.addWave (d : Dev) (x : Wave) : Dev :=
  { d with raster := { d.raster with waves := tset d.raster.waves d.raster.nextWave x, nextWave := d.raster.nextWave + 1 } }

/-- The waves of a unit: a group, a batch or a tile. -/
def Dev.unitWaves (d : Dev) (id : OpId) (unit : Nat) : Nat := (d.raster.waves.filter (fun x => x.2.op = id && x.2.tile = unit)).length

/-- A program that a descriptor names, its header checked for the V-profile (R79). -/
def Dev.waveProg (d : Dev) (f addr : Nat) : Dev × Except PassErr WaveProg :=
  match d.readWords f addr 2 .exec with
  | (d1, .error (cause, va)) => (d1.excFault f cause srcEngine 0 va, .error (.exc (causeStatus cause) (causeExc cause) addr))
  | (d1, .ok ws) =>
    match checkHeader 1 (nth ws 0 0) (nth ws 1 0) with
    | some h => if addr % 64 = 0 then (d1, .ok { base := addr, length := h.length, limit := h.limit, entry := h.entry }) else (d1, .error (.exc 0x10 0x0C addr))
    | none => (d1, .error (.exc 0x10 0x0C addr))

/-- The registers of a wave at entry (R169). -/
def waveSeq (g : WaveProg) (g1 g2 g3 : Nat) : Seq :=
  { bank := { Bank.entry with g := [(1, BitVec.ofNat 72 g1), (2, BitVec.ofNat 72 g2), (3, BitVec.ofNat 72 g3)] }, pc := g.entry, stack := []
    base := BitVec.ofNat 48 g.base, length := g.length, limit := g.limit, steps := 0 }

/-- v0 and v1 of a lane at entry. -/
def laneRegs (v0 v1 : Nat) : Tab W72 := [(0, BitVec.ofNat 72 v0), (1, BitVec.ofNat 72 v1)]

/-! Units in the first stage: groups of waves. -/

/-- The vertex waves of a draw: 64 vertices each, instance after instance. -/
def Draw.vertexWaves (r : Draw) : Nat := ceilDiv (r.instances * r.count) 64

/-- The draw and the index within it of vertex wave n of a pass. -/
def findWave (draws : List Draw) (i n : Nat) : Nat × Nat :=
  match draws with
  | [] => (i, n)
  | r :: t => if n < r.vertexWaves then (i, n) else findWave t (i + 1) (n - r.vertexWaves)

/-- The index of a vertex of a draw (R169, R187): its place, or the entry of the index buffer. -/
def Dev.vertexIndex (d : Dev) (f : Nat) (r : Draw) (pos : Nat) : Got Nat :=
  if !bit (r.w 0) 68 then (d, .ok pos)
  else
    let n := if bit (r.w 0) 67 then 2 else 4
    d.readNat f ((fld (r.w 0) 0 48 + n * pos) % 2 ^ 48) n

/-- Vertex wave n of a pass. -/
def Dev.vertexWave (d : Dev) (o : Op) (q : Pass) (unit core n : Nat) : Got Wave :=
  let (i, k) := findWave q.draws 0 n
  let r := q.drawRec i
  let total := r.instances * r.count
  Got.bind (mapGot (fun d l =>
    let v := 64 * k + l
    if total ≤ v then (d, .ok Lane.idle)
    else Got.bind (d.vertexIndex o.fn r (v % r.count)) (fun d x =>
      (d, .ok { Lane.idle with act := 1, v := laneRegs x (v / r.count), x := v / r.count, y := v % r.count }))) d (List.range 64)) (fun d lanes =>
    (d, .ok
      { op := o.id, fn := o.fn, kind := .vertex, core := core, draw := i, tile := unit, index := n, nv := fld (r.w 2) 64 8, words := fld (r.w 2) 48 16
        seq := waveSeq r.vertex ((passDesc o.desc).drawAt i) (fld (r.w 5) 0 48) i, lanes := lanes, locals := [], texN := fld (r.w 4) 48 8 + 1
        texAt := BitVec.ofNat 48 (fld (r.w 4) 0 48) }))

/-- Compute wave n of a dispatch (R169, R191). Its program stands in the one draw of the pass. -/
def computeWave (o : Op) (q : Pass) (unit core n : Nat) : Wave :=
  { op := o.id, fn := o.fn, kind := .compute, core := core, draw := 0, tile := unit, index := n, nv := fld (o.word 0) 32 8, words := fld (o.word 0) 16 16
    seq := waveSeq (q.drawRec 0).vertex o.addr.toNat (fld (o.word 2) 0 48) n
    lanes := (List.range 64).map (fun l => { Lane.idle with act := 1, v := laneRegs (64 * n + l) 0 }), locals := [], texN := fld (o.word 3) 48 8 + 1
    texAt := BitVec.ofNat 48 (fld (o.word 3) 0 48) }

/-- What the first stage of an operation runs: the number of waves, waves in a unit, and each wave. -/
def Op.waveTotal (o : Op) (q : Pass) : Nat := if o.kind = 2 then fld (o.word 0) 40 32 else (q.draws.map Draw.vertexWaves).foldl (· + ·) 0
def Op.unitSize (o : Op) : Nat := if o.kind = 2 then 16 else 4
def Dev.makeWave (d : Dev) (o : Op) (q : Pass) (unit core n : Nat) : Got Wave :=
  if o.kind = 2 then (d, .ok (computeWave o q unit core n)) else d.vertexWave o q unit core n

/-- The waves of a unit. -/
def Op.wavesIn (o : Op) (q : Pass) (unit : Nat) : Nat := Nat.min o.unitSize (o.waveTotal q - o.unitSize * unit)

/-- The unit that a pass takes up next in its first stage: one to be executed again, else the next in order. -/
def Pass.nextUnit (q : Pass) (total : Nat) : Option (Nat × Pass) :=
  match q.todo with
  | t :: r => some (t, { q with todo := r })
  | [] => if q.segLo < total then some (q.segLo, { q with segLo := q.segLo + 1 }) else none

/-- Units whose waves have all run and ended leave their cores (R193). -/
def Dev.dropUnits (d : Dev) (o : Op) : Dev :=
  match d.passOf o.id with
  | none => d
  | some q => d.setPass { q with tiles := q.tiles.filter (fun t => t.2.used < o.wavesIn q t.1 || d.unitWaves o.id t.1 ≠ 0) }

/-- Idle cores take up units (R193, R194); none of an operation that is to be cancelled (R196). -/
def Dev.takeUnits (d : Dev) (o : Op) : Dev :=
  if d.compositorReady || o.cancel then d
  else
    (List.range 16).foldl (fun d core =>
      if !d.coreFree core then d
      else
        match d.passOf o.id with
        | none => d
        | some q =>
          match q.nextUnit (ceilDiv (o.waveTotal q) o.unitSize) with
          | none => d
          | some (t, q1) => (d.setPass { q1 with tiles := tset q1.tiles t { core := core, guard := none, since := d.now, used := 0, planes := [] } }).wakeCore core (some o.id)) d

/-- One more wave of a unit, when its core admits it. -/
def Dev.startWave (d : Dev) (o : Op) (unit : Nat) : Dev :=
  match d.passOf o.id with
  | none => d
  | some q =>
    match tfind q.tiles unit with
    | none => d
    | some t =>
      if o.wavesIn q unit ≤ t.used || (o.cancel && t.used = 0) then d
      else
        match d.makeWave o q unit t.core (o.unitSize * unit + t.used) with
        | (d1, .error (cause, va)) => d1.stopWith o (.fault cause va)
        | (d1, .ok x) =>
          if d1.coreRoom t.core x.nv x.words 0 then (d1.addWave x).setPass { q with tiles := tset q.tiles unit { t with used := t.used + 1 } } else d

/-- Every unit starts the waves that its core admits. -/
def Dev.startWaves (d : Dev) (o : Op) : Dev :=
  match d.passOf o.id with
  | none => d
  | some q => q.tiles.foldl (fun d t => (List.range o.unitSize).foldl (fun d _ => d.startWave o t.1) d) d

/-- Whether the first stage is over. -/
def Pass.unitsDone (q : Pass) (o : Op) : Bool := q.todo = [] && q.tiles = [] && decide (ceilDiv (o.waveTotal q) o.unitSize ≤ q.segLo)

/-! Tiles in the second stage. -/

/-- The segment that begins at `lo` (R200, R201): blocks are drawn as far as it needs and the reserve allows; its tiles await cores,
every tile in the last segment. -/
def Dev.beginSegment (d : Dev) (o : Op) (q : Pass) (lo : Nat) : Dev :=
  let p := passDesc o.desc
  let q0 := { q with stage := 2, segLo := lo }
  let (hi, used) := q0.segment p (q.blocks.length + d.drawable q.fn)
  let more := d.freeBlocks.take (Nat.min (used - q.blocks.length) (d.drawable q.fn))
  let blocks := q.blocks ++ more
  let q1 := { q0 with segHi := hi, blocks := blocks, maxBlocks := Nat.max q.maxBlocks blocks.length }
  let tiles := (List.range p.tileCount).filter (fun t => q.prims.length ≤ hi || q1.tileQuads p t ≠ [])
  d.setPass { q1 with todo := tiles }

/-- A tile taken up by a core, and at a guard row by one of each region, and loaded (R201, R211): from the spill area once a segment has touched
it, while the tile's lists or its store need it. -/
def Dev.takeTile (d : Dev) (o : Op) (q : Pass) (core : Nat) (guard : Option Nat) (t : Nat) : Dev :=
  match d.loadTile o.fn (passDesc o.desc) o.id t (q.touched.contains t) with
  | (d1, .error (cause, va)) => d1.stopWith o (.fault cause va)
  | (d1, .ok m) =>
    let d2 := d1.setPass
      { q with todo := q.todo.filter (fun u => u ≠ t), tiles := tset q.tiles t { core := core, guard := guard, since := d1.now, used := 0, planes := m } }
    (match guard with | some c => d2.wakeCore c (some o.id) | none => d2).wakeCore core (some o.id)

/-- The tile that a core takes up next (R193, R211): the first of its region, one of a guard row when the other region has a core for it. -/
def Dev.nextTile (d : Dev) (o : Op) (q : Pass) (core : Nat) : Option (Nat × Option Nat) :=
  let p := passDesc o.desc
  q.todo.findSome? (fun t =>
    if !d.servesRegion p core (p.upper t) then none
    else if p.guardTile t then (d.guardCore o.id p core t).map (fun c => (t, some c))
    else some (t, none))

/-- Cores take up tiles (R185, R193, R194), one while it is shaded and, for a small footprint, one more. -/
def Dev.takeTiles (d : Dev) (o : Op) : Dev :=
  if d.compositorReady || o.cancel then d
  else
    (List.range 32).foldl (fun d i =>
      let core := i % 16
      if !d.coreTakes o.id (passDesc o.desc) core then d
      else
        match d.passOf o.id with
        | none => d
        | some q => match d.nextTile o q core with | none => d | some (t, guard) => d.takeTile o q core guard t) d

/-- The quads of the next wave: up to 16 of one draw, of one batch, so that no segment divides a wave (R201, R212), and of one region, none of
a pixel that the wave already has. -/
def waveQuads (p : PassDesc) (n : Nat) (seen : List Quad) (l : List Quad) : List Quad :=
  match n, l with
  | n + 1, k :: r =>
    if seen.all (fun j => j.draw = k.draw && j.num / 256 = k.num / 256 && p.region j.y = p.region k.y && !(j.x = k.x && j.y = k.y)) then
      k :: waveQuads p n (k :: seen) r
    else []
  | _, _ => []

/-- The lanes of a quad with its coverage (R169, R182): those of uncovered pixels are helpers. Depth is tested first unless the draw is LATE_DEPTH,
and a sample that fails takes no writes (R181). -/
def quadLanes (q : Pass) (p : PassDesc) (k : Quad) (t : TileRun) : TileRun × List Lane :=
  match q.prims[k.prim]? with
  | none => (t, List.replicate 4 Lane.idle)
  | some m =>
    let r := q.drawRec k.draw
    (List.range 4).foldl (fun (acc : TileRun × List Lane) j =>
      let x := k.x + j % 2
      let y := k.y + j / 2
      let cover := coverMask p r m x y
      let (t1, mask) := if r.late then (acc.1, cover) else depthTest p r m x y cover (fun _ => none) acc.1
      let v0 := x + y * 2 ^ 16 + cover * 2 ^ 32 + m.front.toNat * 2 ^ 36
      (t1, acc.2 ++ [{ Lane.idle with act := if cover = 0 then 2 else 1, v := laneRegs v0 m.num, x := x, y := y, cover := cover, mask := mask, prim := k.prim }])) (t, [])

/-- The pixel wave that a first quad and more begin, on the core of their region. Its index is one that no segment changes: the first quad's
primitive and place. -/
def pixelWave (o : Op) (q : Pass) (p : PassDesc) (unit : Nat) (k : Quad) (quads : List Quad) (t : TileRun) : TileRun × Wave :=
  let (t1, lanes) := (k :: quads).foldl (fun (acc : TileRun × List Lane) k => let (t1, ls) := quadLanes q p k acc.1; (t1, acc.2 ++ ls)) (t, [])
  let r := q.drawRec k.draw
  (t1,
    { op := o.id, fn := o.fn, kind := .pixel, core := if p.region k.y = p.upper unit then t.core else t.guard.getD t.core, draw := k.draw, tile := unit
      index := (k.num * 2 ^ 14 + k.y) * 2 ^ 14 + k.x, nv := fld (r.w 3) 64 8, words := fld (r.w 3) 48 16
      seq := waveSeq r.pixel (p.drawAt k.draw) (fld (r.w 5) 0 48) k.draw
      lanes := lanes ++ List.replicate (64 - lanes.length) Lane.idle
      locals := [], texN := fld (r.w 4) 48 8 + 1, texAt := BitVec.ofNat 48 (fld (r.w 4) 0 48) })

/-- The next pixel wave of a tile; none once the quads are used up. -/
def nextWave (o : Op) (q : Pass) (p : PassDesc) (unit : Nat) (quads : List Quad) (t : TileRun) : Option (TileRun × Wave) :=
  match waveQuads p 16 [] (quads.drop t.used) with
  | [] => none
  | k :: ks => let (t1, x) := pixelWave o q p unit k ks t; some ({ t1 with used := t.used + ks.length + 1 }, x)

/-- A tile whose quads are used up is spilled, or stored after the last segment (R186, R193, R201). -/
def Dev.leaveTile (d : Dev) (o : Op) (q : Pass) (unit : Nat) (t : TileRun) : Dev :=
  let spill := decide (q.segHi < q.prims.length)
  match d.putTile o.fn (passDesc o.desc) unit spill t.planes with
  | (d1, .error (cause, va)) => d1.stopWith o (.fault cause va)
  | (d1, .ok _) =>
    (d1.setPass { q with tiles := tdel q.tiles unit, touched := if spill && !q.touched.contains unit then q.touched ++ [unit] else q.touched }).wakeCore t.core (some o.id)

/-- Whether a tile's turn on its cores has come (R185): it is being shaded, or none of the others that its cores hold is, and it is the first. -/
def Pass.turn (q : Pass) (unit : Nat) (t : TileRun) : Bool :=
  let shared (x : TileRun) : Bool := x.on t.core || (match t.guard with | some c => x.on c | none => false)
  t.used ≠ 0 || q.tiles.all (fun x => x.1 = unit || !shared x.2 || (x.2.used = 0 && unit < x.1))

/-- A tile goes on when its turn has come and no wave of it runs: its next wave, or its end. An operation that is to be cancelled starts none
(R196). -/
def Dev.tileStep (d : Dev) (o : Op) (unit : Nat) : Dev :=
  match d.passOf o.id with
  | none => d
  | some q =>
    match tfind q.tiles unit with
    | none => d
    | some t =>
      if d.unitWaves o.id unit ≠ 0 || !q.turn unit t || (o.cancel && t.used = 0) then d
      else
        let p := passDesc o.desc
        match nextWave o q p unit (q.tileQuads p unit) t with
        | none => d.leaveTile o q unit t
        | some (t1, x) =>
          if d.coreRoom x.core x.nv x.words (d.coreTiles o.id x.core * p.footprint * 1024) then
            (d.addWave x).setPass { q with tiles := tset q.tiles unit { t1 with since := if t.used = 0 then d.now else t.since } }
          else d

/-! DRAW_PASS. -/

/-- Whether an earlier raster operation of the ring has not ended (R189). -/
def Dev.earlierRaster (d : Dev) (o : Op) : Bool :=
  (d.ops.takeWhile (fun x => x.id ≠ o.id)).any (fun x => x.id.ring = o.id.ring && x.target = 0 && (x.phase = .released || x.phase = .started))

/-- A draw record with its programs (R79, R187). -/
def Dev.readDraw (d : Dev) (o : Op) (i : Nat) : Dev × Except PassErr Draw :=
  match d.readWords o.fn ((passDesc o.desc).drawAt i) 8 .read with
  | (d1, .error (cause, va)) => (d1, .error (.fault cause va))
  | (d1, .ok ws) =>
    if !drawOk ws then (d1, .error .range)
    else
      match d1.waveProg o.fn (fld (nth ws 2 0) 0 48) with
      | (d2, .error e) => (d2, .error e)
      | (d2, .ok v) =>
        match d2.waveProg o.fn (fld (nth ws 3 0) 0 48) with
        | (d3, .error e) => (d3, .error e)
        | (d3, .ok x) => (d3, .ok { words := ws, vertex := v, pixel := x })

/-- All draw records of a pass, in order. -/
def Dev.readDraws (d : Dev) (o : Op) (n i : Nat) : Dev × Except PassErr (List Draw) :=
  match n with
  | 0 => (d, .ok [])
  | n + 1 =>
    match d.readDraw o i with
    | (d1, .error e) => (d1, .error e)
    | (d1, .ok r) => match d1.readDraws o n (i + 1) with | (d2, .error e) => (d2, .error e) | (d2, .ok l) => (d2, .ok (r :: l))

/-- A pass that has just taken a context. -/
def Pass.begin (o : Op) (stage : Nat) (draws : List Draw) (blocks : List Nat) : Pass :=
  { id := o.id, fn := o.fn, stage := stage, draws := draws, outs := [], prims := [], segLo := 0, segHi := 0, todo := [], tiles := [], touched := []
    blocks := blocks, maxBlocks := blocks.length, resolves := 0, reexec := 0, interrupts := [] }

/-- Whether an operation takes a normal context (R192): one of the 16 is free, and no earlier operation of its ring awaits one. -/
def Dev.contextFor (d : Dev) (o : Op) : Bool :=
  decide (d.raster.passes.length < 16) &&
    !(d.ops.takeWhile (fun x => x.id ≠ o.id)).any (fun x => x.id.ring = o.id.ring && x.target = 0 && x.active && (d.passOf x.id).isNone)

/-- The operation takes a context (R192). -/
def Dev.openPass (d : Dev) (o : Op) (stage : Nat) (draws : List Draw) (blocks : List Nat) : Dev :=
  { d with raster := { d.raster with passes := d.raster.passes ++ [Pass.begin o stage draws blocks] } }

/-- Binning starts in the pass's context (R189, R200): its order, its function's reserve and a first block decide first. -/
def Dev.startBinning (d : Dev) (o : Op) (q : Pass) : Dev :=
  let p := passDesc o.desc
  if (p.order = 0 && d.earlierRaster o) || o.cancel then d
  else if d.tlReserve o.fn = 0 then (d.stopPass o.id).finish o.id 0x10 none
  else if d.drawable o.fn = 0 then d
  else
    match d.readDraws o p.drawCount 0 with
    | (d1, .error e) => d1.stopWith o e
    | (d1, .ok draws) => d1.setPass { q with stage := 1, draws := draws, blocks := d1.freeBlocks.take 1, maxBlocks := 1 }

/-- A DRAW_PASS takes a context and starts its binning there (R185, R192): out of range or without a context it does not. -/
def Dev.startPass (d : Dev) (o : Op) : Dev :=
  if !passOk o.desc then d.finish o.id 0x10 none
  else if !d.contextFor o then d
  else (d.openPass o 0 [] []).startBinning o (Pass.begin o 0 [] [])

/-- A pass that holds a block of a fenced group ends ST_MEM_LOST. -/
def Dev.lostPass (d : Dev) (q : Pass) : Bool := q.blocks.any (fun i => d.blockLost i)

/-- The first stage of a pass goes on; once it is over its primitives are assembled and its first segment begins. -/
def Dev.vertexStep (d : Dev) (o : Op) : Dev :=
  let d1 := ((d.dropUnits o).takeUnits o).startWaves o
  match d1.passOf o.id with
  | none => d1
  | some q =>
    if !q.unitsDone o then d1
    else let q1 := { q with prims := assemble (passDesc o.desc) q.draws q.outs, outs := [], todo := [], tiles := [] }; d1.beginSegment o q1 0

/-- The second stage of a pass goes on: tiles, midpoint resolves, the end (R190, R201). -/
def Dev.shadeStep (d : Dev) (o : Op) : Dev :=
  let d1 := if (passDesc o.desc).order = 1 && d.earlierRaster o then d else d.takeTiles o
  match d1.passOf o.id with
  | none => d1
  | some q0 =>
    let d2 := q0.tiles.foldl (fun d t => d.tileStep o t.1) d1
    match d2.passOf o.id with
    | none => d2
    | some q =>
      if q.todo ≠ [] || q.tiles ≠ [] then d2
      else if q.segHi < q.prims.length then d2.beginSegment o { q with resolves := q.resolves + 1 } q.segHi
      else d2.endPass q 0

/-- A DRAW_PASS goes as far as it can without an instruction of its waves. -/
def Dev.passStep (d : Dev) (o : Op) : Dev :=
  match d.passOf o.id with
  | none => d.startPass o
  | some q =>
    if d.lostPass q then (d.stopPass o.id).finish o.id 0x21 none
    else if q.stage = 0 then d.startBinning o q
    else if q.stage = 1 then d.vertexStep o
    else d.shadeStep o

/-- DRAW_PASS (R185 to R203). -/
def execDrawPass (id : OpId) (s : State) : Host.Outcome State Fault Refusal :=
  runOp id (fun d => match d.activeOp id 0 1 with | some o => if d.runs 4 then d.passStep o else d | none => d) s

/-- POOL_BLOCK_GRANT (R200): a pass that waits for its first block obtains one. -/
def execPoolBlockGrant (id : OpId) (s : State) : Host.Outcome State Fault Refusal :=
  runOp id (fun d =>
    match d.activeOp id 0 1, d.passOf id with
    | some o, some q => if d.runs 4 && q.stage = 0 then d.startBinning o q else d
    | _, _ => d) s

/-! DISPATCH, CLEAR and RESOLVE (R191). -/

/-- Whether a DISPATCH descriptor is in range. -/
def dispatchOk (o : Op) : Bool :=
  nvOk (fld (o.word 0) 32 8) && fld (o.word 0) 0 16 = 0 && fld (o.word 1) 48 24 = 0 && fld (o.word 2) 48 24 = 0 && fld (o.word 3) 56 16 = 0 &&
    fld (o.word 3) 0 48 % 64 = 0

/-- A DISPATCH takes a context (R192). -/
def Dev.startDispatch (d : Dev) (o : Op) : Dev :=
  if !dispatchOk o then d.finish o.id 0x10 none
  else if !d.contextFor o then d
  else
    match d.waveProg o.fn (fld (o.word 1) 0 48) with
    | (d1, .error e) => d1.stopWith o e
    | (d1, .ok g) => d1.openPass o 1 [{ words := [], vertex := g, pixel := g }] []

/-- A DISPATCH goes as far as it can without an instruction of its waves. -/
def Dev.dispatchStep (d : Dev) (o : Op) : Dev :=
  match d.passOf o.id with
  | none => d.startDispatch o
  | some _ =>
    let d1 := ((d.dropUnits o).takeUnits o).startWaves o
    match d1.passOf o.id with
    | none => d1
    | some q => if q.unitsDone o then d1.endPass q 0 else d1

/-- DISPATCH (R191). -/
def execDispatch (id : OpId) (s : State) : Host.Outcome State Fault Refusal :=
  runOp id (fun d => match d.activeOp id 0 2 with | some o => if d.runs 4 then d.dispatchStep o else d | none => d) s

/-- The dimensions and samples of the surface of a CLEAR or RESOLVE, which its records do not state (tag 17): at most the width that
the pitch holds. -/
def surfaceDims (o : Op) (a : Att) : Nat × Nat × Nat :=
  let u (i : Nat) : Nat := Config.unstated 17 (i :: o.desc.map (fun w => w.toNat))
  let e := elemBytes a.format
  let most := Nat.min 16384 (if a.layout = 0 then a.pitch / e else a.pitch / (1024 * e) * 32)
  (u 0 % Nat.max 1 most + 1, u 1 % 16384 + 1, 2 ^ (u 2 % 3))

/-- Whether a record of four words may be cleared or resolved: its codes and addresses are those of an attachment. -/
def recordOk (o : Op) (l : List W72) : Bool :=
  let a := attOf l
  let (w, h, s) := surfaceDims o a
  attOk (a.format = 0x50) w h (if a.store = 1 then 4 else s) l

/-- A surface cleared (R191, R213): the clear word and the metadata of layout 2, else every element. -/
def Dev.clearSurface (d : Dev) (o : Op) (a : Att) : Got Unit :=
  let (w, h, n) := surfaceDims o a
  let tx := ceilDiv w 32
  let all (h2 : Dev → Nat × Nat → Got Unit) (d : Dev) (l : List (Nat × Nat)) : Got Unit := Got.bind (mapGot h2 d l) (fun d _ => (d, .ok ()))
  let tiles := (List.range n).flatMap (fun s => (List.range (tx * ceilDiv h 32)).map (fun t => (s, t)))
  if a.layout = 2 then
    Got.bind (d.put o.fn true a.aux (toBytes 9 a.clear.toNat)) (fun d _ =>
      all (fun d x => d.put o.fn true (metaAddr (a.surf w h x.1) x.1 (x.2 % tx) (x.2 / tx)) [0]) d tiles)
  else all (fun d x => d.storePlane o.fn true a w h x.1 (x.2 % tx) (x.2 / tx) (List.replicate 1024 a.clear)) d tiles

/-- An operation without waves ends: its fault (R66), or the result of R190. -/
def Dev.endPlain (o : Op) (x : Got Unit) : Dev :=
  match x with
  | (d, .error (cause, va)) => d.opFault o.id o.fn cause va
  | (d, .ok _) => ({ d with free := d.free + 1 } : Dev).finish o.id 0 (some (passResult 0 0 0 (Config.measured d.free)))

/-- CLEAR (R191, R192): its context is free again when the command ends. -/
def execClear (id : OpId) (s : State) : Host.Outcome State Fault Refusal :=
  runOp id (fun d =>
    match d.activeOp id 0 3 with
    | none => d
    | some o =>
      if !d.runs 4 then d
      else if !recordOk o o.desc then d.finish id 0x10 none
      else if !d.contextFor o then d
      else Dev.endPlain o (d.clearSurface o (attOf o.desc))) s

/-- A surface resolved (R191): the averages of the source's samples, tile by tile, in the destination's layout. -/
def Dev.resolveSurface (d : Dev) (o : Op) (src dst : Att) : Got Unit :=
  let (w, h, n) := surfaceDims o src
  let tx := ceilDiv w 32
  Got.bind (mapGot (fun d t =>
    Got.bind (mapGot (fun d s => d.loadPlane o.fn { src with load := 1 } w h s (t % tx) (t / tx) []) d (List.range n)) (fun d planes =>
      d.storePlane o.fn true dst w h 0 (t % tx) (t / tx) ((List.range 1024).map (fun i => averagePx src.format (planes.map (fun l => nth l i 0))))))
    d (List.range (tx * ceilDiv h 32))) (fun d _ => (d, .ok ()))

/-- RESOLVE (R191, R192): records of a colour and a depth-stencil format do not go together. -/
def execResolve (id : OpId) (s : State) : Host.Outcome State Fault Refusal :=
  runOp id (fun d =>
    match d.activeOp id 0 4 with
    | none => d
    | some o =>
      let src := attOf (o.desc.take 4)
      let dst := attOf (o.desc.drop 4)
      if !d.runs 4 then d
      else if !recordOk o (o.desc.take 4) || !recordOk o (o.desc.drop 4) || (src.format = 0x50) != (dst.format = 0x50) then d.finish id 0x10 none
      else if !d.contextFor o then d
      else Dev.endPlain o (d.resolveSurface o src dst)) s

/-! Eviction and the loss of cores. -/

/-- A unit of a pass taken from its core, to be executed again (R195, R215). -/
def Dev.redo (d : Dev) (q : Pass) (unit : Nat) : Dev :=
  let d1 : Dev := { d with raster := { d.raster with waves := d.raster.waves.filter (fun x => !(x.2.op = q.id && x.2.tile = unit)) } }
  d1.setPass { q with tiles := tdel q.tiles unit, todo := unit :: q.todo, reexec := q.reexec + 1 }

/-- TILE_EVICT (R195, R417): for a ready compositor tile after PREEMPT_LIMIT, or from a core that OP7 takes after 50 µs. -/
def execTileEvict (core : Fin 16) (at_ : Nat) (s : State) : Host.Outcome State Fault Refusal :=
  runAs (mpCore core.val) (fun d0 =>
    let d := d0.tick at_
    let leaving := decide (8 ≤ core.val) && d.power.applied = 7
    match d.raster.passes.find? (fun q => q.stage = 2 && q.tiles.any (fun t => t.2.on core.val && t.2.used ≠ 0)) with
    | none => d0
    | some q =>
      match q.tiles.find? (fun t => t.2.on core.val && t.2.used ≠ 0) with
      | none => d0
      | some (unit, t) =>
        if d.runs 4 && ((d.compositorReady && decide (t.since + d.raster.preemptLimit * 1000 ≤ d.now)) || (leaving && decide (Nat.max t.since d.power.opAt + 50000 ≤ d.now))) then d.redo q unit
        else d0) s

/-- One unit of a core that is reset (R215, R216): executed again, or, on its fourth interruption, the end of the operation. -/
def Dev.interruptUnit (d : Dev) (id : OpId) (unit : Nat) : Dev :=
  match d.passOf id with
  | none => d
  | some q =>
    let key := 2 * unit + (if q.stage = 2 then 1 else 0)
    let n := tget q.interrupts key 0 + 1
    let q1 := { q with interrupts := tset q.interrupts key n }
    let d1 := d.updOp id (fun o => { o with replayed := true })
    if 4 ≤ n then d1.endPass q1 0x12 else d1.redo q1 unit

/-- A shader core is reset (R215): out of service, and what it held is executed elsewhere. -/
def Dev.resetShader (d : Dev) (core : Nat) : Dev :=
  let held := d.raster.passes.flatMap (fun q => (q.tiles.filter (fun t => t.2.on core)).map (fun t => (q.id, t.1)))
  held.foldl (fun d x => d.interruptUnit x.1 x.2) (d.setCore core { d.coreOf core with resetAt := some d.now, work := none, tex := [] })

/-- SHADER_CORE_RESET (R215, R216). -/
def execShaderCoreReset (core : Fin 16) (s : State) : Host.Outcome State Fault Refusal :=
  run (fun d => if d.runs 4 then d.resetShader core.val else d) s

/-- SHADER_CORE_RETURN (R215). -/
def execShaderCoreReturn (core : Fin 16) (at_ : Nat) (s : State) : Host.Outcome State Fault Refusal :=
  run (fun d =>
    match (d.coreOf core.val).resetAt with
    | some t => let d1 := d.tick (Nat.min at_ (t + 50000)); d1.setCore core.val { d1.coreOf core.val with resetAt := none, idleFrom := d1.now }
    | none => d) s

end Sys2Proof.Machine
end

