-- ==== Sys2Proof/Machine/Power.lean ====
section
/-! DEFINITION. The power manager (R418 to R444): operating points and their rails, the thermal limit, sleep states with entry,
rollback and wake, and engine resets. -/

namespace Sys2Proof.Machine

/-! Engine resets (R443). -/

/-- The engines that may be reset alone. -/
def engineNamed (sub eng : Nat) : Bool :=
  (sub = 0x02 && eng < 8) || (sub = 0x03 && eng < 16) || (sub = 0x06 && eng < 12) || (sub = 0x08 && eng < 4) || (sub = 0x09 && eng < 32) || (sub = 0x0A && eng = 0x20)

/-- A check-value unit is reset (R443): its period abandoned and counted, RUNNING from the next period start. -/
def Dev.resetCvu (d : Dev) (u : Nat) : Dev :=
  let x := d.cvu u
  let inside := d.cvuOn u && d.cvuInPeriod u (d.cw u 1) (d.cw u 5)
  d.setCvu u
    { x with
      active := false, bytes := 0, segments := 0, next := none, wait := false, ended := [], frame := d.cvuSkip u x.frame
      abandoned := if inside then satInc x.abandoned else x.abandoned
      state := if d.cvuOn u then 1 else 0 }

/-- One engine reset. The fault code that a graph reports for it is not stated (tag 30). -/
def Dev.engineReset (d : Dev) (sub eng : Nat) : Dev :=
  match sub with
  | 0x02 => if (tfind d.coreDown eng).isNone then d.coreReset eng else d
  | 0x03 => d.resetShader eng
  | 0x06 => if bit (d.tw eng 1) 31 then d.touchStart eng else d
  | 0x08 => d.graphFault eng (Config.unstated 30 [eng, d.now] % 256) (Config.unstated 30 [eng, d.now, 1])
  | 0x09 => d.resetCvu eng
  | _ => { d with ops := d.ops.map (fun o => if o.active && o.target = 2 then { o with replayed := true } else o) }

/-! Parts that stop and start. -/

/-- The audio engine starts as at first use (R343, R344, R358): the count at zero, ports starting, converters muted. -/
def Dev.audioRestart (d : Dev) : Dev :=
  let a := d.audio
  { d with audio :=
      { a with
        running := true, startAt := d.now, count := 0, since := 0, stopAt := 0, written := []
        slices := a.slices.map (fun x => (x.1, { x.2 with running := false }))
        ports := a.ports.map (fun x => if decide (x.1 < 10) && x.2.state ≠ 0 then (x.1, { x.2 with state := 1, good := 0, fade := 0, phase := 0, place := 0, due := 0, frames := 0 }) else x)
        convs := a.convs.map (fun x => (x.1, x.2.restart)) } }

/-- Enabled touch channels restart (R306, R433, R438). -/
def Dev.touchRestart (d : Dev) : Dev := (List.range 12).foldl (fun d c => if bit (d.tw c 1) 31 then d.touchStart c else d) d

/-- The pipes that an entry with this target keeps scanning. -/
def Dev.keptPipes (d : Dev) (target : BitVec 2) : BitVec 12 := if target = 1 then d.power.showcase else 0

/-- Pipes outside a set stop, their last frames retired, their ports OFF, their override bits cleared (R224, R432). -/
def Dev.stopPipes (d : Dev) (keep : BitVec 12) : Dev :=
  (List.range 12).foldl (fun d p =>
    if (d.pt p).active && !bit keep p then
      let d1 := ((d.setPt p { d.pt p with active := false, showcase := false }).portOff (d.pipePort p)).retireAll p
      { d1 with disp := { d1.disp with override := setBit d1.disp.override p false } }
    else d) d

/-- Enabled pipes of a set that are stopped start as at first link-up (R433, R438), with the commits due at their first VBLANK. -/
def Dev.startPipes (d : Dev) (on : Nat → Bool) : Dev :=
  let ps := indices 12 (fun p => on p && d.pipeOn p && !(d.pt p).active)
  let d1 := ps.foldl Dev.pipeStart d
  d1.applyDue (fun c => d1.power.state ≠ .showcase && ps.any (fun p => c.dueAt p d1.now)) (fun d2 => ps.foldl Dev.firstVblank d2)

/-- Every group in self-refresh, and every group out of it (R403, R432, R438). -/
def Dev.sleepGroups (d : Dev) (on : Bool) : Dev :=
  (List.range 4).foldl (fun d g =>
    let x := d.group g
    if x.state = 2 then d else d.setGroup g { x with selfRefresh := on, lastReq := if on then x.lastReq else d.now }) d

/-! Requests (R428, R430). -/

/-- Whether a request of a sleep state is valid. -/
def Dev.sleepValid (d : Dev) (target : BitVec 2) (bySvp : Bool) : Bool :=
  if d.power.state = .showcase then bySvp && target = 2
  else if target = 2 then true
  else if target ≠ 1 then false
  else
    let l := (List.range 12).filter (fun p => bit d.power.showcase p)
    decide (l ≠ []) && decide (l.length ≤ 4) && l.all (fun p => d.pipeOn p && (d.dport (d.pipePort p)).link = 2)

/-- The wind-down begins (R431): contacts end with CANCEL, effects end. -/
def Dev.windDown (d : Dev) : Dev :=
  let d1 := (List.range 12).foldl (fun d c => d.cancelContacts c d.now 0) d
  (List.range 16).foldl (fun d c =>
    let x := d.hch c
    if x.state = 1 || x.state = 2 then d.setHch c (x.ended c) else d) d1

/-- A request ends with its outcome (R430); one made in SHOWCASE leaves GO as it was. -/
def Dev.sleepEnd (d : Dev) (result reason : Nat) (locus : Option W72) (keepGo : Bool) : Dev :=
  let p := d.power
  { d with power :=
      { p with
        result := BitVec.ofNat 8 result, reason := BitVec.ofNat 3 reason, locus := locus.getD p.locus
        reqGo := keepGo && p.reqGo, asked := none } }

/-- A request is taken up: refused as invalid, or the entry begins. From SHOWCASE, the wind-down and steps 1 to 9 are skipped. -/
def Dev.sleepBegin (d : Dev) (target : BitVec 2) (bySvp : Bool) : Dev :=
  let deep : Bool := d.power.state = .showcase
  if !d.sleepValid target bySvp then d.sleepEnd 0x10 4 none deep
  else
    let e : SleepEntry :=
      { target := target, goAt := d.now, deep := deep, order := if deep then 10 else 0, askedAt := d.now
        stopped := if deep then [1, 2, 3, 4, 5, 6, 7, 8, 9, 10, 11] else [] }
    let d1 : Dev := { d with power := { d.power with state := .entering, entry := some e, asked := none, latched := 0 } }
    if deep then d1 else d1.windDown

/-- What waits for the end of a sequence: engine resets, then a request, then an operating point (R423, R443). -/
def Dev.afterSequence (d : Dev) : Dev :=
  if d.power.state ≠ .active || d.power.change.isSome then d
  else
    let d1 := d.power.pendingEresets.foldl (fun d x => d.engineReset x.1 x.2) { d with power := { d.power with pendingEresets := [] } }
    match d1.power.asked with
    | some (t, s) => d1.sleepBegin t s
    | none => d1.opCheck

/-- A request of a sleep state (R423, R430): it waits for an operating-point change. -/
def Dev.sleepRequest (d : Dev) (target : BitVec 2) (bySvp : Bool) : Dev :=
  let d1 : Dev := { d with power := { d.power with reqGo := true } }
  if d.power.change.isSome then { d1 with power := { d1.power with asked := some (target, bySvp) } } else d1.sleepBegin target bySvp

/-- A PWR_REQ write (R16, R430, R444). -/
def Dev.pwrReq (d : Dev) (v : BitVec 32) : Dev :=
  let p := d.power
  let t : BitVec 2 := BitVec.ofNat 2 (fld v 0 2)
  if t = 0 ∨ t = 3 then d
  else if bit v 31 && p.reqGo then { d with power := { p with reqDiscarded := true } }
  else
    let d1 : Dev := { d with power := { p with reqTarget := t, reqDiscarded := p.reqDiscarded && !bit v 30 } }
    if bit v 31 then d1.sleepRequest t false else d1

/-- PWR_REQ (R430). -/
def execPwrReq (f : Fin 64) (v : BitVec 32) (s : State) : Host.Outcome State Fault Refusal :=
  run (managed (.pwrReq f v) f.val (fun d => d.pwrReq v)) s

/-! Operating points (R418 to R424). -/

/-- A write of PWR_OP.TARGET (R420, R421, R423). -/
def Dev.pwrOp (d : Dev) (v : BitVec 32) : Dev :=
  let t : BitVec 3 := BitVec.ofNat 3 (fld v 0 3)
  if t = d.power.opTarget then d else ({ d with power := { d.power with opTarget := t, failedFor := none } } : Dev).opCheck

/-- PWR_OP.TARGET (R420). -/
def execPwrOpTarget (f : Fin 64) (v : BitVec 32) (s : State) : Host.Outcome State Fault Refusal :=
  run (managed (.pwrOpTarget f v) f.val (fun d => d.pwrOp v)) s

/-- The voltage of a rail's last code, in mV: rail 0 is VDD_SHD, rail 1 VDD_CORE. -/
def Power.railMv (p : Power) (rail : Nat) : Nat := if rail = 0 then p.shdMv else p.coreMv

/-- RAIL_SETTLED (R420): a raised rail within 10 mV below its voltage or above, a lowered one within 10 mV. -/
def execRailSettled (rail : Fin 2) (mv : Nat) (s : State) : Host.Outcome State Fault Refusal :=
  run (fun d =>
    match d.power.change with
    | none => d
    | some c =>
      let want := d.power.railMv rail.val
      if c.stage = 0 then
        (if !c.raising.contains rail.val || mv + 10 < want then d
         else
           let left := c.raising.filter (fun r => r ≠ rail.val)
           let d1 : Dev := { d with power := { d.power with change := some { c with raising := left } } }
           if left = [] then d1.opRaised.afterSequence else d1)
      else if c.stage = 2 then
        (if !c.lowering.contains rail.val || mv + 10 < want || want + 10 < mv then d
         else
           let left := c.lowering.filter (fun r => r ≠ rail.val)
           let d1 : Dev := { d with power := { d.power with change := some { c with lowering := left } } }
           if left = [] then d1.opFinish.afterSequence else d1)
      else d) s

/-- The locus of a rail's voltage monitor (R421, R496). -/
def railLocus (rail : Nat) : W72 := locusUnit 0x0C 0x00 (0x20 + rail)

/-- RAIL_TIMEOUT (R421): 500 µs after the write the change is abandoned; the rail has its code of before again. -/
def execRailTimeout (rail : Fin 2) (mv : Nat) (at_ : Nat) (s : State) : Host.Outcome State Fault Refusal :=
  run (fun d =>
    match d.power.change with
    | none => d
    | some c =>
      let want := d.power.railMv rail.val
      if c.stage ≠ 0 || !c.raising.contains rail.val || want ≤ mv + 10 || decide (Nat.max d.now at_ < c.writtenAt + 500000) then d
      else
        let d1 := d.tick at_
        let p := d1.power
        let d2 : Dev :=
          { d1 with power :=
              { p.railSet rail.val (if rail.val = 0 then c.oldShdMv else c.oldCoreMv) with
                change := none, failedFor := some c.target, reason := 5, locus := railLocus rail.val } }
        (d2.smRecord 0x28 (railLocus rail.val) none mv (want - 10)).afterSequence) s

/-- The fastest CLK_SHD divider that a voltage permits; the slowest where it permits none (R419, R422). -/
def divFor (mv : Nat) : Nat := if 860 ≤ mv then 4 else if 760 ≤ mv then 5 else if 640 ≤ mv then 8 else 16

/-- The minimum of the settings in use on a rail, in mV (R419). -/
def Dev.railMin (d : Dev) (rail : Nat) : Nat :=
  if rail = 0 then divMinMv d.power.shdDiv
  else if d.power.state = .showcase then 620
  else if (List.range 16).any (fun n => (d.chan n).speed = 0) then 770
  else 720

/-- UNDERVOLTAGE (R422): after more than 1 µs, the gate slows CLK_SHD; for VDD_CORE the record is all. -/
def execUndervoltage (rail : Fin 2) (mv : Nat) (ns : Nat) (s : State) : Host.Outcome State Fault Refusal :=
  run (fun d =>
    let low := d.railMin rail.val
    if d.boot.stage = .held || d.power.state = .standby || (rail.val = 0 && d.power.state = .showcase) || ns ≤ 1000 || low ≤ mv then d
    else
      let d1 : Dev := if rail.val = 0 then { d with power := { d.power with shdDiv := Nat.max d.power.shdDiv (divFor mv) } } else d
      d1.smRecord 0x28 (railLocus rail.val) none mv low) s

/-- Tmax of the grade, in 0.01 °C (R424): grade codes 0 AQ, 1 IX, 2 CX. -/
def tmax (grade : BitVec 2) : Int := if grade = 0 then 12500 else if grade = 1 then 10500 else 10000

/-- LIMIT one step after the readings (R424): up every 10 ms, down every 100 ms. -/
def Dev.limitStep (d : Dev) (t : Nat) (l : List Int) : Dev :=
  let p := d.power
  let m := tmax d.boot.fuses.grade
  let hot := l.any (fun x => decide (m - 500 ≤ x))
  let cool := l ≠ [] && l.all (fun x => decide (x ≤ m - 1000))
  if hot then
    (let d1 : Dev := { d with power := { p with coolAt := t } }
     if p.limit ≠ 7 && decide (p.hotAt + 10000000 ≤ t) then { d1 with power := { d1.power with hotAt := t, limit := p.limit + 1, failedFor := none } } else d1)
  else if cool then
    (let d1 : Dev := { d with power := { p with hotAt := t } }
     if p.limit ≠ 0 && decide (p.coolAt + 100000000 ≤ t) then { d1 with power := { d1.power with coolAt := t, limit := p.limit - 1, failedFor := none } } else d1)
  else { d with power := { p with hotAt := t, coolAt := t } }

/-- THERMAL_TICK (R424, R496): the readings of TS0 to TS15 in 0.01 °C; excluded sensors count for nothing. THERMAL is reported for
each sensor that reaches Tmax, or finds LIMIT at 7 there, with this tick. -/
def execThermalTick (at_ : Nat) (temps : List Int) (s : State) : Host.Outcome State Fault Refusal :=
  run (fun d =>
    if d.boot.stage = .held || d.power.state = .standby || d.safety.state ≠ 0 || temps.length ≠ 16 then d
    else
      let d1 := d.tick at_
      let m := tmax d.boot.fuses.grade
      let seven := d.power.limit = 7
      let old := d.safety.temps
      let used := (List.range 16).filter (fun n => !bit d.safety.excluded n)
      let d2 := ({ d1 with safety := { d1.safety with temps := temps } } : Dev).limitStep d1.now (used.map (fun n => nth temps n 0))
      let d3 := used.foldl (fun d n =>
        let x := nth temps n 0
        if decide (m ≤ x) && d2.power.limit = 7 && !(seven && decide (m ≤ nth old n 0)) then
          d.smRecord 0x2A (locusEngine 0x0C (0x10 + n)) none x.toNat m.toNat
        else d) d2
      d3.opCheck) s

/-- SHADER_POWER_GATE (R426): a core idle for 1 ms; nothing of it is retained. -/
def execShaderPowerGate (core : Fin 16) (at_ : Nat) (s : State) : Host.Outcome State Fault Refusal :=
  run (fun d =>
    let x := d.coreOf core.val
    if !d.runs 4 || x.gated || x.inTest || x.resetAt.isSome || d.coreBusy core.val || decide (Nat.max d.now at_ < x.idleFrom + 1000000) then d
    else (d.tick at_).setCore core.val { x with gated := true, tex := [], work := none }) s

/-! Entry to a sleep state (R431 to R434). -/

/-- WIND_DOWN_DONE (R431): the fade of 5 ms has passed, brakes have ended by then, showcase pipes are in Vitrine-only output; the port complex is asked first. -/
def execWindDownDone (at_ : Nat) (s : State) : Host.Outcome State Fault Refusal :=
  run (fun d =>
    match d.power.entry with
    | none => d
    | some e =>
      if e.order ≠ 0 || decide (Nat.max d.now at_ < e.goAt + 5000000) || !(List.range 12).all (fun p => !bit (d.keptPipes e.target) p || (d.pt p).showcase) then d
      else
        let d1 := d.tick at_
        { d1 with power := { d1.power with entry := some { e with order := 1, askedAt := d1.now } } }) s

/-- The locus of the block asked at an order number (R432). -/
def blockLocus (order : Nat) : W72 :=
  nth [0, locusEngine 0x01 0xFF, locusEngine 0x0C 0x02, locusEngine 0x02 0xFF, locusEngine 0x03 0xFF, locusEngine 0x0A 0x20, locusEngine 0x09 0xFF,
    locusEngine 0x08 0xFF, locusEngine 0x07 0xFF, locusEngine 0x06 0xFF, locusEngine 0x05 0xFF, locusEngine 0x0A 0xFF, locusEngine 0x0B 0x00] order 0

/-- The refusal of a block, with its locus (R432). -/
def Dev.blockRefuses (d : Dev) (e : SleepEntry) : Option W72 :=
  let when (b : Bool) : Option W72 := if b then some (blockLocus e.order) else none
  match e.order with
  | 1 => when ((List.range 64).any (fun f => d.resetting f))
  | 2 => when (d.update.state = 3 || d.update.state = 5 || d.update.activateOp.isSome)
  | 10 =>
    ((List.range 12).find? (fun p =>
      (d.pt p).active && !bit (d.keptPipes e.target) p && d.mustShowNow p && !bit d.disp.override p)).map (fun p => locusEngine 0x05 p)
  | 11 => when ((List.range 4).any (fun g => (d.group g).change.isSome || d.groupFailed g) || d.dram.busyFrom.isSome)
  | _ => none

/-- The shader cores at a boundary (R432, order 4): tiles that reach none within 50 µs of the request are evicted as R195 says. -/
def Dev.evictAll (d : Dev) (e : SleepEntry) : Dev :=
  if d.now < e.askedAt + 50000 then d
  else
    (d.raster.passes.filter (fun q => q.stage = 2)).foldl (fun d q =>
      (q.tiles.filter (fun t => t.2.used ≠ 0)).foldl (fun d t => match d.passOf q.id with | some x => d.redo x t.1 | none => d) d) d

/-- A block stops (R432). -/
def Dev.blockStops (d : Dev) (e : SleepEntry) : Dev :=
  match e.order with
  | 7 => { d with audio := { d.audio with running := false } }
  | 8 => { d with haptic := { d.haptic with links := List.replicate 4 (linkFrame (List.replicate 4 (0, false))), origin := none } }
  | 10 => d.stopPipes (d.keptPipes e.target)
  | 11 => d.sleepGroups true
  | _ => d

/-- What resumes after a rollback or a wake, except the showcase pipes, which return at a VBLANK. -/
def Dev.resumeAll (d : Dev) : Dev := (((d.sleepGroups false).startPipes (fun _ => true)).touchRestart).audioRestart

/-- The device is ACTIVE again with an outcome, and goes on with what has waited. -/
def Dev.backActive (d : Dev) (result reason : Nat) (locus : Option W72) : Dev :=
  let d1 : Dev := { d with power := { d.power with state := .active, entry := none, latched := 0, stby := false, shdOff := false } }
  (d1.resumeAll.sleepEnd result reason locus false).afterSequence

/-- The rails of ACTIVE at the operating point last taken up, both codes written again (R441, R529). -/
def Dev.activeRails (d : Dev) : Dev :=
  let c := d.power.current.toNat
  { d with power := (d.power.railSet 0 (opShdMv c)).railSet 1 (opCoreMv c) }

/-- The rails of a sleep state (R434, R441): in SHOWCASE VDD_SHD is off by interface write and VDD_CORE at 0.65 V; in STANDBY the board may
remove both, and nothing is written. -/
def Power.sleepRails (p : Power) (target : BitVec 2) : Power := if target = 1 then (p.codeSent 0 0).railSet 1 650 else p

/-- The sources that have fired (R434, R436): those latched, and ALARM once its instant has passed. -/
def Dev.wakeFired (d : Dev) : BitVec 32 :=
  setBit d.power.latched 8 (bit d.power.latched 8 || (bit d.power.wakeEn 8 && decide (d.power.wakeAt.toNat ≤ d.now)))

/-- The exit (R438, R440) with its drift reading, begun by the source of a bit; it ends within 2 ms from SHOWCASE and within 8 ms from STANDBY. -/
def Dev.exitSleep (d : Dev) (source : Nat) : Dev :=
  let fired := setBit d.wakeFired source true
  let bound := if d.power.state = .standby then 8000000 else 2000000
  let wakeN := (List.range 4).foldl (fun (w : BitVec 4) m =>
    if bit d.power.wakeEn (12 + m) && source ≠ m && (d.port m).link ≠ .l0 then setBit w m true else w) d.power.wakeN
  let d1 : Dev :=
    { d with
      free := d.free + 1, now := d.now + Config.measured d.free % (bound + 1)
      power := { d.power with wakeSrc := fired, wakeN := wakeN } }
  (List.range 16).foldl (fun d n => d.setChan n { d.chan n with driftAt := some d.now }) (d1.activeRails.backActive 0 0 none)

/-- An entry rolls back (R433): to ACTIVE, or to SHOWCASE when it began there. -/
def Dev.rollback (d : Dev) (reason : Nat) (locus : W72) : Dev :=
  match d.power.entry with
  | none => d
  | some e =>
    if e.deep then
      (let d1 := ({ d with power := { d.power with state := .showcase, entry := none } } : Dev).sleepEnd 3 reason (some locus) true
       d1.startPipes (fun p => bit d1.power.showcase p))
    else d.backActive 3 reason (some locus)

/-- The lowest wake source of a word. -/
def firstSource (w : BitVec 32) : Nat := ((List.range 32).find? (fun i => bit w i)).getD 31

/-- The commit (R434): a wake race, or the sleep state. -/
def Dev.sleepCommit (d : Dev) (e : SleepEntry) : Dev :=
  let fired := d.wakeFired
  if fired ≠ 0 then
    (let d1 := ({ d with power := { d.power with wakeSrc := fired } } : Dev).activeRails.rollback 3 (blockLocus 12)
     if e.deep then d1.exitSleep (firstSource fired) else d1)
  else
    let p := d.power
    { d with power :=
        { p.sleepRails e.target with
          state := if e.target = 1 then .showcase else .standby
          entry := none, last := e.target, entries := satInc p.entries, shdOff := true
          stby := e.target = 2 } }

/-- BLOCK_STOPPED (R432 to R434): the block asked reports, or refuses; the power manager's own step is the commit. -/
def execBlockStopped (at_ : Nat) (s : State) : Host.Outcome State Fault Refusal :=
  run (fun d =>
    match d.power.entry with
    | none => d
    | some e =>
      if e.order = 0 then d
      else
        let d1 := d.tick at_
        if e.order = 12 then d1.sleepCommit e
        else
          match d1.blockRefuses e with
          | some l => d1.rollback 1 l
          | none =>
            let d2 := (if e.order = 4 then d1.evictAll e else d1).blockStops e
            if e.order = 4 && !(List.range 16).all d2.atBoundary then d else
            { d2 with power := { d2.power with entry := some { e with order := e.order + 1, askedAt := d2.now, stopped := e.stopped ++ [e.order] } } }) s

/-- BLOCK_STOP_TIMEOUT (R433): no answer within 100 µs. -/
def execBlockStopTimeout (at_ : Nat) (s : State) : Host.Outcome State Fault Refusal :=
  run (fun d =>
    match d.power.entry with
    | none => d
    | some e =>
      if e.order = 0 || e.order = 12 || decide (Nat.max d.now at_ < e.askedAt + 100000) then d else (d.tick at_).rollback 2 (blockLocus e.order)) s

/-! Waking (R436 to R440). -/

/-- The bit of a wake source in PWR_WAKE_EN and PWR_WAKE_SRC. -/
def wakeIndex (x : WakeSrc) : Nat :=
  match x with
  | .host m => m.val
  | .svp => 31
  | .wakein n => 4 + n.val
  | .alarm => 8
  | .hs n => 9 + n.val
  | .tch n => 16 + n.val

/-- Whether a source may fire now: it is enabled, a touch channel is no tunnelled one, the alarm's instant has come. -/
def Dev.wakeEnabled (d : Dev) (x : WakeSrc) : Bool :=
  bit d.power.wakeEn (wakeIndex x) &&
    (match x with
     | .tch n => fld (d.tw n.val 1) 28 3 < 3
     | .alarm => decide (d.power.wakeAt.toNat ≤ d.now)
     | _ => true)

/-- A source fires: latched from GO on, and the exit from a sleep state. -/
def Dev.wakeBy (d : Dev) (x : WakeSrc) : Dev :=
  if !d.wakeEnabled x || d.boot.stage ≠ .ready || d.freeze.at_.isSome then d
  else
    match d.power.state with
    | .entering => { d with power := { d.power with latched := setBit d.power.latched (wakeIndex x) true } }
    | .showcase => d.exitSleep (wakeIndex x)
    | .standby => d.exitSleep (wakeIndex x)
    | _ => d

/-- WAKE (R438). -/
def execWake (src : WakeSrc) (at_ : Nat) (s : State) : Host.Outcome State Fault Refusal := run (fun d => (d.tick at_).wakeBy src) s

/-- SVP_WAKE_PATTERN (R437): the word and the number of edges of the frame. -/
def execSvpWakePattern (word : BitVec 32) (edges : Nat) (s : State) : Host.Outcome State Fault Refusal :=
  run (fun d => if word = 0xA5C33C5A && edges = 32 then d.wakeBy .svp else d) s

/-! Engine resets on request. -/

/-- An engine reset by the safety manager (R443): during an entry it rolls the entry back. -/
def Dev.safetyReset (d : Dev) (sub eng : Nat) : Dev :=
  match d.power.state with
  | .active => d.engineReset sub eng
  | .entering => ({ d with power := { d.power with pendingEresets := d.power.pendingEresets ++ [(sub, eng)] } } : Dev).rollback 1 (locusEngine sub eng)
  | _ => { d with power := { d.power with pendingEresets := d.power.pendingEresets ++ [(sub, eng)] } }

/-- A write to PWR_ERESET (R443, R444). -/
def Dev.pwrEreset (d : Dev) (v : BitVec 32) : Dev :=
  let sub := fld v 8 6
  let eng := fld v 0 8
  let p := { d.power with eresetSub := BitVec.ofNat 6 sub, eresetEng := BitVec.ofNat 8 eng, eresetErr := d.power.eresetErr && !bit v 30 }
  let d1 : Dev := { d with power := p }
  if !bit v 31 then d1
  else if !engineNamed sub eng then { d1 with power := { p with eresetErr := true } }
  else if p.state = .active then d1.engineReset sub eng
  else { d1 with power := { p with pendingEresets := p.pendingEresets ++ [(sub, eng)] } }

/-- PWR_ERESET (R443). -/
def execPwrEreset (f : Fin 64) (v : BitVec 32) (s : State) : Host.Outcome State Fault Refusal :=
  run (managed (.pwrEreset f v) f.val (fun d => d.pwrEreset v)) s

/-- A write to PWR_DEVRESET (R442, R444) on the board as it then is. -/
def Dev.pwrDevreset (d : Dev) (v : BitVec 32) (env : BootEnv) : Dev := if fld v 0 16 = 0xC1A5 then d.resetAndBoot env else d

/-- PWR_DEVRESET (R442). -/
def execPwrDevreset (f : Fin 64) (v : BitVec 32) (env : BootEnv) (s : State) : Host.Outcome State Fault Refusal :=
  run (managed (.pwrDevreset f v env) f.val (fun d => d.pwrDevreset v env)) s

end Sys2Proof.Machine
end

