-- ==== Sys2Proof/Machine/SpeedPoints.lean ====
section
/-! DEFINITION. DRAM speed points: their changes (R404, R407), step-down and the fence (R408, R409), MEM_RETRY and MEM_SPEED (R414). -/

namespace Sys2Proof.Machine

/-! Speed points. -/

/-- The channels of a group at their new speed points (R407): a point without a valid stored set is trained, and a retraining under
way begins again at the new point. -/
def Dev.groupSpeeds (d : Dev) (g : Nat) : Dev :=
  (List.range 4).foldl (fun d i =>
    let n := 4 * g + i
    let x := d.chan n
    let p := d.speedFor n
    (d.needSet n p).setChan n { x with speed := BitVec.ofNat 2 p, begun := false, state := if x.state = 3 then 0 else x.state }) d

/-- Whether a channel of a group has no valid set for its new speed point. -/
def Dev.setMissing (d : Dev) (g : Nat) : Bool :=
  (List.range 4).any (fun i => !d.setValid (4 * g + i) (d.speedFor (4 * g + i)))

/-- An operating-point change goes on (R420); where it ends, what has waited for its end is taken up (R423, R430, R443). -/
def Dev.opResume (d : Dev) : Dev :=
  let d1 := d.opContinue
  if d.power.change.isSome && d1.power.change.isNone then d1.afterSequence else d1

/-- The settings that speed points follow have changed (R404, R407): groups ask for their change, or no longer need it. -/
def Dev.speedsChanged (d : Dev) : Dev := d.requestSpeeds.opResume

/-- A group at its new speed points (R407), in its window or without one. -/
def Dev.groupMoved (d : Dev) (g : Nat) (forced : Bool) : Dev :=
  let up := forced || d.setMissing g
  let d1 := ((d.scheduleGroup g).groupDrained g).groupSpeeds g
  let x := d1.group g
  d1.setGroup g { x with change := none, selfRefresh := false, forced := if up then satInc x.forced else x.forced }

/-- How long a group answers nothing while it changes its speed points (R407): up to 8 µs, and up to 40 ms longer where a channel trains; a free value
(tag 40). In a window without training it is shorter than the tolerance. -/
def Dev.changeTime (d : Dev) (g : Nat) : Nat := Config.unstated 40 [g, d.now] % (if d.setMissing g then 40008001 else 8001)

/-- A group changes its speed points (R407); data that its pipes then miss arrive late, and the operating-point change goes on after the last
group. -/
def Dev.changeSpeed (d : Dev) (g : Nat) (forced : Bool) : Dev :=
  let d1 := d.groupMoved g forced
  (if forced || d.setMissing g then d1.fetchLate (d.changeTime g) else d1).opResume

/-- Whether it is a group's turn: a change is requested, no lower-numbered group waits, no channel of it has failed. -/
def Dev.speedTurn (d : Dev) (g : Nat) : Bool :=
  d.runs 11 && (d.group g).change.isSome && (List.range g).all (fun k => (d.group k).change.isNone) && !d.groupFailed g

/-- SPEED_CHANGE (R407): an instant at which the group's tolerance is at least 13,000 ns. -/
def execSpeedChange (g : Fin 4) (at_ : Nat) (s : State) : Host.Outcome State Fault Refusal :=
  run (fun d => if d.speedTurn g.val && decide (13000 ≤ (d.tick at_).groupTolerance g.val) then (d.tick at_).changeSpeed g.val false else d) s

/-- SPEED_CHANGE_FORCED (R407): 50 ms after the request. -/
def execSpeedChangeForced (g : Fin 4) (at_ : Nat) (s : State) : Host.Outcome State Fault Refusal :=
  run (fun d =>
    match (d.group g.val).change with
    | some t => if d.speedTurn g.val && decide (t + 50000000 ≤ Nat.max d.now at_) then (d.tick at_).changeSpeed g.val true else d
    | none => d) s

/-- DRAM_STEP_DOWN (R408, R409): the first slower point that works, or the fence, within 120 ms (tag 40), in which data may arrive late. -/
def execDramStepDown (ch : Fin 16) (working : BitVec 4) (s : State) : Host.Outcome State Fault Refusal :=
  run (fun d =>
    let x := d.chan ch.val
    let d1 := d.fetchLate (Config.unstated 40 [ch.val, d.now] % 120000001)
    if !d.runs 11 || x.state ≠ 4 then d
    else
      match firstPoint working (x.speed.toNat + 1) with
      | some q => ((d1.needSet ch.val q).stepDown ch.val q).speedsChanged
      | none => (d1.fence ch.val).speedsChanged) s

/-! The manager's registers of the speed points. -/

/-- One channel that MEM_RETRY names (R414, R415): CEILING cleared and a retraining at R404's point; a fenced group's is ignored. -/
def Dev.retryChannel (d : Dev) (n : Nat) : Dev :=
  let g := n / 4
  if (d.group g).state = 2 || (d.chan n).state = 4 then d
  else
    let d1 := d.setChan n ({ d.chan n with ceiling := 0 } : Chan).retrain
    if (List.range 4).all (fun i => (d1.chan (4 * g + i)).ceiling = 0) then d1.setGroup g { d1.group g with state := 0 } else d1

/-- A write to MEM_RETRY (R408, R414, R415). -/
def Dev.memRetry (d : Dev) (v : BitVec 32) : Dev :=
  (((List.range 16).filter (fun n => bit v n)).foldl (fun d n => d.retryChannel n) d).speedsChanged

/-- MEM_RETRY (R414). -/
def execMemRetry (f : Fin 64) (v : BitVec 32) (s : State) : Host.Outcome State Fault Refusal :=
  run (managed (.memRetry f v) f.val (fun d => d.memRetry v)) s

/-- A write to MEM_SPEED (R404, R414). -/
def Dev.memSpeed (d : Dev) (v : BitVec 32) : Dev :=
  ({ d with dram := { d.dram with cap := BitVec.ofNat 2 (fld v 24 2) } } : Dev).speedsChanged

/-- MEM_SPEED (R404). -/
def execMemSpeed (f : Fin 64) (v : BitVec 32) (s : State) : Host.Outcome State Fault Refusal :=
  run (managed (.memSpeed f v) f.val (fun d => d.memSpeed v)) s

end Sys2Proof.Machine
end

