-- ==== Sys2Proof/Machine/Updating.lean ====
section
/-! DEFINITION. The operations of the update engine (R470 to R493): staging sessions, pieces, activation, confirmation and return, and
the settings store's items. -/

namespace Sys2Proof.Machine

/-! Sessions. -/

/-- A session ends: its slot is EMPTY, STATE is IDLE (R475, R478). -/
def Dev.sessionEnd (d : Dev) (outcome : BitVec 4) : Dev :=
  match d.update.session with
  | none => d
  | some s =>
    let d1 := d.setFlash (d.flash.setSlot s.slotB { state := 0, pieces := [] })
    ({ d1 with update := { d1.update with session := none, outcome := outcome } } : Dev).setUpdState 0

/-- The number of the next session: 0 is skipped (R473). -/
def nextSession (n : BitVec 16) : BitVec 16 := if n + 1 = 0 then 1 else n + 1

/-- A session opens (R473). -/
def Dev.sessionStart (d : Dev) (digest : List Byte) (f : Nat) : Dev :=
  let n := nextSession d.update.lastNumber
  let b := !d.flash.confirmedSlot
  let s : Session := { number := n, digest := digest, opener := f, slotB := b, pieces := 0, held := [], leaseEnd := d.now + leaseNs }
  let d1 := d.setFlash (d.flash.setSlot b { state := 1, pieces := [] })
  ({ d1 with update := { d1.update with session := some s, lastNumber := n } } : Dev).setUpdState 1

/-- An UPDATE operation with effect h on the device, once the engine serves it: `low` bits of word 0 are named. -/
def Dev.updateOp (id : OpId) (kind low : Nat) (managerOnly : Bool) (h : Dev → Op → Dev) (d : Dev) : Dev :=
  match d.activeOp id 9 kind with
  | none => d
  | some o =>
    if !d.runs 2 then d
    else if managerOnly && o.fn ≠ d.manager then d.finish id 0x11 none
    else if fld (o.word 0) low (72 - low) ≠ 0 then d.finish id 0x10 none
    else h d o

/-- Whether a word holds an address that is a multiple of 64, and nothing else. -/
def lineAddr (w : W72) : Bool := fld w 48 24 = 0 && fld w 0 48 % 64 = 0

/-- SESSION_OPEN (R472, R473). -/
def execSessionOpen (id : OpId) (s : State) : Host.Outcome State Fault Refusal :=
  run (Dev.updateOp id 1 1 false (fun d o =>
    let digest := (List.range 6).flatMap (fun i => toBytes 8 (fld (o.word (i + 1)) 0 64))
    let replace := bit (o.word 0) 0 && o.fn = d.manager
    let held := match d.update.session with | some x => x.number.toNat | none => 0
    let opened (d : Dev) : Dev := let d1 := d.sessionStart digest o.fn; d1.finish id 0 (some d1.update.lastNumber.toNat)
    if (List.range 6).any (fun i => fld (o.word (i + 1)) 64 8 ≠ 0) then d.finish id 0x10 none
    else if 3 ≤ d.update.state.toNat then d.finish id 0x40 (some held)
    else
      match d.update.session with
      | none => opened d
      | some x =>
        if x.digest = digest then d.finish id 0 (some (x.number.toNat + 2 ^ 16))
        else if replace then opened (d.sessionEnd 7)
        else d.finish id 0x40 (some held))) s

/-- Whether an earlier PIECE_PUT waits (R474): by release, then by ring. -/
def Dev.pieceWaits (d : Dev) (o : Op) : Bool :=
  d.ops.any (fun x => x.target = 9 && x.kind = 2 && (x.phase = .released || x.phase = .started) && d.current x &&
    (decide (x.due < o.due) || (decide (x.due = o.due) && decide (x.id.ring.val < o.id.ring.val))))

/-- A piece stored and recorded in the journal (R474, R475). -/
def Dev.pieceStore (d : Dev) (x : Session) (k : Nat) (bytes : List Byte) : Dev :=
  let y := d.flash.slot x.slotB
  let held := x.held ++ [k]
  let n := if k = 0 then hdrPieces bytes else x.pieces
  let full := held.length = n + 1
  let d1 := d.setFlash (d.flash.setSlot x.slotB { state := if full then 2 else 1, pieces := tset y.pieces k bytes })
  let d2 : Dev := { d1 with update := { d1.update with session := some { x with pieces := n, held := held, leaseEnd := d1.now + leaseNs } } }
  if full then d2.setUpdState 2 else d2

/-- RESULT of a PIECE_PUT. -/
def Dev.pieceResult (d : Dev) (already : Bool) : Nat :=
  match d.update.session with
  | none => 0
  | some x => x.held.length * 2 ^ 48 + (x.pieces + 1) * 2 ^ 32 + (decide (x.held ≠ []) && x.held.length = x.pieces + 1).toNat * 2 + already.toNat

/-- PIECE_PUT (R474): the outcomes in the order of the table. -/
def execPiecePut (id : OpId) (s : State) : Host.Outcome State Fault Refusal :=
  runOp id (Dev.updateOp id 2 25 false (fun d o =>
    let k := fld (o.word 0) 16 9
    if d.pieceWaits o then d
    else if !lineAddr (o.word 1) then d.finish id 0x10 none
    else
      match d.update.session with
      | none => d.finish id 0x40 none
      | some x =>
        if x.number.toNat ≠ fld (o.word 0) 0 16 then d.finish id 0x40 none
        else if x.held.contains k then d.finish id 0 (some (d.pieceResult true))
        else if k ≠ 0 && (!x.held.contains 0 || decide (x.pieces < k)) then d.finish id 0x10 none
        else
          let hdr := tget (d.flash.slot x.slotB).pieces 0 []
          match d.readV o.fn (fld (o.word 1) 0 48) (pieceLen hdr k) .read with
          | (d1, .error (cause, va)) => d1.opFault id o.fn cause va
          | (d1, .ok bytes) =>
            if sha384 bytes ≠ (if k = 0 then x.digest else pieceHash hdr k) then d1.finish id 0x41 none
            else if k = 0 && !hdrOk bytes then d1.finish id 0x10 none
            else let d2 := d1.pieceStore x k bytes; d2.finish id 0 (some (d2.pieceResult false)))) s

/-- SESSION_STATUS (R476). -/
def execSessionStatus (id : OpId) (s : State) : Host.Outcome State Fault Refusal :=
  runOp id (Dev.updateOp id 3 16 false (fun d o =>
    if !lineAddr (o.word 1) then d.finish id 0x10 none
    else
      match d.update.session with
      | none => d.finish id 0x40 none
      | some x =>
        if x.number.toNat ≠ fld (o.word 0) 0 16 then d.finish id 0x40 none
        else
          let w0 := x.number.toNat + d.update.state.toNat * 2 ^ 16 + x.held.length * 2 ^ 24 + x.pieces * 2 ^ 40
          let map (i : Nat) : Nat := ((List.range 64).map (fun j => if x.held.contains (64 * i + j) then 2 ^ j else 0)).foldl (· + ·) 0
          match d.writeV o.fn (fld (o.word 1) 0 48) (toBytes 8 w0 ++ (List.range 4).flatMap (fun i => toBytes 8 (map i))) with
          | (d1, .error (cause, va)) => d1.opFault id o.fn cause va
          | (d1, .ok _) => d1.finish id 0 none)) s

/-- SESSION_CANCEL (R472, R475): refused while the image is being activated or tried. -/
def execSessionCancel (id : OpId) (s : State) : Host.Outcome State Fault Refusal :=
  run (Dev.updateOp id 4 16 true (fun d o =>
    match d.update.session with
    | none => d.finish id 0x40 none
    | some x => if x.number.toNat ≠ fld (o.word 0) 0 16 || 3 ≤ d.update.state.toNat then d.finish id 0x40 none else (d.sessionEnd 7).finish id 0 none)) s

/-- LEASE_EXPIRY (R475): a lease that runs out while the image is being activated or tried waits for the end of that. -/
def execLeaseExpiry (at_ : Nat) (s : State) : Host.Outcome State Fault Refusal :=
  run (fun d =>
    match d.update.session with
    | none => d
    | some x =>
      if d.boot.stage ≠ .ready || d.freeze.at_.isSome || 3 ≤ d.update.state.toNat || decide (Nat.max d.now at_ < x.leaseEnd) then d
      else (d.tick at_).sessionEnd 8) s

/-! Activation (R478, R479), confirmation (R483) and return (R484). -/

/-- Whether the image of a slot passes R478. -/
def Dev.imageOk (d : Dev) (x : Session) : Bool :=
  let s := d.flash.slot x.slotB
  sha384 s.header = x.digest && (List.range (hdrPieces s.header)).all (fun i => sha384 (s.piece (i + 1)) = pieceHash s.header (i + 1)) && d.imageSigned s

/-- ACTIVATE (R478, R479): the checks; the handover follows at the first frame boundary after steps 2 and 3, whose time is measured. -/
def execActivate (id : OpId) (at_ : Nat) (s : State) : Host.Outcome State Fault Refusal :=
  run (Dev.updateOp id 5 32 true (fun d o =>
    let w := o.word 0
    let auto := bit w 16
    match d.update.session with
    | none => d.finish id 0x40 none
    | some x =>
      if d.update.activateOp = some id then d
      else if fld w 17 3 ≠ 0 || (auto && fld w 20 12 = 0) then d.finish id 0x10 none
      else if d.update.state ≠ 2 || x.number.toNat ≠ fld w 0 16 then d.finish id 0x40 none
      else
        let d1 := (d.tick at_).setUpdState 3
        if !d1.imageOk x then (d1.sessionEnd 2).finish id 0x41 none
        else
          let h := tget (d1.flash.slot x.slotB).pieces 0 []
          let bound := if d1.boot.fallback then 3020000000 else 65000000
          { d1 with free := d1.free + 1, update :=
              { d1.update with
                session := some { x with leaseEnd := d1.now + leaseNs }, activateOp := some id, step := 1
                stepAt := d1.now + Config.measured d1.free % (bound + 1)
                autoConfirm := auto, confirmAt := fld w 20 12 * 1000000000, imageSv := natAt h 7 1, imageAdvance := natAt h 17 1 / 2 % 2 = 1
                imageFormat := hdrFormat h, imageMinFormat := hdrMinFormat h } })) s

/-- Items 1 and 2 of R483: the directory, and the fuse counter in FIELD. Whether the programming fails is not ruled: a free value. -/
def Dev.confirmBegin (d : Dev) : Dev :=
  let u := d.update
  let x := d.flash
  let b := x.trialSlot.getD x.confirmedSlot
  let y := (x.setSlot (!b) { x.slot (!b) with state := 0 }).setSlot b { x.slot b with state := 3 }
  let d1 := d.setFlash { y with confirmedSlot := b, activeArea := x.trialArea.getD x.activeArea, trialSlot := none, trialArea := none }
  let d2 : Dev := { d1 with update := { d1.update with step := 3, stepAt := d1.now } }
  if d.boot.fuses.lifecycle = 2 && u.imageAdvance && decide (d.boot.fuses.minSv < u.imageSv) then
    (let (d3, v) := d2.free1
     if v % 2 = 1 then d3.smRecord 0x32 (locusEngine 0x0C 0x02) none u.imageSv d.boot.fuses.minSv
     else { d3 with boot := { d3.boot with fuses := { d3.boot.fuses with minSv := u.imageSv } } })
  else d2

/-- Whether TRIAL runs and nothing is under way. -/
def Dev.inTrial (d : Dev) : Bool := d.update.state = 4 && d.update.step = 0

/-- CONFIRM (R483): it completes at the next frame boundary. -/
def execConfirm (id : OpId) (s : State) : Host.Outcome State Fault Refusal :=
  run (Dev.updateOp id 6 0 true (fun d _ =>
    if d.update.confirmOp = some id then d
    else if !d.inTrial then d.finish id 0x10 none
    else (let d1 := d.confirmBegin; { d1 with update := { d1.update with confirmOp := some id } }))) s

/-- AUTO_CONFIRM_EXPIRY (R483). -/
def execAutoConfirmExpiry (at_ : Nat) (s : State) : Host.Outcome State Fault Refusal :=
  run (fun d => if d.runs 2 && d.inTrial && d.update.autoConfirm && decide (d.update.confirmAt ≤ Nat.max d.now at_) then (d.tick at_).confirmBegin else d) s

/-- REVERT (R484): it completes at the next frame boundary. -/
def execRevert (id : OpId) (s : State) : Host.Outcome State Fault Refusal :=
  run (Dev.updateOp id 7 0 true (fun d _ =>
    if d.update.revertOp = some id then d
    else if !d.inTrial then d.finish id 0x10 none
    else (let d1 := d.beginReturn 4; { d1 with update := { d1.update with revertOp := some id } }))) s

/-! Settings (R456, R488 to R490). -/

/-- What the flash holds as bytes, all numbers little-endian: a directory copy, the header of a settings half, and a record (R486 to R488). -/
def Flash.directoryBytes (x : Flash) : List Byte :=
  let f (i : Nat) : Nat := nth x.directory i 0
  let l := toBytes 4 0x52445A44 ++ toBytes 4 x.dirSeq ++ (List.range 4).flatMap (fun i => toBytes 1 (f i)) ++ toBytes 2 (f 4) ++ toBytes 2 (f 5) ++
    toBytes 1 (f 6) ++ toBytes 1 (f 7) ++ List.replicate 42 0
  l ++ toBytes 4 (crc32c l)
def Area.headerBytes (a : Area) : List Byte :=
  let l := toBytes 4 0x54535A44 ++ toBytes 2 a.format ++ toBytes 2 0 ++ toBytes 4 a.halfSeq
  l ++ toBytes 4 (crc32c l)
def Item.bytes (i : Item) : List Byte :=
  let l := toBytes 2 i.tag ++ toBytes 2 i.index ++ toBytes 4 i.data.length ++ toBytes 4 i.seq
  l ++ toBytes 4 (crc32c (l ++ i.data)) ++ i.data

/-- The largest INDEX of a TAG plus one, the first INDEX, and whether a LENGTH is one of it (R489); none for an unknown TAG. -/
def itemShape (tag len : Nat) : Option (Nat × Nat × Bool) :=
  match tag with
  | 0x0101 => some (0, 1, len = 1)
  | 0x0102 => some (0, 64, len = 4)
  | 0x0103 => some (0, 4, len = 20)
  | 0x0104 => some (0, 64, len = 1)
  | 0x0105 => some (0, 1, len % 4 = 0 && decide (4 ≤ len) && decide (len ≤ 1024))
  | 0x0106 => some (0x200, 0x240, len = 36)
  | 0x0107 => some (0, 1, len = 1)
  | 0x0108 => some (4, 12, len % 20 = 0 && decide (20 ≤ len) && decide (len ≤ 1280))
  | 0x0109 => some (0, 12, len = 36)
  | 0x010A => some (0, 1, len = 9)
  | 0x010B => some (0, 1, len = 272)
  | 0x010C => some (0, 2, len = 8)
  | 0x010D => some (0, 1, len = 1)
  | 0x010E => some (0, 12, len = 63)
  | 0x010F => some (0, 16, len = 27)
  | 0x0110 => some (0, 12, len = 27)
  | 0x0111 => some (0, 1, len = 1)
  | 0x0201 => some (0, 12, false)
  | 0x0202 => some (0, 64, false)
  | 0x0203 => some (0, 4, false)
  | _ => none

/-- The items that FIELD seals (R456). -/
def itemSealed (tag : Nat) : Bool := [0x0101, 0x0102, 0x0103, 0x0104, 0x0105, 0x0106, 0x0107, 0x0108, 0x010A, 0x010C].contains tag

/-- Whether field words that an item gives keep to their maps (R273, R304, R325, R360). -/
def wordsOk (cls inst first n : Nat) (b : List Byte) : Bool :=
  (List.range n).all (fun i =>
    let v := wordAt b i
    let m := fieldMask cls inst (first + i)
    Nat.land v.toNat m = v.toNat && fieldRange cls inst (first + i) v)

/-- The rules of an item's fields (R490): those of the registers and words that it gives. -/
def itemOk (tag index : Nat) (b : List Byte) : Bool :=
  match tag with
  | 0x0101 => [0, 16, 32, 48].contains (natAt b 0 1)
  | 0x0103 => decide (natAt b 0 4 ≤ 15) && natAt b 4 8 % 2 ^ 21 = 0 && decide (natAt b 4 8 < 2 ^ 40) && natAt b 12 8 % 2 ^ 21 = 0 && decide (natAt b 12 8 < 2 ^ 40)
  | 0x0104 => decide (natAt b 0 1 < 4)
  | 0x0105 => (List.range (b.length / 4)).all (fun i => (classInfo (natAt b (4 * i) 1)).isSome && decide (natAt b (4 * i + 1) 1 < 64))
  | 0x0106 => let l := (List.range 4).map (wordAt b); let t := timingOf l; t.valid && t.ok && entryBitsOk l && decide (t.source < 5)
  | 0x0107 => decide (natAt b 0 1 < 16)
  | 0x0108 => (List.range (b.length / 20)).all (fun i => decide (natAt b (20 * i + 2) 1 ≤ 16))
  | 0x0109 => wordsOk 0x01 index 1 4 b
  | 0x010A => decide (natAt b 4 4 % 16 ≤ 8) && decide (bitsN (natAt b 4 4) 8 5 ≤ 12) && decide (natAt b 4 4 % 16 + bitsN (natAt b 4 4) 8 5 ≤ 14) && decide (natAt b 8 1 < 2)
  | 0x010B =>
    decide (natAt b 8 4 % 4096 ≤ 2048) &&
      decide (natAt b 12 4 % 4096 + ((List.range 64).map (fun f => natAt b (16 + 4 * f) 4 % 4096)).foldl (· + ·) 0 ≤ natAt b 8 4 % 4096)
  | 0x010C => natAt b 4 2 ≠ 0
  | 0x010D => decide (natAt b 0 1 < 8)
  | 0x010E => wordsOk 0x09 index 1 7 b
  | 0x010F => wordsOk 0x07 index 2 3 b
  | 0x0110 => wordsOk 0x06 index 1 3 b
  | 0x0111 => decide (natAt b 0 1 < 16)
  | _ => true

/-- SETTINGS_WRITE (R456, R487, R488, R490): the latest record of the item; no data deletes it. -/
def execSettingsWrite (id : OpId) (s : State) : Host.Outcome State Fault Refusal :=
  runOp id (Dev.updateOp id 8 64 true (fun d o =>
    let tag := fld (o.word 0) 0 16
    let index := fld (o.word 0) 16 16
    let len := fld (o.word 0) 32 32
    if 3 ≤ d.update.state.toNat then d.finish id 0x40 none
    else if fld (o.word 1) 48 24 ≠ 0 then d.finish id 0x10 none
    else
      match itemShape tag len with
      | none => d.finish id 0x10 none
      | some (lo, hi, ok) =>
        if index < lo || hi ≤ index || !(ok || len = 0) || (d.boot.fuses.lifecycle = 2 && itemSealed tag) then d.finish id 0x10 none
        else
          match d.readV o.fn (fld (o.word 1) 0 48) len .read with
          | (d1, .error (cause, va)) => d1.opFault id o.fn cause va
          | (d1, .ok b) =>
            if len ≠ 0 && !itemOk tag index b then d1.finish id 0x10 none
            else (d1.setFlash (d1.flash.putItem d1.flash.activeArea tag index b)).finish id 0 none)) s

/-- SETTINGS_READ (R490). -/
def execSettingsRead (id : OpId) (s : State) : Host.Outcome State Fault Refusal :=
  runOp id (Dev.updateOp id 9 32 true (fun d o =>
    let a := if d.flash.areaNow then d.flash.area1 else d.flash.area0
    if fld (o.word 1) 48 24 ≠ 0 then d.finish id 0x10 none
    else if !d.flash.dirValid || !a.valid then d.finish id 0x10 none
    else
      match a.item (fld (o.word 0) 0 16) (fld (o.word 0) 16 16) with
      | none => d.finish id 0x10 none
      | some i =>
        if !i.readable then d.finish id 0x42 none
        else
          match d.writeV o.fn (fld (o.word 1) 0 48) i.data with
          | (d1, .error (cause, va)) => d1.opFault id o.fn cause va
          | (d1, .ok _) => d1.finish id 0 (some i.data.length))) s

end Sys2Proof.Machine
end

