-- ==== Sys2Proof/Machine/Selftest.lean ====
section
/-! DEFINITION. Self-test (R507 to R509) and what the safety manager watches: its own pair (R495), the monitors (R496, R497), the
watchdogs, and the scrubber (R390, R391, R505, R506). -/

namespace Sys2Proof.Machine

/-! Self-test. -/

/-- The numbers of the bits of a mask. -/
def maskBits (n m : Nat) : List Nat := (List.range n).filter (fun i => bit (BitVec.ofNat 72 m) i)

/-- The locus of an element: a core, a pipe, the first channel of a group. -/
def elementLocus (kind e : Nat) : W72 := if kind = 1 then locusEngine 0x03 e else if kind = 2 then locusEngine 0x05 e else chanLocus (4 * e)

/-- SELFTEST_FAIL for each failed element (R508). -/
def Dev.testFails (d : Dev) (kind : Nat) (l : List Nat) : Dev := l.foldl (fun d e => d.smRecord 0x31 (elementLocus kind e) none kind e) d

/-- A SELFTEST operation with effect h, for the manager, with the named bits of word 0 only. -/
def Dev.selfOp (id : OpId) (kind : Nat) (named : Nat) (h : Dev → Op → Dev) (d : Dev) : Dev :=
  match d.activeOp id 10 kind with
  | none => d
  | some o =>
    if !d.runs 3 then d
    else if o.fn ≠ d.manager then d.finish id 0x11 none
    else if Nat.land (o.word 0).toNat (2 ^ 72 - 1 - named) ≠ 0 then d.finish id 0x10 none
    else h d o

/-- The result of a test: elements tested, and the mask of those that failed. -/
def testResult (tested failed : Nat) : Nat := tested * 2 ^ 16 + failed

/-- A core whose test has ended (R507, R508): its contents are lost, and every request that names it counts it. A failed core stays out of service. -/
def Dev.coreTested (d : Dev) (c : Nat) (failed : Bool) : Dev :=
  let x := d.coreOf c
  let d1 := d.setCore c { x with inTest := false, testWanted := false, failed := x.failed || failed, idleFrom := d.now, work := none, tex := [] }
  let hit (t : SelfTest) : SelfTest :=
    if t.left.contains c then { t with left := t.left.filter (fun i => i ≠ c), tested := t.tested + 1, failed := t.failed + (if failed then 2 ^ c else 0) } else t
  let d2 : Dev := { d1 with safety := { d1.safety with tests := d1.safety.tests.map hit } }
  if failed then d2.testFails 1 [c] else d2

/-- Requests with no core left end. -/
def Dev.testsDone (d : Dev) : Dev :=
  let done := d.safety.tests.filter (fun t => t.left = [])
  done.foldl (fun d t => d.finish t.id 0 (some (testResult t.tested t.failed)))
    { d with safety := { d.safety with tests := d.safety.tests.filter (fun t => t.left ≠ []) } }

/-- The next core of a request enters its test, one at a time in the device; a core that is not at a boundary is asked for, and the
request is deferred. Cores out of service are not tested. -/
def Dev.coreNext (d : Dev) (id : OpId) : Dev :=
  match d.safety.tests.find? (fun t => t.id = id) with
  | none => d
  | some t =>
    match t.left with
    | [] => d
    | c :: _ =>
      if (List.range 16).any (fun i => (d.coreOf i).inTest) then d
      else if !d.atBoundary c then (d.setCore c { d.coreOf c with testWanted := true }).updOp id (fun o => { o with deferred := true })
      else (d.yieldCore c).setCore c { d.coreOf c with inTest := true, testWanted := false, gated := false }

/-- CORE_TEST (R507, R508): the core under test ends its test, and the next one begins; `failed` are the cores that fail. -/
def execCoreTest (id : OpId) (failed : BitVec 16) (s : State) : Host.Outcome State Fault Refusal :=
  run (Dev.selfOp id 1 0xFFFF (fun d o =>
    let mask := fld (o.word 0) 0 16
    if !d.runs 4 then d
    else if mask = 0 then d.finish id 0x10 none
    else
      let d1 : Dev :=
        if d.safety.tests.any (fun t => t.id = id) then d
        else
          { d with safety :=
              { d.safety with
                tests := d.safety.tests ++ [{ id := id, kind := 1, left := (maskBits 16 mask).filter (fun c => d.inService c || (d.coreOf c).inTest), tested := 0, failed := 0 }] } }
      let d2 :=
        match (List.range 16).find? (fun c => (d1.coreOf c).inTest && (d1.coreOf c).resetAt.isNone &&
            d1.safety.tests.any (fun t => t.id = id && t.left.contains c)) with
        | some c => d1.coreTested c (bit failed c)
        | none => d1
      (d2.coreNext id).testsDone)) s

/-- PIPE_TEST (R507, R508): the enabled pipes of the mask have been tested. -/
def execPipeTest (id : OpId) (failed : BitVec 12) (s : State) : Host.Outcome State Fault Refusal :=
  run (Dev.selfOp id 2 0x1F0FFF (fun d o =>
    let mask := fld (o.word 0) 0 12
    let u := fld (o.word 0) 16 5
    if mask = 0 || d.owner 0x0A u ≠ d.manager || d.cvuOn u then d.finish id 0x10 none
    else
      let l := (maskBits 12 mask).filter (fun p => d.pipeOn p)
      let bad := l.filter (fun p => bit failed p)
      (d.testFails 2 bad).finish id 0 (some (testResult l.length ((bad.map (fun p => 2 ^ p)).foldl (· + ·) 0))))) s

/-- DRAM_TEST (R507, R508): a fenced group ends it ST_MEM_LOST. -/
def execDramTest (id : OpId) (failed : BitVec 4) (s : State) : Host.Outcome State Fault Refusal :=
  run (Dev.selfOp id 3 0xF (fun d o =>
    let l := maskBits 4 (fld (o.word 0) 0 4)
    if l = [] then d.finish id 0x10 none
    else if l.any (fun g => (d.group g).state = 2) then d.finish id 0x21 none
    else
      let bad := l.filter (fun g => bit failed g)
      (d.testFails 3 bad).finish id 0 (some (testResult l.length ((bad.map (fun g => 2 ^ g)).foldl (· + ·) 0))))) s

/-- SCHEDULED_SELFTEST (R509): a core in service, an enabled pipe, or an unfenced group, tested through AX1. -/
def execScheduledSelftest (kind : Fin 3) (element : Nat) (passed : Bool) (s : State) : Host.Outcome State Fault Refusal :=
  runAs mpCheck (fun d =>
    let k := kind.val + 1
    let there : Bool :=
      if k = 1 then decide (element < 16) && d.inService element && d.atBoundary element && (List.range 16).all (fun i => !(d.coreOf i).inTest) && d.runs 4
      else if k = 2 then decide (element < 12) && d.pipeOn element
      else decide (element < 4) && (d.group element).state ≠ 2
    if !d.runs 3 || !there || passed then d
    else
      let d1 := if k = 1 then d.setCore element { d.coreOf element with failed := true } else d
      d1.testFails k [element]) s

/-! The pair SM0 and SM1 (R495). -/

/-- Whether the safety manager runs (R494, R495): its monitors raise nothing otherwise. -/
def Dev.smRuns (d : Dev) : Bool := d.boot.stage ≠ .held && d.safety.state ≠ 2 && !d.safety.restarting && d.power.state ≠ .standby

/-- LOCKSTEP_MISMATCH (R495): a restart, or, within 1 s of another, the halt. -/
def execLockstepMismatch (at_ : Nat) (s : State) : Host.Outcome State Fault Refusal :=
  run (fun d =>
    if d.boot.stage = .held || d.safety.state = 2 || d.power.state = .standby then d
    else
      let d1 := d.tick at_
      let x := d1.safety
      let again := match x.mismatchAt with | some t => decide (d1.now < t + 1000000000) | none => false
      { d1 with safety :=
          if again then { x with faultN := true, state := 2, restarting := false }
          else { x with faultN := true, restarting := true, mismatchAt := some d1.now } }) s

/-- SM_RESTART_DONE (R495): the LOCKSTEP record. -/
def execSmRestartDone (at_ : Nat) (s : State) : Host.Outcome State Fault Refusal :=
  run (fun d =>
    if !d.safety.restarting || d.safety.state = 2 then d
    else
      let d1 := d.tick at_
      ({ d1 with safety := { d1.safety with restarting := false, state := 1 } } : Dev).smRecord 0x24 (locusEngine 0x0C 0) none 1 0) s

/-! Monitors (R496, R497). -/

/-- A signed number in 64 bits. -/
def signed64 (x : Int) : Nat := (BitVec.ofInt 64 x).toNat

/-- The nominal frequency of a monitored clock in kHz (R39, R427, R496): REFCLK, the root PLL, CLK_SHD, CLK_FAB, CLK_SEQ, CLK_PER. In SHOWCASE
CLK_FAB is root/10, and CLK_SHD and CLK_SEQ do not run: 0. -/
def Power.clockKhz (p : Power) (k : Nat) : Nat :=
  let show_ := p.state = .showcase
  if k = 0 then 40000
  else if k = 1 then 6400000
  else if k = 2 then (if show_ then 0 else 6400000 / p.shdDiv)
  else if k = 3 then (if show_ then 640000 else 1280000)
  else if k = 4 then (if show_ then 0 else 800000)
  else 400000

/-- The level of a monitored rail in mV outside STANDBY (R441); 0 while it is off. -/
def Power.levelMv (p : Power) (rail : Nat) : Nat :=
  let show_ := p.state = .showcase
  if rail = 0 then (if show_ then 0 else p.shdMv) else if rail = 1 then (if show_ then 650 else p.coreMv)
  else nth [750, 750, 500, 1050, 750, 1200, 1800, 3300] (rail - 2) 0

/-- Whether a median is one of the sixteen readings (R496), with this one of sensor n: with an even number of readings any value between
the middle two is one. -/
def Dev.medianFits (d : Dev) (n : Nat) (reading median : Int) : Bool :=
  let l := (List.range 16).map (fun i => if i = n then reading else nth d.safety.temps i 0)
  decide ((l.filter (fun x => decide (x < median))).length ≤ 8) && decide ((l.filter (fun x => decide (median < x))).length ≤ 8)

/-- MONITOR_FAULT (R496): a rail more than 5 % from its level, with the edge that it crossed as the limit, in whole mV (DESIGN CHOICE: rounded
down); a clock more than 10 % from nominal; or a sensor more than 15 °C from the median, which is excluded. -/
def execMonitorFault (m : Monitor) (s : State) : Host.Outcome State Fault Refusal :=
  run (fun d =>
    if !d.smRuns then d
    else
      match m with
      | .voltage rail mv =>
        let level := d.power.levelMv rail.val
        if level = 0 || decide (100 * ((mv : Int) - level).natAbs ≤ 5 * level) then d
        else d.smRecord 0x28 (railLocus rail.val) none mv (if mv < level then level * 95 / 100 else level * 105 / 100)
      | .clock k khz =>
        let nominal := d.power.clockKhz k.val
        if nominal = 0 || decide (10 * ((khz : Int) - nominal).natAbs ≤ nominal) then d else d.smRecord 0x29 (locusUnit 0x0C 0x00 (0x30 + k.val)) none khz nominal
      | .tempSensor n reading median =>
        if bit d.safety.excluded n.val || (reading - median).natAbs ≤ 1500 || !d.medianFits n.val reading median then d
        else
          ({ d with safety := { d.safety with excluded := setBit d.safety.excluded n.val true } } : Dev).smRecord
            0x2B (locusEngine 0x0C (0x10 + n.val)) none (signed64 reading) (signed64 median)) s

/-- REFCLK_LOSS (R497, R531). -/
def execRefclkLoss (s : State) : Host.Outcome State Fault Refusal :=
  run (fun d => { d with board := { d.board with refclkOk := false }, safety := { d.safety with refclkLost := true } }) s

/-- REFCLK_RETURN (R497, R531): an internal reset that waited for REFCLK ends, and the device boots. -/
def execRefclkReturn (at_ : Nat) (s : State) : Host.Outcome State Fault Refusal :=
  run (fun d =>
    let d1 := d.tick at_
    let d2 : Dev := { d1 with board := { d1.board with refclkOk := true }, safety := { d1.safety with refclkLost := false } }
    if !d.board.refclkOk && d2.boot.stage = .held then d2.bootRun d2.board.env else d2) s

/-- The firmware threads of a core as they run after its reset: the started ones, from their program's entry. -/
def Dev.restartFirmware (d : Dev) (core : Nat) : Dev :=
  { d with fw := d.fw.map (fun x => if x.1 / 4 = core && x.2.started then (x.1, { FwThread.atReset core (x.1 % 4) with started := true, lastWdog := d.now }) else x) }

/-- FW_WATCHDOG (R484, R496, R497): no service for 10 ms. AX0 is watched in TRIAL, where an expiry begins the return. -/
def execFwWatchdog (core : Fin 10) (thread : Fin 4) (at_ : Nat) (s : State) : Host.Outcome State Fault Refusal :=
  run (fun d =>
    let x := d.fwt core.val thread.val
    let trial : Bool := d.update.state = 4
    if !d.smRuns || !d.runs 3 || !x.started || decide (Nat.max d.now at_ < x.lastWdog + 10000000) || (core.val = 8 && !trial) then d
    else
      let d1 := ((d.tick at_).smRecord 0x20 (locusUnit 0x02 core.val 0x002) none (core.val * 256 + thread.val) 0).restartFirmware core.val
      if core.val = 8 then (if d1.update.step = 0 then d1.beginReturn 5 else d1)
      else if core.val = 9 then d1
      else d1.safetyReset 0x02 core.val) s

/-- HEARTBEAT_TIMEOUT (R510): the window has passed; raised once for each. -/
def execHeartbeatTimeout (at_ : Nat) (s : State) : Host.Outcome State Fault Refusal :=
  run (fun d =>
    let x := d.safety
    let edge := x.hbLast + x.hbPeriod * 1000000
    if !d.smRuns || !x.hbArmed || x.hbPeriod = 0 || x.hbLate || decide (Nat.max d.now at_ ≤ edge) then d
    else
      let d1 := d.tick at_
      ({ d1 with safety := { d1.safety with hbLate := true } } : Dev).smRecord 0x38 (locusEngine 0x0C 0) none (signed64 ((d1.now : Int) - edge)) x.hbCount.toNat) s

/-! The scrubber (R505). -/

/-- The macro that a locus names: its bit cell is whole. -/
def macroOf (l : W72) : W72 := setFld l 0 26 0x3FFFFFF

/-- The slice that holds a line: a scratch line's by its offset (R388), any other's by R386. -/
def lineSlice (a : Nat) : Nat :=
  if scratchBase ≤ a ∧ a < scratchBase + 0x1000000 then (a - scratchBase) % 2 ^ 21 / 64 % 16 else cacheSlice a

/-- The locus of the cache slice that holds a line (R18, R386, R388, R498). -/
def sliceLocus (a : Nat) : W72 := locusUnit 0x0A (lineSlice a) 1

/-- The locus of the slice of a strip line, whose place in its slices the manual does not give (tag 44). -/
def stripLocus (p row line : Nat) : W72 := locusUnit 0x0A (Config.unstated 44 [p, row, line] % 16) 1

/-- Something listed as uncorrectable. -/
def Dev.addPoison (d : Dev) (l : Nat) : Dev := if d.poison.contains l then d else { d with poison := l :: d.poison }

/-- An uncorrectable word found at a place (R258, R365, R382, R390, R391): what its holder's chapter gives. -/
def Dev.scrubbed (d : Dev) (place : ScrubPlace) : Dev :=
  match place with
  | .sram l => d.sramUe l none
  | .cacheClean _ => d.countUe 0x0A
  | .cacheDirty a => if d.poison.contains (a / 64) then d else (d.addPoison (a / 64)).sramUe (sliceLocus a) none
  | .stripLine p row line =>
    let x := d.pc p.val
    if x.stripBad.contains (row, line) then d
    else (d.setPc p.val { x with stripBad := (row, line) :: x.stripBad }).sramUe (stripLocus p.val row line) none
  | .dram a =>
    let c := (dramLoc d.dram a).chan
    let x := d.chan c
    ((d.addPoison (a / 64)).setChan c { x with ue := satInc x.ue }).smRecord 0x03 (chanLocus c) none a 0
  | .cvuRef u => (d.setCvu u.val { d.cvu u.val with refBad := true }).sramUe (locusEngine 0x09 u.val) none
  | .vitrineWord a => (d.addPoison (wordPoison a)).sramUe (vitrineLocus a) none
  | .audioSlice n => (if d.audio.graph.isSome && d.audio.state ≠ 3 then d.graphFault n.val 0x07 (d.slice n.val).seq.pc else d).sramUe (locusEngine 0x08 n.val) none

/-- The macro of a corrected word. -/
def scrubLocus (place : ScrubPlace) : W72 :=
  match place with
  | .sram l => macroOf l
  | .cacheClean a => sliceLocus a
  | .cacheDirty a => sliceLocus a
  | .stripLine p row line => stripLocus p.val row line
  | .dram _ => 0
  | .cvuRef u => locusEngine 0x09 u.val
  | .vitrineWord a => macroOf (vitrineLocus a)
  | .audioSlice n => locusEngine 0x08 n.val

/-- Whether the place is there to be read: a line that reads outside the commands may have brought is clean; the patrol reads populated DRAM with inline ECC, outside fenced and sleeping groups. -/
def Dev.scrubs (d : Dev) (place : ScrubPlace) : Bool :=
  match place with
  | .dram a => d.dram.inlineEcc && regionOf d.dram a = .dram && d.groupUp (a / groupSize d.dram)
  | .vitrineWord a => regionOf d.dram a = .vitrine
  | .cacheDirty a => (regionOf d.dram a = .dram && d.lineIn (a / 64) true) || regionOf d.dram a = .scratch
  | .stripLine p row line => d.stripHeld p.val row line
  | .cacheClean a => regionOf d.dram a = .dram && !d.lineIn (a / 64) true
  | _ => true

/-- SCRUB (R390, R391, R395, R505, R506). -/
def execScrub (place : ScrubPlace) (correctable : Bool) (s : State) : Host.Outcome State Fault Refusal :=
  run (fun d =>
    if !d.awake || !d.scrubs place then d
    else if !correctable then d.scrubbed place
    else
      match place with
      | .dram a => let c := (dramLoc d.dram a).chan; d.setChan c { d.chan c with ce := satInc (d.chan c).ce }
      | _ => d.macroFix (scrubLocus place)) s

end Sys2Proof.Machine
end

