-- ==== Sys2Proof/Machine/Registers.lean ====
section
/-! DEFINITION. The register maps of BAR0, BAR4 and the supervisor port: what each register reads (R9, R13 to R17) and what a write to
it does (R9 to R17, R86, R87, R127 to R150, R163, R197, R198, R302, R336, R365, R414, R444, R465, R492, R511, R512). -/

namespace Sys2Proof.Machine

/-! Values, each with the register at its base address; a 32-bit register has zeros above. -/

/-- A one-bit field, and a field of a number. -/
def flag (b : Bool) (lo : Nat) : Nat := b.toNat * 2 ^ lo

/-- STALE, IDLE and the whole of FUNC_STATE (R146). -/
def Dev.staleOps (d : Dev) (f : Nat) : Nat := Nat.min 255 (d.ops.filter (fun o => o.fn = f && o.phase ≠ .reported && o.gen ≠ (d.fn f).gen)).length
def Dev.fnIdle (d : Dev) (f : Nat) : Bool :=
  (fnRings f).all (fun g => (d.ring g).inflight = 0) && !(d.ops.any (fun o => o.fn = f && o.phase ≠ .reported)) && !(d.commits.any (fun c => ringFn c.ring = f))
def Dev.funcState (d : Dev) (f : Nat) : Nat :=
  (d.fn f).gen.toNat * 2 ^ 24 + d.staleOps f * 2 ^ 8 + flag (d.fnIdle f) 5 + (match (d.fn f).rst with | some r => r.mode.toNat * 8 | none => 0) +
    flag (d.fn f).d3hot 2 + flag (d.exists_ f) 0

/-- A function control block (R145, R146, R150). -/
def Dev.blockReg (d : Dev) (f a : Nat) : Nat :=
  let x := d.fn f
  if a = 0x00 then x.iommuRoot.toNat
  else if a = 0x08 then x.invVa.toNat
  else if a = 0x10 then flag x.invGo 31 + x.invPages.toNat
  else if a = 0x14 then flag x.hold 1
  else if a = 0x18 then d.funcState f
  else if a = 0x20 then flag x.dirtyEnable 31 + flag x.dirtySwap 30 + flag x.dirtyActive 29 + flag x.dirtyOut 28
  else if a = 0x24 then x.dirtyCount.toNat
  else if a = 0x28 then x.dirtyBaseA.toNat
  else if a = 0x30 then x.dirtyBaseB.toNat
  else if a = 0x38 then x.dirtyVaBase.toNat
  else if a = 0x40 then x.dirtyPages.toNat
  else 0

/-- A ring register block (R86). -/
def Dev.ringReg (d : Dev) (g a : Nat) : Nat :=
  let r := d.ring g
  if a = 0x00 then r.base.toNat
  else if a = 0x08 then r.cmplBase.toNat
  else if a = 0x10 then flag r.enable 31 + r.depthLog2.toNat * 16 + r.every.toNat
  else if a = 0x18 then r.head.toNat
  else if a = 0x1C then r.err.toNat
  else if a = 0x20 then r.tail.toNat * 2 ^ 16 + r.acc.toNat
  else if a = 0x24 then r.cmplTail.toNat * 2 ^ 16 + Nat.min 255 r.sharedHeld * 2 ^ 8 + r.inflight
  else if a = 0x28 then r.nextAcc
  else if a = 0x30 then r.doneAcc
  else if a = 0x38 then Nat.min 0xFFFF r.offered * 2 ^ 16 + Nat.min 0xFFFF r.admitted
  else if a = 0x3C then (d.fn (ringFn g)).gen.toNat * 2 ^ 24 + Nat.min 0xFFFFFF r.blocked
  else 0

/-- HAP_STAT of a channel as a function reads it (R336). -/
def Dev.hapStatRead (d : Dev) (f c : Nat) : Nat :=
  if d.owner 0x07 c = f then (setFld (d.hapStat f c) 29 3 (d.hch c).state.toNat).toNat else 0

/-- BAR0 of a function (R132, R133, R135, R163, R336); its PBA and MSI-X table as PCIe Base has them. -/
def Dev.bar0Reg (d : Dev) (f a : Nat) : Nat :=
  let x := d.fn f
  let p := d.port (f / 16)
  if a = 0x0000 then flag (f = d.manager) 18 + flag (d.privileged f) 17 + flag (d.critical f) 16 + f / 16 * 2 ^ 8 + f
  else if a = 0x0008 then d.now
  else if a = 0x0020 then p.ptmDevtime.toNat
  else if a = 0x0028 then p.ptmHost.toNat
  else if a = 0x0030 then p.ptmDelay.toNat
  else if a = 0x0034 then flag p.ptmReq 31 + flag p.ptmValid 30 + p.ptmPeriod.toNat
  else if a = 0x0040 then (d.evStatus f).toNat
  else if a = 0x0044 then x.evEnable.toNat
  else if a = 0x0050 then x.faultInfo.toNat
  else if a = 0x0058 then x.faultAddr.toNat
  else if a = 0x0060 then x.apertureBase.toNat
  else if 0x0400 ≤ a ∧ a < 0x0430 then (d.pipeEv f ((a - 0x0400) / 4)).toNat
  else if 0x0440 ≤ a ∧ a < 0x0470 then (tget x.pipeEvEn ((a - 0x0440) / 4) 0).toNat
  else if 0x0800 ≤ a ∧ a < 0x0880 then (if a % 8 = 4 then d.hapStatRead f ((a - 0x0800) / 8) else 0)
  else if 0x1000 ≤ a ∧ a < 0x1400 then d.ringReg (4 * f + (a - 0x1000) / 0x100) (a % 0x100)
  else if 0x2000 ≤ a ∧ a < 0x2080 then fld (x.msix ((a - 0x2000) / 16)) (8 * (a % 16)) 32
  else if a = 0x2800 then x.pba.toNat
  else if 0x4100 ≤ a ∧ a < 0x5000 ∧ f % 16 = 0 then d.blockReg (f + (a - 0x4000) / 0x100) (a % 0x100)
  else 0

/-- A port budget block (R128). -/
def Dev.budgetReg (d : Dev) (p a : Nat) : Nat :=
  let x := d.port p
  let b := x.written
  if a = 0x00 then b.maxVfs
  else if a = 0x04 then b.maxShared
  else if a = 0x08 then b.shareRc.toNat
  else if a = 0x0C then b.shareDa.toNat
  else if a = 0x10 then b.winBase.toNat
  else if a = 0x18 then b.winSize.toNat
  else if a = 0x20 then flag x.budgetErr 20 + (if x.vfEnable then x.numVfs else 0) * 2 ^ 16 + d.portShared p
  else 0

/-- The sum of the reserves of the tile-list pool (R197). -/
def Dev.assigned (d : Dev) : Nat := d.raster.compReserve + ((List.range 64).map d.tlReserve).foldl (· + ·) 0

/-- The raster registers (R197). -/
def Dev.rasterReg (d : Dev) (a : Nat) : Nat :=
  let x := d.raster
  if a = 0x8000 then x.poolBase.toNat
  else if a = 0x8008 then x.blocks
  else if a = 0x800C then d.assigned * 2 ^ 16 + d.freeBlocks.length
  else if a = 0x8010 then x.preemptLimit * 2 ^ 8
  else if a = 0x8014 then
    ((List.range 16).map (fun n => flag (d.coreOf n).inTest (16 + n) + flag (d.inService n) n)).foldl (· + ·) 0
  else if a = 0x8018 then d.compBlocks.length * 2 ^ 16 + x.compReserve
  else if 0x8100 ≤ a ∧ a < 0x8200 then (let f := (a - 0x8100) / 4; d.heldBy f * 2 ^ 16 + d.tlReserve f)
  else 0

/-- The display registers (R302). -/
def Dev.displayReg (d : Dev) (a : Nat) : Nat :=
  let seen (t : Option Nat) : Bool := match t with | some t => decide (64 * d.now < t + 64000000000) | none => false
  if a = 0x9000 then d.disp.override.toNat
  else if a = 0x9010 ∨ a = 0x9020 then (d.glkIn ((a - 0x9010) / 0x10)).period.toNat
  else if a = 0x9018 ∨ a = 0x9028 then
    (let g := (a - 0x9010) / 0x10
     let x := d.glkIn g
     flag (seen x.lastEdge) 31 + flag (seen x.lastLine) 30 +
       ((List.range 12).map (fun p => flag (d.selects p g) p)).foldl (· + ·) 0)
  else if 0x9040 ≤ a ∧ a < 0x9070 then
    (let q := (a - 0x9040) / 4
     let x := d.dport q
     x.link.toNat * 2 ^ 29 + flag (x.hpd && decide (q < 4)) 28 + flag (x.edp && decide (q < 4)) 27 +
       (match d.portPipe q with | some p => 2 ^ 26 + p * 2 ^ 20 | none => 0) + Nat.min 0xFFFF x.irqs.toNat)
  else 0

/-- The audio registers (R365). -/
def Dev.audioReg (d : Dev) (a : Nat) : Nat :=
  let x := d.audio
  if a = 0xA000 then
    x.state.toNat * 2 ^ 29 + x.faultCode.toNat * 2 ^ 21 + x.faultSlice.toNat * 2 ^ 19 + (match x.graph with | some g => g.id % 2 ^ 16 | none => 0)
  else if a = 0xA004 then x.faultPc.toNat
  else if a = 0xA008 then x.sampleReg.toNat
  else if a = 0xA010 then x.stampReg.toNat
  else 0

/-- The memory registers (R414). -/
def Dev.memReg (d : Dev) (a : Nat) : Nat :=
  let x := d.dram
  if a = 0xB000 then flag x.inlineEcc 31 + x.maxSpeed.toNat * 2 ^ 24 + flag x.twoRanks 16 + x.capacity % 16
  else if a = 0xB004 then flag x.busyFrom.isSome 31 + x.chaseWays * 2 ^ 8 + x.scratchWays
  else if a = 0xB008 then x.cap.toNat * 2 ^ 24 + opSpeed d.power.current.toNat * 2 ^ 16
  else if 0xB010 ≤ a ∧ a < 0xB020 then
    (let g := d.group ((a - 0xB010) / 4); g.state.toNat * 2 ^ 30 + flag g.selfRefresh 29 + g.forced.toNat)
  else if 0xB040 ≤ a ∧ a < 0xB0C0 then
    (let n := (a - 0xB040) / 8
     let c := d.chan n
     let asleep := (d.group (n / 4)).selfRefresh && c.state = 0
     let down := c.state = 0 && decide (if x.twoRanks then 2 ≤ c.down.length else 1 ≤ c.down.length)
     (if asleep then 2 else if down then 1 else c.state.toNat) * 2 ^ 61 + c.speed.toNat * 2 ^ 59 + c.ceiling.toNat * 2 ^ 57 + c.ue.toNat * 2 ^ 48 +
       c.retrains.toNat * 2 ^ 32 + c.linkCe.toNat * 2 ^ 16 + c.ce.toNat)
  else if 0xB100 ≤ a ∧ a < 0xB160 then (let m := (a - 0xB100) / 4; (tget x.ports m (BitVec.ofNat 32 (memPortReset m))).toNat)
  else 0

/-- Whether a shader core's clock is ungated (R426): it works, or has stood idle, in service, for less than 64 cycles of CLK_SHD. -/
def Dev.ungated (d : Dev) (core : Nat) : Bool :=
  let x := d.coreOf core
  d.coreBusy core || x.inTest || (!x.gated && d.inService core && decide (d.now < x.idleFrom + 10 * d.power.shdDiv))

/-- Whether PWR_STAT reads IDLE (R426): every guest thread waits or has no item, no raster, compose or DMA operation runs, no frame is
composed, and no shader core is ungated. -/
def Dev.pwrIdle (d : Dev) : Bool :=
  d.rings.all (fun r => r.2.thread.acc.isNone || r.2.thread.wait ≠ .none) && d.ops.all (fun o => !(o.active && decide (o.target.toNat < 3))) &&
    (List.range 12).all (fun p => (match (d.pc p).current with | some c => c.doneAt.isSome | none => true) && (d.pc p).chase.isNone) &&
    (List.range 16).all (fun n => !d.ungated n)

/-- PWR_STAT.STATE (R425, R426, R444). -/
def Dev.pwrState (d : Dev) : Nat :=
  match d.power.state with
  | .active => if d.pwrIdle then 1 else 0
  | .entering => 2
  | .showcase => 3
  | .standby => 5
  | .exiting => 4

/-- The power registers (R444). -/
def Dev.powerReg (d : Dev) (a : Nat) : Nat :=
  let x := d.power
  if a = 0xC000 then flag x.reqGo 31 + flag x.reqDiscarded 30 + x.reqTarget.toNat
  else if a = 0xC004 then flag x.change.isSome 31 + x.limit.toNat * 2 ^ 16 + x.current.toNat * 2 ^ 8 + x.opTarget.toNat
  else if a = 0xC008 then
    d.pwrState % 8 * 2 ^ 29 + x.result.toNat * 2 ^ 21 + x.reason.toNat * 2 ^ 18 + x.last.toNat * 2 ^ 16 + x.entries.toNat
  else if a = 0xC010 then fld x.locus 0 64
  else if a = 0xC018 then fld x.locus 64 8
  else if a = 0xC020 then x.wakeEn.toNat
  else if a = 0xC024 then x.wakeSrc.toNat
  else if a = 0xC028 then x.wakeAt.toNat
  else if a = 0xC030 then x.showcase.toNat
  else if a = 0xC034 then
    flag (x.pendingEresets.contains (x.eresetSub.toNat, x.eresetEng.toNat)) 31 + flag x.eresetErr 30 + x.eresetSub.toNat * 2 ^ 8 + x.eresetEng.toNat
  else 0

/-- The boot registers (R465). -/
def Dev.bootReg (d : Dev) (a : Nat) : Nat :=
  let x := d.boot
  if a = 0xD000 then x.fuses.uid.toNat
  else if a = 0xD008 then d.bootId
  else if a = 0xD00C then x.fullTrain.toNat * 2 ^ 28 + x.fenced.toNat * 2 ^ 24 + x.settings.toNat * 2 ^ 20 + x.resets.toNat
  else if a = 0xD010 then x.curatorAt.toNat
  else if a = 0xD018 then x.readyAt.toNat
  else if a = 0xD020 then flag x.lcRefused 1 + flag x.lcPending 0
  else 0

/-- The update registers (R492); the lease in whole seconds. -/
def Dev.updateReg (d : Dev) (a : Nat) : Nat :=
  let u := d.update
  if a = 0xE000 then
    u.state.toNat * 2 ^ 29 + u.outcome.toNat * 2 ^ 25 +
      (match u.session with | some s => Nat.min 256 s.held.length * 2 ^ 16 + s.pieces % 256 * 2 ^ 8 + flag s.slotB 0 | none => 0)
  else if a = 0xE004 then (match u.session with | some s => s.opener * 2 ^ 16 + s.number.toNat | none => 0)
  else if a = 0xE008 then (match u.session with | some s => (s.leaseEnd - d.now) / 1000000000 | none => 0)
  else if a = 0xE010 then u.trialAt.toNat
  else 0

/-- The view of the safety manager (R512). -/
def Dev.safetyReg (d : Dev) (a : Nat) : Nat :=
  let x := d.safety
  if a = 0xF000 then
    x.state.toNat * 2 ^ 29 + flag x.lock 28 + flag x.hbArmed 27 + flag d.probe.unlocked 26 + flag x.faultN 25 + x.queue.length * 2 ^ 16 + x.lost.toNat
  else if a = 0xF004 then x.force.toNat
  else if 0xF010 ≤ a ∧ a < 0xF040 then (let s := (a - 0xF010) / 4 + 1; (tget x.ue s 0).toNat * 2 ^ 16 + (tget x.ce s 0).toNat)
  else if 0xF040 ≤ a ∧ a < 0xF080 then
    (let n := (a - 0xF040) / 4; flag (bit x.excluded n) 31 + ofSigned 16 (nth x.temps n 0))
  else 0

/-- The registers of BAR4 (R127). -/
def Dev.bar4Reg (d : Dev) (a : Nat) : Nat :=
  if a = 0x0000 then (4096 - d.allShared) * 2 ^ 8 + d.manager
  else if 0x0100 ≤ a ∧ a < 0x0200 then d.budgetReg ((a - 0x0100) / 0x40) (a % 0x40)
  else if 0x1000 ≤ a ∧ a < 0x5000 then d.blockReg ((a - 0x1000) / 0x100) (a % 0x100)
  else if 0x8000 ≤ a ∧ a < 0x9000 then d.rasterReg a
  else if 0x9000 ≤ a ∧ a < 0xA000 then d.displayReg a
  else if 0xA000 ≤ a ∧ a < 0xB000 then d.audioReg a
  else if 0xB000 ≤ a ∧ a < 0xC000 then d.memReg a
  else if 0xC000 ≤ a ∧ a < 0xD000 then d.powerReg a
  else if 0xD000 ≤ a ∧ a < 0xE000 then d.bootReg a
  else if 0xE000 ≤ a ∧ a < 0xF000 then d.updateReg a
  else if 0xF000 ≤ a ∧ a < 0x10000 then d.safetyReg a
  else 0

/-- SM_CFG (R511). -/
def Dev.smCfg (d : Dev) : Nat :=
  flag d.safety.lock 31 + flag d.safety.freezeEn 30 + d.safety.hbPeriod * 2 ^ 16 + d.safety.forceSet.toNat

/-- The addresses that REG_READ permits (R510, R511). -/
def svpMapped (a : Nat) : Bool :=
  (decide (0xC000 ≤ a) && decide (a < 0x10000)) || (decide (0x10000 ≤ a) && decide (a < 0x10400) && isClass ((a - 0x10000) / 4)) || a = 0x10400 || a = 0x10404

/-- The registers that the supervisor port reaches (R510, R511). -/
def Dev.svpReg (d : Dev) (a : Nat) : Nat :=
  if 0xC000 ≤ a ∧ a < 0x10000 then d.bar4Reg a
  else if 0x10000 ≤ a ∧ a < 0x10400 ∧ isClass ((a - 0x10000) / 4) then (d.policy ((a - 0x10000) / 4)).toNat
  else if a = 0x10400 then d.smCfg
  else if a = 0x10404 then d.safety.froSel.toNat
  else 0

/-- A register as it stands, at its base address. -/
def Dev.regLive (d : Dev) (r : Reader) (a : Nat) : Nat :=
  match r with
  | .bar0 f => d.bar0Reg f.val a
  | .bar4 f => if f.val = d.manager then d.bar4Reg a else 0
  | .svp => d.svpReg a

/-! Widths, groups and latches. -/

/-- Whether a 64-bit register of a function control block, a ring, BAR0 or BAR4 starts at an address. -/
def blockWide (a : Nat) : Bool := [0x00, 0x08, 0x28, 0x30, 0x38].contains a
def bar0Wide (a : Nat) : Bool :=
  [0x08, 0x20, 0x28, 0x58, 0x60, 0x2800].contains a || (decide (0x1000 ≤ a) && decide (a < 0x1400) && [0x00, 0x08, 0x28, 0x30].contains (a % 0x100)) ||
    (decide (0x4100 ≤ a) && decide (a < 0x5000) && blockWide (a % 0x100))
def bar4Wide (a : Nat) : Bool :=
  [0x8000, 0x9010, 0x9020, 0xA008, 0xA010, 0xC010, 0xC028, 0xD000, 0xD010, 0xD018, 0xE010].contains a ||
    (decide (0x0100 ≤ a) && decide (a < 0x0200) && [0x10, 0x18].contains (a % 0x40)) ||
    (decide (0x1000 ≤ a) && decide (a < 0x5000) && blockWide (a % 0x100)) || (decide (0xB040 ≤ a) && decide (a < 0xB0C0) && decide (a % 8 = 0))
def readerWide (r : Reader) (a : Nat) : Bool :=
  match r with
  | .bar0 _ => bar0Wide a
  | .bar4 _ => bar4Wide a
  | .svp => bar4Wide a

/-- The base address of the register that holds the 32 bits at an address. -/
def readerBase (r : Reader) (a : Nat) : Nat := if readerWide r (a / 8 * 8) then a / 8 * 8 else a / 4 * 4

/-- The ROL groups (R86, R132, R163, R302, R365, R414, R444, R465, R492, R512): the registers by base address, lowest first. -/
def bar0Groups : List (List Nat) :=
  [[0x08], [0x20, 0x28, 0x30]] ++ (List.range 4).map (fun k => [0x20, 0x24, 0x28, 0x30, 0x38, 0x3C].map (fun x => 0x1000 + 0x100 * k + x))
def bar4Groups : List (List Nat) :=
  [[0x9010, 0x9018], [0x9020, 0x9028], [0xA008, 0xA010], (List.range 16).map (fun n => 0xB040 + 8 * n), [0xC008, 0xC010, 0xC018],
   [0xD000, 0xD008, 0xD00C, 0xD010, 0xD018], [0xE000, 0xE004, 0xE008, 0xE010],
   [0xF000, 0xF004] ++ (List.range 12).map (fun s => 0xF010 + 4 * s) ++ (List.range 16).map (fun n => 0xF040 + 4 * n)]
def readerGroups (r : Reader) : List (List Nat) :=
  match r with
  | .bar0 _ => bar0Groups
  | .bar4 _ => bar4Groups
  | .svp => bar4Groups

/-- The group of a register, if it has one. -/
def readerGroup (r : Reader) (b : Nat) : Option (List Nat) := (readerGroups r).find? (fun g => g.contains b)

/-- The bits of an unlatched ROL register that follow an input or internal state; its other bits are at their reset value 0 (R14). -/
def readerLive (r : Reader) (b : Nat) : Nat :=
  let all := 2 ^ 64 - 1
  match r with
  | .bar0 _ => if b = 0x08 then all else if b % 0x100 = 0x28 ∨ b % 0x100 = 0x30 then (if 0x1000 ≤ b then all else 0) else if b % 0x100 = 0x3C then 0xFF000000 else 0
  | _ =>
    if 0xB040 ≤ b ∧ b < 0xB0C0 then 3 * 2 ^ 59
    else if b = 0xC008 then 7 * 2 ^ 29
    else if 0xD000 ≤ b ∧ b < 0xF000 then all
    else if b = 0xF000 then 7 * 2 ^ 29 + 2 ^ 25
    else if 0xF040 ≤ b then 0xFFFF
    else 0

/-- The key of a register's latch: each reader has its own (R510). -/
def readerKey (r : Reader) (b : Nat) : Nat :=
  (match r with | .bar0 f => f.val | .bar4 _ => 64 | .svp => 65) * 2 ^ 20 + b

/-- The latches after a read access of n bytes at an address (R13). -/
def Dev.latchBy (d : Dev) (r : Reader) (a n : Nat) : Dev :=
  (readerGroups r).foldl (fun e g =>
    match g with
    | [] => e
    | low :: _ =>
      if a ≤ low ∧ low < a + n then { e with latch := g.foldl (fun t b => tset t (readerKey r b) (BitVec.ofNat 64 (d.regLive r b))) e.latch } else e) d

/-- A register as read (R9, R14): zero where no register lies (R17). -/
def Dev.regRead (d : Dev) (r : Reader) (b : Nat) : Nat :=
  match readerGroup r b with
  | none => d.regLive r b
  | some _ =>
    match tfind d.latch (readerKey r b) with
    | some v => v.toNat
    | none => Nat.land (d.regLive r b) (readerLive r b)

/-- The 32 bits at an address, a multiple of 4. -/
def Dev.read32 (d : Dev) (r : Reader) (a : Nat) : Nat :=
  let b := readerBase r a
  d.regRead r b / 2 ^ (8 * (a - b)) % 2 ^ 32

/-- An access of 4 or 8 bytes, naturally aligned: the latches taken, and what it returns. -/
def Dev.readAccess (d : Dev) (r : Reader) (a : Nat) (wide : Bool) : Dev × List Byte :=
  let d1 := d.latchBy r a (if wide then 8 else 4)
  (d1, toBytes 4 (d1.read32 r a) ++ (if wide then toBytes 4 (d1.read32 r (a + 4)) else []))

/-- Whether an access is naturally aligned. -/
def aligned (a : Nat) (wide : Bool) : Bool := a % (if wide then 8 else 4) = 0

/-! Writes. A 64-bit register takes a 32-bit access in its half, the other half as it was. -/

/-- A write to a register of a function control block (R145, R146, R149, R150). -/
def Dev.blockSet (d : Dev) (f a v : Nat) : Dev :=
  let x := d.fn f
  let w32 : BitVec 32 := BitVec.ofNat 32 v
  let page28 : BitVec 64 := BitVec.ofNat 64 v &&& 0x000000FFFFFFF000
  if a = 0x00 then d.iommuRoot f (BitVec.ofNat 64 v)
  else if a = 0x08 then (if x.invGo then d else d.setFn f { x with invVa := BitVec.ofNat 64 v &&& 0x0000FFFFFFFFF000 })
  else if a = 0x10 then d.invCtl f w32
  else if a = 0x14 then d.funcCtl f w32
  else if a = 0x20 then d.dirtyCtl f w32
  else if a = 0x28 then d.setFn f { x with dirtyBaseA := page28 }
  else if a = 0x30 then d.setFn f { x with dirtyBaseB := page28 }
  else if a = 0x38 then d.setFn f { x with dirtyVaBase := BitVec.ofNat 64 v &&& 0x0000FFFFFFFFF000 }
  else if a = 0x40 then (if 16777216 < v % 2 ^ 25 then d else d.setFn f { x with dirtyPages := BitVec.ofNat 32 (v % 2 ^ 25) })
  else d

/-- A write to a ring register (R86 to R89, R158). -/
def Dev.ringSet (d : Dev) (g a v : Nat) : Dev :=
  let r := d.ring g
  let w32 : BitVec 32 := BitVec.ofNat 32 v
  let busy : Bool := r.enable || r.inflight ≠ 0
  let base : BitVec 64 := BitVec.ofNat 64 v &&& 0x0000FFFFFFFFFFC0
  if d.resetting (ringFn g) then d
  else if a = 0x00 then (if busy then d else d.setRing g { r with base := base })
  else if a = 0x08 then (if busy then d else d.setRing g { r with cmplBase := base })
  else if a = 0x10 then d.ringCtl g w32
  else if a = 0x14 then d.doorbell g (w32.setWidth 16)
  else if a = 0x18 then d.cmplHead g (w32.setWidth 16)
  else if a = 0x1C then d.setRing g { r with err := r.err &&& ~~~(w32.setWidth 4) }
  else d

/-- PIPE_EV_ENn (R133, R136): an event that it enables makes PIPE 1. -/
def Dev.pipeEnable (d : Dev) (f p : Nat) (v : BitVec 8) : Dev :=
  let before := d.pipeStatus f
  let d1 := d.setFn f { d.fn f with pipeEvEn := tset (d.fn f).pipeEvEn p v }
  if !before && d1.pipeStatus f && bit (d.fn f).evEnable 8 then d1.sendVector f 7 else d1

/-- A write to an MSI-X table entry: the address is a multiple of 4, and of the vector control the mask is kept (PCIe Base). -/
def Dev.msixSet (d : Dev) (f n word v : Nat) : Dev :=
  let x := d.fn f
  let u := if word = 0 then v / 4 * 4 else if word = 3 then v % 2 else v
  d.setFn f { x with msixTable := tset x.msixTable n (setFld (x.msix n) (32 * word) 32 u) }

/-- A write to a register of BAR0 (R132, R133, R135, R163, R336). -/
def Dev.bar0Set (d : Dev) (f a v : Nat) : Dev :=
  let x := d.fn f
  let w32 : BitVec 32 := BitVec.ofNat 32 v
  if a = 0x0010 then (if bit w32 0 && !d.resetting f then d.requestReset f false else d)
  else if a = 0x0034 then d.ptmCtl f w32
  else if a = 0x0040 then d.setFn f { x with evStatus := x.evStatus &&& ~~~(w32.setWidth 9) }
  else if a = 0x0044 then d.setFn f { x with evEnable := w32.setWidth 9 }
  else if a = 0x0050 then
    d.setFn f
      { x with
        faultInfo := x.faultInfo &&& ~~~(w32 &&& 0xC0000000)
        rst := x.rst.map (fun r => { r with keepFault := r.keepFault && !bit w32 31 }) }
  else if a = 0x0060 then d.setFn f { x with apertureBase := BitVec.ofNat 64 v &&& 0x0000FFFFF0000000 }
  else if 0x0400 ≤ a ∧ a < 0x0430 then
    (let p := (a - 0x0400) / 4; d.setFn f { x with pipeEv := tset x.pipeEv p ((tget x.pipeEv p 0) &&& ~~~(w32.setWidth 8)) })
  else if 0x0440 ≤ a ∧ a < 0x0470 then d.pipeEnable f ((a - 0x0440) / 4) (w32.setWidth 8)
  else if 0x0800 ≤ a ∧ a < 0x0880 then
    (let c := (a - 0x0800) / 8
     if a % 8 = 0 then d.hapTrigger f c w32
     else if d.owner 0x07 c = f then d.setHapStat f c ((d.hapStat f c) &&& ~~~(w32 &&& 0x1C000000))
     else d)
  else if 0x1000 ≤ a ∧ a < 0x1400 then d.ringSet (4 * f + (a - 0x1000) / 0x100) (a % 0x100) v
  else if 0x2000 ≤ a ∧ a < 0x2080 then d.msixSet f ((a - 0x2000) / 16) (a % 16 / 4) (v % 2 ^ 32)
  else if 0x4100 ≤ a ∧ a < 0x5000 ∧ f % 16 = 0 then d.blockSet (f + (a - 0x4000) / 0x100) (a % 0x100) v
  else d

/-- A write to a port budget block (R128, R129): in force at the next epoch boundary. -/
def Dev.budgetSet (d : Dev) (p a v : Nat) : Dev :=
  let x := d.port p
  let b := x.written
  let put (b : Budget) : Dev := d.setPort p { x with written := b }
  if a = 0x00 then (if x.vfEnable && decide (v % 16 < x.numVfs) && decide (v % 16 < b.maxVfs) then d else put { b with maxVfs := v % 16 })
  else if a = 0x04 then (if 4096 < v % 2 ^ 13 then d else put { b with maxShared := v % 2 ^ 13 })
  else if a = 0x08 then put { b with shareRc := BitVec.ofNat 32 v &&& 0x0FFF0FFF }
  else if a = 0x0C then put { b with shareDa := BitVec.ofNat 32 v &&& 0x0FFF0FFF }
  else if a = 0x10 then put { b with winBase := BitVec.ofNat 64 v &&& 0x000000FFFFE00000 }
  else if a = 0x18 then put { b with winSize := BitVec.ofNat 64 v &&& 0x000000FFFFE00000 }
  else if a = 0x20 then d.setPort p { x with budgetErr := x.budgetErr && v / 2 ^ 20 % 2 = 0 }
  else d

/-- A write to a raster register (R16, R197, R198). -/
def Dev.rasterSet (d : Dev) (a v : Nat) : Dev :=
  let x := d.raster
  let keep (r : Raster) : Dev := (let d1 : Dev := { d with raster := r }; if r.blocks < d1.assigned then d else d1)
  if a = 0x8000 then (if d.heldBlocks ≠ [] then d else { d with raster := { x with poolBase := BitVec.ofNat 64 v &&& 0x000000FFFFE00000 } })
  else if a = 0x8008 then (if d.heldBlocks ≠ [] ∨ 2048 < v % 2 ^ 12 then d else keep { x with blocks := v % 2 ^ 12 })
  else if a = 0x8010 then (if v / 2 ^ 8 % 2 ^ 8 < 10 then d else { d with raster := { x with preemptLimit := v / 2 ^ 8 % 2 ^ 8 } })
  else if a = 0x8018 then keep { x with compReserve := v % 2 ^ 12 }
  else if 0x8100 ≤ a ∧ a < 0x8200 then keep { x with reserves := tset x.reserves ((a - 0x8100) / 4) (v % 2 ^ 12) }
  else d

/-- A write to MEM_PORTm (R16, R414). -/
def Dev.memPortSet (d : Dev) (m v : Nat) : Dev :=
  if v / 2 ^ 28 % 4 = 3 ∨ v % 2 ^ 24 < 100 then d
  else { d with dram := { d.dram with ports := tset d.dram.ports m (BitVec.ofNat 32 v &&& 0x30FFFFFF) } }

/-- BOOT_LC (R465, R466). -/
def Dev.bootLcWrite (d : Dev) (v : BitVec 32) : Dev :=
  let x := { d.boot with lcRefused := d.boot.lcRefused && !bit v 1 }
  if fld v 16 16 = 0x4C43 && x.fuses.lifecycle = 1 && (d.provision.data 0x0101 0).isSome then { d with boot := { x with lcPending := true } }
  else { d with boot := { x with lcRefused := true } }

/-- A write to a register of BAR4 (R127 to R130, R197, R302, R414, R444, R465). -/
def Dev.bar4Set (d : Dev) (a v : Nat) : Dev :=
  let w32 : BitVec 32 := BitVec.ofNat 32 v
  let p := d.power
  if 0x0100 ≤ a ∧ a < 0x0200 then d.budgetSet ((a - 0x0100) / 0x40) (a % 0x40) v
  else if 0x1000 ≤ a ∧ a < 0x5000 then d.blockSet ((a - 0x1000) / 0x100) (a % 0x100) v
  else if 0x8000 ≤ a ∧ a < 0x9000 then d.rasterSet a v
  else if a = 0x9000 then { d with disp := { d.disp with override := w32.setWidth 12 } }
  else if a = 0xB004 then d.memPart w32
  else if a = 0xB008 then d.memSpeed w32
  else if a = 0xB00C then d.memRetry w32
  else if 0xB100 ≤ a ∧ a < 0xB160 then d.memPortSet ((a - 0xB100) / 4) v
  else if a = 0xC000 then d.pwrReq w32
  else if a = 0xC004 then d.pwrOp w32
  else if a = 0xC020 then { d with power := { p with wakeEn := (w32 &&& 0x0FFFF7F0) ||| 0x8000000F } }
  else if a = 0xC024 then { d with power := { p with wakeSrc := p.wakeSrc &&& ~~~w32 } }
  else if a = 0xC028 then { d with power := { p with wakeAt := BitVec.ofNat 64 v } }
  else if a = 0xC030 then { d with power := { p with showcase := w32.setWidth 12 } }
  else if a = 0xC034 then d.pwrEreset w32
  else if a = 0xC038 then d.pwrDevreset w32 d.board.env
  else if a = 0xD020 then d.bootLcWrite w32
  else d

/-- A write to an SVP-only register (R16, R500, R511): discarded while LOCK is 1; LOCKSTEP's policy is fixed. -/
def Dev.svpSet (d : Dev) (a v : Nat) : Dev :=
  let x := d.safety
  let w32 : BitVec 32 := BitVec.ofNat 32 v
  let c := (a - 0x10000) / 4
  let hb := fld w32 16 10
  if x.lock then d
  else if 0x10000 ≤ a ∧ a < 0x10400 then
    (if !isClass c || c = 0x24 || 5 ≤ v % 8 then d else { d with safety := { x with policy := tset x.policy c (w32 &&& 0x0000FF07) } })
  else if a = 0x10400 then
    (if 1000 < hb then d
     else
      { d with safety :=
          { x with
            lock := bit w32 31, freezeEn := bit w32 30, forceSet := w32.setWidth 12, hbPeriod := hb
            hbArmed := x.hbArmed && decide (hb ≠ 0) } })
  else if a = 0x10404 then { d with safety := { x with froSel := w32.setWidth 6 } }
  else d

/-- One register written, by its base address: where no register lies, the write is discarded (R17). -/
def Dev.regSet (d : Dev) (r : Reader) (b v : Nat) : Dev :=
  match r with
  | .bar0 f => d.bar0Set f.val b v
  | .bar4 f => if f.val = d.manager then d.bar4Set b v else d
  | .svp => d.svpSet b v

/-- 32 bits written at an address, a multiple of 4. -/
def Dev.write32 (d : Dev) (r : Reader) (a v : Nat) : Dev :=
  let b := readerBase r a
  if !readerWide r b then d.regSet r b (v % 2 ^ 32)
  else
    let old := d.regLive r b
    if a = b then d.regSet r b (old / 2 ^ 32 * 2 ^ 32 + v % 2 ^ 32) else d.regSet r b (v % 2 ^ 32 * 2 ^ 32 + old % 2 ^ 32)

/-- A write access of 4 or 8 bytes (R9, R15 to R17). Of a 64-bit access over two 32-bit registers the lower is written first: R9 gives the two no
order (DESIGN CHOICE, log entry 116). -/
def Dev.writeAccess (d : Dev) (r : Reader) (a : Nat) (wide : Bool) (v : Nat) : Dev :=
  if !wide then d.write32 r a v
  else if readerWide r a then d.regSet r a (v % 2 ^ 64)
  else (d.write32 r a (v % 2 ^ 32)).write32 r (a + 4) (v / 2 ^ 32)

/-- A request of a reader: a host's goes through its function's BAR, whose size is 64 KiB. -/
def readerRun (i : Instr) (r : Reader) (a : Nat) (wide : Bool) (h : Dev → Dev) (d : Dev) : Dev :=
  if !aligned a wide then d
  else
    match r with
    | .bar0 f => if a < 0x10000 then hosted i f.val h d else d
    | .bar4 f => if a < 0x10000 then managed i f.val h d else d
    | .svp => if d.boot.stage = .held || d.power.state = .standby then d else h d

/-- LATCH_READ (R9, R13, R14, R17): the access and what it returns. -/
def execLatchRead (r : Reader) (addr : Nat) (wide : Bool) (s : State) : Host.Outcome State Fault Refusal :=
  run (readerRun (.latchRead r addr wide) r addr wide (fun d =>
    let (d1, bytes) := d.readAccess r addr wide
    if r = .svp then d1 else { d1 with host := some (.data bytes) })) s

/-- REGISTER_WRITE (R9, R11, R12, R15 to R17). -/
def execRegisterWrite (r : Reader) (addr : Nat) (wide : Bool) (v : BitVec 64) (s : State) : Host.Outcome State Fault Refusal :=
  run (readerRun (.registerWrite r addr wide v) r addr wide (fun d => d.writeAccess r addr wide v.toNat)) s

/-- BOOT_LC (R466). -/
def execBootLc (f : Fin 64) (v : BitVec 32) (s : State) : Host.Outcome State Fault Refusal :=
  run (managed (.bootLc f v) f.val (fun d => d.bootLcWrite v)) s

end Sys2Proof.Machine
end

