-- ==== Sys2Proof/Machine/Pins.lean ====
section
/-! DEFINITION. The output pins outside their engines' operation (R447, R524, R531, R539): what each group of pins carries while SYS_RST_N is
low, until its engine starts, in STANDBY and in a freeze. -/

namespace Sys2Proof.Machine

/-- The groups of output pins of R539. -/
inductive PinGroup where
  | pwrStby
  | smFaultN
  | wakeN (port : Fin 4)
  | svpIo
  | highSpeed
  | dch
  | ddrResetN
  | csN
  | clockOut
  | hlkDo
  | hsBias
  | fro
  | otherIo18
  deriving DecidableEq, Repr

/-- What an output carries: a level, the high impedance of a released or undriven pin, the last level, or what its engine, its standard or its
port sends. -/
inductive Drive where
  | low
  | high
  | highZ
  | hold
  | electricalIdle
  | off
  | selfRefreshLevels
  | jedecInit
  | replies
  | readOut
  | engine
  deriving DecidableEq, Repr

/-- The situations that the columns of R539 name, and the operation of the engines. -/
inductive PinPhase where
  | reset
  | starting
  | standby
  | frozen
  | running
  deriving DecidableEq, Repr

/-- The situation of the device. -/
def Dev.pinPhase (d : Dev) : PinPhase :=
  if d.board.sysRstLow || d.boot.stage = .held then .reset
  else if d.freeze.at_.isSome then .frozen
  else if d.power.state = .standby then .standby
  else if d.boot.stage = .ready then .running
  else .starting

/-- What a group of pins carries (R539). -/
def Dev.pinDrive (d : Dev) (g : PinGroup) : Drive :=
  let row (reset starting standby frozen running : Drive) : Drive :=
    match d.pinPhase with | .reset => reset | .starting => starting | .standby => standby | .frozen => frozen | .running => running
  let openDrain (on : Bool) : Drive := if on then .low else .highZ
  match g with
  | .pwrStby => row .low .low (if d.power.stby then .high else .low) .low .low
  | .smFaultN => row .highZ .highZ (openDrain d.safety.faultN) .low (openDrain d.safety.faultN)
  | .wakeN p => row .highZ .highZ (openDrain (bit d.power.wakeN p.val)) .highZ (openDrain (bit d.power.wakeN p.val))
  | .svpIo => row .highZ .replies .highZ .replies .replies
  | .highSpeed => row .highZ .electricalIdle .off .electricalIdle .engine
  | .dch => row .highZ .jedecInit .selfRefreshLevels .hold .engine
  | .ddrResetN => row .low .jedecInit .selfRefreshLevels .hold .engine
  | .csN => row .highZ .high .high .hold .engine
  | .clockOut => row .highZ .low .low .low .engine
  | .hlkDo => row .highZ .low .low .low .engine
  | .hsBias => row .highZ .highZ .highZ .hold .engine
  | .fro => row .highZ .low .low .readOut .low
  | .otherIo18 => row .highZ .low .hold .hold .engine

/-! The read-out as sent (R517). -/

/-- The bytes of a read-out frame; each goes out as two nibbles, the high one first. -/
def FroFrame.bytes (x : FroFrame) : List Byte :=
  let l := toBytes 1 x.type ++ toBytes 1 x.flag.toNat ++ toBytes 2 x.seq ++ toBytes 2 (9 * x.payload.length) ++ bytesOfWords [x.locus] ++ toBytes 4 x.offset ++
    toBytes 1 0 ++ bytesOfWords x.payload
  [0x41, 0x49, 0x54, 0x4E] ++ l ++ toBytes 4 (crc32c l)

end Sys2Proof.Machine
end

