-- ==== Sys2Proof/Machine/Bringup.lean ====
section
/-! DEFINITION. The board's signals to the device: VDD_AON, SYS_RST_N, PERST_N, the host links and configuration requests (R3, R4,
R122, R440, R442, R447 to R450, R530, R531). -/

namespace Sys2Proof.Machine

/-! Power-up and reset. -/

/-- What a reset by SYS_RST_N or VDD_AON ends besides a device reset (R495): a halted pair and its SM_FAULT_N. -/
def Dev.pairStarts (d : Dev) : Dev :=
  if d.safety.state = 2 then { d with safety := { d.safety with state := 0, faultN := false, mismatchAt := none } } else d

/-- The plinth at its reset values (R442, R444): DEVTIME 0, the wake registers, the LIMIT history, RESETS, SM_FAULT_N; no record of an
escalation is kept. The lease of a session runs on from what remained. -/
def Dev.plinthReset (d : Dev) : Dev :=
  let z := Power.atReset
  { d with
    now := 0
    boot := { d.boot with resets := 0 }
    power := { d.power with wakeEn := z.wakeEn, wakeSrc := z.wakeSrc, wakeAt := z.wakeAt, hotAt := 0, coolAt := 0 }
    safety := { d.safety with faultN := false, queue := [], plinthRec := none, temps := [] }
    update := { d.update with session := d.update.session.map (fun s => { s with leaseEnd := s.leaseEnd - d.now }) } }

/-- A VDD_AON ramp (R442, R448): the return from OFF. The device stays in reset while SYS_RST_N is low. -/
def Dev.vddAonRamp (d : Dev) : Dev :=
  let d1 := d.pairStarts.deviceReset.plinthReset
  if d1.board.sysRstLow then d1 else d1.bootRun d1.board.env

/-- VDD_AON_RAMP (R448). -/
def execVddAonRamp (s : State) : Host.Outcome State Fault Refusal := run (fun d => d.vddAonRamp) s

/-- VDD_AON_DROP (R530): below 0.65 V for longer than 1 µs, its return is a ramp. -/
def execVddAonDrop (lowNs : Nat) (mv : Nat) (s : State) : Host.Outcome State Fault Refusal :=
  run (fun d => if decide (mv < 650) && decide (1000 < lowNs) then d.vddAonRamp else d) s

/-- SYS_RST_N_FALL (R442, R447): low for at least 1 µs is a device reset, and the device stays in reset. -/
def execSysRstNFall (lowNs : Nat) (s : State) : Host.Outcome State Fault Refusal :=
  run (fun d =>
    if d.board.sysRstLow || decide (lowNs < 1000) then d
    else
      let d1 := d.pairStarts.deviceReset
      { d1 with board := { d1.board with sysRstLow := true } }) s

/-- SYS_RST_N_RISE (R449, R531): the boot sequence, held until REFCLK is in range. -/
def execSysRstNRise (at_ : Nat) (env : BootEnv) (s : State) : Host.Outcome State Fault Refusal :=
  run (fun d =>
    if !d.board.sysRstLow then d
    else
      let d1 := d.tick at_
      ({ d1 with board := { d1.board with sysRstLow := false } } : Dev).bootRun env) s

/-! Host links. -/

/-- PERST_N (R450): high, the port starts training once the boot ROM has started; low, its link is down, and after READY its
functions take the link-down reset. -/
def execPerstN (p : Fin 4) (high : Bool) (s : State) : Host.Outcome State Fault Refusal :=
  run (fun d =>
    let x := d.port p.val
    if x.perst = high then d
    else if high then
      d.setPort p.val { x with perst := true, link := if d.boot.stage ≠ .held && d.freeze.at_.isNone then .training else x.link }
    else
      let d1 := d.setPort p.val { x with perst := false, link := .down }
      if d.boot.stage = .ready && d.freeze.at_.isNone then d1.portReset p.val else d1) s

/-- HOST_LINK_L0 (R440, R450): WAKE_N of the port is released. -/
def execHostLinkL0 (p : Fin 4) (s : State) : Host.Outcome State Fault Refusal :=
  run (fun d =>
    let x := d.port p.val
    if !x.perst || d.boot.stage = .held || d.freeze.at_.isSome || x.link = .l0 then d
    else
      let d1 := d.setPort p.val (({ x with link := .l0 } : Port).ptmPending d.now)
      { d1 with power := { d1.power with wakeN := setBit d1.power.wakeN p.val false } }) s

/-! Configuration space (R3, R4, R122, R123, R126, R131, R136). -/

/-- The log2 size of a PF's BAR n, and of BAR n of its VFs; 0 for one that does not exist (R126, R131). -/
def Dev.barLog2 (d : Dev) (f n : Nat) : Nat := if n = 0 then 16 else if n = 2 then (d.fn f).bar2Log2 else if n = 4 ∧ f = d.manager then 16 else 0
def Port.vfBarLog2 (x : Port) (n : Nat) : Nat := if n = 0 then 16 else if n = 2 then x.vfBar2Log2 else 0

/-- A 32-bit BAR register (R131): BARs 0, 2 and 4 are 64-bit memory BARs, BAR2 prefetchable; the address bits below the size read 0. -/
def barWord (log2 : Nat) (base : BitVec 64) (n : Nat) : Nat :=
  if log2 = 0 then 0 else (base.toNat / 2 ^ log2 * 2 ^ log2 + (if n / 2 = 1 then 0xC else 0x4)) / 2 ^ (32 * (n % 2)) % 2 ^ 32

/-- The base addresses with one half written. -/
def barPut (bars : Tab (BitVec 64)) (n v : Nat) : Tab (BitVec 64) := tset bars (n / 2) (setFld (tget bars (n / 2) 0) (32 * (n % 2)) 32 v)

/-- Whether a function has a capability structure (R122); those that serve the link or the VFs stand in the PF. -/
def hasCapability (c : CfgCap) (pf : Bool) : Bool :=
  match c with
  | .powerManagement | .pciExpress | .msix | .aer | .ari => true
  | .sriov | .ptm | .l1Substates | .resizableBar | .vfResizableBar | .laneMargining => pf
  | .msi | .ats | .pri | .pasid => false

/-- A register of a function's configuration space: its bytes and its value, encoded as PCIe Base does (PRESUMED, log entry 118). -/
def Dev.cfgValue (d : Dev) (f : Nat) (reg : CfgReg) : Nat × Nat :=
  let x := d.fn f
  let p := d.port (f / 16)
  let pf := f % 16 = 0
  match reg with
  | .vendorId => (2, 0x1D7A)
  | .deviceId => (2, if pf then 0x1280 else 0x1281)
  | .revisionId => (1, 0xB0)
  | .classCode => (3, 0x038000)
  | .subsystemVendorId => (2, x.ssVid.toNat)
  | .subsystemId => (2, x.ssId.toNat)
  | .totalVfs => (2, if pf then 15 else 0)
  | .numVfs => (2, if pf then p.numVfs else 0)
  | .firstVfOffset => (2, if pf then 1 else 0)
  | .vfStride => (2, if pf then 1 else 0)
  | .vfDeviceId => (2, if pf then 0x1281 else 0)
  | .vfEnable => (1, (pf && p.vfEnable).toNat)
  | .interruptPin => (1, 0)
  | .msixEnable => (1, x.msixEnable.toNat)
  | .msixFunctionMask => (1, x.msixMask.toNat)
  | .ptmEnable => (1, (pf && p.ptmEnable).toNat)
  | .bar2Size => (1, if pf then x.bar2Log2 else p.vfBar2Log2)
  | .vfBar2Size => (1, if pf then p.vfBar2Log2 else 0)
  | .bar n => (4, if pf then barWord (d.barLog2 f (n.val / 2 * 2)) (tget x.bars (n.val / 2) 0) n.val else 0)
  | .vfBar n => (4, if pf then barWord (p.vfBarLog2 (n.val / 2 * 2)) (tget p.vfBars (n.val / 2) 0) n.val else 0)
  | .capability c => (1, (hasCapability c pf).toNat)
  | .msixTableSize => (2, 7)
  | .noSoftReset => (1, 1)
  | .d1d2Support => (1, 0)
  | .flrSupport => (1, 1)
  | .maxPayloadSupport => (1, 2)
  | .linkSpeeds => (1, 0x1F)
  | .maxLinkWidth => (1, 4)
  | .aspmSupport => (1, 2)
  | .l1SubstatesSupport => (1, if pf then 0x1C else 0)
  | .functionNumber => (1, f % 16)
  | .errorControl => (1, if pf then x.errCtl.toNat else 0)
  | .errorStatus => (1, x.errStat.toNat)
  | .aerUncorrectable => (4, x.aerUnc.toNat)
  | .aerUncorrectableMask => (4, if pf then x.aerUncMask.toNat else 0)
  | .aerUncorrectableSeverity => (4, if pf then x.aerUncSev.toNat else 0)
  | .aerCorrectable => (4, x.aerCor.toNat)
  | .aerCorrectableMask => (4, if pf then x.aerCorMask.toNat else 0)

/-- A write to a register of a function's configuration space; status bits clear by a 1. -/
def Dev.cfgSet (d : Dev) (f : Nat) (reg : CfgReg) (v : Nat) : Dev :=
  let x := d.fn f
  let q := f / 16
  let pf := f % 16 = 0
  let on : Bool := v % 2 = 1
  match reg with
  | .numVfs => if pf then d.numVfsSet q (v % 2 ^ 16) else d
  | .vfEnable => if !pf then d else if on then d.vfSet q else d.vfClear q
  | .msixEnable => d.setFn f { x with msixEnable := on }
  | .msixFunctionMask => d.setFn f { x with msixMask := on }
  | .ptmEnable => if pf then d.setPort q ((d.port q).ptmSet on d.now) else d
  | .bar2Size => if pf ∧ 28 ≤ v ∧ v ≤ 36 then d.setFn f { x with bar2Log2 := v } else d
  | .vfBar2Size => if pf ∧ 28 ≤ v ∧ v ≤ 36 then d.setPort q { d.port q with vfBar2Log2 := v } else d
  | .bar n => if pf then d.setFn f { x with bars := barPut x.bars n.val v } else d
  | .vfBar n => if pf then d.setPort q { d.port q with vfBars := barPut (d.port q).vfBars n.val v } else d
  | .errorControl => if pf then d.setFn f { x with errCtl := BitVec.ofNat 4 v } else d
  | .errorStatus => d.setFn f { x with errStat := x.errStat &&& ~~~(BitVec.ofNat 4 v) }
  | .aerUncorrectable => d.setFn f { x with aerUnc := x.aerUnc &&& ~~~(BitVec.ofNat 32 v) }
  | .aerUncorrectableMask => if pf then d.setFn f { x with aerUncMask := BitVec.ofNat 32 v } else d
  | .aerUncorrectableSeverity => if pf then d.setFn f { x with aerUncSev := BitVec.ofNat 32 v } else d
  | .aerCorrectable => d.setFn f { x with aerCor := x.aerCor &&& ~~~(BitVec.ofNat 32 v) }
  | .aerCorrectableMask => if pf then d.setFn f { x with aerCorMask := BitVec.ofNat 32 v } else d
  | _ => d

/-- A configuration request that is served (R450): a function that does not exist claims none. -/
def Dev.cfgServe (d : Dev) (f : Nat) (reg : CfgReg) (write : Option (BitVec 32)) : Dev :=
  if !d.exists_ f then { d with host := some .unsupported }
  else
    match write with
    | some v => { (d.cfgSet f reg v.toNat) with host := some (.data []) }
    | none => let (n, v) := d.cfgValue f reg; { d with host := some (.data (toBytes n v)) }

/-- CONFIG_REQUEST (R3, R4, R122, R439, R450): retry status before READY; held through a sleep state. -/
def execConfigRequest (f : Fin 64) (reg : CfgReg) (write : Option (BitVec 32)) (s : State) : Host.Outcome State Fault Refusal :=
  run (fun d =>
    let link := (d.port (f.val / 16)).link
    if link ≠ .l0 && link ≠ .l1 then d
    else if d.boot.stage ≠ .ready then { d with host := some .retry }
    else if d.asleep then ({ d with held := d.held ++ [.configRequest f reg write] } : Dev).hostFired f.val
    else (d.hostFired f.val).cfgServe f.val reg write) s

end Sys2Proof.Machine
end

