-- ==== Sys2Proof/Machine/Firmware.lean ====
section
/-! DEFINITION. The opcodes of firmware privilege (R57, R78, R496): CSRs, ERET, device-physical access, IOINV, THRD, LEDG,
HALT and WDOG. -/

namespace Sys2Proof.Machine

/-- What a firmware thread reads from a CSR (R78); a reserved number reads zero. -/
def csrRead (core thread : Nat) (x : FwThread) (n : Nat) : W72 :=
  match n with
  | 0 => x.epc
  | 1 => x.ecode
  | 2 => x.eaddr
  | 3 => x.evec
  | 4 => BitVec.ofNat 72 (core * 256 + thread)
  | 5 => x.seq.base.setWidth 72
  | _ => 0

/-- A CSR written (R78): EADDR, TID and reserved numbers keep what they hold. EBASE names another program, with its own length (R59). -/
def csrWrite (x : FwThread) (n : Nat) (v : W72) : FwThread :=
  match n with
  | 0 => { x with epc := v }
  | 1 => { x with ecode := v }
  | 3 => { x with evec := v }
  | 5 => { x with seq := { x.seq with base := v.setWidth 48, length := firmwareLength (v.setWidth 48) } }
  | _ => x

/-- The firmware thread of a context, for an opcode of firmware privilege. -/
def onFirmware (c : Ctx) (h : Nat → Nat → FwThread → Dev → Dev × Except Exc Flow) (d : Dev) : Dev × Except Exc Flow :=
  match c with
  | .firmware k t => h k.val t.val (d.fwt k.val t.val) d
  | _ => (d, .error exIllegal)

/-- The row of CSRR, and that of CSRW. -/
def Shape.csrr : Shape := { formats := [1], dst := .reg, a := .none, b := .none, c := false, subs := 1, prof := .firmware }
def Shape.csrw : Shape := { formats := [1], dst := .none, a := .reg, b := .none, c := false, subs := 1, prof := .firmware }

/-- CSRR (R78). -/
def execCsrr (c : Ctx) (w : Insn) (s : State) : Host.Outcome State Fault Refusal :=
  run (issue c .csrr w false (onFirmware c (fun k t x d => (d.wrReg c w.d (csrRead k t x (fld w.low 0 12)), .ok .next)))) s

/-- CSRW (R78). -/
def execCsrw (c : Ctx) (w : Insn) (s : State) : Host.Outcome State Fault Refusal :=
  run (issue c .csrw w false (onFirmware c (fun k t x d => (d.setFwt k t (csrWrite x (fld w.low 0 12) (x.seq.bank.rd w.a)), .ok .next)))) s

/-- ERET (R59, R78): EPC outside the program raises EX_PC and clears nothing. -/
def execEret (c : Ctx) (w : Insn) (s : State) : Host.Outcome State Fault Refusal :=
  run (issue c (.bare .firmware) w true (onFirmware c (fun k t x d =>
    if x.seq.holds (fld x.epc 0 24 : Nat) then (d.setFwt k t { x with ecode := 0 }, .ok (.goto (fld x.epc 0 24 : Nat))) else (d, .error exPc)))) s

/-! Device-physical access. -/

/-- The kinds of address that n bytes from a touch (R42). -/
def Dev.touches (d : Dev) (a n : Nat) (r : Region) : Bool := regionOf d.dram a = r || regionOf d.dram (a + n - 1) = r

/-- The exception of a device-physical access: EX_MEM at an unpopulated address and for a store into the Vitrine, EX_ECC, EX_LOST (R36,
R42, R67, R77, R391, R409). -/
def Dev.physExc (d : Dev) (load : Bool) (a n : Nat) : Option Exc :=
  let e (code : Nat) : Option Exc := some { exc code with addr := a }
  if d.touches a n .none || (!load && d.touches a n .vitrine) then e 0x06
  else if d.dataCause a n = 0xE then e 0x08
  else if load && d.dataCause a n = 0xD then e 0x07
  else none

/-- The bytes at a device-physical address: the boot ROM's are its own. -/
def Dev.physRead (d : Dev) (a n : Nat) : List Byte :=
  (List.range n).map (fun i => if regionOf d.dram (a + i) = .rom then Config.romByte (a + i) else d.peekByte (a + i))

/-- Bytes stored at a device-physical address. The boot ROM keeps its own, and the Vitrine, which has only the checked write path
(R36, R67), keeps what it holds. -/
def Dev.physWrite (d : Dev) (a : Nat) (bytes : List Byte) : Dev :=
  if d.touches a bytes.length .rom || d.touches a bytes.length .vitrine then d else d.poke a bytes

/-- Whether an instruction executes on a context: it issues, passes its checks, and its predicate holds. -/
def Dev.executes (d : Dev) (c : Ctx) (sh : Shape) (w : Insn) : Bool :=
  d.canIssue c &&
  match d.seq c with
  | none => false
  | some q => match d.precheck c sh w q with | (_, some _) => false | (_, none) => d.predicate c sh w false

/-- Whether an access of PLD or PST reaches the internal control space, whose contents the manual does not give. -/
def Dev.reachesControl (d : Dev) (c : Ctx) (sh : Shape) (w : Insn) : Bool :=
  let a := (d.bank c).addr w
  d.executes c sh w && (accessExc w.s w.d a).isNone && d.touches a (accessBytes w.s) .control && !d.touches a (accessBytes w.s) .none

/-- PLD (R42, R57, R63, R78). -/
def execPld (c : Ctx) (w : Insn) (s : State) : Host.Outcome State Fault Refusal :=
  if s.dev.reachesControl c (.mem 6 .firmware) w then .fault (.controlSpace ((s.dev.bank c).addr w))
  else
    run (issue c (.mem 6 .firmware) w false (fun d =>
      let a := (d.bank c).addr w
      match accessExc w.s w.d a with
      | some e => (d, .error e)
      | none =>
        match d.physExc true a (accessBytes w.s) with
        | some e => (d, .error e)
        | none => (d.loaded c w false (d.physRead a (accessBytes w.s)), .ok .next))) s

/-- PST (R42, R57, R63, R78). -/
def execPst (c : Ctx) (w : Insn) (s : State) : Host.Outcome State Fault Refusal :=
  if s.dev.reachesControl c (.mem 6 .firmware) w then .fault (.controlSpace ((s.dev.bank c).addr w))
  else
    run (issue c (.mem 6 .firmware) w false (fun d =>
      let a := (d.bank c).addr w
      match accessExc w.s w.d a with
      | some e => (d, .error e)
      | none =>
        match d.physExc false a (accessBytes w.s) with
        | some e => (d, .error e)
        | none => (d.physWrite a (storeBytes (d.bank c) w), .ok .next))) s

/-! The rest. -/

/-- The row of IOINV and THRD. -/
def Shape.pair (subs : Nat) : Shape := { formats := [0], dst := .none, a := .reg, b := .reg, c := false, subs := subs, prof := .firmware }

/-- IOINV (R57, R145): the entries of function a that range b takes in are removed. -/
def execIoinv (c : Ctx) (w : Insn) (s : State) : Host.Outcome State Fault Refusal :=
  run (issue c (.pair 1) w false (onFirmware c (fun _ _ x d =>
    let f := (x.seq.bank.rd w.a).toNat
    let b := (x.seq.bank.rd w.b).toNat
    if 64 ≤ f then (d, .ok .next)
    else (d.setFn f { d.fn f with tlb := (d.fn f).tlb.filter (fun e => !Config.invRange b e.2.va e.2.size) }, .ok .next)))) s

/-- A thread started, stopped or reset by THRD. -/
def Dev.thrd (d : Dev) (sub core thread : Nat) : Dev :=
  if 10 ≤ core ∨ 4 ≤ thread then d
  else if sub = 0 then d.setFwt core thread { d.fwt core thread with started := true, halted := false, lastWdog := d.now }
  else if sub = 1 then d.setFwt core thread { d.fwt core thread with started := false }
  else d.setFwt core thread (.atReset core thread)

/-- THRD (R57): "start, stop or reset thread a; sub selects". That sub 0 starts, 1 stops and 2 resets, that a is laid out as TID, and that b
has no effect, are the model's choice (DESIGN CHOICE, log entry 36). The thread itself has gone on first. -/
def execThrd (c : Ctx) (w : Insn) (s : State) : Host.Outcome State Fault Refusal :=
  run (issue c (.pair 3) w false (onFirmware c (fun _ _ x d =>
    let a := x.seq.bank.rd w.a
    ((d.updSeq c (fun q => { q with pc := q.pc + 1 })).thrd w.s (fld a 8 64) (fld a 0 8), .ok .done)))) s

/-- A ledger entry with the fields that firmware may have written: free values, from counter n. -/
def Entry.rewritten (n : Nat) (e : Entry) : Entry :=
  { e with
    item := BitVec.ofNat 144 (Config.freeBits n), gen := BitVec.ofNat 8 (Config.freeBits (n + 1))
    progStatus := BitVec.ofNat 8 (Config.freeBits (n + 2)), result := some (BitVec.ofNat 64 (Config.freeBits (n + 3))) }

/-- LEDG (R57), whose one sub-operation reads or writes a ledger entry. The manual gives neither the choice between the two nor the numbering
and the layout of the entries: whether it writes, which entry and to what, and what it returns in d, are free values. -/
def execLedg (c : Ctx) (w : Insn) (s : State) : Host.Outcome State Fault Refusal :=
  run (issue c { formats := [0], dst := .reg, a := .reg, b := .none, c := false, subs := 1, prof := .firmware } w false (onFirmware c (fun _ _ _ d =>
    let n := d.free
    let d1 : Dev := { d with free := n + 8 }
    let d2 := if Config.freeBits (n + 6) % 2 = 0 then d1 else d1.updEntry (Config.freeBits (n + 4) % 256) (Config.freeBits (n + 5)) (Entry.rewritten n)
    (d2.wrReg c w.d (BitVec.ofNat 72 (Config.freeBits (n + 7))), .ok .next)))) s

/-- HALT (R57): the thread waits; its next instruction tells that the interrupt has come. -/
def execHalt (c : Ctx) (w : Insn) (s : State) : Host.Outcome State Fault Refusal :=
  run (issue c (.bare .firmware) w false (onFirmware c (fun k t _ d =>
    let d1 := d.updSeq c (fun q => { q with pc := q.pc + 1 })
    (d1.setFwt k t { d1.fwt k t with halted := true }, .ok .done)))) s

/-- WDOG (R496). -/
def execWdog (c : Ctx) (w : Insn) (s : State) : Host.Outcome State Fault Refusal :=
  run (issue c (.bare .firmware) w false (onFirmware c (fun k t x d => (d.setFwt k t { x with lastWdog := d.now }, .ok .next)))) s

end Sys2Proof.Machine
end

