-- ==== Sys2Proof/Machine/Supervisor.lean ====
section
/-! DEFINITION. The supervisor port (R430, R451, R453, R501, R503, R504, R510, R511), freeze and read-out on request (R516, R517). -/

namespace Sys2Proof.Machine

/-! Frames. -/

/-- Whether the port takes frames at all: the safety manager runs, and not in STANDBY (R449, R494, R510). -/
def Dev.svpUp (d : Dev) : Bool := d.boot.stage ≠ .held && d.power.state ≠ .standby

/-- A reply. -/
def Dev.answer (d : Dev) (status : Nat) (data : List Byte) : Dev := { d with svp := some { status := BitVec.ofNat 8 status, data := data } }

/-- The opcodes of R510, and those that are served while frozen. -/
def svpOpcode (op : Nat) : Bool :=
  [0x01, 0x02, 0x03, 0x04, 0x05, 0x06, 0x10, 0x11, 0x20, 0x21, 0x22, 0x23, 0x30, 0x31, 0x32].contains op
def svpFrozen (op : Nat) : Bool := [0x01, 0x02, 0x04, 0x21, 0x23].contains op

/-- The bytes of a frame before its CRC, with its opcode, and whether the CRC is theirs. -/
def svpBytes (op : Nat) (x : SvpFrame) : List Byte := toBytes 1 op ++ toBytes 2 x.length ++ toBytes 4 x.arg.toNat ++ x.payload
def crcOk (op : Nat) (x : SvpFrame) : Bool := x.crc.toNat = crc16 (svpBytes op x)

/-- Whether a frame passes its check: its CRC, and as many payload bytes as LENGTH says. -/
def frameOk (op : Nat) (x : SvpFrame) : Bool := crcOk op x && x.length = x.payload.length

/-- A reply as sent (R510). -/
def SvpReply.bytes (x : SvpReply) : List Byte :=
  let l := toBytes 1 x.status.toNat ++ toBytes 2 x.data.length ++ x.data
  l ++ toBytes 2 (crc16 l)

/-- A command with opcode op and effect h (R495, R510): HALTED, a CRC error and a frozen device are answered first. -/
def svpRun (op : Nat) (x : SvpFrame) (h : Dev → Dev) (d : Dev) : Dev :=
  if !d.svpUp then d
  else if d.safety.state = 2 then d.answer 0x06 []
  else if !frameOk op x then d.answer 0x01 []
  else if d.freeze.at_.isSome && !svpFrozen op then d.answer 0x03 []
  else h d

/-- A command that takes no payload, and whose ARG is 0. -/
def plainFrame (x : SvpFrame) : Bool := x.payload = [] && x.arg = 0

/-! STATUS, records and registers. -/

/-- The hottest included sensor in 0.5 °C (R510), of the readings in 0.01 °C. -/
def Dev.hottest (d : Dev) : Int :=
  let l := ((List.range 16).filter (fun n => !bit d.safety.excluded n)).map (fun n => nth d.safety.temps n 0)
  (match l with | [] => 0 | x :: r => r.foldl (fun a b => if a < b then b else a) x) / 50

/-- The status block (R510). -/
def Dev.statusBlock (d : Dev) : List Byte :=
  let x := d.safety
  let flags := flag x.faultN 0 + flag x.lock 1 + flag d.probe.unlocked 2 + flag x.freezeEn 3 + flag (d.boot.stage = .recovery) 4 + flag (d.boot.stage = .ready) 5
  toBytes 1 x.state.toNat ++ toBytes 1 d.pwrState ++ toBytes 1 d.boot.fuses.lifecycle.toNat ++ toBytes 1 flags ++ toBytes 1 x.queue.length ++ toBytes 1 0 ++
    toBytes 2 x.lost.toNat ++ toBytes 8 d.now ++ toBytes 2 x.force.toNat ++ toBytes 2 (ofSigned 16 d.hottest) ++ toBytes 2 x.hbCount.toNat ++
    toBytes 2 x.seq.toNat ++ toBytes 8 0

/-- STATUS (R510). -/
def execStatus (frame : SvpFrame) (s : State) : Host.Outcome State Fault Refusal :=
  run (svpRun 0x01 frame (fun d => if plainFrame frame then d.answer 0 d.statusBlock else d.answer 0x05 [])) s

/-- FAULT_READ (R501): the oldest record leaves the queue. -/
def execFaultRead (frame : SvpFrame) (s : State) : Host.Outcome State Fault Refusal :=
  run (svpRun 0x02 frame (fun d =>
    if !plainFrame frame then d.answer 0x05 []
    else
      match d.safety.queue with
      | [] => d.answer 0 []
      | r :: rest => ({ d with safety := { d.safety with queue := rest } } : Dev).answer 0 (bytesOfWords r.words))) s

/-- FAULT_ACK (R504). -/
def execFaultAck (frame : SvpFrame) (s : State) : Host.Outcome State Fault Refusal :=
  run (svpRun 0x03 frame (fun d =>
    if !plainFrame frame then d.answer 0x05 []
    else if d.safety.queue.any (fun r => r.action ≠ 0) then d.answer 0x04 []
    else ({ d with safety := { d.safety with faultN := false } } : Dev).answer 0 [])) s

/-- Whether an address is in BAR4's upper part, or in the SVP-only space (R510, R511). -/
def svpReadable (a : Nat) : Bool := decide (0xC000 ≤ a) && decide (a < 0x10408)
def svpOnly (a : Nat) : Bool := decide (0x10000 ≤ a) && decide (a < 0x10408)

/-- REG_READ (R13, R510): 8 bytes at a 64-bit register, else 4. -/
def execRegRead (frame : SvpFrame) (s : State) : Host.Outcome State Fault Refusal :=
  run (svpRun 0x04 frame (fun d =>
    let a := frame.arg.toNat
    if frame.payload ≠ [] || a % 4 ≠ 0 then d.answer 0x05 []
    else if !svpReadable a then d.answer 0x03 []
    else let (d1, bytes) := d.readAccess .svp a (readerWide .svp a); d1.answer 0 bytes)) s

/-- REG_WRITE (R510, R511). -/
def execRegWrite (frame : SvpFrame) (s : State) : Host.Outcome State Fault Refusal :=
  run (svpRun 0x05 frame (fun d =>
    let a := frame.arg.toNat
    if frame.payload.length ≠ 4 || a % 4 ≠ 0 then d.answer 0x05 []
    else if d.safety.lock || !svpOnly a then d.answer 0x03 []
    else (d.svpSet a (ofBytes frame.payload)).answer 0 [])) s

/-! The external monitor. -/

/-- A heartbeat (R510): outside its window it raises EXT_MONITOR, and the window restarts from it; the first one arms. -/
def Dev.heartbeat (d : Dev) : Dev :=
  let x := d.safety
  let p := x.hbPeriod * 1000000
  let off : Int := (d.now : Int) - x.hbLast
  let edge : Option Int :=
    if !x.hbArmed then none else if off < (p : Int) / 2 then some (off - p / 2) else if (p : Int) < off then some (off - p) else none
  let d1 : Dev := match edge with | some e => d.smRecord 0x38 (locusEngine 0x0C 0) none (signed64 e) x.hbCount.toNat | none => d
  { d1 with safety := { d1.safety with hbArmed := decide (p ≠ 0), hbLast := d.now, hbLate := false, hbCount := x.hbCount + 1 } }

/-- HEARTBEAT (R510). -/
def execHeartbeat (frame : SvpFrame) (at_ : Nat) (s : State) : Host.Outcome State Fault Refusal :=
  run (svpRun 0x06 frame (fun d =>
    if frame.payload ≠ [] then d.answer 0x05 []
    else
      let d1 := d.tick at_
      d1.heartbeat.answer 0 (toBytes 4 (crc32c (toBytes 4 frame.arg.toNat ++ toBytes 2 d1.safety.hbCount.toNat))))) s

/-! Forces. -/

/-- Whether ARG is a mask of pipes. -/
def pipeMask (x : SvpFrame) : Bool := x.payload = [] && decide (x.arg.toNat < 2 ^ 12)

/-- FORCE_CLEAR (R503). -/
def execForceClear (frame : SvpFrame) (s : State) : Host.Outcome State Fault Refusal :=
  run (svpRun 0x10 frame (fun d =>
    if !pipeMask frame then d.answer 0x05 []
    else
      let m : BitVec 12 := frame.arg.setWidth 12
      ({ d with safety := { d.safety with force := d.safety.force &&& ~~~m, forceWanted := d.safety.forceWanted &&& ~~~m } } : Dev).answer 0 [])) s

/-- FORCE_SET (R503, R510): the pipes are forced from their next VBLANK. -/
def execForceSet (frame : SvpFrame) (s : State) : Host.Outcome State Fault Refusal :=
  run (svpRun 0x11 frame (fun d =>
    if !pipeMask frame then d.answer 0x05 []
    else ({ d with safety := { d.safety with forceWanted := d.safety.forceWanted ||| frame.arg.setWidth 12 } } : Dev).answer 0 [])) s

/-! Sleep, reset and freeze. -/

/-- SLEEP (R430, R510): STANDBY; from SHOWCASE, whose request has not ended, as well. -/
def execSleep (frame : SvpFrame) (s : State) : Host.Outcome State Fault Refusal :=
  run (svpRun 0x20 frame (fun d =>
    if !plainFrame frame then d.answer 0x05 []
    else if d.boot.stage ≠ .ready then d.answer 0x03 []
    else if d.power.reqGo && d.power.state ≠ .showcase then d.answer 0x04 []
    else (d.sleepRequest 2 true).answer 0 [])) s

/-- RESET (R442, R510). -/
def execReset (frame : SvpFrame) (env : BootEnv) (s : State) : Host.Outcome State Fault Refusal :=
  run (svpRun 0x21 frame (fun d =>
    if frame.payload ≠ [] || frame.arg ≠ 0xC1A5 then d.answer 0x05 [] else (d.resetAndBoot env).answer 0 [])) s

/-- FREEZE (R516): a request that is not honoured is answered as not permitted. -/
def execFreeze (frame : SvpFrame) (s : State) : Host.Outcome State Fault Refusal :=
  run (svpRun 0x22 frame (fun d =>
    if !plainFrame frame then d.answer 0x05 []
    else if d.freezeAllowed then (d.freezeRequest 1).answer 0 []
    else (d.freezeRequest 1).answer 0x03 [])) s

/-- READOUT (R516): the sequence again, while frozen. -/
def execReadout (frame : SvpFrame) (s : State) : Host.Outcome State Fault Refusal :=
  run (svpRun 0x23 frame (fun d =>
    if !plainFrame frame then d.answer 0x05 []
    else
      match d.freeze.at_ with
      | none => d.answer 0x03 []
      | some t =>
        let frames := d.readout t d.freeze.source
        ({ d with free := d.free + 1,
                  freeze := { d.freeze with frames := frames, nextEnd := d.now + Config.measured d.free % 1000001 + froTime frames + 1000000 } } : Dev).answer 0 [])) s

/-- FREEZE_N_ASSERT (R516, R531): low for at least 100 ns; ignored while the device is in reset. -/
def execFreezeNAssert (lowNs : Nat) (s : State) : Host.Outcome State Fault Refusal :=
  run (fun d => if d.boot.stage = .held || d.board.sysRstLow || decide (lowNs < 100) || d.power.state = .standby then d else d.freezeRequest 0) s

/-- READOUT_REPEAT (R516): the end frame every 1 ms. -/
def execReadoutRepeat (at_ : Nat) (s : State) : Host.Outcome State Fault Refusal :=
  run (fun d =>
    if d.freeze.at_.isNone || decide (Nat.max d.now at_ < d.freeze.nextEnd) then d
    else
      let d1 := d.tick at_
      { d1 with freeze := { d1.freeze with frames := d1.freeze.frames ++ d1.freeze.frames.getLast?.toList, nextEnd := d1.freeze.nextEnd + 1000000 } }) s

/-! Lifecycle and recovery. -/

/-- A move of the lifecycle that the next device reset makes (R451). -/
def Dev.lifecycleMove (d : Dev) (next : BitVec 2) (hash : List Byte) : Dev :=
  { d with boot := { d.boot with fuses := { d.boot.fuses with lcNext := some next, ownerHash := hash } } }

/-- LC_PROVISION (R451, R510): from BLANK to PROVISION, with the owner-key hash; once. -/
def execLcProvision (frame : SvpFrame) (s : State) : Host.Outcome State Fault Refusal :=
  run (svpRun 0x30 frame (fun d =>
    if frame.arg ≠ 0 || frame.payload.length ≠ 48 then d.answer 0x05 []
    else if d.boot.fuses.lifecycle ≠ 0 || d.boot.fuses.lcNext.isSome then d.answer 0x03 []
    else (d.lifecycleMove 1 frame.payload).answer 0 [])) s

/-- LC_RETURN (R451, R510): signed over the UID with the Zelmal key. -/
def execLcReturn (frame : SvpFrame) (s : State) : Host.Outcome State Fault Refusal :=
  run (svpRun 0x31 frame (fun d =>
    let key := frame.payload.take 97
    let f := d.boot.fuses
    if frame.arg ≠ 0 || frame.payload.length ≠ 193 then d.answer 0x05 []
    else if f.lifecycle ≠ 1 && f.lifecycle ≠ 2 then d.answer 0x03 []
    else if key ≠ Config.zelmalKey || !ecdsaVerify key (sha384 (toBytes 8 f.uid.toNat)) (frame.payload.drop 97) then d.answer 0x03 []
    else (d.lifecycleMove 3 f.ownerHash).answer 0 [])) s

/-- Bytes put into a list from an offset, the flash reading 0xFF where nothing was written. -/
def putBytes (l : List Byte) (off : Nat) (b : List Byte) : List Byte :=
  (l ++ List.replicate (off - l.length) 0xFF).take off ++ b ++ l.drop (off + b.length)

/-- Bytes written at an offset of slot A, in the pieces of 64 KiB that they fall in (R469). -/
def Slot.write (x : Slot) (off : Nat) (b : List Byte) : Slot :=
  let n := Nat.min b.length (65536 - off % 65536)
  let put (p : Tab (List Byte)) (k o : Nat) (b : List Byte) : Tab (List Byte) := if b = [] then p else tset p k (putBytes (tget p k []) o b)
  { x with pieces := put (put x.pieces (off / 65536) (off % 65536) (b.take n)) (off / 65536 + 1) 0 (b.drop n) }

/-- RECOVERY_WRITE (R453, R510): 1 to 4,096 bytes of a recovery image, in the 16 MiB of slot A (R468). -/
def execRecoveryWrite (frame : SvpFrame) (s : State) : Host.Outcome State Fault Refusal :=
  run (svpRun 0x32 frame (fun d =>
    let n := frame.payload.length
    if n = 0 || decide (4096 < n) || decide (2 ^ 24 < frame.arg.toNat + n) then d.answer 0x05 []
    else if d.boot.stage ≠ .recovery then d.answer 0x03 []
    else ({ d with flash := { d.flash with slotA := d.flash.slotA.write frame.arg.toNat frame.payload } } : Dev).answer 0 [])) s

/-- UNKNOWN_OPCODE (R495, R510): 0xA5 is discarded; a halted pair, a frame that fails its check and an unknown opcode are answered;
any other frame is a command of its own. -/
def execUnknownOpcode (opcode : Byte) (frame : SvpFrame) (s : State) : Host.Outcome State Fault Refusal :=
  run (fun d =>
    if !d.svpUp || opcode = 0xA5 then d
    else if d.safety.state = 2 then d.answer 0x06 []
    else if !frameOk opcode.toNat frame then d.answer 0x01 []
    else if svpOpcode opcode.toNat then d
    else d.answer 0x02 []) s

end Sys2Proof.Machine
end

