-- ==== Sys2Proof/Machine/Jtag.lean ====
section
/-! DEFINITION. The JTAG port (R514) and debug access (R515). -/

namespace Sys2Proof.Machine

/-! Instructions of IEEE 1149.1. The number of the instruction in force: 0 IDCODE, 1 BYPASS, 2 SAMPLE/PRELOAD, 3 EXTEST, 4 CLAMP,
5 HIGHZ, 6 DBG_CHALLENGE, 7 DBG_RESPONSE, 8 DBG_ACCESS. -/

/-- The instruction in force and what TDO returned. -/
def Dev.jtag (d : Dev) (n : Nat) (tdo : List Byte) : Dev := { d with probe := { d.probe with jtag := n, tdo := tdo } }

/-- IDCODE (R514). -/
def execIdcode (s : State) : Host.Outcome State Fault Refusal := run (fun d => d.jtag 0 (toBytes 4 Config.idcode.toNat)) s

/-- BYPASS (R514): one bit through the bypass register, which holds 0 when the instruction comes into force. -/
def execBypass (tdi : Bool) (s : State) : Host.Outcome State Fault Refusal :=
  run (fun d =>
    let out := d.probe.jtag = 1 && d.probe.bypassBit
    let d1 := d.jtag 1 [BitVec.ofNat 8 out.toNat]
    { d1 with probe := { d1.probe with bypassBit := tdi } }) s

/-- SAMPLE/PRELOAD (R514): the cells are loaded; the cells sampled, whose order the manual leaves to the BSDL file, are free. -/
def execSamplePreload (data : List Bool) (s : State) : Host.Outcome State Fault Refusal :=
  run (fun d =>
    let (d1, v) := d.free1
    let d2 := d1.jtag 2 (toBytes (ceilDiv data.length 8) v)
    { d2 with probe := { d2.probe with boundary := data } }) s

/-- EXTEST (R514): accepted only while SYS_RST_N is low; the outputs then follow the cells. -/
def execExtest (s : State) : Host.Outcome State Fault Refusal := run (fun d => if d.board.sysRstLow then d.jtag 3 [] else d) s

/-- CLAMP (R514). -/
def execClamp (s : State) : Host.Outcome State Fault Refusal := run (fun d => if d.board.sysRstLow then d.jtag 4 [] else d) s

/-- HIGHZ (R514). -/
def execHighz (s : State) : Host.Outcome State Fault Refusal := run (fun d => if d.board.sysRstLow then d.jtag 5 [] else d) s

/-! Debug access (R515). -/

/-- Whether DBG_ACCESS is open. -/
def Dev.debugOpen (d : Dev) : Bool := d.boot.fuses.lifecycle = 0 || d.boot.fuses.lifecycle = 1 || d.probe.unlocked

/-- Debug is unlocked: DEBUG, and DEBUG_UNLOCKED the first time. -/
def Dev.unlock (d : Dev) : Dev :=
  if d.probe.unlocked then d
  else ({ d with probe := { d.probe with unlocked := true } } : Dev).smRecord 0x39 (locusEngine 0x0C 0) none d.boot.fuses.lifecycle.toNat 0

/-- Whether the safety manager and the debug logic run. -/
def Dev.debugUp (d : Dev) : Bool := d.boot.stage ≠ .held && d.power.state ≠ .standby && d.freeze.at_.isNone

/-- DBG_CHALLENGE (R515): SHA-384 over the UID and 32 random bytes. -/
def execDbgChallenge (random : List Byte) (s : State) : Host.Outcome State Fault Refusal :=
  run (fun d =>
    if !d.debugUp || random.length ≠ 32 then d
    else
      let c := sha384 (toBytes 8 d.boot.fuses.uid.toNat ++ random)
      let d1 := d.jtag 6 c
      { d1 with probe := { d1.probe with challenge := some c } }) s

/-- Whether a response is correct. -/
def Dev.responseOk (d : Dev) (key sig : List Byte) : Bool :=
  let f := d.boot.fuses
  match d.probe.challenge with
  | none => false
  | some c =>
    key.length = 97 && sig.length = 96 && ecdsaVerify key (sha384 (c ++ toBytes 8 f.uid.toNat)) sig &&
      (if f.lifecycle = 2 then sha384 key = f.ownerHash else f.lifecycle = 3 && key = Config.zelmalKey)

/-- DBG_RESPONSE (R515): a failed one consumes its challenge; after three, unlocking is refused. -/
def execDbgResponse (key sig : List Byte) (s : State) : Host.Outcome State Fault Refusal :=
  run (fun d =>
    if !d.debugUp then d
    else
      let ok := d.responseOk key sig && decide (d.probe.failures < 3)
      let d1 := d.jtag 7 []
      let d2 : Dev := { d1 with probe := { d1.probe with challenge := none, failures := if ok then d1.probe.failures else d1.probe.failures + 1 } }
      if ok then d2.unlock else d2) s

/-- A change of one register of a context; a firmware thread that waits in HALT goes on waiting. -/
def Dev.pokeReg (d : Dev) (c : Ctx) (n : Nat) (v : W72) : Dev :=
  let h (q : Seq) : Seq := { q with bank := q.bank.wr n v }
  match c with
  | .firmware k t => d.setFwt k.val t.val { d.fwt k.val t.val with seq := h (d.fwt k.val t.val).seq }
  | _ => d.updSeq c h

/-- A debug action (R514); memory that is not there or cannot be read gives a free value. -/
def Dev.dbg (d : Dev) (a : DbgAction) : Dev :=
  match a with
  | .halt c => (if d.probe.halted.contains c then d else { d with probe := { d.probe with halted := d.probe.halted ++ [c] } }).jtag 8 []
  | .step c =>
    (if d.probe.halted.contains c && !d.probe.stepping.contains c then { d with probe := { d.probe with stepping := d.probe.stepping ++ [c] } } else d).jtag 8 []
  | .readReg c n => d.jtag 8 (match d.seq c with | some q => toBytes 9 (q.bank.rd n.toNat).toNat | none => [])
  | .writeReg c n v => (d.pokeReg c n.toNat v).jtag 8 []
  | .readMem addr =>
    if regionOf d.dram addr = .none ∨ d.dataCause addr 1 ≠ 0 then (let (d1, v) := d.free1; d1.jtag 8 (toBytes 1 v)) else d.jtag 8 (d.physRead addr 1)
  | .writeMem addr v => (if regionOf d.dram addr = .none ∨ d.isLost addr then d else d.physWrite addr [v]).jtag 8 []

/-- Whether a debug action reaches the internal control space. -/
def dbgControl (d : Dev) (a : DbgAction) : Option Nat :=
  match a with
  | .readMem addr => if regionOf d.dram addr = .control then some addr else none
  | .writeMem addr _ => if regionOf d.dram addr = .control then some addr else none
  | _ => none

/-- DBG_ACCESS (R514, R515): the first use unlocks; nothing while it is not open. -/
def execDbgAccess (a : DbgAction) (s : State) : Host.Outcome State Fault Refusal :=
  if s.dev.debugUp && s.dev.awake && s.dev.debugOpen then
    match dbgControl s.dev a with
    | some addr => .fault (.controlSpace addr)
    | none => run (fun d => d.unlock.dbg a) s
  else run (fun d => d) s

end Sys2Proof.Machine
end

