-- ==== Sys2Proof/Machine/Cancel.lean ====
section
/-! DEFINITION. The cancelling of released operations by a squash or a generation discard (R158): the safe points of the engines'
chapters (R196, R226, R254, R285, R319, R335, R355, R363, R413, R477, R508). -/

namespace Sys2Proof.Machine

/-- A started operation of target and type that is at its safe point at once or at the moment of the command, taken out of its
engine: the result it then supplies. Absent when its safe point is its end. -/
def Dev.takeOut (d : Dev) (o : Op) : Option (Dev × Option Nat) :=
  let id := o.id
  match o.target.toNat, o.kind.toNat with
  | 0x00, _ =>
    match d.passOf id with
    | some q => if q.tiles.all (fun t => t.2.used = 0 && d.unitWaves id t.1 = 0) then some (d.stopPass id, none) else none
    | none => some (d, none)
  | 0x01, 0x01 => some ((List.range 12).foldl (fun d p => d.setPc p { d.pc p with presents := (d.pc p).presents.filter (fun x => x.id ≠ id) }) d, none)
  | 0x01, 0x03 =>
    some ({ d with comp := { d.comp with handles := d.comp.handles.map (fun x => (x.1, if x.2.freeOp = some id then { x.2 with freeOp := none } else x.2)) } }, none)
  | 0x01, _ => some (d, none)
  | 0x04, 0x01 => some ({ d with disp := { d.disp with flips := d.disp.flips.filter (fun x => x.id ≠ id) } }, none)
  | 0x04, 0x04 => if d.disp.msgs.any (fun x => x.1 = id) then none else some (d, none)
  | 0x05, 0x05 => some ({ d with audio := { d.audio with waits := d.audio.waits.filter (fun x => x ≠ id) } }, none)
  | 0x06, 0x04 =>
    some ((List.range 16).foldl (fun d c => d.setHch c { d.hch c with queue := (d.hch c).queue.filter (fun b => b.id ≠ id) }) d, none)
  | 0x07, 0x01 =>
    (match (d.tfn o.fn).bufs.find? (fun b => b.id = id) with
     | some b => some (d.setTfn o.fn { d.tfn o.fn with bufs := (d.tfn o.fn).bufs.filter (fun x => x.id ≠ id) }, some b.filled)
     | none => some (d, some 0))
  | 0x0A, 0x01 =>
    let mine := d.safety.tests.filter (fun t => t.id = id)
    let d1 : Dev := { d with safety := { d.safety with tests := d.safety.tests.filter (fun t => t.id ≠ id) } }
    some ((List.range 16).foldl (fun d c =>
      if (d.coreOf c).inTest && mine.any (fun t => t.left.contains c) then d.setCore c { d.coreOf c with inTest := false, idleFrom := d.now } else d) d1, none)
  | 0x0A, _ => some (d, none)
  | _, _ => none

/-- A released operation cancelled. One that its engine has not started ends at once. -/
def Dev.cancelOp (d : Dev) (o : Op) : Dev :=
  if o.phase = .released then d.finish o.id 0x02 none
  else if o.target = 2 then (if d.runs 5 then (let (d1, k) := d.free1; d1.dmaCut (o.kind = 1) o k) else d)
  else if o.target = 3 then (let (d1, k) := d.free1; d1.vitrineCut o k)
  else if o.streamCut then (if d.audio.running && d.runs 7 then d else d.cutStream o)
  else
    match d.takeOut o with
    | some (d1, r) => d1.finish o.id 0x02 r
    | none => d

/-- OP_CANCEL (R158): the engine reaches the operation's next safe point. -/
def execOpCancel (id : OpId) (s : State) : Host.Outcome State Fault Refusal :=
  run (fun d =>
    match d.op id with
    | none => d
    | some o => if o.cancel && (o.phase = .released || o.phase = .started) then d.cancelOp o else d) s

end Sys2Proof.Machine
end

