-- ==== Sys2Proof/Machine/Scalar.lean ====
section
/-! DEFINITION. The scalar integer, float and fixed-point instructions, opcodes 0x00 to 0x39 (R52 to R58). -/

namespace Sys2Proof.Machine

/-- ILL: raises EX_ILLEGAL whatever its fields hold (R57). -/
def execIll (c : Ctx) (_ : Insn) (s : State) : Host.Outcome State Fault Refusal :=
  run (fun d =>
    if !d.canIssue c then d
    else
      match d.seq c with
      | none => d
      | some q =>
        let d := d.unstep c
        if limited c && decide (q.limit ≤ q.steps) then d.raise c (exc 0x09)
        else if !q.holds q.pc then d.raise c exPc
        else match d.fetch c q with | (d1, some e) => d1.raise c e | (d1, none) => d1.raise c exIllegal) s

/-- NOP (R57). -/
def execNop (c : Ctx) (w : Insn) (s : State) : Host.Outcome State Fault Refusal := run (scalar c (.bare .all) w (fun b => .ok b)) s

/-- MOV: a register or sext(imm) (R57). -/
def execMov (c : Ctx) (w : Insn) (s : State) : Host.Outcome State Fault Refusal :=
  run (scalarD c { formats := [0, 1], dst := .reg, a := .reg, b := .none, c := false, subs := 1, prof := .all } w
    (fun b => if w.fmt = 1 then w.imm else b.opA w)) s

/-- MOVHI: d[71:36] takes imm36 (R57). -/
def execMovhi (c : Ctx) (w : Insn) (s : State) : Host.Outcome State Fault Refusal :=
  run (scalarD c (.aImm 1) w (fun b => setFld (b.rd w.d) 36 36 w.low.toNat)) s

/-- ADD (R56, R58). -/
def execAdd (c : Ctx) (w : Insn) (s : State) : Host.Outcome State Fault Refusal :=
  run (scalarD c (.abImm 2) w (fun b => addW (w.s = 1) w.sat (b.opA w) (b.opB w))) s

/-- SUB (R56, R58). -/
def execSub (c : Ctx) (w : Insn) (s : State) : Host.Outcome State Fault Refusal :=
  run (scalarD c (.abImm 2) w (fun b => subW (w.s = 1) w.sat (b.opA w) (b.opB w))) s

/-- MUL (R56, R58). -/
def execMul (c : Ctx) (w : Insn) (s : State) : Host.Outcome State Fault Refusal :=
  run (scalarD c (.abImm 2) w (fun b => mulW (w.s = 1) w.sat (b.opA w) (b.opB w))) s

/-- MULH (R58). -/
def execMulh (c : Ctx) (w : Insn) (s : State) : Host.Outcome State Fault Refusal :=
  run (scalarD c (.ab 2) w (fun b => mulhW (w.s = 1) (b.opA w) (b.opB w))) s

/-- DIV (R58). -/
def execDiv (c : Ctx) (w : Insn) (s : State) : Host.Outcome State Fault Refusal :=
  run (scalarD c (.ab 2) w (fun b => divW (w.s = 1) (b.opA w) (b.opB w))) s

/-- REM (R58). -/
def execRem (c : Ctx) (w : Insn) (s : State) : Host.Outcome State Fault Refusal :=
  run (scalarD c (.ab 2) w (fun b => remW (w.s = 1) (b.opA w) (b.opB w))) s

/-- MIN (R57). -/
def execMin (c : Ctx) (w : Insn) (s : State) : Host.Outcome State Fault Refusal :=
  run (scalarD c (.abImm 2) w (fun b => minW (w.s = 1) (b.opA w) (b.opB w))) s

/-- MAX (R57). -/
def execMax (c : Ctx) (w : Insn) (s : State) : Host.Outcome State Fault Refusal :=
  run (scalarD c (.abImm 2) w (fun b => maxW (w.s = 1) (b.opA w) (b.opB w))) s

/-- ABS (R57). -/
def execAbs (c : Ctx) (w : Insn) (s : State) : Host.Outcome State Fault Refusal := run (scalarD c (.a1 1) w (fun b => absW w.sat (b.opA w))) s

/-- NEG: 0 - a (R57). -/
def execNeg (c : Ctx) (w : Insn) (s : State) : Host.Outcome State Fault Refusal := run (scalarD c (.a1 1) w (fun b => 0 - b.opA w)) s

/-- AND, with zext(imm) (R58). -/
def execAndW (c : Ctx) (w : Insn) (s : State) : Host.Outcome State Fault Refusal :=
  run (scalarD c (.abImm 1) w (fun b => b.opA w &&& b.opBZ w)) s

/-- OR (R58). -/
def execOrW (c : Ctx) (w : Insn) (s : State) : Host.Outcome State Fault Refusal :=
  run (scalarD c (.abImm 1) w (fun b => b.opA w ||| b.opBZ w)) s

/-- XOR (R58). -/
def execXorW (c : Ctx) (w : Insn) (s : State) : Host.Outcome State Fault Refusal :=
  run (scalarD c (.abImm 1) w (fun b => b.opA w ^^^ b.opBZ w)) s

/-- ANDN: a AND NOT b (R58). -/
def execAndn (c : Ctx) (w : Insn) (s : State) : Host.Outcome State Fault Refusal :=
  run (scalarD c (.abImm 1) w (fun b => b.opA w &&& ~~~(b.opBZ w))) s

/-- SHL (R58). -/
def execShl (c : Ctx) (w : Insn) (s : State) : Host.Outcome State Fault Refusal :=
  run (scalarD c (.abImm 1) w (fun b => shlW (b.opA w) (b.opB w))) s

/-- SHR (R58). -/
def execShr (c : Ctx) (w : Insn) (s : State) : Host.Outcome State Fault Refusal :=
  run (scalarD c (.abImm 1) w (fun b => shrW (b.opA w) (b.opB w))) s

/-- SAR (R58). -/
def execSar (c : Ctx) (w : Insn) (s : State) : Host.Outcome State Fault Refusal :=
  run (scalarD c (.abImm 1) w (fun b => sarW (b.opA w) (b.opB w))) s

/-- ROT (R58). -/
def execRot (c : Ctx) (w : Insn) (s : State) : Host.Outcome State Fault Refusal :=
  run (scalarD c (.abImm 1) w (fun b => rotW (b.opA w) (b.opB w))) s

/-- The position and width of BFX and BFI, and their bounds (R58). -/
def bfPos (w : Insn) : Nat := fld w.low 7 7
def bfWidth (w : Insn) : Nat := fld w.low 0 7
def bfOk (w : Insn) : Bool := decide (1 ≤ bfWidth w) && decide (bfWidth w ≤ 72) && decide (bfPos w + bfWidth w ≤ 72)

/-- BFX (R58). -/
def execBfx (c : Ctx) (w : Insn) (s : State) : Host.Outcome State Fault Refusal :=
  run (scalar c (.aImm 2) w (fun b =>
    if bfOk w then .ok (b.wr w.d (bfxW (w.s = 1) (bfPos w) (bfWidth w) (b.opA w))) else .error exIllegal)) s

/-- BFI (R58). -/
def execBfi (c : Ctx) (w : Insn) (s : State) : Host.Outcome State Fault Refusal :=
  run (scalar c (.aImm 1) w (fun b =>
    if bfOk w then .ok (b.wr w.d (setFld (b.rd w.d) (bfPos w) (bfWidth w) (b.opA w).toNat)) else .error exIllegal)) s

/-- CLZ (R57). -/
def execClz (c : Ctx) (w : Insn) (s : State) : Host.Outcome State Fault Refusal := run (scalarD c (.a1 1) w (fun b => clzW (b.opA w))) s

/-- POPC (R57). -/
def execPopc (c : Ctx) (w : Insn) (s : State) : Host.Outcome State Fault Refusal := run (scalarD c (.a1 1) w (fun b => popcW (b.opA w))) s

/-- The row of CMP and CMPU: the destination names a predicate register. -/
def Shape.cmp : Shape := { formats := [0, 1], dst := .pred, a := .reg, b := .reg, c := false, subs := 6, prof := .all }

/-- CMP: signed (R58). -/
def execCmp (c : Ctx) (w : Insn) (s : State) : Host.Outcome State Fault Refusal :=
  run (scalarK c .cmp w (fun b => compareInt w.s (b.opA w).toInt (b.opB w).toInt)) s

/-- CMPU: unsigned (R57). -/
def execCmpu (c : Ctx) (w : Insn) (s : State) : Host.Outcome State Fault Refusal :=
  run (scalarK c .cmp w (fun b => compareInt w.s (b.opA w).toNat (b.opB w).toNat)) s

/-- SEL: a or b by k[sub] (R57). -/
def execSel (c : Ctx) (w : Insn) (s : State) : Host.Outcome State Fault Refusal :=
  run (scalarD c (.ab 8) w (fun b => if b.rdK w.s then b.rd w.a else b.rd w.b)) s

/-- PLOG (R57). -/
def execPlog (c : Ctx) (w : Insn) (s : State) : Host.Outcome State Fault Refusal :=
  run (scalarK c { formats := [0], dst := .pred, a := .pred, b := .pred, c := false, subs := 7, prof := .all } w
    (fun b => plog w.s (b.rdK w.ka) (b.rdK w.kb))) s

/-! Packed floats: four F18 lanes (.h) or two F36 lanes (.s). -/

/-- A lane operation on the a, b and c operands. -/
def hLanes (h : Nat → Nat → Nat → Nat) (a b c : W72) : W72 := lanes 4 18 h a b c
def sLanes (h : Nat → Nat → Nat → Nat) (a b c : W72) : W72 := lanes 2 36 h a b c

/-- FADD.h (R52 to R55). -/
def execFaddH (c : Ctx) (w : Insn) (s : State) : Host.Outcome State Fault Refusal :=
  run (scalarD c (.abImm 2) w (fun b => hLanes (fun x y _ => f18.add w.rm w.sat (w.s = 1) x y) (b.opA w) (b.opB w) 0)) s

/-- FMUL.h (R52 to R54). -/
def execFmulH (c : Ctx) (w : Insn) (s : State) : Host.Outcome State Fault Refusal :=
  run (scalarD c (.ab 1) w (fun b => hLanes (fun x y _ => f18.mul w.rm w.sat x y) (b.opA w) (b.opB w) 0)) s

/-- FFMA.h (R52 to R55). -/
def execFfmaH (c : Ctx) (w : Insn) (s : State) : Host.Outcome State Fault Refusal :=
  run (scalarD c (.abc 4) w (fun b =>
    hLanes (fun x y z => f18.fma w.rm w.sat (fmaNegP w.s) (fmaNegC w.s) x y z) (b.opA w) (b.opB w) (b.opC w))) s

/-- FMNX.h (R54). -/
def execFmnxH (c : Ctx) (w : Insn) (s : State) : Host.Outcome State Fault Refusal :=
  run (scalarD c (.ab 2) w (fun b => hLanes (fun x y _ => f18.minmax (w.s = 1) x y) (b.opA w) (b.opB w) 0)) s

/-- FCMP.h (R57). -/
def execFcmpH (c : Ctx) (w : Insn) (s : State) : Host.Outcome State Fault Refusal :=
  run (scalarD c (.ab 5) w (fun b => hLanes (fun x y _ => maskOf 18 (f18.cmp w.s x y)) (b.opA w) (b.opB w) 0)) s

/-- FSGN.h (R57). -/
def execFsgnH (c : Ctx) (w : Insn) (s : State) : Host.Outcome State Fault Refusal :=
  run (scalarD c (.ab 3) w (fun b => hLanes (fun x y _ => f18.sgn w.s x y) (b.opA w) (b.opB w) 0)) s

/-- FCVT: the conversion table. -/
def execFcvt (c : Ctx) (w : Insn) (s : State) : Host.Outcome State Fault Refusal :=
  run (scalarD c (.a1 8) w (fun b => fcvtWord w.s w.rm (b.opA w))) s

/-- FADD.s (R52 to R55). -/
def execFaddS (c : Ctx) (w : Insn) (s : State) : Host.Outcome State Fault Refusal :=
  run (scalarD c (.ab 2) w (fun b => sLanes (fun x y _ => f36.add w.rm w.sat (w.s = 1) x y) (b.opA w) (b.opB w) 0)) s

/-- FMUL.s (R52 to R54). -/
def execFmulS (c : Ctx) (w : Insn) (s : State) : Host.Outcome State Fault Refusal :=
  run (scalarD c (.ab 1) w (fun b => sLanes (fun x y _ => f36.mul w.rm w.sat x y) (b.opA w) (b.opB w) 0)) s

/-- FFMA.s (R52 to R55). -/
def execFfmaS (c : Ctx) (w : Insn) (s : State) : Host.Outcome State Fault Refusal :=
  run (scalarD c (.abc 4) w (fun b =>
    sLanes (fun x y z => f36.fma w.rm w.sat (fmaNegP w.s) (fmaNegC w.s) x y z) (b.opA w) (b.opB w) (b.opC w))) s

/-- FMNX.s (R54). -/
def execFmnxS (c : Ctx) (w : Insn) (s : State) : Host.Outcome State Fault Refusal :=
  run (scalarD c (.ab 2) w (fun b => sLanes (fun x y _ => f36.minmax (w.s = 1) x y) (b.opA w) (b.opB w) 0)) s

/-- FCMP.s (R57). -/
def execFcmpS (c : Ctx) (w : Insn) (s : State) : Host.Outcome State Fault Refusal :=
  run (scalarD c (.ab 5) w (fun b => sLanes (fun x y _ => maskOf 36 (f36.cmp w.s x y)) (b.opA w) (b.opB w) 0)) s

/-- FDIV.s (R54, R55). -/
def execFdivS (c : Ctx) (w : Insn) (s : State) : Host.Outcome State Fault Refusal :=
  run (scalarD c (.ab 1) w (fun b => sLanes (fun x y _ => f36.div w.rm w.sat x y) (b.opA w) (b.opB w) 0)) s

/-- FSQRT.s (R54). -/
def execFsqrtS (c : Ctx) (w : Insn) (s : State) : Host.Outcome State Fault Refusal :=
  run (scalarD c (.a1 1) w (fun b => sLanes (fun x _ _ => f36.sqrt w.rm w.sat x) (b.opA w) 0 0)) s

/-- FSGN.s (R57). -/
def execFsgnS (c : Ctx) (w : Insn) (s : State) : Host.Outcome State Fault Refusal :=
  run (scalarD c (.ab 3) w (fun b => sLanes (fun x y _ => f36.sgn w.s x y) (b.opA w) (b.opB w) 0)) s

/-- SADD.q (R56). -/
def execSaddQ (c : Ctx) (w : Insn) (s : State) : Host.Outcome State Fault Refusal :=
  run (scalarD c (.ab 1) w (fun b => sLanes (fun x y _ => s36Sat (s36Val x + s36Val y)) (b.opA w) (b.opB w) 0)) s

/-- SSUB.q (R56). -/
def execSsubQ (c : Ctx) (w : Insn) (s : State) : Host.Outcome State Fault Refusal :=
  run (scalarD c (.ab 1) w (fun b => sLanes (fun x y _ => s36Sat (s36Val x - s36Val y)) (b.opA w) (b.opB w) 0)) s

/-- SMUL.q (R58). -/
def execSmulQ (c : Ctx) (w : Insn) (s : State) : Host.Outcome State Fault Refusal :=
  run (scalarD c (.ab 1) w (fun b => sLanes (fun x y _ => s36Mul w.rm x y) (b.opA w) (b.opB w) 0)) s

/-- SMAD.q (R58). -/
def execSmadQ (c : Ctx) (w : Insn) (s : State) : Host.Outcome State Fault Refusal :=
  run (scalarD c (.abc 1) w (fun b => sLanes (fun x y z => s36Mad w.rm x y z) (b.opA w) (b.opB w) (b.opC w))) s

/-- SABS.q (R56). -/
def execSabsQ (c : Ctx) (w : Insn) (s : State) : Host.Outcome State Fault Refusal :=
  run (scalarD c (.a1 2) w (fun b => sLanes (fun x _ _ => s36Abs w.s x) (b.opA w) 0 0)) s

/-- LANE (R57). -/
def execLane (c : Ctx) (w : Insn) (s : State) : Host.Outcome State Fault Refusal :=
  run (scalarD c (.aImm 4) w (fun b => laneW w.s w.low.toNat (b.opA w) (b.rd w.d))) s

/-- SWZ.h (R57). -/
def execSwzH (c : Ctx) (w : Insn) (s : State) : Host.Outcome State Fault Refusal :=
  run (scalarD c (.aImm 1) w (fun b => swzW w.low.toNat (b.opA w))) s

end Sys2Proof.Machine
end

