-- ==== Sys2Proof/Machine/Dispatch.lean ====
section
/-! DEFINITION. One arm per command: its meaning, called once. -/

namespace Sys2Proof.Machine

/-- The effect of a command on everything but the queue. -/
def exec (i : Instr) (s : State) : Host.Outcome State Fault Refusal :=
  match i with
  | .ill c w => Sys2Proof.Machine.execIll c w s
  | .nop c w => Sys2Proof.Machine.execNop c w s
  | .mov c w => Sys2Proof.Machine.execMov c w s
  | .movhi c w => Sys2Proof.Machine.execMovhi c w s
  | .add c w => Sys2Proof.Machine.execAdd c w s
  | .sub c w => Sys2Proof.Machine.execSub c w s
  | .mul c w => Sys2Proof.Machine.execMul c w s
  | .mulh c w => Sys2Proof.Machine.execMulh c w s
  | .div c w => Sys2Proof.Machine.execDiv c w s
  | .rem c w => Sys2Proof.Machine.execRem c w s
  | .min c w => Sys2Proof.Machine.execMin c w s
  | .max c w => Sys2Proof.Machine.execMax c w s
  | .abs c w => Sys2Proof.Machine.execAbs c w s
  | .neg c w => Sys2Proof.Machine.execNeg c w s
  | .andW c w => Sys2Proof.Machine.execAndW c w s
  | .orW c w => Sys2Proof.Machine.execOrW c w s
  | .xorW c w => Sys2Proof.Machine.execXorW c w s
  | .andn c w => Sys2Proof.Machine.execAndn c w s
  | .shl c w => Sys2Proof.Machine.execShl c w s
  | .shr c w => Sys2Proof.Machine.execShr c w s
  | .sar c w => Sys2Proof.Machine.execSar c w s
  | .rot c w => Sys2Proof.Machine.execRot c w s
  | .bfx c w => Sys2Proof.Machine.execBfx c w s
  | .bfi c w => Sys2Proof.Machine.execBfi c w s
  | .clz c w => Sys2Proof.Machine.execClz c w s
  | .popc c w => Sys2Proof.Machine.execPopc c w s
  | .cmp c w => Sys2Proof.Machine.execCmp c w s
  | .cmpu c w => Sys2Proof.Machine.execCmpu c w s
  | .sel c w => Sys2Proof.Machine.execSel c w s
  | .plog c w => Sys2Proof.Machine.execPlog c w s
  | .faddH c w => Sys2Proof.Machine.execFaddH c w s
  | .fmulH c w => Sys2Proof.Machine.execFmulH c w s
  | .ffmaH c w => Sys2Proof.Machine.execFfmaH c w s
  | .fmnxH c w => Sys2Proof.Machine.execFmnxH c w s
  | .fcmpH c w => Sys2Proof.Machine.execFcmpH c w s
  | .fsgnH c w => Sys2Proof.Machine.execFsgnH c w s
  | .fcvt c w => Sys2Proof.Machine.execFcvt c w s
  | .faddS c w => Sys2Proof.Machine.execFaddS c w s
  | .fmulS c w => Sys2Proof.Machine.execFmulS c w s
  | .ffmaS c w => Sys2Proof.Machine.execFfmaS c w s
  | .fmnxS c w => Sys2Proof.Machine.execFmnxS c w s
  | .fcmpS c w => Sys2Proof.Machine.execFcmpS c w s
  | .fdivS c w => Sys2Proof.Machine.execFdivS c w s
  | .fsqrtS c w => Sys2Proof.Machine.execFsqrtS c w s
  | .fsgnS c w => Sys2Proof.Machine.execFsgnS c w s
  | .saddQ c w => Sys2Proof.Machine.execSaddQ c w s
  | .ssubQ c w => Sys2Proof.Machine.execSsubQ c w s
  | .smulQ c w => Sys2Proof.Machine.execSmulQ c w s
  | .smadQ c w => Sys2Proof.Machine.execSmadQ c w s
  | .sabsQ c w => Sys2Proof.Machine.execSabsQ c w s
  | .lane c w => Sys2Proof.Machine.execLane c w s
  | .swzH c w => Sys2Proof.Machine.execSwzH c w s
  | .br c w => Sys2Proof.Machine.execBr c w s
  | .jmp c w => Sys2Proof.Machine.execJmp c w s
  | .call c w => Sys2Proof.Machine.execCall c w s
  | .callr c w => Sys2Proof.Machine.execCallr c w s
  | .ret c w => Sys2Proof.Machine.execRet c w s
  | .loop c w => Sys2Proof.Machine.execLoop c w s
  | .endProg c w => Sys2Proof.Machine.execEndProg c w s
  | .fail c w => Sys2Proof.Machine.execFail c w s
  | .yield c w => Sys2Proof.Machine.execYield c w s
  | .ld c w => Sys2Proof.Machine.execLd c w s
  | .lds c w => Sys2Proof.Machine.execLds c w s
  | .st c w => Sys2Proof.Machine.execSt c w s
  | .ldp c w => Sys2Proof.Machine.execLdp c w s
  | .atom c w => Sys2Proof.Machine.execAtom c w s
  | .pref c w => Sys2Proof.Machine.execPref c w s
  | .flush c w => Sys2Proof.Machine.execFlush c w s
  | .mfence c w => Sys2Proof.Machine.execMfence c w s
  | .enq c w => Sys2Proof.Machine.execEnq c w s
  | .kick c w => Sys2Proof.Machine.execKick c w s
  | .waitev c w => Sys2Proof.Machine.execWaitev c w s
  | .fence c w => Sys2Proof.Machine.execFence c w s
  | .txb c w => Sys2Proof.Machine.execTxb c w s
  | .txc c w => Sys2Proof.Machine.execTxc c w s
  | .txa c w => Sys2Proof.Machine.execTxa c w s
  | .sto c w => Sys2Proof.Machine.execSto c w s
  | .ldo c w => Sys2Proof.Machine.execLdo c w s
  | .snap c w => Sys2Proof.Machine.execSnap c w s
  | .rdtime c w => Sys2Proof.Machine.execRdtime c w s
  | .rdid c w => Sys2Proof.Machine.execRdid c w s
  | .vaddH c w => Sys2Proof.Machine.execVaddH c w s
  | .vmulH c w => Sys2Proof.Machine.execVmulH c w s
  | .vfmaH c w => Sys2Proof.Machine.execVfmaH c w s
  | .vmnxH c w => Sys2Proof.Machine.execVmnxH c w s
  | .vaddS c w => Sys2Proof.Machine.execVaddS c w s
  | .vmulS c w => Sys2Proof.Machine.execVmulS c w s
  | .vfmaS c w => Sys2Proof.Machine.execVfmaS c w s
  | .vrcp c w => Sys2Proof.Machine.execVrcp c w s
  | .vexl c w => Sys2Proof.Machine.execVexl c w s
  | .vtrg c w => Sys2Proof.Machine.execVtrg c w s
  | .viadd c w => Sys2Proof.Machine.execViadd c w s
  | .vlog c w => Sys2Proof.Machine.execVlog c w s
  | .vshf c w => Sys2Proof.Machine.execVshf c w s
  | .vcmp c w => Sys2Proof.Machine.execVcmp c w s
  | .vsel c w => Sys2Proof.Machine.execVsel c w s
  | .vcvt c w => Sys2Proof.Machine.execVcvt c w s
  | .vbcast c w => Sys2Proof.Machine.execVbcast c w s
  | .vred c w => Sys2Proof.Machine.execVred c w s
  | .vperm c w => Sys2Proof.Machine.execVperm c w s
  | .vldl c w => Sys2Proof.Machine.execVldl c w s
  | .vstl c w => Sys2Proof.Machine.execVstl c w s
  | .vldg c w => Sys2Proof.Machine.execVldg c w s
  | .vstg c w => Sys2Proof.Machine.execVstg c w s
  | .vatom c w => Sys2Proof.Machine.execVatom c w s
  | .tex c w => Sys2Proof.Machine.execTex c w s
  | .texl c w => Sys2Proof.Machine.execTexl c w s
  | .texg c w => Sys2Proof.Machine.execTexg c w s
  | .texf c w => Sys2Proof.Machine.execTexf c w s
  | .texq c w => Sys2Proof.Machine.execTexq c w s
  | .pxld c w => Sys2Proof.Machine.execPxld c w s
  | .pxst c w => Sys2Proof.Machine.execPxst c w s
  | .pxbld c w => Sys2Proof.Machine.execPxbld c w s
  | .ilkb c w => Sys2Proof.Machine.execIlkb c w s
  | .ilke c w => Sys2Proof.Machine.execIlke c w s
  | .kill c w => Sys2Proof.Machine.execKill c w s
  | .emit c w => Sys2Proof.Machine.execEmit c w s
  | .attr c w => Sys2Proof.Machine.execAttr c w s
  | .deriv c w => Sys2Proof.Machine.execDeriv c w s
  | .amac c w => Sys2Proof.Machine.execAmac c w s
  | .amsu c w => Sys2Proof.Machine.execAmsu c w s
  | .aldc c w => Sys2Proof.Machine.execAldc c w s
  | .adlr c w => Sys2Proof.Machine.execAdlr c w s
  | .adlw c w => Sys2Proof.Machine.execAdlw c w s
  | .ain c w => Sys2Proof.Machine.execAin c w s
  | .aout c w => Sys2Proof.Machine.execAout c w s
  | .arnd c w => Sys2Proof.Machine.execArnd c w s
  | .abiq c w => Sys2Proof.Machine.execAbiq c w s
  | .aramp c w => Sys2Proof.Machine.execAramp c w s
  | .apeak c w => Sys2Proof.Machine.execApeak c w s
  | .csrr c w => Sys2Proof.Machine.execCsrr c w s
  | .csrw c w => Sys2Proof.Machine.execCsrw c w s
  | .eret c w => Sys2Proof.Machine.execEret c w s
  | .pld c w => Sys2Proof.Machine.execPld c w s
  | .pst c w => Sys2Proof.Machine.execPst c w s
  | .ioinv c w => Sys2Proof.Machine.execIoinv c w s
  | .thrd c w => Sys2Proof.Machine.execThrd c w s
  | .ledg c w => Sys2Proof.Machine.execLedg c w s
  | .halt c w => Sys2Proof.Machine.execHalt c w s
  | .wdog c w => Sys2Proof.Machine.execWdog c w s
  | .waitevWake c at_ => Sys2Proof.Machine.execWaitevWake c at_ s
  | .fenceWake g => Sys2Proof.Machine.execFenceWake g s
  | .doorbell f k v => Sys2Proof.Machine.execDoorbell f k v s
  | .cmplHead f k v => Sys2Proof.Machine.execCmplHead f k v s
  | .ringCtl f k v => Sys2Proof.Machine.execRingCtl f k v s
  | .itemAdmit g => Sys2Proof.Machine.execItemAdmit g s
  | .itemStart g => Sys2Proof.Machine.execItemStart g s
  | .engineOpStart id => Sys2Proof.Machine.execEngineOpStart id s
  | .opComplete id => Sys2Proof.Machine.execOpComplete id s
  | .completionRecordWrite g => Sys2Proof.Machine.execCompletionRecordWrite g s
  | .completionCoalesceTimeout g at_ => Sys2Proof.Machine.execCompletionCoalesceTimeout g at_ s
  | .cmplRetry g => Sys2Proof.Machine.execCmplRetry g s
  | .epochBoundary at_ => Sys2Proof.Machine.execEpochBoundary at_ s
  | .sequencerCoreReset c => Sys2Proof.Machine.execSequencerCoreReset c s
  | .sequencerCoreRestart c at_ => Sys2Proof.Machine.execSequencerCoreRestart c at_ s
  | .flr f => Sys2Proof.Machine.execFlr f s
  | .resetReq f v => Sys2Proof.Machine.execResetReq f v s
  | .funcCtlReset host f v => Sys2Proof.Machine.execFuncCtlReset host f v s
  | .funcCtlHold host f v => Sys2Proof.Machine.execFuncCtlHold host f v s
  | .drainLimitExpiry f at_ => Sys2Proof.Machine.execDrainLimitExpiry f at_ s
  | .heldResetRelease f => Sys2Proof.Machine.execHeldResetRelease f s
  | .opCancel id => Sys2Proof.Machine.execOpCancel id s
  | .resetEnd f => Sys2Proof.Machine.execResetEnd f s
  | .linkDown p hotReset => Sys2Proof.Machine.execLinkDown p hotReset s
  | .vfEnableSet p => Sys2Proof.Machine.execVfEnableSet p s
  | .vfEnableClear p => Sys2Proof.Machine.execVfEnableClear p s
  | .numvfsWrite p v => Sys2Proof.Machine.execNumvfsWrite p v s
  | .d3hotTransition f enter => Sys2Proof.Machine.execD3hotTransition f enter s
  | .msixPendingSend f vec => Sys2Proof.Machine.execMsixPendingSend f vec s
  | .evStatusClear f v again => Sys2Proof.Machine.execEvStatusClear f v again s
  | .bar2Read f off len => Sys2Proof.Machine.execBar2Read f off len s
  | .bar2Write f off data => Sys2Proof.Machine.execBar2Write f off data s
  | .iommuRoot host f v => Sys2Proof.Machine.execIommuRoot host f v s
  | .invCtl host f v => Sys2Proof.Machine.execInvCtl host f v s
  | .invalidationDone f => Sys2Proof.Machine.execInvalidationDone f s
  | .dirtyCtlEnable host f v => Sys2Proof.Machine.execDirtyCtlEnable host f v s
  | .swap host f v => Sys2Proof.Machine.execSwap host f v s
  | .swapDone f => Sys2Proof.Machine.execSwapDone f s
  | .ptmCtlReq f v => Sys2Proof.Machine.execPtmCtlReq f v s
  | .ptmPeriodExpiry p at_ => Sys2Proof.Machine.execPtmPeriodExpiry p at_ s
  | .ptmResponse p ok sentAt hostTime delay => Sys2Proof.Machine.execPtmResponse p ok sentAt hostTime delay s
  | .memPart f v => Sys2Proof.Machine.execMemPart f v s
  | .memRetry f v => Sys2Proof.Machine.execMemRetry f v s
  | .memSpeed f v => Sys2Proof.Machine.execMemSpeed f v s
  | .pwrOpTarget f v => Sys2Proof.Machine.execPwrOpTarget f v s
  | .pwrReq f v => Sys2Proof.Machine.execPwrReq f v s
  | .pwrEreset f v => Sys2Proof.Machine.execPwrEreset f v s
  | .pwrDevreset f v env => Sys2Proof.Machine.execPwrDevreset f v env s
  | .bootLc f v => Sys2Proof.Machine.execBootLc f v s
  | .configRequest f reg write => Sys2Proof.Machine.execConfigRequest f reg write s
  | .latchRead r addr wide => Sys2Proof.Machine.execLatchRead r addr wide s
  | .registerWrite r addr wide v => Sys2Proof.Machine.execRegisterWrite r addr wide v s
  | .drawPass id => Sys2Proof.Machine.execDrawPass id s
  | .dispatch id => Sys2Proof.Machine.execDispatch id s
  | .clear id => Sys2Proof.Machine.execClear id s
  | .resolve id => Sys2Proof.Machine.execResolve id s
  | .poolBlockGrant id => Sys2Proof.Machine.execPoolBlockGrant id s
  | .compositorTileDispatch p tile core => Sys2Proof.Machine.execCompositorTileDispatch p tile core s
  | .tileEvict core at_ => Sys2Proof.Machine.execTileEvict core at_ s
  | .shaderCoreReset core => Sys2Proof.Machine.execShaderCoreReset core s
  | .shaderCoreReturn core at_ => Sys2Proof.Machine.execShaderCoreReturn core at_ s
  | .present id => Sys2Proof.Machine.execPresent id s
  | .bufRegister id => Sys2Proof.Machine.execBufRegister id s
  | .bufFree id => Sys2Proof.Machine.execBufFree id s
  | .handleFreed f h => Sys2Proof.Machine.execHandleFreed f h s
  | .frameComposeDeadline p at_ => Sys2Proof.Machine.execFrameComposeDeadline p at_ s
  | .stripWindowOpen p strip at_ => Sys2Proof.Machine.execStripWindowOpen p strip at_ s
  | .stripMiss p strip at_ => Sys2Proof.Machine.execStripMiss p strip at_ s
  | .vitrineWrite id => Sys2Proof.Machine.execVitrineWrite id s
  | .vblank p at_ => Sys2Proof.Machine.execVblank p at_ s
  | .firstActiveLine p at_ => Sys2Proof.Machine.execFirstActiveLine p at_ s
  | .flip id => Sys2Proof.Machine.execFlip id s
  | .modeRead id => Sys2Proof.Machine.execModeRead id s
  | .modeDefine id => Sys2Proof.Machine.execModeDefine id s
  | .portMsg id => Sys2Proof.Machine.execPortMsg id s
  | .portMsgTimeout id at_ => Sys2Proof.Machine.execPortMsgTimeout id at_ s
  | .adaptiveHoldEnd p at_ => Sys2Proof.Machine.execAdaptiveHoldEnd p at_ s
  | .glkFrameEdge g at64 pulse => Sys2Proof.Machine.execGlkFrameEdge g at64 pulse s
  | .glkEdgeTimeout p at_ => Sys2Proof.Machine.execGlkEdgeTimeout p at_ s
  | .teEdge t at_ widthNs falling => Sys2Proof.Machine.execTeEdge t at_ widthNs falling s
  | .teLost p at_ => Sys2Proof.Machine.execTeLost p at_ s
  | .hpdIrq q lowNs linkGood => Sys2Proof.Machine.execHpdIrq q lowNs linkGood s
  | .linkLoss q cause at_ => Sys2Proof.Machine.execLinkLoss q cause at_ s
  | .linkRetry q at_ => Sys2Proof.Machine.execLinkRetry q at_ s
  | .linkUp q at_ => Sys2Proof.Machine.execLinkUp q at_ s
  | .panelInitStep q ok at_ => Sys2Proof.Machine.execPanelInitStep q ok at_ s
  | .touchReport ch at_ id data => Sys2Proof.Machine.execTouchReport ch at_ id data s
  | .rawFrame ch at_ bytes => Sys2Proof.Machine.execRawFrame ch at_ bytes s
  | .reportTimeout ch at_ => Sys2Proof.Machine.execReportTimeout ch at_ s
  | .touchChannelStart ch desc => Sys2Proof.Machine.execTouchChannelStart ch desc s
  | .touchFaultRetry ch at_ bus => Sys2Proof.Machine.execTouchFaultRetry ch at_ bus s
  | .touchReceive id => Sys2Proof.Machine.execTouchReceive id s
  | .baselineSave id => Sys2Proof.Machine.execBaselineSave id s
  | .baselineRelearn id => Sys2Proof.Machine.execBaselineRelearn id s
  | .hapticSample at_ di => Sys2Proof.Machine.execHapticSample at_ di s
  | .slotLoad id => Sys2Proof.Machine.execSlotLoad id s
  | .slotRelease id => Sys2Proof.Machine.execSlotRelease id s
  | .hapticPlay id => Sys2Proof.Machine.execHapticPlay id s
  | .stream id => Sys2Proof.Machine.execStream id s
  | .hapTrig f c v => Sys2Proof.Machine.execHapTrig f c v s
  | .audioSample at_ => Sys2Proof.Machine.execAudioSample at_ s
  | .audioBlock at_ => Sys2Proof.Machine.execAudioBlock at_ s
  | .graphLoad id => Sys2Proof.Machine.execGraphLoad id s
  | .graphStop id => Sys2Proof.Machine.execGraphStop id s
  | .audioPlay id => Sys2Proof.Machine.execAudioPlay id s
  | .capture id => Sys2Proof.Machine.execCapture id s
  | .hsWait id => Sys2Proof.Machine.execHsWait id s
  | .asrcLock node at_ => Sys2Proof.Machine.execAsrcLock node at_ s
  | .portLost q mHz => Sys2Proof.Machine.execPortLost q mHz s
  | .portRecover q mHz => Sys2Proof.Machine.execPortRecover q mHz s
  | .hsSample n at_ det mv => Sys2Proof.Machine.execHsSample n at_ det mv s
  | .cvuPeriodEnd u at_ => Sys2Proof.Machine.execCvuPeriodEnd u at_ s
  | .cvuSample id => Sys2Proof.Machine.execCvuSample id s
  | .cvuSave id => Sys2Proof.Machine.execCvuSave id s
  | .cvuRestore id => Sys2Proof.Machine.execCvuRestore id s
  | .copy id => Sys2Proof.Machine.execCopy id s
  | .fill id => Sys2Proof.Machine.execFill id s
  | .dramRefresh ch rank bank => Sys2Proof.Machine.execDramRefresh ch rank bank s
  | .mr4Read ch at_ mr4 => Sys2Proof.Machine.execMr4Read ch at_ mr4 s
  | .powerDownEntry ch rank idleCk => Sys2Proof.Machine.execPowerDownEntry ch rank idleCk s
  | .selfRefreshGroupEntry g at_ => Sys2Proof.Machine.execSelfRefreshGroupEntry g at_ s
  | .selfRefreshGroupExit g at_ => Sys2Proof.Machine.execSelfRefreshGroupExit g at_ s
  | .driftRead ch at_ drift1024 linkCe linkUe => Sys2Proof.Machine.execDriftRead ch at_ drift1024 linkCe linkUe s
  | .retrainBurst ch at_ result => Sys2Proof.Machine.execRetrainBurst ch at_ result s
  | .speedChange g at_ => Sys2Proof.Machine.execSpeedChange g at_ s
  | .speedChangeForced g at_ => Sys2Proof.Machine.execSpeedChangeForced g at_ s
  | .dramStepDown ch working => Sys2Proof.Machine.execDramStepDown ch working s
  | .repartitionDone at_ => Sys2Proof.Machine.execRepartitionDone at_ s
  | .railSettled rail mv => Sys2Proof.Machine.execRailSettled rail mv s
  | .railTimeout rail mv at_ => Sys2Proof.Machine.execRailTimeout rail mv at_ s
  | .undervoltage rail mv ns => Sys2Proof.Machine.execUndervoltage rail mv ns s
  | .thermalTick at_ temps => Sys2Proof.Machine.execThermalTick at_ temps s
  | .shaderPowerGate core at_ => Sys2Proof.Machine.execShaderPowerGate core at_ s
  | .windDownDone at_ => Sys2Proof.Machine.execWindDownDone at_ s
  | .blockStopped at_ => Sys2Proof.Machine.execBlockStopped at_ s
  | .blockStopTimeout at_ => Sys2Proof.Machine.execBlockStopTimeout at_ s
  | .wake src at_ => Sys2Proof.Machine.execWake src at_ s
  | .vddAonRamp => Sys2Proof.Machine.execVddAonRamp s
  | .vddAonDrop lowNs mv => Sys2Proof.Machine.execVddAonDrop lowNs mv s
  | .sysRstNFall lowNs => Sys2Proof.Machine.execSysRstNFall lowNs s
  | .sysRstNRise at_ env => Sys2Proof.Machine.execSysRstNRise at_ env s
  | .perstN p high => Sys2Proof.Machine.execPerstN p high s
  | .sessionOpen id => Sys2Proof.Machine.execSessionOpen id s
  | .piecePut id => Sys2Proof.Machine.execPiecePut id s
  | .sessionStatus id => Sys2Proof.Machine.execSessionStatus id s
  | .sessionCancel id => Sys2Proof.Machine.execSessionCancel id s
  | .activate id at_ => Sys2Proof.Machine.execActivate id at_ s
  | .confirm id => Sys2Proof.Machine.execConfirm id s
  | .autoConfirmExpiry at_ => Sys2Proof.Machine.execAutoConfirmExpiry at_ s
  | .revert id => Sys2Proof.Machine.execRevert id s
  | .leaseExpiry at_ => Sys2Proof.Machine.execLeaseExpiry at_ s
  | .settingsWrite id => Sys2Proof.Machine.execSettingsWrite id s
  | .settingsRead id => Sys2Proof.Machine.execSettingsRead id s
  | .coreTest id failed => Sys2Proof.Machine.execCoreTest id failed s
  | .pipeTest id failed => Sys2Proof.Machine.execPipeTest id failed s
  | .dramTest id failed => Sys2Proof.Machine.execDramTest id failed s
  | .scheduledSelftest kind element passed => Sys2Proof.Machine.execScheduledSelftest kind element passed s
  | .lockstepMismatch at_ => Sys2Proof.Machine.execLockstepMismatch at_ s
  | .smRestartDone at_ => Sys2Proof.Machine.execSmRestartDone at_ s
  | .monitorFault m => Sys2Proof.Machine.execMonitorFault m s
  | .refclkLoss => Sys2Proof.Machine.execRefclkLoss s
  | .fwWatchdog core thread at_ => Sys2Proof.Machine.execFwWatchdog core thread at_ s
  | .heartbeatTimeout at_ => Sys2Proof.Machine.execHeartbeatTimeout at_ s
  | .scrub place correctable => Sys2Proof.Machine.execScrub place correctable s
  | .status frame => Sys2Proof.Machine.execStatus frame s
  | .faultRead frame => Sys2Proof.Machine.execFaultRead frame s
  | .faultAck frame => Sys2Proof.Machine.execFaultAck frame s
  | .regRead frame => Sys2Proof.Machine.execRegRead frame s
  | .regWrite frame => Sys2Proof.Machine.execRegWrite frame s
  | .heartbeat frame at_ => Sys2Proof.Machine.execHeartbeat frame at_ s
  | .forceClear frame => Sys2Proof.Machine.execForceClear frame s
  | .forceSet frame => Sys2Proof.Machine.execForceSet frame s
  | .sleep frame => Sys2Proof.Machine.execSleep frame s
  | .reset frame env => Sys2Proof.Machine.execReset frame env s
  | .freeze frame => Sys2Proof.Machine.execFreeze frame s
  | .readout frame => Sys2Proof.Machine.execReadout frame s
  | .lcProvision frame => Sys2Proof.Machine.execLcProvision frame s
  | .lcReturn frame => Sys2Proof.Machine.execLcReturn frame s
  | .recoveryWrite frame => Sys2Proof.Machine.execRecoveryWrite frame s
  | .svpWakePattern word edges => Sys2Proof.Machine.execSvpWakePattern word edges s
  | .freezeNAssert lowNs => Sys2Proof.Machine.execFreezeNAssert lowNs s
  | .readoutRepeat at_ => Sys2Proof.Machine.execReadoutRepeat at_ s
  | .dbgChallenge random => Sys2Proof.Machine.execDbgChallenge random s
  | .dbgResponse key sig => Sys2Proof.Machine.execDbgResponse key sig s
  | .dbgAccess a => Sys2Proof.Machine.execDbgAccess a s
  | .idcode => Sys2Proof.Machine.execIdcode s
  | .bypass tdi => Sys2Proof.Machine.execBypass tdi s
  | .samplePreload data => Sys2Proof.Machine.execSamplePreload data s
  | .extest => Sys2Proof.Machine.execExtest s
  | .clamp => Sys2Proof.Machine.execClamp s
  | .highz => Sys2Proof.Machine.execHighz s
  | .hostLinkL0 p => Sys2Proof.Machine.execHostLinkL0 p s
  | .linkTrainingFailed q at_ => Sys2Proof.Machine.execLinkTrainingFailed q at_ s
  | .refclkReturn at_ => Sys2Proof.Machine.execRefclkReturn at_ s
  | .offsetCorrectionEnd p at_ => Sys2Proof.Machine.execOffsetCorrectionEnd p at_ s
  | .sidebandReply id reply => Sys2Proof.Machine.execSidebandReply id reply s
  | .unknownOpcode opcode frame => Sys2Proof.Machine.execUnknownOpcode opcode frame s

end Sys2Proof.Machine
end

