-- ==== Sys2Proof/Machine/Step.lean ====
section
/-! DEFINITION. The step: the command at the front of the queue; on an empty queue a request that waited through a sleep
state (R439), or a nanosecond of DEVTIME (R40). -/

namespace Sys2Proof.Machine

/-- Whether the device serves host requests that waited (R439). -/
def Dev.serves (d : Dev) : Bool := d.awake

/-- A nanosecond with nothing commanded. -/
def Dev.idle (d : Dev) : Dev := { d with now := d.now + 1 }

/-- The machine's step. -/
def step (s : State) : Host.Outcome State Fault Refusal :=
  match s.pending with
  | c :: rest => exec c { s with pending := rest }
  | [] =>
    match s.dev.held with
    | c :: rest => if s.dev.serves then exec c { s with dev := { s.dev with held := rest } } else .next { s with dev := s.dev.idle }
    | [] => .next { s with dev := s.dev.idle }

/-- s with the command that a word spells at the front of its queue; s where the word spells none. -/
def State.withFetchWord (s : State) (nbits w : Nat) : State :=
  match Sys2Proof.decodeTableWord nbits w with
  | some i => { s with pending := i :: s.pending }
  | none => s

end Sys2Proof.Machine
end

