-- ==== Sys2Proof/Safety.lean ====
section
/-! DEFINITION. What a run must keep, and the words in which statements speak of a command: the invariant of the machine,
a machine that owes nothing but the command, and what a command leaves alone. -/

namespace Sys2Proof.Machine

/-- No access of a command is left over: no store, no read, no port. -/
def Dev.Quiet (d : Dev) : Prop := d.writes = [] ∧ d.bus.asks = [] ∧ d.bus.who = none

/-- The invariant: memory is in its canonical form, and no access of a command is left over. -/
def State.Inv (s : State) : Prop := Memory.wf s.dev.mem = true ∧ s.dev.Quiet

/-- Nothing else happens at the end of a command: no step of the update engine waits for a frame boundary (R479), and the
safety manager has decided neither a freeze nor a device reset (R502). -/
def Dev.Calm (d : Dev) : Prop := d.update.step = 0 ∧ d.safety.freezeWanted = false ∧ d.safety.escalate = false

/-- A calm machine without an access left over. -/
def State.Calm (s : State) : Prop := s.dev.Quiet ∧ s.dev.Calm

/-- A command answers a next state, the queue as it was, with a device of which P holds. -/
def Does (i : Instr) (s : State) (P : Dev → Prop) : Prop := ∃ t, exec i s = .next t ∧ t.pending = s.pending ∧ P t.dev

/-- What a translation may change: cached page-table entries, and the count of free values (R145); it leaves its reads with the lattice. -/
def Fetched (d e : Dev) : Prop :=
  { e with fns := d.fns, free := d.free, bus := d.bus } = d ∧ ∀ f, { e.fn f with tlb := [] } = { d.fn f with tlb := [] }

/-- The register banks of a context: the eight of a slice (R345), one for every other context that has a program counter. -/
def Dev.lanes (d : Dev) (c : Ctx) : List Bank :=
  match c with
  | .slice n => (d.slice n.val).seq.bank :: (d.slice n.val).others
  | _ => match d.seq c with | some q => [q.bank] | none => []

/-- The checks of R49, R59, R77 and R81 pass for an instruction on a context that can issue it, with program counter q. -/
def Dev.Ready (d : Dev) (c : Ctx) (sh : Shape) (w : Insn) (q : Seq) : Prop :=
  d.canIssue c = true ∧ d.seq c = some q ∧ (limited c = true → q.steps < q.limit) ∧ q.holds q.pc = true ∧
  ((d.unstep c).fetch c q).2 = none ∧ w.decodeExc sh c = none

/-- An instruction is ready and its predicate lets it execute (R47). -/
def Dev.Executes (d : Dev) (c : Ctx) (sh : Shape) (w : Insn) (q : Seq) : Prop := d.Ready c sh w q ∧ q.bank.holds w = true

/-- The device when a ready instruction takes effect: its step counted, after its fetch. -/
def Dev.issued (d : Dev) (c : Ctx) (q : Seq) : Dev := ((d.unstep c).fetch c q).1.updSeq c (fun q => { q with steps := q.steps + 1 })

/-- Only the program counter of a context has changed, with its banks, its stack and its steps; beside it a translation's
cached entries, free values and reads, and the step that a halted context has used (R514). -/
def OnlyProgram (c : Ctx) (d e : Dev) : Prop :=
  (∀ f, { e.fn f with tlb := [] } = { d.fn f with tlb := [] }) ∧ { e.probe with stepping := d.probe.stepping } = d.probe ∧
  match c with
  | .guest g =>
    { e with fns := d.fns, free := d.free, bus := d.bus, probe := d.probe, rings := d.rings } = d ∧ (∀ h, h ≠ g.val → e.ring h = d.ring h) ∧
    { e.ring g.val with thread := { (e.ring g.val).thread with seq := (d.ring g.val).thread.seq } } = d.ring g.val
  | .firmware k t =>
    { e with fns := d.fns, free := d.free, bus := d.bus, probe := d.probe, fw := d.fw } = d ∧
    (∀ j u, 4 * j + u ≠ 4 * k.val + t.val → e.fwt j u = d.fwt j u) ∧
    { e.fwt k.val t.val with seq := (d.fwt k.val t.val).seq, halted := (d.fwt k.val t.val).halted } = d.fwt k.val t.val
  | .wave i =>
    { e with fns := d.fns, free := d.free, bus := d.bus, probe := d.probe, raster := d.raster } = d ∧ { e.raster with waves := d.raster.waves } = d.raster ∧
    (∀ j, j ≠ i → e.wave j = d.wave j) ∧ (e.wave i).map (fun x => { x with seq := .idle }) = (d.wave i).map (fun x => { x with seq := .idle })
  | .slice n =>
    { e with fns := d.fns, free := d.free, bus := d.bus, probe := d.probe, audio := d.audio } = d ∧ { e.audio with slices := d.audio.slices } = d.audio ∧
    (∀ j, j ≠ n.val → e.slice j = d.slice j) ∧
    { e.slice n.val with seq := (d.slice n.val).seq, others := (d.slice n.val).others } = d.slice n.val

/-- What a scalar instruction that raises nothing does (R47, R57, R59, R345): each bank whose predicate holds takes the new registers,
the program goes to the next index, one step is counted, and nothing else changes. -/
def ScalarEffect (c : Ctx) (w : Insn) (val : Bank → Bank) (q : Seq) (d e : Dev) : Prop :=
  OnlyProgram c d e ∧
  e.seq c = some { q with bank := if q.bank.holds w then val q.bank else q.bank, pc := q.pc + 1, steps := q.steps + 1 } ∧
  e.lanes c = (d.lanes c).map (fun b => if b.holds w then val b else b)

end Sys2Proof.Machine
end

