-- ==== Sys2Proof/Certificates/Slice0/Obligations.lean ====
section
/-! DEFINITION. The statements for the provers. `Does i s P` says that command i completes in state s, with the queue as it was and a
device of which P holds; `s.Calm` says that nothing but the command is owed in s. A frame is written as an equation: the device
afterwards, with the named fields put back, is the device before. -/

open Sys2Proof Sys2Proof.Machine

/-! The machine. -/

/-- A step runs the command at the front of the queue on the state with the rest of the queue. -/
def Obligations.StepRunsFront : Prop :=
  ∀ (i : Instr) (rest : List Instr) (d : Dev), step { dev := d, pending := i :: rest } = exec i { dev := d, pending := rest }

/-- With no command waiting, and no host request held over from a sleep state or no device that serves it, a step is a nanosecond of
DEVTIME; a held request is served when the device serves (the model's choices: log entries 1 and 2). -/
def Obligations.StepIdles : Prop :=
  (∀ d : Dev, (d.held = [] ∨ d.serves = false) → step { dev := d, pending := [] } = .next { dev := { d with now := d.now + 1 }, pending := [] }) ∧
  (∀ (d : Dev) (i : Instr) (rest : List Instr), d.held = i :: rest → d.serves = true →
    step { dev := d, pending := [] } = exec i { dev := { d with held := rest }, pending := [] })

/-- Every step that answers a next state keeps the invariant: memory in its canonical form, no store left over. -/
def Obligations.StepKeepsInvariant : Prop :=
  ∀ s t : State, s.Inv → step s = .next t → t.Inv

/-- No command changes the queue of the commands that wait.
Every command completes in every state, but an access of PLD, PST or DBG_ACCESS to the internal control space, whose contents the
manual does not give; no command is refused. -/
def Obligations.CommandsKeepQueueAndStops : Prop :=
  (∀ (i : Instr) (s t : State), exec i s = .next t → t.pending = s.pending) ∧
  (∀ (i : Instr) (s : State), (∃ t, exec i s = .next t) ∨ ∃ a, exec i s = .fault (.controlSpace a)) ∧
  (∀ (i : Instr) (s : State) (a : Nat), exec i s = .fault (.controlSpace a) →
    (∃ c w, i = .pld c w) ∨ (∃ c w, i = .pst c w) ∨ ∃ x, i = .dbgAccess x)

/-- The state after reset keeps the invariant.
The values that the manual gives for device reset: rings disabled with all counters 0 and accession 1 next (R96), LEDGER idle, no
link up, nothing frozen, SYS_RST_N low and the boot not begun, DEVTIME 0. -/
def Obligations.ResetState : Prop :=
  (State.reset.Inv) ∧
  (∀ g : Nat, State.reset.dev.ring g = Ring.atReset) ∧
  Ring.atReset.enable = false ∧ Ring.atReset.tail = 0 ∧ Ring.atReset.acc = 0 ∧ Ring.atReset.head = 0 ∧ Ring.atReset.cmplTail = 0 ∧
  Ring.atReset.nextAcc = 1 ∧ Ring.atReset.doneAcc = 0 ∧ Ring.atReset.entries = [] ∧ Ring.atReset.thread.acc = none ∧
  (∀ p : Nat, (State.reset.dev.port p).link = .down ∧ (State.reset.dev.port p).numVfs = 0 ∧ (State.reset.dev.port p).vfEnable = false) ∧
  State.reset.dev.ops = [] ∧ State.reset.dev.commits = [] ∧ State.reset.dev.publication = 0 ∧ State.reset.dev.freeze.at_ = none ∧
  State.reset.dev.boot.stage = .held ∧ State.reset.dev.now = 0

/-- g0 reads zero and discards writes, k0 reads one and discards writes; every other register holds what was last written to it, and a
write leaves the others (R48). -/
def Obligations.RegisterBanks : Prop :=
  ∀ (b : Bank) (n m : Nat) (v : W72) (x : Bool),
    b.rd 0 = 0 ∧ b.rdK 0 = true ∧ b.wr 0 v = b ∧ b.wrK 0 x = b ∧
    (n ≠ 0 → (b.wr n v).rd n = v) ∧ (n ≠ m → (b.wr n v).rd m = b.rd m) ∧ (b.wr n v).k = b.k ∧
    (n ≠ 0 → n < 8 → (b.wrK n x).rdK n = x) ∧ (n < 8 → m < 8 → n ≠ m → (b.wrK n x).rdK m = b.rdK m) ∧ (b.wrK n x).g = b.g

/-! Scalar instructions. -/

/-- The instruction that `mk` builds completes on every context that can issue it, and writes d of each bank whose predicate holds with
a value of that bank; everything else is as `ScalarEffect` says. -/
def Sys2Proof.Machine.WritesD (mk : Ctx → Insn → Instr) (sh : Shape) (val : Insn → Bank → W72) : Prop :=
  ∀ (s : State) (c : Ctx) (w : Insn) (q : Seq), s.Calm → s.dev.Ready c sh w q →
    Does (mk c w) s (ScalarEffect c w (fun b => b.wr w.d (val w b)) q s.dev)

/-- The same of an instruction that writes the predicate register that its destination field names. -/
def Sys2Proof.Machine.WritesK (mk : Ctx → Insn → Instr) (sh : Shape) (val : Insn → Bank → Bool) : Prop :=
  ∀ (s : State) (c : Ctx) (w : Insn) (q : Seq), s.Calm → s.dev.Ready c sh w q →
    Does (mk c w) s (ScalarEffect c w (fun b => b.wrK w.kd (val w b)) q s.dev)

/-- NOP changes no register; MOV copies a register or the immediate; MOVHI replaces bits 71 to 36; SEL chooses by a predicate; LANE and
SWZ.h move lanes (R57).
Addition, subtraction and multiplication keep the low 72 bits, or saturate when SAT is 1; MULH keeps bits 143 to 72; a division by
zero gives all ones and its remainder the dividend; the least number divided by -1 gives itself (R56, R58).
What the integer operations compute (R56, R58): modulo 2^72 without SAT; with SAT the exact result, limited to the range.
AND, OR, XOR and ANDN take the immediate zero-extended; shifts by 72 or more give zero, or copies of the sign; ROT turns modulo 72;
BFX and BFI move a field that lies in the word, and raise EX_ILLEGAL for one that does not (R57, R58).
CMP compares signed, CMPU unsigned, and PLOG combines predicates; each writes one predicate register (R57, R58). -/
def Obligations.ScalarInstructions : Prop :=
  (∀ (s : State) (c : Ctx) (w : Insn) (q : Seq), s.Calm → s.dev.Ready c (.bare .all) w q → Does (.nop c w) s (ScalarEffect c w (fun b => b) q s.dev)) ∧
  WritesD .mov { formats := [0, 1], dst := .reg, a := .reg, b := .none, c := false, subs := 1, prof := .all }
    (fun w b => if w.fmt = 1 then w.low.signExtend 72 else b.rd w.a) ∧
  WritesD .movhi (.aImm 1) (fun w b => setFld (b.rd w.d) 36 36 w.low.toNat) ∧
  WritesD .sel (.ab 8) (fun w b => if b.rdK w.s then b.rd w.a else b.rd w.b) ∧
  WritesD .lane (.aImm 4) (fun w b => laneW w.s w.low.toNat (b.rd w.a) (b.rd w.d)) ∧
  WritesD .swzH (.aImm 1) (fun w b => swzW w.low.toNat (b.rd w.a)) ∧
  (WritesD .add (.abImm 2) (fun w b => addW (w.s = 1) w.sat (b.opA w) (b.opB w)) ∧
  WritesD .sub (.abImm 2) (fun w b => subW (w.s = 1) w.sat (b.opA w) (b.opB w)) ∧
  WritesD .mul (.abImm 2) (fun w b => mulW (w.s = 1) w.sat (b.opA w) (b.opB w)) ∧
  WritesD .mulh (.ab 2) (fun w b => mulhW (w.s = 1) (b.opA w) (b.opB w)) ∧
  WritesD .div (.ab 2) (fun w b => divW (w.s = 1) (b.opA w) (b.opB w)) ∧
  WritesD .rem (.ab 2) (fun w b => remW (w.s = 1) (b.opA w) (b.opB w)) ∧
  WritesD .min (.abImm 2) (fun w b => minW (w.s = 1) (b.opA w) (b.opB w)) ∧
  WritesD .max (.abImm 2) (fun w b => maxW (w.s = 1) (b.opA w) (b.opB w)) ∧
  WritesD .abs (.a1 1) (fun w b => absW w.sat (b.opA w)) ∧
  WritesD .neg (.a1 1) (fun w b => - b.rd w.a)) ∧
  (∀ a b : W72,
    (∀ u, (addW u false a b).toNat = (a.toNat + b.toNat) % 2 ^ 72) ∧ (∀ u, (mulW u false a b).toNat = a.toNat * b.toNat % 2 ^ 72) ∧
    (∀ u, (subW u false a b).toInt = (a.toInt - b.toInt).bmod (2 ^ 72)) ∧
    (addW true true a b).toNat = Nat.min (a.toNat + b.toNat) (2 ^ 72 - 1) ∧
    (subW true true a b).toNat = a.toNat - b.toNat ∧
    (mulW true true a b).toNat = Nat.min (a.toNat * b.toNat) (2 ^ 72 - 1) ∧
    (addW false true a b).toInt = max (-(2 ^ 71)) (min (2 ^ 71 - 1) (a.toInt + b.toInt)) ∧
    (subW false true a b).toInt = max (-(2 ^ 71)) (min (2 ^ 71 - 1) (a.toInt - b.toInt)) ∧
    (mulhW true a b).toNat = a.toNat * b.toNat / 2 ^ 72 ∧
    (mulhW false a b).toInt = a.toInt * b.toInt / 2 ^ 72 ∧
    (∀ u, divW u a 0 = BitVec.allOnes 72 ∧ remW u a 0 = a) ∧
    (b ≠ 0 → (divW true a b).toNat = a.toNat / b.toNat ∧ (remW true a b).toNat = a.toNat % b.toNat) ∧
    (b ≠ 0 → (remW false a b).toInt = a.toInt - a.toInt.tdiv b.toInt * b.toInt) ∧
    divW false (BitVec.intMin 72) (BitVec.allOnes 72) = BitVec.intMin 72) ∧
  (WritesD .andW (.abImm 1) (fun w b => b.rd w.a &&& (if w.fmt = 1 then w.low.zeroExtend 72 else b.rd w.b)) ∧
  WritesD .orW (.abImm 1) (fun w b => b.rd w.a ||| (if w.fmt = 1 then w.low.zeroExtend 72 else b.rd w.b)) ∧
  WritesD .xorW (.abImm 1) (fun w b => b.rd w.a ^^^ (if w.fmt = 1 then w.low.zeroExtend 72 else b.rd w.b)) ∧
  WritesD .andn (.abImm 1) (fun w b => b.rd w.a &&& ~~~(if w.fmt = 1 then w.low.zeroExtend 72 else b.rd w.b)) ∧
  WritesD .shl (.abImm 1) (fun w b => if 72 ≤ (b.opB w).toNat then 0 else b.rd w.a <<< (b.opB w).toNat) ∧
  WritesD .shr (.abImm 1) (fun w b => if 72 ≤ (b.opB w).toNat then 0 else b.rd w.a >>> (b.opB w).toNat) ∧
  WritesD .sar (.abImm 1) (fun w b => (b.rd w.a).sshiftRight (Nat.min (b.opB w).toNat 72)) ∧
  WritesD .rot (.abImm 1) (fun w b => (b.rd w.a).rotateRight ((b.opB w).toNat % 72)) ∧
  WritesD .clz (.a1 1) (fun w b => clzW (b.rd w.a)) ∧
  WritesD .popc (.a1 1) (fun w b => popcW (b.rd w.a)) ∧
  (∀ (s : State) (c : Ctx) (w : Insn) (q : Seq), s.Calm → s.dev.Ready c (.aImm 2) w q → bfOk w = true →
    Does (.bfx c w) s (ScalarEffect c w (fun b => b.wr w.d (bfxW (w.s = 1) (bfPos w) (bfWidth w) (b.rd w.a))) q s.dev)) ∧
  (∀ (s : State) (c : Ctx) (w : Insn) (q : Seq), s.Calm → s.dev.Ready c (.aImm 1) w q → bfOk w = true →
    Does (.bfi c w) s (ScalarEffect c w (fun b => b.wr w.d (setFld (b.rd w.d) (bfPos w) (bfWidth w) (b.rd w.a).toNat)) q s.dev))) ∧
  (WritesK .cmp .cmp (fun w b => compareInt w.s (b.opA w).toInt (b.opB w).toInt) ∧
  WritesK .cmpu .cmp (fun w b => compareInt w.s (b.opA w).toNat (b.opB w).toNat) ∧
  WritesK .plog { formats := [0], dst := .pred, a := .pred, b := .pred, c := false, subs := 7, prof := .all } (fun w b => plog w.s (b.rdK w.ka) (b.rdK w.kb)))

/-- The F18 instructions work on four lanes of 18 bits, each lane as the format's operation (R52 to R55, R57).
The F36 and S36 instructions work on two lanes of 36 bits, each lane as the format's operation (R52 to R58). -/
def Obligations.ScalarFloats : Prop :=
  (WritesD .faddH (.abImm 2) (fun w b => lanes 4 18 (fun x y _ => f18.add w.rm w.sat (w.s = 1) x y) (b.opA w) (b.opB w) 0) ∧
  WritesD .fmulH (.ab 1) (fun w b => lanes 4 18 (fun x y _ => f18.mul w.rm w.sat x y) (b.opA w) (b.opB w) 0) ∧
  WritesD .ffmaH (.abc 4) (fun w b =>
    lanes 4 18 (fun x y z => f18.fma w.rm w.sat (fmaNegP w.s) (fmaNegC w.s) x y z) (b.opA w) (b.opB w) (b.opC w)) ∧
  WritesD .fmnxH (.ab 2) (fun w b => lanes 4 18 (fun x y _ => f18.minmax (w.s = 1) x y) (b.opA w) (b.opB w) 0) ∧
  WritesD .fcmpH (.ab 5) (fun w b => lanes 4 18 (fun x y _ => maskOf 18 (f18.cmp w.s x y)) (b.opA w) (b.opB w) 0) ∧
  WritesD .fsgnH (.ab 3) (fun w b => lanes 4 18 (fun x y _ => f18.sgn w.s x y) (b.opA w) (b.opB w) 0) ∧
  WritesD .fcvt (.a1 8) (fun w b => fcvtWord w.s w.rm (b.opA w))) ∧
  (WritesD .faddS (.ab 2) (fun w b => lanes 2 36 (fun x y _ => f36.add w.rm w.sat (w.s = 1) x y) (b.opA w) (b.opB w) 0) ∧
  WritesD .fmulS (.ab 1) (fun w b => lanes 2 36 (fun x y _ => f36.mul w.rm w.sat x y) (b.opA w) (b.opB w) 0) ∧
  WritesD .ffmaS (.abc 4) (fun w b =>
    lanes 2 36 (fun x y z => f36.fma w.rm w.sat (fmaNegP w.s) (fmaNegC w.s) x y z) (b.opA w) (b.opB w) (b.opC w)) ∧
  WritesD .fmnxS (.ab 2) (fun w b => lanes 2 36 (fun x y _ => f36.minmax (w.s = 1) x y) (b.opA w) (b.opB w) 0) ∧
  WritesD .fcmpS (.ab 5) (fun w b => lanes 2 36 (fun x y _ => maskOf 36 (f36.cmp w.s x y)) (b.opA w) (b.opB w) 0) ∧
  WritesD .fdivS (.ab 1) (fun w b => lanes 2 36 (fun x y _ => f36.div w.rm w.sat x y) (b.opA w) (b.opB w) 0) ∧
  WritesD .fsqrtS (.a1 1) (fun w b => lanes 2 36 (fun x _ _ => f36.sqrt w.rm w.sat x) (b.opA w) 0 0) ∧
  WritesD .fsgnS (.ab 3) (fun w b => lanes 2 36 (fun x y _ => f36.sgn w.s x y) (b.opA w) (b.opB w) 0) ∧
  WritesD .saddQ (.ab 1) (fun w b => lanes 2 36 (fun x y _ => s36Sat (s36Val x + s36Val y)) (b.opA w) (b.opB w) 0) ∧
  WritesD .ssubQ (.ab 1) (fun w b => lanes 2 36 (fun x y _ => s36Sat (s36Val x - s36Val y)) (b.opA w) (b.opB w) 0) ∧
  WritesD .smulQ (.ab 1) (fun w b => lanes 2 36 (fun x y _ => s36Mul w.rm x y) (b.opA w) (b.opB w) 0) ∧
  WritesD .smadQ (.abc 1) (fun w b => lanes 2 36 (fun x y z => s36Mad w.rm x y z) (b.opA w) (b.opB w) (b.opC w)) ∧
  WritesD .sabsQ (.a1 2) (fun w b => lanes 2 36 (fun x _ _ => s36Abs w.s x) (b.opA w) 0 0))

/-! Control flow and exceptions. -/

/-- Only the program counter of c has changed: it is r, and the banks of c are l. -/
def Sys2Proof.Machine.ProgramIs (c : Ctx) (d e : Dev) (r : Seq) (l : List Bank) : Prop := OnlyProgram c d e ∧ e.seq c = some r ∧ e.lanes c = l

/-- Only the thread of ring g and the entry of its item a have changed: the thread is free, and the program has ended with a status and a
result; cached translations, free values, events of the function and a used step beside it. -/
def Sys2Proof.Machine.ProgramEnded (g : Fin 256) (a : Nat) (status : BitVec 8) (result : Option (BitVec 64)) (d e : Dev) : Prop :=
  (e.ring g.val).thread = Thread.idle ∧
  (e.ring g.val).entries = (d.ring g.val).entries.map (fun x => if x.acc = a then { x with phase := .ended, progStatus := status, result := result } else x) ∧
  { e.ring g.val with thread := (d.ring g.val).thread, entries := (d.ring g.val).entries } = d.ring g.val ∧
  (∀ h, h ≠ g.val → e.ring h = d.ring h) ∧ { e with rings := d.rings, fns := d.fns, free := d.free, probe := d.probe, bus := d.bus } = d ∧
  ∀ f, { e.fn f with tlb := [] } = { d.fn f with tlb := [] }

/-- An instruction word of an opcode and fields decodes to the row of the opcode map with those fields; a reserved opcode acts as ILL, or on a guest
thread in the privileged range as a privileged opcode (R46, R49, R51, R57).
The checks before an instruction executes, in their order (R47, R49, R59, R81): the step limit raises EX_STEPS, an index outside
the program EX_PC, a word that does not decode its exception, all before the predicate; with the predicate false nothing happens but a
step to the next index. -/
def Obligations.ChecksInOrder : Prop :=
  (∀ (op : BitVec 8) (w : Insn), Insn.ofWord (Insn.word op w) = w) ∧
  (∀ (c : Ctx) (op : BitVec 8) (w : Insn), decodeInsn c (Insn.word op w) =
    match opcodeRow op.toNat with
    | some row => row c w
    | none => if c.isGuest && decide (0xF0 ≤ op.toNat) then .wdog c w else .ill c w) ∧
  (∀ (c : Ctx) (sh : Shape) (w : Insn) (control : Bool) (eff : Dev → Dev × Except Exc Flow) (d : Dev) (q : Seq),
    d.canIssue c = true → d.seq c = some q →
    (limited c = true → q.limit ≤ q.steps → issue c sh w control eff d = (d.unstep c).raise c (exc 0x09)) ∧
    ((limited c = true → q.steps < q.limit) → q.holds q.pc = false → issue c sh w control eff d = (d.unstep c).raise c exPc) ∧
    ((limited c = true → q.steps < q.limit) → q.holds q.pc = true → ((d.unstep c).fetch c q).2 = none → ∀ x, w.decodeExc sh c = some x →
      issue c sh w control eff d = ((d.unstep c).fetch c q).1.raise c (exc x.toNat)) ∧
    ((limited c = true → q.steps < q.limit) → q.holds q.pc = true → ((d.unstep c).fetch c q).2 = none → w.decodeExc sh c = none →
      q.bank.holds w = false → sh.prof ≠ .v → (∀ n, c = .slice n → control = true) →
      ProgramIs c d (issue c sh w control eff d) { q with pc := q.pc + 1, steps := q.steps + 1 } (d.lanes c)))

/-- An exception ends the program of a guest thread with the status of R77's table, or R144's for a table entry, and the code with the instruction's address; on a firmware
thread EPC, ECODE and EADDR are written and the thread goes on at EVEC, or stops when ECODE is not zero (R77, R78, R144).
ILL raises EX_ILLEGAL and FAIL raises EX_FAIL with its immediate in the result, on guest and firmware threads (R57, R62, R77, R78). -/
def Obligations.ExceptionsAndFailures : Prop :=
  (∀ (d : Dev) (g : Fin 256) (a : Nat) (e : Exc), (d.ring g.val).thread.acc = some a →
    ProgramEnded g a e.status
      (some (e.own.getD (excResult (BitVec.ofNat 8 e.code) ((d.ring g.val).thread.seq.byteAddr (d.ring g.val).thread.seq.pc)))) d (d.raise (.guest g) e)) ∧
  (∀ (d : Dev) (k : Fin 10) (t : Fin 4) (e : Exc), (d.fwt k.val t.val).ecode = 0 →
    (d.raise (.firmware k t) e).fwt k.val t.val =
      { d.fwt k.val t.val with
        epc := BitVec.ofNat 72 (d.fwt k.val t.val).seq.pc, ecode := BitVec.ofNat 72 e.code, eaddr := BitVec.ofNat 72 e.addr
        seq := { (d.fwt k.val t.val).seq with pc := fld (d.fwt k.val t.val).evec 0 24 } } ∧
    { d.raise (.firmware k t) e with fw := d.fw } = d ∧
    ∀ j u, 4 * j + u ≠ 4 * k.val + t.val → (d.raise (.firmware k t) e).fwt j u = d.fwt j u) ∧
  (∀ (d : Dev) (k : Fin 10) (t : Fin 4) (e : Exc), (d.fwt k.val t.val).ecode ≠ 0 →
    ((d.raise (.firmware k t) e).fwt k.val t.val).started = false) ∧
  (∀ e : Exc, e.cause = 0 → e.status = excStatus (BitVec.ofNat 8 e.code)) ∧
  (∀ cause va : Nat, 0 < cause → cause ≠ 0xB → cause ≠ 0xC → (memExc cause va).status = excStatus (causeExc cause)) ∧
  (∀ va : Nat, (memExc 0xB va).code = 0x06 ∧ (memExc 0xB va).status = 0x22 ∧ (memExc 0xC va).code = 0x06 ∧ (memExc 0xC va).status = 0x21) ∧
  excStatus 0x01 = 0x10 ∧ excStatus 0x02 = 0x10 ∧ excStatus 0x03 = 0x10 ∧ excStatus 0x04 = 0x10 ∧ excStatus 0x05 = 0x10 ∧ excStatus 0x06 = 0x20 ∧
  excStatus 0x07 = 0x22 ∧ excStatus 0x08 = 0x21 ∧ excStatus 0x09 = 0x12 ∧ excStatus 0x0A = 0x10 ∧ excStatus 0x0B = 0x10 ∧ excStatus 0x0C = 0x10 ∧
  excStatus 0x0D = 0x10 ∧ excStatus 0x0E = 0x10 ∧ excStatus 0x0F = 0x10 ∧
  (∀ (code : BitVec 8) (addr : Nat), fld (excResult code addr) 56 8 = code.toNat ∧ fld (excResult code addr) 48 8 = 0 ∧ fld (excResult code addr) 0 48 = addr % 2 ^ 48) ∧
  (∀ (s : State) (g : Fin 256) (w : Insn) (q : Seq) (a : Nat), s.Calm → s.dev.canIssue (.guest g) = true → s.dev.seq (.guest g) = some q →
    (s.dev.ring g.val).thread.acc = some a → q.steps < q.limit → q.holds q.pc = true → ((s.dev.unstep (.guest g)).fetch (.guest g) q).2 = none →
    Does (.ill (.guest g) w) s (ProgramEnded g a 0x10 (some (excResult 0x01 (q.byteAddr q.pc))) s.dev)) ∧
  (∀ (s : State) (k : Fin 10) (t : Fin 4) (w : Insn) (q : Seq), s.Calm → s.dev.canIssue (.firmware k t) = true → s.dev.seq (.firmware k t) = some q →
    q.holds q.pc = true → (s.dev.fwt k.val t.val).ecode = 0 →
    Does (.ill (.firmware k t) w) s (fun e =>
      e.fwt k.val t.val = { s.dev.fwt k.val t.val with epc := BitVec.ofNat 72 q.pc, ecode := 1, eaddr := 0, seq := { q with pc := fld (s.dev.fwt k.val t.val).evec 0 24 } } ∧
      { e with fw := s.dev.fw, probe := s.dev.probe, bus := s.dev.bus } = s.dev)) ∧
  (∀ (s : State) (g : Fin 256) (w : Insn) (q : Seq) (a : Nat), s.Calm →
    s.dev.Executes (.guest g) { formats := [1], dst := .none, a := .none, b := .none, c := false, subs := 1, prof := .all } w q →
    (s.dev.ring g.val).thread.acc = some a →
    Does (.fail (.guest g) w) s (ProgramEnded g a 0x10 (some (BitVec.ofNat 64 (0x0F * 2 ^ 56 + w.low.toNat))) s.dev)) ∧
  (∀ (s : State) (k : Fin 10) (t : Fin 4) (w : Insn) (q : Seq), s.Calm →
    s.dev.Executes (.firmware k t) { formats := [1], dst := .none, a := .none, b := .none, c := false, subs := 1, prof := .all } w q →
    (s.dev.fwt k.val t.val).ecode = 0 →
    Does (.fail (.firmware k t) w) s (fun e =>
      e.fwt k.val t.val = { s.dev.fwt k.val t.val with
        halted := false, epc := BitVec.ofNat 72 q.pc, ecode := 0x0F, eaddr := 0
        seq := { q with steps := q.steps + 1, pc := fld (s.dev.fwt k.val t.val).evec 0 24 } } ∧
      { e with fw := s.dev.fw, probe := s.dev.probe, bus := s.dev.bus } = s.dev))

/-- A branch that `mk` builds goes to its target and changes nothing else. -/
def Sys2Proof.Machine.GoesTo (mk : Ctx → Insn → Instr) (sh : Shape) (target : Insn → Seq → Int) : Prop :=
  ∀ (s : State) (c : Ctx) (w : Insn) (q : Seq), s.Calm → s.dev.Executes c sh w q → q.holds (target w q) = true →
    Does (mk c w) s (fun e => ProgramIs c s.dev e { q with pc := (target w q).toNat, steps := q.steps + 1 } (s.dev.lanes c))

/-- A call goes to its target with the next index on the call stack, when fewer than sixteen are there. -/
def Sys2Proof.Machine.CallsTo (mk : Ctx → Insn → Instr) (sh : Shape) (target : Insn → Seq → Int) : Prop :=
  ∀ (s : State) (c : Ctx) (w : Insn) (q : Seq), s.Calm → s.dev.Executes c sh w q → q.stack.length < 16 → q.holds (target w q) = true →
    Does (mk c w) s (fun e =>
      ProgramIs c s.dev e { q with pc := (target w q).toNat, stack := (q.pc + 1) :: q.stack, steps := q.steps + 1 } (s.dev.lanes c))

/-- A call stack that a program counter finds full, or empty, when an instruction of a shape takes effect raises EX_STACK, on every thread, wave and
slice (R60). -/
def Sys2Proof.Machine.StackRaises (mk : Ctx → Insn → Instr) (sh : Shape) (when : Seq → Prop) : Prop :=
  ∀ (s : State) (c : Ctx) (w : Insn) (q : Seq), s.dev.Executes c sh w q → when q →
    exec (mk c w) s = .next (commit (mpSeq, 0) s ((s.dev.issued c q).raise c exStack).settle)

/-- The call stack is empty where a program is entered: on a guest thread, in a wave, on a slice and on a firmware thread (R60). -/
def Sys2Proof.Machine.EntersWithEmptyStack : Prop :=
  (∀ (d : Dev) (g : Nat) (e : Entry), ((d.beginRun g e).ring g).thread.seq.stack = []) ∧
  (∀ (g : WaveProg) (a b n : Nat), (waveSeq g a b n).stack = []) ∧
  (∀ (d : Dev) (g : Graph), d.audio.active = some g → ∀ p ∈ g.progs, (d.startSlices.slice p.1).seq.stack = []) ∧
  (∀ core thread : Nat, (FwThread.atReset core thread).seq.stack = [])

/-- Branches, jumps, calls, returns and LOOP set the program counter inside the program (R59, R60); YIELD goes on (R57).
A target outside the program raises EX_PC, a push onto a full call stack and a RET on an empty one EX_STACK, in every context; a guest's program
ends with it; the call stack is empty at program entry (R59, R60, R77). -/
def Obligations.ControlTransfers : Prop :=
  (GoesTo .br (.branch .none) (fun w q => (q.pc : Int) + toSigned 36 w.low.toNat) ∧
  GoesTo .jmp .jump (fun w q => (fld (q.bank.rd w.a) 0 24 : Nat)) ∧
  CallsTo .call (.branch .none) (fun w q => (q.pc : Int) + toSigned 36 w.low.toNat) ∧
  CallsTo .callr .jump (fun w q => (fld (q.bank.rd w.a) 0 24 : Nat)) ∧
  (∀ (s : State) (c : Ctx) (w : Insn) (q : Seq) (i : Nat) (r : List Nat), s.Calm → s.dev.Executes c (.bare .all) w q → q.stack = i :: r → q.holds i = true →
    Does (.ret c w) s (fun e => ProgramIs c s.dev e { q with pc := i, stack := r, steps := q.steps + 1 } (s.dev.lanes c))) ∧
  (∀ (s : State) (c : Ctx) (w : Insn) (q : Seq), s.Calm → s.dev.Executes c (.branch .reg) w q → q.bank.rd w.a - 1 = 0 →
    Does (.loop c w) s (fun e =>
      ProgramIs c s.dev e { q with bank := q.bank.wr w.a 0, pc := q.pc + 1, steps := q.steps + 1 } ((s.dev.lanes c).map (fun b => b.wr w.a (b.rd w.a - 1))))) ∧
  (∀ (s : State) (c : Ctx) (w : Insn) (q : Seq), s.Calm → s.dev.Executes c (.branch .reg) w q → q.bank.rd w.a - 1 ≠ 0 →
    q.holds ((q.pc : Int) + toSigned 36 w.low.toNat) = true →
    Does (.loop c w) s (fun e =>
      ProgramIs c s.dev e
        { q with bank := q.bank.wr w.a (q.bank.rd w.a - 1), pc := ((q.pc : Int) + toSigned 36 w.low.toNat).toNat, steps := q.steps + 1 }
        ((s.dev.lanes c).map (fun b => b.wr w.a (b.rd w.a - 1))))) ∧
  (∀ (s : State) (c : Ctx) (w : Insn) (q : Seq), s.Calm → s.dev.Executes c (.bare .all) w q →
    Does (.yield c w) s (fun e => ProgramIs c s.dev e { q with pc := q.pc + 1, steps := q.steps + 1 } (s.dev.lanes c)))) ∧
  (Sys2Proof.Machine.StackRaises .call (.branch .none) (fun q => 16 ≤ q.stack.length) ∧
  Sys2Proof.Machine.StackRaises .callr .jump (fun q => 16 ≤ q.stack.length) ∧
  Sys2Proof.Machine.StackRaises .ret (.bare .all) (fun q => q.stack = []) ∧
  exStack.code = 4 ∧ Sys2Proof.Machine.EntersWithEmptyStack ∧
  (∀ (s : State) (g : Fin 256) (w : Insn) (q : Seq) (a : Nat), s.Calm → s.dev.Executes (.guest g) (.branch .none) w q →
    (s.dev.ring g.val).thread.acc = some a → q.holds ((q.pc : Int) + toSigned 36 w.low.toNat) = false →
    Does (.br (.guest g) w) s (ProgramEnded g a 0x10 (some (excResult 0x03 (q.byteAddr q.pc))) s.dev)) ∧
  (∀ (s : State) (g : Fin 256) (w : Insn) (q : Seq) (a : Nat), s.Calm → s.dev.Executes (.guest g) (.branch .none) w q →
    (s.dev.ring g.val).thread.acc = some a → 16 ≤ q.stack.length →
    Does (.call (.guest g) w) s (ProgramEnded g a 0x10 (some (excResult 0x04 (q.byteAddr q.pc))) s.dev)) ∧
  (∀ (s : State) (g : Fin 256) (w : Insn) (q : Seq) (a : Nat), s.Calm → s.dev.Executes (.guest g) (.bare .all) w q →
    (s.dev.ring g.val).thread.acc = some a → q.stack = [] →
    Does (.ret (.guest g) w) s (ProgramEnded g a 0x10 (some (excResult 0x04 (q.byteAddr q.pc))) s.dev)))

/-- END ends the program of a guest thread: buffered operations are released first, the item takes g[srcA] as its result unless srcA is g0,
and ST_ROLLED_BACK when a transaction is open (R61, R70, R76); a firmware thread stops, a wave is gone, a slice's run is over (R346). -/
def Obligations.EndOfProgram : Prop :=
  (∀ (s : State) (g : Fin 256) (w : Insn) (q : Seq) (a : Nat), s.Calm →
    s.dev.Executes (.guest g) { formats := [0], dst := .none, a := .reg, b := .none, c := false, subs := 1, prof := .all } w q →
    (s.dev.ring g.val).thread.acc = some a →
    Does (.endProg (.guest g) w) s (fun e =>
      (e.ring g.val).thread = Thread.idle ∧
      (e.ring g.val).entries = (((s.dev.issued (.guest g) q).kick g.val).ring g.val).entries.map (fun x => if x.acc = a then
        { x with phase := .ended, progStatus := if (s.dev.ring g.val).thread.tx.isSome then 0x03 else 0
                 result := if w.a = 0 then none else some ((q.bank.rd w.a).setWidth 64) } else x) ∧
      e.ops = ((s.dev.issued (.guest g) q).kick g.val).ops ∧
      (∀ h, h ≠ g.val → e.ring h = s.dev.ring h) ∧ { e with rings := s.dev.rings, ops := s.dev.ops, fns := s.dev.fns, free := s.dev.free, probe := s.dev.probe, bus := s.dev.bus } = s.dev)) ∧
  (∀ (s : State) (k : Fin 10) (t : Fin 4) (w : Insn) (q : Seq), s.Calm →
    s.dev.Executes (.firmware k t) { formats := [0], dst := .none, a := .reg, b := .none, c := false, subs := 1, prof := .all } w q →
    Does (.endProg (.firmware k t) w) s (fun e => (e.fwt k.val t.val).started = false ∧ { e with fw := s.dev.fw, probe := s.dev.probe, bus := s.dev.bus } = s.dev)) ∧
  (∀ (s : State) (i : Nat) (w : Insn) (q : Seq), s.Calm →
    s.dev.Executes (.wave i) { formats := [0], dst := .none, a := .reg, b := .none, c := false, subs := 1, prof := .all } w q →
    Does (.endProg (.wave i) w) s (fun e =>
      e.raster.waves = tdel (s.dev.issued (.wave i) q).raster.waves i ∧ (∀ j, j ≠ i → e.wave j = s.dev.wave j) ∧ { e with raster := s.dev.raster, fns := s.dev.fns, free := s.dev.free, probe := s.dev.probe, bus := s.dev.bus } = s.dev)) ∧
  (∀ (s : State) (n : Fin 4) (w : Insn) (q : Seq), s.Calm →
    s.dev.Executes (.slice n) { formats := [0], dst := .none, a := .reg, b := .none, c := false, subs := 1, prof := .all } w q →
    Does (.endProg (.slice n) w) s (fun e =>
      (e.slice n.val).running = false ∧ (e.slice n.val).instrs = q.steps + 1 ∧ (∀ j, j ≠ n.val → e.slice j = s.dev.slice j) ∧
      { e with audio := s.dev.audio, probe := s.dev.probe, bus := s.dev.bus } = s.dev))

/-! Memory. -/

/-- What an instruction of a context that stores may change: memory with its poison, the program of that context, what the scan watch
counts and the events it raises, cached translations, free values, a used step. -/
def Sys2Proof.Machine.StoreFrame (c : Ctx) (d e : Dev) : Prop :=
  { e with mem := d.mem, writes := d.writes, poison := d.poison, comp := d.comp, msgs := d.msgs, fns := d.fns, free := d.free, probe := d.probe
           rings := d.rings, fw := d.fw, raster := d.raster, bus := d.bus } = d ∧
  (∀ x, x ≠ c → e.seq x = d.seq x) ∧ (∀ h, { e.ring h with thread := { (e.ring h).thread with seq := (d.ring h).thread.seq } } = d.ring h) ∧
  { e.raster with waves := d.raster.waves } = d.raster ∧
  (∀ j, (e.wave j).map (fun x => { x with seq := .idle }) = (d.wave j).map (fun x => { x with seq := .idle })) ∧
  (∀ k t, { e.fwt k t with seq := .idle, halted := false } = { d.fwt k t with seq := .idle, halted := false })

/-- LD, LDS and LDP write registers with the bytes that the access finds and change no memory; PREF, FLUSH and MFENCE change nothing
(R57, R63, R65, R387). `issued` is the device after the instruction's own fetch.
ST stores the bytes of its data register (of two, at 144 bits) at its effective address, and ATOM what R64 says, with the old value in d;
every byte of memory is afterwards what the shared store operation `writeV` or `atomic` leaves there (R63, R64, R67).
Without dirty logging, a store changes the bytes that its translation names and no other byte: outside the translated pieces every byte
reads as before, and a store that lies in one page leaves its bytes there, the first at the lowest address (R6, R143, R147). -/
def Obligations.LoadsStoresAndAtomics : Prop :=
  (∀ (s : State) (c : Ctx) (w : Insn) (q : Seq) (d2 : Dev) (bytes : List Byte), s.Calm → s.dev.Executes c (.mem 6 .sv) w q →
    accessExc w.s w.d (q.bank.addr w) = none →
    ((s.dev.issued c q).hinted c w).readV (s.dev.ctxFn c) (q.bank.addr w) (accessBytes w.s) .read = (d2, .ok bytes) →
    Does (.ld c w) s (fun e => OnlyProgram c s.dev e ∧ e.seq c = some
      { q with pc := q.pc + 1, steps := q.steps + 1
               bank := if w.s = 5 then (q.bank.wr w.d (BitVec.ofNat 72 (ofBytes (bytes.take 9)))).wr (w.d + 1) (BitVec.ofNat 72 (ofBytes (bytes.drop 9)))
                       else q.bank.wr w.d (BitVec.ofNat 72 (ofBytes bytes)) })) ∧
  (∀ (s : State) (c : Ctx) (w : Insn) (q : Seq) (d2 : Dev) (bytes : List Byte), s.Calm → s.dev.Executes c (.mem 6 .sv) w q →
    accessExc w.s w.d (q.bank.addr w) = none →
    ((s.dev.issued c q).hinted c w).readV (s.dev.ctxFn c) (q.bank.addr w) (accessBytes w.s) .read = (d2, .ok bytes) →
    Does (.lds c w) s (fun e => OnlyProgram c s.dev e ∧ e.seq c = some
      { q with pc := q.pc + 1, steps := q.steps + 1
               bank := if w.s = 5 then (q.bank.wr w.d (BitVec.ofNat 72 (ofBytes (bytes.take 9)))).wr (w.d + 1) (BitVec.ofNat 72 (ofBytes (bytes.drop 9)))
                       else if bytes.length < 9 then q.bank.wr w.d (sextTo 72 (8 * bytes.length) (ofBytes bytes))
                       else q.bank.wr w.d (BitVec.ofNat 72 (ofBytes bytes)) })) ∧
  (∀ (s : State) (g : Fin 256) (w : Insn) (q : Seq) (d2 : Dev) (v : W72), s.Calm →
    s.dev.Executes (.guest g) { formats := [1], dst := .reg, a := .none, b := .none, c := false, subs := 1, prof := .s } w q →
    (w.low.zeroExtend 72).toNat < (s.dev.ring g.val).thread.paramLen →
    (s.dev.issued (.guest g) q).readWords (g.val / 4) (((s.dev.ring g.val).thread.paramBase.toNat + 9 * (w.low.zeroExtend 72).toNat) % 2 ^ 48) 1 .read = (d2, .ok [v]) →
    Does (.ldp (.guest g) w) s (fun e => OnlyProgram (.guest g) s.dev e ∧ e.seq (.guest g) = some { q with pc := q.pc + 1, steps := q.steps + 1, bank := q.bank.wr w.d v })) ∧
  (∀ (s : State) (c : Ctx) (w : Insn) (q : Seq) (d2 : Dev) (pa : Nat), s.Calm → s.dev.Executes c .line w q →
    ((s.dev.issued c q).hinted c w).translate (s.dev.ctxFn c) (q.bank.addr w) .read = (d2, .ok pa) →
    Does (.pref c w) s (fun e => OnlyProgram c s.dev e ∧ e.seq c = some { q with pc := q.pc + 1, steps := q.steps + 1 }) ∧
    Does (.flush c w) s (fun e => OnlyProgram c s.dev e ∧ e.seq c = some { q with pc := q.pc + 1, steps := q.steps + 1 })) ∧
  (∀ (s : State) (c : Ctx) (w : Insn) (q : Seq), s.Calm → s.dev.Executes c (.bare .sv) w q →
    Does (.mfence c w) s (fun e => ProgramIs c s.dev e { q with pc := q.pc + 1, steps := q.steps + 1 } (s.dev.lanes c))) ∧
  (∀ (s : State) (c : Ctx) (w : Insn) (q : Seq) (d2 : Dev), s.Calm → Memory.wf s.dev.mem = true → s.dev.Executes c (.mem 6 .sv) w q →
    accessExc w.s w.d (q.bank.addr w) = none →
    ((s.dev.issued c q).hinted c w).writeV (s.dev.ctxFn c) (q.bank.addr w)
      (if w.s = 5 then toBytes 9 (q.bank.rd w.d).toNat ++ toBytes 9 (q.bank.rd (w.d + 1)).toNat else toBytes (accessBytes w.s) (q.bank.rd w.d).toNat) = (d2, .ok ()) →
    Does (.st c w) s (fun e =>
      StoreFrame c s.dev e ∧ (∀ x, cellGet e.mem x = d2.peekByte x) ∧ e.seq c = some { q with pc := q.pc + 1, steps := q.steps + 1 })) ∧
  (∀ (s : State) (c : Ctx) (w : Insn) (q : Seq) (d2 : Dev) (old : BitVec 64), s.Calm → Memory.wf s.dev.mem = true → s.dev.Executes c (.mem 6 .sv) w q →
    ¬ (w.s = 5 ∧ w.d = 63) → q.bank.addr w % 8 = 0 →
    ((s.dev.issued c q).hinted c w).atomic (s.dev.ctxFn c) (q.bank.addr w) w.s ((q.bank.rd w.d).setWidth 64) ((q.bank.rd (w.d + 1)).setWidth 64) = (d2, .ok old) →
    Does (.atom c w) s (fun e =>
      StoreFrame c s.dev e ∧ (∀ x, cellGet e.mem x = d2.peekByte x) ∧
      e.seq c = some { q with pc := q.pc + 1, steps := q.steps + 1, bank := q.bank.wr w.d (old.setWidth 72) })) ∧
  (∀ (d d2 : Dev) (f va : Nat) (bytes : List Byte), (d.fn f).dirtyEnable = false → d.writeV f va bytes = (d2, .ok ()) →
    ∃ t, (d.translateAll f .write (pieces va bytes.length)).2 = .ok t ∧
      (∀ x, (∀ p ∈ t, x < p.2.1 ∨ p.2.1 + p.2.2 ≤ x) → d2.peekByte x = d.peekByte x) ∧
      (∀ a pa, t = [(a, pa, bytes.length)] → ∀ i, i < bytes.length → d2.peekByte (pa + i) = nth bytes i 0))

/-- An access of the wrong alignment raises EX_ALIGN, a 144-bit access that names register 63 EX_ILLEGAL, and an access whose translation
fails ends the program with the status of its cause and (but for EX_LOST) EV_FAULT, with no byte stored (R63, R64, R67, R77).
Translation (R141 to R144): a blocked root fails with cause 0xA and reads nothing; in bypass an address below 2^40 that the page rules
let through is its own translation and any other fails with cause 7; outside DRAM, the scratch partition and the Vitrine no page is admitted. -/
def Obligations.AccessFaultsAndTranslation : Prop :=
  (∀ (s : State) (g : Fin 256) (w : Insn) (q : Seq) (a : Nat), s.Calm → s.dev.Executes (.guest g) (.mem 6 .sv) w q →
    (s.dev.ring g.val).thread.acc = some a → w.s < 4 → q.bank.addr w % accessBytes w.s ≠ 0 →
    Does (.ld (.guest g) w) s (ProgramEnded g a 0x10 (some (excResult 0x05 (q.byteAddr q.pc))) s.dev) ∧
    Does (.st (.guest g) w) s (ProgramEnded g a 0x10 (some (excResult 0x05 (q.byteAddr q.pc))) s.dev)) ∧
  (∀ (s : State) (g : Fin 256) (w : Insn) (q : Seq) (a : Nat), s.Calm → s.dev.Executes (.guest g) (.mem 6 .sv) w q →
    (s.dev.ring g.val).thread.acc = some a → w.s = 5 → w.d = 63 →
    Does (.lds (.guest g) w) s (ProgramEnded g a 0x10 (some (excResult 0x01 (q.byteAddr q.pc))) s.dev)) ∧
  (∀ (s : State) (g : Fin 256) (w : Insn) (q : Seq) (a cause va : Nat) (d2 : Dev), s.Calm → s.dev.Executes (.guest g) (.mem 6 .sv) w q →
    (s.dev.ring g.val).thread.acc = some a → accessExc w.s w.d (q.bank.addr w) = none →
    ((s.dev.issued (.guest g) q).hinted (.guest g) w).writeV (g.val / 4) (q.bank.addr w) (storeBytes q.bank w) = (d2, .error (cause, va)) →
    Does (.st (.guest g) w) s (fun e =>
      e.mem = s.dev.mem ∧ (e.ring g.val).thread = Thread.idle ∧ (cause ≠ 0xE → bit (e.fn (g.val / 4)).evStatus 5 = true) ∧
      (e.ring g.val).entries = (s.dev.ring g.val).entries.map (fun x => if x.acc = a then
        { x with phase := .ended, progStatus := causeStatus cause, result := some (excResult (causeExc cause) (q.byteAddr q.pc)) } else x))) ∧
  (∀ (d : Dev) (f va : Nat) (acc : Acc),
    ((fld (d.fn f).iommuRoot 0 2 = 0 ∨ fld (d.fn f).iommuRoot 0 2 = 3) → d.translate f va acc = (d, .error 0xA)) ∧
    (fld (d.fn f).iommuRoot 0 2 = 2 → 2 ^ 40 ≤ va → d.translate f va acc = (d, .error 0x7)) ∧
    (fld (d.fn f).iommuRoot 0 2 = 2 → va < 2 ^ 40 → d.pageCause f acc va 1 7 = none → d.translate f va acc = (d, .ok va)) ∧
    (fld (d.fn f).iommuRoot 0 2 = 2 → va < 2 ^ 40 → ∀ c, d.pageCause f acc va 1 7 = some c → d.translate f va acc = (d, .error c)) ∧
    (∀ page size perms, regionOf d.dram page = .control ∨ regionOf d.dram page = .rom → d.pageCause f acc page size perms = some 0x8) ∧
    (∀ page perms, regionOf d.dram page = .none → d.pageCause f acc page 1 perms = some 0x7) ∧
    (∀ page perms, regionOf d.dram page = .vitrine → acc = .write → d.pageCause f acc page 1 perms = some 0x9) ∧
    (∀ page size perms, regionOf d.dram page = .vitrine → regionOf d.dram (page + size - 1) = .vitrine → d.critical f = false →
      d.pageCause f acc page size perms = some 0x9) ∧
    (∀ page size perms, regionOf d.dram page = .dram → regionOf d.dram (page + size - 1) = .dram → acc ≠ .vitrine → d.permitted f page size = false →
      d.pageCause f acc page size perms = some 0x6))

/-! Engine operations, waits and transactions. -/

/-- Only the thread of ring g has changed, beside cached translations, free values and a used step. -/
def Sys2Proof.Machine.OnlyThread (g : Fin 256) (d e : Dev) : Prop :=
  { e with rings := d.rings, fns := d.fns, free := d.free, probe := d.probe, bus := d.bus } = d ∧ (∀ h, h ≠ g.val → e.ring h = d.ring h) ∧
  { e.ring g.val with thread := (d.ring g.val).thread } = d.ring g.val ∧ ∀ f, { e.fn f with tlb := [] } = { d.fn f with tlb := [] }

/-- The thread of ring g afterwards is the thread before with one step counted, the next index, bank b, and the change h. -/
def Sys2Proof.Machine.ThreadGoes (g : Fin 256) (d e : Dev) (q : Seq) (b : Bank) (h : Thread → Thread) : Prop :=
  (e.ring g.val).thread = h { (d.ring g.val).thread with seq := { q with bank := b, pc := q.pc + 1, steps := q.steps + 1 } }

/-- ENQ puts an operation with the next index into the issue buffer, a full buffer being released first; a target that the ring does not
permit raises EX_TARGET and index 65,536 EX_OPS; KICK releases every buffered operation, each as one new operation unless its op-id is held
already (R68 to R71, R103).
FENCE releases the buffer and goes on when every released operation has completed, else the thread waits until FENCE_WAKE finds them
complete; WAITEV of DEVTIME returns 0 at once when the time has passed and waits otherwise, and WAITEV of VBLANK or FLIP_DONE waits, with the
timeout of R72; an event meets the waits for it whose deadline has not passed; WAITEV_WAKE ends the wait with 0 for an event that came by the
deadline and with 1 for the timeout (R70, R72). -/
def Obligations.WorkInstructions : Prop :=
  (∀ (s : State) (g : Fin 256) (w : Insn) (q : Seq), s.Calm →
    s.dev.Executes (.guest g) { formats := [4], dst := .reg, a := .reg, b := .none, c := false, subs := 1, prof := .s } w q →
    targetOk (fld w.low 28 8) (g.val % 4) = true → (s.dev.ring g.val).thread.nextIdx < 65536 → (s.dev.ring g.val).thread.buf.length < 32 →
    Does (.enq (.guest g) w) s (fun e => OnlyThread g s.dev e ∧
      ThreadGoes g s.dev e q (q.bank.wr w.d (BitVec.ofNat 72 (s.dev.ring g.val).thread.nextIdx)) (fun t =>
        { t with
          nextIdx := t.nextIdx + 1
          buf := t.buf ++ [{ idx := t.nextIdx, target := BitVec.ofNat 8 (fld w.low 28 8), kind := BitVec.ofNat 8 (fld w.low 20 8)
                             addr := (q.bank.rd w.a).setWidth 48, len := fld w.low 8 12 }] }))) ∧
  (∀ (s : State) (g : Fin 256) (w : Insn) (q : Seq), s.Calm →
    s.dev.Executes (.guest g) { formats := [4], dst := .reg, a := .reg, b := .none, c := false, subs := 1, prof := .s } w q →
    targetOk (fld w.low 28 8) (g.val % 4) = true → (s.dev.ring g.val).thread.nextIdx < 65536 → 32 ≤ (s.dev.ring g.val).thread.buf.length →
    Does (.enq (.guest g) w) s (fun e =>
      e.ops = ((s.dev.issued (.guest g) q).kick g.val).ops ∧ (e.ring g.val).thread.nextIdx = (s.dev.ring g.val).thread.nextIdx + 1 ∧
      (e.ring g.val).thread.buf.map (fun x => x.idx) = [(s.dev.ring g.val).thread.nextIdx] ∧
      e.seq (.guest g) = some
        { q with pc := q.pc + 1, steps := q.steps + 1, bank := q.bank.wr w.d (BitVec.ofNat 72 (s.dev.ring g.val).thread.nextIdx) } ∧ e.mem = s.dev.mem)) ∧
  (∀ (s : State) (g : Fin 256) (w : Insn) (q : Seq) (a : Nat), s.Calm →
    s.dev.Executes (.guest g) { formats := [4], dst := .reg, a := .reg, b := .none, c := false, subs := 1, prof := .s } w q →
    (s.dev.ring g.val).thread.acc = some a →
    (targetOk (fld w.low 28 8) (g.val % 4) = false →
      Does (.enq (.guest g) w) s (ProgramEnded g a 0x10 (some (excResult 0x0E (q.byteAddr q.pc))) s.dev)) ∧
    (targetOk (fld w.low 28 8) (g.val % 4) = true → 65536 ≤ (s.dev.ring g.val).thread.nextIdx →
      Does (.enq (.guest g) w) s (ProgramEnded g a 0x10 (some (excResult 0x0D (q.byteAddr q.pc))) s.dev))) ∧
  (∀ (s : State) (g : Fin 256) (w : Insn) (q : Seq), s.Calm → s.dev.Executes (.guest g) (.bare .s) w q →
    Does (.kick (.guest g) w) s (fun e =>
      e.ops = ((s.dev.issued (.guest g) q).kick g.val).ops ∧ (e.ring g.val).thread.buf = [] ∧ e.seq (.guest g) = some { q with pc := q.pc + 1, steps := q.steps + 1 } ∧
      (∀ h, h ≠ g.val → e.ring h = s.dev.ring h) ∧ { e with rings := s.dev.rings, ops := s.dev.ops, fns := s.dev.fns, free := s.dev.free, probe := s.dev.probe, bus := s.dev.bus } = s.dev)) ∧
  (∀ (d : Dev) (g : Fin 256) (acc : Nat) (x : Enq), (d.ring g.val).thread.acc = some acc → (d.ring g.val).thread.buf = [x] →
    (d.op { ring := g, acc := acc, idx := x.idx } = none →
      (d.kick g.val).ops = d.ops ++
        [{ id := { ring := g, acc := acc, idx := x.idx }, fn := g.val / 4, gen := (d.fn (g.val / 4)).gen, target := x.target, kind := x.kind, addr := x.addr
           len := x.len, desc := [], phase := .released, stage := 0, due := d.now, status := 0, result := none, late := false, deferred := false
           superseded := false, replayed := false, cancel := false }]) ∧
    ((d.op { ring := g, acc := acc, idx := x.idx }).isSome = true → (d.kick g.val).ops = d.ops)) ∧
  (∀ (s : State) (g : Fin 256) (w : Insn) (q : Seq), s.Calm → s.dev.Executes (.guest g) (.bare .s) w q → (s.dev.ring g.val).thread.buf = [] →
    (s.dev.itemOpsDone g.val = true → Does (.fence (.guest g) w) s (fun e => OnlyThread g s.dev e ∧ ThreadGoes g s.dev e q q.bank (fun t => t))) ∧
    (s.dev.itemOpsDone g.val = false → Does (.fence (.guest g) w) s (fun e =>
      OnlyThread g s.dev e ∧ ThreadGoes g s.dev e q q.bank (fun t => { t with wait := .fence })))) ∧
  (∀ (s : State) (g : Fin 256), s.Calm → (s.dev.ring g.val).thread.wait = .fence → s.dev.threadUp g.val = true → s.dev.itemOpsDone g.val = true →
    Does (.fenceWake g) s (fun e => OnlyThread g s.dev e ∧ (e.ring g.val).thread = { (s.dev.ring g.val).thread with wait := .none })) ∧
  (∀ (s : State) (g : Fin 256) (w : Insn) (q : Seq), s.Calm →
    s.dev.Executes (.guest g) { formats := [1], dst := .reg, a := .reg, b := .reg, c := false, subs := 1, prof := .s } w q → fld w.low 32 4 = 5 →
    ((q.bank.rd w.a).toNat ≤ s.dev.now → Does (.waitev (.guest g) w) s (fun e =>
      OnlyThread g s.dev e ∧ ThreadGoes g s.dev e q (q.bank.wr w.d 0) (fun t => t))) ∧
    (s.dev.now < (q.bank.rd w.a).toNat → Does (.waitev (.guest g) w) s (fun e =>
      OnlyThread g s.dev e ∧ ThreadGoes g s.dev e q q.bank (fun t => { t with
        wait := .event 5 (q.bank.rd w.a).toNat w.d
          (s.dev.now + if w.b = 0 ∨ 1000000000 < (q.bank.rd w.b).toNat then 1000000000 else (q.bank.rd w.b).toNat) false })))) ∧
  (∀ (s : State) (g : Fin 256) (w : Insn) (q : Seq), s.Calm →
    s.dev.Executes (.guest g) { formats := [1], dst := .reg, a := .reg, b := .reg, c := false, subs := 1, prof := .s } w q →
    (fld w.low 32 4 = 1 ∨ fld w.low 32 4 = 2) → fld w.low 0 4 < 12 →
    Does (.waitev (.guest g) w) s (fun e =>
      OnlyThread g s.dev e ∧ ThreadGoes g s.dev e q q.bank (fun t => { t with
        wait := .event (fld w.low 32 4) (fld w.low 0 4) w.d
          (s.dev.now + if w.b = 0 ∨ 1000000000 < (q.bank.rd w.b).toNat then 1000000000 else (q.bank.rd w.b).toNat) false }))) ∧
  (∀ (s : State) (g : Fin 256) (w : Insn) (q : Seq) (a : Nat), s.Calm →
    s.dev.Executes (.guest g) { formats := [1], dst := .reg, a := .reg, b := .reg, c := false, subs := 1, prof := .s } w q →
    (s.dev.ring g.val).thread.acc = some a → 6 ≤ fld w.low 32 4 →
    Does (.waitev (.guest g) w) s (ProgramEnded g a 0x10 (some (excResult 0x01 (q.byteAddr q.pc))) s.dev)) ∧
  (∀ (d : Dev) (kind param k p dst deadline : Nat) (met : Bool) (g : Nat), g ∈ d.rings.map (fun x => x.1) →
    (d.ring g).thread.wait = .event k p dst deadline met →
    ((d.occur kind param).ring g).thread.wait =
      .event k p dst deadline (met || (decide (k = kind) && decide (p = param) && decide (d.now ≤ deadline)))) ∧
  (∀ (s : State) (g : Fin 256) (kind param dst deadline at_ : Nat) (met : Bool), s.Calm → (s.dev.ring g.val).thread.acc.isSome = true →
    (s.dev.ring g.val).thread.wait = .event kind param dst deadline met → s.dev.threadUp g.val = true →
    ((met = true ∨ (kind = 5 ∧ param ≤ Nat.max s.dev.now at_ ∧ param ≤ deadline)) → Does (.waitevWake (.guest g) at_) s (fun e =>
      { e with now := s.dev.now, rings := s.dev.rings, bus := s.dev.bus } = s.dev ∧ e.now = Nat.max s.dev.now at_ ∧
      (e.ring g.val).thread = { (s.dev.ring g.val).thread with
        wait := .none, seq := { (s.dev.ring g.val).thread.seq with bank := (s.dev.ring g.val).thread.seq.bank.wr dst 0 } })) ∧
    (met = false → (kind = 5 → deadline < param) → deadline ≤ at_ → Does (.waitevWake (.guest g) at_) s (fun e =>
      { e with now := s.dev.now, rings := s.dev.rings, bus := s.dev.bus } = s.dev ∧ e.now = Nat.max s.dev.now at_ ∧
      (e.ring g.val).thread = { (s.dev.ring g.val).thread with
        wait := .none, seq := { (s.dev.ring g.val).thread.seq with bank := (s.dev.ring g.val).thread.seq.bank.wr dst 1 } })))

/-- TXC whose checks pass at IMMEDIATE applies its writes and closes the transaction with its commit time in d; a position that the item has
committed before applies nothing again (R75, R106, R112). An overflowed shadow ends the program
with ST_ROLLED_BACK, and nothing is applied.
A commit leaves each field word that it writes at the value written and every other field word as it was; here for the layer slots,
whose words carry no other effect (R112, R117). -/
def Obligations.Commits : Prop :=
  (∀ (s : State) (g : Fin 256) (w : Insn) (q : Seq) (tx : Tx) (a : Nat) (en : Entry) (time : Nat), s.Calm →
    s.dev.Executes (.guest g) { formats := [0], dst := .reg, a := .none, b := .none, c := false, subs := 1, prof := .s } w q →
    (s.dev.ring g.val).thread.acc = some a → (s.dev.ring g.val).thread.tx = some tx → s.dev.entry g.val a = some en →
    tfind en.txcs (s.dev.ring g.val).thread.txcPos = some time →
    Does (.txc (.guest g) w) s (fun e => OnlyThread g s.dev e ∧
      ThreadGoes g s.dev e q (q.bank.wr w.d (BitVec.ofNat 72 time)) (fun t => { t with tx := none, txcPos := t.txcPos + 1 }))) ∧
  (∀ (s : State) (g : Fin 256) (w : Insn) (q : Seq) (tx : Tx) (a : Nat) (d1 d2 d3 : Dev) (planes : Tab (Tab Nat × Nat)), s.Calm →
    s.dev.Executes (.guest g) { formats := [0], dst := .reg, a := .none, b := .none, c := false, subs := 1, prof := .s } w q →
    (s.dev.ring g.val).thread.acc = some a → (s.dev.ring g.val).thread.tx = some tx → tx.point = 0 → tx.full = none →
    (∀ en, s.dev.entry g.val a = some en → tfind en.txcs (s.dev.ring g.val).thread.txcPos = none) →
    d1 = ({ s.dev.issued (.guest g) q with free := (s.dev.issued (.guest g) q).free + 1 } : Dev).tick
      (s.dev.now + Config.measured (s.dev.issued (.guest g) q).free % (251 + 10 * tx.shadow.length)) →
    d1.checkCommit (g.val / 4) tx = (d2, .ok planes) →
    d3 = d2.pass
      { ring := g.val, acc := a, time := d2.now, point := 0, pipe := tx.pipe, writes := tx.shadow, planes := planes.map (fun x => (x.1, x.2.1))
        bases := planes.map (fun x => (x.1, x.2.2)), widths := d2.sizedRings tx.shadow } → d3.Calm → d3.writes = [] →
    Does (.txc (.guest g) w) s (fun e =>
      e.objs = d3.objs ∧ e.commits = d3.commits ∧ e.publication = d3.publication ∧ e.now = d3.now ∧ (e.ring g.val).thread.tx = none ∧
      (e.ring g.val).thread.txcPos = (d3.ring g.val).thread.txcPos + 1 ∧
      (e.ring g.val).entries = (d3.ring g.val).entries.map (fun x => if x.acc = a then
        { x with txcs := tset x.txcs (s.dev.ring g.val).thread.txcPos d2.now } else x))) ∧
  (∀ (s : State) (g : Fin 256) (w : Insn) (q : Seq) (tx : Tx) (a : Nat), s.Calm →
    s.dev.Executes (.guest g) { formats := [0], dst := .reg, a := .none, b := .none, c := false, subs := 1, prof := .s } w q →
    (s.dev.ring g.val).thread.acc = some a → (s.dev.ring g.val).thread.tx = some tx → tx.overflow = true →
    (∀ en, s.dev.entry g.val a = some en → tfind en.txcs (s.dev.ring g.val).thread.txcPos = none) →
    Does (.txc (.guest g) w) s (fun e =>
      e.objs = s.dev.objs ∧ e.commits = s.dev.commits ∧ (e.ring g.val).thread = Thread.idle ∧ (∀ h, h ≠ g.val → e.ring h = s.dev.ring h) ∧
      (e.ring g.val).entries = (s.dev.ring g.val).entries.map (fun x => if x.acc = a then
        { x with phase := .ended, progStatus := 0x03, result := some (BitVec.ofNat 64 (q.byteAddr q.pc)) } else x))) ∧
  (∀ (d : Dev) (c : Commit), (∀ x ∈ c.writes, keyCls x.1 = 0x03 ∧ keyWord x.1 ≠ 0) → (c.writes.map (fun x => x.1)).Nodup →
    (∀ x ∈ c.writes, (d.applyCommit c).obj (keyCls x.1) (keyInst x.1) (keyWord x.1) = x.2) ∧
    (∀ k, (∀ x ∈ c.writes, x.1 ≠ k) → (d.applyCommit c).obj (keyCls k) (keyInst k) (keyWord k) = d.obj (keyCls k) (keyInst k) (keyWord k)) ∧
    { d.applyCommit c with objs := d.objs, comp := d.comp } = d)

/-- TXB opens a transaction with an empty shadow, at most sixteen in a run and none inside another; STO puts a write into the shadow, replaces
an earlier one to the same word, and past 910 writes marks the shadow overflowed; TXA ends the program with ST_ROLLED_BACK and result zero
(R73, R74, R76, R110).
LDO reads an applied field word of an object that the function owns, or any as the manager; RDTIME reads DEVTIME and RDID what R543's
table says (R25, R57, R543). -/
def Obligations.TransactionsAndReads : Prop :=
  (∀ (s : State) (g : Fin 256) (w : Insn) (q : Seq), s.Calm →
    s.dev.Executes (.guest g) { formats := [1], dst := .none, a := .none, b := .none, c := false, subs := 4, prof := .s } w q →
    (w.s = 1 → fld w.low 0 4 < 12) → (s.dev.ring g.val).thread.tx = none → (s.dev.ring g.val).thread.txOpened < 16 →
    Does (.txb (.guest g) w) s (fun e => OnlyThread g s.dev e ∧ ThreadGoes g s.dev e q q.bank (fun t => { t with
      txOpened := t.txOpened + 1
      tx := some { point := BitVec.ofNat 2 w.s, pipe := if w.s = 1 then fld w.low 0 4 else 0, shadow := [], overflow := false, full := none } }))) ∧
  (∀ (s : State) (g : Fin 256) (w : Insn) (q : Seq) (a : Nat), s.Calm →
    s.dev.Executes (.guest g) { formats := [1], dst := .none, a := .none, b := .none, c := false, subs := 4, prof := .s } w q →
    (s.dev.ring g.val).thread.acc = some a → (w.s = 1 → fld w.low 0 4 < 12) →
    ((s.dev.ring g.val).thread.tx.isSome = true ∨ 16 ≤ (s.dev.ring g.val).thread.txOpened) →
    Does (.txb (.guest g) w) s (ProgramEnded g a 0x10 (some (excResult 0x0B (q.byteAddr q.pc))) s.dev)) ∧
  (∀ (s : State) (g : Fin 256) (w : Insn) (q : Seq) (tx : Tx), s.Calm →
    s.dev.Executes (.guest g) { formats := [5], dst := .none, a := .reg, b := .reg, c := false, subs := 1, prof := .s } w q →
    (s.dev.ring g.val).thread.tx = some tx →
    Does (.sto (.guest g) w) s (fun e => OnlyThread g s.dev e ∧ ThreadGoes g s.dev e q q.bank (fun t => { t with
      tx := some (
        if tx.shadow.any (fun x => x.1 = objectOf q.bank w) then
          { tx with shadow := tx.shadow.map (fun x => if x.1 = objectOf q.bank w then (objectOf q.bank w, q.bank.rd w.a) else x) }
        else if 910 ≤ tx.shadow.length then { tx with overflow := true }
        else { tx with shadow := tx.shadow ++ [(objectOf q.bank w, q.bank.rd w.a)] }) }))) ∧
  (∀ (s : State) (g : Fin 256) (w : Insn) (q : Seq) (a : Nat), s.Calm →
    s.dev.Executes (.guest g) { formats := [5], dst := .none, a := .reg, b := .reg, c := false, subs := 1, prof := .s } w q →
    (s.dev.ring g.val).thread.acc = some a → (s.dev.ring g.val).thread.tx = none →
    Does (.sto (.guest g) w) s (ProgramEnded g a 0x10 (some (excResult 0x0B (q.byteAddr q.pc))) s.dev)) ∧
  (∀ (s : State) (g : Fin 256) (w : Insn) (q : Seq) (a : Nat), s.Calm → s.dev.Executes (.guest g) (.bare .s) w q →
    (s.dev.ring g.val).thread.acc = some a → (s.dev.ring g.val).thread.tx.isSome = true →
    Does (.txa (.guest g) w) s (ProgramEnded g a 0x03 (some 0) s.dev)) ∧
  (∀ (s : State) (g : Fin 256) (w : Insn) (q : Seq), s.Calm →
    s.dev.Executes (.guest g) { formats := [5], dst := .reg, a := .none, b := .reg, c := false, subs := 1, prof := .s } w q →
    keyExists (objectOf q.bank w) = true →
    (g.val / 4 = s.dev.manager ∨ s.dev.owner (keyCls (objectOf q.bank w)) (keyInst (objectOf q.bank w)) = g.val / 4) →
    Does (.ldo (.guest g) w) s (fun e => OnlyProgram (.guest g) s.dev e ∧ e.seq (.guest g) = some
      { q with pc := q.pc + 1, steps := q.steps + 1
               bank := q.bank.wr w.d (s.dev.obj (keyCls (objectOf q.bank w)) (keyInst (objectOf q.bank w)) (keyWord (objectOf q.bank w))) })) ∧
  (∀ (s : State) (g : Fin 256) (w : Insn) (q : Seq) (a : Nat), s.Calm →
    s.dev.Executes (.guest g) { formats := [5], dst := .reg, a := .none, b := .reg, c := false, subs := 1, prof := .s } w q →
    (s.dev.ring g.val).thread.acc = some a →
    (keyExists (objectOf q.bank w) = false → Does (.ldo (.guest g) w) s (ProgramEnded g a 0x10 (some (excResult 0x01 (q.byteAddr q.pc))) s.dev)) ∧
    (keyExists (objectOf q.bank w) = true → g.val / 4 ≠ s.dev.manager → s.dev.owner (keyCls (objectOf q.bank w)) (keyInst (objectOf q.bank w)) ≠ g.val / 4 →
      Does (.ldo (.guest g) w) s (ProgramEnded g a 0x11 (some (BitVec.ofNat 64 (q.byteAddr q.pc))) s.dev))) ∧
  (∀ (s : State) (c : Ctx) (w : Insn) (q : Seq), s.Calm → s.dev.Executes c (.read 1) w q →
    Does (.rdtime c w) s (fun e => OnlyProgram c s.dev e ∧ e.seq c = some
      { q with pc := q.pc + 1, steps := q.steps + 1, bank := q.bank.wr w.d (BitVec.ofNat 72 (s.dev.now % 2 ^ 64)) })) ∧
  (∀ (s : State) (g : Fin 256) (w : Insn) (q : Seq) (a : Nat) (en : Entry), s.Calm → s.dev.Executes (.guest g) (.read 5) w q →
    (s.dev.ring g.val).thread.acc = some a → s.dev.entry g.val a = some en →
    Does (.rdid (.guest g) w) s (fun e => OnlyProgram (.guest g) s.dev e ∧ e.seq (.guest g) = some
      { q with pc := q.pc + 1, steps := q.steps + 1
               bank := q.bank.wr w.d (BitVec.ofNat 72 (
                 if w.s = 0 then a else if w.s = 1 then g.val else if w.s = 2 then g.val / 4 + (s.dev.fn (g.val / 4)).gen.toNat * 256
                 else if w.s = 3 then fld en.item 0 48 else (s.dev.ring g.val).thread.nextIdx)) })) ∧
  (∀ (s : State) (g : Fin 256) (w : Insn) (q : Seq) (h : W72) (names : List W72) (d1 d2 d3 : Dev), s.Calm → Memory.wf s.dev.mem = true →
    s.dev.Executes (.guest g) { formats := [0], dst := .reg, a := .reg, b := .reg, c := false, subs := 1, prof := .s } w q →
    (s.dev.issued (.guest g) q).readWords (g.val / 4) ((q.bank.rd w.a).toNat % 2 ^ 48) 1 .read = (d1, .ok [h]) → 1 ≤ h.toNat → h.toNat ≤ 64 →
    d1.readWords (g.val / 4) (((q.bank.rd w.a).toNat % 2 ^ 48 + 9) % 2 ^ 48) h.toNat .read = (d2, .ok names) →
    h.toNat ≤ (names.filterMap snapObject).length →
    (g.val / 4 = s.dev.manager ∨ (names.filterMap snapObject).all (fun k => s.dev.owner (keyCls k) (keyInst k) = g.val / 4) = true) →
    d2.writeWords (g.val / 4) ((q.bank.rd w.b).toNat % 2 ^ 48) ((names.filterMap snapObject).flatMap (fun k =>
      (List.range (match classInfo (keyCls k) with | some (_, m) => m | none => 0)).map (fun i => s.dev.obj (keyCls k) (keyInst k) i))) = (d3, .ok ()) →
    Does (.snap (.guest g) w) s (fun e =>
      StoreFrame (.guest g) s.dev e ∧ (∀ x, cellGet e.mem x = d3.peekByte x) ∧ e.seq (.guest g) = some
        { q with pc := q.pc + 1, steps := q.steps + 1, bank := q.bank.wr w.d (BitVec.ofNat 72 (s.dev.publication % 2 ^ 64)) }))

/-! Vector instructions. -/

/-- Lanes taken in ascending order: h relates device and lane before to device and lane after in each lane that executes the instruction. -/
def Sys2Proof.Machine.LanesGo (w : Insn) (h : Dev → Nat → Lane → Dev → Lane → Prop) (n : Nat) (d : Dev) (l : List Lane) (e : Dev) (m : List Lane) : Prop :=
  match l with
  | [] => e = d ∧ m = []
  | x :: r =>
    ∃ d1 x1 m1, m = x1 :: m1 ∧ (if x.runs w then h d n x d1 x1 else d1 = d ∧ x1 = x) ∧ Sys2Proof.Machine.LanesGo w h (n + 1) d1 r e m1

/-- The device afterwards is d, with its stores in memory and its accesses in the lattice as those of one memory port (R384). -/
def Sys2Proof.Machine.Is (d e : Dev) : Prop :=
  e.writes = [] ∧ (∀ a, cellGet e.mem a = d.peekByte a) ∧ (∃ who, e.bus = d.busStep who) ∧ { e with mem := d.mem, writes := d.writes, bus := d.bus } = d

/-- The vector instruction that `mk` builds completes on a wave that can issue it, when h admits what happens in every lane that executes it:
the lanes afterwards are those that h admits, and the program goes to the next index. `issued` is the device after the fetch. -/
def Sys2Proof.Machine.VectorGoes (mk : Ctx → Insn → Instr) (sh : Shape) (types : List Nat) (u : VRegs) (h : Insn → Wave → Dev → Nat → Lane → Dev → Lane → Prop) : Prop :=
  ∀ (s : State) (i : Nat) (w : Insn) (q : Seq) (x y : Wave) (d1 : Dev) (ls : List Lane), s.Calm → Memory.wf s.dev.mem = true →
    s.dev.Ready (.wave i) sh w q → (s.dev.issued (.wave i) q).wave i = some x → types.contains w.lt = true → u.beyond x.nv w = false →
    LanesGo w (h w x) 0 (s.dev.issued (.wave i) q) x.lanes d1 ls → d1.Calm → d1.mem = s.dev.mem → d1.wave i = some y →
    Does (mk (.wave i) w) s (Is (d1.setWave i { y with lanes := ls, seq := { y.seq with pc := y.seq.pc + 1 } }))

/-- The same of an instruction that writes vd of each executing lane with a value of that lane, and changes nothing else. -/
def Sys2Proof.Machine.WritesV (mk : Ctx → Insn → Instr) (sh : Shape) (types : List Nat) (u : VRegs) (val : Insn → Lane → W72) : Prop :=
  ∀ (s : State) (i : Nat) (w : Insn) (q : Seq) (x : Wave), s.Calm → s.dev.Ready (.wave i) sh w q → s.dev.wave i = some x →
    types.contains w.lt = true → u.beyond x.nv w = false →
    Does (mk (.wave i) w) s (Is ((s.dev.issued (.wave i) q).setWave i
        { x with seq := { q with pc := q.pc + 1, steps := q.steps + 1 }, lanes := x.lanes.map (fun l => if l.runs w then l.wr w.d (val w l) else l) }))

/-- The vector float instructions apply their format's operation to every element of each executing lane (R52 to R55, R168 to R172).
The vector integer, logic, compare, select, broadcast, reduction and permutation instructions (R168, R170, R171). -/
def Obligations.VectorArithmetic : Prop :=
  (WritesV .vaddH (.vdab 2) [0] .dab (fun w l => perElem 3 (fun x y _ => f18.add w.rm w.sat (w.s = 1) x y) (l.rd w.a) (l.rd w.b) 0) ∧
  WritesV .vmulH (.vdab 1) [0] .dab (fun w l => perElem 3 (fun x y _ => f18.mul w.rm w.sat x y) (l.rd w.a) (l.rd w.b) 0) ∧
  WritesV .vfmaH (.vdabc 4) [0] .dabc (fun w l =>
    perElem 3 (fun x y z => f18.fma w.rm w.sat (fmaNegP w.s) (fmaNegC w.s) x y z) (l.rd w.a) (l.rd w.b) (l.rd w.c)) ∧
  WritesV .vmnxH (.vdab 2) [0] .dab (fun w l => perElem 3 (fun x y _ => f18.minmax (w.s = 1) x y) (l.rd w.a) (l.rd w.b) 0) ∧
  WritesV .vaddS (.vdab 2) [0] .dab (fun w l => perElem 4 (fun x y _ => f36.add w.rm w.sat (w.s = 1) x y) (l.rd w.a) (l.rd w.b) 0) ∧
  WritesV .vmulS (.vdab 1) [0] .dab (fun w l => perElem 4 (fun x y _ => f36.mul w.rm w.sat x y) (l.rd w.a) (l.rd w.b) 0) ∧
  WritesV .vfmaS (.vdabc 4) [0] .dabc (fun w l =>
    perElem 4 (fun x y z => f36.fma w.rm w.sat (fmaNegP w.s) (fmaNegC w.s) x y z) (l.rd w.a) (l.rd w.b) (l.rd w.c)) ∧
  WritesV .vrcp (.vda 2) [3, 4] .da (fun w l => perElem w.lt (fun x _ _ => (laneFmt w.lt).special w.sat w.s x) (l.rd w.a) 0 0) ∧
  WritesV .vexl (.vda 2) [3, 4] .da (fun w l => perElem w.lt (fun x _ _ => (laneFmt w.lt).special w.sat (2 + w.s) x) (l.rd w.a) 0 0) ∧
  WritesV .vtrg (.vda 2) [3, 4] .da (fun w l => perElem w.lt (fun x _ _ => (laneFmt w.lt).special w.sat (4 + w.s) x) (l.rd w.a) 0 0) ∧
  WritesV .vcvt (.vda 8) [0] .da (fun w l => fcvtWord w.s w.rm (l.rd w.a))) ∧
  (WritesV .viadd (.vdab 7) [0, 1, 2] .dab (fun w l => perElem w.lt (fun x y _ => viaddElem w.s (elemWidth w.lt) w.sat x y) (l.rd w.a) (l.rd w.b) 0) ∧
  WritesV .vlog (.vdab 5) [0] .dab (fun w l =>
    if w.s = 0 then l.rd w.a &&& l.rd w.b else if w.s = 1 then l.rd w.a ||| l.rd w.b else if w.s = 2 then l.rd w.a ^^^ l.rd w.b
    else if w.s = 3 then l.rd w.a &&& ~~~(l.rd w.b) else ~~~(l.rd w.a)) ∧
  WritesV .vshf (.vdab 4) [0, 1, 2] .dab (fun w l => perElem w.lt (fun x y _ => vshfElem w.s (elemWidth w.lt) x y) (l.rd w.a) (l.rd w.b) 0) ∧
  WritesV .vsel (.vdab 8) [0] .dab (fun w l => if l.rdK w.s then l.rd w.a else l.rd w.b) ∧
  (∀ (s : State) (i : Nat) (w : Insn) (q : Seq) (x : Wave), s.Calm → s.dev.Ready (.wave i) (.vec .pred .reg .reg false 6) w q → s.dev.wave i = some x →
    ((w.s = 5 ∧ (w.lt < 3 ∨ w.lt = 5)) ∨ (w.s < 5 ∧ w.lt < 6)) → w.a < x.nv → w.b < x.nv →
    Does (.vcmp (.wave i) w) s (Is ((s.dev.issued (.wave i) q).setWave i
      { x with seq := { q with pc := q.pc + 1, steps := q.steps + 1 }
               lanes := x.lanes.map (fun l => if l.runs w then l.wrK w.kd (vcmpLane w (l.rd w.a) (l.rd w.b)) else l) }))) ∧
  (∀ (s : State) (i : Nat) (w : Insn) (q : Seq) (x : Wave), s.Calm → s.dev.Ready (.wave i) (.vda 1) w q → s.dev.wave i = some x → w.lt = 0 → w.d < x.nv →
    Does (.vbcast (.wave i) w) s (Is ((s.dev.issued (.wave i) q).setWave i
      { x with seq := { q with pc := q.pc + 1, steps := q.steps + 1 }, lanes := x.lanes.map (fun l => if l.runs w then l.wr w.d (q.bank.rd w.a) else l) }))) ∧
  (∀ (s : State) (i : Nat) (w : Insn) (q : Seq) (x : Wave), s.Calm → s.dev.Ready (.wave i) (.vda 6) w q → s.dev.wave i = some x → w.lt < 6 → w.a < x.nv →
    Does (.vred (.wave i) w) s (Is ((s.dev.issued (.wave i) q).setWave i
      { x with seq := { q with pc := q.pc + 1, steps := q.steps + 1, bank := q.bank.wr w.d (vredWord w x.lanes) } }))) ∧
  (∀ (s : State) (i : Nat) (w : Insn) (q : Seq) (x : Wave), s.Calm → s.dev.Ready (.wave i) (.vdab 3) w q → s.dev.wave i = some x → w.lt = 0 →
    w.d < x.nv → w.a < x.nv → w.b < x.nv →
    Does (.vperm (.wave i) w) s (Is ((s.dev.issued (.wave i) q).setWave i
      { x with seq := { q with pc := q.pc + 1, steps := q.steps + 1 }
               lanes := x.lanes.mapIdx (fun j l => if l.runs w then l.wr w.d ((nth x.lanes (permSource w j l) .idle).rd w.a) else l) }))))

/-- A lane type that an instruction does not have and a vector register that the wave does not have raise EX_ILLEGAL, which ends the
raster operation with ST_RANGE and takes its waves away (R166, R170, R183).
Local memory, gathers, scatters and atomics of lanes, in ascending order of lanes; helpers store nothing (R64, R169, R173, R174). -/
def Obligations.VectorMemoryAndRaises : Prop :=
  (∀ (s : State) (i : Nat) (w : Insn) (q : Seq) (x : Wave), s.Calm → s.dev.Ready (.wave i) (.vdab 2) w q → s.dev.wave i = some x →
    (w.lt ≠ 0 ∨ x.nv ≤ w.d ∨ x.nv ≤ w.a ∨ x.nv ≤ w.b) →
    Does (.vaddH (.wave i) w) s (fun e =>
      (∀ j y, (j, y) ∈ e.raster.waves → y.op ≠ x.op) ∧ (∀ p ∈ e.raster.passes, p.id ≠ x.op) ∧
      e.ops = s.dev.ops.map (fun o => if o.id = x.op then
        { o with phase := .finished, status := 0x10, result := some (BitVec.ofNat 64 (excResult 0x01 (q.byteAddr q.pc)).toNat) } else o) ∧
      e.mem = s.dev.mem ∧ e.rings = s.dev.rings)) ∧
  (VectorGoes .vldl (.vmem 1) [0] .da (fun w x d _ l d1 l1 =>
    localAt w l < x.words ∧ d1 = d ∧ l1 = l.wr w.d ((tfind x.locals (localAt w l)).getD (BitVec.ofNat 72 (Config.unstated 15 [x.index, x.draw, x.tile, localAt w l])))) ∧
  (∀ (s : State) (i : Nat) (w : Insn) (q : Seq) (x y : Wave) (d1 : Dev) (ls : List Lane), s.Calm → Memory.wf s.dev.mem = true →
    s.dev.Ready (.wave i) (.vmem 1) w q → (s.dev.issued (.wave i) q).wave i = some x → w.lt = 0 → w.d < x.nv → w.a < x.nv →
    LanesGo w (fun d _ l d1 l1 => l1 = l ∧ (if l.helper then d1 = d else
      localAt w l < x.words ∧ ∃ z, d.wave i = some z ∧ d1 = d.setWave i { z with locals := tset z.locals (localAt w l) (l.rd w.d) })) 0
      (s.dev.issued (.wave i) q) x.lanes d1 ls → d1.wave i = some y →
    Does (.vstl (.wave i) w) s (Is (d1.setWave i { y with seq := { y.seq with pc := y.seq.pc + 1 } }))) ∧
  VectorGoes .vldg (.vmem 5) [0] .da (fun w x d _ l d1 l1 =>
    (w.s < 4 → vecAddr w l % vecBytes w.s = 0) ∧
    ∃ b, (d.asked (some (mpCore x.core, fld w.low 32 2))).readV x.fn (vecAddr w l) (vecBytes w.s) .read = (d1, .ok b) ∧ l1 = l.wr w.d (BitVec.ofNat 72 (ofBytes b))) ∧
  VectorGoes .vstg (.vmem 5) [0] .da (fun w x d _ l d1 l1 =>
    l1 = l ∧ (if l.helper then d1 = d.asked (some (mpCore x.core, fld w.low 32 2)) else (w.s < 4 → vecAddr w l % vecBytes w.s = 0) ∧
      (d.asked (some (mpCore x.core, fld w.low 32 2))).writeV x.fn (vecAddr w l) (toBytes (vecBytes w.s) (l.rd w.d).toNat) = (d1, .ok ()))) ∧
  VectorGoes .vatom (.vdabc 6) [0] .dabc (fun w x d _ l d1 l1 =>
    if l.helper then d1 = d ∧ l1 = l
    else vecAddr w l % 8 = 0 ∧
      ∃ old, d.atomic x.fn (vecAddr w l) w.s ((l.rd w.b).setWidth 64) ((l.rd w.c).setWidth 64) = (d1, .ok old) ∧ l1 = l.wr w.d (old.setWidth 72)))

/-- The texture instructions, with the wave's entry for the slot they name; TEX and TEXG only in pixel waves (R175 to R177).
Tile memory, the interlock, KILL, vertex outputs, attributes and derivatives: only in the waves that have them (R178 to R182). An output
write of a lane outside its interlock region waits for the end of the wave; a killed lane becomes a helper and loses its waiting writes. -/
def Obligations.TextureAndPixelInstructions : Prop :=
  (VectorGoes .tex (texShape 1) [0] .dabc (fun w x d i l d1 l1 =>
    x.kind = .pixel ∧ ∃ dm t p, d.texEntry x w.slot = (dm, .ok (some t)) ∧ l1 = l.wr w.d p ∧
      sampled x.core (fun d => d.filter x.fn t (l.ref w) (t.surf.layerOf (l.layer w)) (implicitLod t x i w l).1 (implicitLod t x i w l).2) dm = (d1, .ok p)) ∧
  VectorGoes .texl (texShape 1) [0] .dabc (fun w x d _ l d1 l1 =>
    ∃ dm t p, d.texEntry x w.slot = (dm, .ok (some t)) ∧ l1 = l.wr w.d p ∧
      sampled x.core (fun d => d.filter x.fn t (l.ref w) (t.surf.layerOf (l.layer w)) (clampLod t (f36.value (el36 (l.rd w.b) 1))) [l.uv w]) dm = (d1, .ok p)) ∧
  VectorGoes .texg (texShape 4) [0] .dabc (fun w x d i l d1 l1 =>
    x.kind = .pixel ∧ ∃ dm t ps, d.texEntry x w.slot = (dm, .ok (some t)) ∧
      sampled x.core (fun d => mapGot (fun d (q : (Int × Int) × Nat) =>
        d.wrapped x.fn t (l.ref w) (t.surf.layerOf (l.layer w)) (nth (levelsAt t (implicitLod t x i w l).1) 0 (0, 256)).1 q.1.1 q.1.2) d
        (taps t.surf true (nth (levelsAt t (implicitLod t x i w l).1) 0 (0, 256)).1 (l.uv w).1 (l.uv w).2)) dm = (d1, .ok ps) ∧
      l1 = l.wr w.d (px (lane18 (nth ps 0 0) w.s) (lane18 (nth ps 1 0) w.s) (lane18 (nth ps 2 0) w.s) (lane18 (nth ps 3 0) w.s))) ∧
  VectorGoes .texf (.vdab 1) [0] .dab (fun w x d _ l d1 l1 =>
    ∃ dm t, d.texEntry x w.slot = (dm, .ok (some t)) ∧ el36 (l.rd w.b) 0 < t.surf.levels ∧ el36 (l.rd w.b) 1 < t.surf.layers ∧
      (if toSigned 36 (el36 (l.rd w.a) 0) < 0 ∨ toSigned 36 (el36 (l.rd w.a) 1) < 0 ∨ (t.surf.levelW (el36 (l.rd w.b) 0) : Int) ≤ toSigned 36 (el36 (l.rd w.a) 0) ∨
          (t.surf.levelH (el36 (l.rd w.b) 0) : Int) ≤ toSigned 36 (el36 (l.rd w.a) 1)
       then d1 = { dm with raster := { dm.raster with sampling := none } } ∧ l1 = l.wr w.d 0
       else ∃ p, sampled x.core (fun d =>
         d.texel x.fn t.surf texCtx (el36 (l.rd w.b) 1) (el36 (l.rd w.b) 0) (toSigned 36 (el36 (l.rd w.a) 0)).toNat (toSigned 36 (el36 (l.rd w.a) 1)).toNat) dm =
         (d1, .ok p) ∧ l1 = l.wr w.d (filterTexel { t with compare := 0 } 0 p))) ∧
  VectorGoes .texq (.vec .reg .none .reg false 2) [0] { d := true, a := false, b := true, c := false } (fun w x d _ l d1 l1 =>
    ∃ dm t, d.texEntry x w.slot = (dm, .ok (some t)) ∧ d1 = { dm with raster := { dm.raster with sampling := none } } ∧
      (if w.s = 1 then l1 = l.wr w.d (two36 t.surf.levels t.surf.layers)
       else el36 (l.rd w.b) 0 < t.surf.levels ∧ l1 = l.wr w.d (two36 (t.surf.levelW (el36 (l.rd w.b) 0)) (t.surf.levelH (el36 (l.rd w.b) 0)))))) ∧
  (VectorGoes .pxld (.vec .reg .none .none false 1) [0] { d := true, a := false, b := false, c := false } (fun w x d _ l d1 l1 =>
    pxAtt w ≤ 8 ∧ x.kind = .pixel ∧ l.ilk = 1 ∧ d1 = d ∧ l1 = l.wr w.d (d.pxRead x l (pxAtt w) (pxSmp w))) ∧
  VectorGoes .pxst (.vec .none .reg .none false 2) [0] { d := false, a := true, b := false, c := false } (fun w x d _ l d1 l1 =>
    pxAtt w ≤ 8 ∧ x.kind = .pixel ∧ (pxAtt w = 8 → (d.waveDraw x).late = true) ∧
    (if l.helper then d1 = d ∧ l1 = l
     else if l.ilk = 1 then l1 = l ∧ d1 = d.updTile x (fun t =>
       pxApply (d.descOf x.op) l.x l.y l.cover l.mask t { att := pxAtt w, sample := if w.s = 1 then some (pxSmp w) else none, value := l.rd w.a, blend := false })
     else d1 = d ∧ l1 = { l with defer := l.defer ++ [{ att := pxAtt w, sample := if w.s = 1 then some (pxSmp w) else none, value := l.rd w.a, blend := false }] })) ∧
  VectorGoes .pxbld (.vda 1) [0] .da (fun w x d _ l d1 l1 =>
    pxAtt w ≤ 8 ∧ x.kind = .pixel ∧
    (if l.helper then d1 = d ∧ l1 = l
     else if l.ilk = 1 then
       d1 = d.updTile x (fun t => pxApply (d.descOf x.op) l.x l.y l.cover l.mask t { att := pxAtt w, sample := some (pxSmp w), value := l.rd w.a, blend := true }) ∧
       l1 = l.wr w.d (match (d.descOf x.op).planeOf (pxAtt w) with
         | some a => blendPx ((d.descOf x.op).att a) (l.rd w.a) (d.pxRead x l (pxAtt w) (pxSmp w)) | none => l.rd w.a)
     else d1 = d ∧ l1 = { l with defer := l.defer ++ [{ att := pxAtt w, sample := some (pxSmp w), value := l.rd w.a, blend := true }] })) ∧
  VectorGoes .ilkb (.vec .none .none .none false 1) [0] { d := false, a := false, b := false, c := false } (fun _ x d _ l d1 l1 =>
    x.kind = .pixel ∧ l.ilk = 0 ∧ d1 = d ∧ l1 = { l with ilk := 1 }) ∧
  VectorGoes .ilke (.vec .none .none .none false 1) [0] { d := false, a := false, b := false, c := false } (fun _ x d _ l d1 l1 =>
    x.kind = .pixel ∧ l.ilk = 1 ∧ d1 = d ∧ l1 = { l with ilk := 2 }) ∧
  VectorGoes .kill (.vec .none .none .none false 1) [0] { d := false, a := false, b := false, c := false } (fun _ x d _ l d1 l1 =>
    x.kind = .pixel ∧ d1 = d ∧ l1 = { l with act := 2, defer := [] }) ∧
  VectorGoes .emit (.vec .none .reg .none false 1) [0] { d := false, a := true, b := false, c := false } (fun w x d _ l d1 l1 =>
    x.kind = .vertex ∧ d1 = d ∧
    (if l.helper then l1 = l else w.imm16 % 256 ≤ 1 + (d.waveDraw x).attrs ∧ l1 = { l with out := tset l.out (w.imm16 % 256) (l.rd w.a) })) ∧
  VectorGoes .attr (.vec .reg .none .none false 3) [3, 4] { d := true, a := false, b := false, c := false } (fun w x d _ l d1 l1 =>
    x.kind = .pixel ∧ d1 = d ∧ ∃ p m, d.passOf x.op = some p ∧ p.prims[l.prim]? = some m ∧
      l1 = l.wr w.d (m.attr (d.descOf x.op).samples l.x l.y w.s w.lt (w.imm16 % 16))) ∧
  VectorGoes .deriv (.vda 2) [3, 4] .da (fun w x d i l d1 l1 =>
    x.kind = .pixel ∧ d1 = d ∧
    l1 = l.wr w.d (perElem w.lt (fun a b _ => (laneFmt w.lt).add w.rm w.sat true a b)
      ((nth x.lanes (if w.s = 0 then i / 4 * 4 + i % 4 / 2 * 2 + 1 else i / 4 * 4 + 2 + i % 2) .idle).rd w.a)
      ((nth x.lanes (if w.s = 0 then i / 4 * 4 + i % 4 / 2 * 2 else i / 4 * 4 + i % 2) .idle).rd w.a) 0)))

/-! Audio instructions. -/

/-- Lanes of a slice taken in order: h relates device and bank before to device and bank after in each lane whose predicate holds. -/
def Sys2Proof.Machine.BanksGo (w : Insn) (h : Dev → Nat → Bank → Dev → Bank → Prop) (n : Nat) (d : Dev) (l : List Bank) (e : Dev) (m : List Bank) : Prop :=
  match l with
  | [] => e = d ∧ m = []
  | x :: r =>
    ∃ d1 x1 m1, m = x1 :: m1 ∧ (if x.holds w then h d n x d1 x1 else d1 = d ∧ x1 = x) ∧ Sys2Proof.Machine.BanksGo w h (n + 1) d1 r e m1

/-- The A-profile instruction that `mk` builds completes on a slice that can issue it, when h admits what happens in every lane whose
predicate holds; the program goes to the next index. -/
def Sys2Proof.Machine.AudioGoes (mk : Ctx → Insn → Instr) (use : Insn → AudUse) (abiq : Bool) (h : Insn → Nat → Dev → Nat → Bank → Dev → Bank → Prop) : Prop :=
  ∀ (s : State) (n : Fin 4) (w : Insn) (q : Seq) (d1 : Dev) (b : Bank) (ls : List Bank), s.Calm → s.dev.Ready (.slice n) ((use w).shape abiq w) w q →
    BanksGo w (h w n.val) 0 (s.dev.issued (.slice n) q) (s.dev.lanes (.slice n)) d1 (b :: ls) → d1.Calm → d1.writes = [] → d1.mem = s.dev.mem →
    Does (mk (.slice n) w) s (Is (d1.setSlice n.val
      { d1.slice n.val with
        seq := { (d1.slice n.val).seq with bank := b, pc := (d1.slice n.val).seq.pc + 1 }
        others := ls }))

/-- The A-profile instructions on a slice: accumulators, coefficients, delay lines and state words, node inputs and outputs, rounding,
biquad, ramp and peak (R345 to R348). -/
def Obligations.AudioInstructions : Prop :=
  AudioGoes .amac (fun _ => { dst := false, a := true, aD := true, aS := false, banks := [0, 1, 4, 15], subs := 4 }) false (fun w n d l b d1 b1 =>
    ∃ v, d.refVal w b = .ok v ∧ b1 = b ∧ d1 = d.setAcc n l (accD w) (d.acc n l (accD w) + elemVal (b.rd w.a) (w.s % 2) * v)) ∧
  AudioGoes .amsu (fun _ => { dst := false, a := true, aD := true, aS := false, banks := [0, 1, 4, 15], subs := 4 }) false (fun w n d l b d1 b1 =>
    ∃ v, d.refVal w b = .ok v ∧ b1 = b ∧ d1 = d.setAcc n l (accD w) (d.acc n l (accD w) + -(elemVal (b.rd w.a) (w.s % 2) * v))) ∧
  AudioGoes .aldc (fun _ => { dst := true, a := false, aD := false, aS := false, banks := [0, 1, 4], subs := 4 }) false (fun w _ d _ b d1 b1 =>
    ∃ v, d.refVal w b = .ok v ∧ d1 = d ∧ b1 = b.wr w.d (setElem (b.rd w.d) (w.s % 2) v)) ∧
  AudioGoes .adlr (fun _ => { dst := true, a := false, aD := false, aS := false, banks := [2, 3], subs := 4 }) false (fun w _ d l b d1 b1 =>
    ∃ g, d.gnode (refNode w) = some g ∧ d1 = d ∧
      (if refBank w = 2 then b1 = b.wr w.d (setElem (b.rd w.d) (w.s % 2) (elemVal (tget d.audio.nodeState (stateKey g.node l (fld w.low 0 4)) 0) 0))
       else fld w.low 0 14 < g.delayLen ∧ l < g.channels ∧ refBank w = 3 ∧
         b1 = b.wr w.d (setElem (b.rd w.d) (w.s % 2) (elemVal (BitVec.ofNat 72
           (tget d.audio.delay (g.delayAt l ((d.audio.index % g.delayLen + g.delayLen - fld w.low 0 14) % g.delayLen)) 0)) (w.s / 2 % 2))))) ∧
  AudioGoes .adlw (fun _ => { dst := false, a := true, aD := false, aS := false, banks := [2, 3], subs := 4 }) false (fun w _ d l b d1 b1 =>
    ∃ g, d.gnode (refNode w) = some g ∧ b1 = b ∧
      (if refBank w = 2 then d1 = { d with audio := { d.audio with
         nodeState := tset d.audio.nodeState (stateKey g.node l (fld w.low 0 4)) (BitVec.ofInt 72 (elemVal (b.rd w.a) (w.s % 2))) } }
       else fld w.low 0 14 < g.delayLen ∧ refBank w = 3 ∧
         (if g.channels ≤ l then d1 = d
          else d1 = { d with audio := { d.audio with delay := tset d.audio.delay (g.delayAt l (d.audio.index % g.delayLen)) (setElem (BitVec.ofNat 72 (tget d.audio.delay (g.delayAt l (d.audio.index % g.delayLen)) 0)) (w.s / 2 % 2) (elemVal (b.rd w.a) (w.s % 2))).toNat } }))) ∧
  AudioGoes .ain (fun _ => { dst := true, a := false, aD := false, aS := false, banks := [5], subs := 2 }) false (fun w n d l b d1 b1 =>
    ∃ g, d.gnode (refNode w) = some g ∧ d1 = d ∧
      b1 = b.wr w.d (setElem (b.rd w.d) (w.s % 2) (d.muted g.node (
        if g.isSource then d.sourceSample g ((l + fld w.low 0 3) % 8) d.audio.index
        else s36Val (tget (if d.audio.written.contains (writtenKey n g.node ((l + fld w.low 0 3) % 8)) then d.audio.outs else d.audio.prev)
          (outKey g.node ((l + fld w.low 0 3) % 8)) 0))))) ∧
  AudioGoes .aout (fun _ => { dst := false, a := true, aD := false, aS := false, banks := [5], subs := 2 }) false (fun w n d l b d1 b1 =>
    ∃ g, d.gnode (refNode w) = some g ∧ b1 = b ∧
      (if g.channels ≤ (l + fld w.low 0 3) % 8 then d1 = d
       else d1 = { d with audio := { d.audio with
         outs := tset d.audio.outs (outKey g.node ((l + fld w.low 0 3) % 8)) (fld (b.rd w.a) (36 * (w.s % 2)) 36)
         written := writtenKey n g.node ((l + fld w.low 0 3) % 8) :: d.audio.written } })) ∧
  AudioGoes .arnd (fun _ => { dst := true, a := false, aD := false, aS := true, banks := [], subs := 4 }) false (fun w n d l b d1 b1 =>
    d1 = (if w.s / 2 % 2 = 1 then d.setAcc n l (accS w) 0 else d) ∧
    b1 = b.wr w.d (setElem (b.rd w.d) (w.s % 2) (clampI s36Lo s36Hi (roundShift 0 (d.acc n l (accS w)) 31)))) ∧
  AudioGoes .abiq (fun _ => { dst := true, a := true, aD := false, aS := false, banks := [0], subs := 2 }) true (fun w _ d l b d1 b1 =>
    (d.gnode (refNode w)).isSome = true ∧ fld w.low 0 4 ≤ 14 ∧ ∃ f0 f1 f2 x y z0 z1,
      f0 = d.nodeField (refNode w) (fld w.low 8 6) ∧ f1 = d.nodeField (refNode w) (fld w.low 8 6 + 1) ∧ f2 = d.nodeField (refNode w) (fld w.low 8 6 + 2) ∧
      x = elemVal (b.rd w.a) (w.s % 2) ∧ z0 = toSigned 72 (tget d.audio.nodeState (stateKey (refNode w) l (fld w.low 0 4)) 0).toNat ∧
      z1 = toSigned 72 (tget d.audio.nodeState (stateKey (refNode w) l (fld w.low 0 4 + 1)) 0).toNat ∧
      y = clampI s36Lo s36Hi (roundShift 0 (elemVal f0 0 * x + z0) 31) ∧ b1 = b.wr w.d (setElem (b.rd w.d) (w.s % 2) y) ∧
      d1 = { d with audio := { d.audio with
        nodeState := tset (tset d.audio.nodeState (stateKey (refNode w) l (fld w.low 0 4)) (BitVec.ofInt 72 (sat72 (elemVal f0 1 * x - elemVal f1 1 * y + z1)))) (stateKey (refNode w) l (fld w.low 0 4 + 1)) (BitVec.ofInt 72 (sat72 (elemVal f1 0 * x - elemVal f2 0 * y))) } }) ∧
  AudioGoes .aramp (fun _ => { dst := true, a := true, aD := false, aS := false, banks := [0, 1], subs := 4 }) false (fun w _ d _ b d1 b1 =>
    ∃ t g v, d.refVal w b = .ok t ∧ g = ((elemVal (b.rd w.a) (w.s % 2)).natAbs : Int) ∧ v = elemVal (b.rd w.d) (w.s % 2) ∧ d1 = d ∧
      b1 = b.wr w.d (setElem (b.rd w.d) (w.s % 2) (clampI s36Lo s36Hi (if ((t - v).natAbs : Int) ≤ g then t else if v < t then v + g else v - g)))) ∧
  AudioGoes .apeak (fun w => { dst := false, a := true, aD := false, aS := false, banks := if fld w.low 8 6 = 0 then [0] else [16], subs := 2 }) false
    (fun w _ d l b d1 b1 =>
      ∃ g, d.gnode (refNode w) = some g ∧ b1 = b ∧
        (if g.channels ≤ l then d1 = d
         else d1 = { d with audio := { d.audio with meters := tset d.audio.meters (outKey g.node l) (Nat.max (tget d.audio.meters (outKey g.node l) 0) (Nat.min (elemVal (b.rd w.a) (w.s % 2)).natAbs (2 ^ 35 - 1))) } }))

/-! Firmware instructions. -/

/-- Firmware thread t of core k becomes x; no other field of the device changes but a used step. -/
def Sys2Proof.Machine.FirmwareIs (k : Fin 10) (t : Fin 4) (x : FwThread) (d e : Dev) : Prop :=
  e.fwt k.val t.val = x ∧ (∀ j u, 4 * j + u ≠ 4 * k.val + t.val → e.fwt j u = d.fwt j u) ∧ { e with fw := d.fw, probe := d.probe, bus := d.bus } = d

/-- The opcodes of firmware privilege (R57, R78, R496): CSRs read and written, ERET to EPC with ECODE cleared, IOINV, THRD, HALT and WDOG;
LEDG reads or writes a ledger entry, with values that the manual leaves open. A guest thread takes EX_PRIV for any of them (R51).
PLD reaches DRAM, the scratch partition, the Vitrine and the boot ROM by device-physical address, PST the first two; a store to the boot ROM
is discarded (entry 37), and one to the Vitrine raises EX_MEM, as an unpopulated address does; an access to the internal control space, whose contents the manual does not give, stops (R42, R57, R63). -/
def Obligations.FirmwareAndPhysicalAccess : Prop :=
  (∀ (s : State) (k : Fin 10) (t : Fin 4) (w : Insn) (q : Seq), s.Calm → s.dev.Executes (.firmware k t) .csrr w q →
    Does (.csrr (.firmware k t) w) s (FirmwareIs k t { s.dev.fwt k.val t.val with
      halted := false
      seq := { q with pc := q.pc + 1, steps := q.steps + 1, bank := q.bank.wr w.d (
        if fld w.low 0 12 = 0 then (s.dev.fwt k.val t.val).epc else if fld w.low 0 12 = 1 then (s.dev.fwt k.val t.val).ecode
        else if fld w.low 0 12 = 2 then (s.dev.fwt k.val t.val).eaddr else if fld w.low 0 12 = 3 then (s.dev.fwt k.val t.val).evec
        else if fld w.low 0 12 = 4 then BitVec.ofNat 72 (k.val * 256 + t.val) else if fld w.low 0 12 = 5 then q.base.setWidth 72 else 0) } } s.dev)) ∧
  (∀ (s : State) (k : Fin 10) (t : Fin 4) (w : Insn) (q : Seq), s.Calm → s.dev.Executes (.firmware k t) .csrw w q →
    Does (.csrw (.firmware k t) w) s (FirmwareIs k t { s.dev.fwt k.val t.val with
      halted := false
      epc := if fld w.low 0 12 = 0 then q.bank.rd w.a else (s.dev.fwt k.val t.val).epc
      ecode := if fld w.low 0 12 = 1 then q.bank.rd w.a else (s.dev.fwt k.val t.val).ecode
      evec := if fld w.low 0 12 = 3 then q.bank.rd w.a else (s.dev.fwt k.val t.val).evec
      seq := { q with
        pc := q.pc + 1, steps := q.steps + 1, base := if fld w.low 0 12 = 5 then (q.bank.rd w.a).setWidth 48 else q.base
        length := if fld w.low 0 12 = 5 then firmwareLength ((q.bank.rd w.a).setWidth 48) else q.length } } s.dev)) ∧
  (∀ (s : State) (k : Fin 10) (t : Fin 4) (w : Insn) (q : Seq), s.Calm → s.dev.Executes (.firmware k t) (.bare .firmware) w q →
    q.holds (fld (s.dev.fwt k.val t.val).epc 0 24 : Nat) = true →
    Does (.eret (.firmware k t) w) s (FirmwareIs k t { s.dev.fwt k.val t.val with
      halted := false, ecode := 0, seq := { q with pc := fld (s.dev.fwt k.val t.val).epc 0 24, steps := q.steps + 1 } } s.dev)) ∧
  (∀ (s : State) (k : Fin 10) (t : Fin 4) (w : Insn) (q : Seq) (f : Nat), s.Calm → s.dev.Executes (.firmware k t) (.pair 1) w q →
    f = (q.bank.rd w.a).toNat → f < 64 →
    Does (.ioinv (.firmware k t) w) s (fun e =>
      (e.fn f).tlb = (s.dev.fn f).tlb.filter (fun x => !Config.invRange (q.bank.rd w.b).toNat x.2.va x.2.size) ∧
      (∀ g, g ≠ f → e.fn g = s.dev.fn g) ∧ { e with fns := s.dev.fns, fw := s.dev.fw, probe := s.dev.probe, bus := s.dev.bus } = s.dev)) ∧
  (∀ (s : State) (k : Fin 10) (t : Fin 4) (w : Insn) (q : Seq) (j u : Nat), s.Calm → s.dev.Executes (.firmware k t) (.pair 3) w q →
    j = fld (q.bank.rd w.a) 8 64 → u = fld (q.bank.rd w.a) 0 8 → j < 10 → u < 4 → 4 * j + u ≠ 4 * k.val + t.val →
    Does (.thrd (.firmware k t) w) s (fun e =>
      e.fwt j u = (if w.s = 0 then { s.dev.fwt j u with started := true, halted := false, lastWdog := s.dev.now }
        else if w.s = 1 then { s.dev.fwt j u with started := false } else FwThread.atReset j u) ∧
      e.seq (.firmware k t) = some { q with pc := q.pc + 1, steps := q.steps + 1 } ∧ { e with fw := s.dev.fw, probe := s.dev.probe, bus := s.dev.bus } = s.dev)) ∧
  (∀ (s : State) (k : Fin 10) (t : Fin 4) (w : Insn) (q : Seq), s.Calm → s.dev.Executes (.firmware k t) (.bare .firmware) w q →
    Does (.halt (.firmware k t) w) s (FirmwareIs k t { s.dev.fwt k.val t.val with
      halted := true, seq := { q with pc := q.pc + 1, steps := q.steps + 1 } } s.dev) ∧
    Does (.wdog (.firmware k t) w) s (FirmwareIs k t { s.dev.fwt k.val t.val with
      halted := false, lastWdog := s.dev.now, seq := { q with pc := q.pc + 1, steps := q.steps + 1 } } s.dev)) ∧
  (∀ (s : State) (k : Fin 10) (t : Fin 4) (w : Insn) (q : Seq), s.Calm →
    s.dev.Executes (.firmware k t) { formats := [0], dst := .reg, a := .reg, b := .none, c := false, subs := 1, prof := .firmware } w q →
    Does (.ledg (.firmware k t) w) s (fun e =>
      { e with fw := s.dev.fw, probe := s.dev.probe, free := s.dev.free, rings := s.dev.rings, bus := s.dev.bus } = s.dev ∧
      (e.rings = s.dev.rings ∨ ∃ g a n, e.rings = (s.dev.updEntry g a (Entry.rewritten n)).rings) ∧
      ∃ v, e.seq (.firmware k t) = some { q with pc := q.pc + 1, steps := q.steps + 1, bank := q.bank.wr w.d v })) ∧
  (∀ (s : State) (g : Fin 256) (w : Insn) (q : Seq) (a : Nat), s.Calm → s.dev.canIssue (.guest g) = true → s.dev.seq (.guest g) = some q →
    (s.dev.ring g.val).thread.acc = some a → q.steps < q.limit → q.holds q.pc = true → ((s.dev.unstep (.guest g)).fetch (.guest g) q).2 = none →
    Does (.csrr (.guest g) w) s (ProgramEnded g a 0x10 (some (excResult 0x02 (q.byteAddr q.pc))) s.dev) ∧
    Does (.halt (.guest g) w) s (ProgramEnded g a 0x10 (some (excResult 0x02 (q.byteAddr q.pc))) s.dev)) ∧
  (∀ (s : State) (k : Fin 10) (t : Fin 4) (w : Insn) (q : Seq) (a n : Nat), s.Calm → s.dev.Executes (.firmware k t) (.mem 6 .firmware) w q →
    a = q.bank.addr w → n = accessBytes w.s → accessExc w.s w.d a = none → s.dev.touches a n .control = false → s.dev.physExc true a n = none →
    Does (.pld (.firmware k t) w) s (FirmwareIs k t { s.dev.fwt k.val t.val with
      halted := false
      seq := { q with
        pc := q.pc + 1, steps := q.steps + 1
        bank := if w.s = 5 then (q.bank.wr w.d (BitVec.ofNat 72 (ofBytes ((s.dev.physRead a n).take 9)))).wr (w.d + 1) (BitVec.ofNat 72 (ofBytes ((s.dev.physRead a n).drop 9)))
                else q.bank.wr w.d (BitVec.ofNat 72 (ofBytes (s.dev.physRead a n))) } } s.dev)) ∧
  (∀ (s : State) (k : Fin 10) (t : Fin 4) (w : Insn) (q : Seq) (a n : Nat), s.Calm → Memory.wf s.dev.mem = true →
    s.dev.Executes (.firmware k t) (.mem 6 .firmware) w q →
    a = q.bank.addr w → n = accessBytes w.s → accessExc w.s w.d a = none → s.dev.touches a n .control = false → s.dev.physExc false a n = none →
    Does (.pst (.firmware k t) w) s (fun e =>
      e.fwt k.val t.val = { s.dev.fwt k.val t.val with halted := false, seq := { q with pc := q.pc + 1, steps := q.steps + 1 } } ∧
      { e with mem := s.dev.mem, poison := s.dev.poison, fw := s.dev.fw, probe := s.dev.probe, bus := s.dev.bus } = s.dev ∧
      (∀ x, x < a ∨ a + n ≤ x → cellGet e.mem x = cellGet s.dev.mem x) ∧
      (s.dev.touches a n .rom = true → e.mem = s.dev.mem) ∧
      (s.dev.touches a n .rom = false → w.s < 5 → ∀ i, i < n → cellGet e.mem (a + i) = BitVec.ofNat 8 ((q.bank.rd w.d).toNat / 256 ^ i)))) ∧
  (∀ (s : State) (k : Fin 10) (t : Fin 4) (w : Insn) (q : Seq) (a n : Nat), s.dev.Executes (.firmware k t) (.mem 6 .firmware) w q →
    a = q.bank.addr w → n = accessBytes w.s → accessExc w.s w.d a = none →
    s.dev.touches a n .control = true → s.dev.touches a n .none = false →
    exec (.pld (.firmware k t) w) s = .fault (.controlSpace a) ∧ exec (.pst (.firmware k t) w) s = .fault (.controlSpace a)) ∧
  (∀ (s : State) (k : Fin 10) (t : Fin 4) (w : Insn) (q : Seq) (a n : Nat), s.Calm → s.dev.Executes (.firmware k t) (.mem 6 .firmware) w q →
    a = q.bank.addr w → n = accessBytes w.s → accessExc w.s w.d a = none → s.dev.touches a n .none = true → (s.dev.fwt k.val t.val).ecode = 0 →
    Does (.pld (.firmware k t) w) s (fun e => (e.fwt k.val t.val).ecode = 6 ∧ (e.fwt k.val t.val).eaddr = BitVec.ofNat 72 a ∧
      (e.fwt k.val t.val).seq.pc = fld (s.dev.fwt k.val t.val).evec 0 24 ∧ { e with fw := s.dev.fw, probe := s.dev.probe, bus := s.dev.bus } = s.dev)) ∧
  (∀ (s : State) (k : Fin 10) (t : Fin 4) (w : Insn) (q : Seq) (a n : Nat), s.Calm → s.dev.Executes (.firmware k t) (.mem 6 .firmware) w q →
    a = q.bank.addr w → n = accessBytes w.s → accessExc w.s w.d a = none → s.dev.touches a n .control = false →
    (s.dev.touches a n .none = true ∨ s.dev.touches a n .vitrine = true) → (s.dev.fwt k.val t.val).ecode = 0 →
    Does (.pst (.firmware k t) w) s (fun e => (e.fwt k.val t.val).ecode = 6 ∧ (e.fwt k.val t.val).eaddr = BitVec.ofNat 72 a ∧
      (e.fwt k.val t.val).seq.pc = fld (s.dev.fwt k.val t.val).evec 0 24 ∧ { e with fw := s.dev.fw, probe := s.dev.probe, bus := s.dev.bus } = s.dev))

/-! Rings, items, operations and records. -/

/-- The command completes with device d: what d has stored is in memory, its accesses have passed the lattice, and the device is d otherwise. -/
def Sys2Proof.Machine.Becomes (i : Instr) (s : State) (d : Dev) : Prop :=
  Does i s (Is d)

/-- A calm machine with its memory in canonical form. -/
def Sys2Proof.Machine.State.Steady (s : State) : Prop := s.Calm ∧ Memory.wf s.dev.mem = true

/-- A request of function f's host arrives at device d: the function can be reached and the device does not sleep; during an entry to a sleep
state the request has fired HOSTm (R434, R439). -/
def Sys2Proof.Machine.Arrives (s : State) (f : Nat) (d : Dev) : Prop :=
  s.Steady ∧ s.dev.hostReach f = true ∧ s.dev.asleep = false ∧ d = s.dev.hostFired f

/-- Only the error registers and the error messages of functions have changed (R122). -/
def Sys2Proof.Machine.ErrorsOnly (d e : Dev) : Prop :=
  { e with fns := d.fns, ports := d.ports, bus := d.bus } = d ∧
  (∀ h, { e.fn h with errStat := (d.fn h).errStat, aerUnc := (d.fn h).aerUnc, aerCor := (d.fn h).aerCor } = d.fn h) ∧
  ∀ p, { e.port p with errs := (d.port p).errs } = d.port p

/-- A doorbell inside the ring's free room moves TAIL and counts the items offered, any other is discarded, sets DB_OVERRUN and raises EV_FAULT (R88);
CMPL_HEAD moves HEAD within the records written, any other is discarded and sets HEAD_INVALID (R89), with a record kept as without one; RING_CTL takes a
defined depth, which changes only while the ring is disabled and empty (R86, R87). A function in reset discards all three (R158), and a host whose request
cannot arrive changes nothing but the error registers of a function in D3hot. -/
def Obligations.RingRegisters : Prop :=
  (∀ (s : State) (f : Fin 64) (k : Fin 4) (v : BitVec 32) (d : Dev) (r : Ring) (t : BitVec 16), Arrives s f.val d → d.resetting f.val = false →
    r = d.ring (4 * f.val + k.val) → t = v.setWidth 16 →
    ((t - r.tail).toNat ≤ (r.acc + BitVec.ofNat 16 (2 ^ r.depthLog2.toNat) - r.tail).toNat →
      Becomes (.doorbell f k v) s (d.setRing (4 * f.val + k.val) { r with tail := t, curOffered := r.curOffered + (t - r.tail).toNat })) ∧
    ((r.acc + BitVec.ofNat 16 (2 ^ r.depthLog2.toNat) - r.tail).toNat < (t - r.tail).toNat →
      Becomes (.doorbell f k v) s ((d.setRing (4 * f.val + k.val) { r with err := setBit r.err 0 true }).setEv f.val 5))) ∧
  (∀ (s : State) (f : Fin 64) (k : Fin 4) (v : BitVec 32) (d : Dev) (r : Ring) (h : BitVec 16), Arrives s f.val d → d.resetting f.val = false →
    r = d.ring (4 * f.val + k.val) → h = v.setWidth 16 → r.kept = none →
    ((h - r.head).toNat ≤ (r.cmplTail - r.head).toNat → Becomes (.cmplHead f k v) s (d.setRing (4 * f.val + k.val) { r with head := h })) ∧
    ((r.cmplTail - r.head).toNat < (h - r.head).toNat →
      Becomes (.cmplHead f k v) s (d.setRing (4 * f.val + k.val) { r with err := setBit r.err 3 true }))) ∧
  (∀ (s : State) (f : Fin 64) (k : Fin 4) (v : BitVec 32) (d : Dev) (r : Ring) (h : BitVec 16), Arrives s f.val d → d.resetting f.val = false →
    r = d.ring (4 * f.val + k.val) → h = v.setWidth 16 → Does (.cmplHead f k v) s (fun e =>
      (e.ring (4 * f.val + k.val)).head = (if (h - r.head).toNat ≤ (r.cmplTail - r.head).toNat then h else r.head) ∧
      bit (e.ring (4 * f.val + k.val)).err 3 = (bit r.err 3 || decide ((r.cmplTail - r.head).toNat < (h - r.head).toNat)))) ∧
  (∀ (s : State) (f : Fin 64) (k : Fin 4) (v : BitVec 32) (d : Dev) (r : Ring), Arrives s f.val d → d.resetting f.val = false →
    r = d.ring (4 * f.val + k.val) →
    (4 ≤ fld v 4 4 → fld v 4 4 ≤ 10 → (fld v 4 4 = r.depthLog2.toNat ∨ (r.enable = false ∧ r.inflight = 0)) →
      Becomes (.ringCtl f k v) s
        (d.setRing (4 * f.val + k.val) { r with enable := bit v 31, depthLog2 := BitVec.ofNat 4 (fld v 4 4), every := v.setWidth 4 })) ∧
    ((fld v 4 4 < 4 ∨ 10 < fld v 4 4 ∨ (fld v 4 4 ≠ r.depthLog2.toNat ∧ (r.enable = true ∨ r.inflight ≠ 0))) → Becomes (.ringCtl f k v) s d)) ∧
  (∀ (s : State) (f : Fin 64) (k : Fin 4) (v : BitVec 32) (d : Dev), Arrives s f.val d → d.resetting f.val = true →
    Becomes (.doorbell f k v) s d ∧ Becomes (.cmplHead f k v) s d ∧ Becomes (.ringCtl f k v) s d) ∧
  (∀ (s : State) (f : Fin 64) (k : Fin 4) (v : BitVec 32), s.Steady → s.dev.hostReach f.val = false →
    ((s.dev.fn f.val).d3hot = false → Becomes (.doorbell f k v) s s.dev ∧ Becomes (.cmplHead f k v) s s.dev ∧ Becomes (.ringCtl f k v) s s.dev) ∧
    Does (.doorbell f k v) s (ErrorsOnly s.dev) ∧ Does (.cmplHead f k v) s (ErrorsOnly s.dev) ∧ Does (.ringCtl f k v) s (ErrorsOnly s.dev))

/-- An item is admitted only while R91's conditions hold: it is read once, takes the next accession number and ACC counts it; one with
a reserved bit set is over at once with ST_BAD_ITEM, and one that cannot be read with the status of the cause and ITEM_FAULT (R84, R85, R91). Past
sixteen entries and the shared ones that it holds the ring takes a shared one (R91, R93). An admitted item starts on its free ring thread with R80's registers when its header is
valid, and ends with EX_HEADER when it is not (R79, R80, R83). -/
def Obligations.ItemsAdmittedAndStarted : Prop :=
  (∀ (s : State) (g : Fin 256) (d1 : Dev) (bytes : List Byte) (r : Ring) (item : W144), s.Steady → s.dev.mayAdmit g.val = true →
    (s.dev.ring g.val).entries.length < 16 + (s.dev.ring g.val).shared → r = s.dev.ring g.val →
    s.dev.readV (g.val / 4) ((r.base.toNat + 18 * (r.acc.toNat % 2 ^ r.depthLog2.toNat)) % 2 ^ 48) 18 .read = (d1, .ok bytes) →
    item = BitVec.ofNat 144 (ofBytes bytes) →
    Becomes (.itemAdmit g) s (d1.setRing g.val
      { r with
        acc := r.acc + 1, nextAcc := r.nextAcc + 1, curAdmitted := r.curAdmitted + 1
        entries := r.entries ++
          [{ acc := r.nextAcc, item := item, gen := (s.dev.fn (g.val / 4)).gen
             phase := if fld item 54 6 = 0 ∧ fld item 48 4 = 0 then .unstarted else .ended
             progStatus := if fld item 54 6 = 0 ∧ fld item 48 4 = 0 then 0 else 0x10
             result := if fld item 54 6 = 0 ∧ fld item 48 4 = 0 then none else some 0
             ops := [], runs := 0, interrupts := 0, txcs := [], squashed := false, covered := false }] })) ∧
  (∀ (s : State) (g : Fin 256) (d1 : Dev) (cause va : Nat) (r : Ring), s.Steady → s.dev.mayAdmit g.val = true →
    (s.dev.ring g.val).entries.length < 16 + (s.dev.ring g.val).shared → r = s.dev.ring g.val →
    s.dev.readV (g.val / 4) ((r.base.toNat + 18 * (r.acc.toNat % 2 ^ r.depthLog2.toNat)) % 2 ^ 48) 18 .read = (d1, .error (cause, va)) →
    Does (.itemAdmit g) s (fun e =>
      (e.ring g.val).err = setBit r.err 2 true ∧ (e.ring g.val).acc = r.acc + 1 ∧ (e.ring g.val).nextAcc = r.nextAcc + 1 ∧
      ((e.ring g.val).entries.getLast?).map (fun x => (x.acc, x.phase, x.progStatus)) = some (r.nextAcc, .ended, causeStatus cause) ∧
      bit (e.fn (g.val / 4)).evStatus 5 = true ∧ e.mem = s.dev.mem ∧ (∀ h, h ≠ g.val → e.ring h = s.dev.ring h) ∧
      { e with rings := s.dev.rings, fns := s.dev.fns, msgs := s.dev.msgs, free := s.dev.free, bus := s.dev.bus } = s.dev)) ∧
  (∀ (s : State) (g : Fin 256), s.Steady → s.dev.mayAdmit g.val = false → Becomes (.itemAdmit g) s s.dev) ∧
  (∀ (s : State) (g : Fin 256), s.Steady → s.dev.mayAdmit g.val = true → 16 + (s.dev.ring g.val).shared ≤ (s.dev.ring g.val).entries.length →
    (s.dev.grantsShared g.val = false → Becomes (.itemAdmit g) s s.dev) ∧
    (s.dev.grantsShared g.val = true → Does (.itemAdmit g) s (fun e =>
      e.rrGrant = g.val ∧ (e.ring g.val).acc = (s.dev.ring g.val).acc + 1 ∧ (e.ring g.val).entries.length = (s.dev.ring g.val).entries.length + 1 ∧
      (e.ring g.val).shared = (s.dev.ring g.val).shared + 1 ∧
      (∀ h, h ≠ g.val → e.ring h = s.dev.ring h)))) ∧
  (∀ (d : Dev) (g : Nat), d.mayAdmit g = true → (d.fn (g / 4)).hold = false ∧ d.resetting (g / 4) = false ∧ (d.ring g).enable = true ∧
    bit (d.ring g).err 1 = false ∧ (d.ring g).acc ≠ (d.ring g).tail ∧ (d.ring g).inflight < 128 ∧
    (d.ring g).inflight + ((d.ring g).cmplTail - (d.ring g).head).toNat < 2 ^ (d.ring g).depthLog2.toNat) ∧
  (∀ (s : State) (g : Fin 256) (x : Entry) (d0 d1 : Dev) (ws : List W72) (idle : Thread), s.Steady →
    (s.dev.ring g.val).entries.find? (fun e => e.phase = .unstarted && !e.covered) = some x → s.dev.threadUp g.val = true →
    (s.dev.ring g.val).thread.acc = none → s.dev.resetting (g.val / 4) = false →
    (bit x.item 53 = true → ∀ y ∈ (s.dev.ring g.val).entries, y.acc < x.acc → y.covered = true) →
    idle = { Thread.idle with acc := some x.acc, seq := { Seq.idle with base := BitVec.ofNat 48 (fld x.item 102 42 * 64) } } →
    d0 = (s.dev.setRing g.val
      { s.dev.ring g.val with
        thread := idle
        entries := (s.dev.ring g.val).entries.map (fun e => if e.acc = x.acc then { e with phase := .running, runs := e.runs + 1 } else e) }) →
    (∀ cause va, d0.readWords (g.val / 4) (fld x.item 102 42 * 64) 2 .exec = (d1, .error (cause, va)) →
      Does (.itemStart g) s (fun e =>
        (e.ring g.val).thread = Thread.idle ∧ (cause ≠ 0xE → bit (e.fn (g.val / 4)).evStatus 5 = true) ∧
        (e.ring g.val).entries = (d0.ring g.val).entries.map (fun y => if y.acc = x.acc then
          { y with phase := .ended, progStatus := causeStatus cause, result := some (excResult (causeExc cause) (fld x.item 102 42 * 64)) } else y) ∧
        { e with rings := s.dev.rings, fns := s.dev.fns, msgs := s.dev.msgs, free := s.dev.free, bus := s.dev.bus } = s.dev)) ∧
    (d0.readWords (g.val / 4) (fld x.item 102 42 * 64) 2 .exec = (d1, .ok ws) →
    (∀ h, checkHeader 0 (nth ws 0 0) (nth ws 1 0) = some h →
      Does (.itemStart g) s (fun e =>
        (e.ring g.val).thread =
          { idle with
            seq := { bank := { g := [(1, BitVec.ofNat 72 (fld x.item 60 42 * 64)), (2, BitVec.ofNat 72 (9 * h.params)), (3, BitVec.ofNat 72 x.acc),
                                     (4, BitVec.ofNat 72 (fld x.item 0 48))], k := 1 }
                     pc := h.entry, stack := [], base := BitVec.ofNat 48 (fld x.item 102 42 * 64), length := h.length, limit := h.limit, steps := 0 }
            paramBase := BitVec.ofNat 48 (fld x.item 60 42 * 64), paramLen := h.params } ∧
        (e.ring g.val).entries = (d0.ring g.val).entries ∧ (∀ h, h ≠ g.val → e.ring h = s.dev.ring h) ∧
        { e with rings := s.dev.rings, fns := s.dev.fns, free := s.dev.free, bus := s.dev.bus } = s.dev)) ∧
    (checkHeader 0 (nth ws 0 0) (nth ws 1 0) = none →
      Does (.itemStart g) s (fun e =>
        (e.ring g.val).thread = Thread.idle ∧
        (e.ring g.val).entries = (d0.ring g.val).entries.map (fun y => if y.acc = x.acc then
          { y with phase := .ended, progStatus := 0x10, result := some (BitVec.ofNat 64 (0x0C * 2 ^ 56 + fld x.item 102 42 * 64)) } else y) ∧
        { e with rings := s.dev.rings, fns := s.dev.fns, free := s.dev.free, bus := s.dev.bus } = s.dev)))) ∧
  (∀ (s : State) (g : Fin 256), s.Steady → (s.dev.ring g.val).thread.acc ≠ none → Becomes (.itemStart g) s s.dev)

/-- A completion record is 18 bytes: accession number, status, flags and result (R99), and a reset record first and last accession number,
generation and mode (R100). The oldest item that is done gets its record at the next slot, CMPL_TAIL and DONE_ACCESSION count it, and the completion
event is raised when NOTIFY or the interval asks for it (R82, R86, R90, R95); a record that cannot be written is kept with CMPL_FAULT, tried again
by CMPL_HEAD and at epoch boundaries (R95); the wait for the event ends after 20 µs (R90). -/
def Obligations.CompletionRecords : Prop :=
  (∀ e : Entry, fld e.record 80 64 = e.acc % 2 ^ 64 ∧ fld e.record 72 8 = e.status.toNat ∧ bit e.record 71 = false ∧
    bit e.record 67 = e.ops.any (fun x => x.2.superseded) ∧ bit e.record 66 = e.ops.any (fun x => x.2.deferred) ∧
    bit e.record 65 = e.ops.any (fun x => x.2.late) ∧ bit e.record 64 = (decide (1 < e.runs) || e.ops.any (fun x => x.2.replayed)) ∧
    fld e.record 0 64 = e.resultField.toNat ∧
    (e.squashed = false → (∀ x ∈ e.ops, x.2.cancelled = false) → e.progStatus ≠ 0 → e.status = e.progStatus) ∧
    (e.squashed = true → e.status = 0x02) ∧
    (e.squashed = false → (∀ x ∈ e.ops, x.2.cancelled = false ∧ x.2.status = 0) → e.progStatus = 0 → e.status = 0)) ∧
  (∀ first gen mode last : Nat, fld (resetRecord first gen mode last) 80 64 = first % 2 ^ 64 ∧ fld (resetRecord first gen mode last) 72 8 = gen % 256 ∧
    bit (resetRecord first gen mode last) 71 = true ∧ fld (resetRecord first gen mode last) 65 2 = mode % 4 ∧
    fld (resetRecord first gen mode last) 0 64 = last % 2 ^ 64) ∧
  (∀ (s : State) (g : Fin 256) (x : Entry), s.Steady → s.dev.runs 3 = true → (s.dev.ring g.val).kept = none → s.dev.recordable g.val = some x →
    Becomes (.completionRecordWrite g) s (s.dev.writeRecord g.val x.record x.acc (bit x.item 52))) ∧
  (∀ (s : State) (g : Fin 256), s.Steady → s.dev.runs 3 = true → (s.dev.ring g.val).kept = none → s.dev.recordable g.val = none →
    Becomes (.completionRecordWrite g) s s.dev) ∧
  (∀ (d : Dev) (g : Nat) (x : Entry), d.recordable g = some x → x.phase = .ended ∧ (∀ y ∈ x.ops, y.2.done = true) ∧ (d.ring g).kept = none ∧
    (d.ring g).entries.find? (fun e => !e.covered) = some x) ∧
  (∀ (d d1 : Dev) (g last : Nat) (rec : W144) (notify : Bool), d.writeV (g / 4) (d.ring g).recordAddr (toBytes 18 rec.toNat) = (d1, .ok ()) →
    (d.ring g).recordAddr = ((d.ring g).cmplBase.toNat + 18 * ((d.ring g).cmplTail.toNat % 2 ^ (d.ring g).depthLog2.toNat)) % 2 ^ 48 ∧
    (d.writeRecord g rec last notify).writes = d1.writes ∧
    ((d.writeRecord g rec last notify).ring g).cmplTail = (d.ring g).cmplTail + 1 ∧ ((d.writeRecord g rec last notify).ring g).doneAcc = last ∧
    ((d.writeRecord g rec last notify).ring g).kept = none ∧
    (notify = true ∨ (d.ring g).every.toNat ≤ (d.ring g).sinceEv →
      bit ((d.writeRecord g rec last notify).fn (g / 4)).evStatus (g % 4) = true ∧ ((d.writeRecord g rec last notify).ring g).sinceEv = 0) ∧
    (notify = false → (d.ring g).sinceEv < (d.ring g).every.toNat →
      ((d.writeRecord g rec last notify).ring g).sinceEv = (d.ring g).sinceEv + 1 ∧ ((d.writeRecord g rec last notify).ring g).oldestRec.isSome = true)) ∧
  (∀ (d d1 : Dev) (g last cause va : Nat) (rec : W144) (notify : Bool),
    d.writeV (g / 4) (d.ring g).recordAddr (toBytes 18 rec.toNat) = (d1, .error (cause, va)) → d.resetting (g / 4) = false →
    ((d.writeRecord g rec last notify).ring g) = { d.ring g with kept := some rec, lost := false, err := setBit (d.ring g).err 1 true } ∧
    bit ((d.writeRecord g rec last notify).fn (g / 4)).evStatus 5 = true) ∧
  (∀ (s : State) (g : Fin 256) (rec : W144), s.Steady → s.dev.runs 3 = true → (s.dev.ring g.val).kept = some rec → (s.dev.ring g.val).lost = false →
    Becomes (.cmplRetry g) s (s.dev.writeRecord g.val rec (s.dev.recordLast g.val rec).1 (s.dev.recordLast g.val rec).2)) ∧
  (∀ (s : State) (f : Fin 64) (k : Fin 4) (v : BitVec 32) (d : Dev) (r : Ring) (rec : W144), Arrives s f.val d → d.resetting f.val = false →
    r = d.ring (4 * f.val + k.val) → r.kept = some rec → r.lost = false → ((v.setWidth 16 : BitVec 16) - r.head).toNat ≤ (r.cmplTail - r.head).toNat →
    Becomes (.cmplHead f k v) s ((d.setRing (4 * f.val + k.val) { r with head := v.setWidth 16 }).writeRecord (4 * f.val + k.val) rec
      (d.recordLast (4 * f.val + k.val) rec).1 (d.recordLast (4 * f.val + k.val) rec).2)) ∧
  (∀ (s : State) (g : Fin 256) (t at_ : Nat), s.Steady → (s.dev.ring g.val).oldestRec = some t → t + 20000 ≤ Nat.max s.dev.now at_ →
    Becomes (.completionCoalesceTimeout g at_) s
      ((({ s.dev with now := Nat.max s.dev.now at_ } : Dev).setRing g.val { s.dev.ring g.val with sinceEv := 0, oldestRec := none }).setEv (g.val / 4) (g.val % 4))) ∧
  (∀ (s : State) (g : Fin 256) (at_ : Nat), s.Steady → (s.dev.ring g.val).oldestRec = none → Becomes (.completionCoalesceTimeout g at_) s s.dev)

/-- At an epoch boundary every ring's counts of a complete epoch are taken over and begin again, the threads that wait for
the boundary see it, BLOCKED counts an epoch in which an item that was
offered at its start still waits, and the ports' written budgets come into force (R86, R113, R128). A sequencer-core reset stops the core's guest
threads, discards their open transactions and unreleased operations and counts an interruption of each item, the fourth of which ends it with
ST_TIMEOUT and result 4; the restart begins every interrupted item again (R105, R109). -/
def Obligations.EpochsAndCoreResets : Prop :=
  (∀ (s : State) (at_ : Nat), s.Steady → s.dev.awake = true → at_ % 1000000 = 0 → s.dev.now ≤ at_ → s.dev.epochAt < at_ → s.dev.commits = [] →
    (∀ g, (s.dev.ring g).kept = none) →
    Does (.epochBoundary at_) s (fun e =>
      e.now = at_ ∧ e.epochAt = at_ ∧ e.mem = s.dev.mem ∧ e.ops = s.dev.ops ∧ e.fns = s.dev.fns ∧ e.evCount 4 0 = s.dev.evCount 4 0 + 1 ∧
      (∀ p, p < 4 → (e.port p).inForce = (s.dev.port p).written ∧ (e.port p).written = (s.dev.port p).written) ∧
      (∀ g, e.ring g =
        { s.dev.ring g with
          thread := { (s.dev.ring g).thread with wait := (s.dev.ring g).thread.wait.meet 4 0 at_ }
          offered := Nat.min (s.dev.ring g).curOffered 0xFFFF, admitted := Nat.min (s.dev.ring g).curAdmitted 0xFFFF, curOffered := 0, curAdmitted := 0
          blocked := if (s.dev.ring g).curAdmitted < (s.dev.ring g).backlog then Nat.min (2 ^ 24 - 1) ((s.dev.ring g).blocked + 1) else (s.dev.ring g).blocked
          backlog := ((s.dev.ring g).tail - (s.dev.ring g).acc).toNat }))) ∧
  (∀ (s : State) (at_ : Nat), s.Steady → (s.dev.awake = false ∨ at_ % 1000000 ≠ 0 ∨ at_ < s.dev.now ∨ at_ ≤ s.dev.epochAt) →
    Becomes (.epochBoundary at_) s s.dev) ∧
  (∀ (s : State) (c : Fin 8), s.Steady → s.dev.awake = true → tfind s.dev.coreDown c.val = none →
    Does (.sequencerCoreReset c) s (fun e =>
      tfind e.coreDown c.val = some s.dev.now ∧ { e with rings := s.dev.rings, coreDown := s.dev.coreDown, bus := s.dev.bus } = s.dev ∧
      (∀ g, g % 8 ≠ c.val → e.ring g = s.dev.ring g) ∧
      (∀ g acc, g < 256 → g % 8 = c.val → (s.dev.ring g).thread.acc = some acc → ∀ x, s.dev.entry g acc = some x →
        (x.interrupts < 3 → e.ring g =
          { s.dev.ring g with
            thread := { (s.dev.ring g).thread with buf := [], tx := none, wait := .none }
            entries := (s.dev.ring g).entries.map (fun y => if y.acc = acc then { y with interrupts := y.interrupts + 1 } else y) }) ∧
        (3 ≤ x.interrupts → (e.ring g).thread = Thread.idle ∧ (e.ring g).entries = (s.dev.ring g).entries.map (fun y => if y.acc = acc then
          { y with interrupts := y.interrupts + 1, phase := .ended, progStatus := 0x12, result := some 4 } else y))))) ∧
  (∀ (s : State) (c : Fin 8) (at_ t : Nat), s.Steady → s.dev.awake = true → tfind s.dev.coreDown c.val = some t →
    Does (.sequencerCoreRestart c at_) s (fun e =>
      e.coreDown = tdel s.dev.coreDown c.val ∧ e.now = Nat.max s.dev.now at_ ∧ (∀ g, g % 8 ≠ c.val → e.ring g = s.dev.ring g) ∧ e.ops = s.dev.ops ∧
      (∀ g, g < 256 → g % 8 = c.val → (s.dev.ring g).thread.acc = none → e.ring g = s.dev.ring g) ∧ e.mem = s.dev.mem)) ∧
  (∀ (s : State) (c : Fin 8) (at_ : Nat), s.Steady → tfind s.dev.coreDown c.val = none → Becomes (.sequencerCoreRestart c at_) s s.dev)

/-! Function resets, virtual functions and the host's view. -/

/-- The programs of function f have stopped: its threads are free, its waiting commits are withdrawn and, where `cancel` says so, its released and
started operations are to be cancelled; nothing of another function has changed. -/
def Sys2Proof.Machine.FunctionStops (f : Nat) (cancel : Bool) (d e : Dev) : Prop :=
  (∀ g, g / 4 = f → (e.ring g).thread.acc = none ∧ { e.ring g with thread := (d.ring g).thread, entries := (d.ring g).entries } = d.ring g) ∧
  (∀ g, g / 4 ≠ f → e.ring g = d.ring g) ∧ (∀ h, h ≠ f → e.fn h = d.fn h) ∧
  (∀ g acc x, g / 4 = f → (d.ring g).thread.acc = some acc → x ∈ (e.ring g).entries → x.acc = acc → x.phase = .ended ∧ x.squashed = true) ∧
  e.ops = d.ops.map (fun o => if cancel && o.fn = f && (o.phase = .released || o.phase = .started) then { o with cancel := true } else o) ∧
  e.commits = d.commits.filter (fun c => c.ring / 4 ≠ f) ∧ { e with rings := d.rings, fns := d.fns, ops := d.ops, commits := d.commits, bus := d.bus } = d

/-- A configuration request of function f's host arrives at device d: the function exists, its link is up and the device does not sleep. -/
def Sys2Proof.Machine.Configured (s : State) (f : Nat) (d : Dev) : Prop :=
  s.Steady ∧ s.dev.cfgReach f = true ∧ s.dev.asleep = false ∧ d = s.dev.hostFired f

/-- Command i begins a reset of function f from device d, in the function's RESET_MODE: a drain lets its work run on to the drain limit, a squash
and a generation discard stop its programs; a reset of a generation that an operation still carries is held (R98, R157, R158). -/
def Sys2Proof.Machine.ResetBegins (i : Instr) (s : State) (d : Dev) (f : Nat) (cfg : Bool) : Prop :=
  (fld (d.obj 0x0C f 1) 2 2 = 0 → ∀ r : FnReset,
    r = { mode := 1, held := d.wouldCollide f, begun := d.now, limitAt := d.now + fld (d.obj 0x0C f 1) 8 8 * 1000000, cfg := cfg, vanish := false
          waitFrom := [], keepFault := false } →
    Becomes i s (d.setFn f { d.fn f with rst := some r })) ∧
  (fld (d.obj 0x0C f 1) 2 2 = 1 → Does i s (fun e =>
    ((e.fn f).rst.map (fun r => (r.mode, r.held, r.cfg, r.vanish))) = some (2, d.wouldCollide f, cfg, false) ∧
    (d.wouldCollide f = false → FunctionStops f true d e) ∧ (d.wouldCollide f = true → { e with fns := d.fns, bus := d.bus } = d ∧ ∀ h, h ≠ f → e.fn h = d.fn h))) ∧
  (fld (d.obj 0x0C f 1) 2 2 = 2 → Does i s (fun e =>
    ((e.fn f).rst.map (fun r => (r.mode, r.held, r.cfg, r.vanish))) = some (3, d.wouldCollide f, cfg, false) ∧
    (∀ k, k < 4 → ∀ r, (e.fn f).rst = some r → tfind r.waitFrom k = d.firstOpen (4 * f + k)) ∧ FunctionStops f (!d.wouldCollide f) d e))

/-- An engine starts an operation by reading its descriptor once; one of an older generation is discarded, a type or length that its
engine does not define completes ST_RANGE, a DMA operation waits while 16 run (R412), and a descriptor that cannot be read ends it with the cause's status (R66, R71, R101, R104). A finished
operation's index is counted complete once with what the engine reported, which the WAITEV of its item's thread sees (R72); one of an older generation is not (R29, R103, R104).
A cancelled operation that no engine has started ends at once with ST_SQUASHED, and one that is at a safe point is taken out of its engine: a
waiting flip, a waiting headset wait, a posted touch buffer with the number of its records (R158, R285, R319, R363). -/
def Obligations.OperationsStartedReportedAndCancelled : Prop :=
  (∀ (s : State) (id : OpId) (o : Op), s.Steady → s.dev.op id = some o → o.phase = .released → o.gen = (s.dev.fn o.fn).gen →
    s.dev.runs (targetBlock o.target.toNat) = true → (∀ k, shareClass o.target.toNat = some k → weightOf s.dev.obj o.fn k ≠ 0) →
    (o.target = 2 → s.dev.dmaFull = false) →
    (opLengthOk o.target.toNat o.kind.toNat o.len = false →
      Becomes (.engineOpStart id) s (s.dev.updOp id (fun o => { o with phase := .finished, status := 0x10, result := none }))) ∧
    (opLengthOk o.target.toNat o.kind.toNat o.len = true → ∀ (d1 : Dev) (ws : List W72),
      s.dev.readWords o.fn o.addr.toNat o.len .read = (d1, .ok ws) → (o.target ≠ 3 ∨ o.kind ≠ 1) →
      Becomes (.engineOpStart id) s (d1.updOp id (fun o => { o with phase := .started, desc := ws }))) ∧
    (opLengthOk o.target.toNat o.kind.toNat o.len = true → ∀ (d1 : Dev) (cause va : Nat),
      s.dev.readWords o.fn o.addr.toNat o.len .read = (d1, .error (cause, va)) →
      Does (.engineOpStart id) s (fun e =>
        e.op id = some { o with phase := .finished, status := causeStatus cause, result := none } ∧ bit (e.fn o.fn).evStatus 5 = true ∧
        { e with ops := s.dev.ops, fns := s.dev.fns, msgs := s.dev.msgs, free := s.dev.free, bus := s.dev.bus } = s.dev))) ∧
  (∀ (s : State) (id : OpId) (o : Op) (k : Nat), s.Steady → s.dev.op id = some o → o.phase = .released → o.gen = (s.dev.fn o.fn).gen →
    shareClass o.target.toNat = some k → weightOf s.dev.obj o.fn k = 0 → Becomes (.engineOpStart id) s s.dev) ∧
  (∀ (s : State) (id : OpId) (o : Op), s.Steady → s.dev.op id = some o → o.phase = .released → o.gen = (s.dev.fn o.fn).gen →
    o.target = 2 → s.dev.dmaFull = true → Becomes (.engineOpStart id) s s.dev) ∧
  (∀ (s : State) (id : OpId) (o : Op), s.Steady → s.dev.op id = some o → o.phase = .released → o.gen ≠ (s.dev.fn o.fn).gen →
    Becomes (.engineOpStart id) s ((s.dev.updOp id (fun o => { o with phase := .reported })).releaseEntries id.ring.val)) ∧
  (∀ (s : State) (id : OpId) (o : Op) (r : Ring), s.Steady → s.dev.op id = some o → o.phase = .finished → o.gen = (s.dev.fn o.fn).gen →
    r = s.dev.ring id.ring.val →
    Becomes (.opComplete id) s ((((s.dev.setRing id.ring.val
      { r with
        thread := if r.thread.acc = some id.acc then { r.thread with wait := r.thread.wait.meet 0 id.idx s.dev.now } else r.thread
        entries := r.entries.map (fun e => if e.acc = id.acc then
          { e with ops := e.ops.map (fun x => if x.1 = id.idx && !x.2.done then
            (x.1, { done := true, status := o.status, result := o.result, late := o.late, deferred := o.deferred, superseded := o.superseded
                    replayed := o.replayed, cancelled := o.cancel && o.status = 0x02 }) else x) } else e) }).updOp id
      (fun o => { o with phase := .reported })).releaseEntries id.ring.val))) ∧
  (∀ (s : State) (id : OpId) (o : Op), s.Steady → s.dev.op id = some o → o.phase = .finished → o.gen ≠ (s.dev.fn o.fn).gen →
    Becomes (.opComplete id) s ((s.dev.updOp id (fun o => { o with phase := .reported })).releaseEntries id.ring.val)) ∧
  (∀ (s : State) (id : OpId), s.Steady → s.dev.op id = none → Becomes (.engineOpStart id) s s.dev ∧ Becomes (.opComplete id) s s.dev) ∧
  (∀ (s : State) (id : OpId) (o : Op), s.Steady → s.dev.op id = some o → o.cancel = true → o.phase = .released →
    Becomes (.opCancel id) s (s.dev.updOp id (fun o => { o with phase := .finished, status := 0x02, result := none }))) ∧
  (∀ (s : State) (id : OpId) (o : Op), s.Steady → s.dev.op id = some o → o.cancel = true → o.phase = .started → o.target = 4 → o.kind = 1 →
    Becomes (.opCancel id) s
      (({ s.dev with disp := { s.dev.disp with flips := s.dev.disp.flips.filter (fun x => x.id ≠ id) } } : Dev).updOp id
        (fun o => { o with phase := .finished, status := 0x02, result := none }))) ∧
  (∀ (s : State) (id : OpId) (o : Op), s.Steady → s.dev.op id = some o → o.cancel = true → o.phase = .started → o.target = 5 → o.kind = 5 →
    Becomes (.opCancel id) s
      (({ s.dev with audio := { s.dev.audio with waits := s.dev.audio.waits.filter (fun x => x ≠ id) } } : Dev).updOp id
        (fun o => { o with phase := .finished, status := 0x02, result := none }))) ∧
  (∀ (s : State) (id : OpId) (o : Op) (b : TouchBuf), s.Steady → s.dev.op id = some o → o.cancel = true → o.phase = .started → o.target = 7 → o.kind = 1 →
    (s.dev.tfn o.fn).bufs.find? (fun b => b.id = id) = some b →
    Becomes (.opCancel id) s
      ((s.dev.setTfn o.fn { s.dev.tfn o.fn with bufs := (s.dev.tfn o.fn).bufs.filter (fun x => x.id ≠ id) }).updOp id
        (fun o => { o with phase := .finished, status := 0x02, result := some (BitVec.ofNat 64 b.filled) }))) ∧
  (∀ (s : State) (id : OpId) (o : Op), s.Steady → s.dev.op id = some o → (o.cancel = false ∨ o.phase = .finished ∨ o.phase = .reported) →
    Becomes (.opCancel id) s s.dev)

/-- FLR, RESET_REQ and FUNC_CTL.RESET begin a reset in the function's mode, one in progress takes a further request in, and HOLD stops admission
(R146, R157, R158); a drain whose limit expires goes on as a squash, and a held squash stops the programs once no operation of the generation to come is
outstanding (R98, R158).
A generation discard ends without waiting, a drain or squash when every started item has its record and no program runs: the generation goes
up by one, the rings are disabled with their registers at reset but for the accession numbers, EV_STATUS is 0 but for RESET_DONE, and a reset by FLR
clears the MSI-X table too (R97, R104, R158, R159, R162). -/
def Obligations.FunctionResets : Prop :=
  (∀ (s : State) (f : Fin 64) (d : Dev), Configured s f.val d →
    ((d.fn f.val).rst = none → ResetBegins (.flr f) s d f.val true) ∧
    (∀ r, (d.fn f.val).rst = some r → Becomes (.flr f) s (d.setFn f.val { d.fn f.val with rst := some { r with cfg := true } }))) ∧
  (∀ (s : State) (f : Fin 64) (v : BitVec 32) (d : Dev), Arrives s f.val d →
    (bit v 0 = true → (d.fn f.val).rst = none → ResetBegins (.resetReq f v) s d f.val false) ∧
    ((bit v 0 = false ∨ (d.fn f.val).rst ≠ none) → Becomes (.resetReq f v) s d)) ∧
  (∀ (s : State) (host f : Fin 64) (v : BitVec 32) (d d1 : Dev), Arrives s host.val d →
    (host.val = d.manager ∨ (host.val % 16 = 0 ∧ f.val / 16 = host.val / 16 ∧ f ≠ host)) → d1 = d.setFn f.val { d.fn f.val with hold := bit v 1 } →
    (bit v 0 = false → Becomes (.funcCtlHold host f v) s d1 ∧ Becomes (.funcCtlReset host f v) s d1) ∧
    (bit v 0 = true → (d.fn f.val).rst = none →
      ResetBegins (.funcCtlReset host f v) s d1 f.val false ∧ ResetBegins (.funcCtlHold host f v) s d1 f.val false)) ∧
  (∀ (s : State) (host f : Fin 64) (v : BitVec 32) (d : Dev), Arrives s host.val d → host.val ≠ d.manager →
    (host.val % 16 ≠ 0 ∨ f.val / 16 ≠ host.val / 16 ∨ f = host) → Becomes (.funcCtlHold host f v) s d ∧ Becomes (.funcCtlReset host f v) s d) ∧
  (∀ (s : State) (f : Fin 64) (at_ : Nat) (r : FnReset) (d : Dev), s.Steady → d = { s.dev with now := Nat.max s.dev.now at_ } →
    (s.dev.fn f.val).rst = some r → r.mode = 1 →
    (r.limitAt ≤ d.now → Does (.drainLimitExpiry f at_) s (fun e =>
      (e.fn f.val).rst = some { r with mode := 2 } ∧ (r.held = false → FunctionStops f.val true d e) ∧
      (r.held = true → { e with fns := d.fns, bus := d.bus } = d ∧ ∀ h, h ≠ f.val → e.fn h = d.fn h))) ∧
    (d.now < r.limitAt → Becomes (.drainLimitExpiry f at_) s s.dev)) ∧
  (∀ (s : State) (f : Fin 64) (r : FnReset), s.Steady → (s.dev.fn f.val).rst = some r → r.held = true →
    (s.dev.wouldCollide f.val = false → Does (.heldResetRelease f) s (fun e =>
      (e.fn f.val).rst = some { r with held := false } ∧ (r.mode = 2 → FunctionStops f.val true s.dev e) ∧
      (r.mode ≠ 2 → { e with fns := s.dev.fns, ops := s.dev.ops, bus := s.dev.bus } = s.dev ∧ (∀ h, h ≠ f.val → e.fn h = s.dev.fn h) ∧
        e.ops = if r.mode = 3 then s.dev.ops.map (fun o => if o.fn = f.val && (o.phase = .released || o.phase = .started) then { o with cancel := true } else o)
          else s.dev.ops))) ∧
    (s.dev.wouldCollide f.val = true → Becomes (.heldResetRelease f) s s.dev)) ∧
  (∀ (s : State) (f : Fin 64) (r : FnReset), s.Steady → (s.dev.fn f.val).rst = some r → r.held = false →
    ((r.mode = 3 ∨ ∀ k, k < 4 → (s.dev.ring (4 * f.val + k)).kept = none ∧ s.dev.drained (4 * f.val + k) = true) →
      Does (.resetEnd f) s (fun e =>
        (e.fn f.val).gen = (s.dev.fn f.val).gen + 1 ∧ (e.fn f.val).rst = none ∧ (e.fn f.val).evStatus = 0x40 ∧ (e.fn f.val).evEnable = 0x1FF ∧
        (e.fn f.val).apertureBase = 0 ∧ (e.fn f.val).pipeEv = [] ∧ (e.fn f.val).hapStat = [] ∧ (e.fn f.val).iommuRoot = (s.dev.fn f.val).iommuRoot ∧
        (r.cfg = true → (e.fn f.val).msixTable = [] ∧ (e.fn f.val).msixEnable = false ∧ (e.fn f.val).d3hot = false) ∧
        (r.cfg = false → (e.fn f.val).msixTable = (s.dev.fn f.val).msixTable ∧ (e.fn f.val).d3hot = (s.dev.fn f.val).d3hot) ∧
        (∀ k, k < 4 → (e.ring (4 * f.val + k)).enable = false ∧ (e.ring (4 * f.val + k)).base = 0 ∧ (e.ring (4 * f.val + k)).tail = 0 ∧
          (e.ring (4 * f.val + k)).acc = 0 ∧ (e.ring (4 * f.val + k)).head = 0 ∧ (e.ring (4 * f.val + k)).cmplTail = 0 ∧
          (e.ring (4 * f.val + k)).err = 0 ∧ (e.ring (4 * f.val + k)).thread = Thread.idle ∧
          (e.ring (4 * f.val + k)).nextAcc = (s.dev.ring (4 * f.val + k)).nextAcc))) ∧
    (r.mode ≠ 3 → (∀ k, k < 4 → (s.dev.ring (4 * f.val + k)).kept = none ∧ s.dev.recordable (4 * f.val + k) = none) →
      (∃ k, k < 4 ∧ s.dev.drained (4 * f.val + k) = false) →
      Becomes (.resetEnd f) s s.dev))

/-- A link that goes down, and a hot reset, put every existing function of the port into a generation discard and end its PTM dialog (R136, R161);
VF Enable takes NumVFs within the budget, else BUDGET_ERR, and clearing it discards the port's VFs (R122, R129, R161); a function in D3hot is reached by
no register access (R125), and a write to one in D3hot is an Unsupported Request that its PF's enables turn into an error message (R122, R123: the
encodings are the model's, log entry 118). -/
def Obligations.LinksAndFunctions : Prop :=
  (∀ (s : State) (p : Fin 4) (hot : Bool), s.Steady → (s.dev.port p.val).link ≠ .down →
    Does (.linkDown p hot) s (fun e =>
      e.port p.val = { s.dev.port p.val with link := (if hot then .training else .down), ptmValid := false, ptmReq := false, ptmBusy := false } ∧
      (∀ q, q ≠ p.val → e.port q = s.dev.port q) ∧ (∀ f, f / 16 ≠ p.val → e.fn f = s.dev.fn f) ∧ (∀ g, g / 64 ≠ p.val → e.ring g = s.dev.ring g) ∧
      (∀ f, f / 16 = p.val → s.dev.exists_ f = true → ((e.fn f).rst.map (fun r => (r.mode, r.cfg))) = some (3, true)) ∧ e.mem = s.dev.mem)) ∧
  (∀ (s : State) (p : Fin 4) (hot : Bool), s.Steady → (s.dev.port p.val).link = .down → Becomes (.linkDown p hot) s s.dev) ∧
  (∀ (s : State) (p : Fin 4) (x : Port) (d : Dev), Configured s (16 * p.val) d → x = d.port p.val → x.vfEnable = false →
    (x.numVfs ≤ x.inForce.maxVfs → Becomes (.vfEnableSet p) s (d.setPort p.val { x with vfEnable := true })) ∧
    (x.inForce.maxVfs < x.numVfs → Becomes (.vfEnableSet p) s (d.setPort p.val { x with budgetErr := true })) ∧
    Becomes (.vfEnableClear p) s d ∧
    (∀ v : BitVec 16, v.toNat ≤ 15 → Becomes (.numvfsWrite p v) s (d.setPort p.val { x with numVfs := v.toNat })) ∧
    (∀ v : BitVec 16, 15 < v.toNat → Becomes (.numvfsWrite p v) s d)) ∧
  (∀ (s : State) (p : Fin 4) (x : Port) (d : Dev), Configured s (16 * p.val) d → x = d.port p.val → x.vfEnable = true →
    Becomes (.vfEnableSet p) s d ∧ (∀ v : BitVec 16, Becomes (.numvfsWrite p v) s d) ∧
    Does (.vfEnableClear p) s (fun e =>
      e.port p.val = { x with vfEnable := false } ∧ (∀ q, q ≠ p.val → e.port q = d.port q) ∧
      (∀ f, f / 16 = p.val → 1 ≤ f % 16 → f % 16 ≤ x.numVfs → ((e.fn f).rst.map (fun r => (r.mode, r.cfg, r.vanish))) = some (3, true, true)) ∧
      e.fn (16 * p.val) = d.fn (16 * p.val) ∧ e.mem = s.dev.mem)) ∧
  (∀ (s : State) (f : Fin 64) (enter : Bool) (d : Dev), Configured s f.val d →
    Becomes (.d3hotTransition f enter) s (d.setFn f.val { d.fn f.val with d3hot := enter })) ∧
  (∀ (s : State) (f : Fin 64), s.Steady → s.dev.cfgReach f.val = true → s.dev.asleep = true →
    Becomes (.flr f) s (({ s.dev with held := s.dev.held ++ [.flr f] } : Dev).hostFired f.val)) ∧
  (∀ (s : State) (f : Fin 64) (k : Fin 4) (v : BitVec 32) (c : Fn), s.Steady → s.dev.cfgReach f.val = true → (s.dev.fn f.val).d3hot = true →
    c = s.dev.fn (f.val / 16 * 16) → bit c.aerUncSev 20 = false → bit c.aerUncMask 20 = false → bit c.errCtl 1 = true → bit c.errCtl 3 = true →
    Does (.doorbell f k v) s (fun e =>
      (e.port (f.val / 16)).errs = (s.dev.port (f.val / 16)).errs ++ [{ fn := f.val, kind := .nonfatal }] ∧ e.rings = s.dev.rings ∧ e.mem = s.dev.mem)) ∧
  (∀ (d : Dev) (f : Nat), (d.fn f).d3hot = true → d.hostReach f = false ∧ ∀ v, d.canSend f v = false)

/-- A fault of the aperture recorded for a function: the first one is kept in FAULT_INFO with its cause and source and in FAULT_ADDR, a further one sets
OVERRUN; EV_FAULT is set (R133, R138). -/
def Sys2Proof.Machine.ApertureFault (x y : Fn) (source cause a : Nat) : Prop :=
  y.faultInfo = (if bit x.faultInfo 31 then setBit x.faultInfo 30 true
    else setBit (setBit (BitVec.ofNat 32 (cause * 2 ^ 16 + source * 2 ^ 12)) 31 true) 30 (bit x.faultInfo 30)) ∧
  y.faultAddr = (if bit x.faultInfo 31 then x.faultAddr else BitVec.ofNat 48 a) ∧ bit y.evStatus 5 = true

/-- An event sets its bit in EV_STATUS; one that changes from 0 to 1 while enabled sends its vector's message, or sets the vector's PBA bit when the
message cannot be sent (R135, R136). The pending message is sent once that is possible, unless its events have been cleared; clearing EV_STATUS clears the
bits written as 1, and an event of the same moment is set again (R11, R136).
The aperture: an access inside BAR2 reaches the function's device-virtual space at APERTURE_BASE plus its offset; a read past its end is
unsupported; a read that faults returns all ones, a write that faults, in its translation or in a fenced group, stores no byte, and each records the fault
with source 3 or 4 and raises EV_FAULT (R137, R138, R140). -/
def Obligations.EventsMessagesAndAperture : Prop :=
  (∀ (d : Dev) (f b : Nat), b < 8 →
    ((d.setEv f b).fn f).evStatus = setBit (d.fn f).evStatus b true ∧ (∀ h, h ≠ f → (d.setEv f b).fn h = d.fn h) ∧
    { d.setEv f b with fns := d.fns, msgs := d.msgs } = d ∧
    (bit (d.fn f).evStatus b = false → bit (d.fn f).evEnable b = true → d.canSend f (vectorOf b) = true →
      (d.setEv f b).msgs = d.msgs ++ [{ fn := f, vec := vectorOf b, entry := (d.fn f).msix (vectorOf b) }] ∧ ((d.setEv f b).fn f).pba = (d.fn f).pba) ∧
    (bit (d.fn f).evStatus b = false → bit (d.fn f).evEnable b = true → d.canSend f (vectorOf b) = false →
      (d.setEv f b).msgs = d.msgs ∧ ((d.setEv f b).fn f).pba = setBit (d.fn f).pba (vectorOf b) true) ∧
    ((bit (d.fn f).evStatus b = true ∨ bit (d.fn f).evEnable b = false) → (d.setEv f b).msgs = d.msgs ∧ ((d.setEv f b).fn f).pba = (d.fn f).pba)) ∧
  (∀ (s : State) (f : Fin 64) (v : Fin 8), s.Steady → bit (s.dev.fn f.val).pba v.val = true → s.dev.canSend f.val v.val = true →
    Does (.msixPendingSend f v) s (fun e =>
      e.fn f.val = { s.dev.fn f.val with pba := setBit (s.dev.fn f.val).pba v.val false } ∧ (∀ h, h ≠ f.val → e.fn h = s.dev.fn h) ∧
      e.msgs = s.dev.msgs ++ (if s.dev.vectorActive f.val v.val then [{ fn := f.val, vec := v.val, entry := (s.dev.fn f.val).msix v.val }] else []) ∧
      { e with fns := s.dev.fns, msgs := s.dev.msgs, bus := s.dev.bus } = s.dev)) ∧
  (∀ (s : State) (f : Fin 64) (v : Fin 8), s.Steady → (bit (s.dev.fn f.val).pba v.val = false ∨ s.dev.canSend f.val v.val = false) →
    Becomes (.msixPendingSend f v) s s.dev) ∧
  (∀ (s : State) (f : Fin 64) (v : BitVec 32) (again : BitVec 9) (d : Dev), Arrives s f.val d →
    Does (.evStatusClear f v again) s (fun e =>
      (∀ b, b < 8 → bit (e.fn f.val).evStatus b = ((bit (d.fn f.val).evStatus b && !bit v b) || bit again b)) ∧
      { e.fn f.val with evStatus := (d.fn f.val).evStatus, pba := (d.fn f.val).pba } = d.fn f.val ∧ (∀ h, h ≠ f.val → e.fn h = d.fn h) ∧
      { e with fns := d.fns, msgs := d.msgs, bus := d.bus } = d ∧ (again = 0 → e.msgs = d.msgs))) ∧
  (∀ (s : State) (f : Fin 64) (off len va : Nat) (d : Dev), Arrives s f.val d →
    va = ((d.fn f.val).apertureBase.toNat / 2 ^ d.bar2Log2 f.val * 2 ^ d.bar2Log2 f.val + off) % 2 ^ 48 →
    (2 ^ d.bar2Log2 f.val < off + len → Becomes (.bar2Read f off len) s { d with host := some .unsupported }) ∧
    (off + len ≤ 2 ^ d.bar2Log2 f.val → ∀ (d1 : Dev) (b : List Byte), d.readV f.val va len .read = (d1, .ok b) →
      Becomes (.bar2Read f off len) s { d1 with host := some (.data b) }) ∧
    (off + len ≤ 2 ^ d.bar2Log2 f.val → ∀ (d1 : Dev) (cause a : Nat), d.readV f.val va len .read = (d1, .error (cause, a)) →
      Does (.bar2Read f off len) s (fun e =>
        e.host = some (.data (List.replicate len 0xFF)) ∧ Sys2Proof.Machine.ApertureFault (d.fn f.val) (e.fn f.val) 3 cause a ∧ e.mem = s.dev.mem))) ∧
  (∀ (s : State) (f : Fin 64) (off va : Nat) (bytes : List Byte) (d : Dev), Arrives s f.val d →
    va = ((d.fn f.val).apertureBase.toNat / 2 ^ d.bar2Log2 f.val * 2 ^ d.bar2Log2 f.val + off) % 2 ^ 48 →
    (∀ u, u < 32 → d.cvuOn u = false ∨ d.cvuTap u ≠ 0x20 + f.val / 16) →
    (2 ^ d.bar2Log2 f.val < off + bytes.length → Becomes (.bar2Write f off (bytes.map some)) s d) ∧
    (off + bytes.length ≤ 2 ^ d.bar2Log2 f.val → ∀ d1 : Dev, d.writeV f.val va bytes = (d1, .ok ()) →
      Becomes (.bar2Write f off (bytes.map some)) s d1)) ∧
  (∀ (s : State) (f : Fin 64) (off va : Nat) (data : List (Option Byte)) (d d1 : Dev) (cause a : Nat), Arrives s f.val d →
    va = ((d.fn f.val).apertureBase.toNat / 2 ^ d.bar2Log2 f.val * 2 ^ d.bar2Log2 f.val + off) % 2 ^ 48 →
    off + data.length ≤ 2 ^ d.bar2Log2 f.val →
    (∀ l, l = (if data.all (fun x => x.isSome) then pieces va data.length else (enabledBytes va data).map (fun x => (x.1, 1))) →
      d.translateAll f.val .write l = (d1, .error (cause, a)) ∨
      (∃ t x, d.translateAll f.val .write l = (d1, .ok t) ∧ t.find? (fun x => d1.dataCause x.2.1 x.2.2 = 0xE) = some x ∧ cause = 0xE ∧ a = x.1)) →
    Does (.bar2Write f off data) s (fun e => Sys2Proof.Machine.ApertureFault (d.fn f.val) (e.fn f.val) 4 cause a ∧ e.mem = s.dev.mem)) ∧
  (∀ (s : State) (f : Fin 64) (off n m va pa : Nat) (b : Byte) (d d1 : Dev), Arrives s f.val d → (d.fn f.val).dirtyEnable = false →
    va = (((d.fn f.val).apertureBase.toNat / 2 ^ d.bar2Log2 f.val * 2 ^ d.bar2Log2 f.val + off) % 2 ^ 48 + n) % 2 ^ 48 →
    (0 < n ∨ 0 < m) → off + (n + 1 + m) ≤ 2 ^ d.bar2Log2 f.val → d.translate f.val va .write = (d1, .ok pa) → d1.dataCause pa 1 ≠ 0xE →
    Does (.bar2Write f off (List.replicate n none ++ [some b] ++ List.replicate m none)) s (fun e =>
      cellGet e.mem pa = b ∧ ∀ x, x ≠ pa → cellGet e.mem x = cellGet s.dev.mem x))

/-! The manager's controls. -/

/-- A function's root: a defined mode is taken and a whole-space invalidation starts, or follows the one in progress; mode 3, and bypass for a function
that is not the manager, discard the write (R141, R145, R146). INV_CTL.GO starts an invalidation of its pages, discarded while one is in progress, and its
end removes the cached entries that it takes in (R145). Dirty logging is enabled over a span of pages, and SWAP exchanges the bitmaps and clears the
count (R149, R150).
Precision time measurement: a request with PTM Enable on a link in L0 starts a dialog, the period starts one each time it has passed, and a response
that succeeds, for a request sent within the dialog, gives DEVTIME, host time and delay and sets VALID, while one that fails leaves the sample (R163,
R164; the window is the model's, log entry 5). Clearing PTM Enable ends the dialog, and setting it starts the one that REQ waits for (R163). -/
def Obligations.HostAddressAndTime : Prop :=
  (∀ (s : State) (host f : Fin 64) (v : BitVec 64) (d : Dev) (x : Fn), Arrives s host.val d → d.reachesBlock host.val f.val = true → x = d.fn f.val →
    ((fld v 0 2 = 3 ∨ (fld v 0 2 = 2 ∧ f.val ≠ d.manager)) → Becomes (.iommuRoot host f v) s d) ∧
    (fld v 0 2 ≠ 3 → (fld v 0 2 = 2 → f.val = d.manager) → x.invGo = false →
      Becomes (.iommuRoot host f v) s (d.setFn f.val { x with iommuRoot := v &&& 0x000000FFFFFFF003, invGo := true, invWhole := true })) ∧
    (fld v 0 2 ≠ 3 → (fld v 0 2 = 2 → f.val = d.manager) → x.invGo = true →
      Becomes (.iommuRoot host f v) s (d.setFn f.val { x with iommuRoot := v &&& 0x000000FFFFFFF003, invQueued := true }))) ∧
  (∀ (s : State) (host f : Fin 64) (v : BitVec 32) (d : Dev) (x : Fn), Arrives s host.val d → d.reachesBlock host.val f.val = true → x = d.fn f.val →
    (x.invGo = true → Becomes (.invCtl host f v) s d) ∧
    (x.invGo = false → Becomes (.invCtl host f v) s
      (d.setFn f.val { x with invPages := v.setWidth 20, invGo := bit v 31, invWhole := bit v 31 && fld v 0 20 = 0 }))) ∧
  (∀ (s : State) (f : Fin 64) (x : Fn), s.Steady → x = s.dev.fn f.val →
    (x.invGo = false → Becomes (.invalidationDone f) s s.dev) ∧
    (x.invGo = true → Does (.invalidationDone f) s (fun e =>
      e.fn f.val =
        { x with
          tlb := x.tlb.filter (fun y => !(x.invWhole || (decide (x.invVa.toNat < y.2.va + y.2.size) && decide (y.2.va < x.invVa.toNat + 4096 * x.invPages.toNat))))
          invGo := x.invQueued, invWhole := x.invQueued, invQueued := false } ∧
      (∀ h, h ≠ f.val → e.fn h = s.dev.fn h) ∧ { e with fns := s.dev.fns, bus := s.dev.bus } = s.dev))) ∧
  (∀ (s : State) (host f : Fin 64) (v : BitVec 32) (d : Dev) (x : Fn), Arrives s host.val d → d.reachesBlock host.val f.val = true → x = d.fn f.val →
    (bit v 31 = true → x.dirtyPages = 0 → Becomes (.dirtyCtlEnable host f v) s d ∧ Becomes (.swap host f v) s d) ∧
    ((bit v 31 = false ∨ x.dirtyPages ≠ 0) → ∀ y : Fn,
      y = { x with dirtyEnable := bit v 31, dirtyCount := (if bit v 31 && !x.dirtyEnable then 0 else x.dirtyCount), dirtyOut := x.dirtyOut && !bit v 28 } →
      ((bit v 30 = false ∨ x.dirtySwap = true) →
        Becomes (.dirtyCtlEnable host f v) s (d.setFn f.val y) ∧ Becomes (.swap host f v) s (d.setFn f.val y)) ∧
      (bit v 30 = true → x.dirtySwap = false →
        Becomes (.swap host f v) s (d.setFn f.val { y with dirtyActive := !x.dirtyActive, dirtyCount := 0, dirtySwap := true }) ∧
        Becomes (.dirtyCtlEnable host f v) s (d.setFn f.val { y with dirtyActive := !x.dirtyActive, dirtyCount := 0, dirtySwap := true })))) ∧
  (∀ (s : State) (f : Fin 64), s.Steady → Becomes (.swapDone f) s (s.dev.setFn f.val { s.dev.fn f.val with dirtySwap := false })) ∧
  (∀ (s : State) (host f : Fin 64) (v : BitVec 32) (u : BitVec 64) (d : Dev), Arrives s host.val d → d.reachesBlock host.val f.val = false →
    Becomes (.iommuRoot host f u) s d ∧ Becomes (.invCtl host f v) s d ∧ Becomes (.dirtyCtlEnable host f v) s d ∧ Becomes (.swap host f v) s d) ∧
  (∀ (s : State) (f : Fin 64) (v : BitVec 32) (d : Dev) (x y : Port), Arrives s f.val d → f.val % 16 = 0 → x = d.port (f.val / 16) →
    y = { x with ptmPeriod := v.setWidth 16, ptmNext := d.now + fld v 0 16 * 1000000 } →
    (bit v 31 = false → Becomes (.ptmCtlReq f v) s (d.setPort (f.val / 16) y)) ∧
    (bit v 31 = true → x.ptmEnable = true → x.link = .l0 → x.ptmBusy = false →
      Becomes (.ptmCtlReq f v) s (d.setPort (f.val / 16) { y with ptmReq := true, ptmBusy := true, ptmFrom := d.now })) ∧
    (bit v 31 = true → (x.ptmEnable = false ∨ x.link ≠ .l0 ∨ x.ptmBusy = true) → Becomes (.ptmCtlReq f v) s (d.setPort (f.val / 16) { y with ptmReq := true }))) ∧
  (∀ (s : State) (f : Fin 64) (v : BitVec 32) (d : Dev), Arrives s f.val d → f.val % 16 ≠ 0 → Becomes (.ptmCtlReq f v) s d) ∧
  (∀ (s : State) (p : Fin 4) (at_ : Nat) (d : Dev) (x : Port), s.Steady → d = { s.dev with now := Nat.max s.dev.now at_ } → x = s.dev.port p.val →
    (x.ptmPeriod ≠ 0 → x.ptmNext ≤ d.now → s.dev.awake = true → x.ptmEnable = true → x.link = .l0 → x.ptmBusy = false →
      Becomes (.ptmPeriodExpiry p at_) s (d.setPort p.val { x with ptmNext := d.now + x.ptmPeriod.toNat * 1000000, ptmBusy := true, ptmFrom := d.now })) ∧
    (x.ptmPeriod ≠ 0 → x.ptmNext ≤ d.now → s.dev.awake = true → (x.ptmEnable = false ∨ x.link ≠ .l0 ∨ x.ptmBusy = true) →
      Becomes (.ptmPeriodExpiry p at_) s (d.setPort p.val { x with ptmNext := d.now + x.ptmPeriod.toNat * 1000000 })) ∧
    (x.ptmPeriod = 0 → Becomes (.ptmPeriodExpiry p at_) s s.dev)) ∧
  (∀ (s : State) (p : Fin 4) (sentAt hostTime delay : Nat) (x : Port), s.Steady → x = s.dev.port p.val → x.ptmBusy = true →
    (x.ptmFrom ≤ sentAt → sentAt ≤ Nat.max s.dev.now x.ptmFrom → Becomes (.ptmResponse p true sentAt hostTime delay) s (s.dev.setPort p.val
      { x with
        ptmBusy := false, ptmReq := false, ptmValid := true, ptmDevtime := BitVec.ofNat 64 sentAt, ptmHost := BitVec.ofNat 64 hostTime
        ptmDelay := BitVec.ofNat 32 delay })) ∧
    ((sentAt < x.ptmFrom ∨ Nat.max s.dev.now x.ptmFrom < sentAt) → Becomes (.ptmResponse p true sentAt hostTime delay) s s.dev) ∧
    Becomes (.ptmResponse p false sentAt hostTime delay) s (s.dev.setPort p.val { x with ptmBusy := false, ptmReq := false })) ∧
  (∀ (s : State) (p : Fin 4) (ok : Bool) (sentAt hostTime delay : Nat), s.Steady → (s.dev.port p.val).ptmBusy = false →
    Becomes (.ptmResponse p ok sentAt hostTime delay) s s.dev) ∧
  (∀ (s : State) (f : Fin 64) (v : BitVec 32) (d : Dev) (x : Port), Configured s f.val d → f.val % 16 = 0 → x = d.port (f.val / 16) →
    (bit v 0 = false → Becomes (.configRequest f .ptmEnable (some v)) s
      { d.setPort (f.val / 16) { x with ptmEnable := false, ptmReq := x.ptmReq && !x.ptmBusy, ptmBusy := false } with host := some (.data []) }) ∧
    (bit v 0 = true → x.ptmReq = true → x.link = .l0 → x.ptmBusy = false → Becomes (.configRequest f .ptmEnable (some v)) s
      { d.setPort (f.val / 16) { x with ptmEnable := true, ptmBusy := true, ptmFrom := d.now } with host := some (.data []) }))

/-- A write of MEM_PART within its limits takes the new partition, sets BUSY and zeroes the scratch partition beyond what both partitions hold; a write
outside them, or while BUSY is 1, is discarded (R388, R415). MEM_RETRY clears the ceilings of the channels it names and retrains them (R408, R414), and
MEM_SPEED caps the speed points, whose groups then ask for their change (R404, R407). -/
def Obligations.MemoryControl : Prop :=
  (∀ (s : State) (f : Fin 64) (v : BitVec 32) (d : Dev) (r : Dram), Arrives s f.val d → f.val = d.manager →
    r = { d.dram with scratchWays := fld v 0 4, chaseWays := fld v 8 5 } →
    (d.dram.busyFrom = none → fld v 8 5 ≤ 12 → fld v 0 4 ≤ 8 → fld v 0 4 + fld v 8 5 ≤ 14 → d.ringsKept r = true →
      Does (.memPart f v) s (fun e =>
        e.dram = { r with busyFrom := some d.now } ∧ { e with dram := d.dram, mem := d.mem, poison := d.poison, bus := d.bus } = d ∧
        (d.dram.scratchWays = fld v 0 4 → ∀ a, cellGet e.mem a = cellGet s.dev.mem a) ∧
        (d.dram.scratchWays ≠ fld v 0 4 → ∀ a,
          cellGet e.mem a = if scratchBase + Nat.min d.dram.scratchWays (fld v 0 4) * 2 ^ 21 ≤ a ∧ a < scratchBase + 0x1000000 then 0 else cellGet s.dev.mem a))) ∧
    ((d.dram.busyFrom ≠ none ∨ 12 < fld v 8 5 ∨ 8 < fld v 0 4 ∨ 14 < fld v 0 4 + fld v 8 5) → Becomes (.memPart f v) s d)) ∧
  (∀ (s : State) (f : Fin 64) (v : BitVec 32) (d : Dev), Arrives s f.val d → f.val = d.manager →
    (∀ c, d.power.change = some c → c.stage = 1 → Becomes (.memRetry f v) s
      ((((List.range 16).filter (fun n => bit v n)).foldl (fun x n => x.retryChannel n) d).speedsChanged.settle)) ∧
    ((∀ c, d.power.change = some c → c.stage ≠ 1) → Does (.memRetry f v) s (fun e =>
      (∀ n, n < 16 → bit v n = true → (d.group (n / 4)).state ≠ 2 → (d.chan n).state ≠ 4 →
        e.chan n = { d.chan n with ceiling := 0, retraining := true, begun := false }) ∧
      (∀ n, (16 ≤ n ∨ bit v n = false ∨ (d.group (n / 4)).state = 2 ∨ (d.chan n).state = 4) → e.chan n = d.chan n) ∧
      (∀ g, g < 4 → (∀ i, i < 4 → (e.chan (4 * g + i)).ceiling = 0) →
        (∃ i, i < 4 ∧ bit v (4 * g + i) = true ∧ (d.group g).state ≠ 2 ∧ (d.chan (4 * g + i)).state ≠ 4) → (e.group g).state = 0) ∧
      { e with dram := d.dram, bus := d.bus } = d))) ∧
  (∀ (s : State) (f : Fin 64) (v : BitVec 32) (d : Dev), Arrives s f.val d → f.val = d.manager → (∀ c, d.power.change = some c → c.stage ≠ 1) →
    Does (.memSpeed f v) s (fun e =>
      e.dram.cap.toNat = fld v 24 2 ∧ e.dram.chans = d.dram.chans ∧ { e with dram := d.dram, bus := d.bus } = d ∧
      (∀ g, g < 4 → ((e.group g).change.isSome = true ↔
        ((d.group g).state ≠ 2 ∧ ∃ i, i < 4 ∧ (d.chan (4 * g + i)).speed.toNat ≠
          Nat.max (Nat.max (opSpeed d.power.applied) (fld v 24 2)) (Nat.max (d.chan (4 * g + i)).ceiling.toNat d.dram.maxSpeed.toNat)))))) ∧
  (∀ (s : State) (f : Fin 64) (v : BitVec 32) (d : Dev), Arrives s f.val d → f.val ≠ d.manager →
    Becomes (.memPart f v) s d ∧ Becomes (.memRetry f v) s d ∧ Becomes (.memSpeed f v) s d)

/-- The manager's power registers. A new operating point raises its rails first (R418, R420); a request of a sleep state is discarded when its TARGET is reserved (R16, R444), refused when it is not valid,
begins the entry with the wind-down otherwise, and is discarded while GO is 1 (R428, R430, R431); an engine reset is made, waits for ACTIVE, or is an error
when the engine is none of R443's; PWR_DEVRESET needs its key (R442); BOOT_LC sets PENDING for its key in FIELD with the returned key provisioned, else
REFUSED (R465, R466). Any other function changes nothing with these. -/
def Obligations.PowerControl : Prop :=
  (∀ (s : State) (f : Fin 64) (v : BitVec 32) (d : Dev) (t : Nat) (p : Power), Arrives s f.val d → f.val = d.manager →
    p = { d.power with opTarget := BitVec.ofNat 3 (fld v 0 3), failedFor := none } → t = p.inForce →
    (BitVec.ofNat 3 (fld v 0 3) = d.power.opTarget → Becomes (.pwrOpTarget f v) s d) ∧
    (BitVec.ofNat 3 (fld v 0 3) ≠ d.power.opTarget → (p.change ≠ none ∨ p.current.toNat = t ∨ p.state ≠ .active) → Becomes (.pwrOpTarget f v) s { d with power := p }) ∧
    (BitVec.ofNat 3 (fld v 0 3) ≠ d.power.opTarget → p.change = none → p.current.toNat ≠ t → p.state = .active → (p.shdMv < opShdMv t ∨ p.coreMv < opCoreMv t) →
      Does (.pwrOpTarget f v) s (fun e =>
        e.power.shdMv = Nat.max p.shdMv (opShdMv t) ∧ e.power.coreMv = Nat.max p.coreMv (opCoreMv t) ∧ e.power.shdDiv = p.shdDiv ∧
        e.power.current = p.current ∧ e.power.opTarget = p.opTarget ∧
        (e.power.change.map (fun c => (c.target, c.stage, c.raising, c.oldShdMv, c.oldCoreMv))) =
          some (t, 0, (if p.shdMv < opShdMv t then [0] else []) ++ (if p.coreMv < opCoreMv t then [1] else []), p.shdMv, p.coreMv) ∧
        (∀ r m, (r = 0 ∧ p.shdMv < opShdMv t ∨ r = 1 ∧ p.coreMv < opCoreMv t) → tfind p.railMaps r = some m →
          tfind e.power.regulators r = some (m.addr, m.reg, m.code (opRailMv t r))) ∧
        { e with power := d.power, bus := d.bus } = d))) ∧
  (∀ (s : State) (f : Fin 64) (v : BitVec 32) (d : Dev) (p : Power), Arrives s f.val d → f.val = d.manager → p = d.power →
    ((fld v 0 2 = 0 ∨ fld v 0 2 = 3) → Becomes (.pwrReq f v) s d) ∧
    ((fld v 0 2 = 1 ∨ fld v 0 2 = 2) → bit v 31 = true → p.reqGo = true → Becomes (.pwrReq f v) s { d with power := { p with reqDiscarded := true } }) ∧
    ((fld v 0 2 = 1 ∨ fld v 0 2 = 2) → bit v 31 = false →
      Becomes (.pwrReq f v) s { d with power := { p with reqTarget := BitVec.ofNat 2 (fld v 0 2), reqDiscarded := p.reqDiscarded && !bit v 30 } }) ∧
    (fld v 0 2 = 1 → bit v 31 = true → p.reqGo = false → p.change = none → p.state = .active → p.showcase = 0 →
      Becomes (.pwrReq f v) s { d with power :=
        { p with reqTarget := 1, reqDiscarded := p.reqDiscarded && !bit v 30, reqGo := false, result := 0x10, reason := 4, asked := none } }) ∧
    (fld v 0 2 = 2 → bit v 31 = true → p.reqGo = false → p.change = none → p.state = .active →
      Does (.pwrReq f v) s (fun e =>
        e.power.state = .entering ∧ e.power.reqGo = true ∧ e.power.latched = 0 ∧ e.power.entry = some
          { target := 2, goAt := d.now, deep := false, order := 0, askedAt := d.now, stopped := [] })) ∧
    ((fld v 0 2 = 1 ∨ fld v 0 2 = 2) → bit v 31 = true → p.reqGo = false → p.change ≠ none →
      Does (.pwrReq f v) s (fun e => e.power.asked = some (BitVec.ofNat 2 (fld v 0 2), false) ∧ e.power.reqGo = true ∧ e.power.entry = p.entry))) ∧
  (∀ (s : State) (f : Fin 64) (v : BitVec 32) (d : Dev) (p : Power), Arrives s f.val d → f.val = d.manager →
    p = { d.power with
          eresetSub := BitVec.ofNat 6 (fld v 8 6), eresetEng := BitVec.ofNat 8 (fld v 0 8), eresetErr := d.power.eresetErr && !bit v 30 } →
    (bit v 31 = false → Becomes (.pwrEreset f v) s { d with power := p }) ∧
    (bit v 31 = true → engineNamed (fld v 8 6) (fld v 0 8) = false → Becomes (.pwrEreset f v) s { d with power := { p with eresetErr := true } }) ∧
    (bit v 31 = true → engineNamed (fld v 8 6) (fld v 0 8) = true → p.state ≠ .active →
      Becomes (.pwrEreset f v) s { d with power := { p with pendingEresets := p.pendingEresets ++ [(fld v 8 6, fld v 0 8)] } }) ∧
    (bit v 31 = true → fld v 8 6 = 0x0A → fld v 0 8 = 0x20 → p.state = .active →
      Becomes (.pwrEreset f v) s
        { d with power := p, ops := d.ops.map (fun o => if o.phase = .started && o.target = 2 then { o with replayed := true } else o) }) ∧
    (bit v 31 = true → fld v 8 6 = 0x02 → fld v 0 8 < 8 → p.state = .active → tfind d.coreDown (fld v 0 8) = none →
      Does (.pwrEreset f v) s (fun e => tfind e.coreDown (fld v 0 8) = some d.now))) ∧
  (∀ (s : State) (f : Fin 64) (v : BitVec 32) (env : BootEnv) (d : Dev), Arrives s f.val d → f.val = d.manager →
    (fld v 0 16 ≠ 0xC1A5 → Becomes (.pwrDevreset f v env) s d) ∧ (fld v 0 16 = 0xC1A5 → Becomes (.pwrDevreset f v env) s (d.resetAndBoot env).settle)) ∧
  (∀ (s : State) (f : Fin 64) (v : BitVec 32) (d : Dev) (b : Boot), Arrives s f.val d → f.val = d.manager →
    b = { d.boot with lcRefused := d.boot.lcRefused && !bit v 1 } →
    (fld v 16 16 = 0x4C43 → b.fuses.lifecycle = 1 → (d.provision.data 0x0101 0).isSome = true → Becomes (.bootLc f v) s { d with boot := { b with lcPending := true } }) ∧
    ((fld v 16 16 ≠ 0x4C43 ∨ b.fuses.lifecycle ≠ 1 ∨ d.provision.data 0x0101 0 = none) → Becomes (.bootLc f v) s { d with boot := { b with lcRefused := true } })) ∧
  (∀ (s : State) (f : Fin 64) (v : BitVec 32) (env : BootEnv) (d : Dev), Arrives s f.val d → f.val ≠ d.manager →
    Becomes (.pwrOpTarget f v) s d ∧ Becomes (.pwrReq f v) s d ∧ Becomes (.pwrEreset f v) s d ∧ Becomes (.pwrDevreset f v env) s d ∧ Becomes (.bootLc f v) s d)

/-- Register accesses. A read returns the register, lowest byte first; DEVTIME, read at its low half, is latched, and its high half comes from the
latch (R13, R14, R132). A write changes the fields it may: write-1-to-clear bits, enables, a ring's bases only while the ring is disabled and empty; a register of
BAR4 only for the manager, a locked register of the safety manager for no one, an access that is not naturally aligned does nothing, and an offset that no register occupies
reads 0 and takes no write (R9, R11, R16, R17,
R86, R127, R135, R511). A configuration request reads the function's identity, and before READY is answered with a retry (R3, R4, R450). -/
def Obligations.RegisterAccesses : Prop :=
  (∀ (s : State) (f : Fin 64) (a b : Nat) (d : Dev), Arrives s f.val d → a % 4 = 0 → a < 0x10000 → b = readerBase (.bar0 f) a →
    (∀ g ∈ bar0Groups, g.contains b = false ∧ g.head? ≠ some a) →
    Becomes (.latchRead (.bar0 f) a false) s { d with host := some (.data (toBytes 4 (d.bar0Reg f.val b / 2 ^ (8 * (a - b)) % 2 ^ 32))) }) ∧
  (∀ (s : State) (f : Fin 64) (d : Dev), Arrives s f.val d →
    Does (.latchRead (.bar0 f) 0x08 false) s (fun e =>
      e.host = some (.data (toBytes 4 (d.now % 2 ^ 32))) ∧ tfind e.latch (readerKey (.bar0 f) 0x08) = some (BitVec.ofNat 64 d.now) ∧
      { e with host := d.host, latch := d.latch, bus := d.bus } = d)) ∧
  (∀ (s : State) (f : Fin 64) (d : Dev) (v : BitVec 64), Arrives s f.val d → tfind d.latch (readerKey (.bar0 f) 0x08) = some v →
    Becomes (.latchRead (.bar0 f) 0x0C false) s { d with host := some (.data (toBytes 4 (v.toNat / 2 ^ 32))) }) ∧
  (∀ (s : State) (f : Fin 64) (a : Nat) (wide : Bool) (v : BitVec 64), s.Steady → a % (if wide then 8 else 4) ≠ 0 →
    Becomes (.latchRead (.bar0 f) a wide) s s.dev ∧ Becomes (.registerWrite (.bar0 f) a wide v) s s.dev ∧
    Becomes (.latchRead (.bar4 f) a wide) s s.dev ∧ Becomes (.registerWrite (.bar4 f) a wide v) s s.dev ∧
    Becomes (.latchRead .svp a wide) s s.dev ∧ Becomes (.registerWrite .svp a wide v) s s.dev) ∧
  (∀ (s : State) (f : Fin 64) (a : Nat) (v : BitVec 64) (d : Dev), Arrives s f.val d → a % 4 = 0 → 0x5000 ≤ a → a < 0x10000 →
    Becomes (.latchRead (.bar0 f) a false) s { d with host := some (.data [0, 0, 0, 0]) } ∧ Becomes (.registerWrite (.bar0 f) a false v) s d) ∧
  (∀ (s : State) (f : Fin 64) (v : BitVec 64) (d : Dev) (x : Fn), Arrives s f.val d → x = d.fn f.val →
    Becomes (.registerWrite (.bar0 f) 0x44 false v) s (d.setFn f.val { x with evEnable := v.setWidth 9 }) ∧
    Becomes (.registerWrite (.bar0 f) 0x40 false v) s (d.setFn f.val { x with evStatus := x.evStatus &&& ~~~(v.setWidth 9) }) ∧
    Becomes (.registerWrite (.bar0 f) 0x60 true v) s (d.setFn f.val { x with apertureBase := v &&& 0x0000FFFFF0000000 }) ∧
    Becomes (.registerWrite (.bar0 f) 0x00 false v) s d ∧
    ∀ p, p < 12 → Becomes (.registerWrite (.bar0 f) (0x400 + 4 * p) false v) s
      (d.setFn f.val { x with pipeEv := tset x.pipeEv p ((tget x.pipeEv p 0) &&& ~~~(v.setWidth 8)) })) ∧
  (∀ (s : State) (f : Fin 64) (k : Fin 4) (v : BitVec 64) (d : Dev) (r : Ring), Arrives s f.val d → d.resetting f.val = false → r = d.ring (4 * f.val + k.val) →
    ((r.enable = true ∨ r.inflight ≠ 0) → Becomes (.registerWrite (.bar0 f) (0x1000 + 0x100 * k.val) true v) s d) ∧
    (r.enable = false → r.inflight = 0 →
      Becomes (.registerWrite (.bar0 f) (0x1000 + 0x100 * k.val) true v) s (d.setRing (4 * f.val + k.val) { r with base := v &&& 0x0000FFFFFFFFFFC0 }) ∧
      Becomes (.registerWrite (.bar0 f) (0x1008 + 0x100 * k.val) true v) s (d.setRing (4 * f.val + k.val) { r with cmplBase := v &&& 0x0000FFFFFFFFFFC0 }))) ∧
  (∀ (s : State) (f : Fin 64) (v : BitVec 64) (d : Dev), Arrives s f.val d →
    (f.val = d.manager → Becomes (.registerWrite (.bar4 f) 0xC020 false v) s
      { d with power := { d.power with wakeEn := ((v.setWidth 32 : BitVec 32) &&& 0x0FFFF7F0) ||| 0x8000000F } }) ∧
    (f.val ≠ d.manager → ∀ a wide, Becomes (.registerWrite (.bar4 f) a wide v) s d ∨ a % (if wide then 8 else 4) ≠ 0 ∨ 0x10000 ≤ a)) ∧
  (∀ (s : State) (a : Nat) (wide : Bool) (v : BitVec 64), s.Steady → s.dev.safety.lock = true → Becomes (.registerWrite .svp a wide v) s s.dev) ∧
  (∀ (s : State) (v : BitVec 64), s.Steady → s.dev.safety.lock = false → s.dev.boot.stage ≠ .held → s.dev.power.state ≠ .standby →
    Becomes (.registerWrite .svp 0x10404 false v) s { s.dev with safety := { s.dev.safety with froSel := v.setWidth 6 } }) ∧
  (∀ (s : State) (f : Fin 64) (reg : CfgReg) (w : Option (BitVec 32)), s.Steady → ((s.dev.port (f.val / 16)).link = .l0 ∨ (s.dev.port (f.val / 16)).link = .l1) →
    (s.dev.boot.stage ≠ .ready → Becomes (.configRequest f reg w) s { s.dev with host := some .retry }) ∧
    (s.dev.boot.stage = .ready → s.dev.asleep = false → s.dev.exists_ f.val = true →
      Becomes (.configRequest f .vendorId none) s { s.dev.hostFired f.val with host := some (.data [0x7A, 0x1D]) } ∧
      Becomes (.configRequest f .deviceId none) s { s.dev.hostFired f.val with host := some (.data [if f.val % 16 = 0 then 0x80 else 0x81, 0x12]) } ∧
      Becomes (.configRequest f .revisionId none) s { s.dev.hostFired f.val with host := some (.data [0xB0]) } ∧
      Becomes (.configRequest f .subsystemVendorId none) s
        { s.dev.hostFired f.val with host := some (.data (toBytes 2 (s.dev.fn f.val).ssVid.toNat)) } ∧
      ∀ v : BitVec 32, Becomes (.configRequest f .msixEnable (some v)) s
        { (s.dev.hostFired f.val).setFn f.val { s.dev.fn f.val with msixEnable := bit v 0 } with host := some (.data []) }) ∧
    (s.dev.boot.stage = .ready → s.dev.asleep = false → s.dev.exists_ f.val = false →
      Becomes (.configRequest f reg w) s { s.dev.hostFired f.val with host := some .unsupported }))

/-! Raster operations. -/

/-- An operation of an engine's target and type has been started and not finished, in a steady machine whose block of R432 runs. -/
def Sys2Proof.Machine.Works (s : State) (id : OpId) (target kind block : Nat) (o : Op) : Prop :=
  s.Steady ∧ s.dev.activeOp id target kind = some o ∧ s.dev.runs block = true

/-- A command of an engine for an operation that it does not hold, or has finished, changes nothing; an operation that ends gets its status and
result and nothing else changes (R66, R103).
A DRAW_PASS out of range ends ST_RANGE. It takes one of the 16 contexts when no earlier operation of its ring awaits one; there it waits for an earlier raster
operation of its ring and a block, ends ST_RANGE without a reserve, and then holds its first block with its draws read (R185, R189, R192, R198, R200).
Once its last segment is shaded it ends with R190's result; a pass that loses a block to a fence ends ST_MEM_LOST. A DISPATCH opens and ends in the same way
with R169's registers in its waves (R191, R192).
CLEAR and RESOLVE of records out of range end ST_RANGE and wait for a context (R192); else they end with R190's result after the surface has been written, or with the status of
the access that failed (R66, R190, R191). -/
def Obligations.RasterOperations : Prop :=
  (∀ (s : State) (id : OpId), s.Steady →
    (s.dev.activeOp id 0 1 = none → Becomes (.drawPass id) s s.dev ∧ Becomes (.poolBlockGrant id) s s.dev) ∧
    (s.dev.activeOp id 0 2 = none → Becomes (.dispatch id) s s.dev) ∧ (s.dev.activeOp id 0 3 = none → Becomes (.clear id) s s.dev) ∧
    (s.dev.activeOp id 0 4 = none → Becomes (.resolve id) s s.dev) ∧ (s.dev.activeOp id 1 1 = none → Becomes (.present id) s s.dev) ∧
    (s.dev.activeOp id 1 2 = none → Becomes (.bufRegister id) s s.dev) ∧ (s.dev.activeOp id 1 3 = none → Becomes (.bufFree id) s s.dev) ∧
    (s.dev.activeOp id 2 1 = none → Becomes (.copy id) s s.dev) ∧ (s.dev.activeOp id 2 2 = none → Becomes (.fill id) s s.dev) ∧
    (s.dev.activeOp id 3 1 = none → Becomes (.vitrineWrite id) s s.dev)) ∧
  (∀ (d : Dev) (id : OpId) (status : Nat) (r : Option Nat),
    (∀ o, d.op id = some o → (d.finish id status r).op id =
      some { o with phase := .finished, status := BitVec.ofNat 8 status, result := r.map (BitVec.ofNat 64) }) ∧
    (∀ j, j ≠ id → (d.finish id status r).op j = d.op j) ∧ { d.finish id status r with ops := d.ops } = d) ∧
  (∀ (d : Dev) (id : OpId) (t k : Nat) (o : Op), d.activeOp id t k = some o → d.op id = some o ∧ o.phase = .started ∧ o.target.toNat = t ∧ o.kind.toNat = k) ∧
  (∀ (d : Dev) (o : Op), d.contextFor o = true ↔ d.raster.passes.length < 16 ∧
    ∀ x ∈ d.ops.takeWhile (fun x => x.id ≠ o.id), x.id.ring = o.id.ring → x.target = 0 → x.active = true → d.passOf x.id ≠ none) ∧
  (∀ (s : State) (id : OpId) (o : Op) (e : Dev), Works s id 0 1 4 o → s.dev.passOf id = none →
    e = { s.dev with raster := { s.dev.raster with passes := s.dev.raster.passes ++
      [{ id := id, fn := o.fn, stage := 0, draws := [], outs := [], prims := [], segLo := 0, segHi := 0, todo := [], tiles := [], touched := []
         blocks := [], maxBlocks := 0, resolves := 0, reexec := 0, interrupts := [] }] } } →
    Becomes (.poolBlockGrant id) s s.dev ∧ (passOk o.desc = false → Becomes (.drawPass id) s (s.dev.finish id 0x10 none)) ∧
    (passOk o.desc = true → s.dev.contextFor o = false → Becomes (.drawPass id) s s.dev) ∧
    (passOk o.desc = true → s.dev.contextFor o = true →
      (((passDesc o.desc).order = 0 ∧ s.dev.earlierRaster o = true) ∨ o.cancel = true → Becomes (.drawPass id) s e) ∧
      (((passDesc o.desc).order ≠ 0 ∨ s.dev.earlierRaster o = false) → o.cancel = false →
        (s.dev.tlReserve o.fn = 0 → Becomes (.drawPass id) s ((e.stopPass id).finish id 0x10 none)) ∧
        (s.dev.tlReserve o.fn ≠ 0 → s.dev.drawable o.fn = 0 → Becomes (.drawPass id) s e) ∧
        (s.dev.tlReserve o.fn ≠ 0 → s.dev.drawable o.fn ≠ 0 → ∀ (d1 : Dev) (draws : List Draw),
          e.readDraws o (passDesc o.desc).drawCount 0 = (d1, .ok draws) → ∀ q : Pass,
          q = { id := id, fn := o.fn, stage := 1, draws := draws, outs := [], prims := [], segLo := 0, segHi := 0, todo := [], tiles := [], touched := []
                blocks := d1.freeBlocks.take 1, maxBlocks := 1, resolves := 0, reexec := 0, interrupts := [] } →
          Becomes (.drawPass id) s (d1.setPass q))))) ∧
  (∀ (s : State) (id : OpId) (o : Op) (q : Pass), Works s id 0 1 4 o → s.dev.passOf id = some q →
    (q.stage ≠ 0 → Becomes (.poolBlockGrant id) s s.dev) ∧
    (q.stage = 0 → ((passDesc o.desc).order ≠ 0 ∨ s.dev.earlierRaster o = false) → o.cancel = false → s.dev.tlReserve o.fn ≠ 0 →
      (s.dev.drawable o.fn = 0 → Becomes (.poolBlockGrant id) s s.dev) ∧
      (s.dev.drawable o.fn ≠ 0 → ∀ (d1 : Dev) (draws : List Draw), s.dev.readDraws o (passDesc o.desc).drawCount 0 = (d1, .ok draws) →
        Becomes (.poolBlockGrant id) s (d1.setPass { q with stage := 1, draws := draws, blocks := d1.freeBlocks.take 1, maxBlocks := 1 })))) ∧
  (∀ (s : State) (id : OpId) (o : Op) (q : Pass), Works s id 0 1 4 o → s.dev.passOf id = some q →
    (s.dev.lostPass q = true → Does (.drawPass id) s (fun e =>
      e.op id = some { o with phase := .finished, status := 0x21, result := none } ∧ e.raster.passes = s.dev.raster.passes.filter (fun p => p.id ≠ id) ∧
      e.raster.waves = s.dev.raster.waves.filter (fun x => x.2.op ≠ id) ∧ { e with ops := s.dev.ops, raster := s.dev.raster, bus := s.dev.bus } = s.dev)) ∧
    (s.dev.lostPass q = false → q.stage = 2 → q.todo = [] → q.tiles = [] → q.prims.length ≤ q.segHi → Does (.drawPass id) s (fun e =>
      ∃ time, e.op id = some
        { o with
          phase := .finished, status := 0
          result := some (BitVec.ofNat 64
            (Nat.min q.resolves 255 * 2 ^ 56 + Nat.min q.maxBlocks 255 * 2 ^ 48 + Nat.min q.reexec 255 * 2 ^ 40 + Nat.min time (2 ^ 40 - 1))) } ∧
      e.raster.passes = s.dev.raster.passes.filter (fun p => p.id ≠ id) ∧
      { e with ops := s.dev.ops, raster := s.dev.raster, free := s.dev.free, bus := s.dev.bus } = s.dev))) ∧
  (∀ (s : State) (id : OpId) (o : Op), Works s id 0 2 4 o → s.dev.passOf id = none →
    (dispatchOk o = false → Becomes (.dispatch id) s (s.dev.finish id 0x10 none)) ∧
    (dispatchOk o = true → s.dev.contextFor o = false → Becomes (.dispatch id) s s.dev) ∧
    (dispatchOk o = true → s.dev.contextFor o = true → ∀ (d1 : Dev) (g : WaveProg), s.dev.waveProg o.fn (fld (o.word 1) 0 48) = (d1, .ok g) →
      Does (.dispatch id) s (fun e =>
        e.raster.passes = s.dev.raster.passes ++ [Pass.begin o 1 [{ words := [], vertex := g, pixel := g }] []] ∧
        { e with raster := s.dev.raster, fns := s.dev.fns, free := s.dev.free, bus := s.dev.bus } = s.dev ∧ e.raster.waves = s.dev.raster.waves))) ∧
  (∀ (s : State) (id : OpId) (o : Op) (q : Pass), Works s id 0 2 4 o → s.dev.raster.passes = [q] → q.id = id → q.todo = [] → q.tiles = [] →
    (fld (o.word 0) 40 32 + 15) / 16 ≤ q.segLo →
    Does (.dispatch id) s (fun e => (e.op id).map (fun x => (x.phase, x.status)) = some (.finished, 0) ∧ e.raster.passes = [])) ∧
  (∀ (o : Op) (q : Pass) (unit core n l : Nat), l < 64 →
    (computeWave o q unit core n).seq.bank.rd 1 = BitVec.ofNat 72 o.addr.toNat ∧ (computeWave o q unit core n).seq.bank.rd 2 = BitVec.ofNat 72 (fld (o.word 2) 0 48) ∧
    (computeWave o q unit core n).seq.bank.rd 3 = BitVec.ofNat 72 n ∧
    (((computeWave o q unit core n).lanes[l]?).map (fun x => (x.act, tget x.v 0 0, tget x.v 1 0))) = some (1, BitVec.ofNat 72 (64 * n + l), 0)) ∧
  (∀ (s : State) (id : OpId) (o : Op), Works s id 0 3 4 o →
    (recordOk o o.desc = false → Becomes (.clear id) s (s.dev.finish id 0x10 none)) ∧
    (recordOk o o.desc = true → s.dev.contextFor o = false → Becomes (.clear id) s s.dev) ∧
    (recordOk o o.desc = true → s.dev.contextFor o = true → ∀ d1 : Dev, s.dev.clearSurface o (attOf o.desc) = (d1, .ok ()) →
      Becomes (.clear id) s (({ d1 with free := d1.free + 1 } : Dev).finish id 0 (some (Nat.min (Config.measured d1.free) (2 ^ 40 - 1))))) ∧
    (recordOk o o.desc = true → s.dev.contextFor o = true → ∀ (d1 : Dev) (cause va : Nat), s.dev.clearSurface o (attOf o.desc) = (d1, .error (cause, va)) →
      Does (.clear id) s (fun e => (e.op id).map (fun x => (x.phase, x.status, x.result)) = (d1.op id).map (fun _ => (.finished, causeStatus cause, none)) ∧
        bit (e.fn o.fn).evStatus 5 = true))) ∧
  (∀ (s : State) (id : OpId) (o : Op) (a b : Att), Works s id 0 4 4 o → a = attOf (o.desc.take 4) → b = attOf (o.desc.drop 4) →
    ((recordOk o (o.desc.take 4) = false ∨ recordOk o (o.desc.drop 4) = false ∨ (a.format = 0x50 ↔ b.format ≠ 0x50)) →
      Becomes (.resolve id) s (s.dev.finish id 0x10 none)) ∧
    (recordOk o (o.desc.take 4) = true → recordOk o (o.desc.drop 4) = true → (a.format = 0x50 ↔ b.format = 0x50) → s.dev.contextFor o = false →
      Becomes (.resolve id) s s.dev) ∧
    (recordOk o (o.desc.take 4) = true → recordOk o (o.desc.drop 4) = true → (a.format = 0x50 ↔ b.format = 0x50) → s.dev.contextFor o = true → ∀ d1 : Dev,
      s.dev.resolveSurface o a b = (d1, .ok ()) →
      Becomes (.resolve id) s (({ d1 with free := d1.free + 1 } : Dev).finish id 0 (some (Nat.min (Config.measured d1.free) (2 ^ 40 - 1))))))

/-- A core in service and at a boundary takes the ready compositor tile that comes first, outside its window only when the layout's owner has a COMPOSE weight: it is composed, stored and counted, and its composition is finished with its last tile
(R155, R193, R194, R200, R244). A tile is taken from its core for a ready compositor tile after PREEMPT_LIMIT, and what a core held that is reset is executed again,
its fourth interruption ending the operation ST_TIMEOUT; a core returns within 50 µs (R195, R215, R216). -/
def Obligations.CoresAndTiles : Prop :=
  (∀ (s : State) (p : Fin 12) (tile : Nat) (core : Fin 16) (c : Composition) (dl : Option Nat), s.Steady → s.dev.runs 4 = true →
    ((s.dev.pt p.val).active = false ∨ (s.dev.frameOf p.val).map (fun f => f.n) = some (s.dev.pt p.val).frame.toNat) →
    s.dev.inService core.val = true → s.dev.atBoundary core.val = true →
    (s.dev.pc p.val).chase = none → (s.dev.pc p.val).current = some c → s.dev.tileReady p.val tile = some dl → s.dev.comesFirst p.val dl = true →
    (dl ≠ none ∨ weightOf s.dev.obj (s.dev.owner 0x02 p.val) 1 ≠ 0) →
    Does (.compositorTileDispatch p tile core) s (fun e =>
      (e.pc p.val).current = some
        { c with
          tilesDone := c.tilesDone ++ [tile], doneAt := (if c.tileCount p.val false ≤ c.tilesDone.length + 1 then some s.dev.now else none)
          late := c.late || (match s.dev.composeDue p.val c with | some t => decide (t < s.dev.now) | none => false) } ∧
      (e.coreOf core.val).gated = false ∧ (e.coreOf core.val).idleFrom = s.dev.now ∧ e.coreBusy core.val = false ∧
      (∀ q, q ≠ p.val → e.pc q = s.dev.pc q) ∧ e.ops = s.dev.ops ∧ e.rings = s.dev.rings ∧ e.disp = s.dev.disp)) ∧
  (∀ (s : State) (p : Fin 12) (tile : Nat) (core : Fin 16) (c : Composition) (dl : Option Nat), s.Steady → s.dev.runs 4 = true →
    ((s.dev.pt p.val).active = false ∨
      ((s.dev.frameOf p.val).map (fun f => f.n) = some (s.dev.pt p.val).frame.toNat ∧ ∀ j, s.dev.stripOverdue p.val c j = false)) →
    s.dev.inService core.val = true → s.dev.atBoundary core.val = true →
    (s.dev.pc p.val).chase = some c → tile < s.dev.chaseTiles p.val → s.dev.tileReady p.val tile = some dl → s.dev.comesFirst p.val dl = true →
    (dl ≠ none ∨ weightOf s.dev.obj (s.dev.owner 0x02 p.val) 1 ≠ 0) →
    Does (.compositorTileDispatch p tile core) s (fun e =>
      ((e.pc p.val).chase.map (fun x => x.tilesDone)) = some (c.tilesDone ++ [tile]) ∧ e.mem = s.dev.mem ∧ e.ops = s.dev.ops ∧
      (∀ q, q ≠ p.val → e.pc q = s.dev.pc q))) ∧
  (∀ (s : State) (p : Fin 12) (tile : Nat) (core : Fin 16), s.Steady → (s.dev.pt p.val).active = false →
    (s.dev.tileReady p.val tile = none ∨ (s.dev.tileReady p.val tile = some none ∧ weightOf s.dev.obj (s.dev.owner 0x02 p.val) 1 = 0)) →
    Becomes (.compositorTileDispatch p tile core) s s.dev) ∧
  (∀ (s : State) (p : Fin 12) (tile : Nat) (core : Fin 16), s.Steady → s.dev.runs 4 = false → Becomes (.compositorTileDispatch p tile core) s s.dev) ∧
  (∀ (s : State) (core : Fin 16) (at_ unit : Nat) (q : Pass) (t : TileRun) (d : Dev), s.Steady → d = { s.dev with now := Nat.max s.dev.now at_ } →
    d.raster.passes = [q] → q.stage = 2 → q.tiles = [(unit, t)] → (t.core = core.val ∨ t.guard = some core.val) → t.used ≠ 0 → d.runs 4 = true →
    ((d.compositorReady = true ∧ t.since + d.raster.preemptLimit * 1000 ≤ d.now) ∨ (8 ≤ core.val ∧ d.power.applied = 7 ∧ Nat.max t.since d.power.opAt + 50000 ≤ d.now)) →
    Does (.tileEvict core at_) s (fun e =>
      e.raster.passes = [{ q with tiles := [], todo := unit :: q.todo, reexec := q.reexec + 1 }] ∧
      e.raster.waves = d.raster.waves.filter (fun x => !(x.2.op = q.id && x.2.tile = unit)) ∧ { e with raster := d.raster, bus := d.bus } = d)) ∧
  (∀ (s : State) (core : Fin 16) (at_ : Nat), s.Steady → s.dev.raster.passes = [] → Becomes (.tileEvict core at_) s s.dev) ∧
  (∀ (s : State) (core : Fin 16), s.Steady → s.dev.runs 4 = true →
    (s.dev.raster.passes = [] → Becomes (.shaderCoreReset core) s (s.dev.setCore core.val { s.dev.coreOf core.val with resetAt := some s.dev.now, work := none, tex := [] })) ∧
    (∀ (q : Pass) (unit : Nat) (t : TileRun), s.dev.raster.passes = [q] → q.tiles = [(unit, t)] → (t.core = core.val ∨ t.guard = some core.val) →
      ∀ n, n = tget q.interrupts (2 * unit + (if q.stage = 2 then 1 else 0)) 0 →
      (n < 3 → Does (.shaderCoreReset core) s (fun e =>
        (e.coreOf core.val).resetAt = some s.dev.now ∧
        e.raster.passes = [{ q with interrupts := tset q.interrupts (2 * unit + (if q.stage = 2 then 1 else 0)) (n + 1)
                                    tiles := [], todo := unit :: q.todo, reexec := q.reexec + 1 }] ∧
        e.ops = s.dev.ops.map (fun o => if o.id = q.id then { o with replayed := true } else o))) ∧
      (3 ≤ n → Does (.shaderCoreReset core) s (fun e => e.raster.passes = [] ∧ ∀ o, s.dev.op q.id = some o →
        (e.op q.id).map (fun x => (x.phase, x.status, x.replayed)) = some (.finished, 0x12, true))))) ∧
  (∀ (s : State) (core : Fin 16) (at_ t : Nat) (d : Dev), s.Steady → (s.dev.coreOf core.val).resetAt = some t →
    d = { s.dev with now := Nat.max s.dev.now (Nat.min at_ (t + 50000)) } →
    Becomes (.shaderCoreReturn core at_) s (d.setCore core.val { s.dev.coreOf core.val with resetAt := none, idleFrom := d.now })) ∧
  (∀ (s : State) (core : Fin 16) (at_ : Nat), s.Steady → (s.dev.coreOf core.val).resetAt = none → Becomes (.shaderCoreReturn core at_) s s.dev) ∧
  (∀ (d : Dev) (n : Nat), ((d.coreOf n).resetAt ≠ none ∨ (d.coreOf n).inTest = true ∨ (8 ≤ n ∧ d.power.applied = 7)) → d.inService n = false)

/-! Composition, buffer handles, check-value units, data movement. -/

/-- A PRESENT of the layout's owner waits for its VBLANK from its release on; one out of range ends ST_RANGE, one of another function ST_OWNER (R249).
A composition not finished at its deadline is late (R244), a strip whose ring position the scan has left is open (R246), and a strip that is not finished at
its deadline is missed, counted and raised once (R247).
A surface is registered under a free handle of the operation's function, waits while the handle is FREEING, and ends ST_RANGE for a registered handle or
a surface out of range (R222); BUF_FREE makes the handle FREEING, and it is FREE, its operation complete with DEVTIME as result, once nothing names or
reads it (R223). -/
def Obligations.PresentsStripsAndBuffers : Prop :=
  (∀ (s : State) (id : OpId) (o : Op) (p : Nat), Works s id 1 1 5 o → p = fld (o.word 0) 0 4 →
    ((fld (o.word 0) 4 68 ≠ 0 ∨ 11 < p) → Becomes (.present id) s (s.dev.finish id 0x10 none)) ∧
    (fld (o.word 0) 4 68 = 0 → p ≤ 11 → s.dev.owner 0x02 p ≠ o.fn → Becomes (.present id) s (s.dev.finish id 0x11 none)) ∧
    (fld (o.word 0) 4 68 = 0 → p ≤ 11 → s.dev.owner 0x02 p = o.fn → (∀ w ∈ (s.dev.pc p).presents, w.id ≠ id) →
      Becomes (.present id) s (s.dev.setPc p
        { s.dev.pc p with presents := (s.dev.pc p).presents ++ [{ id := id, at_ := o.due, frame := none, late := false }] }))) ∧
  (∀ (s : State) (p : Fin 12) (at_ : Nat) (c : Composition) (d : Dev), s.Steady → d = { s.dev with now := Nat.max s.dev.now at_ } →
    (s.dev.pc p.val).current = some c → s.dev.runs 10 = true → ∀ t, s.dev.composeDue p.val c = some t →
    (t ≤ d.now → c.doneAt = none → Becomes (.frameComposeDeadline p at_) s (d.setPc p.val { s.dev.pc p.val with current := some { c with late := true } })) ∧
    ((d.now < t ∨ c.doneAt ≠ none) → Becomes (.frameComposeDeadline p at_) s s.dev)) ∧
  (∀ (s : State) (p : Fin 12) (strip at_ t : Nat) (c : Composition) (d : Dev), s.Steady → d = { s.dev with now := Nat.max s.dev.now at_ } →
    (s.dev.pc p.val).chase = some c → s.dev.runs 10 = true → strip < c.strips p.val → c.ringDepth p.val ≤ strip →
    s.dev.lineStart p.val ((strip + 1 - c.ringDepth p.val) * c.stripH p.val) = some t →
    (t ≤ d.now → strip ∉ (s.dev.pc p.val).opened →
      Becomes (.stripWindowOpen p strip at_) s (d.setPc p.val { s.dev.pc p.val with opened := (s.dev.pc p.val).opened ++ [strip] })) ∧
    ((d.now < t ∨ strip ∈ (s.dev.pc p.val).opened) → Becomes (.stripWindowOpen p strip at_) s s.dev)) ∧
  (∀ (s : State) (p : Fin 12) (strip at_ t : Nat) (c : Composition) (d : Dev), s.Steady → d = { s.dev with now := Nat.max s.dev.now at_ } →
    (s.dev.pc p.val).chase = some c → s.dev.runs 10 = true → strip < c.strips p.val → s.dev.stripDeadline p.val c strip = some t →
    (t ≤ d.now → c.stripDone p.val strip = false → strip ∉ (s.dev.pc p.val).missed → Does (.stripMiss p strip at_) s (fun e =>
      { e.pc p.val with block := (s.dev.pc p.val).block } = { s.dev.pc p.val with
        missed := (s.dev.pc p.val).missed ++ [strip], misses := (s.dev.pc p.val).misses ++ [c.frame]
        wantFallback := (s.dev.pc p.val).wantFallback || s.dev.missesReach p.val c.frame 1
        presents := (s.dev.pc p.val).presents.map (fun x => if x.frame = some c.frame then { x with late := true } else x) } ∧
      fld (e.live 0x02 p.val 30) 56 16 = Nat.min (fld (s.dev.live 0x02 p.val 30) 56 16 + 1) 65535 ∧ e.now = d.now ∧
      (∀ f, f < 64 → s.dev.exists_ f = true → s.dev.seesPipe f p.val = true → bit (tget (e.fn f).pipeEv p.val 0) 5 = true) ∧ e.mem = s.dev.mem)) ∧
    ((d.now < t ∨ c.stripDone p.val strip = true ∨ strip ∈ (s.dev.pc p.val).missed) → Becomes (.stripMiss p strip at_) s s.dev)) ∧
  (∀ (s : State) (p : Fin 12) (strip at_ : Nat), s.Steady →
    ((s.dev.pc p.val).current = none → Becomes (.frameComposeDeadline p at_) s s.dev) ∧
    ((s.dev.pc p.val).chase = none → Becomes (.stripWindowOpen p strip at_) s s.dev ∧ Becomes (.stripMiss p strip at_) s s.dev)) ∧
  (∀ (s : State) (id : OpId) (o : Op) (k : Nat), Works s id 1 2 5 o → k = 256 * o.fn + fld (o.word 0) 64 8 →
    ((registerOk o = false ∨ (s.dev.handle k).state = .registered) → Becomes (.bufRegister id) s (s.dev.finish id 0x10 none)) ∧
    (registerOk o = true → (s.dev.handle k).state = .freeing → Becomes (.bufRegister id) s s.dev) ∧
    (registerOk o = true → (s.dev.handle k).state = .free → Becomes (.bufRegister id) s
      ((s.dev.setHandle k { state := .registered, words := o.desc.drop 1, serial := (s.dev.handle k).serial + 1, freeOp := none, vanished := false }).finish id 0 none))) ∧
  (∀ (s : State) (id : OpId) (o : Op) (k : Nat) (d1 : Dev), Works s id 1 3 5 o → k = 256 * o.fn + fld (o.word 0) 0 8 → (s.dev.handle k).freeOp ≠ some id →
    d1 = s.dev.setHandle k { s.dev.handle k with state := .freeing, freeOp := some id, vanished := false } →
    ((fld (o.word 0) 8 64 ≠ 0 ∨ fld (o.word 0) 0 8 = 0 ∨ (s.dev.handle k).state ≠ .registered) → Becomes (.bufFree id) s (s.dev.finish id 0x10 none)) ∧
    (fld (o.word 0) 8 64 = 0 → fld (o.word 0) 0 8 ≠ 0 → (s.dev.handle k).state = .registered →
      (d1.handleUsed k = true → Becomes (.bufFree id) s d1) ∧
      (d1.handleUsed k = false → Does (.bufFree id) s (fun e =>
        e.handle k = { s.dev.handle k with state := .free, words := [], freeOp := none, vanished := false } ∧ (∀ j, j ≠ k → e.handle j = s.dev.handle j) ∧
        e.op id = some { o with phase := .finished, status := 0, result := some (BitVec.ofNat 64 s.dev.now), deferred := false })))) ∧
  (∀ (s : State) (f : Fin 64) (h : BitVec 8) (k : Nat), s.Steady → s.dev.awake = true → k = 256 * f.val + h.toNat → (s.dev.handle k).state = .freeing →
    (s.dev.handleUsed k = true → Becomes (.handleFreed f h) s s.dev) ∧
    (s.dev.handleUsed k = false → Does (.handleFreed f h) s (fun e =>
      e.handle k = { s.dev.handle k with state := .free, words := [], freeOp := none, vanished := false } ∧ (∀ j, j ≠ k → e.handle j = s.dev.handle j) ∧
      ∀ id o, (s.dev.handle k).freeOp = some id → s.dev.op id = some o → o.phase = .started →
        e.op id = some { o with phase := .finished, status := 0, result := some (BitVec.ofNat 64 s.dev.now), deferred := true }))) ∧
  (∀ (s : State) (f : Fin 64) (h : BitVec 8), s.Steady → (s.dev.handle (256 * f.val + h.toNat)).state ≠ .freeing → Becomes (.handleFreed f h) s s.dev)

/-- A period that ends publishes its value with its number and begins again from INIT; a value that differs from the reference makes the unit SUSPECT, the
same value again CONFIRMED, the reference value OK again, each reported and counted, and every mismatch is raised on the unit's pipe (R371, R374, R382,
R383). The units' periods end in their windows' frames and after their ports' segments.
An operation on a unit checks its fields, its owner and the unit's tap (R378). CVU_SAMPLE publishes the value so far and begins a period (R379); CVU_SAVE
stores the period in three words and suspends the unit, and CVU_RESTORE takes the period up again, counting one that it abandons (R380, R381). -/
def Obligations.CheckValues : Prop :=
  (∀ (d : Dev) (u v tag : Nat) (active : Bool), (d.cvuFinal u v tag active).cvu u =
    { d.cvu u with
      last := BitVec.ofNat 64 v, tag := BitVec.ofNat 48 tag, reg := BitVec.ofNat 64 (d.crcOf u).init, active := active, segments := 0, bytes := 0, next := none } ∧
    ∀ j, j ≠ u → (d.cvuFinal u v tag active).cvu j = d.cvu j) ∧
  (∀ (d : Dev) (u v : Nat), (d.cvuCompares u = false ∨ (d.cvu u).state = 5) → d.judge u v = d) ∧
  (∀ (d : Dev) (u v : Nat), d.cvuCompares u = true → (d.cvu u).state ≠ 5 → (d.cvu u).refBad = false →
    (v = d.cvuRef u → (d.cvu u).state = 3 → ((d.judge u v).cvu u).state = 1 ∧ ((d.judge u v).cvu u).cleared = satInc (d.cvu u).cleared) ∧
    (v = d.cvuRef u → (d.cvu u).state = 4 → ((d.judge u v).cvu u).state = 1) ∧
    (v = d.cvuRef u → (d.cvu u).state = 1 → ((d.judge u v).cvu u) = d.cvu u) ∧
    (v ≠ d.cvuRef u → (d.cvu u).state = 1 → ((d.judge u v).cvu u).state = 3 ∧ ((d.judge u v).cvu u).held = BitVec.ofNat 64 v) ∧
    (v ≠ d.cvuRef u → (d.cvu u).state = 3 → v = (d.cvu u).held.toNat → ((d.judge u v).cvu u).state = 4 ∧ ((d.judge u v).cvu u).suspects = satInc (d.cvu u).suspects) ∧
    (v ≠ d.cvuRef u → (d.cvu u).state = 4 → v = (d.cvu u).held.toNat → ((d.judge u v).cvu u).state = 4) ∧
    (v ≠ d.cvuRef u → ((d.judge u v).cvu u).mismatches = satInc (d.cvu u).mismatches)) ∧
  (∀ (d : Dev) (u v : Nat), d.cvuCompares u = true → (d.cvu u).state ≠ 5 → (d.cvu u).refBad = true →
    ((d.judge u v).cvu u).state = 5 ∧ ((d.judge u v).cvu u).refFaults = satInc (d.cvu u).refFaults) ∧
  (∀ (s : State) (u : Fin 32) (at_ p n v t : Nat) (d1 : Dev), s.Steady → s.dev.cvuOn u.val = true → s.dev.cvuTap u.val = p + 1 →
    tapKind (p + 1) = 1 → n = (s.dev.pt p).frame.toNat → (s.dev.cvu u.val).frame ≠ n → s.dev.pipeRuns p = true → (s.dev.runs 6 = true ∨ (s.dev.pt p).showcase = true) →
    s.dev.lineAt p (Nat.min ((s.dev.cvuWindow u.val).2.1 + (s.dev.cvuWindow u.val).2.2.2) (s.dev.timing p).vact) = some t →
    ({ s.dev with now := Nat.max s.dev.now (Nat.max t at_) } : Dev).windowValue u.val p = (d1, v) →
    Becomes (.cvuPeriodEnd u at_) s ((((d1.setCvu u.val { d1.cvu u.val with frame := n }).cvuFinal u.val v n false).judge u.val v).settle)) ∧
  (∀ (s : State) (u : Fin 32) (at_ q : Nat) (v : BitVec 64) (l : List (BitVec 64)), s.Steady → s.dev.cvuOn u.val = true → s.dev.cvuTap u.val = 0x40 + q →
    tapKind (0x40 + q) = 5 → (s.dev.runs 6 = true → (s.dev.cvu u.val).ended = v :: l →
      Becomes (.cvuPeriodEnd u at_) s ((({ s.dev with now := Nat.max s.dev.now at_ } : Dev).setCvu u.val
        { s.dev.cvu u.val with ended := l, last := v, tag := BitVec.ofNat 48 ((s.dev.cvu u.val).tag.toNat + 1) }).judge u.val v.toNat).settle) ∧
    ((s.dev.cvu u.val).ended = [] → Becomes (.cvuPeriodEnd u at_) s s.dev)) ∧
  (∀ (s : State) (u : Fin 32) (at_ : Nat), s.Steady → s.dev.cvuOn u.val = false → Becomes (.cvuPeriodEnd u at_) s s.dev) ∧
  (∀ (s : State) (id : OpId) (o : Op) (u : Nat), u = fld (o.word 0) 0 5 →
    (Works s id 8 1 6 o → (fld (o.word 0) 5 67 ≠ 0 ∨ (1 < o.len ∧ (fld (o.word 1) 48 24 ≠ 0 ∨ fld (o.word 1) 0 48 % 64 ≠ 0))) →
      Becomes (.cvuSample id) s (s.dev.finish id 0x10 none)) ∧
    (Works s id 8 1 6 o → fld (o.word 0) 5 67 = 0 → o.len = 1 → s.dev.owner 0x0A u ≠ o.fn → Becomes (.cvuSample id) s (s.dev.finish id 0x11 none)) ∧
    (Works s id 8 1 6 o → fld (o.word 0) 5 67 = 0 → o.len = 1 → s.dev.owner 0x0A u = o.fn → (s.dev.cvuOn u = false ∨ tapKind (s.dev.cvuTap u) ≠ 3) →
      Becomes (.cvuSample id) s (s.dev.finish id 0x10 none)) ∧
    (Works s id 8 1 6 o → fld (o.word 0) 5 67 = 0 → o.len = 1 → s.dev.owner 0x0A u = o.fn → s.dev.cvuOn u = true → tapKind (s.dev.cvuTap u) = 3 →
      (s.dev.cvu u).state ≠ 2 → ∀ v, v = (s.dev.crcOf u).value (if (s.dev.cvu u).active then (s.dev.cvu u).reg.toNat else (s.dev.crcOf u).init) →
      Becomes (.cvuSample id) s (((s.dev.cvuFinal u v ((s.dev.cvu u).tag.toNat + 1) true).judgeOnce u v).1.finish id 0 (some v)).settle)) ∧
  (∀ (s : State) (id : OpId) (o : Op) (u r : Nat) (x : Cvu) (c : Crc) (d1 : Dev), Works s id 8 2 6 o → u = fld (o.word 0) 0 5 → fld (o.word 0) 5 67 = 0 →
    fld (o.word 1) 48 24 = 0 → fld (o.word 1) 0 48 % 64 = 0 → s.dev.owner 0x0A u = o.fn → s.dev.cvuOn u = true → tapKind (s.dev.cvuTap u) = 3 →
    x = s.dev.cvu u → x.state ≠ 2 → c = s.dev.crcOf u → r = (if x.active then x.reg.toNat else c.init) →
    s.dev.writeWords o.fn (fld (o.word 1) 0 48)
      [BitVec.ofNat 72 ((c.width - 1) * 2 ^ 64 + r), BitVec.ofNat 72 (x.bytes % 2 ^ 48), BitVec.ofNat 72 (match x.next with | some a => a.toNat | none => 0)] = (d1, .ok ()) →
    Becomes (.cvuSave id) s ((d1.setCvu u { x with state := 2, active := false, reg := BitVec.ofNat 64 r, segments := 0 }).finish id 0 (some r))) ∧
  (∀ (s : State) (id : OpId) (o : Op) (u : Nat) (w0 w1 w2 : W72) (d1 : Dev), Works s id 8 3 6 o → u = fld (o.word 0) 0 5 → fld (o.word 0) 5 67 = 0 →
    fld (o.word 1) 48 24 = 0 → fld (o.word 1) 0 48 % 64 = 0 → s.dev.owner 0x0A u = o.fn → s.dev.cvuOn u = true → tapKind (s.dev.cvuTap u) = 3 →
    s.dev.readWords o.fn (fld (o.word 1) 0 48) 3 .read = (d1, .ok [w0, w1, w2]) →
    ((fld w0 64 6 + 1 ≠ (d1.crcOf u).width ∨ fld w0 70 2 ≠ 0 ∨ fld w1 64 8 ≠ 0 ∨ fld w2 64 8 ≠ 0) → Becomes (.cvuRestore id) s (d1.finish id 0x10 none)) ∧
    (fld w0 64 6 + 1 = (d1.crcOf u).width → fld w0 70 2 = 0 → fld w1 64 8 = 0 → fld w2 64 8 = 0 → Becomes (.cvuRestore id) s ((d1.setCvu u
      { d1.cvu u with
        state := 1, active := true, wait := false, reg := BitVec.ofNat 64 (fld w0 0 64 % 2 ^ (d1.crcOf u).width), segments := 0, bytes := fld w1 0 48
        next := (if fld w1 0 48 = 0 then none else some (BitVec.ofNat 48 (fld w2 0 48)))
        abandoned := (if (d1.cvu u).state = 2 then (d1.cvu u).abandoned else satInc (d1.cvu u).abandoned) }).finish id 0 none))) ∧
  (∀ (s : State) (id : OpId), s.Steady → s.dev.activeOp id 8 1 = none → s.dev.activeOp id 8 2 = none → s.dev.activeOp id 8 3 = none →
    Becomes (.cvuSample id) s s.dev ∧ Becomes (.cvuSave id) s s.dev ∧ Becomes (.cvuRestore id) s s.dev)

/-- A VITRINE_WRITE copies its pages and folds them into the arrival unit's value: the pages are PENDING from its start (R253) and become CHECKED when the value is the reference and BAD when it is
not, which is reported and ends ST_CHECK (R252, R253, R377); a copy that faults leaves them BAD (R254).
COPY moves its rows line by line, FILL writes its nine-byte pattern, each row from its start; a field out of range ends ST_RANGE, a unit of another
function ST_OWNER, and a check-value unit named gets the value of the bytes moved, which is the result (R366, R410 to R412). -/
def Obligations.VitrineAndDataMovement : Prop :=
  (∀ (s : State) (id : OpId) (o : Op) (d1 d2 : Dev) (u r v : Nat) (t : List (Nat × Nat × Nat)), Works s id 3 1 5 o → s.dev.runs 6 = true →
    s.dev.vitrineWaits o = false → s.dev.vitrineCheck o = (d1, some (u, t)) →
    (d1.markPages 1 (t.map (fun x => x.2.1))).arrive (d1.crcOf u) o.fn (fld (o.word 1) 0 48) t (d1.crcOf u).init = (d2, .ok r) → v = (d1.crcOf u).value r → (d2.cvu u).refBad = false →
    (v = fld (o.word 3) 0 64 → Becomes (.vitrineWrite id) s (((d2.cvuFinal u v ((d2.cvu u).tag.toNat + 1) false).markPages 2 (t.map (fun x => x.2.1))).finish id 0 (some v))) ∧
    (v ≠ fld (o.word 3) 0 64 → ∀ d3 : Dev, d3 = d2.cvuFinal u v ((d2.cvu u).tag.toNat + 1) false →
      Becomes (.vitrineWrite id) s ((((d3.setCvu u { d3.cvu u with mismatches := satInc (d3.cvu u).mismatches }).smRecord 0x14 (locusEngine 0x09 u) (some o.fn) v
        (fld (o.word 3) 0 64)).markPages 3 (t.map (fun x => x.2.1))).finish id 0x22 (some v)).settle)) ∧
  (∀ (s : State) (id : OpId) (o : Op) (d1 d2 : Dev) (u cause va : Nat) (t : List (Nat × Nat × Nat)), Works s id 3 1 5 o → s.dev.runs 6 = true →
    s.dev.vitrineWaits o = false → s.dev.vitrineCheck o = (d1, some (u, t)) →
    (d1.markPages 1 (t.map (fun x => x.2.1))).arrive (d1.crcOf u) o.fn (fld (o.word 1) 0 48) t (d1.crcOf u).init = (d2, .error (cause, va)) →
    Does (.vitrineWrite id) s (fun e => (e.op id).map (fun x => (x.phase, x.status)) = some (.finished, causeStatus cause) ∧
      ∀ x ∈ t, tget e.comp.pages ((x.2.1 - vitrineBase) / 4096) 0 = 3)) ∧
  (∀ (s : State) (id : OpId) (o : Op), Works s id 3 1 5 o → s.dev.vitrineWaits o = true → Becomes (.vitrineWrite id) s s.dev) ∧
  (∀ (d : Dev) (id : OpId) (o : Op) (d1 : Dev) (u : Nat) (t : List (Nat × Nat × Nat)), d.activeOp id 3 1 = some o → d.vitrineWaits o = false →
    d.vitrineCheck o = (d1, some (u, t)) → ∀ x ∈ t, tget (d.vitrineStart id).comp.pages ((x.2.1 - vitrineBase) / 4096) 0 = 1) ∧
  (∀ (s : State) (id : OpId) (o : Op) (d1 : Dev) (ws : List W72), s.Steady → s.dev.op id = some o → o.phase = .released → o.gen = (s.dev.fn o.fn).gen →
    o.target = 3 → o.kind = 1 → o.len = 4 → s.dev.runs 5 = true → s.dev.readWords o.fn o.addr.toNat 4 .read = (d1, .ok ws) →
    Becomes (.engineOpStart id) s ((d1.updOp id (fun o => { o with phase := .started, desc := ws })).vitrineStart id)) ∧
  (∀ (d : Dev) (c : Crc) (f src r va pa : Nat) (d1 : Dev) (b : List Byte), d.readV f (src % 2 ^ 48) 4096 .read = (d1, .ok b) →
    d.arrive c f src [(va, pa, 4096)] r = (d1.poke pa b, .ok (c.segment r va b))) ∧
  (∀ (s : State) (id : OpId) (o : Op) (st : Nat), s.dev.dmaWaits o = false →
    (Works s id 2 1 5 o → s.dev.dmaStop true o = some st → Becomes (.copy id) s (s.dev.finish id st none)) ∧
    (Works s id 2 2 5 o → s.dev.dmaStop false o = some st → Becomes (.fill id) s (s.dev.finish id st none))) ∧
  (∀ (d : Dev) (o : Op) (copy : Bool), (dmaOk copy o.desc = false → d.dmaStop copy o = some 0x10) ∧
    (dmaOk copy o.desc = true → (dmaOf o.desc).unit = none → d.dmaStop copy o = none) ∧
    (dmaOk copy o.desc = true → ∀ u, (dmaOf o.desc).unit = some u → d.cvuOn u = true → d.cvuTap u = 0x30 →
      d.dmaStop copy o = if d.owner 0x0A u = o.fn then none else some 0x11)) ∧
  (∀ (s : State) (id : OpId) (o : Op) (m : Dma) (d1 d2 : Dev) (b : List Byte), Works s id 2 1 5 o → m = dmaOf o.desc → s.dev.dmaStop true o = none → m.unit = none →
    m.rows = 1 → m.bytes ≤ 64 - m.dest % 64 → s.dev.readV o.fn m.source m.bytes .read = (d1, .ok b) → d1.writeV o.fn m.dest b = (d2, .ok ()) →
    Becomes (.copy id) s (d2.finish id 0 none)) ∧
  (∀ (s : State) (id : OpId) (o : Op) (m : Dma) (d2 : Dev), Works s id 2 2 5 o → m = dmaOf o.desc → s.dev.dmaStop false o = none → m.unit = none →
    m.rows = 1 → m.bytes ≤ 64 - m.dest % 64 →
    s.dev.writeV o.fn m.dest ((List.range m.bytes).map (fun i => BitVec.ofNat 8 (m.pattern.toNat / 256 ^ (i % 9)))) = (d2, .ok ()) →
    Becomes (.fill id) s (d2.finish id 0 none)) ∧
  (∀ (s : State) (id : OpId) (o : Op) (m : Dma) (d1 : Dev) (r : Nat), m = dmaOf o.desc → m.unit = none →
    (Works s id 2 1 5 o → s.dev.dmaStop true o = none → s.dev.dmaMove true o.fn m (crcPreset 0) m.lines 0 = (d1, .ok r) → Becomes (.copy id) s (d1.finish id 0 none)) ∧
    (Works s id 2 2 5 o → s.dev.dmaStop false o = none → s.dev.dmaMove false o.fn m (crcPreset 0) m.lines 0 = (d1, .ok r) → Becomes (.fill id) s (d1.finish id 0 none))) ∧
  (∀ (s : State) (id : OpId) (o : Op) (m : Dma) (u r v : Nat) (d1 : Dev), m = dmaOf o.desc → m.unit = some u → s.dev.dmaWaits o = false → Works s id 2 1 5 o →
    s.dev.dmaStop true o = none → s.dev.dmaMove true o.fn m (s.dev.crcOf u) m.lines (s.dev.dmaStart o m u) = (d1, .ok r) → v = (s.dev.crcOf u).value r →
    Becomes (.copy id) s ((((d1.cvuFinal u v ((d1.cvu u).tag.toNat + 1) false).judgeOnce u v).1.finish id
      (if ((d1.cvuFinal u v ((d1.cvu u).tag.toNat + 1) false).judgeOnce u v).2 then 0 else 0x22) (some v)).settle))

/-! Display. -/

/-- VBLANK begins the pipe's next frame at its instant (R277): the counter goes up by one, a commit due has applied, a presented or flipped frame is due, and the
event is raised. The first active line stamps the frame (R278): dark when its link is not up, else the flips due complete with the stamp and FLIP_DONE is
raised. An adaptive hold ends at the first line boundary at which a condition holds (R287). -/
def Obligations.FramesAndStamps : Prop :=
  (∀ (s : State) (p : Fin 12) (at_ : Nat), s.Steady → s.dev.pipeRuns p.val = true → s.dev.now ≤ at_ → s.dev.vblankDue p.val at_ = true →
    (s.dev.frameOf p.val).map (fun f => f.n) = some (s.dev.pt p.val).frame.toNat → s.dev.commits = [] →
    (∀ l ∈ s.dev.poison, l < 2 ^ 40) → Does (.vblank p at_) s (fun e =>
      e.now = Nat.max s.dev.now at_ ∧ (e.pt p.val).frame = (s.dev.pt p.val).frame + 1 ∧ (e.pt p.val).lastVb = some at_ ∧ (e.pt p.val).firstLine = none ∧
      (e.pt p.val).hold = none ∧ e.evCount 1 p.val = s.dev.evCount 1 p.val + 1 ∧
      bit e.safety.force p.val = (bit s.dev.safety.force p.val || bit s.dev.safety.forceWanted p.val) ∧ bit e.safety.forceWanted p.val = false ∧
      (∀ f, f < 64 → s.dev.exists_ f = true → f = s.dev.manager → bit (tget (e.fn f).pipeEv p.val 0) 0 = true) ∧
      (∀ q, q ≠ p.val → e.pt q = s.dev.pt q) ∧ e.mem = s.dev.mem ∧
      (∀ v, s.dev.vblankAt p.val = some v → (e.pt p.val).vbAt = v) ∧
      ∀ g, e.ring g = { s.dev.ring g with thread := { (s.dev.ring g).thread with wait := (s.dev.ring g).thread.wait.meet 1 p.val at_ } })) ∧
  (∀ (d : Dev) (p t : Nat), d.vblankDue p t = true ↔ ∃ v, d.vblankAt p = some v ∧ t ≤ stampOf v + 2 ∧ stampOf v ≤ t + 2) ∧
  (∀ (d : Dev) (p : Nat), d.dsiCmd p = false → (d.pt p).firstLine ≠ none →
    (d.adaptive p = false → d.vblankAt p = some (d.lineInstant p (d.timing p).vact)) ∧
    (∀ k, d.adaptive p = true → (d.pt p).hold = some k → d.vblankAt p = some (d.lineInstant p ((d.timing p).vact + k))) ∧
    (d.adaptive p = true → (d.pt p).hold = none → d.vblankAt p = none)) ∧
  (∀ (s : State) (p : Fin 12) (at_ : Nat), s.Steady → (s.dev.pipeRuns p.val = false ∨ at_ < s.dev.now ∨ s.dev.vblankDue p.val at_ = false) →
    Becomes (.vblank p at_) s s.dev) ∧
  (∀ (s : State) (p : Fin 12) (at_ t : Nat), s.Steady → s.dev.pipeRuns p.val = true → s.dev.now ≤ at_ →
    (s.dev.frameOf p.val).map (fun f => f.n) = some (s.dev.pt p.val).frame.toNat → (s.dev.pt p.val).firstLine = none → s.dev.scanStart p.val = some t →
    near at_ t = true →
    (∀ c, (s.dev.pc p.val).chase = some c → ∀ j, ({ s.dev with now := Nat.max s.dev.now at_ } : Dev).stripOverdue p.val c j = false) →
    (s.dev.frameDark p.val = false → Does (.firstActiveLine p at_) s (fun e =>
      e.pt p.val = { s.dev.pt p.val with stampedFrame := (s.dev.pt p.val).frame, flipStamp := BitVec.ofNat 64 at_, firstLine := some at_ } ∧
      e.disp.flips = s.dev.disp.flips.filter (fun w =>
        !(w.pipe = p.val && (match w.frame with | some k => decide (k ≤ (s.dev.pt p.val).frame.toNat) | none => false))) ∧
      e.evCount 2 p.val = s.dev.evCount 2 p.val + 1 ∧
      (∀ f, f < 64 → s.dev.exists_ f = true → f = s.dev.manager → bit (tget (e.fn f).pipeEv p.val 0) 1 = true) ∧ e.mem = s.dev.mem)) ∧
    (s.dev.frameDark p.val = true → s.dev.mustShowNow p.val = false → Does (.firstActiveLine p at_) s (fun e =>
      e.pt p.val = { s.dev.pt p.val with
        stampedFrame := (s.dev.pt p.val).frame, flipStamp := BitVec.ofNat 64 at_, firstLine := some at_, darkFrames := satInc (s.dev.pt p.val).darkFrames } ∧
      e.disp.flips = s.dev.disp.flips.map (fun w =>
        if w.pipe = p.val && (match w.frame with | some k => decide (k ≤ (s.dev.pt p.val).frame.toNat) | none => false) then { w with late := true } else w) ∧
      e.evCount 2 p.val = s.dev.evCount 2 p.val ∧ e.ops = s.dev.ops ∧ e.mem = s.dev.mem))) ∧
  (∀ (s : State) (p : Fin 12) (at_ k : Nat) (e : Rat) (d : Dev), s.Steady → d = { s.dev with now := Nat.max s.dev.now at_ } →
    s.dev.activeEndAt p.val = some e → k = stampOf (((at_ : Rat) - e) / pixelsNs ((s.dev.timing p.val).htotal : Nat) (s.dev.pt p.val).inc.toNat) →
    s.dev.pipeRuns p.val = true → s.dev.adaptive p.val = true → (s.dev.pt p.val).hold = none → s.dev.now ≤ at_ →
    (near at_ (s.dev.holdLine p.val k) = true → s.dev.holdLimit p.val k = true → (k = 0 ∨ s.dev.holdLimit p.val (k - 1) = false) →
      Becomes (.adaptiveHoldEnd p at_) s (d.setPt p.val { s.dev.pt p.val with hold := some k })) ∧
    ((near at_ (s.dev.holdLine p.val k) = false ∨ s.dev.holdLimit p.val k = false ∨ (k ≠ 0 ∧ s.dev.holdLimit p.val (k - 1) = true)) →
      Becomes (.adaptiveHoldEnd p at_) s s.dev)) ∧
  (∀ (d : Dev) (p k : Nat), d.holdLimit p k = true ↔ d.holdEnds p (d.holdLine p k) = true ∨ fld (d.obj 0x01 p 4) 26 14 ≤ k) ∧
  (∀ (s : State) (p : Fin 12) (at_ : Nat), s.Steady → (s.dev.pt p.val).firstLine = none → Becomes (.adaptiveHoldEnd p at_) s s.dev)

/-- FLIP waits for its VBLANK, MODE_READ stores an entry's words, MODE_DEFINE takes an entry that keeps R272's rules into the range of the defined modes for the
manager alone (R280 to R283). PORT_MSG sends to the sink of a port that is there, one at a time (R284): an ACK completes it with its length, a NACK and seven
retries of a DEFER with their code, and no reply within 10 ms ends it ST_TIMEOUT. -/
def Obligations.DisplayOperations : Prop :=
  (∀ (s : State) (id : OpId) (o : Op) (p : Nat), Works s id 4 1 10 o → p = fld (o.word 0) 0 4 →
    ((fld (o.word 0) 4 68 ≠ 0 ∨ 11 < p) → Becomes (.flip id) s (s.dev.finish id 0x10 none)) ∧
    (fld (o.word 0) 4 68 = 0 → p ≤ 11 → s.dev.seesPipe o.fn p = false → Becomes (.flip id) s (s.dev.finish id 0x11 none)) ∧
    (fld (o.word 0) 4 68 = 0 → p ≤ 11 → s.dev.seesPipe o.fn p = true → (∀ w ∈ s.dev.disp.flips, w.id ≠ id) → Becomes (.flip id) s
      { s.dev with disp := { s.dev.disp with flips := s.dev.disp.flips ++ [{ id := id, fn := o.fn, pipe := p, at_ := o.due, frame := none, late := false }] } })) ∧
  (∀ (s : State) (id : OpId) (o : Op) (l ws : List W72) (d1 : Dev), Works s id 4 2 10 o →
    ((fld (o.word 0) 10 62 ≠ 0 ∨ fld (o.word 1) 48 24 ≠ 0) → Becomes (.modeRead id) s (s.dev.finish id 0x10 none)) ∧
    (fld (o.word 0) 10 62 = 0 → fld (o.word 1) 48 24 = 0 → s.dev.modeEntry (fld (o.word 0) 0 10) = l →
      ws = (if bit (nth l 0 0) 71 = true then [nth l 0 0, nth l 1 0, nth l 2 0, nth l 3 0] else [0, 0, 0, 0]) →
      (s.dev.writeWords o.fn (fld (o.word 1) 0 48) ws = (d1, .ok ()) → Becomes (.modeRead id) s (d1.finish id 0 none)) ∧
      (∀ cause va, s.dev.writeWords o.fn (fld (o.word 1) 0 48) ws = (d1, .error (cause, va)) → Becomes (.modeRead id) s (d1.opFault id o.fn cause va)))) ∧
  (∀ (s : State) (id : OpId) (o : Op) (m : Nat), Works s id 4 3 10 o → m = fld (o.word 0) 0 10 →
    (o.fn ≠ s.dev.manager → Becomes (.modeDefine id) s (s.dev.finish id 0x11 none)) ∧
    (o.fn = s.dev.manager → (definedEntry o = none ∨ m < 0x240 ∨ 0x280 ≤ m ∨ s.dev.modeNamed m = true ∨ fld (o.word 0) 10 60 ≠ 0) → Becomes (.modeDefine id) s (s.dev.finish id 0x10 none)) ∧
    (o.fn = s.dev.manager → 0x240 ≤ m → m < 0x280 → s.dev.modeNamed m = false → fld (o.word 0) 10 60 = 0 → ∀ l, definedEntry o = some l → (timingOf l).ok = true →
      Becomes (.modeDefine id) s
        (({ s.dev with disp := { s.dev.disp with modes := tset s.dev.disp.modes m l } } : Dev).finish id 0 (some (timingOf l).pclk)))) ∧
  (∀ (s : State) (id : OpId) (o : Op) (q : Nat), Works s id 4 4 10 o → q = fld (o.word 0) 64 4 → (∀ m ∈ s.dev.disp.msgs, m.1 ≠ id) →
    (portMsgOk o = false → Becomes (.portMsg id) s (s.dev.finish id 0x10 none)) ∧
    (portMsgOk o = true → s.dev.mayMessage o.fn q = false → Becomes (.portMsg id) s (s.dev.finish id 0x11 none)) ∧
    (portMsgOk o = true → s.dev.mayMessage o.fn q = true → (s.dev.dport q).link = 0 → Becomes (.portMsg id) s (s.dev.finish id 0x12 none)) ∧
    (portMsgOk o = true → s.dev.mayMessage o.fn q = true → (s.dev.dport q).link = 2 → (4 ≤ q ∨ (s.dev.dport q).hpd = true) → s.dev.disp.msgs = [] →
      (msgReads (fld (o.word 0) 68 4) = true → Becomes (.portMsg id) s { s.dev with disp := { s.dev.disp with msgs := [(id, s.dev.now, 7)] } }) ∧
      (∀ d1, msgReads (fld (o.word 0) 68 4) = false →
        (∀ bytes, s.dev.readV o.fn (fld (o.word 1) 0 48) (fld (o.word 0) 56 8) .read = (d1, .ok bytes) →
          Becomes (.portMsg id) s { d1 with disp := { d1.disp with msgs := d1.disp.msgs ++ [(id, d1.now, 7)] } }) ∧
        (∀ cause va, s.dev.readV o.fn (fld (o.word 1) 0 48) (fld (o.word 0) 56 8) .read = (d1, .error (cause, va)) →
          Becomes (.portMsg id) s (d1.opFault id o.fn cause va))))) ∧
  (∀ (s : State) (id : OpId) (o : Op) (t left : Nat) (d : Dev), s.Steady → s.dev.awake = true → s.dev.op id = some o → o.phase = .started →
    s.dev.disp.msgs.find? (fun m => m.1 = id) = some (id, t, left) →
    d = { s.dev with disp := { s.dev.disp with msgs := s.dev.disp.msgs.filter (fun m => m.1 ≠ id) } } →
    (∀ at_, t + 10000000 ≤ Nat.max s.dev.now at_ →
      Becomes (.portMsgTimeout id at_) s (({ d with now := Nat.max s.dev.now at_ } : Dev).finish id 0x12 none)) ∧
    (∀ at_, Nat.max s.dev.now at_ < t + 10000000 → Becomes (.portMsgTimeout id at_) s s.dev) ∧
    (∀ data, msgReads (fld (o.word 0) 68 4) = false → Becomes (.sidebandReply id (.ack data)) s (d.finish id 0 (some (fld (o.word 0) 56 8)))) ∧
    (∀ data d2, msgReads (fld (o.word 0) 68 4) = true → d.writeV o.fn (fld (o.word 1) 0 48) (data.take (fld (o.word 0) 56 8)) = (d2, .ok ()) →
      Becomes (.sidebandReply id (.ack data)) s (d2.finish id 0 (some (data.take (fld (o.word 0) 56 8)).length))) ∧
    Becomes (.sidebandReply id .nack) s (d.finish id 0 (some 0x100)) ∧
    (∀ report : BitVec 16, Becomes (.sidebandReply id (.dsiError report)) s
      ((d.setDport (fld (o.word 0) 64 4) { d.dport (fld (o.word 0) 64 4) with irqs := satInc (d.dport (fld (o.word 0) 64 4)).irqs }).finish id 0
        (some (report.toNat * 2 ^ 16 + 0x300 + (if msgReads (fld (o.word 0) 68 4) = true then 0 else fld (o.word 0) 56 8))))) ∧
    (left = 0 → Becomes (.sidebandReply id .defer) s (d.finish id 0 (some 0x200))) ∧
    (left ≠ 0 → Becomes (.sidebandReply id .defer) s
      { s.dev with disp := { s.dev.disp with msgs := s.dev.disp.msgs.map (fun m => if m.1 = id then (id, s.dev.now, left - 1) else m) } }))

/-- An edge of a GLK pulse measures a frame or a line period by its width and polarity (R289, R302). Genlock counts edges in range (R290): eight in a row start the alignment (R293), a small phase error locks the pipe and raises GLK_RELOCKED, three bad
periods or four large errors in LOCKED are HOLDOVER with its event, as is the loss of edges (R291, R292); an offset correction ends on time (R293). A qualified
edge of a TE input counts for a pipe half a frame after the last one, and its absence for one and a half frames is TE_LOST (R294, R295). -/
def Obligations.GenlockAndTearing : Prop :=
  (∀ (d : Dev) (p edge l : Nat), (d.pt p).glk = 1 → (d.pt p).lastEdge = some l → d.inRange p (edge - l) = true →
    ((d.pt p).good < 7 → (d.pipeEdge p edge).pt p =
      { d.pt p with lastEdge := some edge, phaseErr := BitVec.ofInt 24 (clampI (-(2 ^ 23)) (2 ^ 23 - 1) (d.phase p edge + 1 / 2).floor)
                    glkPeriod := BitVec.ofNat 40 (edge - l), good := (d.pt p).good + 1, bad := 0 }) ∧
    (7 ≤ (d.pt p).good → ((d.pipeEdge p edge).pt p).glk = 2 ∧ ((d.pipeEdge p edge).pt p).offsetWant.isSome = true)) ∧
  (∀ (d : Dev) (p edge : Nat), (d.pt p).glk = 2 → absRat (d.phase p edge) ≤ 500 →
    ((d.pipeEdge p edge).pt p).glk = 3 ∧ ((d.pipeEdge p edge).pt p).inc = BitVec.ofNat 40 (d.nominalInc p)) ∧
  (∀ (d : Dev) (p edge l : Nat), (d.pt p).glk = 3 → (d.pt p).lastEdge = some l → d.inRange p (edge - l) = false → 2 ≤ (d.pt p).bad →
    ((d.pipeEdge p edge).pt p).glk = 4 ∧ ((d.pipeEdge p edge).pt p).inc = BitVec.ofNat 40 (wholeInc (d.pt p).held)) ∧
  (∀ (d : Dev) (p n : Nat) (x : Rat), d.clampInc p x ≤ (d.nominalInc p : Nat) + (d.nominalInc p * rangePpm (d.obj 0x01 p 3) / 1000000 : Nat) ∧
    (d.inRange p n = true ↔ absRat ((n : Rat) / 64 - d.pn p) * 1000000 ≤ d.pn p * (rangePpm (d.obj 0x01 p 3) : Nat))) ∧
  (∀ (x : GlkIn) (w3 : W72) (at64 width l : Nat) (falling : Bool),
    (isFrameEdge w3 width falling = true → x.lastEdge = some l → x.edge w3 at64 width falling = { x with period := BitVec.ofNat 40 (at64 - l), lastEdge := some at64 }) ∧
    (isLinePulse w3 width falling = true → x.lastLine = some l → 320000 ≤ at64 - l → at64 - l ≤ 6400000 →
      x.edge w3 at64 width falling = { x with lastLine := some at64, linePeriod := some (at64 - l) }) ∧
    (isFrameEdge w3 width falling = false → isLinePulse w3 width falling = false → x.edge w3 at64 width falling = x)) ∧
  (∀ (s : State) (g : Fin 2) (at64 edge : Nat) (pulse : GlkPulse) (x : GlkIn), s.Steady → s.dev.awake = true → x = s.dev.glkIn g.val → edge = at64 / 10 * 10 →
    ((pulse.width64 < 1280 ∨ edge + 128 < 64 * s.dev.now ∨ ∃ l, x.lastEdge = some l ∧ edge ≤ l) → Becomes (.glkFrameEdge g at64 pulse) s s.dev) ∧
    (1280 ≤ pulse.width64 → 64 * s.dev.now ≤ edge + 128 → (∀ l, x.lastEdge = some l → l < edge) → (∀ p, p < 12 → s.dev.follows p g.val = false) →
      Becomes (.glkFrameEdge g at64 pulse) s
        { s.dev with
          now := Nat.max s.dev.now ((edge + 32) / 64)
          disp := { s.dev.disp with glks := tset s.dev.disp.glks g.val (x.edge (s.dev.glkWord g.val) edge pulse.width64 pulse.falling) } })) ∧
  (∀ (s : State) (p : Fin 12) (at_ l : Nat) (d : Dev), s.Steady → d = { s.dev with now := Nat.max s.dev.now at_ } → (s.dev.pt p.val).lastEdge = some l →
    s.dev.pipeRuns p.val = true → (s.dev.pt p.val).glk = 3 →
    (stampOf ((l : Rat) / 64 + 5 / 4 * s.dev.pn p.val) ≤ d.now → Does (.glkEdgeTimeout p at_) s (fun e =>
      e.pt p.val = { (s.dev.pt p.val).retune ((l : Rat) / 64 + 5 / 4 * s.dev.pn p.val) (wholeInc (s.dev.pt p.val).held) with
        glk := 4, good := 0, bad := 0, missPhase := 0 } ∧ e.now = d.now ∧
      (∀ f, f < 64 → s.dev.exists_ f = true → s.dev.seesPipe f p.val = true → bit (tget (e.fn f).pipeEv p.val 0) 3 = true) ∧ (∀ q, q ≠ p.val → e.pt q = s.dev.pt q))) ∧
    (d.now < stampOf ((l : Rat) / 64 + 5 / 4 * s.dev.pn p.val) → Becomes (.glkEdgeTimeout p at_) s s.dev)) ∧
  (∀ (s : State) (p : Fin 12) (at_ : Nat) (t : Rat) (d : Dev), s.Steady → d = { s.dev with now := Nat.max s.dev.now at_ } →
    (s.dev.pt p.val).offsetUntil = some t → s.dev.pipeRuns p.val = true →
    (near at_ (stampOf t) = true → Becomes (.offsetCorrectionEnd p at_) s
      (d.setPt p.val { (s.dev.pt p.val).retune t (s.dev.nominalInc p.val) with offsetUntil := none })) ∧
    (near at_ (stampOf t) = false → Becomes (.offsetCorrectionEnd p at_) s s.dev)) ∧
  (∀ (x : PipeTime) (t : Rat) (n : Nat), x.retune t n =
    { x with mark := t, markPos := x.markPos + (t - x.mark) * (64 * x.inc.toNat : Nat) / (2 ^ 40 * 10 : Nat), inc := BitVec.ofNat 40 n }) ∧
  (∀ (s : State) (t : Fin 4) (at_ width : Nat) (falling : Bool), s.Steady →
    ((width < 1000 ∨ at_ < s.dev.now ∨ ∀ p, p < 12 → fld (s.dev.obj 0x01 p 4) 24 2 ≠ t.val ∨ s.dev.teCounts p at_ falling = false) →
      Becomes (.teEdge t at_ width falling) s s.dev) ∧
    (∀ p, p < 12 → 1000 ≤ width → s.dev.now ≤ at_ → fld (s.dev.obj 0x01 p 4) 24 2 = t.val → s.dev.teCounts p at_ falling = true →
      Does (.teEdge t at_ width falling) s (fun e => (e.pt p).teLast = some at_ ∧ (e.pt p).tePrev = (s.dev.pt p).teLast ∧ e.now = at_ ∧ e.mem = s.dev.mem))) ∧
  (∀ (d : Dev) (p t : Nat) (falling : Bool), d.teCounts p t falling = true → d.dsiCmd p = true ∧ falling = bit (d.obj 0x01 p 4) 23 ∧
    ∀ l, (d.pt p).teLast = some l → d.framePeriod p ≤ 2 * (t - l)) ∧
  (∀ (s : State) (p : Fin 12) (at_ : Nat) (d : Dev), s.Steady → d = { s.dev with now := Nat.max s.dev.now at_ } → s.dev.pipeRuns p.val = true →
    s.dev.dsiCmd p.val = true → (s.dev.pt p.val).teMissing = false → (s.dev.dport (s.dev.pipePort p.val)).link = 2 →
    (2 * s.dev.teBase p.val + 3 * s.dev.framePeriod p.val ≤ 2 * d.now → Does (.teLost p at_) s (fun e =>
      e.pt p.val = { s.dev.pt p.val with teMissing := true, teLostAt := d.now } ∧ e.now = d.now ∧
      ∀ f, f < 64 → s.dev.exists_ f = true → s.dev.seesPipe f p.val = true → bit (tget (e.fn f).pipeEv p.val 0) 2 = true)) ∧
    (2 * d.now < 2 * s.dev.teBase p.val + 3 * s.dev.framePeriod p.val → Becomes (.teLost p at_) s s.dev))

/-- A short HPD pulse counts an interrupt and retrains a link that has lost its sink (R300); a loss makes a training or running link DOWN and counts (R300); a
failed training is tried again, the third in a row being FAILED; a retry starts training when HPD rises or its timer has run; a trained link is UP when the sink is
there or PANEL_INIT has passed, whose step that fails twice is FAILED, and an eDP panel's settings are stored unless the stored ones fit (R300, R462, R463). LINK_DARK is recorded for a pipe that must be shown (R301). -/
def Obligations.DisplayLinks : Prop :=
  (∀ (s : State) (q : Fin 12) (low : Nat) (good : Bool) (x : DispPort), s.Steady → s.dev.awake = true → x = s.dev.dport q.val →
    ((4 ≤ q.val ∨ low < 250000 ∨ 2000000 < low) → Becomes (.hpdIrq q low good) s s.dev) ∧
    (q.val < 4 → 250000 ≤ low → low ≤ 2000000 → (x.link ≠ 2 ∨ good = true) → Becomes (.hpdIrq q low good) s (s.dev.setDport q.val { x with irqs := satInc x.irqs })) ∧
    (q.val < 4 → 250000 ≤ low → low ≤ 2000000 → x.link = 2 → good = false → Becomes (.hpdIrq q low good) s (s.dev.setDport q.val
      { x with irqs := satInc x.irqs, link := 1, trainFrom := s.dev.now, initStep := 0, initFails := 0, initDue := s.dev.now }))) ∧
  (∀ (s : State) (q : Fin 12) (c : LossCause) (at_ : Nat) (d : Dev) (x : DispPort), s.Steady → s.dev.awake = true → d = { s.dev with now := Nat.max s.dev.now at_ } →
    x = { s.dev.dport q.val with
          hpd := (s.dev.dport q.val).hpd && decide (c ≠ .hpdLow), irqs := (if c = .busContention then satInc (s.dev.dport q.val).irqs else (s.dev.dport q.val).irqs) } →
    (lossFits q.val c = false → Becomes (.linkLoss q c at_) s s.dev) ∧
    (lossFits q.val c = true → x.link ≠ 1 → x.link ≠ 2 → Becomes (.linkLoss q c at_) s (d.setDport q.val x)) ∧
    (lossFits q.val c = true → (x.link = 1 ∨ x.link = 2) → s.dev.portPipe q.val = none → Becomes (.linkLoss q c at_) s
      (d.setDport q.val { x with losses := satInc x.losses, tries := 0, link := 3, trainFrom := d.now })) ∧
    (lossFits q.val c = true → (x.link = 1 ∨ x.link = 2) → ∀ p, s.dev.portPipe q.val = some p → s.dev.mustShowNow p = true → s.dev.pipePort p = q.val →
      ∀ d1, d1 = d.setDport q.val { x with losses := satInc x.losses, tries := 0, link := 3, trainFrom := d.now } →
      Becomes (.linkLoss q c at_) s (d1.smRecord 0x18 (locusEngine 0x05 (portEngine q.val)) none 3 p).settle) ∧
    (lossFits q.val c = true → (x.link = 1 ∨ x.link = 2) → ∀ p, s.dev.portPipe q.val = some p → s.dev.mustShowNow p = false →
      Becomes (.linkLoss q c at_) s (d.setDport q.val { x with losses := satInc x.losses, tries := 0, link := 3, trainFrom := d.now }))) ∧
  (∀ (s : State) (q : Fin 12) (at_ t : Nat) (d : Dev) (x y : DispPort), s.Steady → s.dev.awake = true → t = Nat.max s.dev.now at_ → d = { s.dev with now := t } →
    x = s.dev.dport q.val → y = { x with hpd := true } →
    (q.val < 4 → x.hpd = false → (x.link = 1 ∨ x.link = 3 ∨ x.link = 4) → Becomes (.linkRetry q at_) s
      (d.setDport q.val { y with link := 1, trainFrom := t, initStep := 0, initFails := 0, initDue := t })) ∧
    (q.val < 4 → x.hpd = false → (x.link = 0 ∨ x.link = 2) → Becomes (.linkRetry q at_) s (d.setDport q.val y)) ∧
    ((4 ≤ q.val ∨ x.hpd = true) → ((x.link = 4 ∧ x.trainFrom + 1000000000 ≤ t) ∨ (x.link = 3 ∧ 4 ≤ q.val ∧ x.trainFrom + 100000000 ≤ t)) →
      Becomes (.linkRetry q at_) s (d.setDport q.val { x with link := 1, trainFrom := t, initStep := 0, initFails := 0, initDue := t })) ∧
    ((4 ≤ q.val ∨ x.hpd = true) → (x.link = 0 ∨ x.link = 1 ∨ x.link = 2) → Becomes (.linkRetry q at_) s s.dev)) ∧
  (∀ (s : State) (q : Fin 12) (at_ : Nat) (d : Dev) (x : DispPort), s.Steady → s.dev.awake = true → d = { s.dev with now := Nat.max s.dev.now at_ } → x = s.dev.dport q.val →
    x.link = 1 → (4 ≤ q.val ∨ x.edp = true ∨ x.hpd = true) →
    (x.tries < 2 → q.val < 4 → Becomes (.linkTrainingFailed q at_) s
      (d.setDport q.val { x with tries := x.tries + 1, link := 1, trainFrom := d.now, initStep := 0, initFails := 0, initDue := d.now })) ∧
    (x.tries < 2 → 4 ≤ q.val → s.dev.portPipe q.val = none → Becomes (.linkTrainingFailed q at_) s
      (d.setDport q.val { x with tries := x.tries + 1, link := 3, trainFrom := d.now })) ∧
    (2 ≤ x.tries → s.dev.portPipe q.val = none → Becomes (.linkTrainingFailed q at_) s (d.setDport q.val { x with tries := x.tries + 1, link := 4, trainFrom := d.now }))) ∧
  (∀ (s : State) (q : Fin 12) (at_ p : Nat) (d : Dev) (x : DispPort), s.Steady → s.dev.awake = true → d = { s.dev with now := Nat.max s.dev.now at_ } →
    x = s.dev.dport q.val → s.dev.portPipe q.val = some p → x.link = 1 →
    (if q.val < 4 then x.edp = true ∨ x.hpd = true else (s.dev.panelSteps q.val).length ≤ x.initStep ∧ x.initDue ≤ d.now) →
    ∀ d0, d0 = (if x.edp = true ∧ q.val < 4 then d.storeLink q.val p else d) →
    Becomes (.linkUp q at_) s ((d0.setDport q.val { x with link := 2, tries := 0, trainFrom := d.now, trained := BitVec.ofNat 4 (fld (s.dev.obj 0x01 p 2) 33 4) }).setPt p
      { s.dev.pt p with relinkUp := some d.now, teLast := none, tePrev := none })) ∧
  (∀ (d : Dev) (q p : Nat) (b : List Byte), d.deviceItem 0x0203 q = some b → natAt b 0 1 = fld (d.obj 0x01 p 2) 33 4 → natAt b 1 1 = fld (d.obj 0x01 p 2) 30 3 →
    d.storeLink q p = d) ∧
  (∀ (s : State) (q : Fin 12) (at_ : Nat), s.Steady → (s.dev.dport q.val).link ≠ 1 →
    Becomes (.linkUp q at_) s s.dev ∧ Becomes (.linkTrainingFailed q at_) s s.dev ∧ ∀ ok, Becomes (.panelInitStep q ok at_) s s.dev) ∧
  (∀ (s : State) (q : Fin 12) (at_ : Nat) (st : PanelStep) (d : Dev) (x : DispPort), s.Steady → s.dev.awake = true → d = { s.dev with now := Nat.max s.dev.now at_ } →
    x = s.dev.dport q.val → (s.dev.panelSteps q.val)[x.initStep]? = some st → 4 ≤ q.val → x.link = 1 → x.initDue ≤ d.now →
    Becomes (.panelInitStep q true at_) s (d.setDport q.val { x with initStep := x.initStep + 1, initFails := 0, initDue := d.now + st.delay }) ∧
    (x.initFails = 0 → Becomes (.panelInitStep q false at_) s (d.setDport q.val { x with initFails := 1 })) ∧
    (x.initFails ≠ 0 → s.dev.portPipe q.val = none → Becomes (.panelInitStep q false at_) s
      (d.setDport q.val { x with initFails := 0, link := 4, trainFrom := d.now })))

/-! Touch and haptics. -/

/-- Touch channels (R303 to R317). A report is read by the channel's descriptor, counts, is stamped, and its scan is measured finger by finger once complete; a channel that is not an ACTIVE HID channel, or
whose block does not run, takes none. A raw frame with a wrong header, or cut short, is a bus error, the third in a row a fault; in BASELINE it is learnt, over
32 frames; in ACTIVE its peaks are nodes of at least RELEASE that no neighbour exceeds. REPORT_TIMEOUT cancels the contacts; a start leaves none and enters the state of
the channel's kind; a fault is tried again after 100 ms.
Touch operations (R318 to R321): TOUCH_RECEIVE posts its buffer, and records held for the function go into it at once, numbered by SEQ; BASELINE_SAVE stores the
baseline of a raw ACTIVE channel for the manager alone; BASELINE_RELEARN, for the channel's owner, cancels contacts and learns anew. -/
def Obligations.TouchEngine : Prop :=
  (∀ (s : State) (ch : Fin 12) (at_ : Nat) (id : Option Byte) (data report : List Byte) (x : TouchChan) (d : Dev), s.Steady → x = s.dev.tch ch.val →
    report = id.toList ++ data →
    d = { s.dev with now := Nat.max s.dev.now at_ } →
    ((x.desc = none ∨ (∃ desc, x.desc = some desc ∧ desc.report report = none) ∨ x.state ≠ 3 ∨ fld (s.dev.tw ch.val 1) 26 2 ≠ 0 ∨ s.dev.runs 9 = false) →
      Becomes (.touchReport ch at_ id data) s s.dev) ∧
    (∀ desc n fingers, x.desc = some desc → desc.report report = some (n, fingers) → x.state = 3 → fld (s.dev.tw ch.val 1) 26 2 = 0 → s.dev.runs 9 = true →
      (n ≠ 0 → fingers.length < n → Becomes (.touchReport ch at_ id data) s (d.setTch ch.val
        { x with reports := satInc x.reports, lastStamp := BitVec.ofNat 64 d.now, errRun := 0, scan := fingers, scanLeft := n - fingers.length })) ∧
      (n = 0 → fingers.length < x.scanLeft → Becomes (.touchReport ch at_ id data) s (d.setTch ch.val
        { x with reports := satInc x.reports, lastStamp := BitVec.ofNat 64 d.now, errRun := 0, scan := x.scan ++ fingers, scanLeft := x.scanLeft - fingers.length })) ∧
      (∀ l, (n ≠ 0 ∧ n ≤ fingers.length ∧ l = fingers.take n ∨ n = 0 ∧ x.scanLeft ≠ 0 ∧ x.scanLeft ≤ fingers.length ∧ l = x.scan ++ fingers.take x.scanLeft) →
        Becomes (.touchReport ch at_ id data) s
          ((l.foldl (Dev.finger d.now ch.val) (d.setTch ch.val
            { x with reports := satInc x.reports, lastStamp := BitVec.ofNat 64 d.now, errRun := 0, scan := [], scanLeft := 0 })).touchStale ch.val d.now)))) ∧
  (∀ (d : Dev) (stamp c : Nat) (f : Finger), (f.x < f.xMin ∨ f.xMax < f.x ∨ f.y < f.yMin ∨ f.yMax < f.y) →
    Dev.finger stamp c d f = d.setTch c { d.tch c with rangeDrops := satInc (d.tch c).rangeDrops }) ∧
  (∀ (d : Dev) (stamp c : Nat) (f : Finger), (d.tch c).contacts.length ≤ Nat.min 10 (fld (d.tw c 6) 0 4) →
    ((Dev.finger stamp c d f).tch c).contacts.length ≤ Nat.min 10 (fld (d.tw c 6) 0 4)) ∧
  (∀ (s : State) (ch : Fin 12) (at_ : Nat) (bytes : List Byte) (x : TouchChan) (rows cols : Nat) (d : Dev) (raw : List Int), s.Steady → x = s.dev.tch ch.val →
    d = { s.dev with now := Nat.max s.dev.now at_ } → s.dev.grid ch.val = (rows, cols) →
    raw = (List.range (rows * cols)).map (fun i => ((natAt bytes (4 + 2 * i) 2 : Nat) : Int)) →
    (((x.state ≠ 2 ∧ x.state ≠ 3) ∨ fld (s.dev.tw ch.val 1) 26 2 ≠ 1 ∨ s.dev.runs 9 = false) → Becomes (.rawFrame ch at_ bytes) s s.dev) ∧
    ((x.state = 2 ∨ x.state = 3) → fld (s.dev.tw ch.val 1) 26 2 = 1 → s.dev.runs 9 = true →
      ((natAt bytes 0 1 ≠ 0x5A ∨ natAt bytes 2 1 ≠ rows ∨ natAt bytes 3 1 ≠ cols) → Becomes (.rawFrame ch at_ bytes) s (d.touchError ch.val 4)) ∧
      (natAt bytes 0 1 = 0x5A → natAt bytes 2 1 = rows → natAt bytes 3 1 = cols →
        (bytes.length < 4 + 2 * (rows * cols) → Becomes (.rawFrame ch at_ bytes) s (d.touchError ch.val 3)) ∧
        (4 + 2 * (rows * cols) ≤ bytes.length → x.state = 2 → x.learnt < 31 → Does (.rawFrame ch at_ bytes) s (fun e =>
          (e.tch ch.val).state = 2 ∧ (e.tch ch.val).learnt = x.learnt + 1 ∧ (e.tch ch.val).reports = satInc x.reports ∧
          (e.tch ch.val).lastStamp = BitVec.ofNat 64 d.now ∧ (e.tch ch.val).contacts = x.contacts ∧ (∀ j, j ≠ ch.val → e.tch j = s.dev.tch j) ∧
          { e with touch := s.dev.touch, now := s.dev.now, bus := s.dev.bus } = s.dev)) ∧
        (4 + 2 * (rows * cols) ≤ bytes.length → x.state = 2 → 31 ≤ x.learnt → Does (.rawFrame ch at_ bytes) s (fun e =>
          (e.tch ch.val).state = 3 ∧ (e.tch ch.val).src = 2 ∧
          (e.tch ch.val).baseline = (List.range (rows * cols)).map (fun i => ((((x.sums[i]?).getD 0 + natAt bytes (4 + 2 * i) 2) / 32 : Nat) : Int)) ∧
          (∀ j, j ≠ ch.val → e.tch j = s.dev.tch j) ∧ { e with touch := s.dev.touch, now := s.dev.now, bus := s.dev.bus } = s.dev)) ∧
        (4 + 2 * (rows * cols) ≤ bytes.length → x.state = 3 → ∀ sig, sig = (x.baseline.zip raw).map (fun z => z.1 - z.2) →
          Becomes (.rawFrame ch at_ bytes) s (((d.setTch ch.val { x with reports := satInc x.reports, lastStamp := BitVec.ofNat 64 d.now, errRun := 0 }).rawContacts
            ch.val sig).trackBaseline ch.val raw sig))))) ∧
  (∀ (rows cols : Nat) (sig : List Int) (release : Int) (p : Peak), p ∈ peaksOf rows cols sig release →
    p.node < rows * cols ∧ release ≤ p.s ∧ p.s = (sig[p.node]?).getD 0 ∧ ∀ z ∈ around rows cols sig p.node, z.2 ≤ p.s) ∧
  (∀ (d : Dev) (c cause : Nat) (x : TouchChan), x = { d.tch c with busErrors := satInc (d.tch c).busErrors, errRun := (d.tch c).errRun + 1 } →
    ((d.tch c).errRun < 2 → d.touchError c cause = d.setTch c x) ∧ (2 ≤ (d.tch c).errRun → d.touchError c cause = (d.setTch c x).touchFault c cause)) ∧
  (∀ (d : Dev) (c stamp flags : Nat), ((d.cancelContacts c stamp flags).tch c).contacts = [] ∧
    ∀ j, j ≠ c → ((d.cancelContacts c stamp flags).tch j).contacts = (d.tch j).contacts) ∧
  (∀ (d : Dev) (c : Nat), ((d.touchStart c).tch c).contacts = [] ∧
    ((d.touchStart c).tch c).state = (if fld (d.tw c 1) 26 2 = 1 then (if (d.storedBaseline c).isSome = true then 3 else 2) else 1)) ∧
  (∀ (d : Dev) (c cause : Nat), ((d.touchFault c cause).tch c).contacts = [] ∧ ((d.touchFault c cause).tch c).state = 4 ∧
    ((d.touchFault c cause).tch c).cause = BitVec.ofNat 5 cause ∧ ((d.touchFault c cause).tch c).faultAt = d.now) ∧
  (∀ (s : State) (ch : Fin 12) (at_ : Nat) (x : TouchChan) (d : Dev), s.Steady → x = s.dev.tch ch.val → d = { s.dev with now := Nat.max s.dev.now at_ } →
    (x.state = 3 → x.contacts ≠ [] → s.dev.runs 9 = true → x.lastStamp.toNat + fld (s.dev.tw ch.val 6) 12 8 * 1000000 ≤ d.now →
      Becomes (.reportTimeout ch at_) s ((d.setTch ch.val { x with timeouts := satInc x.timeouts }).cancelContacts ch.val d.now 64)) ∧
    ((x.state ≠ 3 ∨ x.contacts = [] ∨ s.dev.runs 9 = false ∨ d.now < x.lastStamp.toNat + fld (s.dev.tw ch.val 6) 12 8 * 1000000) →
      Becomes (.reportTimeout ch at_) s s.dev)) ∧
  (∀ (s : State) (ch : Fin 12) (desc : TouchDesc) (d : Dev), s.Steady → d = (if (s.dev.tch ch.val).state = 0 then s.dev.touchStart ch.val else s.dev) →
    ((bit (s.dev.tw ch.val 1) 31 = false ∨ s.dev.runs 9 = false) → Becomes (.touchChannelStart ch desc) s s.dev) ∧
    (bit (s.dev.tw ch.val 1) 31 = true → s.dev.runs 9 = true →
      ((d.tch ch.val).state ≠ 1 → (desc.answered = true ∨ (s.dev.tch ch.val).state ≠ 0) → Becomes (.touchChannelStart ch desc) s d) ∧
      (((s.dev.tch ch.val).state = 0 ∨ (d.tch ch.val).state = 1) → desc.answered = false → Becomes (.touchChannelStart ch desc) s (d.touchFault ch.val 1)) ∧
      ((d.tch ch.val).state = 1 → desc.answered = true → descUsable desc.bytes = false → Becomes (.touchChannelStart ch desc) s (d.touchFault ch.val 2)) ∧
      ((d.tch ch.val).state = 1 → desc.answered = true → descUsable desc.bytes = true →
        Becomes (.touchChannelStart ch desc) s (d.setTch ch.val { d.tch ch.val with state := 3, desc := some (hidDesc desc.bytes) })))) ∧
  (∀ (l : List Byte), descUsable l = true ↔ l.length ≤ 4096 ∧ (hidDesc l).touchScreen = true ∧ 1 ≤ (hidDesc l).fingers ∧ (hidDesc l).fingers ≤ 10 ∧
    (hidDesc l).has none 0x000D0054 = true ∧
    ∀ n, n < (hidDesc l).fingers → ∀ u ∈ [0x000D0042, 0x000D0051, 0x00010030, 0x00010031], (hidDesc l).has (some n) u = true) ∧
  (∀ (s : State) (ch : Fin 12) (at_ : Nat) (bus : TouchBus) (x : TouchChan) (d : Dev), s.Steady → x = s.dev.tch ch.val → d = { s.dev with now := Nat.max s.dev.now at_ } →
    ((bit (s.dev.tw ch.val 1) 31 = false ∨ s.dev.runs 9 = false ∨ x.state = 0) → Becomes (.touchFaultRetry ch at_ bus) s s.dev) ∧
    (bit (s.dev.tw ch.val 1) 31 = true → s.dev.runs 9 = true →
      (x.state = 4 → x.faultAt + 100000000 ≤ d.now → Becomes (.touchFaultRetry ch at_ bus) s ((d.touchStart ch.val).touchBus ch.val bus)) ∧
      (x.state = 4 → d.now < x.faultAt + 100000000 → Becomes (.touchFaultRetry ch at_ bus) s s.dev) ∧
      (x.state ≠ 4 → x.state ≠ 0 → bus = .error → Becomes (.touchFaultRetry ch at_ bus) s (d.touchError ch.val 3)) ∧
      (x.state ≠ 4 → x.state ≠ 0 → bus = .noAcknowledge → Becomes (.touchFaultRetry ch at_ bus) s (d.touchFault ch.val 1)) ∧
      (x.state ≠ 4 → bus = .quiet → Becomes (.touchFaultRetry ch at_ bus) s s.dev))) ∧
  (∀ (s : State) (id : OpId) (o : Op) (t : TouchFn) (n addr : Nat) (d : Dev), Works s id 7 1 9 o → t = s.dev.tfn o.fn → (∀ b ∈ t.bufs, b.id ≠ id) → s.dev.receiveWaits o = false →
    n = fld (o.word 1) 0 11 → addr = fld (o.word 0) 0 48 →
    d = s.dev.setTfn o.fn { t with bufs := t.bufs ++ [{ id := id, addr := BitVec.ofNat 48 addr, count := n, filled := 0 }] } →
    ((fld (o.word 0) 48 24 ≠ 0 ∨ fld (o.word 1) 11 61 ≠ 0 ∨ addr % 64 ≠ 0 ∨ n = 0 ∨ 1024 < n) → Becomes (.touchReceive id) s (s.dev.finish id 0x10 none)) ∧
    (fld (o.word 0) 48 24 = 0 → fld (o.word 1) 11 61 = 0 → addr % 64 = 0 → n ≠ 0 → n ≤ 1024 →
      (t.held = [] → Becomes (.touchReceive id) s d) ∧
      (∀ (r : List W72) (d1 : Dev), t.held = [r] → t.bufs = [] → recWaits r = false → 1 < n →
        d.writeWords o.fn addr [nth r 0 0, nth r 1 0 ||| (if t.overflow = true then BitVec.ofNat 72 (2 ^ 8) else 0), nth r 2 0,
          nth r 3 0 ||| BitVec.ofNat 72 ((t.seq + 1).toNat * 2 ^ 56)] = (d1, .ok ()) →
        Becomes (.touchReceive id) s ((d1.setTfn o.fn
          { t with seq := t.seq + 1, overflow := false, held := [], bufs := [{ id := id, addr := BitVec.ofNat 48 addr, count := n, filled := 1 }] }).setEv o.fn 4)) ∧
      (∀ (r : List W72) (d1 : Dev), t.held = [r] → t.bufs = [] → recWaits r = false → n = 1 →
        d.writeWords o.fn addr [nth r 0 0, nth r 1 0 ||| (if t.overflow = true then BitVec.ofNat 72 (2 ^ 8) else 0), nth r 2 0,
          nth r 3 0 ||| BitVec.ofNat 72 ((t.seq + 1).toNat * 2 ^ 56)] = (d1, .ok ()) →
        Becomes (.touchReceive id) s (((d1.setTfn o.fn { t with seq := t.seq + 1, overflow := false, held := [], bufs := [] }).setEv o.fn 4).finish id 0 (some 1))))) ∧
  (∀ (s : State) (id : OpId) (o : Op) (c : Nat), Works s id 7 2 9 o → c = fld (o.word 0) 0 4 →
    (o.fn ≠ s.dev.manager → Becomes (.baselineSave id) s (s.dev.finish id 0x11 none)) ∧
    (o.fn = s.dev.manager → s.dev.rawActive o = false → Becomes (.baselineSave id) s (s.dev.finish id 0x10 none)) ∧
    (o.fn = s.dev.manager → s.dev.rawActive o = true →
      Becomes (.baselineSave id) s ((s.dev.storeItem 0x0201 c (s.dev.baselineBytes c)).finish id 0 none))) ∧
  (∀ (s : State) (id : OpId) (o : Op) (c : Nat), Works s id 7 3 9 o → c = fld (o.word 0) 0 4 →
    (c < 12 → s.dev.owner 0x09 c ≠ o.fn → Becomes (.baselineRelearn id) s (s.dev.finish id 0x11 none)) ∧
    ((12 ≤ c ∨ s.dev.owner 0x09 c = o.fn) → s.dev.rawActive o = false → Becomes (.baselineRelearn id) s (s.dev.finish id 0x10 none)) ∧
    (s.dev.owner 0x09 c = o.fn → s.dev.rawActive o = true → Does (.baselineRelearn id) s (fun e =>
      (e.tch c).state = 2 ∧ (e.tch c).contacts = [] ∧ (e.tch c).learnt = 0 ∧ (e.tch c).baseline = [] ∧
      (∀ j, j ≠ c → (e.tch j).state = (s.dev.tch j).state ∧ (e.tch j).baseline = (s.dev.tch j).baseline) ∧
      (∀ x, e.op id = some x → x.phase = .finished) ∧ e.rings = s.dev.rings ∧ e.objs = s.dev.objs)))

/-- Haptics (R323 to R341). SLOT_LOAD takes a slot that is free or its own with the samples it reads, SLOT_RELEASE empties it, both deferred while a channel plays the slot;
PLAY and a GO of HAP_TRIG become triggers of a channel of the caller with a slot of its own, else ST_NOT_OWNER or REFUSED, by what its release found; STREAM queues up to eight. A sample is
taken on the 24 kHz grid alone and sent on the four links, a disabled or faulted one with zero drive, and a driver's fault stops its channel, sets FAULT in HAP_STAT and raises EV_FAULT at its owner. -/
def Obligations.HapticEngine : Prop :=
  (∀ (s : State) (id : OpId) (o : Op) (n k : Nat), Works s id 6 1 8 o → n = fld (o.word 0) 0 6 → k = fld (o.word 2) 0 13 →
    ((fld (o.word 0) 6 66 ≠ 0 ∨ fld (o.word 1) 48 24 ≠ 0 ∨ fld (o.word 2) 13 59 ≠ 0 ∨ k = 0 ∨ 4096 < k) → Becomes (.slotLoad id) s (s.dev.finish id 0x10 none)) ∧
    (fld (o.word 0) 6 66 = 0 → fld (o.word 1) 48 24 = 0 → fld (o.word 2) 13 59 = 0 → k ≠ 0 → k ≤ 4096 →
      (o.holdsSlot n = false → o.slotEmpty n = false → Becomes (.slotLoad id) s (s.dev.finish id 0x11 none)) ∧
      ((o.holdsSlot n = true ∨ o.slotEmpty n = true) → s.dev.slotPlaying n = true → Becomes (.slotLoad id) s (s.dev.updOp id (fun o => { o with deferred := true }))) ∧
      ((o.holdsSlot n = true ∨ o.slotEmpty n = true) → s.dev.slotPlaying n = false → ∀ d1,
        (∀ l, s.dev.readWords o.fn (fld (o.word 1) 0 48) ((k + 3) / 4) .read = (d1, .ok l) →
          Becomes (.slotLoad id) s ((d1.setEffSlot n { holder := some o.fn, samples := effectSamples l k, emptyAfter := false }).finish id 0 none)) ∧
        (∀ cause va, s.dev.readWords o.fn (fld (o.word 1) 0 48) ((k + 3) / 4) .read = (d1, .error (cause, va)) →
          Becomes (.slotLoad id) s (d1.opFault id o.fn cause va))))) ∧
  (∀ (l : List W72) (n j : Nat), j < n → (effectSamples l n)[j]? = some (fld (nth l (j / 4) 0) (18 * (j % 4)) 18)) ∧
  (∀ (s : State) (id : OpId) (o : Op) (n : Nat), Works s id 6 2 8 o → n = fld (o.word 0) 0 6 →
    (fld (o.word 0) 6 66 ≠ 0 → Becomes (.slotRelease id) s (s.dev.finish id 0x10 none)) ∧
    (fld (o.word 0) 6 66 = 0 → o.holdsSlot n = false → o.byManager = false → Becomes (.slotRelease id) s (s.dev.finish id 0x11 none)) ∧
    (fld (o.word 0) 6 66 = 0 → (o.holdsSlot n = true ∨ o.byManager = true) →
      (s.dev.slotPlaying n = true → Becomes (.slotRelease id) s (s.dev.updOp id (fun o => { o with deferred := true }))) ∧
      (s.dev.slotPlaying n = false → Becomes (.slotRelease id) s ((s.dev.setEffSlot n { holder := none, samples := [], emptyAfter := false }).finish id 0 none)))) ∧
  (∀ (s : State) (id : OpId) (o : Op) (c n : Nat) (x : HapChan), Works s id 6 3 8 o → c = fld (o.word 0) 0 4 → n = fld (o.word 0) 4 6 → x = s.dev.hch c →
    x.holds id = false →
    (fld (o.word 0) 18 54 ≠ 0 → Becomes (.hapticPlay id) s (s.dev.finish id 0x10 none)) ∧
    (fld (o.word 0) 18 54 = 0 → (o.ownsChannel c = false ∨ o.holdsSlot n = false) → Becomes (.hapticPlay id) s (s.dev.finish id 0x11 none)) ∧
    (fld (o.word 0) 18 54 = 0 → o.ownsChannel c = true → o.holdsSlot n = true →
      (bit (s.dev.hw c 1) 31 = false → Becomes (.hapticPlay id) s (s.dev.finish id 0x10 none)) ∧
      (bit (s.dev.hw c 1) 31 = true → Becomes (.hapticPlay id) s (s.dev.setHch c
        { x with pending := x.pending ++ [{ kind := .play id, slot := n, gain := fld (o.word 0) 10 8, reached := none }] })))) ∧
  (∀ (s : State) (id : OpId) (o : Op) (c k : Nat) (x : HapChan), Works s id 6 4 8 o → c = fld (o.word 0) 0 4 → k = fld (o.word 0) 4 13 → x = s.dev.hch c →
    (∀ b ∈ x.queue, b.id ≠ id) → s.dev.streamWaits o = false →
    ((fld (o.word 0) 17 55 ≠ 0 ∨ fld (o.word 1) 48 24 ≠ 0 ∨ k = 0 ∨ 4096 < k) → Becomes (.stream id) s (s.dev.finish id 0x10 none)) ∧
    (fld (o.word 0) 17 55 = 0 → fld (o.word 1) 48 24 = 0 → k ≠ 0 → k ≤ 4096 →
      (o.ownsChannel c = false → Becomes (.stream id) s (s.dev.finish id 0x11 none)) ∧
      (o.ownsChannel c = true → bit (s.dev.hw c 1) 31 = false → Becomes (.stream id) s (s.dev.finish id 0x10 none)) ∧
      (o.ownsChannel c = true → bit (s.dev.hw c 1) 31 = true → 8 ≤ x.queue.length → Becomes (.stream id) s s.dev) ∧
      (o.ownsChannel c = true → bit (s.dev.hw c 1) 31 = true → x.queue.length < 8 → ∀ d1,
        (∀ l, s.dev.readWords o.fn (fld (o.word 1) 0 48) ((k + 3) / 4) .read = (d1, .ok l) → Becomes (.stream id) s (d1.setHch c
          { x with queue := x.queue ++ [{ id := id, samples := effectSamples l k, sent := 0, released := o.due }], lastRelease := o.due })) ∧
        (∀ cause va, s.dev.readWords o.fn (fld (o.word 1) 0 48) ((k + 3) / 4) .read = (d1, .error (cause, va)) →
          Becomes (.stream id) s (d1.opFault id o.fn cause va))))) ∧
  (∀ (s : State) (f : Fin 64) (c : Fin 16) (v : BitVec 32) (d : Dev) (x : HapChan), Arrives s f.val d → x = d.hch c.val →
    (bit v 31 = false → Becomes (.hapTrig f c v) s d) ∧
    (bit v 31 = true → d.owner 0x07 c.val = f.val → (d.effSlot (fld v 16 6)).holder = some f.val → bit (d.hw c.val 1) 31 = true →
      Becomes (.hapTrig f c v) s (d.setHch c.val { x with pending := x.pending ++ [{ kind := .go f.val, slot := fld v 16 6, gain := fld v 0 8, reached := none }] })) ∧
    (bit v 31 = true → (d.owner 0x07 c.val ≠ f.val ∨ (d.effSlot (fld v 16 6)).holder ≠ some f.val ∨ bit (d.hw c.val 1) 31 = false) →
      Becomes (.hapTrig f c v) s (d.setHapStat f.val c.val (setBit (d.hapStat f.val c.val) 27 true)))) ∧
  (∀ (s : State) (at_ : Nat) (di : List (List (BitVec 32))), s.Steady →
    ((s.dev.runs 8 = false ∨ s.dev.haptic.sampleAt at_ = none) → Becomes (.hapticSample at_ di) s s.dev) ∧
    (∀ k, s.dev.runs 8 = true → s.dev.haptic.sampleAt at_ = some k →
      (∀ c, c < 16 → ∀ z, z = senseOf (nth di (c / 4) []) (c % 4) → z.fault = false ∧ z.overTemp = false ∧ z.overCurrent = false) →
      Does (.hapticSample at_ di) s (fun e =>
        e.now = Nat.max s.dev.now at_ ∧ e.haptic.samples = k + 1 ∧ e.haptic.lastAt = Nat.max s.dev.now at_ ∧ e.haptic.links.length = 4 ∧
        (∀ l ∈ e.haptic.links, l.length = 16) ∧ (s.dev.haptic.origin.isSome = true → e.haptic.origin = s.dev.haptic.origin) ∧
        (∀ c, c < 16 → (bit (s.dev.hw c 1) 31 = false ∨ (s.dev.hch c).state = 4) →
          nth (nth e.haptic.links (c / 4) []) (c % 4) 0 = 0 ∧ nth (nth e.haptic.links (c / 4) []) (4 + c % 4) 0 = 0) ∧
        (∀ c, c < 16 → (s.dev.hch c).state = 4 → (e.hch c).state = 4) ∧ e.rings = s.dev.rings ∧ e.objs = s.dev.objs ∧ e.power = s.dev.power))) ∧
  (∀ (h : Haptic) (at_ k : Nat), h.sampleAt at_ = some k → h.samples ≤ k ∧
    ∀ t n, h.origin = some (t, n) → ∀ stamp, stamp = t + roundHalfUp ((k - n) * 125000) 3 → stamp ≤ at_ + 2 ∧ at_ ≤ stamp + 2) ∧
  (∀ (frame : List (BitVec 32)) (i : Nat), (senseOf frame i).accel = BitVec.ofNat 24 (fld (nth frame (3 * i) 0) 8 24) ∧
    (senseOf frame i).current = BitVec.ofNat 24 (fld (nth frame (3 * i + 1) 0) 8 24) ∧ (senseOf frame i).backEmf = BitVec.ofNat 24 (fld (nth frame (3 * i + 2) 0) 8 24) ∧
    (senseOf frame i).fault = bit (nth frame (12 + i) 0) 31 ∧ (senseOf frame i).overTemp = bit (nth frame (12 + i) 0) 30 ∧
    (senseOf frame i).overCurrent = bit (nth frame (12 + i) 0) 29) ∧
  (∀ (at_ n : Nat) (z : Sense) (d : Dev) (c : Nat), bit (d.hw c 1) 31 = true → (d.hch c).state ≠ 4 → (z.fault = true ∨ z.overTemp = true ∨ z.overCurrent = true) →
    (Dev.channelSample at_ n z d c).2 = (0, false) ∧ ((Dev.channelSample at_ n z d c).1.hch c).state = 4 ∧
    ((Dev.channelSample at_ n z d c).1.hch c).faults = satInc (d.hch c).faults ∧
    bit ((Dev.channelSample at_ n z d c).1.hapStat (d.owner 0x07 c) c) 26 = true ∧
    bit ((Dev.channelSample at_ n z d c).1.fn (d.owner 0x07 c)).evStatus 5 = true) ∧
  (∀ u limit : Nat, clamp36 u limit = (limit, true) ∨ clamp36 u limit = (limit + 2 ^ 35, true) ∨ clamp36 u limit = (u, false))

/-! Audio. -/

/-- Samples, blocks and graphs (R342, R343, R345, R349 to R354). A sample begins at its instant when the engine and its slices are ready: the outputs become the previous
ones, the sinks carry what they were given, every slice with a program runs afresh. A block boundary counts, publishes and stamps itself, and swaps in a graph
that waits, whose GRAPH_LOAD completes with the boundary's stamp. GRAPH_LOAD and GRAPH_STOP belong to the manager, and wait for a ramp and for one another. -/
def Obligations.AudioSamplesAndGraphs : Prop :=
  (∀ (s : State) (at_ i : Nat), s.Steady → i = s.dev.audio.count →
    (s.dev.sampleReady at_ = false → Becomes (.audioSample at_) s s.dev ∧ Becomes (.audioBlock at_) s s.dev) ∧
    ((i % 48 ≠ 0 ∨ s.dev.audio.blockDone i = true) → Becomes (.audioBlock at_) s s.dev) ∧
    (s.dev.sampleReady at_ = true → (i % 48 ≠ 0 ∨ s.dev.audio.blockDone i = true) → s.dev.audio.state ≠ 4 → Does (.audioSample at_) s (fun e =>
      e.now = Nat.max s.dev.now (s.dev.audio.stamp i) ∧ e.audio.count = i + 1 ∧ e.audio.prev = s.dev.audio.outs ∧ e.audio.outs = s.dev.audio.outs ∧
      e.audio.written = [] ∧ e.audio.sent = s.dev.sinkOuts ∧ e.audio.graph = s.dev.audio.graph ∧
      (∀ g, s.dev.audio.graph = some g → s.dev.audio.state = 2 → e.audio.state = (if g.rampLen ≤ i - s.dev.audio.since then 1 else 2)) ∧
      (∀ g, s.dev.audio.active = some g → ∀ p ∈ g.progs,
        (e.slice p.1).running = true ∧ (e.slice p.1).seq.steps = 0 ∧ (e.slice p.1).seq.stack = [] ∧ (e.slice p.1).acc = (s.dev.slice p.1).acc) ∧
      e.rings = s.dev.rings ∧ e.objs = s.dev.objs ∧ e.power = s.dev.power)) ∧
    (s.dev.sampleReady at_ = true → i % 48 = 0 → s.dev.audio.blockDone i = false → s.dev.commits = [] → (∀ o ∈ s.dev.ops, o.streamCut = false) →
      (s.dev.audio.loaded = none → Does (.audioBlock at_) s (fun e =>
        e.now = Nat.max s.dev.now (s.dev.audio.stamp i) ∧ e.evCount 3 0 = s.dev.evCount 3 0 + 1 ∧ e.audio.sampleReg = BitVec.ofNat 64 i ∧
        e.audio.stampReg = BitVec.ofNat 64 (s.dev.audio.stamp i) ∧ e.audio.meters = [] ∧ e.audio.count = i ∧ e.audio.graph = s.dev.audio.graph ∧
        (∀ q, q < 10 → (e.aport q).state = (if (s.dev.aport q).state = 1 then 2 else (s.dev.aport q).state)) ∧
        e.ops = s.dev.ops ∧ e.mem = s.dev.mem ∧ ∀ r, e.ring r =
          { s.dev.ring r with thread := { (s.dev.ring r).thread with wait := (s.dev.ring r).thread.wait.meet 3 0 (Nat.max s.dev.now (s.dev.audio.stamp i)) } })) ∧
      (∀ g id t, s.dev.audio.loaded = some (g, id, t) → t ≤ s.dev.audio.stamp i → Does (.audioBlock at_) s (fun e =>
        e.audio.graph = some g ∧ e.audio.loaded = none ∧ e.audio.state = (if g.rampMs = 0 then 1 else 2) ∧ e.audio.since = i ∧ e.audio.faultCode = 0 ∧
        (∀ o, s.dev.op id = some o → o.phase = .started →
          e.op id = some { o with phase := .finished, status := 0, result := some (BitVec.ofNat 64 (s.dev.audio.stamp i)) }) ∧
        (∀ j, j ≠ id → e.op j = s.dev.op j) ∧ e.mem = s.dev.mem)))) ∧
  (∀ (s : State) (id : OpId) (o : Op), Works s id 5 1 7 o →
    (o.fn ≠ s.dev.manager → Becomes (.graphLoad id) s (s.dev.finish id 0x11 none)) ∧
    (o.fn = s.dev.manager → (s.dev.audio.state = 2 ∨ s.dev.audio.state = 4 ∨ s.dev.audio.loaded.isSome = true) → Becomes (.graphLoad id) s s.dev) ∧
    (o.fn = s.dev.manager → s.dev.audio.state ≠ 2 → s.dev.audio.state ≠ 4 → s.dev.audio.loaded = none →
      ((∃ i, i < 5 ∧ fld (o.word i) 48 24 ≠ 0) → Becomes (.graphLoad id) s (s.dev.finish id 0x10 none)) ∧
      ((∀ i, i < 5 → fld (o.word i) 48 24 = 0) →
        (∀ d1, s.dev.loadProgs o.fn 0 [fld (o.word 1) 0 48, fld (o.word 2) 0 48, fld (o.word 3) 0 48, fld (o.word 4) 0 48] = (d1, .error .range) →
          Becomes (.graphLoad id) s (d1.finish id 0x10 none)) ∧
        (∀ d1 c va, s.dev.loadProgs o.fn 0 [fld (o.word 1) 0 48, fld (o.word 2) 0 48, fld (o.word 3) 0 48, fld (o.word 4) 0 48] = (d1, .error (.fault c va)) →
          Becomes (.graphLoad id) s (d1.opFault id o.fn c va)) ∧
        (∀ d1 progs d2 g pred, s.dev.loadProgs o.fn 0 [fld (o.word 1) 0 48, fld (o.word 2) 0 48, fld (o.word 3) 0 48, fld (o.word 4) 0 48] = (d1, .ok progs) →
          d1.loadTable o.fn (fld (o.word 0) 0 48) progs = (d2, .ok (g, pred)) →
          (d2.graphOk g pred = false → Becomes (.graphLoad id) s (d2.finish id 0x10 none)) ∧
          (d2.graphOk g pred = true → Becomes (.graphLoad id) s { d2 with audio := { d2.audio with loaded := some (g, id, s.dev.now + 2000) } }))))) ∧
  (∀ (d : Dev) (g : Graph) (pred : Nat), d.graphOk g pred = true →
    (g.nodes.map (fun n => n.node)).Nodup ∧ (∀ n ∈ g.nodes, n.type = fld (d.projected 0x05 n.node 1) 10 6) ∧
    (∀ e ∈ g.edges, (∃ n ∈ g.nodes, n.node = e.src) ∧ ∃ n ∈ g.nodes, n.node = e.dst) ∧
    pred = (match d.audio.active with | some r => r.id | none => 0)) ∧
  (∀ (s : State) (id : OpId) (o : Op), Works s id 5 2 7 o →
    (o.fn ≠ s.dev.manager → Becomes (.graphStop id) s (s.dev.finish id 0x11 none)) ∧
    (o.fn = s.dev.manager → o.word 0 ≠ 0 → Becomes (.graphStop id) s (s.dev.finish id 0x10 none)) ∧
    (o.fn = s.dev.manager → o.word 0 = 0 → s.dev.audio.active = none → Becomes (.graphStop id) s (s.dev.finish id 0 none)) ∧
    (o.fn = s.dev.manager → o.word 0 = 0 → s.dev.audio.active.isSome = true → (s.dev.audio.state = 4 ∨ s.dev.audio.loaded.isSome = true) →
      Becomes (.graphStop id) s s.dev) ∧
    (o.fn = s.dev.manager → o.word 0 = 0 → s.dev.audio.active.isSome = true → s.dev.audio.state ≠ 4 → s.dev.audio.loaded = none →
      Becomes (.graphStop id) s { s.dev with audio := { s.dev.audio with state := 4, stopOp := some id, stopAt := s.dev.audio.count } }))

/-- Streams, ports and headsets (R355 to R363). PLAY and CAPTURE queue a buffer on a stream of the caller, up to 16; HS_WAIT ends when its headset is no longer as
expected. A converter with a signal locks when its ratio has stayed for 10 ms or, where exact, its group delays are filled; a slave port whose frame rate is lost is unlocked with EV_FAULT at its owner, and starts again when the rate is good. A
headset is detected after 200 ms, typed after 30 more, and gone after 10 ms. -/
def Obligations.AudioStreamsAndPorts : Prop :=
  (∀ (s : State) (id : OpId) (o : Op) (cap : Bool) (mk : OpId → Instr) (kind n : Nat) (x : Stream),
    ((cap = false ∧ mk = Instr.audioPlay ∧ kind = 3) ∨ (cap = true ∧ mk = Instr.capture ∧ kind = 4)) → Works s id 5 kind 7 o →
    n = fld (o.word 0) 0 6 → x = s.dev.stream cap n →
    (streamDescOk cap o = false → Becomes (mk id) s (s.dev.finish id 0x10 none)) ∧
    (streamDescOk cap o = true → s.dev.ownsStream o.fn (if cap = true then 2 else 1) n = false → Becomes (mk id) s (s.dev.finish id 0x11 none)) ∧
    (streamDescOk cap o = true → s.dev.ownsStream o.fn (if cap = true then 2 else 1) n = true →
      (((∃ b ∈ x.queue, b.id = id) ∨ 16 ≤ x.queue.length ∨ s.dev.bufferWaits cap o = true) → Becomes (mk id) s s.dev) ∧
      ((∀ b ∈ x.queue, b.id ≠ id) → x.queue.length < 16 → s.dev.bufferWaits cap o = false → ∀ b : StreamOp,
        b = { id := id, addr := BitVec.ofNat 48 (fld (o.word 1) 0 48), frames := fld (o.word 2) 0 16, recAt := BitVec.ofNat 48 (fld (o.word 3) 0 48), done := 0
              first := none, flags := 0, status := 0 } →
        Becomes (mk id) s (s.dev.setStream cap n { x with queue := x.queue ++ [b] })))) ∧
  (∀ (s : State) (id : OpId) (o : Op) (q : Nat) (x : AudPort), Works s id 5 5 7 o → q = fld (o.word 0) 0 4 → x = s.dev.aport q →
    ((fld (o.word 0) 4 4 ≠ 0 ∨ fld (o.word 0) 16 56 ≠ 0 ∨ (q ≠ 10 ∧ q ≠ 11)) → Becomes (.hsWait id) s (s.dev.finish id 0x10 none)) ∧
    (fld (o.word 0) 4 4 = 0 → fld (o.word 0) 16 56 = 0 → (q = 10 ∨ q = 11) →
      (s.dev.owner 0x06 q ≠ o.fn → Becomes (.hsWait id) s (s.dev.finish id 0x11 none)) ∧
      (s.dev.owner 0x06 q = o.fn → s.dev.audio.waits = [] →
        (x.code = fld (o.word 0) 8 8 → Becomes (.hsWait id) s { s.dev with audio := { s.dev.audio with waits := [id] } }) ∧
        (x.code ≠ fld (o.word 0) 8 8 →
          Becomes (.hsWait id) s (s.dev.finish id 0 (some (x.code * 2 ^ 56 + x.button.toNat * 2 ^ 48 + x.changeAt % 2 ^ 48))))))) ∧
  (∀ (s : State) (node at_ t : Nat) (c : Conv), s.Steady → tfind s.dev.audio.convs node = some c → t = fld (s.dev.obj 0x05 node 1) 10 6 →
    (s.dev.audio.running = true → s.dev.runs 7 = true → c.state = 1 →
      (t = 1 ∨ t = 2 ∨ (s.dev.aport (fld (s.dev.obj 0x05 node 2) 0 4)).state = 2) → s.dev.mayLock node = true →
      Becomes (.asrcLock node at_) s (({ s.dev with now := Nat.max s.dev.now at_ } : Dev).setConv node { c with state := 2, lockedAt := s.dev.audio.count })) ∧
    ((s.dev.audio.running = false ∨ s.dev.runs 7 = false ∨ c.state ≠ 1 ∨ s.dev.mayLock node = false ∨
      (t ≠ 1 ∧ t ≠ 2 ∧ (s.dev.aport (fld (s.dev.obj 0x05 node 2) 0 4)).state ≠ 2)) → Becomes (.asrcLock node at_) s s.dev)) ∧
  (∀ (d : Dev) (node : Nat), d.mayLock node = true ↔
    (d.exactRatio node = true ∧ outerDelay ≤ (d.conv node).taken ∧ innerDelay ≤ (d.conv node).age ∨ d.exactRatio node = false ∧ 1920 ≤ (d.conv node).steady)) ∧
  (∀ (d : Dev) (n i : Nat), -100000 ≤ d.ppmOf n i ∧ d.ppmOf n i ≤ 100000 ∧ (d.exactRatio n = true → d.ppmOf n i = 0)) ∧
  (∀ (s : State) (q : Fin 12) (rate : Nat) (x : AudPort), s.Steady → x = s.dev.aport q.val →
    (s.dev.runs 7 = true → q.val < 8 → bit (s.dev.obj 0x06 q.val 1) 31 = true → bit (s.dev.obj 0x06 q.val 1) 30 = true → (x.state = 1 ∨ x.state = 2) →
      s.dev.rateGood q.val rate = false → Becomes (.portLost q rate) s (((s.dev.setAport q.val
        { x with state := 3, measured := BitVec.ofNat 40 rate, errors := satInc x.errors, good := 0 }).unlockPort q.val).setEv (s.dev.owner 0x06 q.val) 5)) ∧
    ((s.dev.runs 7 = false ∨ 8 ≤ q.val ∨ bit (s.dev.obj 0x06 q.val 1) 31 = false ∨ bit (s.dev.obj 0x06 q.val 1) 30 = false ∨ (x.state ≠ 1 ∧ x.state ≠ 2) ∨
      s.dev.rateGood q.val rate = true) → Becomes (.portLost q rate) s s.dev) ∧
    (s.dev.runs 7 = true → x.state = 3 → s.dev.rateGood q.val rate = true →
      Becomes (.portRecover q rate) s (s.dev.setAport q.val { x with state := 1, measured := BitVec.ofNat 40 rate, good := 8 })) ∧
    ((s.dev.runs 7 = false ∨ x.state ≠ 3 ∨ s.dev.rateGood q.val rate = false) → Becomes (.portRecover q rate) s s.dev)) ∧
  (∀ (s : State) (n : Fin 2) (at_ mv i : Nat) (det : Bool) (x y : AudPort) (d : Dev), s.Steady → i = 10 + n.val → x = s.dev.aport i →
    y = x.hsStep (bit (s.dev.obj 0x06 i 1) 0) det mv → d = { s.dev with now := Nat.max s.dev.now at_ } → s.dev.audio.waits = [] →
    ((s.dev.runs 7 = false ∨ bit (s.dev.obj 0x06 i 1) 31 = false) → Becomes (.hsSample n at_ det mv) s s.dev) ∧
    (s.dev.runs 7 = true → bit (s.dev.obj 0x06 i 1) 31 = true →
      (y.code = x.code → Becomes (.hsSample n at_ det mv) s (d.setAport i y)) ∧
      (y.code ≠ x.code → Becomes (.hsSample n at_ det mv) s (d.setAport i { y with changeAt := d.now, errors := satInc y.errors })))) ∧
  (∀ (x : AudPort) (bias : Bool) (mv : Nat),
    (x.state = 1 → x.det < 199 → (x.hsStep bias true mv).state = 1 ∧ (x.hsStep bias true mv).det = x.det + 1) ∧
    (x.state = 1 → 199 ≤ x.det → (x.hsStep bias true mv).state = 2 ∧ (x.hsStep bias true mv).bias = bias) ∧
    (x.state = 1 → (x.hsStep bias false mv).state = 1 ∧ (x.hsStep bias false mv).det = 0) ∧
    (x.state ≠ 1 → 9 ≤ x.rel →
      (x.hsStep bias false mv).state = 1 ∧ (x.hsStep bias false mv).hsType = 0 ∧ (x.hsStep bias false mv).button = 0 ∧ (x.hsStep bias false mv).bias = false) ∧
    (x.state = 2 → x.settle = 29 → (x.hsStep bias true mv).state = 3 ∧ (x.hsStep bias true mv).hsType = micType (x.sum + mv)) ∧
    (x.state = 2 → x.settle < 29 → (x.hsStep bias true mv).state = 2 ∧ (x.hsStep bias true mv).settle = x.settle + 1) ∧
    (x.state = 3 → x.hsType = 2 → 1 ≤ micBand mv → micBand mv ≤ 4 → x.band = micBand mv → 19 ≤ x.bandMs →
      (x.hsStep bias true mv).button = BitVec.ofNat 3 (micBand mv)))

/-! DRAM and power sequences. -/

/-- What the memory system does by itself (R396, R400 to R409, R415). A refresh is postponed at most eight times, for requests of urgency 3; the queue keeps 24 entries for urgent requests and holds at most 64 writes; a rank idle for 32 clocks powers down; a group without a
request for 1,000 ns enters self-refresh and leaves it for one; drift or link errors call for a retraining, whose bursts end in a trained or a failed channel; a group
changes speed points in its turn, or is forced after 50 ms; a failed channel steps down or fences its group, and data that a pipe misses meanwhile arrive late; what has waited for the
operating point is taken up at its end (R423); a repartition is BUSY for 1 µs. -/
def Obligations.DramActivity : Prop :=
  (∀ (s : State) (ch : Fin 16) (rank : Fin 2) (bank : Fin 16) (d : Dev) (x : Chan) (b n : Nat), s.Steady → d = s.dev.scheduleChan ch.val → x = d.chan ch.val →
    b = 16 * rank.val + bank.val → n = tget x.postponed b 0 →
    ((d.groupUp (ch.val / 4) = false ∨ x.state = 4 ∨ (rank.val = 1 ∧ d.dram.twoRanks = false)) → Becomes (.dramRefresh ch rank bank) s d) ∧
    (d.groupUp (ch.val / 4) = true → x.state ≠ 4 → (rank.val = 0 ∨ d.dram.twoRanks = true) →
      (d.bankUrgent ch.val b = true → n < 8 →
        Becomes (.dramRefresh ch rank bank) s (d.setChan ch.val { x with postponed := tset x.postponed b (n + 1) })) ∧
      ((d.bankUrgent ch.val b = false ∨ 8 ≤ n) → Becomes (.dramRefresh ch rank bank) s
        (d.setChan ch.val { x with postponed := tset x.postponed b 0, down := x.down.filter (fun r => r ≠ rank.val) })))) ∧
  (∀ (queued : List MemReq) (u : Nat) (w b : Bool), entryFor queued u w = some b →
    (b = true → 2 ≤ u ∧ (queued.filter (fun r => r.reserved = true)).length < 24) ∧ (b = false → (queued.filter (fun r => r.reserved = false)).length < 104) ∧
    (w = true → (queued.filter (fun r => r.write)).length < 64)) ∧
  (∀ (s : State) (ch : Fin 16) (at_ : Nat) (v : BitVec 8) (hot : Bool) (d : Dev) (x : Chan), s.Steady → d = { s.dev with now := Nat.max s.dev.now at_ } →
    x = s.dev.chan ch.val →
    ((s.dev.groupUp (ch.val / 4) = false ∨ ∃ t, x.mr4At = some t ∧ d.now < t + 16000000) → Becomes (.mr4Read ch at_ ⟨v, hot⟩) s s.dev) ∧
    (s.dev.groupUp (ch.val / 4) = true → (x.mr4At = none ∨ ∃ t, x.mr4At = some t ∧ t + 16000000 ≤ d.now) →
      ∀ d1, d1 = d.setChan ch.val { x with mr4 := v, mr4At := some d.now, down := [] } →
      Becomes (.mr4Read ch at_ ⟨v, false⟩) s d1 ∧ Becomes (.mr4Read ch at_ ⟨v, true⟩) s (d1.smRecord 0x06 (chanLocus ch.val) none v.toNat 0).settle)) ∧
  (∀ (s : State) (ch : Fin 16) (rank : Fin 2) (idle : Nat) (d : Dev) (x : Chan) (q : ChanQueue), s.Steady → d = s.dev.scheduleChan ch.val → x = d.chan ch.val →
    q = d.queue ch.val →
    (d.groupUp (ch.val / 4) = true → (∀ r ∈ q.queued ++ q.waiting, d.reqBank r / 16 ≠ rank.val) → 32 ≤ idle → x.down.contains rank.val = false →
      (rank.val = 0 ∨ d.dram.twoRanks = true) → Becomes (.powerDownEntry ch rank idle) s (d.setChan ch.val { x with down := x.down ++ [rank.val] })) ∧
    ((d.groupUp (ch.val / 4) = false ∨ (∃ r ∈ q.queued ++ q.waiting, d.reqBank r / 16 = rank.val) ∨ idle < 32 ∨ x.down.contains rank.val = true ∨
      (rank.val = 1 ∧ d.dram.twoRanks = false)) → Becomes (.powerDownEntry ch rank idle) s d)) ∧
  (∀ (s : State) (g : Fin 4) (at_ : Nat) (d d1 : Dev) (x : Group), s.Steady → d = { s.dev with now := Nat.max s.dev.now at_ } → d1 = d.scheduleGroup g.val →
    x = d.group g.val →
    (s.dev.groupUp g.val = true → s.dev.groupFailed g.val = false → d1.groupAsked g.val = false → d1.groupFetched g.val = false →
      d1.groupLast g.val + 1000 ≤ d1.now → 20000 ≤ d1.groupTolerance g.val →
      Becomes (.selfRefreshGroupEntry g at_) s (d1.setGroup g.val { d1.group g.val with selfRefresh := true })) ∧
    ((s.dev.groupUp g.val = false ∨ s.dev.groupFailed g.val = true ∨ d1.groupAsked g.val = true ∨ d1.groupFetched g.val = true ∨
      d1.now < d1.groupLast g.val + 1000 ∨ d1.groupTolerance g.val < 20000) → Becomes (.selfRefreshGroupEntry g at_) s s.dev) ∧
    (s.dev.runs 11 = true → x.selfRefresh = true →
      ((d.groupAsked g.val = true ∨ d.groupFetched g.val = true) →
        Becomes (.selfRefreshGroupExit g at_) s (d.setGroup g.val { x with selfRefresh := false, lastReq := d.now })) ∧
      (d.groupAsked g.val = false → d.groupFetched g.val = false → d.groupTolerance g.val ≤ 5000 →
        Becomes (.selfRefreshGroupExit g at_) s (d.setGroup g.val { x with selfRefresh := false })) ∧
      (d.groupAsked g.val = false → d.groupFetched g.val = false → 5000 < d.groupTolerance g.val → Becomes (.selfRefreshGroupExit g at_) s s.dev)) ∧
    ((s.dev.runs 11 = false ∨ x.selfRefresh = false) → Becomes (.selfRefreshGroupExit g at_) s s.dev)) ∧
  (∀ (s : State) (ch : Fin 16) (at_ drift ce : Nat) (ue : Bool) (d : Dev) (x x1 : Chan), s.Steady → d = { s.dev with now := Nat.max s.dev.now at_ } →
    x = s.dev.chan ch.val →
    x1 = { x with drift := x.drift + drift, linkCe := BitVec.ofNat 16 (satAdd 16 x.linkCe.toNat ce), driftAt := some d.now, down := [] } →
    ((s.dev.groupUp (ch.val / 4) = false ∨ x.state = 4 ∨ ∃ t, x.driftAt = some t ∧ d.now < t + 100000000) → Becomes (.driftRead ch at_ drift ce ue) s s.dev) ∧
    (s.dev.groupUp (ch.val / 4) = true → x.state ≠ 4 → (x.driftAt = none ∨ ∃ t, x.driftAt = some t ∧ t + 100000000 ≤ d.now) →
      (x.retraining = false → (128 < x.drift + drift ∨ 16 ≤ ce ∨ ue = true) →
        Becomes (.driftRead ch at_ drift ce ue) s (d.setChan ch.val { x1 with retraining := true, begun := false })) ∧
      ((x.retraining = true ∨ (x.drift + drift ≤ 128 ∧ ce < 16 ∧ ue = false)) → Becomes (.driftRead ch at_ drift ce ue) s (d.setChan ch.val x1)))) ∧
  (∀ (s : State) (ch : Fin 16) (at_ : Nat) (result : BurstEnd) (d : Dev) (x x1 : Chan), s.Steady → d = { s.dev with now := Nat.max s.dev.now at_ } →
    x = s.dev.chan ch.val →
    x1 = { x with state := 3, begun := true, burstAt := some d.now, retrains := (if x.begun = true then x.retrains else satInc x.retrains) } →
    ((s.dev.groupUp (ch.val / 4) = false ∨ x.retraining = false ∨ x.state = 4 ∨ (∃ t, x.burstAt = some t ∧ d.now < t + 100000) ∨
      d.groupTolerance (ch.val / 4) < 7000) → Becomes (.retrainBurst ch at_ result) s s.dev) ∧
    (s.dev.groupUp (ch.val / 4) = true → x.retraining = true → x.state ≠ 4 → (x.burstAt = none ∨ ∃ t, x.burstAt = some t ∧ t + 100000 ≤ d.now) →
      7000 ≤ d.groupTolerance (ch.val / 4) →
      Becomes (.retrainBurst ch at_ .more) s (d.setChan ch.val x1) ∧
      Becomes (.retrainBurst ch at_ .failed) s (d.setChan ch.val { x1 with state := 4, retraining := false, begun := false }) ∧
      Becomes (.retrainBurst ch at_ .trained) s (d.trained ch.val x1))) ∧
  (∀ (d : Dev) (n : Nat) (x : Chan),
    ((x.storedAt = none ∨ (∃ t, x.storedAt = some t ∧ t + 3600000000000 ≤ d.now) ∨ d.setValid n x.speed.toNat = false) → d.trained n x =
      (d.setChan n { x with state := 0, retraining := false, begun := false, drift := 0, storedAt := some d.now }).storeSet n x.speed.toNat) ∧
    (∀ t, x.storedAt = some t → d.now < t + 3600000000000 → d.setValid n x.speed.toNat = true →
      d.trained n x = d.setChan n { x with state := 0, retraining := false, begun := false, drift := 0 })) ∧
  (∀ (s : State) (g : Fin 4) (at_ t : Nat) (forced : Bool) (i : Instr), s.Steady → (s.dev.group g.val).change = some t →
    ((forced = false ∧ i = .speedChange g at_) ∨ (forced = true ∧ i = .speedChangeForced g at_)) →
    (s.dev.speedTurn g.val = false → Becomes i s s.dev) ∧
    (forced = true → Nat.max s.dev.now at_ < t + 50000000 → Becomes i s s.dev) ∧
    (forced = false → ({ s.dev with now := Nat.max s.dev.now at_ } : Dev).groupTolerance g.val < 13000 → Becomes i s s.dev) ∧
    (s.dev.speedTurn g.val = true →
      (s.dev.power.change = none ∨ ∃ c, s.dev.power.change = some c ∧ (c.stage ≠ 1 ∨ (∃ k, k < 4 ∧ k ≠ g.val ∧ (s.dev.group k).change ≠ none) ∨
        opShdMv c.target < s.dev.power.shdMv ∨ opCoreMv c.target < s.dev.power.coreMv)) →
      (forced = false ∧ 13000 ≤ ({ s.dev with now := Nat.max s.dev.now at_ } : Dev).groupTolerance g.val ∨
      forced = true ∧ t + 50000000 ≤ Nat.max s.dev.now at_) → Does i s (fun e =>
      e.now = Nat.max s.dev.now at_ ∧ (e.group g.val).change = none ∧ (e.group g.val).selfRefresh = false ∧
      (e.group g.val).forced = (if forced = true ∨ s.dev.setMissing g.val = true then satInc (s.dev.group g.val).forced else (s.dev.group g.val).forced) ∧
      (∀ k, k < 4 → (e.chan (4 * g.val + k)).speed = BitVec.ofNat 2 (s.dev.speedFor (4 * g.val + k)) ∧
        (e.queue (4 * g.val + k)).queued = [] ∧ (e.queue (4 * g.val + k)).rows = []) ∧
      (∀ n, n / 4 ≠ g.val → e.chan n = s.dev.chan n) ∧ (∀ k, k ≠ g.val → e.group k = s.dev.group k) ∧
      (s.dev.power.change = none → e.power = s.dev.power) ∧
      (∀ c, s.dev.power.change = some c → c.stage = 1 → (∀ k, k < 4 → k ≠ g.val → (s.dev.group k).change = none) →
        e.power.shdDiv = opDiv c.target ∧ e.power.shdMv = opShdMv c.target ∧ e.power.coreMv = opCoreMv c.target) ∧
      (s.dev.setMissing g.val = false → e.flash = s.dev.flash) ∧
      (forced = false → s.dev.setMissing g.val = false → e.disp = s.dev.disp) ∧
      (∀ p, { e.pt p with late := (s.dev.pt p).late, ltNow := (s.dev.pt p).ltNow } = s.dev.pt p ∧
        (e.pt p = s.dev.pt p ∨ (e.pt p).late = true ∧ (e.pt p).ltNow = 0)) ∧
      { e with now := s.dev.now, dram := s.dev.dram, power := s.dev.power, bus := s.dev.bus, flash := s.dev.flash, disp := s.dev.disp } = s.dev)) ∧
    (∀ (c : OpChange) (d : Dev), s.dev.speedTurn g.val = true → d = ({ s.dev with now := Nat.max s.dev.now at_ } : Dev) →
      (forced = false ∧ 13000 ≤ d.groupTolerance g.val ∨ forced = true ∧ t + 50000000 ≤ d.now) →
      s.dev.power.change = some c → c.stage = 1 → (∀ k, k < 4 → k ≠ g.val → (s.dev.group k).change = none) →
      s.dev.power.shdMv ≤ opShdMv c.target → s.dev.power.coreMv ≤ opCoreMv c.target → Becomes i s
      (({ (if forced = true ∨ d.setMissing g.val = true then (d.groupMoved g.val forced).fetchLate (d.changeTime g.val) else d.groupMoved g.val forced) with power :=
          { s.dev.power with
            shdDiv := opDiv c.target, shdMv := opShdMv c.target, coreMv := opCoreMv c.target, current := BitVec.ofNat 3 c.target, change := none } } : Dev).afterSequence.settle))) ∧
  (∀ (d : Dev) (ns p : Nat), { d.fetchLate ns with disp := d.disp } = d ∧
    (d.fetchLate ns).pt p = (if p < 12 ∧ (d.frameOf p).map (fun fr => fr.kind) = some 1 ∧ d.ltOf p < ns then { d.pt p with late := true, ltNow := 0 } else d.pt p)) ∧
  (∀ (d : Dev) (p x y : Nat) (fr : Frame) (c : Composition), d.vitrineOnly p = false → d.frameOf p = some fr → fr.kind = 1 → (d.pc p).content = some c →
    x < c.width → y < c.height → d.pixelLate p x y = false ∨ d.layerPx p x y = (d, 0)) ∧
  (∀ (d : Dev) (n p : Nat), (d.setValid n p = true → d.needSet n p = d) ∧ (d.setValid n p = false → d.needSet n p = d.storeSet n p)) ∧
  (∀ (s : State) (g : Fin 4) (at_ : Nat), s.Steady → (s.dev.group g.val).change = none →
    Becomes (.speedChange g at_) s s.dev ∧ Becomes (.speedChangeForced g at_) s s.dev) ∧
  (∀ (s : State) (ch : Fin 16) (working : BitVec 4) (x : Chan) (d : Dev), s.Steady → x = s.dev.chan ch.val →
    d = s.dev.fetchLate (Config.unstated 40 [ch.val, s.dev.now] % 120000001) →
    ((s.dev.runs 11 = false ∨ x.state ≠ 4) → Becomes (.dramStepDown ch working) s s.dev) ∧
    (s.dev.runs 11 = true → x.state = 4 → firstPoint working (x.speed.toNat + 1) = none →
      Becomes (.dramStepDown ch working) s (d.fence ch.val).speedsChanged.settle) ∧
    (∀ q, s.dev.runs 11 = true → x.state = 4 → firstPoint working (x.speed.toNat + 1) = some q →
      Becomes (.dramStepDown ch working) s
        (((d.needSet ch.val q).stepDown ch.val q).speedsChanged.settle))) ∧
  (∀ (working : BitVec 4) (p q : Nat), firstPoint working p = some q → p ≤ q ∧ q < 4 ∧ bit working q = true ∧ ∀ r, p ≤ r → r < q → bit working r = false) ∧
  (∀ (d : Dev) (n q : Nat), q < 4 →
    (d.stepDown n q).chan n = { d.chan n with state := 0, speed := BitVec.ofNat 2 q, ceiling := BitVec.ofNat 2 q, retraining := false } ∧
    ((d.stepDown n q).group (n / 4)).state = 1 ∧ bit ((d.stepDown n q).fn d.manager).evStatus 5 = true ∧
    ((d.fence n).group (n / 4)).state = 2 ∧ ((d.fence n).group (n / 4)).change = none ∧ bit ((d.fence n).fn d.manager).evStatus 5 = true ∧
    ∀ i, i < 4 → ((d.fence n).chan (4 * (n / 4) + i)).state = 5) ∧
  (∀ (s : State) (at_ : Nat), s.Steady →
    ((s.dev.dram.busyFrom = none ∨ s.dev.runs 11 = false ∨ ∃ t, s.dev.dram.busyFrom = some t ∧ Nat.max s.dev.now at_ < t + 1000) →
      Becomes (.repartitionDone at_) s s.dev) ∧
    (∀ t, s.dev.dram.busyFrom = some t → s.dev.runs 11 = true → t + 1000 ≤ Nat.max s.dev.now at_ →
      Becomes (.repartitionDone at_) s { s.dev with now := Nat.max s.dev.now at_, dram := { s.dev.dram with busyFrom := none } }))

/-- Rails, temperature and cores (R420 to R426, R441). A rail set to a voltage gets the code of its record's map. A raised rail within 10 mV takes the change on, a lowered one ends it; a rail that has not settled within 500 µs
has its old code again and the change is abandoned; an undervoltage of over 1 µs slows CLK_SHD and is reported; LIMIT goes up every 10 ms near Tmax and
down every 100 ms 10 °C below it, and a sensor at Tmax with LIMIT 7 is reported; a core idle for 1 ms is gated, and keeps nothing. -/
def Obligations.RailsAndTemperature : Prop :=
  (∀ (s : State) (rail : Fin 2) (mv : Nat) (c : OpChange) (want : Nat), s.Steady → s.dev.power.change = some c → want = s.dev.power.railMv rail.val →
    (c.stage = 0 → rail.val ∈ c.raising → want ≤ mv + 10 →
      ((∃ r ∈ c.raising, r ≠ rail.val) → Becomes (.railSettled rail mv) s
        { s.dev with power := { s.dev.power with change := some { c with raising := c.raising.filter (fun r => r ≠ rail.val) } } }) ∧
      ((∀ r ∈ c.raising, r = rail.val) → Becomes (.railSettled rail mv) s
        ({ s.dev with power := { s.dev.power with change := some { c with raising := [] } } } : Dev).opRaised.afterSequence.settle)) ∧
    (c.stage = 2 → rail.val ∈ c.lowering → want ≤ mv + 10 → mv ≤ want + 10 →
      ((∃ r ∈ c.lowering, r ≠ rail.val) → Becomes (.railSettled rail mv) s
        { s.dev with power := { s.dev.power with change := some { c with lowering := c.lowering.filter (fun r => r ≠ rail.val) } } }) ∧
      ((∀ r ∈ c.lowering, r = rail.val) → Becomes (.railSettled rail mv) s
        ({ s.dev with power := { s.dev.power with current := BitVec.ofNat 3 c.target, change := none } } : Dev).afterSequence.settle)) ∧
    ((c.stage = 1 ∨ (c.stage = 0 ∧ (rail.val ∉ c.raising ∨ mv + 10 < want)) ∨ (c.stage = 2 ∧ (rail.val ∉ c.lowering ∨ mv + 10 < want ∨ want + 10 < mv))) →
      Becomes (.railSettled rail mv) s s.dev)) ∧
  (∀ (d : Dev) (c : OpChange), d.power.change = some c → d.opLower.power.shdDiv = opDiv c.target ∧ d.opLower.power.shdMv = opShdMv c.target ∧
    d.opLower.power.coreMv = opCoreMv c.target ∧ (d.power.shdMv ≤ opShdMv c.target → d.power.coreMv ≤ opCoreMv c.target →
      d.opLower.power.change = none ∧ d.opLower.power.current = BitVec.ofNat 3 c.target)) ∧
  (∀ (d : Dev), d.power.state = .active → d.power.change = none → d.power.pendingEresets = [] → d.power.asked = none →
    (d.power.current.toNat = d.power.inForce ∨ d.power.failedFor = some d.power.inForce) → d.afterSequence = d) ∧
  (∀ (s : State) (rail : Fin 2) (mv at_ : Nat) (c : OpChange) (d : Dev) (p : Power), s.Steady → s.dev.power.change = some c →
    d = { s.dev with now := Nat.max s.dev.now at_ } → p = s.dev.power →
    (c.stage = 0 → rail.val ∈ c.raising → mv + 10 < p.railMv rail.val → c.writtenAt + 500000 ≤ d.now → ∀ r : Power,
      r = { p.railSet rail.val (if rail.val = 0 then c.oldShdMv else c.oldCoreMv) with
            change := none, failedFor := some c.target, reason := 5, locus := railLocus rail.val } →
      Becomes (.railTimeout rail mv at_) s
        ((({ d with power := r } : Dev).smRecord 0x28 (railLocus rail.val) none mv (p.railMv rail.val - 10)).afterSequence.settle)) ∧
    ((c.stage ≠ 0 ∨ rail.val ∉ c.raising ∨ p.railMv rail.val ≤ mv + 10 ∨ d.now < c.writtenAt + 500000) → Becomes (.railTimeout rail mv at_) s s.dev)) ∧
  (∀ (p : Power) (rail mv : Nat), (p.railSet rail mv).shdMv = (if rail = 0 then mv else p.shdMv) ∧
    (p.railSet rail mv).coreMv = (if rail = 0 then p.coreMv else mv) ∧
    (∀ k, k ≠ rail → tfind (p.railSet rail mv).regulators k = tfind p.regulators k) ∧
    (∀ m, tfind p.railMaps rail = some m → tfind (p.railSet rail mv).regulators rail = some (m.addr, m.reg, m.code mv)) ∧
    { p.railSet rail mv with shdMv := p.shdMv, coreMv := p.coreMv, regulators := p.regulators } = p) ∧
  (∀ (m : RailMap) (mv : Nat), m.code mv ≤ m.top ∧
    (∀ c, c ≤ m.top → m.step ≠ 0 → 1000 * m.v0 + m.step * c = 1000 * mv → m.code mv = c)) ∧
  (∀ (s : State) (rail : Fin 2) (mv at_ : Nat), s.Steady → s.dev.power.change = none →
    Becomes (.railSettled rail mv) s s.dev ∧ Becomes (.railTimeout rail mv at_) s s.dev) ∧
  (∀ (s : State) (rail : Fin 2) (mv ns : Nat), s.Steady →
    ((s.dev.boot.stage = .held ∨ s.dev.power.state = .standby ∨ (rail.val = 0 ∧ s.dev.power.state = .showcase) ∨ ns ≤ 1000 ∨ s.dev.railMin rail.val ≤ mv) →
      Becomes (.undervoltage rail mv ns) s s.dev) ∧
    (s.dev.boot.stage ≠ .held → s.dev.power.state ≠ .standby → 1000 < ns → mv < s.dev.railMin rail.val →
      (rail.val = 0 → s.dev.power.state ≠ .showcase → Becomes (.undervoltage rail mv ns) s
        ((({ s.dev with power := { s.dev.power with shdDiv := Nat.max s.dev.power.shdDiv (divFor mv) } } : Dev).smRecord 0x28 (railLocus 0) none mv
          (s.dev.railMin 0)).settle)) ∧
      (rail.val = 1 → Becomes (.undervoltage rail mv ns) s (s.dev.smRecord 0x28 (railLocus 1) none mv (s.dev.railMin 1)).settle))) ∧
  (∀ (s : State) (at_ : Nat) (temps l : List Int) (d : Dev), s.Steady → d = { s.dev with now := Nat.max s.dev.now at_ } →
    l = ((List.range 16).filter (fun n => !bit s.dev.safety.excluded n)).map (fun n => nth temps n 0) →
    ((s.dev.boot.stage = .held ∨ s.dev.power.state = .standby ∨ s.dev.safety.state ≠ 0 ∨ temps.length ≠ 16) → Becomes (.thermalTick at_ temps) s s.dev) ∧
    (s.dev.boot.stage ≠ .held → s.dev.power.state ≠ .standby → s.dev.safety.state = 0 → temps.length = 16 → (∀ x ∈ l, x < tmax s.dev.boot.fuses.grade) →
      Does (.thermalTick at_ temps) s (fun e =>
        e.now = d.now ∧ e.safety = { s.dev.safety with temps := temps } ∧ e.power.limit = (d.limitStep d.now l).power.limit ∧
        e.power.hotAt = (d.limitStep d.now l).power.hotAt ∧ e.power.coolAt = (d.limitStep d.now l).power.coolAt ∧
        { e with now := s.dev.now, safety := s.dev.safety, power := s.dev.power, dram := s.dev.dram, bus := s.dev.bus } = s.dev))) ∧
  (∀ (d : Dev) (t : Nat) (l : List Int) (m : Int) (p : Power), m = tmax d.boot.fuses.grade → p = d.power →
    ((∃ x ∈ l, m - 500 ≤ x) → p.limit ≠ 7 → p.hotAt + 10000000 ≤ t → (d.limitStep t l).power.limit = p.limit + 1) ∧
    ((∃ x ∈ l, m - 500 ≤ x) → (p.limit = 7 ∨ t < p.hotAt + 10000000) → (d.limitStep t l).power.limit = p.limit) ∧
    (l ≠ [] → (∀ x ∈ l, x ≤ m - 1000) → p.limit ≠ 0 → p.coolAt + 100000000 ≤ t → (d.limitStep t l).power.limit = p.limit - 1) ∧
    ((∀ x ∈ l, x < m - 500) → (∃ x ∈ l, m - 1000 < x) → (d.limitStep t l).power.limit = p.limit)) ∧
  (∀ (s : State) (core : Fin 16) (at_ : Nat) (x : Core), s.Steady → x = s.dev.coreOf core.val →
    (s.dev.runs 4 = true → x.gated = false → x.inTest = false → x.resetAt = none → s.dev.coreBusy core.val = false → x.idleFrom + 1000000 ≤ Nat.max s.dev.now at_ →
      Becomes (.shaderPowerGate core at_) s (({ s.dev with now := Nat.max s.dev.now at_ } : Dev).setCore core.val { x with gated := true, tex := [], work := none })) ∧
    ((s.dev.runs 4 = false ∨ x.gated = true ∨ x.inTest = true ∨ x.resetAt ≠ none ∨ s.dev.coreBusy core.val = true ∨ Nat.max s.dev.now at_ < x.idleFrom + 1000000) →
      Becomes (.shaderPowerGate core at_) s s.dev))

/-- Sleep states (R431 to R441). After the fade of 5 ms the blocks are asked in R432's order; each stops (the shader cores at a boundary), or refuses or is silent for 100 µs, which rolls the entry back to
ACTIVE with its reason and the block; with all stopped the entry commits, or a source that fired since GO makes it a wake race. A wake source that is
enabled is latched during an entry and returns the device from a sleep state to ACTIVE within 8 ms. -/
def Obligations.SleepStates : Prop :=
  (∀ (s : State) (at_ : Nat), s.Steady → s.dev.power.entry = none →
    Becomes (.windDownDone at_) s s.dev ∧ Becomes (.blockStopped at_) s s.dev ∧ Becomes (.blockStopTimeout at_) s s.dev) ∧
  (∀ (s : State) (at_ : Nat) (e : SleepEntry) (d : Dev), s.Steady → s.dev.power.entry = some e → d = { s.dev with now := Nat.max s.dev.now at_ } →
    (e.order = 0 → e.goAt + 5000000 ≤ d.now → (∀ p, p < 12 → bit (s.dev.keptPipes e.target) p = true → (s.dev.pt p).showcase = true) →
      Becomes (.windDownDone at_) s { d with power := { d.power with entry := some { e with order := 1, askedAt := d.now } } }) ∧
    ((e.order ≠ 0 ∨ d.now < e.goAt + 5000000 ∨ ∃ p, p < 12 ∧ bit (s.dev.keptPipes e.target) p = true ∧ (s.dev.pt p).showcase = false) →
      Becomes (.windDownDone at_) s s.dev) ∧
    (e.order = 0 → Becomes (.blockStopped at_) s s.dev ∧ Becomes (.blockStopTimeout at_) s s.dev) ∧
    (∀ l, e.order ≠ 0 → e.order ≠ 12 → d.blockRefuses e = some l → Becomes (.blockStopped at_) s (d.rollback 1 l).settle) ∧
    (e.order = 4 → (∃ n, n < 16 ∧ (d.evictAll e).atBoundary n = false) → Becomes (.blockStopped at_) s s.dev) ∧
    (e.order ≠ 0 → e.order ≠ 12 → d.blockRefuses e = none → ∀ d2, d2 = (if e.order = 4 then d.evictAll e else d).blockStops e →
      (e.order = 4 → ∀ n, n < 16 → d2.atBoundary n = true) → Becomes (.blockStopped at_) s
      { d2 with power := { d2.power with entry := some { e with order := e.order + 1, askedAt := d2.now, stopped := e.stopped ++ [e.order] } } }) ∧
    (e.order = 12 → d.wakeFired = 0 → Becomes (.blockStopped at_) s { d with power :=
      { d.power.sleepRails e.target with
        state := (if e.target = 1 then .showcase else .standby), entry := none, last := e.target, entries := satInc d.power.entries, shdOff := true
        stby := decide (e.target = 2) } }) ∧
    (e.order = 12 → d.wakeFired ≠ 0 → e.deep = false →
      Becomes (.blockStopped at_) s ((({ d with power := { d.power with wakeSrc := d.wakeFired } } : Dev).activeRails.rollback 3 (blockLocus 12)).settle)) ∧
    (e.order ≠ 0 → e.order ≠ 12 → e.askedAt + 100000 ≤ d.now → Becomes (.blockStopTimeout at_) s (d.rollback 2 (blockLocus e.order)).settle) ∧
    ((e.order = 12 ∨ d.now < e.askedAt + 100000) → Becomes (.blockStopTimeout at_) s s.dev)) ∧
  (∀ p : Power, p.sleepRails 2 = p ∧ (p.sleepRails 1).coreMv = 650 ∧ (p.sleepRails 1).shdMv = p.shdMv ∧
    ∀ m, tfind p.railMaps 1 = some m → tfind (p.sleepRails 1).regulators 1 = some (m.addr, m.reg, m.code 650)) ∧
  (∀ (d : Dev) (e : SleepEntry) (reason : Nat) (l : W72), d.power.entry = some e → e.deep = false → d.power.pendingEresets = [] →
    (d.rollback reason l).power.state = .active ∧ (d.rollback reason l).power.entry = none ∧ (d.rollback reason l).power.result = 3 ∧
    (d.rollback reason l).power.reason = BitVec.ofNat 3 reason ∧ (d.rollback reason l).power.locus = l ∧ (d.rollback reason l).power.reqGo = false ∧
    (d.rollback reason l).audio.running = true ∧ ∀ g, g < 4 → (d.group g).state ≠ 2 → ((d.rollback reason l).group g).selfRefresh = false) ∧
  (∀ (d : Dev) (e : SleepEntry), d.blockStops { e with order := 7 } = { d with audio := { d.audio with running := false } } ∧
    (∀ g, g < 4 → (d.group g).state ≠ 2 → ((d.blockStops { e with order := 11 }).group g).selfRefresh = true) ∧
    (∀ p, p < 12 → bit (d.keptPipes e.target) p = false → ((d.blockStops { e with order := 10 }).pt p).active = false) ∧
    (d.blockStops { e with order := 8 }).haptic.links = List.replicate 4 (linkFrame (List.replicate 4 (0, false)))) ∧
  (∀ (s : State) (i : Instr) (src : WakeSrc) (at_ : Nat) (d : Dev), s.Steady → d = { s.dev with now := Nat.max s.dev.now at_ } →
    (i = .wake src at_ ∨ (i = .svpWakePattern 0xA5C33C5A 32 ∧ src = .svp ∧ at_ = 0)) →
    ((d.wakeEnabled src = false ∨ d.boot.stage ≠ .ready ∨ d.freeze.at_ ≠ none ∨ d.power.state = .active ∨ d.power.state = .exiting) → Becomes i s d) ∧
    (d.wakeEnabled src = true → d.boot.stage = .ready → d.freeze.at_ = none →
      (d.power.state = .entering → Becomes i s { d with power := { d.power with latched := setBit d.power.latched (wakeIndex src) true } }) ∧
      ((d.power.state = .showcase ∨ d.power.state = .standby) → d.power.pendingEresets = [] → Does i s (fun e =>
        e.power.state = .active ∧ e.power.entry = none ∧ e.power.wakeSrc = setBit d.wakeFired (wakeIndex src) true ∧ e.power.result = 0 ∧ e.power.reason = 0 ∧
        e.power.latched = 0 ∧ e.power.stby = false ∧ e.audio.running = true ∧ e.audio.count = 0 ∧ d.now ≤ e.now ∧ e.now ≤ d.now + 8000000 ∧
        (∀ g, g < 4 → (d.group g).state ≠ 2 → (e.group g).selfRefresh = false))))) ∧
  (∀ (s : State) (word : BitVec 32) (edges : Nat), s.Steady → (word ≠ 0xA5C33C5A ∨ edges ≠ 32) → Becomes (.svpWakePattern word edges) s s.dev)

/-! Resets and startup. -/

/-- SYS_RST_N low for 1 µs is a device reset, and the device stays in reset: memory is zero, rings, operations and commits are gone, links are down, while
DEVTIME, the wake registers, the flash and the fuses stay (R442, R447, R455). A ramp of VDD_AON resets the plinth as well (R442, R448, R530). When SYS_RST_N rises with
REFCLK in range, the device is READY within R449's bounds from the confirmed slot or the other one, or in RECOVERY when neither passes (R449, R452, R453);
REFCLK's return releases a reset that waited for it (R531). PERST_N and the link to L0 as R440 and R450 have them. -/
def Obligations.ResetsAndStartup : Prop :=
  (∀ (s : State) (lowNs : Nat), s.Steady →
    ((s.dev.board.sysRstLow = true ∨ lowNs < 1000) → Becomes (.sysRstNFall lowNs) s s.dev) ∧
    (s.dev.board.sysRstLow = false → 1000 ≤ lowNs → Does (.sysRstNFall lowNs) s (fun e =>
      e.now = s.dev.now ∧ e.board = { s.dev.board with sysRstLow := true } ∧ e.boot.stage = .held ∧ e.boot.resets = satInc s.dev.boot.resets ∧
      e.boot.fuses = s.dev.boot.program ∧ (∀ a, cellGet e.mem a = 0) ∧ (∀ g, e.ring g = Ring.atReset) ∧ e.ops = [] ∧ e.commits = [] ∧ e.publication = 0 ∧
      e.power.wakeEn = s.dev.power.wakeEn ∧ e.power.wakeSrc = s.dev.power.wakeSrc ∧ e.power.wakeAt = s.dev.power.wakeAt ∧ e.flash = s.dev.flash.untried ∧
      e.safety.state = 0 ∧ e.safety.faultN = (s.dev.safety.faultN && decide (s.dev.safety.state ≠ 2)) ∧
      (∀ p, p < 4 → (e.port p).link = .down ∧ (e.port p).perst = (s.dev.port p).perst)))) ∧
  (∀ s : State, s.Steady → s.dev.board.sysRstLow = true → Does .vddAonRamp s (fun e =>
    e.now = 0 ∧ e.boot.stage = .held ∧ e.boot.resets = 0 ∧ e.power.wakeEn = Power.atReset.wakeEn ∧ e.power.wakeSrc = Power.atReset.wakeSrc ∧
    e.safety.faultN = false ∧ e.safety.queue = [] ∧ (∀ a, cellGet e.mem a = 0) ∧ e.boot.fuses = s.dev.boot.program ∧ e.flash = s.dev.flash.untried)) ∧
  (∀ (s : State) (ns mv : Nat), s.Steady →
    Becomes .vddAonRamp s s.dev.vddAonRamp.settle ∧
    (mv < 650 → 1000 < ns → Becomes (.vddAonDrop ns mv) s s.dev.vddAonRamp.settle) ∧ ((650 ≤ mv ∨ ns ≤ 1000) → Becomes (.vddAonDrop ns mv) s s.dev)) ∧
  (∀ (s : State) (at_ : Nat) (env : BootEnv), s.Steady →
    (s.dev.board.sysRstLow = false → Becomes (.sysRstNRise at_ env) s s.dev) ∧
    (s.dev.board.sysRstLow = true → Becomes (.sysRstNRise at_ env) s
      ((({ s.dev with now := Nat.max s.dev.now at_, board := { s.dev.board with sysRstLow := false } } : Dev).bootRun env).settle))) ∧
  (∀ (d : Dev) (env : BootEnv), (d.board.sysRstLow = true ∨ d.board.refclkOk = false) → d.bootRun env = { d with board := { d.board with env := env } }) ∧
  (∀ (d : Dev) (env : BootEnv) (first : Bool), d.board.sysRstLow = false → d.board.refclkOk = true → first = (d.flash.dirValid && d.flash.confirmedSlot) →
    (d.slotBoots first env = false → d.slotBoots (!first) env = false → (d.bootRun env).boot.stage = .recovery ∧ (d.bootRun env).now = d.now) ∧
    ((d.slotBoots first env = true ∨ d.slotBoots (!first) env = true) →
      (d.bootRun env).boot.stage = .ready ∧ (d.bootRun env).boot.readyAt = BitVec.ofNat 64 (d.bootRun env).now ∧ d.now ≤ (d.bootRun env).now ∧
      (d.bootRun env).now < d.now + 558700000 ∧
      (d.bootRun env).boot.slotB = (if d.slotBoots first env = true then first else !first) ∧
      (d.bootRun env).boot.otherSlot = !(d.slotBoots first env) ∧
      (∀ p, p < 4 → ((d.bootRun env).port p).link = (if (d.port p).perst = true then .training else .down)) ∧
      (d.bootRun env).audio.running = true ∧ (d.bootRun env).audio.count = 0)) ∧
  (∀ (s : State) (p : Fin 4) (high : Bool) (x : Port), s.Steady → x = s.dev.port p.val →
    (x.perst = high → Becomes (.perstN p high) s s.dev) ∧
    (x.perst = false → high = true → s.dev.boot.stage ≠ .held → s.dev.freeze.at_ = none →
      Becomes (.perstN p high) s (s.dev.setPort p.val { x with perst := true, link := .training })) ∧
    (x.perst = false → high = true → (s.dev.boot.stage = .held ∨ s.dev.freeze.at_ ≠ none) →
      Becomes (.perstN p high) s (s.dev.setPort p.val { x with perst := true })) ∧
    (x.perst = true → high = false → (s.dev.boot.stage ≠ .ready ∨ s.dev.freeze.at_ ≠ none) →
      Becomes (.perstN p high) s (s.dev.setPort p.val { x with perst := false, link := .down })) ∧
    (x.perst = true → high = false → s.dev.boot.stage = .ready → s.dev.freeze.at_ = none →
      Becomes (.perstN p high) s (((s.dev.setPort p.val { x with perst := false, link := .down }).portReset p.val).settle)) ∧
    ((x.perst = false ∨ s.dev.boot.stage = .held ∨ s.dev.freeze.at_ ≠ none ∨ x.link = .l0) → Becomes (.hostLinkL0 p) s s.dev) ∧
    (x.perst = true → s.dev.boot.stage ≠ .held → s.dev.freeze.at_ = none → x.link ≠ .l0 → Becomes (.hostLinkL0 p) s
      { s.dev.setPort p.val (({ x with link := .l0 } : Port).ptmPending s.dev.now) with power := { s.dev.power with wakeN := setBit s.dev.power.wakeN p.val false } })) ∧
  (∀ (s : State) (at_ : Nat) (d : Dev), s.Steady →
    d = { s.dev with
          now := Nat.max s.dev.now at_, board := { s.dev.board with refclkOk := true }, safety := { s.dev.safety with refclkLost := false } } →
    Becomes .refclkLoss s { s.dev with board := { s.dev.board with refclkOk := false }, safety := { s.dev.safety with refclkLost := true } } ∧
    ((s.dev.board.refclkOk = true ∨ s.dev.boot.stage ≠ .held) → Becomes (.refclkReturn at_) s d) ∧
    (s.dev.board.refclkOk = false → s.dev.boot.stage = .held → Becomes (.refclkReturn at_) s (d.bootRun d.board.env).settle))

/-! Update engine and settings. -/

/-- A command of the update engine for an operation that it serves: its function may send it, and word 0 holds nothing above its named bits. -/
def Sys2Proof.Machine.Updates (s : State) (id : OpId) (kind low : Nat) (managerOnly : Bool) (o : Op) : Prop :=
  Works s id 9 kind 2 o ∧ (managerOnly = true → o.fn = s.dev.manager) ∧ fld (o.word 0) low (72 - low) = 0

/-- Activation, confirmation and return (R478 to R485). ACTIVATE checks the whole staged image, a failure ends the session ST_VERIFY; the handover, the return and the end
of a confirmation follow at a frame boundary, when TRIAL begins, or a return where the settings cannot be migrated. CONFIRM and REVERT act only in
TRIAL, and AUTO_CONFIRM_EXPIRY when its time has come. -/
def Obligations.ActivationAndTrial : Prop :=
  (∀ (s : State) (id : OpId) (o : Op) (at_ : Nat) (w : W72), Works s id 9 5 2 o → w = o.word 0 →
    (o.fn ≠ s.dev.manager → Becomes (.activate id at_) s (s.dev.finish id 0x11 none)) ∧
    (o.fn = s.dev.manager → fld w 32 40 ≠ 0 → Becomes (.activate id at_) s (s.dev.finish id 0x10 none)) ∧
    (o.fn = s.dev.manager → fld w 32 40 = 0 → s.dev.update.session = none → Becomes (.activate id at_) s (s.dev.finish id 0x40 none)) ∧
    (∀ x, o.fn = s.dev.manager → fld w 32 40 = 0 → s.dev.update.session = some x → s.dev.update.activateOp ≠ some id →
      ((fld w 17 3 ≠ 0 ∨ (bit w 16 = true ∧ fld w 20 12 = 0)) → Becomes (.activate id at_) s (s.dev.finish id 0x10 none)) ∧
      (fld w 17 3 = 0 → (bit w 16 = false ∨ fld w 20 12 ≠ 0) →
        ((s.dev.update.state ≠ 2 ∨ x.number.toNat ≠ fld w 0 16) → Becomes (.activate id at_) s (s.dev.finish id 0x40 none)) ∧
        (s.dev.update.state = 2 → x.number.toNat = fld w 0 16 → ∀ d, d = ({ s.dev with now := Nat.max s.dev.now at_ } : Dev).setUpdState 3 →
          (s.dev.imageOk x = false → Becomes (.activate id at_) s ((d.sessionEnd 2).finish id 0x41 none)) ∧
          (s.dev.imageOk x = true → d.boundarySince d.now = false → Does (.activate id at_) s (fun e =>
            e.update.state = 3 ∧ e.update.activateOp = some id ∧ e.update.step = 1 ∧ d.now ≤ e.update.stepAt ∧
            e.update.stepAt ≤ d.now + (if s.dev.boot.fallback = true then 3020000000 else 65000000) ∧
            e.update.session = some { x with leaseEnd := d.now + 604800000000000 } ∧ e.update.autoConfirm = bit w 16 ∧
            e.update.confirmAt = fld w 20 12 * 1000000000 ∧ e.now = d.now ∧ e.ops = s.dev.ops ∧ e.flash = s.dev.flash ∧ e.rings = s.dev.rings ∧
            e.mem = s.dev.mem)))))) ∧
  (∀ (s : State) (id : OpId) (o : Op), Updates s id 6 0 true o → s.dev.update.confirmOp ≠ some id →
    (s.dev.inTrial = false → Becomes (.confirm id) s (s.dev.finish id 0x10 none)) ∧
    (s.dev.inTrial = true → Becomes (.confirm id) s
      (({ s.dev.confirmBegin with update := { s.dev.confirmBegin.update with confirmOp := some id } } : Dev).settle))) ∧
  (∀ (s : State) (at_ : Nat) (d : Dev), s.Steady → d = { s.dev with now := Nat.max s.dev.now at_ } →
    (s.dev.runs 2 = true → s.dev.inTrial = true → s.dev.update.autoConfirm = true → s.dev.update.confirmAt ≤ d.now →
      Becomes (.autoConfirmExpiry at_) s d.confirmBegin.settle) ∧
    ((s.dev.runs 2 = false ∨ s.dev.inTrial = false ∨ s.dev.update.autoConfirm = false ∨ d.now < s.dev.update.confirmAt) →
      Becomes (.autoConfirmExpiry at_) s s.dev)) ∧
  (∀ (s : State) (id : OpId) (o : Op), Updates s id 7 0 true o → s.dev.update.revertOp ≠ some id →
    (s.dev.inTrial = false → Becomes (.revert id) s (s.dev.finish id 0x10 none)) ∧
    (s.dev.inTrial = true → Becomes (.revert id) s
      (({ s.dev.beginReturn 4 with update := { (s.dev.beginReturn 4).update with revertOp := some id } } : Dev).settle))) ∧
  (∀ d : Dev, (d.update.step = 0 ∨ d.runs 2 = false ∨ d.boundarySince d.update.stepAt = false) → d.updateStep = d) ∧
  (∀ d : Dev, d.update.step = 1 → d.runs 2 = true → d.boundarySince d.update.stepAt = true →
    (d.migrates = true → if d.migrationFails = true then
        d.updateStep.update.state = 5 ∧ d.updateStep.update.step = 2 ∧ d.updateStep.update.returnOutcome = 3 ∧
        (if d.flash.activeArea then d.updateStep.flash.area0 else d.updateStep.flash.area1).valid = false
      else d.updateStep.update.state = 4 ∧ d.updateStep.update.step = 0 ∧ d.updateStep.flash.trialArea = some (!d.flash.activeArea)) ∧
    (d.migrates = false → d.updateStep.update.state = 5 ∧ d.updateStep.update.step = 2) ∧
    d.updateStep.update.trialAt = BitVec.ofNat 64 d.now ∧ (∀ k t, k < 8 → t < 4 → (d.fwt k t).started = true → (d.updateStep.fwt k t).started = false) ∧
    (d.updateStep.fwt 8 0).started = true) ∧
  (∀ d : Dev, d.update.step = 2 → d.runs 2 = true → d.boundarySince d.update.stepAt = true →
    d.updateStep.update.state = 2 ∧ d.updateStep.update.step = 0 ∧ d.updateStep.update.outcome = d.update.returnOutcome ∧
    d.updateStep.flash.trialSlot = none ∧ d.updateStep.flash.trialArea = none) ∧
  (∀ d : Dev, d.update.step ≠ 0 → d.update.step ≠ 1 → d.update.step ≠ 2 → d.runs 2 = true → d.boundarySince d.update.stepAt = true →
    d.updateStep.update.state = 0 ∧ d.updateStep.update.step = 0 ∧ d.updateStep.update.outcome = 1 ∧ d.updateStep.update.session = none) ∧
  (∀ d : Dev, d.confirmBegin.flash.confirmedSlot = d.flash.trialSlot.getD d.flash.confirmedSlot ∧ d.confirmBegin.flash.trialSlot = none ∧
    d.confirmBegin.flash.activeArea = d.flash.trialArea.getD d.flash.activeArea ∧ d.confirmBegin.update.step = 3)

/-- Staging sessions (R472 to R477). One session at a time: SESSION_OPEN makes one, joins one with the same digest, or is told that the engine is busy; a piece is taken
in its order, once, when its hash is that of the digest or of the piece table; STATUS stores the map of held pieces; CANCEL, by the manager, and the end
of the lease of seven days empty the slot.
Settings (R456, R487 to R490). SETTINGS_WRITE, of the manager, replaces an item of a known TAG, INDEX and LENGTH whose data keep their rules, or deletes it, but
not a sealed item in FIELD nor while an image is activated or tried; SETTINGS_READ stores an item's data and answers its length, ST_CORRUPT when it is
not readable. -/
def Obligations.SessionsAndSettings : Prop :=
  (∀ (s : State) (id : OpId) (o : Op) (mk : OpId → Instr) (kind low : Nat) (man : Bool), Works s id 9 kind 2 o →
    ((mk = Instr.sessionOpen ∧ kind = 1 ∧ low = 1 ∧ man = false) ∨ (mk = Instr.piecePut ∧ kind = 2 ∧ low = 25 ∧ man = false) ∨
      (mk = Instr.sessionStatus ∧ kind = 3 ∧ low = 16 ∧ man = false) ∨ (mk = Instr.sessionCancel ∧ kind = 4 ∧ low = 16 ∧ man = true) ∨
      (mk = Instr.confirm ∧ kind = 6 ∧ low = 0 ∧ man = true) ∨ (mk = Instr.revert ∧ kind = 7 ∧ low = 0 ∧ man = true) ∨
      (mk = Instr.settingsWrite ∧ kind = 8 ∧ low = 64 ∧ man = true) ∨ (mk = Instr.settingsRead ∧ kind = 9 ∧ low = 32 ∧ man = true)) →
    (man = true → o.fn ≠ s.dev.manager → Becomes (mk id) s (s.dev.finish id 0x11 none)) ∧
    ((man = false ∨ o.fn = s.dev.manager) → fld (o.word 0) low (72 - low) ≠ 0 → Becomes (mk id) s (s.dev.finish id 0x10 none))) ∧
  (∀ (s : State) (id : OpId) (o : Op) (digest : List Byte), Updates s id 1 1 false o →
    digest = (List.range 6).flatMap (fun i => toBytes 8 (fld (o.word (i + 1)) 0 64)) →
    ((∃ i, i < 6 ∧ fld (o.word (i + 1)) 64 8 ≠ 0) → Becomes (.sessionOpen id) s (s.dev.finish id 0x10 none)) ∧
    ((∀ i, i < 6 → fld (o.word (i + 1)) 64 8 = 0) →
      (3 ≤ s.dev.update.state.toNat → ∀ x, s.dev.update.session = some x → Becomes (.sessionOpen id) s (s.dev.finish id 0x40 (some x.number.toNat))) ∧
      (s.dev.update.state.toNat < 3 → s.dev.update.session = none →
        Becomes (.sessionOpen id) s ((s.dev.sessionStart digest o.fn).finish id 0 (some (nextSession s.dev.update.lastNumber).toNat))) ∧
      (s.dev.update.state.toNat < 3 → ∀ x, s.dev.update.session = some x →
        (x.digest = digest → Becomes (.sessionOpen id) s (s.dev.finish id 0 (some (x.number.toNat + 2 ^ 16)))) ∧
        (x.digest ≠ digest → (bit (o.word 0) 0 = false ∨ o.fn ≠ s.dev.manager) → Becomes (.sessionOpen id) s (s.dev.finish id 0x40 (some x.number.toNat))) ∧
        (x.digest ≠ digest → bit (o.word 0) 0 = true → o.fn = s.dev.manager →
          Becomes (.sessionOpen id) s (((s.dev.sessionEnd 7).sessionStart digest o.fn).finish id 0 (some (nextSession s.dev.update.lastNumber).toNat)))))) ∧
  (∀ n : BitVec 16, nextSession n ≠ 0) ∧
  (∀ (d : Dev) (digest : List Byte) (f : Nat), (d.sessionStart digest f).update.state = 1 ∧
    (d.sessionStart digest f).update.session = some { number := nextSession d.update.lastNumber, digest := digest, opener := f, slotB := !d.flash.confirmedSlot
                                                      pieces := 0, held := [], leaseEnd := d.now + 604800000000000 } ∧
    (d.sessionStart digest f).flash.slot (!d.flash.confirmedSlot) = { state := 1, pieces := [] }) ∧
  (∀ (d : Dev) (x : Session) (outcome : BitVec 4), d.update.session = some x → (d.sessionEnd outcome).update.session = none ∧
    (d.sessionEnd outcome).update.state = 0 ∧ (d.sessionEnd outcome).update.outcome = outcome ∧ (d.sessionEnd outcome).flash.slot x.slotB = { state := 0, pieces := [] }) ∧
  (∀ (s : State) (id : OpId) (o : Op) (k : Nat), Updates s id 2 25 false o → k = fld (o.word 0) 16 9 →
    (s.dev.pieceWaits o = true → Becomes (.piecePut id) s s.dev) ∧
    (s.dev.pieceWaits o = false → lineAddr (o.word 1) = false → Becomes (.piecePut id) s (s.dev.finish id 0x10 none)) ∧
    (s.dev.pieceWaits o = false → lineAddr (o.word 1) = true →
      (s.dev.update.session = none → Becomes (.piecePut id) s (s.dev.finish id 0x40 none)) ∧
      (∀ x, s.dev.update.session = some x →
        (x.number.toNat ≠ fld (o.word 0) 0 16 → Becomes (.piecePut id) s (s.dev.finish id 0x40 none)) ∧
        (x.number.toNat = fld (o.word 0) 0 16 → x.held.contains k = true →
          Becomes (.piecePut id) s (s.dev.finish id 0 (some (s.dev.pieceResult true)))) ∧
        (x.number.toNat = fld (o.word 0) 0 16 → x.held.contains k = false → k ≠ 0 → (x.held.contains 0 = false ∨ x.pieces < k) →
          Becomes (.piecePut id) s (s.dev.finish id 0x10 none)) ∧
        (x.number.toNat = fld (o.word 0) 0 16 → x.held.contains k = false → (k = 0 ∨ (x.held.contains 0 = true ∧ k ≤ x.pieces)) →
          ∀ (hdr : List Byte) (d1 : Dev), hdr = tget (s.dev.flash.slot x.slotB).pieces 0 [] →
          (∀ cause va, s.dev.readV o.fn (fld (o.word 1) 0 48) (pieceLen hdr k) .read = (d1, .error (cause, va)) →
            Becomes (.piecePut id) s (d1.opFault id o.fn cause va)) ∧
          (∀ bytes, s.dev.readV o.fn (fld (o.word 1) 0 48) (pieceLen hdr k) .read = (d1, .ok bytes) →
            (sha384 bytes ≠ (if k = 0 then x.digest else pieceHash hdr k) → Becomes (.piecePut id) s (d1.finish id 0x41 none)) ∧
            (sha384 bytes = (if k = 0 then x.digest else pieceHash hdr k) → k = 0 → hdrOk bytes = false → Becomes (.piecePut id) s (d1.finish id 0x10 none)) ∧
            (sha384 bytes = (if k = 0 then x.digest else pieceHash hdr k) → (k ≠ 0 ∨ hdrOk bytes = true) →
              Becomes (.piecePut id) s ((d1.pieceStore x k bytes).finish id 0 (some ((d1.pieceStore x k bytes).pieceResult false))))))))) ∧
  (∀ (d : Dev) (x : Session) (k : Nat) (bytes : List Byte) (n : Nat), n = (if k = 0 then hdrPieces bytes else x.pieces) →
    (d.pieceStore x k bytes).update.session = some { x with pieces := n, held := x.held ++ [k], leaseEnd := d.now + 604800000000000 } ∧
    tget ((d.pieceStore x k bytes).flash.slot x.slotB).pieces k [] = bytes ∧ (x.held.length = n → (d.pieceStore x k bytes).update.state = 2) ∧
    (x.held.length ≠ n → (d.pieceStore x k bytes).update.state = d.update.state)) ∧
  (∀ (s : State) (id : OpId) (o : Op), Updates s id 3 16 false o →
    (lineAddr (o.word 1) = false → Becomes (.sessionStatus id) s (s.dev.finish id 0x10 none)) ∧
    (lineAddr (o.word 1) = true → (∀ x, s.dev.update.session = some x → x.number.toNat ≠ fld (o.word 0) 0 16) →
      Becomes (.sessionStatus id) s (s.dev.finish id 0x40 none)) ∧
    (∀ (x : Session) (d1 : Dev) (l : List Byte), lineAddr (o.word 1) = true → s.dev.update.session = some x → x.number.toNat = fld (o.word 0) 0 16 →
      l = toBytes 8 (x.number.toNat + s.dev.update.state.toNat * 2 ^ 16 + x.held.length * 2 ^ 24 + x.pieces * 2 ^ 40) ++
        (List.range 4).flatMap (fun i => toBytes 8 (((List.range 64).map (fun j => if x.held.contains (64 * i + j) = true then 2 ^ j else 0)).foldl (· + ·) 0)) →
      (s.dev.writeV o.fn (fld (o.word 1) 0 48) l = (d1, .ok ()) → Becomes (.sessionStatus id) s (d1.finish id 0 none)) ∧
      (∀ cause va, s.dev.writeV o.fn (fld (o.word 1) 0 48) l = (d1, .error (cause, va)) → Becomes (.sessionStatus id) s (d1.opFault id o.fn cause va)))) ∧
  (∀ (s : State) (id : OpId) (o : Op), Updates s id 4 16 true o →
    (s.dev.update.session = none → Becomes (.sessionCancel id) s (s.dev.finish id 0x40 none)) ∧
    (∀ x, s.dev.update.session = some x →
      ((x.number.toNat ≠ fld (o.word 0) 0 16 ∨ 3 ≤ s.dev.update.state.toNat) → Becomes (.sessionCancel id) s (s.dev.finish id 0x40 none)) ∧
      (x.number.toNat = fld (o.word 0) 0 16 → s.dev.update.state.toNat < 3 → Becomes (.sessionCancel id) s ((s.dev.sessionEnd 7).finish id 0 none)))) ∧
  (∀ (s : State) (at_ : Nat) (d : Dev), s.Steady → d = { s.dev with now := Nat.max s.dev.now at_ } →
    (s.dev.update.session = none → Becomes (.leaseExpiry at_) s s.dev) ∧
    (∀ x, s.dev.update.session = some x →
      (s.dev.boot.stage = .ready → s.dev.freeze.at_ = none → s.dev.update.state.toNat < 3 → x.leaseEnd ≤ d.now → Becomes (.leaseExpiry at_) s (d.sessionEnd 8)) ∧
      ((s.dev.boot.stage ≠ .ready ∨ s.dev.freeze.at_ ≠ none ∨ 3 ≤ s.dev.update.state.toNat ∨ d.now < x.leaseEnd) → Becomes (.leaseExpiry at_) s s.dev))) ∧
  (∀ (s : State) (id : OpId) (o : Op) (tag index len : Nat), Updates s id 8 64 true o → tag = fld (o.word 0) 0 16 → index = fld (o.word 0) 16 16 →
    len = fld (o.word 0) 32 32 →
    (3 ≤ s.dev.update.state.toNat → Becomes (.settingsWrite id) s (s.dev.finish id 0x40 none)) ∧
    (s.dev.update.state.toNat < 3 → (fld (o.word 1) 48 24 ≠ 0 ∨ itemShape tag len = none) → Becomes (.settingsWrite id) s (s.dev.finish id 0x10 none)) ∧
    (s.dev.update.state.toNat < 3 → fld (o.word 1) 48 24 = 0 → ∀ lo hi ok, itemShape tag len = some (lo, hi, ok) →
      ((index < lo ∨ hi ≤ index ∨ (ok = false ∧ len ≠ 0) ∨ (s.dev.boot.fuses.lifecycle = 2 ∧ itemSealed tag = true)) →
        Becomes (.settingsWrite id) s (s.dev.finish id 0x10 none)) ∧
      (lo ≤ index → index < hi → (ok = true ∨ len = 0) → (s.dev.boot.fuses.lifecycle ≠ 2 ∨ itemSealed tag = false) → ∀ d1,
        (∀ cause va, s.dev.readV o.fn (fld (o.word 1) 0 48) len .read = (d1, .error (cause, va)) → Becomes (.settingsWrite id) s (d1.opFault id o.fn cause va)) ∧
        (∀ b, s.dev.readV o.fn (fld (o.word 1) 0 48) len .read = (d1, .ok b) →
          (len ≠ 0 → itemOk tag index b = false → Becomes (.settingsWrite id) s (d1.finish id 0x10 none)) ∧
          ((len = 0 ∨ itemOk tag index b = true) →
            Becomes (.settingsWrite id) s ((d1.setFlash (d1.flash.putItem d1.flash.activeArea tag index b)).finish id 0 none)))))) ∧
  (∀ (s : State) (id : OpId) (o : Op) (a : Area), Updates s id 9 32 true o → a = (if s.dev.flash.areaNow = true then s.dev.flash.area1 else s.dev.flash.area0) →
    ((fld (o.word 1) 48 24 ≠ 0 ∨ s.dev.flash.dirValid = false ∨ a.valid = false ∨ a.item (fld (o.word 0) 0 16) (fld (o.word 0) 16 16) = none) →
      Becomes (.settingsRead id) s (s.dev.finish id 0x10 none)) ∧
    (fld (o.word 1) 48 24 = 0 → s.dev.flash.dirValid = true → a.valid = true → ∀ i, a.item (fld (o.word 0) 0 16) (fld (o.word 0) 16 16) = some i →
      (i.readable = false → Becomes (.settingsRead id) s (s.dev.finish id 0x42 none)) ∧
      (i.readable = true → ∀ d1,
        (s.dev.writeV o.fn (fld (o.word 1) 0 48) i.data = (d1, .ok ()) → Becomes (.settingsRead id) s (d1.finish id 0 (some i.data.length))) ∧
        (∀ cause va, s.dev.writeV o.fn (fld (o.word 1) 0 48) i.data = (d1, .error (cause, va)) → Becomes (.settingsRead id) s (d1.opFault id o.fn cause va)))))

/-! Self-test, the safety manager and the scrubber. -/

/-- A fault record (R499 to R503): unless the pair is halted, SEQ counts it, it enters the queue of 64 or is counted lost, its action of the class, raised by one
when the class has come ESCALATE times within a second, is taken: SM_FAULT_N from REPORT on, FORCE from 2, a device reset for 3, a freeze for 4. Nothing
else changes with the record; the reset or the freeze follows at once. -/
def Obligations.FaultRecords : Prop :=
  (∀ (d : Dev) (cls : Nat) (locus : W72) (fn : Option Nat) (a b act : Nat) (r : Rec) (times : List Nat), d.safety.state ≠ 2 →
    times = (tget d.safety.arrivals cls []).filter (fun t => decide (d.now < t + 1000000000)) ++ [d.now] →
    act = (if fld (d.policy cls) 8 8 ≠ 0 ∧ fld (d.policy cls) 8 8 ≤ times.length then Nat.min 4 (fld (d.policy cls) 0 3 + 1) else fld (d.policy cls) 0 3) →
    r = { locus := locus, cls := BitVec.ofNat 8 cls, stamp := d.now, seq := d.safety.seq + 1, fn := fn, lost := d.safety.lostMark, action := BitVec.ofNat 3 act
          dataA := BitVec.ofNat 64 a, dataB := (if d.safety.refclkLost = true then setBit (BitVec.ofNat 64 b) 63 true else BitVec.ofNat 64 b) } →
    (d.smRecord cls locus fn a b).safety.seq = d.safety.seq + 1 ∧
    (d.safety.queue.length < 64 → (d.smRecord cls locus fn a b).safety.queue = d.safety.queue ++ [r] ∧
      (d.smRecord cls locus fn a b).safety.lost = d.safety.lost ∧ (d.smRecord cls locus fn a b).safety.lostMark = false) ∧
    (64 ≤ d.safety.queue.length → (d.smRecord cls locus fn a b).safety.queue = d.safety.queue ∧
      (d.smRecord cls locus fn a b).safety.lost = satInc d.safety.lost ∧ (d.smRecord cls locus fn a b).safety.lostMark = true) ∧
    (d.smRecord cls locus fn a b).safety.faultN = (d.safety.faultN || decide (1 ≤ act)) ∧
    (act < 2 → (d.smRecord cls locus fn a b).safety.forceWanted = d.safety.forceWanted) ∧
    (2 ≤ act → (d.smRecord cls locus fn a b).safety.forceWanted = d.safety.forceWanted ||| BitVec.ofNat 12 (d.forcePipes locus)) ∧
    (d.smRecord cls locus fn a b).safety.escalate = (d.safety.escalate || decide (act = 3)) ∧
    (d.smRecord cls locus fn a b).safety.freezeWanted = (d.safety.freezeWanted || decide (4 ≤ act)) ∧
    { d.smRecord cls locus fn a b with safety := d.safety } = d) ∧
  (∀ (d : Dev) (cls : Nat) (locus : W72) (fn : Option Nat) (a b : Nat), d.safety.state = 2 → d.smRecord cls locus fn a b = d) ∧
  (∀ d : Dev, d.update.step = 0 → d.safety.freezeWanted = false → d.safety.escalate = true → d.settle = d.resetAndBoot d.board.env) ∧
  (∀ d : Dev, d.update.step = 0 → d.safety.freezeWanted = true → d.safety.escalate = false → d.freeze.at_ = none → d.freezeAllowed = true →
    d.settle.freeze.at_ = some d.now ∧ d.settle.freeze.source = 2 ∧ d.settle.safety.faultN = true ∧ (∀ p, p < 4 → (d.settle.port p).link = .down))

/-- Self-test (R507 to R509). The operations belong to the manager; CORE_TEST takes the named cores in service one at a time out of service, its result counting
tested and failed ones; PIPE_TEST and DRAM_TEST answer with the failed ones of the enabled pipes and of the groups, ST_MEM_LOST for a fenced group; a failed
element is recorded. The scheduled test records a failure alone, and a failed core stays out of service. -/
def Obligations.SelfTests : Prop :=
  (∀ (s : State) (id : OpId) (o : Op) (i : Instr) (kind named : Nat), Works s id 10 kind 3 o →
    ((∃ m, i = .coreTest id m ∧ kind = 1 ∧ named = 0xFFFF) ∨ (∃ m, i = .pipeTest id m ∧ kind = 2 ∧ named = 0x1F0FFF) ∨
      (∃ m, i = .dramTest id m ∧ kind = 3 ∧ named = 0xF)) →
    (o.fn ≠ s.dev.manager → Becomes i s (s.dev.finish id 0x11 none)) ∧
    (o.fn = s.dev.manager → Nat.land (o.word 0).toNat (2 ^ 72 - 1 - named) ≠ 0 → Becomes i s (s.dev.finish id 0x10 none))) ∧
  (∀ (s : State) (id : OpId) (o : Op) (failed : BitVec 16), Works s id 10 1 3 o → o.fn = s.dev.manager → Nat.land (o.word 0).toNat (2 ^ 72 - 1 - 0xFFFF) = 0 →
    (s.dev.runs 4 = true → fld (o.word 0) 0 16 = 0 → Becomes (.coreTest id failed) s (s.dev.finish id 0x10 none)) ∧
    (∀ c, s.dev.runs 4 = true → c < 16 → fld (o.word 0) 0 16 = 2 ^ c → s.dev.safety.tests = [] → s.dev.inService c = true →
      (∀ k, k < 16 → (s.dev.coreOf k).inTest = false) →
      (s.dev.atBoundary c = true → Does (.coreTest id failed) s (fun e =>
        (e.coreOf c).inTest = true ∧ (e.coreOf c).gated = false ∧ e.safety.tests = [{ id := id, kind := 1, left := [c], tested := 0, failed := 0 }] ∧
        (∀ k, k ≠ c → e.coreOf k = s.dev.coreOf k) ∧ e.ops = s.dev.ops)) ∧
      (s.dev.atBoundary c = false → Does (.coreTest id failed) s (fun e =>
        (e.coreOf c).testWanted = true ∧ (e.coreOf c).inTest = false ∧ e.op id = some { o with deferred := true }))) ∧
    (∀ c, s.dev.runs 4 = true → c < 16 → fld (o.word 0) 0 16 = 2 ^ c → s.dev.safety.tests = [{ id := id, kind := 1, left := [c], tested := 0, failed := 0 }] →
      (s.dev.coreOf c).inTest = true → (s.dev.coreOf c).resetAt = none → (∀ k, k < c → (s.dev.coreOf k).inTest = false) → bit failed c = false →
      Does (.coreTest id failed) s (fun e =>
        (e.coreOf c).inTest = false ∧ (e.coreOf c).failed = (s.dev.coreOf c).failed ∧ e.safety.tests = [] ∧
        e.op id = some { o with phase := .finished, status := 0, result := some (1 * 2 ^ 16) }))) ∧
  (∀ (s : State) (id : OpId) (o : Op) (failed : BitVec 12) (l bad : List Nat), Works s id 10 2 3 o → o.fn = s.dev.manager →
    Nat.land (o.word 0).toNat (2 ^ 72 - 1 - 0x1F0FFF) = 0 → l = (maskBits 12 (fld (o.word 0) 0 12)).filter (fun p => s.dev.pipeOn p) →
    bad = l.filter (fun p => bit failed p) →
    ((fld (o.word 0) 0 12 = 0 ∨ s.dev.owner 0x0A (fld (o.word 0) 16 5) ≠ s.dev.manager ∨ s.dev.cvuOn (fld (o.word 0) 16 5) = true) →
      Becomes (.pipeTest id failed) s (s.dev.finish id 0x10 none)) ∧
    (fld (o.word 0) 0 12 ≠ 0 → s.dev.owner 0x0A (fld (o.word 0) 16 5) = s.dev.manager → s.dev.cvuOn (fld (o.word 0) 16 5) = false →
      Becomes (.pipeTest id failed) s (((s.dev.testFails 2 bad).finish id 0
        (some (l.length * 2 ^ 16 + (bad.map (fun p => 2 ^ p)).foldl (· + ·) 0))).settle))) ∧
  (∀ (s : State) (id : OpId) (o : Op) (failed : BitVec 4) (l bad : List Nat), Works s id 10 3 3 o → o.fn = s.dev.manager →
    Nat.land (o.word 0).toNat (2 ^ 72 - 1 - 0xF) = 0 → l = maskBits 4 (fld (o.word 0) 0 4) → bad = l.filter (fun g => bit failed g) →
    (l = [] → Becomes (.dramTest id failed) s (s.dev.finish id 0x10 none)) ∧
    (l ≠ [] → (∃ g ∈ l, (s.dev.group g).state = 2) → Becomes (.dramTest id failed) s (s.dev.finish id 0x21 none)) ∧
    (l ≠ [] → (∀ g ∈ l, (s.dev.group g).state ≠ 2) →
      Becomes (.dramTest id failed) s (((s.dev.testFails 3 bad).finish id 0
        (some (l.length * 2 ^ 16 + (bad.map (fun g => 2 ^ g)).foldl (· + ·) 0))).settle))) ∧
  (∀ (s : State) (kind : Fin 3) (element : Nat), s.Steady →
    Becomes (.scheduledSelftest kind element true) s s.dev ∧ (s.dev.runs 3 = false → ∀ ok, Becomes (.scheduledSelftest kind element ok) s s.dev) ∧
    (s.dev.runs 3 = true → kind.val = 0 → element < 16 → s.dev.inService element = true → s.dev.atBoundary element = true → s.dev.runs 4 = true →
      (∀ k, k < 16 → (s.dev.coreOf k).inTest = false) →
      Becomes (.scheduledSelftest kind element false) s
        (((s.dev.setCore element { s.dev.coreOf element with failed := true }).smRecord 0x31 (locusEngine 0x03 element) none 1 element).settle)) ∧
    (s.dev.runs 3 = true → kind.val = 1 → element < 12 → s.dev.pipeOn element = true →
      Becomes (.scheduledSelftest kind element false) s (s.dev.smRecord 0x31 (locusEngine 0x05 element) none 2 element).settle) ∧
    (s.dev.runs 3 = true → kind.val = 2 → element < 4 → (s.dev.group element).state ≠ 2 →
      Becomes (.scheduledSelftest kind element false) s (s.dev.smRecord 0x31 (chanLocus (4 * element)) none 3 element).settle)) ∧
  (∀ (d : Dev) (n : Nat), (d.coreOf n).failed = true → d.inService n = false)

/-- What the safety manager watches (R390, R391, R395, R484, R495 to R498, R505, R506, R510). A mismatch of its pair restarts it, a second one within a second halts it, and the end
of a restart records LOCKSTEP; a monitor's fault is recorded, a sensor far from the median excluded; a firmware thread without service for 10 ms is recorded and its
core reset, for AX0 in TRIAL the return begins; a heartbeat that is late is recorded once. The clocks in SHOWCASE are those of R427. The scrubber counts what it corrects, and lists, counts and
records what it cannot; pixels of a poisoned strip line read as transparent black. -/
def Obligations.MonitorsAndScrubber : Prop :=
  (∀ (s : State) (at_ : Nat) (d : Dev) (x : Safety), s.Steady → d = { s.dev with now := Nat.max s.dev.now at_ } → x = s.dev.safety →
    ((s.dev.boot.stage = .held ∨ x.state = 2 ∨ s.dev.power.state = .standby) → Becomes (.lockstepMismatch at_) s s.dev) ∧
    (s.dev.boot.stage ≠ .held → x.state ≠ 2 → s.dev.power.state ≠ .standby →
      (∀ t, x.mismatchAt = some t → d.now < t + 1000000000 →
        Becomes (.lockstepMismatch at_) s { d with safety := { x with faultN := true, state := 2, restarting := false } }) ∧
      ((x.mismatchAt = none ∨ ∃ t, x.mismatchAt = some t ∧ t + 1000000000 ≤ d.now) →
        Becomes (.lockstepMismatch at_) s { d with safety := { x with faultN := true, restarting := true, mismatchAt := some d.now } })) ∧
    ((x.restarting = false ∨ x.state = 2) → Becomes (.smRestartDone at_) s s.dev) ∧
    (x.restarting = true → x.state ≠ 2 → Becomes (.smRestartDone at_) s
      ((({ d with safety := { x with restarting := false, state := 1 } } : Dev).smRecord 0x24 (locusEngine 0x0C 0) none 1 0).settle))) ∧
  (∀ (s : State), s.Steady →
    (s.dev.smRuns = false → ∀ m, Becomes (.monitorFault m) s s.dev) ∧
    (s.dev.smRuns = true →
      (∀ (rail : Fin 10) (mv level : Nat), level = s.dev.power.levelMv rail.val →
        ((level = 0 ∨ 100 * ((mv : Int) - level).natAbs ≤ 5 * level) → Becomes (.monitorFault (.voltage rail mv)) s s.dev) ∧
        (level ≠ 0 → 5 * level < 100 * ((mv : Int) - level).natAbs → Becomes (.monitorFault (.voltage rail mv)) s
          (s.dev.smRecord 0x28 (railLocus rail.val) none mv (if mv < level then level * 95 / 100 else level * 105 / 100)).settle)) ∧
      (∀ (k : Fin 6) (khz nominal : Nat), nominal = s.dev.power.clockKhz k.val →
        ((nominal = 0 ∨ 10 * ((khz : Int) - nominal).natAbs ≤ nominal) → Becomes (.monitorFault (.clock k khz)) s s.dev) ∧
        (nominal ≠ 0 → nominal < 10 * ((khz : Int) - nominal).natAbs → Becomes (.monitorFault (.clock k khz)) s
          (s.dev.smRecord 0x29 (locusUnit 0x0C 0x00 (0x30 + k.val)) none khz nominal).settle)) ∧
      (∀ n reading median,
        ((bit s.dev.safety.excluded n.val = true ∨ (reading - median).natAbs ≤ 1500 ∨ s.dev.medianFits n.val reading median = false) →
          Becomes (.monitorFault (.tempSensor n reading median)) s s.dev) ∧
        (bit s.dev.safety.excluded n.val = false → 1500 < (reading - median).natAbs → s.dev.medianFits n.val reading median = true →
          Becomes (.monitorFault (.tempSensor n reading median)) s
            ((({ s.dev with safety := { s.dev.safety with excluded := setBit s.dev.safety.excluded n.val true } } : Dev).smRecord
              0x2B (locusEngine 0x0C (0x10 + n.val)) none (signed64 reading) (signed64 median)).settle))))) ∧
  (∀ p : Power, p.clockKhz 0 = 40000 ∧ p.clockKhz 1 = 6400000 ∧ p.clockKhz 5 = 400000 ∧
    (p.state ≠ .showcase → p.clockKhz 2 = 6400000 / p.shdDiv ∧ p.clockKhz 3 = 1280000 ∧ p.clockKhz 4 = 800000) ∧
    (p.state = .showcase → p.clockKhz 2 = 0 ∧ p.clockKhz 3 = 640000 ∧ p.clockKhz 4 = 0)) ∧
  (∀ (s : State) (core : Fin 10) (t : Fin 4) (at_ : Nat) (x : FwThread) (d : Dev), s.Steady → x = s.dev.fwt core.val t.val →
    d = ((({ s.dev with now := Nat.max s.dev.now at_ } : Dev).smRecord 0x20 (locusUnit 0x02 core.val 0x002) none (core.val * 256 + t.val) 0).restartFirmware core.val) →
    ((s.dev.smRuns = false ∨ s.dev.runs 3 = false ∨ x.started = false ∨ Nat.max s.dev.now at_ < x.lastWdog + 10000000 ∨
      (core.val = 8 ∧ s.dev.update.state ≠ 4)) → Becomes (.fwWatchdog core t at_) s s.dev) ∧
    (s.dev.smRuns = true → s.dev.runs 3 = true → x.started = true → x.lastWdog + 10000000 ≤ Nat.max s.dev.now at_ →
      (core.val < 8 → Becomes (.fwWatchdog core t at_) s (d.safetyReset 0x02 core.val).settle) ∧
      (core.val = 9 → Becomes (.fwWatchdog core t at_) s d.settle) ∧
      (core.val = 8 → s.dev.update.state = 4 → Becomes (.fwWatchdog core t at_) s (d.beginReturn 5).settle))) ∧
  (∀ (s : State) (at_ edge : Nat) (d : Dev) (x : Safety), s.Steady → x = s.dev.safety → edge = x.hbLast + x.hbPeriod * 1000000 →
    d = { s.dev with now := Nat.max s.dev.now at_, safety := { x with hbLate := true } } →
    ((s.dev.smRuns = false ∨ x.hbArmed = false ∨ x.hbPeriod = 0 ∨ x.hbLate = true ∨ Nat.max s.dev.now at_ ≤ edge) → Becomes (.heartbeatTimeout at_) s s.dev) ∧
    (s.dev.smRuns = true → x.hbArmed = true → x.hbPeriod ≠ 0 → x.hbLate = false → edge < Nat.max s.dev.now at_ →
      Becomes (.heartbeatTimeout at_) s (d.smRecord 0x38 (locusEngine 0x0C 0) none (signed64 ((d.now : Int) - edge)) x.hbCount.toNat).settle)) ∧
  (∀ (s : State) (place : ScrubPlace) (ok : Bool), s.Steady → (s.dev.awake = false ∨ s.dev.scrubs place = false) → Becomes (.scrub place ok) s s.dev) ∧
  (∀ (s : State) (a : Nat) (c : Nat), s.Steady → s.dev.awake = true → s.dev.scrubs (.dram a) = true → c = (dramLoc s.dev.dram a).chan →
    Becomes (.scrub (.dram a) true) s (s.dev.setChan c { s.dev.chan c with ce := satInc (s.dev.chan c).ce }) ∧
    Becomes (.scrub (.dram a) false) s
      (((s.dev.addPoison (a / 64)).setChan c { s.dev.chan c with ue := satInc (s.dev.chan c).ue }).smRecord 0x03 (chanLocus c) none a 0).settle) ∧
  (∀ (s : State) (l : W72), s.Steady → s.dev.awake = true →
    Becomes (.scrub (.sram l) true) s (s.dev.macroFix (macroOf l)).settle ∧ Becomes (.scrub (.sram l) false) s (s.dev.sramUe l none).settle) ∧
  (∀ (s : State) (a : Nat), s.Steady → s.dev.awake = true → regionOf s.dev.dram a = .dram →
    (s.dev.lineIn (a / 64) true = false → Becomes (.scrub (.cacheClean a) false) s (s.dev.countUe 0x0A)) ∧
    (s.dev.lineIn (a / 64) true = true → s.dev.poison.contains (a / 64) = true → Becomes (.scrub (.cacheDirty a) false) s s.dev) ∧
    (s.dev.lineIn (a / 64) true = true → s.dev.poison.contains (a / 64) = false →
      Becomes (.scrub (.cacheDirty a) false) s ((s.dev.addPoison (a / 64)).sramUe (sliceLocus a) none).settle)) ∧
  (∀ (s : State) (p : Fin 12) (row line : Nat) (x : PipeComp), s.Steady → s.dev.awake = true → s.dev.stripHeld p.val row line = true → x = s.dev.pc p.val →
    ((row, line) ∈ x.stripBad → Becomes (.scrub (.stripLine p row line) false) s s.dev) ∧
    ((row, line) ∉ x.stripBad → Becomes (.scrub (.stripLine p row line) false) s
      ((s.dev.setPc p.val { x with stripBad := (row, line) :: x.stripBad }).sramUe (stripLocus p.val row line) none).settle)) ∧
  (∀ (d : Dev) (p x y k : Nat) (fr : Frame) (c : Composition), d.vitrineOnly p = false → d.frameOf p = some fr → fr.kind = 2 → (d.pc p).chase = some c →
    y / c.stripH p ∉ (d.pc p).missed → c.stripDone p (y / c.stripH p) = true → (y, k) ∈ (d.pc p).stripBad → 64 * k < 9 * x + 9 → 9 * x < 64 * k + 64 →
    d.layerPx p x y = (d, 0)) ∧
  (∀ (d : Dev) (l : W72), ∃ fixes, (d.macroFix l).safety.macroFixes = fixes ++ [(l, d.now)] ∧
    tget (d.macroFix l).safety.ce (fld l 60 6) 0 = satInc (tget d.safety.ce (fld l 60 6) 0) ∧ { d.macroFix l with safety := d.safety } = d)

/-! The supervisor port, freeze, JTAG and debug. -/

/-- A frame of a command with an opcode, which the port takes: it is up, the pair runs, the frame passes its check, and a frozen device serves the opcode (R495, R510). -/
def Sys2Proof.Machine.Served (s : State) (op : Nat) (x : SvpFrame) : Prop :=
  s.Steady ∧ s.dev.svpUp = true ∧ s.dev.safety.state ≠ 2 ∧ crcOk op x = true ∧ x.length = x.payload.length ∧
  (s.dev.freeze.at_ = none ∨ op ∈ [0x01, 0x02, 0x04, 0x21, 0x23])

/-- The commands of the supervisor port that carry a frame, by opcode (R510). -/
def Sys2Proof.Machine.SvpCommand (op : Nat) (x : SvpFrame) (i : Instr) : Prop :=
  (op = 0x01 ∧ i = .status x) ∨ (op = 0x02 ∧ i = .faultRead x) ∨ (op = 0x03 ∧ i = .faultAck x) ∨ (op = 0x04 ∧ i = .regRead x) ∨
  (op = 0x05 ∧ i = .regWrite x) ∨ (op = 0x06 ∧ ∃ t, i = .heartbeat x t) ∨ (op = 0x10 ∧ i = .forceClear x) ∨ (op = 0x11 ∧ i = .forceSet x) ∨
  (op = 0x20 ∧ i = .sleep x) ∨ (op = 0x21 ∧ ∃ env, i = .reset x env) ∨ (op = 0x22 ∧ i = .freeze x) ∨ (op = 0x23 ∧ i = .readout x) ∨
  (op = 0x30 ∧ i = .lcProvision x) ∨ (op = 0x31 ∧ i = .lcReturn x) ∨ (op = 0x32 ∧ i = .recoveryWrite x)

/-- The supervisor port (R430, R451, R453, R495, R501, R503, R504, R510, R511). A halted pair answers HALTED, a frame that fails its check CRC_ERROR, a frozen device NOT_PERMITTED for
most commands, a wrong payload BAD_ARG, an unknown opcode UNKNOWN. The commands read the status, take the oldest record, acknowledge once no record with an action is left,
read and write registers, answer heartbeats, force pipes, and move the lifecycle or take a recovery image. -/
def Obligations.SupervisorPort : Prop :=
  (∀ (s : State) (op : Nat) (x : SvpFrame) (i : Instr), s.Steady → SvpCommand op x i →
    (s.dev.svpUp = false → Becomes i s s.dev) ∧
    (s.dev.svpUp = true → s.dev.safety.state = 2 → Becomes i s (s.dev.answer 0x06 [])) ∧
    (s.dev.svpUp = true → s.dev.safety.state ≠ 2 → (crcOk op x = false ∨ x.length ≠ x.payload.length) → Becomes i s (s.dev.answer 0x01 [])) ∧
    (s.dev.svpUp = true → s.dev.safety.state ≠ 2 → crcOk op x = true → x.length = x.payload.length → s.dev.freeze.at_ ≠ none →
      op ∉ [0x01, 0x02, 0x04, 0x21, 0x23] → Becomes i s (s.dev.answer 0x03 []))) ∧
  (∀ (s : State) (op : Nat) (x : SvpFrame) (i : Instr), Served s op x → SvpCommand op x i → op ∈ [0x01, 0x02, 0x03, 0x20, 0x22, 0x23] →
    (x.payload ≠ [] ∨ x.arg ≠ 0) → Becomes i s (s.dev.answer 0x05 [])) ∧
  (∀ (s : State) (x : SvpFrame), Served s 0x01 x → x.payload = [] → x.arg = 0 →
    Becomes (.status x) s (s.dev.answer 0 s.dev.statusBlock) ∧ s.dev.statusBlock.length = 32) ∧
  (∀ (s : State) (x : SvpFrame), Served s 0x02 x → x.payload = [] → x.arg = 0 →
    (s.dev.safety.queue = [] → Becomes (.faultRead x) s (s.dev.answer 0 [])) ∧
    (∀ r rest, s.dev.safety.queue = r :: rest → Becomes (.faultRead x) s
      (({ s.dev with safety := { s.dev.safety with queue := rest } } : Dev).answer 0 (bytesOfWords r.words)))) ∧
  (∀ (s : State) (x : SvpFrame), Served s 0x03 x → x.payload = [] → x.arg = 0 →
    ((∃ r ∈ s.dev.safety.queue, r.action ≠ 0) → Becomes (.faultAck x) s (s.dev.answer 0x04 [])) ∧
    ((∀ r ∈ s.dev.safety.queue, r.action = 0) → Becomes (.faultAck x) s
      (({ s.dev with safety := { s.dev.safety with faultN := false } } : Dev).answer 0 []))) ∧
  (∀ (s : State) (x : SvpFrame) (a : Nat), Served s 0x04 x → a = x.arg.toNat →
    ((x.payload ≠ [] ∨ a % 4 ≠ 0) → Becomes (.regRead x) s (s.dev.answer 0x05 [])) ∧
    (x.payload = [] → a % 4 = 0 → (a < 0xC000 ∨ 0x10408 ≤ a) → Becomes (.regRead x) s (s.dev.answer 0x03 [])) ∧
    (x.payload = [] → a % 4 = 0 → 0xC000 ≤ a → a < 0x10408 → ∀ d1 bytes, s.dev.readAccess .svp a (readerWide .svp a) = (d1, bytes) →
      Becomes (.regRead x) s (d1.answer 0 bytes))) ∧
  (∀ (s : State) (x : SvpFrame) (a : Nat), Served s 0x05 x → a = x.arg.toNat →
    ((x.payload.length ≠ 4 ∨ a % 4 ≠ 0) → Becomes (.regWrite x) s (s.dev.answer 0x05 [])) ∧
    (x.payload.length = 4 → a % 4 = 0 → (s.dev.safety.lock = true ∨ a < 0x10000 ∨ 0x10408 ≤ a) → Becomes (.regWrite x) s (s.dev.answer 0x03 [])) ∧
    (x.payload.length = 4 → a % 4 = 0 → s.dev.safety.lock = false → 0x10000 ≤ a → a < 0x10408 →
      Becomes (.regWrite x) s ((s.dev.svpSet a (ofBytes x.payload)).answer 0 []))) ∧
  (∀ (s : State) (x : SvpFrame) (at_ : Nat) (d : Dev) (c : BitVec 16), Served s 0x06 x → d = { s.dev with now := Nat.max s.dev.now at_ } → c = s.dev.safety.hbCount →
    (x.payload ≠ [] → Becomes (.heartbeat x at_) s (s.dev.answer 0x05 [])) ∧
    (x.payload = [] → s.dev.safety.hbArmed = false → Becomes (.heartbeat x at_) s
      (({ d with safety := { s.dev.safety with
            hbArmed := decide (s.dev.safety.hbPeriod * 1000000 ≠ 0), hbLast := d.now, hbLate := false, hbCount := c + 1 } } : Dev).answer 0
        (toBytes 4 (crc32c (toBytes 4 x.arg.toNat ++ toBytes 2 c.toNat))))) ∧
    (x.payload = [] → s.dev.safety.hbArmed = true → s.dev.safety.hbLast ≤ d.now → 2 * (d.now - s.dev.safety.hbLast) ≥ s.dev.safety.hbPeriod * 1000000 →
      d.now - s.dev.safety.hbLast ≤ s.dev.safety.hbPeriod * 1000000 → Becomes (.heartbeat x at_) s
      (({ d with safety := { s.dev.safety with
            hbArmed := decide (s.dev.safety.hbPeriod * 1000000 ≠ 0), hbLast := d.now, hbLate := false, hbCount := c + 1 } } : Dev).answer 0
        (toBytes 4 (crc32c (toBytes 4 x.arg.toNat ++ toBytes 2 c.toNat)))))) ∧
  (∀ (s : State) (x : SvpFrame), Served s 0x10 x →
    ((x.payload ≠ [] ∨ 2 ^ 12 ≤ x.arg.toNat) → Becomes (.forceClear x) s (s.dev.answer 0x05 [])) ∧
    (x.payload = [] → x.arg.toNat < 2 ^ 12 → ∀ m : BitVec 12, m = x.arg.setWidth 12 → Becomes (.forceClear x) s
      (({ s.dev with safety := { s.dev.safety with force := s.dev.safety.force &&& ~~~m, forceWanted := s.dev.safety.forceWanted &&& ~~~m } } : Dev).answer 0 []))) ∧
  (∀ (s : State) (x : SvpFrame), Served s 0x11 x →
    ((x.payload ≠ [] ∨ 2 ^ 12 ≤ x.arg.toNat) → Becomes (.forceSet x) s (s.dev.answer 0x05 [])) ∧
    (x.payload = [] → x.arg.toNat < 2 ^ 12 → Becomes (.forceSet x) s
      (({ s.dev with safety := { s.dev.safety with forceWanted := s.dev.safety.forceWanted ||| x.arg.setWidth 12 } } : Dev).answer 0 []))) ∧
  (∀ (s : State) (x : SvpFrame), Served s 0x20 x → x.payload = [] → x.arg = 0 →
    (s.dev.boot.stage ≠ .ready → Becomes (.sleep x) s (s.dev.answer 0x03 [])) ∧
    (s.dev.boot.stage = .ready → s.dev.power.reqGo = true → s.dev.power.state ≠ .showcase → Becomes (.sleep x) s (s.dev.answer 0x04 [])) ∧
    (s.dev.boot.stage = .ready → (s.dev.power.reqGo = false ∨ s.dev.power.state = .showcase) →
      Becomes (.sleep x) s (((s.dev.sleepRequest 2 true).answer 0 []).settle))) ∧
  (∀ (s : State) (x : SvpFrame) (env : BootEnv), Served s 0x21 x →
    ((x.payload ≠ [] ∨ x.arg ≠ 0xC1A5) → Becomes (.reset x env) s (s.dev.answer 0x05 [])) ∧
    (x.payload = [] → x.arg = 0xC1A5 → Becomes (.reset x env) s (((s.dev.resetAndBoot env).answer 0 []).settle))) ∧
  (∀ (s : State) (x : SvpFrame), Served s 0x30 x →
    ((x.arg ≠ 0 ∨ x.payload.length ≠ 48) → Becomes (.lcProvision x) s (s.dev.answer 0x05 [])) ∧
    (x.arg = 0 → x.payload.length = 48 → (s.dev.boot.fuses.lifecycle ≠ 0 ∨ s.dev.boot.fuses.lcNext ≠ none) → Becomes (.lcProvision x) s (s.dev.answer 0x03 [])) ∧
    (x.arg = 0 → x.payload.length = 48 → s.dev.boot.fuses.lifecycle = 0 → s.dev.boot.fuses.lcNext = none →
      Becomes (.lcProvision x) s ((s.dev.lifecycleMove 1 x.payload).answer 0 []))) ∧
  (∀ (s : State) (x : SvpFrame) (f : Fuses), Served s 0x31 x → f = s.dev.boot.fuses →
    ((x.arg ≠ 0 ∨ x.payload.length ≠ 193) → Becomes (.lcReturn x) s (s.dev.answer 0x05 [])) ∧
    (x.arg = 0 → x.payload.length = 193 →
      ((f.lifecycle ≠ 1 ∧ f.lifecycle ≠ 2) → Becomes (.lcReturn x) s (s.dev.answer 0x03 [])) ∧
      ((f.lifecycle = 1 ∨ f.lifecycle = 2) → (x.payload.take 97 ≠ Config.zelmalKey ∨
        ecdsaVerify (x.payload.take 97) (sha384 (toBytes 8 f.uid.toNat)) (x.payload.drop 97) = false) → Becomes (.lcReturn x) s (s.dev.answer 0x03 [])) ∧
      ((f.lifecycle = 1 ∨ f.lifecycle = 2) → x.payload.take 97 = Config.zelmalKey →
        ecdsaVerify (x.payload.take 97) (sha384 (toBytes 8 f.uid.toNat)) (x.payload.drop 97) = true →
        Becomes (.lcReturn x) s ((s.dev.lifecycleMove 3 f.ownerHash).answer 0 [])))) ∧
  (∀ (s : State) (x : SvpFrame) (n : Nat), Served s 0x32 x → n = x.payload.length →
    ((n = 0 ∨ 4096 < n ∨ 2 ^ 24 < x.arg.toNat + n) → Becomes (.recoveryWrite x) s (s.dev.answer 0x05 [])) ∧
    (n ≠ 0 → n ≤ 4096 → x.arg.toNat + n ≤ 2 ^ 24 →
      (s.dev.boot.stage ≠ .recovery → Becomes (.recoveryWrite x) s (s.dev.answer 0x03 [])) ∧
      (s.dev.boot.stage = .recovery → Becomes (.recoveryWrite x) s
        (({ s.dev with flash := { s.dev.flash with slotA := s.dev.flash.slotA.write x.arg.toNat x.payload } } : Dev).answer 0 [])))) ∧
  (∀ (s : State) (b : Byte) (x : SvpFrame), s.Steady →
    ((s.dev.svpUp = false ∨ b = 0xA5) → Becomes (.unknownOpcode b x) s s.dev) ∧
    (s.dev.svpUp = true → b ≠ 0xA5 →
      (s.dev.safety.state = 2 → Becomes (.unknownOpcode b x) s (s.dev.answer 0x06 [])) ∧
      (s.dev.safety.state ≠ 2 → (crcOk b.toNat x = false ∨ x.length ≠ x.payload.length) → Becomes (.unknownOpcode b x) s (s.dev.answer 0x01 [])) ∧
      (s.dev.safety.state ≠ 2 → crcOk b.toNat x = true → x.length = x.payload.length → svpOpcode b.toNat = false →
        Becomes (.unknownOpcode b x) s (s.dev.answer 0x02 []))))

/-- Freeze (R516, R517). A request by SVP or by FREEZE_N low for 100 ns freezes the device with links and ports down, SM_FAULT_N asserted and the read-out begun, in FIELD only when
debug is unlocked or freezing enabled, else FREEZE_IGNORED is recorded; READOUT forms the sequence again and its end frame repeats every 1 ms. A frozen
device takes no second request. -/
def Obligations.FreezeAndReadout : Prop :=
  (∀ (s : State) (x : SvpFrame), Served s 0x22 x → x.payload = [] → x.arg = 0 →
    (s.dev.freezeAllowed = true → Becomes (.freeze x) s ((s.dev.freezeRequest 1).answer 0 [])) ∧
    (s.dev.freezeAllowed = false → Becomes (.freeze x) s (((s.dev.freezeRequest 1).answer 0x03 []).settle))) ∧
  (∀ (s : State) (low : Nat), s.Steady →
    ((s.dev.boot.stage = .held ∨ s.dev.board.sysRstLow = true ∨ low < 100 ∨ s.dev.power.state = .standby) → Becomes (.freezeNAssert low) s s.dev) ∧
    (s.dev.boot.stage ≠ .held → s.dev.board.sysRstLow = false → 100 ≤ low → s.dev.power.state ≠ .standby →
      Becomes (.freezeNAssert low) s (s.dev.freezeRequest 0).settle)) ∧
  (∀ (d : Dev) (source : Nat), d.freeze.at_ ≠ none → d.freezeRequest source = d) ∧
  (∀ (d : Dev) (source : Nat), d.freeze.at_ = none → d.freezeAllowed = false →
    d.freezeRequest source = d.smRecord 0x3A (locusEngine 0x0C 0) none source 0) ∧
  (∀ (d : Dev) (source : Nat), d.freeze.at_ = none → d.freezeAllowed = true →
    (d.freezeRequest source).freeze.at_ = some d.now ∧ (d.freezeRequest source).freeze.source = source ∧ (d.freezeRequest source).safety.faultN = true ∧
    (d.freezeRequest source).awake = false ∧ (∀ p, p < 4 → ((d.freezeRequest source).port p).link = .down) ∧
    (∀ q, q < 12 → ((d.freezeRequest source).dport q).link = 0) ∧ (d.freezeRequest source).rings = d.rings ∧ (d.freezeRequest source).mem = d.mem ∧
    (d.freezeRequest source).freeze.nextEnd ≤ d.now + froTime (d.freezeRequest source).freeze.frames + 2000000) ∧
  (∀ d : Dev, d.freezeAllowed = true ↔ (d.boot.fuses.lifecycle ≠ 2 ∨ d.probe.unlocked = true ∨ d.safety.freezeEn = true)) ∧
  (∀ (s : State) (x : SvpFrame), Served s 0x23 x → x.payload = [] → x.arg = 0 →
    (s.dev.freeze.at_ = none → Becomes (.readout x) s (s.dev.answer 0x03 [])) ∧
    (∀ t, s.dev.freeze.at_ = some t → Does (.readout x) s (fun e =>
      e.freeze.frames = s.dev.readout t s.dev.freeze.source ∧ e.freeze.at_ = some t ∧ e.svp = some { status := 0, data := [] } ∧
      s.dev.now + froTime e.freeze.frames + 1000000 ≤ e.freeze.nextEnd ∧ { e with freeze := s.dev.freeze, free := s.dev.free, svp := s.dev.svp, bus := s.dev.bus } = s.dev))) ∧
  (∀ (s : State) (at_ : Nat) (d : Dev), s.Steady → d = { s.dev with now := Nat.max s.dev.now at_ } →
    ((s.dev.freeze.at_ = none ∨ d.now < s.dev.freeze.nextEnd) → Becomes (.readoutRepeat at_) s s.dev) ∧
    (s.dev.freeze.at_ ≠ none → s.dev.freeze.nextEnd ≤ d.now → Becomes (.readoutRepeat at_) s { d with freeze :=
      { s.dev.freeze with
        frames := s.dev.freeze.frames ++ s.dev.freeze.frames.getLast?.toList, nextEnd := s.dev.freeze.nextEnd + 1000000 } }))

/-- JTAG and debug access (R514, R515). IDCODE, BYPASS and SAMPLE/PRELOAD answer, EXTEST, CLAMP and HIGHZ only while SYS_RST_N is low; a challenge is the hash of the UID and the
random bytes, a correct response, of at most three failed before it, unlocks debug, a wrong one consumes its challenge; debug access, open in BLANK and PROVISION
or once unlocked, halts and steps contexts and reads and writes registers and memory. The instruction numbers are the model's. -/
def Obligations.JtagAndDebug : Prop :=
  (∀ s : State, s.Steady → Becomes .idcode s (s.dev.jtag 0 (toBytes 4 Config.idcode.toNat))) ∧
  (∀ (s : State) (tdi : Bool), s.Steady → Becomes (.bypass tdi) s
    { s.dev with probe :=
      { s.dev.probe with
        jtag := 1, tdo := [BitVec.ofNat 8 ((decide (s.dev.probe.jtag = 1) && s.dev.probe.bypassBit).toNat)], bypassBit := tdi } }) ∧
  (∀ (s : State) (data : List Bool), s.Steady → Does (.samplePreload data) s (fun e =>
    e.probe.jtag = 2 ∧ e.probe.boundary = data ∧ e.probe.tdo.length = (data.length + 7) / 8 ∧ { e with probe := s.dev.probe, free := s.dev.free, bus := s.dev.bus } = s.dev)) ∧
  (∀ (s : State) (i : Instr) (n : Nat), s.Steady → ((i = .extest ∧ n = 3) ∨ (i = .clamp ∧ n = 4) ∨ (i = .highz ∧ n = 5)) →
    (s.dev.board.sysRstLow = true → Becomes i s (s.dev.jtag n [])) ∧ (s.dev.board.sysRstLow = false → Becomes i s s.dev)) ∧
  (∀ (s : State) (random : List Byte) (c : List Byte), s.Steady → c = sha384 (toBytes 8 s.dev.boot.fuses.uid.toNat ++ random) →
    (s.dev.debugUp = true → random.length = 32 → Becomes (.dbgChallenge random) s
      { s.dev with probe := { s.dev.probe with jtag := 6, tdo := c, challenge := some c } }) ∧
    ((s.dev.debugUp = false ∨ random.length ≠ 32) → Becomes (.dbgChallenge random) s s.dev)) ∧
  (∀ (s : State) (key sig : List Byte) (d : Dev), s.Steady →
    d = { s.dev with probe := { s.dev.probe with jtag := 7, tdo := [], challenge := none } } →
    (s.dev.debugUp = false → Becomes (.dbgResponse key sig) s s.dev) ∧
    (s.dev.debugUp = true → s.dev.responseOk key sig = true → s.dev.probe.failures < 3 → Becomes (.dbgResponse key sig) s d.unlock.settle) ∧
    (s.dev.debugUp = true → (s.dev.responseOk key sig = false ∨ 3 ≤ s.dev.probe.failures) → Becomes (.dbgResponse key sig) s
      { d with probe := { d.probe with failures := d.probe.failures + 1 } })) ∧
  (∀ (d : Dev) (key sig : List Byte), d.responseOk key sig = true → key.length = 97 ∧ sig.length = 96 ∧
    (∃ c, d.probe.challenge = some c ∧ ecdsaVerify key (sha384 (c ++ toBytes 8 d.boot.fuses.uid.toNat)) sig = true) ∧
    (d.boot.fuses.lifecycle = 2 → sha384 key = d.boot.fuses.ownerHash) ∧
    (d.boot.fuses.lifecycle ≠ 2 → d.boot.fuses.lifecycle = 3 ∧ key = Config.zelmalKey)) ∧
  (∀ d : Dev, d.unlock.probe.unlocked = true ∧ (d.probe.unlocked = true → d.unlock = d)) ∧
  (∀ (s : State) (a : DbgAction), s.Steady → (s.dev.debugUp = false ∨ s.dev.awake = false ∨ s.dev.debugOpen = false) → Becomes (.dbgAccess a) s s.dev) ∧
  (∀ (s : State) (c : Ctx), s.Steady → s.dev.debugUp = true → s.dev.awake = true → s.dev.debugOpen = true → s.dev.probe.unlocked = true →
    (c ∉ s.dev.probe.halted → Becomes (.dbgAccess (.halt c)) s
      { s.dev with probe := { s.dev.probe with jtag := 8, tdo := [], halted := s.dev.probe.halted ++ [c] } }) ∧
    (c ∈ s.dev.probe.halted → c ∉ s.dev.probe.stepping → Becomes (.dbgAccess (.step c)) s
      { s.dev with probe := { s.dev.probe with jtag := 8, tdo := [], stepping := s.dev.probe.stepping ++ [c] } }) ∧
    (∀ (n : BitVec 6) (q : Seq), s.dev.seq c = some q → Becomes (.dbgAccess (.readReg c n)) s (s.dev.jtag 8 (toBytes 9 (q.bank.rd n.toNat).toNat))) ∧
    (∀ (g : Fin 256) (n : BitVec 6) (v : W72) (q : Seq), c = .guest g → s.dev.seq c = some q → Does (.dbgAccess (.writeReg c n v)) s (fun e =>
      e.seq c = some { q with bank := q.bank.wr n.toNat v } ∧ ∀ h, h ≠ g.val → e.ring h = s.dev.ring h)) ∧
    (∀ a, regionOf s.dev.dram a = .dram → s.dev.dataCause a 1 = 0 → Becomes (.dbgAccess (.readMem a)) s (s.dev.jtag 8 (s.dev.physRead a 1))) ∧
    (∀ a v, regionOf s.dev.dram a = .dram → s.dev.isLost a = false → Becomes (.dbgAccess (.writeMem a v)) s ((s.dev.physWrite a [v]).jtag 8 []))) ∧
  (∀ (s : State) (a : Nat) (v : Byte), s.Steady → s.dev.debugUp = true → s.dev.awake = true → s.dev.debugOpen = true → regionOf s.dev.dram a = .control →
    exec (.dbgAccess (.readMem a)) s = .fault (.controlSpace a) ∧ exec (.dbgAccess (.writeMem a v)) s = .fault (.controlSpace a))

/-- The commands of display links, of the entry to a sleep state, of waking, of resets and of startup complete (R300, R431 to R433, R436 to R438, R442, R448 to R450, R462, R531): on
a calm machine, and where the rules have the command take effect, `exec` answers a next state with that effect. -/
def Obligations.LinkSleepAndStartupComplete : Prop :=
  ∀ s : State, s.Steady →
  (∀ (q : Fin 12) (low : Nat) (good : Bool), s.dev.awake = true → q.val < 4 → 250000 ≤ low → low ≤ 2000000 →
    ∃ t, exec (.hpdIrq q low good) s = .next t ∧ t.pending = s.pending ∧ (t.dev.dport q.val).irqs = satInc (s.dev.dport q.val).irqs) ∧
  (∀ (q : Fin 12) (c : LossCause) (at_ : Nat), s.dev.awake = true → lossFits q.val c = true → ((s.dev.dport q.val).link = 1 ∨ (s.dev.dport q.val).link = 2) →
    (∀ p, s.dev.portPipe q.val = some p → s.dev.mustShowNow p = false) →
    ∃ t, exec (.linkLoss q c at_) s = .next t ∧ t.pending = s.pending ∧ (t.dev.dport q.val).link = 3 ∧ (t.dev.dport q.val).losses = satInc (s.dev.dport q.val).losses) ∧
  (∀ (q : Fin 12) (at_ : Nat), s.dev.awake = true → (4 ≤ q.val ∨ (s.dev.dport q.val).hpd = true) → (s.dev.dport q.val).link = 4 →
    (s.dev.dport q.val).trainFrom + 1000000000 ≤ Nat.max s.dev.now at_ →
    ∃ t, exec (.linkRetry q at_) s = .next t ∧ t.pending = s.pending ∧ (t.dev.dport q.val).link = 1) ∧
  (∀ (q : Fin 12) (at_ p : Nat), s.dev.awake = true → s.dev.portPipe q.val = some p → (s.dev.dport q.val).link = 1 →
    (if q.val < 4 then (s.dev.dport q.val).edp = true ∨ (s.dev.dport q.val).hpd = true
      else (s.dev.panelSteps q.val).length ≤ (s.dev.dport q.val).initStep ∧ (s.dev.dport q.val).initDue ≤ Nat.max s.dev.now at_) →
    ∃ t, exec (.linkUp q at_) s = .next t ∧ t.pending = s.pending ∧ (t.dev.dport q.val).link = 2 ∧ (t.dev.dport q.val).tries = 0) ∧
  (∀ (q : Fin 12) (at_ : Nat), s.dev.awake = true → (s.dev.dport q.val).link = 1 → q.val < 4 → ((s.dev.dport q.val).edp = true ∨ (s.dev.dport q.val).hpd = true) →
    (s.dev.dport q.val).tries < 2 →
    ∃ t, exec (.linkTrainingFailed q at_) s = .next t ∧ t.pending = s.pending ∧ (t.dev.dport q.val).link = 1 ∧
      (t.dev.dport q.val).tries = (s.dev.dport q.val).tries + 1) ∧
  (∀ (q : Fin 12) (at_ : Nat) (st : PanelStep), s.dev.awake = true → (s.dev.panelSteps q.val)[(s.dev.dport q.val).initStep]? = some st → 4 ≤ q.val →
    (s.dev.dport q.val).link = 1 → (s.dev.dport q.val).initDue ≤ Nat.max s.dev.now at_ →
    ∃ t, exec (.panelInitStep q true at_) s = .next t ∧ t.pending = s.pending ∧ (t.dev.dport q.val).initStep = (s.dev.dport q.val).initStep + 1) ∧
  (∀ (at_ : Nat) (e : SleepEntry), s.dev.power.entry = some e → e.order = 0 → e.goAt + 5000000 ≤ Nat.max s.dev.now at_ →
    (∀ p, p < 12 → bit (s.dev.keptPipes e.target) p = true → (s.dev.pt p).showcase = true) →
    ∃ t, exec (.windDownDone at_) s = .next t ∧ t.pending = s.pending ∧ t.dev.power.entry = some { e with order := 1, askedAt := Nat.max s.dev.now at_ }) ∧
  (∀ (at_ : Nat) (e : SleepEntry) (d : Dev), s.dev.power.entry = some e → e.order ≠ 0 → e.order ≠ 12 → d = { s.dev with now := Nat.max s.dev.now at_ } →
    d.blockRefuses e = none → (e.order = 4 → ∀ n, n < 16 → (d.evictAll e).atBoundary n = true) →
    ∃ t, exec (.blockStopped at_) s = .next t ∧ t.pending = s.pending ∧
      t.dev.power.entry = some { e with order := e.order + 1, askedAt := d.now, stopped := e.stopped ++ [e.order] }) ∧
  (∀ (at_ : Nat) (e : SleepEntry), s.dev.power.entry = some e → e.order ≠ 0 → e.order ≠ 12 → e.deep = false → s.dev.power.pendingEresets = [] →
    e.askedAt + 100000 ≤ Nat.max s.dev.now at_ →
    ∃ t, exec (.blockStopTimeout at_) s = .next t ∧ t.pending = s.pending ∧ t.dev.power.state = .active ∧ t.dev.power.result = 3 ∧ t.dev.power.reason = 2) ∧
  (∀ (src : WakeSrc) (at_ : Nat), ({ s.dev with now := Nat.max s.dev.now at_ } : Dev).wakeEnabled src = true → s.dev.boot.stage = .ready → s.dev.freeze.at_ = none →
    (s.dev.power.state = .entering → ∃ t, exec (.wake src at_) s = .next t ∧ t.pending = s.pending ∧ t.dev.power.state = .entering ∧
      t.dev.power.latched = setBit s.dev.power.latched (wakeIndex src) true) ∧
    ((s.dev.power.state = .showcase ∨ s.dev.power.state = .standby) → s.dev.power.pendingEresets = [] →
      ∃ t, exec (.wake src at_) s = .next t ∧ t.pending = s.pending ∧ t.dev.power.state = .active ∧ bit t.dev.power.wakeSrc (wakeIndex src) = true)) ∧
  (s.dev.wakeEnabled .svp = true → s.dev.boot.stage = .ready → s.dev.freeze.at_ = none → (s.dev.power.state = .showcase ∨ s.dev.power.state = .standby) →
    s.dev.power.pendingEresets = [] →
    ∃ t, exec (.svpWakePattern 0xA5C33C5A 32) s = .next t ∧ t.pending = s.pending ∧ t.dev.power.state = .active ∧ bit t.dev.power.wakeSrc 31 = true) ∧
  (s.dev.board.sysRstLow = true →
    (∃ t, exec .vddAonRamp s = .next t ∧ t.pending = s.pending ∧ t.dev.now = 0 ∧ t.dev.boot.stage = .held) ∧
    (∀ ns mv, mv < 650 → 1000 < ns → ∃ t, exec (.vddAonDrop ns mv) s = .next t ∧ t.pending = s.pending ∧ t.dev.now = 0 ∧ t.dev.boot.stage = .held) ∧
    (∀ (at_ : Nat) (env : BootEnv), s.dev.board.refclkOk = true → (s.dev.slotBoots false env = true ∨ s.dev.slotBoots true env = true) →
      ∃ t, exec (.sysRstNRise at_ env) s = .next t ∧ t.pending = s.pending ∧ t.dev.board.sysRstLow = false ∧ t.dev.boot.stage = .ready)) ∧
  (∀ low, s.dev.board.sysRstLow = false → 1000 ≤ low →
    ∃ t, exec (.sysRstNFall low) s = .next t ∧ t.pending = s.pending ∧ t.dev.board.sysRstLow = true ∧ t.dev.boot.stage = .held) ∧
  (∀ p : Fin 4, s.dev.boot.stage ≠ .held → s.dev.freeze.at_ = none →
    ((s.dev.port p.val).perst = false →
      ∃ t, exec (.perstN p true) s = .next t ∧ t.pending = s.pending ∧ (t.dev.port p.val).perst = true ∧ (t.dev.port p.val).link = .training) ∧
    ((s.dev.port p.val).perst = true → (s.dev.port p.val).link ≠ .l0 →
      ∃ t, exec (.hostLinkL0 p) s = .next t ∧ t.pending = s.pending ∧ (t.dev.port p.val).link = .l0 ∧ bit t.dev.power.wakeN p.val = false)) ∧
  (∃ t, exec .refclkLoss s = .next t ∧ t.pending = s.pending ∧ t.dev.board.refclkOk = false ∧ t.dev.safety.refclkLost = true) ∧
  (∀ at_, s.dev.board.refclkOk = false → s.dev.boot.stage ≠ .held →
    ∃ t, exec (.refclkReturn at_) s = .next t ∧ t.pending = s.pending ∧ t.dev.board.refclkOk = true ∧ t.dev.safety.refclkLost = false ∧
      t.dev.now = Nat.max s.dev.now at_)
end

