-- ==== Sys2Proof/Laws/Bits.lean ====
section
/-! SUPPORT. Tables: what is read after a write. -/

namespace Sys2Proof.Machine

variable {α : Type}

@[simp] theorem tget_nil (k : Nat) (e : α) : tget [] k e = e := rfl
@[simp] theorem tfind_nil (k : Nat) : tfind ([] : Tab α) k = none := rfl

theorem tget_cons (j : Nat) (u : α) (r : Tab α) (k : Nat) (e : α) :
    tget ((j, u) :: r) k e = if j = k then u else tget r k e := rfl

theorem tfind_cons (j : Nat) (u : α) (r : Tab α) (k : Nat) :
    tfind ((j, u) :: r) k = if j = k then some u else tfind r k := rfl

theorem tset_cons (j : Nat) (u : α) (r : Tab α) (k : Nat) (v : α) :
    tset ((j, u) :: r) k v = if k < j then (k, v) :: (j, u) :: r else if j = k then (k, v) :: r else (j, u) :: tset r k v := rfl

/-- A table read is a lookup with a default. -/
theorem tget_eq_tfind (t : Tab α) (k : Nat) (e : α) : tget t k e = (tfind t k).getD e := by
  induction t with
  | nil => rfl
  | cons p r ih => obtain ⟨j, u⟩ := p; rw [tget_cons, tfind_cons]; split <;> simp [ih]

/-- Reading after writing. -/
theorem tfind_tset (t : Tab α) (k m : Nat) (v : α) : tfind (tset t k v) m = if k = m then some v else tfind t m := by
  induction t with
  | nil => rfl
  | cons p r ih =>
    obtain ⟨j, u⟩ := p
    rw [tset_cons]
    split
    · rw [tfind_cons]
    · split
      · rename_i h; subst h; rw [tfind_cons, tfind_cons]; split <;> rfl
      · rename_i h1 h2
        rw [tfind_cons, tfind_cons, ih]
        split
        · rename_i h3; subst h3; rw [if_neg]; intro h; exact h2 h.symm
        · rfl

@[simp] theorem tfind_tset_same (t : Tab α) (k : Nat) (v : α) : tfind (tset t k v) k = some v := by
  rw [tfind_tset, if_pos rfl]

theorem tfind_tset_ne (t : Tab α) (k m : Nat) (v : α) (h : k ≠ m) : tfind (tset t k v) m = tfind t m := by
  rw [tfind_tset, if_neg h]

theorem tget_tset (t : Tab α) (k m : Nat) (v e : α) : tget (tset t k v) m e = if k = m then v else tget t m e := by
  rw [tget_eq_tfind, tfind_tset, tget_eq_tfind]; split <;> rfl

@[simp] theorem tget_tset_same (t : Tab α) (k : Nat) (v e : α) : tget (tset t k v) k e = v := by
  rw [tget_tset, if_pos rfl]

theorem tget_tset_ne (t : Tab α) (k m : Nat) (v e : α) (h : k ≠ m) : tget (tset t k v) m e = tget t m e := by
  rw [tget_tset, if_neg h]

/-- A second write under a number replaces the first. -/
theorem tset_tset (t : Tab α) (k : Nat) (v w : α) : tset (tset t k v) k w = tset t k w := by
  induction t with
  | nil => simp [tset]
  | cons p r ih =>
    obtain ⟨j, u⟩ := p
    by_cases h : k < j
    · simp [tset, h]
    · by_cases e : j = k
      · simp [tset, e]
      · simp [tset, h, e, ih]

end Sys2Proof.Machine
end

