-- ==== Sys2Proof/Laws/State.lean ====
section
/-! SUPPORT. What each plain update of the device leaves as it was, one lemma for each field. -/

namespace Sys2Proof.Machine

/-! Dev.setFn. -/

@[simp] theorem Dev.setFn_now (d : Dev) (f : Nat) (x : Fn) : (d.setFn f x).now = d.now := rfl
@[simp] theorem Dev.setFn_free (d : Dev) (f : Nat) (x : Fn) : (d.setFn f x).free = d.free := rfl
@[simp] theorem Dev.setFn_events (d : Dev) (f : Nat) (x : Fn) : (d.setFn f x).events = d.events := rfl
@[simp] theorem Dev.setFn_mem (d : Dev) (f : Nat) (x : Fn) : (d.setFn f x).mem = d.mem := rfl
@[simp] theorem Dev.setFn_writes (d : Dev) (f : Nat) (x : Fn) : (d.setFn f x).writes = d.writes := rfl
@[simp] theorem Dev.setFn_poison (d : Dev) (f : Nat) (x : Fn) : (d.setFn f x).poison = d.poison := rfl
@[simp] theorem Dev.setFn_board (d : Dev) (f : Nat) (x : Fn) : (d.setFn f x).board = d.board := rfl
@[simp] theorem Dev.setFn_manager (d : Dev) (f : Nat) (x : Fn) : (d.setFn f x).manager = d.manager := rfl
@[simp] theorem Dev.setFn_ports (d : Dev) (f : Nat) (x : Fn) : (d.setFn f x).ports = d.ports := rfl
@[simp] theorem Dev.setFn_rings (d : Dev) (f : Nat) (x : Fn) : (d.setFn f x).rings = d.rings := rfl
@[simp] theorem Dev.setFn_rrGrant (d : Dev) (f : Nat) (x : Fn) : (d.setFn f x).rrGrant = d.rrGrant := rfl
@[simp] theorem Dev.setFn_ops (d : Dev) (f : Nat) (x : Fn) : (d.setFn f x).ops = d.ops := rfl
@[simp] theorem Dev.setFn_commits (d : Dev) (f : Nat) (x : Fn) : (d.setFn f x).commits = d.commits := rfl
@[simp] theorem Dev.setFn_publication (d : Dev) (f : Nat) (x : Fn) : (d.setFn f x).publication = d.publication := rfl
@[simp] theorem Dev.setFn_objs (d : Dev) (f : Nat) (x : Fn) : (d.setFn f x).objs = d.objs := rfl
@[simp] theorem Dev.setFn_epochAt (d : Dev) (f : Nat) (x : Fn) : (d.setFn f x).epochAt = d.epochAt := rfl
@[simp] theorem Dev.setFn_held (d : Dev) (f : Nat) (x : Fn) : (d.setFn f x).held = d.held := rfl
@[simp] theorem Dev.setFn_latch (d : Dev) (f : Nat) (x : Fn) : (d.setFn f x).latch = d.latch := rfl
@[simp] theorem Dev.setFn_msgs (d : Dev) (f : Nat) (x : Fn) : (d.setFn f x).msgs = d.msgs := rfl
@[simp] theorem Dev.setFn_host (d : Dev) (f : Nat) (x : Fn) : (d.setFn f x).host = d.host := rfl
@[simp] theorem Dev.setFn_fw (d : Dev) (f : Nat) (x : Fn) : (d.setFn f x).fw = d.fw := rfl
@[simp] theorem Dev.setFn_coreDown (d : Dev) (f : Nat) (x : Fn) : (d.setFn f x).coreDown = d.coreDown := rfl
@[simp] theorem Dev.setFn_raster (d : Dev) (f : Nat) (x : Fn) : (d.setFn f x).raster = d.raster := rfl
@[simp] theorem Dev.setFn_comp (d : Dev) (f : Nat) (x : Fn) : (d.setFn f x).comp = d.comp := rfl
@[simp] theorem Dev.setFn_disp (d : Dev) (f : Nat) (x : Fn) : (d.setFn f x).disp = d.disp := rfl
@[simp] theorem Dev.setFn_touch (d : Dev) (f : Nat) (x : Fn) : (d.setFn f x).touch = d.touch := rfl
@[simp] theorem Dev.setFn_haptic (d : Dev) (f : Nat) (x : Fn) : (d.setFn f x).haptic = d.haptic := rfl
@[simp] theorem Dev.setFn_audio (d : Dev) (f : Nat) (x : Fn) : (d.setFn f x).audio = d.audio := rfl
@[simp] theorem Dev.setFn_cvus (d : Dev) (f : Nat) (x : Fn) : (d.setFn f x).cvus = d.cvus := rfl
@[simp] theorem Dev.setFn_dram (d : Dev) (f : Nat) (x : Fn) : (d.setFn f x).dram = d.dram := rfl
@[simp] theorem Dev.setFn_bus (d : Dev) (f : Nat) (x : Fn) : (d.setFn f x).bus = d.bus := rfl
@[simp] theorem Dev.setFn_power (d : Dev) (f : Nat) (x : Fn) : (d.setFn f x).power = d.power := rfl
@[simp] theorem Dev.setFn_boot (d : Dev) (f : Nat) (x : Fn) : (d.setFn f x).boot = d.boot := rfl
@[simp] theorem Dev.setFn_flash (d : Dev) (f : Nat) (x : Fn) : (d.setFn f x).flash = d.flash := rfl
@[simp] theorem Dev.setFn_update (d : Dev) (f : Nat) (x : Fn) : (d.setFn f x).update = d.update := rfl
@[simp] theorem Dev.setFn_safety (d : Dev) (f : Nat) (x : Fn) : (d.setFn f x).safety = d.safety := rfl
@[simp] theorem Dev.setFn_freeze (d : Dev) (f : Nat) (x : Fn) : (d.setFn f x).freeze = d.freeze := rfl
@[simp] theorem Dev.setFn_svp (d : Dev) (f : Nat) (x : Fn) : (d.setFn f x).svp = d.svp := rfl
@[simp] theorem Dev.setFn_probe (d : Dev) (f : Nat) (x : Fn) : (d.setFn f x).probe = d.probe := rfl

/-! Dev.setPort. -/

@[simp] theorem Dev.setPort_now (d : Dev) (p : Nat) (x : Port) : (d.setPort p x).now = d.now := rfl
@[simp] theorem Dev.setPort_free (d : Dev) (p : Nat) (x : Port) : (d.setPort p x).free = d.free := rfl
@[simp] theorem Dev.setPort_events (d : Dev) (p : Nat) (x : Port) : (d.setPort p x).events = d.events := rfl
@[simp] theorem Dev.setPort_mem (d : Dev) (p : Nat) (x : Port) : (d.setPort p x).mem = d.mem := rfl
@[simp] theorem Dev.setPort_writes (d : Dev) (p : Nat) (x : Port) : (d.setPort p x).writes = d.writes := rfl
@[simp] theorem Dev.setPort_poison (d : Dev) (p : Nat) (x : Port) : (d.setPort p x).poison = d.poison := rfl
@[simp] theorem Dev.setPort_board (d : Dev) (p : Nat) (x : Port) : (d.setPort p x).board = d.board := rfl
@[simp] theorem Dev.setPort_manager (d : Dev) (p : Nat) (x : Port) : (d.setPort p x).manager = d.manager := rfl
@[simp] theorem Dev.setPort_fns (d : Dev) (p : Nat) (x : Port) : (d.setPort p x).fns = d.fns := rfl
@[simp] theorem Dev.setPort_rings (d : Dev) (p : Nat) (x : Port) : (d.setPort p x).rings = d.rings := rfl
@[simp] theorem Dev.setPort_rrGrant (d : Dev) (p : Nat) (x : Port) : (d.setPort p x).rrGrant = d.rrGrant := rfl
@[simp] theorem Dev.setPort_ops (d : Dev) (p : Nat) (x : Port) : (d.setPort p x).ops = d.ops := rfl
@[simp] theorem Dev.setPort_commits (d : Dev) (p : Nat) (x : Port) : (d.setPort p x).commits = d.commits := rfl
@[simp] theorem Dev.setPort_publication (d : Dev) (p : Nat) (x : Port) : (d.setPort p x).publication = d.publication := rfl
@[simp] theorem Dev.setPort_objs (d : Dev) (p : Nat) (x : Port) : (d.setPort p x).objs = d.objs := rfl
@[simp] theorem Dev.setPort_epochAt (d : Dev) (p : Nat) (x : Port) : (d.setPort p x).epochAt = d.epochAt := rfl
@[simp] theorem Dev.setPort_held (d : Dev) (p : Nat) (x : Port) : (d.setPort p x).held = d.held := rfl
@[simp] theorem Dev.setPort_latch (d : Dev) (p : Nat) (x : Port) : (d.setPort p x).latch = d.latch := rfl
@[simp] theorem Dev.setPort_msgs (d : Dev) (p : Nat) (x : Port) : (d.setPort p x).msgs = d.msgs := rfl
@[simp] theorem Dev.setPort_host (d : Dev) (p : Nat) (x : Port) : (d.setPort p x).host = d.host := rfl
@[simp] theorem Dev.setPort_fw (d : Dev) (p : Nat) (x : Port) : (d.setPort p x).fw = d.fw := rfl
@[simp] theorem Dev.setPort_coreDown (d : Dev) (p : Nat) (x : Port) : (d.setPort p x).coreDown = d.coreDown := rfl
@[simp] theorem Dev.setPort_raster (d : Dev) (p : Nat) (x : Port) : (d.setPort p x).raster = d.raster := rfl
@[simp] theorem Dev.setPort_comp (d : Dev) (p : Nat) (x : Port) : (d.setPort p x).comp = d.comp := rfl
@[simp] theorem Dev.setPort_disp (d : Dev) (p : Nat) (x : Port) : (d.setPort p x).disp = d.disp := rfl
@[simp] theorem Dev.setPort_touch (d : Dev) (p : Nat) (x : Port) : (d.setPort p x).touch = d.touch := rfl
@[simp] theorem Dev.setPort_haptic (d : Dev) (p : Nat) (x : Port) : (d.setPort p x).haptic = d.haptic := rfl
@[simp] theorem Dev.setPort_audio (d : Dev) (p : Nat) (x : Port) : (d.setPort p x).audio = d.audio := rfl
@[simp] theorem Dev.setPort_cvus (d : Dev) (p : Nat) (x : Port) : (d.setPort p x).cvus = d.cvus := rfl
@[simp] theorem Dev.setPort_dram (d : Dev) (p : Nat) (x : Port) : (d.setPort p x).dram = d.dram := rfl
@[simp] theorem Dev.setPort_bus (d : Dev) (p : Nat) (x : Port) : (d.setPort p x).bus = d.bus := rfl
@[simp] theorem Dev.setPort_power (d : Dev) (p : Nat) (x : Port) : (d.setPort p x).power = d.power := rfl
@[simp] theorem Dev.setPort_boot (d : Dev) (p : Nat) (x : Port) : (d.setPort p x).boot = d.boot := rfl
@[simp] theorem Dev.setPort_flash (d : Dev) (p : Nat) (x : Port) : (d.setPort p x).flash = d.flash := rfl
@[simp] theorem Dev.setPort_update (d : Dev) (p : Nat) (x : Port) : (d.setPort p x).update = d.update := rfl
@[simp] theorem Dev.setPort_safety (d : Dev) (p : Nat) (x : Port) : (d.setPort p x).safety = d.safety := rfl
@[simp] theorem Dev.setPort_freeze (d : Dev) (p : Nat) (x : Port) : (d.setPort p x).freeze = d.freeze := rfl
@[simp] theorem Dev.setPort_svp (d : Dev) (p : Nat) (x : Port) : (d.setPort p x).svp = d.svp := rfl
@[simp] theorem Dev.setPort_probe (d : Dev) (p : Nat) (x : Port) : (d.setPort p x).probe = d.probe := rfl

/-! Dev.setRing. -/

@[simp] theorem Dev.setRing_now (d : Dev) (g : Nat) (x : Ring) : (d.setRing g x).now = d.now := rfl
@[simp] theorem Dev.setRing_free (d : Dev) (g : Nat) (x : Ring) : (d.setRing g x).free = d.free := rfl
@[simp] theorem Dev.setRing_events (d : Dev) (g : Nat) (x : Ring) : (d.setRing g x).events = d.events := rfl
@[simp] theorem Dev.setRing_mem (d : Dev) (g : Nat) (x : Ring) : (d.setRing g x).mem = d.mem := rfl
@[simp] theorem Dev.setRing_writes (d : Dev) (g : Nat) (x : Ring) : (d.setRing g x).writes = d.writes := rfl
@[simp] theorem Dev.setRing_poison (d : Dev) (g : Nat) (x : Ring) : (d.setRing g x).poison = d.poison := rfl
@[simp] theorem Dev.setRing_board (d : Dev) (g : Nat) (x : Ring) : (d.setRing g x).board = d.board := rfl
@[simp] theorem Dev.setRing_manager (d : Dev) (g : Nat) (x : Ring) : (d.setRing g x).manager = d.manager := rfl
@[simp] theorem Dev.setRing_fns (d : Dev) (g : Nat) (x : Ring) : (d.setRing g x).fns = d.fns := rfl
@[simp] theorem Dev.setRing_ports (d : Dev) (g : Nat) (x : Ring) : (d.setRing g x).ports = d.ports := rfl
@[simp] theorem Dev.setRing_rrGrant (d : Dev) (g : Nat) (x : Ring) : (d.setRing g x).rrGrant = d.rrGrant := rfl
@[simp] theorem Dev.setRing_ops (d : Dev) (g : Nat) (x : Ring) : (d.setRing g x).ops = d.ops := rfl
@[simp] theorem Dev.setRing_commits (d : Dev) (g : Nat) (x : Ring) : (d.setRing g x).commits = d.commits := rfl
@[simp] theorem Dev.setRing_publication (d : Dev) (g : Nat) (x : Ring) : (d.setRing g x).publication = d.publication := rfl
@[simp] theorem Dev.setRing_objs (d : Dev) (g : Nat) (x : Ring) : (d.setRing g x).objs = d.objs := rfl
@[simp] theorem Dev.setRing_epochAt (d : Dev) (g : Nat) (x : Ring) : (d.setRing g x).epochAt = d.epochAt := rfl
@[simp] theorem Dev.setRing_held (d : Dev) (g : Nat) (x : Ring) : (d.setRing g x).held = d.held := rfl
@[simp] theorem Dev.setRing_latch (d : Dev) (g : Nat) (x : Ring) : (d.setRing g x).latch = d.latch := rfl
@[simp] theorem Dev.setRing_msgs (d : Dev) (g : Nat) (x : Ring) : (d.setRing g x).msgs = d.msgs := rfl
@[simp] theorem Dev.setRing_host (d : Dev) (g : Nat) (x : Ring) : (d.setRing g x).host = d.host := rfl
@[simp] theorem Dev.setRing_fw (d : Dev) (g : Nat) (x : Ring) : (d.setRing g x).fw = d.fw := rfl
@[simp] theorem Dev.setRing_coreDown (d : Dev) (g : Nat) (x : Ring) : (d.setRing g x).coreDown = d.coreDown := rfl
@[simp] theorem Dev.setRing_raster (d : Dev) (g : Nat) (x : Ring) : (d.setRing g x).raster = d.raster := rfl
@[simp] theorem Dev.setRing_comp (d : Dev) (g : Nat) (x : Ring) : (d.setRing g x).comp = d.comp := rfl
@[simp] theorem Dev.setRing_disp (d : Dev) (g : Nat) (x : Ring) : (d.setRing g x).disp = d.disp := rfl
@[simp] theorem Dev.setRing_touch (d : Dev) (g : Nat) (x : Ring) : (d.setRing g x).touch = d.touch := rfl
@[simp] theorem Dev.setRing_haptic (d : Dev) (g : Nat) (x : Ring) : (d.setRing g x).haptic = d.haptic := rfl
@[simp] theorem Dev.setRing_audio (d : Dev) (g : Nat) (x : Ring) : (d.setRing g x).audio = d.audio := rfl
@[simp] theorem Dev.setRing_cvus (d : Dev) (g : Nat) (x : Ring) : (d.setRing g x).cvus = d.cvus := rfl
@[simp] theorem Dev.setRing_dram (d : Dev) (g : Nat) (x : Ring) : (d.setRing g x).dram = d.dram := rfl
@[simp] theorem Dev.setRing_bus (d : Dev) (g : Nat) (x : Ring) : (d.setRing g x).bus = d.bus := rfl
@[simp] theorem Dev.setRing_power (d : Dev) (g : Nat) (x : Ring) : (d.setRing g x).power = d.power := rfl
@[simp] theorem Dev.setRing_boot (d : Dev) (g : Nat) (x : Ring) : (d.setRing g x).boot = d.boot := rfl
@[simp] theorem Dev.setRing_flash (d : Dev) (g : Nat) (x : Ring) : (d.setRing g x).flash = d.flash := rfl
@[simp] theorem Dev.setRing_update (d : Dev) (g : Nat) (x : Ring) : (d.setRing g x).update = d.update := rfl
@[simp] theorem Dev.setRing_safety (d : Dev) (g : Nat) (x : Ring) : (d.setRing g x).safety = d.safety := rfl
@[simp] theorem Dev.setRing_freeze (d : Dev) (g : Nat) (x : Ring) : (d.setRing g x).freeze = d.freeze := rfl
@[simp] theorem Dev.setRing_svp (d : Dev) (g : Nat) (x : Ring) : (d.setRing g x).svp = d.svp := rfl
@[simp] theorem Dev.setRing_probe (d : Dev) (g : Nat) (x : Ring) : (d.setRing g x).probe = d.probe := rfl

/-! Dev.setObj. -/

@[simp] theorem Dev.setObj_now (d : Dev) (c i w : Nat) (v : W72) : (d.setObj c i w v).now = d.now := rfl
@[simp] theorem Dev.setObj_free (d : Dev) (c i w : Nat) (v : W72) : (d.setObj c i w v).free = d.free := rfl
@[simp] theorem Dev.setObj_events (d : Dev) (c i w : Nat) (v : W72) : (d.setObj c i w v).events = d.events := rfl
@[simp] theorem Dev.setObj_mem (d : Dev) (c i w : Nat) (v : W72) : (d.setObj c i w v).mem = d.mem := rfl
@[simp] theorem Dev.setObj_writes (d : Dev) (c i w : Nat) (v : W72) : (d.setObj c i w v).writes = d.writes := rfl
@[simp] theorem Dev.setObj_poison (d : Dev) (c i w : Nat) (v : W72) : (d.setObj c i w v).poison = d.poison := rfl
@[simp] theorem Dev.setObj_board (d : Dev) (c i w : Nat) (v : W72) : (d.setObj c i w v).board = d.board := rfl
@[simp] theorem Dev.setObj_manager (d : Dev) (c i w : Nat) (v : W72) : (d.setObj c i w v).manager = d.manager := rfl
@[simp] theorem Dev.setObj_fns (d : Dev) (c i w : Nat) (v : W72) : (d.setObj c i w v).fns = d.fns := rfl
@[simp] theorem Dev.setObj_ports (d : Dev) (c i w : Nat) (v : W72) : (d.setObj c i w v).ports = d.ports := rfl
@[simp] theorem Dev.setObj_rings (d : Dev) (c i w : Nat) (v : W72) : (d.setObj c i w v).rings = d.rings := rfl
@[simp] theorem Dev.setObj_rrGrant (d : Dev) (c i w : Nat) (v : W72) : (d.setObj c i w v).rrGrant = d.rrGrant := rfl
@[simp] theorem Dev.setObj_ops (d : Dev) (c i w : Nat) (v : W72) : (d.setObj c i w v).ops = d.ops := rfl
@[simp] theorem Dev.setObj_commits (d : Dev) (c i w : Nat) (v : W72) : (d.setObj c i w v).commits = d.commits := rfl
@[simp] theorem Dev.setObj_publication (d : Dev) (c i w : Nat) (v : W72) : (d.setObj c i w v).publication = d.publication := rfl
@[simp] theorem Dev.setObj_epochAt (d : Dev) (c i w : Nat) (v : W72) : (d.setObj c i w v).epochAt = d.epochAt := rfl
@[simp] theorem Dev.setObj_held (d : Dev) (c i w : Nat) (v : W72) : (d.setObj c i w v).held = d.held := rfl
@[simp] theorem Dev.setObj_latch (d : Dev) (c i w : Nat) (v : W72) : (d.setObj c i w v).latch = d.latch := rfl
@[simp] theorem Dev.setObj_msgs (d : Dev) (c i w : Nat) (v : W72) : (d.setObj c i w v).msgs = d.msgs := rfl
@[simp] theorem Dev.setObj_host (d : Dev) (c i w : Nat) (v : W72) : (d.setObj c i w v).host = d.host := rfl
@[simp] theorem Dev.setObj_fw (d : Dev) (c i w : Nat) (v : W72) : (d.setObj c i w v).fw = d.fw := rfl
@[simp] theorem Dev.setObj_coreDown (d : Dev) (c i w : Nat) (v : W72) : (d.setObj c i w v).coreDown = d.coreDown := rfl
@[simp] theorem Dev.setObj_raster (d : Dev) (c i w : Nat) (v : W72) : (d.setObj c i w v).raster = d.raster := rfl
@[simp] theorem Dev.setObj_comp (d : Dev) (c i w : Nat) (v : W72) : (d.setObj c i w v).comp = d.comp := rfl
@[simp] theorem Dev.setObj_disp (d : Dev) (c i w : Nat) (v : W72) : (d.setObj c i w v).disp = d.disp := rfl
@[simp] theorem Dev.setObj_touch (d : Dev) (c i w : Nat) (v : W72) : (d.setObj c i w v).touch = d.touch := rfl
@[simp] theorem Dev.setObj_haptic (d : Dev) (c i w : Nat) (v : W72) : (d.setObj c i w v).haptic = d.haptic := rfl
@[simp] theorem Dev.setObj_audio (d : Dev) (c i w : Nat) (v : W72) : (d.setObj c i w v).audio = d.audio := rfl
@[simp] theorem Dev.setObj_cvus (d : Dev) (c i w : Nat) (v : W72) : (d.setObj c i w v).cvus = d.cvus := rfl
@[simp] theorem Dev.setObj_dram (d : Dev) (c i w : Nat) (v : W72) : (d.setObj c i w v).dram = d.dram := rfl
@[simp] theorem Dev.setObj_bus (d : Dev) (c i w : Nat) (v : W72) : (d.setObj c i w v).bus = d.bus := rfl
@[simp] theorem Dev.setObj_power (d : Dev) (c i w : Nat) (v : W72) : (d.setObj c i w v).power = d.power := rfl
@[simp] theorem Dev.setObj_boot (d : Dev) (c i w : Nat) (v : W72) : (d.setObj c i w v).boot = d.boot := rfl
@[simp] theorem Dev.setObj_flash (d : Dev) (c i w : Nat) (v : W72) : (d.setObj c i w v).flash = d.flash := rfl
@[simp] theorem Dev.setObj_update (d : Dev) (c i w : Nat) (v : W72) : (d.setObj c i w v).update = d.update := rfl
@[simp] theorem Dev.setObj_safety (d : Dev) (c i w : Nat) (v : W72) : (d.setObj c i w v).safety = d.safety := rfl
@[simp] theorem Dev.setObj_freeze (d : Dev) (c i w : Nat) (v : W72) : (d.setObj c i w v).freeze = d.freeze := rfl
@[simp] theorem Dev.setObj_svp (d : Dev) (c i w : Nat) (v : W72) : (d.setObj c i w v).svp = d.svp := rfl
@[simp] theorem Dev.setObj_probe (d : Dev) (c i w : Nat) (v : W72) : (d.setObj c i w v).probe = d.probe := rfl

/-! Dev.poke. -/

@[simp] theorem Dev.poke_now (d : Dev) (a : Nat) (l : List Byte) : (d.poke a l).now = d.now := rfl
@[simp] theorem Dev.poke_free (d : Dev) (a : Nat) (l : List Byte) : (d.poke a l).free = d.free := rfl
@[simp] theorem Dev.poke_events (d : Dev) (a : Nat) (l : List Byte) : (d.poke a l).events = d.events := rfl
@[simp] theorem Dev.poke_mem (d : Dev) (a : Nat) (l : List Byte) : (d.poke a l).mem = d.mem := rfl
@[simp] theorem Dev.poke_board (d : Dev) (a : Nat) (l : List Byte) : (d.poke a l).board = d.board := rfl
@[simp] theorem Dev.poke_manager (d : Dev) (a : Nat) (l : List Byte) : (d.poke a l).manager = d.manager := rfl
@[simp] theorem Dev.poke_fns (d : Dev) (a : Nat) (l : List Byte) : (d.poke a l).fns = d.fns := rfl
@[simp] theorem Dev.poke_ports (d : Dev) (a : Nat) (l : List Byte) : (d.poke a l).ports = d.ports := rfl
@[simp] theorem Dev.poke_rings (d : Dev) (a : Nat) (l : List Byte) : (d.poke a l).rings = d.rings := rfl
@[simp] theorem Dev.poke_rrGrant (d : Dev) (a : Nat) (l : List Byte) : (d.poke a l).rrGrant = d.rrGrant := rfl
@[simp] theorem Dev.poke_ops (d : Dev) (a : Nat) (l : List Byte) : (d.poke a l).ops = d.ops := rfl
@[simp] theorem Dev.poke_commits (d : Dev) (a : Nat) (l : List Byte) : (d.poke a l).commits = d.commits := rfl
@[simp] theorem Dev.poke_publication (d : Dev) (a : Nat) (l : List Byte) : (d.poke a l).publication = d.publication := rfl
@[simp] theorem Dev.poke_objs (d : Dev) (a : Nat) (l : List Byte) : (d.poke a l).objs = d.objs := rfl
@[simp] theorem Dev.poke_epochAt (d : Dev) (a : Nat) (l : List Byte) : (d.poke a l).epochAt = d.epochAt := rfl
@[simp] theorem Dev.poke_held (d : Dev) (a : Nat) (l : List Byte) : (d.poke a l).held = d.held := rfl
@[simp] theorem Dev.poke_latch (d : Dev) (a : Nat) (l : List Byte) : (d.poke a l).latch = d.latch := rfl
@[simp] theorem Dev.poke_msgs (d : Dev) (a : Nat) (l : List Byte) : (d.poke a l).msgs = d.msgs := rfl
@[simp] theorem Dev.poke_host (d : Dev) (a : Nat) (l : List Byte) : (d.poke a l).host = d.host := rfl
@[simp] theorem Dev.poke_fw (d : Dev) (a : Nat) (l : List Byte) : (d.poke a l).fw = d.fw := rfl
@[simp] theorem Dev.poke_coreDown (d : Dev) (a : Nat) (l : List Byte) : (d.poke a l).coreDown = d.coreDown := rfl
@[simp] theorem Dev.poke_raster (d : Dev) (a : Nat) (l : List Byte) : (d.poke a l).raster = d.raster := rfl
@[simp] theorem Dev.poke_comp (d : Dev) (a : Nat) (l : List Byte) : (d.poke a l).comp = d.comp := rfl
@[simp] theorem Dev.poke_disp (d : Dev) (a : Nat) (l : List Byte) : (d.poke a l).disp = d.disp := rfl
@[simp] theorem Dev.poke_touch (d : Dev) (a : Nat) (l : List Byte) : (d.poke a l).touch = d.touch := rfl
@[simp] theorem Dev.poke_haptic (d : Dev) (a : Nat) (l : List Byte) : (d.poke a l).haptic = d.haptic := rfl
@[simp] theorem Dev.poke_audio (d : Dev) (a : Nat) (l : List Byte) : (d.poke a l).audio = d.audio := rfl
@[simp] theorem Dev.poke_cvus (d : Dev) (a : Nat) (l : List Byte) : (d.poke a l).cvus = d.cvus := rfl
@[simp] theorem Dev.poke_dram (d : Dev) (a : Nat) (l : List Byte) : (d.poke a l).dram = d.dram := rfl
@[simp] theorem Dev.poke_bus (d : Dev) (a : Nat) (l : List Byte) : (d.poke a l).bus = d.bus := rfl
@[simp] theorem Dev.poke_power (d : Dev) (a : Nat) (l : List Byte) : (d.poke a l).power = d.power := rfl
@[simp] theorem Dev.poke_boot (d : Dev) (a : Nat) (l : List Byte) : (d.poke a l).boot = d.boot := rfl
@[simp] theorem Dev.poke_flash (d : Dev) (a : Nat) (l : List Byte) : (d.poke a l).flash = d.flash := rfl
@[simp] theorem Dev.poke_update (d : Dev) (a : Nat) (l : List Byte) : (d.poke a l).update = d.update := rfl
@[simp] theorem Dev.poke_safety (d : Dev) (a : Nat) (l : List Byte) : (d.poke a l).safety = d.safety := rfl
@[simp] theorem Dev.poke_freeze (d : Dev) (a : Nat) (l : List Byte) : (d.poke a l).freeze = d.freeze := rfl
@[simp] theorem Dev.poke_svp (d : Dev) (a : Nat) (l : List Byte) : (d.poke a l).svp = d.svp := rfl
@[simp] theorem Dev.poke_probe (d : Dev) (a : Nat) (l : List Byte) : (d.poke a l).probe = d.probe := rfl

/-! Dev.tick. -/

@[simp] theorem Dev.tick_free (d : Dev) (t : Nat) : (d.tick t).free = d.free := rfl
@[simp] theorem Dev.tick_events (d : Dev) (t : Nat) : (d.tick t).events = d.events := rfl
@[simp] theorem Dev.tick_mem (d : Dev) (t : Nat) : (d.tick t).mem = d.mem := rfl
@[simp] theorem Dev.tick_writes (d : Dev) (t : Nat) : (d.tick t).writes = d.writes := rfl
@[simp] theorem Dev.tick_poison (d : Dev) (t : Nat) : (d.tick t).poison = d.poison := rfl
@[simp] theorem Dev.tick_board (d : Dev) (t : Nat) : (d.tick t).board = d.board := rfl
@[simp] theorem Dev.tick_manager (d : Dev) (t : Nat) : (d.tick t).manager = d.manager := rfl
@[simp] theorem Dev.tick_fns (d : Dev) (t : Nat) : (d.tick t).fns = d.fns := rfl
@[simp] theorem Dev.tick_ports (d : Dev) (t : Nat) : (d.tick t).ports = d.ports := rfl
@[simp] theorem Dev.tick_rings (d : Dev) (t : Nat) : (d.tick t).rings = d.rings := rfl
@[simp] theorem Dev.tick_rrGrant (d : Dev) (t : Nat) : (d.tick t).rrGrant = d.rrGrant := rfl
@[simp] theorem Dev.tick_ops (d : Dev) (t : Nat) : (d.tick t).ops = d.ops := rfl
@[simp] theorem Dev.tick_commits (d : Dev) (t : Nat) : (d.tick t).commits = d.commits := rfl
@[simp] theorem Dev.tick_publication (d : Dev) (t : Nat) : (d.tick t).publication = d.publication := rfl
@[simp] theorem Dev.tick_objs (d : Dev) (t : Nat) : (d.tick t).objs = d.objs := rfl
@[simp] theorem Dev.tick_epochAt (d : Dev) (t : Nat) : (d.tick t).epochAt = d.epochAt := rfl
@[simp] theorem Dev.tick_held (d : Dev) (t : Nat) : (d.tick t).held = d.held := rfl
@[simp] theorem Dev.tick_latch (d : Dev) (t : Nat) : (d.tick t).latch = d.latch := rfl
@[simp] theorem Dev.tick_msgs (d : Dev) (t : Nat) : (d.tick t).msgs = d.msgs := rfl
@[simp] theorem Dev.tick_host (d : Dev) (t : Nat) : (d.tick t).host = d.host := rfl
@[simp] theorem Dev.tick_fw (d : Dev) (t : Nat) : (d.tick t).fw = d.fw := rfl
@[simp] theorem Dev.tick_coreDown (d : Dev) (t : Nat) : (d.tick t).coreDown = d.coreDown := rfl
@[simp] theorem Dev.tick_raster (d : Dev) (t : Nat) : (d.tick t).raster = d.raster := rfl
@[simp] theorem Dev.tick_comp (d : Dev) (t : Nat) : (d.tick t).comp = d.comp := rfl
@[simp] theorem Dev.tick_disp (d : Dev) (t : Nat) : (d.tick t).disp = d.disp := rfl
@[simp] theorem Dev.tick_touch (d : Dev) (t : Nat) : (d.tick t).touch = d.touch := rfl
@[simp] theorem Dev.tick_haptic (d : Dev) (t : Nat) : (d.tick t).haptic = d.haptic := rfl
@[simp] theorem Dev.tick_audio (d : Dev) (t : Nat) : (d.tick t).audio = d.audio := rfl
@[simp] theorem Dev.tick_cvus (d : Dev) (t : Nat) : (d.tick t).cvus = d.cvus := rfl
@[simp] theorem Dev.tick_dram (d : Dev) (t : Nat) : (d.tick t).dram = d.dram := rfl
@[simp] theorem Dev.tick_bus (d : Dev) (t : Nat) : (d.tick t).bus = d.bus := rfl
@[simp] theorem Dev.tick_power (d : Dev) (t : Nat) : (d.tick t).power = d.power := rfl
@[simp] theorem Dev.tick_boot (d : Dev) (t : Nat) : (d.tick t).boot = d.boot := rfl
@[simp] theorem Dev.tick_flash (d : Dev) (t : Nat) : (d.tick t).flash = d.flash := rfl
@[simp] theorem Dev.tick_update (d : Dev) (t : Nat) : (d.tick t).update = d.update := rfl
@[simp] theorem Dev.tick_safety (d : Dev) (t : Nat) : (d.tick t).safety = d.safety := rfl
@[simp] theorem Dev.tick_freeze (d : Dev) (t : Nat) : (d.tick t).freeze = d.freeze := rfl
@[simp] theorem Dev.tick_svp (d : Dev) (t : Nat) : (d.tick t).svp = d.svp := rfl
@[simp] theorem Dev.tick_probe (d : Dev) (t : Nat) : (d.tick t).probe = d.probe := rfl

/-! Dev.setLive. -/

@[simp] theorem Dev.setLive_now (d : Dev) (c i w : Nat) (v : W72) : (d.setLive c i w v).now = d.now := rfl
@[simp] theorem Dev.setLive_free (d : Dev) (c i w : Nat) (v : W72) : (d.setLive c i w v).free = d.free := rfl
@[simp] theorem Dev.setLive_events (d : Dev) (c i w : Nat) (v : W72) : (d.setLive c i w v).events = d.events := rfl
@[simp] theorem Dev.setLive_mem (d : Dev) (c i w : Nat) (v : W72) : (d.setLive c i w v).mem = d.mem := rfl
@[simp] theorem Dev.setLive_writes (d : Dev) (c i w : Nat) (v : W72) : (d.setLive c i w v).writes = d.writes := rfl
@[simp] theorem Dev.setLive_poison (d : Dev) (c i w : Nat) (v : W72) : (d.setLive c i w v).poison = d.poison := rfl
@[simp] theorem Dev.setLive_board (d : Dev) (c i w : Nat) (v : W72) : (d.setLive c i w v).board = d.board := rfl
@[simp] theorem Dev.setLive_manager (d : Dev) (c i w : Nat) (v : W72) : (d.setLive c i w v).manager = d.manager := rfl
@[simp] theorem Dev.setLive_fns (d : Dev) (c i w : Nat) (v : W72) : (d.setLive c i w v).fns = d.fns := rfl
@[simp] theorem Dev.setLive_ports (d : Dev) (c i w : Nat) (v : W72) : (d.setLive c i w v).ports = d.ports := rfl
@[simp] theorem Dev.setLive_rings (d : Dev) (c i w : Nat) (v : W72) : (d.setLive c i w v).rings = d.rings := rfl
@[simp] theorem Dev.setLive_rrGrant (d : Dev) (c i w : Nat) (v : W72) : (d.setLive c i w v).rrGrant = d.rrGrant := rfl
@[simp] theorem Dev.setLive_ops (d : Dev) (c i w : Nat) (v : W72) : (d.setLive c i w v).ops = d.ops := rfl
@[simp] theorem Dev.setLive_commits (d : Dev) (c i w : Nat) (v : W72) : (d.setLive c i w v).commits = d.commits := rfl
@[simp] theorem Dev.setLive_publication (d : Dev) (c i w : Nat) (v : W72) : (d.setLive c i w v).publication = d.publication := rfl
@[simp] theorem Dev.setLive_objs (d : Dev) (c i w : Nat) (v : W72) : (d.setLive c i w v).objs = d.objs := rfl
@[simp] theorem Dev.setLive_epochAt (d : Dev) (c i w : Nat) (v : W72) : (d.setLive c i w v).epochAt = d.epochAt := rfl
@[simp] theorem Dev.setLive_held (d : Dev) (c i w : Nat) (v : W72) : (d.setLive c i w v).held = d.held := rfl
@[simp] theorem Dev.setLive_latch (d : Dev) (c i w : Nat) (v : W72) : (d.setLive c i w v).latch = d.latch := rfl
@[simp] theorem Dev.setLive_msgs (d : Dev) (c i w : Nat) (v : W72) : (d.setLive c i w v).msgs = d.msgs := rfl
@[simp] theorem Dev.setLive_host (d : Dev) (c i w : Nat) (v : W72) : (d.setLive c i w v).host = d.host := rfl
@[simp] theorem Dev.setLive_fw (d : Dev) (c i w : Nat) (v : W72) : (d.setLive c i w v).fw = d.fw := rfl
@[simp] theorem Dev.setLive_coreDown (d : Dev) (c i w : Nat) (v : W72) : (d.setLive c i w v).coreDown = d.coreDown := rfl
@[simp] theorem Dev.setLive_raster (d : Dev) (c i w : Nat) (v : W72) : (d.setLive c i w v).raster = d.raster := rfl
@[simp] theorem Dev.setLive_disp (d : Dev) (c i w : Nat) (v : W72) : (d.setLive c i w v).disp = d.disp := rfl
@[simp] theorem Dev.setLive_touch (d : Dev) (c i w : Nat) (v : W72) : (d.setLive c i w v).touch = d.touch := rfl
@[simp] theorem Dev.setLive_haptic (d : Dev) (c i w : Nat) (v : W72) : (d.setLive c i w v).haptic = d.haptic := rfl
@[simp] theorem Dev.setLive_audio (d : Dev) (c i w : Nat) (v : W72) : (d.setLive c i w v).audio = d.audio := rfl
@[simp] theorem Dev.setLive_cvus (d : Dev) (c i w : Nat) (v : W72) : (d.setLive c i w v).cvus = d.cvus := rfl
@[simp] theorem Dev.setLive_dram (d : Dev) (c i w : Nat) (v : W72) : (d.setLive c i w v).dram = d.dram := rfl
@[simp] theorem Dev.setLive_bus (d : Dev) (c i w : Nat) (v : W72) : (d.setLive c i w v).bus = d.bus := rfl
@[simp] theorem Dev.setLive_power (d : Dev) (c i w : Nat) (v : W72) : (d.setLive c i w v).power = d.power := rfl
@[simp] theorem Dev.setLive_boot (d : Dev) (c i w : Nat) (v : W72) : (d.setLive c i w v).boot = d.boot := rfl
@[simp] theorem Dev.setLive_flash (d : Dev) (c i w : Nat) (v : W72) : (d.setLive c i w v).flash = d.flash := rfl
@[simp] theorem Dev.setLive_update (d : Dev) (c i w : Nat) (v : W72) : (d.setLive c i w v).update = d.update := rfl
@[simp] theorem Dev.setLive_safety (d : Dev) (c i w : Nat) (v : W72) : (d.setLive c i w v).safety = d.safety := rfl
@[simp] theorem Dev.setLive_freeze (d : Dev) (c i w : Nat) (v : W72) : (d.setLive c i w v).freeze = d.freeze := rfl
@[simp] theorem Dev.setLive_svp (d : Dev) (c i w : Nat) (v : W72) : (d.setLive c i w v).svp = d.svp := rfl
@[simp] theorem Dev.setLive_probe (d : Dev) (c i w : Nat) (v : W72) : (d.setLive c i w v).probe = d.probe := rfl

/-! Dev.setPc. -/

@[simp] theorem Dev.setPc_now (d : Dev) (p : Nat) (x : PipeComp) : (d.setPc p x).now = d.now := rfl
@[simp] theorem Dev.setPc_free (d : Dev) (p : Nat) (x : PipeComp) : (d.setPc p x).free = d.free := rfl
@[simp] theorem Dev.setPc_events (d : Dev) (p : Nat) (x : PipeComp) : (d.setPc p x).events = d.events := rfl
@[simp] theorem Dev.setPc_mem (d : Dev) (p : Nat) (x : PipeComp) : (d.setPc p x).mem = d.mem := rfl
@[simp] theorem Dev.setPc_writes (d : Dev) (p : Nat) (x : PipeComp) : (d.setPc p x).writes = d.writes := rfl
@[simp] theorem Dev.setPc_poison (d : Dev) (p : Nat) (x : PipeComp) : (d.setPc p x).poison = d.poison := rfl
@[simp] theorem Dev.setPc_board (d : Dev) (p : Nat) (x : PipeComp) : (d.setPc p x).board = d.board := rfl
@[simp] theorem Dev.setPc_manager (d : Dev) (p : Nat) (x : PipeComp) : (d.setPc p x).manager = d.manager := rfl
@[simp] theorem Dev.setPc_fns (d : Dev) (p : Nat) (x : PipeComp) : (d.setPc p x).fns = d.fns := rfl
@[simp] theorem Dev.setPc_ports (d : Dev) (p : Nat) (x : PipeComp) : (d.setPc p x).ports = d.ports := rfl
@[simp] theorem Dev.setPc_rings (d : Dev) (p : Nat) (x : PipeComp) : (d.setPc p x).rings = d.rings := rfl
@[simp] theorem Dev.setPc_rrGrant (d : Dev) (p : Nat) (x : PipeComp) : (d.setPc p x).rrGrant = d.rrGrant := rfl
@[simp] theorem Dev.setPc_ops (d : Dev) (p : Nat) (x : PipeComp) : (d.setPc p x).ops = d.ops := rfl
@[simp] theorem Dev.setPc_commits (d : Dev) (p : Nat) (x : PipeComp) : (d.setPc p x).commits = d.commits := rfl
@[simp] theorem Dev.setPc_publication (d : Dev) (p : Nat) (x : PipeComp) : (d.setPc p x).publication = d.publication := rfl
@[simp] theorem Dev.setPc_objs (d : Dev) (p : Nat) (x : PipeComp) : (d.setPc p x).objs = d.objs := rfl
@[simp] theorem Dev.setPc_epochAt (d : Dev) (p : Nat) (x : PipeComp) : (d.setPc p x).epochAt = d.epochAt := rfl
@[simp] theorem Dev.setPc_held (d : Dev) (p : Nat) (x : PipeComp) : (d.setPc p x).held = d.held := rfl
@[simp] theorem Dev.setPc_latch (d : Dev) (p : Nat) (x : PipeComp) : (d.setPc p x).latch = d.latch := rfl
@[simp] theorem Dev.setPc_msgs (d : Dev) (p : Nat) (x : PipeComp) : (d.setPc p x).msgs = d.msgs := rfl
@[simp] theorem Dev.setPc_host (d : Dev) (p : Nat) (x : PipeComp) : (d.setPc p x).host = d.host := rfl
@[simp] theorem Dev.setPc_fw (d : Dev) (p : Nat) (x : PipeComp) : (d.setPc p x).fw = d.fw := rfl
@[simp] theorem Dev.setPc_coreDown (d : Dev) (p : Nat) (x : PipeComp) : (d.setPc p x).coreDown = d.coreDown := rfl
@[simp] theorem Dev.setPc_raster (d : Dev) (p : Nat) (x : PipeComp) : (d.setPc p x).raster = d.raster := rfl
@[simp] theorem Dev.setPc_disp (d : Dev) (p : Nat) (x : PipeComp) : (d.setPc p x).disp = d.disp := rfl
@[simp] theorem Dev.setPc_touch (d : Dev) (p : Nat) (x : PipeComp) : (d.setPc p x).touch = d.touch := rfl
@[simp] theorem Dev.setPc_haptic (d : Dev) (p : Nat) (x : PipeComp) : (d.setPc p x).haptic = d.haptic := rfl
@[simp] theorem Dev.setPc_audio (d : Dev) (p : Nat) (x : PipeComp) : (d.setPc p x).audio = d.audio := rfl
@[simp] theorem Dev.setPc_cvus (d : Dev) (p : Nat) (x : PipeComp) : (d.setPc p x).cvus = d.cvus := rfl
@[simp] theorem Dev.setPc_dram (d : Dev) (p : Nat) (x : PipeComp) : (d.setPc p x).dram = d.dram := rfl
@[simp] theorem Dev.setPc_bus (d : Dev) (p : Nat) (x : PipeComp) : (d.setPc p x).bus = d.bus := rfl
@[simp] theorem Dev.setPc_power (d : Dev) (p : Nat) (x : PipeComp) : (d.setPc p x).power = d.power := rfl
@[simp] theorem Dev.setPc_boot (d : Dev) (p : Nat) (x : PipeComp) : (d.setPc p x).boot = d.boot := rfl
@[simp] theorem Dev.setPc_flash (d : Dev) (p : Nat) (x : PipeComp) : (d.setPc p x).flash = d.flash := rfl
@[simp] theorem Dev.setPc_update (d : Dev) (p : Nat) (x : PipeComp) : (d.setPc p x).update = d.update := rfl
@[simp] theorem Dev.setPc_safety (d : Dev) (p : Nat) (x : PipeComp) : (d.setPc p x).safety = d.safety := rfl
@[simp] theorem Dev.setPc_freeze (d : Dev) (p : Nat) (x : PipeComp) : (d.setPc p x).freeze = d.freeze := rfl
@[simp] theorem Dev.setPc_svp (d : Dev) (p : Nat) (x : PipeComp) : (d.setPc p x).svp = d.svp := rfl
@[simp] theorem Dev.setPc_probe (d : Dev) (p : Nat) (x : PipeComp) : (d.setPc p x).probe = d.probe := rfl

/-! Dev.setHandle. -/

@[simp] theorem Dev.setHandle_now (d : Dev) (k : Nat) (x : Handle) : (d.setHandle k x).now = d.now := rfl
@[simp] theorem Dev.setHandle_free (d : Dev) (k : Nat) (x : Handle) : (d.setHandle k x).free = d.free := rfl
@[simp] theorem Dev.setHandle_events (d : Dev) (k : Nat) (x : Handle) : (d.setHandle k x).events = d.events := rfl
@[simp] theorem Dev.setHandle_mem (d : Dev) (k : Nat) (x : Handle) : (d.setHandle k x).mem = d.mem := rfl
@[simp] theorem Dev.setHandle_writes (d : Dev) (k : Nat) (x : Handle) : (d.setHandle k x).writes = d.writes := rfl
@[simp] theorem Dev.setHandle_poison (d : Dev) (k : Nat) (x : Handle) : (d.setHandle k x).poison = d.poison := rfl
@[simp] theorem Dev.setHandle_board (d : Dev) (k : Nat) (x : Handle) : (d.setHandle k x).board = d.board := rfl
@[simp] theorem Dev.setHandle_manager (d : Dev) (k : Nat) (x : Handle) : (d.setHandle k x).manager = d.manager := rfl
@[simp] theorem Dev.setHandle_fns (d : Dev) (k : Nat) (x : Handle) : (d.setHandle k x).fns = d.fns := rfl
@[simp] theorem Dev.setHandle_ports (d : Dev) (k : Nat) (x : Handle) : (d.setHandle k x).ports = d.ports := rfl
@[simp] theorem Dev.setHandle_rings (d : Dev) (k : Nat) (x : Handle) : (d.setHandle k x).rings = d.rings := rfl
@[simp] theorem Dev.setHandle_rrGrant (d : Dev) (k : Nat) (x : Handle) : (d.setHandle k x).rrGrant = d.rrGrant := rfl
@[simp] theorem Dev.setHandle_ops (d : Dev) (k : Nat) (x : Handle) : (d.setHandle k x).ops = d.ops := rfl
@[simp] theorem Dev.setHandle_commits (d : Dev) (k : Nat) (x : Handle) : (d.setHandle k x).commits = d.commits := rfl
@[simp] theorem Dev.setHandle_publication (d : Dev) (k : Nat) (x : Handle) : (d.setHandle k x).publication = d.publication := rfl
@[simp] theorem Dev.setHandle_objs (d : Dev) (k : Nat) (x : Handle) : (d.setHandle k x).objs = d.objs := rfl
@[simp] theorem Dev.setHandle_epochAt (d : Dev) (k : Nat) (x : Handle) : (d.setHandle k x).epochAt = d.epochAt := rfl
@[simp] theorem Dev.setHandle_held (d : Dev) (k : Nat) (x : Handle) : (d.setHandle k x).held = d.held := rfl
@[simp] theorem Dev.setHandle_latch (d : Dev) (k : Nat) (x : Handle) : (d.setHandle k x).latch = d.latch := rfl
@[simp] theorem Dev.setHandle_msgs (d : Dev) (k : Nat) (x : Handle) : (d.setHandle k x).msgs = d.msgs := rfl
@[simp] theorem Dev.setHandle_host (d : Dev) (k : Nat) (x : Handle) : (d.setHandle k x).host = d.host := rfl
@[simp] theorem Dev.setHandle_fw (d : Dev) (k : Nat) (x : Handle) : (d.setHandle k x).fw = d.fw := rfl
@[simp] theorem Dev.setHandle_coreDown (d : Dev) (k : Nat) (x : Handle) : (d.setHandle k x).coreDown = d.coreDown := rfl
@[simp] theorem Dev.setHandle_raster (d : Dev) (k : Nat) (x : Handle) : (d.setHandle k x).raster = d.raster := rfl
@[simp] theorem Dev.setHandle_disp (d : Dev) (k : Nat) (x : Handle) : (d.setHandle k x).disp = d.disp := rfl
@[simp] theorem Dev.setHandle_touch (d : Dev) (k : Nat) (x : Handle) : (d.setHandle k x).touch = d.touch := rfl
@[simp] theorem Dev.setHandle_haptic (d : Dev) (k : Nat) (x : Handle) : (d.setHandle k x).haptic = d.haptic := rfl
@[simp] theorem Dev.setHandle_audio (d : Dev) (k : Nat) (x : Handle) : (d.setHandle k x).audio = d.audio := rfl
@[simp] theorem Dev.setHandle_cvus (d : Dev) (k : Nat) (x : Handle) : (d.setHandle k x).cvus = d.cvus := rfl
@[simp] theorem Dev.setHandle_dram (d : Dev) (k : Nat) (x : Handle) : (d.setHandle k x).dram = d.dram := rfl
@[simp] theorem Dev.setHandle_bus (d : Dev) (k : Nat) (x : Handle) : (d.setHandle k x).bus = d.bus := rfl
@[simp] theorem Dev.setHandle_power (d : Dev) (k : Nat) (x : Handle) : (d.setHandle k x).power = d.power := rfl
@[simp] theorem Dev.setHandle_boot (d : Dev) (k : Nat) (x : Handle) : (d.setHandle k x).boot = d.boot := rfl
@[simp] theorem Dev.setHandle_flash (d : Dev) (k : Nat) (x : Handle) : (d.setHandle k x).flash = d.flash := rfl
@[simp] theorem Dev.setHandle_update (d : Dev) (k : Nat) (x : Handle) : (d.setHandle k x).update = d.update := rfl
@[simp] theorem Dev.setHandle_safety (d : Dev) (k : Nat) (x : Handle) : (d.setHandle k x).safety = d.safety := rfl
@[simp] theorem Dev.setHandle_freeze (d : Dev) (k : Nat) (x : Handle) : (d.setHandle k x).freeze = d.freeze := rfl
@[simp] theorem Dev.setHandle_svp (d : Dev) (k : Nat) (x : Handle) : (d.setHandle k x).svp = d.svp := rfl
@[simp] theorem Dev.setHandle_probe (d : Dev) (k : Nat) (x : Handle) : (d.setHandle k x).probe = d.probe := rfl

/-! Dev.setPt. -/

@[simp] theorem Dev.setPt_now (d : Dev) (p : Nat) (x : PipeTime) : (d.setPt p x).now = d.now := rfl
@[simp] theorem Dev.setPt_free (d : Dev) (p : Nat) (x : PipeTime) : (d.setPt p x).free = d.free := rfl
@[simp] theorem Dev.setPt_events (d : Dev) (p : Nat) (x : PipeTime) : (d.setPt p x).events = d.events := rfl
@[simp] theorem Dev.setPt_mem (d : Dev) (p : Nat) (x : PipeTime) : (d.setPt p x).mem = d.mem := rfl
@[simp] theorem Dev.setPt_writes (d : Dev) (p : Nat) (x : PipeTime) : (d.setPt p x).writes = d.writes := rfl
@[simp] theorem Dev.setPt_poison (d : Dev) (p : Nat) (x : PipeTime) : (d.setPt p x).poison = d.poison := rfl
@[simp] theorem Dev.setPt_board (d : Dev) (p : Nat) (x : PipeTime) : (d.setPt p x).board = d.board := rfl
@[simp] theorem Dev.setPt_manager (d : Dev) (p : Nat) (x : PipeTime) : (d.setPt p x).manager = d.manager := rfl
@[simp] theorem Dev.setPt_fns (d : Dev) (p : Nat) (x : PipeTime) : (d.setPt p x).fns = d.fns := rfl
@[simp] theorem Dev.setPt_ports (d : Dev) (p : Nat) (x : PipeTime) : (d.setPt p x).ports = d.ports := rfl
@[simp] theorem Dev.setPt_rings (d : Dev) (p : Nat) (x : PipeTime) : (d.setPt p x).rings = d.rings := rfl
@[simp] theorem Dev.setPt_rrGrant (d : Dev) (p : Nat) (x : PipeTime) : (d.setPt p x).rrGrant = d.rrGrant := rfl
@[simp] theorem Dev.setPt_ops (d : Dev) (p : Nat) (x : PipeTime) : (d.setPt p x).ops = d.ops := rfl
@[simp] theorem Dev.setPt_commits (d : Dev) (p : Nat) (x : PipeTime) : (d.setPt p x).commits = d.commits := rfl
@[simp] theorem Dev.setPt_publication (d : Dev) (p : Nat) (x : PipeTime) : (d.setPt p x).publication = d.publication := rfl
@[simp] theorem Dev.setPt_objs (d : Dev) (p : Nat) (x : PipeTime) : (d.setPt p x).objs = d.objs := rfl
@[simp] theorem Dev.setPt_epochAt (d : Dev) (p : Nat) (x : PipeTime) : (d.setPt p x).epochAt = d.epochAt := rfl
@[simp] theorem Dev.setPt_held (d : Dev) (p : Nat) (x : PipeTime) : (d.setPt p x).held = d.held := rfl
@[simp] theorem Dev.setPt_latch (d : Dev) (p : Nat) (x : PipeTime) : (d.setPt p x).latch = d.latch := rfl
@[simp] theorem Dev.setPt_msgs (d : Dev) (p : Nat) (x : PipeTime) : (d.setPt p x).msgs = d.msgs := rfl
@[simp] theorem Dev.setPt_host (d : Dev) (p : Nat) (x : PipeTime) : (d.setPt p x).host = d.host := rfl
@[simp] theorem Dev.setPt_fw (d : Dev) (p : Nat) (x : PipeTime) : (d.setPt p x).fw = d.fw := rfl
@[simp] theorem Dev.setPt_coreDown (d : Dev) (p : Nat) (x : PipeTime) : (d.setPt p x).coreDown = d.coreDown := rfl
@[simp] theorem Dev.setPt_raster (d : Dev) (p : Nat) (x : PipeTime) : (d.setPt p x).raster = d.raster := rfl
@[simp] theorem Dev.setPt_comp (d : Dev) (p : Nat) (x : PipeTime) : (d.setPt p x).comp = d.comp := rfl
@[simp] theorem Dev.setPt_touch (d : Dev) (p : Nat) (x : PipeTime) : (d.setPt p x).touch = d.touch := rfl
@[simp] theorem Dev.setPt_haptic (d : Dev) (p : Nat) (x : PipeTime) : (d.setPt p x).haptic = d.haptic := rfl
@[simp] theorem Dev.setPt_audio (d : Dev) (p : Nat) (x : PipeTime) : (d.setPt p x).audio = d.audio := rfl
@[simp] theorem Dev.setPt_cvus (d : Dev) (p : Nat) (x : PipeTime) : (d.setPt p x).cvus = d.cvus := rfl
@[simp] theorem Dev.setPt_dram (d : Dev) (p : Nat) (x : PipeTime) : (d.setPt p x).dram = d.dram := rfl
@[simp] theorem Dev.setPt_bus (d : Dev) (p : Nat) (x : PipeTime) : (d.setPt p x).bus = d.bus := rfl
@[simp] theorem Dev.setPt_power (d : Dev) (p : Nat) (x : PipeTime) : (d.setPt p x).power = d.power := rfl
@[simp] theorem Dev.setPt_boot (d : Dev) (p : Nat) (x : PipeTime) : (d.setPt p x).boot = d.boot := rfl
@[simp] theorem Dev.setPt_flash (d : Dev) (p : Nat) (x : PipeTime) : (d.setPt p x).flash = d.flash := rfl
@[simp] theorem Dev.setPt_update (d : Dev) (p : Nat) (x : PipeTime) : (d.setPt p x).update = d.update := rfl
@[simp] theorem Dev.setPt_safety (d : Dev) (p : Nat) (x : PipeTime) : (d.setPt p x).safety = d.safety := rfl
@[simp] theorem Dev.setPt_freeze (d : Dev) (p : Nat) (x : PipeTime) : (d.setPt p x).freeze = d.freeze := rfl
@[simp] theorem Dev.setPt_svp (d : Dev) (p : Nat) (x : PipeTime) : (d.setPt p x).svp = d.svp := rfl
@[simp] theorem Dev.setPt_probe (d : Dev) (p : Nat) (x : PipeTime) : (d.setPt p x).probe = d.probe := rfl

/-! Dev.setDport. -/

@[simp] theorem Dev.setDport_now (d : Dev) (p : Nat) (x : DispPort) : (d.setDport p x).now = d.now := rfl
@[simp] theorem Dev.setDport_free (d : Dev) (p : Nat) (x : DispPort) : (d.setDport p x).free = d.free := rfl
@[simp] theorem Dev.setDport_events (d : Dev) (p : Nat) (x : DispPort) : (d.setDport p x).events = d.events := rfl
@[simp] theorem Dev.setDport_mem (d : Dev) (p : Nat) (x : DispPort) : (d.setDport p x).mem = d.mem := rfl
@[simp] theorem Dev.setDport_writes (d : Dev) (p : Nat) (x : DispPort) : (d.setDport p x).writes = d.writes := rfl
@[simp] theorem Dev.setDport_poison (d : Dev) (p : Nat) (x : DispPort) : (d.setDport p x).poison = d.poison := rfl
@[simp] theorem Dev.setDport_board (d : Dev) (p : Nat) (x : DispPort) : (d.setDport p x).board = d.board := rfl
@[simp] theorem Dev.setDport_manager (d : Dev) (p : Nat) (x : DispPort) : (d.setDport p x).manager = d.manager := rfl
@[simp] theorem Dev.setDport_fns (d : Dev) (p : Nat) (x : DispPort) : (d.setDport p x).fns = d.fns := rfl
@[simp] theorem Dev.setDport_ports (d : Dev) (p : Nat) (x : DispPort) : (d.setDport p x).ports = d.ports := rfl
@[simp] theorem Dev.setDport_rings (d : Dev) (p : Nat) (x : DispPort) : (d.setDport p x).rings = d.rings := rfl
@[simp] theorem Dev.setDport_rrGrant (d : Dev) (p : Nat) (x : DispPort) : (d.setDport p x).rrGrant = d.rrGrant := rfl
@[simp] theorem Dev.setDport_ops (d : Dev) (p : Nat) (x : DispPort) : (d.setDport p x).ops = d.ops := rfl
@[simp] theorem Dev.setDport_commits (d : Dev) (p : Nat) (x : DispPort) : (d.setDport p x).commits = d.commits := rfl
@[simp] theorem Dev.setDport_publication (d : Dev) (p : Nat) (x : DispPort) : (d.setDport p x).publication = d.publication := rfl
@[simp] theorem Dev.setDport_objs (d : Dev) (p : Nat) (x : DispPort) : (d.setDport p x).objs = d.objs := rfl
@[simp] theorem Dev.setDport_epochAt (d : Dev) (p : Nat) (x : DispPort) : (d.setDport p x).epochAt = d.epochAt := rfl
@[simp] theorem Dev.setDport_held (d : Dev) (p : Nat) (x : DispPort) : (d.setDport p x).held = d.held := rfl
@[simp] theorem Dev.setDport_latch (d : Dev) (p : Nat) (x : DispPort) : (d.setDport p x).latch = d.latch := rfl
@[simp] theorem Dev.setDport_msgs (d : Dev) (p : Nat) (x : DispPort) : (d.setDport p x).msgs = d.msgs := rfl
@[simp] theorem Dev.setDport_host (d : Dev) (p : Nat) (x : DispPort) : (d.setDport p x).host = d.host := rfl
@[simp] theorem Dev.setDport_fw (d : Dev) (p : Nat) (x : DispPort) : (d.setDport p x).fw = d.fw := rfl
@[simp] theorem Dev.setDport_coreDown (d : Dev) (p : Nat) (x : DispPort) : (d.setDport p x).coreDown = d.coreDown := rfl
@[simp] theorem Dev.setDport_raster (d : Dev) (p : Nat) (x : DispPort) : (d.setDport p x).raster = d.raster := rfl
@[simp] theorem Dev.setDport_comp (d : Dev) (p : Nat) (x : DispPort) : (d.setDport p x).comp = d.comp := rfl
@[simp] theorem Dev.setDport_touch (d : Dev) (p : Nat) (x : DispPort) : (d.setDport p x).touch = d.touch := rfl
@[simp] theorem Dev.setDport_haptic (d : Dev) (p : Nat) (x : DispPort) : (d.setDport p x).haptic = d.haptic := rfl
@[simp] theorem Dev.setDport_audio (d : Dev) (p : Nat) (x : DispPort) : (d.setDport p x).audio = d.audio := rfl
@[simp] theorem Dev.setDport_cvus (d : Dev) (p : Nat) (x : DispPort) : (d.setDport p x).cvus = d.cvus := rfl
@[simp] theorem Dev.setDport_dram (d : Dev) (p : Nat) (x : DispPort) : (d.setDport p x).dram = d.dram := rfl
@[simp] theorem Dev.setDport_bus (d : Dev) (p : Nat) (x : DispPort) : (d.setDport p x).bus = d.bus := rfl
@[simp] theorem Dev.setDport_power (d : Dev) (p : Nat) (x : DispPort) : (d.setDport p x).power = d.power := rfl
@[simp] theorem Dev.setDport_boot (d : Dev) (p : Nat) (x : DispPort) : (d.setDport p x).boot = d.boot := rfl
@[simp] theorem Dev.setDport_flash (d : Dev) (p : Nat) (x : DispPort) : (d.setDport p x).flash = d.flash := rfl
@[simp] theorem Dev.setDport_update (d : Dev) (p : Nat) (x : DispPort) : (d.setDport p x).update = d.update := rfl
@[simp] theorem Dev.setDport_safety (d : Dev) (p : Nat) (x : DispPort) : (d.setDport p x).safety = d.safety := rfl
@[simp] theorem Dev.setDport_freeze (d : Dev) (p : Nat) (x : DispPort) : (d.setDport p x).freeze = d.freeze := rfl
@[simp] theorem Dev.setDport_svp (d : Dev) (p : Nat) (x : DispPort) : (d.setDport p x).svp = d.svp := rfl
@[simp] theorem Dev.setDport_probe (d : Dev) (p : Nat) (x : DispPort) : (d.setDport p x).probe = d.probe := rfl

/-! Dev.updEntry. -/

@[simp] theorem Dev.updEntry_now (d : Dev) (g a : Nat) (h : Entry → Entry) : (d.updEntry g a h).now = d.now := rfl
@[simp] theorem Dev.updEntry_free (d : Dev) (g a : Nat) (h : Entry → Entry) : (d.updEntry g a h).free = d.free := rfl
@[simp] theorem Dev.updEntry_events (d : Dev) (g a : Nat) (h : Entry → Entry) : (d.updEntry g a h).events = d.events := rfl
@[simp] theorem Dev.updEntry_mem (d : Dev) (g a : Nat) (h : Entry → Entry) : (d.updEntry g a h).mem = d.mem := rfl
@[simp] theorem Dev.updEntry_writes (d : Dev) (g a : Nat) (h : Entry → Entry) : (d.updEntry g a h).writes = d.writes := rfl
@[simp] theorem Dev.updEntry_poison (d : Dev) (g a : Nat) (h : Entry → Entry) : (d.updEntry g a h).poison = d.poison := rfl
@[simp] theorem Dev.updEntry_board (d : Dev) (g a : Nat) (h : Entry → Entry) : (d.updEntry g a h).board = d.board := rfl
@[simp] theorem Dev.updEntry_manager (d : Dev) (g a : Nat) (h : Entry → Entry) : (d.updEntry g a h).manager = d.manager := rfl
@[simp] theorem Dev.updEntry_fns (d : Dev) (g a : Nat) (h : Entry → Entry) : (d.updEntry g a h).fns = d.fns := rfl
@[simp] theorem Dev.updEntry_ports (d : Dev) (g a : Nat) (h : Entry → Entry) : (d.updEntry g a h).ports = d.ports := rfl
@[simp] theorem Dev.updEntry_rrGrant (d : Dev) (g a : Nat) (h : Entry → Entry) : (d.updEntry g a h).rrGrant = d.rrGrant := rfl
@[simp] theorem Dev.updEntry_ops (d : Dev) (g a : Nat) (h : Entry → Entry) : (d.updEntry g a h).ops = d.ops := rfl
@[simp] theorem Dev.updEntry_commits (d : Dev) (g a : Nat) (h : Entry → Entry) : (d.updEntry g a h).commits = d.commits := rfl
@[simp] theorem Dev.updEntry_publication (d : Dev) (g a : Nat) (h : Entry → Entry) : (d.updEntry g a h).publication = d.publication := rfl
@[simp] theorem Dev.updEntry_objs (d : Dev) (g a : Nat) (h : Entry → Entry) : (d.updEntry g a h).objs = d.objs := rfl
@[simp] theorem Dev.updEntry_epochAt (d : Dev) (g a : Nat) (h : Entry → Entry) : (d.updEntry g a h).epochAt = d.epochAt := rfl
@[simp] theorem Dev.updEntry_held (d : Dev) (g a : Nat) (h : Entry → Entry) : (d.updEntry g a h).held = d.held := rfl
@[simp] theorem Dev.updEntry_latch (d : Dev) (g a : Nat) (h : Entry → Entry) : (d.updEntry g a h).latch = d.latch := rfl
@[simp] theorem Dev.updEntry_msgs (d : Dev) (g a : Nat) (h : Entry → Entry) : (d.updEntry g a h).msgs = d.msgs := rfl
@[simp] theorem Dev.updEntry_host (d : Dev) (g a : Nat) (h : Entry → Entry) : (d.updEntry g a h).host = d.host := rfl
@[simp] theorem Dev.updEntry_fw (d : Dev) (g a : Nat) (h : Entry → Entry) : (d.updEntry g a h).fw = d.fw := rfl
@[simp] theorem Dev.updEntry_coreDown (d : Dev) (g a : Nat) (h : Entry → Entry) : (d.updEntry g a h).coreDown = d.coreDown := rfl
@[simp] theorem Dev.updEntry_raster (d : Dev) (g a : Nat) (h : Entry → Entry) : (d.updEntry g a h).raster = d.raster := rfl
@[simp] theorem Dev.updEntry_comp (d : Dev) (g a : Nat) (h : Entry → Entry) : (d.updEntry g a h).comp = d.comp := rfl
@[simp] theorem Dev.updEntry_disp (d : Dev) (g a : Nat) (h : Entry → Entry) : (d.updEntry g a h).disp = d.disp := rfl
@[simp] theorem Dev.updEntry_touch (d : Dev) (g a : Nat) (h : Entry → Entry) : (d.updEntry g a h).touch = d.touch := rfl
@[simp] theorem Dev.updEntry_haptic (d : Dev) (g a : Nat) (h : Entry → Entry) : (d.updEntry g a h).haptic = d.haptic := rfl
@[simp] theorem Dev.updEntry_audio (d : Dev) (g a : Nat) (h : Entry → Entry) : (d.updEntry g a h).audio = d.audio := rfl
@[simp] theorem Dev.updEntry_cvus (d : Dev) (g a : Nat) (h : Entry → Entry) : (d.updEntry g a h).cvus = d.cvus := rfl
@[simp] theorem Dev.updEntry_dram (d : Dev) (g a : Nat) (h : Entry → Entry) : (d.updEntry g a h).dram = d.dram := rfl
@[simp] theorem Dev.updEntry_bus (d : Dev) (g a : Nat) (h : Entry → Entry) : (d.updEntry g a h).bus = d.bus := rfl
@[simp] theorem Dev.updEntry_power (d : Dev) (g a : Nat) (h : Entry → Entry) : (d.updEntry g a h).power = d.power := rfl
@[simp] theorem Dev.updEntry_boot (d : Dev) (g a : Nat) (h : Entry → Entry) : (d.updEntry g a h).boot = d.boot := rfl
@[simp] theorem Dev.updEntry_flash (d : Dev) (g a : Nat) (h : Entry → Entry) : (d.updEntry g a h).flash = d.flash := rfl
@[simp] theorem Dev.updEntry_update (d : Dev) (g a : Nat) (h : Entry → Entry) : (d.updEntry g a h).update = d.update := rfl
@[simp] theorem Dev.updEntry_safety (d : Dev) (g a : Nat) (h : Entry → Entry) : (d.updEntry g a h).safety = d.safety := rfl
@[simp] theorem Dev.updEntry_freeze (d : Dev) (g a : Nat) (h : Entry → Entry) : (d.updEntry g a h).freeze = d.freeze := rfl
@[simp] theorem Dev.updEntry_svp (d : Dev) (g a : Nat) (h : Entry → Entry) : (d.updEntry g a h).svp = d.svp := rfl
@[simp] theorem Dev.updEntry_probe (d : Dev) (g a : Nat) (h : Entry → Entry) : (d.updEntry g a h).probe = d.probe := rfl

/-! Dev.updThread. -/

@[simp] theorem Dev.updThread_now (d : Dev) (g : Nat) (h : Thread → Thread) : (d.updThread g h).now = d.now := rfl
@[simp] theorem Dev.updThread_free (d : Dev) (g : Nat) (h : Thread → Thread) : (d.updThread g h).free = d.free := rfl
@[simp] theorem Dev.updThread_events (d : Dev) (g : Nat) (h : Thread → Thread) : (d.updThread g h).events = d.events := rfl
@[simp] theorem Dev.updThread_mem (d : Dev) (g : Nat) (h : Thread → Thread) : (d.updThread g h).mem = d.mem := rfl
@[simp] theorem Dev.updThread_writes (d : Dev) (g : Nat) (h : Thread → Thread) : (d.updThread g h).writes = d.writes := rfl
@[simp] theorem Dev.updThread_poison (d : Dev) (g : Nat) (h : Thread → Thread) : (d.updThread g h).poison = d.poison := rfl
@[simp] theorem Dev.updThread_board (d : Dev) (g : Nat) (h : Thread → Thread) : (d.updThread g h).board = d.board := rfl
@[simp] theorem Dev.updThread_manager (d : Dev) (g : Nat) (h : Thread → Thread) : (d.updThread g h).manager = d.manager := rfl
@[simp] theorem Dev.updThread_fns (d : Dev) (g : Nat) (h : Thread → Thread) : (d.updThread g h).fns = d.fns := rfl
@[simp] theorem Dev.updThread_ports (d : Dev) (g : Nat) (h : Thread → Thread) : (d.updThread g h).ports = d.ports := rfl
@[simp] theorem Dev.updThread_rrGrant (d : Dev) (g : Nat) (h : Thread → Thread) : (d.updThread g h).rrGrant = d.rrGrant := rfl
@[simp] theorem Dev.updThread_ops (d : Dev) (g : Nat) (h : Thread → Thread) : (d.updThread g h).ops = d.ops := rfl
@[simp] theorem Dev.updThread_commits (d : Dev) (g : Nat) (h : Thread → Thread) : (d.updThread g h).commits = d.commits := rfl
@[simp] theorem Dev.updThread_publication (d : Dev) (g : Nat) (h : Thread → Thread) : (d.updThread g h).publication = d.publication := rfl
@[simp] theorem Dev.updThread_objs (d : Dev) (g : Nat) (h : Thread → Thread) : (d.updThread g h).objs = d.objs := rfl
@[simp] theorem Dev.updThread_epochAt (d : Dev) (g : Nat) (h : Thread → Thread) : (d.updThread g h).epochAt = d.epochAt := rfl
@[simp] theorem Dev.updThread_held (d : Dev) (g : Nat) (h : Thread → Thread) : (d.updThread g h).held = d.held := rfl
@[simp] theorem Dev.updThread_latch (d : Dev) (g : Nat) (h : Thread → Thread) : (d.updThread g h).latch = d.latch := rfl
@[simp] theorem Dev.updThread_msgs (d : Dev) (g : Nat) (h : Thread → Thread) : (d.updThread g h).msgs = d.msgs := rfl
@[simp] theorem Dev.updThread_host (d : Dev) (g : Nat) (h : Thread → Thread) : (d.updThread g h).host = d.host := rfl
@[simp] theorem Dev.updThread_fw (d : Dev) (g : Nat) (h : Thread → Thread) : (d.updThread g h).fw = d.fw := rfl
@[simp] theorem Dev.updThread_coreDown (d : Dev) (g : Nat) (h : Thread → Thread) : (d.updThread g h).coreDown = d.coreDown := rfl
@[simp] theorem Dev.updThread_raster (d : Dev) (g : Nat) (h : Thread → Thread) : (d.updThread g h).raster = d.raster := rfl
@[simp] theorem Dev.updThread_comp (d : Dev) (g : Nat) (h : Thread → Thread) : (d.updThread g h).comp = d.comp := rfl
@[simp] theorem Dev.updThread_disp (d : Dev) (g : Nat) (h : Thread → Thread) : (d.updThread g h).disp = d.disp := rfl
@[simp] theorem Dev.updThread_touch (d : Dev) (g : Nat) (h : Thread → Thread) : (d.updThread g h).touch = d.touch := rfl
@[simp] theorem Dev.updThread_haptic (d : Dev) (g : Nat) (h : Thread → Thread) : (d.updThread g h).haptic = d.haptic := rfl
@[simp] theorem Dev.updThread_audio (d : Dev) (g : Nat) (h : Thread → Thread) : (d.updThread g h).audio = d.audio := rfl
@[simp] theorem Dev.updThread_cvus (d : Dev) (g : Nat) (h : Thread → Thread) : (d.updThread g h).cvus = d.cvus := rfl
@[simp] theorem Dev.updThread_dram (d : Dev) (g : Nat) (h : Thread → Thread) : (d.updThread g h).dram = d.dram := rfl
@[simp] theorem Dev.updThread_bus (d : Dev) (g : Nat) (h : Thread → Thread) : (d.updThread g h).bus = d.bus := rfl
@[simp] theorem Dev.updThread_power (d : Dev) (g : Nat) (h : Thread → Thread) : (d.updThread g h).power = d.power := rfl
@[simp] theorem Dev.updThread_boot (d : Dev) (g : Nat) (h : Thread → Thread) : (d.updThread g h).boot = d.boot := rfl
@[simp] theorem Dev.updThread_flash (d : Dev) (g : Nat) (h : Thread → Thread) : (d.updThread g h).flash = d.flash := rfl
@[simp] theorem Dev.updThread_update (d : Dev) (g : Nat) (h : Thread → Thread) : (d.updThread g h).update = d.update := rfl
@[simp] theorem Dev.updThread_safety (d : Dev) (g : Nat) (h : Thread → Thread) : (d.updThread g h).safety = d.safety := rfl
@[simp] theorem Dev.updThread_freeze (d : Dev) (g : Nat) (h : Thread → Thread) : (d.updThread g h).freeze = d.freeze := rfl
@[simp] theorem Dev.updThread_svp (d : Dev) (g : Nat) (h : Thread → Thread) : (d.updThread g h).svp = d.svp := rfl
@[simp] theorem Dev.updThread_probe (d : Dev) (g : Nat) (h : Thread → Thread) : (d.updThread g h).probe = d.probe := rfl

/-! Dev.updOp. -/

@[simp] theorem Dev.updOp_now (d : Dev) (i : OpId) (h : Op → Op) : (d.updOp i h).now = d.now := rfl
@[simp] theorem Dev.updOp_free (d : Dev) (i : OpId) (h : Op → Op) : (d.updOp i h).free = d.free := rfl
@[simp] theorem Dev.updOp_events (d : Dev) (i : OpId) (h : Op → Op) : (d.updOp i h).events = d.events := rfl
@[simp] theorem Dev.updOp_mem (d : Dev) (i : OpId) (h : Op → Op) : (d.updOp i h).mem = d.mem := rfl
@[simp] theorem Dev.updOp_writes (d : Dev) (i : OpId) (h : Op → Op) : (d.updOp i h).writes = d.writes := rfl
@[simp] theorem Dev.updOp_poison (d : Dev) (i : OpId) (h : Op → Op) : (d.updOp i h).poison = d.poison := rfl
@[simp] theorem Dev.updOp_board (d : Dev) (i : OpId) (h : Op → Op) : (d.updOp i h).board = d.board := rfl
@[simp] theorem Dev.updOp_manager (d : Dev) (i : OpId) (h : Op → Op) : (d.updOp i h).manager = d.manager := rfl
@[simp] theorem Dev.updOp_fns (d : Dev) (i : OpId) (h : Op → Op) : (d.updOp i h).fns = d.fns := rfl
@[simp] theorem Dev.updOp_ports (d : Dev) (i : OpId) (h : Op → Op) : (d.updOp i h).ports = d.ports := rfl
@[simp] theorem Dev.updOp_rings (d : Dev) (i : OpId) (h : Op → Op) : (d.updOp i h).rings = d.rings := rfl
@[simp] theorem Dev.updOp_rrGrant (d : Dev) (i : OpId) (h : Op → Op) : (d.updOp i h).rrGrant = d.rrGrant := rfl
@[simp] theorem Dev.updOp_commits (d : Dev) (i : OpId) (h : Op → Op) : (d.updOp i h).commits = d.commits := rfl
@[simp] theorem Dev.updOp_publication (d : Dev) (i : OpId) (h : Op → Op) : (d.updOp i h).publication = d.publication := rfl
@[simp] theorem Dev.updOp_objs (d : Dev) (i : OpId) (h : Op → Op) : (d.updOp i h).objs = d.objs := rfl
@[simp] theorem Dev.updOp_epochAt (d : Dev) (i : OpId) (h : Op → Op) : (d.updOp i h).epochAt = d.epochAt := rfl
@[simp] theorem Dev.updOp_held (d : Dev) (i : OpId) (h : Op → Op) : (d.updOp i h).held = d.held := rfl
@[simp] theorem Dev.updOp_latch (d : Dev) (i : OpId) (h : Op → Op) : (d.updOp i h).latch = d.latch := rfl
@[simp] theorem Dev.updOp_msgs (d : Dev) (i : OpId) (h : Op → Op) : (d.updOp i h).msgs = d.msgs := rfl
@[simp] theorem Dev.updOp_host (d : Dev) (i : OpId) (h : Op → Op) : (d.updOp i h).host = d.host := rfl
@[simp] theorem Dev.updOp_fw (d : Dev) (i : OpId) (h : Op → Op) : (d.updOp i h).fw = d.fw := rfl
@[simp] theorem Dev.updOp_coreDown (d : Dev) (i : OpId) (h : Op → Op) : (d.updOp i h).coreDown = d.coreDown := rfl
@[simp] theorem Dev.updOp_raster (d : Dev) (i : OpId) (h : Op → Op) : (d.updOp i h).raster = d.raster := rfl
@[simp] theorem Dev.updOp_comp (d : Dev) (i : OpId) (h : Op → Op) : (d.updOp i h).comp = d.comp := rfl
@[simp] theorem Dev.updOp_disp (d : Dev) (i : OpId) (h : Op → Op) : (d.updOp i h).disp = d.disp := rfl
@[simp] theorem Dev.updOp_touch (d : Dev) (i : OpId) (h : Op → Op) : (d.updOp i h).touch = d.touch := rfl
@[simp] theorem Dev.updOp_haptic (d : Dev) (i : OpId) (h : Op → Op) : (d.updOp i h).haptic = d.haptic := rfl
@[simp] theorem Dev.updOp_audio (d : Dev) (i : OpId) (h : Op → Op) : (d.updOp i h).audio = d.audio := rfl
@[simp] theorem Dev.updOp_cvus (d : Dev) (i : OpId) (h : Op → Op) : (d.updOp i h).cvus = d.cvus := rfl
@[simp] theorem Dev.updOp_dram (d : Dev) (i : OpId) (h : Op → Op) : (d.updOp i h).dram = d.dram := rfl
@[simp] theorem Dev.updOp_bus (d : Dev) (i : OpId) (h : Op → Op) : (d.updOp i h).bus = d.bus := rfl
@[simp] theorem Dev.updOp_power (d : Dev) (i : OpId) (h : Op → Op) : (d.updOp i h).power = d.power := rfl
@[simp] theorem Dev.updOp_boot (d : Dev) (i : OpId) (h : Op → Op) : (d.updOp i h).boot = d.boot := rfl
@[simp] theorem Dev.updOp_flash (d : Dev) (i : OpId) (h : Op → Op) : (d.updOp i h).flash = d.flash := rfl
@[simp] theorem Dev.updOp_update (d : Dev) (i : OpId) (h : Op → Op) : (d.updOp i h).update = d.update := rfl
@[simp] theorem Dev.updOp_safety (d : Dev) (i : OpId) (h : Op → Op) : (d.updOp i h).safety = d.safety := rfl
@[simp] theorem Dev.updOp_freeze (d : Dev) (i : OpId) (h : Op → Op) : (d.updOp i h).freeze = d.freeze := rfl
@[simp] theorem Dev.updOp_svp (d : Dev) (i : OpId) (h : Op → Op) : (d.updOp i h).svp = d.svp := rfl
@[simp] theorem Dev.updOp_probe (d : Dev) (i : OpId) (h : Op → Op) : (d.updOp i h).probe = d.probe := rfl

/-! Dev.finish. -/

@[simp] theorem Dev.finish_now (d : Dev) (i : OpId) (n : Nat) (r : Option Nat) : (d.finish i n r).now = d.now := rfl
@[simp] theorem Dev.finish_free (d : Dev) (i : OpId) (n : Nat) (r : Option Nat) : (d.finish i n r).free = d.free := rfl
@[simp] theorem Dev.finish_events (d : Dev) (i : OpId) (n : Nat) (r : Option Nat) : (d.finish i n r).events = d.events := rfl
@[simp] theorem Dev.finish_mem (d : Dev) (i : OpId) (n : Nat) (r : Option Nat) : (d.finish i n r).mem = d.mem := rfl
@[simp] theorem Dev.finish_writes (d : Dev) (i : OpId) (n : Nat) (r : Option Nat) : (d.finish i n r).writes = d.writes := rfl
@[simp] theorem Dev.finish_poison (d : Dev) (i : OpId) (n : Nat) (r : Option Nat) : (d.finish i n r).poison = d.poison := rfl
@[simp] theorem Dev.finish_board (d : Dev) (i : OpId) (n : Nat) (r : Option Nat) : (d.finish i n r).board = d.board := rfl
@[simp] theorem Dev.finish_manager (d : Dev) (i : OpId) (n : Nat) (r : Option Nat) : (d.finish i n r).manager = d.manager := rfl
@[simp] theorem Dev.finish_fns (d : Dev) (i : OpId) (n : Nat) (r : Option Nat) : (d.finish i n r).fns = d.fns := rfl
@[simp] theorem Dev.finish_ports (d : Dev) (i : OpId) (n : Nat) (r : Option Nat) : (d.finish i n r).ports = d.ports := rfl
@[simp] theorem Dev.finish_rings (d : Dev) (i : OpId) (n : Nat) (r : Option Nat) : (d.finish i n r).rings = d.rings := rfl
@[simp] theorem Dev.finish_rrGrant (d : Dev) (i : OpId) (n : Nat) (r : Option Nat) : (d.finish i n r).rrGrant = d.rrGrant := rfl
@[simp] theorem Dev.finish_commits (d : Dev) (i : OpId) (n : Nat) (r : Option Nat) : (d.finish i n r).commits = d.commits := rfl
@[simp] theorem Dev.finish_publication (d : Dev) (i : OpId) (n : Nat) (r : Option Nat) : (d.finish i n r).publication = d.publication := rfl
@[simp] theorem Dev.finish_objs (d : Dev) (i : OpId) (n : Nat) (r : Option Nat) : (d.finish i n r).objs = d.objs := rfl
@[simp] theorem Dev.finish_epochAt (d : Dev) (i : OpId) (n : Nat) (r : Option Nat) : (d.finish i n r).epochAt = d.epochAt := rfl
@[simp] theorem Dev.finish_held (d : Dev) (i : OpId) (n : Nat) (r : Option Nat) : (d.finish i n r).held = d.held := rfl
@[simp] theorem Dev.finish_latch (d : Dev) (i : OpId) (n : Nat) (r : Option Nat) : (d.finish i n r).latch = d.latch := rfl
@[simp] theorem Dev.finish_msgs (d : Dev) (i : OpId) (n : Nat) (r : Option Nat) : (d.finish i n r).msgs = d.msgs := rfl
@[simp] theorem Dev.finish_host (d : Dev) (i : OpId) (n : Nat) (r : Option Nat) : (d.finish i n r).host = d.host := rfl
@[simp] theorem Dev.finish_fw (d : Dev) (i : OpId) (n : Nat) (r : Option Nat) : (d.finish i n r).fw = d.fw := rfl
@[simp] theorem Dev.finish_coreDown (d : Dev) (i : OpId) (n : Nat) (r : Option Nat) : (d.finish i n r).coreDown = d.coreDown := rfl
@[simp] theorem Dev.finish_raster (d : Dev) (i : OpId) (n : Nat) (r : Option Nat) : (d.finish i n r).raster = d.raster := rfl
@[simp] theorem Dev.finish_comp (d : Dev) (i : OpId) (n : Nat) (r : Option Nat) : (d.finish i n r).comp = d.comp := rfl
@[simp] theorem Dev.finish_disp (d : Dev) (i : OpId) (n : Nat) (r : Option Nat) : (d.finish i n r).disp = d.disp := rfl
@[simp] theorem Dev.finish_touch (d : Dev) (i : OpId) (n : Nat) (r : Option Nat) : (d.finish i n r).touch = d.touch := rfl
@[simp] theorem Dev.finish_haptic (d : Dev) (i : OpId) (n : Nat) (r : Option Nat) : (d.finish i n r).haptic = d.haptic := rfl
@[simp] theorem Dev.finish_audio (d : Dev) (i : OpId) (n : Nat) (r : Option Nat) : (d.finish i n r).audio = d.audio := rfl
@[simp] theorem Dev.finish_cvus (d : Dev) (i : OpId) (n : Nat) (r : Option Nat) : (d.finish i n r).cvus = d.cvus := rfl
@[simp] theorem Dev.finish_dram (d : Dev) (i : OpId) (n : Nat) (r : Option Nat) : (d.finish i n r).dram = d.dram := rfl
@[simp] theorem Dev.finish_bus (d : Dev) (i : OpId) (n : Nat) (r : Option Nat) : (d.finish i n r).bus = d.bus := rfl
@[simp] theorem Dev.finish_power (d : Dev) (i : OpId) (n : Nat) (r : Option Nat) : (d.finish i n r).power = d.power := rfl
@[simp] theorem Dev.finish_boot (d : Dev) (i : OpId) (n : Nat) (r : Option Nat) : (d.finish i n r).boot = d.boot := rfl
@[simp] theorem Dev.finish_flash (d : Dev) (i : OpId) (n : Nat) (r : Option Nat) : (d.finish i n r).flash = d.flash := rfl
@[simp] theorem Dev.finish_update (d : Dev) (i : OpId) (n : Nat) (r : Option Nat) : (d.finish i n r).update = d.update := rfl
@[simp] theorem Dev.finish_safety (d : Dev) (i : OpId) (n : Nat) (r : Option Nat) : (d.finish i n r).safety = d.safety := rfl
@[simp] theorem Dev.finish_freeze (d : Dev) (i : OpId) (n : Nat) (r : Option Nat) : (d.finish i n r).freeze = d.freeze := rfl
@[simp] theorem Dev.finish_svp (d : Dev) (i : OpId) (n : Nat) (r : Option Nat) : (d.finish i n r).svp = d.svp := rfl
@[simp] theorem Dev.finish_probe (d : Dev) (i : OpId) (n : Nat) (r : Option Nat) : (d.finish i n r).probe = d.probe := rfl

/-! Dev.setFwt. -/

@[simp] theorem Dev.setFwt_now (d : Dev) (k t : Nat) (x : FwThread) : (d.setFwt k t x).now = d.now := rfl
@[simp] theorem Dev.setFwt_free (d : Dev) (k t : Nat) (x : FwThread) : (d.setFwt k t x).free = d.free := rfl
@[simp] theorem Dev.setFwt_events (d : Dev) (k t : Nat) (x : FwThread) : (d.setFwt k t x).events = d.events := rfl
@[simp] theorem Dev.setFwt_mem (d : Dev) (k t : Nat) (x : FwThread) : (d.setFwt k t x).mem = d.mem := rfl
@[simp] theorem Dev.setFwt_writes (d : Dev) (k t : Nat) (x : FwThread) : (d.setFwt k t x).writes = d.writes := rfl
@[simp] theorem Dev.setFwt_poison (d : Dev) (k t : Nat) (x : FwThread) : (d.setFwt k t x).poison = d.poison := rfl
@[simp] theorem Dev.setFwt_board (d : Dev) (k t : Nat) (x : FwThread) : (d.setFwt k t x).board = d.board := rfl
@[simp] theorem Dev.setFwt_manager (d : Dev) (k t : Nat) (x : FwThread) : (d.setFwt k t x).manager = d.manager := rfl
@[simp] theorem Dev.setFwt_fns (d : Dev) (k t : Nat) (x : FwThread) : (d.setFwt k t x).fns = d.fns := rfl
@[simp] theorem Dev.setFwt_ports (d : Dev) (k t : Nat) (x : FwThread) : (d.setFwt k t x).ports = d.ports := rfl
@[simp] theorem Dev.setFwt_rings (d : Dev) (k t : Nat) (x : FwThread) : (d.setFwt k t x).rings = d.rings := rfl
@[simp] theorem Dev.setFwt_rrGrant (d : Dev) (k t : Nat) (x : FwThread) : (d.setFwt k t x).rrGrant = d.rrGrant := rfl
@[simp] theorem Dev.setFwt_ops (d : Dev) (k t : Nat) (x : FwThread) : (d.setFwt k t x).ops = d.ops := rfl
@[simp] theorem Dev.setFwt_commits (d : Dev) (k t : Nat) (x : FwThread) : (d.setFwt k t x).commits = d.commits := rfl
@[simp] theorem Dev.setFwt_publication (d : Dev) (k t : Nat) (x : FwThread) : (d.setFwt k t x).publication = d.publication := rfl
@[simp] theorem Dev.setFwt_objs (d : Dev) (k t : Nat) (x : FwThread) : (d.setFwt k t x).objs = d.objs := rfl
@[simp] theorem Dev.setFwt_epochAt (d : Dev) (k t : Nat) (x : FwThread) : (d.setFwt k t x).epochAt = d.epochAt := rfl
@[simp] theorem Dev.setFwt_held (d : Dev) (k t : Nat) (x : FwThread) : (d.setFwt k t x).held = d.held := rfl
@[simp] theorem Dev.setFwt_latch (d : Dev) (k t : Nat) (x : FwThread) : (d.setFwt k t x).latch = d.latch := rfl
@[simp] theorem Dev.setFwt_msgs (d : Dev) (k t : Nat) (x : FwThread) : (d.setFwt k t x).msgs = d.msgs := rfl
@[simp] theorem Dev.setFwt_host (d : Dev) (k t : Nat) (x : FwThread) : (d.setFwt k t x).host = d.host := rfl
@[simp] theorem Dev.setFwt_coreDown (d : Dev) (k t : Nat) (x : FwThread) : (d.setFwt k t x).coreDown = d.coreDown := rfl
@[simp] theorem Dev.setFwt_raster (d : Dev) (k t : Nat) (x : FwThread) : (d.setFwt k t x).raster = d.raster := rfl
@[simp] theorem Dev.setFwt_comp (d : Dev) (k t : Nat) (x : FwThread) : (d.setFwt k t x).comp = d.comp := rfl
@[simp] theorem Dev.setFwt_disp (d : Dev) (k t : Nat) (x : FwThread) : (d.setFwt k t x).disp = d.disp := rfl
@[simp] theorem Dev.setFwt_touch (d : Dev) (k t : Nat) (x : FwThread) : (d.setFwt k t x).touch = d.touch := rfl
@[simp] theorem Dev.setFwt_haptic (d : Dev) (k t : Nat) (x : FwThread) : (d.setFwt k t x).haptic = d.haptic := rfl
@[simp] theorem Dev.setFwt_audio (d : Dev) (k t : Nat) (x : FwThread) : (d.setFwt k t x).audio = d.audio := rfl
@[simp] theorem Dev.setFwt_cvus (d : Dev) (k t : Nat) (x : FwThread) : (d.setFwt k t x).cvus = d.cvus := rfl
@[simp] theorem Dev.setFwt_dram (d : Dev) (k t : Nat) (x : FwThread) : (d.setFwt k t x).dram = d.dram := rfl
@[simp] theorem Dev.setFwt_bus (d : Dev) (k t : Nat) (x : FwThread) : (d.setFwt k t x).bus = d.bus := rfl
@[simp] theorem Dev.setFwt_power (d : Dev) (k t : Nat) (x : FwThread) : (d.setFwt k t x).power = d.power := rfl
@[simp] theorem Dev.setFwt_boot (d : Dev) (k t : Nat) (x : FwThread) : (d.setFwt k t x).boot = d.boot := rfl
@[simp] theorem Dev.setFwt_flash (d : Dev) (k t : Nat) (x : FwThread) : (d.setFwt k t x).flash = d.flash := rfl
@[simp] theorem Dev.setFwt_update (d : Dev) (k t : Nat) (x : FwThread) : (d.setFwt k t x).update = d.update := rfl
@[simp] theorem Dev.setFwt_safety (d : Dev) (k t : Nat) (x : FwThread) : (d.setFwt k t x).safety = d.safety := rfl
@[simp] theorem Dev.setFwt_freeze (d : Dev) (k t : Nat) (x : FwThread) : (d.setFwt k t x).freeze = d.freeze := rfl
@[simp] theorem Dev.setFwt_svp (d : Dev) (k t : Nat) (x : FwThread) : (d.setFwt k t x).svp = d.svp := rfl
@[simp] theorem Dev.setFwt_probe (d : Dev) (k t : Nat) (x : FwThread) : (d.setFwt k t x).probe = d.probe := rfl

/-! Dev.setCore. -/

@[simp] theorem Dev.setCore_now (d : Dev) (n : Nat) (x : Core) : (d.setCore n x).now = d.now := rfl
@[simp] theorem Dev.setCore_free (d : Dev) (n : Nat) (x : Core) : (d.setCore n x).free = d.free := rfl
@[simp] theorem Dev.setCore_events (d : Dev) (n : Nat) (x : Core) : (d.setCore n x).events = d.events := rfl
@[simp] theorem Dev.setCore_mem (d : Dev) (n : Nat) (x : Core) : (d.setCore n x).mem = d.mem := rfl
@[simp] theorem Dev.setCore_writes (d : Dev) (n : Nat) (x : Core) : (d.setCore n x).writes = d.writes := rfl
@[simp] theorem Dev.setCore_poison (d : Dev) (n : Nat) (x : Core) : (d.setCore n x).poison = d.poison := rfl
@[simp] theorem Dev.setCore_board (d : Dev) (n : Nat) (x : Core) : (d.setCore n x).board = d.board := rfl
@[simp] theorem Dev.setCore_manager (d : Dev) (n : Nat) (x : Core) : (d.setCore n x).manager = d.manager := rfl
@[simp] theorem Dev.setCore_fns (d : Dev) (n : Nat) (x : Core) : (d.setCore n x).fns = d.fns := rfl
@[simp] theorem Dev.setCore_ports (d : Dev) (n : Nat) (x : Core) : (d.setCore n x).ports = d.ports := rfl
@[simp] theorem Dev.setCore_rings (d : Dev) (n : Nat) (x : Core) : (d.setCore n x).rings = d.rings := rfl
@[simp] theorem Dev.setCore_rrGrant (d : Dev) (n : Nat) (x : Core) : (d.setCore n x).rrGrant = d.rrGrant := rfl
@[simp] theorem Dev.setCore_ops (d : Dev) (n : Nat) (x : Core) : (d.setCore n x).ops = d.ops := rfl
@[simp] theorem Dev.setCore_commits (d : Dev) (n : Nat) (x : Core) : (d.setCore n x).commits = d.commits := rfl
@[simp] theorem Dev.setCore_publication (d : Dev) (n : Nat) (x : Core) : (d.setCore n x).publication = d.publication := rfl
@[simp] theorem Dev.setCore_objs (d : Dev) (n : Nat) (x : Core) : (d.setCore n x).objs = d.objs := rfl
@[simp] theorem Dev.setCore_epochAt (d : Dev) (n : Nat) (x : Core) : (d.setCore n x).epochAt = d.epochAt := rfl
@[simp] theorem Dev.setCore_held (d : Dev) (n : Nat) (x : Core) : (d.setCore n x).held = d.held := rfl
@[simp] theorem Dev.setCore_latch (d : Dev) (n : Nat) (x : Core) : (d.setCore n x).latch = d.latch := rfl
@[simp] theorem Dev.setCore_msgs (d : Dev) (n : Nat) (x : Core) : (d.setCore n x).msgs = d.msgs := rfl
@[simp] theorem Dev.setCore_host (d : Dev) (n : Nat) (x : Core) : (d.setCore n x).host = d.host := rfl
@[simp] theorem Dev.setCore_fw (d : Dev) (n : Nat) (x : Core) : (d.setCore n x).fw = d.fw := rfl
@[simp] theorem Dev.setCore_coreDown (d : Dev) (n : Nat) (x : Core) : (d.setCore n x).coreDown = d.coreDown := rfl
@[simp] theorem Dev.setCore_comp (d : Dev) (n : Nat) (x : Core) : (d.setCore n x).comp = d.comp := rfl
@[simp] theorem Dev.setCore_disp (d : Dev) (n : Nat) (x : Core) : (d.setCore n x).disp = d.disp := rfl
@[simp] theorem Dev.setCore_touch (d : Dev) (n : Nat) (x : Core) : (d.setCore n x).touch = d.touch := rfl
@[simp] theorem Dev.setCore_haptic (d : Dev) (n : Nat) (x : Core) : (d.setCore n x).haptic = d.haptic := rfl
@[simp] theorem Dev.setCore_audio (d : Dev) (n : Nat) (x : Core) : (d.setCore n x).audio = d.audio := rfl
@[simp] theorem Dev.setCore_cvus (d : Dev) (n : Nat) (x : Core) : (d.setCore n x).cvus = d.cvus := rfl
@[simp] theorem Dev.setCore_dram (d : Dev) (n : Nat) (x : Core) : (d.setCore n x).dram = d.dram := rfl
@[simp] theorem Dev.setCore_bus (d : Dev) (n : Nat) (x : Core) : (d.setCore n x).bus = d.bus := rfl
@[simp] theorem Dev.setCore_power (d : Dev) (n : Nat) (x : Core) : (d.setCore n x).power = d.power := rfl
@[simp] theorem Dev.setCore_boot (d : Dev) (n : Nat) (x : Core) : (d.setCore n x).boot = d.boot := rfl
@[simp] theorem Dev.setCore_flash (d : Dev) (n : Nat) (x : Core) : (d.setCore n x).flash = d.flash := rfl
@[simp] theorem Dev.setCore_update (d : Dev) (n : Nat) (x : Core) : (d.setCore n x).update = d.update := rfl
@[simp] theorem Dev.setCore_safety (d : Dev) (n : Nat) (x : Core) : (d.setCore n x).safety = d.safety := rfl
@[simp] theorem Dev.setCore_freeze (d : Dev) (n : Nat) (x : Core) : (d.setCore n x).freeze = d.freeze := rfl
@[simp] theorem Dev.setCore_svp (d : Dev) (n : Nat) (x : Core) : (d.setCore n x).svp = d.svp := rfl
@[simp] theorem Dev.setCore_probe (d : Dev) (n : Nat) (x : Core) : (d.setCore n x).probe = d.probe := rfl

/-! Dev.setWave. -/

@[simp] theorem Dev.setWave_now (d : Dev) (n : Nat) (x : Wave) : (d.setWave n x).now = d.now := rfl
@[simp] theorem Dev.setWave_free (d : Dev) (n : Nat) (x : Wave) : (d.setWave n x).free = d.free := rfl
@[simp] theorem Dev.setWave_events (d : Dev) (n : Nat) (x : Wave) : (d.setWave n x).events = d.events := rfl
@[simp] theorem Dev.setWave_mem (d : Dev) (n : Nat) (x : Wave) : (d.setWave n x).mem = d.mem := rfl
@[simp] theorem Dev.setWave_writes (d : Dev) (n : Nat) (x : Wave) : (d.setWave n x).writes = d.writes := rfl
@[simp] theorem Dev.setWave_poison (d : Dev) (n : Nat) (x : Wave) : (d.setWave n x).poison = d.poison := rfl
@[simp] theorem Dev.setWave_board (d : Dev) (n : Nat) (x : Wave) : (d.setWave n x).board = d.board := rfl
@[simp] theorem Dev.setWave_manager (d : Dev) (n : Nat) (x : Wave) : (d.setWave n x).manager = d.manager := rfl
@[simp] theorem Dev.setWave_fns (d : Dev) (n : Nat) (x : Wave) : (d.setWave n x).fns = d.fns := rfl
@[simp] theorem Dev.setWave_ports (d : Dev) (n : Nat) (x : Wave) : (d.setWave n x).ports = d.ports := rfl
@[simp] theorem Dev.setWave_rings (d : Dev) (n : Nat) (x : Wave) : (d.setWave n x).rings = d.rings := rfl
@[simp] theorem Dev.setWave_rrGrant (d : Dev) (n : Nat) (x : Wave) : (d.setWave n x).rrGrant = d.rrGrant := rfl
@[simp] theorem Dev.setWave_ops (d : Dev) (n : Nat) (x : Wave) : (d.setWave n x).ops = d.ops := rfl
@[simp] theorem Dev.setWave_commits (d : Dev) (n : Nat) (x : Wave) : (d.setWave n x).commits = d.commits := rfl
@[simp] theorem Dev.setWave_publication (d : Dev) (n : Nat) (x : Wave) : (d.setWave n x).publication = d.publication := rfl
@[simp] theorem Dev.setWave_objs (d : Dev) (n : Nat) (x : Wave) : (d.setWave n x).objs = d.objs := rfl
@[simp] theorem Dev.setWave_epochAt (d : Dev) (n : Nat) (x : Wave) : (d.setWave n x).epochAt = d.epochAt := rfl
@[simp] theorem Dev.setWave_held (d : Dev) (n : Nat) (x : Wave) : (d.setWave n x).held = d.held := rfl
@[simp] theorem Dev.setWave_latch (d : Dev) (n : Nat) (x : Wave) : (d.setWave n x).latch = d.latch := rfl
@[simp] theorem Dev.setWave_msgs (d : Dev) (n : Nat) (x : Wave) : (d.setWave n x).msgs = d.msgs := rfl
@[simp] theorem Dev.setWave_host (d : Dev) (n : Nat) (x : Wave) : (d.setWave n x).host = d.host := rfl
@[simp] theorem Dev.setWave_fw (d : Dev) (n : Nat) (x : Wave) : (d.setWave n x).fw = d.fw := rfl
@[simp] theorem Dev.setWave_coreDown (d : Dev) (n : Nat) (x : Wave) : (d.setWave n x).coreDown = d.coreDown := rfl
@[simp] theorem Dev.setWave_comp (d : Dev) (n : Nat) (x : Wave) : (d.setWave n x).comp = d.comp := rfl
@[simp] theorem Dev.setWave_disp (d : Dev) (n : Nat) (x : Wave) : (d.setWave n x).disp = d.disp := rfl
@[simp] theorem Dev.setWave_touch (d : Dev) (n : Nat) (x : Wave) : (d.setWave n x).touch = d.touch := rfl
@[simp] theorem Dev.setWave_haptic (d : Dev) (n : Nat) (x : Wave) : (d.setWave n x).haptic = d.haptic := rfl
@[simp] theorem Dev.setWave_audio (d : Dev) (n : Nat) (x : Wave) : (d.setWave n x).audio = d.audio := rfl
@[simp] theorem Dev.setWave_cvus (d : Dev) (n : Nat) (x : Wave) : (d.setWave n x).cvus = d.cvus := rfl
@[simp] theorem Dev.setWave_dram (d : Dev) (n : Nat) (x : Wave) : (d.setWave n x).dram = d.dram := rfl
@[simp] theorem Dev.setWave_bus (d : Dev) (n : Nat) (x : Wave) : (d.setWave n x).bus = d.bus := rfl
@[simp] theorem Dev.setWave_power (d : Dev) (n : Nat) (x : Wave) : (d.setWave n x).power = d.power := rfl
@[simp] theorem Dev.setWave_boot (d : Dev) (n : Nat) (x : Wave) : (d.setWave n x).boot = d.boot := rfl
@[simp] theorem Dev.setWave_flash (d : Dev) (n : Nat) (x : Wave) : (d.setWave n x).flash = d.flash := rfl
@[simp] theorem Dev.setWave_update (d : Dev) (n : Nat) (x : Wave) : (d.setWave n x).update = d.update := rfl
@[simp] theorem Dev.setWave_safety (d : Dev) (n : Nat) (x : Wave) : (d.setWave n x).safety = d.safety := rfl
@[simp] theorem Dev.setWave_freeze (d : Dev) (n : Nat) (x : Wave) : (d.setWave n x).freeze = d.freeze := rfl
@[simp] theorem Dev.setWave_svp (d : Dev) (n : Nat) (x : Wave) : (d.setWave n x).svp = d.svp := rfl
@[simp] theorem Dev.setWave_probe (d : Dev) (n : Nat) (x : Wave) : (d.setWave n x).probe = d.probe := rfl

/-! Dev.stopPass. -/

@[simp] theorem Dev.stopPass_now (d : Dev) (i : OpId) : (d.stopPass i).now = d.now := rfl
@[simp] theorem Dev.stopPass_free (d : Dev) (i : OpId) : (d.stopPass i).free = d.free := rfl
@[simp] theorem Dev.stopPass_events (d : Dev) (i : OpId) : (d.stopPass i).events = d.events := rfl
@[simp] theorem Dev.stopPass_mem (d : Dev) (i : OpId) : (d.stopPass i).mem = d.mem := rfl
@[simp] theorem Dev.stopPass_writes (d : Dev) (i : OpId) : (d.stopPass i).writes = d.writes := rfl
@[simp] theorem Dev.stopPass_poison (d : Dev) (i : OpId) : (d.stopPass i).poison = d.poison := rfl
@[simp] theorem Dev.stopPass_board (d : Dev) (i : OpId) : (d.stopPass i).board = d.board := rfl
@[simp] theorem Dev.stopPass_manager (d : Dev) (i : OpId) : (d.stopPass i).manager = d.manager := rfl
@[simp] theorem Dev.stopPass_fns (d : Dev) (i : OpId) : (d.stopPass i).fns = d.fns := rfl
@[simp] theorem Dev.stopPass_ports (d : Dev) (i : OpId) : (d.stopPass i).ports = d.ports := rfl
@[simp] theorem Dev.stopPass_rings (d : Dev) (i : OpId) : (d.stopPass i).rings = d.rings := rfl
@[simp] theorem Dev.stopPass_rrGrant (d : Dev) (i : OpId) : (d.stopPass i).rrGrant = d.rrGrant := rfl
@[simp] theorem Dev.stopPass_ops (d : Dev) (i : OpId) : (d.stopPass i).ops = d.ops := rfl
@[simp] theorem Dev.stopPass_commits (d : Dev) (i : OpId) : (d.stopPass i).commits = d.commits := rfl
@[simp] theorem Dev.stopPass_publication (d : Dev) (i : OpId) : (d.stopPass i).publication = d.publication := rfl
@[simp] theorem Dev.stopPass_objs (d : Dev) (i : OpId) : (d.stopPass i).objs = d.objs := rfl
@[simp] theorem Dev.stopPass_epochAt (d : Dev) (i : OpId) : (d.stopPass i).epochAt = d.epochAt := rfl
@[simp] theorem Dev.stopPass_held (d : Dev) (i : OpId) : (d.stopPass i).held = d.held := rfl
@[simp] theorem Dev.stopPass_latch (d : Dev) (i : OpId) : (d.stopPass i).latch = d.latch := rfl
@[simp] theorem Dev.stopPass_msgs (d : Dev) (i : OpId) : (d.stopPass i).msgs = d.msgs := rfl
@[simp] theorem Dev.stopPass_host (d : Dev) (i : OpId) : (d.stopPass i).host = d.host := rfl
@[simp] theorem Dev.stopPass_fw (d : Dev) (i : OpId) : (d.stopPass i).fw = d.fw := rfl
@[simp] theorem Dev.stopPass_coreDown (d : Dev) (i : OpId) : (d.stopPass i).coreDown = d.coreDown := rfl
@[simp] theorem Dev.stopPass_comp (d : Dev) (i : OpId) : (d.stopPass i).comp = d.comp := rfl
@[simp] theorem Dev.stopPass_disp (d : Dev) (i : OpId) : (d.stopPass i).disp = d.disp := rfl
@[simp] theorem Dev.stopPass_touch (d : Dev) (i : OpId) : (d.stopPass i).touch = d.touch := rfl
@[simp] theorem Dev.stopPass_haptic (d : Dev) (i : OpId) : (d.stopPass i).haptic = d.haptic := rfl
@[simp] theorem Dev.stopPass_audio (d : Dev) (i : OpId) : (d.stopPass i).audio = d.audio := rfl
@[simp] theorem Dev.stopPass_cvus (d : Dev) (i : OpId) : (d.stopPass i).cvus = d.cvus := rfl
@[simp] theorem Dev.stopPass_dram (d : Dev) (i : OpId) : (d.stopPass i).dram = d.dram := rfl
@[simp] theorem Dev.stopPass_bus (d : Dev) (i : OpId) : (d.stopPass i).bus = d.bus := rfl
@[simp] theorem Dev.stopPass_power (d : Dev) (i : OpId) : (d.stopPass i).power = d.power := rfl
@[simp] theorem Dev.stopPass_boot (d : Dev) (i : OpId) : (d.stopPass i).boot = d.boot := rfl
@[simp] theorem Dev.stopPass_flash (d : Dev) (i : OpId) : (d.stopPass i).flash = d.flash := rfl
@[simp] theorem Dev.stopPass_update (d : Dev) (i : OpId) : (d.stopPass i).update = d.update := rfl
@[simp] theorem Dev.stopPass_safety (d : Dev) (i : OpId) : (d.stopPass i).safety = d.safety := rfl
@[simp] theorem Dev.stopPass_freeze (d : Dev) (i : OpId) : (d.stopPass i).freeze = d.freeze := rfl
@[simp] theorem Dev.stopPass_svp (d : Dev) (i : OpId) : (d.stopPass i).svp = d.svp := rfl
@[simp] theorem Dev.stopPass_probe (d : Dev) (i : OpId) : (d.stopPass i).probe = d.probe := rfl

/-! Dev.setSlice. -/

@[simp] theorem Dev.setSlice_now (d : Dev) (n : Nat) (x : Slice) : (d.setSlice n x).now = d.now := rfl
@[simp] theorem Dev.setSlice_free (d : Dev) (n : Nat) (x : Slice) : (d.setSlice n x).free = d.free := rfl
@[simp] theorem Dev.setSlice_events (d : Dev) (n : Nat) (x : Slice) : (d.setSlice n x).events = d.events := rfl
@[simp] theorem Dev.setSlice_mem (d : Dev) (n : Nat) (x : Slice) : (d.setSlice n x).mem = d.mem := rfl
@[simp] theorem Dev.setSlice_writes (d : Dev) (n : Nat) (x : Slice) : (d.setSlice n x).writes = d.writes := rfl
@[simp] theorem Dev.setSlice_poison (d : Dev) (n : Nat) (x : Slice) : (d.setSlice n x).poison = d.poison := rfl
@[simp] theorem Dev.setSlice_board (d : Dev) (n : Nat) (x : Slice) : (d.setSlice n x).board = d.board := rfl
@[simp] theorem Dev.setSlice_manager (d : Dev) (n : Nat) (x : Slice) : (d.setSlice n x).manager = d.manager := rfl
@[simp] theorem Dev.setSlice_fns (d : Dev) (n : Nat) (x : Slice) : (d.setSlice n x).fns = d.fns := rfl
@[simp] theorem Dev.setSlice_ports (d : Dev) (n : Nat) (x : Slice) : (d.setSlice n x).ports = d.ports := rfl
@[simp] theorem Dev.setSlice_rings (d : Dev) (n : Nat) (x : Slice) : (d.setSlice n x).rings = d.rings := rfl
@[simp] theorem Dev.setSlice_rrGrant (d : Dev) (n : Nat) (x : Slice) : (d.setSlice n x).rrGrant = d.rrGrant := rfl
@[simp] theorem Dev.setSlice_ops (d : Dev) (n : Nat) (x : Slice) : (d.setSlice n x).ops = d.ops := rfl
@[simp] theorem Dev.setSlice_commits (d : Dev) (n : Nat) (x : Slice) : (d.setSlice n x).commits = d.commits := rfl
@[simp] theorem Dev.setSlice_publication (d : Dev) (n : Nat) (x : Slice) : (d.setSlice n x).publication = d.publication := rfl
@[simp] theorem Dev.setSlice_objs (d : Dev) (n : Nat) (x : Slice) : (d.setSlice n x).objs = d.objs := rfl
@[simp] theorem Dev.setSlice_epochAt (d : Dev) (n : Nat) (x : Slice) : (d.setSlice n x).epochAt = d.epochAt := rfl
@[simp] theorem Dev.setSlice_held (d : Dev) (n : Nat) (x : Slice) : (d.setSlice n x).held = d.held := rfl
@[simp] theorem Dev.setSlice_latch (d : Dev) (n : Nat) (x : Slice) : (d.setSlice n x).latch = d.latch := rfl
@[simp] theorem Dev.setSlice_msgs (d : Dev) (n : Nat) (x : Slice) : (d.setSlice n x).msgs = d.msgs := rfl
@[simp] theorem Dev.setSlice_host (d : Dev) (n : Nat) (x : Slice) : (d.setSlice n x).host = d.host := rfl
@[simp] theorem Dev.setSlice_fw (d : Dev) (n : Nat) (x : Slice) : (d.setSlice n x).fw = d.fw := rfl
@[simp] theorem Dev.setSlice_coreDown (d : Dev) (n : Nat) (x : Slice) : (d.setSlice n x).coreDown = d.coreDown := rfl
@[simp] theorem Dev.setSlice_raster (d : Dev) (n : Nat) (x : Slice) : (d.setSlice n x).raster = d.raster := rfl
@[simp] theorem Dev.setSlice_comp (d : Dev) (n : Nat) (x : Slice) : (d.setSlice n x).comp = d.comp := rfl
@[simp] theorem Dev.setSlice_disp (d : Dev) (n : Nat) (x : Slice) : (d.setSlice n x).disp = d.disp := rfl
@[simp] theorem Dev.setSlice_touch (d : Dev) (n : Nat) (x : Slice) : (d.setSlice n x).touch = d.touch := rfl
@[simp] theorem Dev.setSlice_haptic (d : Dev) (n : Nat) (x : Slice) : (d.setSlice n x).haptic = d.haptic := rfl
@[simp] theorem Dev.setSlice_cvus (d : Dev) (n : Nat) (x : Slice) : (d.setSlice n x).cvus = d.cvus := rfl
@[simp] theorem Dev.setSlice_dram (d : Dev) (n : Nat) (x : Slice) : (d.setSlice n x).dram = d.dram := rfl
@[simp] theorem Dev.setSlice_bus (d : Dev) (n : Nat) (x : Slice) : (d.setSlice n x).bus = d.bus := rfl
@[simp] theorem Dev.setSlice_power (d : Dev) (n : Nat) (x : Slice) : (d.setSlice n x).power = d.power := rfl
@[simp] theorem Dev.setSlice_boot (d : Dev) (n : Nat) (x : Slice) : (d.setSlice n x).boot = d.boot := rfl
@[simp] theorem Dev.setSlice_flash (d : Dev) (n : Nat) (x : Slice) : (d.setSlice n x).flash = d.flash := rfl
@[simp] theorem Dev.setSlice_update (d : Dev) (n : Nat) (x : Slice) : (d.setSlice n x).update = d.update := rfl
@[simp] theorem Dev.setSlice_safety (d : Dev) (n : Nat) (x : Slice) : (d.setSlice n x).safety = d.safety := rfl
@[simp] theorem Dev.setSlice_freeze (d : Dev) (n : Nat) (x : Slice) : (d.setSlice n x).freeze = d.freeze := rfl
@[simp] theorem Dev.setSlice_svp (d : Dev) (n : Nat) (x : Slice) : (d.setSlice n x).svp = d.svp := rfl
@[simp] theorem Dev.setSlice_probe (d : Dev) (n : Nat) (x : Slice) : (d.setSlice n x).probe = d.probe := rfl

/-! Dev.setAport. -/

@[simp] theorem Dev.setAport_now (d : Dev) (n : Nat) (x : AudPort) : (d.setAport n x).now = d.now := rfl
@[simp] theorem Dev.setAport_free (d : Dev) (n : Nat) (x : AudPort) : (d.setAport n x).free = d.free := rfl
@[simp] theorem Dev.setAport_events (d : Dev) (n : Nat) (x : AudPort) : (d.setAport n x).events = d.events := rfl
@[simp] theorem Dev.setAport_mem (d : Dev) (n : Nat) (x : AudPort) : (d.setAport n x).mem = d.mem := rfl
@[simp] theorem Dev.setAport_writes (d : Dev) (n : Nat) (x : AudPort) : (d.setAport n x).writes = d.writes := rfl
@[simp] theorem Dev.setAport_poison (d : Dev) (n : Nat) (x : AudPort) : (d.setAport n x).poison = d.poison := rfl
@[simp] theorem Dev.setAport_board (d : Dev) (n : Nat) (x : AudPort) : (d.setAport n x).board = d.board := rfl
@[simp] theorem Dev.setAport_manager (d : Dev) (n : Nat) (x : AudPort) : (d.setAport n x).manager = d.manager := rfl
@[simp] theorem Dev.setAport_fns (d : Dev) (n : Nat) (x : AudPort) : (d.setAport n x).fns = d.fns := rfl
@[simp] theorem Dev.setAport_ports (d : Dev) (n : Nat) (x : AudPort) : (d.setAport n x).ports = d.ports := rfl
@[simp] theorem Dev.setAport_rings (d : Dev) (n : Nat) (x : AudPort) : (d.setAport n x).rings = d.rings := rfl
@[simp] theorem Dev.setAport_rrGrant (d : Dev) (n : Nat) (x : AudPort) : (d.setAport n x).rrGrant = d.rrGrant := rfl
@[simp] theorem Dev.setAport_ops (d : Dev) (n : Nat) (x : AudPort) : (d.setAport n x).ops = d.ops := rfl
@[simp] theorem Dev.setAport_commits (d : Dev) (n : Nat) (x : AudPort) : (d.setAport n x).commits = d.commits := rfl
@[simp] theorem Dev.setAport_publication (d : Dev) (n : Nat) (x : AudPort) : (d.setAport n x).publication = d.publication := rfl
@[simp] theorem Dev.setAport_objs (d : Dev) (n : Nat) (x : AudPort) : (d.setAport n x).objs = d.objs := rfl
@[simp] theorem Dev.setAport_epochAt (d : Dev) (n : Nat) (x : AudPort) : (d.setAport n x).epochAt = d.epochAt := rfl
@[simp] theorem Dev.setAport_held (d : Dev) (n : Nat) (x : AudPort) : (d.setAport n x).held = d.held := rfl
@[simp] theorem Dev.setAport_latch (d : Dev) (n : Nat) (x : AudPort) : (d.setAport n x).latch = d.latch := rfl
@[simp] theorem Dev.setAport_msgs (d : Dev) (n : Nat) (x : AudPort) : (d.setAport n x).msgs = d.msgs := rfl
@[simp] theorem Dev.setAport_host (d : Dev) (n : Nat) (x : AudPort) : (d.setAport n x).host = d.host := rfl
@[simp] theorem Dev.setAport_fw (d : Dev) (n : Nat) (x : AudPort) : (d.setAport n x).fw = d.fw := rfl
@[simp] theorem Dev.setAport_coreDown (d : Dev) (n : Nat) (x : AudPort) : (d.setAport n x).coreDown = d.coreDown := rfl
@[simp] theorem Dev.setAport_raster (d : Dev) (n : Nat) (x : AudPort) : (d.setAport n x).raster = d.raster := rfl
@[simp] theorem Dev.setAport_comp (d : Dev) (n : Nat) (x : AudPort) : (d.setAport n x).comp = d.comp := rfl
@[simp] theorem Dev.setAport_disp (d : Dev) (n : Nat) (x : AudPort) : (d.setAport n x).disp = d.disp := rfl
@[simp] theorem Dev.setAport_touch (d : Dev) (n : Nat) (x : AudPort) : (d.setAport n x).touch = d.touch := rfl
@[simp] theorem Dev.setAport_haptic (d : Dev) (n : Nat) (x : AudPort) : (d.setAport n x).haptic = d.haptic := rfl
@[simp] theorem Dev.setAport_cvus (d : Dev) (n : Nat) (x : AudPort) : (d.setAport n x).cvus = d.cvus := rfl
@[simp] theorem Dev.setAport_dram (d : Dev) (n : Nat) (x : AudPort) : (d.setAport n x).dram = d.dram := rfl
@[simp] theorem Dev.setAport_bus (d : Dev) (n : Nat) (x : AudPort) : (d.setAport n x).bus = d.bus := rfl
@[simp] theorem Dev.setAport_power (d : Dev) (n : Nat) (x : AudPort) : (d.setAport n x).power = d.power := rfl
@[simp] theorem Dev.setAport_boot (d : Dev) (n : Nat) (x : AudPort) : (d.setAport n x).boot = d.boot := rfl
@[simp] theorem Dev.setAport_flash (d : Dev) (n : Nat) (x : AudPort) : (d.setAport n x).flash = d.flash := rfl
@[simp] theorem Dev.setAport_update (d : Dev) (n : Nat) (x : AudPort) : (d.setAport n x).update = d.update := rfl
@[simp] theorem Dev.setAport_safety (d : Dev) (n : Nat) (x : AudPort) : (d.setAport n x).safety = d.safety := rfl
@[simp] theorem Dev.setAport_freeze (d : Dev) (n : Nat) (x : AudPort) : (d.setAport n x).freeze = d.freeze := rfl
@[simp] theorem Dev.setAport_svp (d : Dev) (n : Nat) (x : AudPort) : (d.setAport n x).svp = d.svp := rfl
@[simp] theorem Dev.setAport_probe (d : Dev) (n : Nat) (x : AudPort) : (d.setAport n x).probe = d.probe := rfl

/-! Dev.setConv. -/

@[simp] theorem Dev.setConv_now (d : Dev) (n : Nat) (x : Conv) : (d.setConv n x).now = d.now := rfl
@[simp] theorem Dev.setConv_free (d : Dev) (n : Nat) (x : Conv) : (d.setConv n x).free = d.free := rfl
@[simp] theorem Dev.setConv_events (d : Dev) (n : Nat) (x : Conv) : (d.setConv n x).events = d.events := rfl
@[simp] theorem Dev.setConv_mem (d : Dev) (n : Nat) (x : Conv) : (d.setConv n x).mem = d.mem := rfl
@[simp] theorem Dev.setConv_writes (d : Dev) (n : Nat) (x : Conv) : (d.setConv n x).writes = d.writes := rfl
@[simp] theorem Dev.setConv_poison (d : Dev) (n : Nat) (x : Conv) : (d.setConv n x).poison = d.poison := rfl
@[simp] theorem Dev.setConv_board (d : Dev) (n : Nat) (x : Conv) : (d.setConv n x).board = d.board := rfl
@[simp] theorem Dev.setConv_manager (d : Dev) (n : Nat) (x : Conv) : (d.setConv n x).manager = d.manager := rfl
@[simp] theorem Dev.setConv_fns (d : Dev) (n : Nat) (x : Conv) : (d.setConv n x).fns = d.fns := rfl
@[simp] theorem Dev.setConv_ports (d : Dev) (n : Nat) (x : Conv) : (d.setConv n x).ports = d.ports := rfl
@[simp] theorem Dev.setConv_rings (d : Dev) (n : Nat) (x : Conv) : (d.setConv n x).rings = d.rings := rfl
@[simp] theorem Dev.setConv_rrGrant (d : Dev) (n : Nat) (x : Conv) : (d.setConv n x).rrGrant = d.rrGrant := rfl
@[simp] theorem Dev.setConv_ops (d : Dev) (n : Nat) (x : Conv) : (d.setConv n x).ops = d.ops := rfl
@[simp] theorem Dev.setConv_commits (d : Dev) (n : Nat) (x : Conv) : (d.setConv n x).commits = d.commits := rfl
@[simp] theorem Dev.setConv_publication (d : Dev) (n : Nat) (x : Conv) : (d.setConv n x).publication = d.publication := rfl
@[simp] theorem Dev.setConv_objs (d : Dev) (n : Nat) (x : Conv) : (d.setConv n x).objs = d.objs := rfl
@[simp] theorem Dev.setConv_epochAt (d : Dev) (n : Nat) (x : Conv) : (d.setConv n x).epochAt = d.epochAt := rfl
@[simp] theorem Dev.setConv_held (d : Dev) (n : Nat) (x : Conv) : (d.setConv n x).held = d.held := rfl
@[simp] theorem Dev.setConv_latch (d : Dev) (n : Nat) (x : Conv) : (d.setConv n x).latch = d.latch := rfl
@[simp] theorem Dev.setConv_msgs (d : Dev) (n : Nat) (x : Conv) : (d.setConv n x).msgs = d.msgs := rfl
@[simp] theorem Dev.setConv_host (d : Dev) (n : Nat) (x : Conv) : (d.setConv n x).host = d.host := rfl
@[simp] theorem Dev.setConv_fw (d : Dev) (n : Nat) (x : Conv) : (d.setConv n x).fw = d.fw := rfl
@[simp] theorem Dev.setConv_coreDown (d : Dev) (n : Nat) (x : Conv) : (d.setConv n x).coreDown = d.coreDown := rfl
@[simp] theorem Dev.setConv_raster (d : Dev) (n : Nat) (x : Conv) : (d.setConv n x).raster = d.raster := rfl
@[simp] theorem Dev.setConv_comp (d : Dev) (n : Nat) (x : Conv) : (d.setConv n x).comp = d.comp := rfl
@[simp] theorem Dev.setConv_disp (d : Dev) (n : Nat) (x : Conv) : (d.setConv n x).disp = d.disp := rfl
@[simp] theorem Dev.setConv_touch (d : Dev) (n : Nat) (x : Conv) : (d.setConv n x).touch = d.touch := rfl
@[simp] theorem Dev.setConv_haptic (d : Dev) (n : Nat) (x : Conv) : (d.setConv n x).haptic = d.haptic := rfl
@[simp] theorem Dev.setConv_cvus (d : Dev) (n : Nat) (x : Conv) : (d.setConv n x).cvus = d.cvus := rfl
@[simp] theorem Dev.setConv_dram (d : Dev) (n : Nat) (x : Conv) : (d.setConv n x).dram = d.dram := rfl
@[simp] theorem Dev.setConv_bus (d : Dev) (n : Nat) (x : Conv) : (d.setConv n x).bus = d.bus := rfl
@[simp] theorem Dev.setConv_power (d : Dev) (n : Nat) (x : Conv) : (d.setConv n x).power = d.power := rfl
@[simp] theorem Dev.setConv_boot (d : Dev) (n : Nat) (x : Conv) : (d.setConv n x).boot = d.boot := rfl
@[simp] theorem Dev.setConv_flash (d : Dev) (n : Nat) (x : Conv) : (d.setConv n x).flash = d.flash := rfl
@[simp] theorem Dev.setConv_update (d : Dev) (n : Nat) (x : Conv) : (d.setConv n x).update = d.update := rfl
@[simp] theorem Dev.setConv_safety (d : Dev) (n : Nat) (x : Conv) : (d.setConv n x).safety = d.safety := rfl
@[simp] theorem Dev.setConv_freeze (d : Dev) (n : Nat) (x : Conv) : (d.setConv n x).freeze = d.freeze := rfl
@[simp] theorem Dev.setConv_svp (d : Dev) (n : Nat) (x : Conv) : (d.setConv n x).svp = d.svp := rfl
@[simp] theorem Dev.setConv_probe (d : Dev) (n : Nat) (x : Conv) : (d.setConv n x).probe = d.probe := rfl

/-! Dev.setChan. -/

@[simp] theorem Dev.setChan_now (d : Dev) (n : Nat) (x : Chan) : (d.setChan n x).now = d.now := rfl
@[simp] theorem Dev.setChan_free (d : Dev) (n : Nat) (x : Chan) : (d.setChan n x).free = d.free := rfl
@[simp] theorem Dev.setChan_events (d : Dev) (n : Nat) (x : Chan) : (d.setChan n x).events = d.events := rfl
@[simp] theorem Dev.setChan_mem (d : Dev) (n : Nat) (x : Chan) : (d.setChan n x).mem = d.mem := rfl
@[simp] theorem Dev.setChan_writes (d : Dev) (n : Nat) (x : Chan) : (d.setChan n x).writes = d.writes := rfl
@[simp] theorem Dev.setChan_poison (d : Dev) (n : Nat) (x : Chan) : (d.setChan n x).poison = d.poison := rfl
@[simp] theorem Dev.setChan_board (d : Dev) (n : Nat) (x : Chan) : (d.setChan n x).board = d.board := rfl
@[simp] theorem Dev.setChan_manager (d : Dev) (n : Nat) (x : Chan) : (d.setChan n x).manager = d.manager := rfl
@[simp] theorem Dev.setChan_fns (d : Dev) (n : Nat) (x : Chan) : (d.setChan n x).fns = d.fns := rfl
@[simp] theorem Dev.setChan_ports (d : Dev) (n : Nat) (x : Chan) : (d.setChan n x).ports = d.ports := rfl
@[simp] theorem Dev.setChan_rings (d : Dev) (n : Nat) (x : Chan) : (d.setChan n x).rings = d.rings := rfl
@[simp] theorem Dev.setChan_rrGrant (d : Dev) (n : Nat) (x : Chan) : (d.setChan n x).rrGrant = d.rrGrant := rfl
@[simp] theorem Dev.setChan_ops (d : Dev) (n : Nat) (x : Chan) : (d.setChan n x).ops = d.ops := rfl
@[simp] theorem Dev.setChan_commits (d : Dev) (n : Nat) (x : Chan) : (d.setChan n x).commits = d.commits := rfl
@[simp] theorem Dev.setChan_publication (d : Dev) (n : Nat) (x : Chan) : (d.setChan n x).publication = d.publication := rfl
@[simp] theorem Dev.setChan_objs (d : Dev) (n : Nat) (x : Chan) : (d.setChan n x).objs = d.objs := rfl
@[simp] theorem Dev.setChan_epochAt (d : Dev) (n : Nat) (x : Chan) : (d.setChan n x).epochAt = d.epochAt := rfl
@[simp] theorem Dev.setChan_held (d : Dev) (n : Nat) (x : Chan) : (d.setChan n x).held = d.held := rfl
@[simp] theorem Dev.setChan_latch (d : Dev) (n : Nat) (x : Chan) : (d.setChan n x).latch = d.latch := rfl
@[simp] theorem Dev.setChan_msgs (d : Dev) (n : Nat) (x : Chan) : (d.setChan n x).msgs = d.msgs := rfl
@[simp] theorem Dev.setChan_host (d : Dev) (n : Nat) (x : Chan) : (d.setChan n x).host = d.host := rfl
@[simp] theorem Dev.setChan_fw (d : Dev) (n : Nat) (x : Chan) : (d.setChan n x).fw = d.fw := rfl
@[simp] theorem Dev.setChan_coreDown (d : Dev) (n : Nat) (x : Chan) : (d.setChan n x).coreDown = d.coreDown := rfl
@[simp] theorem Dev.setChan_raster (d : Dev) (n : Nat) (x : Chan) : (d.setChan n x).raster = d.raster := rfl
@[simp] theorem Dev.setChan_comp (d : Dev) (n : Nat) (x : Chan) : (d.setChan n x).comp = d.comp := rfl
@[simp] theorem Dev.setChan_disp (d : Dev) (n : Nat) (x : Chan) : (d.setChan n x).disp = d.disp := rfl
@[simp] theorem Dev.setChan_touch (d : Dev) (n : Nat) (x : Chan) : (d.setChan n x).touch = d.touch := rfl
@[simp] theorem Dev.setChan_haptic (d : Dev) (n : Nat) (x : Chan) : (d.setChan n x).haptic = d.haptic := rfl
@[simp] theorem Dev.setChan_audio (d : Dev) (n : Nat) (x : Chan) : (d.setChan n x).audio = d.audio := rfl
@[simp] theorem Dev.setChan_cvus (d : Dev) (n : Nat) (x : Chan) : (d.setChan n x).cvus = d.cvus := rfl
@[simp] theorem Dev.setChan_bus (d : Dev) (n : Nat) (x : Chan) : (d.setChan n x).bus = d.bus := rfl
@[simp] theorem Dev.setChan_power (d : Dev) (n : Nat) (x : Chan) : (d.setChan n x).power = d.power := rfl
@[simp] theorem Dev.setChan_boot (d : Dev) (n : Nat) (x : Chan) : (d.setChan n x).boot = d.boot := rfl
@[simp] theorem Dev.setChan_flash (d : Dev) (n : Nat) (x : Chan) : (d.setChan n x).flash = d.flash := rfl
@[simp] theorem Dev.setChan_update (d : Dev) (n : Nat) (x : Chan) : (d.setChan n x).update = d.update := rfl
@[simp] theorem Dev.setChan_safety (d : Dev) (n : Nat) (x : Chan) : (d.setChan n x).safety = d.safety := rfl
@[simp] theorem Dev.setChan_freeze (d : Dev) (n : Nat) (x : Chan) : (d.setChan n x).freeze = d.freeze := rfl
@[simp] theorem Dev.setChan_svp (d : Dev) (n : Nat) (x : Chan) : (d.setChan n x).svp = d.svp := rfl
@[simp] theorem Dev.setChan_probe (d : Dev) (n : Nat) (x : Chan) : (d.setChan n x).probe = d.probe := rfl

/-! Dev.setGroup. -/

@[simp] theorem Dev.setGroup_now (d : Dev) (n : Nat) (x : Group) : (d.setGroup n x).now = d.now := rfl
@[simp] theorem Dev.setGroup_free (d : Dev) (n : Nat) (x : Group) : (d.setGroup n x).free = d.free := rfl
@[simp] theorem Dev.setGroup_events (d : Dev) (n : Nat) (x : Group) : (d.setGroup n x).events = d.events := rfl
@[simp] theorem Dev.setGroup_mem (d : Dev) (n : Nat) (x : Group) : (d.setGroup n x).mem = d.mem := rfl
@[simp] theorem Dev.setGroup_writes (d : Dev) (n : Nat) (x : Group) : (d.setGroup n x).writes = d.writes := rfl
@[simp] theorem Dev.setGroup_poison (d : Dev) (n : Nat) (x : Group) : (d.setGroup n x).poison = d.poison := rfl
@[simp] theorem Dev.setGroup_board (d : Dev) (n : Nat) (x : Group) : (d.setGroup n x).board = d.board := rfl
@[simp] theorem Dev.setGroup_manager (d : Dev) (n : Nat) (x : Group) : (d.setGroup n x).manager = d.manager := rfl
@[simp] theorem Dev.setGroup_fns (d : Dev) (n : Nat) (x : Group) : (d.setGroup n x).fns = d.fns := rfl
@[simp] theorem Dev.setGroup_ports (d : Dev) (n : Nat) (x : Group) : (d.setGroup n x).ports = d.ports := rfl
@[simp] theorem Dev.setGroup_rings (d : Dev) (n : Nat) (x : Group) : (d.setGroup n x).rings = d.rings := rfl
@[simp] theorem Dev.setGroup_rrGrant (d : Dev) (n : Nat) (x : Group) : (d.setGroup n x).rrGrant = d.rrGrant := rfl
@[simp] theorem Dev.setGroup_ops (d : Dev) (n : Nat) (x : Group) : (d.setGroup n x).ops = d.ops := rfl
@[simp] theorem Dev.setGroup_commits (d : Dev) (n : Nat) (x : Group) : (d.setGroup n x).commits = d.commits := rfl
@[simp] theorem Dev.setGroup_publication (d : Dev) (n : Nat) (x : Group) : (d.setGroup n x).publication = d.publication := rfl
@[simp] theorem Dev.setGroup_objs (d : Dev) (n : Nat) (x : Group) : (d.setGroup n x).objs = d.objs := rfl
@[simp] theorem Dev.setGroup_epochAt (d : Dev) (n : Nat) (x : Group) : (d.setGroup n x).epochAt = d.epochAt := rfl
@[simp] theorem Dev.setGroup_held (d : Dev) (n : Nat) (x : Group) : (d.setGroup n x).held = d.held := rfl
@[simp] theorem Dev.setGroup_latch (d : Dev) (n : Nat) (x : Group) : (d.setGroup n x).latch = d.latch := rfl
@[simp] theorem Dev.setGroup_msgs (d : Dev) (n : Nat) (x : Group) : (d.setGroup n x).msgs = d.msgs := rfl
@[simp] theorem Dev.setGroup_host (d : Dev) (n : Nat) (x : Group) : (d.setGroup n x).host = d.host := rfl
@[simp] theorem Dev.setGroup_fw (d : Dev) (n : Nat) (x : Group) : (d.setGroup n x).fw = d.fw := rfl
@[simp] theorem Dev.setGroup_coreDown (d : Dev) (n : Nat) (x : Group) : (d.setGroup n x).coreDown = d.coreDown := rfl
@[simp] theorem Dev.setGroup_raster (d : Dev) (n : Nat) (x : Group) : (d.setGroup n x).raster = d.raster := rfl
@[simp] theorem Dev.setGroup_comp (d : Dev) (n : Nat) (x : Group) : (d.setGroup n x).comp = d.comp := rfl
@[simp] theorem Dev.setGroup_disp (d : Dev) (n : Nat) (x : Group) : (d.setGroup n x).disp = d.disp := rfl
@[simp] theorem Dev.setGroup_touch (d : Dev) (n : Nat) (x : Group) : (d.setGroup n x).touch = d.touch := rfl
@[simp] theorem Dev.setGroup_haptic (d : Dev) (n : Nat) (x : Group) : (d.setGroup n x).haptic = d.haptic := rfl
@[simp] theorem Dev.setGroup_audio (d : Dev) (n : Nat) (x : Group) : (d.setGroup n x).audio = d.audio := rfl
@[simp] theorem Dev.setGroup_cvus (d : Dev) (n : Nat) (x : Group) : (d.setGroup n x).cvus = d.cvus := rfl
@[simp] theorem Dev.setGroup_bus (d : Dev) (n : Nat) (x : Group) : (d.setGroup n x).bus = d.bus := rfl
@[simp] theorem Dev.setGroup_power (d : Dev) (n : Nat) (x : Group) : (d.setGroup n x).power = d.power := rfl
@[simp] theorem Dev.setGroup_boot (d : Dev) (n : Nat) (x : Group) : (d.setGroup n x).boot = d.boot := rfl
@[simp] theorem Dev.setGroup_flash (d : Dev) (n : Nat) (x : Group) : (d.setGroup n x).flash = d.flash := rfl
@[simp] theorem Dev.setGroup_update (d : Dev) (n : Nat) (x : Group) : (d.setGroup n x).update = d.update := rfl
@[simp] theorem Dev.setGroup_safety (d : Dev) (n : Nat) (x : Group) : (d.setGroup n x).safety = d.safety := rfl
@[simp] theorem Dev.setGroup_freeze (d : Dev) (n : Nat) (x : Group) : (d.setGroup n x).freeze = d.freeze := rfl
@[simp] theorem Dev.setGroup_svp (d : Dev) (n : Nat) (x : Group) : (d.setGroup n x).svp = d.svp := rfl
@[simp] theorem Dev.setGroup_probe (d : Dev) (n : Nat) (x : Group) : (d.setGroup n x).probe = d.probe := rfl

/-! Dev.setCvu. -/

@[simp] theorem Dev.setCvu_now (d : Dev) (n : Nat) (x : Cvu) : (d.setCvu n x).now = d.now := rfl
@[simp] theorem Dev.setCvu_free (d : Dev) (n : Nat) (x : Cvu) : (d.setCvu n x).free = d.free := rfl
@[simp] theorem Dev.setCvu_events (d : Dev) (n : Nat) (x : Cvu) : (d.setCvu n x).events = d.events := rfl
@[simp] theorem Dev.setCvu_mem (d : Dev) (n : Nat) (x : Cvu) : (d.setCvu n x).mem = d.mem := rfl
@[simp] theorem Dev.setCvu_writes (d : Dev) (n : Nat) (x : Cvu) : (d.setCvu n x).writes = d.writes := rfl
@[simp] theorem Dev.setCvu_poison (d : Dev) (n : Nat) (x : Cvu) : (d.setCvu n x).poison = d.poison := rfl
@[simp] theorem Dev.setCvu_board (d : Dev) (n : Nat) (x : Cvu) : (d.setCvu n x).board = d.board := rfl
@[simp] theorem Dev.setCvu_manager (d : Dev) (n : Nat) (x : Cvu) : (d.setCvu n x).manager = d.manager := rfl
@[simp] theorem Dev.setCvu_fns (d : Dev) (n : Nat) (x : Cvu) : (d.setCvu n x).fns = d.fns := rfl
@[simp] theorem Dev.setCvu_ports (d : Dev) (n : Nat) (x : Cvu) : (d.setCvu n x).ports = d.ports := rfl
@[simp] theorem Dev.setCvu_rings (d : Dev) (n : Nat) (x : Cvu) : (d.setCvu n x).rings = d.rings := rfl
@[simp] theorem Dev.setCvu_rrGrant (d : Dev) (n : Nat) (x : Cvu) : (d.setCvu n x).rrGrant = d.rrGrant := rfl
@[simp] theorem Dev.setCvu_ops (d : Dev) (n : Nat) (x : Cvu) : (d.setCvu n x).ops = d.ops := rfl
@[simp] theorem Dev.setCvu_commits (d : Dev) (n : Nat) (x : Cvu) : (d.setCvu n x).commits = d.commits := rfl
@[simp] theorem Dev.setCvu_publication (d : Dev) (n : Nat) (x : Cvu) : (d.setCvu n x).publication = d.publication := rfl
@[simp] theorem Dev.setCvu_objs (d : Dev) (n : Nat) (x : Cvu) : (d.setCvu n x).objs = d.objs := rfl
@[simp] theorem Dev.setCvu_epochAt (d : Dev) (n : Nat) (x : Cvu) : (d.setCvu n x).epochAt = d.epochAt := rfl
@[simp] theorem Dev.setCvu_held (d : Dev) (n : Nat) (x : Cvu) : (d.setCvu n x).held = d.held := rfl
@[simp] theorem Dev.setCvu_latch (d : Dev) (n : Nat) (x : Cvu) : (d.setCvu n x).latch = d.latch := rfl
@[simp] theorem Dev.setCvu_msgs (d : Dev) (n : Nat) (x : Cvu) : (d.setCvu n x).msgs = d.msgs := rfl
@[simp] theorem Dev.setCvu_host (d : Dev) (n : Nat) (x : Cvu) : (d.setCvu n x).host = d.host := rfl
@[simp] theorem Dev.setCvu_fw (d : Dev) (n : Nat) (x : Cvu) : (d.setCvu n x).fw = d.fw := rfl
@[simp] theorem Dev.setCvu_coreDown (d : Dev) (n : Nat) (x : Cvu) : (d.setCvu n x).coreDown = d.coreDown := rfl
@[simp] theorem Dev.setCvu_raster (d : Dev) (n : Nat) (x : Cvu) : (d.setCvu n x).raster = d.raster := rfl
@[simp] theorem Dev.setCvu_comp (d : Dev) (n : Nat) (x : Cvu) : (d.setCvu n x).comp = d.comp := rfl
@[simp] theorem Dev.setCvu_disp (d : Dev) (n : Nat) (x : Cvu) : (d.setCvu n x).disp = d.disp := rfl
@[simp] theorem Dev.setCvu_touch (d : Dev) (n : Nat) (x : Cvu) : (d.setCvu n x).touch = d.touch := rfl
@[simp] theorem Dev.setCvu_haptic (d : Dev) (n : Nat) (x : Cvu) : (d.setCvu n x).haptic = d.haptic := rfl
@[simp] theorem Dev.setCvu_audio (d : Dev) (n : Nat) (x : Cvu) : (d.setCvu n x).audio = d.audio := rfl
@[simp] theorem Dev.setCvu_dram (d : Dev) (n : Nat) (x : Cvu) : (d.setCvu n x).dram = d.dram := rfl
@[simp] theorem Dev.setCvu_bus (d : Dev) (n : Nat) (x : Cvu) : (d.setCvu n x).bus = d.bus := rfl
@[simp] theorem Dev.setCvu_power (d : Dev) (n : Nat) (x : Cvu) : (d.setCvu n x).power = d.power := rfl
@[simp] theorem Dev.setCvu_boot (d : Dev) (n : Nat) (x : Cvu) : (d.setCvu n x).boot = d.boot := rfl
@[simp] theorem Dev.setCvu_flash (d : Dev) (n : Nat) (x : Cvu) : (d.setCvu n x).flash = d.flash := rfl
@[simp] theorem Dev.setCvu_update (d : Dev) (n : Nat) (x : Cvu) : (d.setCvu n x).update = d.update := rfl
@[simp] theorem Dev.setCvu_safety (d : Dev) (n : Nat) (x : Cvu) : (d.setCvu n x).safety = d.safety := rfl
@[simp] theorem Dev.setCvu_freeze (d : Dev) (n : Nat) (x : Cvu) : (d.setCvu n x).freeze = d.freeze := rfl
@[simp] theorem Dev.setCvu_svp (d : Dev) (n : Nat) (x : Cvu) : (d.setCvu n x).svp = d.svp := rfl
@[simp] theorem Dev.setCvu_probe (d : Dev) (n : Nat) (x : Cvu) : (d.setCvu n x).probe = d.probe := rfl

/-! Dev.setEffSlot. -/

@[simp] theorem Dev.setEffSlot_now (d : Dev) (n : Nat) (x : EffSlot) : (d.setEffSlot n x).now = d.now := rfl
@[simp] theorem Dev.setEffSlot_free (d : Dev) (n : Nat) (x : EffSlot) : (d.setEffSlot n x).free = d.free := rfl
@[simp] theorem Dev.setEffSlot_events (d : Dev) (n : Nat) (x : EffSlot) : (d.setEffSlot n x).events = d.events := rfl
@[simp] theorem Dev.setEffSlot_mem (d : Dev) (n : Nat) (x : EffSlot) : (d.setEffSlot n x).mem = d.mem := rfl
@[simp] theorem Dev.setEffSlot_writes (d : Dev) (n : Nat) (x : EffSlot) : (d.setEffSlot n x).writes = d.writes := rfl
@[simp] theorem Dev.setEffSlot_poison (d : Dev) (n : Nat) (x : EffSlot) : (d.setEffSlot n x).poison = d.poison := rfl
@[simp] theorem Dev.setEffSlot_board (d : Dev) (n : Nat) (x : EffSlot) : (d.setEffSlot n x).board = d.board := rfl
@[simp] theorem Dev.setEffSlot_manager (d : Dev) (n : Nat) (x : EffSlot) : (d.setEffSlot n x).manager = d.manager := rfl
@[simp] theorem Dev.setEffSlot_fns (d : Dev) (n : Nat) (x : EffSlot) : (d.setEffSlot n x).fns = d.fns := rfl
@[simp] theorem Dev.setEffSlot_ports (d : Dev) (n : Nat) (x : EffSlot) : (d.setEffSlot n x).ports = d.ports := rfl
@[simp] theorem Dev.setEffSlot_rings (d : Dev) (n : Nat) (x : EffSlot) : (d.setEffSlot n x).rings = d.rings := rfl
@[simp] theorem Dev.setEffSlot_rrGrant (d : Dev) (n : Nat) (x : EffSlot) : (d.setEffSlot n x).rrGrant = d.rrGrant := rfl
@[simp] theorem Dev.setEffSlot_ops (d : Dev) (n : Nat) (x : EffSlot) : (d.setEffSlot n x).ops = d.ops := rfl
@[simp] theorem Dev.setEffSlot_commits (d : Dev) (n : Nat) (x : EffSlot) : (d.setEffSlot n x).commits = d.commits := rfl
@[simp] theorem Dev.setEffSlot_publication (d : Dev) (n : Nat) (x : EffSlot) : (d.setEffSlot n x).publication = d.publication := rfl
@[simp] theorem Dev.setEffSlot_objs (d : Dev) (n : Nat) (x : EffSlot) : (d.setEffSlot n x).objs = d.objs := rfl
@[simp] theorem Dev.setEffSlot_epochAt (d : Dev) (n : Nat) (x : EffSlot) : (d.setEffSlot n x).epochAt = d.epochAt := rfl
@[simp] theorem Dev.setEffSlot_held (d : Dev) (n : Nat) (x : EffSlot) : (d.setEffSlot n x).held = d.held := rfl
@[simp] theorem Dev.setEffSlot_latch (d : Dev) (n : Nat) (x : EffSlot) : (d.setEffSlot n x).latch = d.latch := rfl
@[simp] theorem Dev.setEffSlot_msgs (d : Dev) (n : Nat) (x : EffSlot) : (d.setEffSlot n x).msgs = d.msgs := rfl
@[simp] theorem Dev.setEffSlot_host (d : Dev) (n : Nat) (x : EffSlot) : (d.setEffSlot n x).host = d.host := rfl
@[simp] theorem Dev.setEffSlot_fw (d : Dev) (n : Nat) (x : EffSlot) : (d.setEffSlot n x).fw = d.fw := rfl
@[simp] theorem Dev.setEffSlot_coreDown (d : Dev) (n : Nat) (x : EffSlot) : (d.setEffSlot n x).coreDown = d.coreDown := rfl
@[simp] theorem Dev.setEffSlot_raster (d : Dev) (n : Nat) (x : EffSlot) : (d.setEffSlot n x).raster = d.raster := rfl
@[simp] theorem Dev.setEffSlot_comp (d : Dev) (n : Nat) (x : EffSlot) : (d.setEffSlot n x).comp = d.comp := rfl
@[simp] theorem Dev.setEffSlot_disp (d : Dev) (n : Nat) (x : EffSlot) : (d.setEffSlot n x).disp = d.disp := rfl
@[simp] theorem Dev.setEffSlot_touch (d : Dev) (n : Nat) (x : EffSlot) : (d.setEffSlot n x).touch = d.touch := rfl
@[simp] theorem Dev.setEffSlot_audio (d : Dev) (n : Nat) (x : EffSlot) : (d.setEffSlot n x).audio = d.audio := rfl
@[simp] theorem Dev.setEffSlot_cvus (d : Dev) (n : Nat) (x : EffSlot) : (d.setEffSlot n x).cvus = d.cvus := rfl
@[simp] theorem Dev.setEffSlot_dram (d : Dev) (n : Nat) (x : EffSlot) : (d.setEffSlot n x).dram = d.dram := rfl
@[simp] theorem Dev.setEffSlot_bus (d : Dev) (n : Nat) (x : EffSlot) : (d.setEffSlot n x).bus = d.bus := rfl
@[simp] theorem Dev.setEffSlot_power (d : Dev) (n : Nat) (x : EffSlot) : (d.setEffSlot n x).power = d.power := rfl
@[simp] theorem Dev.setEffSlot_boot (d : Dev) (n : Nat) (x : EffSlot) : (d.setEffSlot n x).boot = d.boot := rfl
@[simp] theorem Dev.setEffSlot_flash (d : Dev) (n : Nat) (x : EffSlot) : (d.setEffSlot n x).flash = d.flash := rfl
@[simp] theorem Dev.setEffSlot_update (d : Dev) (n : Nat) (x : EffSlot) : (d.setEffSlot n x).update = d.update := rfl
@[simp] theorem Dev.setEffSlot_safety (d : Dev) (n : Nat) (x : EffSlot) : (d.setEffSlot n x).safety = d.safety := rfl
@[simp] theorem Dev.setEffSlot_freeze (d : Dev) (n : Nat) (x : EffSlot) : (d.setEffSlot n x).freeze = d.freeze := rfl
@[simp] theorem Dev.setEffSlot_svp (d : Dev) (n : Nat) (x : EffSlot) : (d.setEffSlot n x).svp = d.svp := rfl
@[simp] theorem Dev.setEffSlot_probe (d : Dev) (n : Nat) (x : EffSlot) : (d.setEffSlot n x).probe = d.probe := rfl

/-! Dev.setHch. -/

@[simp] theorem Dev.setHch_now (d : Dev) (n : Nat) (x : HapChan) : (d.setHch n x).now = d.now := rfl
@[simp] theorem Dev.setHch_free (d : Dev) (n : Nat) (x : HapChan) : (d.setHch n x).free = d.free := rfl
@[simp] theorem Dev.setHch_events (d : Dev) (n : Nat) (x : HapChan) : (d.setHch n x).events = d.events := rfl
@[simp] theorem Dev.setHch_mem (d : Dev) (n : Nat) (x : HapChan) : (d.setHch n x).mem = d.mem := rfl
@[simp] theorem Dev.setHch_writes (d : Dev) (n : Nat) (x : HapChan) : (d.setHch n x).writes = d.writes := rfl
@[simp] theorem Dev.setHch_poison (d : Dev) (n : Nat) (x : HapChan) : (d.setHch n x).poison = d.poison := rfl
@[simp] theorem Dev.setHch_board (d : Dev) (n : Nat) (x : HapChan) : (d.setHch n x).board = d.board := rfl
@[simp] theorem Dev.setHch_manager (d : Dev) (n : Nat) (x : HapChan) : (d.setHch n x).manager = d.manager := rfl
@[simp] theorem Dev.setHch_fns (d : Dev) (n : Nat) (x : HapChan) : (d.setHch n x).fns = d.fns := rfl
@[simp] theorem Dev.setHch_ports (d : Dev) (n : Nat) (x : HapChan) : (d.setHch n x).ports = d.ports := rfl
@[simp] theorem Dev.setHch_rings (d : Dev) (n : Nat) (x : HapChan) : (d.setHch n x).rings = d.rings := rfl
@[simp] theorem Dev.setHch_rrGrant (d : Dev) (n : Nat) (x : HapChan) : (d.setHch n x).rrGrant = d.rrGrant := rfl
@[simp] theorem Dev.setHch_ops (d : Dev) (n : Nat) (x : HapChan) : (d.setHch n x).ops = d.ops := rfl
@[simp] theorem Dev.setHch_commits (d : Dev) (n : Nat) (x : HapChan) : (d.setHch n x).commits = d.commits := rfl
@[simp] theorem Dev.setHch_publication (d : Dev) (n : Nat) (x : HapChan) : (d.setHch n x).publication = d.publication := rfl
@[simp] theorem Dev.setHch_objs (d : Dev) (n : Nat) (x : HapChan) : (d.setHch n x).objs = d.objs := rfl
@[simp] theorem Dev.setHch_epochAt (d : Dev) (n : Nat) (x : HapChan) : (d.setHch n x).epochAt = d.epochAt := rfl
@[simp] theorem Dev.setHch_held (d : Dev) (n : Nat) (x : HapChan) : (d.setHch n x).held = d.held := rfl
@[simp] theorem Dev.setHch_latch (d : Dev) (n : Nat) (x : HapChan) : (d.setHch n x).latch = d.latch := rfl
@[simp] theorem Dev.setHch_msgs (d : Dev) (n : Nat) (x : HapChan) : (d.setHch n x).msgs = d.msgs := rfl
@[simp] theorem Dev.setHch_host (d : Dev) (n : Nat) (x : HapChan) : (d.setHch n x).host = d.host := rfl
@[simp] theorem Dev.setHch_fw (d : Dev) (n : Nat) (x : HapChan) : (d.setHch n x).fw = d.fw := rfl
@[simp] theorem Dev.setHch_coreDown (d : Dev) (n : Nat) (x : HapChan) : (d.setHch n x).coreDown = d.coreDown := rfl
@[simp] theorem Dev.setHch_raster (d : Dev) (n : Nat) (x : HapChan) : (d.setHch n x).raster = d.raster := rfl
@[simp] theorem Dev.setHch_comp (d : Dev) (n : Nat) (x : HapChan) : (d.setHch n x).comp = d.comp := rfl
@[simp] theorem Dev.setHch_disp (d : Dev) (n : Nat) (x : HapChan) : (d.setHch n x).disp = d.disp := rfl
@[simp] theorem Dev.setHch_touch (d : Dev) (n : Nat) (x : HapChan) : (d.setHch n x).touch = d.touch := rfl
@[simp] theorem Dev.setHch_audio (d : Dev) (n : Nat) (x : HapChan) : (d.setHch n x).audio = d.audio := rfl
@[simp] theorem Dev.setHch_cvus (d : Dev) (n : Nat) (x : HapChan) : (d.setHch n x).cvus = d.cvus := rfl
@[simp] theorem Dev.setHch_dram (d : Dev) (n : Nat) (x : HapChan) : (d.setHch n x).dram = d.dram := rfl
@[simp] theorem Dev.setHch_bus (d : Dev) (n : Nat) (x : HapChan) : (d.setHch n x).bus = d.bus := rfl
@[simp] theorem Dev.setHch_power (d : Dev) (n : Nat) (x : HapChan) : (d.setHch n x).power = d.power := rfl
@[simp] theorem Dev.setHch_boot (d : Dev) (n : Nat) (x : HapChan) : (d.setHch n x).boot = d.boot := rfl
@[simp] theorem Dev.setHch_flash (d : Dev) (n : Nat) (x : HapChan) : (d.setHch n x).flash = d.flash := rfl
@[simp] theorem Dev.setHch_update (d : Dev) (n : Nat) (x : HapChan) : (d.setHch n x).update = d.update := rfl
@[simp] theorem Dev.setHch_safety (d : Dev) (n : Nat) (x : HapChan) : (d.setHch n x).safety = d.safety := rfl
@[simp] theorem Dev.setHch_freeze (d : Dev) (n : Nat) (x : HapChan) : (d.setHch n x).freeze = d.freeze := rfl
@[simp] theorem Dev.setHch_svp (d : Dev) (n : Nat) (x : HapChan) : (d.setHch n x).svp = d.svp := rfl
@[simp] theorem Dev.setHch_probe (d : Dev) (n : Nat) (x : HapChan) : (d.setHch n x).probe = d.probe := rfl

/-! Dev.setTch. -/

@[simp] theorem Dev.setTch_now (d : Dev) (n : Nat) (x : TouchChan) : (d.setTch n x).now = d.now := rfl
@[simp] theorem Dev.setTch_free (d : Dev) (n : Nat) (x : TouchChan) : (d.setTch n x).free = d.free := rfl
@[simp] theorem Dev.setTch_events (d : Dev) (n : Nat) (x : TouchChan) : (d.setTch n x).events = d.events := rfl
@[simp] theorem Dev.setTch_mem (d : Dev) (n : Nat) (x : TouchChan) : (d.setTch n x).mem = d.mem := rfl
@[simp] theorem Dev.setTch_writes (d : Dev) (n : Nat) (x : TouchChan) : (d.setTch n x).writes = d.writes := rfl
@[simp] theorem Dev.setTch_poison (d : Dev) (n : Nat) (x : TouchChan) : (d.setTch n x).poison = d.poison := rfl
@[simp] theorem Dev.setTch_board (d : Dev) (n : Nat) (x : TouchChan) : (d.setTch n x).board = d.board := rfl
@[simp] theorem Dev.setTch_manager (d : Dev) (n : Nat) (x : TouchChan) : (d.setTch n x).manager = d.manager := rfl
@[simp] theorem Dev.setTch_fns (d : Dev) (n : Nat) (x : TouchChan) : (d.setTch n x).fns = d.fns := rfl
@[simp] theorem Dev.setTch_ports (d : Dev) (n : Nat) (x : TouchChan) : (d.setTch n x).ports = d.ports := rfl
@[simp] theorem Dev.setTch_rings (d : Dev) (n : Nat) (x : TouchChan) : (d.setTch n x).rings = d.rings := rfl
@[simp] theorem Dev.setTch_rrGrant (d : Dev) (n : Nat) (x : TouchChan) : (d.setTch n x).rrGrant = d.rrGrant := rfl
@[simp] theorem Dev.setTch_ops (d : Dev) (n : Nat) (x : TouchChan) : (d.setTch n x).ops = d.ops := rfl
@[simp] theorem Dev.setTch_commits (d : Dev) (n : Nat) (x : TouchChan) : (d.setTch n x).commits = d.commits := rfl
@[simp] theorem Dev.setTch_publication (d : Dev) (n : Nat) (x : TouchChan) : (d.setTch n x).publication = d.publication := rfl
@[simp] theorem Dev.setTch_objs (d : Dev) (n : Nat) (x : TouchChan) : (d.setTch n x).objs = d.objs := rfl
@[simp] theorem Dev.setTch_epochAt (d : Dev) (n : Nat) (x : TouchChan) : (d.setTch n x).epochAt = d.epochAt := rfl
@[simp] theorem Dev.setTch_held (d : Dev) (n : Nat) (x : TouchChan) : (d.setTch n x).held = d.held := rfl
@[simp] theorem Dev.setTch_latch (d : Dev) (n : Nat) (x : TouchChan) : (d.setTch n x).latch = d.latch := rfl
@[simp] theorem Dev.setTch_msgs (d : Dev) (n : Nat) (x : TouchChan) : (d.setTch n x).msgs = d.msgs := rfl
@[simp] theorem Dev.setTch_host (d : Dev) (n : Nat) (x : TouchChan) : (d.setTch n x).host = d.host := rfl
@[simp] theorem Dev.setTch_fw (d : Dev) (n : Nat) (x : TouchChan) : (d.setTch n x).fw = d.fw := rfl
@[simp] theorem Dev.setTch_coreDown (d : Dev) (n : Nat) (x : TouchChan) : (d.setTch n x).coreDown = d.coreDown := rfl
@[simp] theorem Dev.setTch_raster (d : Dev) (n : Nat) (x : TouchChan) : (d.setTch n x).raster = d.raster := rfl
@[simp] theorem Dev.setTch_comp (d : Dev) (n : Nat) (x : TouchChan) : (d.setTch n x).comp = d.comp := rfl
@[simp] theorem Dev.setTch_disp (d : Dev) (n : Nat) (x : TouchChan) : (d.setTch n x).disp = d.disp := rfl
@[simp] theorem Dev.setTch_haptic (d : Dev) (n : Nat) (x : TouchChan) : (d.setTch n x).haptic = d.haptic := rfl
@[simp] theorem Dev.setTch_audio (d : Dev) (n : Nat) (x : TouchChan) : (d.setTch n x).audio = d.audio := rfl
@[simp] theorem Dev.setTch_cvus (d : Dev) (n : Nat) (x : TouchChan) : (d.setTch n x).cvus = d.cvus := rfl
@[simp] theorem Dev.setTch_dram (d : Dev) (n : Nat) (x : TouchChan) : (d.setTch n x).dram = d.dram := rfl
@[simp] theorem Dev.setTch_bus (d : Dev) (n : Nat) (x : TouchChan) : (d.setTch n x).bus = d.bus := rfl
@[simp] theorem Dev.setTch_power (d : Dev) (n : Nat) (x : TouchChan) : (d.setTch n x).power = d.power := rfl
@[simp] theorem Dev.setTch_boot (d : Dev) (n : Nat) (x : TouchChan) : (d.setTch n x).boot = d.boot := rfl
@[simp] theorem Dev.setTch_flash (d : Dev) (n : Nat) (x : TouchChan) : (d.setTch n x).flash = d.flash := rfl
@[simp] theorem Dev.setTch_update (d : Dev) (n : Nat) (x : TouchChan) : (d.setTch n x).update = d.update := rfl
@[simp] theorem Dev.setTch_safety (d : Dev) (n : Nat) (x : TouchChan) : (d.setTch n x).safety = d.safety := rfl
@[simp] theorem Dev.setTch_freeze (d : Dev) (n : Nat) (x : TouchChan) : (d.setTch n x).freeze = d.freeze := rfl
@[simp] theorem Dev.setTch_svp (d : Dev) (n : Nat) (x : TouchChan) : (d.setTch n x).svp = d.svp := rfl
@[simp] theorem Dev.setTch_probe (d : Dev) (n : Nat) (x : TouchChan) : (d.setTch n x).probe = d.probe := rfl

/-! Dev.setTfn. -/

@[simp] theorem Dev.setTfn_now (d : Dev) (n : Nat) (x : TouchFn) : (d.setTfn n x).now = d.now := rfl
@[simp] theorem Dev.setTfn_free (d : Dev) (n : Nat) (x : TouchFn) : (d.setTfn n x).free = d.free := rfl
@[simp] theorem Dev.setTfn_events (d : Dev) (n : Nat) (x : TouchFn) : (d.setTfn n x).events = d.events := rfl
@[simp] theorem Dev.setTfn_mem (d : Dev) (n : Nat) (x : TouchFn) : (d.setTfn n x).mem = d.mem := rfl
@[simp] theorem Dev.setTfn_writes (d : Dev) (n : Nat) (x : TouchFn) : (d.setTfn n x).writes = d.writes := rfl
@[simp] theorem Dev.setTfn_poison (d : Dev) (n : Nat) (x : TouchFn) : (d.setTfn n x).poison = d.poison := rfl
@[simp] theorem Dev.setTfn_board (d : Dev) (n : Nat) (x : TouchFn) : (d.setTfn n x).board = d.board := rfl
@[simp] theorem Dev.setTfn_manager (d : Dev) (n : Nat) (x : TouchFn) : (d.setTfn n x).manager = d.manager := rfl
@[simp] theorem Dev.setTfn_fns (d : Dev) (n : Nat) (x : TouchFn) : (d.setTfn n x).fns = d.fns := rfl
@[simp] theorem Dev.setTfn_ports (d : Dev) (n : Nat) (x : TouchFn) : (d.setTfn n x).ports = d.ports := rfl
@[simp] theorem Dev.setTfn_rings (d : Dev) (n : Nat) (x : TouchFn) : (d.setTfn n x).rings = d.rings := rfl
@[simp] theorem Dev.setTfn_rrGrant (d : Dev) (n : Nat) (x : TouchFn) : (d.setTfn n x).rrGrant = d.rrGrant := rfl
@[simp] theorem Dev.setTfn_ops (d : Dev) (n : Nat) (x : TouchFn) : (d.setTfn n x).ops = d.ops := rfl
@[simp] theorem Dev.setTfn_commits (d : Dev) (n : Nat) (x : TouchFn) : (d.setTfn n x).commits = d.commits := rfl
@[simp] theorem Dev.setTfn_publication (d : Dev) (n : Nat) (x : TouchFn) : (d.setTfn n x).publication = d.publication := rfl
@[simp] theorem Dev.setTfn_objs (d : Dev) (n : Nat) (x : TouchFn) : (d.setTfn n x).objs = d.objs := rfl
@[simp] theorem Dev.setTfn_epochAt (d : Dev) (n : Nat) (x : TouchFn) : (d.setTfn n x).epochAt = d.epochAt := rfl
@[simp] theorem Dev.setTfn_held (d : Dev) (n : Nat) (x : TouchFn) : (d.setTfn n x).held = d.held := rfl
@[simp] theorem Dev.setTfn_latch (d : Dev) (n : Nat) (x : TouchFn) : (d.setTfn n x).latch = d.latch := rfl
@[simp] theorem Dev.setTfn_msgs (d : Dev) (n : Nat) (x : TouchFn) : (d.setTfn n x).msgs = d.msgs := rfl
@[simp] theorem Dev.setTfn_host (d : Dev) (n : Nat) (x : TouchFn) : (d.setTfn n x).host = d.host := rfl
@[simp] theorem Dev.setTfn_fw (d : Dev) (n : Nat) (x : TouchFn) : (d.setTfn n x).fw = d.fw := rfl
@[simp] theorem Dev.setTfn_coreDown (d : Dev) (n : Nat) (x : TouchFn) : (d.setTfn n x).coreDown = d.coreDown := rfl
@[simp] theorem Dev.setTfn_raster (d : Dev) (n : Nat) (x : TouchFn) : (d.setTfn n x).raster = d.raster := rfl
@[simp] theorem Dev.setTfn_comp (d : Dev) (n : Nat) (x : TouchFn) : (d.setTfn n x).comp = d.comp := rfl
@[simp] theorem Dev.setTfn_disp (d : Dev) (n : Nat) (x : TouchFn) : (d.setTfn n x).disp = d.disp := rfl
@[simp] theorem Dev.setTfn_haptic (d : Dev) (n : Nat) (x : TouchFn) : (d.setTfn n x).haptic = d.haptic := rfl
@[simp] theorem Dev.setTfn_audio (d : Dev) (n : Nat) (x : TouchFn) : (d.setTfn n x).audio = d.audio := rfl
@[simp] theorem Dev.setTfn_cvus (d : Dev) (n : Nat) (x : TouchFn) : (d.setTfn n x).cvus = d.cvus := rfl
@[simp] theorem Dev.setTfn_dram (d : Dev) (n : Nat) (x : TouchFn) : (d.setTfn n x).dram = d.dram := rfl
@[simp] theorem Dev.setTfn_bus (d : Dev) (n : Nat) (x : TouchFn) : (d.setTfn n x).bus = d.bus := rfl
@[simp] theorem Dev.setTfn_power (d : Dev) (n : Nat) (x : TouchFn) : (d.setTfn n x).power = d.power := rfl
@[simp] theorem Dev.setTfn_boot (d : Dev) (n : Nat) (x : TouchFn) : (d.setTfn n x).boot = d.boot := rfl
@[simp] theorem Dev.setTfn_flash (d : Dev) (n : Nat) (x : TouchFn) : (d.setTfn n x).flash = d.flash := rfl
@[simp] theorem Dev.setTfn_update (d : Dev) (n : Nat) (x : TouchFn) : (d.setTfn n x).update = d.update := rfl
@[simp] theorem Dev.setTfn_safety (d : Dev) (n : Nat) (x : TouchFn) : (d.setTfn n x).safety = d.safety := rfl
@[simp] theorem Dev.setTfn_freeze (d : Dev) (n : Nat) (x : TouchFn) : (d.setTfn n x).freeze = d.freeze := rfl
@[simp] theorem Dev.setTfn_svp (d : Dev) (n : Nat) (x : TouchFn) : (d.setTfn n x).svp = d.svp := rfl
@[simp] theorem Dev.setTfn_probe (d : Dev) (n : Nat) (x : TouchFn) : (d.setTfn n x).probe = d.probe := rfl

/-! Dev.answer. -/

@[simp] theorem Dev.answer_now (d : Dev) (n : Nat) (l : List Byte) : (d.answer n l).now = d.now := rfl
@[simp] theorem Dev.answer_free (d : Dev) (n : Nat) (l : List Byte) : (d.answer n l).free = d.free := rfl
@[simp] theorem Dev.answer_events (d : Dev) (n : Nat) (l : List Byte) : (d.answer n l).events = d.events := rfl
@[simp] theorem Dev.answer_mem (d : Dev) (n : Nat) (l : List Byte) : (d.answer n l).mem = d.mem := rfl
@[simp] theorem Dev.answer_writes (d : Dev) (n : Nat) (l : List Byte) : (d.answer n l).writes = d.writes := rfl
@[simp] theorem Dev.answer_poison (d : Dev) (n : Nat) (l : List Byte) : (d.answer n l).poison = d.poison := rfl
@[simp] theorem Dev.answer_board (d : Dev) (n : Nat) (l : List Byte) : (d.answer n l).board = d.board := rfl
@[simp] theorem Dev.answer_manager (d : Dev) (n : Nat) (l : List Byte) : (d.answer n l).manager = d.manager := rfl
@[simp] theorem Dev.answer_fns (d : Dev) (n : Nat) (l : List Byte) : (d.answer n l).fns = d.fns := rfl
@[simp] theorem Dev.answer_ports (d : Dev) (n : Nat) (l : List Byte) : (d.answer n l).ports = d.ports := rfl
@[simp] theorem Dev.answer_rings (d : Dev) (n : Nat) (l : List Byte) : (d.answer n l).rings = d.rings := rfl
@[simp] theorem Dev.answer_rrGrant (d : Dev) (n : Nat) (l : List Byte) : (d.answer n l).rrGrant = d.rrGrant := rfl
@[simp] theorem Dev.answer_ops (d : Dev) (n : Nat) (l : List Byte) : (d.answer n l).ops = d.ops := rfl
@[simp] theorem Dev.answer_commits (d : Dev) (n : Nat) (l : List Byte) : (d.answer n l).commits = d.commits := rfl
@[simp] theorem Dev.answer_publication (d : Dev) (n : Nat) (l : List Byte) : (d.answer n l).publication = d.publication := rfl
@[simp] theorem Dev.answer_objs (d : Dev) (n : Nat) (l : List Byte) : (d.answer n l).objs = d.objs := rfl
@[simp] theorem Dev.answer_epochAt (d : Dev) (n : Nat) (l : List Byte) : (d.answer n l).epochAt = d.epochAt := rfl
@[simp] theorem Dev.answer_held (d : Dev) (n : Nat) (l : List Byte) : (d.answer n l).held = d.held := rfl
@[simp] theorem Dev.answer_latch (d : Dev) (n : Nat) (l : List Byte) : (d.answer n l).latch = d.latch := rfl
@[simp] theorem Dev.answer_msgs (d : Dev) (n : Nat) (l : List Byte) : (d.answer n l).msgs = d.msgs := rfl
@[simp] theorem Dev.answer_host (d : Dev) (n : Nat) (l : List Byte) : (d.answer n l).host = d.host := rfl
@[simp] theorem Dev.answer_fw (d : Dev) (n : Nat) (l : List Byte) : (d.answer n l).fw = d.fw := rfl
@[simp] theorem Dev.answer_coreDown (d : Dev) (n : Nat) (l : List Byte) : (d.answer n l).coreDown = d.coreDown := rfl
@[simp] theorem Dev.answer_raster (d : Dev) (n : Nat) (l : List Byte) : (d.answer n l).raster = d.raster := rfl
@[simp] theorem Dev.answer_comp (d : Dev) (n : Nat) (l : List Byte) : (d.answer n l).comp = d.comp := rfl
@[simp] theorem Dev.answer_disp (d : Dev) (n : Nat) (l : List Byte) : (d.answer n l).disp = d.disp := rfl
@[simp] theorem Dev.answer_touch (d : Dev) (n : Nat) (l : List Byte) : (d.answer n l).touch = d.touch := rfl
@[simp] theorem Dev.answer_haptic (d : Dev) (n : Nat) (l : List Byte) : (d.answer n l).haptic = d.haptic := rfl
@[simp] theorem Dev.answer_audio (d : Dev) (n : Nat) (l : List Byte) : (d.answer n l).audio = d.audio := rfl
@[simp] theorem Dev.answer_cvus (d : Dev) (n : Nat) (l : List Byte) : (d.answer n l).cvus = d.cvus := rfl
@[simp] theorem Dev.answer_dram (d : Dev) (n : Nat) (l : List Byte) : (d.answer n l).dram = d.dram := rfl
@[simp] theorem Dev.answer_bus (d : Dev) (n : Nat) (l : List Byte) : (d.answer n l).bus = d.bus := rfl
@[simp] theorem Dev.answer_power (d : Dev) (n : Nat) (l : List Byte) : (d.answer n l).power = d.power := rfl
@[simp] theorem Dev.answer_boot (d : Dev) (n : Nat) (l : List Byte) : (d.answer n l).boot = d.boot := rfl
@[simp] theorem Dev.answer_flash (d : Dev) (n : Nat) (l : List Byte) : (d.answer n l).flash = d.flash := rfl
@[simp] theorem Dev.answer_update (d : Dev) (n : Nat) (l : List Byte) : (d.answer n l).update = d.update := rfl
@[simp] theorem Dev.answer_safety (d : Dev) (n : Nat) (l : List Byte) : (d.answer n l).safety = d.safety := rfl
@[simp] theorem Dev.answer_freeze (d : Dev) (n : Nat) (l : List Byte) : (d.answer n l).freeze = d.freeze := rfl
@[simp] theorem Dev.answer_probe (d : Dev) (n : Nat) (l : List Byte) : (d.answer n l).probe = d.probe := rfl

/-! Dev.jtag. -/

@[simp] theorem Dev.jtag_now (d : Dev) (n : Nat) (l : List Byte) : (d.jtag n l).now = d.now := rfl
@[simp] theorem Dev.jtag_free (d : Dev) (n : Nat) (l : List Byte) : (d.jtag n l).free = d.free := rfl
@[simp] theorem Dev.jtag_events (d : Dev) (n : Nat) (l : List Byte) : (d.jtag n l).events = d.events := rfl
@[simp] theorem Dev.jtag_mem (d : Dev) (n : Nat) (l : List Byte) : (d.jtag n l).mem = d.mem := rfl
@[simp] theorem Dev.jtag_writes (d : Dev) (n : Nat) (l : List Byte) : (d.jtag n l).writes = d.writes := rfl
@[simp] theorem Dev.jtag_poison (d : Dev) (n : Nat) (l : List Byte) : (d.jtag n l).poison = d.poison := rfl
@[simp] theorem Dev.jtag_board (d : Dev) (n : Nat) (l : List Byte) : (d.jtag n l).board = d.board := rfl
@[simp] theorem Dev.jtag_manager (d : Dev) (n : Nat) (l : List Byte) : (d.jtag n l).manager = d.manager := rfl
@[simp] theorem Dev.jtag_fns (d : Dev) (n : Nat) (l : List Byte) : (d.jtag n l).fns = d.fns := rfl
@[simp] theorem Dev.jtag_ports (d : Dev) (n : Nat) (l : List Byte) : (d.jtag n l).ports = d.ports := rfl
@[simp] theorem Dev.jtag_rings (d : Dev) (n : Nat) (l : List Byte) : (d.jtag n l).rings = d.rings := rfl
@[simp] theorem Dev.jtag_rrGrant (d : Dev) (n : Nat) (l : List Byte) : (d.jtag n l).rrGrant = d.rrGrant := rfl
@[simp] theorem Dev.jtag_ops (d : Dev) (n : Nat) (l : List Byte) : (d.jtag n l).ops = d.ops := rfl
@[simp] theorem Dev.jtag_commits (d : Dev) (n : Nat) (l : List Byte) : (d.jtag n l).commits = d.commits := rfl
@[simp] theorem Dev.jtag_publication (d : Dev) (n : Nat) (l : List Byte) : (d.jtag n l).publication = d.publication := rfl
@[simp] theorem Dev.jtag_objs (d : Dev) (n : Nat) (l : List Byte) : (d.jtag n l).objs = d.objs := rfl
@[simp] theorem Dev.jtag_epochAt (d : Dev) (n : Nat) (l : List Byte) : (d.jtag n l).epochAt = d.epochAt := rfl
@[simp] theorem Dev.jtag_held (d : Dev) (n : Nat) (l : List Byte) : (d.jtag n l).held = d.held := rfl
@[simp] theorem Dev.jtag_latch (d : Dev) (n : Nat) (l : List Byte) : (d.jtag n l).latch = d.latch := rfl
@[simp] theorem Dev.jtag_msgs (d : Dev) (n : Nat) (l : List Byte) : (d.jtag n l).msgs = d.msgs := rfl
@[simp] theorem Dev.jtag_host (d : Dev) (n : Nat) (l : List Byte) : (d.jtag n l).host = d.host := rfl
@[simp] theorem Dev.jtag_fw (d : Dev) (n : Nat) (l : List Byte) : (d.jtag n l).fw = d.fw := rfl
@[simp] theorem Dev.jtag_coreDown (d : Dev) (n : Nat) (l : List Byte) : (d.jtag n l).coreDown = d.coreDown := rfl
@[simp] theorem Dev.jtag_raster (d : Dev) (n : Nat) (l : List Byte) : (d.jtag n l).raster = d.raster := rfl
@[simp] theorem Dev.jtag_comp (d : Dev) (n : Nat) (l : List Byte) : (d.jtag n l).comp = d.comp := rfl
@[simp] theorem Dev.jtag_disp (d : Dev) (n : Nat) (l : List Byte) : (d.jtag n l).disp = d.disp := rfl
@[simp] theorem Dev.jtag_touch (d : Dev) (n : Nat) (l : List Byte) : (d.jtag n l).touch = d.touch := rfl
@[simp] theorem Dev.jtag_haptic (d : Dev) (n : Nat) (l : List Byte) : (d.jtag n l).haptic = d.haptic := rfl
@[simp] theorem Dev.jtag_audio (d : Dev) (n : Nat) (l : List Byte) : (d.jtag n l).audio = d.audio := rfl
@[simp] theorem Dev.jtag_cvus (d : Dev) (n : Nat) (l : List Byte) : (d.jtag n l).cvus = d.cvus := rfl
@[simp] theorem Dev.jtag_dram (d : Dev) (n : Nat) (l : List Byte) : (d.jtag n l).dram = d.dram := rfl
@[simp] theorem Dev.jtag_bus (d : Dev) (n : Nat) (l : List Byte) : (d.jtag n l).bus = d.bus := rfl
@[simp] theorem Dev.jtag_power (d : Dev) (n : Nat) (l : List Byte) : (d.jtag n l).power = d.power := rfl
@[simp] theorem Dev.jtag_boot (d : Dev) (n : Nat) (l : List Byte) : (d.jtag n l).boot = d.boot := rfl
@[simp] theorem Dev.jtag_flash (d : Dev) (n : Nat) (l : List Byte) : (d.jtag n l).flash = d.flash := rfl
@[simp] theorem Dev.jtag_update (d : Dev) (n : Nat) (l : List Byte) : (d.jtag n l).update = d.update := rfl
@[simp] theorem Dev.jtag_safety (d : Dev) (n : Nat) (l : List Byte) : (d.jtag n l).safety = d.safety := rfl
@[simp] theorem Dev.jtag_freeze (d : Dev) (n : Nat) (l : List Byte) : (d.jtag n l).freeze = d.freeze := rfl
@[simp] theorem Dev.jtag_svp (d : Dev) (n : Nat) (l : List Byte) : (d.jtag n l).svp = d.svp := rfl

/-! Dev.setFlash. -/

@[simp] theorem Dev.setFlash_now (d : Dev) (x : Flash) : (d.setFlash x).now = d.now := rfl
@[simp] theorem Dev.setFlash_free (d : Dev) (x : Flash) : (d.setFlash x).free = d.free := rfl
@[simp] theorem Dev.setFlash_events (d : Dev) (x : Flash) : (d.setFlash x).events = d.events := rfl
@[simp] theorem Dev.setFlash_mem (d : Dev) (x : Flash) : (d.setFlash x).mem = d.mem := rfl
@[simp] theorem Dev.setFlash_writes (d : Dev) (x : Flash) : (d.setFlash x).writes = d.writes := rfl
@[simp] theorem Dev.setFlash_poison (d : Dev) (x : Flash) : (d.setFlash x).poison = d.poison := rfl
@[simp] theorem Dev.setFlash_board (d : Dev) (x : Flash) : (d.setFlash x).board = d.board := rfl
@[simp] theorem Dev.setFlash_manager (d : Dev) (x : Flash) : (d.setFlash x).manager = d.manager := rfl
@[simp] theorem Dev.setFlash_fns (d : Dev) (x : Flash) : (d.setFlash x).fns = d.fns := rfl
@[simp] theorem Dev.setFlash_ports (d : Dev) (x : Flash) : (d.setFlash x).ports = d.ports := rfl
@[simp] theorem Dev.setFlash_rings (d : Dev) (x : Flash) : (d.setFlash x).rings = d.rings := rfl
@[simp] theorem Dev.setFlash_rrGrant (d : Dev) (x : Flash) : (d.setFlash x).rrGrant = d.rrGrant := rfl
@[simp] theorem Dev.setFlash_ops (d : Dev) (x : Flash) : (d.setFlash x).ops = d.ops := rfl
@[simp] theorem Dev.setFlash_commits (d : Dev) (x : Flash) : (d.setFlash x).commits = d.commits := rfl
@[simp] theorem Dev.setFlash_publication (d : Dev) (x : Flash) : (d.setFlash x).publication = d.publication := rfl
@[simp] theorem Dev.setFlash_objs (d : Dev) (x : Flash) : (d.setFlash x).objs = d.objs := rfl
@[simp] theorem Dev.setFlash_epochAt (d : Dev) (x : Flash) : (d.setFlash x).epochAt = d.epochAt := rfl
@[simp] theorem Dev.setFlash_held (d : Dev) (x : Flash) : (d.setFlash x).held = d.held := rfl
@[simp] theorem Dev.setFlash_latch (d : Dev) (x : Flash) : (d.setFlash x).latch = d.latch := rfl
@[simp] theorem Dev.setFlash_msgs (d : Dev) (x : Flash) : (d.setFlash x).msgs = d.msgs := rfl
@[simp] theorem Dev.setFlash_host (d : Dev) (x : Flash) : (d.setFlash x).host = d.host := rfl
@[simp] theorem Dev.setFlash_fw (d : Dev) (x : Flash) : (d.setFlash x).fw = d.fw := rfl
@[simp] theorem Dev.setFlash_coreDown (d : Dev) (x : Flash) : (d.setFlash x).coreDown = d.coreDown := rfl
@[simp] theorem Dev.setFlash_raster (d : Dev) (x : Flash) : (d.setFlash x).raster = d.raster := rfl
@[simp] theorem Dev.setFlash_comp (d : Dev) (x : Flash) : (d.setFlash x).comp = d.comp := rfl
@[simp] theorem Dev.setFlash_disp (d : Dev) (x : Flash) : (d.setFlash x).disp = d.disp := rfl
@[simp] theorem Dev.setFlash_touch (d : Dev) (x : Flash) : (d.setFlash x).touch = d.touch := rfl
@[simp] theorem Dev.setFlash_haptic (d : Dev) (x : Flash) : (d.setFlash x).haptic = d.haptic := rfl
@[simp] theorem Dev.setFlash_audio (d : Dev) (x : Flash) : (d.setFlash x).audio = d.audio := rfl
@[simp] theorem Dev.setFlash_cvus (d : Dev) (x : Flash) : (d.setFlash x).cvus = d.cvus := rfl
@[simp] theorem Dev.setFlash_dram (d : Dev) (x : Flash) : (d.setFlash x).dram = d.dram := rfl
@[simp] theorem Dev.setFlash_bus (d : Dev) (x : Flash) : (d.setFlash x).bus = d.bus := rfl
@[simp] theorem Dev.setFlash_power (d : Dev) (x : Flash) : (d.setFlash x).power = d.power := rfl
@[simp] theorem Dev.setFlash_boot (d : Dev) (x : Flash) : (d.setFlash x).boot = d.boot := rfl
@[simp] theorem Dev.setFlash_update (d : Dev) (x : Flash) : (d.setFlash x).update = d.update := rfl
@[simp] theorem Dev.setFlash_safety (d : Dev) (x : Flash) : (d.setFlash x).safety = d.safety := rfl
@[simp] theorem Dev.setFlash_freeze (d : Dev) (x : Flash) : (d.setFlash x).freeze = d.freeze := rfl
@[simp] theorem Dev.setFlash_svp (d : Dev) (x : Flash) : (d.setFlash x).svp = d.svp := rfl
@[simp] theorem Dev.setFlash_probe (d : Dev) (x : Flash) : (d.setFlash x).probe = d.probe := rfl

/-! Dev.ask. -/

@[simp] theorem Dev.ask_now (d : Dev) (a n : Nat) (p : Option Nat) : (d.ask a n p).now = d.now := rfl
@[simp] theorem Dev.ask_free (d : Dev) (a n : Nat) (p : Option Nat) : (d.ask a n p).free = d.free := rfl
@[simp] theorem Dev.ask_events (d : Dev) (a n : Nat) (p : Option Nat) : (d.ask a n p).events = d.events := rfl
@[simp] theorem Dev.ask_mem (d : Dev) (a n : Nat) (p : Option Nat) : (d.ask a n p).mem = d.mem := rfl
@[simp] theorem Dev.ask_writes (d : Dev) (a n : Nat) (p : Option Nat) : (d.ask a n p).writes = d.writes := rfl
@[simp] theorem Dev.ask_poison (d : Dev) (a n : Nat) (p : Option Nat) : (d.ask a n p).poison = d.poison := rfl
@[simp] theorem Dev.ask_board (d : Dev) (a n : Nat) (p : Option Nat) : (d.ask a n p).board = d.board := rfl
@[simp] theorem Dev.ask_manager (d : Dev) (a n : Nat) (p : Option Nat) : (d.ask a n p).manager = d.manager := rfl
@[simp] theorem Dev.ask_fns (d : Dev) (a n : Nat) (p : Option Nat) : (d.ask a n p).fns = d.fns := rfl
@[simp] theorem Dev.ask_ports (d : Dev) (a n : Nat) (p : Option Nat) : (d.ask a n p).ports = d.ports := rfl
@[simp] theorem Dev.ask_rings (d : Dev) (a n : Nat) (p : Option Nat) : (d.ask a n p).rings = d.rings := rfl
@[simp] theorem Dev.ask_rrGrant (d : Dev) (a n : Nat) (p : Option Nat) : (d.ask a n p).rrGrant = d.rrGrant := rfl
@[simp] theorem Dev.ask_ops (d : Dev) (a n : Nat) (p : Option Nat) : (d.ask a n p).ops = d.ops := rfl
@[simp] theorem Dev.ask_commits (d : Dev) (a n : Nat) (p : Option Nat) : (d.ask a n p).commits = d.commits := rfl
@[simp] theorem Dev.ask_publication (d : Dev) (a n : Nat) (p : Option Nat) : (d.ask a n p).publication = d.publication := rfl
@[simp] theorem Dev.ask_objs (d : Dev) (a n : Nat) (p : Option Nat) : (d.ask a n p).objs = d.objs := rfl
@[simp] theorem Dev.ask_epochAt (d : Dev) (a n : Nat) (p : Option Nat) : (d.ask a n p).epochAt = d.epochAt := rfl
@[simp] theorem Dev.ask_held (d : Dev) (a n : Nat) (p : Option Nat) : (d.ask a n p).held = d.held := rfl
@[simp] theorem Dev.ask_latch (d : Dev) (a n : Nat) (p : Option Nat) : (d.ask a n p).latch = d.latch := rfl
@[simp] theorem Dev.ask_msgs (d : Dev) (a n : Nat) (p : Option Nat) : (d.ask a n p).msgs = d.msgs := rfl
@[simp] theorem Dev.ask_host (d : Dev) (a n : Nat) (p : Option Nat) : (d.ask a n p).host = d.host := rfl
@[simp] theorem Dev.ask_fw (d : Dev) (a n : Nat) (p : Option Nat) : (d.ask a n p).fw = d.fw := rfl
@[simp] theorem Dev.ask_coreDown (d : Dev) (a n : Nat) (p : Option Nat) : (d.ask a n p).coreDown = d.coreDown := rfl
@[simp] theorem Dev.ask_raster (d : Dev) (a n : Nat) (p : Option Nat) : (d.ask a n p).raster = d.raster := rfl
@[simp] theorem Dev.ask_comp (d : Dev) (a n : Nat) (p : Option Nat) : (d.ask a n p).comp = d.comp := rfl
@[simp] theorem Dev.ask_disp (d : Dev) (a n : Nat) (p : Option Nat) : (d.ask a n p).disp = d.disp := rfl
@[simp] theorem Dev.ask_touch (d : Dev) (a n : Nat) (p : Option Nat) : (d.ask a n p).touch = d.touch := rfl
@[simp] theorem Dev.ask_haptic (d : Dev) (a n : Nat) (p : Option Nat) : (d.ask a n p).haptic = d.haptic := rfl
@[simp] theorem Dev.ask_audio (d : Dev) (a n : Nat) (p : Option Nat) : (d.ask a n p).audio = d.audio := rfl
@[simp] theorem Dev.ask_cvus (d : Dev) (a n : Nat) (p : Option Nat) : (d.ask a n p).cvus = d.cvus := rfl
@[simp] theorem Dev.ask_dram (d : Dev) (a n : Nat) (p : Option Nat) : (d.ask a n p).dram = d.dram := rfl
@[simp] theorem Dev.ask_power (d : Dev) (a n : Nat) (p : Option Nat) : (d.ask a n p).power = d.power := rfl
@[simp] theorem Dev.ask_boot (d : Dev) (a n : Nat) (p : Option Nat) : (d.ask a n p).boot = d.boot := rfl
@[simp] theorem Dev.ask_flash (d : Dev) (a n : Nat) (p : Option Nat) : (d.ask a n p).flash = d.flash := rfl
@[simp] theorem Dev.ask_update (d : Dev) (a n : Nat) (p : Option Nat) : (d.ask a n p).update = d.update := rfl
@[simp] theorem Dev.ask_safety (d : Dev) (a n : Nat) (p : Option Nat) : (d.ask a n p).safety = d.safety := rfl
@[simp] theorem Dev.ask_freeze (d : Dev) (a n : Nat) (p : Option Nat) : (d.ask a n p).freeze = d.freeze := rfl
@[simp] theorem Dev.ask_svp (d : Dev) (a n : Nat) (p : Option Nat) : (d.ask a n p).svp = d.svp := rfl
@[simp] theorem Dev.ask_probe (d : Dev) (a n : Nat) (p : Option Nat) : (d.ask a n p).probe = d.probe := rfl

/-! Dev.asked. -/

@[simp] theorem Dev.asked_now (d : Dev) (w : Option (Nat × Nat)) : (d.asked w).now = d.now := rfl
@[simp] theorem Dev.asked_free (d : Dev) (w : Option (Nat × Nat)) : (d.asked w).free = d.free := rfl
@[simp] theorem Dev.asked_events (d : Dev) (w : Option (Nat × Nat)) : (d.asked w).events = d.events := rfl
@[simp] theorem Dev.asked_mem (d : Dev) (w : Option (Nat × Nat)) : (d.asked w).mem = d.mem := rfl
@[simp] theorem Dev.asked_writes (d : Dev) (w : Option (Nat × Nat)) : (d.asked w).writes = d.writes := rfl
@[simp] theorem Dev.asked_poison (d : Dev) (w : Option (Nat × Nat)) : (d.asked w).poison = d.poison := rfl
@[simp] theorem Dev.asked_board (d : Dev) (w : Option (Nat × Nat)) : (d.asked w).board = d.board := rfl
@[simp] theorem Dev.asked_manager (d : Dev) (w : Option (Nat × Nat)) : (d.asked w).manager = d.manager := rfl
@[simp] theorem Dev.asked_fns (d : Dev) (w : Option (Nat × Nat)) : (d.asked w).fns = d.fns := rfl
@[simp] theorem Dev.asked_ports (d : Dev) (w : Option (Nat × Nat)) : (d.asked w).ports = d.ports := rfl
@[simp] theorem Dev.asked_rings (d : Dev) (w : Option (Nat × Nat)) : (d.asked w).rings = d.rings := rfl
@[simp] theorem Dev.asked_rrGrant (d : Dev) (w : Option (Nat × Nat)) : (d.asked w).rrGrant = d.rrGrant := rfl
@[simp] theorem Dev.asked_ops (d : Dev) (w : Option (Nat × Nat)) : (d.asked w).ops = d.ops := rfl
@[simp] theorem Dev.asked_commits (d : Dev) (w : Option (Nat × Nat)) : (d.asked w).commits = d.commits := rfl
@[simp] theorem Dev.asked_publication (d : Dev) (w : Option (Nat × Nat)) : (d.asked w).publication = d.publication := rfl
@[simp] theorem Dev.asked_objs (d : Dev) (w : Option (Nat × Nat)) : (d.asked w).objs = d.objs := rfl
@[simp] theorem Dev.asked_epochAt (d : Dev) (w : Option (Nat × Nat)) : (d.asked w).epochAt = d.epochAt := rfl
@[simp] theorem Dev.asked_held (d : Dev) (w : Option (Nat × Nat)) : (d.asked w).held = d.held := rfl
@[simp] theorem Dev.asked_latch (d : Dev) (w : Option (Nat × Nat)) : (d.asked w).latch = d.latch := rfl
@[simp] theorem Dev.asked_msgs (d : Dev) (w : Option (Nat × Nat)) : (d.asked w).msgs = d.msgs := rfl
@[simp] theorem Dev.asked_host (d : Dev) (w : Option (Nat × Nat)) : (d.asked w).host = d.host := rfl
@[simp] theorem Dev.asked_fw (d : Dev) (w : Option (Nat × Nat)) : (d.asked w).fw = d.fw := rfl
@[simp] theorem Dev.asked_coreDown (d : Dev) (w : Option (Nat × Nat)) : (d.asked w).coreDown = d.coreDown := rfl
@[simp] theorem Dev.asked_raster (d : Dev) (w : Option (Nat × Nat)) : (d.asked w).raster = d.raster := rfl
@[simp] theorem Dev.asked_comp (d : Dev) (w : Option (Nat × Nat)) : (d.asked w).comp = d.comp := rfl
@[simp] theorem Dev.asked_disp (d : Dev) (w : Option (Nat × Nat)) : (d.asked w).disp = d.disp := rfl
@[simp] theorem Dev.asked_touch (d : Dev) (w : Option (Nat × Nat)) : (d.asked w).touch = d.touch := rfl
@[simp] theorem Dev.asked_haptic (d : Dev) (w : Option (Nat × Nat)) : (d.asked w).haptic = d.haptic := rfl
@[simp] theorem Dev.asked_audio (d : Dev) (w : Option (Nat × Nat)) : (d.asked w).audio = d.audio := rfl
@[simp] theorem Dev.asked_cvus (d : Dev) (w : Option (Nat × Nat)) : (d.asked w).cvus = d.cvus := rfl
@[simp] theorem Dev.asked_dram (d : Dev) (w : Option (Nat × Nat)) : (d.asked w).dram = d.dram := rfl
@[simp] theorem Dev.asked_power (d : Dev) (w : Option (Nat × Nat)) : (d.asked w).power = d.power := rfl
@[simp] theorem Dev.asked_boot (d : Dev) (w : Option (Nat × Nat)) : (d.asked w).boot = d.boot := rfl
@[simp] theorem Dev.asked_flash (d : Dev) (w : Option (Nat × Nat)) : (d.asked w).flash = d.flash := rfl
@[simp] theorem Dev.asked_update (d : Dev) (w : Option (Nat × Nat)) : (d.asked w).update = d.update := rfl
@[simp] theorem Dev.asked_safety (d : Dev) (w : Option (Nat × Nat)) : (d.asked w).safety = d.safety := rfl
@[simp] theorem Dev.asked_freeze (d : Dev) (w : Option (Nat × Nat)) : (d.asked w).freeze = d.freeze := rfl
@[simp] theorem Dev.asked_svp (d : Dev) (w : Option (Nat × Nat)) : (d.asked w).svp = d.svp := rfl
@[simp] theorem Dev.asked_probe (d : Dev) (w : Option (Nat × Nat)) : (d.asked w).probe = d.probe := rfl

/-! Dev.setQueue. -/

@[simp] theorem Dev.setQueue_now (d : Dev) (n : Nat) (x : ChanQueue) : (d.setQueue n x).now = d.now := rfl
@[simp] theorem Dev.setQueue_free (d : Dev) (n : Nat) (x : ChanQueue) : (d.setQueue n x).free = d.free := rfl
@[simp] theorem Dev.setQueue_events (d : Dev) (n : Nat) (x : ChanQueue) : (d.setQueue n x).events = d.events := rfl
@[simp] theorem Dev.setQueue_mem (d : Dev) (n : Nat) (x : ChanQueue) : (d.setQueue n x).mem = d.mem := rfl
@[simp] theorem Dev.setQueue_writes (d : Dev) (n : Nat) (x : ChanQueue) : (d.setQueue n x).writes = d.writes := rfl
@[simp] theorem Dev.setQueue_poison (d : Dev) (n : Nat) (x : ChanQueue) : (d.setQueue n x).poison = d.poison := rfl
@[simp] theorem Dev.setQueue_board (d : Dev) (n : Nat) (x : ChanQueue) : (d.setQueue n x).board = d.board := rfl
@[simp] theorem Dev.setQueue_manager (d : Dev) (n : Nat) (x : ChanQueue) : (d.setQueue n x).manager = d.manager := rfl
@[simp] theorem Dev.setQueue_fns (d : Dev) (n : Nat) (x : ChanQueue) : (d.setQueue n x).fns = d.fns := rfl
@[simp] theorem Dev.setQueue_ports (d : Dev) (n : Nat) (x : ChanQueue) : (d.setQueue n x).ports = d.ports := rfl
@[simp] theorem Dev.setQueue_rings (d : Dev) (n : Nat) (x : ChanQueue) : (d.setQueue n x).rings = d.rings := rfl
@[simp] theorem Dev.setQueue_rrGrant (d : Dev) (n : Nat) (x : ChanQueue) : (d.setQueue n x).rrGrant = d.rrGrant := rfl
@[simp] theorem Dev.setQueue_ops (d : Dev) (n : Nat) (x : ChanQueue) : (d.setQueue n x).ops = d.ops := rfl
@[simp] theorem Dev.setQueue_commits (d : Dev) (n : Nat) (x : ChanQueue) : (d.setQueue n x).commits = d.commits := rfl
@[simp] theorem Dev.setQueue_publication (d : Dev) (n : Nat) (x : ChanQueue) : (d.setQueue n x).publication = d.publication := rfl
@[simp] theorem Dev.setQueue_objs (d : Dev) (n : Nat) (x : ChanQueue) : (d.setQueue n x).objs = d.objs := rfl
@[simp] theorem Dev.setQueue_epochAt (d : Dev) (n : Nat) (x : ChanQueue) : (d.setQueue n x).epochAt = d.epochAt := rfl
@[simp] theorem Dev.setQueue_held (d : Dev) (n : Nat) (x : ChanQueue) : (d.setQueue n x).held = d.held := rfl
@[simp] theorem Dev.setQueue_latch (d : Dev) (n : Nat) (x : ChanQueue) : (d.setQueue n x).latch = d.latch := rfl
@[simp] theorem Dev.setQueue_msgs (d : Dev) (n : Nat) (x : ChanQueue) : (d.setQueue n x).msgs = d.msgs := rfl
@[simp] theorem Dev.setQueue_host (d : Dev) (n : Nat) (x : ChanQueue) : (d.setQueue n x).host = d.host := rfl
@[simp] theorem Dev.setQueue_fw (d : Dev) (n : Nat) (x : ChanQueue) : (d.setQueue n x).fw = d.fw := rfl
@[simp] theorem Dev.setQueue_coreDown (d : Dev) (n : Nat) (x : ChanQueue) : (d.setQueue n x).coreDown = d.coreDown := rfl
@[simp] theorem Dev.setQueue_raster (d : Dev) (n : Nat) (x : ChanQueue) : (d.setQueue n x).raster = d.raster := rfl
@[simp] theorem Dev.setQueue_comp (d : Dev) (n : Nat) (x : ChanQueue) : (d.setQueue n x).comp = d.comp := rfl
@[simp] theorem Dev.setQueue_disp (d : Dev) (n : Nat) (x : ChanQueue) : (d.setQueue n x).disp = d.disp := rfl
@[simp] theorem Dev.setQueue_touch (d : Dev) (n : Nat) (x : ChanQueue) : (d.setQueue n x).touch = d.touch := rfl
@[simp] theorem Dev.setQueue_haptic (d : Dev) (n : Nat) (x : ChanQueue) : (d.setQueue n x).haptic = d.haptic := rfl
@[simp] theorem Dev.setQueue_audio (d : Dev) (n : Nat) (x : ChanQueue) : (d.setQueue n x).audio = d.audio := rfl
@[simp] theorem Dev.setQueue_cvus (d : Dev) (n : Nat) (x : ChanQueue) : (d.setQueue n x).cvus = d.cvus := rfl
@[simp] theorem Dev.setQueue_dram (d : Dev) (n : Nat) (x : ChanQueue) : (d.setQueue n x).dram = d.dram := rfl
@[simp] theorem Dev.setQueue_power (d : Dev) (n : Nat) (x : ChanQueue) : (d.setQueue n x).power = d.power := rfl
@[simp] theorem Dev.setQueue_boot (d : Dev) (n : Nat) (x : ChanQueue) : (d.setQueue n x).boot = d.boot := rfl
@[simp] theorem Dev.setQueue_flash (d : Dev) (n : Nat) (x : ChanQueue) : (d.setQueue n x).flash = d.flash := rfl
@[simp] theorem Dev.setQueue_update (d : Dev) (n : Nat) (x : ChanQueue) : (d.setQueue n x).update = d.update := rfl
@[simp] theorem Dev.setQueue_safety (d : Dev) (n : Nat) (x : ChanQueue) : (d.setQueue n x).safety = d.safety := rfl
@[simp] theorem Dev.setQueue_freeze (d : Dev) (n : Nat) (x : ChanQueue) : (d.setQueue n x).freeze = d.freeze := rfl
@[simp] theorem Dev.setQueue_svp (d : Dev) (n : Nat) (x : ChanQueue) : (d.setQueue n x).svp = d.svp := rfl
@[simp] theorem Dev.setQueue_probe (d : Dev) (n : Nat) (x : ChanQueue) : (d.setQueue n x).probe = d.probe := rfl

/-! Dev.setPass. -/

@[simp] theorem Dev.setPass_now (d : Dev) (x : Pass) : (d.setPass x).now = d.now := rfl
@[simp] theorem Dev.setPass_free (d : Dev) (x : Pass) : (d.setPass x).free = d.free := rfl
@[simp] theorem Dev.setPass_events (d : Dev) (x : Pass) : (d.setPass x).events = d.events := rfl
@[simp] theorem Dev.setPass_mem (d : Dev) (x : Pass) : (d.setPass x).mem = d.mem := rfl
@[simp] theorem Dev.setPass_writes (d : Dev) (x : Pass) : (d.setPass x).writes = d.writes := rfl
@[simp] theorem Dev.setPass_poison (d : Dev) (x : Pass) : (d.setPass x).poison = d.poison := rfl
@[simp] theorem Dev.setPass_board (d : Dev) (x : Pass) : (d.setPass x).board = d.board := rfl
@[simp] theorem Dev.setPass_manager (d : Dev) (x : Pass) : (d.setPass x).manager = d.manager := rfl
@[simp] theorem Dev.setPass_fns (d : Dev) (x : Pass) : (d.setPass x).fns = d.fns := rfl
@[simp] theorem Dev.setPass_ports (d : Dev) (x : Pass) : (d.setPass x).ports = d.ports := rfl
@[simp] theorem Dev.setPass_rings (d : Dev) (x : Pass) : (d.setPass x).rings = d.rings := rfl
@[simp] theorem Dev.setPass_rrGrant (d : Dev) (x : Pass) : (d.setPass x).rrGrant = d.rrGrant := rfl
@[simp] theorem Dev.setPass_ops (d : Dev) (x : Pass) : (d.setPass x).ops = d.ops := rfl
@[simp] theorem Dev.setPass_commits (d : Dev) (x : Pass) : (d.setPass x).commits = d.commits := rfl
@[simp] theorem Dev.setPass_publication (d : Dev) (x : Pass) : (d.setPass x).publication = d.publication := rfl
@[simp] theorem Dev.setPass_objs (d : Dev) (x : Pass) : (d.setPass x).objs = d.objs := rfl
@[simp] theorem Dev.setPass_epochAt (d : Dev) (x : Pass) : (d.setPass x).epochAt = d.epochAt := rfl
@[simp] theorem Dev.setPass_held (d : Dev) (x : Pass) : (d.setPass x).held = d.held := rfl
@[simp] theorem Dev.setPass_latch (d : Dev) (x : Pass) : (d.setPass x).latch = d.latch := rfl
@[simp] theorem Dev.setPass_msgs (d : Dev) (x : Pass) : (d.setPass x).msgs = d.msgs := rfl
@[simp] theorem Dev.setPass_host (d : Dev) (x : Pass) : (d.setPass x).host = d.host := rfl
@[simp] theorem Dev.setPass_fw (d : Dev) (x : Pass) : (d.setPass x).fw = d.fw := rfl
@[simp] theorem Dev.setPass_coreDown (d : Dev) (x : Pass) : (d.setPass x).coreDown = d.coreDown := rfl
@[simp] theorem Dev.setPass_comp (d : Dev) (x : Pass) : (d.setPass x).comp = d.comp := rfl
@[simp] theorem Dev.setPass_disp (d : Dev) (x : Pass) : (d.setPass x).disp = d.disp := rfl
@[simp] theorem Dev.setPass_touch (d : Dev) (x : Pass) : (d.setPass x).touch = d.touch := rfl
@[simp] theorem Dev.setPass_haptic (d : Dev) (x : Pass) : (d.setPass x).haptic = d.haptic := rfl
@[simp] theorem Dev.setPass_audio (d : Dev) (x : Pass) : (d.setPass x).audio = d.audio := rfl
@[simp] theorem Dev.setPass_cvus (d : Dev) (x : Pass) : (d.setPass x).cvus = d.cvus := rfl
@[simp] theorem Dev.setPass_dram (d : Dev) (x : Pass) : (d.setPass x).dram = d.dram := rfl
@[simp] theorem Dev.setPass_bus (d : Dev) (x : Pass) : (d.setPass x).bus = d.bus := rfl
@[simp] theorem Dev.setPass_power (d : Dev) (x : Pass) : (d.setPass x).power = d.power := rfl
@[simp] theorem Dev.setPass_boot (d : Dev) (x : Pass) : (d.setPass x).boot = d.boot := rfl
@[simp] theorem Dev.setPass_flash (d : Dev) (x : Pass) : (d.setPass x).flash = d.flash := rfl
@[simp] theorem Dev.setPass_update (d : Dev) (x : Pass) : (d.setPass x).update = d.update := rfl
@[simp] theorem Dev.setPass_safety (d : Dev) (x : Pass) : (d.setPass x).safety = d.safety := rfl
@[simp] theorem Dev.setPass_freeze (d : Dev) (x : Pass) : (d.setPass x).freeze = d.freeze := rfl
@[simp] theorem Dev.setPass_svp (d : Dev) (x : Pass) : (d.setPass x).svp = d.svp := rfl
@[simp] theorem Dev.setPass_probe (d : Dev) (x : Pass) : (d.setPass x).probe = d.probe := rfl

/-! Dev.setStream. -/

@[simp] theorem Dev.setStream_now (d : Dev) (c : Bool) (n : Nat) (x : Stream) : (d.setStream c n x).now = d.now := rfl
@[simp] theorem Dev.setStream_free (d : Dev) (c : Bool) (n : Nat) (x : Stream) : (d.setStream c n x).free = d.free := rfl
@[simp] theorem Dev.setStream_events (d : Dev) (c : Bool) (n : Nat) (x : Stream) : (d.setStream c n x).events = d.events := rfl
@[simp] theorem Dev.setStream_mem (d : Dev) (c : Bool) (n : Nat) (x : Stream) : (d.setStream c n x).mem = d.mem := rfl
@[simp] theorem Dev.setStream_writes (d : Dev) (c : Bool) (n : Nat) (x : Stream) : (d.setStream c n x).writes = d.writes := rfl
@[simp] theorem Dev.setStream_poison (d : Dev) (c : Bool) (n : Nat) (x : Stream) : (d.setStream c n x).poison = d.poison := rfl
@[simp] theorem Dev.setStream_board (d : Dev) (c : Bool) (n : Nat) (x : Stream) : (d.setStream c n x).board = d.board := rfl
@[simp] theorem Dev.setStream_manager (d : Dev) (c : Bool) (n : Nat) (x : Stream) : (d.setStream c n x).manager = d.manager := rfl
@[simp] theorem Dev.setStream_fns (d : Dev) (c : Bool) (n : Nat) (x : Stream) : (d.setStream c n x).fns = d.fns := rfl
@[simp] theorem Dev.setStream_ports (d : Dev) (c : Bool) (n : Nat) (x : Stream) : (d.setStream c n x).ports = d.ports := rfl
@[simp] theorem Dev.setStream_rings (d : Dev) (c : Bool) (n : Nat) (x : Stream) : (d.setStream c n x).rings = d.rings := rfl
@[simp] theorem Dev.setStream_rrGrant (d : Dev) (c : Bool) (n : Nat) (x : Stream) : (d.setStream c n x).rrGrant = d.rrGrant := rfl
@[simp] theorem Dev.setStream_ops (d : Dev) (c : Bool) (n : Nat) (x : Stream) : (d.setStream c n x).ops = d.ops := rfl
@[simp] theorem Dev.setStream_commits (d : Dev) (c : Bool) (n : Nat) (x : Stream) : (d.setStream c n x).commits = d.commits := rfl
@[simp] theorem Dev.setStream_publication (d : Dev) (c : Bool) (n : Nat) (x : Stream) : (d.setStream c n x).publication = d.publication := rfl
@[simp] theorem Dev.setStream_objs (d : Dev) (c : Bool) (n : Nat) (x : Stream) : (d.setStream c n x).objs = d.objs := rfl
@[simp] theorem Dev.setStream_epochAt (d : Dev) (c : Bool) (n : Nat) (x : Stream) : (d.setStream c n x).epochAt = d.epochAt := rfl
@[simp] theorem Dev.setStream_held (d : Dev) (c : Bool) (n : Nat) (x : Stream) : (d.setStream c n x).held = d.held := rfl
@[simp] theorem Dev.setStream_latch (d : Dev) (c : Bool) (n : Nat) (x : Stream) : (d.setStream c n x).latch = d.latch := rfl
@[simp] theorem Dev.setStream_msgs (d : Dev) (c : Bool) (n : Nat) (x : Stream) : (d.setStream c n x).msgs = d.msgs := rfl
@[simp] theorem Dev.setStream_host (d : Dev) (c : Bool) (n : Nat) (x : Stream) : (d.setStream c n x).host = d.host := rfl
@[simp] theorem Dev.setStream_fw (d : Dev) (c : Bool) (n : Nat) (x : Stream) : (d.setStream c n x).fw = d.fw := rfl
@[simp] theorem Dev.setStream_coreDown (d : Dev) (c : Bool) (n : Nat) (x : Stream) : (d.setStream c n x).coreDown = d.coreDown := rfl
@[simp] theorem Dev.setStream_raster (d : Dev) (c : Bool) (n : Nat) (x : Stream) : (d.setStream c n x).raster = d.raster := rfl
@[simp] theorem Dev.setStream_comp (d : Dev) (c : Bool) (n : Nat) (x : Stream) : (d.setStream c n x).comp = d.comp := rfl
@[simp] theorem Dev.setStream_disp (d : Dev) (c : Bool) (n : Nat) (x : Stream) : (d.setStream c n x).disp = d.disp := rfl
@[simp] theorem Dev.setStream_touch (d : Dev) (c : Bool) (n : Nat) (x : Stream) : (d.setStream c n x).touch = d.touch := rfl
@[simp] theorem Dev.setStream_haptic (d : Dev) (c : Bool) (n : Nat) (x : Stream) : (d.setStream c n x).haptic = d.haptic := rfl
@[simp] theorem Dev.setStream_cvus (d : Dev) (c : Bool) (n : Nat) (x : Stream) : (d.setStream c n x).cvus = d.cvus := rfl
@[simp] theorem Dev.setStream_dram (d : Dev) (c : Bool) (n : Nat) (x : Stream) : (d.setStream c n x).dram = d.dram := rfl
@[simp] theorem Dev.setStream_bus (d : Dev) (c : Bool) (n : Nat) (x : Stream) : (d.setStream c n x).bus = d.bus := rfl
@[simp] theorem Dev.setStream_power (d : Dev) (c : Bool) (n : Nat) (x : Stream) : (d.setStream c n x).power = d.power := rfl
@[simp] theorem Dev.setStream_boot (d : Dev) (c : Bool) (n : Nat) (x : Stream) : (d.setStream c n x).boot = d.boot := rfl
@[simp] theorem Dev.setStream_flash (d : Dev) (c : Bool) (n : Nat) (x : Stream) : (d.setStream c n x).flash = d.flash := rfl
@[simp] theorem Dev.setStream_update (d : Dev) (c : Bool) (n : Nat) (x : Stream) : (d.setStream c n x).update = d.update := rfl
@[simp] theorem Dev.setStream_safety (d : Dev) (c : Bool) (n : Nat) (x : Stream) : (d.setStream c n x).safety = d.safety := rfl
@[simp] theorem Dev.setStream_freeze (d : Dev) (c : Bool) (n : Nat) (x : Stream) : (d.setStream c n x).freeze = d.freeze := rfl
@[simp] theorem Dev.setStream_svp (d : Dev) (c : Bool) (n : Nat) (x : Stream) : (d.setStream c n x).svp = d.svp := rfl
@[simp] theorem Dev.setStream_probe (d : Dev) (c : Bool) (n : Nat) (x : Stream) : (d.setStream c n x).probe = d.probe := rfl

/-! State. -/

@[simp] theorem commit_pending (who : Nat × Nat) (s : State) (d : Dev) : (commit who s d).pending = s.pending := rfl
@[simp] theorem commit_writes (who : Nat × Nat) (s : State) (d : Dev) : (commit who s d).dev.writes = [] := rfl
@[simp] theorem commit_mem (who : Nat × Nat) (s : State) (d : Dev) : (commit who s d).dev.mem = cellSetAll s.dev.mem d.writes := rfl
@[simp] theorem commit_bus (who : Nat × Nat) (s : State) (d : Dev) : (commit who s d).dev.bus = d.busStep who := rfl
@[simp] theorem commit_now (who : Nat × Nat) (s : State) (d : Dev) : (commit who s d).dev.now = d.now := rfl
@[simp] theorem commit_free (who : Nat × Nat) (s : State) (d : Dev) : (commit who s d).dev.free = d.free := rfl
@[simp] theorem commit_events (who : Nat × Nat) (s : State) (d : Dev) : (commit who s d).dev.events = d.events := rfl
@[simp] theorem commit_poison (who : Nat × Nat) (s : State) (d : Dev) : (commit who s d).dev.poison = d.poison := rfl
@[simp] theorem commit_board (who : Nat × Nat) (s : State) (d : Dev) : (commit who s d).dev.board = d.board := rfl
@[simp] theorem commit_manager (who : Nat × Nat) (s : State) (d : Dev) : (commit who s d).dev.manager = d.manager := rfl
@[simp] theorem commit_fns (who : Nat × Nat) (s : State) (d : Dev) : (commit who s d).dev.fns = d.fns := rfl
@[simp] theorem commit_ports (who : Nat × Nat) (s : State) (d : Dev) : (commit who s d).dev.ports = d.ports := rfl
@[simp] theorem commit_rings (who : Nat × Nat) (s : State) (d : Dev) : (commit who s d).dev.rings = d.rings := rfl
@[simp] theorem commit_rrGrant (who : Nat × Nat) (s : State) (d : Dev) : (commit who s d).dev.rrGrant = d.rrGrant := rfl
@[simp] theorem commit_ops (who : Nat × Nat) (s : State) (d : Dev) : (commit who s d).dev.ops = d.ops := rfl
@[simp] theorem commit_commits (who : Nat × Nat) (s : State) (d : Dev) : (commit who s d).dev.commits = d.commits := rfl
@[simp] theorem commit_publication (who : Nat × Nat) (s : State) (d : Dev) : (commit who s d).dev.publication = d.publication := rfl
@[simp] theorem commit_objs (who : Nat × Nat) (s : State) (d : Dev) : (commit who s d).dev.objs = d.objs := rfl
@[simp] theorem commit_epochAt (who : Nat × Nat) (s : State) (d : Dev) : (commit who s d).dev.epochAt = d.epochAt := rfl
@[simp] theorem commit_held (who : Nat × Nat) (s : State) (d : Dev) : (commit who s d).dev.held = d.held := rfl
@[simp] theorem commit_latch (who : Nat × Nat) (s : State) (d : Dev) : (commit who s d).dev.latch = d.latch := rfl
@[simp] theorem commit_msgs (who : Nat × Nat) (s : State) (d : Dev) : (commit who s d).dev.msgs = d.msgs := rfl
@[simp] theorem commit_host (who : Nat × Nat) (s : State) (d : Dev) : (commit who s d).dev.host = d.host := rfl
@[simp] theorem commit_fw (who : Nat × Nat) (s : State) (d : Dev) : (commit who s d).dev.fw = d.fw := rfl
@[simp] theorem commit_coreDown (who : Nat × Nat) (s : State) (d : Dev) : (commit who s d).dev.coreDown = d.coreDown := rfl
@[simp] theorem commit_raster (who : Nat × Nat) (s : State) (d : Dev) : (commit who s d).dev.raster = d.raster := rfl
@[simp] theorem commit_comp (who : Nat × Nat) (s : State) (d : Dev) : (commit who s d).dev.comp = d.comp := rfl
@[simp] theorem commit_disp (who : Nat × Nat) (s : State) (d : Dev) : (commit who s d).dev.disp = d.disp := rfl
@[simp] theorem commit_touch (who : Nat × Nat) (s : State) (d : Dev) : (commit who s d).dev.touch = d.touch := rfl
@[simp] theorem commit_haptic (who : Nat × Nat) (s : State) (d : Dev) : (commit who s d).dev.haptic = d.haptic := rfl
@[simp] theorem commit_audio (who : Nat × Nat) (s : State) (d : Dev) : (commit who s d).dev.audio = d.audio := rfl
@[simp] theorem commit_cvus (who : Nat × Nat) (s : State) (d : Dev) : (commit who s d).dev.cvus = d.cvus := rfl
@[simp] theorem commit_dram (who : Nat × Nat) (s : State) (d : Dev) : (commit who s d).dev.dram = d.dram := rfl
@[simp] theorem commit_power (who : Nat × Nat) (s : State) (d : Dev) : (commit who s d).dev.power = d.power := rfl
@[simp] theorem commit_boot (who : Nat × Nat) (s : State) (d : Dev) : (commit who s d).dev.boot = d.boot := rfl
@[simp] theorem commit_flash (who : Nat × Nat) (s : State) (d : Dev) : (commit who s d).dev.flash = d.flash := rfl
@[simp] theorem commit_update (who : Nat × Nat) (s : State) (d : Dev) : (commit who s d).dev.update = d.update := rfl
@[simp] theorem commit_safety (who : Nat × Nat) (s : State) (d : Dev) : (commit who s d).dev.safety = d.safety := rfl
@[simp] theorem commit_freeze (who : Nat × Nat) (s : State) (d : Dev) : (commit who s d).dev.freeze = d.freeze := rfl
@[simp] theorem commit_svp (who : Nat × Nat) (s : State) (d : Dev) : (commit who s d).dev.svp = d.svp := rfl
@[simp] theorem commit_probe (who : Nat × Nat) (s : State) (d : Dev) : (commit who s d).dev.probe = d.probe := rfl

end Sys2Proof.Machine
end

