-- ==== Sys2Proof/Laws/Fetch.lean ====
section
/-! SUPPORT. What translation, reads and the fetch of an instruction may change: cached page-table entries and the count of free
values, and nothing else. -/

namespace Sys2Proof.Machine

theorem Fetched.refl (d : Dev) : Fetched d d := ⟨rfl, fun _ => rfl⟩

/-- What a fetch leaves has every other field as it was. -/
theorem Fetched.eq {d e : Dev} (h : Fetched d e) : e = { d with fns := e.fns, free := e.free, bus := e.bus } := by
  have h1 := h.1
  rw [← h1]

theorem Fetched.fn {d e : Dev} (h : Fetched d e) (f : Nat) : { e.fn f with tlb := [] } = { d.fn f with tlb := [] } := h.2 f

theorem Fetched.trans {d e r : Dev} (h : Fetched d e) (k : Fetched e r) : Fetched d r := by
  refine ⟨?_, fun f => (k.2 f).trans (h.2 f)⟩
  have h1 := h.1
  have k1 := k.1
  have := congrArg (fun x : Dev => { x with fns := d.fns, free := d.free, bus := d.bus }) k1
  exact (this.symm ▸ h1 : _)

@[simp] theorem Dev.fn_setFn_same (d : Dev) (f : Nat) (x : Fn) : (d.setFn f x).fn f = x := by simp [Dev.fn, Dev.setFn]

theorem Dev.fn_setFn (d : Dev) (f g : Nat) (x : Fn) : (d.setFn f x).fn g = if f = g then x else d.fn g := by
  show tget (tset d.fns f x) g _ = _
  rw [tget_tset]
  rfl

/-- A translation-cache entry of a function replaced. -/
theorem fetched_setTlb (d : Dev) (f : Nat) (t : Tab TlbEntry) : Fetched d (d.setFn f { d.fn f with tlb := t }) := by
  refine ⟨rfl, fun g => ?_⟩
  rw [Dev.fn_setFn]
  split
  · rename_i h; subst h; rfl
  · rfl

theorem fetched_free (d : Dev) (n : Nat) : Fetched d { d with free := n } := ⟨rfl, fun _ => rfl⟩
theorem fetched_ask (d : Dev) (a n : Nat) (p : Option Nat) : Fetched d (d.ask a n p) := ⟨rfl, fun _ => rfl⟩
theorem fetched_asks (l : List (Nat × Nat × Nat)) (d : Dev) : Fetched d (l.foldl (fun d x => d.ask x.2.1 x.2.2 none) d) := by
  induction l generalizing d with
  | nil => exact Fetched.refl d
  | cons x r ih => exact (fetched_ask d x.2.1 x.2.2 none).trans (ih _)
theorem fetched_asked (d : Dev) (w : Option (Nat × Nat)) : Fetched d (d.asked w) := ⟨rfl, fun _ => rfl⟩

theorem fetchEntry_fetched (d0 : Dev) (f entry va size : Nat) : Fetched d0 (d0.fetchEntry f entry va size).1 := by
  unfold Dev.fetchEntry
  dsimp only
  generalize hd : (if (tfind (d0.fn f).tlb entry).isSome then d0 else d0.ask entry 8 (some (mpHost f))) = d
  have h0 : Fetched d0 d := by
    rw [← hd]
    split
    · exact Fetched.refl d0
    · exact fetched_ask d0 _ _ _
  refine h0.trans ?_
  clear hd h0
  split
  · dsimp only
    split
    · exact fetched_setTlb d f _
    · exact Fetched.refl d
  · exact Fetched.refl d
  · split
    · exact Fetched.refl d
    · split <;> exact fetched_free d _
  · split <;> exact fetched_free d _

theorem walk_fetched (levels : List Nat) (d : Dev) (f va : Nat) (acc : Acc) (table : Nat) :
    Fetched d (d.walk f va acc levels table).1 := by
  induction levels generalizing d table with
  | nil => exact Fetched.refl d
  | cons lv rest ih =>
    unfold Dev.walk
    split
    · exact Fetched.refl d
    · dsimp only
      have h := fetchEntry_fetched d f (table + 8 * bitsN va (12 + 9 * lv) 9) (va / 2 ^ (12 + 9 * lv) * 2 ^ (12 + 9 * lv)) (2 ^ (12 + 9 * lv))
      split
      · rename_i d1 c he; rw [he] at h; exact h
      · rename_i d1 e he
        rw [he] at h
        split
        · exact h
        · split
          · exact h
          · split
            · split <;> exact h
            · exact h.trans (ih d1 _)

theorem translate_fetched (d : Dev) (f va : Nat) (acc : Acc) : Fetched d (d.translate f va acc).1 := by
  unfold Dev.translate
  dsimp only
  split
  · split
    · exact Fetched.refl d
    · split <;> exact Fetched.refl d
  · split
    · exact walk_fetched _ d f va acc _
    · exact Fetched.refl d

theorem translateAll_fetched (l : List (Nat × Nat)) (d : Dev) (f : Nat) (acc : Acc) : Fetched d (d.translateAll f acc l).1 := by
  induction l generalizing d with
  | nil => exact Fetched.refl d
  | cons p r ih =>
    obtain ⟨va, n⟩ := p
    unfold Dev.translateAll
    have h := translate_fetched d f va acc
    split
    · rename_i d1 c he; rw [he] at h; exact h
    · rename_i d1 pa he
      rw [he] at h
      have h2 := ih d1
      split
      · rename_i d2 e he2; rw [he2] at h2; exact h.trans h2
      · rename_i d2 t he2; rw [he2] at h2; exact h.trans h2

/-- A read changes cached page-table entries and the count of free values, and nothing else. -/
theorem readV_fetched (d : Dev) (f va n : Nat) (acc : Acc) : Fetched d (d.readV f va n acc).1 := by
  unfold Dev.readV
  have h := translateAll_fetched (pieces va n) d f acc
  split
  · rename_i d1 e he; rw [he] at h; exact h
  · rename_i d1 t he
    rw [he] at h
    split
    · exact h
    · exact h.trans (fetched_asks t d1)

theorem readWords_fetched (d : Dev) (f va n : Nat) (acc : Acc) : Fetched d (d.readWords f va n acc).1 := by
  unfold Dev.readWords
  have h := readV_fetched d f va (9 * n) acc
  split
  · rename_i d1 e he; rw [he] at h; exact h
  · rename_i d1 e he; rw [he] at h; exact h

/-- The fetch of an instruction that succeeds. -/
theorem fetch_fetched (d : Dev) (c : Ctx) (q : Seq) (h : (d.fetch c q).2 = none) : Fetched d (d.fetch c q).1 := by
  unfold Dev.fetch at *
  split
  · rename_i g
    have k := readV_fetched d (ringFn g.val) (q.byteAddr q.pc) 9 .exec
    split
    · rename_i d1 b he; rw [he] at k; exact k
    · rename_i d1 c1 va he; simp only [he] at h; cases h
  · rename_i i
    have k := readV_fetched d (d.ctxFn (.wave i)) (q.byteAddr q.pc) 9 .exec
    split
    · rename_i d1 b he; rw [he] at k; exact k.trans (fetched_asked d1 _)
    · rename_i d1 c1 va he; simp only [he] at h; cases h
  · exact Fetched.refl d

end Sys2Proof.Machine
end

