-- ==== Sys2Proof/Laws/Memory.lean ====
section
/-! SUPPORT. Memory: every operation keeps the canonical form, and a byte read after a store is the byte stored. -/

namespace Sys2Proof.Machine

theorem cellsWfFrom_cons (lo x : Nat) (b : Byte) (r : List Host.Cell) :
    cellsWfFrom lo ((x, b) :: r) = (decide (lo ≤ x) && (b != 0) && cellsWfFrom (x + 1) r) := rfl

theorem cellGet_cons (x : Nat) (b : Byte) (r : List Host.Cell) (a : Nat) :
    cellGet ((x, b) :: r) a = if x = a then b else cellGet r a := rfl

theorem cellSet_nil (a : Nat) (b : Byte) : cellSet [] a b = if b = 0 then [] else [(a, b)] := rfl

theorem cellSet_cons (x : Nat) (c : Byte) (r : List Host.Cell) (a : Nat) (b : Byte) :
    cellSet ((x, c) :: r) a b =
      if a < x then (if b = 0 then (x, c) :: r else (a, b) :: (x, c) :: r)
      else if x = a then (if b = 0 then r else (a, b) :: r)
      else (x, c) :: cellSet r a b := rfl

theorem cellsWfFrom_mono (m : List Host.Cell) (lo hi : Nat) (h : lo ≤ hi) (w : cellsWfFrom hi m = true) : cellsWfFrom lo m = true := by
  cases m with
  | nil => rfl
  | cons p r =>
    obtain ⟨x, b⟩ := p
    rw [cellsWfFrom_cons] at *
    simp only [Bool.and_eq_true, decide_eq_true_eq] at *
    exact ⟨⟨by omega, w.1.2⟩, w.2⟩

/-- A store of a byte at or above the bound keeps the form. -/
theorem cellsWfFrom_cellSet (m : List Host.Cell) (lo a : Nat) (b : Byte) (h : lo ≤ a) (w : cellsWfFrom lo m = true) :
    cellsWfFrom lo (cellSet m a b) = true := by
  induction m generalizing lo with
  | nil =>
    rw [cellSet_nil]
    split
    · rfl
    · rename_i hb
      rw [cellsWfFrom_cons]
      simp only [Bool.and_eq_true, decide_eq_true_eq]
      exact ⟨⟨h, by simpa using hb⟩, rfl⟩
  | cons p r ih =>
    obtain ⟨x, c⟩ := p
    rw [cellSet_cons]
    have w0 := w
    rw [cellsWfFrom_cons] at w
    simp only [Bool.and_eq_true, decide_eq_true_eq] at w
    obtain ⟨⟨hx, hc⟩, hr⟩ := w
    split
    · rename_i hax
      split
      · exact w0
      · rename_i hb
        rw [cellsWfFrom_cons, cellsWfFrom_cons]
        simp only [Bool.and_eq_true, decide_eq_true_eq]
        exact ⟨⟨h, by simpa using hb⟩, ⟨by omega, hc⟩, hr⟩
    · split
      · rename_i h1 h2
        subst h2
        split
        · exact cellsWfFrom_mono r lo (x + 1) (by omega) hr
        · rename_i hb
          rw [cellsWfFrom_cons]
          simp only [Bool.and_eq_true, decide_eq_true_eq]
          exact ⟨⟨h, by simpa using hb⟩, hr⟩
      · rename_i h1 h2
        rw [cellsWfFrom_cons]
        simp only [Bool.and_eq_true, decide_eq_true_eq]
        exact ⟨⟨hx, hc⟩, ih (x + 1) (by omega) hr⟩

theorem wf_cellSet (m : List Host.Cell) (a : Nat) (b : Byte) (w : Memory.wf m = true) : Memory.wf (cellSet m a b) = true :=
  cellsWfFrom_cellSet m 0 a b (Nat.zero_le a) w

theorem wf_cellSetAll (m : List Host.Cell) (l : List (Nat × Byte)) (w : Memory.wf m = true) : Memory.wf (cellSetAll m l) = true := by
  induction l with
  | nil => exact w
  | cons p r ih => exact wf_cellSet _ p.1 p.2 ih

/-- Nothing below the bound is listed. -/
theorem cellGet_below (m : List Host.Cell) (lo a : Nat) (h : a < lo) (w : cellsWfFrom lo m = true) : cellGet m a = 0 := by
  induction m generalizing lo with
  | nil => rfl
  | cons p r ih =>
    obtain ⟨x, b⟩ := p
    rw [cellsWfFrom_cons] at w
    simp only [Bool.and_eq_true, decide_eq_true_eq] at w
    rw [cellGet_cons, if_neg (by omega)]
    exact ih (x + 1) (by omega) w.2

/-- A byte after one store. -/
theorem cellGet_cellSet_from (m : List Host.Cell) (lo a x : Nat) (b : Byte) (w : cellsWfFrom lo m = true) :
    cellGet (cellSet m a b) x = if a = x then b else cellGet m x := by
  induction m generalizing lo with
  | nil =>
    rw [cellSet_nil]
    split
    · rename_i hb
      rw [hb]
      split <;> rfl
    · rw [cellGet_cons]
  | cons p r ih =>
    obtain ⟨y, c⟩ := p
    have w0 := w
    rw [cellsWfFrom_cons] at w
    simp only [Bool.and_eq_true, decide_eq_true_eq] at w
    have hlow : ∀ z, z < y + 1 → cellGet r z = 0 := fun z hz => cellGet_below r (y + 1) z hz w.2
    rw [cellSet_cons]
    split
    · rename_i hay
      split
      · rename_i hb
        split
        · rename_i hax; subst hax; rw [cellGet_cons, if_neg (by omega), hlow a (by omega), hb]
        · rfl
      · rw [cellGet_cons]
    · split
      · rename_i h1 h2
        subst h2
        split
        · rename_i hb
          rw [cellGet_cons]
          split
          · rename_i hyx; subst hyx; rw [hlow y (by omega), hb]
          · rfl
        · rw [cellGet_cons, cellGet_cons]; split <;> rfl
      · rename_i h1 h2
        rw [cellGet_cons, cellGet_cons, ih (y + 1) w.2]
        split
        · rename_i h3; subst h3; rw [if_neg (by omega)]
        · rfl

theorem cellGet_cellSet (m : List Host.Cell) (a x : Nat) (b : Byte) (w : Memory.wf m = true) :
    cellGet (cellSet m a b) x = if a = x then b else cellGet m x := cellGet_cellSet_from m 0 a x b w

/-- A byte after all stores of a command: the newest store to it, else what it was. -/
theorem cellGet_cellSetAll (m : List Host.Cell) (l : List (Nat × Byte)) (x : Nat) (w : Memory.wf m = true) :
    cellGet (cellSetAll m l) x = match l.find? (fun p => p.1 = x) with | some p => p.2 | none => cellGet m x := by
  induction l with
  | nil => rfl
  | cons p r ih =>
    obtain ⟨a, b⟩ := p
    have h : cellSetAll m ((a, b) :: r) = cellSet (cellSetAll m r) a b := rfl
    rw [h, cellGet_cellSet _ a x b (wf_cellSetAll m r w), ih]
    by_cases hax : a = x
    · simp [hax]
    · simp [hax]

end Sys2Proof.Machine
end

