-- ==== Sys2Proof/Laws/Run.lean ====
section
/-! SUPPORT. What the shared operations of a command do: commit and run, the issue of an instruction, and what they leave alone. -/

namespace Sys2Proof.Machine

/-! Commit and run. -/

/-- A calm device stays as it is at the end of a command. -/
theorem settle_calm (d : Dev) (h : d.Calm) : d.settle = d := by
  obtain ⟨h1, h2, h3⟩ := h
  unfold Dev.settle
  simp [h1, h2, h3]

theorem runFrom_next (who : Nat × Nat) (h : Dev → Dev) (s : State) : runFrom who h s = .next (commit who s (h s.dev).settle) := rfl

theorem runFrom_calm (who : Nat × Nat) (h : Dev → Dev) (s : State) (c : (h s.dev).Calm) : runFrom who h s = .next (commit who s (h s.dev)) := by
  rw [runFrom_next, settle_calm _ c]

/-- No access of a command is left in the lattice. -/
theorem busStep_done (d : Dev) (who : Nat × Nat) : (d.busStep who).asks = [] ∧ (d.busStep who).who = none := by
  unfold Dev.busStep
  split
  · rename_i h; exact ⟨h.1, rfl⟩
  · exact ⟨rfl, rfl⟩

/-- A command without accesses leaves the lattice. -/
theorem busStep_quiet (d : Dev) (who : Nat × Nat) (h : d.Quiet) : d.busStep who = d.bus := by
  obtain ⟨h1, h2, h3⟩ := h
  unfold Dev.busStep
  rw [if_pos ⟨h2, h1⟩, ← h3]

/-- A command without stores has no effect on memory. -/
theorem commit_memory (who : Nat × Nat) (s : State) (d : Dev) (h : d.writes = []) (m : d.mem = s.dev.mem) :
    commit who s d = { s with dev := { d with bus := d.busStep who } } := by
  unfold commit
  rw [h]
  show ({ s with dev := { d with mem := s.dev.mem, writes := [], bus := d.busStep who } } : State) = _
  rw [← m, ← h]

/-- A command without accesses has no effect on memory and the lattice. -/
theorem commit_quiet (who : Nat × Nat) (s : State) (d : Dev) (h : d.Quiet) (m : d.mem = s.dev.mem) : commit who s d = { s with dev := d } := by
  rw [commit_memory who s d h.1 m, busStep_quiet d who h]

/-- What a run answers keeps the invariant. -/
theorem runFrom_inv (who : Nat × Nat) (h : Dev → Dev) (s t : State) (i : s.Inv) (e : runFrom who h s = .next t) : t.Inv := by
  rw [runFrom_next] at e
  injection e with e
  subst e
  exact ⟨wf_cellSetAll _ _ i.1, rfl, busStep_done _ who⟩

/-- A run leaves the queue. -/
theorem runFrom_pending (who : Nat × Nat) (h : Dev → Dev) (s t : State) (e : runFrom who h s = .next t) : t.pending = s.pending := by
  rw [runFrom_next] at e
  injection e with e
  subst e
  rfl

/-! Tables of the device read after a write. -/

theorem Dev.ring_setRing (d : Dev) (g h : Nat) (x : Ring) : (d.setRing g x).ring h = if g = h then x else d.ring h := tget_tset _ _ _ _ _
theorem Dev.port_setPort (d : Dev) (g h : Nat) (x : Port) : (d.setPort g x).port h = if g = h then x else d.port h := tget_tset _ _ _ _ _
theorem Dev.fwt_setFwt (d : Dev) (k t j u : Nat) (x : FwThread) :
    (d.setFwt k t x).fwt j u = if 4 * k + t = 4 * j + u then x else d.fwt j u := tget_tset _ _ _ _ _
theorem Dev.wave_setWave (d : Dev) (i j : Nat) (x : Wave) : (d.setWave i x).wave j = if i = j then some x else d.wave j := tfind_tset _ _ _ _
theorem Dev.slice_setSlice (d : Dev) (i j : Nat) (x : Slice) : (d.setSlice i x).slice j = if i = j then x else d.slice j := tget_tset _ _ _ _ _
theorem Dev.pc_setPc (d : Dev) (p q : Nat) (x : PipeComp) : (d.setPc p x).pc q = if p = q then x else d.pc q := tget_tset _ _ _ _ _
theorem Dev.pt_setPt (d : Dev) (p q : Nat) (x : PipeTime) : (d.setPt p x).pt q = if p = q then x else d.pt q := tget_tset _ _ _ _ _
theorem Dev.dport_setDport (d : Dev) (p q : Nat) (x : DispPort) : (d.setDport p x).dport q = if p = q then x else d.dport q := tget_tset _ _ _ _ _
theorem Dev.chan_setChan (d : Dev) (p q : Nat) (x : Chan) : (d.setChan p x).chan q = if p = q then x else d.chan q := tget_tset _ _ _ _ _
theorem Dev.group_setGroup (d : Dev) (p q : Nat) (x : Group) : (d.setGroup p x).group q = if p = q then x else d.group q := tget_tset _ _ _ _ _
theorem Dev.coreOf_setCore (d : Dev) (p q : Nat) (x : Core) : (d.setCore p x).coreOf q = if p = q then x else d.coreOf q := tget_tset _ _ _ _ _
theorem Dev.handle_setHandle (d : Dev) (p q : Nat) (x : Handle) : (d.setHandle p x).handle q = if p = q then x else d.handle q := tget_tset _ _ _ _ _

@[simp] theorem Dev.ring_setRing_same (d : Dev) (g : Nat) (x : Ring) : (d.setRing g x).ring g = x := by rw [Dev.ring_setRing, if_pos rfl]
@[simp] theorem Dev.port_setPort_same (d : Dev) (g : Nat) (x : Port) : (d.setPort g x).port g = x := by rw [Dev.port_setPort, if_pos rfl]
@[simp] theorem Dev.fwt_setFwt_same (d : Dev) (k t : Nat) (x : FwThread) : (d.setFwt k t x).fwt k t = x := by rw [Dev.fwt_setFwt, if_pos rfl]
@[simp] theorem Dev.wave_setWave_same (d : Dev) (i : Nat) (x : Wave) : (d.setWave i x).wave i = some x := by rw [Dev.wave_setWave, if_pos rfl]
@[simp] theorem Dev.slice_setSlice_same (d : Dev) (i : Nat) (x : Slice) : (d.setSlice i x).slice i = x := by rw [Dev.slice_setSlice, if_pos rfl]
@[simp] theorem Dev.chan_setChan_same (d : Dev) (i : Nat) (x : Chan) : (d.setChan i x).chan i = x := by rw [Dev.chan_setChan, if_pos rfl]
@[simp] theorem Dev.group_setGroup_same (d : Dev) (i : Nat) (x : Group) : (d.setGroup i x).group i = x := by rw [Dev.group_setGroup, if_pos rfl]
@[simp] theorem Dev.pt_setPt_same (d : Dev) (i : Nat) (x : PipeTime) : (d.setPt i x).pt i = x := by rw [Dev.pt_setPt, if_pos rfl]
@[simp] theorem Dev.dport_setDport_same (d : Dev) (i : Nat) (x : DispPort) : (d.setDport i x).dport i = x := by rw [Dev.dport_setDport, if_pos rfl]

/-! The state of a program counter. -/

/-- A program counter after a change of it. -/
theorem seq_updSeq (d : Dev) (c : Ctx) (h : Seq → Seq) (q : Seq) (e : d.seq c = some q) : (d.updSeq c h).seq c = some (h q) := by
  cases c with
  | guest g =>
    simp only [Dev.seq, Dev.updSeq, Dev.updThread] at *
    split at e
    · rename_i ha
      injection e with e
      simp [ha, e]
    · cases e
  | firmware k t =>
    simp only [Dev.seq, Dev.updSeq] at *
    injection e with e
    simp [e]
  | wave i =>
    simp only [Dev.seq, Dev.updSeq] at *
    cases hw : d.wave i with
    | none => simp [hw] at e
    | some x =>
      simp only [hw, Option.map_some, Option.some.injEq] at e
      simp [e]
  | slice n =>
    simp only [Dev.seq, Dev.updSeq] at *
    injection e with e
    simp [e]

/-! What only a program counter's change leaves. -/

theorem OnlyProgram.refl (c : Ctx) (d : Dev) : OnlyProgram c d d := by
  refine ⟨fun _ => rfl, rfl, ?_⟩
  cases c
  · exact ⟨rfl, fun _ _ => rfl, rfl⟩
  · exact ⟨rfl, fun _ _ _ => rfl, rfl⟩
  · exact ⟨rfl, rfl, fun _ _ => rfl, rfl⟩
  · exact ⟨rfl, rfl, fun _ _ => rfl, rfl⟩

theorem OnlyProgram.trans (c : Ctx) {d e r : Dev} (h : OnlyProgram c d e) (k : OnlyProgram c e r) : OnlyProgram c d r := by
  obtain ⟨h1, h2, h3⟩ := h
  obtain ⟨k1, k2, k3⟩ := k
  refine ⟨fun f => (k1 f).trans (h1 f), ?_, ?_⟩
  · have := congrArg (fun x : Debug => { x with stepping := d.probe.stepping }) k2
    exact this.trans h2
  · cases c with
    | guest g =>
      obtain ⟨a1, a2, a3⟩ := h3
      obtain ⟨b1, b2, b3⟩ := k3
      refine ⟨?_, fun j hj => (b2 j hj).trans (a2 j hj), ?_⟩
      · exact (congrArg (fun x : Dev => { x with fns := d.fns, free := d.free, bus := d.bus, probe := d.probe, rings := d.rings }) b1).trans a1
      · exact (congrArg (fun x : Ring => { x with thread := { x.thread with seq := (d.ring g.val).thread.seq } }) b3).trans a3
    | firmware p t =>
      obtain ⟨a1, a2, a3⟩ := h3
      obtain ⟨b1, b2, b3⟩ := k3
      refine ⟨?_, fun j u hj => (b2 j u hj).trans (a2 j u hj), ?_⟩
      · exact (congrArg (fun x : Dev => { x with fns := d.fns, free := d.free, bus := d.bus, probe := d.probe, fw := d.fw }) b1).trans a1
      · exact (congrArg (fun x : FwThread => { x with seq := (d.fwt p.val t.val).seq, halted := (d.fwt p.val t.val).halted }) b3).trans a3
    | wave i =>
      obtain ⟨a1, a2, a3, a4⟩ := h3
      obtain ⟨b1, b2, b3, b4⟩ := k3
      refine ⟨?_, ?_, fun j hj => (b3 j hj).trans (a3 j hj), b4.trans a4⟩
      · exact (congrArg (fun x : Dev => { x with fns := d.fns, free := d.free, bus := d.bus, probe := d.probe, raster := d.raster }) b1).trans a1
      · exact (congrArg (fun x : Raster => { x with waves := d.raster.waves }) b2).trans a2
    | slice n =>
      obtain ⟨a1, a2, a3, a4⟩ := h3
      obtain ⟨b1, b2, b3, b4⟩ := k3
      refine ⟨?_, ?_, fun j hj => (b3 j hj).trans (a3 j hj), ?_⟩
      · exact (congrArg (fun x : Dev => { x with fns := d.fns, free := d.free, bus := d.bus, probe := d.probe, audio := d.audio }) b1).trans a1
      · exact (congrArg (fun x : Audio => { x with slices := d.audio.slices }) b2).trans a2
      · exact (congrArg (fun x : Slice => { x with seq := (d.slice n.val).seq, others := (d.slice n.val).others }) b4).trans a4

theorem Fetched.only (c : Ctx) {d e : Dev} (h : Fetched d e) : OnlyProgram c d e := by
  have he := h.eq
  refine ⟨h.2, ?_, ?_⟩
  · rw [he]
  · rw [he]
    cases c
    · exact ⟨rfl, fun _ _ => rfl, rfl⟩
    · exact ⟨rfl, fun _ _ _ => rfl, rfl⟩
    · exact ⟨rfl, rfl, fun _ _ => rfl, rfl⟩
    · exact ⟨rfl, rfl, fun _ _ => rfl, rfl⟩

theorem unstep_only (c : Ctx) (d : Dev) : OnlyProgram c d (d.unstep c) := by
  unfold Dev.unstep
  split
  · refine ⟨fun _ => rfl, rfl, ?_⟩
    cases c
    · exact ⟨rfl, fun _ _ => rfl, rfl⟩
    · exact ⟨rfl, fun _ _ _ => rfl, rfl⟩
    · exact ⟨rfl, rfl, fun _ _ => rfl, rfl⟩
    · exact ⟨rfl, rfl, fun _ _ => rfl, rfl⟩
  · exact OnlyProgram.refl c d

theorem updSeq_only (c : Ctx) (d : Dev) (h : Seq → Seq) : OnlyProgram c d (d.updSeq c h) := by
  cases c with
  | guest g =>
    refine ⟨fun _ => rfl, rfl, rfl, fun j hj => ?_, ?_⟩
    · show (d.setRing g.val _).ring j = _
      rw [Dev.ring_setRing, if_neg (fun e => hj e.symm)]
    · simp [Dev.updSeq, Dev.updThread]
  | firmware k t =>
    refine ⟨fun _ => rfl, rfl, rfl, fun j u hj => ?_, ?_⟩
    · show (d.setFwt _ _ _).fwt j u = _
      rw [Dev.fwt_setFwt, if_neg (fun e => hj e.symm)]
    · simp [Dev.updSeq]
  | wave i =>
    unfold Dev.updSeq
    dsimp only
    cases hw : d.wave i with
    | none => exact OnlyProgram.refl _ d
    | some x =>
      refine ⟨fun _ => rfl, rfl, rfl, rfl, fun j hj => ?_, ?_⟩
      · show (d.setWave _ _).wave j = _
        rw [Dev.wave_setWave, if_neg (fun e => hj e.symm)]
      · simp [hw]
  | slice n =>
    refine ⟨fun _ => rfl, rfl, rfl, rfl, fun j hj => ?_, ?_⟩
    · show (d.setSlice _ _).slice j = _
      rw [Dev.slice_setSlice, if_neg (fun e => hj e.symm)]
    · simp [Dev.updSeq]

/-! The issue of an instruction. -/

theorem precheck_ready (d : Dev) (c : Ctx) (sh : Shape) (w : Insn) (q : Seq) (l : limited c = true → q.steps < q.limit)
    (p : q.holds q.pc = true) (f : (d.fetch c q).2 = none) (k : w.decodeExc sh c = none) : d.precheck c sh w q = ((d.fetch c q).1, none) := by
  unfold Dev.precheck
  have hl : ¬ ((limited c && decide (q.limit ≤ q.steps)) = true) := by
    intro h
    simp only [Bool.and_eq_true, decide_eq_true_eq] at h
    have := l h.1
    omega
  rw [if_neg hl]
  simp only [p, Bool.not_true, Bool.false_eq_true, if_false]
  rcases hf : d.fetch c q with ⟨d1, e⟩
  rw [hf] at f
  dsimp only at f
  subst f
  simp [k]

/-- An instruction that is ready: its effect when the predicate lets it execute, else only the next index (R47). -/
theorem issue_ready (d : Dev) (c : Ctx) (sh : Shape) (w : Insn) (control : Bool) (eff : Dev → Dev × Except Exc Flow) (q : Seq)
    (r : d.Ready c sh w q) :
    issue c sh w control eff d =
      if (d.issued c q).predicate c sh w control then
        match eff (d.issued c q) with
        | (e, .error x) => e.raise c x
        | (e, .ok f) => e.proceed c f
      else (d.issued c q).proceed c .next := by
  obtain ⟨r1, r2, r3, r4, r5, r6⟩ := r
  unfold issue
  rw [if_neg (by simp [r1]), r2]
  dsimp only
  rw [precheck_ready (d.unstep c) c sh w q r3 r4 r5 r6]
  dsimp only
  show (if !(d.issued c q).predicate c sh w control then _ else _) = _
  cases (d.issued c q).predicate c sh w control <;> rfl

/-- The program counter of a context does not depend on what a translation or a step under halt changes. -/
theorem seq_of_only (c : Ctx) (d e : Dev) (h1 : e.rings = d.rings) (h2 : e.fw = d.fw) (h3 : e.raster = d.raster) (h4 : e.audio = d.audio) :
    e.seq c = d.seq c := by
  cases c
  · unfold Dev.seq Dev.ring; rw [h1]
  · unfold Dev.seq Dev.fwt; rw [h2]
  · unfold Dev.seq Dev.wave; rw [h3]
  · unfold Dev.seq Dev.slice; rw [h4]

theorem unstep_eq (d : Dev) (c : Ctx) : d.unstep c = { d with probe := (d.unstep c).probe } := by
  unfold Dev.unstep
  split <;> rfl

theorem fetched_seq (c x : Ctx) (d : Dev) (q : Seq) (f : ((d.unstep c).fetch c q).2 = none) :
    ((d.unstep c).fetch c q).1.seq x = d.seq x := by
  have h := (fetch_fetched (d.unstep c) c q f).eq
  rw [h]
  rw [unstep_eq d c]
  exact seq_of_only x _ _ rfl rfl rfl rfl

theorem issued_seq (d : Dev) (c : Ctx) (q : Seq) (e : d.seq c = some q) (f : ((d.unstep c).fetch c q).2 = none) :
    (d.issued c q).seq c = some { q with steps := q.steps + 1 } := by
  unfold Dev.issued
  exact seq_updSeq _ c _ q ((fetched_seq c c d q f).trans e)

theorem issued_only (d : Dev) (c : Ctx) (q : Seq) (f : ((d.unstep c).fetch c q).2 = none) : OnlyProgram c d (d.issued c q) :=
  ((unstep_only c d).trans c ((fetch_fetched _ c q f).only c)).trans c (updSeq_only c _ _)

/-- What the end of a command rests on is none of a program's. -/
theorem OnlyProgram.calm (c : Ctx) {d e : Dev} (h : OnlyProgram c d e) (k : d.Calm) : e.Calm := by
  obtain ⟨_, _, h3⟩ := h
  obtain ⟨k1, k2, k3⟩ := k
  have hu : e.update = d.update ∧ e.safety = d.safety := by
    cases c
    · exact ⟨by rw [← h3.1], by rw [← h3.1]⟩
    · exact ⟨by rw [← h3.1], by rw [← h3.1]⟩
    · exact ⟨by rw [← h3.1], by rw [← h3.1]⟩
    · exact ⟨by rw [← h3.1], by rw [← h3.1]⟩
  exact ⟨by rw [hu.1]; exact k1, by rw [hu.2]; exact k2, by rw [hu.2]; exact k3⟩

theorem OnlyProgram.memory (c : Ctx) {d e : Dev} (h : OnlyProgram c d e) : e.mem = d.mem ∧ e.writes = d.writes := by
  obtain ⟨_, _, h3⟩ := h
  cases c
  · exact ⟨by rw [← h3.1], by rw [← h3.1]⟩
  · exact ⟨by rw [← h3.1], by rw [← h3.1]⟩
  · exact ⟨by rw [← h3.1], by rw [← h3.1]⟩
  · exact ⟨by rw [← h3.1], by rw [← h3.1]⟩

/-- What the lattice holds is none of a program's. -/
theorem OnlyProgram.onBus (c : Ctx) {d e : Dev} (h : OnlyProgram c d e) (b : Lattice) : OnlyProgram c d { e with bus := b } := by
  cases c <;> exact h

/-- A command that changes only a program counter answers the next state with that device, its accesses in the lattice. -/
theorem run_program (c : Ctx) (h : Dev → Dev) (s : State) (k : s.Calm) (o : OnlyProgram c s.dev (h s.dev)) :
    run h s = .next { s with dev := { h s.dev with bus := (h s.dev).busStep (mpSeq, 0) } } := by
  have m := o.memory c
  show runFrom _ h s = _
  rw [runFrom_calm _ h s (o.calm c k.2), commit_memory _ s _ (m.2.trans k.1.1) m.1]

/-- A command that leaves the device calm and makes no access. -/
theorem does_quiet (i : Instr) (s : State) (who : Nat × Nat) (h : Dev → Dev) {P : Dev → Prop} (x : exec i s = runFrom who h s) (c : (h s.dev).Calm)
    (w : (h s.dev).Quiet) (m : (h s.dev).mem = s.dev.mem) (p : P (h s.dev)) : Does i s P :=
  ⟨{ s with dev := h s.dev }, by rw [x, runFrom_calm who h s c, commit_quiet who s _ w m], rfl, p⟩

/-- A command that changes only a program counter. -/
theorem does_program (i : Instr) (s : State) (c : Ctx) (h : Dev → Dev) {P : Dev → Prop} (x : exec i s = run h s) (k : s.Calm)
    (o : OnlyProgram c s.dev (h s.dev)) (p : P { h s.dev with bus := (h s.dev).busStep (mpSeq, 0) }) : Does i s P :=
  ⟨{ s with dev := { h s.dev with bus := (h s.dev).busStep (mpSeq, 0) } }, by rw [x, run_program c h s k o], rfl, p⟩

end Sys2Proof.Machine
end

