-- ==== Sys2Proof/Laws/Exec.lean ====
section
/-! SUPPORT. Every meaning is a run of an effect on the device, but for the three that can stop at the internal control space. -/

namespace Sys2Proof.Machine

/-- A meaning is a run. -/
def IsRun (x : Host.Outcome State Fault Refusal) (s : State) : Prop := ∃ who h, x = runFrom who h s

/-- A meaning is a run, or stops at the control space. -/
def IsRunOrStop (x : Host.Outcome State Fault Refusal) (s : State) : Prop := IsRun x s ∨ ∃ a, x = .fault (.controlSpace a)

theorem isRun_runFrom (who : Nat × Nat) (h : Dev → Dev) (s : State) : IsRun (runFrom who h s) s := ⟨_, _, rfl⟩
theorem isRun_run (h : Dev → Dev) (s : State) : IsRun (run h s) s := ⟨_, _, rfl⟩
theorem isRun_runAs (p : Nat) (h : Dev → Dev) (s : State) : IsRun (runAs p h s) s := ⟨_, _, rfl⟩
theorem isRun_runOp (id : OpId) (h : Dev → Dev) (s : State) : IsRun (runOp id h s) s := ⟨_, _, rfl⟩

theorem execIll_isRun (s : State) : ∀ c w, IsRun (execIll c w s) s := by
  intros
  unfold execIll
  with_reducible exact isRun_run ..
theorem execNop_isRun (s : State) : ∀ c w, IsRun (execNop c w s) s := by
  intros
  unfold execNop
  with_reducible exact isRun_run ..
theorem execMov_isRun (s : State) : ∀ c w, IsRun (execMov c w s) s := by
  intros
  unfold execMov
  with_reducible exact isRun_run ..
theorem execMovhi_isRun (s : State) : ∀ c w, IsRun (execMovhi c w s) s := by
  intros
  unfold execMovhi
  with_reducible exact isRun_run ..
theorem execAdd_isRun (s : State) : ∀ c w, IsRun (execAdd c w s) s := by
  intros
  unfold execAdd
  with_reducible exact isRun_run ..
theorem execSub_isRun (s : State) : ∀ c w, IsRun (execSub c w s) s := by
  intros
  unfold execSub
  with_reducible exact isRun_run ..
theorem execMul_isRun (s : State) : ∀ c w, IsRun (execMul c w s) s := by
  intros
  unfold execMul
  with_reducible exact isRun_run ..
theorem execMulh_isRun (s : State) : ∀ c w, IsRun (execMulh c w s) s := by
  intros
  unfold execMulh
  with_reducible exact isRun_run ..
theorem execDiv_isRun (s : State) : ∀ c w, IsRun (execDiv c w s) s := by
  intros
  unfold execDiv
  with_reducible exact isRun_run ..
theorem execRem_isRun (s : State) : ∀ c w, IsRun (execRem c w s) s := by
  intros
  unfold execRem
  with_reducible exact isRun_run ..
theorem execMin_isRun (s : State) : ∀ c w, IsRun (execMin c w s) s := by
  intros
  unfold execMin
  with_reducible exact isRun_run ..
theorem execMax_isRun (s : State) : ∀ c w, IsRun (execMax c w s) s := by
  intros
  unfold execMax
  with_reducible exact isRun_run ..
theorem execAbs_isRun (s : State) : ∀ c w, IsRun (execAbs c w s) s := by
  intros
  unfold execAbs
  with_reducible exact isRun_run ..
theorem execNeg_isRun (s : State) : ∀ c w, IsRun (execNeg c w s) s := by
  intros
  unfold execNeg
  with_reducible exact isRun_run ..
theorem execAndW_isRun (s : State) : ∀ c w, IsRun (execAndW c w s) s := by
  intros
  unfold execAndW
  with_reducible exact isRun_run ..
theorem execOrW_isRun (s : State) : ∀ c w, IsRun (execOrW c w s) s := by
  intros
  unfold execOrW
  with_reducible exact isRun_run ..
theorem execXorW_isRun (s : State) : ∀ c w, IsRun (execXorW c w s) s := by
  intros
  unfold execXorW
  with_reducible exact isRun_run ..
theorem execAndn_isRun (s : State) : ∀ c w, IsRun (execAndn c w s) s := by
  intros
  unfold execAndn
  with_reducible exact isRun_run ..
theorem execShl_isRun (s : State) : ∀ c w, IsRun (execShl c w s) s := by
  intros
  unfold execShl
  with_reducible exact isRun_run ..
theorem execShr_isRun (s : State) : ∀ c w, IsRun (execShr c w s) s := by
  intros
  unfold execShr
  with_reducible exact isRun_run ..
theorem execSar_isRun (s : State) : ∀ c w, IsRun (execSar c w s) s := by
  intros
  unfold execSar
  with_reducible exact isRun_run ..
theorem execRot_isRun (s : State) : ∀ c w, IsRun (execRot c w s) s := by
  intros
  unfold execRot
  with_reducible exact isRun_run ..
theorem execBfx_isRun (s : State) : ∀ c w, IsRun (execBfx c w s) s := by
  intros
  unfold execBfx
  with_reducible exact isRun_run ..
theorem execBfi_isRun (s : State) : ∀ c w, IsRun (execBfi c w s) s := by
  intros
  unfold execBfi
  with_reducible exact isRun_run ..
theorem execClz_isRun (s : State) : ∀ c w, IsRun (execClz c w s) s := by
  intros
  unfold execClz
  with_reducible exact isRun_run ..
theorem execPopc_isRun (s : State) : ∀ c w, IsRun (execPopc c w s) s := by
  intros
  unfold execPopc
  with_reducible exact isRun_run ..
theorem execCmp_isRun (s : State) : ∀ c w, IsRun (execCmp c w s) s := by
  intros
  unfold execCmp
  with_reducible exact isRun_run ..
theorem execCmpu_isRun (s : State) : ∀ c w, IsRun (execCmpu c w s) s := by
  intros
  unfold execCmpu
  with_reducible exact isRun_run ..
theorem execSel_isRun (s : State) : ∀ c w, IsRun (execSel c w s) s := by
  intros
  unfold execSel
  with_reducible exact isRun_run ..
theorem execPlog_isRun (s : State) : ∀ c w, IsRun (execPlog c w s) s := by
  intros
  unfold execPlog
  with_reducible exact isRun_run ..
theorem execFaddH_isRun (s : State) : ∀ c w, IsRun (execFaddH c w s) s := by
  intros
  unfold execFaddH
  with_reducible exact isRun_run ..
theorem execFmulH_isRun (s : State) : ∀ c w, IsRun (execFmulH c w s) s := by
  intros
  unfold execFmulH
  with_reducible exact isRun_run ..
theorem execFfmaH_isRun (s : State) : ∀ c w, IsRun (execFfmaH c w s) s := by
  intros
  unfold execFfmaH
  with_reducible exact isRun_run ..
theorem execFmnxH_isRun (s : State) : ∀ c w, IsRun (execFmnxH c w s) s := by
  intros
  unfold execFmnxH
  with_reducible exact isRun_run ..
theorem execFcmpH_isRun (s : State) : ∀ c w, IsRun (execFcmpH c w s) s := by
  intros
  unfold execFcmpH
  with_reducible exact isRun_run ..
theorem execFsgnH_isRun (s : State) : ∀ c w, IsRun (execFsgnH c w s) s := by
  intros
  unfold execFsgnH
  with_reducible exact isRun_run ..
theorem execFcvt_isRun (s : State) : ∀ c w, IsRun (execFcvt c w s) s := by
  intros
  unfold execFcvt
  with_reducible exact isRun_run ..
theorem execFaddS_isRun (s : State) : ∀ c w, IsRun (execFaddS c w s) s := by
  intros
  unfold execFaddS
  with_reducible exact isRun_run ..
theorem execFmulS_isRun (s : State) : ∀ c w, IsRun (execFmulS c w s) s := by
  intros
  unfold execFmulS
  with_reducible exact isRun_run ..
theorem execFfmaS_isRun (s : State) : ∀ c w, IsRun (execFfmaS c w s) s := by
  intros
  unfold execFfmaS
  with_reducible exact isRun_run ..
theorem execFmnxS_isRun (s : State) : ∀ c w, IsRun (execFmnxS c w s) s := by
  intros
  unfold execFmnxS
  with_reducible exact isRun_run ..
theorem execFcmpS_isRun (s : State) : ∀ c w, IsRun (execFcmpS c w s) s := by
  intros
  unfold execFcmpS
  with_reducible exact isRun_run ..
theorem execFdivS_isRun (s : State) : ∀ c w, IsRun (execFdivS c w s) s := by
  intros
  unfold execFdivS
  with_reducible exact isRun_run ..
theorem execFsqrtS_isRun (s : State) : ∀ c w, IsRun (execFsqrtS c w s) s := by
  intros
  unfold execFsqrtS
  with_reducible exact isRun_run ..
theorem execFsgnS_isRun (s : State) : ∀ c w, IsRun (execFsgnS c w s) s := by
  intros
  unfold execFsgnS
  with_reducible exact isRun_run ..
theorem execSaddQ_isRun (s : State) : ∀ c w, IsRun (execSaddQ c w s) s := by
  intros
  unfold execSaddQ
  with_reducible exact isRun_run ..
theorem execSsubQ_isRun (s : State) : ∀ c w, IsRun (execSsubQ c w s) s := by
  intros
  unfold execSsubQ
  with_reducible exact isRun_run ..
theorem execSmulQ_isRun (s : State) : ∀ c w, IsRun (execSmulQ c w s) s := by
  intros
  unfold execSmulQ
  with_reducible exact isRun_run ..
theorem execSmadQ_isRun (s : State) : ∀ c w, IsRun (execSmadQ c w s) s := by
  intros
  unfold execSmadQ
  with_reducible exact isRun_run ..
theorem execSabsQ_isRun (s : State) : ∀ c w, IsRun (execSabsQ c w s) s := by
  intros
  unfold execSabsQ
  with_reducible exact isRun_run ..
theorem execLane_isRun (s : State) : ∀ c w, IsRun (execLane c w s) s := by
  intros
  unfold execLane
  with_reducible exact isRun_run ..
theorem execSwzH_isRun (s : State) : ∀ c w, IsRun (execSwzH c w s) s := by
  intros
  unfold execSwzH
  with_reducible exact isRun_run ..
theorem execBr_isRun (s : State) : ∀ c w, IsRun (execBr c w s) s := by
  intros
  unfold execBr
  with_reducible exact isRun_run ..
theorem execJmp_isRun (s : State) : ∀ c w, IsRun (execJmp c w s) s := by
  intros
  unfold execJmp
  with_reducible exact isRun_run ..
theorem execCall_isRun (s : State) : ∀ c w, IsRun (execCall c w s) s := by
  intros
  unfold execCall
  with_reducible exact isRun_run ..
theorem execCallr_isRun (s : State) : ∀ c w, IsRun (execCallr c w s) s := by
  intros
  unfold execCallr
  with_reducible exact isRun_run ..
theorem execRet_isRun (s : State) : ∀ c w, IsRun (execRet c w s) s := by
  intros
  unfold execRet
  with_reducible exact isRun_run ..
theorem execLoop_isRun (s : State) : ∀ c w, IsRun (execLoop c w s) s := by
  intros
  unfold execLoop
  with_reducible exact isRun_run ..
theorem execEndProg_isRun (s : State) : ∀ c w, IsRun (execEndProg c w s) s := by
  intros
  unfold execEndProg
  with_reducible exact isRun_run ..
theorem execFail_isRun (s : State) : ∀ c w, IsRun (execFail c w s) s := by
  intros
  unfold execFail
  with_reducible exact isRun_run ..
theorem execYield_isRun (s : State) : ∀ c w, IsRun (execYield c w s) s := by
  intros
  unfold execYield
  with_reducible exact isRun_run ..
theorem execLd_isRun (s : State) : ∀ c w, IsRun (execLd c w s) s := by
  intros
  unfold execLd
  with_reducible exact isRun_run ..
theorem execLds_isRun (s : State) : ∀ c w, IsRun (execLds c w s) s := by
  intros
  unfold execLds
  with_reducible exact isRun_run ..
theorem execSt_isRun (s : State) : ∀ c w, IsRun (execSt c w s) s := by
  intros
  unfold execSt
  with_reducible exact isRun_run ..
theorem execLdp_isRun (s : State) : ∀ c w, IsRun (execLdp c w s) s := by
  intros
  unfold execLdp
  with_reducible exact isRun_run ..
theorem execAtom_isRun (s : State) : ∀ c w, IsRun (execAtom c w s) s := by
  intros
  unfold execAtom
  with_reducible exact isRun_run ..
theorem execPref_isRun (s : State) : ∀ c w, IsRun (execPref c w s) s := by
  intros
  unfold execPref
  with_reducible exact isRun_run ..
theorem execFlush_isRun (s : State) : ∀ c w, IsRun (execFlush c w s) s := by
  intros
  unfold execFlush
  with_reducible exact isRun_run ..
theorem execMfence_isRun (s : State) : ∀ c w, IsRun (execMfence c w s) s := by
  intros
  unfold execMfence
  with_reducible exact isRun_run ..
theorem execEnq_isRun (s : State) : ∀ c w, IsRun (execEnq c w s) s := by
  intros
  unfold execEnq
  with_reducible exact isRun_run ..
theorem execKick_isRun (s : State) : ∀ c w, IsRun (execKick c w s) s := by
  intros
  unfold execKick
  with_reducible exact isRun_run ..
theorem execWaitev_isRun (s : State) : ∀ c w, IsRun (execWaitev c w s) s := by
  intros
  unfold execWaitev
  with_reducible exact isRun_run ..
theorem execFence_isRun (s : State) : ∀ c w, IsRun (execFence c w s) s := by
  intros
  unfold execFence
  with_reducible exact isRun_run ..
theorem execTxb_isRun (s : State) : ∀ c w, IsRun (execTxb c w s) s := by
  intros
  unfold execTxb
  with_reducible exact isRun_run ..
theorem execTxc_isRun (s : State) : ∀ c w, IsRun (execTxc c w s) s := by
  intros
  unfold execTxc
  with_reducible exact isRun_run ..
theorem execTxa_isRun (s : State) : ∀ c w, IsRun (execTxa c w s) s := by
  intros
  unfold execTxa
  with_reducible exact isRun_run ..
theorem execSto_isRun (s : State) : ∀ c w, IsRun (execSto c w s) s := by
  intros
  unfold execSto
  with_reducible exact isRun_run ..
theorem execLdo_isRun (s : State) : ∀ c w, IsRun (execLdo c w s) s := by
  intros
  unfold execLdo
  with_reducible exact isRun_run ..
theorem execSnap_isRun (s : State) : ∀ c w, IsRun (execSnap c w s) s := by
  intros
  unfold execSnap
  with_reducible exact isRun_run ..
theorem execRdtime_isRun (s : State) : ∀ c w, IsRun (execRdtime c w s) s := by
  intros
  unfold execRdtime
  with_reducible exact isRun_run ..
theorem execRdid_isRun (s : State) : ∀ c w, IsRun (execRdid c w s) s := by
  intros
  unfold execRdid
  with_reducible exact isRun_run ..
theorem execVaddH_isRun (s : State) : ∀ c w, IsRun (execVaddH c w s) s := by
  intros
  unfold execVaddH
  with_reducible exact isRun_run ..
theorem execVmulH_isRun (s : State) : ∀ c w, IsRun (execVmulH c w s) s := by
  intros
  unfold execVmulH
  with_reducible exact isRun_run ..
theorem execVfmaH_isRun (s : State) : ∀ c w, IsRun (execVfmaH c w s) s := by
  intros
  unfold execVfmaH
  with_reducible exact isRun_run ..
theorem execVmnxH_isRun (s : State) : ∀ c w, IsRun (execVmnxH c w s) s := by
  intros
  unfold execVmnxH
  with_reducible exact isRun_run ..
theorem execVaddS_isRun (s : State) : ∀ c w, IsRun (execVaddS c w s) s := by
  intros
  unfold execVaddS
  with_reducible exact isRun_run ..
theorem execVmulS_isRun (s : State) : ∀ c w, IsRun (execVmulS c w s) s := by
  intros
  unfold execVmulS
  with_reducible exact isRun_run ..
theorem execVfmaS_isRun (s : State) : ∀ c w, IsRun (execVfmaS c w s) s := by
  intros
  unfold execVfmaS
  with_reducible exact isRun_run ..
theorem execVrcp_isRun (s : State) : ∀ c w, IsRun (execVrcp c w s) s := by
  intros
  unfold execVrcp
  with_reducible exact isRun_run ..
theorem execVexl_isRun (s : State) : ∀ c w, IsRun (execVexl c w s) s := by
  intros
  unfold execVexl
  with_reducible exact isRun_run ..
theorem execVtrg_isRun (s : State) : ∀ c w, IsRun (execVtrg c w s) s := by
  intros
  unfold execVtrg
  with_reducible exact isRun_run ..
theorem execViadd_isRun (s : State) : ∀ c w, IsRun (execViadd c w s) s := by
  intros
  unfold execViadd
  with_reducible exact isRun_run ..
theorem execVlog_isRun (s : State) : ∀ c w, IsRun (execVlog c w s) s := by
  intros
  unfold execVlog
  with_reducible exact isRun_run ..
theorem execVshf_isRun (s : State) : ∀ c w, IsRun (execVshf c w s) s := by
  intros
  unfold execVshf
  with_reducible exact isRun_run ..
theorem execVcmp_isRun (s : State) : ∀ c w, IsRun (execVcmp c w s) s := by
  intros
  unfold execVcmp
  with_reducible exact isRun_run ..
theorem execVsel_isRun (s : State) : ∀ c w, IsRun (execVsel c w s) s := by
  intros
  unfold execVsel
  with_reducible exact isRun_run ..
theorem execVcvt_isRun (s : State) : ∀ c w, IsRun (execVcvt c w s) s := by
  intros
  unfold execVcvt
  with_reducible exact isRun_run ..
theorem execVbcast_isRun (s : State) : ∀ c w, IsRun (execVbcast c w s) s := by
  intros
  unfold execVbcast
  with_reducible exact isRun_run ..
theorem execVred_isRun (s : State) : ∀ c w, IsRun (execVred c w s) s := by
  intros
  unfold execVred
  with_reducible exact isRun_run ..
theorem execVperm_isRun (s : State) : ∀ c w, IsRun (execVperm c w s) s := by
  intros
  unfold execVperm
  with_reducible exact isRun_run ..
theorem execVldl_isRun (s : State) : ∀ c w, IsRun (execVldl c w s) s := by
  intros
  unfold execVldl
  with_reducible exact isRun_run ..
theorem execVstl_isRun (s : State) : ∀ c w, IsRun (execVstl c w s) s := by
  intros
  unfold execVstl
  with_reducible exact isRun_run ..
theorem execVldg_isRun (s : State) : ∀ c w, IsRun (execVldg c w s) s := by
  intros
  unfold execVldg
  with_reducible exact isRun_run ..
theorem execVstg_isRun (s : State) : ∀ c w, IsRun (execVstg c w s) s := by
  intros
  unfold execVstg
  with_reducible exact isRun_run ..
theorem execVatom_isRun (s : State) : ∀ c w, IsRun (execVatom c w s) s := by
  intros
  unfold execVatom
  with_reducible exact isRun_run ..
theorem execTex_isRun (s : State) : ∀ c w, IsRun (execTex c w s) s := by
  intros
  unfold execTex
  with_reducible exact isRun_run ..
theorem execTexl_isRun (s : State) : ∀ c w, IsRun (execTexl c w s) s := by
  intros
  unfold execTexl
  with_reducible exact isRun_run ..
theorem execTexg_isRun (s : State) : ∀ c w, IsRun (execTexg c w s) s := by
  intros
  unfold execTexg
  with_reducible exact isRun_run ..
theorem execTexf_isRun (s : State) : ∀ c w, IsRun (execTexf c w s) s := by
  intros
  unfold execTexf
  with_reducible exact isRun_run ..
theorem execTexq_isRun (s : State) : ∀ c w, IsRun (execTexq c w s) s := by
  intros
  unfold execTexq
  with_reducible exact isRun_run ..
theorem execPxld_isRun (s : State) : ∀ c w, IsRun (execPxld c w s) s := by
  intros
  unfold execPxld
  with_reducible exact isRun_run ..
theorem execPxst_isRun (s : State) : ∀ c w, IsRun (execPxst c w s) s := by
  intros
  unfold execPxst
  with_reducible exact isRun_run ..
theorem execPxbld_isRun (s : State) : ∀ c w, IsRun (execPxbld c w s) s := by
  intros
  unfold execPxbld
  with_reducible exact isRun_run ..
theorem execIlkb_isRun (s : State) : ∀ c w, IsRun (execIlkb c w s) s := by
  intros
  unfold execIlkb
  with_reducible exact isRun_run ..
theorem execIlke_isRun (s : State) : ∀ c w, IsRun (execIlke c w s) s := by
  intros
  unfold execIlke
  with_reducible exact isRun_run ..
theorem execKill_isRun (s : State) : ∀ c w, IsRun (execKill c w s) s := by
  intros
  unfold execKill
  with_reducible exact isRun_run ..
theorem execEmit_isRun (s : State) : ∀ c w, IsRun (execEmit c w s) s := by
  intros
  unfold execEmit
  with_reducible exact isRun_run ..
theorem execAttr_isRun (s : State) : ∀ c w, IsRun (execAttr c w s) s := by
  intros
  unfold execAttr
  with_reducible exact isRun_run ..
theorem execDeriv_isRun (s : State) : ∀ c w, IsRun (execDeriv c w s) s := by
  intros
  unfold execDeriv
  with_reducible exact isRun_run ..
theorem execAmac_isRun (s : State) : ∀ c w, IsRun (execAmac c w s) s := by
  intros
  unfold execAmac
  with_reducible exact isRun_run ..
theorem execAmsu_isRun (s : State) : ∀ c w, IsRun (execAmsu c w s) s := by
  intros
  unfold execAmsu
  with_reducible exact isRun_run ..
theorem execAldc_isRun (s : State) : ∀ c w, IsRun (execAldc c w s) s := by
  intros
  unfold execAldc
  with_reducible exact isRun_run ..
theorem execAdlr_isRun (s : State) : ∀ c w, IsRun (execAdlr c w s) s := by
  intros
  unfold execAdlr
  with_reducible exact isRun_run ..
theorem execAdlw_isRun (s : State) : ∀ c w, IsRun (execAdlw c w s) s := by
  intros
  unfold execAdlw
  with_reducible exact isRun_run ..
theorem execAin_isRun (s : State) : ∀ c w, IsRun (execAin c w s) s := by
  intros
  unfold execAin
  with_reducible exact isRun_run ..
theorem execAout_isRun (s : State) : ∀ c w, IsRun (execAout c w s) s := by
  intros
  unfold execAout
  with_reducible exact isRun_run ..
theorem execArnd_isRun (s : State) : ∀ c w, IsRun (execArnd c w s) s := by
  intros
  unfold execArnd
  with_reducible exact isRun_run ..
theorem execAbiq_isRun (s : State) : ∀ c w, IsRun (execAbiq c w s) s := by
  intros
  unfold execAbiq
  with_reducible exact isRun_run ..
theorem execAramp_isRun (s : State) : ∀ c w, IsRun (execAramp c w s) s := by
  intros
  unfold execAramp
  with_reducible exact isRun_run ..
theorem execApeak_isRun (s : State) : ∀ c w, IsRun (execApeak c w s) s := by
  intros
  unfold execApeak
  with_reducible exact isRun_run ..
theorem execCsrr_isRun (s : State) : ∀ c w, IsRun (execCsrr c w s) s := by
  intros
  unfold execCsrr
  with_reducible exact isRun_run ..
theorem execCsrw_isRun (s : State) : ∀ c w, IsRun (execCsrw c w s) s := by
  intros
  unfold execCsrw
  with_reducible exact isRun_run ..
theorem execEret_isRun (s : State) : ∀ c w, IsRun (execEret c w s) s := by
  intros
  unfold execEret
  with_reducible exact isRun_run ..
theorem execIoinv_isRun (s : State) : ∀ c w, IsRun (execIoinv c w s) s := by
  intros
  unfold execIoinv
  with_reducible exact isRun_run ..
theorem execThrd_isRun (s : State) : ∀ c w, IsRun (execThrd c w s) s := by
  intros
  unfold execThrd
  with_reducible exact isRun_run ..
theorem execLedg_isRun (s : State) : ∀ c w, IsRun (execLedg c w s) s := by
  intros
  unfold execLedg
  with_reducible exact isRun_run ..
theorem execHalt_isRun (s : State) : ∀ c w, IsRun (execHalt c w s) s := by
  intros
  unfold execHalt
  with_reducible exact isRun_run ..
theorem execWdog_isRun (s : State) : ∀ c w, IsRun (execWdog c w s) s := by
  intros
  unfold execWdog
  with_reducible exact isRun_run ..
theorem execWaitevWake_isRun (s : State) : ∀ c at_, IsRun (execWaitevWake c at_ s) s := by
  intros
  unfold execWaitevWake
  with_reducible exact isRun_run ..
theorem execFenceWake_isRun (s : State) : ∀ g, IsRun (execFenceWake g s) s := by
  intros
  unfold execFenceWake
  with_reducible exact isRun_run ..
theorem execDoorbell_isRun (s : State) : ∀ f k v, IsRun (execDoorbell f k v s) s := by
  intros
  unfold execDoorbell
  with_reducible exact isRun_run ..
theorem execCmplHead_isRun (s : State) : ∀ f k v, IsRun (execCmplHead f k v s) s := by
  intros
  unfold execCmplHead
  with_reducible exact isRun_run ..
theorem execRingCtl_isRun (s : State) : ∀ f k v, IsRun (execRingCtl f k v s) s := by
  intros
  unfold execRingCtl
  with_reducible exact isRun_run ..
theorem execItemAdmit_isRun (s : State) : ∀ g, IsRun (execItemAdmit g s) s := by
  intros
  unfold execItemAdmit
  with_reducible exact isRun_runAs ..
theorem execItemStart_isRun (s : State) : ∀ g, IsRun (execItemStart g s) s := by
  intros
  unfold execItemStart
  with_reducible exact isRun_run ..
theorem execEngineOpStart_isRun (s : State) : ∀ id, IsRun (execEngineOpStart id s) s := by
  intros
  unfold execEngineOpStart
  with_reducible exact isRun_runOp ..
theorem execOpComplete_isRun (s : State) : ∀ id, IsRun (execOpComplete id s) s := by
  intros
  unfold execOpComplete
  with_reducible exact isRun_run ..
theorem execCompletionRecordWrite_isRun (s : State) : ∀ g, IsRun (execCompletionRecordWrite g s) s := by
  intros
  unfold execCompletionRecordWrite
  with_reducible exact isRun_runAs ..
theorem execCompletionCoalesceTimeout_isRun (s : State) : ∀ g at_, IsRun (execCompletionCoalesceTimeout g at_ s) s := by
  intros
  unfold execCompletionCoalesceTimeout
  with_reducible exact isRun_runAs ..
theorem execCmplRetry_isRun (s : State) : ∀ g, IsRun (execCmplRetry g s) s := by
  intros
  unfold execCmplRetry
  with_reducible exact isRun_runAs ..
theorem execEpochBoundary_isRun (s : State) : ∀ at_, IsRun (execEpochBoundary at_ s) s := by
  intros
  unfold execEpochBoundary
  with_reducible exact isRun_run ..
theorem execSequencerCoreReset_isRun (s : State) : ∀ c, IsRun (execSequencerCoreReset c s) s := by
  intros
  unfold execSequencerCoreReset
  with_reducible exact isRun_run ..
theorem execSequencerCoreRestart_isRun (s : State) : ∀ c at_, IsRun (execSequencerCoreRestart c at_ s) s := by
  intros
  unfold execSequencerCoreRestart
  with_reducible exact isRun_run ..
theorem execFlr_isRun (s : State) : ∀ f, IsRun (execFlr f s) s := by
  intros
  unfold execFlr
  with_reducible exact isRun_run ..
theorem execResetReq_isRun (s : State) : ∀ f v, IsRun (execResetReq f v s) s := by
  intros
  unfold execResetReq
  with_reducible exact isRun_run ..
theorem execFuncCtlReset_isRun (s : State) : ∀ host f v, IsRun (execFuncCtlReset host f v s) s := by
  intros
  unfold execFuncCtlReset
  with_reducible exact isRun_run ..
theorem execFuncCtlHold_isRun (s : State) : ∀ host f v, IsRun (execFuncCtlHold host f v s) s := by
  intros
  unfold execFuncCtlHold
  with_reducible exact isRun_run ..
theorem execDrainLimitExpiry_isRun (s : State) : ∀ f at_, IsRun (execDrainLimitExpiry f at_ s) s := by
  intros
  unfold execDrainLimitExpiry
  with_reducible exact isRun_run ..
theorem execHeldResetRelease_isRun (s : State) : ∀ f, IsRun (execHeldResetRelease f s) s := by
  intros
  unfold execHeldResetRelease
  with_reducible exact isRun_run ..
theorem execOpCancel_isRun (s : State) : ∀ id, IsRun (execOpCancel id s) s := by
  intros
  unfold execOpCancel
  with_reducible exact isRun_run ..
theorem execResetEnd_isRun (s : State) : ∀ f, IsRun (execResetEnd f s) s := by
  intros
  unfold execResetEnd
  with_reducible exact isRun_runAs ..
theorem execLinkDown_isRun (s : State) : ∀ p hotReset, IsRun (execLinkDown p hotReset s) s := by
  intros
  unfold execLinkDown
  with_reducible exact isRun_run ..
theorem execVfEnableSet_isRun (s : State) : ∀ p, IsRun (execVfEnableSet p s) s := by
  intros
  unfold execVfEnableSet
  with_reducible exact isRun_run ..
theorem execVfEnableClear_isRun (s : State) : ∀ p, IsRun (execVfEnableClear p s) s := by
  intros
  unfold execVfEnableClear
  with_reducible exact isRun_run ..
theorem execNumvfsWrite_isRun (s : State) : ∀ p v, IsRun (execNumvfsWrite p v s) s := by
  intros
  unfold execNumvfsWrite
  with_reducible exact isRun_run ..
theorem execD3hotTransition_isRun (s : State) : ∀ f enter, IsRun (execD3hotTransition f enter s) s := by
  intros
  unfold execD3hotTransition
  with_reducible exact isRun_run ..
theorem execMsixPendingSend_isRun (s : State) : ∀ f vec, IsRun (execMsixPendingSend f vec s) s := by
  intros
  unfold execMsixPendingSend
  with_reducible exact isRun_run ..
theorem execEvStatusClear_isRun (s : State) : ∀ f v again, IsRun (execEvStatusClear f v again s) s := by
  intros
  unfold execEvStatusClear
  with_reducible exact isRun_run ..
theorem execBar2Read_isRun (s : State) : ∀ f off len, IsRun (execBar2Read f off len s) s := by
  intros
  unfold execBar2Read
  with_reducible exact isRun_runAs ..
theorem execBar2Write_isRun (s : State) : ∀ f off data, IsRun (execBar2Write f off data s) s := by
  intros
  unfold execBar2Write
  with_reducible exact isRun_runAs ..
theorem execIommuRoot_isRun (s : State) : ∀ host f v, IsRun (execIommuRoot host f v s) s := by
  intros
  unfold execIommuRoot
  with_reducible exact isRun_run ..
theorem execInvCtl_isRun (s : State) : ∀ host f v, IsRun (execInvCtl host f v s) s := by
  intros
  unfold execInvCtl
  with_reducible exact isRun_run ..
theorem execInvalidationDone_isRun (s : State) : ∀ f, IsRun (execInvalidationDone f s) s := by
  intros
  unfold execInvalidationDone
  with_reducible exact isRun_run ..
theorem execDirtyCtlEnable_isRun (s : State) : ∀ host f v, IsRun (execDirtyCtlEnable host f v s) s := by
  intros
  unfold execDirtyCtlEnable
  with_reducible exact isRun_run ..
theorem execSwap_isRun (s : State) : ∀ host f v, IsRun (execSwap host f v s) s := by
  intros
  unfold execSwap
  with_reducible exact isRun_run ..
theorem execSwapDone_isRun (s : State) : ∀ f, IsRun (execSwapDone f s) s := by
  intros
  unfold execSwapDone
  with_reducible exact isRun_run ..
theorem execPtmCtlReq_isRun (s : State) : ∀ f v, IsRun (execPtmCtlReq f v s) s := by
  intros
  unfold execPtmCtlReq
  with_reducible exact isRun_run ..
theorem execPtmPeriodExpiry_isRun (s : State) : ∀ p at_, IsRun (execPtmPeriodExpiry p at_ s) s := by
  intros
  unfold execPtmPeriodExpiry
  with_reducible exact isRun_run ..
theorem execPtmResponse_isRun (s : State) : ∀ p ok sentAt hostTime delay, IsRun (execPtmResponse p ok sentAt hostTime delay s) s := by
  intros
  unfold execPtmResponse
  with_reducible exact isRun_run ..
theorem execMemPart_isRun (s : State) : ∀ f v, IsRun (execMemPart f v s) s := by
  intros
  unfold execMemPart
  with_reducible exact isRun_run ..
theorem execMemRetry_isRun (s : State) : ∀ f v, IsRun (execMemRetry f v s) s := by
  intros
  unfold execMemRetry
  with_reducible exact isRun_run ..
theorem execMemSpeed_isRun (s : State) : ∀ f v, IsRun (execMemSpeed f v s) s := by
  intros
  unfold execMemSpeed
  with_reducible exact isRun_run ..
theorem execPwrOpTarget_isRun (s : State) : ∀ f v, IsRun (execPwrOpTarget f v s) s := by
  intros
  unfold execPwrOpTarget
  with_reducible exact isRun_run ..
theorem execPwrReq_isRun (s : State) : ∀ f v, IsRun (execPwrReq f v s) s := by
  intros
  unfold execPwrReq
  with_reducible exact isRun_run ..
theorem execPwrEreset_isRun (s : State) : ∀ f v, IsRun (execPwrEreset f v s) s := by
  intros
  unfold execPwrEreset
  with_reducible exact isRun_run ..
theorem execPwrDevreset_isRun (s : State) : ∀ f v env, IsRun (execPwrDevreset f v env s) s := by
  intros
  unfold execPwrDevreset
  with_reducible exact isRun_run ..
theorem execBootLc_isRun (s : State) : ∀ f v, IsRun (execBootLc f v s) s := by
  intros
  unfold execBootLc
  with_reducible exact isRun_run ..
theorem execConfigRequest_isRun (s : State) : ∀ f reg write, IsRun (execConfigRequest f reg write s) s := by
  intros
  unfold execConfigRequest
  with_reducible exact isRun_run ..
theorem execLatchRead_isRun (s : State) : ∀ r addr wide, IsRun (execLatchRead r addr wide s) s := by
  intros
  unfold execLatchRead
  with_reducible exact isRun_run ..
theorem execRegisterWrite_isRun (s : State) : ∀ r addr wide v, IsRun (execRegisterWrite r addr wide v s) s := by
  intros
  unfold execRegisterWrite
  with_reducible exact isRun_run ..
theorem execDrawPass_isRun (s : State) : ∀ id, IsRun (execDrawPass id s) s := by
  intros
  unfold execDrawPass
  with_reducible exact isRun_runOp ..
theorem execDispatch_isRun (s : State) : ∀ id, IsRun (execDispatch id s) s := by
  intros
  unfold execDispatch
  with_reducible exact isRun_runOp ..
theorem execClear_isRun (s : State) : ∀ id, IsRun (execClear id s) s := by
  intros
  unfold execClear
  with_reducible exact isRun_runOp ..
theorem execResolve_isRun (s : State) : ∀ id, IsRun (execResolve id s) s := by
  intros
  unfold execResolve
  with_reducible exact isRun_runOp ..
theorem execPoolBlockGrant_isRun (s : State) : ∀ id, IsRun (execPoolBlockGrant id s) s := by
  intros
  unfold execPoolBlockGrant
  with_reducible exact isRun_runOp ..
theorem execCompositorTileDispatch_isRun (s : State) : ∀ p tile core, IsRun (execCompositorTileDispatch p tile core s) s := by
  intros
  unfold execCompositorTileDispatch
  with_reducible exact isRun_runAs ..
theorem execTileEvict_isRun (s : State) : ∀ core at_, IsRun (execTileEvict core at_ s) s := by
  intros
  unfold execTileEvict
  with_reducible exact isRun_runAs ..
theorem execShaderCoreReset_isRun (s : State) : ∀ core, IsRun (execShaderCoreReset core s) s := by
  intros
  unfold execShaderCoreReset
  with_reducible exact isRun_run ..
theorem execShaderCoreReturn_isRun (s : State) : ∀ core at_, IsRun (execShaderCoreReturn core at_ s) s := by
  intros
  unfold execShaderCoreReturn
  with_reducible exact isRun_run ..
theorem execPresent_isRun (s : State) : ∀ id, IsRun (execPresent id s) s := by
  intros
  unfold execPresent
  with_reducible exact isRun_run ..
theorem execBufRegister_isRun (s : State) : ∀ id, IsRun (execBufRegister id s) s := by
  intros
  unfold execBufRegister
  with_reducible exact isRun_run ..
theorem execBufFree_isRun (s : State) : ∀ id, IsRun (execBufFree id s) s := by
  intros
  unfold execBufFree
  with_reducible exact isRun_run ..
theorem execHandleFreed_isRun (s : State) : ∀ f h, IsRun (execHandleFreed f h s) s := by
  intros
  unfold execHandleFreed
  with_reducible exact isRun_run ..
theorem execFrameComposeDeadline_isRun (s : State) : ∀ p at_, IsRun (execFrameComposeDeadline p at_ s) s := by
  intros
  unfold execFrameComposeDeadline
  with_reducible exact isRun_run ..
theorem execStripWindowOpen_isRun (s : State) : ∀ p strip at_, IsRun (execStripWindowOpen p strip at_ s) s := by
  intros
  unfold execStripWindowOpen
  with_reducible exact isRun_run ..
theorem execStripMiss_isRun (s : State) : ∀ p strip at_, IsRun (execStripMiss p strip at_ s) s := by
  intros
  unfold execStripMiss
  with_reducible exact isRun_run ..
theorem execVitrineWrite_isRun (s : State) : ∀ id, IsRun (execVitrineWrite id s) s := by
  intros
  unfold execVitrineWrite
  with_reducible exact isRun_runOp ..
theorem execVblank_isRun (s : State) : ∀ p at_, IsRun (execVblank p at_ s) s := by
  intros
  unfold execVblank
  with_reducible exact isRun_run ..
theorem execFirstActiveLine_isRun (s : State) : ∀ p at_, IsRun (execFirstActiveLine p at_ s) s := by
  intros
  unfold execFirstActiveLine
  with_reducible exact isRun_run ..
theorem execFlip_isRun (s : State) : ∀ id, IsRun (execFlip id s) s := by
  intros
  unfold execFlip
  with_reducible exact isRun_run ..
theorem execModeRead_isRun (s : State) : ∀ id, IsRun (execModeRead id s) s := by
  intros
  unfold execModeRead
  with_reducible exact isRun_run ..
theorem execModeDefine_isRun (s : State) : ∀ id, IsRun (execModeDefine id s) s := by
  intros
  unfold execModeDefine
  with_reducible exact isRun_run ..
theorem execPortMsg_isRun (s : State) : ∀ id, IsRun (execPortMsg id s) s := by
  intros
  unfold execPortMsg
  with_reducible exact isRun_runOp ..
theorem execPortMsgTimeout_isRun (s : State) : ∀ id at_, IsRun (execPortMsgTimeout id at_ s) s := by
  intros
  unfold execPortMsgTimeout
  with_reducible exact isRun_run ..
theorem execAdaptiveHoldEnd_isRun (s : State) : ∀ p at_, IsRun (execAdaptiveHoldEnd p at_ s) s := by
  intros
  unfold execAdaptiveHoldEnd
  with_reducible exact isRun_run ..
theorem execGlkFrameEdge_isRun (s : State) : ∀ g at64 pulse, IsRun (execGlkFrameEdge g at64 pulse s) s := by
  intros
  unfold execGlkFrameEdge
  with_reducible exact isRun_run ..
theorem execGlkEdgeTimeout_isRun (s : State) : ∀ p at_, IsRun (execGlkEdgeTimeout p at_ s) s := by
  intros
  unfold execGlkEdgeTimeout
  with_reducible exact isRun_run ..
theorem execTeEdge_isRun (s : State) : ∀ t at_ widthNs falling, IsRun (execTeEdge t at_ widthNs falling s) s := by
  intros
  unfold execTeEdge
  with_reducible exact isRun_run ..
theorem execTeLost_isRun (s : State) : ∀ p at_, IsRun (execTeLost p at_ s) s := by
  intros
  unfold execTeLost
  with_reducible exact isRun_run ..
theorem execHpdIrq_isRun (s : State) : ∀ q lowNs linkGood, IsRun (execHpdIrq q lowNs linkGood s) s := by
  intros
  unfold execHpdIrq
  with_reducible exact isRun_run ..
theorem execLinkLoss_isRun (s : State) : ∀ q cause at_, IsRun (execLinkLoss q cause at_ s) s := by
  intros
  unfold execLinkLoss
  with_reducible exact isRun_run ..
theorem execLinkRetry_isRun (s : State) : ∀ q at_, IsRun (execLinkRetry q at_ s) s := by
  intros
  unfold execLinkRetry
  with_reducible exact isRun_run ..
theorem execLinkUp_isRun (s : State) : ∀ q at_, IsRun (execLinkUp q at_ s) s := by
  intros
  unfold execLinkUp
  with_reducible exact isRun_run ..
theorem execPanelInitStep_isRun (s : State) : ∀ q ok at_, IsRun (execPanelInitStep q ok at_ s) s := by
  intros
  unfold execPanelInitStep
  with_reducible exact isRun_run ..
theorem execTouchReport_isRun (s : State) : ∀ ch at_ id data, IsRun (execTouchReport ch at_ id data s) s := by
  intros
  unfold execTouchReport
  with_reducible exact isRun_runAs ..
theorem execRawFrame_isRun (s : State) : ∀ ch at_ bytes, IsRun (execRawFrame ch at_ bytes s) s := by
  intros
  unfold execRawFrame
  with_reducible exact isRun_runAs ..
theorem execReportTimeout_isRun (s : State) : ∀ ch at_, IsRun (execReportTimeout ch at_ s) s := by
  intros
  unfold execReportTimeout
  with_reducible exact isRun_runAs ..
theorem execTouchChannelStart_isRun (s : State) : ∀ ch desc, IsRun (execTouchChannelStart ch desc s) s := by
  intros
  unfold execTouchChannelStart
  with_reducible exact isRun_run ..
theorem execTouchFaultRetry_isRun (s : State) : ∀ ch at_ bus, IsRun (execTouchFaultRetry ch at_ bus s) s := by
  intros
  unfold execTouchFaultRetry
  with_reducible exact isRun_run ..
theorem execTouchReceive_isRun (s : State) : ∀ id, IsRun (execTouchReceive id s) s := by
  intros
  unfold execTouchReceive
  with_reducible exact isRun_runAs ..
theorem execBaselineSave_isRun (s : State) : ∀ id, IsRun (execBaselineSave id s) s := by
  intros
  unfold execBaselineSave
  with_reducible exact isRun_run ..
theorem execBaselineRelearn_isRun (s : State) : ∀ id, IsRun (execBaselineRelearn id s) s := by
  intros
  unfold execBaselineRelearn
  with_reducible exact isRun_run ..
theorem execHapticSample_isRun (s : State) : ∀ at_ di, IsRun (execHapticSample at_ di s) s := by
  intros
  unfold execHapticSample
  with_reducible exact isRun_run ..
theorem execSlotLoad_isRun (s : State) : ∀ id, IsRun (execSlotLoad id s) s := by
  intros
  unfold execSlotLoad
  with_reducible exact isRun_runOp ..
theorem execSlotRelease_isRun (s : State) : ∀ id, IsRun (execSlotRelease id s) s := by
  intros
  unfold execSlotRelease
  with_reducible exact isRun_run ..
theorem execHapticPlay_isRun (s : State) : ∀ id, IsRun (execHapticPlay id s) s := by
  intros
  unfold execHapticPlay
  with_reducible exact isRun_run ..
theorem execStream_isRun (s : State) : ∀ id, IsRun (execStream id s) s := by
  intros
  unfold execStream
  with_reducible exact isRun_runOp ..
theorem execHapTrig_isRun (s : State) : ∀ f c v, IsRun (execHapTrig f c v s) s := by
  intros
  unfold execHapTrig
  with_reducible exact isRun_run ..
theorem execAudioSample_isRun (s : State) : ∀ at_, IsRun (execAudioSample at_ s) s := by
  intros
  unfold execAudioSample
  with_reducible exact isRun_runAs ..
theorem execAudioBlock_isRun (s : State) : ∀ at_, IsRun (execAudioBlock at_ s) s := by
  intros
  unfold execAudioBlock
  with_reducible exact isRun_runAs ..
theorem execGraphLoad_isRun (s : State) : ∀ id, IsRun (execGraphLoad id s) s := by
  intros
  unfold execGraphLoad
  with_reducible exact isRun_runOp ..
theorem execGraphStop_isRun (s : State) : ∀ id, IsRun (execGraphStop id s) s := by
  intros
  unfold execGraphStop
  with_reducible exact isRun_run ..
theorem execAudioPlay_isRun (s : State) : ∀ id, IsRun (execAudioPlay id s) s := by
  intros
  unfold execAudioPlay
  with_reducible exact isRun_runOp ..
theorem execCapture_isRun (s : State) : ∀ id, IsRun (execCapture id s) s := by
  intros
  unfold execCapture
  with_reducible exact isRun_runOp ..
theorem execHsWait_isRun (s : State) : ∀ id, IsRun (execHsWait id s) s := by
  intros
  unfold execHsWait
  with_reducible exact isRun_run ..
theorem execAsrcLock_isRun (s : State) : ∀ node at_, IsRun (execAsrcLock node at_ s) s := by
  intros
  unfold execAsrcLock
  with_reducible exact isRun_run ..
theorem execPortLost_isRun (s : State) : ∀ q mHz, IsRun (execPortLost q mHz s) s := by
  intros
  unfold execPortLost
  with_reducible exact isRun_run ..
theorem execPortRecover_isRun (s : State) : ∀ q mHz, IsRun (execPortRecover q mHz s) s := by
  intros
  unfold execPortRecover
  with_reducible exact isRun_run ..
theorem execHsSample_isRun (s : State) : ∀ n at_ det mv, IsRun (execHsSample n at_ det mv s) s := by
  intros
  unfold execHsSample
  with_reducible exact isRun_run ..
theorem execCvuPeriodEnd_isRun (s : State) : ∀ u at_, IsRun (execCvuPeriodEnd u at_ s) s := by
  intros
  unfold execCvuPeriodEnd
  with_reducible exact isRun_run ..
theorem execCvuSample_isRun (s : State) : ∀ id, IsRun (execCvuSample id s) s := by
  intros
  unfold execCvuSample
  with_reducible exact isRun_runOp ..
theorem execCvuSave_isRun (s : State) : ∀ id, IsRun (execCvuSave id s) s := by
  intros
  unfold execCvuSave
  with_reducible exact isRun_runOp ..
theorem execCvuRestore_isRun (s : State) : ∀ id, IsRun (execCvuRestore id s) s := by
  intros
  unfold execCvuRestore
  with_reducible exact isRun_runOp ..
theorem execCopy_isRun (s : State) : ∀ id, IsRun (execCopy id s) s := by
  intros
  unfold execCopy
  with_reducible exact isRun_runOp ..
theorem execFill_isRun (s : State) : ∀ id, IsRun (execFill id s) s := by
  intros
  unfold execFill
  with_reducible exact isRun_runOp ..
theorem execDramRefresh_isRun (s : State) : ∀ ch rank bank, IsRun (execDramRefresh ch rank bank s) s := by
  intros
  unfold execDramRefresh
  with_reducible exact isRun_run ..
theorem execMr4Read_isRun (s : State) : ∀ ch at_ mr4, IsRun (execMr4Read ch at_ mr4 s) s := by
  intros
  unfold execMr4Read
  with_reducible exact isRun_run ..
theorem execPowerDownEntry_isRun (s : State) : ∀ ch rank idleCk, IsRun (execPowerDownEntry ch rank idleCk s) s := by
  intros
  unfold execPowerDownEntry
  with_reducible exact isRun_run ..
theorem execSelfRefreshGroupEntry_isRun (s : State) : ∀ g at_, IsRun (execSelfRefreshGroupEntry g at_ s) s := by
  intros
  unfold execSelfRefreshGroupEntry
  with_reducible exact isRun_run ..
theorem execSelfRefreshGroupExit_isRun (s : State) : ∀ g at_, IsRun (execSelfRefreshGroupExit g at_ s) s := by
  intros
  unfold execSelfRefreshGroupExit
  with_reducible exact isRun_run ..
theorem execDriftRead_isRun (s : State) : ∀ ch at_ drift1024 linkCe linkUe, IsRun (execDriftRead ch at_ drift1024 linkCe linkUe s) s := by
  intros
  unfold execDriftRead
  with_reducible exact isRun_run ..
theorem execRetrainBurst_isRun (s : State) : ∀ ch at_ result, IsRun (execRetrainBurst ch at_ result s) s := by
  intros
  unfold execRetrainBurst
  with_reducible exact isRun_run ..
theorem execSpeedChange_isRun (s : State) : ∀ g at_, IsRun (execSpeedChange g at_ s) s := by
  intros
  unfold execSpeedChange
  with_reducible exact isRun_run ..
theorem execSpeedChangeForced_isRun (s : State) : ∀ g at_, IsRun (execSpeedChangeForced g at_ s) s := by
  intros
  unfold execSpeedChangeForced
  with_reducible exact isRun_run ..
theorem execDramStepDown_isRun (s : State) : ∀ ch working, IsRun (execDramStepDown ch working s) s := by
  intros
  unfold execDramStepDown
  with_reducible exact isRun_run ..
theorem execRepartitionDone_isRun (s : State) : ∀ at_, IsRun (execRepartitionDone at_ s) s := by
  intros
  unfold execRepartitionDone
  with_reducible exact isRun_run ..
theorem execRailSettled_isRun (s : State) : ∀ rail mv, IsRun (execRailSettled rail mv s) s := by
  intros
  unfold execRailSettled
  with_reducible exact isRun_run ..
theorem execRailTimeout_isRun (s : State) : ∀ rail mv at_, IsRun (execRailTimeout rail mv at_ s) s := by
  intros
  unfold execRailTimeout
  with_reducible exact isRun_run ..
theorem execUndervoltage_isRun (s : State) : ∀ rail mv ns, IsRun (execUndervoltage rail mv ns s) s := by
  intros
  unfold execUndervoltage
  with_reducible exact isRun_run ..
theorem execThermalTick_isRun (s : State) : ∀ at_ temps, IsRun (execThermalTick at_ temps s) s := by
  intros
  unfold execThermalTick
  with_reducible exact isRun_run ..
theorem execShaderPowerGate_isRun (s : State) : ∀ core at_, IsRun (execShaderPowerGate core at_ s) s := by
  intros
  unfold execShaderPowerGate
  with_reducible exact isRun_run ..
theorem execWindDownDone_isRun (s : State) : ∀ at_, IsRun (execWindDownDone at_ s) s := by
  intros
  unfold execWindDownDone
  with_reducible exact isRun_run ..
theorem execBlockStopped_isRun (s : State) : ∀ at_, IsRun (execBlockStopped at_ s) s := by
  intros
  unfold execBlockStopped
  with_reducible exact isRun_run ..
theorem execBlockStopTimeout_isRun (s : State) : ∀ at_, IsRun (execBlockStopTimeout at_ s) s := by
  intros
  unfold execBlockStopTimeout
  with_reducible exact isRun_run ..
theorem execWake_isRun (s : State) : ∀ src at_, IsRun (execWake src at_ s) s := by
  intros
  unfold execWake
  with_reducible exact isRun_run ..
theorem execVddAonRamp_isRun (s : State) : IsRun (execVddAonRamp s) s := by
  unfold execVddAonRamp
  with_reducible exact isRun_run ..
theorem execVddAonDrop_isRun (s : State) : ∀ lowNs mv, IsRun (execVddAonDrop lowNs mv s) s := by
  intros
  unfold execVddAonDrop
  with_reducible exact isRun_run ..
theorem execSysRstNFall_isRun (s : State) : ∀ lowNs, IsRun (execSysRstNFall lowNs s) s := by
  intros
  unfold execSysRstNFall
  with_reducible exact isRun_run ..
theorem execSysRstNRise_isRun (s : State) : ∀ at_ env, IsRun (execSysRstNRise at_ env s) s := by
  intros
  unfold execSysRstNRise
  with_reducible exact isRun_run ..
theorem execPerstN_isRun (s : State) : ∀ p high, IsRun (execPerstN p high s) s := by
  intros
  unfold execPerstN
  with_reducible exact isRun_run ..
theorem execSessionOpen_isRun (s : State) : ∀ id, IsRun (execSessionOpen id s) s := by
  intros
  unfold execSessionOpen
  with_reducible exact isRun_run ..
theorem execPiecePut_isRun (s : State) : ∀ id, IsRun (execPiecePut id s) s := by
  intros
  unfold execPiecePut
  with_reducible exact isRun_runOp ..
theorem execSessionStatus_isRun (s : State) : ∀ id, IsRun (execSessionStatus id s) s := by
  intros
  unfold execSessionStatus
  with_reducible exact isRun_runOp ..
theorem execSessionCancel_isRun (s : State) : ∀ id, IsRun (execSessionCancel id s) s := by
  intros
  unfold execSessionCancel
  with_reducible exact isRun_run ..
theorem execActivate_isRun (s : State) : ∀ id at_, IsRun (execActivate id at_ s) s := by
  intros
  unfold execActivate
  with_reducible exact isRun_run ..
theorem execConfirm_isRun (s : State) : ∀ id, IsRun (execConfirm id s) s := by
  intros
  unfold execConfirm
  with_reducible exact isRun_run ..
theorem execAutoConfirmExpiry_isRun (s : State) : ∀ at_, IsRun (execAutoConfirmExpiry at_ s) s := by
  intros
  unfold execAutoConfirmExpiry
  with_reducible exact isRun_run ..
theorem execRevert_isRun (s : State) : ∀ id, IsRun (execRevert id s) s := by
  intros
  unfold execRevert
  with_reducible exact isRun_run ..
theorem execLeaseExpiry_isRun (s : State) : ∀ at_, IsRun (execLeaseExpiry at_ s) s := by
  intros
  unfold execLeaseExpiry
  with_reducible exact isRun_run ..
theorem execSettingsWrite_isRun (s : State) : ∀ id, IsRun (execSettingsWrite id s) s := by
  intros
  unfold execSettingsWrite
  with_reducible exact isRun_runOp ..
theorem execSettingsRead_isRun (s : State) : ∀ id, IsRun (execSettingsRead id s) s := by
  intros
  unfold execSettingsRead
  with_reducible exact isRun_runOp ..
theorem execCoreTest_isRun (s : State) : ∀ id failed, IsRun (execCoreTest id failed s) s := by
  intros
  unfold execCoreTest
  with_reducible exact isRun_run ..
theorem execPipeTest_isRun (s : State) : ∀ id failed, IsRun (execPipeTest id failed s) s := by
  intros
  unfold execPipeTest
  with_reducible exact isRun_run ..
theorem execDramTest_isRun (s : State) : ∀ id failed, IsRun (execDramTest id failed s) s := by
  intros
  unfold execDramTest
  with_reducible exact isRun_run ..
theorem execScheduledSelftest_isRun (s : State) : ∀ kind element passed, IsRun (execScheduledSelftest kind element passed s) s := by
  intros
  unfold execScheduledSelftest
  with_reducible exact isRun_runAs ..
theorem execLockstepMismatch_isRun (s : State) : ∀ at_, IsRun (execLockstepMismatch at_ s) s := by
  intros
  unfold execLockstepMismatch
  with_reducible exact isRun_run ..
theorem execSmRestartDone_isRun (s : State) : ∀ at_, IsRun (execSmRestartDone at_ s) s := by
  intros
  unfold execSmRestartDone
  with_reducible exact isRun_run ..
theorem execMonitorFault_isRun (s : State) : ∀ m, IsRun (execMonitorFault m s) s := by
  intros
  unfold execMonitorFault
  with_reducible exact isRun_run ..
theorem execRefclkLoss_isRun (s : State) : IsRun (execRefclkLoss s) s := by
  unfold execRefclkLoss
  with_reducible exact isRun_run ..
theorem execFwWatchdog_isRun (s : State) : ∀ core thread at_, IsRun (execFwWatchdog core thread at_ s) s := by
  intros
  unfold execFwWatchdog
  with_reducible exact isRun_run ..
theorem execHeartbeatTimeout_isRun (s : State) : ∀ at_, IsRun (execHeartbeatTimeout at_ s) s := by
  intros
  unfold execHeartbeatTimeout
  with_reducible exact isRun_run ..
theorem execScrub_isRun (s : State) : ∀ place correctable, IsRun (execScrub place correctable s) s := by
  intros
  unfold execScrub
  with_reducible exact isRun_run ..
theorem execStatus_isRun (s : State) : ∀ frame, IsRun (execStatus frame s) s := by
  intros
  unfold execStatus
  with_reducible exact isRun_run ..
theorem execFaultRead_isRun (s : State) : ∀ frame, IsRun (execFaultRead frame s) s := by
  intros
  unfold execFaultRead
  with_reducible exact isRun_run ..
theorem execFaultAck_isRun (s : State) : ∀ frame, IsRun (execFaultAck frame s) s := by
  intros
  unfold execFaultAck
  with_reducible exact isRun_run ..
theorem execRegRead_isRun (s : State) : ∀ frame, IsRun (execRegRead frame s) s := by
  intros
  unfold execRegRead
  with_reducible exact isRun_run ..
theorem execRegWrite_isRun (s : State) : ∀ frame, IsRun (execRegWrite frame s) s := by
  intros
  unfold execRegWrite
  with_reducible exact isRun_run ..
theorem execHeartbeat_isRun (s : State) : ∀ frame at_, IsRun (execHeartbeat frame at_ s) s := by
  intros
  unfold execHeartbeat
  with_reducible exact isRun_run ..
theorem execForceClear_isRun (s : State) : ∀ frame, IsRun (execForceClear frame s) s := by
  intros
  unfold execForceClear
  with_reducible exact isRun_run ..
theorem execForceSet_isRun (s : State) : ∀ frame, IsRun (execForceSet frame s) s := by
  intros
  unfold execForceSet
  with_reducible exact isRun_run ..
theorem execSleep_isRun (s : State) : ∀ frame, IsRun (execSleep frame s) s := by
  intros
  unfold execSleep
  with_reducible exact isRun_run ..
theorem execReset_isRun (s : State) : ∀ frame env, IsRun (execReset frame env s) s := by
  intros
  unfold execReset
  with_reducible exact isRun_run ..
theorem execFreeze_isRun (s : State) : ∀ frame, IsRun (execFreeze frame s) s := by
  intros
  unfold execFreeze
  with_reducible exact isRun_run ..
theorem execReadout_isRun (s : State) : ∀ frame, IsRun (execReadout frame s) s := by
  intros
  unfold execReadout
  with_reducible exact isRun_run ..
theorem execLcProvision_isRun (s : State) : ∀ frame, IsRun (execLcProvision frame s) s := by
  intros
  unfold execLcProvision
  with_reducible exact isRun_run ..
theorem execLcReturn_isRun (s : State) : ∀ frame, IsRun (execLcReturn frame s) s := by
  intros
  unfold execLcReturn
  with_reducible exact isRun_run ..
theorem execRecoveryWrite_isRun (s : State) : ∀ frame, IsRun (execRecoveryWrite frame s) s := by
  intros
  unfold execRecoveryWrite
  with_reducible exact isRun_run ..
theorem execSvpWakePattern_isRun (s : State) : ∀ word edges, IsRun (execSvpWakePattern word edges s) s := by
  intros
  unfold execSvpWakePattern
  with_reducible exact isRun_run ..
theorem execFreezeNAssert_isRun (s : State) : ∀ lowNs, IsRun (execFreezeNAssert lowNs s) s := by
  intros
  unfold execFreezeNAssert
  with_reducible exact isRun_run ..
theorem execReadoutRepeat_isRun (s : State) : ∀ at_, IsRun (execReadoutRepeat at_ s) s := by
  intros
  unfold execReadoutRepeat
  with_reducible exact isRun_run ..
theorem execDbgChallenge_isRun (s : State) : ∀ random, IsRun (execDbgChallenge random s) s := by
  intros
  unfold execDbgChallenge
  with_reducible exact isRun_run ..
theorem execDbgResponse_isRun (s : State) : ∀ key sig, IsRun (execDbgResponse key sig s) s := by
  intros
  unfold execDbgResponse
  with_reducible exact isRun_run ..
theorem execIdcode_isRun (s : State) : IsRun (execIdcode s) s := by
  unfold execIdcode
  with_reducible exact isRun_run ..
theorem execBypass_isRun (s : State) : ∀ tdi, IsRun (execBypass tdi s) s := by
  intros
  unfold execBypass
  with_reducible exact isRun_run ..
theorem execSamplePreload_isRun (s : State) : ∀ data, IsRun (execSamplePreload data s) s := by
  intros
  unfold execSamplePreload
  with_reducible exact isRun_run ..
theorem execExtest_isRun (s : State) : IsRun (execExtest s) s := by
  unfold execExtest
  with_reducible exact isRun_run ..
theorem execClamp_isRun (s : State) : IsRun (execClamp s) s := by
  unfold execClamp
  with_reducible exact isRun_run ..
theorem execHighz_isRun (s : State) : IsRun (execHighz s) s := by
  unfold execHighz
  with_reducible exact isRun_run ..
theorem execHostLinkL0_isRun (s : State) : ∀ p, IsRun (execHostLinkL0 p s) s := by
  intros
  unfold execHostLinkL0
  with_reducible exact isRun_run ..
theorem execLinkTrainingFailed_isRun (s : State) : ∀ q at_, IsRun (execLinkTrainingFailed q at_ s) s := by
  intros
  unfold execLinkTrainingFailed
  with_reducible exact isRun_run ..
theorem execRefclkReturn_isRun (s : State) : ∀ at_, IsRun (execRefclkReturn at_ s) s := by
  intros
  unfold execRefclkReturn
  with_reducible exact isRun_run ..
theorem execOffsetCorrectionEnd_isRun (s : State) : ∀ p at_, IsRun (execOffsetCorrectionEnd p at_ s) s := by
  intros
  unfold execOffsetCorrectionEnd
  with_reducible exact isRun_run ..
theorem execSidebandReply_isRun (s : State) : ∀ id reply, IsRun (execSidebandReply id reply s) s := by
  intros
  unfold execSidebandReply
  with_reducible exact isRun_runOp ..
theorem execUnknownOpcode_isRun (s : State) : ∀ opcode frame, IsRun (execUnknownOpcode opcode frame s) s := by
  intros
  unfold execUnknownOpcode
  with_reducible exact isRun_run ..

theorem execPld_stops (s : State) : ∀ c w, IsRunOrStop (execPld c w s) s := by
  intro c w
  unfold execPld
  split
  · exact .inr ⟨_, rfl⟩
  · exact .inl ⟨_, _, rfl⟩

theorem execPst_stops (s : State) : ∀ c w, IsRunOrStop (execPst c w s) s := by
  intro c w
  unfold execPst
  split
  · exact .inr ⟨_, rfl⟩
  · exact .inl ⟨_, _, rfl⟩

theorem execDbgAccess_stops (s : State) : ∀ a, IsRunOrStop (execDbgAccess a s) s := by
  intro a
  unfold execDbgAccess
  split
  · split
    · exact .inr ⟨_, rfl⟩
    · exact .inl ⟨_, _, rfl⟩
  · exact .inl ⟨_, _, rfl⟩

/-- What a command can do: run, or stop at the control space. -/
theorem exec_isRunOrStop (i : Instr) (s : State) : IsRunOrStop (exec i s) s :=
  match i with
  | .ill c w => .inl (execIll_isRun s c w)
  | .nop c w => .inl (execNop_isRun s c w)
  | .mov c w => .inl (execMov_isRun s c w)
  | .movhi c w => .inl (execMovhi_isRun s c w)
  | .add c w => .inl (execAdd_isRun s c w)
  | .sub c w => .inl (execSub_isRun s c w)
  | .mul c w => .inl (execMul_isRun s c w)
  | .mulh c w => .inl (execMulh_isRun s c w)
  | .div c w => .inl (execDiv_isRun s c w)
  | .rem c w => .inl (execRem_isRun s c w)
  | .min c w => .inl (execMin_isRun s c w)
  | .max c w => .inl (execMax_isRun s c w)
  | .abs c w => .inl (execAbs_isRun s c w)
  | .neg c w => .inl (execNeg_isRun s c w)
  | .andW c w => .inl (execAndW_isRun s c w)
  | .orW c w => .inl (execOrW_isRun s c w)
  | .xorW c w => .inl (execXorW_isRun s c w)
  | .andn c w => .inl (execAndn_isRun s c w)
  | .shl c w => .inl (execShl_isRun s c w)
  | .shr c w => .inl (execShr_isRun s c w)
  | .sar c w => .inl (execSar_isRun s c w)
  | .rot c w => .inl (execRot_isRun s c w)
  | .bfx c w => .inl (execBfx_isRun s c w)
  | .bfi c w => .inl (execBfi_isRun s c w)
  | .clz c w => .inl (execClz_isRun s c w)
  | .popc c w => .inl (execPopc_isRun s c w)
  | .cmp c w => .inl (execCmp_isRun s c w)
  | .cmpu c w => .inl (execCmpu_isRun s c w)
  | .sel c w => .inl (execSel_isRun s c w)
  | .plog c w => .inl (execPlog_isRun s c w)
  | .faddH c w => .inl (execFaddH_isRun s c w)
  | .fmulH c w => .inl (execFmulH_isRun s c w)
  | .ffmaH c w => .inl (execFfmaH_isRun s c w)
  | .fmnxH c w => .inl (execFmnxH_isRun s c w)
  | .fcmpH c w => .inl (execFcmpH_isRun s c w)
  | .fsgnH c w => .inl (execFsgnH_isRun s c w)
  | .fcvt c w => .inl (execFcvt_isRun s c w)
  | .faddS c w => .inl (execFaddS_isRun s c w)
  | .fmulS c w => .inl (execFmulS_isRun s c w)
  | .ffmaS c w => .inl (execFfmaS_isRun s c w)
  | .fmnxS c w => .inl (execFmnxS_isRun s c w)
  | .fcmpS c w => .inl (execFcmpS_isRun s c w)
  | .fdivS c w => .inl (execFdivS_isRun s c w)
  | .fsqrtS c w => .inl (execFsqrtS_isRun s c w)
  | .fsgnS c w => .inl (execFsgnS_isRun s c w)
  | .saddQ c w => .inl (execSaddQ_isRun s c w)
  | .ssubQ c w => .inl (execSsubQ_isRun s c w)
  | .smulQ c w => .inl (execSmulQ_isRun s c w)
  | .smadQ c w => .inl (execSmadQ_isRun s c w)
  | .sabsQ c w => .inl (execSabsQ_isRun s c w)
  | .lane c w => .inl (execLane_isRun s c w)
  | .swzH c w => .inl (execSwzH_isRun s c w)
  | .br c w => .inl (execBr_isRun s c w)
  | .jmp c w => .inl (execJmp_isRun s c w)
  | .call c w => .inl (execCall_isRun s c w)
  | .callr c w => .inl (execCallr_isRun s c w)
  | .ret c w => .inl (execRet_isRun s c w)
  | .loop c w => .inl (execLoop_isRun s c w)
  | .endProg c w => .inl (execEndProg_isRun s c w)
  | .fail c w => .inl (execFail_isRun s c w)
  | .yield c w => .inl (execYield_isRun s c w)
  | .ld c w => .inl (execLd_isRun s c w)
  | .lds c w => .inl (execLds_isRun s c w)
  | .st c w => .inl (execSt_isRun s c w)
  | .ldp c w => .inl (execLdp_isRun s c w)
  | .atom c w => .inl (execAtom_isRun s c w)
  | .pref c w => .inl (execPref_isRun s c w)
  | .flush c w => .inl (execFlush_isRun s c w)
  | .mfence c w => .inl (execMfence_isRun s c w)
  | .enq c w => .inl (execEnq_isRun s c w)
  | .kick c w => .inl (execKick_isRun s c w)
  | .waitev c w => .inl (execWaitev_isRun s c w)
  | .fence c w => .inl (execFence_isRun s c w)
  | .txb c w => .inl (execTxb_isRun s c w)
  | .txc c w => .inl (execTxc_isRun s c w)
  | .txa c w => .inl (execTxa_isRun s c w)
  | .sto c w => .inl (execSto_isRun s c w)
  | .ldo c w => .inl (execLdo_isRun s c w)
  | .snap c w => .inl (execSnap_isRun s c w)
  | .rdtime c w => .inl (execRdtime_isRun s c w)
  | .rdid c w => .inl (execRdid_isRun s c w)
  | .vaddH c w => .inl (execVaddH_isRun s c w)
  | .vmulH c w => .inl (execVmulH_isRun s c w)
  | .vfmaH c w => .inl (execVfmaH_isRun s c w)
  | .vmnxH c w => .inl (execVmnxH_isRun s c w)
  | .vaddS c w => .inl (execVaddS_isRun s c w)
  | .vmulS c w => .inl (execVmulS_isRun s c w)
  | .vfmaS c w => .inl (execVfmaS_isRun s c w)
  | .vrcp c w => .inl (execVrcp_isRun s c w)
  | .vexl c w => .inl (execVexl_isRun s c w)
  | .vtrg c w => .inl (execVtrg_isRun s c w)
  | .viadd c w => .inl (execViadd_isRun s c w)
  | .vlog c w => .inl (execVlog_isRun s c w)
  | .vshf c w => .inl (execVshf_isRun s c w)
  | .vcmp c w => .inl (execVcmp_isRun s c w)
  | .vsel c w => .inl (execVsel_isRun s c w)
  | .vcvt c w => .inl (execVcvt_isRun s c w)
  | .vbcast c w => .inl (execVbcast_isRun s c w)
  | .vred c w => .inl (execVred_isRun s c w)
  | .vperm c w => .inl (execVperm_isRun s c w)
  | .vldl c w => .inl (execVldl_isRun s c w)
  | .vstl c w => .inl (execVstl_isRun s c w)
  | .vldg c w => .inl (execVldg_isRun s c w)
  | .vstg c w => .inl (execVstg_isRun s c w)
  | .vatom c w => .inl (execVatom_isRun s c w)
  | .tex c w => .inl (execTex_isRun s c w)
  | .texl c w => .inl (execTexl_isRun s c w)
  | .texg c w => .inl (execTexg_isRun s c w)
  | .texf c w => .inl (execTexf_isRun s c w)
  | .texq c w => .inl (execTexq_isRun s c w)
  | .pxld c w => .inl (execPxld_isRun s c w)
  | .pxst c w => .inl (execPxst_isRun s c w)
  | .pxbld c w => .inl (execPxbld_isRun s c w)
  | .ilkb c w => .inl (execIlkb_isRun s c w)
  | .ilke c w => .inl (execIlke_isRun s c w)
  | .kill c w => .inl (execKill_isRun s c w)
  | .emit c w => .inl (execEmit_isRun s c w)
  | .attr c w => .inl (execAttr_isRun s c w)
  | .deriv c w => .inl (execDeriv_isRun s c w)
  | .amac c w => .inl (execAmac_isRun s c w)
  | .amsu c w => .inl (execAmsu_isRun s c w)
  | .aldc c w => .inl (execAldc_isRun s c w)
  | .adlr c w => .inl (execAdlr_isRun s c w)
  | .adlw c w => .inl (execAdlw_isRun s c w)
  | .ain c w => .inl (execAin_isRun s c w)
  | .aout c w => .inl (execAout_isRun s c w)
  | .arnd c w => .inl (execArnd_isRun s c w)
  | .abiq c w => .inl (execAbiq_isRun s c w)
  | .aramp c w => .inl (execAramp_isRun s c w)
  | .apeak c w => .inl (execApeak_isRun s c w)
  | .csrr c w => .inl (execCsrr_isRun s c w)
  | .csrw c w => .inl (execCsrw_isRun s c w)
  | .eret c w => .inl (execEret_isRun s c w)
  | .pld c w => execPld_stops s c w
  | .pst c w => execPst_stops s c w
  | .ioinv c w => .inl (execIoinv_isRun s c w)
  | .thrd c w => .inl (execThrd_isRun s c w)
  | .ledg c w => .inl (execLedg_isRun s c w)
  | .halt c w => .inl (execHalt_isRun s c w)
  | .wdog c w => .inl (execWdog_isRun s c w)
  | .waitevWake c at_ => .inl (execWaitevWake_isRun s c at_)
  | .fenceWake g => .inl (execFenceWake_isRun s g)
  | .doorbell f k v => .inl (execDoorbell_isRun s f k v)
  | .cmplHead f k v => .inl (execCmplHead_isRun s f k v)
  | .ringCtl f k v => .inl (execRingCtl_isRun s f k v)
  | .itemAdmit g => .inl (execItemAdmit_isRun s g)
  | .itemStart g => .inl (execItemStart_isRun s g)
  | .engineOpStart id => .inl (execEngineOpStart_isRun s id)
  | .opComplete id => .inl (execOpComplete_isRun s id)
  | .completionRecordWrite g => .inl (execCompletionRecordWrite_isRun s g)
  | .completionCoalesceTimeout g at_ => .inl (execCompletionCoalesceTimeout_isRun s g at_)
  | .cmplRetry g => .inl (execCmplRetry_isRun s g)
  | .epochBoundary at_ => .inl (execEpochBoundary_isRun s at_)
  | .sequencerCoreReset c => .inl (execSequencerCoreReset_isRun s c)
  | .sequencerCoreRestart c at_ => .inl (execSequencerCoreRestart_isRun s c at_)
  | .flr f => .inl (execFlr_isRun s f)
  | .resetReq f v => .inl (execResetReq_isRun s f v)
  | .funcCtlReset host f v => .inl (execFuncCtlReset_isRun s host f v)
  | .funcCtlHold host f v => .inl (execFuncCtlHold_isRun s host f v)
  | .drainLimitExpiry f at_ => .inl (execDrainLimitExpiry_isRun s f at_)
  | .heldResetRelease f => .inl (execHeldResetRelease_isRun s f)
  | .opCancel id => .inl (execOpCancel_isRun s id)
  | .resetEnd f => .inl (execResetEnd_isRun s f)
  | .linkDown p hotReset => .inl (execLinkDown_isRun s p hotReset)
  | .vfEnableSet p => .inl (execVfEnableSet_isRun s p)
  | .vfEnableClear p => .inl (execVfEnableClear_isRun s p)
  | .numvfsWrite p v => .inl (execNumvfsWrite_isRun s p v)
  | .d3hotTransition f enter => .inl (execD3hotTransition_isRun s f enter)
  | .msixPendingSend f vec => .inl (execMsixPendingSend_isRun s f vec)
  | .evStatusClear f v again => .inl (execEvStatusClear_isRun s f v again)
  | .bar2Read f off len => .inl (execBar2Read_isRun s f off len)
  | .bar2Write f off data => .inl (execBar2Write_isRun s f off data)
  | .iommuRoot host f v => .inl (execIommuRoot_isRun s host f v)
  | .invCtl host f v => .inl (execInvCtl_isRun s host f v)
  | .invalidationDone f => .inl (execInvalidationDone_isRun s f)
  | .dirtyCtlEnable host f v => .inl (execDirtyCtlEnable_isRun s host f v)
  | .swap host f v => .inl (execSwap_isRun s host f v)
  | .swapDone f => .inl (execSwapDone_isRun s f)
  | .ptmCtlReq f v => .inl (execPtmCtlReq_isRun s f v)
  | .ptmPeriodExpiry p at_ => .inl (execPtmPeriodExpiry_isRun s p at_)
  | .ptmResponse p ok sentAt hostTime delay => .inl (execPtmResponse_isRun s p ok sentAt hostTime delay)
  | .memPart f v => .inl (execMemPart_isRun s f v)
  | .memRetry f v => .inl (execMemRetry_isRun s f v)
  | .memSpeed f v => .inl (execMemSpeed_isRun s f v)
  | .pwrOpTarget f v => .inl (execPwrOpTarget_isRun s f v)
  | .pwrReq f v => .inl (execPwrReq_isRun s f v)
  | .pwrEreset f v => .inl (execPwrEreset_isRun s f v)
  | .pwrDevreset f v env => .inl (execPwrDevreset_isRun s f v env)
  | .bootLc f v => .inl (execBootLc_isRun s f v)
  | .configRequest f reg write => .inl (execConfigRequest_isRun s f reg write)
  | .latchRead r addr wide => .inl (execLatchRead_isRun s r addr wide)
  | .registerWrite r addr wide v => .inl (execRegisterWrite_isRun s r addr wide v)
  | .drawPass id => .inl (execDrawPass_isRun s id)
  | .dispatch id => .inl (execDispatch_isRun s id)
  | .clear id => .inl (execClear_isRun s id)
  | .resolve id => .inl (execResolve_isRun s id)
  | .poolBlockGrant id => .inl (execPoolBlockGrant_isRun s id)
  | .compositorTileDispatch p tile core => .inl (execCompositorTileDispatch_isRun s p tile core)
  | .tileEvict core at_ => .inl (execTileEvict_isRun s core at_)
  | .shaderCoreReset core => .inl (execShaderCoreReset_isRun s core)
  | .shaderCoreReturn core at_ => .inl (execShaderCoreReturn_isRun s core at_)
  | .present id => .inl (execPresent_isRun s id)
  | .bufRegister id => .inl (execBufRegister_isRun s id)
  | .bufFree id => .inl (execBufFree_isRun s id)
  | .handleFreed f h => .inl (execHandleFreed_isRun s f h)
  | .frameComposeDeadline p at_ => .inl (execFrameComposeDeadline_isRun s p at_)
  | .stripWindowOpen p strip at_ => .inl (execStripWindowOpen_isRun s p strip at_)
  | .stripMiss p strip at_ => .inl (execStripMiss_isRun s p strip at_)
  | .vitrineWrite id => .inl (execVitrineWrite_isRun s id)
  | .vblank p at_ => .inl (execVblank_isRun s p at_)
  | .firstActiveLine p at_ => .inl (execFirstActiveLine_isRun s p at_)
  | .flip id => .inl (execFlip_isRun s id)
  | .modeRead id => .inl (execModeRead_isRun s id)
  | .modeDefine id => .inl (execModeDefine_isRun s id)
  | .portMsg id => .inl (execPortMsg_isRun s id)
  | .portMsgTimeout id at_ => .inl (execPortMsgTimeout_isRun s id at_)
  | .adaptiveHoldEnd p at_ => .inl (execAdaptiveHoldEnd_isRun s p at_)
  | .glkFrameEdge g at64 pulse => .inl (execGlkFrameEdge_isRun s g at64 pulse)
  | .glkEdgeTimeout p at_ => .inl (execGlkEdgeTimeout_isRun s p at_)
  | .teEdge t at_ widthNs falling => .inl (execTeEdge_isRun s t at_ widthNs falling)
  | .teLost p at_ => .inl (execTeLost_isRun s p at_)
  | .hpdIrq q lowNs linkGood => .inl (execHpdIrq_isRun s q lowNs linkGood)
  | .linkLoss q cause at_ => .inl (execLinkLoss_isRun s q cause at_)
  | .linkRetry q at_ => .inl (execLinkRetry_isRun s q at_)
  | .linkUp q at_ => .inl (execLinkUp_isRun s q at_)
  | .panelInitStep q ok at_ => .inl (execPanelInitStep_isRun s q ok at_)
  | .touchReport ch at_ id data => .inl (execTouchReport_isRun s ch at_ id data)
  | .rawFrame ch at_ bytes => .inl (execRawFrame_isRun s ch at_ bytes)
  | .reportTimeout ch at_ => .inl (execReportTimeout_isRun s ch at_)
  | .touchChannelStart ch desc => .inl (execTouchChannelStart_isRun s ch desc)
  | .touchFaultRetry ch at_ bus => .inl (execTouchFaultRetry_isRun s ch at_ bus)
  | .touchReceive id => .inl (execTouchReceive_isRun s id)
  | .baselineSave id => .inl (execBaselineSave_isRun s id)
  | .baselineRelearn id => .inl (execBaselineRelearn_isRun s id)
  | .hapticSample at_ di => .inl (execHapticSample_isRun s at_ di)
  | .slotLoad id => .inl (execSlotLoad_isRun s id)
  | .slotRelease id => .inl (execSlotRelease_isRun s id)
  | .hapticPlay id => .inl (execHapticPlay_isRun s id)
  | .stream id => .inl (execStream_isRun s id)
  | .hapTrig f c v => .inl (execHapTrig_isRun s f c v)
  | .audioSample at_ => .inl (execAudioSample_isRun s at_)
  | .audioBlock at_ => .inl (execAudioBlock_isRun s at_)
  | .graphLoad id => .inl (execGraphLoad_isRun s id)
  | .graphStop id => .inl (execGraphStop_isRun s id)
  | .audioPlay id => .inl (execAudioPlay_isRun s id)
  | .capture id => .inl (execCapture_isRun s id)
  | .hsWait id => .inl (execHsWait_isRun s id)
  | .asrcLock node at_ => .inl (execAsrcLock_isRun s node at_)
  | .portLost q mHz => .inl (execPortLost_isRun s q mHz)
  | .portRecover q mHz => .inl (execPortRecover_isRun s q mHz)
  | .hsSample n at_ det mv => .inl (execHsSample_isRun s n at_ det mv)
  | .cvuPeriodEnd u at_ => .inl (execCvuPeriodEnd_isRun s u at_)
  | .cvuSample id => .inl (execCvuSample_isRun s id)
  | .cvuSave id => .inl (execCvuSave_isRun s id)
  | .cvuRestore id => .inl (execCvuRestore_isRun s id)
  | .copy id => .inl (execCopy_isRun s id)
  | .fill id => .inl (execFill_isRun s id)
  | .dramRefresh ch rank bank => .inl (execDramRefresh_isRun s ch rank bank)
  | .mr4Read ch at_ mr4 => .inl (execMr4Read_isRun s ch at_ mr4)
  | .powerDownEntry ch rank idleCk => .inl (execPowerDownEntry_isRun s ch rank idleCk)
  | .selfRefreshGroupEntry g at_ => .inl (execSelfRefreshGroupEntry_isRun s g at_)
  | .selfRefreshGroupExit g at_ => .inl (execSelfRefreshGroupExit_isRun s g at_)
  | .driftRead ch at_ drift1024 linkCe linkUe => .inl (execDriftRead_isRun s ch at_ drift1024 linkCe linkUe)
  | .retrainBurst ch at_ result => .inl (execRetrainBurst_isRun s ch at_ result)
  | .speedChange g at_ => .inl (execSpeedChange_isRun s g at_)
  | .speedChangeForced g at_ => .inl (execSpeedChangeForced_isRun s g at_)
  | .dramStepDown ch working => .inl (execDramStepDown_isRun s ch working)
  | .repartitionDone at_ => .inl (execRepartitionDone_isRun s at_)
  | .railSettled rail mv => .inl (execRailSettled_isRun s rail mv)
  | .railTimeout rail mv at_ => .inl (execRailTimeout_isRun s rail mv at_)
  | .undervoltage rail mv ns => .inl (execUndervoltage_isRun s rail mv ns)
  | .thermalTick at_ temps => .inl (execThermalTick_isRun s at_ temps)
  | .shaderPowerGate core at_ => .inl (execShaderPowerGate_isRun s core at_)
  | .windDownDone at_ => .inl (execWindDownDone_isRun s at_)
  | .blockStopped at_ => .inl (execBlockStopped_isRun s at_)
  | .blockStopTimeout at_ => .inl (execBlockStopTimeout_isRun s at_)
  | .wake src at_ => .inl (execWake_isRun s src at_)
  | .vddAonRamp => .inl (execVddAonRamp_isRun s)
  | .vddAonDrop lowNs mv => .inl (execVddAonDrop_isRun s lowNs mv)
  | .sysRstNFall lowNs => .inl (execSysRstNFall_isRun s lowNs)
  | .sysRstNRise at_ env => .inl (execSysRstNRise_isRun s at_ env)
  | .perstN p high => .inl (execPerstN_isRun s p high)
  | .sessionOpen id => .inl (execSessionOpen_isRun s id)
  | .piecePut id => .inl (execPiecePut_isRun s id)
  | .sessionStatus id => .inl (execSessionStatus_isRun s id)
  | .sessionCancel id => .inl (execSessionCancel_isRun s id)
  | .activate id at_ => .inl (execActivate_isRun s id at_)
  | .confirm id => .inl (execConfirm_isRun s id)
  | .autoConfirmExpiry at_ => .inl (execAutoConfirmExpiry_isRun s at_)
  | .revert id => .inl (execRevert_isRun s id)
  | .leaseExpiry at_ => .inl (execLeaseExpiry_isRun s at_)
  | .settingsWrite id => .inl (execSettingsWrite_isRun s id)
  | .settingsRead id => .inl (execSettingsRead_isRun s id)
  | .coreTest id failed => .inl (execCoreTest_isRun s id failed)
  | .pipeTest id failed => .inl (execPipeTest_isRun s id failed)
  | .dramTest id failed => .inl (execDramTest_isRun s id failed)
  | .scheduledSelftest kind element passed => .inl (execScheduledSelftest_isRun s kind element passed)
  | .lockstepMismatch at_ => .inl (execLockstepMismatch_isRun s at_)
  | .smRestartDone at_ => .inl (execSmRestartDone_isRun s at_)
  | .monitorFault m => .inl (execMonitorFault_isRun s m)
  | .refclkLoss => .inl (execRefclkLoss_isRun s)
  | .fwWatchdog core thread at_ => .inl (execFwWatchdog_isRun s core thread at_)
  | .heartbeatTimeout at_ => .inl (execHeartbeatTimeout_isRun s at_)
  | .scrub place correctable => .inl (execScrub_isRun s place correctable)
  | .status frame => .inl (execStatus_isRun s frame)
  | .faultRead frame => .inl (execFaultRead_isRun s frame)
  | .faultAck frame => .inl (execFaultAck_isRun s frame)
  | .regRead frame => .inl (execRegRead_isRun s frame)
  | .regWrite frame => .inl (execRegWrite_isRun s frame)
  | .heartbeat frame at_ => .inl (execHeartbeat_isRun s frame at_)
  | .forceClear frame => .inl (execForceClear_isRun s frame)
  | .forceSet frame => .inl (execForceSet_isRun s frame)
  | .sleep frame => .inl (execSleep_isRun s frame)
  | .reset frame env => .inl (execReset_isRun s frame env)
  | .freeze frame => .inl (execFreeze_isRun s frame)
  | .readout frame => .inl (execReadout_isRun s frame)
  | .lcProvision frame => .inl (execLcProvision_isRun s frame)
  | .lcReturn frame => .inl (execLcReturn_isRun s frame)
  | .recoveryWrite frame => .inl (execRecoveryWrite_isRun s frame)
  | .svpWakePattern word edges => .inl (execSvpWakePattern_isRun s word edges)
  | .freezeNAssert lowNs => .inl (execFreezeNAssert_isRun s lowNs)
  | .readoutRepeat at_ => .inl (execReadoutRepeat_isRun s at_)
  | .dbgChallenge random => .inl (execDbgChallenge_isRun s random)
  | .dbgResponse key sig => .inl (execDbgResponse_isRun s key sig)
  | .dbgAccess a => execDbgAccess_stops s a
  | .idcode => .inl (execIdcode_isRun s)
  | .bypass tdi => .inl (execBypass_isRun s tdi)
  | .samplePreload data => .inl (execSamplePreload_isRun s data)
  | .extest => .inl (execExtest_isRun s)
  | .clamp => .inl (execClamp_isRun s)
  | .highz => .inl (execHighz_isRun s)
  | .hostLinkL0 p => .inl (execHostLinkL0_isRun s p)
  | .linkTrainingFailed q at_ => .inl (execLinkTrainingFailed_isRun s q at_)
  | .refclkReturn at_ => .inl (execRefclkReturn_isRun s at_)
  | .offsetCorrectionEnd p at_ => .inl (execOffsetCorrectionEnd_isRun s p at_)
  | .sidebandReply id reply => .inl (execSidebandReply_isRun s id reply)
  | .unknownOpcode opcode frame => .inl (execUnknownOpcode_isRun s opcode frame)

end Sys2Proof.Machine
end

