-- ==== Sys2Proof/Laws/Power.lean ====
section
/-! SUPPORT. What the shared operations of rails, speed points and late data do. -/

namespace Sys2Proof.Machine

/-! Rails (R441). -/

@[simp] theorem Power.codeSent_shdMv (p : Power) (rail mv : Nat) : (p.codeSent rail mv).shdMv = p.shdMv := by unfold Power.codeSent; split <;> rfl
@[simp] theorem Power.codeSent_coreMv (p : Power) (rail mv : Nat) : (p.codeSent rail mv).coreMv = p.coreMv := by unfold Power.codeSent; split <;> rfl
@[simp] theorem Power.codeSent_railMaps (p : Power) (rail mv : Nat) : (p.codeSent rail mv).railMaps = p.railMaps := by unfold Power.codeSent; split <;> rfl
@[simp] theorem Power.codeSent_change (p : Power) (rail mv : Nat) : (p.codeSent rail mv).change = p.change := by unfold Power.codeSent; split <;> rfl

/-- Sending a code changes nothing but what the regulators have received. -/
theorem Power.codeSent_frame (p : Power) (rail mv : Nat) : { p.codeSent rail mv with regulators := p.regulators } = p := by
  unfold Power.codeSent; split <;> rfl

/-- The regulator of a rail with a record has received the code of the voltage. -/
theorem Power.codeSent_received (p : Power) (rail mv : Nat) (m : RailMap) (h : tfind p.railMaps rail = some m) :
    (p.codeSent rail mv).regulators = tset p.regulators rail (m.addr, m.reg, m.code mv) := by simp [Power.codeSent, h]

@[simp] theorem Power.railSet_regulators (p : Power) (rail mv : Nat) : (p.railSet rail mv).regulators = (p.codeSent rail mv).regulators := rfl
@[simp] theorem Power.railSet_railMaps (p : Power) (rail mv : Nat) : (p.railSet rail mv).railMaps = p.railMaps := p.codeSent_railMaps rail mv
@[simp] theorem Power.railSet_change (p : Power) (rail mv : Nat) : (p.railSet rail mv).change = p.change := p.codeSent_change rail mv

/-! Operating points (R420, R423). -/

/-- A device whose operating-point change does not wait for speed points goes on as it is. -/
theorem Dev.opResume_idle (d : Dev) (h : ∀ c, d.power.change = some c → c.stage ≠ 1) : d.opResume = d := by
  have k : d.opContinue = d := by
    unfold Dev.opContinue
    split
    · rfl
    · rename_i c e
      simp [h c e]
  unfold Dev.opResume
  simp only [k]
  cases e : d.power.change <;> rfl

/-! Late data (R407). -/

/-- Late data change the pipes alone. -/
theorem Dev.fetchLate_disp (d : Dev) (ns : Nat) : { d.fetchLate ns with disp := d.disp } = d := by
  unfold Dev.fetchLate
  generalize List.range 12 = l
  suffices h : ∀ (l : List Nat) (e : Dev), { e with disp := d.disp } = d → { l.foldl (fun d p =>
      match d.frameOf p with
      | some fr => if fr.kind = 1 && decide (d.ltOf p < ns) then d.setPt p { d.pt p with late := true, ltNow := 0 } else d
      | none => d) e with disp := d.disp } = d from h l d rfl
  intro l
  induction l with
  | nil => intro e h; exact h
  | cons p r ih =>
    intro e h
    rw [List.foldl_cons]
    apply ih
    split
    · split
      · exact h
      · exact h
    · exact h

end Sys2Proof.Machine
end

