-- ==== Sys2Proof/Laws/Scalar.lean ====
section
/-! SUPPORT. What a scalar instruction does: each bank whose predicate holds takes the new registers, the program goes to the
next index, one step is counted, and nothing else changes. -/

namespace Sys2Proof.Machine

theorem lanes_of_seq (d : Dev) (c : Ctx) (q : Seq) (e : d.seq c = some q) (h : ∀ n, c ≠ .slice n) : d.lanes c = [q.bank] := by
  cases c with
  | slice n => exact absurd rfl (h n)
  | guest g => unfold Dev.lanes; dsimp only; rw [e]
  | firmware k t => unfold Dev.lanes; dsimp only; rw [e]
  | wave i => unfold Dev.lanes; dsimp only; rw [e]

theorem banksApply_ok (w : Insn) (h : Bank → Bank) (l : List Bank) :
    banksApply w (fun b => .ok (h b)) l = .ok (l.map (fun b => if b.holds w then h b else b)) := by
  induction l with
  | nil => rfl
  | cons b r ih =>
    unfold banksApply
    rw [ih]
    by_cases hb : b.holds w = true
    · simp [hb]
    · simp [hb]

/-- The predicate of a context that is no slice and no vector instruction's. -/
theorem predicate_bank (d : Dev) (c : Ctx) (sh : Shape) (w : Insn) (control : Bool) (q : Seq) (e : d.seq c = some q)
    (h : ∀ n, c = .slice n → control = true) (p : sh.prof ≠ .v) : d.predicate c sh w control = q.bank.holds w := by
  cases c with
  | slice n =>
    have hc := h n rfl
    subst hc
    simp only [Dev.seq, Option.some.injEq] at e
    simp [Dev.predicate, e]
  | guest g => unfold Dev.predicate; dsimp only; rw [e]
  | firmware k t => unfold Dev.predicate; dsimp only; rw [e]
  | wave i =>
    unfold Dev.predicate
    dsimp only
    rw [if_neg p]
    simp only [Dev.seq] at e
    cases hw : d.wave i with
    | none => simp [hw] at e
    | some x =>
      rw [hw] at e
      simp only [Option.map_some, Option.some.injEq] at e
      simp [e]

theorem predicate_slice (d : Dev) (n : Fin 4) (sh : Shape) (w : Insn) : d.predicate (.slice n) sh w false = true := rfl

/-- The banks of a slice replaced. -/
theorem setBanks_only (d : Dev) (n : Fin 4) (b : Bank) (l : List Bank) :
    OnlyProgram (.slice n) d
      (d.setSlice n.val { d.slice n.val with seq := { (d.slice n.val).seq with bank := b }, others := l }) := by
  refine ⟨fun _ => rfl, rfl, rfl, rfl, fun j hj => ?_, ?_⟩
  · rw [Dev.slice_setSlice, if_neg (fun e => hj e.symm)]
  · simp

theorem onBank_ok (d : Dev) (c : Ctx) (w : Insn) (val : Bank → Bank) (q : Seq) (e : d.seq c = some q) (h : ∀ n, c ≠ .slice n) :
    d.onBank c w (fun b => .ok (val b)) = (d.updSeq c (fun x => { x with bank := val q.bank }), .ok .next) := by
  unfold Dev.onBank
  cases c with
  | slice n => exact absurd rfl (h n)
  | guest g => dsimp only; rw [e]
  | firmware k t => dsimp only; rw [e]
  | wave i => dsimp only; rw [e]

theorem proceed_next (d : Dev) (c : Ctx) : d.proceed c .next = d.updSeq c (fun q => { q with pc := q.pc + 1 }) := rfl

theorem issued_others (d : Dev) (n : Fin 4) (q : Seq) : ((d.issued (.slice n) q).slice n.val).others = (d.slice n.val).others := by
  show (((d.unstep (.slice n)).updSeq (.slice n) _).slice n.val).others = _
  rw [unstep_eq d]
  simp [Dev.updSeq]
  rfl

theorem scalar_ready_bank (c : Ctx) (sh : Shape) (w : Insn) (val : Bank → Bank) (q : Seq) (d : Dev) (p : sh.prof ≠ .v) (r : d.Ready c sh w q)
    (hn : ∀ n, c ≠ .slice n) : ScalarEffect c w val q d (scalar c sh w (fun b => .ok (val b)) d) := by
  have hf := r.2.2.2.2.1
  have hs := r.2.1
  have i1 := issued_seq d c q hs hf
  have i2 := issued_only d c q hf
  unfold scalar
  rw [issue_ready d c sh w false (fun d => d.onBank c w (fun b => .ok (val b))) q r]
  rw [predicate_bank _ c sh w false _ i1 (fun n h => absurd h (hn n)) p, onBank_ok _ c w val _ i1 hn]
  dsimp only
  rw [proceed_next, proceed_next]
  have h2 := seq_updSeq _ c (fun x => { x with bank := val q.bank }) _ i1
  have h3 := seq_updSeq _ c (fun q => { q with pc := q.pc + 1 }) _ h2
  have h4 := seq_updSeq _ c (fun q => { q with pc := q.pc + 1 }) _ i1
  by_cases hp : q.bank.holds w = true
  · simp only [hp, if_true]
    refine ⟨(i2.trans _ (updSeq_only _ _ _)).trans _ (updSeq_only _ _ _), ?_, ?_⟩
    · simp only [hp, if_true]; exact h3
    · rw [lanes_of_seq _ c _ h3 hn, lanes_of_seq d c q hs hn]; simp [hp]
  · simp only [Bool.not_eq_true] at hp
    simp only [hp, Bool.false_eq_true, if_false]
    refine ⟨i2.trans _ (updSeq_only _ _ _), ?_, ?_⟩
    · simp only [hp, Bool.false_eq_true, if_false]; exact h4
    · rw [lanes_of_seq _ c _ h4 hn, lanes_of_seq d c q hs hn]; simp [hp]

theorem scalar_ready_slice (n : Fin 4) (sh : Shape) (w : Insn) (val : Bank → Bank) (q : Seq) (d : Dev) (r : d.Ready (.slice n) sh w q) :
    ScalarEffect (.slice n) w val q d (scalar (.slice n) sh w (fun b => .ok (val b)) d) := by
  have hf := r.2.2.2.2.1
  have hs := r.2.1
  have i1 := issued_seq d (.slice n) q hs hf
  have i2 := issued_only d (.slice n) q hf
  have i3 := issued_others d n q
  unfold scalar
  rw [issue_ready d (.slice n) sh w false (fun d => d.onBank (.slice n) w (fun b => .ok (val b))) q r, predicate_slice, if_pos rfl]
  generalize d.issued (.slice n) q = x at *
  have h1 : (x.slice n.val).seq = { q with steps := q.steps + 1 } := by simpa [Dev.seq] using i1
  have hd : (d.slice n.val).seq = q := by simpa [Dev.seq] using hs
  have hb : x.onBank (.slice n) w (fun b => .ok (val b)) =
      (x.setSlice n.val
        { x.slice n.val with
          seq := { (x.slice n.val).seq with bank := if (x.slice n.val).seq.bank.holds w then val (x.slice n.val).seq.bank else (x.slice n.val).seq.bank }
          others := (x.slice n.val).others.map (fun b => if b.holds w then val b else b) }, .ok .next) := by
    unfold Dev.onBank
    dsimp only
    rw [banksApply_ok]
    rfl
  rw [hb]
  dsimp only
  rw [proceed_next]
  refine ⟨(i2.trans _ (setBanks_only x n _ _)).trans _ (updSeq_only _ _ _), ?_, ?_⟩
  · simp [Dev.seq, Dev.updSeq, h1]
  · simp [Dev.lanes, Dev.updSeq, i3, h1, hd]

theorem scalar_ready (c : Ctx) (sh : Shape) (w : Insn) (val : Bank → Bank) (q : Seq) (d : Dev) (p : sh.prof ≠ .v) (r : d.Ready c sh w q) :
    ScalarEffect c w val q d (scalar c sh w (fun b => .ok (val b)) d) := by
  cases c with
  | slice n => exact scalar_ready_slice n sh w val q d r
  | guest g => exact scalar_ready_bank _ sh w val q d p r (by intro n h; cases h)
  | firmware k t => exact scalar_ready_bank _ sh w val q d p r (by intro n h; cases h)
  | wave i => exact scalar_ready_bank _ sh w val q d p r (by intro n h; cases h)

/-- The effect says nothing of the lattice. -/
theorem ScalarEffect.onBus {c : Ctx} {w : Insn} {val : Bank → Bank} {q : Seq} {d e : Dev} (h : ScalarEffect c w val q d e) (b : Lattice) :
    ScalarEffect c w val q d { e with bus := b } := by
  obtain ⟨h1, h2, h3⟩ := h
  refine ⟨h1.onBus c b, ?_, ?_⟩
  · exact (seq_of_only c e { e with bus := b } rfl rfl rfl rfl).trans h2
  · rw [← h3]
    unfold Dev.lanes
    cases c <;> rfl

/-- A command that is a scalar instruction. -/
theorem scalar_does (i : Instr) (c : Ctx) (sh : Shape) (w : Insn) (val : Bank → Bank) (q : Seq) (s : State) (p : sh.prof ≠ .v)
    (x : exec i s = run (scalar c sh w (fun b => .ok (val b))) s) (k : s.Calm) (r : s.dev.Ready c sh w q) :
    Does i s (ScalarEffect c w val q s.dev) := by
  have h := scalar_ready c sh w val q s.dev p r
  exact does_program i s c _ x k h.1 (h.onBus _)

theorem issued_lanes (d : Dev) (c : Ctx) (q : Seq) (e : d.seq c = some q) (f : ((d.unstep c).fetch c q).2 = none) :
    (d.issued c q).lanes c = d.lanes c := by
  have h := issued_seq d c q e f
  by_cases hc : ∃ n, c = .slice n
  · obtain ⟨n, rfl⟩ := hc
    have i3 := issued_others d n q
    simp only [Dev.seq, Option.some.injEq] at h e
    simp [Dev.lanes, i3, h, e]
  · have hn : ∀ n, c ≠ .slice n := fun n h => hc ⟨n, h⟩
    rw [lanes_of_seq _ c _ h hn, lanes_of_seq d c q e hn]

/-- A change of a program counter that keeps its bank. -/
theorem lanes_updSeq (d : Dev) (c : Ctx) (h : Seq → Seq) (q : Seq) (e : d.seq c = some q) (k : ∀ x, (h x).bank = x.bank) :
    (d.updSeq c h).lanes c = d.lanes c := by
  have h2 := seq_updSeq d c h q e
  by_cases hc : ∃ n, c = .slice n
  · obtain ⟨n, rfl⟩ := hc
    simp [Dev.lanes, Dev.updSeq, k]
  · have hn : ∀ n, c ≠ .slice n := fun n h => hc ⟨n, h⟩
    rw [lanes_of_seq _ c _ h2 hn, lanes_of_seq d c q e hn, k]

/-- The predicate of an instruction of a slice's or another context's bank, once it has issued. -/
theorem predicate_issued (d : Dev) (c : Ctx) (sh : Shape) (w : Insn) (q : Seq) (r : d.Ready c sh w q) (p : sh.prof ≠ .v) :
    (d.issued c q).predicate c sh w true = q.bank.holds w := by
  have h := predicate_bank _ c sh w true _ (issued_seq d c q r.2.1 r.2.2.2.2.1) (fun _ _ => rfl) p
  exact h

end Sys2Proof.Machine
end

