-- ==== Sys2Proof/WellFormed.lean ====
section
/-! DEFINITION. Which commands are well-formed: their operands have the lengths and ranges that what they stand for has.
The meanings are total and do not rest on it. -/

namespace Sys2Proof

/-- A register address that a host or the supervisor can name: 32 bits, or 64 bits when wide, naturally aligned (R8). -/
def regAligned (addr : Nat) (wide : Bool) : Bool := addr % (if wide then 8 else 4) = 0

/-- An op-id that an ENQ can assign (R68, R96). -/
def OpId.wf (id : OpId) : Bool := decide (1 ≤ id.acc) && decide (id.idx < 65536)

/-- A boot that reports every channel (R460). -/
def BootEnv.wf (e : BootEnv) : Bool := e.channelOk.length = 16 && e.channelMr8.length = 16

/-- A frame on the supervisor port: LENGTH is two bytes and counts the payload (R510). -/
def SvpFrame.wf (f : SvpFrame) : Bool := decide (f.length < 65536) && f.payload.length = f.length

/-- A 64-bit value written to a register that is not wide has no upper half. -/
def valueFits (wide : Bool) (v : BitVec 64) : Bool := wide || decide (v.toNat < 2 ^ 32)

/-- Well-formed commands. -/
def Instr.wf (i : Instr) : Bool :=
  match i with
  | .bar2Read _ off len => decide (1 ≤ len) && decide (off + len ≤ 2 ^ 36)
  | .bar2Write _ off data => decide (1 ≤ data.length) && decide (off + data.length ≤ 2 ^ 36)
  | .latchRead _ addr wide => regAligned addr wide
  | .registerWrite _ addr wide v => regAligned addr wide && valueFits wide v
  | .hapticSample _ di => di.length = 4 && di.all (fun f => f.length = 16)
  | .thermalTick _ temps => temps.length = 16
  | .dbgChallenge random => random.length = 32
  | .dbgResponse key sig => key.length = 97 && sig.length = 96
  | .asrcLock node _ => decide (node < 1024)
  | .rawFrame _ _ bytes => decide (1 ≤ bytes.length)
  | .touchReport _ _ _ data => decide (1 ≤ data.length)
  | .sysRstNRise _ env => env.wf
  | .pwrDevreset _ _ env => env.wf
  | .reset frame env => frame.wf && env.wf
  | .status f | .faultRead f | .faultAck f | .regRead f | .regWrite f | .forceClear f | .forceSet f | .sleep f | .freeze f
  | .readout f | .lcProvision f | .lcReturn f | .recoveryWrite f | .unknownOpcode _ f => f.wf
  | .heartbeat f _ => f.wf
  | .engineOpStart id | .opComplete id | .opCancel id | .drawPass id | .dispatch id | .clear id | .resolve id | .poolBlockGrant id
  | .present id | .bufRegister id | .bufFree id | .vitrineWrite id | .flip id | .modeRead id | .modeDefine id | .portMsg id
  | .touchReceive id | .baselineSave id | .baselineRelearn id | .slotLoad id | .slotRelease id | .hapticPlay id | .stream id
  | .graphLoad id | .graphStop id | .audioPlay id | .capture id | .hsWait id | .cvuSample id | .cvuSave id | .cvuRestore id
  | .copy id | .fill id | .sessionOpen id | .piecePut id | .sessionStatus id | .sessionCancel id | .confirm id | .revert id
  | .settingsWrite id | .settingsRead id => id.wf
  | .portMsgTimeout id _ | .activate id _ | .sidebandReply id _ | .coreTest id _ | .pipeTest id _ | .dramTest id _ => id.wf
  | _ => true

end Sys2Proof
end

