-- ==== Sys2Proof/Tests/Slice0.lean ====
section
/-! SUPPORT. Tests: ill-formed commands are refused by WellFormed; the hypotheses of the statements are met by small concrete states;
values that the manual itself gives. -/

namespace Sys2Proof.Tests

open Sys2Proof Sys2Proof.Machine

set_option Elab.async false

/-! Ill-formed commands, one for each check of WellFormed. -/

def badId : OpId := { ring := 0, acc := 0, idx := 0 }
def badFrame : SvpFrame := { arg := 0, length := 2, payload := [1], crc := 0 }
def badEnv : BootEnv := BootEnv.none
def goodEnv : BootEnv :=
  { slotAOk := true, slotBOk := false, octalOk := true, channelOk := List.replicate 16 15, channelMr8 := List.replicate 16 (0, 0), dramId := [] }
/-- A frame of an opcode whose check value is right. -/
def goodFrame (op arg : Nat) (l : List Byte) : SvpFrame :=
  let x : SvpFrame := { arg := BitVec.ofNat 32 arg, length := l.length, payload := l, crc := 0 }
  { x with crc := BitVec.ofNat 16 (crc16 (svpBytes op x)) }

theorem test_illformed_host : Instr.wf (.bar2Read 0 0 0) = false ∧ Instr.wf (.bar2Read 0 (2 ^ 36) 1) = false ∧ Instr.wf (.bar2Write 0 0 []) = false ∧
    Instr.wf (.latchRead .svp 2 false) = false ∧ Instr.wf (.registerWrite (.bar0 0) 4 true 0) = false ∧
    Instr.wf (.registerWrite (.bar0 0) 4 false (2 ^ 32)) = false := by decide

theorem test_illformed_lengths : Instr.wf (.hapticSample 0 []) = false ∧ Instr.wf (.thermalTick 0 [0]) = false ∧ Instr.wf (.dbgChallenge [0]) = false ∧
    Instr.wf (.dbgResponse [] []) = false ∧ Instr.wf (.asrcLock 1024 0) = false ∧ Instr.wf (.rawFrame 0 0 []) = false ∧
    Instr.wf (.touchReport 0 0 none []) = false := by decide

theorem test_illformed_boot : Instr.wf (.sysRstNRise 0 badEnv) = false ∧ Instr.wf (.pwrDevreset 0 0 badEnv) = false ∧
    Instr.wf (.reset (goodFrame 0x21 0 []) badEnv) = false ∧ Instr.wf (.reset badFrame goodEnv) = false := by decide

theorem test_illformed_frames : ∀ i ∈ ([.status badFrame, .faultRead badFrame, .faultAck badFrame, .regRead badFrame, .regWrite badFrame, .forceClear badFrame,
    .forceSet badFrame, .sleep badFrame, .freeze badFrame, .readout badFrame, .lcProvision badFrame, .lcReturn badFrame, .recoveryWrite badFrame,
    .unknownOpcode 0x77 badFrame, .heartbeat badFrame 0] : List Instr), i.wf = false := by decide

theorem test_illformed_ids_1 : ∀ i ∈ ([.engineOpStart badId, .opComplete badId, .opCancel badId, .drawPass badId, .dispatch badId, .clear badId, .resolve badId,
    .poolBlockGrant badId, .present badId, .bufRegister badId, .bufFree badId, .vitrineWrite badId, .flip badId, .modeRead badId, .modeDefine badId,
    .portMsg badId, .touchReceive badId, .baselineSave badId, .baselineRelearn badId, .slotLoad badId, .slotRelease badId, .hapticPlay badId,
    .stream badId] : List Instr), i.wf = false := by decide

theorem test_illformed_ids_2 : ∀ i ∈ ([.graphLoad badId, .graphStop badId, .audioPlay badId, .capture badId, .hsWait badId, .cvuSample badId, .cvuSave badId,
    .cvuRestore badId, .copy badId, .fill badId, .sessionOpen badId, .piecePut badId, .sessionStatus badId, .sessionCancel badId, .confirm badId,
    .revert badId, .settingsWrite badId, .settingsRead badId, .portMsgTimeout badId 0, .activate badId 0, .sidebandReply badId .nack, .coreTest badId 0,
    .pipeTest badId 0, .dramTest badId 0] : List Instr), i.wf = false := by decide

theorem test_illformed_index : Instr.wf (.copy { ring := 0, acc := 1, idx := 65536 }) = false ∧ Instr.wf (.copy { ring := 0, acc := 1, idx := 65535 }) = true := by
  decide

/-! The states that the witnesses use. -/

/-- A device that has booted, its host ports' links in L0. -/
def up : Dev :=
  { Dev.atReset with
    now := 1000000000
    board := { refclkOk := true, sysRstLow := false, env := goodEnv }
    boot := { Boot.atReset with stage := .ready }
    ports := (List.range 4).map (fun p => (p, { Port.atReset with perst := true, link := .l0 })) }

def st (d : Dev) : State := { dev := d, pending := [] }

/-- Proves that a concrete state is steady and that concrete operands meet what a statement asks of them. -/
theorem up_steady : (st up).Steady := ⟨⟨⟨rfl, rfl, rfl⟩, rfl, rfl, rfl⟩, rfl⟩

/-- A program of four instructions at index 2, and the same with its steps used. -/
def prog : Seq := { bank := { g := [(1, 7), (2, 4096)], k := 1 }, pc := 2, stack := [], base := 0, length := 4, limit := 100, steps := 0 }

def item (acc : Nat) : Entry :=
  { acc := acc, item := 0, gen := 0, phase := .running, progStatus := 0, result := none, ops := [], runs := 1, interrupts := 0, txcs := [], squashed := false
    covered := false }

/-- Guest thread of ring g of the manager's function running item 1 with program q. -/
def guestWith (g : Nat) (q : Seq) (h : Thread → Thread) : Dev :=
  up.setRing g { Ring.atReset with enable := true, acc := 1, tail := 1, nextAcc := 2, entries := [item 1], thread := h { Thread.idle with acc := some 1, seq := q } }
def guest (q : Seq) : Dev := guestWith 0 q id
def firmware (q : Seq) : Dev := up.setFwt 0 0 { FwThread.atReset 0 0 with started := true, seq := q }

/-- An instruction word of a format with nothing in its other fields. -/
def word (fmt : BitVec 3) (dst a b : BitVec 6) (sub : BitVec 3) (low : BitVec 36) : Insn :=
  { fmt := fmt, dst := dst, srcA := a, srcB := b, pred := 0, neg := false, sub := sub, low := low }

/-- What `Ready` asks, as a computation. -/
def ready (d : Dev) (c : Ctx) (sh : Shape) (w : Insn) (q : Seq) : Bool :=
  d.canIssue c && decide (d.seq c = some q) && (!limited c || decide (q.steps < q.limit)) && q.holds q.pc &&
    decide (((d.unstep c).fetch c q).2 = none) && decide (w.decodeExc sh c = none)

theorem ready_spec {d : Dev} {c : Ctx} {sh : Shape} {w : Insn} {q : Seq} (h : ready d c sh w q = true) : d.Ready c sh w q := by
  simp only [ready, Bool.and_eq_true, decide_eq_true_eq, Bool.or_eq_true, Bool.not_eq_true'] at h
  obtain ⟨⟨⟨⟨⟨h1, h2⟩, h3⟩, h4⟩, h5⟩, h6⟩ := h
  exact ⟨h1, h2, fun x => h3.resolve_left (by simp [x]), h4, h5, h6⟩

/-- What `Steady`, `Arrives`, `Works` and `Served` ask, as computations. -/
def steady (d : Dev) : Bool :=
  (decide (d.writes = []) && decide (d.bus.asks = []) && decide (d.bus.who = none)) && decide (d.update.step = 0) && !d.safety.freezeWanted && !d.safety.escalate && Memory.wf d.mem
def arrives (d : Dev) (f : Nat) : Bool := steady d && d.hostReach f && !d.asleep
def works (d : Dev) (o : Op) (block : Nat) : Bool :=
  steady d && decide (d.activeOp o.id o.target.toNat o.kind.toNat = some o) && d.runs block
def served (d : Dev) (op : Nat) (x : SvpFrame) : Bool :=
  steady d && d.svpUp && decide (d.safety.state ≠ 2) && crcOk op x && decide (x.length = x.payload.length) &&
    (decide (d.freeze.at_ = none) || decide (op ∈ [0x01, 0x02, 0x04, 0x21, 0x23]))

theorem steady_spec {d : Dev} (h : steady d = true) : (st d).Steady := by
  simp only [steady, Bool.and_eq_true, decide_eq_true_eq, Bool.not_eq_true'] at h
  exact ⟨⟨⟨h.1.1.1.1.1.1, h.1.1.1.1.1.2, h.1.1.1.1.2⟩, h.1.1.1.2, h.1.1.2, h.1.2⟩, h.2⟩

theorem arrives_spec {d : Dev} {f : Nat} (h : arrives d f = true) : Arrives (st d) f (d.hostFired f) := by
  simp only [arrives, Bool.and_eq_true, Bool.not_eq_true'] at h
  exact ⟨steady_spec h.1.1, h.1.2, h.2, rfl⟩

theorem works_spec {d : Dev} {o : Op} {block : Nat} (h : works d o block = true) : Works (st d) o.id o.target.toNat o.kind.toNat block o := by
  simp only [works, Bool.and_eq_true, decide_eq_true_eq] at h
  exact ⟨steady_spec h.1.1, h.1.2, h.2⟩

theorem served_spec {d : Dev} {op : Nat} {x : SvpFrame} (h : served d op x = true) : Served (st d) op x := by
  simp only [served, Bool.and_eq_true, Bool.or_eq_true, decide_eq_true_eq] at h
  exact ⟨steady_spec h.1.1.1.1.1, h.1.1.1.1.2, h.1.1.1.2, h.1.1.2, h.1.2, h.2⟩

/-- Whether an answer that can fail did not. -/
def okB {α ε : Type} (x : Dev × Except ε α) : Bool := match x.2 with | .ok _ => true | .error _ => false

/-- An operation of ring 0, item 1, started with a descriptor; and the device that holds it. -/
def id1 : OpId := { ring := 0, acc := 1, idx := 0 }
def opOf (target kind : BitVec 8) (desc : List W72) : Op :=
  { id := id1, fn := 0, gen := 0, target := target, kind := kind, addr := 0, len := desc.length, desc := desc, phase := .started, stage := 0, due := 5, status := 0
    result := none, late := false, deferred := false, superseded := false, replayed := false, cancel := false }
def holding (d : Dev) (o : Op) : Dev := { d with ops := [o] }

/-! Instructions. -/

def w0 : Insn := word 0 0 0 0 0 0
def allExec (d : Dev) (c : Ctx) (q : Seq) (l : List (Shape × Insn)) : Bool := steady d && l.all (fun x => ready d c x.1 x.2 q && q.bank.holds x.2)

/-- Hypotheses of the scalar, control, memory, queue and transaction statements: an instruction of every shape that a guest thread has. -/
theorem witness_guest_executes : allExec (guest prog) (.guest 0) prog
    [(.bare .all, w0), (.bare .s, w0), (.bare .sv, w0), (.abImm 2, word 0 3 1 2 0 0), (.abImm 2, word 1 3 1 0 1 5), (.ab 8, word 0 3 1 2 7 0),
     (.abc 4, word 0 3 1 2 3 0), (.a1 1, word 0 3 1 0 0 0), (.aImm 4, word 1 3 1 0 3 5), (.mem 6 .sv, word 2 3 2 0 4 0), (.branch .none, word 3 0 0 0 0 1),
     (.branch .reg, word 3 0 1 0 0 1), (.jump, word 0 0 1 0 0 0), (.line, word 2 0 2 0 0 0), (.read 5, word 0 3 0 0 4 0), (.cmp, word 0 3 1 2 5 0),
     ({ formats := [0, 1], dst := .reg, a := .reg, b := .none, c := false, subs := 1, prof := .all }, word 1 3 0 0 0 5),
     ({ formats := [0], dst := .pred, a := .pred, b := .pred, c := false, subs := 7, prof := .all }, word 0 7 1 2 6 0),
     ({ formats := [1], dst := .none, a := .none, b := .none, c := false, subs := 1, prof := .all }, word 1 0 0 0 0 5),
     ({ formats := [0], dst := .none, a := .reg, b := .none, c := false, subs := 1, prof := .all }, word 0 0 1 0 0 0),
     ({ formats := [1], dst := .reg, a := .none, b := .none, c := false, subs := 1, prof := .s }, word 1 3 0 0 0 0),
     ({ formats := [4], dst := .reg, a := .reg, b := .none, c := false, subs := 1, prof := .s }, word 4 3 1 0 0 0x200),
     ({ formats := [1], dst := .reg, a := .reg, b := .reg, c := false, subs := 1, prof := .s }, word 1 3 1 2 0 0x500000000),
     ({ formats := [0], dst := .reg, a := .none, b := .none, c := false, subs := 1, prof := .s }, word 0 3 0 0 0 0),
     ({ formats := [1], dst := .none, a := .none, b := .none, c := false, subs := 4, prof := .s }, word 1 0 0 0 3 11),
     ({ formats := [5], dst := .none, a := .reg, b := .reg, c := false, subs := 1, prof := .s }, word 5 0 1 0 0 0x50000002),
     ({ formats := [5], dst := .reg, a := .none, b := .reg, c := false, subs := 1, prof := .s }, word 5 3 0 0 0 0x50000002),
     ({ formats := [0], dst := .reg, a := .reg, b := .reg, c := false, subs := 1, prof := .s }, word 0 3 1 2 0 0)] = true := by decide +kernel

theorem witness_firmware_executes : allExec (firmware prog) (.firmware 0 0) prog
    [(.bare .firmware, w0), (.csrr, word 1 3 0 0 0 4), (.csrw, word 1 0 1 0 0 5), (.pair 3, word 0 0 1 2 2 0), (.mem 6 .firmware, word 2 3 2 0 5 0),
     (.a1 1, word 0 3 1 0 0 0), ({ formats := [0], dst := .reg, a := .reg, b := .none, c := false, subs := 2, prof := .firmware }, word 0 3 1 0 0 0),
     ({ formats := [1], dst := .none, a := .none, b := .none, c := false, subs := 1, prof := .all }, word 1 0 0 0 0 5),
     ({ formats := [0], dst := .none, a := .reg, b := .none, c := false, subs := 1, prof := .all }, w0)] = true := by decide +kernel

/-- A wave of kind k with 16 vector registers and two lanes, its operation's pass beside it. -/
def waveDev (k : WaveKind) : Dev :=
  { up with raster := { up.raster with waves := [(0,
      { op := id1, fn := 0, kind := k, core := 0, draw := 0, tile := 0, index := 0, nv := 16, words := 64, seq := prog
        lanes := [{ Lane.idle with act := 1, ilk := 1 }, { Lane.idle with act := 2 }], locals := [], texN := 0, texAt := 0 })] } }

theorem witness_wave_ready : allExec (waveDev .pixel) (.wave 0) prog
    [(.vdab 7, word 6 3 1 2 6 0), (.vdabc 6, word 6 3 1 2 5 0x100000000), (.vda 8, word 6 3 1 0 7 0), (.vec .pred .reg .reg false 6, word 6 7 1 2 5 0),
     (.vmem 5, word 6 3 1 0 4 0), (texShape 4, word 6 3 1 2 3 0), (.vec .reg .none .reg false 2, word 6 3 0 1 1 0),
     (.vec .reg .none .none false 3, word 6 3 0 0 2 0), (.vec .none .reg .none false 2, word 6 0 1 0 1 0), (.vec .none .none .none false 1, word 6 0 0 0 0 0),
     (.a1 1, word 0 3 1 0 0 0), ({ formats := [0], dst := .none, a := .reg, b := .none, c := false, subs := 1, prof := .all }, w0)] = true := by
  decide +kernel

theorem witness_vector_registers : VRegs.dabc.beyond 16 (word 6 15 15 15 0 0x3C0000000) = false ∧ VRegs.dab.beyond 16 (word 6 16 0 0 0 0) = true ∧
    (Insn.lt (word 6 3 1 2 0 0) = 0) ∧ ((waveDev .pixel).wave 0).isSome = true ∧ (waveDev .pixel).mem = [] := by decide +kernel

def sliceDev : Dev :=
  { up with audio := { up.audio with
      slices := [(0, { Slice.atReset with running := true, seq := prog, others := List.replicate 7 Bank.entry })]
      graph := some { id := 1, rampMs := 0, nodes := [{ node := 3, type := 32, slice := 0, channels := 2, delayBase := 0, delayLen := 8 }], edges := [], consts := [5]
                      progs := [] } } }

def use (dst a aD aS : Bool) (banks : List Nat) (subs : Nat) : AudUse := { dst := dst, a := a, aD := aD, aS := aS, banks := banks, subs := subs }

/-- The A-profile instructions in the order of AudioInstructions, on node 3 of the running graph; a slice has eight lanes, and a reference of
each bank has a value. -/
theorem witness_slice_ready : allExec sliceDev (.slice 0) prog
    ([({ formats := [0], dst := .none, a := .reg, b := .none, c := false, subs := 1, prof := .all }, w0)] ++
     ([(use false true true false [0, 1, 4, 15] 4, word 7 0 1 0 3 0xF0000C100), (use true false false false [0, 1, 4] 4, word 7 3 0 0 3 0x1000000),
      (use true false false false [2, 3] 4, word 7 3 0 0 3 0x300C007), (use false true false false [2, 3] 4, word 7 0 1 0 3 0x200C00F),
      (use true false false false [5] 2, word 7 3 0 0 1 0x500C001), (use false true false false [5] 2, word 7 0 1 0 1 0x500C001),
      (use true false false true [] 4, word 7 3 0 0 3 0x050000000), (use true true false false [0, 1] 4, word 7 3 1 0 3 0x000C200),
      (use false true false false [0] 2, word 7 0 1 0 1 0x000C000)] : List (AudUse × Insn)).map (fun x => (x.1.shape false x.2, x.2)) ++
     [((use true true false false [0] 2).shape true (word 7 3 1 0 1 0x000C40E), word 7 3 1 0 1 0x000C40E)]) = true ∧
    (sliceDev.lanes (.slice 0)).length = 8 ∧ (sliceDev.gnode 3).isSome = true ∧ (sliceDev.refVal (word 7 0 1 0 3 0xF0000C100) prog.bank).isOk = true ∧
    (sliceDev.refVal (word 7 3 0 0 3 0x1000000) prog.bank).isOk = true ∧ sliceDev.mem = [] := by decide +kernel

/-- ChecksInOrder: the limit reached, an index on either side of the program, a word of no format, a false predicate. -/
theorem witness_checks : (guest { prog with steps := 100 }).canIssue (.guest 0) = true ∧ Seq.holds prog 1 = false ∧ Seq.holds prog 2 = true ∧
    Seq.holds prog 5 = true ∧ Seq.holds prog 6 = false ∧ Insn.decodeExc (word 7 0 0 0 0 0) (.bare .all) (.guest 0) = some 0x01 ∧
    Insn.decodeExc w0 (.bare .firmware) (.guest 0) = some 0x02 ∧ prog.bank.holds { w0 with neg := true } = false ∧
    (((guest prog).unstep (.guest 0)).fetch (.guest 0) prog).2 = none := by decide +kernel

/-- ExceptionsAndFailures: a running item, a firmware thread with and without an exception not yet handled. -/
theorem witness_exceptions : ((guest prog).ring 0).thread.acc = some 1 ∧ ((firmware prog).fwt 0 0).ecode = 0 ∧
    ((up.setFwt 0 0 { FwThread.atReset 0 0 with started := true, ecode := 5 }).fwt 0 0).ecode ≠ 0 := by decide +kernel

/-- ControlTransfers: targets inside and just outside the program, call stacks of 15 and 16, returns with and without an entry, LOOP's last turn. -/
theorem witness_control : (∀ i ∈ ([-1, 2] : List Int), prog.holds ((prog.pc : Int) + i) = decide (i = 2)) ∧
    ready (guest { prog with stack := List.replicate 15 3 }) (.guest 0) (.branch .none) (word 3 0 0 0 0 1) { prog with stack := List.replicate 15 3 } = true ∧
    ready (guest { prog with stack := List.replicate 16 3 }) (.guest 0) (.branch .none) (word 3 0 0 0 0 1) { prog with stack := List.replicate 16 3 } = true ∧
    ready (guest { prog with stack := List.replicate 16 3 }) (.guest 0) .jump w0 { prog with stack := List.replicate 16 3 } = true ∧
    ready (guest prog) (.guest 0) (.bare .all) w0 prog = true ∧ prog.stack = [] ∧
    ready (guest { prog with stack := [5] }) (.guest 0) (.bare .all) w0 { prog with stack := [5] } = true ∧ prog.holds 5 = true ∧
    prog.holds (fld (({ prog with bank := { prog.bank with g := [(1, 5)] } } : Seq).bank.rd 1) 0 24 : Nat) = true ∧
    (({ prog with bank := { prog.bank with g := [(1, 1)] } } : Seq).bank.rd 1) - 1 = 0 ∧ prog.bank.rd 1 - 1 ≠ 0 := by decide +kernel

/-- Bit fields at the end of a word. -/
theorem witness_bitfields : bfOk (word 1 3 1 0 0 (71 * 128 + 1)) = true ∧ bfOk (word 1 3 1 0 0 (71 * 128 + 2)) = false ∧ bfOk (word 1 3 1 0 0 72) = true ∧
    bfOk (word 1 3 1 0 0 0) = false := by decide

/-- LoadsStoresAndAtomics: an access of nine bytes that the manager's bypass admits, and the translation of a store in one page. -/
theorem witness_accesses : accessExc 4 3 4096 = none ∧ prog.bank.addr (word 2 3 2 0 4 0) = 4096 ∧
    okB (((guest prog).issued (.guest 0) prog).readV 0 4096 9 .read) = true ∧ okB (((guest prog).issued (.guest 0) prog).translate 0 4096 .read) = true ∧
    okB (((guest prog).issued (.guest 0) prog).writeV 0 4096 (storeBytes prog.bank (word 2 3 2 0 4 0))) = true ∧
    okB (((guest prog).issued (.guest 0) prog).atomic 0 4096 0 7 0) = true ∧ ((guest prog).fn 0).dirtyEnable = false ∧
    ((guest prog).translateAll 0 .write (pieces 4096 9)).2.toOption = some [(4096, 4096, 9)] ∧
    (let d := guestWith 0 prog (fun t => { t with paramBase := 4096, paramLen := 1 })
     (word 1 3 0 0 0 0).immZ.toNat < (d.ring 0).thread.paramLen ∧ okB ((d.issued (.guest 0) prog).readWords 0 4096 1 .read) = true) := by decide +kernel

/-- AccessFaultsAndTranslation: a misaligned access, 144 bits at register 63, a store that bypass does not admit, the roots and regions at their ends. -/
theorem witness_access_faults : accessExc 3 3 4100 ≠ none ∧ 4100 % accessBytes 3 ≠ 0 ∧ accessExc 5 63 4096 ≠ none ∧
    okB (((guest { prog with bank := { g := [(2, 2 ^ 40)], k := 1 } }).issued (.guest 0) { prog with bank := { g := [(2, 2 ^ 40)], k := 1 } }).writeV 0 (2 ^ 40) [0]) =
      false ∧
    fld (up.fn 0).iommuRoot 0 2 = 2 ∧ fld (up.fn 1).iommuRoot 0 2 = 0 ∧ up.pageCause 0 .read 4096 1 7 = none ∧ up.pageCause 0 .read (2 ^ 40 - 1) 1 7 = some 7 ∧
    regionOf up.dram 0xC000000000 = .control ∧ regionOf up.dram 0xFFF0000000 = .rom ∧ regionOf up.dram 0x9000000000 = .none ∧
    regionOf up.dram vitrineBase = .vitrine ∧ regionOf up.dram (vitrineBase + 0x2FFFFFF) = .vitrine ∧ regionOf up.dram (vitrineBase + 0x3000000) = .none ∧
    regionOf up.dram (dramTop up.dram - 1) = .dram ∧ regionOf up.dram (dramTop up.dram) = .none ∧ up.critical 1 = false ∧ up.permitted 1 0 4096 = false := by
  decide +kernel

def enqWord (target : Nat) : Insn := word 4 3 1 0 0 (BitVec.ofNat 36 (target * 2 ^ 28 + 256))
def anEnq (i : Nat) : Enq := { idx := i, target := 2, kind := 1, addr := 0, len := 1 }

/-- WorkInstructions: targets permitted and not, the last index and none left, a buffer with room and full, operations done and not, the events. -/
theorem witness_work :
    (targetOk 2 0 = true ∧ targetOk 1 0 = false ∧ fld (enqWord 2).low 28 8 = 2) ∧
    (∀ n ∈ [0, 65535, 65536], ready (guestWith 0 prog (fun t => { t with nextIdx := n })) (.guest 0)
      { formats := [4], dst := .reg, a := .reg, b := .none, c := false, subs := 1, prof := .s } (enqWord 2) prog = true) ∧
    (∀ n ∈ [31, 32], ready (guestWith 0 prog (fun t => { t with buf := (List.range n).map anEnq })) (.guest 0)
      { formats := [4], dst := .reg, a := .reg, b := .none, c := false, subs := 1, prof := .s } (enqWord 1) prog = true) ∧
    ((guestWith 0 prog (fun t => { t with buf := [anEnq 0] })).op id1 = none ∧ (holding (guest prog) (opOf 2 1 [])).op id1 ≠ none) ∧
    ((guest prog).itemOpsDone 0 = true ∧ ((guest prog).updEntry 0 1 (fun e => { e with ops := [(0, OpRep.waiting)] })).itemOpsDone 0 = false) ∧
    ((guestWith 0 prog (fun t => { t with wait := .fence })).threadUp 0 = true) ∧
    (let d := guestWith 0 prog (fun t => { t with wait := .event 5 1000000005 3 1000000009 false })
     d.threadUp 0 = true) ∧
    (Wait.event 4 7 3 9 false).meet 4 7 9 = Wait.event 4 7 3 9 true ∧ (Wait.event 4 7 3 9 false).meet 4 7 10 = Wait.event 4 7 3 9 false ∧
    (prog.bank.rd 1).toNat ≤ (guest prog).now ∧ fld (word 1 3 1 2 0 0x500000000).low 32 4 = 5 ∧ fld (word 1 3 1 2 0 0x600000000).low 32 4 = 6 := by decide +kernel

def aTx (l : List (Nat × W72)) (overflow : Bool) : Tx := { point := 0, pipe := 0, shadow := l, overflow := overflow, full := none }

/-- Commits: a transaction whose checks pass, one that has overflowed, a position already committed, layer-slot words. -/
theorem witness_commits :
    okB (up.checkCommit 0 (aTx [(objKey 0x0C 0 1, 0x100)] false)) = true ∧ okB (up.checkCommit 0 (aTx [] true)) = false ∧
    ready (guestWith 0 prog (fun t => { t with tx := some (aTx [(objKey 0x0C 0 1, 0x100)] false) })) (.guest 0)
      { formats := [0], dst := .reg, a := .none, b := .none, c := false, subs := 1, prof := .s } (word 0 3 0 0 0 0) prog = true ∧
    tfind ({ item 1 with txcs := [(0, 5)] } : Entry).txcs 0 = some 5 ∧ (keyCls (objKey 0x03 1 2) = 0x03 ∧ keyWord (objKey 0x03 1 2) = 2) := by decide +kernel

/-- TransactionsAndReads: TXB with and without an open transaction and at the sixteenth, STO at 909 and 910 writes, LDO's objects, SNAP's names. -/
theorem witness_transactions :
    (∀ n ∈ [0, 15, 16], ready (guestWith 0 prog (fun t => { t with txOpened := n })) (.guest 0)
      { formats := [1], dst := .none, a := .none, b := .none, c := false, subs := 4, prof := .s } (word 1 0 0 0 1 11) prog = true) ∧
    fld (word 1 0 0 0 1 11).low 0 4 = 11 ∧
    (∀ n ∈ [909, 910], ((aTx ((List.range n).map (fun i => (i, 0))) false).shadow.any (fun x => x.1 = objectOf prog.bank (word 5 0 1 0 0 0x50000002))) = false) ∧
    (keyExists (objectOf prog.bank (word 5 3 0 0 0 0x50000002)) = true ∧ keyExists (objectOf prog.bank (word 5 3 0 0 0 0xFF0000002)) = false) ∧
    up.manager = 0 ∧ up.owner 0x05 0 = 0 ∧
    (let d : Dev := { guest prog with mem := [(4096, 1), (4105 + 3, 0xC0)] }
     okB ((d.issued (.guest 0) prog).readWords 0 4096 1 .read) = true ∧ snapObject 0xC0000000 = some (objKey 0x0C 0 0)) := by decide +kernel

/-- FirmwareAndPhysicalAccess: an ERET target, IOINV and THRD operands, addresses of DRAM, ROM, control space and nowhere. -/
theorem witness_physical :
    prog.holds (fld ((up.setFwt 0 0 { FwThread.atReset 0 0 with epc := 3 }).fwt 0 0).epc 0 24 : Nat) = true ∧
    (let q : Seq := { prog with bank := { g := [(1, 63), (2, 0)], k := 1 } }; allExec (firmware q) (.firmware 0 0) q [(.pair 1, word 0 0 1 2 0 0)] = true ∧
      (q.bank.rd 1).toNat < 64) ∧
    (let q : Seq := { prog with bank := { g := [(1, 0x901)], k := 1 } }; allExec (firmware q) (.firmware 0 0) q [(.pair 3, word 0 0 1 0 0 0)] = true ∧
      fld (q.bank.rd 1) 8 64 = 9 ∧ fld (q.bank.rd 1) 0 8 = 1) ∧
    (up.touches 4096 9 .control = false ∧ up.physExc true 4096 9 = none ∧ up.physExc false 4096 9 = none) ∧ up.touches 0xFFF0000000 9 .rom = true ∧
    (up.touches 0xC000000000 9 .control = true ∧ up.touches 0xC000000000 9 .none = false) ∧ up.touches 0xE000000000 9 .none = true := by decide +kernel

/-! Rings, items, operations, records. -/

/-- Memory that holds packed words from an address on. -/
def memOf (a : Nat) (l : List W72) : List Host.Cell := cellSetAll [] (consBytes a (bytesOfWords l) [])

/-- Ring 0 enabled with its entries, and the device with it. -/
def ringWith (h : Ring → Ring) : Dev := up.setRing 0 (h { Ring.atReset with enable := true })
def inReset (r : FnReset) : Dev := up.setFn 0 { up.fn 0 with rst := some r }
def aReset (mode : BitVec 2) (held : Bool) : FnReset :=
  { mode := mode, held := held, begun := 0, limitAt := 1000000000, cfg := true, vanish := false, waitFrom := [], keepFault := false }

/-- The machine's statements: nothing held back, a request held back that the device serves, and one that it does not. -/
theorem witness_idle : up.held = [] ∧ ({ up with held := [.idcode] } : Dev).serves = true ∧ Dev.atReset.serves = false := by
  decide +kernel

/-- RingRegisters: a doorbell of sixteen and seventeen items on an empty ring of sixteen, heads at and past the records, depths 3, 4, 10 and 11. -/
theorem witness_rings : arrives up 0 = true ∧ up.resetting 0 = false ∧ arrives (inReset (aReset 1 false)) 0 = true ∧
    (inReset (aReset 1 false)).resetting 0 = true ∧ up.hostReach 63 = false ∧ steady up = true ∧
    ((16 - (up.ring 0).tail).toNat ≤ ((up.ring 0).acc + BitVec.ofNat 16 (2 ^ (up.ring 0).depthLog2.toNat) - (up.ring 0).tail).toNat) ∧
    (((up.ring 0).acc + BitVec.ofNat 16 (2 ^ (up.ring 0).depthLog2.toNat) - (up.ring 0).tail).toNat < (17 - (up.ring 0).tail).toNat) ∧
    (let r := (ringWith (fun r => { r with cmplTail := 3 })).ring 0; r.kept = none ∧ (3 - r.head).toNat ≤ (r.cmplTail - r.head).toNat ∧
      (r.cmplTail - r.head).toNat < (4 - r.head).toNat) ∧
    (fld (0x80000040 : BitVec 32) 4 4 = 4 ∧ fld (0x800000A0 : BitVec 32) 4 4 = 10 ∧ fld (0x80000030 : BitVec 32) 4 4 = 3 ∧ fld (0x800000B0 : BitVec 32) 4 4 = 11) ∧
    ((up.ring 0).enable = false ∧ (up.ring 0).inflight = 0 ∧ (ringWith id).ring 0 ≠ up.ring 0) := by decide +kernel

def anItem : W144 := BitVec.ofNat 144 (128 * 2 ^ 102 + 256 * 2 ^ 60 + 5)
def entries (n : Nat) : List Entry := (List.range n).map (fun i => item (i + 1))
def waiting (n : Nat) : Dev := ringWith (fun r => { r with tail := 1, base := 4096, depthLog2 := 8, entries := entries n, nextAcc := n + 1 })
def unstarted (m : List Host.Cell) : Dev :=
  { (ringWith (fun r => { r with entries := [{ item 1 with item := anItem, phase := .unstarted }], acc := 1, tail := 1, nextAcc := 2 })) with mem := m }
def started (d : Dev) : Dev :=
  d.setRing 0 { d.ring 0 with
    thread := { Thread.idle with acc := some 1, seq := { Seq.idle with base := 8192 } }
    entries := (d.ring 0).entries.map (fun e => if e.acc = 1 then { e with phase := .running, runs := e.runs + 1 } else e) }
def headerWords : List W72 := [BitVec.ofNat 72 (0xD5 * 2 ^ 64 + 2 ^ 58 + 2 ^ 32), BitVec.ofNat 72 (2 * 2 ^ 48)]

/-- ItemsAdmittedAndStarted: fifteen and sixteen entries, an item read and one that cannot be, an entry granted and not, a header valid and not. -/
theorem witness_items : steady (waiting 15) = true ∧ (waiting 15).mayAdmit 0 = true ∧ ((waiting 15).ring 0).entries.length = 15 ∧
    okB ((waiting 15).readV 0 4096 18 .read) = true ∧ okB ((waiting 15).readV 0 (2 ^ 40) 18 .read) = false ∧ (waiting 16).mayAdmit 0 = true ∧
    (waiting 16).grantsShared 0 = true ∧
    (let d := (waiting 16).setPort 0 { (waiting 16).port 0 with inForce := { ((waiting 16).port 0).inForce with maxShared := 0 } }
     d.mayAdmit 0 = true ∧ d.grantsShared 0 = false) ∧ (ringWith id).mayAdmit 0 = false ∧
    (let d := unstarted (memOf 8192 headerWords)
     steady d = true ∧ (d.ring 0).entries.find? (fun e => e.phase = .unstarted && !e.covered) = some { item 1 with item := anItem, phase := .unstarted } ∧
     d.threadUp 0 = true ∧ (d.ring 0).thread.acc = none ∧ d.resetting 0 = false ∧ fld anItem 102 42 * 64 = 8192 ∧ bit anItem 53 = false ∧
     ((started d).readWords 0 8192 2 .exec).2.toOption = some headerWords ∧ (checkHeader 0 (nth headerWords 0 0) (nth headerWords 1 0)).isSome = true) ∧
    checkHeader 0 0 0 = none ∧ okB ((started (unstarted [])).readWords 0 (2 ^ 40) 2 .exec) = false ∧ ((guest prog).ring 0).thread.acc ≠ none := by decide +kernel

def recordRing (base : BitVec 64) (kept : Option W144) : Dev :=
  ringWith (fun r => { r with cmplBase := base, kept := kept, entries := [{ item 1 with phase := .ended }], every := 1, oldestRec := some 999980000, cmplTail := 2 })

/-- CompletionRecords: an item to record, its write done and failed, a record kept, the wait for the event at 20 µs and a nanosecond before. -/
theorem witness_records : steady (recordRing 4096 none) = true ∧ (recordRing 4096 none).runs 3 = true ∧ ((recordRing 4096 none).recordable 0).isSome = true ∧
    (guest prog).recordable 0 = none ∧ ((guest prog).ring 0).kept = none ∧
    okB ((recordRing 4096 none).writeV 0 ((recordRing 4096 none).ring 0).recordAddr (toBytes 18 0)) = true ∧
    okB ((recordRing (2 ^ 40) none).writeV 0 ((recordRing (2 ^ 40) none).ring 0).recordAddr (toBytes 18 0)) = false ∧ (recordRing 4096 none).resetting 0 = false ∧
    (((recordRing 4096 none).ring 0).every.toNat ≤ 1 ∧ ((recordRing 4096 none).ring 0).sinceEv < 1) ∧ ((recordRing 4096 (some 5)).ring 0).kept = some 5 ∧
    arrives (recordRing 4096 (some 5)) 0 = true ∧ (recordRing 4096 (some 5)).resetting 0 = false ∧
    (let r := (recordRing 4096 (some 5)).ring 0; (2 - r.head).toNat ≤ (r.cmplTail - r.head).toNat ∧ (r.cmplTail - r.head).toNat < (3 - r.head).toNat) ∧
    ((recordRing 4096 none).ring 0).oldestRec = some 999980000 ∧ 999980000 + 20000 ≤ up.now ∧
    (up.ring 0).oldestRec = none ∧
    ((item 1).squashed = false ∧ (∀ x ∈ (item 1).ops, x.2.cancelled = false ∧ x.2.status = 0) ∧ (item 1).progStatus = 0) ∧
    ({ item 1 with squashed := true, progStatus := 0x10 } : Entry).squashed = true := by decide +kernel

/-- EpochsAndCoreResets: an epoch boundary now, an instant that is none, items interrupted twice and three times, a core up and down. -/
theorem witness_epochs : steady up = true ∧ up.awake = true ∧ up.now % 1000000 = 0 ∧ up.epochAt < up.now ∧ up.commits = [] ∧ (up.now + 1) % 1000000 ≠ 0 ∧
    tfind up.coreDown 0 = none ∧ tfind ({ up with coreDown := [(0, 5)] } : Dev).coreDown 0 = some 5 ∧
    (∀ n ∈ [2, 3], (((guest prog).updEntry 0 1 (fun e => { e with interrupts := n })).entry 0 1).map (fun e => e.interrupts) = some n) := by decide +kernel

/-- Operations: released, of an older generation, of a length that is not the type's, finished, to be cancelled; engines with and without a weight. -/
def releasedOp : Op := { opOf 2 1 [] with phase := .released, len := 4, addr := 4096 }
def released : Dev := (holding up releasedOp).setObj 0x0B 0 1 0x01010101

theorem witness_operations : steady released = true ∧ released.op id1 = some releasedOp ∧ releasedOp.gen = (released.fn 0).gen ∧
    released.runs (targetBlock 2) = true ∧ shareClass 2 = some 2 ∧ weightOf released.obj 0 2 ≠ 0 ∧ opLengthOk 2 1 4 = true ∧ opLengthOk 2 1 3 = false ∧
    okB (released.readWords 0 4096 4 .read) = true ∧ okB (released.readWords 0 (2 ^ 40) 4 .read) = false ∧ up.op id1 = none := by decide +kernel

theorem witness_operations_dma : released.dmaFull = false ∧ releasedOp.target = 2 ∧
    (let d : Dev := { released with ops := releasedOp :: List.replicate 16 { opOf 2 1 [] with id := { id1 with idx := 9 } } }
     steady d = true ∧ d.op id1 = some releasedOp ∧ d.dmaFull = true) := by decide +kernel

theorem witness_operations_held : weightOf (up.setObj 0x0B 0 1 0).obj 0 2 = 0 ∧ (1 : BitVec 8) ≠ (up.fn 0).gen := by decide +kernel

def cancelOf (t k : BitVec 8) : Op := { opOf t k [] with cancel := true }

theorem witness_operations_cancelled (t k : BitVec 8) :
    (holding up (cancelOf t k)).op id1 = some (cancelOf t k) ∧ (cancelOf t k).cancel = true ∧ (cancelOf t k).phase = .started := ⟨rfl, rfl, rfl⟩

theorem witness_touch_buffer : ((up.setTfn 0 { up.tfn 0 with bufs := [{ id := id1, addr := 0, count := 4, filled := 2 }] }).tfn 0).bufs.find? (fun b => b.id = id1) =
    some { id := id1, addr := 0, count := 4, filled := 2 } := rfl

theorem witness_epochs_kept : ∀ g, (up.ring g).kept = none := fun _ => rfl

/-! Resets, links, events, the aperture. -/

/-- FunctionResets: the three modes, one in progress, a generation still carried, the drain limit at its end and before, every ring drained and not. -/
theorem witness_resets : steady up = true ∧ up.boot.stage = .ready ∧ up.exists_ 0 = true ∧ up.freeze.at_ = none ∧ (up.fn 0).rst = none ∧
    (∀ m ∈ [0, 1, 2], fld ((up.setObj 0x0C 0 1 (BitVec.ofNat 72 (m * 4))).obj 0x0C 0 1) 2 2 = m) ∧ up.wouldCollide 0 = false ∧
    (holding up { opOf 2 1 [] with gen := 1 }).wouldCollide 0 = true ∧ ((inReset (aReset 1 true)).fn 0).rst = some (aReset 1 true) ∧
    (arrives up 16 = true ∧ up.manager = 0 ∧ (17 : Nat) / 16 = 1 ∧ (1 : Nat) % 16 ≠ 0) ∧ (aReset 1 false).limitAt ≤ up.now ∧
    (∀ k, k < 4 → (up.ring k).kept = none ∧ up.drained k = true ∧ up.recordable k = none) ∧ (guest prog).drained 0 = false ∧ (guest prog).recordable 0 = none := by decide +kernel

/-- LinksAndFunctions: links up and down, NumVFs 15 and 16, within the budget and not, VF Enable set and clear. -/
theorem witness_links : steady up = true ∧ (up.port 0).link ≠ .down ∧ (Dev.atReset.port 0).link = .down ∧ steady Dev.atReset = true ∧ up.hostReach 0 = true ∧
    up.asleep = false ∧ (up.port 0).vfEnable = false ∧ (up.port 0).numVfs ≤ (up.port 0).inForce.maxVfs ∧
    (let d := up.setPort 0 { up.port 0 with numVfs := 15, inForce := { (up.port 0).inForce with maxVfs := 14 } }
     (d.port 0).inForce.maxVfs < (d.port 0).numVfs ∧ d.hostReach 0 = true) ∧
    (let d := up.setPort 0 { up.port 0 with numVfs := 2, vfEnable := true }; (d.port 0).vfEnable = true ∧ d.hostReach 0 = true ∧ d.exists_ 2 = true ∧ d.exists_ 3 = false) ∧
    ((up.setFn 0 { up.fn 0 with d3hot := true }).fn 0).d3hot = true := by decide +kernel

/-- EventsMessagesAndAperture: an event new and set already, a vector that can be sent and one that cannot, an access at the end of BAR2 and past it. -/
theorem witness_events :
    (let d := up.setFn 0 { up.fn 0 with msixEnable := true, pba := 1, msixTable := [(0, 0)] }
     bit (d.fn 0).evStatus 0 = false ∧ bit (d.fn 0).evEnable 0 = true ∧ d.canSend 0 (vectorOf 0) = true ∧ bit (d.fn 0).pba 0 = true ∧ steady d = true) ∧
    up.canSend 0 0 = false ∧ bit (up.fn 0).pba 0 = false ∧ arrives up 0 = true ∧ (up.fn 0).bar2Log2 = 28 ∧ (2 ^ 28 - 4) + 4 ≤ 2 ^ (up.fn 0).bar2Log2 ∧
    2 ^ (up.fn 0).bar2Log2 < (2 ^ 28 - 4) + 5 ∧ okB (up.readV 0 (2 ^ 28 - 4) 4 .read) = true ∧ okB (up.writeV 0 0 [1, 2]) = true ∧
    (let d := up.setFn 0 { up.fn 0 with apertureBase := 2 ^ 40 }; okB (d.readV 0 (2 ^ 40) 4 .read) = false ∧ okB (d.writeV 0 (2 ^ 40) [1]) = false) ∧
    (∀ u, u < 32 → up.cvuOn u = false) ∧ (up.fn 0).dirtyEnable = false ∧ okB (up.translate 0 1 .write) = true ∧ up.dataCause 1 1 ≠ 0xE := by decide +kernel

/-- The first cause and address of a translation, or the address of the first piece in a fenced group. -/
def writeTrouble (d : Dev) (l : List (Nat × Nat)) : Option (Nat × Nat) :=
  match d.translateAll 0 .write l with
  | (_, .error e) => some e
  | (d1, .ok t) => (t.find? (fun x => d1.dataCause x.2.1 x.2.2 = 0xE)).map (fun x => (0xE, x.1))

/-- EventsMessagesAndAperture: a write past the populated space, whole and in part, and one in a fenced group. -/
theorem witness_aperture_faults :
    (let d := up.setFn 0 { up.fn 0 with apertureBase := 2 ^ 40 }
     arrives d 0 = true ∧ writeTrouble d (pieces (2 ^ 40) 2) = some (7, 2 ^ 40) ∧ enabledBytes (2 ^ 40) [none, some 1] = [(2 ^ 40 + 1, 1)] ∧
     writeTrouble d [(2 ^ 40 + 1, 1)] = some (7, 2 ^ 40 + 1)) ∧
    (let d := up.setGroup 0 { up.group 0 with state := 2 }; arrives d 0 = true ∧ writeTrouble d (pieces 0 2) = some (0xE, 0)) := by decide +kernel


/-! The manager's controls and register accesses. -/

/-- HostAddressAndTime: roots of each mode for the manager and for another, invalidations idle and in progress, dirty logging, the time dialog. -/
theorem witness_host_address : arrives up 0 = true ∧ up.reachesBlock 0 5 = true ∧ up.reachesBlock 16 17 = true ∧ up.reachesBlock 1 2 = false ∧
    arrives up 16 = true ∧ (fld (3 : BitVec 64) 0 2 = 3 ∧ fld (2 : BitVec 64) 0 2 = 2 ∧ fld (1 : BitVec 64) 0 2 = 1) ∧ up.manager = 0 ∧ (up.fn 5).invGo = false ∧
    ((up.setFn 5 { up.fn 5 with invGo := true }).fn 5).invGo = true ∧ (up.fn 5).dirtyPages = 0 ∧ (up.fn 5).dirtySwap = false ∧
    (let d := up.setFn 5 { up.fn 5 with dirtyPages := 4, dirtySwap := true }; (d.fn 5).dirtyPages ≠ 0 ∧ (d.fn 5).dirtySwap = true) ∧
    (let d := up.setPort 0 { up.port 0 with ptmEnable := true, ptmBusy := true, ptmNext := up.now }
     (d.port 0).ptmEnable = true ∧ (d.port 0).link = .l0 ∧ (d.port 0).ptmPeriod ≠ 0 ∧ (d.port 0).ptmNext ≤ d.now ∧ d.awake = true ∧ (d.port 0).ptmBusy = true) ∧
    (up.port 0).ptmEnable = false ∧ (up.port 0).ptmBusy = false := by decide +kernel

/-- MemoryControl: the largest partitions and one way more, BUSY, a channel to retrain and one that has failed, speed points that differ. -/
theorem witness_memory_control : arrives up 0 = true ∧ up.dram.busyFrom = none ∧
    (fld (0x0C02 : BitVec 32) 8 5 = 12 ∧ fld (0x0C02 : BitVec 32) 0 4 = 2 ∧ fld (0x0608 : BitVec 32) 8 5 = 6 ∧ fld (0x0608 : BitVec 32) 0 4 = 8) ∧
    (fld (0x0D00 : BitVec 32) 8 5 = 13 ∧ fld (0x0009 : BitVec 32) 0 4 = 9 ∧ fld (0x0708 : BitVec 32) 8 5 = 7 ∧ fld (0x0708 : BitVec 32) 0 4 = 8) ∧
    ((up.group 0).state ≠ 2 ∧ (up.chan 0).state ≠ 4) ∧ up.power.change = none ∧ arrives up 16 = true := by decide +kernel

/-- No pipe holds a ring, so a partition of any size fits. -/
theorem witness_rings_fit (r : Dram) : up.ringsKept r = true := by
  have h : ((List.range 12).map up.ringHeld).foldl (· + ·) 0 = 0 := by decide +kernel
  unfold Dev.ringsKept
  rw [h]
  exact decide_eq_true (Nat.zero_le _)

def changing : OpChange := { target := 1, stage := 0, raising := [0, 1], lowering := [], writtenAt := 999500000, oldShdMv := 680, oldCoreMv := 800 }
def powered (h : Power → Power) : Dev := { up with power := h up.power }

/-- PowerControl: the point in force kept, changed upward and held back, requests of each kind, engines of R443 and not, keys right and wrong. -/
theorem witness_power_control : arrives up 0 = true ∧ BitVec.ofNat 3 (fld (3 : BitVec 32) 0 3) = up.power.opTarget ∧
    (let p : Power := { (powered (fun p => { p with rail := true })).power with opTarget := 1, failedFor := none }
     BitVec.ofNat 3 1 ≠ up.power.opTarget ∧ p.change = none ∧ p.current.toNat ≠ p.inForce ∧ p.state = .active ∧ p.shdMv < opShdMv p.inForce) ∧
    ((powered (fun p => { p with change := some changing })).power.change ≠ none ∧ arrives (powered (fun p => { p with reqGo := true })) 0 = true) ∧
    (fld (3 : BitVec 32) 0 2 = 3 ∧ fld (0x80000002 : BitVec 32) 0 2 = 2 ∧ bit (0x80000002 : BitVec 32) 31 = true ∧ fld (0x80000000 : BitVec 32) 0 2 = 0) ∧
    (engineNamed 0x0A 0x20 = true ∧ engineNamed 0x02 7 = true ∧ engineNamed 0x02 8 = false ∧ engineNamed 0x06 11 = true ∧ engineNamed 0x06 12 = false) ∧
    (arrives (powered (fun p => { p with state := .entering })) 0 = true ∧ (powered (fun p => { p with state := .entering })).power.state ≠ .active) ∧
    tfind up.coreDown 7 = none ∧ fld (0xC1A5 : BitVec 32) 0 16 = 0xC1A5 ∧ fld (0x4C430000 : BitVec 32) 16 16 = 0x4C43 ∧ up.boot.fuses.lifecycle ≠ 1 := by
  decide +kernel

/-- RegisterAccesses: a register outside the groups, DEVTIME and its latch, misaligned addresses, a ring disabled and in use, the lock, a retry. -/
theorem witness_registers : arrives up 0 = true ∧ readerBase (.bar0 0) 0x44 = 0x44 ∧ (∀ g ∈ bar0Groups, g.contains 0x44 = false ∧ g.head? ≠ some 0x44) ∧
    tfind ({ up with latch := [(readerKey (.bar0 0) 0x08, 5)] } : Dev).latch (readerKey (.bar0 0) 0x08) = some 5 ∧ 0x42 % 4 ≠ 0 ∧ 0x44 % 8 ≠ 0 ∧
    (up.ring 0).enable = false ∧ (up.ring 0).inflight = 0 ∧ (ringWith id).resetting 0 = false ∧ ((ringWith id).ring 0).enable = true ∧
    ((0 : Nat) = up.manager ∧ (16 : Nat) ≠ up.manager ∧ arrives up 16 = true) ∧ ({ up.safety with lock := true } : Safety).lock = true ∧
    up.safety.lock = false ∧ up.boot.stage ≠ .held ∧ up.power.state ≠ .standby ∧ ((up.port 0).link = .l0 ∧ up.exists_ 0 = true ∧ up.exists_ 1 = false) ∧
    ({ up.boot with stage := .recovery } : Boot).stage ≠ .ready := by decide +kernel

/-! Engines: raster, composition, check values, data movement. -/

/-- A record of four words for a 64-byte-aligned linear RGBA8 surface, and a descriptor of one pass with one draw on a target of 8 × 8. -/
def attWords : List W72 := [BitVec.ofNat 72 (2 * 2 ^ 64 + 2 ^ 20), 256, 0, 0]
def passWords (order : Nat) : List W72 :=
  [BitVec.ofNat 72 (7 * 2 ^ 58 + 7 * 2 ^ 44 + order * 2 ^ 38 + 2 ^ 34), BitVec.ofNat 72 (2 ^ 48 + 2 ^ 16), 0x100000] ++ attWords
def drawWords : List W72 := [0, 256, BitVec.ofNat 72 (8 * 2 ^ 64 + 8192), BitVec.ofNat 72 (8 * 2 ^ 64 + 8192), 0, 0, 0, 0]
def waveHeader : List W72 := [BitVec.ofNat 72 (0xD5 * 2 ^ 64 + 1 * 2 ^ 62 + 2 ^ 58 + 2 ^ 32), BitVec.ofNat 72 (2 * 2 ^ 48)]
def passOp : Op := opOf 0 1 (passWords 0)
def aPass (stage : Nat) : Pass :=
  { id := id1, fn := 0, stage := stage, draws := [], outs := [], prims := [], segLo := 0, segHi := 0, todo := [], tiles := [], touched := [], blocks := [0]
    maxBlocks := 1, resolves := 0, reexec := 0, interrupts := [] }
def passing (d : Dev) (l : List Pass) : Dev := { d with raster := { d.raster with passes := l } }

theorem witness_raster : works (holding up passOp) passOp 4 = true ∧ (holding up passOp).passOf id1 = none ∧ passOk passOp.desc = true ∧ passOk [] = false ∧
    (passDesc passOp.desc).order = 0 ∧ (passDesc (passWords 1)).order = 1 ∧ (holding up passOp).earlierRaster passOp = false ∧
    ({ up with ops := [{ opOf 0 1 [] with id := { id1 with acc := 0 } }, passOp] } : Dev).earlierRaster passOp = true ∧
    (passing up (List.replicate 16 (aPass 1))).raster.passes.length = 16 ∧ (holding up passOp).tlReserve 0 ≠ 0 ∧
    ({ up with raster := { up.raster with reserves := [(0, 0)] } } : Dev).tlReserve 0 = 0 ∧ up.activeOp id1 0 1 = none := by decide +kernel

theorem witness_raster_blocks : (passing (holding up passOp) [aPass 2]).drawable 0 = 0 ∧ (holding up passOp).drawable 0 ≠ 0 ∧
    (passing (holding up passOp) [aPass 2]).lostPass (aPass 2) = false ∧ (aPass 2).prims.length ≤ (aPass 2).segHi ∧
    (passing (holding up passOp) [aPass 2]).passOf id1 = some (aPass 2) := by decide +kernel

theorem witness_raster_draws : okB (({ holding up passOp with mem := cellSetAll (memOf 65536 drawWords) (consBytes 8192 (bytesOfWords waveHeader) []) } : Dev).readDraws
    passOp (passDesc passOp.desc).drawCount 0) = true := by decide +kernel

/-- A pass whose block lies in a fenced group. -/
theorem witness_raster_lost : ((passing up [aPass 2]).setGroup 0 { up.group 0 with state := 2 }).lostPass (aPass 2) = true := by decide +kernel

def dispatchOp : Op := opOf 0 2 [BitVec.ofNat 72 (8 * 2 ^ 32), 8192, 0, 0]

theorem witness_dispatch : works (holding up dispatchOp) dispatchOp 4 = true ∧ dispatchOk dispatchOp = true ∧ dispatchOk (opOf 0 2 []) = false ∧
    okB (({ holding up dispatchOp with mem := memOf 8192 waveHeader } : Dev).waveProg 0 8192) = true ∧
    (fld (dispatchOp.word 0) 40 32 + 15) / 16 ≤ (aPass 1).segLo := by decide +kernel

/-- A CLEAR record whose format no surface has, and one of layout 2 whose clear word cannot be stored; the surface's size is a free value. -/
theorem witness_clear : works (holding up (opOf 0 3 attWords)) (opOf 0 3 attWords) 4 = true ∧ recordOk (opOf 0 3 [0, 0, 0, 0]) [0, 0, 0, 0] = false ∧
    works (holding up (opOf 0 4 (attWords ++ attWords))) (opOf 0 4 (attWords ++ attWords)) 4 = true ∧ (attOf attWords).format ≠ 0x50 := by decide +kernel

def composing : Composition :=
  { frame := 0, settings := [], fns := [], handles := [], shown := [], width := 64, height := 64, target := 0, toB := false, deadline := 2000000000, tilesDone := []
    doneAt := none, late := false }
def composer (h : PipeComp → PipeComp) : Dev := up.setPc 0 (h (up.pc 0))
def tiling (stage since core : Nat) : Dev :=
  passing up [{ aPass stage with tiles := [(3, { core := core, guard := none, since := since, used := 1, planes := [] })] }]

/-- CoresAndTiles: a tile ready and first on a core in service; a tile taken after PREEMPT_LIMIT; a core reset holding a tile thrice and a fourth time. -/
theorem witness_tiles :
    (let d := composer (fun x => { x with current := some composing })
     steady d = true ∧ d.runs 4 = true ∧ (d.pt 0).active = false ∧ d.inService 0 = true ∧ d.atBoundary 0 = true ∧ d.raster.compReserve ≠ 0 ∧ d.vitrineOnly 0 = false ∧
     (d.pc 0).chase = none ∧ (d.pc 0).current = some composing ∧ d.tileReady 0 3 = some (some 1000000000) ∧ d.comesFirst 0 (some 1000000000) = true ∧
     d.compositorReady = true) ∧
    (let d := composer (fun x => { x with chase := some composing, opened := [0] })
     (d.tileReady 0 0).isSome = true ∧ (d.pc 0).chase = some composing) ∧
    up.runs 4 = true ∧ Dev.atReset.runs 4 = false ∧ (tiling 2 999900000 5).raster.preemptLimit * 1000 + 999900000 ≤ up.now ∧
    (tiling 2 0 5).coreBusy 5 = true ∧ up.raster.passes = [] ∧ (∀ n ∈ [2, 3], tget [(2 * 3 + 1, n)] (2 * 3 + (if (2 : Nat) = 2 then 1 else 0)) 0 = n) ∧
    ((up.setCore 5 { up.coreOf 5 with resetAt := some 5 }).coreOf 5).resetAt = some 5 ∧
    ((up.setCore 5 { up.coreOf 5 with resetAt := some 5 }).inService 5 = false) := by decide +kernel

def registerOp : Op := opOf 1 2 ([BitVec.ofNat 72 (7 * 2 ^ 64)] ++ [BitVec.ofNat 72 (2 * 2 ^ 64 + 2 ^ 20), 0, 0])
def handled (s : HandleState) : Dev := up.setHandle 7 { state := s, words := [], serial := 1, freeOp := none, vanished := false }

/-- PresentsStripsAndBuffers: PRESENT of pipe 11 and 12, of the owner and of another; a deadline at its instant; a strip; handles in each state. -/
theorem witness_presents : (∀ p ∈ [0, 11, 12], works (holding up (opOf 1 1 [BitVec.ofNat 72 p])) (opOf 1 1 [BitVec.ofNat 72 p]) 5 = true) ∧
    up.owner 0x02 11 = 0 ∧ ((up.setObj 0x02 11 0 16).owner 0x02 11 ≠ 0) ∧
    (let d := composer (fun x => { x with current := some { composing with deadline := up.now } })
     d.runs 10 = true ∧ (d.pc 0).current = some { composing with deadline := up.now } ∧ up.now ≤ d.now) ∧
    ((handled .registered).handle 7).state = .registered ∧ ((handled .freeing).handle 7).state = .freeing ∧ ((handled .free).handle 7).state = .free ∧
    (handled .freeing).handleUsed 7 = false ∧ (composer (fun x => { x with current := some { composing with handles := [(7, 1)] } })).handleUsed 7 = true ∧
    works (holding up (opOf 1 3 [7])) (opOf 1 3 [7]) 5 = true ∧ ((handled .registered).handle 7).freeOp ≠ some id1 := by decide +kernel

/-! Check-value units, the Vitrine, data movement. -/

/-- A defined mode of 64 × 64 pixels at 100 frames a second, and a device whose pipe 0 shows it on port 0. -/
def modeWords : List W72 :=
  [BitVec.ofNat 72 (2 ^ 71 + 7 * 2 ^ 64 + 633600 * 2 ^ 32 + 63 * 2 ^ 18 + 63 * 2 ^ 4), BitVec.ofNat 72 (8 * 2 ^ 42 + 8 * 2 ^ 28 + 8 * 2 ^ 14),
   BitVec.ofNat 72 (2 ^ 42 + 2 ^ 28 + 6 * 2 ^ 14), 0]
def shown (n : Nat) : Frame :=
  { n := n, kind := 1, content := 0, stamp := none, dark := false, late := false, handles := [], map := [], layoutOwner := 0, zones := [], shown := [], retired := false }
def screen (more : Nat) (h : PipeTime → PipeTime) : Dev :=
  ({ up with disp := { up.disp with
      modes := [(0x200, modeWords)]
      ports := [(0, { (up.dport 0) with link := 2, hpd := true, tries := 0, trained := 4 })] } }.setObj 0x01 0 1 (BitVec.ofNat 72 (2 ^ 31 + 0x200 * 2 ^ 20 + more))).setPt 0
    (h { up.pt 0 with active := true, inc := BitVec.ofNat 40 (incOf 633600 false), lastVb := some 990000000, mark := 990000000, vbAt := 990000000, firstLine := some 991111111, frame := 3 })
def showing (more : Nat) (h : PipeTime → PipeTime) : Dev := (screen more h).setPc 0 { (screen more h).pc 0 with frames := [shown 3] }

/-- Unit 2 enabled on a tap with REPORT set and the reference 5. -/
def unitOn (d : Dev) (tap : Nat) (h : Cvu → Cvu) : Dev :=
  ((d.setObj 0x0A 2 1 (BitVec.ofNat 72 (2 ^ 31 + tap * 2 ^ 24 + 2 ^ 20 + 2 ^ 16))).setObj 0x0A 2 7 5).setCvu 2 (h (d.cvu 2))

theorem witness_check_states : ∀ n ∈ ([1, 3, 4] : List (BitVec 3)),
    (let d := unitOn up 0x20 (fun x => { x with state := n, held := 9 })
     d.cvuCompares 2 = true ∧ (d.cvu 2).state = n ∧ n ≠ 5 ∧ (d.cvu 2).refBad = false ∧ d.cvuRef 2 = 5 ∧ (d.cvu 2).held.toNat = 9) := by decide +kernel

theorem witness_check_units :
    (let d := unitOn up 0x20 (fun x => { x with state := 1, refBad := true }); d.cvuCompares 2 = true ∧ (d.cvu 2).state ≠ 5 ∧ (d.cvu 2).refBad = true) ∧
    up.cvuCompares 2 = false ∧ up.cvuOn 2 = false ∧ tapKind 1 = 1 ∧ tapKind 0x0C = 1 ∧ tapKind 0x0D = 0 ∧ tapKind 0x40 = 5 ∧ tapKind 0x47 = 5 ∧ tapKind 0x48 = 0 := by
  decide +kernel

theorem witness_check_pipe :
    (let d := unitOn (showing 0 id) 1 id
     steady d = true ∧ d.cvuOn 2 = true ∧ d.cvuTap 2 = 1 ∧ (d.cvu 2).frame ≠ (d.pt 0).frame.toNat ∧ d.pipeRuns 0 = true ∧ d.runs 6 = true ∧
     (d.lineAt 0 (Nat.min ((d.cvuWindow 2).2.1 + (d.cvuWindow 2).2.2.2) (d.timing 0).vact)).isSome = true) := by decide +kernel

/-- A period of one segment that an audio sink has sent. -/
theorem witness_check_sink :
    (let d : Dev := (unitOn up 0x40 (fun x => { x with state := 1 })).setObj 0x0A 2 5 0x10001
     let e : Dev := { d with audio := { d.audio with ports := [(0, { (d.aport 0) with state := 2 })] } }
     steady e = true ∧ e.cvuOn 2 = true ∧ e.cvuTap 2 = 0x40 + 0 ∧ e.runs 6 = true ∧ (e.cvu 2).ended = [] ∧ ((unitOn up 0x40 (fun x => { x with ended := [7, 8] })).cvu 2).ended = [7, 8]) := by decide +kernel

/-- Operations on unit 2: of the owner and not, on a tap of the program's and another, with a reserved bit set. -/
def unitOp (kind : BitVec 8) (l : List W72) : Op := opOf 8 kind l

theorem witness_check_sample :
    (let d := holding (unitOn up 0x20 (fun x => { x with state := 1 })) (unitOp 1 [2])
     works d (unitOp 1 [2]) 6 = true ∧ fld ((unitOp 1 [2]).word 0) 5 67 = 0 ∧ (unitOp 1 [2]).len = 1 ∧ d.owner 0x0A 2 = 0 ∧ d.cvuOn 2 = true ∧
     tapKind (d.cvuTap 2) = 3 ∧ (d.cvu 2).state ≠ 2) ∧
    works (holding up (unitOp 1 [0x22])) (unitOp 1 [0x22]) 6 = true ∧ fld ((unitOp 1 [0x22]).word 0) 5 67 ≠ 0 ∧
    (up.setObj 0x0A 2 0 16).owner 0x0A 2 ≠ 0 ∧ works (holding (up.setObj 0x0A 2 0 16) (unitOp 1 [2])) (unitOp 1 [2]) 6 = true ∧
    works (holding up (unitOp 1 [2])) (unitOp 1 [2]) 6 = true ∧ (holding up (unitOp 1 [2])).cvuOn 2 = false := by decide +kernel

theorem witness_check_save :
    (let d := holding (unitOn up 0x20 (fun x => { x with state := 1 })) (unitOp 2 [2, 4096])
     works d (unitOp 2 [2, 4096]) 6 = true ∧ fld ((unitOp 2 [2, 4096]).word 0) 5 67 = 0 ∧ fld ((unitOp 2 [2, 4096]).word 1) 48 24 = 0 ∧
     fld ((unitOp 2 [2, 4096]).word 1) 0 48 % 64 = 0 ∧ d.owner 0x0A 2 = 0 ∧ d.cvuOn 2 = true ∧ tapKind (d.cvuTap 2) = 3 ∧ (d.cvu 2).state ≠ 2 ∧
     (∀ r ∈ [0, 5], okB (d.writeWords 0 4096 [BitVec.ofNat 72 ((8 - 1) * 2 ^ 64 + r), 0, 0]) = true)) := by decide +kernel

theorem witness_check_restore :
    (let d : Dev := { holding (unitOn up 0x20 (fun x => { x with state := 2 })) (unitOp 3 [2, 4096]) with mem := memOf 4096 [BitVec.ofNat 72 (7 * 2 ^ 64 + 7), 64, 9] }
     works d (unitOp 3 [2, 4096]) 6 = true ∧ d.cvuOn 2 = true ∧ tapKind (d.cvuTap 2) = 3 ∧ d.owner 0x0A 2 = 0 ∧
     (d.readWords 0 4096 3 .read).2.toOption = some [BitVec.ofNat 72 (7 * 2 ^ 64 + 7), 64, 9] ∧ fld (BitVec.ofNat 72 (7 * 2 ^ 64 + 7)) 64 6 + 1 = (d.crcOf 2).width ∧
     fld (0 : W72) 64 6 + 1 ≠ (d.crcOf 2).width) := by decide +kernel

/-- VITRINE_WRITE of one page, checked, waiting behind another of the same page, and one that cannot be read. -/
def vitrineOp (src : Nat) : Op := opOf 3 1 [BitVec.ofNat 72 vitrineBase, BitVec.ofNat 72 src, 1, 0]

def drawing (d : Dev) : Dev := d.setObj 0x0C 0 1 1

theorem witness_vitrine :
    (let d := holding (drawing (unitOn up 0x10 id)) (vitrineOp 4096)
     works d (vitrineOp 4096) 5 = true ∧ d.runs 6 = true ∧ d.vitrineWaits (vitrineOp 4096) = false ∧
     (d.vitrineCheck (vitrineOp 4096)).2 = some (2, [(vitrineBase, vitrineBase, 4096)]) ∧ (d.cvu 2).refBad = false) ∧
    (let d : Dev := { drawing up with ops := [{ vitrineOp 4096 with id := { id1 with idx := 7 } }, vitrineOp 4096] }
     works d (vitrineOp 4096) 5 = true ∧ d.vitrineWaits (vitrineOp 4096) = true) := by decide +kernel

theorem witness_vitrine_copy :
    (let d := holding (drawing (unitOn up 0x10 id)) (vitrineOp 4096)
     okB ((d.vitrineCheck (vitrineOp 4096)).1.arrive (d.crcOf 2) 0 4096 [(vitrineBase, vitrineBase, 4096)] (d.crcOf 2).init) = true) ∧
    (let d := holding (drawing (unitOn up 0x10 id)) (vitrineOp (2 ^ 40))
     (d.vitrineCheck (vitrineOp (2 ^ 40))).2 = some (2, [(vitrineBase, vitrineBase, 4096)]) ∧ d.vitrineWaits (vitrineOp (2 ^ 40)) = false ∧
     okB ((d.vitrineCheck (vitrineOp (2 ^ 40))).1.arrive (d.crcOf 2) 0 (2 ^ 40) [(vitrineBase, vitrineBase, 4096)] (d.crcOf 2).init) = false) := by decide +kernel

/-- A COPY and a FILL of 64 bytes in one line, their rows overlapping and not, the unit named of each kind. -/
def moveWords (src dst last : Nat) : List W72 := [BitVec.ofNat 72 src, BitVec.ofNat 72 dst, BitVec.ofNat 72 (64 * 2 ^ 40), BitVec.ofNat 72 last]
def moveOp (kind : BitVec 8) (src dst last : Nat) : Op := opOf 2 kind (moveWords src dst last)

theorem witness_copy :
    (let o := moveOp 1 8192 4096 0
     let d := holding up o
     works d o 5 = true ∧ d.dmaStop true o = none ∧ (dmaOf o.desc).unit = none ∧ (dmaOf o.desc).rows = 1 ∧ (dmaOf o.desc).bytes = 64 ∧
     (dmaOf o.desc).dest % 64 = 0 ∧ okB (d.readV 0 8192 64 .read) = true ∧ okB (d.writeV 0 4096 (List.replicate 64 7)) = true ∧
     okB (d.dmaMove true 0 (dmaOf o.desc) (crcPreset 0) (dmaOf o.desc).lines 0) = true) ∧
    dmaOk true (moveWords 4096 4100 0) = false ∧ (holding up (moveOp 1 4096 4100 0)).dmaStop true (moveOp 1 4096 4100 0) = some 0x10 ∧
    (holding up (moveOp 1 4096 4100 0)).dmaWaits (moveOp 1 4096 4100 0) = false ∧ works (holding up (moveOp 1 4096 4100 0)) (moveOp 1 4096 4100 0) 5 = true := by
  decide +kernel

theorem witness_copy_checked :
    (let o := moveOp 1 8192 4096 0x88
     let d := holding (unitOn up 0x30 (fun x => { x with state := 1 })) o
     works d o 5 = true ∧ d.dmaWaits o = false ∧ d.dmaStop true o = none ∧ (dmaOf o.desc).unit = some 2 ∧
     okB (d.dmaMove true 0 (dmaOf o.desc) (d.crcOf 2) (dmaOf o.desc).lines (d.dmaStart o (dmaOf o.desc) 2)) = true ∧ d.cvuOn 2 = true ∧ d.cvuTap 2 = 0x30 ∧
     dmaOk true o.desc = true ∧ d.owner 0x0A 2 = o.fn ∧ (d.setObj 0x0A 2 0 16).owner 0x0A 2 ≠ 0) := by decide +kernel

theorem witness_fill :
    (let o := moveOp 2 5 4096 0
     let d := holding up o
     works d o 5 = true ∧ d.dmaStop false o = none ∧ (dmaOf o.desc).unit = none ∧ (dmaOf o.desc).rows = 1 ∧ (dmaOf o.desc).bytes = 64 ∧
     okB (d.writeV 0 4096 ((List.range 64).map (fun i => BitVec.ofNat 8 ((dmaOf o.desc).pattern.toNat / 256 ^ (i % 9))))) = true ∧
     okB (d.dmaMove false 0 (dmaOf o.desc) (crcPreset 0) (dmaOf o.desc).lines 0) = true) := by decide +kernel
/-! Display. -/

/-- FramesAndStamps: a VBLANK at its instant and one that is none; the first active line of a lit frame, of a dark one; an adaptive hold ended and not. -/
theorem witness_vblank :
    (let d := showing 0 id
     steady d = true ∧ d.pipeRuns 0 = true ∧ d.now ≤ 1000000000 ∧ d.vblankDue 0 1000000000 = true ∧
     (d.frameOf 0).map (fun f => f.n) = some (d.pt 0).frame.toNat ∧ d.commits = [] ∧ d.vblankDue 0 1000500000 = false ∧ up.pipeRuns 0 = false) := by decide +kernel

theorem witness_first_line :
    (let d := showing 0 (fun x => { x with firstLine := none })
     steady d = true ∧ d.pipeRuns 0 = true ∧ d.now ≤ 1000000000 ∧ (d.frameOf 0).map (fun f => f.n) = some (d.pt 0).frame.toNat ∧
     (d.pt 0).firstLine = none ∧ d.frameDark 0 = false ∧ d.scanStart 0 = some 991111111) ∧
    (let d := showing 0 (fun x => { x with firstLine := none, lastVb := some 999000000, mark := 999000000, vbAt := 999000000 })
     d.scanStart 0 = some 1000111111 ∧ d.frameDark 0 = false ∧ near 1000111110 1000111111 = true ∧ near 1000111112 1000111111 = true) ∧
    (let d := (showing 0 (fun x => { x with firstLine := none, lastVb := some 999000000, mark := 999000000, vbAt := 999000000 })).setDport 0 (up.dport 0)
     d.frameDark 0 = true ∧ d.mustShowNow 0 = false ∧ d.scanStart 0 = some 1000111111 ∧ steady d = true) := by decide +kernel

theorem witness_hold :
    (let d := showing (2 ^ 14) id
     steady d = true ∧ (d.activeEndAt 0).isSome = true ∧ d.now ≤ 1000000000 ∧ d.pipeRuns 0 = true ∧ d.adaptive 0 = true ∧ (d.pt 0).hold = none ∧
     (d.activeEndAt 0).map (fun e => stampOf (((1000000000 : Nat) - e) / pixelsNs ((d.timing 0).htotal : Nat) (d.pt 0).inc.toNat)) = some 0 ∧
     near 1000000000 (d.holdLine 0 0) = true ∧ d.holdLimit 0 0 = true) ∧
    (let d := (showing (2 ^ 14) id).setObj 0x01 0 4 (BitVec.ofNat 72 (2 ^ 26))
     steady d = true ∧ d.holdEnds 0 1000000000 = false ∧ d.holdLimit 0 0 = false ∧ d.holdLimit 0 1 = true ∧ d.holdLine 0 1 = 1000138889 ∧
     (d.activeEndAt 0).map (fun e => stampOf (((1000138889 : Nat) - e) / pixelsNs ((d.timing 0).htotal : Nat) (d.pt 0).inc.toNat)) = some 1) ∧
    (let d : Dev := { showing (2 ^ 14) id with disp := { (showing (2 ^ 14) id).disp with
       flips := [{ id := id1, fn := 0, pipe := 0, at_ := 999998000, frame := none, late := false }] } }
     d.holdEnds 0 1000000000 = true ∧ d.holdEnds 0 999999999 = false) ∧ up.activeEnd 0 = none ∧ (up.pt 0).firstLine = none := by decide +kernel

/-- DisplayOperations. -/
theorem witness_flip : (∀ p ∈ [0, 11, 12], works (holding up (opOf 4 1 [BitVec.ofNat 72 p])) (opOf 4 1 [BitVec.ofNat 72 p]) 10 = true) ∧
    up.seesPipe 0 11 = true ∧ up.seesPipe 5 11 = false ∧ up.disp.flips = [] := by decide +kernel

theorem witness_mode_read :
    (let o := opOf 4 2 [0x200, 4096]
     works (holding (screen 0 id) o) o 10 = true ∧ (screen 0 id).modeEntry 0x200 = modeWords ∧ bit (nth modeWords 0 0) 71 = true ∧
     bit (nth (up.modeEntry 0x280) 0 0) 71 = false ∧ okB ((holding (screen 0 id) o).writeWords 0 4096 modeWords) = true ∧
     okB ((holding (screen 0 id) o).writeWords 0 (2 ^ 40) modeWords) = false) ∧
    works (holding up (opOf 4 2 [0x400, 4096])) (opOf 4 2 [0x400, 4096]) 10 = true ∧ fld (0x400 : W72) 10 62 ≠ 0 := by decide +kernel

theorem witness_mode_define :
    (let o := opOf 4 3 (0x240 :: modeWords)
     works (holding up o) o 10 = true ∧ up.manager = 0 ∧ up.modeNamed 0x240 = false ∧ fld (o.word 0) 10 60 = 0 ∧ (definedEntry o).isSome = true ∧
     (match definedEntry o with | some l => (timingOf l).ok | none => false) = true ∧ definedEntry (opOf 4 3 [BitVec.ofNat 72 (3 * 2 ^ 70), 0, 0, 0, 0]) = none) ∧
    (screen 0 id).modeNamed 0x200 = true ∧ works (holding up { opOf 4 3 [] with fn := 5 }) { opOf 4 3 [] with fn := 5 } 10 = true := by decide +kernel

/-- An AUX write of one byte to sink address 0x200 of port 0, and a read; a port that has no sink. -/
def msgWord (kind : Nat) : W72 := BitVec.ofNat 72 (kind * 2 ^ 68 + 2 ^ 56 + 0x200 * 2 ^ 28)

theorem witness_messages : portMsgOk (opOf 4 4 [msgWord 0, 4096]) = true ∧ portMsgOk (opOf 4 4 [msgWord 1, 4096]) = true ∧ portMsgOk (opOf 4 4 [msgWord 9, 4096]) = false ∧
    (∀ k ∈ [0, 1, 9], works (holding (screen 0 id) (opOf 4 4 [msgWord k, 4096])) (opOf 4 4 [msgWord k, 4096]) 10 = true) ∧ msgReads 1 = true ∧ msgReads 0 = false ∧
    ((screen 0 id).dport 0).link = 2 ∧ ((screen 0 id).dport 0).hpd = true ∧ (up.dport 0).link = 0 ∧ up.mayMessage 0 0 = true ∧ up.mayMessage 5 1 = false ∧
    up.disp.msgs = [] ∧ okB ((screen 0 id).readV 0 4096 1 .read) = true ∧ okB ((screen 0 id).readV 0 (2 ^ 40) 1 .read) = false := by decide +kernel

theorem witness_replies :
    (let o := opOf 4 4 [msgWord 1, 4096]
     let d : Dev := { holding (screen 0 id) o with disp := { (screen 0 id).disp with msgs := [(id1, 990000000, 7)] } }
     steady d = true ∧ d.awake = true ∧ d.op id1 = some o ∧ o.phase = .started ∧ d.disp.msgs.find? (fun m => m.1 = id1) = some (id1, 990000000, 7) ∧
     990000000 + 10000000 ≤ Nat.max d.now 0 ∧ okB (d.writeV 0 4096 [1]) = true) ∧
    (let d : Dev := { up with disp := { up.disp with msgs := [(id1, 990000001, 0)] } }
     d.disp.msgs.find? (fun m => m.1 = id1) = some (id1, 990000001, 0) ∧ Nat.max d.now 0 < 990000001 + 10000000) := by decide +kernel

/-- GenlockAndTearing: good periods short of eight and the eighth, a small phase, a third bad period. -/
def locking (h : PipeTime → PipeTime) : Dev := showing (2 ^ 15) h

theorem witness_genlock :
    (let d := locking (fun x => { x with glk := 1, good := 6 }); (d.pt 0).glk = 1 ∧ d.inRange 0 640000000 = true ∧ (d.pt 0).good < 7) ∧
    (let d := locking (fun x => { x with glk := 1, good := 7 }); d.inRange 0 640000000 = true ∧ 7 ≤ (d.pt 0).good) ∧
    (let d := locking (fun x => { x with glk := 2 }); (d.pt 0).glk = 2 ∧ absRat (d.phase 0 (990000000 * 64 + 32000)) ≤ 500 ∧
      500 < absRat (d.phase 0 (990000000 * 64 + 32001))) ∧
    (let d := locking (fun x => { x with glk := 3, bad := 2 }); (d.pt 0).glk = 3 ∧ d.inRange 0 700000000 = false ∧ 2 ≤ (d.pt 0).bad) := by decide +kernel

theorem witness_genlock_edges :
    (let x : GlkIn := { period := 0, lastEdge := some 64000000000, lastLine := none, linePeriod := none }
     let d : Dev := { up with disp := { up.disp with glks := [(1, x)] } }
     steady d = true ∧ d.awake = true ∧ tfind d.disp.glks 1 = some x ∧ (∀ p, p < 12 → d.follows p 1 = false)) ∧
    (let d := locking (fun x => { x with glk := 3, lastEdge := some (63200000000) })
     steady d = true ∧ (d.pt 0).lastEdge = some 63200000000 ∧ d.pipeRuns 0 = true ∧ (d.pt 0).glk = 3 ∧ stampOf ((63200000000 : Rat) / 64 + 5 / 4 * d.pn 0) ≤ d.now) ∧
    (let d := locking (fun x => { x with glk := 3, lastEdge := some (63200000033) })
     d.now < stampOf ((63200000033 : Rat) / 64 + 5 / 4 * d.pn 0)) ∧
    (let d := locking (fun x => { x with offsetUntil := some 1000000000 }); steady d = true ∧ (d.pt 0).offsetUntil = some 1000000000 ∧ d.pipeRuns 0 = true) := by
  decide +kernel

/-- A tearing edge half a frame after the last one, one a nanosecond too early, and one missed for a frame and a half. -/
theorem witness_tearing :
    (let d := (showing (2 ^ 12) (fun x => { x with teLast := some 995000000 })).setObj 0x01 0 4 (BitVec.ofNat 72 (2 ^ 24))
     steady d = true ∧ d.teCounts 0 1000000000 false = true ∧ fld (d.obj 0x01 0 4) 24 2 = 1 ∧ d.now ≤ 1000000000) ∧
    (let d := showing (2 ^ 12) (fun x => { x with teLast := some 995000001 }); d.teCounts 0 1000000000 false = false) ∧
    (let d := showing (2 ^ 12) (fun x => { x with teLast := some 985000000 })
     steady d = true ∧ d.pipeRuns 0 = true ∧ d.dsiCmd 0 = true ∧ (d.pt 0).teMissing = false ∧ (d.dport (d.pipePort 0)).link = 2 ∧
     2 * d.teBase 0 + 3 * d.framePeriod 0 = 2 * d.now) ∧
    (let d := showing (2 ^ 12) (fun x => { x with teLast := some 985000001 }); 2 * d.now < 2 * d.teBase 0 + 3 * d.framePeriod 0) := by decide +kernel

/-- DisplayLinks: losses that fit a port and do not, with a pipe that must show and one that need not; retries, trainings, panel steps. -/
def linked (q : Nat) (h : DispPort → DispPort) : Dev := up.setDport q (h (up.dport q))
def driven (q : Nat) (h : DispPort → DispPort) : Dev := (linked q h).setObj 0x01 0 1 (BitVec.ofNat 72 (2 ^ 31 + q * 2 ^ 16))

theorem witness_losses : steady up = true ∧ up.awake = true ∧ lossFits 3 .hpdLow = true ∧ lossFits 4 .hpdLow = false ∧ lossFits 4 .lockLost = true ∧
    lossFits 8 .busContention = true ∧ (linked 4 (fun x => { x with link := 2 })).portPipe 4 = none ∧ (driven 4 (fun x => { x with link := 2 })).portPipe 4 = some 0 ∧
    (driven 4 id).mustShowNow 0 = false ∧ ((driven 4 id).setObj 0x04 0 1 3).mustShowNow 0 = true ∧ (driven 4 id).pipePort 0 = 4 ∧
    ((linked 4 (fun x => { x with link := 2 })).dport 4).link = 2 ∧ (up.dport 4).link ≠ 1 := by decide +kernel

theorem witness_links_trained :
    (let d := linked 0 (fun x => { x with link := 4, hpd := true, trainFrom := 0 })
     (d.dport 0).hpd = true ∧ (d.dport 0).link = 4 ∧ (d.dport 0).trainFrom + 1000000000 ≤ Nat.max d.now 0) ∧
    (let d := linked 4 (fun x => { x with link := 3, trainFrom := 900000000 }); (d.dport 4).link = 3 ∧ (d.dport 4).trainFrom + 100000000 ≤ Nat.max d.now 0) ∧
    (∀ n ∈ [1, 2], ((linked 4 (fun x => { x with link := 1, tries := n })).dport 4).tries = n ∧ (linked 4 (fun x => { x with link := 1, tries := n })).portPipe 4 = none) ∧
    (let d := driven 0 (fun x => { x with link := 1, edp := true }); d.portPipe 0 = some 0 ∧ (d.dport 0).link = 1 ∧ (d.dport 0).edp = true ∧ steady d = true) ∧
    (let d := driven 4 (fun x => { x with link := 1 })
     d.portPipe 4 = some 0 ∧ (d.panelSteps 4).length ≤ (d.dport 4).initStep ∧ (d.dport 4).initDue ≤ Nat.max d.now 0) ∧
    (let p : PanelStep := { kind := 0, type := 0, addr := 0, data := [], delay := 5 }
     let d : Dev := { linked 4 (fun x => { x with link := 1 }) with disp := { (linked 4 (fun x => { x with link := 1 })).disp with panelInit := [(4, [p])] } }
     steady d = true ∧ (d.panelSteps 4)[(d.dport 4).initStep]? = some p ∧ (d.dport 4).link = 1 ∧ (d.dport 4).initFails = 0 ∧ d.portPipe 4 = none) := by decide +kernel
/-! Touch and haptics. -/

/-- A report descriptor of a touch screen of one finger, the same without Contact Count, and a report of a touch at (500, 5): tip, identifier, x, y, count. -/
def fingerItems : List Byte :=
  [0x05, 0x0D, 0x09, 0x04, 0xA1, 0x01, 0x09, 0x22, 0xA1, 0x02, 0x09, 0x42, 0x15, 0x00, 0x25, 0x01, 0x75, 0x01, 0x95, 0x01, 0x81, 0x02, 0x75, 0x07, 0x81, 0x03,
   0x09, 0x51, 0x25, 0x7F, 0x75, 0x08, 0x81, 0x02, 0x05, 0x01, 0x09, 0x30, 0x26, 0xE8, 0x03, 0x75, 0x10, 0x81, 0x02, 0x09, 0x31, 0x81, 0x02, 0xC0]
def aDescriptor : List Byte := fingerItems ++ [0x05, 0x0D, 0x09, 0x54, 0x25, 0x0A, 0x75, 0x08, 0x81, 0x02, 0xC0]
def aDesc : HidDesc := hidDesc aDescriptor
def aReport : List Byte := [1, 9, 0xF4, 1, 5, 0, 1]

theorem test_descriptor : descUsable aDescriptor = true ∧ descUsable (fingerItems ++ [0xC0]) = false ∧ descUsable (List.replicate 4097 0) = false ∧ aDesc.fingers = 1 ∧
    (match aDesc.report aReport with | some (1, [f]) => f.tip && f.id = 9 && decide (f.x = 500) && decide (f.y = 5) && decide (f.xMax = 1000) | _ => false) = true ∧
    aDesc.report [1, 9, 0xF4, 1, 5, 0] = none := by decide +kernel

/-- Channel 1 enabled with a transport (0 HID, 1 raw, of 2 × 2 nodes), four contacts at most and a timeout of 100 ms. -/
def touching (transport : Nat) (h : TouchChan → TouchChan) : Dev :=
  let d := ((up.setObj 0x09 1 1 (BitVec.ofNat 72 (2 ^ 31 + transport * 2 ^ 26))).setObj 0x09 1 2 (BitVec.ofNat 72 (2 * 2 ^ 40 + 2 * 2 ^ 32))).setObj 0x09 1 6 (BitVec.ofNat 72 (100 * 2 ^ 12 + 4))
  d.setTch 1 (h { d.tch 1 with state := 3, desc := some aDesc })
def aFinger (x : Int) : Finger := { tip := true, confidence := true, id := 1, x := x, y := 5, xMin := 0, xMax := 1000, yMin := 0, yMax := 1000, width := 1, height := 1, pressure := 1 }
def aContact : Contact :=
  { num := 0, serial := 0, ident := 0, owner := 0, px := 0, py := 0, x := 0, y := 0, sentX := 0, sentY := 0, width := 0, height := 0, pressure := 0, sentPressure := 0, absent := 0
    fresh := false }
def rawBytes (h : Byte) (n : Nat) : List Byte := [h, 0, 2, 2] ++ List.replicate n 1

theorem witness_touch_reports :
    (let d := touching 0 id
     steady d = true ∧ (d.tch 1).desc = some aDesc ∧ (d.tch 1).state = 3 ∧ fld (d.tw 1 1) 26 2 = 0 ∧ d.runs 9 = true ∧
     (aDesc.report aReport).isSome = true ∧ aDesc.report [] = none ∧ (∀ n ∈ [0, 1, 2], (aDesc.report [1, 9, 0xF4, 1, 5, 0, BitVec.ofNat 8 n]).map (fun x => (x.1, x.2.length)) = some (n, 1)) ∧
     (∀ n ∈ [1, 2], ((touching 0 (fun x => { x with scanLeft := n })).tch 1).scanLeft = n)) ∧
    (up.tch 1).desc = none ∧ (aFinger (-1)).x < (aFinger (-1)).xMin ∧ (aFinger 1001).xMax < (aFinger 1001).x ∧
    (let d := touching 0 (fun x => { x with contacts := List.replicate 4 aContact })
     (d.tch 1).contacts.length ≤ Nat.min 10 (fld (d.tw 1 6) 0 4)) := by decide +kernel

theorem witness_touch_frames :
    (∀ n ∈ ([2, 3] : List (BitVec 3)), (let d := touching 1 (fun x => { x with state := n, learnt := 31, baseline := [9, 9, 9, 9], sums := [1, 1, 1, 1] })
     steady d = true ∧ (d.tch 1).state = n ∧ fld (d.tw 1 1) 26 2 = 1 ∧ d.runs 9 = true ∧ d.grid 1 = (2, 2) ∧ 31 ≤ (d.tch 1).learnt)) ∧
    ((touching 1 (fun x => { x with state := 2, learnt := 30 })).tch 1).learnt < 31 ∧ natAt (rawBytes 0x5A 8) 0 1 = 0x5A ∧ natAt (rawBytes 0x5A 8) 2 1 = 2 ∧
    natAt (rawBytes 0x5A 8) 3 1 = 2 ∧ (rawBytes 0x5A 8).length = 4 + 2 * (2 * 2) ∧ (rawBytes 0x5A 7).length < 4 + 2 * (2 * 2) ∧ natAt (rawBytes 0x5B 8) 0 1 ≠ 0x5A ∧
    (touching 0 id).grid 1 = (2, 2) ∧ (peaksOf 2 2 [9, 1, 1, 1] 5).length = 1 ∧
    (∀ n ∈ [1, 2], ((touching 1 (fun x => { x with errRun := n })).tch 1).errRun = n) := by decide +kernel

theorem witness_touch_states :
    (let d := touching 0 (fun x => { x with contacts := [aContact], lastStamp := 900000000 })
     steady d = true ∧ (d.tch 1).state = 3 ∧ (d.tch 1).contacts ≠ [] ∧ d.runs 9 = true ∧
     (d.tch 1).lastStamp.toNat + fld (d.tw 1 6) 12 8 * 1000000 ≤ Nat.max d.now 0) ∧
    (let d := touching 0 (fun x => { x with contacts := [aContact], lastStamp := 900000001 })
     Nat.max d.now 0 < (d.tch 1).lastStamp.toNat + fld (d.tw 1 6) 12 8 * 1000000) ∧
    (∀ n ∈ ([0, 1, 3] : List (BitVec 3)), (let d := touching 0 (fun x => { x with state := n }); bit (d.tw 1 1) 31 = true ∧ d.runs 9 = true ∧ (d.tch 1).state = n)) ∧
    bit (up.tw 1 1) 31 = false ∧ (((touching 0 id).touchStart 1).tch 1).state = 1 ∧
    (let d := touching 0 (fun x => { x with state := 4, faultAt := 900000000 }); (d.tch 1).state = 4 ∧ (d.tch 1).faultAt + 100000000 ≤ Nat.max d.now 0) ∧
    (let d := touching 0 (fun x => { x with state := 4, faultAt := 900000001 }); Nat.max d.now 0 < (d.tch 1).faultAt + 100000000) := by decide +kernel

/-- TOUCH_RECEIVE of one record, two, 1024 and none; a record held for the function. -/
def receiveOp (n : Nat) : Op := opOf 7 1 [4096, BitVec.ofNat 72 n]
def holdsRec (l : List (List W72)) : Dev := up.setTfn 0 { up.tfn 0 with held := l }

theorem witness_touch_receive : (∀ n ∈ [0, 1, 2, 1024, 1025], works (holding (holdsRec [[1, 0, 0, 0, 0]]) (receiveOp n)) (receiveOp n) 9 = true ∧
      fld ((receiveOp n).word 1) 0 11 = n) ∧
    ((holdsRec [[1, 0, 0, 0, 0]]).tfn 0).held = [[1, 0, 0, 0, 0]] ∧ ((holdsRec []).tfn 0).held = [] ∧ ((holdsRec []).tfn 0).bufs = [] ∧ recWaits [1, 0, 0, 0, 0] = false ∧
    fld ((receiveOp 1).word 0) 48 24 = 0 ∧ fld ((receiveOp 1).word 1) 11 61 = 0 ∧ fld ((receiveOp 1).word 0) 0 48 = 4096 ∧
    okB ((holdsRec [[1, 0, 0, 0, 0]]).writeWords 0 4096 [1, 0, 0, BitVec.ofNat 72 (2 ^ 56)]) = true := by decide +kernel

theorem witness_touch_baseline :
    (∀ k ∈ ([2, 3] : List (BitVec 8)), works (holding (touching 1 id) (opOf 7 k [1])) (opOf 7 k [1]) 9 = true ∧ (touching 1 id).rawActive (opOf 7 k [1]) = true ∧
      (touching 0 id).rawActive (opOf 7 k [1]) = false ∧ works (holding up (opOf 7 k [12])) (opOf 7 k [12]) 9 = true ∧
      works (holding up { opOf 7 k [1] with fn := 5 }) { opOf 7 k [1] with fn := 5 } 9 = true) ∧ up.owner 0x09 1 = 0 ∧ up.manager = 0 := by decide +kernel

def slotOp (kind : BitVec 8) (l : List W72) : Op := opOf 6 kind l
def loaded (h : Option Nat) : Dev := up.setEffSlot 3 { holder := h, samples := [1, 2], emptyAfter := false }
def playing (h : Option Nat) : Dev := (loaded h).setHch 2 { (up.hch 2) with state := 2, ofSlot := true, slot := 3 }
def granted (o : Op) (owned held empty : List Nat) (manager : Bool) : Op := { o with rights := some { owned := owned, held := held, empty := empty, manager := manager } }

theorem witness_slots :
    (∀ n ∈ [0, 1, 4096, 4097], (let o := granted (slotOp 1 [3, 4096, BitVec.ofNat 72 n]) [] [] [3] false; works (holding up o) o 8 = true ∧ o.slotEmpty 3 = true ∧ o.holdsSlot 3 = false) ∧
      fld ((slotOp 1 [3, 4096, BitVec.ofNat 72 n]).word 2) 0 13 = n) ∧
    ((loaded (some 5)).effSlot 3).holder = some 5 ∧ ((loaded (some 0)).effSlot 3).holder = some 0 ∧ (up.effSlot 3).holder = none ∧
    (loaded (some 0)).slotPlaying 3 = false ∧ (playing (some 0)).slotPlaying 3 = true ∧ okB (up.readWords 0 4096 1 .read) = true ∧
    okB (up.readWords 0 (2 ^ 40) 1 .read) = false ∧ works (holding (playing (some 0)) (slotOp 2 [3])) (slotOp 2 [3]) 8 = true ∧
    works (holding (loaded (some 0)) { slotOp 2 [3] with fn := 5 }) { slotOp 2 [3] with fn := 5 } 8 = true ∧ (slotOp 2 [3]).holdsSlot 3 = false ∧
    (granted (slotOp 2 [3]) [] [3] [] false).holdsSlot 3 = true ∧ (granted (slotOp 2 [3]) [] [] [] true).byManager = true ∧ (slotOp 2 [3]).byManager = false ∧
    works (holding up (slotOp 2 [0x43])) (slotOp 2 [0x43]) 8 = true := by decide +kernel

/-- Channel 2 enabled. -/
def haptics (d : Dev) (h : HapChan → HapChan) : Dev := (d.setObj 0x07 2 1 (BitVec.ofNat 72 (2 ^ 31))).setHch 2 (h (d.hch 2))
def playWord : W72 := BitVec.ofNat 72 (255 * 2 ^ 10 + 3 * 2 ^ 4 + 2)
def streamOp (n : Nat) : Op := slotOp 4 [BitVec.ofNat 72 (n * 2 ^ 4 + 2), 4096]

theorem witness_plays :
    (let o := granted (slotOp 3 [playWord]) [2] [3] [] false
     let d := holding (haptics (loaded (some 0)) id) o
     works d o 8 = true ∧ o.ownsChannel 2 = true ∧ o.holdsSlot 3 = true ∧ (slotOp 3 [playWord]).ownsChannel 2 = false ∧ fld playWord 0 4 = 2 ∧ fld playWord 4 6 = 3 ∧ fld playWord 18 54 = 0 ∧ (d.hch 2).holds id1 = false ∧ d.owner 0x07 2 = 0 ∧
     (d.effSlot 3).holder = some 0 ∧ bit (d.hw 2 1) 31 = true) ∧ (up.hch 2).holds id1 = false ∧ bit (up.hw 2 1) 31 = false ∧
    works (holding (loaded (some 0)) (slotOp 3 [playWord])) (slotOp 3 [playWord]) 8 = true ∧ fld (BitVec.ofNat 72 (2 ^ 18) : W72) 18 54 ≠ 0 := by decide +kernel

theorem witness_streams :
    (∀ n ∈ [1, 4096], (let o := granted (streamOp n) [2] [] [] false; works (holding (haptics up id) o) o 8 = true ∧ (holding (haptics up id) o).streamWaits o = false ∧ o.ownsChannel 2 = true) ∧ (streamOp n).ownsChannel 2 = false ∧ fld ((streamOp n).word 0) 4 13 = n ∧ fld ((streamOp n).word 0) 17 55 = 0) ∧
    (let d := haptics up (fun x => { x with queue := List.replicate 8 { id := { id1 with idx := 9 }, samples := [], sent := 0, released := 0 } })
     8 ≤ (d.hch 2).queue.length ∧ (∀ b ∈ (d.hch 2).queue, b.id ≠ id1)) ∧ (up.hch 2).queue = [] ∧
    arrives (haptics (loaded (some 0)) id) 0 = true ∧ bit (BitVec.ofNat 32 (2 ^ 31 + 3 * 2 ^ 16 + 255)) 31 = true ∧
    fld (BitVec.ofNat 32 (2 ^ 31 + 3 * 2 ^ 16 + 255)) 16 6 = 3 ∧ (haptics (loaded (some 0)) id).owner 0x07 2 = 0 ∧
    bit ((haptics (loaded (some 0)) id).hw 2 1) 31 = true ∧ ((haptics (loaded (some 0)) id).effSlot 3).holder = some 0 := by decide +kernel

theorem witness_haptic_samples : up.runs 8 = true ∧ up.haptic.samples = 0 ∧ steady up = true ∧
    up.haptic.sampleAt 1000000000 = some 0 ∧ (let h : Haptic := { up.haptic with samples := 1, lastAt := 1000000000, origin := some (1000000000, 0) }
      h.sampleAt 1000041665 = some 1 ∧ h.sampleAt 1000041669 = some 1 ∧ h.sampleAt 1000041670 = none ∧ h.sampleAt 1000000000 = none ∧ h.sampleAt 1000083333 = some 2) ∧
    (∀ c, c < 16 → (senseOf (nth (List.replicate 4 (List.replicate 16 (0 : BitVec 32))) (c / 4) []) (c % 4)).fault = false) ∧
    (let d := haptics up (fun x => { x with state := 4 }); bit (d.hw 2 1) 31 = true ∧ (d.hch 2).state = 4) ∧ ((haptics up id).hch 2).state ≠ 4 := by decide +kernel
/-! Audio. -/

def sound (h : Audio → Audio) : Dev := { up with audio := h { up.audio with running := true, startAt := 0, state := 0 } }
def aGraph (ramp : Nat) : Graph := { id := 7, rampMs := ramp, nodes := [], edges := [], consts := [], progs := [(0, { entry := 0, limit := 10, words := [] })] }

theorem witness_samples :
    (let d := sound (fun a => { a with count := 1 }); steady d = true ∧ d.sampleReady 0 = true ∧ d.audio.count % 48 ≠ 0 ∧ d.audio.state ≠ 4) ∧
    up.sampleReady 0 = false ∧
    (let d := sound (fun a => { a with count := 48 }); d.sampleReady 0 = true ∧ d.audio.count % 48 = 0 ∧ d.audio.blockDone 48 = false ∧ d.commits = [] ∧ d.audio.loaded = none) ∧
    (let d := sound (fun a => { a with count := 48, stampReg := BitVec.ofNat 64 250000 }); d.audio.blockDone 48 = true) ∧
    (let d := sound (fun a => { a with count := 1, state := 2, graph := some (aGraph 10) }); d.sampleReady 0 = true ∧ d.audio.active = some (aGraph 10) ∧ d.audio.state = 2) := by
  decide +kernel

theorem witness_blocks :
    (let d : Dev := { sound (fun a => { a with count := 48, loaded := some (aGraph 0, id1, 250000) }) with ops := [opOf 5 1 []] }
     d.audio.loaded = some (aGraph 0, id1, 250000) ∧ 250000 ≤ d.audio.stamp 48 ∧ d.op id1 = some (opOf 5 1 []) ∧ (opOf 5 1 []).phase = .started ∧ d.commits = [] ∧
     d.sampleReady 0 = true ∧ d.audio.blockDone 48 = false) := by decide +kernel

/-- A GRAPH_LOAD of no program whose table has no node: its header, and what it loads. -/
def graphOp (l : List W72) : Op := opOf 5 1 l
def stopOf (w : W72) : Op := opOf 5 2 [w]

theorem witness_graph_load :
    (let o := graphOp [4096, 0, 0, 0, 0]
     works (holding up o) o 7 = true ∧ up.audio.state ≠ 2 ∧ up.audio.state ≠ 4 ∧ up.audio.loaded = none ∧ (∀ i, i < 5 → fld (o.word i) 48 24 = 0)) ∧
    works (holding up (graphOp [BitVec.ofNat 72 (2 ^ 48)])) (graphOp [BitVec.ofNat 72 (2 ^ 48)]) 7 = true ∧
    works (holding up { graphOp [] with fn := 5 }) { graphOp [] with fn := 5 } 7 = true ∧
    works (holding (sound (fun a => { a with state := 2 })) (graphOp [])) (graphOp []) 7 = true := by decide +kernel

theorem witness_graph_programs : up.loadProgs 0 0 [0, 0, 0, 0] = (up, .ok []) ∧
    (match (up.loadProgs 0 0 [65, 0, 0, 0]).2 with | .error .range => true | _ => false) = true ∧
    (match (up.loadProgs 0 0 [2 ^ 40, 0, 0, 0]).2 with | .error (.fault _ _) => true | _ => false) = true := ⟨rfl, by decide +kernel, by decide +kernel⟩

theorem witness_graph_stop : works (holding up (stopOf 0)) (stopOf 0) 7 = true ∧ works (holding up (stopOf 1)) (stopOf 1) 7 = true ∧ up.audio.active = none ∧
    (let d := sound (fun a => { a with state := 1, graph := some (aGraph 0) }); d.audio.active.isSome = true ∧ d.audio.state ≠ 4 ∧ d.audio.loaded = none) ∧
    (let d := sound (fun a => { a with state := 4, graph := some (aGraph 0) }); d.audio.active.isSome = true ∧ d.audio.state = 4) := by decide +kernel

/-- Node 3 of a kind with stream 5. -/
def streaming (t : Nat) : Dev := (up.setObj 0x05 3 1 (BitVec.ofNat 72 (t * 2 ^ 10))).setObj 0x05 3 2 5
def playOp (cap : Bool) (n : Nat) : Op := opOf 5 (if cap then 4 else 3) [BitVec.ofNat 72 n, 4096, 48, 0]
def aBuf (i : Nat) : StreamOp := { id := { id1 with idx := i }, addr := 0, frames := 1, recAt := 0, done := 0, first := none, flags := 0, status := 0 }

theorem witness_streams_queued :
    works (holding (streaming 1) (playOp false 5)) (playOp false 5) 7 = true ∧ streamDescOk false (playOp false 5) = true ∧ (streaming 1).ownsStream 0 1 5 = true ∧
    works (holding (streaming 2) (playOp true 5)) (playOp true 5) 7 = true ∧ streamDescOk true (playOp true 5) = true ∧ (streaming 2).ownsStream 0 2 5 = true ∧
    streamDescOk true (playOp true 32) = false ∧ streamDescOk true (playOp true 31) = true ∧ (up.stream false 5).queue = [] ∧
    (let d := up.setStream false 5 { (up.stream false 5) with queue := (List.range 16).map (fun i => aBuf (i + 1)) }
     16 ≤ (d.stream false 5).queue.length) ∧
    (let d := up.setStream true 5 { (up.stream true 5) with queue := [aBuf 0] }; ∃ b ∈ (d.stream true 5).queue, b.id = id1) := by decide +kernel

theorem witness_stream_of_another : up.ownsStream 5 1 5 = false := by decide +kernel

def hsOp (n : Nat) : Op := opOf 5 5 [BitVec.ofNat 72 n]

theorem witness_headset_waits : (∀ n ∈ [9, 10, 11, 12], works (holding up (hsOp n)) (hsOp n) 7 = true ∧ fld ((hsOp n).word 0) 0 4 = n) ∧
    fld ((hsOp 10).word 0) 4 4 = 0 ∧ fld ((hsOp 10).word 0) 16 56 = 0 ∧ up.owner 0x06 10 = 0 ∧ (up.setObj 0x06 10 0 16).owner 0x06 10 ≠ 0 ∧ up.audio.waits = [] ∧
    (up.aport 10).code = fld ((hsOp (10 + 256 * (up.aport 10).code)).word 0) 8 8 ∧ (up.aport 10).code ≠ 0xFF := by decide +kernel

theorem witness_converters :
    (let c : Conv := Conv.atReset
     let d : Dev := { streaming 1 with audio := { (streaming 1).audio with running := true, convs := [(3, c)] } }
     steady d = true ∧ tfind d.audio.convs 3 = some c ∧ fld (d.obj 0x05 3 1) 10 6 = 1 ∧ d.audio.running = true ∧ d.runs 7 = true ∧ c.state = 1) ∧
    up.audio.running = false ∧
    (let d := (up.setObj 0x06 0 1 (BitVec.ofNat 72 (2 ^ 31 + 2 ^ 30 + 3 * 2 ^ 24))).setAport 0 { (up.aport 0) with state := 2 }
     steady d = true ∧ bit (d.obj 0x06 0 1) 31 = true ∧ bit (d.obj 0x06 0 1) 30 = true ∧ (d.aport 0).state = 2 ∧ d.rateGood 0 0 = false ∧ d.rateGood 0 44100000 = true ∧
     d.rateGood 0 44144100 = true ∧ d.rateGood 0 44144101 = false) ∧
    ((up.setAport 0 { (up.aport 0) with state := 3 }).aport 0).state = 3 ∧ (up.aport 0).state ≠ 3 := by decide +kernel

theorem witness_headsets :
    (let d := (up.setObj 0x06 10 1 (BitVec.ofNat 72 (2 ^ 31 + 1))).setAport 10 { (up.aport 10) with state := 1, det := 198 }
     steady d = true ∧ d.runs 7 = true ∧ bit (d.obj 0x06 10 1) 31 = true ∧ d.audio.waits = [] ∧ ((d.aport 10).hsStep true true 900).code = (d.aport 10).code ∧
     ((d.aport 10).hsStep true true 900).state = 1) ∧
    (let x : AudPort := { (up.aport 10) with state := 1, det := 199 }; (x.hsStep true true 900).state = 2 ∧ (x.hsStep true true 900).code ≠ x.code) ∧
    (let x : AudPort := { (up.aport 10) with state := 2, settle := 29, sum := 8100, det := 250 }
     (x.hsStep true true 900).code ≠ x.code ∧ (x.hsStep true true 900).state = 3) ∧
    (let x : AudPort := { (up.aport 10) with state := 3, hsType := 2, band := 1, bandMs := 19, rel := 0 }; (x.hsStep true true 120).button = 1 ∧ micBand 120 = 1) ∧
    micBand 121 = 0 ∧ micBand 800 = 4 ∧ micBand 801 = 0 ∧ bit (up.obj 0x06 10 1) 31 = false ∧
    (∀ n ∈ [9, 10], ({ up.aport 10 with state := 3, rel := n } : AudPort).rel = n) := by decide +kernel

/-! DRAM, rails, temperature. -/

theorem witness_dram : steady up = true ∧ up.groupUp 3 = true ∧ (up.chan 15).state ≠ 4 ∧ up.runs 11 = true ∧
    (∀ n ∈ [7, 8], tget ((up.setChan 15 { up.chan 15 with postponed := [(3, n)] }).chan 15).postponed 3 0 = n) ∧
    (up.setGroup 3 { up.group 3 with state := 2 }).groupUp 3 = false ∧ up.groupFailed 3 = false ∧ (up.group 3).lastReq + 1000 ≤ up.now ∧
    ((up.setGroup 3 { up.group 3 with lastReq := 999999001 }).group 3).lastReq + 1000 = 1000000001 ∧ (up.chan 15).down.contains 1 = false ∧
    ((up.setGroup 3 { up.group 3 with selfRefresh := true }).group 3).selfRefresh = true ∧ (up.chan 15).retraining = false ∧ up.dram.busyFrom = none ∧
    (let d : Dev := { up with dram := { up.dram with busyFrom := some 999999000 } }; d.dram.busyFrom = some 999999000 ∧ 999999000 + 1000 ≤ Nat.max d.now 0) := by decide +kernel

def retraining (h : Chan → Chan) : Dev := up.setChan 15 (h { up.chan 15 with retraining := true })

theorem witness_retraining : (retraining id).groupUp 3 = true ∧ ((retraining id).chan 15).retraining = true ∧ ((retraining id).chan 15).state ≠ 4 ∧
    ((retraining (fun x => { x with storedAt := none })).chan 15).storedAt = none ∧
    ((retraining (fun x => { x with storedAt := some 5 })).chan 15).storedAt = some 5 ∧ up.now < 5 + 3600000000000 ∧
    (let d : Dev := { retraining (fun x => { x with storedAt := some 5 }) with now := 5 + 3600000000000 }; (d.chan 15).storedAt = some 5 ∧ 5 + 3600000000000 ≤ d.now) ∧
    (let d := up.setGroup 3 { up.group 3 with change := some 950000000 }
     steady d = true ∧ (d.group 3).change = some 950000000 ∧ d.speedTurn 3 = true ∧ 950000000 + 50000000 ≤ Nat.max d.now 0 ∧
     (d.setGroup 0 { d.group 0 with change := some 5 }).speedTurn 3 = false) ∧ (up.group 3).change = none ∧
    (let d := up.setChan 15 { up.chan 15 with state := 4, speed := 1 }; (d.chan 15).state = 4 ∧ d.runs 11 = true) ∧ firstPoint 8 2 = some 3 ∧ firstPoint 3 2 = none ∧
    (let c : OpChange := { changing with stage := 1 }
     let d : Dev := { up.setGroup 3 { up.group 3 with change := some 5 } with power := { up.power with change := some c } }
     steady d = true ∧ d.power.change = some c ∧ c.stage = 1 ∧ (∀ k, k < 4 → k ≠ 3 → (d.group k).change = none) ∧ d.speedTurn 3 = true ∧
     5 + 50000000 ≤ Nat.max d.now 0 ∧ d.power.shdMv ≤ opShdMv c.target ∧ d.power.coreMv ≤ opCoreMv c.target ∧
     opShdMv c.target < ({ d.power with shdMv := 900 } : Power).shdMv ∧
     ((d.setGroup 0 { d.group 0 with change := some 5 }).group 0).change ≠ none) := by decide +kernel

def stepping (c : OpChange) : Dev := powered (fun p => { p with change := some c, rail := true })

theorem witness_rails :
    (let d := stepping changing
     steady d = true ∧ d.power.change = some changing ∧ changing.stage = 0 ∧ (0 ∈ changing.raising) ∧ (∃ r ∈ changing.raising, r ≠ 0) ∧
     d.power.railMv 0 ≤ (d.power.railMv 0 - 10) + 10 ∧ (d.power.railMv 0 - 11) + 10 < d.power.railMv 0 ∧ changing.writtenAt + 500000 ≤ Nat.max d.now 0) ∧
    (let c : OpChange := { changing with raising := [0] }; (stepping c).power.change = some c ∧ (∀ r ∈ c.raising, r = 0)) ∧
    (let c : OpChange := { changing with stage := 2, raising := [], lowering := [1] }; (stepping c).power.change = some c ∧ (1 ∈ c.lowering) ∧ (∀ r ∈ c.lowering, r = 1)) ∧
    (let c : OpChange := { changing with stage := 2, raising := [], lowering := [0, 1] }; (∃ r ∈ c.lowering, r ≠ 1)) ∧ up.power.change = none ∧
    (let c : OpChange := { changing with stage := 1 }; c.stage = 1) ∧
    ((stepping changing).power.shdMv ≤ opShdMv changing.target ∧ (stepping changing).power.coreMv ≤ opCoreMv changing.target) ∧
    (let p := up.power; p.state = .active ∧ p.change = none ∧ p.pendingEresets = [] ∧ p.asked = none ∧ p.current.toNat = p.inForce) := by decide +kernel

theorem witness_undervoltage : up.boot.stage ≠ .held ∧ up.power.state = .active ∧ up.railMin 0 - 1 < up.railMin 0 ∧ up.railMin 1 - 1 < up.railMin 1 ∧ up.railMin 0 ≠ 0 ∧
    up.railMin 1 ≠ 0 ∧ (powered (fun p => { p with state := .showcase })).power.state = .showcase := by decide +kernel

theorem witness_temperature :
    up.safety.state = 0 ∧ (List.replicate 16 (2500 : Int)).length = 16 ∧ (∀ x ∈ List.replicate 16 (2500 : Int), x < tmax up.boot.fuses.grade) ∧
    (∃ x ∈ ([tmax up.boot.fuses.grade - 500] : List Int), tmax up.boot.fuses.grade - 500 ≤ x) ∧ up.power.limit ≠ 7 ∧ up.power.hotAt + 10000000 ≤ up.now ∧
    (let p := (powered (fun p => { p with limit := 7 })).power; p.limit = 7 ∧ p.coolAt + 100000000 ≤ 1000000000) ∧
    (∀ x ∈ ([tmax up.boot.fuses.grade - 1000] : List Int), x ≤ tmax up.boot.fuses.grade - 1000) ∧
    (∀ x ∈ ([tmax up.boot.fuses.grade - 501] : List Int), x < tmax up.boot.fuses.grade - 500) ∧ tmax up.boot.fuses.grade - 1000 < tmax up.boot.fuses.grade - 501 ∧
    (up.coreOf 3).gated = false ∧ (up.coreOf 3).inTest = false ∧ (up.coreOf 3).resetAt = none ∧ up.coreBusy 3 = false ∧ (up.coreOf 3).idleFrom + 1000000 ≤ Nat.max up.now 0 := by
  decide +kernel
/-! Sleep states, resets, updates, settings. -/

def entering (order : Nat) (h : Power → Power) : Dev :=
  powered (fun p => h { p with
    state := .entering, reqGo := true
    entry := some { target := 2, goAt := 995000000, deep := false, order := order, askedAt := 999900000, stopped := (List.range order).drop 1 } })

theorem witness_sleep : up.power.entry = none ∧ steady up = true ∧
    ((entering 0 id).power.entry.map (fun e => e.order) = some 0 ∧ 995000000 + 5000000 ≤ Nat.max up.now 0 ∧ 999900000 + 100000 ≤ Nat.max up.now 0) ∧
    steady (entering 7 id) = true ∧ (entering 12 id).wakeFired = 0 ∧ (entering 12 (fun p => { p with latched := 16 })).wakeFired ≠ 0 ∧
    ((entering 5 id).power.entry.map (fun e => (entering 5 id).blockRefuses e)) = some none ∧
    ((entering 2 id).power.entry.map (fun e => ({ entering 2 id with update := { up.update with activateOp := some id1 } } : Dev).blockRefuses e)) =
      some (some (blockLocus 2)) ∧ (entering 7 id).power.pendingEresets = [] := by decide +kernel

theorem witness_wake :
    (let d := entering 3 (fun p => { p with wakeEn := 16 })
     d.wakeEnabled (.wakein 0) = true ∧ d.boot.stage = .ready ∧ d.freeze.at_ = none ∧ d.power.state = .entering ∧ d.wakeEnabled (.wakein 1) = false) ∧
    (∀ x ∈ ([.showcase, .standby] : List PowerState), (let d := powered (fun p => { p with state := x, wakeEn := 16 })
      steady d = true ∧ d.wakeEnabled (.wakein 0) = true ∧ d.power.state = x ∧ d.power.pendingEresets = [])) ∧ up.power.state = .active ∧
    (0xA5C33C5B : BitVec 32) ≠ 0xA5C33C5A := by decide +kernel

/-- ResetsAndStartup: SYS_RST_N high and low, low for 999 ns and 1 µs; images that pass and do not; a port in reset and out of it. -/
theorem witness_startup : up.board.sysRstLow = false ∧ Dev.atReset.board.sysRstLow = true ∧ steady Dev.atReset = true ∧
    (let d : Dev := { Dev.atReset with board := { refclkOk := true, sysRstLow := false, env := goodEnv } }
     d.board.sysRstLow = false ∧ d.board.refclkOk = true ∧ d.boot.stage = .held) ∧
    (Dev.atReset.slotBoots false badEnv = false ∧ Dev.atReset.slotBoots true badEnv = false ∧ Dev.atReset.slotBoots false goodEnv = true ∧
      Dev.atReset.slotBoots true goodEnv = false) ∧ (up.port 0).perst = true ∧ (Dev.atReset.port 0).perst = false ∧
    up.boot.stage = .ready ∧ up.freeze.at_ = none ∧ ((up.setPort 0 { up.port 0 with perst := false }).port 0).perst = false ∧
    ((up.setPort 0 { up.port 0 with link := .training }).port 0).link ≠ .l0 ∧
    (let d : Dev := { Dev.atReset with board := { refclkOk := false, sysRstLow := false, env := goodEnv } }
     steady d = true ∧ d.board.refclkOk = false ∧ d.boot.stage = .held) := by decide +kernel

/-- A session numbered 9 that stages an image of two pieces. -/
def aSession (held : List Nat) (lease : Nat) : Session :=
  { number := 9, digest := List.replicate 48 0, opener := 0, slotB := true, pieces := 2, held := held, leaseEnd := lease }
def updating (st : BitVec 3) (x : Option Session) (h : Update → Update) : Dev := { up with update := h { up.update with state := st, session := x } }
def updOp (kind : BitVec 8) (l : List W72) : Op := opOf 9 kind l

/-- ACTIVATE of the session and of another, the manager's and not; the image's checks rest on the key, which is a free value: each outcome of them is a premise. -/
theorem witness_activate :
    (∀ w ∈ [9, 8, 2 ^ 32, 2 ^ 17, 9 + 2 ^ 16 + 5 * 2 ^ 20], (let o := updOp 5 [BitVec.ofNat 72 w]
      works (holding (updating 2 (some (aSession [0, 1, 2] 5)) id) o) o 2 = true)) ∧
    works (holding up { updOp 5 [9] with fn := 5 }) { updOp 5 [9] with fn := 5 } 2 = true ∧ up.update.session = none ∧
    (let d := updating 2 (some (aSession [0, 1, 2] 5)) id
     d.update.activateOp ≠ some id1 ∧ d.update.state = 2 ∧ fld (9 : W72) 17 3 = 0 ∧ bit (9 : W72) 16 = false ∧ fld (9 : W72) 32 40 = 0 ∧
     (({ d with now := Nat.max d.now 0 } : Dev).setUpdState 3).boundarySince d.now = false) := by decide +kernel

def trial (h : Update → Update) : Dev := updating 4 (some (aSession [0, 1, 2] 5)) h

theorem witness_trial : (trial id).inTrial = true ∧ up.inTrial = false ∧ (trial id).update.confirmOp ≠ some id1 ∧ (trial id).update.revertOp ≠ some id1 ∧
    (∀ k ∈ ([6, 7] : List (BitVec 8)), works (holding (trial id) (updOp k [0])) (updOp k [0]) 2 = true ∧ works (holding up (updOp k [0])) (updOp k [0]) 2 = true) ∧
    (let d := trial (fun u => { u with autoConfirm := true, confirmAt := 1000000000 })
     steady d = true ∧ d.runs 2 = true ∧ d.update.autoConfirm = true ∧ d.update.confirmAt ≤ Nat.max d.now 0) ∧
    Nat.max up.now 0 < 1000000001 ∧
    (let d : Dev := { updating 3 none (fun u => { u with step := 1, stepAt := 5 }) with epochAt := 6 }
     d.update.step = 1 ∧ d.runs 2 = true ∧ d.boundarySince d.update.stepAt = true ∧ d.migrates = false ∧ d.flash.activeArea = false) ∧
    (let d : Dev := { updating 3 none (fun u => { u with step := 1, stepAt := 5, imageFormat := 1, imageMinFormat := 1 }) with
       epochAt := 6, flash := { up.flash with area0 := { valid := true, format := 1, half := false, halfSeq := 0, seq := 0, used := 0, items := [] } } }
     d.update.step = 1 ∧ d.boundarySince d.update.stepAt = true ∧ d.migrates = true) ∧
    (∀ n ∈ [2, 3], (let d : Dev := { updating 5 none (fun u => { u with step := n, stepAt := 5 }) with epochAt := 6 }
      d.update.step = n ∧ d.boundarySince d.update.stepAt = true)) := by decide +kernel

theorem witness_sessions :
    (∀ w ∈ [0, 1, 2], works (holding up (updOp 1 [BitVec.ofNat 72 w])) (updOp 1 [BitVec.ofNat 72 w]) 2 = true) ∧ fld (2 : W72) 1 71 ≠ 0 ∧ fld (1 : W72) 1 71 = 0 ∧
    (updating 3 (some (aSession [] 5)) id).update.session = some (aSession [] 5) ∧ 3 ≤ (updating 3 (some (aSession [] 5)) id).update.state.toNat ∧
    (updating 2 (some (aSession [] 5)) id).update.state.toNat < 3 ∧ up.update.session = none ∧ up.update.state.toNat < 3 ∧
    (aSession [] 5).digest = (List.range 6).flatMap (fun i => toBytes 8 (fld ((updOp 1 [0]).word (i + 1)) 0 64)) ∧
    (aSession [] 5).digest ≠ (List.range 6).flatMap (fun i => toBytes 8 (fld ((updOp 1 [0, 5]).word (i + 1)) 0 64)) ∧
    fld ((updOp 1 [0, BitVec.ofNat 72 (2 ^ 64)]).word 1) 64 8 ≠ 0 := by decide +kernel

theorem witness_pieces :
    (∀ k ∈ [0, 1, 2, 3], (let w : W72 := BitVec.ofNat 72 (9 + k * 2 ^ 16)
      works (holding (updating 1 (some (aSession [0, 2] 5)) id) (updOp 2 [w, 4096])) (updOp 2 [w, 4096]) 2 = true ∧ fld w 25 47 = 0 ∧ fld w 16 9 = k)) ∧
    (aSession [0, 2] 5).held.contains 0 = true ∧ (aSession [0, 2] 5).held.contains 1 = false ∧ 1 ≤ (aSession [0, 2] 5).pieces ∧ (aSession [0, 2] 5).pieces < 3 ∧
    (aSession [] 5).held.contains 0 = false ∧ (aSession [] 5).number.toNat = 9 ∧ lineAddr 4096 = true ∧ lineAddr 4097 = false ∧
    (holding up (updOp 2 [9, 4096])).pieceWaits (updOp 2 [9, 4096]) = false ∧
    (let o : Op := updOp 2 [9, 4096]
     let d : Dev := { up with ops := [{ o with id := { id1 with idx := 7 }, due := 4 }, o] }
     works d o 2 = true ∧ d.pieceWaits o = true) ∧ okB (up.readV 0 (2 ^ 40) 64 .read) = false ∧ pieceLen [] 0 = 16384 := by decide +kernel

theorem witness_session_ends :
    (∀ k ∈ ([3, 4] : List (BitVec 8)), works (holding (updating 1 (some (aSession [0] 5)) id) (updOp k [9, 4096])) (updOp k [9, 4096]) 2 = true ∧
      works (holding up (updOp k [9, 4096])) (updOp k [9, 4096]) 2 = true) ∧
    okB (up.writeV 0 4096 (List.replicate 40 1)) = true ∧ okB (up.writeV 0 (2 ^ 40) (List.replicate 40 1)) = false ∧ fld (9 : W72) 16 56 = 0 ∧
    (let d := updating 1 (some (aSession [0] 1000000000)) id
     d.boot.stage = .ready ∧ d.freeze.at_ = none ∧ d.update.state.toNat < 3 ∧ (aSession [0] 1000000000).leaseEnd ≤ Nat.max d.now 0 ∧
     Nat.max d.now 0 < (aSession [0] 1000000001).leaseEnd) := by decide +kernel

/-- SETTINGS_WRITE of PIPE state, index in range and at its end; lengths right and wrong; a sealed item in FIELD; SETTINGS_READ of an item present. -/
def setWord (tag index len : Nat) : W72 := BitVec.ofNat 72 (tag + index * 2 ^ 16 + len * 2 ^ 32)

theorem witness_settings_write :
    (∀ x ∈ ([(0x010D, 0, 1), (0x010D, 1, 1), (0x010D, 0, 2), (0x7777, 0, 1), (0x0107, 0, 0)] : List (Nat × Nat × Nat)),
      works (holding up (updOp 8 [setWord x.1 x.2.1 x.2.2, 4096])) (updOp 8 [setWord x.1 x.2.1 x.2.2, 4096]) 2 = true ∧
      fld (setWord x.1 x.2.1 x.2.2) 64 8 = 0) ∧
    itemShape 0x010D 1 = some (0, 1, true) ∧ itemShape 0x010D 2 = some (0, 1, false) ∧ itemShape 0x7777 1 = none ∧ itemSealed 0x0107 = true ∧ itemSealed 0x010D = false ∧
    okB (up.readV 0 4096 1 .read) = true ∧ okB (up.readV 0 (2 ^ 40) 1 .read) = false ∧ itemOk 0x010D 0 [7] = true ∧ itemOk 0x010D 0 [8] = false ∧
    ({ up.boot.fuses with lifecycle := 2 } : Fuses).lifecycle = 2 ∧ up.update.state.toNat < 3 ∧ 3 ≤ (trial id).update.state.toNat := by decide +kernel

theorem witness_settings_read :
    (let a : Area := { valid := true, format := 1, half := false, halfSeq := 1, seq := 2, used := 256, items :=
       [{ tag := 0x010D, index := 0, data := [7], seq := 1, readable := true }, { tag := 0x0107, index := 0, data := [], seq := 2, readable := false }] }
     let d : Dev := { up with flash := { up.flash with dirValid := true, area0 := a } }
     let o := updOp 9 [0x010D, 4096]
     works (holding d o) o 2 = true ∧ d.flash.areaNow = false ∧ a.valid = true ∧ (a.item 0x010D 0).map (fun i => i.readable) = some true ∧
     (a.item 0x0107 0).map (fun i => i.readable) = some false ∧ a.item 0x0109 0 = none ∧ okB (d.writeV 0 4096 [7]) = true ∧ okB (d.writeV 0 (2 ^ 40) [7]) = false) := by
  decide +kernel
/-! Fault records, self-tests, monitors, the supervisor port, freeze, debug. -/

def recorded (h : Safety → Safety) : Dev := { up with safety := h up.safety }
def aRec (action : BitVec 3) : Rec := { locus := 0, cls := 1, stamp := 0, seq := 1, fn := none, lost := false, action := action, dataA := 0, dataB := 0 }

theorem witness_fault_records : up.safety.state ≠ 2 ∧ up.safety.queue.length < 64 ∧ 64 ≤ (recorded (fun x => { x with queue := List.replicate 64 (aRec 1) })).safety.queue.length ∧
    (recorded (fun x => { x with state := 2 })).safety.state = 2 ∧
    (let d := recorded (fun x => { x with escalate := true }); d.update.step = 0 ∧ d.safety.freezeWanted = false ∧ d.safety.escalate = true) ∧
    (let d := recorded (fun x => { x with freezeWanted := true }); d.update.step = 0 ∧ d.safety.freezeWanted = true ∧ d.safety.escalate = false ∧ d.freeze.at_ = none ∧
      d.freezeAllowed = true) := by decide +kernel

/-- The tests of core 15, of pipe 0 with unit 2, and of groups; a reserved bit set; another function. -/
def testOp (kind : BitVec 8) (w : Nat) : Op := opOf 10 kind [BitVec.ofNat 72 w]

theorem witness_self_tests : (∀ k ∈ [1, 2, 3], (∀ w ∈ [0, 2 ^ 15, 2 ^ 21, 0x20001, 3], works (holding up (testOp (BitVec.ofNat 8 k) w)) (testOp (BitVec.ofNat 8 k) w) 3 = true)) ∧
    works (holding up { testOp 1 1 with fn := 5 }) { testOp 1 1 with fn := 5 } 3 = true ∧ Nat.land (2 ^ 21) (2 ^ 72 - 1 - 0x1F0FFF) ≠ 0 ∧
    Nat.land (2 ^ 15) (2 ^ 72 - 1 - 0xFFFF) = 0 ∧ Nat.land 0x20001 (2 ^ 72 - 1 - 0x1F0FFF) = 0 ∧ Nat.land 3 (2 ^ 72 - 1 - 0xF) = 0 ∧
    fld ((testOp 1 (2 ^ 15)).word 0) 0 16 = 2 ^ 15 ∧ up.safety.tests = [] ∧ up.inService 15 = true ∧ (∀ k, k < 16 → (up.coreOf k).inTest = false) ∧ up.coreBusy 15 = false ∧
    (tiling 2 0 15).coreBusy 15 = true ∧ (tiling 2 0 15).inService 15 = true ∧ up.owner 0x0A 2 = up.manager ∧ up.cvuOn 2 = false ∧ (unitOn up 1 id).cvuOn 2 = true ∧
    (screen 0 id).pipeOn 0 = true ∧ (up.group 0).state ≠ 2 ∧ ((up.setGroup 0 { up.group 0 with state := 2 }).group 0).state = 2 ∧ maskBits 4 3 = [0, 1] ∧ maskBits 4 0 = [] := by
  decide +kernel

theorem witness_self_test_done :
    (let t : SelfTest := { id := id1, kind := 1, left := [15], tested := 0, failed := 0 }
     let d := (recorded (fun x => { x with tests := [t] })).setCore 15 { up.coreOf 15 with inTest := true }
     works (holding d (testOp 1 (2 ^ 15))) (testOp 1 (2 ^ 15)) 3 = true ∧ d.safety.tests.length = 1 ∧ (d.coreOf 15).inTest = true ∧ (d.coreOf 15).resetAt = none ∧
     (∀ k, k < 15 → (d.coreOf k).inTest = false) ∧ bit (0x7FFF : BitVec 16) 15 = false) ∧
    ((up.setCore 3 { up.coreOf 3 with failed := true }).coreOf 3).failed = true ∧ up.runs 3 = true := by decide +kernel

theorem witness_monitors : up.smRuns = true ∧ Dev.atReset.smRuns = false ∧
    ((recorded (fun x => { x with mismatchAt := some 1 })).safety.mismatchAt = some 1 ∧ up.now < 1 + 1000000000 ∧ 0 + 1000000000 ≤ up.now) ∧ up.safety.mismatchAt = none ∧
    (recorded (fun x => { x with restarting := true })).safety.restarting = true ∧ up.safety.restarting = false ∧ bit up.safety.excluded 3 = false ∧
    (1500 < ((4001 : Int) - 2500).natAbs ∧ ((4000 : Int) - 2500).natAbs ≤ 1500) ∧ bit (recorded (fun x => { x with excluded := 8 })).safety.excluded 3 = true ∧
    (∀ k ∈ [0, 8, 9], (let d := up.setFwt k 0 { FwThread.atReset k 0 with started := true, lastWdog := 990000000 }
      steady d = true ∧ (d.fwt k 0).started = true ∧ (d.fwt k 0).lastWdog + 10000000 ≤ Nat.max d.now 0)) ∧ (trial id).update.state = 4 ∧
    (let d := recorded (fun x => { x with hbArmed := true, hbPeriod := 10, hbLast := 989999999, hbLate := false })
     steady d = true ∧ d.safety.hbArmed = true ∧ d.safety.hbPeriod ≠ 0 ∧ d.safety.hbLate = false ∧ d.safety.hbLast + d.safety.hbPeriod * 1000000 < Nat.max d.now 0) ∧
    up.safety.hbArmed = false := by decide +kernel

theorem witness_scrubber : up.awake = true ∧ up.scrubs (.dram 0) = up.dram.inlineEcc ∧ ({ up with dram := { up.dram with inlineEcc := true } } : Dev).scrubs (.dram 0) = true ∧
    ({ up with dram := { up.dram with inlineEcc := false } } : Dev).scrubs (.dram 0) = false ∧ regionOf up.dram 64 = .dram ∧ up.poison.contains 1 = false ∧
    ({ up with poison := [1] } : Dev).poison.contains (64 / 64) = true := by decide +kernel

/-- SupervisorPort: frames that are served, of each length and argument that a command names, and what refuses them. -/
def frame (arg : Nat) (l : List Byte) : SvpFrame := { arg := BitVec.ofNat 32 arg, length := l.length, payload := l, crc := 0 }

/-- Whether the frame of an opcode with its check value is served. -/
def serves (d : Dev) (op arg : Nat) (l : List Byte) : Bool := served d op (goodFrame op arg l)

theorem witness_supervisor :
    (∀ op ∈ [0x01, 0x02, 0x03, 0x04, 0x05, 0x06, 0x10, 0x11, 0x20, 0x21, 0x22, 0x23, 0x30, 0x31, 0x32], serves up op 0 [] = true ∧ serves up op 1 [1, 2, 3, 4] = true) ∧
    Dev.atReset.svpUp = false ∧ steady Dev.atReset = true ∧ up.svpUp = true ∧ (recorded (fun x => { x with state := 2 })).safety.state = 2 ∧
    crcOk 1 (goodFrame 1 0 []) = true ∧ crcOk 2 (goodFrame 1 0 []) = false ∧ badFrame.length ≠ badFrame.payload.length ∧
    (let d : Dev := { up with freeze := { up.freeze with at_ := some 5 } }; d.freeze.at_ ≠ none ∧ d.svpUp = true ∧ serves d 0x23 0 [] = true ∧ serves d 0x22 0 [] = false) ∧
    up.safety.queue = [] ∧ (recorded (fun x => { x with queue := [aRec 1] })).safety.queue = [aRec 1] ∧ (aRec 1).action ≠ 0 ∧ (aRec 0).action = 0 := by decide +kernel

theorem witness_supervisor_registers : (∀ a ∈ [0xBFFC, 0xC000, 0x10000, 0x10404, 0x10408], (frame a []).arg.toNat = a ∧ a % 4 = 0 ∧ serves up 0x04 a [] = true ∧
      serves up 0x05 a [1, 2, 3, 4] = true) ∧ up.safety.lock = false ∧ (recorded (fun x => { x with lock := true })).safety.lock = true ∧
    (∀ t ∈ [995000000, 990000000], (let d := recorded (fun x => { x with hbArmed := true, hbPeriod := 10, hbLast := t })
      serves d 0x06 5 [] = true ∧ d.safety.hbArmed = true ∧ d.safety.hbLast ≤ Nat.max d.now 0 ∧
      2 * (Nat.max d.now 0 - d.safety.hbLast) ≥ d.safety.hbPeriod * 1000000 ∧ Nat.max d.now 0 - d.safety.hbLast ≤ d.safety.hbPeriod * 1000000)) ∧ up.safety.hbArmed = false ∧
    ((frame 0xFFF []).arg.toNat < 2 ^ 12 ∧ 2 ^ 12 ≤ (frame 0x1000 []).arg.toNat) ∧ serves up 0x10 0xFFF [] = true ∧ serves up 0x11 0x1000 [] = true ∧
    serves up 0x21 0xC1A5 [] = true ∧ (frame 0xC1A5 []).arg = 0xC1A5 ∧ up.power.reqGo = false ∧ (powered (fun p => { p with reqGo := true })).power.reqGo = true := by
  decide +kernel

/-- LC_PROVISION and LC_RETURN in each lifecycle, RECOVERY_WRITE in RECOVERY and outside it, at its last byte; the signature is a free value. -/
def living (n : BitVec 2) : Dev := { up with boot := { up.boot with fuses := { up.boot.fuses with lifecycle := n, lcNext := none } } }

theorem witness_lifecycle : serves (living 0) 0x30 0 (List.replicate 48 1) = true ∧ (living 0).boot.fuses.lifecycle = 0 ∧ (living 0).boot.fuses.lcNext = none ∧
    serves (living 2) 0x30 0 (List.replicate 48 1) = true ∧ (living 2).boot.fuses.lifecycle = 2 ∧ (living 3).boot.fuses.lifecycle ≠ 2 ∧
    serves (living 2) 0x31 0 (List.replicate 193 1) = true ∧ serves (living 0) 0x31 0 (List.replicate 193 1) = true ∧
    (let d : Dev := { up with boot := { up.boot with stage := .recovery } }; serves d 0x32 (2 ^ 24 - 1) [1] = true ∧ d.boot.stage = .recovery) ∧
    serves up 0x32 (2 ^ 24) [1] = true ∧ 2 ^ 24 < (frame (2 ^ 24) [1]).arg.toNat + 1 ∧ svpOpcode 0x07 = false ∧ up.boot.stage ≠ .recovery := by decide +kernel

theorem witness_freeze : (living 3).freezeAllowed = true ∧ (living 2).freezeAllowed = false ∧ up.freeze.at_ = none ∧ serves (living 2) 0x22 0 [] = true ∧
    steady (living 2) = true ∧ up.board.sysRstLow = false ∧ up.power.state ≠ .standby ∧
    (let d : Dev := { up with freeze := { up.freeze with at_ := some 5, nextEnd := 1000000000 } }
     serves d 0x23 0 [] = true ∧ d.freeze.at_ = some 5 ∧ d.freeze.nextEnd ≤ Nat.max d.now 0) ∧ Nat.max up.now 0 < 1000000001 := by decide +kernel

/-- JtagAndDebug: a port up and open, a response wrong for want of a challenge; contexts halted and stepping; memory and control space. A right response rests on free
values: it is a premise. -/
def debugging (h : Debug → Debug) : Dev := { guest prog with probe := h { up.probe with unlocked := true } }

theorem witness_debug : up.debugUp = true ∧ Dev.atReset.debugUp = false ∧ (List.replicate 32 (1 : Byte)).length = 32 ∧ up.responseOk [] [] = false ∧ up.probe.failures < 3 ∧
    (let d := debugging id
     steady d = true ∧ d.debugUp = true ∧ d.awake = true ∧ d.debugOpen = true ∧ d.probe.unlocked = true ∧ (Ctx.guest 0 ∉ d.probe.halted) ∧ d.seq (.guest 0) = some prog ∧
     regionOf d.dram 4096 = .dram ∧ d.dataCause 4096 1 = 0 ∧ d.isLost 4096 = false ∧ regionOf d.dram 0xC000000000 = .control) ∧
    (let d := debugging (fun x => { x with halted := [.guest 0] }); (Ctx.guest 0 ∈ d.probe.halted) ∧ (Ctx.guest 0 ∉ d.probe.stepping)) ∧ up.board.sysRstLow = false ∧
    (living 2).debugOpen = false := by decide +kernel
/-! Premises that the statements above name and that the fixtures so far leave out. -/

/-- RingRegisters, LinksAndFunctions: a function in D3hot whose PF reports errors, configuration reached awake and asleep, VFs enabled. -/
theorem witness_configuration : up.cfgReach 0 = true ∧ up.cfgReach 16 = true ∧ up.asleep = false ∧ steady up = true ∧ (up.port 0).vfEnable = false ∧
    (let d := powered (fun p => { p with state := .standby }); steady d = true ∧ d.cfgReach 0 = true ∧ d.asleep = true) ∧
    (let d := up.setFn 0 { up.fn 0 with d3hot := true, errCtl := 10 }
     steady d = true ∧ d.cfgReach 0 = true ∧ (d.fn 0).d3hot = true ∧ d.hostReach 0 = false ∧ bit (d.fn 0).aerUncSev 20 = false ∧ bit (d.fn 0).aerUncMask 20 = false ∧
     bit (d.fn 0).errCtl 1 = true ∧ bit (d.fn 0).errCtl 3 = true) ∧
    (let d := up.setPort 0 { up.port 0 with ptmEnable := true, ptmReq := true, ptmBusy := true, ptmFrom := 999999000 }
     steady d = true ∧ (d.port 0).ptmFrom ≤ 999999500 ∧ 999999500 ≤ Nat.max d.now (d.port 0).ptmFrom ∧ Nat.max d.now (d.port 0).ptmFrom < 1000000001) ∧
    (let d := up.setPort 0 { up.port 0 with ptmReq := true }; d.cfgReach 0 = true ∧ (d.port 0).link = .l0 ∧ (d.port 0).ptmBusy = false) := by decide +kernel

/-- ItemsAdmittedAndStarted: fifteen entries and no shared one, sixteen without one and with one. -/
theorem witness_shared_entries :
    (∀ n ∈ [(15, 0), (16, 0), (16, 1)], (let d := ringWith (fun r => { r with depthLog2 := 6, tail := 1, shared := n.2, entries := List.replicate n.1 (item 0) })
      steady d = true ∧ d.mayAdmit 0 = true ∧ decide ((d.ring 0).entries.length < 16 + (d.ring 0).shared) = !decide (n = (16, 0)) ∧ (d.ring 0).lost = false)) := by
  decide +kernel

/-- RasterOperations: a free context, sixteen passes, an earlier operation that awaits one, a context taken that waits. -/
theorem witness_contexts : (holding up passOp).contextFor passOp = true ∧ (passing (holding up passOp) (List.replicate 16 (aPass 1))).contextFor passOp = false ∧
    ({ up with ops := [{ opOf 0 1 [] with id := { id1 with acc := 0 } }, passOp] } : Dev).contextFor passOp = false ∧
    (let d := passing (holding up passOp) [aPass 0]; works d passOp 4 = true ∧ (d.passOf id1).map (fun q => q.stage) = some 0 ∧ d.tlReserve 0 ≠ 0) := by decide +kernel

/-- CoresAndTiles: a tile outside its window, a layout owner's weight, the tile of an open strip, a core that leaves point 7. -/
theorem witness_tile_windows :
    (let d := ((showing 0 (fun x => { x with mark := 995000000, lastVb := some 995000000, firstLine := some 996111111 })).setObj 0x02 0 4 (BitVec.ofNat 72 (2 ^ 16))).setPc 0
        { (up.pc 0) with current := some composing, frames := [shown 3] }
     steady d = true ∧ d.runs 4 = true ∧ (d.frameOf 0).map (fun f => f.n) = some (d.pt 0).frame.toNat ∧ d.tileReady 0 0 = some none ∧ d.comesFirst 0 none = true ∧
     weightOf d.obj (d.owner 0x02 0) 1 ≠ 0 ∧ weightOf (d.setObj 0x0B 0 1 0).obj 0 1 = 0 ∧ d.composeDue 0 composing = some 1005000000) ∧
    (let d := composer (fun x => { x with chase := some composing, opened := [0] })
     steady d = true ∧ 0 < d.chaseTiles 0 ∧ d.tileReady 0 0 = some none ∧ d.comesFirst 0 none = true) ∧
    (let d := { tiling 2 0 9 with power := { up.power with current := 7, opAt := 5 } }; steady d = true ∧ d.power.applied = 7 ∧ Nat.max 0 d.power.opAt + 50000 ≤ d.now) := by
  decide +kernel

/-- PresentsStripsAndBuffers: strips of a chased frame in a pipe that scans. -/
theorem witness_strips :
    (let d := (showing 0 (fun x => { x with firstLine := none })).setPc 0 { (up.pc 0) with chase := some composing, frames := [shown 3] }
     steady d = true ∧ d.runs 10 = true ∧ composing.ringDepth 0 = 1 ∧ 1 < composing.strips 0 ∧ composing.stripDone 0 1 = false ∧
     (d.lineStart 0 (1 * composing.stripH 0)).isSome = true ∧ (d.stripDeadline 0 composing 1).isSome = true ∧ d.stripOverdue 0 composing 1 = true ∧
     (∀ j, j < 4 → ({ d with now := 990000000 } : Dev).stripOverdue 0 composing j = false)) := by decide +kernel

/-- CheckValues, VitrineAndDataMovement: a sink's value that waits, and a write released with a descriptor of four words. -/
theorem witness_ended_period :
    (let d := ((unitOn up 0x40 (fun x => { x with state := 1, ended := [7] })).setObj 0x0A 2 5 0x10001)
     steady d = true ∧ d.cvuOn 2 = true ∧ d.cvuTap 2 = 0x40 + 0 ∧ d.runs 6 = true ∧ (d.cvu 2).ended = [7]) ∧
    (let o : Op := { opOf 3 1 [] with phase := .released, len := 4, addr := 4096 }
     let d := holding up o
     steady d = true ∧ d.op id1 = some o ∧ o.gen = (d.fn o.fn).gen ∧ d.runs 5 = true ∧ okB (d.readWords 0 4096 4 .read) = true) := by decide +kernel

/-- GenlockAndTearing: an edge on a TTL input and on a tri-level one, a line pulse, and a pulse too short. -/
theorem witness_pulses : isFrameEdge 0 6400 false = true ∧ isFrameEdge 0 6399 false = false ∧ isFrameEdge (BitVec.ofNat 72 (2 ^ 46)) 192000 false = true ∧
    isLinePulse (BitVec.ofNat 72 (2 ^ 46)) 6400 false = true ∧ isLinePulse (BitVec.ofNat 72 (2 ^ 46)) 192000 false = false ∧ isLinePulse 0 6400 false = false ∧
    (up.glkIn 1).lastEdge = none ∧ 64000000000 / 10 * 10 = 64000000000 ∧ 64 * up.now ≤ 64000000000 + 128 := by decide +kernel

/-- TouchEngine, HapticEngine, AudioStreamsAndPorts: operations that wait for an earlier one and do not; converters that may lock. -/
theorem witness_orders : (holding up (receiveOp 1)).receiveWaits (receiveOp 1) = false ∧
    ({ up with ops := [{ receiveOp 1 with id := { id1 with acc := 0 }, due := 4 }, receiveOp 1] } : Dev).receiveWaits (receiveOp 1) = true ∧
    (holding (streaming 1) (playOp false 5)).bufferWaits false (playOp false 5) = false ∧
    ({ streaming 1 with ops := [{ playOp false 5 with id := { id1 with acc := 0 }, due := 4 }, playOp false 5] } : Dev).bufferWaits false (playOp false 5) = true ∧
    (opOf 5 1 []).streamCut = false ∧ (streaming 1).exactRatio 3 = false ∧ (streaming 3).exactRatio 3 = true ∧
    ((streaming 1).setConv 3 { Conv.atReset with steady := 1920 }).mayLock 3 = true ∧ (streaming 1).mayLock 3 = false ∧
    ((streaming 3).setConv 3 { Conv.atReset with taken := outerDelay, age := innerDelay }).mayLock 3 = true := by decide +kernel

def aReq (write : Bool) (port : Nat) : MemReq := { port := port, line := 1, write := write, at_ := 0, reserved := false }

/-- DramActivity: the queue at its limits, a bank asked by a pipe and by another, instants of 16 ms, 100 ms and 100 µs, a group without pipes. -/
theorem witness_requests : entryFor [] 2 true = some true ∧ entryFor [] 1 true = some false ∧ entryFor (List.replicate 64 (aReq true 0)) 3 true = none ∧
    entryFor (List.replicate 104 (aReq false 0)) 1 false = none ∧ entryFor (List.replicate 24 { aReq false 0 with reserved := true }) 3 false = some false ∧
    (up.scheduleChan 15).groupUp 3 = true ∧ (up.scheduleChan 15).bankUrgent 15 3 = false ∧ (up.scheduleChan 15).dram.twoRanks = up.dram.twoRanks ∧
    (up.queue 15).queued ++ (up.queue 15).waiting = [] ∧ (up.chan 15).mr4At = none ∧ (up.chan 15).driftAt = none ∧ (up.chan 15).burstAt = none ∧
    (let x := (up.setChan 15 { up.chan 15 with mr4At := some 984000000, driftAt := some 900000000, burstAt := some 999900000 }).chan 15
     x.mr4At = some 984000000 ∧ 984000000 + 16000000 ≤ up.now ∧ x.driftAt = some 900000000 ∧ 900000000 + 100000000 ≤ up.now ∧ x.burstAt = some 999900000 ∧
     999900000 + 100000 ≤ up.now) ∧
    (up.scheduleGroup 3).groupAsked 3 = false ∧ (up.scheduleGroup 3).groupFetched 3 = false ∧ (up.scheduleGroup 3).groupLast 3 + 1000 ≤ up.now ∧
    20000 ≤ (up.scheduleGroup 3).groupTolerance 3 ∧ up.setMissing 3 = true ∧ up.setValid 15 0 = false := by decide +kernel

/-- Requests in a channel's queue from a pipe that misses its deadline: an urgent bank, a tolerance of none. -/
theorem witness_urgent :
    (let r := aReq false 16
     let d : Dev := up.setQueue 15 { up.queue 15 with queued := [r] }
     d.bankUrgent 15 (d.reqBank r) = true ∧ (∃ x ∈ (d.queue 15).queued ++ (d.queue 15).waiting, d.reqBank x / 16 = 0)) := by decide +kernel

/-- MonitorsAndScrubber: rails, clocks and sensors within their bounds and outside; a line kept dirty. -/
theorem witness_bounds : up.power.levelMv 0 ≠ 0 ∧ 5 * up.power.levelMv 0 < 100 * ((up.power.levelMv 0 : Int) + 100 - up.power.levelMv 0).natAbs ∧
    100 * ((up.power.levelMv 0 : Int) - up.power.levelMv 0).natAbs ≤ 5 * up.power.levelMv 0 ∧ 40000 < 10 * ((35999 : Int) - 40000).natAbs ∧
    10 * ((36000 : Int) - 40000).natAbs ≤ 40000 ∧ up.medianFits 3 4001 (nth up.safety.temps 0 0) = true ∧ up.medianFits 3 4001 4000 = false ∧
    up.lineIn 1 true = false := by decide +kernel

/-- MonitorsAndScrubber and DramActivity: the clocks in SHOWCASE; a line of a strip that is complete, whole and poisoned, and its pixels' bytes; a
pixel of a frame in frame mode. -/
theorem witness_show_clocks : (let p := (powered (fun p => { p with state := .showcase })).power; p.state = .showcase ∧ p.clockKhz 2 = 0) ∧
    (let c : Composition := { composing with tilesDone := List.range 64 }
     let d := (showing 0 id).setPc 0 { up.pc 0 with chase := some c, frames := [{ shown 3 with kind := 2 }] }
     let e := d.setPc 0 { d.pc 0 with stripBad := [(63, 8)] }
     steady d = true ∧ d.awake = true ∧ d.stripHeld 0 63 8 = true ∧ d.stripHeld 0 63 9 = false ∧ d.stripHeld 0 64 0 = false ∧ (d.pc 0).stripBad = [] ∧
     e.stripHeld 0 63 8 = true ∧ ((63, 8) ∈ (e.pc 0).stripBad) ∧ e.vitrineOnly 0 = false ∧ (e.frameOf 0).map (fun f => f.kind) = some 2 ∧ (e.pc 0).chase = some c ∧
     (e.pc 0).missed = [] ∧ c.stripDone 0 (63 / c.stripH 0) = true ∧ 64 * 8 < 9 * 56 + 9 ∧ 9 * 56 < 64 * 8 + 64 ∧ 56 < c.width) ∧
    (let d := (showing 0 id).setPc 0 { up.pc 0 with content := some composing, frames := [shown 3] }
     d.vitrineOnly 0 = false ∧ (d.frameOf 0).map (fun f => f.kind) = some 1 ∧ (d.pc 0).content = some composing ∧ 63 < composing.width) := by decide +kernel

/-- RailsAndTemperature and MemoryControl: a voltage that a code gives, records of both rails; a change that waits for speed points. -/
theorem witness_rail_codes :
    (let m : RailMap := { addr := 0x40, reg := 1, v0 := 500, step := 5000, top := 80 }
     (76 ≤ m.top ∧ 1000 * m.v0 + m.step * 76 = 1000 * 880 ∧ m.code 880 = 76) ∧
     (let p := (powered (fun p => { p with rail := true, railMaps := [(0, m), (1, m)] })).power
      tfind p.railMaps 1 = some m ∧ tfind (p.railSet 1 750).regulators 1 = some (0x40, 1, 50) ∧ p.shdMv < opShdMv 1)) ∧
    (let c : OpChange := { changing with stage := 1 }
     let d := powered (fun p => { p with change := some c })
     arrives d 0 = true ∧ d.power.change = some c ∧ c.stage = 1) := by decide +kernel

/-- LinkSleepAndStartupComplete: a panel that trains, entries at their first order and past it, wakes by the pattern, startup from reset. -/
theorem witness_completions :
    (let d := driven 0 (fun x => { x with link := 1, hpd := true, tries := 1 })
     steady d = true ∧ d.awake = true ∧ d.portPipe 0 = some 0 ∧ (d.dport 0).link = 1 ∧ (d.dport 0).hpd = true ∧ (d.dport 0).tries < 2 ∧ d.mustShowNow 0 = false ∧
     lossFits 0 .hpdLow = true) ∧
    (let d := linked 0 (fun x => { x with link := 4, hpd := true, trainFrom := 0 }); steady d = true ∧ (d.dport 0).hpd = true ∧ (d.dport 0).trainFrom + 1000000000 ≤ Nat.max d.now 0) ∧
    (let p : PanelStep := { kind := 0, type := 0, addr := 0, data := [], delay := 5 }
     let d : Dev := { linked 4 (fun x => { x with link := 1 }) with disp := { (linked 4 (fun x => { x with link := 1 })).disp with panelInit := [(4, [p])] } }
     steady d = true ∧ d.awake = true ∧ (d.panelSteps 4)[(d.dport 4).initStep]? = some p ∧ (d.dport 4).link = 1 ∧ (d.dport 4).initDue ≤ Nat.max d.now 0) ∧
    (let d := entering 0 id
     steady d = true ∧ d.power.entry.map (fun e => (e.order, e.deep)) = some (0, false) ∧ (∀ p, p < 12 → bit (d.keptPipes 2) p = false)) ∧
    (∀ n ∈ [4, 5], (let d := entering n id
      steady d = true ∧ d.power.pendingEresets = [] ∧ (match d.power.entry with | some e => decide (d.blockRefuses e = none) && (List.range 16).all (d.evictAll e).atBoundary | none => false) = true)) ∧
    (∀ x ∈ ([.showcase, .standby] : List PowerState), (let d := powered (fun p => { p with state := x, wakeEn := BitVec.ofNat 32 (2 ^ 31) })
      steady d = true ∧ d.wakeEnabled .svp = true ∧ d.boot.stage = .ready ∧ d.freeze.at_ = none ∧ d.power.pendingEresets = [])) ∧
    (let d : Dev := { Dev.atReset with board := { refclkOk := true, sysRstLow := true, env := badEnv } }
     steady d = true ∧ d.board.sysRstLow = true ∧ d.board.refclkOk = true ∧ d.slotBoots false goodEnv = true) ∧ up.board.sysRstLow = false ∧
    (let d := up.setPort 0 { up.port 0 with perst := false }; steady d = true ∧ d.boot.stage ≠ .held ∧ d.freeze.at_ = none ∧ (d.port 0).perst = false) ∧
    (let d := up.setPort 0 { up.port 0 with link := .training }; steady d = true ∧ (d.port 0).perst = true ∧ (d.port 0).link ≠ .l0) ∧
    (let d : Dev := { up with board := { up.board with refclkOk := false } }; steady d = true ∧ d.board.refclkOk = false ∧ d.boot.stage ≠ .held) := by decide +kernel

/-- The SHA-384 example of FIPS 180-4, of "abc", and the hash key of test case 13 of the GCM specification. -/
theorem test_sha384 : sha384 [0x61, 0x62, 0x63] =
    [0xcb, 0x00, 0x75, 0x3f, 0x45, 0xa3, 0x5e, 0x8b, 0xb5, 0xa0, 0x3d, 0x69, 0x9a, 0xc6, 0x50, 0x07, 0x27, 0x2c, 0x32, 0xab, 0x0e, 0xde, 0xd1, 0x63, 0x1a, 0x8b, 0x60, 0x5a, 0x43, 0xff, 0x5b, 0xed, 0x80, 0x86, 0x07, 0x2b, 0xa1, 0xe7, 0xcc, 0x23, 0x58, 0xba, 0xec, 0xa1, 0x34, 0xc8, 0x25, 0xa7] := by decide +kernel
theorem test_aes : aes256 (List.replicate 32 0) (List.replicate 16 0) = 0xdc95c078a2408989ad48a21492842087 := by decide +kernel
/-! Values that the manual gives. -/

/-- The check values of R368: CRC-8/SMBUS to CRC-64/XZ over "123456789". -/
theorem test_crc_presets :
    (List.range 6).map (fun n => (crcPreset (n + 1)).value ((crcPreset (n + 1)).bytes (crcPreset (n + 1)).init [0x31, 0x32, 0x33, 0x34, 0x35, 0x36, 0x37, 0x38, 0x39])) =
      [0xF4, 0x29B1, 0xCBF43926, 0xE3069283, 0x1697D06A, 0x995DC9BBDF1939FA] := by decide +kernel

/-- The worked example of the chapter on check values: line 100, four pixels (205, 92, 92). -/
theorem test_output_check : (crcPreset 1).value ((crcPreset 1).segment 0 100 [0xCD, 0x5C, 0x5C, 0xCD, 0x5C, 0x5C, 0xCD, 0x5C, 0x5C, 0xCD, 0x5C, 0x5C]) = 0xE0 := by
  decide +kernel

/-- The worked example of R100: the reset record of ring 149. -/
theorem test_reset_record : resetRecord 6025 3 2 6030 = BitVec.ofNat 144 (0x00000000000017890384000000000000178E) := by decide +kernel

/-- The worked example of R41: a macro of SC5. -/
theorem test_locus : locusOf 3 5 2 0x13 0x3FFFFFF = BitVec.ofNat 72 (0x3000000000000000 + 0x0050000000000000 + 0x0000080000000000 + 0x13 * 2 ^ 26 + 0x3FFFFFF) := by decide +kernel

/-- 1.0 in F18. -/
theorem test_f18_one : f18OfFrac 255 255 = 0x0F800 := by decide +kernel

/-- The worked example of the address of element (1000, 500) of a tiled PX72 surface. -/
theorem test_tiled_address : elemOffset 1 552960 9 1000 500 = 0x00830160 ∧ tileIndex 8 20 = 608 := by decide +kernel

/-- The worked example of a translation: function 37, a DMA write of 0x5000_0048, and where it lies in DRAM. -/
def example37 : Dev :=
  let d := (((up.setPort 2 { up.port 2 with vfEnable := true, numVfs := 8, inForce := { (up.port 2).inForce with winBase := 0x100000000, winSize := 0x400000000 } }).setFn 37
    { up.fn 37 with iommuRoot := 0x100000001 }) : Dev)
  { d with dram := { d.dram with capacity := 8, twoRanks := true, inlineEcc := false },
           mem := cellSetAll [] ((List.range 8).map (fun i => (0x100000000 + i, BitVec.ofNat 8 (0x0000000100001001 / 256 ^ i))) ++
             (List.range 8).map (fun i => (0x100001008 + i, BitVec.ofNat 8 (0x0000000100002001 / 256 ^ i))) ++
             (List.range 8).map (fun i => (0x100002400 + i, BitVec.ofNat 8 (0x000000023460000F / 256 ^ i)))) }

theorem test_translation : (match (example37.translate 37 0x50000048 .write).2 with | .ok a => a | .error c => c) = 0x0234600048 := by decide +kernel

theorem test_dram_location : dramLoc { up.dram with capacity := 8, twoRanks := true, inlineEcc := false } 0x0234600048 =
    { group := 1, chan := 6, bank := 3, row := 6706, rank := 0, column := 72 } := by decide +kernel

/-- The worked example of a translucent telltale: the grey's EOTF and the port's codes. -/
theorem test_telltale : srgbEotf 128 255 = 0x0E5D1 ∧ encodeChannel 0 8 false false 0 0 (px 0x0F1BA 0 0 0) 3 = 205 ∧ encodeChannel 0 8 false false 0 0 (px 0x0DDD1 0 0 0) 3 = 92 := by decide +kernel

/-- The worked program of the chapter on the instruction set: its ENQ by fields; a reserved opcode and one of the privileged range. -/
theorem test_program_words : decodeInsn (.guest 0) 0x808614000020100400 = .enq (.guest 0) (Insn.ofWord 0x808614000020100400) ∧
    (let w := Insn.ofWord 0x808614000020100400; w.fmt = 4 ∧ w.dst = 12 ∧ w.srcA = 10 ∧ w.pred = 0 ∧ fld w.low 28 8 = 2 ∧ fld w.low 20 8 = 1 ∧ fld w.low 8 12 = 4) ∧
    decodeInsn (.guest 0) (Insn.word 0x0E (word 0 0 0 0 0 0)) = .ill (.guest 0) (word 0 0 0 0 0 0) ∧
    decodeInsn (.guest 0) (Insn.word 0xFA (word 0 0 0 0 0 0)) = .wdog (.guest 0) (word 0 0 0 0 0 0) ∧
    decodeInsn (.wave 0) (Insn.word 0xFA (word 0 0 0 0 0 0)) = .ill (.wave 0) (word 0 0 0 0 0 0) ∧
    decodeInsn (.guest 0) 0x04028C380000000000 = .add (.guest 0) (word 0 5 6 7 0 0) ∧ Insn.word 0x80 (Insn.ofWord 0x808614000020100400) = 0x808614000020100400 := by decide +kernel

end Sys2Proof.Tests
end

section
/-! The register accesses of hosts and of the supervisor port: what an access reads, what it writes, and when it does nothing. -/

namespace Sys2Proof.Machine

/-! A command that owes nothing when it ends. -/

/-- A device that a command may leave in state s without stores, accesses or decisions of its own still to follow. -/
def OwesNothing (s : State) (d : Dev) : Prop := d.Quiet ∧ d.Calm ∧ d.mem = s.dev.mem

theorem State.Steady.owesNothing {s : State} (k : s.Steady) : OwesNothing s s.dev := ⟨k.1.1, k.1.2, rfl⟩

/-- A device without an access left over is what `Is` says of itself. -/
theorem is_self {d : Dev} (q : d.Quiet) : Is d d :=
  ⟨q.1, fun a => by simp [Dev.peekByte, q.1], ⟨(mpSeq, 0), (busStep_quiet d _ q).symm⟩, rfl⟩

/-- A run with effect d that owes nothing ends with d. -/
theorem does_run {i : Instr} {s : State} {h : Dev → Dev} {d : Dev} {P : Dev → Prop} (x : exec i s = run h s) (e : h s.dev = d)
    (o : OwesNothing s d) (p : P d) : Does i s P := by
  subst e
  obtain ⟨quiet, calm, mem⟩ := o
  exact does_quiet i s _ h x calm quiet mem p

theorem becomes_run {i : Instr} {s : State} {h : Dev → Dev} {d : Dev} (x : exec i s = run h s) (e : h s.dev = d)
    (o : OwesNothing s d) : Becomes i s d :=
  does_run x e o (is_self o.1)

/-! The arrival of a host's request. -/

/-- Firing HOSTm changes the power state alone (R434). -/
theorem Dev.hostFired_eq (d : Dev) (f : Nat) : d.hostFired f = { d with power := (d.hostFired f).power } := by
  unfold Dev.hostFired; split <;> rfl

theorem OwesNothing.hostFired {s : State} {d : Dev} (o : OwesNothing s d) (f : Nat) : OwesNothing s (d.hostFired f) := by
  rw [Dev.hostFired_eq]; exact o

@[simp] theorem Dev.hostFired_fn (d : Dev) (f g : Nat) : (d.hostFired f).fn g = d.fn g := by rw [Dev.hostFired_eq]; rfl
@[simp] theorem Dev.hostFired_exists (d : Dev) (f g : Nat) : (d.hostFired f).exists_ g = d.exists_ g := by rw [Dev.hostFired_eq]; rfl

theorem Arrives.owesNothing {s : State} {f : Nat} {d : Dev} (k : Arrives s f d) : OwesNothing s d := by
  obtain ⟨steady, -, -, rfl⟩ := k
  exact steady.owesNothing.hostFired f

/-- An effect takes place on the device at which its request arrives. -/
theorem Arrives.hosted_eq {s : State} {f : Nat} {d : Dev} (k : Arrives s f d) (i : Instr) (h : Dev → Dev) : hosted i f h s.dev = h d := by
  obtain ⟨-, reach, awake, rfl⟩ := k
  simp [hosted, reach, awake]

/-! Accesses and the readers that make them. -/

theorem exec_latchRead (r : Reader) (a : Nat) (wide : Bool) (s : State) : exec (.latchRead r a wide) s = execLatchRead r a wide s := rfl
theorem exec_registerWrite (r : Reader) (a : Nat) (wide : Bool) (v : BitVec 64) (s : State) :
    exec (.registerWrite r a wide v) s = execRegisterWrite r a wide v s := rfl

theorem aligned_iff (a : Nat) (wide : Bool) : aligned a wide = true ↔ a % (if wide then 8 else 4) = 0 := by simp [aligned]

/-- An access that is not naturally aligned has no effect (R9). -/
theorem readerRun_misaligned {a : Nat} {wide : Bool} (n : a % (if wide then 8 else 4) ≠ 0) (i : Instr) (r : Reader) (h : Dev → Dev) (d : Dev) :
    readerRun i r a wide h d = d := by
  have : aligned a wide = false := by simpa [aligned] using n
  simp [readerRun, this]

theorem readerRun_bar0 {s : State} {f : Fin 64} {d : Dev} {a : Nat} {wide : Bool} (k : Arrives s f.val d) (al : aligned a wide = true)
    (lt : a < 0x10000) (i : Instr) (h : Dev → Dev) : readerRun i (.bar0 f) a wide h s.dev = h d := by
  simp [readerRun, al, lt, k.hosted_eq]

/-- BAR4 is the manager's: a request of any other function has no effect (R126, R127). -/
theorem readerRun_bar4 {s : State} {f : Fin 64} {d : Dev} {a : Nat} {wide : Bool} (k : Arrives s f.val d) (al : aligned a wide = true)
    (lt : a < 0x10000) (i : Instr) (h : Dev → Dev) : readerRun i (.bar4 f) a wide h s.dev = if f.val = d.manager then h d else d := by
  simp [readerRun, al, lt, managed, k.hosted_eq]

theorem latchRead_misaligned {s : State} (k : s.Steady) {a : Nat} {wide : Bool} (n : a % (if wide then 8 else 4) ≠ 0) (r : Reader) :
    Becomes (.latchRead r a wide) s s.dev :=
  becomes_run (exec_latchRead r a wide s) (readerRun_misaligned n ..) k.owesNothing

theorem registerWrite_misaligned {s : State} (k : s.Steady) {a : Nat} {wide : Bool} (n : a % (if wide then 8 else 4) ≠ 0) (r : Reader)
    (v : BitVec 64) : Becomes (.registerWrite r a wide v) s s.dev :=
  becomes_run (exec_registerWrite r a wide v s) (readerRun_misaligned n ..) k.owesNothing

/-! Where registers lie. -/

/-- The ROL registers of BAR0 lie below the function control blocks, each at a multiple of 4. -/
theorem bar0Groups_bounds : ∀ g ∈ bar0Groups, ∀ b ∈ g, b < 0x1400 ∧ b % 4 = 0 := by decide

theorem bar0Wide_unmapped {a : Nat} (lo : 0x5000 ≤ a) : bar0Wide a = false := by
  have hi : ¬ a < 0x1400 ∧ ¬ a < 0x5000 := by omega
  simp [bar0Wide, hi]
  omega

/-- Past the registers of BAR0 each 32 bits stand for themselves. -/
theorem readerBase_bar0_unmapped {a : Nat} (f : Fin 64) (lo : 0x5000 ≤ a) (al : a % 4 = 0) : readerBase (.bar0 f) a = a := by
  have : readerWide (.bar0 f) (a / 8 * 8) = false := bar0Wide_unmapped (by omega)
  simp only [readerBase, this, Bool.false_eq_true, if_false]
  omega

theorem Dev.bar0Reg_unmapped (d : Dev) (f : Nat) {a : Nat} (lo : 0x5000 ≤ a) : d.bar0Reg f a = 0 := by
  unfold Dev.bar0Reg
  repeat rw [if_neg (by omega)]

theorem Dev.bar0Set_unmapped (d : Dev) (f v : Nat) {a : Nat} (lo : 0x5000 ≤ a) : d.bar0Set f a v = d := by
  unfold Dev.bar0Set
  dsimp only
  repeat rw [if_neg (by omega)]

/-! Reads. -/

/-- No latch is taken where no group's lowest register is read (R13). -/
theorem Dev.latchBy_of_no_low (d : Dev) {r : Reader} {a n : Nat}
    (no : ∀ g ∈ readerGroups r, ∀ low, g.head? = some low → ¬ (a ≤ low ∧ low < a + n)) : d.latchBy r a n = d := by
  unfold Dev.latchBy
  rw [List.foldl_ext _ (fun e _ => e) d ?_, List.foldl_fixed]
  intro e g mem
  cases g with
  | nil => rfl
  | cons low rest => exact if_neg (no _ mem low rfl)

theorem Dev.latchBy_bar0 (d : Dev) (f : Fin 64) {a : Nat} (al : a % 4 = 0) (no : ∀ g ∈ bar0Groups, g.head? ≠ some a) :
    d.latchBy (.bar0 f) a 4 = d := by
  apply Dev.latchBy_of_no_low
  rintro g mem low head ⟨ge, lt⟩
  have low4 := (bar0Groups_bounds g mem low (List.mem_of_head? head)).2
  have : low = a := by omega
  exact no g mem (this ▸ head)

/-- A register in no group reads as it stands. -/
theorem Dev.regRead_bar0 (d : Dev) (f : Fin 64) {b : Nat} (no : ∀ g ∈ bar0Groups, g.contains b = false) :
    d.regRead (.bar0 f) b = d.bar0Reg f.val b := by
  have : readerGroup (.bar0 f) b = none := by
    simp only [readerGroup, readerGroups, List.find?_eq_none]
    exact fun g mem => by simpa using no g mem
  simp [Dev.regRead, this, Dev.regLive]

theorem Dev.regRead_latched (d : Dev) {r : Reader} {b : Nat} {g : List Nat} {v : BitVec 64} (grp : readerGroup r b = some g)
    (latch : tfind d.latch (readerKey r b) = some v) : d.regRead r b = v.toNat := by
  simp [Dev.regRead, grp, latch]

/-- DEVTIME is a group of its own. -/
theorem readerGroup_devtime (f : Fin 64) : readerGroup (.bar0 f) 0x08 = some [0x08] := rfl

/-- The read of DEVTIME's low half takes the time of the read into the latch. -/
theorem Dev.latchBy_devtime (d : Dev) (f : Fin 64) :
    d.latchBy (.bar0 f) 0x08 4 = { d with latch := tset d.latch (readerKey (.bar0 f) 0x08) (BitVec.ofNat 64 d.now) } := rfl

/-- A 32-bit read of BAR0 takes its latches and answers. -/
theorem does_latchRead_bar0 {s : State} {f : Fin 64} {d e : Dev} {a : Nat} {P : Dev → Prop} (k : Arrives s f.val d) (al : a % 4 = 0)
    (lt : a < 0x10000) (latch : d.latchBy (.bar0 f) a 4 = e) (o : OwesNothing s e)
    (p : P { e with host := some (.data (toBytes 4 (e.read32 (.bar0 f) a))) }) : Does (.latchRead (.bar0 f) a false) s P := by
  refine does_run (exec_latchRead _ a false s) ?_ (d := { e with host := some (.data (toBytes 4 (e.read32 (.bar0 f) a))) }) o p
  rw [readerRun_bar0 k ((aligned_iff a false).2 al) lt]
  simp [Dev.readAccess, latch]

/-- A 32-bit read of BAR0 that takes no latch only answers. -/
theorem becomes_latchRead_bar0 {s : State} {f : Fin 64} {d : Dev} {a x : Nat} (k : Arrives s f.val d) (al : a % 4 = 0) (lt : a < 0x10000)
    (no : ∀ g ∈ bar0Groups, g.head? ≠ some a) (read : d.read32 (.bar0 f) a = x) :
    Becomes (.latchRead (.bar0 f) a false) s { d with host := some (.data (toBytes 4 x)) } := by
  subst read
  exact does_latchRead_bar0 k al lt (d.latchBy_bar0 f al no) k.owesNothing (is_self k.owesNothing.1)

/-! Writes. -/

theorem becomes_registerWrite_bar0 {s : State} {f : Fin 64} {d e : Dev} {a : Nat} {wide : Bool} {v : BitVec 64} (k : Arrives s f.val d)
    (al : aligned a wide = true) (lt : a < 0x10000) (set : d.writeAccess (.bar0 f) a wide v.toNat = e) (o : OwesNothing s e) :
    Becomes (.registerWrite (.bar0 f) a wide v) s e :=
  becomes_run (exec_registerWrite _ a wide v s) ((readerRun_bar0 k al lt _ _).trans set) o

/-- A 32-bit access to a 32-bit register sets it. -/
theorem Dev.writeAccess_narrow (d : Dev) {r : Reader} {a : Nat} (base : readerBase r a = a) (narrow : readerWide r a = false) (v : Nat) :
    d.writeAccess r a false v = d.regSet r a (v % 2 ^ 32) := by
  simp [Dev.writeAccess, Dev.write32, base, narrow]

/-- A 64-bit access to a 64-bit register sets it. -/
theorem Dev.writeAccess_wide (d : Dev) {r : Reader} {a : Nat} (wide : readerWide r a = true) (v : BitVec 64) :
    d.writeAccess r a true v.toNat = d.regSet r a v.toNat := by
  simp [Dev.writeAccess, wide, Nat.mod_eq_of_lt v.isLt]

theorem ofNat_toNat_mod (v : BitVec 64) : BitVec.ofNat 32 (v.toNat % 2 ^ 32) = v.setWidth 32 := by
  apply BitVec.eq_of_toNat_eq; simp

/-- The low bits of the 32 that a write carries are those of its value. -/
theorem setWidth_ofNat_mod (v : BitVec 64) {n : Nat} (le : n ≤ 32) : (BitVec.ofNat 32 (v.toNat % 2 ^ 32)).setWidth n = v.setWidth n := by
  rw [ofNat_toNat_mod, BitVec.setWidth_setWidth_of_le _ le]

/-- The 12 registers of pipe events clear by a 1 (R135). -/
theorem Dev.bar0Set_pipeEv (d : Dev) (f v : Nat) {p : Nat} (lt : p < 12) :
    d.bar0Set f (0x400 + 4 * p) v = d.setFn f { d.fn f with
      pipeEv := tset (d.fn f).pipeEv p ((tget (d.fn f).pipeEv p 0) &&& ~~~((BitVec.ofNat 32 v).setWidth 8)) } := by
  have index : (0x400 + 4 * p - 0x400) / 4 = p := by omega
  unfold Dev.bar0Set
  dsimp only
  iterate 6 rw [if_neg (by omega)]
  rw [if_pos (by omega), index]

/-- Registers of ring k lie from 0x1000 + 0x100 k on (R86). -/
theorem Dev.bar0Set_ring (d : Dev) (f v : Nat) (k : Fin 4) {x : Nat} (lt : x < 0x100) :
    d.bar0Set f (0x1000 + 0x100 * k.val + x) v = d.ringSet (4 * f + k.val) x v := by
  have ring : (0x1000 + 0x100 * k.val + x - 0x1000) / 0x100 = k.val := by omega
  have reg : (0x1000 + 0x100 * k.val + x) % 0x100 = x := by omega
  unfold Dev.bar0Set
  dsimp only
  iterate 9 rw [if_neg (by omega)]
  rw [if_pos (by omega), ring, reg]

@[simp] theorem ringFn_ring (f : Nat) (k : Fin 4) : ringFn (4 * f + k.val) = f := by unfold ringFn; omega

/-- A ring in use keeps its base (R86). -/
theorem Dev.ringSet_base_busy (d : Dev) (g v : Nat) (busy : (d.ring g).enable = true ∨ (d.ring g).inflight ≠ 0) : d.ringSet g 0x00 v = d := by
  simp [Dev.ringSet, busy]

/-- A ring disabled and empty, whose function is not being reset, takes its bases, multiples of 64 (R86). -/
theorem Dev.ringSet_bases (d : Dev) (g v : Nat) (up : d.resetting (ringFn g) = false) (off : (d.ring g).enable = false)
    (empty : (d.ring g).inflight = 0) :
    d.ringSet g 0x00 v = d.setRing g { d.ring g with base := BitVec.ofNat 64 v &&& 0x0000FFFFFFFFFFC0 } ∧
    d.ringSet g 0x08 v = d.setRing g { d.ring g with cmplBase := BitVec.ofNat 64 v &&& 0x0000FFFFFFFFFFC0 } := by
  simp [Dev.ringSet, up, off, empty]

/-- LOCK of SM_CFG closes the supervisor port's registers (R511). -/
theorem Dev.regSet_locked {d : Dev} (lock : d.safety.lock = true) (a v : Nat) : d.regSet .svp a v = d := by simp [Dev.regSet, Dev.svpSet, lock]

theorem Dev.writeAccess_locked {d : Dev} (lock : d.safety.lock = true) (a : Nat) (wide : Bool) (v : Nat) : d.writeAccess .svp a wide v = d := by
  simp [Dev.writeAccess, Dev.write32, Dev.regSet_locked lock]

/-! Configuration requests. -/

theorem exec_configRequest (f : Fin 64) (reg : CfgReg) (w : Option (BitVec 32)) (s : State) :
    exec (.configRequest f reg w) s = execConfigRequest f reg w s := rfl

section
variable {s : State} {f : Fin 64} (reg : CfgReg) (w : Option (BitVec 32))
  (link : (s.dev.port (f.val / 16)).link = .l0 ∨ (s.dev.port (f.val / 16)).link = .l1)
include link

/-- Before READY a configuration request is to be made again (R450). -/
theorem becomes_configRequest_retry (k : s.Steady) (boot : s.dev.boot.stage ≠ .ready) :
    Becomes (.configRequest f reg w) s { s.dev with host := some .retry } := by
  refine becomes_run (exec_configRequest f reg w s) ?_ k.owesNothing
  rcases link with l | l <;> simp [l, boot]

/-- A device that is ready and awake serves a configuration request. -/
theorem becomes_configRequest_served {e : Dev} (boot : s.dev.boot.stage = .ready) (awake : s.dev.asleep = false)
    (serve : (s.dev.hostFired f.val).cfgServe f.val reg w = e) (o : OwesNothing s e) : Becomes (.configRequest f reg w) s e := by
  refine becomes_run (exec_configRequest f reg w s) ?_ o
  rcases link with l | l <;> simp [l, boot, awake, serve]

end

theorem Dev.cfgServe_absent {d : Dev} {f : Nat} (no : d.exists_ f = false) (reg : CfgReg) (w : Option (BitVec 32)) :
    d.cfgServe f reg w = { d with host := some .unsupported } := by simp [Dev.cfgServe, no]

theorem Dev.cfgServe_read {d : Dev} {f : Nat} (yes : d.exists_ f = true) (reg : CfgReg) :
    d.cfgServe f reg none = { d with host := some (.data (toBytes (d.cfgValue f reg).1 (d.cfgValue f reg).2)) } := by simp [Dev.cfgServe, yes]

theorem Dev.cfgServe_write {d : Dev} {f : Nat} (yes : d.exists_ f = true) (reg : CfgReg) (v : BitVec 32) :
    d.cfgServe f reg (some v) = { d.cfgSet f reg v.toNat with host := some (.data []) } := by simp [Dev.cfgServe, yes]

/-- A function that exists answers a read with the bytes of the register. -/
theorem becomes_configRequest_read {s : State} {f : Fin 64} {reg : CfgReg} {bytes : List Byte} (k : s.Steady)
    (link : (s.dev.port (f.val / 16)).link = .l0 ∨ (s.dev.port (f.val / 16)).link = .l1) (boot : s.dev.boot.stage = .ready)
    (awake : s.dev.asleep = false) (yes : s.dev.exists_ f.val = true)
    (value : toBytes ((s.dev.hostFired f.val).cfgValue f.val reg).1 ((s.dev.hostFired f.val).cfgValue f.val reg).2 = bytes) :
    Becomes (.configRequest f reg none) s { s.dev.hostFired f.val with host := some (.data bytes) } := by
  subst value
  have here : (s.dev.hostFired f.val).exists_ f.val = true := by simpa using yes
  exact becomes_configRequest_served reg none link boot awake (Dev.cfgServe_read here reg) (k.owesNothing.hostFired f.val)

theorem Dev.vendorId_bytes (d : Dev) (f : Nat) : toBytes (d.cfgValue f .vendorId).1 (d.cfgValue f .vendorId).2 = [0x7A, 0x1D] := by
  simp [Dev.cfgValue, toBytes]

/-- The device ID tells a PF from a VF (R4). -/
theorem Dev.deviceId_bytes (d : Dev) (f : Nat) :
    toBytes (d.cfgValue f .deviceId).1 (d.cfgValue f .deviceId).2 = [if f % 16 = 0 then 0x80 else 0x81, 0x12] := by
  by_cases pf : f % 16 = 0 <;> simp [Dev.cfgValue, pf, toBytes]

theorem Dev.revisionId_bytes (d : Dev) (f : Nat) : toBytes (d.cfgValue f .revisionId).1 (d.cfgValue f .revisionId).2 = [0xB0] := by
  simp [Dev.cfgValue, toBytes]

theorem Dev.subsystemVendorId_bytes (d : Dev) (f : Nat) :
    toBytes (d.cfgValue f .subsystemVendorId).1 (d.cfgValue f .subsystemVendorId).2 = toBytes 2 (d.fn f).ssVid.toNat := rfl

theorem Dev.cfgSet_msixEnable (d : Dev) (f : Nat) (v : BitVec 32) :
    d.cfgSet f .msixEnable v.toNat = d.setFn f { d.fn f with msixEnable := bit v 0 } := by
  have : decide (v.toNat % 2 = 1) = bit v 0 := by simp [bit, BitVec.getLsbD, Nat.testBit_zero]
  simp [Dev.cfgSet, this]

/-! The clauses of the statement. -/

theorem latchRead_outside_groups (s : State) (f : Fin 64) (a b : Nat) (d : Dev) (k : Arrives s f.val d) (al : a % 4 = 0) (lt : a < 0x10000)
    (base : b = readerBase (.bar0 f) a) (no : ∀ g ∈ bar0Groups, g.contains b = false ∧ g.head? ≠ some a) :
    Becomes (.latchRead (.bar0 f) a false) s { d with host := some (.data (toBytes 4 (d.bar0Reg f.val b / 2 ^ (8 * (a - b)) % 2 ^ 32))) } := by
  subst base
  apply becomes_latchRead_bar0 k al lt fun g mem => (no g mem).2
  simp only [Dev.read32, d.regRead_bar0 f fun g mem => (no g mem).1]

theorem latchRead_devtime_low (s : State) (f : Fin 64) (d : Dev) (k : Arrives s f.val d) :
    Does (.latchRead (.bar0 f) 0x08 false) s (fun e =>
      e.host = some (.data (toBytes 4 (d.now % 2 ^ 32))) ∧ tfind e.latch (readerKey (.bar0 f) 0x08) = some (BitVec.ofNat 64 d.now) ∧
      { e with host := d.host, latch := d.latch, bus := d.bus } = d) := by
  refine does_latchRead_bar0 k rfl (by decide) (d.latchBy_devtime f) k.owesNothing ⟨?_, tfind_tset_same .., rfl⟩
  have base : readerBase (.bar0 f) 0x08 = 0x08 := rfl
  simp only [Dev.read32, base]
  rw [Dev.regRead_latched _ (readerGroup_devtime f) (tfind_tset_same ..)]
  simp

theorem latchRead_devtime_high (s : State) (f : Fin 64) (d : Dev) (v : BitVec 64) (k : Arrives s f.val d)
    (latch : tfind d.latch (readerKey (.bar0 f) 0x08) = some v) :
    Becomes (.latchRead (.bar0 f) 0x0C false) s { d with host := some (.data (toBytes 4 (v.toNat / 2 ^ 32))) } := by
  apply becomes_latchRead_bar0 k rfl (by decide) (by decide)
  have base : readerBase (.bar0 f) 0x0C = 0x08 := rfl
  simp only [Dev.read32, base]
  rw [d.regRead_latched (readerGroup_devtime f) latch]
  omega

/-- An offset that no register occupies (R17). -/
theorem accesses_unmapped (s : State) (f : Fin 64) (a : Nat) (v : BitVec 64) (d : Dev) (k : Arrives s f.val d) (al : a % 4 = 0)
    (lo : 0x5000 ≤ a) (lt : a < 0x10000) :
    Becomes (.latchRead (.bar0 f) a false) s { d with host := some (.data [0, 0, 0, 0]) } ∧ Becomes (.registerWrite (.bar0 f) a false v) s d := by
  have base := readerBase_bar0_unmapped f lo al
  have out : ∀ g ∈ bar0Groups, a ∉ g := fun g mem h => by have := (bar0Groups_bounds g mem a h).1; omega
  constructor
  · refine becomes_latchRead_bar0 (x := 0) k al lt (fun g mem h => out g mem (List.mem_of_head? h)) ?_
    have no : ∀ g ∈ bar0Groups, g.contains a = false := fun g mem => by simpa using out g mem
    simp only [Dev.read32, base, d.regRead_bar0 f no, d.bar0Reg_unmapped f.val lo, Nat.zero_div, Nat.zero_mod]
  · refine becomes_registerWrite_bar0 k ((aligned_iff a false).2 al) lt ?_ k.owesNothing
    rw [d.writeAccess_narrow base (bar0Wide_unmapped lo)]
    exact d.bar0Set_unmapped f.val _ lo

/-- A 32-bit write to a 32-bit register of BAR0. -/
theorem becomes_bar0Set_narrow {s : State} {f : Fin 64} {d e : Dev} {a : Nat} {v : BitVec 64} (k : Arrives s f.val d) (al : a % 4 = 0)
    (lt : a < 0x10000) (narrow : bar0Wide a = false) (below : bar0Wide (a / 8 * 8) = false) (set : d.bar0Set f.val a (v.toNat % 2 ^ 32) = e)
    (o : OwesNothing s e) : Becomes (.registerWrite (.bar0 f) a false v) s e := by
  have base : readerBase (.bar0 f) a = a := by simp only [readerBase, readerWide, below, Bool.false_eq_true, if_false]; omega
  exact becomes_registerWrite_bar0 k ((aligned_iff a false).2 al) lt ((d.writeAccess_narrow base narrow _).trans set) o

/-- A 64-bit write to a 64-bit register of BAR0. -/
theorem becomes_bar0Set_wide {s : State} {f : Fin 64} {d e : Dev} {a : Nat} {v : BitVec 64} (k : Arrives s f.val d) (al : a % 8 = 0)
    (lt : a < 0x10000) (wide : bar0Wide a = true) (set : d.bar0Set f.val a v.toNat = e) (o : OwesNothing s e) :
    Becomes (.registerWrite (.bar0 f) a true v) s e :=
  becomes_registerWrite_bar0 k ((aligned_iff a true).2 al) lt ((d.writeAccess_wide (r := .bar0 f) wide v).trans set) o

/-- The addresses of the pipe events hold 32-bit registers. -/
theorem pipeEv_narrow : ∀ p < 12, bar0Wide (0x400 + 4 * p) = false ∧ bar0Wide ((0x400 + 4 * p) / 8 * 8) = false := by decide

/-- The addresses of a ring's bases hold 64-bit registers. -/
theorem ringBase_wide : ∀ k : Fin 4, bar0Wide (0x1000 + 0x100 * k.val) = true ∧ bar0Wide (0x1008 + 0x100 * k.val) = true := by decide

theorem registerWrite_function_fields (s : State) (f : Fin 64) (v : BitVec 64) (d : Dev) (x : Fn) (k : Arrives s f.val d) (h : x = d.fn f.val) :
    Becomes (.registerWrite (.bar0 f) 0x44 false v) s (d.setFn f.val { x with evEnable := v.setWidth 9 }) ∧
    Becomes (.registerWrite (.bar0 f) 0x40 false v) s (d.setFn f.val { x with evStatus := x.evStatus &&& ~~~(v.setWidth 9) }) ∧
    Becomes (.registerWrite (.bar0 f) 0x60 true v) s (d.setFn f.val { x with apertureBase := v &&& 0x0000FFFFF0000000 }) ∧
    Becomes (.registerWrite (.bar0 f) 0x00 false v) s d ∧
    ∀ p, p < 12 → Becomes (.registerWrite (.bar0 f) (0x400 + 4 * p) false v) s
      (d.setFn f.val { x with pipeEv := tset x.pipeEv p ((tget x.pipeEv p 0) &&& ~~~(v.setWidth 8)) }) := by
  subst h
  have o := k.owesNothing
  rw [← setWidth_ofNat_mod v (n := 9) (by decide), ← setWidth_ofNat_mod v (n := 8) (by decide)]
  refine ⟨becomes_bar0Set_narrow k rfl (by decide) rfl rfl rfl o, becomes_bar0Set_narrow k rfl (by decide) rfl rfl rfl o, ?_,
    becomes_bar0Set_narrow k rfl (by decide) rfl rfl rfl o, fun p lt => ?_⟩
  · refine becomes_bar0Set_wide k rfl (by decide) rfl ?_ o
    simp [Dev.bar0Set]
  · obtain ⟨narrow, below⟩ := pipeEv_narrow p lt
    exact becomes_bar0Set_narrow k (by omega) (by omega) narrow below (d.bar0Set_pipeEv f.val _ lt) o

theorem registerWrite_ring_bases (s : State) (f : Fin 64) (k : Fin 4) (v : BitVec 64) (d : Dev) (r : Ring) (h : Arrives s f.val d)
    (up : d.resetting f.val = false) (hr : r = d.ring (4 * f.val + k.val)) :
    ((r.enable = true ∨ r.inflight ≠ 0) → Becomes (.registerWrite (.bar0 f) (0x1000 + 0x100 * k.val) true v) s d) ∧
    (r.enable = false → r.inflight = 0 →
      Becomes (.registerWrite (.bar0 f) (0x1000 + 0x100 * k.val) true v) s (d.setRing (4 * f.val + k.val) { r with base := v &&& 0x0000FFFFFFFFFFC0 }) ∧
      Becomes (.registerWrite (.bar0 f) (0x1008 + 0x100 * k.val) true v) s
        (d.setRing (4 * f.val + k.val) { r with cmplBase := v &&& 0x0000FFFFFFFFFFC0 })) := by
  subst hr
  have o := h.owesNothing
  obtain ⟨wide, wideCmpl⟩ := ringBase_wide k
  have base := d.bar0Set_ring f.val v.toNat k (x := 0x00) (by decide)
  have cmpl := d.bar0Set_ring f.val v.toNat k (x := 0x08) (by decide)
  rw [show 0x1000 + 0x100 * k.val + 0x08 = 0x1008 + 0x100 * k.val by omega] at cmpl
  refine ⟨fun busy => becomes_bar0Set_wide h (by omega) (by omega) wide (base.trans (d.ringSet_base_busy _ _ busy)) o, fun off empty => ?_⟩
  obtain ⟨setBase, setCmpl⟩ := d.ringSet_bases (4 * f.val + k.val) v.toNat (by simpa using up) off empty
  rw [BitVec.ofNat_toNat, BitVec.setWidth_eq] at setBase setCmpl
  exact ⟨becomes_bar0Set_wide h (by omega) (by omega) wide (base.trans setBase) o,
    becomes_bar0Set_wide h (by omega) (by omega) wideCmpl (cmpl.trans setCmpl) o⟩

theorem registerWrite_bar4 (s : State) (f : Fin 64) (v : BitVec 64) (d : Dev) (k : Arrives s f.val d) :
    (f.val = d.manager → Becomes (.registerWrite (.bar4 f) 0xC020 false v) s
      { d with power := { d.power with wakeEn := ((v.setWidth 32 : BitVec 32) &&& 0x0FFFF7F0) ||| 0x8000000F } }) ∧
    (f.val ≠ d.manager → ∀ a wide, Becomes (.registerWrite (.bar4 f) a wide v) s d ∨ a % (if wide then 8 else 4) ≠ 0 ∨ 0x10000 ≤ a) := by
  constructor
  · intro own
    refine becomes_run (exec_registerWrite _ _ _ v s) ?_ k.owesNothing
    rw [readerRun_bar4 k rfl (by decide), if_pos own, d.writeAccess_narrow rfl rfl, ← ofNat_toNat_mod v]
    exact if_pos own
  · intro other a wide
    by_cases al : a % (if wide then 8 else 4) = 0
    · by_cases lt : a < 0x10000
      · exact .inl (becomes_run (exec_registerWrite _ _ _ v s) ((readerRun_bar4 k ((aligned_iff a wide).2 al) lt _ _).trans (if_neg other)) k.owesNothing)
      · exact .inr (.inr (Nat.le_of_not_lt lt))
    · exact .inr (.inl al)

theorem registerWrite_svp_locked (s : State) (a : Nat) (wide : Bool) (v : BitVec 64) (k : s.Steady) (lock : s.dev.safety.lock = true) :
    Becomes (.registerWrite .svp a wide v) s s.dev := by
  refine becomes_run (exec_registerWrite _ _ _ v s) ?_ k.owesNothing
  simp [readerRun, Dev.writeAccess_locked lock]

theorem registerWrite_svp_froSel (s : State) (v : BitVec 64) (k : s.Steady) (lock : s.dev.safety.lock = false) (boot : s.dev.boot.stage ≠ .held)
    (power : s.dev.power.state ≠ .standby) :
    Becomes (.registerWrite .svp 0x10404 false v) s { s.dev with safety := { s.dev.safety with froSel := v.setWidth 6 } } := by
  refine becomes_run (exec_registerWrite _ _ _ v s) ?_ k.owesNothing
  have al : aligned 0x10404 false = true := rfl
  rw [← setWidth_ofNat_mod v (by decide)]
  simp only [readerRun, al, boot, power, s.dev.writeAccess_narrow (r := .svp) (a := 0x10404) rfl rfl]
  simp [Dev.regSet, Dev.svpSet, lock]

theorem configRequest_identity (s : State) (f : Fin 64) (reg : CfgReg) (w : Option (BitVec 32)) (k : s.Steady)
    (link : (s.dev.port (f.val / 16)).link = .l0 ∨ (s.dev.port (f.val / 16)).link = .l1) :
    (s.dev.boot.stage ≠ .ready → Becomes (.configRequest f reg w) s { s.dev with host := some .retry }) ∧
    (s.dev.boot.stage = .ready → s.dev.asleep = false → s.dev.exists_ f.val = true →
      Becomes (.configRequest f .vendorId none) s { s.dev.hostFired f.val with host := some (.data [0x7A, 0x1D]) } ∧
      Becomes (.configRequest f .deviceId none) s { s.dev.hostFired f.val with host := some (.data [if f.val % 16 = 0 then 0x80 else 0x81, 0x12]) } ∧
      Becomes (.configRequest f .revisionId none) s { s.dev.hostFired f.val with host := some (.data [0xB0]) } ∧
      Becomes (.configRequest f .subsystemVendorId none) s
        { s.dev.hostFired f.val with host := some (.data (toBytes 2 (s.dev.fn f.val).ssVid.toNat)) } ∧
      ∀ v : BitVec 32, Becomes (.configRequest f .msixEnable (some v)) s
        { (s.dev.hostFired f.val).setFn f.val { s.dev.fn f.val with msixEnable := bit v 0 } with host := some (.data []) }) ∧
    (s.dev.boot.stage = .ready → s.dev.asleep = false → s.dev.exists_ f.val = false →
      Becomes (.configRequest f reg w) s { s.dev.hostFired f.val with host := some .unsupported }) := by
  have o := k.owesNothing.hostFired f.val
  refine ⟨becomes_configRequest_retry reg w link k, fun boot awake yes => ?_, fun boot awake no => ?_⟩
  · have read {reg : CfgReg} {bytes : List Byte} := becomes_configRequest_read (reg := reg) (bytes := bytes) k link boot awake yes
    refine ⟨read (Dev.vendorId_bytes ..), read (Dev.deviceId_bytes ..), read (Dev.revisionId_bytes ..), read ?_, fun v => ?_⟩
    · rw [Dev.subsystemVendorId_bytes, Dev.hostFired_fn]
    · have here : (s.dev.hostFired f.val).exists_ f.val = true := by simpa using yes
      refine becomes_configRequest_served .msixEnable (some v) link boot awake ?_ o
      rw [Dev.cfgServe_write here, Dev.cfgSet_msixEnable, Dev.hostFired_fn]
  · exact becomes_configRequest_served reg w link boot awake (Dev.cfgServe_absent (by simpa using no) reg w) o

/-- Settles O34: each clause is a lemma above; all rest on an access being one run that owes nothing when it ends. -/
theorem registerAccesses : Obligations.RegisterAccesses :=
  ⟨latchRead_outside_groups, latchRead_devtime_low, latchRead_devtime_high,
    fun _ f _ _ v k n => ⟨latchRead_misaligned k n (.bar0 f), registerWrite_misaligned k n (.bar0 f) v, latchRead_misaligned k n (.bar4 f),
      registerWrite_misaligned k n (.bar4 f) v, latchRead_misaligned k n .svp, registerWrite_misaligned k n .svp v⟩,
    accesses_unmapped, registerWrite_function_fields, registerWrite_ring_bases, registerWrite_bar4, registerWrite_svp_locked,
    registerWrite_svp_froSel, configRequest_identity⟩

end Sys2Proof.Machine
end

section
/-! Steps and completion: what a step does when no command waits, and the commands that can stop. -/

namespace Sys2Proof.Machine

/-! A step on an empty queue. -/

/-- A device with nothing held, or one that does not serve what it holds, idles. -/
theorem step_eq_idle {d : Dev} (h : d.held = [] ∨ d.serves = false) : step { dev := d, pending := [] } = .next { dev := d.idle, pending := [] } := by
  cases held : d.held with
  | nil => simp [step, held]
  | cons i rest =>
    have asleep : d.serves = false := h.resolve_left (by simp [held])
    simp [step, held, asleep]

/-- A device that serves runs the request at the front of those it holds (R439). -/
theorem step_eq_exec_held {d : Dev} {i : Instr} {rest : List Instr} (held : d.held = i :: rest) (serves : d.serves = true) :
    step { dev := d, pending := [] } = exec i { dev := { d with held := rest }, pending := [] } := by
  simp [step, held, serves]

/-- Settles O2: an idle step adds one to DEVTIME, by the definition of `Dev.idle`. -/
theorem stepIdles : Obligations.StepIdles :=
  ⟨fun _ => step_eq_idle, fun _ _ _ => step_eq_exec_held⟩

/-! How a command completes. -/

theorem IsRun.completes {x : Host.Outcome State Fault Refusal} {s : State} (h : IsRun x s) : ∃ t, x = .next t := by
  obtain ⟨who, effect, rfl⟩ := h
  exact ⟨_, runFrom_next who effect s⟩

theorem IsRun.pending_eq {x : Host.Outcome State Fault Refusal} {s t : State} (h : IsRun x s) (e : x = .next t) : t.pending = s.pending := by
  obtain ⟨who, effect, rfl⟩ := h
  exact runFrom_pending who effect s t e

/-- A command that completes leaves the queue as it was. -/
theorem exec_pending_eq {i : Instr} {s t : State} (e : exec i s = .next t) : t.pending = s.pending := by
  obtain runs | ⟨a, stops⟩ := exec_isRunOrStop i s
  · exact runs.pending_eq e
  · rw [stops] at e
    cases e

/-- Every command completes or stops at the control space; none is refused. -/
theorem exec_completes_or_stops (i : Instr) (s : State) : (∃ t, exec i s = .next t) ∨ ∃ a, exec i s = .fault (.controlSpace a) :=
  (exec_isRunOrStop i s).imp_left IsRun.completes

/-- Only PLD, PST and DBG_ACCESS can stop (R42): the meaning of every other command evaluates to a next state, whatever the state. -/
theorem exec_fault_commands {i : Instr} {s : State} {f : Fault} (e : exec i s = .fault f) :
    (∃ c w, i = .pld c w) ∨ (∃ c w, i = .pst c w) ∨ ∃ x, i = .dbgAccess x := by
  cases i with
  | pld c w => exact .inl ⟨c, w, rfl⟩
  | pst c w => exact .inr (.inl ⟨c, w, rfl⟩)
  | dbgAccess x => exact .inr (.inr ⟨x, rfl⟩)
  | _ => cases e

/-- A debug read of the control space stops where debug is open. -/
theorem exec_dbgAccess_readMem_controlSpace {s : State} {a : Nat} (up : s.dev.debugUp = true) (awake : s.dev.awake = true)
    (debugOpen : s.dev.debugOpen = true) (control : regionOf s.dev.dram a = .control) :
    exec (.dbgAccess (.readMem a)) s = .fault (.controlSpace a) := by
  simp [exec, execDbgAccess, dbgControl, up, awake, debugOpen, control]

/-- A stop that happens: the first address of the control space, on an unlocked device. -/
theorem witness_controlSpace_stop :
    exec (.dbgAccess (.readMem 0xC000000000)) (Tests.st (Tests.debugging id)) = .fault (.controlSpace 0xC000000000) :=
  exec_dbgAccess_readMem_controlSpace (by decide +kernel) (by decide +kernel) (by decide +kernel) (by decide +kernel)

/-- Settles O4: a command is a run, which keeps the queue and completes, but for the three that can stop at the control space. -/
theorem commandsKeepQueueAndStops : Obligations.CommandsKeepQueueAndStops :=
  ⟨fun _ _ _ => exec_pending_eq, exec_completes_or_stops, fun _ _ _ => exec_fault_commands⟩

end Sys2Proof.Machine
end

section
/-! Register banks and scalar instructions: what a bank reads after a write, the integer operations as arithmetic on numbers, and
the scalar rows of the opcode map as one shape of effect. -/

namespace Sys2Proof.Machine

/-! Register banks. -/

section
variable (b : Bank) {n m : Nat} (v : W72) (x : Bool)

@[simp] theorem Bank.rd_zero : b.rd 0 = 0 := rfl
@[simp] theorem Bank.rdK_zero : b.rdK 0 = true := rfl
@[simp] theorem Bank.wr_zero : b.wr 0 v = b := rfl
@[simp] theorem Bank.wrK_zero : b.wrK 0 x = b := rfl

theorem Bank.rd_wr_same (h : n ≠ 0) : (b.wr n v).rd n = v := by simp [Bank.rd, Bank.wr, h]

theorem Bank.rd_wr_ne (h : n ≠ m) : (b.wr n v).rd m = b.rd m := by
  unfold Bank.rd Bank.wr
  by_cases hn : n = 0
  · simp [hn]
  · simp [hn, tget_tset_ne _ _ _ _ _ h]

@[simp] theorem Bank.wr_k : (b.wr n v).k = b.k := by unfold Bank.wr; split <;> rfl
@[simp] theorem Bank.wrK_g : (b.wrK n x).g = b.g := by unfold Bank.wrK; split <;> rfl

/-- A bit read after a bit was set. -/
theorem bit_setBit {w : Nat} (k : BitVec w) (i j : Nat) (h : j < w) : bit (setBit k i x) j = if i = j then x else bit k j := by
  have hm : (1 <<< i : Nat).testBit j = decide (i = j) := by
    rw [Nat.one_shiftLeft, Nat.testBit_two_pow]
  have hx : (x.toNat <<< i : Nat).testBit j = (decide (i = j) && x) := by
    cases x
    · simp
    · simp [Nat.one_shiftLeft, Nat.testBit_two_pow]
  simp only [bit, setBit, setFld, BitVec.getLsbD_or, BitVec.getLsbD_and, BitVec.getLsbD_not, BitVec.getLsbD_ofNat, h, decide_true, Bool.true_and,
    Nat.reducePow, Nat.add_one_sub_one, hm, hx]
  by_cases e : i = j <;> simp [e]

theorem Bank.rdK_wrK_same (h : n ≠ 0) (l : n < 8) : (b.wrK n x).rdK n = x := by
  simp [Bank.rdK, Bank.wrK, h, bit_setBit x b.k n n l]

theorem Bank.rdK_wrK_ne (l : m < 8) (h : n ≠ m) : (b.wrK n x).rdK m = b.rdK m := by
  unfold Bank.rdK Bank.wrK
  by_cases hn : n = 0
  · simp [hn]
  · simp [hn, bit_setBit x b.k n m l, h]

end

/-- Settles O6: each clause is a reading rule of the bank. -/
theorem registerBanks : Obligations.RegisterBanks := fun b _ _ v x =>
  ⟨b.rd_zero, b.rdK_zero, b.wr_zero v, b.wrK_zero x, b.rd_wr_same v, b.rd_wr_ne v, b.wr_k v, b.rdK_wrK_same x, fun _ lm ne => b.rdK_wrK_ne x lm ne,
    b.wrK_g x⟩

/-! The integer operations as arithmetic on the numbers of their words. -/

theorem clampI_eq_max_min {lo hi : Int} (h : lo ≤ hi) (x : Int) : clampI lo hi x = max lo (min hi x) := by
  unfold clampI
  split
  · omega
  · split <;> omega

section
variable (a b : W72)

theorem W72.toInt_bounds : -(2 ^ 71) ≤ a.toInt ∧ a.toInt < 2 ^ 71 := ⟨a.le_toInt, a.toInt_lt⟩

/-- A number of the unsigned range is the value of its word. -/
theorem W72.toNat_ofInt {x : Int} (h0 : 0 ≤ x) (h1 : x < 2 ^ 72) : (BitVec.ofInt 72 x).toNat = x.toNat := by
  rw [BitVec.toNat_ofInt, Int.emod_eq_of_lt h0 (by simpa using h1)]

/-- A number of the signed range is the value of its word. -/
theorem W72.toInt_ofInt {x : Int} (h0 : -(2 ^ 71) ≤ x) (h1 : x < 2 ^ 71) : (BitVec.ofInt 72 x).toInt = x := by
  rw [BitVec.toInt_ofInt, Int.bmod_eq_of_le (by simpa using h0) (by simpa using h1)]

theorem satW_unsigned_toNat (x : Int) : (satW true x).toNat = Nat.min x.toNat (2 ^ 72 - 1) := by
  show _ = min x.toNat (2 ^ 72 - 1)
  rw [satW, if_pos rfl, clampI_eq_max_min (by decide), W72.toNat_ofInt] <;> simp only [u72Hi] <;> omega

theorem satW_signed_toInt (x : Int) : (satW false x).toInt = max (-(2 ^ 71)) (min (2 ^ 71 - 1) x) := by
  rw [satW, if_neg (by decide), clampI_eq_max_min (by decide), W72.toInt_ofInt] <;> simp only [i72Lo, i72Hi] <;> omega

theorem addW_wraps (u : Bool) : (addW u false a b).toNat = (a.toNat + b.toNat) % 2 ^ 72 := BitVec.toNat_add a b
theorem mulW_wraps (u : Bool) : (mulW u false a b).toNat = a.toNat * b.toNat % 2 ^ 72 := BitVec.toNat_mul a b
theorem subW_wraps (u : Bool) : (subW u false a b).toInt = (a.toInt - b.toInt).bmod (2 ^ 72) := BitVec.toInt_sub

theorem addW_saturates : (addW true true a b).toNat = Nat.min (a.toNat + b.toNat) (2 ^ 72 - 1) := by
  simp only [addW, intW, if_true, satW_unsigned_toNat, ← Int.natCast_add, Int.toNat_natCast]

theorem mulW_saturates : (mulW true true a b).toNat = Nat.min (a.toNat * b.toNat) (2 ^ 72 - 1) := by
  simp only [mulW, intW, if_true, satW_unsigned_toNat, ← Int.natCast_mul, Int.toNat_natCast]

theorem subW_saturates : (subW true true a b).toNat = a.toNat - b.toNat := by
  have ha := a.isLt
  simp only [subW, intW, if_true, satW_unsigned_toNat]
  show min _ _ = _
  omega

theorem addW_saturates_signed : (addW false true a b).toInt = max (-(2 ^ 71)) (min (2 ^ 71 - 1) (a.toInt + b.toInt)) := satW_signed_toInt _
theorem subW_saturates_signed : (subW false true a b).toInt = max (-(2 ^ 71)) (min (2 ^ 71 - 1) (a.toInt - b.toInt)) := satW_signed_toInt _

theorem mulhW_unsigned : (mulhW true a b).toNat = a.toNat * b.toNat / 2 ^ 72 := by
  have lt : a.toNat * b.toNat < 2 ^ 72 * 2 ^ 72 := Nat.mul_lt_mul'' a.isLt b.isLt
  rw [mulhW, W72.toNat_ofInt] <;> simp only [intW, if_true, ← Int.natCast_mul] <;> omega

theorem mulhW_signed : (mulhW false a b).toInt = a.toInt * b.toInt / 2 ^ 72 := by
  obtain ⟨la, ha⟩ := W72.toInt_bounds a
  obtain ⟨lb, hb⟩ := W72.toInt_bounds b
  have bound : |a.toInt * b.toInt| ≤ 2 ^ 71 * 2 ^ 71 := by
    rw [abs_mul]
    exact mul_le_mul (abs_le.2 ⟨la, ha.le⟩) (abs_le.2 ⟨lb, hb.le⟩) (abs_nonneg _) (by decide)
  obtain ⟨lo, hi⟩ := abs_le.1 bound
  rw [mulhW, W72.toInt_ofInt] <;> simp only [intW, Bool.false_eq_true, if_false] <;> omega

theorem divW_zero (u : Bool) : divW u a 0 = BitVec.allOnes 72 ∧ remW u a 0 = a := ⟨rfl, rfl⟩

theorem divW_unsigned (h : b ≠ 0) : (divW true a b).toNat = a.toNat / b.toNat := by
  simp only [divW, h, if_false, if_true, BitVec.toNat_ofNat]
  exact Nat.mod_eq_of_lt ((Nat.div_le_self ..).trans_lt a.isLt)

theorem remW_unsigned (h : b ≠ 0) : (remW true a b).toNat = a.toNat % b.toNat := by
  simp only [remW, h, if_false, if_true, BitVec.toNat_ofNat]
  exact Nat.mod_eq_of_lt ((Nat.mod_le ..).trans_lt a.isLt)

theorem remW_signed (h : b ≠ 0) : (remW false a b).toInt = a.toInt - a.toInt.tdiv b.toInt * b.toInt := by
  have e : remW false a b = a.srem b := by
    rw [remW, if_neg h, if_neg (by decide), ← BitVec.toInt_srem, BitVec.ofInt_toInt]
  rw [e, BitVec.toInt_srem, Int.tmod_def, Int.mul_comm]

end

theorem divW_least : divW false (BitVec.intMin 72) (BitVec.allOnes 72) = BitVec.intMin 72 := by decide

/-! The scalar rows of the opcode map. -/

/-- A row whose meaning is a scalar instruction that writes its destination register. -/
theorem writesD_of_exec {mk : Ctx → Insn → Instr} {sh : Shape} {val : Insn → Bank → W72}
    (x : ∀ c w s, exec (mk c w) s = run (scalarD c sh w (val w)) s) (p : sh.prof ≠ .v := by decide) : WritesD mk sh val :=
  fun s c w q k r => scalar_does _ c sh w _ q s p (x c w s) k r

/-- The same of a row that writes the predicate register that its destination names. -/
theorem writesK_of_exec {mk : Ctx → Insn → Instr} {sh : Shape} {val : Insn → Bank → Bool}
    (x : ∀ c w s, exec (mk c w) s = run (scalarK c sh w (val w)) s) (p : sh.prof ≠ .v := by decide) : WritesK mk sh val :=
  fun s c w q k r => scalar_does _ c sh w _ q s p (x c w s) k r

theorem nop_does (s : State) (c : Ctx) (w : Insn) (q : Seq) (k : s.Calm) (r : s.dev.Ready c (.bare .all) w q) :
    Does (.nop c w) s (ScalarEffect c w (fun b => b) q s.dev) :=
  scalar_does _ c _ w _ q s (by decide) rfl k r

/-- NEG is 0 - a (R57). -/
theorem neg_writes : WritesD .neg (.a1 1) (fun w b => - b.rd w.a) :=
  writesD_of_exec fun c w s => by
    show execNeg c w s = _
    simp only [execNeg, Bank.opA, zero_sub]

section
variable (s : State) (c : Ctx) (w : Insn) (q : Seq) (k : s.Calm) (ok : bfOk w = true)
include k ok

theorem bfx_does (r : s.dev.Ready c (.aImm 2) w q) :
    Does (.bfx c w) s (ScalarEffect c w (fun b => b.wr w.d (bfxW (w.s = 1) (bfPos w) (bfWidth w) (b.rd w.a))) q s.dev) := by
  refine scalar_does _ c (.aImm 2) w _ q s (by decide) ?_ k r
  show execBfx c w s = _
  simp only [execBfx, ok, if_true, Bank.opA]

theorem bfi_does (r : s.dev.Ready c (.aImm 1) w q) :
    Does (.bfi c w) s (ScalarEffect c w (fun b => b.wr w.d (setFld (b.rd w.d) (bfPos w) (bfWidth w) (b.rd w.a).toNat)) q s.dev) := by
  refine scalar_does _ c (.aImm 1) w _ q s (by decide) ?_ k r
  show execBfi c w s = _
  simp only [execBfi, ok, if_true, Bank.opA]

end

/-- Settles O7: every row is a scalar instruction with the value that the statement names, and the integer operations are arithmetic. -/
theorem scalarInstructions : Obligations.ScalarInstructions := by
  have d {mk sh val} := @writesD_of_exec mk sh val
  have p {mk sh val} := @writesK_of_exec mk sh val
  refine ⟨nop_does, d fun _ _ _ => rfl, d fun _ _ _ => rfl, d fun _ _ _ => rfl, d fun _ _ _ => rfl, d fun _ _ _ => rfl,
    ⟨d fun _ _ _ => rfl, d fun _ _ _ => rfl, d fun _ _ _ => rfl, d fun _ _ _ => rfl, d fun _ _ _ => rfl, d fun _ _ _ => rfl,
      d fun _ _ _ => rfl, d fun _ _ _ => rfl, d fun _ _ _ => rfl, neg_writes⟩,
    fun a b => ⟨addW_wraps a b, mulW_wraps a b, subW_wraps a b, addW_saturates a b, subW_saturates a b, mulW_saturates a b, addW_saturates_signed a b,
      subW_saturates_signed a b, mulhW_unsigned a b, mulhW_signed a b, divW_zero a, fun h => ⟨divW_unsigned a b h, remW_unsigned a b h⟩,
      remW_signed a b, divW_least⟩,
    ⟨d fun _ _ _ => rfl, d fun _ _ _ => rfl, d fun _ _ _ => rfl, d fun _ _ _ => rfl, d fun _ _ _ => rfl, d fun _ _ _ => rfl,
      d fun _ _ _ => rfl, d fun _ _ _ => rfl, d fun _ _ _ => rfl, d fun _ _ _ => rfl,
      fun s c w q k r ok => bfx_does s c w q k ok r, fun s c w q k r ok => bfi_does s c w q k ok r⟩,
    p fun _ _ _ => rfl, p fun _ _ _ => rfl, p fun _ _ _ => rfl⟩

/-- Settles O8: every row is a scalar instruction that applies its format's operation lane by lane. -/
theorem scalarFloats : Obligations.ScalarFloats := by
  unfold Obligations.ScalarFloats
  refine ⟨⟨?_, ?_, ?_, ?_, ?_, ?_, ?_⟩, ?_, ?_, ?_, ?_, ?_, ?_, ?_, ?_, ?_, ?_, ?_, ?_, ?_⟩ <;> exact writesD_of_exec fun _ _ _ => rfl

end Sys2Proof.Machine
end

section
/-! Three statements that fail, each refuted by a state or an access that the model computes. -/

namespace Sys2Proof.Machine

/-! A page of no bytes at the foot of the control space. -/

/-- The byte below the control space is unpopulated, and a page of size zero ends there: the model answers cause 7, not 8. -/
theorem pageCause_empty_control : Dev.atReset.pageCause 0 .read 0xC000000000 0 7 = some 0x7 := by decide

/-- Refutes O14: for a page of size 0 at the first address of the control space the cause is 7, where the statement names 8 for every size. -/
theorem not_accessFaultsAndTranslation : ¬ Obligations.AccessFaultsAndTranslation := by
  rintro ⟨-, -, -, translation⟩
  obtain ⟨-, -, -, -, control, -⟩ := translation Dev.atReset 0 0 .read
  have cause := control 0xC000000000 0 7 (.inl (by decide))
  rw [pageCause_empty_control] at cause
  exact absurd cause (by decide)

/-! An operation for the haptic engine carries the rights of its function. -/

/-- An operation for the haptic engine (target 6), and a guest thread of ring 0 with it in its issue buffer. -/
def hapticEnq : Enq := { Tests.anEnq 0 with target := 6 }
def hapticBuffered : Dev := Tests.guestWith 0 Tests.prog (fun t => { t with buf := [hapticEnq] })

theorem hapticBuffered_rights : (hapticBuffered.kick (0 : Fin 256).val).ops.all (fun o => o.rights.isSome) = true := by decide +kernel

/-- Refutes O15: the operation that KICK releases to the haptic engine keeps what its function may use (R332), which the operation of the
statement does not have. -/
theorem not_workInstructions : ¬ Obligations.WorkInstructions := by
  rintro ⟨-, -, -, -, released, -⟩
  have ops := (released hapticBuffered 0 1 hapticEnq (by decide) (by decide)).1 (by decide)
  have rights := hapticBuffered_rights
  rw [ops] at rights
  exact absurd rights (by decide)

/-! An overflowed transaction that still waits for a full instance. -/

/-- The transaction of the counterexample: its shadow has overflowed, and a TXC of it waits for the instance at instant 0 to pass (R115). -/
def waitingTx : Tx := { Tests.aTx [] true with full := some 0 }

def overflowWaiting : Dev := Tests.guestWith 0 Tests.prog (fun t => { t with tx := some waitingTx })

/-- TXC to g3. -/
def txcWord : Insn := Tests.word 0 3 0 0 0 0

/-- Whether a command leaves the thread of ring 0 at rest. -/
def freesThread (i : Instr) (s : State) : Bool :=
  match exec i s with
  | .next t => decide ((t.dev.ring 0).thread = Thread.idle)
  | _ => true

theorem Does.freesThread {i : Instr} {s : State} {P : Dev → Prop} (h : Does i s P) (p : ∀ e, P e → (e.ring 0).thread = Thread.idle) :
    freesThread i s = true := by
  obtain ⟨t, x, -, pt⟩ := h
  simp [Machine.freesThread, x, p _ pt]

theorem overflowWaiting_stays : freesThread (.txc (.guest 0) txcWord) (Tests.st overflowWaiting) = false := by decide +kernel

theorem overflowWaiting_executes : overflowWaiting.Executes (.guest 0)
    { formats := [0], dst := .reg, a := .none, b := .none, c := false, subs := 1, prof := .s } txcWord Tests.prog :=
  ⟨Tests.ready_spec (by decide +kernel), by decide⟩

/-- Refutes O16: a TXC that waits for a full instance stays where it is, also when its shadow has overflowed; the program does not end. -/
theorem not_commits : ¬ Obligations.Commits := by
  rintro ⟨-, -, overflowed, -⟩
  have ends := overflowed (Tests.st overflowWaiting) 0 txcWord Tests.prog waitingTx 1 (Tests.steady_spec (by decide +kernel)).1 overflowWaiting_executes
    (by decide) (by decide) rfl (by decide +kernel)
  have freed := ends.freesThread (fun e h => h.2.2.1)
  rw [overflowWaiting_stays] at freed
  exact absurd freed (by decide)

end Sys2Proof.Machine
end

section
/-! An instruction that executes: its effect on the device that it was issued on, how its command ends, and what a program's end
leaves (R47, R49, R59, R61, R77). -/

namespace Sys2Proof.Machine

/-! What the end of a command rests on. -/

/-- Memory, the update engine and the safety manager are as they were: the end of a command finds no step to take. -/
def EndsAlike (d e : Dev) : Prop := e.mem = d.mem ∧ e.update = d.update ∧ e.safety = d.safety

theorem EndsAlike.refl (d : Dev) : EndsAlike d d := ⟨rfl, rfl, rfl⟩

theorem EndsAlike.trans {d e r : Dev} (h : EndsAlike d e) (k : EndsAlike e r) : EndsAlike d r :=
  ⟨k.1.trans h.1, k.2.1.trans h.2.1, k.2.2.trans h.2.2⟩

theorem EndsAlike.calm {d e : Dev} (h : EndsAlike d e) (k : d.Calm) : e.Calm := by
  obtain ⟨-, update, safety⟩ := h
  simpa only [Dev.Calm, update, safety] using k

theorem OnlyProgram.endsAlike {c : Ctx} {d e : Dev} (h : OnlyProgram c d e) : EndsAlike d e := by
  obtain ⟨-, -, frame⟩ := h
  cases c <;> exact ⟨(congrArg Dev.mem frame.1 :), (congrArg Dev.update frame.1 :), (congrArg Dev.safety frame.1 :)⟩

section
variable {i : Instr} {s : State} {who : Nat × Nat} {h : Dev → Dev} {P : Dev → Prop} (x : exec i s = runFrom who h s) (k : s.Calm)
  (m : EndsAlike s.dev (h s.dev))
include x k m

/-- A command that leaves the end of commands alone: its stores take their place in memory and its accesses in the lattice. -/
theorem does_runFrom (p : P (commit who s (h s.dev)).dev) : Does i s P :=
  ⟨commit who s (h s.dev), by rw [x, runFrom_calm who h s (m.calm k.2)], rfl, p⟩

/-- The same of a command that stores nothing. -/
theorem does_runFrom_noStores (w : (h s.dev).writes = []) (p : P { h s.dev with bus := (h s.dev).busStep who }) : Does i s P :=
  does_runFrom x k m (by rw [commit_memory who s _ w m.1]; exact p)

end

/-! An instruction that executes. -/

/-- A context after the effect of its instruction: an exception raised, or the program gone on. -/
def Dev.concluded (c : Ctx) (r : Dev × Except Exc Flow) : Dev :=
  match r with
  | (e, .error x) => e.raise c x
  | (e, .ok f) => e.proceed c f

@[simp] theorem Dev.concluded_error (c : Ctx) (e : Dev) (x : Exc) : Dev.concluded c (e, .error x) = e.raise c x := rfl
@[simp] theorem Dev.concluded_ok (c : Ctx) (e : Dev) (f : Flow) : Dev.concluded c (e, .ok f) = e.proceed c f := rfl
@[simp] theorem Dev.proceed_stay (d : Dev) (c : Ctx) : d.proceed c .stay = d := rfl
@[simp] theorem Dev.proceed_done (d : Dev) (c : Ctx) : d.proceed c .done = d := rfl

theorem Dev.proceed_goto {d : Dev} {c : Ctx} {q : Seq} {i : Int} (e : d.seq c = some q) (h : q.holds i = true) :
    d.proceed c (.goto i) = d.updSeq c (fun q => { q with pc := i.toNat }) := by simp [Dev.proceed, e, h]

theorem Dev.proceed_goto_outside {d : Dev} {c : Ctx} {q : Seq} {i : Int} (e : d.seq c = some q) (h : q.holds i = false) :
    d.proceed c (.goto i) = d.raise c exPc := by simp [Dev.proceed, e, h]

theorem Dev.bank_of_seq {d : Dev} {c : Ctx} {q : Seq} (e : d.seq c = some q) : d.bank c = q.bank := by simp [Dev.bank, e]
theorem Dev.seqD_of_seq {d : Dev} {c : Ctx} {q : Seq} (e : d.seq c = some q) : d.seqD c = q := by simp [Dev.seqD, e]

section
variable {d : Dev} {c : Ctx} {sh : Shape} {w : Insn} {q : Seq}

theorem Dev.Ready.seq (r : d.Ready c sh w q) : d.seq c = some q := r.2.1
theorem Dev.Ready.canIssue (r : d.Ready c sh w q) : d.canIssue c = true := r.1
theorem Dev.Ready.decodes (r : d.Ready c sh w q) : w.decodeExc sh c = none := r.2.2.2.2.2
theorem Dev.Ready.fetches (r : d.Ready c sh w q) : ((d.unstep c).fetch c q).2 = none := r.2.2.2.2.1
theorem Dev.Ready.issued_only (r : d.Ready c sh w q) : OnlyProgram c d (d.issued c q) := Machine.issued_only d c q r.fetches
theorem Dev.Ready.issued_seq (r : d.Ready c sh w q) : (d.issued c q).seq c = some { q with steps := q.steps + 1 } :=
  Machine.issued_seq d c q r.seq r.fetches

/-- The predicate of an instruction that executes holds on the device that it is issued on, as every profile judges it (R47, R168, R345). -/
theorem Dev.Executes.predicate (x : d.Executes c sh w q) (control : Bool) : (d.issued c q).predicate c sh w control = true := by
  obtain ⟨r, holds⟩ := x
  have e := r.issued_seq
  cases c with
  | guest g => simp [Dev.predicate, e, holds]
  | firmware k t => simp [Dev.predicate, e, holds]
  | slice n =>
    simp only [Dev.seq, Option.some.injEq] at e
    simp [Dev.predicate, e, holds]
  | wave i =>
    by_cases p : sh.prof = .v
    · simp [Dev.predicate, p]
    · rw [predicate_bank _ _ sh w control _ e (by intro n h; cases h) p]
      exact holds

/-- An instruction that executes takes effect on the device that it is issued on. -/
theorem issue_executes (x : d.Executes c sh w q) (control : Bool) (eff : Dev → Dev × Except Exc Flow) :
    issue c sh w control eff d = Dev.concluded c (eff (d.issued c q)) := by
  rw [issue_ready d c sh w control eff q x.1, x.predicate control, if_pos rfl]
  rfl

end

/-- An instruction that executes and changes only a program counter. -/
theorem does_executes {i : Instr} {s : State} {c : Ctx} {sh : Shape} {w : Insn} {q : Seq} {control : Bool} {eff : Dev → Dev × Except Exc Flow}
    {e : Dev} {P : Dev → Prop} (x : exec i s = run (issue c sh w control eff) s) (k : s.Calm) (r : s.dev.Executes c sh w q)
    (h : Dev.concluded c (eff (s.dev.issued c q)) = e) (o : OnlyProgram c s.dev e) (p : ∀ b, P { e with bus := b }) : Does i s P := by
  have eq : issue c sh w control eff s.dev = e := by rw [issue_executes r, h]
  exact does_program i s c _ x k (by rw [eq]; exact o) (by rw [eq]; exact p _)

/-! A program's place after an instruction. -/

section
variable {d : Dev} {c : Ctx} {q : Seq}

theorem Dev.seq_onBus (e : Dev) (c : Ctx) (b : Lattice) : ({ e with bus := b } : Dev).seq c = e.seq c := seq_of_only c _ _ rfl rfl rfl rfl

theorem Dev.lanes_onBus (e : Dev) (c : Ctx) (b : Lattice) : ({ e with bus := b } : Dev).lanes c = e.lanes c := by
  unfold Dev.lanes
  cases c <;> rfl

/-- What is said of a program says nothing of the lattice. -/
theorem ProgramIs.onBus {d e : Dev} {r : Seq} {l : List Bank} (h : ProgramIs c d e r l) (b : Lattice) : ProgramIs c d { e with bus := b } r l := by
  obtain ⟨only, seq, lanes⟩ := h
  exact ⟨only.onBus c b, (Dev.seq_onBus e c b).trans seq, (Dev.lanes_onBus e c b).trans lanes⟩

/-- The program counter moved without its bank. -/
theorem ProgramIs.updSeq {d e : Dev} {p : Seq} {l : List Bank} (h : ProgramIs c d e p l) (f : Seq → Seq) (keep : ∀ x, (f x).bank = x.bank) :
    ProgramIs c d (e.updSeq c f) (f p) l := by
  obtain ⟨only, seq, lanes⟩ := h
  exact ⟨only.trans c (updSeq_only c e f), seq_updSeq e c f p seq, (lanes_updSeq e c f p seq keep).trans lanes⟩

/-- The program of an instruction that has been issued: one step counted. -/
theorem Dev.Ready.issued_programIs {sh : Shape} {w : Insn} (r : d.Ready c sh w q) :
    ProgramIs c d (d.issued c q) { q with steps := q.steps + 1 } (d.lanes c) :=
  ⟨r.issued_only, r.issued_seq, issued_lanes d c q r.seq r.fetches⟩

end

/-! The end of a guest's program. -/

@[simp] theorem Dev.setRing_setRing (d : Dev) (g : Nat) (x y : Ring) : (d.setRing g x).setRing g y = d.setRing g y := by
  simp [Dev.setRing, tset_tset]

/-- The thread of a program that has ended is free, and its item's entry says how. -/
theorem Dev.endProgram_eq {e : Dev} {g a : Nat} (acc : (e.ring g).thread.acc = some a) (status : BitVec 8) (result : Option (BitVec 64)) :
    e.endProgram g status result = e.setRing g
      { e.ring g with
        entries := (e.ring g).entries.map (fun x => if x.acc = a then { x with phase := .ended, progStatus := status, result := result } else x)
        thread := Thread.idle } := by
  simp [Dev.endProgram, acc, Dev.updEntry, Ring.updEntry, Dev.updThread, Thread.freed]

section
variable {g : Fin 256} {a : Nat} {d e : Dev}

/-- The item of a thread is none of its program counter's. -/
theorem OnlyProgram.acc (h : OnlyProgram (.guest g) d e) (acc : (d.ring g.val).thread.acc = some a) : (e.ring g.val).thread.acc = some a := by
  obtain ⟨-, -, -, -, ring⟩ := h
  rw [← acc]
  exact (congrArg (fun r : Ring => r.thread.acc) ring :)

theorem OnlyProgram.entries (h : OnlyProgram (.guest g) d e) : (e.ring g.val).entries = (d.ring g.val).entries := by
  obtain ⟨-, -, -, -, ring⟩ := h
  exact (congrArg Ring.entries ring :)

/-- A program that ends when no more than its program counter has changed. -/
theorem OnlyProgram.endProgram (h : OnlyProgram (.guest g) d e) (acc : (d.ring g.val).thread.acc = some a) (status : BitVec 8)
    (result : Option (BitVec 64)) : ProgramEnded g a status result d (e.endProgram g.val status result) := by
  rw [Dev.endProgram_eq (h.acc acc), h.entries]
  obtain ⟨fns, -, frame, others, ring⟩ := h
  refine ⟨by simp, by simp, ?_, fun j ne => ?_, frame, fns⟩
  · rw [Dev.ring_setRing_same]
    exact congrArg (fun r : Ring => { r with thread := (d.ring g.val).thread, entries := (d.ring g.val).entries }) ring
  · rw [Dev.ring_setRing, if_neg (fun h => ne h.symm), others j ne]

/-- A guest thread with an item has the program counter of its thread. -/
theorem Dev.seq_guest_some {p : Seq} (s : e.seq (.guest g) = some p) : (e.ring g.val).thread.seq = p := by
  simp only [Dev.seq] at s
  split at s
  · exact Option.some.inj s
  · cases s

/-- An exception on a guest thread whose program counter alone has changed (R77). -/
theorem OnlyProgram.raise (h : OnlyProgram (.guest g) d e) (acc : (d.ring g.val).thread.acc = some a) {p : Seq} (s : e.seq (.guest g) = some p)
    (x : Exc) : ProgramEnded g a x.status (some (x.own.getD (excResult (BitVec.ofNat 8 x.code) (p.byteAddr p.pc)))) d (e.raise (.guest g) x) := by
  have e1 := h.endProgram acc x.status (some (x.own.getD (excResult (BitVec.ofNat 8 x.code) (p.byteAddr p.pc))))
  unfold Dev.raise
  rw [← Dev.seq_guest_some s] at e1 ⊢
  exact e1

variable {status : BitVec 8} {result : Option (BitVec 64)}

theorem ProgramEnded.endsAlike (h : ProgramEnded g a status result d e) : EndsAlike d e := by
  obtain ⟨-, -, -, -, frame, -⟩ := h
  exact ⟨(congrArg Dev.mem frame :), (congrArg Dev.update frame :), (congrArg Dev.safety frame :)⟩

theorem ProgramEnded.writes (h : ProgramEnded g a status result d e) : e.writes = d.writes := by
  obtain ⟨-, -, -, -, frame, -⟩ := h
  exact (congrArg Dev.writes frame :)

/-- A command with which a guest's program ends. -/
theorem does_ends {i : Instr} {s : State} {h : Dev → Dev} (x : exec i s = run h s) (k : s.Calm) (p : ProgramEnded g a status result s.dev (h s.dev)) :
    Does i s (ProgramEnded g a status result s.dev) :=
  does_runFrom_noStores x k p.endsAlike (p.writes.trans k.1.1) p

/-- An instruction that executes on a guest thread and raises an exception there, with nothing but its program counter changed. -/
theorem does_raises {i : Instr} {s : State} {sh : Shape} {w : Insn} {q : Seq} {control : Bool} {eff : Dev → Dev × Except Exc Flow} {y : Exc}
    (x : exec i s = run (issue (.guest g) sh w control eff) s) (k : s.Calm) (r : s.dev.Executes (.guest g) sh w q)
    (acc : (s.dev.ring g.val).thread.acc = some a) (h : eff (s.dev.issued (.guest g) q) = (s.dev.issued (.guest g) q, .error y)) :
    Does i s (ProgramEnded g a y.status (some (y.own.getD (excResult (BitVec.ofNat 8 y.code) (q.byteAddr q.pc)))) s.dev) := by
  refine does_ends x k ?_
  rw [issue_executes r, h]
  exact r.1.issued_only.raise acc r.1.issued_seq y

end

/-! The instruction word, and the checks before an instruction executes. -/

section
variable (op : BitVec 8) (fmt : BitVec 3) (dst a b : BitVec 6) (pred : BitVec 3) (neg : BitVec 1) (sub : BitVec 3) (low : BitVec 36)

/-- The fields of a word, each read at its place (R46): those above it are passed over, and what lies below is shifted out. -/
theorem extract_fields :
    let x := op ++ (fmt ++ (dst ++ (a ++ (b ++ (pred ++ (neg ++ (sub ++ low)))))))
    x.extractLsb' 64 8 = op ∧ x.extractLsb' 61 3 = fmt ∧ x.extractLsb' 55 6 = dst ∧ x.extractLsb' 49 6 = a ∧ x.extractLsb' 43 6 = b ∧
      x.extractLsb' 40 3 = pred ∧ x.extractLsb' 36 3 = sub ∧ x.extractLsb' 0 36 = low := by
  intro x
  refine ⟨?_, ?_, ?_, ?_, ?_, ?_, ?_, ?_⟩ <;>
    simp (disch := decide) only [x, BitVec.extractLsb'_append_eq_of_add_le, BitVec.extractLsb'_append_eq_of_le] <;>
    exact BitVec.extractLsb'_eq_self

theorem getLsbD_negate : (op ++ (fmt ++ (dst ++ (a ++ (b ++ (pred ++ (neg ++ (sub ++ low)))))))).getLsbD 39 = neg.getLsbD 0 := by
  simp only [BitVec.getLsbD_append]
  rfl

end

/-- The fields of an instruction word are those it was made of (R46). -/
theorem Insn.ofWord_word (op : BitVec 8) (w : Insn) : Insn.ofWord (Insn.word op w) = w := by
  obtain ⟨fmt, dst, a, b, pred, neg, sub, low⟩ := w
  obtain ⟨-, hfmt, hdst, ha, hb, hpred, hsub, hlow⟩ := extract_fields op fmt dst a b pred (BitVec.ofBool neg) sub low
  have hneg := getLsbD_negate op fmt dst a b pred (BitVec.ofBool neg) sub low
  have bit : (BitVec.ofBool neg).getLsbD 0 = neg := by cases neg <;> rfl
  simp only [Insn.ofWord, Insn.word, Insn.mk.injEq]
  exact ⟨hfmt, hdst, ha, hb, hpred, hneg.trans bit, hsub, hlow⟩

theorem Insn.word_opcode (op : BitVec 8) (w : Insn) : (Insn.word op w).extractLsb' 64 8 = op :=
  (extract_fields op w.fmt w.dst w.srcA w.srcB w.pred (BitVec.ofBool w.neg) w.sub w.low).1

/-- An instruction word decodes by its opcode's row, and a reserved opcode to ILL or, privileged on a guest thread, to WDOG. -/
theorem decodeInsn_word (c : Ctx) (op : BitVec 8) (w : Insn) :
    decodeInsn c (Insn.word op w) =
      match opcodeRow op.toNat with
      | some row => row c w
      | none => if c.isGuest && decide (0xF0 ≤ op.toNat) then .wdog c w else .ill c w := by
  simp only [decodeInsn, Insn.word_opcode, Insn.ofWord_word] <;> rfl

section
variable {d : Dev} {c : Ctx} {sh : Shape} {w : Insn} {q : Seq} {control : Bool} {eff : Dev → Dev × Except Exc Flow}

/-- What the checks raise is raised on the device as they left it. -/
theorem issue_of_precheck (up : d.canIssue c = true) (e : d.seq c = some q) {d1 : Dev} {x : Exc}
    (h : (d.unstep c).precheck c sh w q = (d1, some x)) : issue c sh w control eff d = d1.raise c x := by
  simp [issue, up, e, h]

theorem precheck_steps (lim : limited c = true) (used : q.limit ≤ q.steps) : d.precheck c sh w q = (d, some (exc 0x09)) := by
  simp [Dev.precheck, lim, used]

theorem precheck_pc (steps : limited c = true → q.steps < q.limit) (out : q.holds q.pc = false) : d.precheck c sh w q = (d, some exPc) := by
  have lim : ¬ (limited c && decide (q.limit ≤ q.steps)) = true := by
    simp only [Bool.and_eq_true, decide_eq_true_eq, not_and, Nat.not_le]
    exact steps
  simp only [Dev.precheck, if_neg lim, out, Bool.not_false, if_true]

theorem precheck_decode (steps : limited c = true → q.steps < q.limit) (inside : q.holds q.pc = true) (f : (d.fetch c q).2 = none) {x : BitVec 8}
    (bad : w.decodeExc sh c = some x) : d.precheck c sh w q = ((d.fetch c q).1, some (exc x.toNat)) := by
  have lim : ¬ (limited c && decide (q.limit ≤ q.steps)) = true := by
    simp only [Bool.and_eq_true, decide_eq_true_eq, not_and, Nat.not_le]
    exact steps
  rcases hf : d.fetch c q with ⟨d1, e⟩
  rw [hf] at f
  dsimp only at f
  subst f
  unfold Dev.precheck
  rw [if_neg lim, hf]
  simp [inside, bad]

/-- With the predicate false nothing happens but a step to the next index (R47). -/
theorem issue_skips (r : d.Ready c sh w q) (off : q.bank.holds w = false) (p : sh.prof ≠ .v) (ctl : ∀ n, c = .slice n → control = true) :
    ProgramIs c d (issue c sh w control eff d) { q with pc := q.pc + 1, steps := q.steps + 1 } (d.lanes c) := by
  rw [issue_ready d c sh w control eff q r, predicate_bank _ c sh w control _ r.issued_seq ctl p]
  simp only [off, Bool.false_eq_true, if_false]
  exact r.issued_programIs.updSeq (fun q => { q with pc := q.pc + 1 }) (fun _ => rfl)

end

/-- Settles O9: the word's fields are read back, and the checks follow one another as `precheck` has them. -/
theorem checksInOrder : Obligations.ChecksInOrder := by
  refine ⟨Insn.ofWord_word, fun c op w => (decodeInsn_word c op w).trans rfl, fun c sh w control eff d q up e => ⟨fun lim used => ?_, fun steps out => ?_,
    fun steps inside f x bad => ?_, fun steps inside f good off p ctl => ?_⟩⟩
  · exact issue_of_precheck up e (precheck_steps lim used)
  · exact issue_of_precheck up e (precheck_pc steps out)
  · exact issue_of_precheck up e (precheck_decode steps inside f bad)
  · exact issue_skips ⟨up, e, steps, inside, f, good⟩ off p ctl

end Sys2Proof.Machine
end

section
/-! Exceptions, control transfers and the end of a program (R57, R59 to R62, R70, R76 to R78, R144). -/

namespace Sys2Proof.Machine

/-! A firmware thread. -/

@[simp] theorem Dev.setFwt_setFwt (d : Dev) (k t : Nat) (x y : FwThread) : (d.setFwt k t x).setFwt k t y = d.setFwt k t y := by
  simp [Dev.setFwt, tset_tset]

@[simp] theorem Dev.unstep_fwt (d : Dev) (c : Ctx) (k t : Nat) : (d.unstep c).fwt k t = d.fwt k t := by rw [unstep_eq]; rfl

theorem Dev.seq_firmware {d : Dev} {k : Fin 10} {t : Fin 4} {q : Seq} (s : d.seq (.firmware k t) = some q) : (d.fwt k.val t.val).seq = q :=
  Option.some.inj s

/-- The device that an instruction of a firmware thread is issued on: the thread runs, with one step counted. -/
theorem Dev.issued_firmware {d : Dev} {k : Fin 10} {t : Fin 4} {q : Seq} (s : d.seq (.firmware k t) = some q) :
    d.issued (.firmware k t) q =
      (d.unstep (.firmware k t)).setFwt k.val t.val { d.fwt k.val t.val with halted := false, seq := { q with steps := q.steps + 1 } } := by
  simp [Dev.issued, Dev.fetch, Dev.updSeq, Dev.seq_firmware s]

section
variable {k : Fin 10} {t : Fin 4} {d : Dev}

/-- A firmware thread replaced on a device that has used a step. -/
theorem firmwareIs_setFwt (c : Ctx) (x : FwThread) : FirmwareIs k t x d ((d.unstep c).setFwt k.val t.val x) := by
  refine ⟨Dev.fwt_setFwt_same _ _ _ _, fun j u ne => ?_, ?_⟩
  · rw [Dev.fwt_setFwt, if_neg (fun h => ne h.symm), Dev.unstep_fwt]
  · rw [unstep_eq]
    rfl

theorem FirmwareIs.endsAlike {x : FwThread} {e : Dev} (h : FirmwareIs k t x d e) : EndsAlike d e := by
  obtain ⟨-, -, frame⟩ := h
  exact ⟨(congrArg Dev.mem frame :), (congrArg Dev.update frame :), (congrArg Dev.safety frame :)⟩

/-- A command with which a firmware thread alone changes. -/
theorem does_firmware {i : Instr} {s : State} {h : Dev → Dev} {x : FwThread} (e : exec i s = run h s) (c : s.Calm)
    (f : h s.dev = (s.dev.unstep (.firmware k t)).setFwt k.val t.val x) : Does i s (FirmwareIs k t x s.dev) := by
  have is : FirmwareIs k t x s.dev (h s.dev) := f ▸ firmwareIs_setFwt _ x
  refine does_runFrom_noStores e c is.endsAlike ?_ is
  obtain ⟨-, -, frame⟩ := is
  exact (congrArg Dev.writes frame :).trans c.1.1

/-- A trap of a firmware thread: where it was, why, and on at EVEC (R78). -/
theorem Dev.raise_firmware (x : Exc) (ecode : (d.fwt k.val t.val).ecode = 0) :
    d.raise (.firmware k t) x = d.setFwt k.val t.val
      { d.fwt k.val t.val with
        epc := BitVec.ofNat 72 (d.fwt k.val t.val).seq.pc, ecode := BitVec.ofNat 72 x.code, eaddr := BitVec.ofNat 72 x.addr
        seq := { (d.fwt k.val t.val).seq with pc := fld (d.fwt k.val t.val).evec 0 24 } } := by
  simp [Dev.raise, ecode]

@[simp] theorem Dev.smRecord_fwt (d : Dev) (cls : Nat) (locus : W72) (fn : Option Nat) (a b j u : Nat) :
    (d.smRecord cls locus fn a b).fwt j u = d.fwt j u := by
  unfold Dev.smRecord
  dsimp only
  split <;> rfl

/-- A trap inside a trap stops the thread. -/
theorem Dev.raise_firmware_stops (x : Exc) (ecode : (d.fwt k.val t.val).ecode ≠ 0) :
    ((d.raise (.firmware k t) x).fwt k.val t.val).started = false := by
  unfold Dev.raise
  dsimp only
  rw [if_pos ecode]
  simp

end

/-! Codes and statuses. -/

theorem memExc_status {cause : Nat} (va : Nat) (pos : 0 < cause) (b : cause ≠ 0xB) (c : cause ≠ 0xC) :
    (memExc cause va).status = excStatus (causeExc cause) := by
  have own : (memExc cause va).cause = cause := rfl
  rw [Exc.status, own, if_neg (by omega)]
  unfold causeStatus causeExc
  by_cases d : cause = 0xD
  · simp [d, excStatus]
  · by_cases e : cause = 0xE
    · simp [e, excStatus]
    · simp [b, c, d, e, excStatus]

/-- The result of an exception is its code over the address of its instruction (R77). -/
theorem excResult_fields (code : BitVec 8) (addr : Nat) :
    fld (excResult code addr) 56 8 = code.toNat ∧ fld (excResult code addr) 48 8 = 0 ∧ fld (excResult code addr) 0 48 = addr % 2 ^ 48 := by
  have lt := code.isLt
  simp only [fld, bitsN, excResult, BitVec.toNat_ofNat, Nat.shiftRight_eq_div_pow]
  omega

/-! ILL and FAIL. -/

section
variable {d : Dev} {c : Ctx} {q : Seq}

/-- ILL raises EX_ILLEGAL where nothing is raised before it. -/
theorem execIll_raises {s : State} (w : Insn) (up : s.dev.canIssue c = true) (e : s.dev.seq c = some q)
    (steps : limited c = true → q.steps < q.limit) (inside : q.holds q.pc = true) (f : ((s.dev.unstep c).fetch c q).2 = none) :
    ∃ h, exec (.ill c w) s = run h s ∧ h s.dev = ((s.dev.unstep c).fetch c q).1.raise c exIllegal := by
  have x : exec (.ill c w) s = execIll c w s := rfl
  rw [execIll] at x
  refine ⟨_, x, ?_⟩
  have lim : ¬ (limited c && decide (q.limit ≤ q.steps)) = true := by
    simp only [Bool.and_eq_true, decide_eq_true_eq, not_and, Nat.not_le]
    exact steps
  rcases hf : (s.dev.unstep c).fetch c q with ⟨d1, x⟩
  rw [hf] at f
  dsimp only at f
  subst f
  dsimp only
  rw [if_neg (by simp [up]), e]
  dsimp only
  rw [if_neg lim, if_neg (by simp [inside]), hf]

/-- The fetch of an instruction leaves the program as it was. -/
theorem fetched_only (f : ((d.unstep c).fetch c q).2 = none) : OnlyProgram c d ((d.unstep c).fetch c q).1 :=
  (unstep_only c d).trans c ((fetch_fetched _ c q f).only c)

theorem ill_guest (s : State) (g : Fin 256) (w : Insn) (q : Seq) (a : Nat) (k : s.Calm) (up : s.dev.canIssue (.guest g) = true)
    (e : s.dev.seq (.guest g) = some q) (acc : (s.dev.ring g.val).thread.acc = some a) (steps : q.steps < q.limit) (inside : q.holds q.pc = true)
    (f : ((s.dev.unstep (.guest g)).fetch (.guest g) q).2 = none) :
    Does (.ill (.guest g) w) s (ProgramEnded g a 0x10 (some (excResult 0x01 (q.byteAddr q.pc))) s.dev) := by
  obtain ⟨h, x, eq⟩ := execIll_raises w up e (fun _ => steps) inside f
  exact does_ends x k (eq ▸ (fetched_only f).raise acc ((fetched_seq _ _ _ q f).trans e) exIllegal)

theorem ill_firmware (s : State) (core : Fin 10) (t : Fin 4) (w : Insn) (q : Seq) (k : s.Calm) (up : s.dev.canIssue (.firmware core t) = true)
    (e : s.dev.seq (.firmware core t) = some q) (inside : q.holds q.pc = true) (ecode : (s.dev.fwt core.val t.val).ecode = 0) :
    Does (.ill (.firmware core t) w) s (FirmwareIs core t
      { s.dev.fwt core.val t.val with
        epc := BitVec.ofNat 72 q.pc, ecode := 1, eaddr := 0, seq := { q with pc := fld (s.dev.fwt core.val t.val).evec 0 24 } } s.dev) := by
  obtain ⟨h, x, eq⟩ := execIll_raises w up e (fun l => by cases l) inside rfl
  refine does_firmware x k (eq.trans ?_)
  show (s.dev.unstep _).raise _ _ = _
  rw [Dev.raise_firmware _ (by simpa using ecode)]
  simp only [Dev.unstep_fwt, Dev.seq_firmware e]
  rfl

/-- The row of FAIL. -/
def Shape.fail : Shape := { formats := [1], dst := .none, a := .none, b := .none, c := false, subs := 1, prof := .all }

theorem fail_guest (s : State) (g : Fin 256) (w : Insn) (q : Seq) (a : Nat) (k : s.Calm) (r : s.dev.Executes (.guest g) .fail w q)
    (acc : (s.dev.ring g.val).thread.acc = some a) :
    Does (.fail (.guest g) w) s (ProgramEnded g a 0x10 (some (BitVec.ofNat 64 (0x0F * 2 ^ 56 + w.low.toNat))) s.dev) :=
  does_raises (i := .fail (.guest g) w) rfl k r acc rfl

theorem fail_firmware (s : State) (core : Fin 10) (t : Fin 4) (w : Insn) (q : Seq) (k : s.Calm) (r : s.dev.Executes (.firmware core t) .fail w q)
    (ecode : (s.dev.fwt core.val t.val).ecode = 0) :
    Does (.fail (.firmware core t) w) s (FirmwareIs core t
      { s.dev.fwt core.val t.val with
        halted := false, epc := BitVec.ofNat 72 q.pc, ecode := 0x0F, eaddr := 0
        seq := { q with steps := q.steps + 1, pc := fld (s.dev.fwt core.val t.val).evec 0 24 } } s.dev) := by
  refine does_firmware (i := .fail (.firmware core t) w) rfl k ?_
  refine (issue_executes r true _).trans ?_
  rw [Dev.concluded_error, Dev.issued_firmware r.1.seq, Dev.raise_firmware _ (by simpa using ecode)]
  simp only [Dev.fwt_setFwt_same, Dev.setFwt_setFwt]
  rfl

end

/-- What the statement says of a firmware thread follows from its whole frame. -/
theorem Does.firmware {i : Instr} {s : State} {k : Fin 10} {t : Fin 4} {x : FwThread} (h : Does i s (FirmwareIs k t x s.dev)) :
    Does i s (fun e => e.fwt k.val t.val = x ∧ { e with fw := s.dev.fw, probe := s.dev.probe, bus := s.dev.bus } = s.dev) := by
  obtain ⟨u, x, p, thread, -, frame⟩ := h
  exact ⟨u, x, p, thread, frame⟩

/-- Settles O10: on a guest thread an exception is the end of the program, on a firmware thread a trap. -/
theorem exceptionsAndFailures : Obligations.ExceptionsAndFailures := by
  refine ⟨fun d g a e acc => ?_, fun d k t e ecode => ?_, fun d k t e ecode => Dev.raise_firmware_stops e ecode, fun e c => by simp [Exc.status, c],
    fun cause va => memExc_status va, fun _ => ⟨rfl, rfl, rfl, rfl⟩, rfl, rfl, rfl, rfl, rfl, rfl, rfl, rfl, rfl, rfl, rfl, rfl, rfl, rfl, rfl,
    excResult_fields, fun s g w q a => ill_guest s g w q a, fun s k t w q c up e inside ecode => (ill_firmware s k t w q c up e inside ecode).firmware,
    fun s g w q a => fail_guest s g w q a, fun s k t w q c r ecode => (fail_firmware s k t w q c r ecode).firmware⟩
  · have e1 : d.seq (.guest g) = some (d.ring g.val).thread.seq := by simp [Dev.seq, acc]
    exact (OnlyProgram.refl _ d).raise acc e1 e
  · rw [Dev.raise_firmware e ecode]
    refine ⟨Dev.fwt_setFwt_same _ _ _ _, rfl, fun j u ne => ?_⟩
    rw [Dev.fwt_setFwt, if_neg (fun h => ne h.symm)]

end Sys2Proof.Machine
end

section
/-! Control transfers (R57, R59, R60). -/

namespace Sys2Proof.Machine

/-! A transfer inside the program. -/

section
variable {d e : Dev} {c : Ctx} {p : Seq} {l : List Bank}

/-- A program that goes to an index inside it. -/
theorem ProgramIs.goto (h : ProgramIs c d e p l) {i : Int} (inside : p.holds i = true) : ProgramIs c d (e.proceed c (.goto i)) { p with pc := i.toNat } l := by
  rw [Dev.proceed_goto h.2.1 inside]
  exact h.updSeq (fun q => { q with pc := i.toNat }) (fun _ => rfl)

theorem ProgramIs.next (h : ProgramIs c d e p l) : ProgramIs c d (e.proceed c .next) { p with pc := p.pc + 1 } l :=
  h.updSeq (fun q => { q with pc := q.pc + 1 }) (fun _ => rfl)

/-- The counter of a LOOP taken down, in every lane of a slice. -/
theorem ProgramIs.countDown (h : ProgramIs c d e p l) (n : Nat) :
    ProgramIs c d (e.countDown c n) { p with bank := p.bank.wr n (p.bank.rd n - 1) } (l.map (fun b => b.wr n (b.rd n - 1))) := by
  obtain ⟨only, seq, lanes⟩ := h
  by_cases hc : ∃ k, c = .slice k
  · obtain ⟨k, rfl⟩ := hc
    have here : (e.slice k.val).seq = p := Option.some.inj seq
    refine ⟨only.trans _ (setBanks_only e k _ _), ?_, ?_⟩
    · simp [Dev.seq, Dev.countDown, here]
    · rw [← lanes]
      simp [Dev.lanes, Dev.countDown]
  · have no : ∀ k, c ≠ .slice k := fun k h => hc ⟨k, h⟩
    have eq : e.countDown c n = e.updSeq c (fun q => { q with bank := q.bank.wr n (q.bank.rd n - 1) }) := by
      cases c with
      | slice k => exact absurd rfl (no k)
      | _ => rfl
    have after := seq_updSeq e c (fun q => { q with bank := q.bank.wr n (q.bank.rd n - 1) }) p seq
    rw [eq]
    refine ⟨only.trans c (updSeq_only c e _), after, ?_⟩
    rw [lanes_of_seq _ c _ after no, ← lanes, lanes_of_seq e c p seq no]
    rfl

end

/-- An instruction that executes and changes only its program. -/
theorem does_program_is {i : Instr} {s : State} {c : Ctx} {sh : Shape} {w : Insn} {q p : Seq} {control : Bool} {eff : Dev → Dev × Except Exc Flow}
    {l : List Bank} (x : exec i s = run (issue c sh w control eff) s) (k : s.Calm) (r : s.dev.Executes c sh w q)
    (h : ProgramIs c s.dev (Dev.concluded c (eff (s.dev.issued c q))) p l) : Does i s (fun e => ProgramIs c s.dev e p l) :=
  does_executes x k r rfl h.1 h.onBus

/-! Branches and jumps. -/

section
variable {mk : Ctx → Insn → Instr} {sh : Shape} {target : Insn → Seq → Int}

/-- A row that goes to a target which does not depend on the steps taken. -/
theorem goesTo_of_exec (x : ∀ c w s, exec (mk c w) s = run (issue c sh w true (fun d => (d, .ok (.goto (target w (d.seqD c)))))) s)
    (steps : ∀ (w : Insn) (q : Seq) (n : Nat), target w { q with steps := n } = target w q := by intros; rfl) : GoesTo mk sh target := by
  intro s c w q k r inside
  refine does_program_is (x c w s) k r ?_
  rw [Dev.concluded_ok, Dev.seqD_of_seq r.1.issued_seq, steps]
  exact r.1.issued_programIs.goto inside

/-- A row that calls such a target. -/
def IsCall (mk : Ctx → Insn → Instr) (sh : Shape) (target : Insn → Seq → Int) : Prop :=
  ∀ c w s, exec (mk c w) s = run (issue c sh w true (fun d => d.call c (target w (d.seqD c)))) s

theorem callsTo_of_exec (x : IsCall mk sh target)
    (steps : ∀ (w : Insn) (q : Seq) (n : Nat), target w { q with steps := n } = target w q := by intros; rfl) : CallsTo mk sh target := by
  intro s c w q k r room inside
  refine does_program_is (x c w s) k r ?_
  have seq := r.1.issued_seq
  have inside' : Seq.holds { q with steps := q.steps + 1 } (target w q) = true := inside
  have call : (s.dev.issued c q).call c (target w q) =
      ((s.dev.issued c q).updSeq c (fun q => { q with stack := (q.pc + 1) :: q.stack }), .ok (.goto (target w q))) := by
    simp [Dev.call, Dev.seqD_of_seq seq, Nat.not_le.2 room, inside']
  rw [Dev.seqD_of_seq seq, steps, call]
  exact (r.1.issued_programIs.updSeq (fun q => { q with stack := (q.pc + 1) :: q.stack }) (fun _ => rfl)).goto inside

/-- What an instruction raises on the device that it is issued on. -/
theorem exec_raises {i : Instr} {s : State} {c : Ctx} {w : Insn} {q : Seq} {control : Bool} {eff : Dev → Dev × Except Exc Flow} {y : Exc}
    (x : exec i s = run (issue c sh w control eff) s) (r : s.dev.Executes c sh w q) (h : eff (s.dev.issued c q) = (s.dev.issued c q, .error y)) :
    exec i s = .next (commit (mpSeq, 0) s ((s.dev.issued c q).raise c y).settle) := by
  rw [x, run, runFrom_next, issue_executes r, h, Dev.concluded_error]

/-- A push onto a full stack raises EX_STACK (R60). -/
theorem Dev.call_full {d : Dev} {c : Ctx} {q : Seq} (e : d.seq c = some q) (full : 16 ≤ q.stack.length) (i : Int) :
    d.call c i = (d, .error exStack) := by simp [Dev.call, Dev.seqD_of_seq e, full]

theorem stackRaises_of_call (x : IsCall mk sh target) : StackRaises mk sh (fun q => 16 ≤ q.stack.length) :=
  fun s c w _ r full => exec_raises (x c w s) r (Dev.call_full r.1.issued_seq full _)

end

theorem isCall_call : IsCall .call (.branch .none) branchTo := fun _ _ _ => rfl
theorem isCall_callr : IsCall .callr .jump jumpTo := fun _ _ _ => rfl

/-! RET, LOOP and YIELD. -/

section
variable {d : Dev} {c : Ctx} {q : Seq}

/-- What RET does on the device that it is issued on (R60). -/
def retEffect (c : Ctx) (d : Dev) : Dev × Except Exc Flow :=
  match (d.seqD c).stack with
  | [] => (d, .error exStack)
  | i :: r => if (d.seqD c).holds i then (d.updSeq c (fun q => { q with stack := r }), .ok (.goto i)) else (d, .error exPc)

theorem exec_ret (c : Ctx) (w : Insn) (s : State) : exec (.ret c w) s = run (issue c (.bare .all) w true (retEffect c)) s := rfl

theorem retEffect_empty (e : d.seq c = some q) (empty : q.stack = []) : retEffect c d = (d, .error exStack) := by
  simp [retEffect, Dev.seqD_of_seq e, empty]

theorem retEffect_pops (e : d.seq c = some q) {i : Nat} {r : List Nat} (top : q.stack = i :: r) (inside : q.holds i = true) :
    retEffect c d = (d.updSeq c (fun q => { q with stack := r }), .ok (.goto i)) := by
  simp [retEffect, Dev.seqD_of_seq e, top, inside]

theorem ret_does (s : State) (c : Ctx) (w : Insn) (q : Seq) (i : Nat) (r : List Nat) (k : s.Calm) (x : s.dev.Executes c (.bare .all) w q)
    (top : q.stack = i :: r) (inside : q.holds i = true) :
    Does (.ret c w) s (fun e => ProgramIs c s.dev e { q with pc := i, stack := r, steps := q.steps + 1 } (s.dev.lanes c)) := by
  refine does_program_is (exec_ret c w s) k x ?_
  rw [retEffect_pops x.1.issued_seq top inside]
  exact (x.1.issued_programIs.updSeq (fun q => { q with stack := r }) (fun _ => rfl)).goto inside

/-- What LOOP does (R57, R59). -/
def loopEffect (c : Ctx) (w : Insn) (d : Dev) : Dev × Except Exc Flow :=
  let q := d.seqD c
  if q.bank.rd w.a - 1 = 0 then (d.countDown c w.a, .ok .next)
  else if q.holds (branchTo w q) then (d.countDown c w.a, .ok (.goto (branchTo w q)))
  else (d, .error exPc)

theorem exec_loop (c : Ctx) (w : Insn) (s : State) : exec (.loop c w) s = run (issue c (.branch .reg) w true (loopEffect c w)) s := rfl

theorem loop_falls_through (s : State) (c : Ctx) (w : Insn) (q : Seq) (k : s.Calm) (x : s.dev.Executes c (.branch .reg) w q)
    (zero : q.bank.rd w.a - 1 = 0) :
    Does (.loop c w) s (fun e =>
      ProgramIs c s.dev e { q with bank := q.bank.wr w.a 0, pc := q.pc + 1, steps := q.steps + 1 }
        ((s.dev.lanes c).map (fun b => b.wr w.a (b.rd w.a - 1)))) := by
  refine does_program_is (exec_loop c w s) k x ?_
  have eff : loopEffect c w (s.dev.issued c q) = ((s.dev.issued c q).countDown c w.a, .ok .next) := by
    simp only [loopEffect, Dev.seqD_of_seq x.1.issued_seq, zero, if_true]
  rw [eff, ← zero]
  exact (x.1.issued_programIs.countDown w.a).next

theorem loop_branches (s : State) (c : Ctx) (w : Insn) (q : Seq) (k : s.Calm) (x : s.dev.Executes c (.branch .reg) w q)
    (nonzero : q.bank.rd w.a - 1 ≠ 0) (inside : q.holds (branchTo w q) = true) :
    Does (.loop c w) s (fun e =>
      ProgramIs c s.dev e { q with bank := q.bank.wr w.a (q.bank.rd w.a - 1), pc := (branchTo w q).toNat, steps := q.steps + 1 }
        ((s.dev.lanes c).map (fun b => b.wr w.a (b.rd w.a - 1)))) := by
  refine does_program_is (exec_loop c w s) k x ?_
  have inside' : Seq.holds { q with steps := q.steps + 1 } (branchTo w { q with steps := q.steps + 1 }) = true := inside
  have eff : loopEffect c w (s.dev.issued c q) = ((s.dev.issued c q).countDown c w.a, .ok (.goto (branchTo w q))) := by
    simp only [loopEffect, Dev.seqD_of_seq x.1.issued_seq, nonzero, if_false, inside', if_true]
    rfl
  rw [eff]
  exact (x.1.issued_programIs.countDown w.a).goto inside

theorem yield_does (s : State) (c : Ctx) (w : Insn) (q : Seq) (k : s.Calm) (x : s.dev.Executes c (.bare .all) w q) :
    Does (.yield c w) s (fun e => ProgramIs c s.dev e { q with pc := q.pc + 1, steps := q.steps + 1 } (s.dev.lanes c)) :=
  does_program_is (i := .yield c w) rfl k x x.1.issued_programIs.next

end

/-- A branch of a guest to an index outside its program ends it with EX_PC (R59, R77). -/
theorem br_outside (s : State) (g : Fin 256) (w : Insn) (q : Seq) (a : Nat) (k : s.Calm) (r : s.dev.Executes (.guest g) (.branch .none) w q)
    (acc : (s.dev.ring g.val).thread.acc = some a) (out : q.holds (branchTo w q) = false) :
    Does (.br (.guest g) w) s (ProgramEnded g a 0x10 (some (excResult 0x03 (q.byteAddr q.pc))) s.dev) := by
  refine does_ends (i := .br (.guest g) w) rfl k ?_
  have out' : Seq.holds { q with steps := q.steps + 1 } (branchTo w q) = false := out
  rw [issue_executes r, Dev.concluded_ok, Dev.seqD_of_seq r.1.issued_seq]
  show ProgramEnded _ _ _ _ _ ((s.dev.issued _ q).proceed _ (.goto (branchTo w q)))
  rw [Dev.proceed_goto_outside r.1.issued_seq out']
  exact r.1.issued_only.raise acc r.1.issued_seq exPc

/-! The stack at program entry. -/

/-- The call stack of a ring's thread is empty. -/
def Dev.StackEmpty (d : Dev) (g : Nat) : Prop := (d.ring g).thread.seq.stack = []

theorem Dev.sendVector_rings (d : Dev) (f v : Nat) : (d.sendVector f v).rings = d.rings := by
  unfold Dev.sendVector
  split <;> rfl

theorem Dev.setEv_rings (d : Dev) (f b : Nat) : (d.setEv f b).rings = d.rings := by
  unfold Dev.setEv
  dsimp only
  split
  · exact Dev.sendVector_rings _ _ _
  · rfl

theorem Dev.faultRec_rings (d : Dev) (f cause source ring va : Nat) : (d.faultRec f cause source ring va).rings = d.rings := by
  unfold Dev.faultRec
  exact Dev.setEv_rings _ _ _

/-- A fault that is recorded leaves the rings (R43, R133). -/
theorem Dev.excFault_rings (d : Dev) (f cause source ring va : Nat) : (d.excFault f cause source ring va).rings = d.rings := by
  unfold Dev.excFault Dev.accessFault
  split
  · rfl
  · split
    · exact Dev.setEv_rings _ _ _
    · exact Dev.faultRec_rings _ _ _ _ _ _

theorem Dev.StackEmpty.of_rings {d e : Dev} {g : Nat} (h : d.StackEmpty g) (r : e.rings = d.rings) : e.StackEmpty g := by
  unfold Dev.StackEmpty Dev.ring at *
  rw [r]
  exact h

theorem Dev.StackEmpty.endProgram {d : Dev} {g : Nat} (h : d.StackEmpty g) (status : BitVec 8) (result : Option (BitVec 64)) :
    (d.endProgram g status result).StackEmpty g := by
  cases acc : (d.ring g).thread.acc with
  | none => simpa [Dev.endProgram, acc] using h
  | some a =>
    rw [Dev.endProgram_eq acc]
    simp [Dev.StackEmpty, Thread.idle, Seq.idle]

theorem beginRun_stack (d : Dev) (g : Nat) (e : Entry) : (d.beginRun g e).StackEmpty g := by
  unfold Dev.beginRun
  dsimp only
  generalize hd : ((d.updThread g _).updEntry g e.acc _ : Dev) = d0
  have start : d0.StackEmpty g := by
    rw [← hd]
    simp [Dev.StackEmpty, Dev.updEntry, Ring.updEntry, Dev.updThread, Seq.idle]
  have read := (readWords_fetched d0 (ringFn g) (itemProg e.item) 2 .exec).eq
  split
  · rename_i d1 cause va h
    rw [h] at read
    exact (start.of_rings ((Dev.excFault_rings _ _ _ _ _ _).trans (congrArg Dev.rings read :))).endProgram _ _
  · rename_i d1 ws h
    rw [h] at read
    split
    · exact (start.of_rings (congrArg Dev.rings read :)).endProgram _ _
    · simp [Dev.StackEmpty, Dev.updThread]

/-- The run of one slice begins (R345). -/
def Dev.startSlice (d : Dev) (p : Nat × AProg) : Dev :=
  d.setSlice p.1
    { d.slice p.1 with
      idle := false, running := true
      seq := { (d.slice p.1).seq with pc := p.2.entry, stack := [], base := 0, length := p.2.words.length, limit := p.2.limit, steps := 0 } }

theorem Dev.startSlices_eq {d : Dev} {g : Graph} (h : d.audio.active = some g) : d.startSlices = g.progs.foldl Dev.startSlice d := by
  unfold Dev.startSlices
  rw [h]
  rfl

theorem startSlice_stack_same (d : Dev) (p : Nat × AProg) : ((d.startSlice p).slice p.1).seq.stack = [] := by
  simp [Dev.startSlice]

theorem startSlice_stack_keeps {d : Dev} {n : Nat} (h : (d.slice n).seq.stack = []) (p : Nat × AProg) :
    ((d.startSlice p).slice n).seq.stack = [] := by
  by_cases e : p.1 = n
  · rw [← e]
    exact startSlice_stack_same d p
  · rw [Dev.startSlice, Dev.slice_setSlice, if_neg e, h]

theorem startSlices_stack_keeps {n : Nat} (l : List (Nat × AProg)) {d : Dev} (h : (d.slice n).seq.stack = []) :
    ((l.foldl Dev.startSlice d).slice n).seq.stack = [] := by
  induction l generalizing d with
  | nil => exact h
  | cons p r ih => exact ih (startSlice_stack_keeps h p)

theorem startSlices_stack (l : List (Nat × AProg)) (d : Dev) : ∀ p ∈ l, ((l.foldl Dev.startSlice d).slice p.1).seq.stack = [] := by
  induction l generalizing d with
  | nil => simp
  | cons p r ih =>
    intro x hx
    rcases List.mem_cons.1 hx with rfl | hr
    · exact startSlices_stack_keeps r (startSlice_stack_same d x)
    · exact ih (d.startSlice p) x hr

theorem entersWithEmptyStack : EntersWithEmptyStack :=
  ⟨beginRun_stack, fun _ _ _ _ => rfl, fun d g h p hp => by rw [Dev.startSlices_eq h]; exact startSlices_stack g.progs d p hp, fun _ _ => rfl⟩

/-- Settles O11: each transfer goes where its row says, or raises what its row says. -/
theorem controlTransfers : Obligations.ControlTransfers :=
  ⟨⟨goesTo_of_exec fun _ _ _ => rfl, goesTo_of_exec fun _ _ _ => rfl, callsTo_of_exec isCall_call, callsTo_of_exec isCall_callr, ret_does,
      loop_falls_through, loop_branches, yield_does⟩,
    stackRaises_of_call isCall_call, stackRaises_of_call isCall_callr,
    fun s c w _ r empty => exec_raises (exec_ret c w s) r (retEffect_empty r.1.issued_seq empty), rfl, entersWithEmptyStack, br_outside,
    fun s g w q _ k r acc full => does_raises (isCall_call (.guest g) w s) k r acc (Dev.call_full r.1.issued_seq full _),
    fun s g w q _ k r acc empty => does_raises (exec_ret (.guest g) w s) k r acc (retEffect_empty r.1.issued_seq empty)⟩

end Sys2Proof.Machine
end

section
/-! The end of a program (R61, R70, R76, R346). -/

namespace Sys2Proof.Machine

/-- An instruction that executes and leaves the device e, which has stored nothing. -/
theorem does_becomes {i : Instr} {s : State} {c : Ctx} {sh : Shape} {w : Insn} {q : Seq} {control : Bool} {eff : Dev → Dev × Except Exc Flow}
    {d e : Dev} {P : Dev → Prop} (x : exec i s = run (issue c sh w control eff) s) (k : s.Calm) (r : s.dev.Executes c sh w q)
    (hd : s.dev.issued c q = d) (h : Dev.concluded c (eff d) = e) (m : EndsAlike s.dev e) (n : e.writes = []) (p : ∀ b, P { e with bus := b }) :
    Does i s P := by
  have eq : issue c sh w control eff s.dev = e := by rw [issue_executes r, hd, h]
  exact does_runFrom_noStores x k (by rw [eq]; exact m) (by rw [eq]; exact n) (by rw [eq]; exact p _)

/-! Operations released to their engines. -/

/-- Operations of ring g released: the operations of the device and the entries of that ring alone have changed. -/
def Released (g : Nat) (d e : Dev) : Prop :=
  { e with ops := d.ops, rings := d.rings } = d ∧ (∀ h, h ≠ g → e.ring h = d.ring h) ∧ { e.ring g with entries := (d.ring g).entries } = d.ring g

namespace Released

theorem refl (g : Nat) (d : Dev) : Released g d d := ⟨rfl, fun _ _ => rfl, rfl⟩

theorem trans {g : Nat} {d e r : Dev} (h : Released g d e) (k : Released g e r) : Released g d r := by
  obtain ⟨frame, others, ring⟩ := h
  obtain ⟨frame', others', ring'⟩ := k
  refine ⟨?_, fun j ne => (others' j ne).trans (others j ne), ?_⟩
  · exact (congrArg (fun x : Dev => { x with ops := d.ops, rings := d.rings }) frame' :).trans frame
  · exact (congrArg (fun x : Ring => { x with entries := (d.ring g).entries }) ring' :).trans ring

end Released

section
variable (d : Dev) (g : Nat)

theorem release_released (acc : Nat) (x : Enq) : Released g d (d.release g acc x) := by
  unfold Dev.release
  split
  · dsimp only
    split
    · exact Released.refl g d
    · refine ⟨rfl, fun j ne => ?_, ?_⟩
      · rw [Dev.updEntry, Dev.ring_setRing, if_neg (fun h => ne h.symm)]
        rfl
      · rw [Dev.updEntry, Dev.ring_setRing_same]
        rfl
  · exact Released.refl g d

theorem releases_released (acc : Nat) (l : List Enq) : Released g d (l.foldl (fun d e => d.release g acc e) d) := by
  induction l generalizing d with
  | nil => exact Released.refl g d
  | cons x r ih => exact (release_released d g acc x).trans (ih _)

/-- The issue buffer released: beside the operations and the entries, the buffer is empty (R70). -/
theorem kick_frame :
    { d.kick g with ops := d.ops, rings := d.rings } = d ∧ (∀ h, h ≠ g → (d.kick g).ring h = d.ring h) ∧
      { (d.kick g).ring g with entries := (d.ring g).entries, thread := { ((d.kick g).ring g).thread with buf := (d.ring g).thread.buf } } = d.ring g := by
  unfold Dev.kick
  cases (d.ring g).thread.acc with
  | none => exact ⟨rfl, fun _ _ => rfl, rfl⟩
  | some a =>
    obtain ⟨frame, others, ring⟩ := releases_released d g a (d.ring g).thread.buf
    refine ⟨frame, fun j ne => ?_, ?_⟩
    · dsimp only [Dev.updThread]
      rw [Dev.ring_setRing, if_neg (fun h => ne h.symm), others j ne]
    · dsimp only [Dev.updThread]
      rw [Dev.ring_setRing_same]
      exact (congrArg (fun x : Ring => { x with thread := { x.thread with buf := (d.ring g).thread.buf } }) ring :)

theorem kick_acc : ((d.kick g).ring g).thread.acc = (d.ring g).thread.acc := by
  obtain ⟨-, -, ring⟩ := kick_frame d g
  exact (congrArg (fun r : Ring => r.thread.acc) ring :)

end

/-! END. -/

/-- The row of END. -/
def Shape.endProg : Shape := { formats := [0], dst := .none, a := .reg, b := .none, c := false, subs := 1, prof := .all }

theorem end_guest (s : State) (g : Fin 256) (w : Insn) (q : Seq) (a : Nat) (k : s.Calm) (r : s.dev.Executes (.guest g) .endProg w q)
    (acc : (s.dev.ring g.val).thread.acc = some a) :
    Does (.endProg (.guest g) w) s (fun e =>
      (e.ring g.val).thread = Thread.idle ∧
      (e.ring g.val).entries = (((s.dev.issued (.guest g) q).kick g.val).ring g.val).entries.map (fun x => if x.acc = a then
        { x with phase := .ended, progStatus := if (s.dev.ring g.val).thread.tx.isSome then 0x03 else 0
                 result := if w.a = 0 then none else some ((q.bank.rd w.a).setWidth 64) } else x) ∧
      e.ops = ((s.dev.issued (.guest g) q).kick g.val).ops ∧ (∀ h, h ≠ g.val → e.ring h = s.dev.ring h) ∧
      { e with rings := s.dev.rings, ops := s.dev.ops, fns := s.dev.fns, free := s.dev.free, probe := s.dev.probe, bus := s.dev.bus } = s.dev) := by
  obtain ⟨d, hd⟩ : ∃ d, s.dev.issued (.guest g) q = d := ⟨_, rfl⟩
  have only := r.1.issued_only
  have seq := r.1.issued_seq
  rw [hd] at only seq ⊢
  have acc' := (kick_acc d g.val).trans (only.acc acc)
  have bank : (d.ring g.val).thread.seq.bank = q.bank := by rw [Dev.seq_guest_some seq]
  obtain ⟨-, -, frame, others, ring⟩ := only
  have tx : (d.ring g.val).thread.tx = (s.dev.ring g.val).thread.tx := (congrArg (fun r : Ring => r.thread.tx) ring :)
  obtain ⟨frame', others', -⟩ := kick_frame d g.val
  have all : { d.kick g.val with
      rings := s.dev.rings, ops := s.dev.ops, fns := s.dev.fns, free := s.dev.free, probe := s.dev.probe, bus := s.dev.bus } = s.dev := by
    rw [← frame'] at frame
    exact (congrArg (fun x : Dev => { x with ops := s.dev.ops }) frame :)
  refine does_becomes (i := .endProg (.guest g) w) rfl k r hd (Dev.endProgram_eq acc' _ _)
    ⟨(congrArg Dev.mem all :), (congrArg Dev.update all :), (congrArg Dev.safety all :)⟩ ((congrArg Dev.writes all :).trans k.1.1) fun b =>
    ⟨congrArg Ring.thread (Dev.ring_setRing_same _ _ _), (congrArg Ring.entries (Dev.ring_setRing_same _ _ _)).trans ?_, rfl, fun j ne => ?_, all⟩
  · simp only [tx, bank]
  · refine Eq.trans (Dev.ring_setRing _ _ _ _) ?_
    rw [if_neg (fun h => ne h.symm), others' j ne, others j ne]

theorem end_firmware (s : State) (core : Fin 10) (t : Fin 4) (w : Insn) (q : Seq) (k : s.Calm)
    (r : s.dev.Executes (.firmware core t) .endProg w q) :
    Does (.endProg (.firmware core t) w) s (FirmwareIs core t
      { s.dev.fwt core.val t.val with halted := false, started := false, seq := { q with steps := q.steps + 1 } } s.dev) := by
  refine does_firmware (i := .endProg (.firmware core t) w) rfl k ((issue_executes r true _).trans ?_)
  rw [Dev.concluded_ok, Dev.proceed_done, Dev.issued_firmware r.1.seq]
  simp only [Dev.fwt_setFwt_same, Dev.setFwt_setFwt]

/-! The end of a wave. -/

theorem tfind_tdel_ne {α : Type} (t : Tab α) {i j : Nat} (h : j ≠ i) : tfind (tdel t i) j = tfind t j := by
  induction t with
  | nil => rfl
  | cons p r ih =>
    obtain ⟨m, u⟩ := p
    by_cases e : m = i
    · simp [tdel, tfind_cons, e, h.symm]
    · simp [tdel, tfind_cons, e, ih]

theorem setPass_frame (d : Dev) (q : Pass) : (d.setPass q).raster.waves = d.raster.waves ∧ { d.setPass q with raster := d.raster } = d := ⟨rfl, rfl⟩

theorem updTile_frame (d : Dev) (x : Wave) (h : TileRun → TileRun) :
    (d.updTile x h).raster.waves = d.raster.waves ∧ { d.updTile x h with raster := d.raster } = d := by
  unfold Dev.updTile
  split
  · split
    · exact setPass_frame _ _
    · exact ⟨rfl, rfl⟩
  · exact ⟨rfl, rfl⟩

/-- A wave that ends is gone from the waves, and only the raster engine's state changes. -/
theorem endWave_frame {d : Dev} {i : Nat} {x : Wave} (h : d.wave i = some x) :
    (d.endWave i).raster.waves = tdel d.raster.waves i ∧ { d.endWave i with raster := d.raster } = d := by
  unfold Dev.endWave
  rw [h]
  dsimp only
  cases d.passOf x.op with
  | none => exact ⟨rfl, rfl⟩
  | some p =>
    dsimp only
    cases x.kind with
    | compute => exact ⟨rfl, rfl⟩
    | vertex => exact ⟨rfl, rfl⟩
    | pixel =>
      dsimp only
      generalize hd : ({ d with raster := { d.raster with waves := tdel d.raster.waves i } } : Dev) = d1
      obtain ⟨waves, frame⟩ := updTile_frame d1 x (fun t => x.lanes.foldl (fun t l => l.apply (d.descOf x.op) (p.drawRec x.draw) p.prims t) t)
      rw [waves]
      subst hd
      exact ⟨rfl, (congrArg (fun x : Dev => { x with raster := d.raster }) frame :)⟩

theorem end_wave (s : State) (i : Nat) (w : Insn) (q : Seq) (k : s.Calm) (r : s.dev.Executes (.wave i) .endProg w q) :
    Does (.endProg (.wave i) w) s (fun e =>
      e.raster.waves = tdel (s.dev.issued (.wave i) q).raster.waves i ∧ (∀ j, j ≠ i → e.wave j = s.dev.wave j) ∧
      { e with raster := s.dev.raster, fns := s.dev.fns, free := s.dev.free, probe := s.dev.probe, bus := s.dev.bus } = s.dev) := by
  obtain ⟨d, hd⟩ : ∃ d, s.dev.issued (.wave i) q = d := ⟨_, rfl⟩
  have only := r.1.issued_only
  have seq := r.1.issued_seq
  rw [hd] at only seq ⊢
  rw [Dev.seq, Option.map_eq_some_iff] at seq
  obtain ⟨x, hx, -⟩ := seq
  obtain ⟨waves, frame'⟩ := endWave_frame hx
  obtain ⟨-, -, frame, -, others, -⟩ := only
  have all : { d.endWave i with
      raster := s.dev.raster, fns := s.dev.fns, free := s.dev.free, probe := s.dev.probe, bus := s.dev.bus } = s.dev := by
    rw [← frame'] at frame
    exact frame
  refine does_becomes (i := .endProg (.wave i) w) rfl k r hd rfl
    ⟨(congrArg Dev.mem all :), (congrArg Dev.update all :), (congrArg Dev.safety all :)⟩ ((congrArg Dev.writes all :).trans k.1.1) fun b =>
    ⟨waves, fun j ne => ?_, all⟩
  show tfind (d.endWave i).raster.waves j = _
  rw [waves, tfind_tdel_ne _ ne]
  exact others j ne

theorem end_slice (s : State) (n : Fin 4) (w : Insn) (q : Seq) (k : s.Calm) (r : s.dev.Executes (.slice n) .endProg w q) :
    Does (.endProg (.slice n) w) s (fun e =>
      (e.slice n.val).running = false ∧ (e.slice n.val).instrs = q.steps + 1 ∧ (∀ j, j ≠ n.val → e.slice j = s.dev.slice j) ∧
      { e with audio := s.dev.audio, probe := s.dev.probe, bus := s.dev.bus } = s.dev) := by
  have frame : { s.dev.issued (.slice n) q with audio := s.dev.audio, probe := s.dev.probe, bus := s.dev.bus } = s.dev := by
    unfold Dev.issued Dev.fetch
    rw [unstep_eq]
    rfl
  obtain ⟨d, hd⟩ : ∃ d, s.dev.issued (.slice n) q = d := ⟨_, rfl⟩
  have only := r.1.issued_only
  have seq := r.1.issued_seq
  rw [hd] at only seq frame
  have steps : (d.slice n.val).seq.steps = q.steps + 1 := congrArg Seq.steps (Option.some.inj seq)
  obtain ⟨-, -, -, -, others, -⟩ := only
  refine does_becomes (i := .endProg (.slice n) w) rfl k r hd rfl
    ⟨(congrArg Dev.mem frame :), (congrArg Dev.update frame :), (congrArg Dev.safety frame :)⟩ ((congrArg Dev.writes frame :).trans k.1.1) fun b =>
    ⟨congrArg Slice.running (Dev.slice_setSlice_same _ _ _), (congrArg Slice.instrs (Dev.slice_setSlice_same _ _ _)).trans steps, fun j ne => ?_, frame⟩
  refine Eq.trans (Dev.slice_setSlice _ _ _ _) ?_
  rw [if_neg (fun h => ne h.symm), others j ne]

/-- Settles O12: END on each kind of context. -/
theorem endOfProgram : Obligations.EndOfProgram := by
  refine ⟨end_guest, fun s core t w q k r => ?_, end_wave, end_slice⟩
  obtain ⟨u, x, p, thread, -, frame⟩ := end_firmware s core t w q k r
  exact ⟨u, x, p, congrArg FwThread.started thread, frame⟩

end Sys2Proof.Machine
end

section
/-! Loads, stores and atomics (R63 to R67, R143, R147): what an instruction that reads memory leaves, and what one that stores may
change. -/

namespace Sys2Proof.Machine

/-! A program whose registers take what an instruction has read. -/

/-- A program counter has become p, and beside it no more than a program counter changes. -/
def Goes (c : Ctx) (d e : Dev) (p : Seq) : Prop := OnlyProgram c d e ∧ e.seq c = some p

section
variable {c : Ctx} {d e r : Dev} {p : Seq}

theorem Dev.Ready.issued_goes {sh : Shape} {w : Insn} {q : Seq} (x : d.Ready c sh w q) : Goes c d (d.issued c q) { q with steps := q.steps + 1 } :=
  ⟨x.issued_only, x.issued_seq⟩

theorem Fetched.seq (h : Fetched d e) (c : Ctx) : e.seq c = d.seq c := by
  rw [h.eq]
  exact seq_of_only c _ _ rfl rfl rfl rfl

theorem Goes.fetched (h : Goes c d e p) (f : Fetched e r) : Goes c d r p := ⟨h.1.trans c (f.only c), (f.seq c).trans h.2⟩

theorem Goes.next (h : Goes c d e p) : Goes c d (e.proceed c .next) { p with pc := p.pc + 1 } :=
  ⟨h.1.trans c (updSeq_only c e _), seq_updSeq e c _ p h.2⟩

theorem Goes.onBus (h : Goes c d e p) (b : Lattice) : Goes c d { e with bus := b } p := ⟨h.1.onBus c b, (Dev.seq_onBus e c b).trans h.2⟩

theorem wrReg_only (c : Ctx) (d : Dev) (n : Nat) (v : W72) : OnlyProgram c d (d.wrReg c n v) := by
  cases c with
  | slice k => exact setBanks_only d k _ _
  | _ => exact updSeq_only _ d _

theorem seq_wrReg (n : Nat) (v : W72) (h : d.seq c = some p) : (d.wrReg c n v).seq c = some { p with bank := p.bank.wr n v } := by
  cases c with
  | slice k =>
    simp only [Dev.seq, Option.some.injEq] at h
    simp [Dev.wrReg, Dev.seq, h]
  | _ => exact seq_updSeq d _ _ p h

theorem Goes.wr (h : Goes c d e p) (n : Nat) (v : W72) : Goes c d (e.wrReg c n v) { p with bank := p.bank.wr n v } :=
  ⟨h.1.trans c (wrReg_only c e n v), seq_wrReg n v h.2⟩

theorem Dev.hinted_fetched (d : Dev) (c : Ctx) (w : Insn) : Fetched d (d.hinted c w) := fetched_asked d _

/-- The function whose memory a context uses is none of its program counter's. -/
theorem OnlyProgram.ctxFn (h : OnlyProgram c d e) : e.ctxFn c = d.ctxFn c := by
  obtain ⟨-, -, frame⟩ := h
  cases c with
  | guest g => rfl
  | firmware k t => exact (congrArg Dev.manager frame.1 :)
  | slice n => exact (congrArg Dev.manager frame.1 :)
  | wave i =>
    obtain ⟨frame, -, -, wave⟩ := frame
    have manager : e.manager = d.manager := (congrArg Dev.manager frame :)
    cases he : e.wave i <;> cases hd : d.wave i <;> rw [he, hd] at wave <;> simp only [Option.map_some, Option.map_none, Option.some.injEq, reduceCtorEq] at wave
    · simp only [Dev.ctxFn, he, hd, manager]
    · simp only [Dev.ctxFn, he, hd]
      exact (congrArg (fun x : Wave => x.fn) wave :)

end

section
variable {i : Instr} {s : State} {c : Ctx} {sh : Shape} {w : Insn} {q p : Seq} {control : Bool} {eff : Dev → Dev × Except Exc Flow} {d : Dev}

/-- An instruction that executes and goes on to the next index. -/
theorem does_goes (x : exec i s = run (issue c sh w control eff) s) (k : s.Calm) (r : s.dev.Executes c sh w q)
    (h : eff (s.dev.issued c q) = (d, .ok .next)) (g : Goes c s.dev d p) : Does i s (fun e => Goes c s.dev e { p with pc := p.pc + 1 }) :=
  does_executes x k r (by rw [h, Dev.concluded_ok]) g.next.1 fun b => g.next.onBus b

/-- The banks of a program's instruction that has been issued, its hint noted. -/
theorem issued_hinted (r : s.dev.Executes c sh w q) : Goes c s.dev ((s.dev.issued c q).hinted c w) { q with steps := q.steps + 1 } :=
  r.1.issued_goes.fetched (Dev.hinted_fetched _ c w)

theorem issued_hinted_bank (r : s.dev.Executes c sh w q) : ((s.dev.issued c q).hinted c w).bank c = q.bank :=
  (Dev.bank_of_seq (issued_hinted r).2).trans rfl

theorem issued_hinted_ctxFn (r : s.dev.Executes c sh w q) : ((s.dev.issued c q).hinted c w).ctxFn c = s.dev.ctxFn c := (issued_hinted r).1.ctxFn

end

/-! Loads. -/

section
variable {s : State} {c : Ctx} {w : Insn} {q : Seq} {d2 : Dev} {bytes : List Byte} (k : s.Calm) (r : s.dev.Executes c (.mem 6 .sv) w q)
include k r

/-- The registers of a load: two words of 72 bits, or the value of its bytes. -/
def loadedBank (b : Bank) (w : Insn) (sign : Bool) (bytes : List Byte) : Bank :=
  if w.s = 5 then (b.wr w.d (BitVec.ofNat 72 (ofBytes (bytes.take 9)))).wr (w.d + 1) (BitVec.ofNat 72 (ofBytes (bytes.drop 9)))
  else b.wr w.d (loadWord sign bytes)

omit k r in
theorem Goes.loaded {d e : Dev} {p : Seq} (h : Goes c d e p) (sign : Bool) :
    Goes c d (e.loaded c w sign bytes) { p with bank := loadedBank p.bank w sign bytes } := by
  unfold Dev.loaded loadedBank
  by_cases s5 : w.s = 5
  · simp only [if_pos s5]
    exact (h.wr _ _).wr _ _
  · simp only [if_neg s5]
    exact h.wr _ _

/-- A load whose access finds bytes. -/
theorem load_does {i : Instr} {sign : Bool} (x : exec i s = run (issue c (.mem 6 .sv) w false (fun d => (d.hinted c w).load c w sign)) s)
    (ok : accessExc w.s w.d (q.bank.addr w) = none)
    (read : ((s.dev.issued c q).hinted c w).readV (s.dev.ctxFn c) (q.bank.addr w) (accessBytes w.s) .read = (d2, .ok bytes)) :
    Does i s (fun e => Goes c s.dev e { q with pc := q.pc + 1, steps := q.steps + 1, bank := loadedBank q.bank w sign bytes }) := by
  have g : Goes c s.dev d2 { q with steps := q.steps + 1 } :=
    (issued_hinted r).fetched (by have f := readV_fetched ((s.dev.issued c q).hinted c w) (s.dev.ctxFn c) (q.bank.addr w) (accessBytes w.s) .read
                                  rwa [read] at f)
  refine does_goes (d := d2.loaded c w sign bytes) x k r ?_ (g.loaded sign)
  simp only [Dev.load, issued_hinted_bank r, issued_hinted_ctxFn r, ok, read]

end

/-- A load without sign extension writes the number of its bytes. -/
theorem loadedBank_unsigned (b : Bank) (w : Insn) (bytes : List Byte) :
    loadedBank b w false bytes =
      if w.s = 5 then (b.wr w.d (BitVec.ofNat 72 (ofBytes (bytes.take 9)))).wr (w.d + 1) (BitVec.ofNat 72 (ofBytes (bytes.drop 9)))
      else b.wr w.d (BitVec.ofNat 72 (ofBytes bytes)) := rfl

theorem loadedBank_signed (b : Bank) (w : Insn) (bytes : List Byte) :
    loadedBank b w true bytes =
      if w.s = 5 then (b.wr w.d (BitVec.ofNat 72 (ofBytes (bytes.take 9)))).wr (w.d + 1) (BitVec.ofNat 72 (ofBytes (bytes.drop 9)))
      else if bytes.length < 9 then b.wr w.d (sextTo 72 (8 * bytes.length) (ofBytes bytes)) else b.wr w.d (BitVec.ofNat 72 (ofBytes bytes)) := by
  unfold loadedBank loadWord
  by_cases short : bytes.length < 9 <;> simp [short]

/-- The row of LDP. -/
def Shape.ldp : Shape := { formats := [1], dst := .reg, a := .none, b := .none, c := false, subs := 1, prof := .s }

theorem ldp_does (s : State) (g : Fin 256) (w : Insn) (q : Seq) (d2 : Dev) (v : W72) (k : s.Calm) (r : s.dev.Executes (.guest g) .ldp w q)
    (inside : w.immZ.toNat < (s.dev.ring g.val).thread.paramLen)
    (read : (s.dev.issued (.guest g) q).readWords (ringFn g.val)
      (((s.dev.ring g.val).thread.paramBase.toNat + 9 * w.immZ.toNat) % 2 ^ 48) 1 .read = (d2, .ok [v])) :
    Does (.ldp (.guest g) w) s (fun e => Goes (.guest g) s.dev e { q with pc := q.pc + 1, steps := q.steps + 1, bank := q.bank.wr w.d v }) := by
  have only := r.1.issued_only
  obtain ⟨-, -, -, -, ring⟩ := only
  have base : ((s.dev.issued (.guest g) q).ring g.val).thread.paramBase = (s.dev.ring g.val).thread.paramBase := (congrArg (fun r : Ring => r.thread.paramBase) ring :)
  have len : ((s.dev.issued (.guest g) q).ring g.val).thread.paramLen = (s.dev.ring g.val).thread.paramLen := (congrArg (fun r : Ring => r.thread.paramLen) ring :)
  have fetched := readWords_fetched (s.dev.issued (.guest g) q) (ringFn g.val)
    (((s.dev.ring g.val).thread.paramBase.toNat + 9 * w.immZ.toNat) % 2 ^ 48) 1 .read
  rw [read] at fetched
  refine does_goes (i := .ldp (.guest g) w) (d := d2.wrReg (.guest g) w.d v) rfl k r ?_ ((r.1.issued_goes.fetched fetched).wr w.d v)
  dsimp only
  rw [len, base, if_neg (Nat.not_le.2 inside), read]
  rfl

/-- PREF and FLUSH of a line that translates. -/
theorem touchLine_does {i : Instr} {s : State} {c : Ctx} {w : Insn} {q : Seq} {d2 : Dev} {pa : Nat} {h : Dev → Nat → Dev} (k : s.Calm)
    (r : s.dev.Executes c .line w q) (x : exec i s = run (issue c .line w false (fun d => (d.hinted c w).touchLine c w h)) s)
    (f : Fetched d2 (h d2 pa)) (line : ((s.dev.issued c q).hinted c w).translate (s.dev.ctxFn c) (q.bank.addr w) .read = (d2, .ok pa)) :
    Does i s (fun e => Goes c s.dev e { q with pc := q.pc + 1, steps := q.steps + 1 }) := by
  have fetched := translate_fetched ((s.dev.issued c q).hinted c w) (s.dev.ctxFn c) (q.bank.addr w) .read
  rw [line] at fetched
  refine does_goes (d := h d2 pa) x k r ?_ ((issued_hinted r).fetched (fetched.trans f))
  simp only [Dev.touchLine, issued_hinted_bank r, issued_hinted_ctxFn r, line]

end Sys2Proof.Machine
end

section
/-! Stores (R63, R64, R67, R147, R148, R261): what a store through the IOMMU may change, and the bytes that it leaves. -/

namespace Sys2Proof.Machine

/-! The scan watch. -/

/-- What the scan watch may change: the composition state, the messages sent and the event registers of functions. -/
def Watched (d e : Dev) : Prop :=
  { e with comp := d.comp, msgs := d.msgs, fns := d.fns } = d ∧ ∀ f, (e.fn f).dirtyEnable = (d.fn f).dirtyEnable

namespace Watched

theorem refl (d : Dev) : Watched d d := ⟨rfl, fun _ => rfl⟩

theorem trans {d e r : Dev} (h : Watched d e) (k : Watched e r) : Watched d r := by
  obtain ⟨frame, enable⟩ := h
  obtain ⟨frame', enable'⟩ := k
  exact ⟨(congrArg (fun x : Dev => { x with comp := d.comp, msgs := d.msgs, fns := d.fns }) frame' :).trans frame,
    fun f => (enable' f).trans (enable f)⟩

theorem foldl {α : Type} {f : Dev → α → Dev} (h : ∀ d x, Watched d (f d x)) (l : List α) (d : Dev) : Watched d (l.foldl f d) := by
  induction l generalizing d with
  | nil => exact Watched.refl d
  | cons x r ih => exact (h d x).trans (ih _)

/-- Registers of one function replaced that say nothing of dirty logging. -/
theorem setFn (d : Dev) (f : Nat) (x : Fn) (h : x.dirtyEnable = (d.fn f).dirtyEnable) : Watched d (d.setFn f x) := by
  refine ⟨rfl, fun g => ?_⟩
  rw [Dev.fn_setFn]
  by_cases e : f = g
  · rw [if_pos e, h, e]
  · rw [if_neg e]

end Watched

theorem sendVector_watched (d : Dev) (f v : Nat) : Watched d (d.sendVector f v) := by
  unfold Dev.sendVector
  split
  · exact ⟨rfl, fun _ => rfl⟩
  · exact Watched.setFn d f _ rfl

theorem pipeEvent_watched (d : Dev) (p b : Nat) : Watched d (d.pipeEvent p b) := by
  unfold Dev.pipeEvent
  refine Watched.foldl (fun d f => ?_) _ d
  split
  · have set := Watched.setFn d f { d.fn f with pipeEv := tset (d.fn f).pipeEv p (setBit (tget (d.fn f).pipeEv p 0) b true) } rfl
    dsimp only
    split
    · exact set.trans (sendVector_watched _ f 7)
    · exact set
  · exact Watched.refl d

theorem countOverwrite_watched (d : Dev) (cls inst word page frame : Nat) : Watched d (d.countOverwrite cls inst word page frame) :=
  ⟨rfl, fun _ => rfl⟩

theorem scanWatch_watched (d : Dev) (f va : Nat) : Watched d (d.scanWatch f va) := by
  unfold Dev.scanWatch
  refine Watched.foldl (fun d p => ?_) _ d
  dsimp only
  split
  · exact Watched.refl d
  · refine Watched.trans ?_ (pipeEvent_watched _ p 6)
    have slots := Watched.foldl (f := fun d n => d.countOverwrite 0x03 n 21 (va / 4096) (d.pt p).frame.toNat)
    split
    · exact (Watched.foldl (fun d n => countOverwrite_watched d 0x03 n 21 _ _) _ d).trans (countOverwrite_watched _ _ _ _ _ _)
    · exact Watched.foldl (fun d n => countOverwrite_watched d 0x03 n 21 _ _) _ d

/-! Stores. -/

/-- What a store may change: the bytes it stores with their poison, what the scan watch changes, dirty logging, and what a translation leaves. -/
def Stored (d e : Dev) : Prop :=
  { e with writes := d.writes, poison := d.poison, comp := d.comp, msgs := d.msgs, fns := d.fns, free := d.free, bus := d.bus } = d

namespace Stored

theorem refl (d : Dev) : Stored d d := rfl

theorem trans {d e r : Dev} (h : Stored d e) (k : Stored e r) : Stored d r :=
  (congrArg (fun x : Dev => { x with
    writes := d.writes, poison := d.poison, comp := d.comp, msgs := d.msgs, fns := d.fns, free := d.free, bus := d.bus }) k :).trans h

end Stored

theorem Fetched.stored {d e : Dev} (h : Fetched d e) : Stored d e := by
  rw [h.eq]
  rfl

theorem Watched.stored {d e : Dev} (h : Watched d e) : Stored d e :=
  (congrArg (fun x : Dev => { x with
    writes := d.writes, poison := d.poison, comp := d.comp, msgs := d.msgs, fns := d.fns, free := d.free, bus := d.bus }) h.1 :)

theorem poke_stored (d : Dev) (a : Nat) (bytes : List Byte) : Stored d (d.poke a bytes) := rfl

theorem dirtyLog_stored (d : Dev) (f va : Nat) : Stored d (d.dirtyLog f va) := by
  unfold Dev.dirtyLog
  dsimp only
  split
  · exact Stored.refl d
  · split
    · rfl
    · generalize (if (d.fn f).dirtyActive then (d.fn f).dirtyBaseB else (d.fn f).dirtyBaseA).toNat + _ = a
      split
      · exact Stored.refl d
      · rfl

theorem storePieces_stored (f : Nat) (watch : Bool) (l : List (Nat × Nat × Nat)) (bytes : List Byte) (d : Dev) :
    Stored d (d.storePieces f watch l bytes) := by
  induction l generalizing d bytes with
  | nil => exact Stored.refl d
  | cons p r ih =>
    obtain ⟨va, pa, n⟩ := p
    have piece := (poke_stored d pa (bytes.take n)).trans (dirtyLog_stored _ f va)
    unfold Dev.storePieces
    refine Stored.trans ?_ (ih _ _)
    split
    · exact piece.trans (scanWatch_watched _ f va).stored
    · exact piece

theorem writeVia_stored (d : Dev) (f va : Nat) (bytes : List Byte) (watch : Bool) : Stored d (d.writeVia f va bytes watch).1 := by
  unfold Dev.writeVia
  have fetched := translateAll_fetched (pieces va bytes.length) d f .write
  split
  · rename_i d1 e h
    rw [h] at fetched
    exact fetched.stored
  · rename_i d1 t h
    rw [h] at fetched
    split
    · exact fetched.stored
    · exact fetched.stored.trans (storePieces_stored f watch t bytes d1)

theorem atomic_stored (d : Dev) (f va sub : Nat) (x y : BitVec 64) : Stored d (d.atomic f va sub x y).1 := by
  unfold Dev.atomic
  have admitted := translateAll_fetched [(va, 8)] d f .write
  split
  · rename_i d1 e h
    rw [h] at admitted
    exact admitted.stored
  · rename_i d1 t h
    rw [h] at admitted
    have read := readV_fetched d1 f va 8 .read
    split
    · rename_i d2 e h2
      rw [h2] at read
      exact (admitted.trans read).stored
    · rename_i d2 bytes h2
      rw [h2] at read
      dsimp only
      split
      · exact (admitted.trans read).stored
      · rename_i v _
        have write := writeVia_stored d2 f va (toBytes 8 v.toNat) true
        split <;> (rename_i h3; rw [Dev.writeV] at h3; rw [h3] at write; exact (admitted.trans read).stored.trans write)

/-! The frame of an instruction that stores. -/

section
variable {c : Ctx} {d e r : Dev}

theorem StoreFrame.trans (h : StoreFrame c d e) (k : StoreFrame c e r) : StoreFrame c d r := by
  obtain ⟨frame, seq, ring, raster, wave, fw⟩ := h
  obtain ⟨frame', seq', ring', raster', wave', fw'⟩ := k
  refine ⟨?_, fun x ne => (seq' x ne).trans (seq x ne), fun g => ?_, ?_, fun j => (wave' j).trans (wave j), fun p t => (fw' p t).trans (fw p t)⟩
  · exact (congrArg (fun x : Dev => { x with
      mem := d.mem, writes := d.writes, poison := d.poison, comp := d.comp, msgs := d.msgs, fns := d.fns, free := d.free, probe := d.probe
      rings := d.rings, fw := d.fw, raster := d.raster, bus := d.bus }) frame' :).trans frame
  · exact (congrArg (fun x : Ring => { x with thread := { x.thread with seq := (d.ring g).thread.seq } }) (ring' g) :).trans (ring g)
  · exact (congrArg (fun x : Raster => { x with waves := d.raster.waves }) raster' :).trans raster

theorem Stored.storeFrame (h : Stored d e) : StoreFrame c d e := by
  have rings : e.rings = d.rings := (congrArg Dev.rings h :)
  have fw : e.fw = d.fw := (congrArg Dev.fw h :)
  have raster : e.raster = d.raster := (congrArg Dev.raster h :)
  have audio : e.audio = d.audio := (congrArg Dev.audio h :)
  refine ⟨?_, fun x _ => seq_of_only x _ _ rings fw raster audio, fun g => ?_, ?_, fun j => ?_, fun p t => ?_⟩
  · exact (congrArg (fun x : Dev => { x with
      mem := d.mem, probe := d.probe, rings := d.rings, fw := d.fw, raster := d.raster }) h :)
  · simp only [Dev.ring, rings]
  · rw [raster]
  · simp only [Dev.wave, raster]
  · simp only [Dev.fwt, fw]

theorem seq_guest_of_rings (h : e.rings = d.rings) (g : Fin 256) : e.seq (.guest g) = d.seq (.guest g) := by
  unfold Dev.seq Dev.ring
  rw [h]
theorem seq_firmware_of_fw (h : e.fw = d.fw) (k : Fin 10) (t : Fin 4) : e.seq (.firmware k t) = d.seq (.firmware k t) := by
  simp only [Dev.seq, Dev.fwt, h]
theorem seq_wave_of_raster (h : e.raster = d.raster) (i : Nat) : e.seq (.wave i) = d.seq (.wave i) := by simp only [Dev.seq, Dev.wave, h]
theorem seq_slice_of_audio (h : e.audio = d.audio) (n : Fin 4) : e.seq (.slice n) = d.seq (.slice n) := by simp only [Dev.seq, Dev.slice, h]

/-- Another program counter is none of a program's. -/
theorem OnlyProgram.seq_ne (h : OnlyProgram c d e) {x : Ctx} (ne : x ≠ c) : e.seq x = d.seq x := by
  obtain ⟨-, -, frame⟩ := h
  cases c with
  | guest g =>
    obtain ⟨frame, others, -⟩ := frame
    cases x with
    | guest j =>
      have := others j.val (fun e => ne (congrArg Ctx.guest (Fin.ext e)))
      simp only [Dev.seq, this]
    | firmware j u => exact seq_firmware_of_fw (congrArg Dev.fw frame :) j u
    | wave j => exact seq_wave_of_raster (congrArg Dev.raster frame :) j
    | slice j => exact seq_slice_of_audio (congrArg Dev.audio frame :) j
  | firmware k t =>
    obtain ⟨frame, others, -⟩ := frame
    cases x with
    | guest j => exact seq_guest_of_rings (congrArg Dev.rings frame :) j
    | firmware j u =>
      have apart : 4 * j.val + u.val ≠ 4 * k.val + t.val := by
        intro e
        obtain rfl : j = k := Fin.ext (by omega)
        obtain rfl : u = t := Fin.ext (by omega)
        exact ne rfl
      simp only [Dev.seq, others j.val u.val apart]
    | wave j => exact seq_wave_of_raster (congrArg Dev.raster frame :) j
    | slice j => exact seq_slice_of_audio (congrArg Dev.audio frame :) j
  | wave i =>
    obtain ⟨frame, -, others, -⟩ := frame
    cases x with
    | guest j => exact seq_guest_of_rings (congrArg Dev.rings frame :) j
    | firmware j u => exact seq_firmware_of_fw (congrArg Dev.fw frame :) j u
    | wave j => simp only [Dev.seq, others j (fun e => ne (congrArg Ctx.wave e))]
    | slice j => exact seq_slice_of_audio (congrArg Dev.audio frame :) j
  | slice n =>
    obtain ⟨frame, -, others, -⟩ := frame
    cases x with
    | guest j => exact seq_guest_of_rings (congrArg Dev.rings frame :) j
    | firmware j u => exact seq_firmware_of_fw (congrArg Dev.fw frame :) j u
    | wave j => exact seq_wave_of_raster (congrArg Dev.raster frame :) j
    | slice j => simp only [Dev.seq, others j.val (fun e => ne (congrArg Ctx.slice (Fin.ext e)))]

/-- A thread that has started has its own entry among the threads. -/
theorem Dev.fwt_of_started {k t : Nat} (h : (d.fwt k t).started = true) {j u : Nat} (same : 4 * j + u = 4 * k + t) : d.fwt j u = d.fwt k t := by
  simp only [Dev.fwt, tget_eq_tfind, same] at *
  cases f : tfind d.fw (4 * k + t) with
  | none => simp [f, FwThread.atReset] at h
  | some x => rfl

/-- The context is a firmware thread only as one that has started. -/
def Dev.Alive (d : Dev) (c : Ctx) : Prop := (∀ k t, c = .firmware k t → (d.fwt k.val t.val).started = true) ∧ ∀ n, c ≠ .slice n

theorem OnlyProgram.alive (h : OnlyProgram c d e) (a : d.Alive c) : e.Alive c := by
  refine ⟨fun k t hc => ?_, a.2⟩
  subst hc
  obtain ⟨-, -, -, -, thread⟩ := h
  exact (congrArg FwThread.started thread :).trans (a.1 k t rfl)

theorem Stored.alive (h : Stored d e) (a : d.Alive c) : e.Alive c := by
  have fw : e.fw = d.fw := (congrArg Dev.fw h :)
  refine ⟨fun k t hc => ?_, a.2⟩
  simpa only [Dev.fwt, fw] using a.1 k t hc

theorem OnlyProgram.storeFrame (h : OnlyProgram c d e) (a : d.Alive c) : StoreFrame c d e := by
  have alive := h.alive a
  refine ⟨?_, fun x ne => h.seq_ne ne, ?_⟩
  all_goals obtain ⟨-, -, frame⟩ := h
  · cases c with
    | guest g => exact (congrArg (fun x : Dev => { x with
        mem := d.mem, writes := d.writes, poison := d.poison, comp := d.comp, msgs := d.msgs, fw := d.fw, raster := d.raster }) frame.1 :)
    | firmware k t => exact (congrArg (fun x : Dev => { x with
        mem := d.mem, writes := d.writes, poison := d.poison, comp := d.comp, msgs := d.msgs, rings := d.rings, raster := d.raster }) frame.1 :)
    | wave i => exact (congrArg (fun x : Dev => { x with
        mem := d.mem, writes := d.writes, poison := d.poison, comp := d.comp, msgs := d.msgs, rings := d.rings, fw := d.fw }) frame.1 :)
    | slice n => exact absurd rfl (a.2 n)
  · cases c with
    | guest g =>
      obtain ⟨frame, others, ring⟩ := frame
      refine ⟨fun j => ?_, ?_, fun j => ?_, fun p t => ?_⟩
      · by_cases j = g.val
        · subst j; exact ring
        · rw [others j ‹_›]
      · rw [(show e.raster = d.raster from (congrArg Dev.raster frame :))]
      · simp only [Dev.wave, (show e.raster = d.raster from (congrArg Dev.raster frame :))]
      · simp only [Dev.fwt, (show e.fw = d.fw from (congrArg Dev.fw frame :))]
    | firmware k t =>
      obtain ⟨frame, others, thread⟩ := frame
      refine ⟨fun j => ?_, ?_, fun j => ?_, fun p u => ?_⟩
      · simp only [Dev.ring, (show e.rings = d.rings from (congrArg Dev.rings frame :))]
      · rw [(show e.raster = d.raster from (congrArg Dev.raster frame :))]
      · simp only [Dev.wave, (show e.raster = d.raster from (congrArg Dev.raster frame :))]
      · by_cases same : 4 * p + u = 4 * k.val + t.val
        · rw [Dev.fwt_of_started (alive.1 k t rfl) same, Dev.fwt_of_started (a.1 k t rfl) same]
          exact (congrArg (fun z : FwThread => { z with seq := .idle, halted := false }) thread :)
        · rw [others p u same]
    | wave i =>
      obtain ⟨frame, raster, others, wave⟩ := frame
      refine ⟨fun j => ?_, raster, fun j => ?_, fun p u => ?_⟩
      · simp only [Dev.ring, (show e.rings = d.rings from (congrArg Dev.rings frame :))]
      · by_cases j = i
        · subst j; exact wave
        · rw [others j ‹_›]
      · simp only [Dev.fwt, (show e.fw = d.fw from (congrArg Dev.fw frame :))]
    | slice n => exact absurd rfl (a.2 n)

/-- What is said of a store's frame says nothing of the bytes in memory, the stores still to take their place, and the lattice. -/
theorem StoreFrame.onCommit (h : StoreFrame c d e) (m : List Host.Cell) (b : Lattice) : StoreFrame c d { e with mem := m, writes := [], bus := b } := by
  obtain ⟨frame, seq, rest⟩ := h
  exact ⟨frame, fun x ne => (seq_of_only x _ _ rfl rfl rfl rfl).trans (seq x ne), rest⟩

end

/-! Instructions that store. -/

section
variable {i : Instr} {s : State} {c : Ctx} {sh : Shape} {w : Insn} {q : Seq} {control : Bool} {eff : Dev → Dev × Except Exc Flow}

/-- A context whose instruction executes is alive, unless it is a slice. -/
theorem Dev.Executes.alive (r : s.dev.Executes c sh w q) (p : sh.prof = .sv ∨ sh.prof = .s) : s.dev.Alive c := by
  refine ⟨fun k t hc => ?_, fun n hc => ?_⟩
  · subst hc
    have up := r.1.canIssue
    simp only [Dev.canIssue, Bool.and_eq_true] at up
    exact up.2.1.1
  · subst hc
    have ok := r.1.decodes
    rcases p with p | p <;> simp [Insn.decodeExc, p, Profile.runsOn] at ok

/-- A byte of memory once the stores of a command are there: what a read at its end would have found. -/
theorem cellGet_commit {d : Dev} (wf : Memory.wf s.dev.mem = true) (m : d.mem = s.dev.mem) (who : Nat × Nat) (a : Nat) :
    cellGet (commit who s d).dev.mem a = d.peekByte a := by
  rw [commit_mem, cellGet_cellSetAll _ _ _ wf, ← m]
  rfl

theorem Dev.peekByte_congr {d e : Dev} (m : e.mem = d.mem) (w : e.writes = d.writes) (a : Nat) : e.peekByte a = d.peekByte a := by
  unfold Dev.peekByte
  rw [m, w]

/-- An instruction that executes, stores and then writes no more than its registers. -/
theorem does_stores {d1 d2 d3 : Dev} {p : Seq} (x : exec i s = run (issue c sh w control eff) s) (k : s.Calm) (wf : Memory.wf s.dev.mem = true)
    (prof : sh.prof = .sv ∨ sh.prof = .s) (r : s.dev.Executes c sh w q) (h : eff (s.dev.issued c q) = (d3, .ok .next)) (before : OnlyProgram c s.dev d1)
    (st : Stored d1 d2) (after : OnlyProgram c d2 d3) (seq : d3.seq c = some p) :
    Does i s (fun e => StoreFrame c s.dev e ∧ (∀ a, cellGet e.mem a = d2.peekByte a) ∧ e.seq c = some { p with pc := p.pc + 1 }) := by
  have alive := r.alive prof
  have next := updSeq_only c d3 (fun q => { q with pc := q.pc + 1 })
  have rest := after.trans c next
  have frame := ((before.storeFrame alive).trans st.storeFrame).trans (rest.storeFrame (st.alive (before.alive alive)))
  have eq : issue c sh w control eff s.dev = d3.updSeq c (fun q => { q with pc := q.pc + 1 }) := by rw [issue_executes r, h]; rfl
  have memory := rest.memory
  have mem : (d3.updSeq c (fun q => { q with pc := q.pc + 1 })).mem = s.dev.mem :=
    memory.1.trans ((congrArg Dev.mem st :).trans before.memory.1)
  refine does_runFrom x k ?_ ?_
  · rw [eq]
    obtain ⟨all, -⟩ := frame
    exact ⟨mem, (congrArg Dev.update all :), (congrArg Dev.safety all :)⟩
  · rw [eq]
    refine ⟨frame.onCommit _ _, fun a => ?_, ?_⟩
    · rw [cellGet_commit wf mem, Dev.peekByte_congr memory.1 memory.2]
    · exact (seq_of_only c _ _ rfl rfl rfl rfl).trans (seq_updSeq d3 c _ p seq)

/-- A store at an effective address that its translation admits. -/
theorem st_does {d2 : Dev} (k : s.Calm) (wf : Memory.wf s.dev.mem = true) (r : s.dev.Executes c (.mem 6 .sv) w q)
    (ok : accessExc w.s w.d (q.bank.addr w) = none)
    (write : ((s.dev.issued c q).hinted c w).writeV (s.dev.ctxFn c) (q.bank.addr w) (storeBytes q.bank w) = (d2, .ok ())) :
    Does (.st c w) s (fun e => StoreFrame c s.dev e ∧ (∀ x, cellGet e.mem x = d2.peekByte x) ∧
      e.seq c = some { q with pc := q.pc + 1, steps := q.steps + 1 }) := by
  have goes := issued_hinted r
  have st := writeVia_stored ((s.dev.issued c q).hinted c w) (s.dev.ctxFn c) (q.bank.addr w) (storeBytes q.bank w) true
  rw [show Dev.writeVia _ _ _ _ true = _ from write] at st
  have seq : d2.seq c = some { q with steps := q.steps + 1 } :=
    (seq_of_only c _ _ (congrArg Dev.rings st :) (congrArg Dev.fw st :) (congrArg Dev.raster st :) (congrArg Dev.audio st :)).trans goes.2
  refine does_stores (i := .st c w) rfl k wf (.inl rfl) r ?_ goes.1 st (OnlyProgram.refl c d2) seq
  simp only [Dev.store, issued_hinted_bank r, issued_hinted_ctxFn r, ok, write]

theorem atom_does {d2 : Dev} {old : BitVec 64} (k : s.Calm) (wf : Memory.wf s.dev.mem = true) (r : s.dev.Executes c (.mem 6 .sv) w q)
    (pair : ¬ (w.s = 5 ∧ w.d = 63)) (aligned : q.bank.addr w % 8 = 0)
    (atomic : ((s.dev.issued c q).hinted c w).atomic (s.dev.ctxFn c) (q.bank.addr w) w.s ((q.bank.rd w.d).setWidth 64)
      ((q.bank.rd (w.d + 1)).setWidth 64) = (d2, .ok old)) :
    Does (.atom c w) s (fun e => StoreFrame c s.dev e ∧ (∀ x, cellGet e.mem x = d2.peekByte x) ∧
      e.seq c = some { q with pc := q.pc + 1, steps := q.steps + 1, bank := q.bank.wr w.d (old.setWidth 72) }) := by
  have goes := issued_hinted r
  have st := atomic_stored ((s.dev.issued c q).hinted c w) (s.dev.ctxFn c) (q.bank.addr w) w.s ((q.bank.rd w.d).setWidth 64)
    ((q.bank.rd (w.d + 1)).setWidth 64)
  rw [atomic] at st
  have seq : d2.seq c = some { q with steps := q.steps + 1 } :=
    (seq_of_only c _ _ (congrArg Dev.rings st :) (congrArg Dev.fw st :) (congrArg Dev.raster st :) (congrArg Dev.audio st :)).trans goes.2
  refine does_stores (i := .atom c w) rfl k wf (.inl rfl) r ?_ goes.1 st (wrReg_only c d2 w.d (old.setWidth 72)) (seq_wrReg w.d _ seq)
  simp only [issued_hinted_bank r, issued_hinted_ctxFn r, pair, if_false, aligned, ne_eq, not_true_eq_false, atomic]

end

/-! The bytes that a store leaves. -/

theorem find_consBytes (a : Nat) (bytes : List Byte) (l : List (Nat × Byte)) (x : Nat) :
    (consBytes a bytes l).find? (fun p => p.1 = x) =
      if a ≤ x ∧ x < a + bytes.length then some (x, nth bytes (x - a) 0) else l.find? (fun p => p.1 = x) := by
  induction bytes generalizing a l with
  | nil =>
    rw [if_neg (by simp only [List.length_nil]; omega)]
    rfl
  | cons b r ih =>
    rw [consBytes, ih]
    by_cases here : a = x
    · subst here
      simp [nth]
    · by_cases beyond : a + 1 ≤ x ∧ x < a + 1 + r.length
      · obtain ⟨n, rfl⟩ : ∃ n, x = a + (n + 1) := ⟨x - a - 1, by omega⟩
        rw [if_pos beyond, if_pos (by simp only [List.length_cons]; omega), show a + (n + 1) - (a + 1) = n by omega,
          show a + (n + 1) - a = n + 1 by omega]
        rfl
      · rw [if_neg beyond, if_neg (by simp only [List.length_cons]; omega)]
        simp [here]

section
variable (d : Dev)

theorem Dev.peekByte_eq (a : Nat) : d.peekByte a = ((d.writes.find? (fun p => p.1 = a)).map (fun p => p.2)).getD (cellGet d.mem a) := by
  unfold Dev.peekByte
  cases d.writes.find? (fun p => p.1 = a) <;> rfl

/-- A byte read after bytes were stored. -/
theorem Dev.peekByte_poke (a : Nat) (bytes : List Byte) (x : Nat) :
    (d.poke a bytes).peekByte x = if a ≤ x ∧ x < a + bytes.length then nth bytes (x - a) 0 else d.peekByte x := by
  have writes : (d.poke a bytes).writes = consBytes a bytes d.writes := rfl
  rw [Dev.peekByte_eq, Dev.peekByte_eq, writes, find_consBytes]
  by_cases inside : a ≤ x ∧ x < a + bytes.length
  · simp [inside]
  · simp [inside]

theorem Dev.dirtyLog_off {f : Nat} (off : (d.fn f).dirtyEnable = false) (va : Nat) : d.dirtyLog f va = d := by
  simp [Dev.dirtyLog, off]

variable {d}

theorem Watched.peekByte {e : Dev} (h : Watched d e) (x : Nat) : e.peekByte x = d.peekByte x :=
  Dev.peekByte_congr (congrArg Dev.mem h.1 :) (congrArg Dev.writes h.1 :) x

theorem Fetched.peekByte {e : Dev} (h : Fetched d e) (x : Nat) : e.peekByte x = d.peekByte x :=
  Dev.peekByte_congr (congrArg Dev.mem h.1 :) (congrArg Dev.writes h.1 :) x

theorem Fetched.dirtyEnable {e : Dev} (h : Fetched d e) (f : Nat) : (e.fn f).dirtyEnable = (d.fn f).dirtyEnable :=
  (congrArg Fn.dirtyEnable (h.2 f) :)

/-- One piece stored with its page's scan watch, without dirty logging: its bytes, and the functions' logging still off. -/
theorem storePiece_peek (f : Nat) (off : (d.fn f).dirtyEnable = false) (va pa : Nat) (bytes : List Byte) :
    let e := ((d.poke pa bytes).dirtyLog f va).scanWatch f va
    (e.fn f).dirtyEnable = false ∧ ∀ x, e.peekByte x = if pa ≤ x ∧ x < pa + bytes.length then nth bytes (x - pa) 0 else d.peekByte x := by
  intro e
  have off' : ((d.poke pa bytes).fn f).dirtyEnable = false := off
  have watched : Watched (d.poke pa bytes) e := by
    show Watched _ (((d.poke pa bytes).dirtyLog f va).scanWatch f va)
    rw [Dev.dirtyLog_off _ off']
    exact scanWatch_watched _ f va
  exact ⟨(watched.2 f).trans off', fun x => (watched.peekByte x).trans (Dev.peekByte_poke d pa bytes x)⟩

/-- Outside its pieces a store leaves every byte. -/
theorem storePieces_outside (f : Nat) (l : List (Nat × Nat × Nat)) (bytes : List Byte) {d : Dev} (off : (d.fn f).dirtyEnable = false) (x : Nat)
    (out : ∀ p ∈ l, x < p.2.1 ∨ p.2.1 + p.2.2 ≤ x) : (d.storePieces f true l bytes).peekByte x = d.peekByte x := by
  induction l generalizing d bytes with
  | nil => rfl
  | cons p r ih =>
    obtain ⟨va, pa, n⟩ := p
    obtain ⟨off', peek⟩ := storePiece_peek f off va pa (bytes.take n)
    have apart := out _ List.mem_cons_self
    have len : (bytes.take n).length ≤ n := by simp
    simp only [Dev.storePieces, if_true]
    rw [ih _ off' fun q hq => out q (List.mem_cons_of_mem _ hq), peek, if_neg (by simp only at apart; omega)]

/-- A store that lies in one page leaves its bytes there, the first at the lowest address. -/
theorem storePieces_one (f a pa : Nat) (bytes : List Byte) (off : (d.fn f).dirtyEnable = false) (i : Nat) (h : i < bytes.length) :
    (d.storePieces f true [(a, pa, bytes.length)] bytes).peekByte (pa + i) = nth bytes i 0 := by
  obtain ⟨-, peek⟩ := storePiece_peek f off a pa bytes
  simp only [Dev.storePieces, if_true, List.take_length]
  rw [peek, if_pos (by omega), Nat.add_sub_cancel_left]

/-- What a store that is admitted leaves, when dirty logging is off. -/
theorem writeV_bytes {d2 : Dev} {f va : Nat} {bytes : List Byte} (off : (d.fn f).dirtyEnable = false) (write : d.writeV f va bytes = (d2, .ok ())) :
    ∃ t, (d.translateAll f .write (pieces va bytes.length)).2 = .ok t ∧
      (∀ x, (∀ p ∈ t, x < p.2.1 ∨ p.2.1 + p.2.2 ≤ x) → d2.peekByte x = d.peekByte x) ∧
      ∀ a pa, t = [(a, pa, bytes.length)] → ∀ i, i < bytes.length → d2.peekByte (pa + i) = nth bytes i 0 := by
  have fetched := translateAll_fetched (pieces va bytes.length) d f .write
  unfold Dev.writeV Dev.writeVia at write
  rcases h : d.translateAll f .write (pieces va bytes.length) with ⟨d1, r⟩
  rw [h] at write fetched
  cases r with
  | error e => simp at write
  | ok t =>
    have off1 : (d1.fn f).dirtyEnable = false := (fetched.dirtyEnable f).trans off
    dsimp only at write
    split at write
    · simp at write
    · obtain rfl : d1.storePieces f true t bytes = d2 := by simpa using write
      refine ⟨t, rfl, fun x out => ?_, fun a pa one i inside => ?_⟩
      · rw [storePieces_outside f t bytes off1 x out]
        exact fetched.peekByte x
      · subst one
        exact storePieces_one f a pa bytes off1 i inside

end

/-- Settles O13: loads write registers alone, stores leave their bytes, and without dirty logging those alone. -/
theorem loadsStoresAndAtomics : Obligations.LoadsStoresAndAtomics := by
  refine ⟨fun s c w q d2 bytes k r ok read => ?_, fun s c w q d2 bytes k r ok read => ?_, fun s g w q d2 v => ldp_does s g w q d2 v,
    fun s c w q d2 pa k r line => ⟨?_, ?_⟩, fun s c w q k r => ?_, fun s c w q d2 k wf r ok write => ?_, fun s c w q d2 old k wf r pair aligned atomic => ?_,
    fun d d2 f va bytes off write => writeV_bytes off write⟩
  · rw [← loadedBank_unsigned]
    exact load_does (i := .ld c w) (sign := false) k r rfl ok read
  · rw [← loadedBank_signed]
    exact load_does (i := .lds c w) (sign := true) k r rfl ok read
  · exact touchLine_does (i := .pref c w) k r rfl (fetched_ask d2 _ _ _) line
  · exact touchLine_does (i := .flush c w) (h := Dev.askFlush) k r rfl ⟨rfl, fun _ => rfl⟩ line
  · exact does_program_is (i := .mfence c w) rfl k r r.1.issued_programIs.next
  · exact st_does k wf r ok write
  · exact atom_does k wf r pair aligned atomic

end Sys2Proof.Machine
end

section
/-! Transactions, and reads of objects, time and identity (R73 to R76, R110, R120, R543). -/

namespace Sys2Proof.Machine

/-! Instructions that change a guest's thread. -/

section
variable {g : Fin 256} {d e : Dev} {q : Seq}

/-- A guest's thread as an instruction that is issued finds it: its step counted. -/
theorem OnlyProgram.thread (h : OnlyProgram (.guest g) d e) {p : Seq} (s : e.seq (.guest g) = some p) :
    (e.ring g.val).thread = { (d.ring g.val).thread with seq := p } := by
  have seq := Dev.seq_guest_some s
  obtain ⟨-, -, -, -, ring⟩ := h
  have thread := (congrArg Ring.thread ring :)
  rw [← thread, ← seq]

theorem OnlyProgram.onlyThread (h : OnlyProgram (.guest g) d e) : OnlyThread g d e := by
  obtain ⟨tlb, -, frame, others, ring⟩ := h
  exact ⟨(congrArg (fun x : Dev => x) frame :), others, (congrArg (fun r : Ring => { r with thread := (d.ring g.val).thread }) ring :), tlb⟩

/-- A further change of the thread. -/
theorem OnlyThread.updThread (h : OnlyThread g d e) (f : Thread → Thread) : OnlyThread g d (e.updThread g.val f) := by
  obtain ⟨frame, others, ring, tlb⟩ := h
  refine ⟨frame, fun j ne => ?_, ?_, tlb⟩
  · refine (Dev.ring_setRing _ _ _ _).trans ?_
    rw [if_neg (fun h => ne h.symm), others j ne]
  · have same : (e.updThread g.val f).ring g.val = { e.ring g.val with thread := f (e.ring g.val).thread } := Dev.ring_setRing_same e g.val _
    rw [same]
    exact ring

theorem thread_updThread (e : Dev) (g : Nat) (f : Thread → Thread) : ((e.updThread g f).ring g).thread = f (e.ring g).thread :=
  congrArg Ring.thread (Dev.ring_setRing_same e g _)

theorem OnlyThread.endsAlike (h : OnlyThread g d e) : EndsAlike d e ∧ e.writes = d.writes := by
  obtain ⟨frame, -⟩ := h
  exact ⟨⟨(congrArg Dev.mem frame :), (congrArg Dev.update frame :), (congrArg Dev.safety frame :)⟩, (congrArg Dev.writes frame :)⟩

/-- An instruction that executes on a guest thread, changes the thread by h, and goes on to the next index. -/
theorem does_thread {i : Instr} {s : State} {sh : Shape} {w : Insn} {control : Bool} {eff : Dev → Dev × Except Exc Flow} (h : Thread → Thread)
    (x : exec i s = run (issue (.guest g) sh w control eff) s) (k : s.Calm) (r : s.dev.Executes (.guest g) sh w q)
    (f : eff (s.dev.issued (.guest g) q) = ((s.dev.issued (.guest g) q).updThread g.val h, .ok .next))
    (commutes : ∀ t p, { h t with seq := p } = h { t with seq := p } := by intros; rfl) (seq : ∀ t, (h t).seq = t.seq := by intros; rfl) :
    Does i s (fun e => OnlyThread g s.dev e ∧ ThreadGoes g s.dev e q q.bank h) := by
  obtain ⟨d, hd⟩ : ∃ d, s.dev.issued (.guest g) q = d := ⟨_, rfl⟩
  have only := r.1.issued_only
  have thread := only.thread r.1.issued_seq
  rw [hd] at only thread f
  have goes := (only.onlyThread.updThread h).updThread (fun t => { t with seq := { t.seq with pc := t.seq.pc + 1 } })
  obtain ⟨alike, writes⟩ := goes.endsAlike
  have after : ThreadGoes g s.dev ((d.updThread g.val h).updThread g.val (fun t => { t with seq := { t.seq with pc := t.seq.pc + 1 } })) q q.bank h := by
    rw [ThreadGoes, thread_updThread, thread_updThread, thread, seq, commutes]
  exact does_becomes x k r hd (by rw [f]; rfl) alike (writes.trans k.1.1) fun b => ⟨goes, after⟩

/-- What an instruction on an item finds: the thread before, with its step counted. -/
theorem Dev.Ready.issued_thread {sh : Shape} {w : Insn} (r : d.Ready (.guest g) sh w q) :
    ((d.issued (.guest g) q).ring g.val).thread = { (d.ring g.val).thread with seq := { q with steps := q.steps + 1 } } :=
  r.issued_only.thread r.issued_seq

end

/-! Transactions. -/

section
variable {s : State} {g : Fin 256} {w : Insn} {q : Seq} (k : s.Calm)
include k

/-- The row of TXB. -/
def Shape.txb : Shape := { formats := [1], dst := .none, a := .none, b := .none, c := false, subs := 4, prof := .s }

/-- A transaction opened (R73). -/
def Thread.opened (w : Insn) (t : Thread) : Thread :=
  { t with
    txOpened := t.txOpened + 1
    tx := some { point := BitVec.ofNat 2 w.s, pipe := if w.s = 1 then fld w.low 0 4 else 0, shadow := [], overflow := false, full := none } }

theorem txb_does (r : s.dev.Executes (.guest g) .txb w q) (pipe : w.s = 1 → fld w.low 0 4 < 12) (none : (s.dev.ring g.val).thread.tx = none)
    (few : (s.dev.ring g.val).thread.txOpened < 16) :
    Does (.txb (.guest g) w) s (fun e => OnlyThread g s.dev e ∧ ThreadGoes g s.dev e q q.bank (Thread.opened w)) := by
  refine does_thread (i := .txb (.guest g) w) (Thread.opened w) rfl k r ?_
  have inside : ¬ (w.s = 1 ∧ 12 ≤ fld w.low 0 4) := fun h => absurd (pipe h.1) (by omega)
  simp only [onItem, r.1.issued_thread, none, Option.isSome_none, Bool.false_eq_true, false_or, if_neg inside, if_neg (Nat.not_le.2 few)]
  rfl

theorem txb_raises {a : Nat} (r : s.dev.Executes (.guest g) .txb w q) (acc : (s.dev.ring g.val).thread.acc = some a)
    (pipe : w.s = 1 → fld w.low 0 4 < 12) (full : (s.dev.ring g.val).thread.tx.isSome = true ∨ 16 ≤ (s.dev.ring g.val).thread.txOpened) :
    Does (.txb (.guest g) w) s (ProgramEnded g a 0x10 (some (excResult 0x0B (q.byteAddr q.pc))) s.dev) := by
  refine does_raises (i := .txb (.guest g) w) (y := exState) rfl k r acc ?_
  have inside : ¬ (w.s = 1 ∧ 12 ≤ fld w.low 0 4) := fun h => absurd (pipe h.1) (by omega)
  simp only [onItem, r.1.issued_thread, if_neg inside, if_pos full]

/-- The row of STO. -/
def Shape.sto : Shape := { formats := [5], dst := .none, a := .reg, b := .reg, c := false, subs := 1, prof := .s }

/-- A write put into a transaction's shadow, in the place of an earlier one to the same word; past 910 writes the shadow has overflowed (R110). -/
def Tx.stored (tx : Tx) (key : Nat) (v : W72) : Tx :=
  if tx.shadow.any (fun x => x.1 = key) then { tx with shadow := tx.shadow.map (fun x => if x.1 = key then (key, v) else x) }
  else if 910 ≤ tx.shadow.length then { tx with overflow := true }
  else { tx with shadow := tx.shadow ++ [(key, v)] }

theorem sto_does {tx : Tx} (r : s.dev.Executes (.guest g) .sto w q) (opened : (s.dev.ring g.val).thread.tx = some tx) :
    Does (.sto (.guest g) w) s (fun e => OnlyThread g s.dev e ∧
      ThreadGoes g s.dev e q q.bank (fun t => { t with tx := some (tx.stored (objectOf q.bank w) (q.bank.rd w.a)) })) := by
  refine does_thread (i := .sto (.guest g) w) (fun t => { t with tx := some (tx.stored (objectOf q.bank w) (q.bank.rd w.a)) }) rfl k r ?_
  simp only [onItem, r.1.issued_thread, opened]
  rfl

theorem sto_raises {a : Nat} (r : s.dev.Executes (.guest g) .sto w q) (acc : (s.dev.ring g.val).thread.acc = some a)
    (closed : (s.dev.ring g.val).thread.tx = none) :
    Does (.sto (.guest g) w) s (ProgramEnded g a 0x10 (some (excResult 0x0B (q.byteAddr q.pc))) s.dev) := by
  refine does_raises (i := .sto (.guest g) w) (y := exState) rfl k r acc ?_
  simp only [onItem, r.1.issued_thread, closed]

/-- A program of a guest that its instruction ends. -/
theorem does_endProgram {i : Instr} {sh : Shape} {control : Bool} {eff : Dev → Dev × Except Exc Flow} {a : Nat} {status : BitVec 8}
    {result : Option (BitVec 64)} (x : exec i s = run (issue (.guest g) sh w control eff) s) (r : s.dev.Executes (.guest g) sh w q)
    (acc : (s.dev.ring g.val).thread.acc = some a)
    (h : eff (s.dev.issued (.guest g) q) = ((s.dev.issued (.guest g) q).endProgram g.val status result, .ok .done)) :
    Does i s (ProgramEnded g a status result s.dev) := by
  refine does_ends x k ?_
  rw [issue_executes r, h]
  exact r.1.issued_only.endProgram acc status result

theorem txa_does {a : Nat} (r : s.dev.Executes (.guest g) (.bare .s) w q) (acc : (s.dev.ring g.val).thread.acc = some a)
    (opened : (s.dev.ring g.val).thread.tx.isSome = true) : Does (.txa (.guest g) w) s (ProgramEnded g a 0x03 (some 0) s.dev) := by
  refine does_endProgram (i := .txa (.guest g) w) k rfl r acc ?_
  simp only [onItem, r.1.issued_thread, opened, if_true]

/-! Reads of objects, time and identity. -/

/-- The row of LDO. -/
def Shape.ldo : Shape := { formats := [5], dst := .reg, a := .none, b := .reg, c := false, subs := 1, prof := .s }

omit k in
/-- What instructions read of objects, of the time and of the manager is none of a program's. -/
theorem OnlyProgram.reads {c : Ctx} {d e : Dev} (h : OnlyProgram c d e) :
    e.now = d.now ∧ e.manager = d.manager ∧ e.objs = d.objs ∧ e.publication = d.publication := by
  obtain ⟨-, -, frame⟩ := h
  cases c <;> exact ⟨(congrArg Dev.now frame.1 :), (congrArg Dev.manager frame.1 :), (congrArg Dev.objs frame.1 :), (congrArg Dev.publication frame.1 :)⟩

omit k in
theorem OnlyProgram.obj {c : Ctx} {d e : Dev} (h : OnlyProgram c d e) (cls inst word : Nat) : e.obj cls inst word = d.obj cls inst word := by
  obtain ⟨-, manager, objs, -⟩ := h.reads
  rw [Dev.obj, manager, objs, Dev.obj]

omit k in
theorem OnlyProgram.owner {c : Ctx} {d e : Dev} (h : OnlyProgram c d e) (cls inst : Nat) : e.owner cls inst = d.owner cls inst := by
  rw [Dev.owner, h.obj, Dev.owner]

theorem ldo_does (r : s.dev.Executes (.guest g) .ldo w q) (known : keyExists (objectOf q.bank w) = true)
    (own : g.val / 4 = s.dev.manager ∨ s.dev.owner (keyCls (objectOf q.bank w)) (keyInst (objectOf q.bank w)) = g.val / 4) :
    Does (.ldo (.guest g) w) s (fun e => Goes (.guest g) s.dev e
      { q with pc := q.pc + 1, steps := q.steps + 1
               bank := q.bank.wr w.d (s.dev.obj (keyCls (objectOf q.bank w)) (keyInst (objectOf q.bank w)) (keyWord (objectOf q.bank w))) }) := by
  have only := r.1.issued_only
  obtain ⟨-, manager, -, -⟩ := only.reads
  refine does_goes (i := .ldo (.guest g) w) rfl k r ?_ (r.1.issued_goes.wr _ _)
  have foreign : ¬ (g.val / 4 ≠ s.dev.manager ∧ s.dev.owner (keyCls (objectOf q.bank w)) (keyInst (objectOf q.bank w)) ≠ g.val / 4) :=
    fun h => own.elim h.1 h.2
  simp only [Dev.bank_of_seq r.1.issued_seq, Dev.ctxFn, ringFn, known, manager, only.owner, only.obj, if_neg foreign]
  rfl

theorem ldo_unknown {a : Nat} (r : s.dev.Executes (.guest g) .ldo w q) (acc : (s.dev.ring g.val).thread.acc = some a)
    (unknown : keyExists (objectOf q.bank w) = false) :
    Does (.ldo (.guest g) w) s (ProgramEnded g a 0x10 (some (excResult 0x01 (q.byteAddr q.pc))) s.dev) := by
  refine does_raises (i := .ldo (.guest g) w) (y := exIllegal) rfl k r acc ?_
  simp only [Dev.bank_of_seq r.1.issued_seq, unknown]
  rfl

theorem ldo_foreign {a : Nat} (r : s.dev.Executes (.guest g) .ldo w q) (acc : (s.dev.ring g.val).thread.acc = some a)
    (known : keyExists (objectOf q.bank w) = true) (guest : g.val / 4 ≠ s.dev.manager)
    (foreign : s.dev.owner (keyCls (objectOf q.bank w)) (keyInst (objectOf q.bank w)) ≠ g.val / 4) :
    Does (.ldo (.guest g) w) s (ProgramEnded g a 0x11 (some (BitVec.ofNat 64 (q.byteAddr q.pc))) s.dev) := by
  have only := r.1.issued_only
  obtain ⟨-, manager, -, -⟩ := only.reads
  refine does_endProgram (i := .ldo (.guest g) w) k rfl r acc ?_
  simp only [Dev.bank_of_seq r.1.issued_seq, Dev.ctxFn, ringFn, known, manager, only.owner, guest, foreign, ne_eq, not_false_eq_true, and_self, if_true,
    Bool.not_true, Bool.false_eq_true, if_false, Dev.endOn, Dev.endAt, r.1.issued_thread]
  rfl

theorem rdtime_does {c : Ctx} (r : s.dev.Executes c (.read 1) w q) :
    Does (.rdtime c w) s (fun e => Goes c s.dev e
      { q with pc := q.pc + 1, steps := q.steps + 1, bank := q.bank.wr w.d (BitVec.ofNat 72 (s.dev.now % 2 ^ 64)) }) := by
  refine does_goes (i := .rdtime c w) rfl k r ?_ (r.1.issued_goes.wr w.d (BitVec.ofNat 72 (s.dev.now % 2 ^ 64)))
  obtain ⟨now, -⟩ := r.1.issued_only.reads
  rw [now]

/-- What RDID reads on a guest thread (R543). -/
def identity (d : Dev) (g a : Nat) (en : Entry) (sub : Nat) : Nat :=
  if sub = 0 then a else if sub = 1 then g else if sub = 2 then g / 4 + (d.fn (g / 4)).gen.toNat * 256
  else if sub = 3 then fld en.item 0 48 else (d.ring g).thread.nextIdx

theorem rdid_does {a : Nat} {en : Entry} (r : s.dev.Executes (.guest g) (.read 5) w q) (acc : (s.dev.ring g.val).thread.acc = some a)
    (entry : s.dev.entry g.val a = some en) :
    Does (.rdid (.guest g) w) s (fun e => Goes (.guest g) s.dev e
      { q with pc := q.pc + 1, steps := q.steps + 1, bank := q.bank.wr w.d (BitVec.ofNat 72 (identity s.dev g.val a en w.s)) }) := by
  refine does_goes (i := .rdid (.guest g) w) rfl k r ?_ (r.1.issued_goes.wr w.d (BitVec.ofNat 72 (identity s.dev g.val a en w.s)))
  have only := r.1.issued_only
  have entry' : (s.dev.issued (.guest g) q).entry g.val a = some en := by
    rw [Dev.entry, Ring.entry, only.entries, ← Ring.entry, ← Dev.entry, entry]
  have gen : ((s.dev.issued (.guest g) q).fn (g.val / 4)).gen = (s.dev.fn (g.val / 4)).gen := (congrArg Fn.gen (only.1 _) :)
  simp only [onItem, r.1.issued_thread, acc, Option.getD_some, ringFn, entry', gen, identity]
  rcases w.s with _ | _ | _ | _ | n <;> rfl

/-- The row of SNAP. -/
def Shape.snap : Shape := { formats := [0], dst := .reg, a := .reg, b := .reg, c := false, subs := 1, prof := .s }

/-- The words that SNAP stores (R120). -/
def snapWords (d : Dev) (keys : List Nat) : List W72 :=
  keys.flatMap (fun k => (List.range (match classInfo (keyCls k) with | some (_, m) => m | none => 0)).map (fun i => d.obj (keyCls k) (keyInst k) i))

omit k in
theorem OnlyProgram.snapWords {c : Ctx} {d e : Dev} (h : OnlyProgram c d e) (keys : List Nat) : snapWords e keys = snapWords d keys := by
  simp only [Machine.snapWords, h.obj]

/-- A SNAP of objects that its function owns, or of any objects as the manager. -/
theorem snap_does {h : W72} {names : List W72} {d1 d2 d3 : Dev} (wf : Memory.wf s.dev.mem = true) (r : s.dev.Executes (.guest g) .snap w q)
    (head : (s.dev.issued (.guest g) q).readWords (g.val / 4) ((q.bank.rd w.a).toNat % 2 ^ 48) 1 .read = (d1, .ok [h])) (least : 1 ≤ h.toNat)
    (most : h.toNat ≤ 64) (list : d1.readWords (g.val / 4) (((q.bank.rd w.a).toNat % 2 ^ 48 + 9) % 2 ^ 48) h.toNat .read = (d2, .ok names))
    (all : h.toNat ≤ (names.filterMap snapObject).length)
    (own : g.val / 4 = s.dev.manager ∨ (names.filterMap snapObject).all (fun k => s.dev.owner (keyCls k) (keyInst k) = g.val / 4) = true)
    (write : d2.writeWords (g.val / 4) ((q.bank.rd w.b).toNat % 2 ^ 48) (snapWords s.dev (names.filterMap snapObject)) = (d3, .ok ())) :
    Does (.snap (.guest g) w) s (fun e => StoreFrame (.guest g) s.dev e ∧ (∀ x, cellGet e.mem x = d3.peekByte x) ∧ e.seq (.guest g) = some
      { q with pc := q.pc + 1, steps := q.steps + 1, bank := q.bank.wr w.d (BitVec.ofNat 72 (s.dev.publication % 2 ^ 64)) }) := by
  have fetched1 := readWords_fetched (s.dev.issued (.guest g) q) (g.val / 4) ((q.bank.rd w.a).toNat % 2 ^ 48) 1 .read
  rw [head] at fetched1
  have fetched2 := readWords_fetched d1 (g.val / 4) (((q.bank.rd w.a).toNat % 2 ^ 48 + 9) % 2 ^ 48) h.toNat .read
  rw [list] at fetched2
  obtain ⟨only, seq⟩ : Goes (.guest g) s.dev d2 { q with steps := q.steps + 1 } := r.1.issued_goes.fetched (fetched1.trans fetched2)
  obtain ⟨-, manager, -, publication⟩ := only.reads
  have st := writeVia_stored d2 (g.val / 4) ((q.bank.rd w.b).toNat % 2 ^ 48) (bytesOfWords (snapWords s.dev (names.filterMap snapObject))) true
  rw [show Dev.writeVia _ _ _ _ true = _ from write] at st
  have seq3 : d3.seq (.guest g) = some { q with steps := q.steps + 1 } :=
    (seq_of_only _ _ _ (congrArg Dev.rings st :) (congrArg Dev.fw st :) (congrArg Dev.raster st :) (congrArg Dev.audio st :)).trans seq
  have publication3 : d3.publication = s.dev.publication := (congrArg Dev.publication st :).trans publication
  refine does_stores (i := .snap (.guest g) w) rfl k wf (.inr rfl) r ?_ only st
    (wrReg_only (.guest g) d3 w.d (BitVec.ofNat 72 (s.dev.publication % 2 ^ 64))) (seq_wrReg w.d _ seq3)
  have range : ¬ (h.toNat < 1 ∨ 64 < h.toNat) := by omega
  have owned : ¬ (g.val / 4 ≠ s.dev.manager ∧ (!(names.filterMap snapObject).all (fun k => s.dev.owner (keyCls k) (keyInst k) = g.val / 4)) = true) := by
    rcases own with e | e
    · exact fun n => n.1 e
    · simp [e]
  simp only [Dev.bank_of_seq r.1.issued_seq, Dev.ctxFn, ringFn, head, show nth [h] 0 0 = h from rfl, if_neg range, list, if_neg (Nat.not_lt.2 all), manager,
    only.owner, if_neg owned]
  split
  · rename_i failed
    rw [← only.snapWords] at write
    cases failed.symm.trans write
  · rename_i stored
    rw [← only.snapWords] at write
    cases stored.symm.trans write
    rw [publication3]

end

/-- Settles O17: what each instruction does to the transaction, or reads. -/
theorem transactionsAndReads : Obligations.TransactionsAndReads :=
  ⟨fun _ _ _ _ k r pipe none few => txb_does k r pipe none few, fun _ _ _ _ _ k r acc pipe full => txb_raises k r acc pipe full,
    fun _ _ _ _ _ k r opened => sto_does k r opened, fun _ _ _ _ _ k r acc closed => sto_raises k r acc closed,
    fun _ _ _ _ _ k r acc opened => txa_does k r acc opened, fun _ _ _ _ k r known own => ldo_does k r known own,
    fun _ _ _ _ _ k r acc => ⟨fun unknown => ldo_unknown k r acc unknown, fun known guest foreign => ldo_foreign k r acc known guest foreign⟩,
    fun _ _ _ _ k r => rdtime_does k r, fun _ _ _ _ _ _ k r acc entry => rdid_does k r acc entry,
    fun _ _ _ _ _ _ _ _ _ k wf r head least most list all own write => snap_does k wf r head least most list all own write⟩

end Sys2Proof.Machine
end

section
/-! The opcodes of firmware privilege (R42, R51, R57, R63, R78, R496). -/

namespace Sys2Proof.Machine

/-! A firmware thread's instruction. -/

section
variable {s : State} {core : Fin 10} {t : Fin 4} {sh : Shape} {w : Insn} {q : Seq}

/-- A firmware thread whose instruction has been issued: it runs, with one step counted. -/
def FwThread.issued (x : FwThread) (q : Seq) : FwThread := { x with halted := false, seq := { q with steps := q.steps + 1 } }

theorem Dev.Executes.issued_firmware (r : s.dev.Executes (.firmware core t) sh w q) :
    s.dev.issued (.firmware core t) q = (s.dev.unstep (.firmware core t)).setFwt core.val t.val ((s.dev.fwt core.val t.val).issued q) :=
  Dev.issued_firmware r.1.seq

theorem Dev.Executes.issued_fwt (r : s.dev.Executes (.firmware core t) sh w q) :
    (s.dev.issued (.firmware core t) q).fwt core.val t.val = (s.dev.fwt core.val t.val).issued q := by
  rw [r.issued_firmware, Dev.fwt_setFwt_same]

/-- The thread's next index. -/
def FwThread.next (x : FwThread) : FwThread := { x with halted := false, seq := { x.seq with pc := x.seq.pc + 1 } }

theorem Dev.next_setFwt (d : Dev) (x : FwThread) :
    (d.setFwt core.val t.val x).proceed (.firmware core t) .next = d.setFwt core.val t.val x.next := by
  simp [Dev.proceed, Dev.updSeq, FwThread.next]

/-- A register of the thread written. -/
def FwThread.wr (x : FwThread) (n : Nat) (v : W72) : FwThread := { x with halted := false, seq := { x.seq with bank := x.seq.bank.wr n v } }

theorem Dev.wrReg_setFwt (d : Dev) (x : FwThread) (n : Nat) (v : W72) :
    (d.setFwt core.val t.val x).wrReg (.firmware core t) n v = d.setFwt core.val t.val (x.wr n v) := by
  simp [Dev.wrReg, Dev.updSeq, FwThread.wr]

/-- An instruction of a firmware thread that changes its thread to x and goes on to the next index. -/
theorem does_fw {i : Instr} {control : Bool} {eff : Dev → Dev × Except Exc Flow} {x y : FwThread}
    (e : exec i s = run (issue (.firmware core t) sh w control eff) s) (k : s.Calm) (r : s.dev.Executes (.firmware core t) sh w q)
    (h : eff ((s.dev.unstep (.firmware core t)).setFwt core.val t.val ((s.dev.fwt core.val t.val).issued q)) =
      ((s.dev.unstep (.firmware core t)).setFwt core.val t.val x, .ok .next)) (n : x.next = y) : Does i s (FirmwareIs core t y s.dev) := by
  refine does_firmware e k ?_
  rw [issue_executes r, r.issued_firmware, h, Dev.concluded_ok, Dev.next_setFwt, n]

/-- The same of an instruction that ends as its effect leaves the thread. -/
theorem does_fw_done {i : Instr} {control : Bool} {eff : Dev → Dev × Except Exc Flow} {x : FwThread}
    (e : exec i s = run (issue (.firmware core t) sh w control eff) s) (k : s.Calm) (r : s.dev.Executes (.firmware core t) sh w q)
    (h : Dev.concluded (.firmware core t) (eff ((s.dev.unstep (.firmware core t)).setFwt core.val t.val ((s.dev.fwt core.val t.val).issued q))) =
      (s.dev.unstep (.firmware core t)).setFwt core.val t.val x) : Does i s (FirmwareIs core t x s.dev) := by
  refine does_firmware e k ?_
  rw [issue_executes r, r.issued_firmware, h]

end

/-! CSRs, ERET, HALT and WDOG. -/

section
variable {s : State} {core : Fin 10} {t : Fin 4} {w : Insn} {q : Seq}

/-- What a CSR reads, by its number. -/
theorem csrRead_eq (core thread : Nat) (x : FwThread) (n : Nat) :
    csrRead core thread x n =
      if n = 0 then x.epc else if n = 1 then x.ecode else if n = 2 then x.eaddr else if n = 3 then x.evec
      else if n = 4 then BitVec.ofNat 72 (core * 256 + thread) else if n = 5 then x.seq.base.setWidth 72 else 0 := by
  rcases n with _ | _ | _ | _ | _ | _ | n <;> rfl

theorem csrWrite_eq (x : FwThread) (n : Nat) (v : W72) :
    csrWrite x n v =
      { x with
        epc := if n = 0 then v else x.epc, ecode := if n = 1 then v else x.ecode, evec := if n = 3 then v else x.evec
        seq := { x.seq with
          base := if n = 5 then v.setWidth 48 else x.seq.base
          length := if n = 5 then firmwareLength (v.setWidth 48) else x.seq.length } } := by
  rcases n with _ | _ | _ | _ | _ | _ | n <;> rfl

variable (k : s.Calm)
include k

theorem csrr_does (r : s.dev.Executes (.firmware core t) .csrr w q) :
    Does (.csrr (.firmware core t) w) s (FirmwareIs core t { s.dev.fwt core.val t.val with
      halted := false
      seq := { q with pc := q.pc + 1, steps := q.steps + 1, bank := q.bank.wr w.d (csrRead core.val t.val ((s.dev.fwt core.val t.val).issued q) (fld w.low 0 12)) } }
      s.dev) := by
  refine does_fw (i := .csrr (.firmware core t) w)
    (x := ((s.dev.fwt core.val t.val).issued q).wr w.d (csrRead core.val t.val ((s.dev.fwt core.val t.val).issued q) (fld w.low 0 12))) rfl k r ?_ rfl
  simp only [onFirmware, Dev.fwt_setFwt_same, Dev.wrReg_setFwt]

theorem csrw_does (r : s.dev.Executes (.firmware core t) .csrw w q) :
    Does (.csrw (.firmware core t) w) s (FirmwareIs core t
      (csrWrite ((s.dev.fwt core.val t.val).issued q) (fld w.low 0 12) (q.bank.rd w.a)).next s.dev) := by
  refine does_fw (i := .csrw (.firmware core t) w) rfl k r ?_ rfl
  simp only [onFirmware, Dev.fwt_setFwt_same, Dev.setFwt_setFwt]
  rfl

theorem eret_does (r : s.dev.Executes (.firmware core t) (.bare .firmware) w q) (inside : q.holds (fld (s.dev.fwt core.val t.val).epc 0 24 : Nat) = true) :
    Does (.eret (.firmware core t) w) s (FirmwareIs core t { s.dev.fwt core.val t.val with
      halted := false, ecode := 0, seq := { q with pc := fld (s.dev.fwt core.val t.val).epc 0 24, steps := q.steps + 1 } } s.dev) := by
  refine does_fw_done (i := .eret (.firmware core t) w) rfl k r ?_
  have holds : ((s.dev.fwt core.val t.val).issued q).seq.holds (fld ((s.dev.fwt core.val t.val).issued q).epc 0 24 : Nat) = true := inside
  simp only [onFirmware, Dev.fwt_setFwt_same, Dev.setFwt_setFwt, if_pos holds, Dev.concluded_ok]
  refine (Dev.proceed_goto (q := { q with steps := q.steps + 1 }) (by simp [Dev.seq, FwThread.issued]) inside).trans ?_
  simp only [Dev.updSeq, Dev.fwt_setFwt_same, Dev.setFwt_setFwt]
  rfl

theorem halt_does (r : s.dev.Executes (.firmware core t) (.bare .firmware) w q) :
    Does (.halt (.firmware core t) w) s (FirmwareIs core t { s.dev.fwt core.val t.val with
      halted := true, seq := { q with pc := q.pc + 1, steps := q.steps + 1 } } s.dev) := by
  refine does_fw_done (i := .halt (.firmware core t) w) rfl k r ?_
  simp only [onFirmware, Dev.updSeq, Dev.fwt_setFwt_same, Dev.setFwt_setFwt, Dev.concluded_ok, Dev.proceed_done]
  rfl

theorem wdog_does (r : s.dev.Executes (.firmware core t) (.bare .firmware) w q) :
    Does (.wdog (.firmware core t) w) s (FirmwareIs core t { s.dev.fwt core.val t.val with
      halted := false, lastWdog := s.dev.now, seq := { q with pc := q.pc + 1, steps := q.steps + 1 } } s.dev) := by
  refine does_fw (i := .wdog (.firmware core t) w) (x := { (s.dev.fwt core.val t.val).issued q with lastWdog := s.dev.now }) rfl k r ?_ rfl
  have now : (s.dev.unstep (.firmware core t)).now = s.dev.now := by rw [unstep_eq]
  simp only [onFirmware, Dev.fwt_setFwt_same, Dev.setFwt_setFwt, ← now]
  rfl

end

/-! A guest thread takes EX_PRIV. -/

section
variable {s : State} {g : Fin 256} {w : Insn} {q : Seq} {a : Nat}

/-- An opcode of firmware privilege on a guest thread ends its program with EX_PRIV (R51). -/
theorem privileged_raises {i : Instr} {sh : Shape} {control : Bool} {eff : Dev → Dev × Except Exc Flow}
    (x : exec i s = run (issue (.guest g) sh w control eff) s) (p : sh.prof = .firmware) (k : s.Calm) (up : s.dev.canIssue (.guest g) = true)
    (e : s.dev.seq (.guest g) = some q) (acc : (s.dev.ring g.val).thread.acc = some a) (steps : q.steps < q.limit) (inside : q.holds q.pc = true)
    (f : ((s.dev.unstep (.guest g)).fetch (.guest g) q).2 = none) :
    Does i s (ProgramEnded g a 0x10 (some (excResult 0x02 (q.byteAddr q.pc))) s.dev) := by
  have bad : w.decodeExc sh (.guest g) = some 0x02 := by simp [Insn.decodeExc, p]
  refine does_ends x k ?_
  rw [issue_of_precheck up e (precheck_decode (fun _ => steps) inside f bad)]
  exact (fetched_only f).raise acc ((fetched_seq _ _ _ q f).trans e) (exc 0x02)

end

/-! IOINV, THRD and LEDG. -/

theorem unstep_frame (d : Dev) (c : Ctx) : { d.unstep c with probe := d.probe } = d := by rw [unstep_eq]

section
variable {s : State} {core : Fin 10} {t : Fin 4} {w : Insn} {q : Seq} (k : s.Calm)
include k

/-- The cached entries of a function that a range takes in removed (R145). -/
def Dev.invalidated (d : Dev) (f range : Nat) : Dev :=
  d.setFn f { d.fn f with tlb := (d.fn f).tlb.filter (fun e => !Config.invRange range e.2.va e.2.size) }

theorem ioinv_does {f : Nat} (r : s.dev.Executes (.firmware core t) (.pair 1) w q) (hf : f = (q.bank.rd w.a).toNat) (inside : f < 64) :
    Does (.ioinv (.firmware core t) w) s (fun e =>
      (e.fn f).tlb = (s.dev.fn f).tlb.filter (fun x => !Config.invRange (q.bank.rd w.b).toNat x.2.va x.2.size) ∧
      (∀ g, g ≠ f → e.fn g = s.dev.fn g) ∧ { e with fns := s.dev.fns, fw := s.dev.fw, probe := s.dev.probe, bus := s.dev.bus } = s.dev) := by
  obtain ⟨u, hu⟩ : ∃ u, s.dev.unstep (.firmware core t) = u := ⟨_, rfl⟩
  have frame := unstep_frame s.dev (.firmware core t)
  have issued := r.issued_firmware
  rw [hu] at frame issued
  have fns : u.fns = s.dev.fns := (congrArg Dev.fns frame :)
  have manager : u.manager = s.dev.manager := (congrArg Dev.manager frame :)
  have fn : ∀ g, u.fn g = s.dev.fn g := fun g => by simp only [Dev.fn, fns, manager]
  refine does_becomes (i := .ioinv (.firmware core t) w)
    (e := (u.invalidated f (q.bank.rd w.b).toNat).setFwt core.val t.val ((s.dev.fwt core.val t.val).issued q).next) rfl k r issued ?_
    ⟨(congrArg Dev.mem frame :), (congrArg Dev.update frame :), (congrArg Dev.safety frame :)⟩ ((congrArg Dev.writes frame :).trans k.1.1)
    fun b => ⟨?_, fun g ne => ?_, (congrArg (fun d : Dev => { d with fns := s.dev.fns, fw := s.dev.fw, bus := s.dev.bus }) frame :)⟩
  · have bank : ((s.dev.fwt core.val t.val).issued q).seq.bank = q.bank := rfl
    simp only [onFirmware, Dev.fwt_setFwt_same, bank, ← hf, if_neg (Nat.not_le.2 inside), Dev.concluded_ok]
    exact Dev.next_setFwt (u.invalidated f (q.bank.rd w.b).toNat) _
  · refine (congrArg Fn.tlb (Dev.fn_setFn_same u f _)).trans ?_
    rw [fn]
  · refine (Dev.fn_setFn u f g _).trans ?_
    rw [if_neg (fun h => ne h.symm), fn]

theorem thrd_does {j n : Nat} (r : s.dev.Executes (.firmware core t) (.pair 3) w q) (hj : j = fld (q.bank.rd w.a) 8 64)
    (hn : n = fld (q.bank.rd w.a) 0 8) (cores : j < 10) (threads : n < 4) (apart : 4 * j + n ≠ 4 * core.val + t.val) :
    Does (.thrd (.firmware core t) w) s (fun e =>
      e.fwt j n = (if w.s = 0 then { s.dev.fwt j n with started := true, halted := false, lastWdog := s.dev.now }
        else if w.s = 1 then { s.dev.fwt j n with started := false } else FwThread.atReset j n) ∧
      e.seq (.firmware core t) = some { q with pc := q.pc + 1, steps := q.steps + 1 } ∧
      { e with fw := s.dev.fw, probe := s.dev.probe, bus := s.dev.bus } = s.dev) := by
  obtain ⟨u, hu⟩ : ∃ u, s.dev.unstep (.firmware core t) = u := ⟨_, rfl⟩
  have frame := unstep_frame s.dev (.firmware core t)
  have issued := r.issued_firmware
  rw [hu] at frame issued
  have now : u.now = s.dev.now := (congrArg Dev.now frame :)
  have fw : u.fw = s.dev.fw := (congrArg Dev.fw frame :)
  have other : (u.setFwt core.val t.val ((s.dev.fwt core.val t.val).issued q).next).fwt j n = s.dev.fwt j n := by
    rw [Dev.fwt_setFwt, if_neg (fun h => apart h.symm), Dev.fwt, fw, Dev.fwt]
  refine does_becomes (i := .thrd (.firmware core t) w)
    (e := (u.setFwt core.val t.val ((s.dev.fwt core.val t.val).issued q).next).setFwt j n
      (if w.s = 0 then { s.dev.fwt j n with started := true, halted := false, lastWdog := s.dev.now }
        else if w.s = 1 then { s.dev.fwt j n with started := false } else FwThread.atReset j n)) rfl k r issued ?_
    ⟨(congrArg Dev.mem frame :), (congrArg Dev.update frame :), (congrArg Dev.safety frame :)⟩ ((congrArg Dev.writes frame :).trans k.1.1)
    fun b => ⟨Dev.fwt_setFwt_same _ _ _ _, ?_, (congrArg (fun d : Dev => { d with fw := s.dev.fw, bus := s.dev.bus }) frame :)⟩
  · have bank : ((s.dev.fwt core.val t.val).issued q).seq.bank = q.bank := rfl
    have next : (u.setFwt core.val t.val ((s.dev.fwt core.val t.val).issued q)).updSeq (.firmware core t) (fun q => { q with pc := q.pc + 1 }) =
        u.setFwt core.val t.val ((s.dev.fwt core.val t.val).issued q).next := Dev.next_setFwt u _
    have range : ¬ (10 ≤ j ∨ 4 ≤ n) := by omega
    simp only [onFirmware, Dev.fwt_setFwt_same, bank, ← hj, ← hn, next, Dev.thrd, if_neg range, other, Dev.concluded_ok, Dev.proceed_done]
    by_cases s0 : w.s = 0
    · simp only [if_pos s0, ← now]
      rfl
    · by_cases s1 : w.s = 1
      · simp only [if_neg s0, if_pos s1]
      · simp only [if_neg s0, if_neg s1]
  · have same : ((u.setFwt core.val t.val ((s.dev.fwt core.val t.val).issued q).next).setFwt j n
        (if w.s = 0 then { s.dev.fwt j n with started := true, halted := false, lastWdog := s.dev.now }
          else if w.s = 1 then { s.dev.fwt j n with started := false } else FwThread.atReset j n)).fwt core.val t.val =
        ((s.dev.fwt core.val t.val).issued q).next := by
      rw [Dev.fwt_setFwt, if_neg apart, Dev.fwt_setFwt_same]
    exact congrArg (fun x : FwThread => some x.seq) same

/-- The row of LEDG. -/
def Shape.ledg : Shape := { formats := [0], dst := .reg, a := .reg, b := .none, c := false, subs := 1, prof := .firmware }

/-- The ledger as LEDG leaves it, from free values (R57). -/
def Dev.ledger (d : Dev) : Dev :=
  if Config.freeBits (d.free + 6) % 2 = 0 then { d with free := d.free + 8 }
  else ({ d with free := d.free + 8 } : Dev).updEntry (Config.freeBits (d.free + 4) % 256) (Config.freeBits (d.free + 5)) (Entry.rewritten d.free)

omit k in
theorem ledger_frame (d : Dev) :
    { d.ledger with free := d.free, rings := d.rings } = d ∧
      (d.ledger.rings = d.rings ∨ ∃ g a n, d.ledger.rings = (d.updEntry g a (Entry.rewritten n)).rings) := by
  unfold Dev.ledger
  split
  · exact ⟨rfl, .inl rfl⟩
  · exact ⟨rfl, .inr ⟨_, _, _, rfl⟩⟩

theorem ledg_does (r : s.dev.Executes (.firmware core t) .ledg w q) :
    Does (.ledg (.firmware core t) w) s (fun e =>
      { e with fw := s.dev.fw, probe := s.dev.probe, free := s.dev.free, rings := s.dev.rings, bus := s.dev.bus } = s.dev ∧
      (e.rings = s.dev.rings ∨ ∃ g a n, e.rings = (s.dev.updEntry g a (Entry.rewritten n)).rings) ∧
      ∃ v, e.seq (.firmware core t) = some { q with pc := q.pc + 1, steps := q.steps + 1, bank := q.bank.wr w.d v }) := by
  obtain ⟨u, hu⟩ : ∃ u, s.dev.unstep (.firmware core t) = u := ⟨_, rfl⟩
  have frame := unstep_frame s.dev (.firmware core t)
  have issued := r.issued_firmware
  rw [hu] at frame issued
  obtain ⟨d, hd⟩ : ∃ d, u.setFwt core.val t.val ((s.dev.fwt core.val t.val).issued q) = d := ⟨_, rfl⟩
  have frame' : { d with fw := s.dev.fw, probe := s.dev.probe } = s.dev := by
    rw [← hd]
    exact (congrArg (fun d : Dev => { d with fw := s.dev.fw }) frame :)
  have seq : d.seq (.firmware core t) = some { q with steps := q.steps + 1 } := by
    rw [← hd]
    simp [Dev.seq, FwThread.issued]
  rw [hd] at issued
  obtain ⟨ledger, rings⟩ := ledger_frame d
  obtain ⟨l, hl⟩ : ∃ l, d.ledger = l := ⟨_, rfl⟩
  rw [hl] at ledger rings
  have all : { l with fw := s.dev.fw, probe := s.dev.probe, free := s.dev.free, rings := s.dev.rings } = s.dev := by
    rw [← ledger] at frame'
    exact (congrArg (fun d : Dev => { d with free := s.dev.free, rings := s.dev.rings }) frame' :)
  have before : d.rings = s.dev.rings := (congrArg Dev.rings frame' :)
  have fw : l.fw = d.fw := (congrArg Dev.fw ledger :)
  refine does_becomes (i := .ledg (.firmware core t) w)
    (e := (l.wrReg (.firmware core t) w.d (BitVec.ofNat 72 (Config.freeBits (d.free + 7)))).proceed (.firmware core t) .next) rfl k r issued ?_
    ⟨(congrArg Dev.mem all :), (congrArg Dev.update all :), (congrArg Dev.safety all :)⟩ ((congrArg Dev.writes all :).trans k.1.1)
    fun b => ⟨(congrArg (fun d : Dev => { d with bus := s.dev.bus }) all :), ?_, BitVec.ofNat 72 (Config.freeBits (d.free + 7)), ?_⟩
  · rw [← hl]
    rfl
  · show l.rings = _ ∨ ∃ g a n, l.rings = _
    rw [← before]
    rcases rings with same | ⟨g, a, n, h⟩
    · exact .inl same
    · refine .inr ⟨g, a, n, h.trans ?_⟩
      simp only [Dev.updEntry, Dev.setRing, Dev.ring, before]
  · exact (Dev.seq_onBus _ _ b).trans
      (seq_updSeq _ _ (fun q => { q with pc := q.pc + 1 }) _ (seq_wrReg w.d _ ((seq_firmware_of_fw fw core t).trans seq)))

end

/-! Device-physical accesses. -/

theorem length_toBytes (n x : Nat) : (toBytes n x).length = n := by
  induction n generalizing x with
  | zero => rfl
  | succ n ih => simp [toBytes, ih]

/-- Byte i of a number's bytes. -/
theorem nth_toBytes {n i : Nat} (h : i < n) (x : Nat) : nth (toBytes n x) i 0 = BitVec.ofNat 8 (x / 256 ^ i) := by
  induction n generalizing i x with
  | zero => omega
  | succ n ih =>
    cases i with
    | zero => simp [toBytes, nth]
    | succ i =>
      have rest := ih (Nat.lt_of_succ_lt_succ h) (x / 256)
      rw [Nat.div_div_eq_div_mul, ← Nat.pow_succ'] at rest
      exact rest

theorem length_storeBytes (b : Bank) (w : Insn) : (storeBytes b w).length = accessBytes w.s := by
  unfold storeBytes
  by_cases s5 : w.s = 5
  · simp [s5, length_toBytes, accessBytes, nth]
  · simp [s5, length_toBytes]

section
variable {d : Dev} {a n : Nat}

theorem Dev.no_writes (h : d.writes = []) : { d with writes := [] } = d := by rw [← h]

/-- What PLD and PST refuse at an address with no memory, and PST in the Vitrine (R36, R42). -/
theorem physExc_of_none {load : Bool} (h : d.touches a n .none = true ∨ (load = false ∧ d.touches a n .vitrine = true)) :
    d.physExc load a n = some { exc 0x06 with addr := a } := by
  have refused : (d.touches a n .none || (!load && d.touches a n .vitrine)) = true := by
    rcases h with h | ⟨l, h⟩
    · simp [h]
    · simp [l, h]
  simp only [Dev.physExc, refused, if_true]

/-- A store that PST admits touches no Vitrine. -/
theorem physExc_store (h : d.physExc false a n = none) : d.touches a n .vitrine = false := by
  cases v : d.touches a n .vitrine with
  | false => rfl
  | true => rw [physExc_of_none (.inr ⟨rfl, v⟩)] at h; cases h

end

section
variable {s : State} {core : Fin 10} {t : Fin 4} {w : Insn} {q : Seq} {a n : Nat}

/-- What a device-physical access rests on is none of a firmware thread's. -/
theorem Dev.Executes.phys (r : s.dev.Executes (.firmware core t) (.mem 6 .firmware) w q) (load : Bool) (a n : Nat) :
    (s.dev.issued (.firmware core t) q).physExc load a n = s.dev.physExc load a n ∧
      (s.dev.issued (.firmware core t) q).physRead a n = s.dev.physRead a n := by
  rw [r.issued_firmware, unstep_eq]
  exact ⟨rfl, rfl⟩

/-- Whether PLD or PST reaches the internal control space, for an instruction that executes. -/
theorem Dev.Executes.reachesControl (r : s.dev.Executes (.firmware core t) (.mem 6 .firmware) w q)
    (ok : accessExc w.s w.d (q.bank.addr w) = none) :
    s.dev.reachesControl (.firmware core t) (.mem 6 .firmware) w =
      (s.dev.touches (q.bank.addr w) (accessBytes w.s) .control && !s.dev.touches (q.bank.addr w) (accessBytes w.s) .none) := by
  obtain ⟨⟨up, seq, steps, inside, -, decodes⟩, holds⟩ := r
  have checked : s.dev.precheck (.firmware core t) (.mem 6 .firmware) w q = (s.dev, none) :=
    precheck_ready s.dev _ _ w q steps inside rfl decodes
  have executes : s.dev.executes (.firmware core t) (.mem 6 .firmware) w = true := by
    simp [Dev.executes, up, seq, checked, Dev.predicate, holds]
  simp only [Dev.reachesControl, Dev.bank_of_seq seq, executes, ok, Option.isNone_none, Bool.true_and]

/-- An access of PLD or PST that reaches the internal control space, whose contents the manual does not give, stops. -/
theorem control_stops (r : s.dev.Executes (.firmware core t) (.mem 6 .firmware) w q) (ok : accessExc w.s w.d (q.bank.addr w) = none)
    (control : s.dev.touches (q.bank.addr w) (accessBytes w.s) .control = true) (memory : s.dev.touches (q.bank.addr w) (accessBytes w.s) .none = false) :
    exec (.pld (.firmware core t) w) s = .fault (.controlSpace (q.bank.addr w)) ∧
      exec (.pst (.firmware core t) w) s = .fault (.controlSpace (q.bank.addr w)) := by
  have reach := r.reachesControl ok
  rw [control, memory] at reach
  rw [← Dev.bank_of_seq r.1.seq]
  exact ⟨if_pos reach, if_pos reach⟩

/-- What PLD does on the device that it is issued on. -/
def Dev.pld (d : Dev) (c : Ctx) (w : Insn) : Dev × Except Exc Flow :=
  let a := (d.bank c).addr w
  match accessExc w.s w.d a with
  | some e => (d, .error e)
  | none =>
    match d.physExc true a (accessBytes w.s) with
    | some e => (d, .error e)
    | none => (d.loaded c w false (d.physRead a (accessBytes w.s)), .ok .next)

/-- What PST does on the device that it is issued on. -/
def Dev.pst (d : Dev) (c : Ctx) (w : Insn) : Dev × Except Exc Flow :=
  let a := (d.bank c).addr w
  match accessExc w.s w.d a with
  | some e => (d, .error e)
  | none =>
    match d.physExc false a (accessBytes w.s) with
    | some e => (d, .error e)
    | none => (d.physWrite a (Machine.storeBytes (d.bank c) w), .ok .next)

variable {c : Ctx}

theorem exec_pld (h : s.dev.reachesControl c (.mem 6 .firmware) w = false) :
    exec (.pld c w) s = run (issue c (.mem 6 .firmware) w false (fun d => d.pld c w)) s := if_neg (by simp [h])

theorem exec_pst (h : s.dev.reachesControl c (.mem 6 .firmware) w = false) :
    exec (.pst c w) s = run (issue c (.mem 6 .firmware) w false (fun d => d.pst c w)) s := if_neg (by simp [h])

variable (k : s.Calm) (r : s.dev.Executes (.firmware core t) (.mem 6 .firmware) w q) (ok : accessExc w.s w.d (q.bank.addr w) = none)
include k r ok

theorem pld_does (control : s.dev.touches (q.bank.addr w) (accessBytes w.s) .control = false)
    (found : s.dev.physExc true (q.bank.addr w) (accessBytes w.s) = none) :
    Does (.pld (.firmware core t) w) s (FirmwareIs core t { s.dev.fwt core.val t.val with
      halted := false
      seq := { q with
        pc := q.pc + 1, steps := q.steps + 1
        bank := loadedBank q.bank w false (s.dev.physRead (q.bank.addr w) (accessBytes w.s)) } } s.dev) := by
  have bank := Dev.bank_of_seq r.1.issued_seq
  obtain ⟨exc, read⟩ := r.phys true (q.bank.addr w) (accessBytes w.s)
  rw [r.issued_firmware] at bank exc read
  refine does_fw (exec_pld (by rw [r.reachesControl ok, control, Bool.false_and])) k r
    (x := { s.dev.fwt core.val t.val with
      halted := false
      seq := { q with
        steps := q.steps + 1, bank := loadedBank q.bank w false (s.dev.physRead (q.bank.addr w) (accessBytes w.s)) } }) ?_ rfl
  simp only [Dev.pld, bank, ok, exc, found, read, Dev.loaded, loadedBank]
  by_cases s5 : w.s = 5
  · simp only [if_pos s5, Dev.wrReg_setFwt]
    rfl
  · simp only [if_neg s5, Dev.wrReg_setFwt]
    rfl

omit ok in
/-- The trap of a device-physical access that is refused. -/
theorem phys_traps {i : Instr} {eff : Dev → Dev × Except Exc Flow} (x : exec i s = run (issue (.firmware core t) (.mem 6 .firmware) w false eff) s)
    (raises : eff (s.dev.issued (.firmware core t) q) = (s.dev.issued (.firmware core t) q, .error { exc 0x06 with addr := q.bank.addr w }))
    (ecode : (s.dev.fwt core.val t.val).ecode = 0) :
    Does i s (fun e => (e.fwt core.val t.val).ecode = 6 ∧ (e.fwt core.val t.val).eaddr = BitVec.ofNat 72 (q.bank.addr w) ∧
      (e.fwt core.val t.val).seq.pc = fld (s.dev.fwt core.val t.val).evec 0 24 ∧
      { e with fw := s.dev.fw, probe := s.dev.probe, bus := s.dev.bus } = s.dev) := by
  have trap : Does i s (FirmwareIs core t
      { (s.dev.fwt core.val t.val).issued q with
        epc := BitVec.ofNat 72 q.pc, ecode := 6, eaddr := BitVec.ofNat 72 (q.bank.addr w)
        seq := { q with steps := q.steps + 1, pc := fld (s.dev.fwt core.val t.val).evec 0 24 } } s.dev) := by
    refine does_firmware x k ?_
    rw [issue_executes r, raises, Dev.concluded_error, r.issued_firmware, Dev.raise_firmware _ (by simpa [FwThread.issued] using ecode)]
    simp only [Dev.fwt_setFwt_same, Dev.setFwt_setFwt]
    rfl
  obtain ⟨u, step, pending, thread, -, frame⟩ := trap
  exact ⟨u, step, pending, congrArg FwThread.ecode thread, congrArg FwThread.eaddr thread, congrArg (fun y : FwThread => y.seq.pc) thread, frame⟩

theorem pld_refused (none : s.dev.touches (q.bank.addr w) (accessBytes w.s) .none = true) (ecode : (s.dev.fwt core.val t.val).ecode = 0) :
    Does (.pld (.firmware core t) w) s (fun e => (e.fwt core.val t.val).ecode = 6 ∧ (e.fwt core.val t.val).eaddr = BitVec.ofNat 72 (q.bank.addr w) ∧
      (e.fwt core.val t.val).seq.pc = fld (s.dev.fwt core.val t.val).evec 0 24 ∧
      { e with fw := s.dev.fw, probe := s.dev.probe, bus := s.dev.bus } = s.dev) := by
  have reach : s.dev.reachesControl (.firmware core t) (.mem 6 .firmware) w = false := by
    rw [r.reachesControl ok, none, Bool.not_true, Bool.and_false]
  refine phys_traps k r (exec_pld reach) ?_ ecode
  simp only [Dev.pld, Dev.bank_of_seq r.1.issued_seq, ok, (r.phys true _ _).1, physExc_of_none (.inl none)]

theorem pst_refused (control : s.dev.touches (q.bank.addr w) (accessBytes w.s) .control = false)
    (h : s.dev.touches (q.bank.addr w) (accessBytes w.s) .none = true ∨ s.dev.touches (q.bank.addr w) (accessBytes w.s) .vitrine = true)
    (ecode : (s.dev.fwt core.val t.val).ecode = 0) :
    Does (.pst (.firmware core t) w) s (fun e => (e.fwt core.val t.val).ecode = 6 ∧ (e.fwt core.val t.val).eaddr = BitVec.ofNat 72 (q.bank.addr w) ∧
      (e.fwt core.val t.val).seq.pc = fld (s.dev.fwt core.val t.val).evec 0 24 ∧
      { e with fw := s.dev.fw, probe := s.dev.probe, bus := s.dev.bus } = s.dev) := by
  have reach : s.dev.reachesControl (.firmware core t) (.mem 6 .firmware) w = false := by rw [r.reachesControl ok, control, Bool.false_and]
  have refused : s.dev.physExc false (q.bank.addr w) (accessBytes w.s) = some { exc 0x06 with addr := q.bank.addr w } :=
    physExc_of_none (h.imp id fun v => ⟨rfl, v⟩)
  refine phys_traps k r (exec_pst reach) ?_ ecode
  simp only [Dev.pst, Dev.bank_of_seq r.1.issued_seq, ok, (r.phys false _ _).1, refused]

/-- A store of PST that is admitted: nothing in the boot ROM, elsewhere its bytes (R42, R57). -/
theorem pst_does (wf : Memory.wf s.dev.mem = true) (control : s.dev.touches (q.bank.addr w) (accessBytes w.s) .control = false)
    (admitted : s.dev.physExc false (q.bank.addr w) (accessBytes w.s) = none) :
    Does (.pst (.firmware core t) w) s (fun e =>
      e.fwt core.val t.val = { s.dev.fwt core.val t.val with halted := false, seq := { q with pc := q.pc + 1, steps := q.steps + 1 } } ∧
      { e with mem := s.dev.mem, poison := s.dev.poison, fw := s.dev.fw, probe := s.dev.probe, bus := s.dev.bus } = s.dev ∧
      (s.dev.touches (q.bank.addr w) (accessBytes w.s) .rom = true → e.mem = s.dev.mem) ∧
      (s.dev.touches (q.bank.addr w) (accessBytes w.s) .rom = false →
        ∀ x, cellGet e.mem x = (s.dev.poke (q.bank.addr w) (storeBytes q.bank w)).peekByte x)) := by
  obtain ⟨u, hu⟩ : ∃ u, s.dev.unstep (.firmware core t) = u := ⟨_, rfl⟩
  have frame := unstep_frame s.dev (.firmware core t)
  have issued := r.issued_firmware
  have bank := Dev.bank_of_seq r.1.issued_seq
  have exc := (r.phys false (q.bank.addr w) (accessBytes w.s)).1
  rw [hu] at frame issued
  rw [issued] at bank exc
  have dram : u.dram = s.dev.dram := (congrArg Dev.dram frame :)
  have mem : u.mem = s.dev.mem := (congrArg Dev.mem frame :)
  have writes : u.writes = [] := (congrArg Dev.writes frame :).trans k.1.1
  have vitrine := physExc_store admitted
  have len := length_storeBytes q.bank w
  have reach : s.dev.reachesControl (.firmware core t) (.mem 6 .firmware) w = false := by rw [r.reachesControl ok, control, Bool.false_and]
  have touches : ∀ x, (u.setFwt core.val t.val ((s.dev.fwt core.val t.val).issued q)).touches (q.bank.addr w) (storeBytes q.bank w).length x =
      s.dev.touches (q.bank.addr w) (accessBytes w.s) x := fun x => by
    rw [len]
    simp only [Dev.touches, Dev.setFwt, dram]
  cases rom : s.dev.touches (q.bank.addr w) (accessBytes w.s) .rom with
  | true =>
    have eff : (u.setFwt core.val t.val ((s.dev.fwt core.val t.val).issued q)).pst (.firmware core t) w =
        (u.setFwt core.val t.val ((s.dev.fwt core.val t.val).issued q), .ok .next) := by
      simp only [Dev.pst, bank, ok, exc, admitted, Dev.physWrite, touches, rom, Bool.true_or, if_true]
    refine does_becomes (e := u.setFwt core.val t.val ((s.dev.fwt core.val t.val).issued q).next) (exec_pst reach) k r issued ?_
      ⟨mem, (congrArg Dev.update frame :), (congrArg Dev.safety frame :)⟩ writes fun b =>
      ⟨Dev.fwt_setFwt_same _ _ _ _,
        (congrArg (fun d : Dev => { d with mem := s.dev.mem, poison := s.dev.poison, fw := s.dev.fw, bus := s.dev.bus }) frame :), fun _ => mem,
        fun h => by cases h⟩
    rw [eff, Dev.concluded_ok, Dev.next_setFwt]
  | false =>
    have eff : (u.setFwt core.val t.val ((s.dev.fwt core.val t.val).issued q)).pst (.firmware core t) w =
        ((u.poke (q.bank.addr w) (storeBytes q.bank w)).setFwt core.val t.val ((s.dev.fwt core.val t.val).issued q), .ok .next) := by
      simp only [Dev.pst, bank, ok, exc, admitted, Dev.physWrite, touches, rom, vitrine, Bool.or_self, Bool.false_eq_true, if_false]
      rfl
    have eq : issue (.firmware core t) (.mem 6 .firmware) w false (fun d => d.pst (.firmware core t) w) s.dev =
        (u.poke (q.bank.addr w) (storeBytes q.bank w)).setFwt core.val t.val ((s.dev.fwt core.val t.val).issued q).next := by
      rw [issue_executes r, issued, eff, Dev.concluded_ok, Dev.next_setFwt]
    refine does_runFrom (exec_pst reach) k ?_ ?_
    · rw [eq]
      exact ⟨mem, (congrArg Dev.update frame :), (congrArg Dev.safety frame :)⟩
    · rw [eq]
      refine ⟨Dev.fwt_setFwt_same _ _ _ _, ?_, fun h => (by cases h), fun _ x => ?_⟩
      · exact (congrArg (fun d : Dev => { d with
          writes := [], mem := s.dev.mem, poison := s.dev.poison, fw := s.dev.fw, bus := s.dev.bus }) frame :).trans (Dev.no_writes k.1.1)
      · refine (cellGet_commit wf (by exact mem) (mpSeq, 0) x).trans (Dev.peekByte_congr (by exact mem) ?_ x)
        show consBytes _ _ u.writes = consBytes _ _ s.dev.writes
        rw [writes, k.1.1]

end

/-- Settles O22: each opcode of firmware privilege on its thread, EX_PRIV on a guest's, and the accesses of PLD and PST. -/
theorem firmwareAndPhysicalAccess : Obligations.FirmwareAndPhysicalAccess := by
  refine ⟨fun s core t w q k r => ?_, fun s core t w q k r => ?_, fun s core t w q k r inside => eret_does k r inside,
    fun s core t w q f k r hf inside => ioinv_does k r hf inside, fun s core t w q j n k r hj hn cores threads apart => thrd_does k r hj hn cores threads apart,
    fun s core t w q k r => ⟨halt_does k r, wdog_does k r⟩, fun s core t w q k r => ledg_does k r,
    fun s g w q a k up e acc steps inside f => ⟨?_, ?_⟩, fun s core t w q a n k r ha hn ok control found => ?_,
    fun s core t w q a n k wf r ha hn ok control admitted => ?_, fun s core t w q a n r ha hn ok control memory => ?_,
    fun s core t w q a n k r ha hn ok none ecode => ?_, fun s core t w q a n k r ha hn ok control refused ecode => ?_⟩
  · have h := csrr_does k r
    rw [csrRead_eq] at h
    exact h
  · have h := csrw_does k r
    rw [csrWrite_eq] at h
    exact h
  · exact privileged_raises (i := .csrr (.guest g) w) rfl rfl k up e acc steps inside f
  · exact privileged_raises (i := .halt (.guest g) w) rfl rfl k up e acc steps inside f
  · subst ha hn
    exact pld_does k r ok control found
  · subst ha hn
    obtain ⟨u, x, p, thread, frame, rom, bytes⟩ := pst_does k r ok wf control admitted
    have len := length_storeBytes q.bank w
    have read : ∀ y, cellGet u.dev.mem y = if q.bank.addr w ≤ y ∧ y < q.bank.addr w + accessBytes w.s ∧ s.dev.touches (q.bank.addr w) (accessBytes w.s) .rom = false then
        nth (storeBytes q.bank w) (y - q.bank.addr w) 0 else cellGet s.dev.mem y := fun y => by
      cases h : s.dev.touches (q.bank.addr w) (accessBytes w.s) .rom with
      | true => simp [rom h]
      | false =>
        rw [bytes h, Dev.peekByte_poke, len, Dev.peekByte_eq, k.1.1]
        simp
    refine ⟨u, x, p, thread, frame, fun y out => ?_, rom, fun dry narrow i inside => ?_⟩
    · rw [read, if_neg (by omega)]
    · have s5 : w.s ≠ 5 := by omega
      rw [read, if_pos ⟨by omega, by omega, dry⟩, Nat.add_sub_cancel_left, storeBytes, if_neg s5, nth_toBytes inside]
  · subst ha hn
    exact control_stops r ok control memory
  · subst ha hn
    exact pld_refused k r ok none ecode
  · subst ha hn
    exact pst_refused k r ok control refused ecode

end Sys2Proof.Machine
end

section
/-! The vector ALU on the executing lanes (R168 to R172). -/

namespace Sys2Proof.Machine

/-! A command that leaves a device which is said whole. -/

/-- A command whose effect leaves device d: its stores take their place in memory and its accesses in the lattice. -/
theorem does_is {i : Instr} {s : State} {who : Nat × Nat} {h : Dev → Dev} {d : Dev} (x : exec i s = runFrom who h s) (k : s.Calm) (hd : h s.dev = d)
    (m : EndsAlike s.dev d) (w : d.writes = [] ∨ Memory.wf s.dev.mem = true) : Does i s (Is d) := by
  refine does_runFrom x k (by rw [hd]; exact m) ?_
  rw [hd]
  refine ⟨rfl, fun a => ?_, ⟨who, rfl⟩, rfl⟩
  rcases w with none | wf
  · rw [commit_mem, none, Dev.peekByte_eq, none, m.1]
    rfl
  · exact cellGet_commit wf m.1 who a

/-! Waves. -/

section
variable {s : State} {i : Nat} {sh : Shape} {w : Insn} {q : Seq} {x : Wave}

/-- The wave of an instruction that is issued: its step counted. -/
theorem issued_wave {d : Dev} (r : d.Ready (.wave i) sh w q) (wave : d.wave i = some x) :
    (d.issued (.wave i) q).wave i = some { x with seq := { q with steps := q.steps + 1 } } := by
  have seq := r.issued_seq
  obtain ⟨-, -, -, -, -, rest⟩ := r.issued_only
  rw [wave] at rest
  rw [Dev.seq] at seq
  cases h : (d.issued (.wave i) q).wave i with
  | none => rw [h] at seq; cases seq
  | some y =>
    rw [h] at seq rest
    simp only [Option.map_some, Option.some.injEq] at seq rest ⊢
    rw [← seq]
    exact (congrArg (fun z : Wave => { z with seq := y.seq }) rest :)

@[simp] theorem Dev.setWave_setWave (d : Dev) (i : Nat) (x y : Wave) : (d.setWave i x).setWave i y = d.setWave i y := by
  simp [Dev.setWave, tset_tset]

theorem Dev.next_setWave (d : Dev) (i : Nat) (x : Wave) :
    (d.setWave i x).proceed (.wave i) .next = d.setWave i { x with seq := { x.seq with pc := x.seq.pc + 1 } } := by
  simp [Dev.proceed, Dev.updSeq]

/-- A vector instruction that is ready, with a lane type and registers that the wave has: its effect on the whole wave. -/
theorem waveOp_does {ins : Instr} {types : List Nat} {u : VRegs} {h : Dev → Nat → Wave → Dev × Except Exc Flow} {y : Wave}
    (e : exec ins s = run (waveOp (.wave i) sh w types u h) s) (prof : sh.prof = .v) (k : s.Calm) (r : s.dev.Ready (.wave i) sh w q)
    (wave : s.dev.wave i = some x) (type : types.contains w.lt = true) (regs : u.beyond x.nv w = false)
    (eff : h (s.dev.issued (.wave i) q) i { x with seq := { q with steps := q.steps + 1 } } = ((s.dev.issued (.wave i) q).setWave i y, .ok .next)) :
    Does ins s (Is ((s.dev.issued (.wave i) q).setWave i { y with seq := { y.seq with pc := y.seq.pc + 1 } })) := by
  have now := issued_wave r wave
  have issue := issue_ready s.dev (.wave i) sh w false (fun d =>
    match d.wave i with
    | some x => if !types.contains w.lt || u.beyond x.nv w then (d, .error exIllegal) else h d i x
    | none => (d, .error exIllegal)) q r
  obtain ⟨d, hd⟩ : ∃ d, s.dev.issued (.wave i) q = d := ⟨_, rfl⟩
  have alike := r.issued_only.endsAlike
  have memory := r.issued_only.memory
  rw [hd] at now issue alike memory eff ⊢
  have runs : d.predicate (.wave i) sh w false = true := by simp [Dev.predicate, prof]
  refine does_is e k (issue.trans ?_) alike (.inl (memory.2.trans k.1.1))
  rw [if_pos runs]
  simp only [now, type, regs, Bool.not_true, Bool.or_self, Bool.false_eq_true, if_false, eff]
  exact Dev.next_setWave d i y

/-- Lanes taken in ascending order by an effect that changes registers of the lane alone. -/
theorem lanesRun_pure (w : Insn) (f : Nat → Lane → Lane) (d : Dev) (n : Nat) (l : List Lane) :
    lanesRun w (fun d n x => (d, .ok (f n x))) d n l = (d, .ok (l.mapIdx (fun j x => if x.runs w then f (j + n) x else x))) := by
  induction l generalizing n with
  | nil => rfl
  | cons x r ih =>
    rw [List.mapIdx_cons, lanesRun]
    by_cases runs : x.runs w = true
    · simp only [if_pos runs, ih, Nat.zero_add, Nat.add_assoc, Nat.add_comm 1 n]
    · simp only [if_neg runs, ih, Nat.add_assoc, Nat.add_comm 1 n]

/-- The same of a vector instruction with an effect per lane. -/
theorem vector_does {ins : Instr} {types : List Nat} {u : VRegs} {f : Wave → Nat → Lane → Lane}
    (e : exec ins s = run (vector (.wave i) sh w types u (fun x d n l => (d, .ok (f x n l)))) s) (prof : sh.prof = .v) (k : s.Calm)
    (r : s.dev.Ready (.wave i) sh w q) (wave : s.dev.wave i = some x) (type : types.contains w.lt = true) (regs : u.beyond x.nv w = false) :
    Does ins s (Is ((s.dev.issued (.wave i) q).setWave i
      { x with
        seq := { q with pc := q.pc + 1, steps := q.steps + 1 }
        lanes := x.lanes.mapIdx (fun j l => if l.runs w then f { x with seq := { q with steps := q.steps + 1 } } j l else l) })) := by
  refine waveOp_does (y := { x with
    seq := { q with steps := q.steps + 1 }
    lanes := x.lanes.mapIdx (fun j l => if l.runs w then f { x with seq := { q with steps := q.steps + 1 } } j l else l) }) e prof k r wave type regs ?_
  simp only [lanesRun_pure, issued_wave r wave, Nat.add_zero]

/-- The same of an effect that does not ask for the lane's number. -/
theorem vectorL_does {ins : Instr} {types : List Nat} {u : VRegs} {f : Wave → Lane → Lane}
    (e : exec ins s = run (vector (.wave i) sh w types u (fun x d _ l => (d, .ok (f x l)))) s) (prof : sh.prof = .v) (k : s.Calm)
    (r : s.dev.Ready (.wave i) sh w q) (wave : s.dev.wave i = some x) (type : types.contains w.lt = true) (regs : u.beyond x.nv w = false) :
    Does ins s (Is ((s.dev.issued (.wave i) q).setWave i
      { x with
        seq := { q with pc := q.pc + 1, steps := q.steps + 1 }
        lanes := x.lanes.map (fun l => if l.runs w then f { x with seq := { q with steps := q.steps + 1 } } l else l) })) := by
  have goes := vector_does (f := fun x _ l => f x l) e prof k r wave type regs
  have lanes : x.lanes.mapIdx (fun _ l => if l.runs w then f { x with seq := { q with steps := q.steps + 1 } } l else l) =
      x.lanes.map (fun l => if l.runs w then f { x with seq := { q with steps := q.steps + 1 } } l else l) :=
    List.ext_getElem (by simp) (by simp)
  rw [lanes] at goes
  exact goes

end

/-- A row whose meaning writes vd of each executing lane with a value of that lane. -/
theorem writesV_of_exec {mk : Ctx → Insn → Instr} {sh : Shape} {types : List Nat} {u : VRegs} {val : Insn → Lane → W72}
    (e : ∀ c w s, exec (mk c w) s = run (vectorD c sh w types u (val w)) s) (prof : sh.prof = .v := by rfl) : WritesV mk sh types u val :=
  fun s i w _ _ k r wave type regs => vectorL_does (f := fun _ l => l.wr w.d (val w l)) (e (.wave i) w s) prof k r wave type regs

/-! The instructions that are not of this form. -/

/-- What VLOG writes (R171). -/
def vlogWord (w : Insn) (l : Lane) : W72 :=
  if w.s = 0 then l.rd w.a &&& l.rd w.b else if w.s = 1 then l.rd w.a ||| l.rd w.b else if w.s = 2 then l.rd w.a ^^^ l.rd w.b
  else if w.s = 3 then l.rd w.a &&& ~~~(l.rd w.b) else ~~~(l.rd w.a)

theorem exec_vlog (c : Ctx) (w : Insn) (s : State) : exec (.vlog c w) s = run (vectorD c (.vdab 5) w [0] .dab (vlogWord w)) s := by
  refine congrArg (fun h => run (vectorD c (.vdab 5) w [0] .dab h) s) (funext fun l => ?_)
  unfold vlogWord
  generalize w.s = n
  rcases n with _ | _ | _ | _ | n <;> rfl

section
variable {s : State} {i : Nat} {w : Insn} {q : Seq} {x : Wave} (k : s.Calm)
include k

theorem vcmp_does (r : s.dev.Ready (.wave i) (.vec .pred .reg .reg false 6) w q) (wave : s.dev.wave i = some x)
    (type : (w.s = 5 ∧ (w.lt < 3 ∨ w.lt = 5)) ∨ (w.s < 5 ∧ w.lt < 6)) (a : w.a < x.nv) (b : w.b < x.nv) :
    Does (.vcmp (.wave i) w) s (Is ((s.dev.issued (.wave i) q).setWave i
      { x with seq := { q with pc := q.pc + 1, steps := q.steps + 1 }
               lanes := x.lanes.map (fun l => if l.runs w then l.wrK w.kd (vcmpLane w (l.rd w.a) (l.rd w.b)) else l) })) := by
  have types : (if w.s = 5 then [0, 1, 2, 5] else [0, 1, 2, 3, 4, 5]).contains w.lt = true := by
    rcases type with ⟨s5, lt⟩ | ⟨s5, lt⟩
    · rw [if_pos s5, List.contains_iff_mem]
      simp only [List.mem_cons, List.not_mem_nil, or_false]
      omega
    · rw [if_neg (by omega), List.contains_iff_mem]
      simp only [List.mem_cons, List.not_mem_nil, or_false]
      omega
  have regs : VRegs.beyond { d := false, a := true, b := true, c := false } x.nv w = false := by simp [VRegs.beyond, a, b]
  exact vectorL_does (ins := .vcmp (.wave i) w) (f := fun _ l => l.wrK w.kd (vcmpLane w (l.rd w.a) (l.rd w.b))) rfl rfl k r wave types regs

theorem vbcast_does (r : s.dev.Ready (.wave i) (.vda 1) w q) (wave : s.dev.wave i = some x) (type : w.lt = 0) (d : w.d < x.nv) :
    Does (.vbcast (.wave i) w) s (Is ((s.dev.issued (.wave i) q).setWave i
      { x with seq := { q with pc := q.pc + 1, steps := q.steps + 1 }
               lanes := x.lanes.map (fun l => if l.runs w then l.wr w.d (q.bank.rd w.a) else l) })) :=
  vectorL_does (ins := .vbcast (.wave i) w) (f := fun x l => l.wr w.d (x.seq.bank.rd w.a)) rfl rfl k r wave (by simp [type])
    (by simp [VRegs.beyond, d])

theorem vred_does (r : s.dev.Ready (.wave i) (.vda 6) w q) (wave : s.dev.wave i = some x) (type : w.lt < 6) (a : w.a < x.nv) :
    Does (.vred (.wave i) w) s (Is ((s.dev.issued (.wave i) q).setWave i
      { x with seq := { q with pc := q.pc + 1, steps := q.steps + 1, bank := q.bank.wr w.d (vredWord w x.lanes) } })) := by
  refine waveOp_does (ins := .vred (.wave i) w)
    (y := { x with seq := { q with steps := q.steps + 1, bank := q.bank.wr w.d (vredWord w x.lanes) } }) rfl rfl k r wave ?_ (by simp [VRegs.beyond, a]) ?_
  · rw [List.contains_iff_mem]
    simp only [List.mem_cons, List.not_mem_nil, or_false]
    omega
  · simp only [Dev.wrReg, Dev.updSeq, issued_wave r wave]

theorem vperm_does (r : s.dev.Ready (.wave i) (.vdab 3) w q) (wave : s.dev.wave i = some x) (type : w.lt = 0) (d : w.d < x.nv) (a : w.a < x.nv)
    (b : w.b < x.nv) :
    Does (.vperm (.wave i) w) s (Is ((s.dev.issued (.wave i) q).setWave i
      { x with seq := { q with pc := q.pc + 1, steps := q.steps + 1 }
               lanes := x.lanes.mapIdx (fun j l => if l.runs w then l.wr w.d ((nth x.lanes (permSource w j l) .idle).rd w.a) else l) })) :=
  vector_does (ins := .vperm (.wave i) w) (f := fun x j l => l.wr w.d ((nth x.lanes (permSource w j l) .idle).rd w.a)) rfl rfl k r wave (by simp [type])
    (by simp [VRegs.dab, VRegs.beyond, d, a, b])

end

/-- Settles O18: each row is an effect on the lanes that execute it. -/
theorem vectorArithmetic : Obligations.VectorArithmetic :=
  ⟨⟨writesV_of_exec fun _ _ _ => rfl, writesV_of_exec fun _ _ _ => rfl, writesV_of_exec fun _ _ _ => rfl, writesV_of_exec fun _ _ _ => rfl,
      writesV_of_exec fun _ _ _ => rfl, writesV_of_exec fun _ _ _ => rfl, writesV_of_exec fun _ _ _ => rfl, writesV_of_exec fun _ _ _ => rfl,
      writesV_of_exec fun _ _ _ => rfl, writesV_of_exec fun _ _ _ => rfl, writesV_of_exec fun _ _ _ => rfl⟩,
    writesV_of_exec fun _ _ _ => rfl, writesV_of_exec exec_vlog, writesV_of_exec fun _ _ _ => rfl, writesV_of_exec fun _ _ _ => rfl,
    fun _ _ _ _ _ k r wave type a b => vcmp_does k r wave type a b, fun _ _ _ _ _ k r wave type d => vbcast_does k r wave type d,
    fun _ _ _ _ _ k r wave type a => vred_does k r wave type a, fun _ _ _ _ _ k r wave type d a b => vperm_does k r wave type d a b⟩

end Sys2Proof.Machine
end

section
/-! Operations in engines: what is found, what an end leaves, and what the accesses of engines leave alone. -/

namespace Sys2Proof.Machine

/-! An operation and its end (R66, R103). -/

theorem Dev.activeOp_some {d : Dev} {id : OpId} {t k : Nat} {o : Op} (h : d.activeOp id t k = some o) :
    d.op id = some o ∧ o.phase = .started ∧ o.target.toNat = t ∧ o.kind.toNat = k := by
  unfold Dev.activeOp at h
  split at h
  · rename_i p found
    split at h
    · rename_i c
      cases h
      simp only [Op.active, Bool.and_eq_true, decide_eq_true_eq] at c
      exact ⟨found, c.1.1, c.1.2, c.2⟩
    · cases h
  · cases h

theorem Dev.op_id {d : Dev} {id : OpId} {o : Op} (h : d.op id = some o) : o.id = id := by simpa using List.find?_some h

theorem Dev.op_updOp (d : Dev) (id : OpId) (h : Op → Op) (keep : ∀ o, (h o).id = o.id) (j : OpId) :
    (d.updOp id h).op j = (d.op j).map (fun o => if o.id = id then h o else o) := by
  have same : ((fun o : Op => decide (o.id = j)) ∘ fun o => if o.id = id then h o else o) = fun o => decide (o.id = j) := by
    funext o
    simp only [Function.comp_apply]
    split
    · rw [keep]
    · rfl
  simp only [Dev.op, Dev.updOp, List.find?_map, same]

/-- The operation at its end. -/
def Op.ended (o : Op) (status : Nat) (r : Option Nat) : Op :=
  { o with phase := .finished, status := BitVec.ofNat 8 status, result := r.map (BitVec.ofNat 64) }

theorem Dev.op_finish (d : Dev) (id : OpId) (status : Nat) (r : Option Nat) (j : OpId) :
    (d.finish id status r).op j = (d.op j).map (fun o => if o.id = id then o.ended status r else o) :=
  Dev.op_updOp d id (fun o => o.ended status r) (fun _ => rfl) j

theorem Dev.op_finish_same {d : Dev} {id : OpId} {o : Op} (h : d.op id = some o) (status : Nat) (r : Option Nat) :
    (d.finish id status r).op id = some (o.ended status r) := by
  rw [Dev.op_finish, h, Option.map_some, if_pos (Dev.op_id h)]

theorem Dev.op_finish_ne (d : Dev) {id j : OpId} (h : j ≠ id) (status : Nat) (r : Option Nat) : (d.finish id status r).op j = d.op j := by
  rw [Dev.op_finish]
  cases found : d.op j with
  | none => rfl
  | some o => rw [Option.map_some, if_neg (fun same => h ((Dev.op_id found).symm.trans same))]

/-! Commands of engines in a steady machine. -/

section
variable {i : Instr} {s : State} {h : Dev → Dev} {d : Dev} {id : OpId}

/-- A command of an operation that leaves device d. -/
theorem becomes_runOp (x : exec i s = runOp id h s) (k : s.Steady) (hd : h s.dev = d) (m : EndsAlike s.dev d) : Becomes i s d :=
  does_is x k.1 hd m (.inr k.2)

/-- A command of the sequencers that changes nothing. -/
theorem becomes_run_same (x : exec i s = run h s) (k : s.Steady) (hd : h s.dev = s.dev) : Becomes i s s.dev :=
  does_is x k.1 hd (.refl _) (.inr k.2)

/-- A command of an operation that stores nothing: of the device that it leaves, with the accesses passed to the lattice. -/
theorem does_runOp {P : Dev → Prop} (x : exec i s = runOp id h s) (k : s.Calm) (hd : h s.dev = d) (m : EndsAlike s.dev d) (w : d.writes = [])
    (p : ∀ b, P { d with bus := b }) : Does i s P := by
  subst hd
  exact does_runFrom_noStores x k m w (p _)

end

/-! What leaves the end of commands alone. -/

theorem Fetched.endsAlike {d e : Dev} (h : Fetched d e) : EndsAlike d e := by
  rw [h.eq]
  exact .refl d

theorem Stored.endsAlike {d e : Dev} (h : Stored d e) : EndsAlike d e :=
  ⟨(congrArg Dev.mem h :), (congrArg Dev.update h :), (congrArg Dev.safety h :)⟩

theorem sendVector_endsAlike (d : Dev) (f v : Nat) : EndsAlike d (d.sendVector f v) := by
  unfold Dev.sendVector
  split <;> exact .refl d

theorem setEv_endsAlike (d : Dev) (f b : Nat) : EndsAlike d (d.setEv f b) := by
  unfold Dev.setEv
  dsimp only
  split
  · exact .trans (.refl d) (sendVector_endsAlike _ f _)
  · exact .refl d

/-- An engine's fault is recorded with EV_FAULT, whatever its cause. -/
theorem accessFault_engine (d : Dev) (f cause ring va : Nat) : ∃ x, d.accessFault f cause srcEngine ring va = (d.setFn f x).setEv f 5 :=
  ⟨_, if_neg (by simp [srcEngine])⟩

theorem accessFault_endsAlike (d : Dev) (f cause ring va : Nat) : EndsAlike d (d.accessFault f cause srcEngine ring va) := by
  obtain ⟨x, e⟩ := accessFault_engine d f cause ring va
  rw [e]
  exact .trans (.refl d) (setEv_endsAlike _ f 5)

theorem finish_endsAlike (d : Dev) (id : OpId) (status : Nat) (r : Option Nat) : EndsAlike d (d.finish id status r) := .refl d

/-! What an engine's fault leaves: the operations, and its event bit set. -/

theorem setEv_ops (d : Dev) (f b : Nat) : (d.setEv f b).ops = d.ops := by
  unfold Dev.setEv Dev.sendVector
  dsimp only
  split
  · split <;> rfl
  · rfl

theorem accessFault_op (d : Dev) (f cause ring va : Nat) (j : OpId) : (d.accessFault f cause srcEngine ring va).op j = d.op j := by
  obtain ⟨x, e⟩ := accessFault_engine d f cause ring va
  rw [e, Dev.op, setEv_ops]
  rfl

theorem sendVector_evStatus (d : Dev) (f v : Nat) : ((d.sendVector f v).fn f).evStatus = (d.fn f).evStatus := by
  unfold Dev.sendVector
  split
  · rfl
  · rw [Dev.fn_setFn_same]

theorem setEv_evStatus (d : Dev) (f : Nat) {b : Nat} (h : b < 9) : bit ((d.setEv f b).fn f).evStatus b = true := by
  have now : bit ((d.setFn f { d.fn f with evStatus := setBit (d.fn f).evStatus b true }).fn f).evStatus b = true := by
    rw [Dev.fn_setFn_same, bit_setBit _ _ _ _ h, if_pos rfl]
  unfold Dev.setEv
  dsimp only
  split
  · rw [sendVector_evStatus]
    exact now
  · exact now

theorem accessFault_evStatus (d : Dev) (f cause ring va : Nat) : bit ((d.accessFault f cause srcEngine ring va).fn f).evStatus 5 = true := by
  obtain ⟨x, e⟩ := accessFault_engine d f cause ring va
  rw [e]
  exact setEv_evStatus _ f (by decide)

/-! Accesses of engines. -/

/-- A step that may fault and leaves the end of commands alone. -/
def Got.Alike {α : Type} (d : Dev) (x : Got α) : Prop := EndsAlike d x.1

namespace Got

theorem Alike.bind {α β : Type} {d : Dev} {x : Got α} {h : Dev → α → Got β} (a : Alike d x) (b : ∀ e v, Alike e (h e v)) : Alike d (Got.bind x h) := by
  obtain ⟨e, r⟩ := x
  cases r with
  | error c => exact a
  | ok v => exact EndsAlike.trans a (b e v)

theorem Alike.mapGot {α β : Type} {h : Dev → α → Got β} (b : ∀ e v, Alike e (h e v)) (l : List α) (d : Dev) : Alike d (Machine.mapGot h d l) := by
  induction l generalizing d with
  | nil => exact EndsAlike.refl d
  | cons x r ih => exact (b d x).bind (fun e y => (ih e).bind (fun e t => EndsAlike.refl e))

/-- A value answered, with nothing changed. -/
theorem Alike.ok {α : Type} (d : Dev) (v : Except (Nat × Nat) α) : Alike d ((d, v) : Got α) := EndsAlike.refl d

end Got

theorem texLine_alike (d : Dev) (core line : Nat) : EndsAlike d (d.texLine core line).1 := by
  unfold Dev.texLine
  dsimp only
  split
  · exact .refl d
  · split <;> exact .refl d

theorem texPiece_alike (d : Dev) (core : Nat) (x : Nat × Nat × Nat) : Got.Alike d (d.texPiece core x) := by
  obtain ⟨va, pa, n⟩ := x
  unfold Dev.texPiece
  dsimp only
  split
  · refine (Got.Alike.mapGot (fun e y => ?_) _ d).bind (fun e v => .ok e _)
    have line := texLine_alike e core y.1
    cases r : e.texLine core y.1 with
    | mk d1 v =>
      rw [r] at line
      cases v <;> exact line
  · split <;> exact .ok d _

theorem texRead_alike (d : Dev) (f va n : Nat) : Got.Alike d (d.texRead f va n) := by
  unfold Dev.texRead
  split
  · exact (readV_fetched d f va n .read).endsAlike
  · have walk := (translateAll_fetched (pieces va n) d f .read).endsAlike
    split
    · rename_i e
      rw [e] at walk
      exact walk
    · rename_i d1 t e
      rw [e] at walk
      exact EndsAlike.trans walk ((Got.Alike.mapGot (fun e x => texPiece_alike e _ x) t d1).bind (fun e v => .ok e _))

theorem readNat_alike (d : Dev) (f va n : Nat) : Got.Alike d (d.readNat f va n) := (texRead_alike d f _ n).bind (fun e _ => .ok e _)

theorem put_alike (d : Dev) (f : Nat) (watch : Bool) (va : Nat) (bytes : List Byte) : Got.Alike d (d.put f watch va bytes) :=
  (writeVia_stored d f _ bytes watch).endsAlike

theorem readTile2_alike (d : Dev) (f : Nat) (s : Surf) (smp tx ty base : Nat) (clear : W72 → Nat) : Got.Alike d (d.readTile2 f s smp tx ty base clear) := by
  have cleared (e : Dev) : Got.Alike e (Got.bind (e.readNat f s.aux 9) (fun d x => (d, .ok (List.replicate 1024 (clear (BitVec.ofNat 72 x)))))) :=
    (readNat_alike e f _ 9).bind (fun e _ => .ok e _)
  unfold Dev.readTile2
  refine (readNat_alike d f _ 1).bind (fun e m => ?_)
  split
  · exact cleared e
  · split
    · exact (texRead_alike e f _ _).bind (fun e _ => .ok e _)
    · split
      · exact (texRead_alike e f _ _).bind (fun e _ => .ok e _)
      · exact EndsAlike.trans (setEv_endsAlike e f 5) (cleared _)

theorem loadPlane_alike (d : Dev) (f : Nat) (a : Att) (width height smp tx ty : Nat) (key : List Nat) :
    Got.Alike d (d.loadPlane f a width height smp tx ty key) := by
  unfold Dev.loadPlane
  dsimp only
  split
  · exact .ok d _
  · split
    · exact (readTile2_alike d f _ smp tx ty _ _).bind (fun e _ => .ok e _)
    · refine Got.Alike.mapGot (fun e i => ?_) _ d
      split
      · exact (readNat_alike e f _ _).bind (fun e _ => .ok e _)
      · exact .ok e _
  · exact .ok d _

theorem storePlane_alike (d : Dev) (f : Nat) (watch : Bool) (a : Att) (width height smp tx ty : Nat) (words : List W72) :
    Got.Alike d (d.storePlane f watch a width height smp tx ty words) := by
  unfold Dev.storePlane
  dsimp only
  split
  · refine (readNat_alike d f _ 9).bind (fun e c => ?_)
    split
    · exact put_alike e f watch _ _
    · split
      · exact (put_alike e f watch _ _).bind (fun e _ => put_alike e f watch _ _)
      · exact (put_alike e f watch _ _).bind (fun e _ => put_alike e f watch _ _)
  · refine (Got.Alike.mapGot (fun e i => ?_) _ d).bind (fun e _ => .ok e _)
    split
    · exact put_alike e f watch _ _
    · exact .ok e _

theorem clearSurface_alike (d : Dev) (o : Op) (a : Att) : Got.Alike d (d.clearSurface o a) := by
  unfold Dev.clearSurface
  dsimp only
  split
  · exact (put_alike d _ true _ _).bind (fun e _ => (Got.Alike.mapGot (fun e x => put_alike e _ true _ _) _ e).bind (fun e _ => .ok e _))
  · exact (Got.Alike.mapGot (fun e x => storePlane_alike e _ true a _ _ _ _ _ _) _ d).bind (fun e _ => .ok e _)

theorem resolveSurface_alike (d : Dev) (o : Op) (src dst : Att) : Got.Alike d (d.resolveSurface o src dst) := by
  unfold Dev.resolveSurface
  refine (Got.Alike.mapGot (fun e t => ?_) _ d).bind (fun e _ => .ok e _)
  exact (Got.Alike.mapGot (fun e s => loadPlane_alike e _ _ _ _ _ _ _ _) _ e).bind (fun e _ => storePlane_alike e _ true dst _ _ _ _ _ _)

end Sys2Proof.Machine
end

section
/-! DRAW_PASS, DISPATCH, CLEAR and RESOLVE (R185 to R203). -/

namespace Sys2Proof.Machine

/-! Records and programs read for a pass. -/

theorem waveProg_fetched {d d1 : Dev} {f addr : Nat} {g : WaveProg} (h : d.waveProg f addr = (d1, .ok g)) : Fetched d d1 := by
  unfold Dev.waveProg at h
  have read := readWords_fetched d f addr 2 .exec
  split at h
  · cases h
  · rename_i e ws words
    rw [words] at read
    split at h
    · split at h
      · cases h
        exact read
      · cases h
    · cases h

theorem readDraw_fetched {d d1 : Dev} {o : Op} {i : Nat} {r : Draw} (h : d.readDraw o i = (d1, .ok r)) : Fetched d d1 := by
  unfold Dev.readDraw at h
  have read := readWords_fetched d o.fn ((passDesc o.desc).drawAt i) 8 .read
  split at h
  · cases h
  · rename_i e ws words
    rw [words] at read
    split at h
    · cases h
    · split at h
      · cases h
      · rename_i vertex
        split at h
        · cases h
        · rename_i pixel
          cases h
          exact (read.trans (waveProg_fetched vertex)).trans (waveProg_fetched pixel)

theorem readDraws_fetched {d d1 : Dev} {o : Op} {n i : Nat} {l : List Draw} (h : d.readDraws o n i = (d1, .ok l)) : Fetched d d1 := by
  induction n generalizing d i l with
  | zero =>
    cases h
    exact .refl _
  | succ n ih =>
    unfold Dev.readDraws at h
    split at h
    · cases h
    · rename_i first
      split at h
      · cases h
      · rename_i rest
        cases h
        exact (readDraw_fetched first).trans (ih rest)

/-! Contexts (R192). -/

theorem Dev.contextFor_iff (d : Dev) (o : Op) : d.contextFor o = true ↔ d.raster.passes.length < 16 ∧
    ∀ x ∈ d.ops.takeWhile (fun x => x.id ≠ o.id), x.id.ring = o.id.ring → x.target = 0 → x.active = true → d.passOf x.id ≠ none := by
  simp [Dev.contextFor, List.any_eq_false, Option.isNone_iff_eq_none]

/-- A pass without blocks takes none of what the reserves and the pool leave. -/
theorem Dev.drawable_openPass (d : Dev) (o : Op) (f : Nat) : (d.openPass o 0 [] []).drawable f = d.drawable f := by
  have held : (d.openPass o 0 [] []).heldBy f = d.heldBy f := by
    simp only [Dev.heldBy, Dev.openPass, List.filter_append, List.map_append, List.foldl_append]
    rw [List.filter_singleton]
    cases decide ((Pass.begin o 0 [] []).fn = f) <;> rfl
  have blocks : (d.openPass o 0 [] []).heldBlocks = d.heldBlocks := by
    simp only [Dev.heldBlocks, Dev.openPass, List.flatMap_append]
    simp [Pass.begin, Dev.compBlocks, Dev.pc]
  simp only [Dev.drawable, held, Dev.freeBlocks, blocks]
  rfl

/-! Binning (R189, R200). -/

section
variable {d : Dev} {o : Op} {q : Pass}

theorem startBinning_waits (h : ((passDesc o.desc).order = 0 ∧ d.earlierRaster o = true) ∨ o.cancel = true) : d.startBinning o q = d := by
  unfold Dev.startBinning
  rw [if_pos (by simpa using h)]

section
variable (turn : (passDesc o.desc).order ≠ 0 ∨ d.earlierRaster o = false) (go : o.cancel = false)
include turn go

theorem startBinning_turn : ¬(((passDesc o.desc).order = 0 && d.earlierRaster o) || o.cancel) = true := by
  rcases turn with h | h <;> simp [h, go]

theorem startBinning_noReserve (empty : d.tlReserve o.fn = 0) : d.startBinning o q = (d.stopPass o.id).finish o.id 0x10 none := by
  unfold Dev.startBinning
  rw [if_neg (startBinning_turn turn go), if_pos empty]

theorem startBinning_noBlock (reserve : d.tlReserve o.fn ≠ 0) (empty : d.drawable o.fn = 0) : d.startBinning o q = d := by
  unfold Dev.startBinning
  rw [if_neg (startBinning_turn turn go), if_neg reserve, if_pos empty]

theorem startBinning_starts (reserve : d.tlReserve o.fn ≠ 0) (block : d.drawable o.fn ≠ 0) {d1 : Dev} {draws : List Draw}
    (read : d.readDraws o (passDesc o.desc).drawCount 0 = (d1, .ok draws)) :
    d.startBinning o q = d1.setPass { q with stage := 1, draws := draws, blocks := d1.freeBlocks.take 1, maxBlocks := 1 } := by
  unfold Dev.startBinning
  rw [if_neg (startBinning_turn turn go), if_neg reserve, if_neg block]
  simp only [read]

end
end

/-! The end of a pass. -/

theorem Dev.passOf_id {d : Dev} {id : OpId} {q : Pass} (h : d.passOf id = some q) : q.id = id := by simpa using List.find?_some h

theorem takeTiles_idle {d : Dev} {o : Op} {q : Pass} (h : d.passOf o.id = some q) (todo : q.todo = []) : d.takeTiles o = d := by
  have step (i : Nat) : (if !d.coreTakes o.id (passDesc o.desc) (i % 16) then d
      else match d.passOf o.id with
        | none => d
        | some q => match d.nextTile o q (i % 16) with | none => d | some (t, guard) => d.takeTile o q (i % 16) guard t) = d := by
    simp [h, Dev.nextTile, todo]
  unfold Dev.takeTiles
  split
  · rfl
  · exact List.foldl_fixed' step _

/-- A pass whose last segment is shaded ends (R201). -/
theorem shadeStep_ended {d : Dev} {o : Op} {q : Pass} (h : d.passOf o.id = some q) (todo : q.todo = []) (tiles : q.tiles = [])
    (last : q.prims.length ≤ q.segHi) : d.shadeStep o = d.endPass q 0 := by
  have taken : (if ((passDesc o.desc).order = 1 && d.earlierRaster o) = true then d else d.takeTiles o) = d := by
    rw [takeTiles_idle h todo, ite_self]
  unfold Dev.shadeStep
  simp only [taken, h, tiles, List.foldl_nil, todo, ne_eq, not_true_eq_false, decide_false, Bool.or_self, Bool.false_eq_true, if_false,
    if_neg (Nat.not_lt.mpr last)]

theorem setPass_only {d : Dev} {q : Pass} (h : d.raster.passes = [q]) : d.setPass q = d :=
  congrArg (fun l => { d with raster := { d.raster with passes := l } })
    (show d.raster.passes.map (fun r => if r.id = q.id then q else r) = d.raster.passes by rw [h, List.map_singleton, if_pos rfl])

/-- A dispatch whose groups have all run ends (R191). -/
theorem dispatchStep_ended {d : Dev} {o : Op} {q : Pass} (passes : d.raster.passes = [q]) (id : q.id = o.id) (todo : q.todo = []) (tiles : q.tiles = [])
    (last : ceilDiv (o.waveTotal q) o.unitSize ≤ q.segLo) : d.dispatchStep o = d.endPass q 0 := by
  have found : d.passOf o.id = some q := by simp [Dev.passOf, passes, id]
  have dropped : d.dropUnits o = d := by
    have same (p : Nat × TileRun → Bool) : { q with tiles := q.tiles.filter p } = q :=
      congrArg (fun l => { q with tiles := l }) (show q.tiles.filter p = q.tiles by rw [tiles, List.filter_nil])
    simp only [Dev.dropUnits, found, same]
    exact setPass_only passes
  have taken : d.takeUnits o = d := by
    unfold Dev.takeUnits
    split
    · rfl
    · refine List.foldl_fixed' (fun core => ?_) _
      simp [found, Pass.nextUnit, todo, Nat.not_lt.mpr last]
  have started : d.startWaves o = d := by simp [Dev.startWaves, found, tiles]
  simp [Dev.dispatchStep, found, dropped, taken, started, Pass.unitsDone, todo, tiles, last]

/-! The commands of a steady machine that hold their operation. -/

section
variable {s : State} {id : OpId} {o : Op}

theorem drawPass_becomes {d : Dev} (w : Works s id 0 1 4 o) (step : s.dev.passStep o = d) (m : EndsAlike s.dev d) : Becomes (.drawPass id) s d := by
  obtain ⟨steady, held, runs⟩ := w
  exact becomes_runOp (show execDrawPass id s = _ by unfold execDrawPass; rfl) steady (by simp only [held, runs, if_true, step]) m

theorem drawPass_does {d : Dev} {P : Dev → Prop} (w : Works s id 0 1 4 o) (step : s.dev.passStep o = d) (m : EndsAlike s.dev d)
    (writes : d.writes = []) (p : ∀ b, P { d with bus := b }) : Does (.drawPass id) s P := by
  obtain ⟨steady, held, runs⟩ := w
  exact does_runOp (show execDrawPass id s = _ by unfold execDrawPass; rfl) steady.1 (by simp only [held, runs, if_true, step]) m writes p

theorem grant_becomes {d : Dev} {q : Pass} (w : Works s id 0 1 4 o) (pass : s.dev.passOf id = some q)
    (step : (if q.stage = 0 then s.dev.startBinning o q else s.dev) = d) (m : EndsAlike s.dev d) : Becomes (.poolBlockGrant id) s d := by
  obtain ⟨steady, held, runs⟩ := w
  exact becomes_runOp (show execPoolBlockGrant id s = _ by unfold execPoolBlockGrant; rfl) steady
    (by simp only [held, pass, runs, Bool.true_and, decide_eq_true_eq, step]) m

theorem grant_none (w : Works s id 0 1 4 o) (pass : s.dev.passOf id = none) : Becomes (.poolBlockGrant id) s s.dev := by
  obtain ⟨steady, held, runs⟩ := w
  exact becomes_runOp (show execPoolBlockGrant id s = _ by unfold execPoolBlockGrant; rfl) steady (by simp only [held, pass]) (.refl _)

theorem dispatch_becomes {d : Dev} (w : Works s id 0 2 4 o) (step : s.dev.dispatchStep o = d) (m : EndsAlike s.dev d) : Becomes (.dispatch id) s d := by
  obtain ⟨steady, held, runs⟩ := w
  exact becomes_runOp (show execDispatch id s = _ by unfold execDispatch; rfl) steady (by simp only [held, runs, if_true, step]) m

theorem dispatch_does {d : Dev} {P : Dev → Prop} (w : Works s id 0 2 4 o) (step : s.dev.dispatchStep o = d) (m : EndsAlike s.dev d)
    (writes : d.writes = []) (p : ∀ b, P { d with bus := b }) : Does (.dispatch id) s P := by
  obtain ⟨steady, held, runs⟩ := w
  exact does_runOp (show execDispatch id s = _ by unfold execDispatch; rfl) steady.1 (by simp only [held, runs, if_true, step]) m writes p

end

/-! Commands without an operation. -/

theorem idle_becomes (s : State) (id : OpId) (k : s.Steady) :
    (s.dev.activeOp id 0 1 = none → Becomes (.drawPass id) s s.dev ∧ Becomes (.poolBlockGrant id) s s.dev) ∧
    (s.dev.activeOp id 0 2 = none → Becomes (.dispatch id) s s.dev) ∧ (s.dev.activeOp id 0 3 = none → Becomes (.clear id) s s.dev) ∧
    (s.dev.activeOp id 0 4 = none → Becomes (.resolve id) s s.dev) ∧ (s.dev.activeOp id 1 1 = none → Becomes (.present id) s s.dev) ∧
    (s.dev.activeOp id 1 2 = none → Becomes (.bufRegister id) s s.dev) ∧ (s.dev.activeOp id 1 3 = none → Becomes (.bufFree id) s s.dev) ∧
    (s.dev.activeOp id 2 1 = none → Becomes (.copy id) s s.dev) ∧ (s.dev.activeOp id 2 2 = none → Becomes (.fill id) s s.dev) ∧
    (s.dev.activeOp id 3 1 = none → Becomes (.vitrineWrite id) s s.dev) := by
  refine ⟨fun h => ⟨?_, ?_⟩, fun h => ?_, fun h => ?_, fun h => ?_, fun h => ?_, fun h => ?_, fun h => ?_, fun h => ?_, fun h => ?_, fun h => ?_⟩
  · exact becomes_runOp (show execDrawPass id s = _ by unfold execDrawPass; rfl) k (by simp only [h]) (.refl _)
  · exact becomes_runOp (show execPoolBlockGrant id s = _ by unfold execPoolBlockGrant; rfl) k (by simp only [h]) (.refl _)
  · exact becomes_runOp (show execDispatch id s = _ by unfold execDispatch; rfl) k (by simp only [h]) (.refl _)
  · exact becomes_runOp (show execClear id s = _ by unfold execClear; rfl) k (by simp only [h]) (.refl _)
  · exact becomes_runOp (show execResolve id s = _ by unfold execResolve; rfl) k (by simp only [h]) (.refl _)
  · exact becomes_run_same (show execPresent id s = _ by unfold execPresent; rfl) k (by simp only [h])
  · exact becomes_run_same (show execBufRegister id s = _ by unfold execBufRegister; rfl) k (by simp only [h])
  · exact becomes_run_same (show execBufFree id s = _ by unfold execBufFree; rfl) k (by simp only [h])
  · exact becomes_runOp (show execCopy id s = _ by unfold execCopy; rfl) k (by simp only [h]) (.refl _)
  · exact becomes_runOp (show execFill id s = _ by unfold execFill; rfl) k (by simp only [h]) (.refl _)
  · exact becomes_runOp (show execVitrineWrite id s = _ by unfold execVitrineWrite; rfl) k (by simp only [h]) (.refl _)

end Sys2Proof.Machine
end

section
/-! The statement on the raster operations (R185 to R203). -/

namespace Sys2Proof.Machine

section
variable {s : State} {id : OpId} {o : Op}

theorem Works.op {t k b : Nat} (w : Works s id t k b o) : s.dev.op id = some o := (Dev.activeOp_some w.2.1).1

theorem Works.op_id {t k b : Nat} (w : Works s id t k b o) : o.id = id := Dev.op_id w.op

theorem Works.writes {t k b : Nat} (w : Works s id t k b o) : s.dev.writes = [] := w.1.1.1.1

/-! The start of a DRAW_PASS. -/

theorem passStep_none (w : Works s id 0 1 4 o) (pass : s.dev.passOf id = none) : s.dev.passStep o = s.dev.startPass o := by
  simp only [Dev.passStep, w.op_id, pass]

/-- A DRAW_PASS that takes a context starts its binning there. -/
theorem passStep_opens (w : Works s id 0 1 4 o) (pass : s.dev.passOf id = none) (ok : passOk o.desc = true) (free : s.dev.contextFor o = true) :
    s.dev.passStep o = (s.dev.openPass o 0 [] []).startBinning o (Pass.begin o 0 [] []) := by
  rw [passStep_none w pass]
  simp [Dev.startPass, ok, free]

theorem openPass_endsAlike (d : Dev) (o : Op) (stage : Nat) (draws : List Draw) (blocks : List Nat) : EndsAlike d (d.openPass o stage draws blocks) := .refl d

theorem drawPass_starts {e : Dev} (w : Works s id 0 1 4 o) (pass : s.dev.passOf id = none) (he : e = s.dev.openPass o 0 [] []) :
    Becomes (.poolBlockGrant id) s s.dev ∧ (passOk o.desc = false → Becomes (.drawPass id) s (s.dev.finish id 0x10 none)) ∧
    (passOk o.desc = true → s.dev.contextFor o = false → Becomes (.drawPass id) s s.dev) ∧
    (passOk o.desc = true → s.dev.contextFor o = true →
      (((passDesc o.desc).order = 0 ∧ s.dev.earlierRaster o = true) ∨ o.cancel = true → Becomes (.drawPass id) s e) ∧
      (((passDesc o.desc).order ≠ 0 ∨ s.dev.earlierRaster o = false) → o.cancel = false →
        (s.dev.tlReserve o.fn = 0 → Becomes (.drawPass id) s ((e.stopPass id).finish id 0x10 none)) ∧
        (s.dev.tlReserve o.fn ≠ 0 → s.dev.drawable o.fn = 0 → Becomes (.drawPass id) s e) ∧
        (s.dev.tlReserve o.fn ≠ 0 → s.dev.drawable o.fn ≠ 0 → ∀ (d1 : Dev) (draws : List Draw),
          e.readDraws o (passDesc o.desc).drawCount 0 = (d1, .ok draws) →
          Becomes (.drawPass id) s
            (d1.setPass { Pass.begin o 0 [] [] with stage := 1, draws := draws, blocks := d1.freeBlocks.take 1, maxBlocks := 1 })))) := by
  have drawable : e.drawable o.fn = s.dev.drawable o.fn := he ▸ Dev.drawable_openPass s.dev o o.fn
  have reserve : e.tlReserve o.fn = s.dev.tlReserve o.fn := he ▸ rfl
  have earlier : e.earlierRaster o = s.dev.earlierRaster o := he ▸ rfl
  have alike : EndsAlike s.dev e := he ▸ openPass_endsAlike s.dev o 0 [] []
  refine ⟨grant_none w pass, fun bad => ?_, fun ok busy => ?_, fun ok free => ?_⟩
  · exact drawPass_becomes w (by simp [passStep_none w pass, Dev.startPass, bad, w.op_id]) (.refl _)
  · exact drawPass_becomes w (by simp [passStep_none w pass, Dev.startPass, ok, busy]) (.refl _)
  have opens := passStep_opens w pass ok free
  rw [← he] at opens
  rw [← drawable, ← reserve, ← earlier]
  refine ⟨fun waits => drawPass_becomes w (opens.trans (startBinning_waits waits)) alike, fun turn go => ⟨fun empty => ?_, fun some empty => ?_, ?_⟩⟩
  · exact drawPass_becomes w (by rw [opens, startBinning_noReserve turn go empty, w.op_id]) alike
  · exact drawPass_becomes w (opens.trans (startBinning_noBlock turn go some empty)) alike
  · intro some block d1 draws read
    exact drawPass_becomes w (opens.trans (startBinning_starts turn go some block read)) (alike.trans (readDraws_fetched read).endsAlike)

/-- A grant starts the binning of a pass that waits for its first block. -/
theorem grant_starts {q : Pass} (w : Works s id 0 1 4 o) (pass : s.dev.passOf id = some q) :
    (q.stage ≠ 0 → Becomes (.poolBlockGrant id) s s.dev) ∧
    (q.stage = 0 → ((passDesc o.desc).order ≠ 0 ∨ s.dev.earlierRaster o = false) → o.cancel = false → s.dev.tlReserve o.fn ≠ 0 →
      (s.dev.drawable o.fn = 0 → Becomes (.poolBlockGrant id) s s.dev) ∧
      (s.dev.drawable o.fn ≠ 0 → ∀ (d1 : Dev) (draws : List Draw), s.dev.readDraws o (passDesc o.desc).drawCount 0 = (d1, .ok draws) →
        Becomes (.poolBlockGrant id) s (d1.setPass { q with stage := 1, draws := draws, blocks := d1.freeBlocks.take 1, maxBlocks := 1 }))) := by
  refine ⟨fun later => grant_becomes w pass (if_neg later) (.refl _), fun first turn go reserve => ⟨fun empty => ?_, fun block d1 draws read => ?_⟩⟩
  · exact grant_becomes w pass ((if_pos first).trans (startBinning_noBlock turn go reserve empty)) (.refl _)
  · exact grant_becomes w pass ((if_pos first).trans (startBinning_starts turn go reserve block read)) (readDraws_fetched read).endsAlike

/-! The end of a DRAW_PASS. -/

theorem drawPass_lost {q : Pass} (w : Works s id 0 1 4 o) (pass : s.dev.passOf id = some q) (lost : s.dev.lostPass q = true) :
    Does (.drawPass id) s (fun e =>
      e.op id = some { o with phase := .finished, status := 0x21, result := none } ∧ e.raster.passes = s.dev.raster.passes.filter (fun p => p.id ≠ id) ∧
      e.raster.waves = s.dev.raster.waves.filter (fun x => x.2.op ≠ id) ∧ { e with ops := s.dev.ops, raster := s.dev.raster, bus := s.dev.bus } = s.dev) := by
  refine drawPass_does w (d := (s.dev.stopPass id).finish id 0x21 none) (by simp only [Dev.passStep, w.op_id, pass, lost, if_true]) (.refl _) w.writes (fun b => ?_)
  exact ⟨Dev.op_finish_same (d := s.dev.stopPass id) w.op 0x21 none, rfl, rfl, rfl⟩

theorem drawPass_ends {q : Pass} (w : Works s id 0 1 4 o) (pass : s.dev.passOf id = some q) (kept : s.dev.lostPass q = false) (stage : q.stage = 2)
    (todo : q.todo = []) (tiles : q.tiles = []) (last : q.prims.length ≤ q.segHi) :
    Does (.drawPass id) s (fun e => ∃ time, e.op id = some
        { o with
          phase := .finished, status := 0
          result := some (BitVec.ofNat 64
            (Nat.min q.resolves 255 * 2 ^ 56 + Nat.min q.maxBlocks 255 * 2 ^ 48 + Nat.min q.reexec 255 * 2 ^ 40 + Nat.min time (2 ^ 40 - 1))) } ∧
      e.raster.passes = s.dev.raster.passes.filter (fun p => p.id ≠ id) ∧
      { e with ops := s.dev.ops, raster := s.dev.raster, free := s.dev.free, bus := s.dev.bus } = s.dev) := by
  have here : s.dev.passOf o.id = some q := w.op_id ▸ pass
  have step : s.dev.passStep o = s.dev.endPass q 0 := by
    simp only [Dev.passStep, here, kept, stage, Bool.false_eq_true, if_false, OfNat.ofNat_ne_zero, OfNat.ofNat_ne_one,
      shadeStep_ended here todo tiles last]
  refine drawPass_does w step (.refl _) w.writes (fun b => ⟨Config.measured s.dev.free, ?_⟩)
  simp only [Dev.endPass, Dev.passOf_id pass]
  exact ⟨Dev.op_finish_same (d := ({ s.dev with free := s.dev.free + 1 } : Dev).stopPass id) w.op 0 _, rfl, rfl⟩

/-! DISPATCH. -/

theorem dispatch_starts (w : Works s id 0 2 4 o) (pass : s.dev.passOf id = none) :
    (dispatchOk o = false → Becomes (.dispatch id) s (s.dev.finish id 0x10 none)) ∧
    (dispatchOk o = true → s.dev.contextFor o = false → Becomes (.dispatch id) s s.dev) ∧
    (dispatchOk o = true → s.dev.contextFor o = true → ∀ (d1 : Dev) (g : WaveProg), s.dev.waveProg o.fn (fld (o.word 1) 0 48) = (d1, .ok g) →
      Does (.dispatch id) s (fun e =>
        e.raster.passes = s.dev.raster.passes ++ [Pass.begin o 1 [{ words := [], vertex := g, pixel := g }] []] ∧
        { e with raster := s.dev.raster, fns := s.dev.fns, free := s.dev.free, bus := s.dev.bus } = s.dev ∧ e.raster.waves = s.dev.raster.waves)) := by
  have starts : s.dev.dispatchStep o = s.dev.startDispatch o := by simp only [Dev.dispatchStep, w.op_id, pass]
  refine ⟨fun bad => ?_, fun ok busy => ?_, fun ok free d1 g read => ?_⟩
  · exact dispatch_becomes w (by simp [starts, Dev.startDispatch, bad, w.op_id]) (.refl _)
  · exact dispatch_becomes w (by simp [starts, Dev.startDispatch, ok, busy]) (.refl _)
  · have fetched := waveProg_fetched read
    have step : s.dev.dispatchStep o = d1.openPass o 1 [{ words := [], vertex := g, pixel := g }] [] := by simp [starts, Dev.startDispatch, ok, free, read]
    refine dispatch_does w step fetched.endsAlike ((congrArg Dev.writes fetched.1 :).trans w.writes) (fun b => ⟨?_, ?_, ?_⟩)
    · exact (congrArg (fun x : Dev => x.raster.passes ++ [Pass.begin o 1 [{ words := [], vertex := g, pixel := g }] []]) fetched.1 :)
    · exact (congrArg (fun x : Dev => { x with raster := s.dev.raster }) fetched.1 :)
    · exact (congrArg (fun x : Dev => x.raster.waves) fetched.1 :)

theorem dispatch_ends {q : Pass} (w : Works s id 0 2 4 o) (passes : s.dev.raster.passes = [q]) (same : q.id = id) (todo : q.todo = []) (tiles : q.tiles = [])
    (last : (fld (o.word 0) 40 32 + 15) / 16 ≤ q.segLo) :
    Does (.dispatch id) s (fun e => (e.op id).map (fun x => (x.phase, x.status)) = some (.finished, 0) ∧ e.raster.passes = []) := by
  have kind : o.kind = 2 := BitVec.eq_of_toNat_eq (Dev.activeOp_some w.2.1).2.2.2
  have groups : ceilDiv (o.waveTotal q) o.unitSize ≤ q.segLo := by simpa [ceilDiv, Op.waveTotal, Op.unitSize, kind] using last
  refine dispatch_does w (dispatchStep_ended passes (same.trans w.op_id.symm) todo tiles groups) (.refl _) w.writes (fun b => ?_)
  have ended := Dev.op_finish_same (d := ({ s.dev with free := s.dev.free + 1 } : Dev).stopPass id) w.op 0
    (some (passResult q.resolves q.maxBlocks q.reexec (Config.measured s.dev.free)))
  subst same
  exact ⟨congrArg (Option.map fun x : Op => (x.phase, x.status)) ended,
    show s.dev.raster.passes.filter (fun p => p.id ≠ q.id) = [] by simp [passes]⟩

/-- The registers of a compute wave at entry (R169). -/
theorem computeWave_registers (o : Op) (q : Pass) (unit core n l : Nat) (h : l < 64) :
    (computeWave o q unit core n).seq.bank.rd 1 = BitVec.ofNat 72 o.addr.toNat ∧ (computeWave o q unit core n).seq.bank.rd 2 = BitVec.ofNat 72 (fld (o.word 2) 0 48) ∧
    (computeWave o q unit core n).seq.bank.rd 3 = BitVec.ofNat 72 n ∧
    (((computeWave o q unit core n).lanes[l]?).map (fun x => (x.act, tget x.v 0 0, tget x.v 1 0))) = some (1, BitVec.ofNat 72 (64 * n + l), 0) := by
  refine ⟨rfl, rfl, rfl, ?_⟩
  simp only [computeWave, List.getElem?_map, List.getElem?_range h, Option.map_some]
  rfl

/-! CLEAR and RESOLVE. -/

/-- R190's result of an operation without waves. -/
theorem endPlain_ok (o : Op) (d : Dev) :
    Dev.endPlain o (d, .ok ()) = ({ d with free := d.free + 1 } : Dev).finish o.id 0 (some (Nat.min (Config.measured d.free) (2 ^ 40 - 1))) := by
  simp [Dev.endPlain, passResult]

theorem clear_becomes {d : Dev} (w : Works s id 0 3 4 o)
    (step : (if !recordOk o o.desc then s.dev.finish id 0x10 none else if !s.dev.contextFor o then s.dev
      else Dev.endPlain o (s.dev.clearSurface o (attOf o.desc))) = d) (m : EndsAlike s.dev d) : Becomes (.clear id) s d := by
  obtain ⟨steady, held, runs⟩ := w
  exact becomes_runOp (show execClear id s = _ by unfold execClear; rfl) steady
    (by simp only [held, runs, Bool.not_true, Bool.false_eq_true, if_false, step]) m

theorem clear_starts (w : Works s id 0 3 4 o) :
    (recordOk o o.desc = false → Becomes (.clear id) s (s.dev.finish id 0x10 none)) ∧
    (recordOk o o.desc = true → s.dev.contextFor o = false → Becomes (.clear id) s s.dev) ∧
    (recordOk o o.desc = true → s.dev.contextFor o = true → ∀ d1 : Dev, s.dev.clearSurface o (attOf o.desc) = (d1, .ok ()) →
      Becomes (.clear id) s (({ d1 with free := d1.free + 1 } : Dev).finish id 0 (some (Nat.min (Config.measured d1.free) (2 ^ 40 - 1))))) := by
  refine ⟨fun bad => ?_, fun ok busy => ?_, fun ok free d1 cleared => ?_⟩
  · exact clear_becomes w (by simp [bad]) (.refl _)
  · exact clear_becomes w (by simp [ok, busy]) (.refl _)
  · have alike := clearSurface_alike s.dev o (attOf o.desc)
    rw [cleared] at alike
    exact clear_becomes w (by simp [ok, free, cleared, endPlain_ok, w.op_id]) (EndsAlike.trans alike (.refl d1))

/-- A clear whose access fails ends with the status of the cause and EV_FAULT (R66). -/
theorem clear_faults (w : Works s id 0 3 4 o) (ok : recordOk o o.desc = true) (free : s.dev.contextFor o = true) {d1 : Dev} {cause va : Nat}
    (failed : s.dev.clearSurface o (attOf o.desc) = (d1, .error (cause, va))) :
    Does (.clear id) s (fun e => (e.op id).map (fun x => (x.phase, x.status, x.result)) = (d1.op id).map (fun _ => (.finished, causeStatus cause, none)) ∧
      bit (e.fn o.fn).evStatus 5 = true) := by
  have alike := clearSurface_alike s.dev o (attOf o.desc)
  rw [failed] at alike
  obtain ⟨t, runs, pending, is⟩ := clear_becomes w (d := d1.opFault id o.fn cause va) (by simp [ok, free, failed, Dev.endPlain, w.op_id])
    (EndsAlike.trans alike ((accessFault_endsAlike d1 _ _ _ _).trans (finish_endsAlike _ _ _ _)))
  obtain ⟨-, -, -, frame⟩ := is
  refine ⟨t, runs, pending, ?_, ?_⟩
  · have same : t.dev.op id = (d1.opFault id o.fn cause va).op id := (congrArg (fun x : Dev => x.op id) frame :)
    rw [same, Dev.opFault, Dev.op_finish, accessFault_op]
    cases found : d1.op id with
    | none => rfl
    | some x => simp [Dev.op_id found, Op.ended]
  · have same : t.dev.fn o.fn = (d1.opFault id o.fn cause va).fn o.fn := (congrArg (fun x : Dev => x.fn o.fn) frame :)
    rw [same]
    exact accessFault_evStatus d1 o.fn cause _ va

section
variable {a b : Att} (w : Works s id 0 4 4 o) (ha : a = attOf (o.desc.take 4)) (hb : b = attOf (o.desc.drop 4))
include w ha hb

theorem resolve_becomes {d : Dev}
    (step : (if !recordOk o (o.desc.take 4) || !recordOk o (o.desc.drop 4) || (a.format = 0x50) != (b.format = 0x50) then s.dev.finish id 0x10 none
      else if !s.dev.contextFor o then s.dev else Dev.endPlain o (s.dev.resolveSurface o a b)) = d) (m : EndsAlike s.dev d) : Becomes (.resolve id) s d := by
  obtain ⟨steady, held, runs⟩ := w
  subst ha hb
  exact becomes_runOp (show execResolve id s = _ by unfold execResolve; rfl) steady
    (by simp only [held, runs, Bool.not_true, Bool.false_eq_true, if_false]; exact step) m

theorem resolve_starts :
    ((recordOk o (o.desc.take 4) = false ∨ recordOk o (o.desc.drop 4) = false ∨ (a.format = 0x50 ↔ b.format ≠ 0x50)) →
      Becomes (.resolve id) s (s.dev.finish id 0x10 none)) ∧
    (recordOk o (o.desc.take 4) = true → recordOk o (o.desc.drop 4) = true → (a.format = 0x50 ↔ b.format = 0x50) → s.dev.contextFor o = false →
      Becomes (.resolve id) s s.dev) ∧
    (recordOk o (o.desc.take 4) = true → recordOk o (o.desc.drop 4) = true → (a.format = 0x50 ↔ b.format = 0x50) → s.dev.contextFor o = true → ∀ d1 : Dev,
      s.dev.resolveSurface o a b = (d1, .ok ()) →
      Becomes (.resolve id) s (({ d1 with free := d1.free + 1 } : Dev).finish id 0 (some (Nat.min (Config.measured d1.free) (2 ^ 40 - 1))))) := by
  refine ⟨fun bad => ?_, fun src dst fit busy => ?_, fun src dst fit free d1 resolved => ?_⟩
  · refine resolve_becomes w ha hb (if_pos ?_) (.refl _)
    rcases bad with bad | bad | bad <;> simp [bad]
  · exact resolve_becomes w ha hb (by simp [src, dst, fit, busy]) (.refl _)
  · have alike := resolveSurface_alike s.dev o a b
    rw [resolved] at alike
    exact resolve_becomes w ha hb (by simp [src, dst, fit, free, resolved, endPlain_ok, w.op_id]) (EndsAlike.trans alike (.refl d1))

end

end

/-- Settles O35, clause by clause: the operations, the contexts, the start and the end of a DRAW_PASS and of a DISPATCH, CLEAR and RESOLVE. -/
theorem rasterOperations : Obligations.RasterOperations := by
  refine ⟨idle_becomes, fun d id status r => ⟨fun o h => Dev.op_finish_same h status r, fun j h => Dev.op_finish_ne d h status r, rfl⟩,
    fun d id t k o => Dev.activeOp_some, Dev.contextFor_iff, fun s id o e w pass he => ?_, fun s id o q => grant_starts,
    fun s id o q w pass => ⟨drawPass_lost w pass, drawPass_ends w pass⟩, fun s id o => dispatch_starts, fun s id o q => dispatch_ends, computeWave_registers,
    fun s id o w => ?_, fun s id o a b => resolve_starts⟩
  · have same := w.op_id
    subst same
    obtain ⟨grant, range, busy, starts⟩ := drawPass_starts w pass he
    refine ⟨grant, range, busy, fun ok free => ?_⟩
    obtain ⟨waits, goes⟩ := starts ok free
    refine ⟨waits, fun turn go => ?_⟩
    obtain ⟨noReserve, noBlock, block⟩ := goes turn go
    exact ⟨noReserve, noBlock, fun reserve drawable d1 draws read q hq => hq ▸ block reserve drawable d1 draws read⟩
  · obtain ⟨range, busy, ok⟩ := clear_starts w
    exact ⟨range, busy, ok, fun rec free d1 cause va failed => clear_faults w rec free failed⟩

end Sys2Proof.Machine
end

section
/-! What faults, reads and the rings' own operations leave alone (R43, R85, R91, R95, R133). -/

namespace Sys2Proof.Machine

/-! Faults. -/

/-- What the record of a fault may change: the registers of functions and the messages sent. No reset begins or ends. -/
def Signalled (d e : Dev) : Prop := { e with fns := d.fns, msgs := d.msgs } = d ∧ ∀ f, (e.fn f).rst.isSome = (d.fn f).rst.isSome

namespace Signalled

theorem refl (d : Dev) : Signalled d d := ⟨rfl, fun _ => rfl⟩

theorem trans {d e r : Dev} (h : Signalled d e) (k : Signalled e r) : Signalled d r := by
  obtain ⟨frame, resets⟩ := h
  obtain ⟨frame', resets'⟩ := k
  exact ⟨(congrArg (fun x : Dev => { x with fns := d.fns, msgs := d.msgs }) frame' :).trans frame, fun f => (resets' f).trans (resets f)⟩

/-- Registers of one function replaced that say the same of its reset. -/
theorem setFn (d : Dev) (f : Nat) (x : Fn) (h : x.rst.isSome = (d.fn f).rst.isSome) : Signalled d (d.setFn f x) := by
  refine ⟨rfl, fun g => ?_⟩
  rw [Dev.fn_setFn]
  by_cases e : f = g
  · rw [if_pos e, h, e]
  · rw [if_neg e]

theorem endsAlike {d e : Dev} (h : Signalled d e) : EndsAlike d e :=
  ⟨(congrArg Dev.mem h.1 :), (congrArg Dev.update h.1 :), (congrArg Dev.safety h.1 :)⟩

theorem ring {d e : Dev} (h : Signalled d e) (g : Nat) : e.ring g = d.ring g := (congrArg (fun x : Dev => x.ring g) h.1 :)

end Signalled

section
variable (d : Dev) (f b cause source ring va : Nat)

theorem sendVector_signalled : Signalled d (d.sendVector f b) := by
  unfold Dev.sendVector
  split
  · exact ⟨rfl, fun _ => rfl⟩
  · exact .setFn d f _ rfl

theorem setEv_signalled : Signalled d (d.setEv f b) := by
  have set := Signalled.setFn d f { d.fn f with evStatus := setBit (d.fn f).evStatus b true } rfl
  unfold Dev.setEv
  dsimp only
  split
  · exact set.trans (sendVector_signalled _ f _)
  · exact set

theorem faultRec_signalled : Signalled d (d.faultRec f cause source ring va) := by
  unfold Dev.faultRec
  refine (Signalled.setFn d f _ ?_).trans (setEv_signalled _ f 5)
  split
  · rfl
  · exact Option.isSome_map

theorem accessFault_signalled : Signalled d (d.accessFault f cause source ring va) := by
  unfold Dev.accessFault
  split
  · exact setEv_signalled d f 5
  · exact faultRec_signalled d f cause source ring va

theorem excFault_signalled : Signalled d (d.excFault f cause source ring va) := by
  unfold Dev.excFault
  split
  · exact .refl d
  · exact accessFault_signalled d f cause source ring va

/-- The fault of an access raises EV_FAULT, whatever made the access (R43). -/
theorem accessFault_raises : bit ((d.accessFault f cause source ring va).fn f).evStatus 5 = true := by
  unfold Dev.accessFault Dev.faultRec
  split <;> exact setEv_evStatus _ f (by decide)

/-- A program's fault raises EV_FAULT, but for data that is lost (R77). -/
theorem excFault_raises {cause : Nat} (h : cause ≠ 0xE) : bit ((d.excFault f cause source ring va).fn f).evStatus 5 = true := by
  rw [Dev.excFault, if_neg h]
  exact accessFault_raises d f cause source ring va

end

/-! Rings. -/

/-- What the ledger's reads, its faults and changes of rings may alter. -/
def LedgerOnly (d e : Dev) : Prop := { e with rings := d.rings, fns := d.fns, msgs := d.msgs, free := d.free, bus := d.bus } = d

namespace LedgerOnly

theorem trans {d e r : Dev} (h : LedgerOnly d e) (k : LedgerOnly e r) : LedgerOnly d r :=
  (congrArg (fun x : Dev => { x with rings := d.rings, fns := d.fns, msgs := d.msgs, free := d.free, bus := d.bus }) k :).trans h

theorem setRing (d : Dev) (g : Nat) (x : Ring) : LedgerOnly d (d.setRing g x) := rfl

theorem endsAlike {d e : Dev} (h : LedgerOnly d e) : EndsAlike d e :=
  ⟨(congrArg Dev.mem h :), (congrArg Dev.update h :), (congrArg Dev.safety h :)⟩

theorem writes {d e : Dev} (h : LedgerOnly d e) : e.writes = d.writes := (congrArg Dev.writes h :)

/-- Without messages sent. -/
theorem quietly {d e : Dev} (h : LedgerOnly d e) (m : e.msgs = d.msgs) : { e with rings := d.rings, fns := d.fns, free := d.free, bus := d.bus } = d := by
  unfold LedgerOnly at h
  rw [← m] at h
  exact h

end LedgerOnly

theorem Fetched.ledgerOnly {d e : Dev} (h : Fetched d e) : LedgerOnly d e := by
  rw [h.eq]
  rfl

theorem Fetched.ring {d e : Dev} (h : Fetched d e) (g : Nat) : e.ring g = d.ring g := by
  rw [h.eq]
  rfl

theorem Fetched.rst {d e : Dev} (h : Fetched d e) (f : Nat) : (e.fn f).rst = (d.fn f).rst := (congrArg Fn.rst (h.fn f) :)
theorem Fetched.gen {d e : Dev} (h : Fetched d e) (f : Nat) : (e.fn f).gen = (d.fn f).gen := (congrArg Fn.gen (h.fn f) :)

theorem Signalled.ledgerOnly {d e : Dev} (h : Signalled d e) : LedgerOnly d e :=
  (congrArg (fun x : Dev => { x with rings := d.rings, free := d.free, bus := d.bus }) h.1 :)

theorem Stored.ring {d e : Dev} (h : Stored d e) (g : Nat) : e.ring g = d.ring g := (congrArg (fun x : Dev => x.ring g) h :)

/-- A store through the IOMMU, and one that faults, change no more than stores may. -/
theorem writeV_stored {d d1 : Dev} {f va : Nat} {bytes : List Byte} {x : Except (Nat × Nat) Unit} (h : d.writeV f va bytes = (d1, x)) :
    Stored d d1 := by
  have stored := writeVia_stored d f va bytes true
  rw [show d.writeVia f va bytes true = (d1, x) from h] at stored
  exact stored

/-- A ring after a change of another. -/
theorem Dev.ring_setRing_ne (d : Dev) {g h : Nat} (ne : h ≠ g) (x : Ring) : (d.setRing g x).ring h = d.ring h := by
  rw [Dev.ring_setRing, if_neg (fun e => ne e.symm)]

/-! How commands end. -/

theorem Does.imp {i : Instr} {s : State} {P Q : Dev → Prop} (h : Does i s P) (k : ∀ e, P e → Q e) : Does i s Q := by
  obtain ⟨t, runs, pending, p⟩ := h
  exact ⟨t, runs, pending, k _ p⟩

/-- A device that a command leaves with d has the rings of d. -/
theorem Is.ring {d e : Dev} (h : Is d e) (g : Nat) : e.ring g = d.ring g := by
  obtain ⟨-, -, -, frame⟩ := h
  exact (congrArg (fun x : Dev => x.ring g) frame :)

/-- The device but for its lattice, to which a command has passed its accesses. -/
def Passed (d e : Dev) : Prop := { e with bus := d.bus } = d

namespace Passed
variable {d e : Dev} (h : Passed d e)
include h

theorem ring (g : Nat) : e.ring g = d.ring g := (congrArg (fun x : Dev => x.ring g) h :)
theorem fn (f : Nat) : e.fn f = d.fn f := (congrArg (fun x : Dev => x.fn f) h :)

theorem ledgerOnly {c : Dev} (k : LedgerOnly c d) : LedgerOnly c e :=
  (congrArg (fun x : Dev => { x with rings := c.rings, fns := c.fns, msgs := c.msgs, free := c.free, bus := c.bus }) h :).trans k

end Passed

section
variable {i : Instr} {s : State} {who : Nat × Nat} {h : Dev → Dev} {d : Dev}

/-- A command of a steady machine that leaves device d. -/
theorem becomes_runFrom (x : exec i s = runFrom who h s) (k : s.Steady) (hd : h s.dev = d) (m : EndsAlike s.dev d) : Becomes i s d :=
  does_is x k.1 hd m (.inr k.2)

/-- A command that stores nothing leaves its device d, with the accesses passed to the lattice. -/
theorem does_passed (x : exec i s = runFrom who h s) (k : s.Steady) (hd : h s.dev = d) (m : EndsAlike s.dev d) (w : d.writes = s.dev.writes) :
    Does i s (Passed d) := by
  subst hd
  exact does_runFrom_noStores x k.1 m (w.trans k.1.1.1) rfl

end

end Sys2Proof.Machine
end

section
/-! Writes to the ring registers (R86 to R89, R122, R158). -/

namespace Sys2Proof.Machine

/-! Records written. -/

section
variable (d : Dev) (g : Nat)

/-- Entries released: of the ring, the entries and the shared count alone have changed (R94). -/
theorem releaseEntries_ring :
    { (d.releaseEntries g).ring g with entries := (d.ring g).entries, shared := (d.ring g).shared } = d.ring g := by
  unfold Dev.releaseEntries
  dsimp only
  split
  · rfl
  · exact (congrArg (fun r : Ring => { r with entries := (d.ring g).entries, shared := (d.ring g).shared }) (Dev.ring_setRing_same d g _) :)

theorem releaseEntries_frame : { d.releaseEntries g with rings := d.rings, ops := d.ops } = d := by
  unfold Dev.releaseEntries
  dsimp only
  split <;> rfl

/-- A record counted: beside the entries and the shared count, CMPL_TAIL, DONE_ACCESSION and the kept record (R86, R160). -/
theorem recordDone_ring (last : Nat) :
    { (d.recordDone g last).ring g with entries := (d.ring g).entries, shared := (d.ring g).shared } =
      { d.ring g with cmplTail := (d.ring g).cmplTail + 1, doneAcc := last, kept := none, lost := false } := by
  have counted := releaseEntries_ring (d.setRing g
    { d.ring g with
      cmplTail := (d.ring g).cmplTail + 1, doneAcc := last, kept := none, lost := false
      entries := (d.ring g).entries.map (fun e => if e.acc ≤ last then { e with covered := true } else e) }) g
  rw [Dev.ring_setRing_same] at counted
  exact (congrArg (fun r : Ring => { r with entries := (d.ring g).entries, shared := (d.ring g).shared }) counted :)

theorem recordDone_frame (last : Nat) : { d.recordDone g last with rings := d.rings, ops := d.ops } = d :=
  (congrArg (fun x : Dev => { x with rings := d.rings }) (releaseEntries_frame _ g) :)

/-- The event of a record: raised when a notice or the interval asks for it, else its wait begun (R90). -/
theorem recordEvent_raised {notify : Bool} (h : notify = true ∨ (d.ring g).every.toNat ≤ (d.ring g).sinceEv) :
    d.recordEvent g notify = (d.setRing g { d.ring g with sinceEv := 0, oldestRec := none }).setEv (ringFn g) (ringKind g) :=
  if_pos (by simpa using h)

theorem recordEvent_waits (h : (d.ring g).sinceEv < (d.ring g).every.toNat) :
    d.recordEvent g false = d.setRing g { d.ring g with sinceEv := (d.ring g).sinceEv + 1, oldestRec := some ((d.ring g).oldestRec.getD d.now) } :=
  if_neg (by simpa using h)

/-- Of the ring, what the wait for the event counts alone has changed. -/
theorem recordEvent_ring (notify : Bool) :
    { (d.recordEvent g notify).ring g with sinceEv := (d.ring g).sinceEv, oldestRec := (d.ring g).oldestRec } = d.ring g := by
  unfold Dev.recordEvent
  dsimp only
  split
  · rw [(setEv_signalled _ _ _).ring, Dev.ring_setRing_same]
  · rw [Dev.ring_setRing_same]

theorem recordEvent_ledgerOnly (notify : Bool) : LedgerOnly d (d.recordEvent g notify) := by
  unfold Dev.recordEvent
  dsimp only
  split
  · exact (LedgerOnly.setRing d g _).trans (setEv_signalled _ _ _).ledgerOnly
  · exact .setRing d g _

variable {d g} {d1 : Dev} {rec : W144} {last : Nat} {notify : Bool}

theorem writeRecord_written (h : d.writeV (ringFn g) (d.ring g).recordAddr (toBytes 18 rec.toNat) = (d1, .ok ())) :
    d.writeRecord g rec last notify = (d1.recordDone g last).recordEvent g notify := by simp [Dev.writeRecord, h]

theorem writeRecord_kept {cause va : Nat} (h : d.writeV (ringFn g) (d.ring g).recordAddr (toBytes 18 rec.toNat) = (d1, .error (cause, va))) :
    d.writeRecord g rec last notify =
      (d1.accessFault (ringFn g) cause srcRecord (ringKind g) va).setRing g
        { d.ring g with kept := some rec, lost := d1.resetting (ringFn g), err := setBit (d.ring g).err 1 true } := by
  have fault := accessFault_signalled d1 (ringFn g) cause srcRecord (ringKind g) va
  simp only [Dev.writeRecord, h, Dev.resetting, fault.2, fault.ring, (writeV_stored h).ring]

end

/-- What a record that is written leaves of its ring, beside the entries and what the wait for the event counts (R86, R160). -/
theorem recorded_ring (d : Dev) (g last : Nat) (notify : Bool) :
    { ((d.recordDone g last).recordEvent g notify).ring g with
      entries := (d.ring g).entries, shared := (d.ring g).shared, sinceEv := (d.ring g).sinceEv, oldestRec := (d.ring g).oldestRec } =
      { d.ring g with cmplTail := (d.ring g).cmplTail + 1, doneAcc := last, kept := none, lost := false } := by
  refine Eq.trans ?_ (recordDone_ring d g last)
  have counted := recordEvent_ring (d.recordDone g last) g notify
  have done := congrArg (fun r : Ring => (r.sinceEv, r.oldestRec)) (recordDone_ring d g last)
  obtain ⟨since, oldest⟩ := Prod.mk.inj done
  rw [show (d.ring g).sinceEv = _ from since.symm, show (d.ring g).oldestRec = _ from oldest.symm]
  exact (congrArg (fun r : Ring => { r with entries := (d.ring g).entries, shared := (d.ring g).shared }) counted :)

/-- A record write leaves the end of commands alone, and HEAD and HEAD_INVALID of its ring. -/
theorem writeRecord_stays (d : Dev) (g : Nat) (rec : W144) (last : Nat) (notify : Bool) :
    EndsAlike d (d.writeRecord g rec last notify) ∧ ((d.writeRecord g rec last notify).ring g).head = (d.ring g).head ∧
      bit ((d.writeRecord g rec last notify).ring g).err 3 = bit (d.ring g).err 3 := by
  rcases h : d.writeV (ringFn g) (d.ring g).recordAddr (toBytes 18 rec.toNat) with ⟨d1, ⟨cause, va⟩ | ⟨⟩⟩
  · rw [writeRecord_kept h]
    refine ⟨(writeV_stored h).endsAlike.trans ((accessFault_signalled d1 _ _ _ _ _).endsAlike.trans (.refl _)), by simp, ?_⟩
    rw [Dev.ring_setRing_same, bit_setBit _ _ _ _ (by decide)]
    rfl
  · rw [writeRecord_written h, ← (writeV_stored h).ring g]
    have ring := recorded_ring d1 g last notify
    have frame := recordDone_frame d1 g last
    have done : EndsAlike d1 (d1.recordDone g last) :=
      ⟨(congrArg Dev.mem frame :), (congrArg Dev.update frame :), (congrArg Dev.safety frame :)⟩
    exact ⟨(writeV_stored h).endsAlike.trans (done.trans (recordEvent_ledgerOnly _ g notify).endsAlike), (congrArg Ring.head ring :),
      (congrArg (fun r : Ring => bit r.err 3) ring :)⟩

theorem retryRecord_unkept {d : Dev} {g : Nat} (h : (d.ring g).kept = none) : d.retryRecord g = d := by simp [Dev.retryRecord, h]

theorem retryRecord_kept {d : Dev} {g : Nat} {rec : W144} (kept : (d.ring g).kept = some rec) (lost : (d.ring g).lost = false) :
    d.retryRecord g = d.writeRecord g rec (d.recordLast g rec).1 (d.recordLast g rec).2 := by simp [Dev.retryRecord, kept, lost]

theorem retryRecord_stays (d : Dev) (g : Nat) :
    EndsAlike d (d.retryRecord g) ∧ ((d.retryRecord g).ring g).head = (d.ring g).head ∧ bit ((d.retryRecord g).ring g).err 3 = bit (d.ring g).err 3 := by
  unfold Dev.retryRecord
  split
  · exact writeRecord_stays d g _ _ _
  · exact ⟨.refl d, rfl, rfl⟩

/-! Doorbells, heads and control. -/

section
variable {d : Dev} {g : Nat} {t : BitVec 16} {v : BitVec 32}

theorem doorbell_taken (h : span (d.ring g).tail t ≤ span (d.ring g).tail ((d.ring g).acc + BitVec.ofNat 16 (d.ring g).depth)) :
    d.doorbell g t = d.setRing g { d.ring g with tail := t, curOffered := (d.ring g).curOffered + span (d.ring g).tail t } := if_pos h

theorem doorbell_discarded (h : span (d.ring g).tail ((d.ring g).acc + BitVec.ofNat 16 (d.ring g).depth) < span (d.ring g).tail t) :
    d.doorbell g t = (d.setRing g { d.ring g with err := setBit (d.ring g).err 0 true }).setEv (ringFn g) 5 := if_neg (Nat.not_le.mpr h)

theorem cmplHead_taken (h : span (d.ring g).head t ≤ span (d.ring g).head (d.ring g).cmplTail) :
    d.cmplHead g t = (d.setRing g { d.ring g with head := t }).retryRecord g := by
  unfold Dev.cmplHead
  dsimp only
  rw [if_pos h]

theorem cmplHead_discarded (h : span (d.ring g).head (d.ring g).cmplTail < span (d.ring g).head t) :
    d.cmplHead g t = (d.setRing g { d.ring g with err := setBit (d.ring g).err 3 true }).retryRecord g := by
  unfold Dev.cmplHead
  dsimp only
  rw [if_neg (Nat.not_le.mpr h)]

theorem cmplHead_endsAlike (d : Dev) (g : Nat) (t : BitVec 16) : EndsAlike d (d.cmplHead g t) :=
  EndsAlike.trans (.refl d) (retryRecord_stays _ g).1

/-- HEAD and HEAD_INVALID after a write of CMPL_HEAD (R89). -/
theorem cmplHead_ring (d : Dev) (g : Nat) (t : BitVec 16) :
    ((d.cmplHead g t).ring g).head = (if span (d.ring g).head t ≤ span (d.ring g).head (d.ring g).cmplTail then t else (d.ring g).head) ∧
      bit ((d.cmplHead g t).ring g).err 3 =
        (bit (d.ring g).err 3 || decide (span (d.ring g).head (d.ring g).cmplTail < span (d.ring g).head t)) := by
  by_cases h : span (d.ring g).head t ≤ span (d.ring g).head (d.ring g).cmplTail
  · obtain ⟨-, head, err⟩ := retryRecord_stays (d.setRing g { d.ring g with head := t }) g
    rw [cmplHead_taken h, head, err, Dev.ring_setRing_same, if_pos h, decide_eq_false (Nat.not_lt.mpr h), Bool.or_false]
    exact ⟨rfl, rfl⟩
  · obtain ⟨-, head, err⟩ := retryRecord_stays (d.setRing g { d.ring g with err := setBit (d.ring g).err 3 true }) g
    rw [cmplHead_discarded (Nat.not_le.mp h), head, err, Dev.ring_setRing_same, if_neg h, decide_eq_true (Nat.not_le.mp h), Bool.or_true,
      bit_setBit _ _ _ _ (by decide), if_pos rfl]
    exact ⟨rfl, rfl⟩

theorem ringCtl_taken (low : 4 ≤ fld v 4 4) (high : fld v 4 4 ≤ 10)
    (same : fld v 4 4 = (d.ring g).depthLog2.toNat ∨ ((d.ring g).enable = false ∧ (d.ring g).inflight = 0)) :
    d.ringCtl g v = d.setRing g { d.ring g with enable := bit v 31, depthLog2 := BitVec.ofNat 4 (fld v 4 4), every := v.setWidth 4 } := by
  refine if_neg ?_
  rintro (h | h | ⟨other, busy⟩)
  · omega
  · omega
  · obtain eq | ⟨off, empty⟩ := same
    · exact other eq
    · simp [off, empty] at busy

theorem ringCtl_discarded
    (h : fld v 4 4 < 4 ∨ 10 < fld v 4 4 ∨ (fld v 4 4 ≠ (d.ring g).depthLog2.toNat ∧ ((d.ring g).enable = true ∨ (d.ring g).inflight ≠ 0))) :
    d.ringCtl g v = d := if_pos h

end

/-! Requests for ring registers. -/

/-- The arrival of a request leaves the end of commands alone. -/
theorem Arrives.endsAlike {s : State} {f : Nat} {d : Dev} (k : Arrives s f d) : EndsAlike s.dev d := by
  obtain ⟨-, -, -, rfl⟩ := k
  rw [Dev.hostFired_eq]
  exact .refl _

section
variable {i : Instr} {s : State} {f : Nat} {h : Dev → Dev} {d : Dev} (x : exec i s = run (ringWrite i f h) s)
include x

/-- A write that arrives at a function out of reset takes effect. -/
theorem becomes_ringWrite {e : Dev} (k : Arrives s f d) (up : d.resetting f = false) (he : h d = e) (m : EndsAlike d e) : Becomes i s e :=
  becomes_runFrom x k.1 ((k.hosted_eq i _).trans (by simp [up, he])) (k.endsAlike.trans m)

/-- A write to a function in reset is discarded (R158). -/
theorem becomes_ringWrite_resetting (k : Arrives s f d) (reset : d.resetting f = true) : Becomes i s d :=
  becomes_runFrom x k.1 ((k.hosted_eq i _).trans (by simp [reset])) k.endsAlike

end

/-- A write that no function takes: an error at a function in D3hot, else nothing (R122, R450). -/
theorem unclaimed_write {d : Dev} {i : Instr} {f : Nat} (write : hostRead i = false) (out : d.hostReach f = false) :
    ((d.fn f).d3hot = false → d.unclaimed i f = d) ∧ (d.unclaimed i f = d ∨ d.unclaimed i f = d.requestError f true) := by
  unfold Dev.unclaimed
  simp only [write, Bool.false_eq_true, if_false, Bool.not_false]
  split
  · exact ⟨fun _ => rfl, .inl rfl⟩
  · rename_i linked
    split
    · rename_i claimed
      refine ⟨fun d0 => ?_, .inr rfl⟩
      obtain ⟨link, thawed⟩ : ((d.port (f / 16)).link = .l0 ∨ (d.port (f / 16)).link = .l1) ∧ d.freeze.at_.isSome = false := by
        simp only [not_or, not_and_or, not_not, Bool.not_eq_true] at linked
        exact linked
      rw [← Bool.not_eq_true, Dev.hostReach] at out
      refine absurd ?_ out
      simp [claimed.1, claimed.2, d0, link, Option.not_isSome_iff_eq_none.mp (ne_true_of_eq_false thawed)]
    · exact ⟨fun _ => rfl, .inl rfl⟩

theorem ErrorsOnly.refl (d : Dev) : ErrorsOnly d d := ⟨rfl, fun _ => rfl, fun _ => rfl⟩

/-- Error registers of one function replaced. -/
theorem errorsOnly_setFn (d : Dev) (f : Nat) (stat : BitVec 4) (unc cor : BitVec 32) :
    ErrorsOnly d (d.setFn f { d.fn f with errStat := stat, aerUnc := unc, aerCor := cor }) := by
  refine ⟨rfl, fun h => ?_, fun _ => rfl⟩
  rw [Dev.fn_setFn]
  split
  · rename_i e
    rw [e]
  · rfl

theorem ErrorsOnly.errMsg {d e : Dev} (h : ErrorsOnly d e) (f : Nat) (k : ErrKind) : ErrorsOnly d (e.errMsg f k) := by
  obtain ⟨frame, fns, ports⟩ := h
  refine ⟨frame, fns, fun p => ?_⟩
  rw [Dev.errMsg, Dev.port_setPort]
  split
  · rename_i same
    rw [← same]
    exact ports (f / 16)
  · exact ports p

theorem requestError_errorsOnly (d : Dev) (f : Nat) (posted : Bool) : ErrorsOnly d (d.requestError f posted) := by
  have set := errorsOnly_setFn d f
  unfold Dev.requestError
  dsimp only
  split
  · split
    · exact (set _ _ (d.fn f).aerCor).errMsg f _
    · exact set _ _ (d.fn f).aerCor
  · split
    · split
      · exact (set _ _ (d.fn f).aerCor).errMsg f _
      · exact set _ _ (d.fn f).aerCor
    · split
      · exact (set _ _ _).errMsg f _
      · exact set _ _ _

theorem ErrorsOnly.onBus {d e : Dev} (h : ErrorsOnly d e) (b : Lattice) : ErrorsOnly d { e with bus := b } := h

theorem ErrorsOnly.endsAlike {d e : Dev} (h : ErrorsOnly d e) : EndsAlike d e :=
  ⟨(congrArg Dev.mem h.1 :), (congrArg Dev.update h.1 :), (congrArg Dev.safety h.1 :)⟩

section
variable {i : Instr} {s : State} {f : Nat} {h : Dev → Dev} (x : exec i s = run (ringWrite i f h) s) (write : hostRead i = false)
  (k : s.Steady) (out : s.dev.hostReach f = false)
include x write k out

/-- A write to a ring register that cannot arrive. -/
theorem ringWrite_unclaimed : ((s.dev.fn f).d3hot = false → Becomes i s s.dev) ∧ Does i s (ErrorsOnly s.dev) := by
  have eq : ringWrite i f h s.dev = s.dev.unclaimed i f := if_pos (by simp [out])
  obtain ⟨awake, errors⟩ := unclaimed_write write out
  refine ⟨fun d0 => becomes_runFrom x k (eq.trans (awake d0)) (.refl _), ?_⟩
  have only : ErrorsOnly s.dev (ringWrite i f h s.dev) := by
    rw [eq]
    obtain same | error := errors
    · rw [same]
      exact .refl _
    · rw [error]
      exact requestError_errorsOnly s.dev f true
  exact does_runFrom_noStores x k.1 only.endsAlike ((congrArg Dev.writes only.1 :).trans k.1.1.1) (only.onBus _)

end

section
variable (f : Fin 64) (k : Fin 4) (v : BitVec 32) (s : State)

theorem exec_doorbell : exec (.doorbell f k v) s =
    run (ringWrite (.doorbell f k v) f.val (fun d => d.doorbell (4 * f.val + k.val) (v.setWidth 16))) s := rfl
theorem exec_cmplHead : exec (.cmplHead f k v) s =
    run (ringWrite (.cmplHead f k v) f.val (fun d => d.cmplHead (4 * f.val + k.val) (v.setWidth 16))) s := rfl
theorem exec_ringCtl : exec (.ringCtl f k v) s = run (ringWrite (.ringCtl f k v) f.val (fun d => d.ringCtl (4 * f.val + k.val) v)) s := rfl

end

/-- Settles O23: each write by what its register does, when its request arrives, in a reset, and when it cannot arrive. -/
theorem ringRegisters : Obligations.RingRegisters := by
  refine ⟨fun s f k v d r t arr up hr ht => ?_, fun s f k v d r h arr up hr hh kept => ?_, fun s f k v d r h arr up hr hh => ?_,
    fun s f k v d r arr up hr => ?_, fun s f k v d arr reset => ?_, fun s f k v steady out => ?_⟩
  · subst hr ht
    refine ⟨fun free => ?_, fun full => ?_⟩
    · exact becomes_ringWrite (exec_doorbell f k v s) arr up (doorbell_taken free) (.refl _)
    · refine becomes_ringWrite (exec_doorbell f k v s) arr up ?_ (EndsAlike.trans (.refl _) (setEv_endsAlike _ f.val 5))
      rw [doorbell_discarded full, ringFn_ring]
  · subst hr hh
    refine ⟨fun within => ?_, fun past => ?_⟩
    · refine becomes_ringWrite (exec_cmplHead f k v s) arr up ((cmplHead_taken within).trans (retryRecord_unkept ?_)) (.refl _)
      simpa using kept
    · refine becomes_ringWrite (exec_cmplHead f k v s) arr up ((cmplHead_discarded past).trans (retryRecord_unkept ?_)) (.refl _)
      simpa using kept
  · subst hr hh
    refine (becomes_ringWrite (exec_cmplHead f k v s) arr up rfl (cmplHead_endsAlike _ _ _)).imp (fun e is => ?_)
    rw [is.ring]
    exact cmplHead_ring d _ _
  · subst hr
    refine ⟨fun low high same => ?_, fun bad => ?_⟩
    · exact becomes_ringWrite (exec_ringCtl f k v s) arr up (ringCtl_taken low high same) (.refl _)
    · exact becomes_ringWrite (exec_ringCtl f k v s) arr up (ringCtl_discarded bad) (.refl _)
  · exact ⟨becomes_ringWrite_resetting (exec_doorbell f k v s) arr reset, becomes_ringWrite_resetting (exec_cmplHead f k v s) arr reset,
      becomes_ringWrite_resetting (exec_ringCtl f k v s) arr reset⟩
  · obtain ⟨bell, bellErrs⟩ := ringWrite_unclaimed (exec_doorbell f k v s) rfl steady out
    obtain ⟨head, headErrs⟩ := ringWrite_unclaimed (exec_cmplHead f k v s) rfl steady out
    obtain ⟨ctl, ctlErrs⟩ := ringWrite_unclaimed (exec_ringCtl f k v s) rfl steady out
    exact ⟨fun awake => ⟨bell awake, head awake, ctl awake⟩, bellErrs, headErrs, ctlErrs⟩

end Sys2Proof.Machine
end

section
/-! Admission and the start of items (R79, R80, R83 to R85, R91 to R93). -/

namespace Sys2Proof.Machine

/-! Admission. -/

/-- The address of a ring's next item (R82). -/
def Ring.itemAddr (r : Ring) : Nat := (r.base.toNat + 18 * (r.acc.toNat % 2 ^ r.depthLog2.toNat)) % 2 ^ 48

/-- The entry of an item that has been read: one with a reserved bit set is over at once (R84, R91). -/
theorem Entry.new_read (acc : Nat) (gen : BitVec 8) (item : W144) :
    Entry.new acc gen item (if fld item 54 6 ≠ 0 ∨ fld item 48 4 ≠ 0 then some 0x10 else none) =
      { acc := acc, item := item, gen := gen
        phase := if fld item 54 6 = 0 ∧ fld item 48 4 = 0 then .unstarted else .ended
        progStatus := if fld item 54 6 = 0 ∧ fld item 48 4 = 0 then 0 else 0x10
        result := if fld item 54 6 = 0 ∧ fld item 48 4 = 0 then none else some 0
        ops := [], runs := 0, interrupts := 0, txcs := [], squashed := false, covered := false } := by
  by_cases reserved : fld item 54 6 = 0 ∧ fld item 48 4 = 0
  · simp [Entry.new, reserved]
  · simp [Entry.new, reserved, not_and_or.mp reserved]

/-- The ring with an entry for its next item. -/
def Dev.took (d : Dev) (g : Nat) (item : W144) (status : Option Nat) : Dev :=
  d.setRing g
    { d.ring g with
      acc := (d.ring g).acc + 1, nextAcc := (d.ring g).nextAcc + 1, curAdmitted := (d.ring g).curAdmitted + 1
      entries := (d.ring g).entries ++ [Entry.new (d.ring g).nextAcc (d.fn (ringFn g)).gen item status] }

/-- Of ring g, ACC and the entries have counted one item; the shared entries that it holds, and the other rings, are as they were. -/
def CountsItem (g : Nat) (d e : Dev) : Prop :=
  LedgerOnly d e ∧ (e.ring g).acc = (d.ring g).acc + 1 ∧ (e.ring g).entries.length = (d.ring g).entries.length + 1 ∧
    (e.ring g).shared = (d.ring g).shared ∧ ∀ h, h ≠ g → e.ring h = d.ring h

theorem took_countsItem (d : Dev) (g : Nat) (item : W144) (status : Option Nat) : CountsItem g d (d.took g item status) := by
  refine ⟨rfl, ?_, ?_, ?_, fun h ne => Dev.ring_setRing_ne d ne _⟩ <;> simp [Dev.took]

/-- An item is admitted by what the read of its slot finds (R84, R85, R91). -/
theorem admitItem_eq (d : Dev) (g : Nat) :
    d.admitItem g =
      match d.readV (ringFn g) (d.ring g).itemAddr 18 .read with
      | (d1, .error (cause, va)) =>
        let d2 := d1.accessFault (ringFn g) cause srcItem (ringKind g) va
        (d2.setRing g { d2.ring g with err := setBit (d2.ring g).err 2 true }).took g 0 (some (causeStatus cause).toNat)
      | (d1, .ok bytes) =>
        let item := BitVec.ofNat 144 (ofBytes bytes)
        d1.took g item (if fld item 54 6 ≠ 0 ∨ fld item 48 4 ≠ 0 then some 0x10 else none) := rfl

theorem readV_reads {d d1 : Dev} {f va n : Nat} {acc : Acc} {r : Except (Nat × Nat) (List Byte)} (h : d.readV f va n acc = (d1, r)) :
    Fetched d d1 := by
  have fetched := readV_fetched d f va n acc
  rw [h] at fetched
  exact fetched

section
variable {d d1 : Dev} {g : Nat}

theorem admitItem_read {bytes : List Byte} {item : W144} (h : d.readV (ringFn g) (d.ring g).itemAddr 18 .read = (d1, .ok bytes))
    (hi : item = BitVec.ofNat 144 (ofBytes bytes)) :
    d.admitItem g = d1.took g item (if fld item 54 6 ≠ 0 ∨ fld item 48 4 ≠ 0 then some 0x10 else none) := by
  subst hi
  rw [admitItem_eq, h]

/-- An item that cannot be read has its fault and ITEM_FAULT, and an entry all the same (R85). -/
theorem admitItem_unread {cause va : Nat} (h : d.readV (ringFn g) (d.ring g).itemAddr 18 .read = (d1, .error (cause, va))) :
    d.admitItem g =
      ((d1.accessFault (ringFn g) cause srcItem (ringKind g) va).setRing g { d.ring g with err := setBit (d.ring g).err 2 true }).took g 0
        (some (causeStatus cause).toNat) := by
  have same := ((accessFault_signalled d1 (ringFn g) cause srcItem (ringKind g) va).ring g).trans ((readV_reads h).ring g)
  rw [admitItem_eq, h]
  dsimp only
  rw [same]

end

/-- Whatever its read finds, an item that is admitted is counted. -/
theorem admitItem_countsItem (d : Dev) (g : Nat) : CountsItem g d (d.admitItem g) := by
  rcases h : d.readV (ringFn g) (d.ring g).itemAddr 18 .read with ⟨d1, ⟨cause, va⟩ | bytes⟩
  · have fetched := readV_reads h
    have fault := accessFault_signalled d1 (ringFn g) cause srcItem (ringKind g) va
    rw [admitItem_unread h]
    obtain ⟨only, acc, entries, shared, others⟩ := took_countsItem
      ((d1.accessFault (ringFn g) cause srcItem (ringKind g) va).setRing g { d.ring g with err := setBit (d.ring g).err 2 true }) g 0
      (some (causeStatus cause).toNat)
    rw [Dev.ring_setRing_same] at acc entries shared
    refine ⟨(fetched.ledgerOnly.trans fault.ledgerOnly).trans ((LedgerOnly.setRing _ g _).trans only), acc, entries, shared, fun j ne => ?_⟩
    rw [others j ne, Dev.ring_setRing_ne _ ne, fault.ring, fetched.ring]
  · have fetched := readV_reads h
    rw [admitItem_read h rfl]
    obtain ⟨only, acc, entries, shared, others⟩ := took_countsItem d1 g _ _
    rw [fetched.ring] at acc entries shared
    exact ⟨fetched.ledgerOnly.trans only, acc, entries, shared, fun j ne => (others j ne).trans (fetched.ring j)⟩

/-- What ITEM_ADMIT does. -/
def Dev.itemAdmit (d : Dev) (g : Nat) : Dev :=
  if !d.mayAdmit g then d
  else if (d.ring g).reserved then d.admitItem g
  else if d.grantsShared g then (({ d with rrGrant := g } : Dev).setRing g { d.ring g with shared := (d.ring g).shared + 1 }).admitItem g
  else d

theorem exec_itemAdmit (g : Fin 256) (s : State) :
    exec (.itemAdmit g) s = runFrom (mpHost (ringFn g.val), mpHint (mpHost (ringFn g.val))) (fun d => d.itemAdmit g.val) s := rfl

section
variable {d : Dev} {g : Nat}

theorem itemAdmit_held (h : d.mayAdmit g = false) : d.itemAdmit g = d := by simp [Dev.itemAdmit, h]

theorem itemAdmit_reserved (h : d.mayAdmit g = true) (free : (d.ring g).entries.length < 16 + (d.ring g).shared) : d.itemAdmit g = d.admitItem g := by
  simp [Dev.itemAdmit, h, Ring.reserved, free]

theorem itemAdmit_waits (full : 16 + (d.ring g).shared ≤ (d.ring g).entries.length) (none : d.grantsShared g = false) :
    d.itemAdmit g = d := by simp [Dev.itemAdmit, Ring.reserved, Nat.not_lt.mpr full, none]

theorem itemAdmit_granted (h : d.mayAdmit g = true) (full : 16 + (d.ring g).shared ≤ (d.ring g).entries.length) (one : d.grantsShared g = true) :
    d.itemAdmit g = (({ d with rrGrant := g } : Dev).setRing g { d.ring g with shared := (d.ring g).shared + 1 }).admitItem g := by
  simp [Dev.itemAdmit, h, Ring.reserved, Nat.not_lt.mpr full, one]

/-- R91's conditions. -/
theorem mayAdmit_conditions (h : d.mayAdmit g = true) : (d.fn (g / 4)).hold = false ∧ d.resetting (g / 4) = false ∧ (d.ring g).enable = true ∧
    bit (d.ring g).err 1 = false ∧ (d.ring g).acc ≠ (d.ring g).tail ∧ (d.ring g).inflight < 128 ∧
    (d.ring g).inflight + ((d.ring g).cmplTail - (d.ring g).head).toNat < 2 ^ (d.ring g).depthLog2.toNat := by
  simp only [Dev.mayAdmit, Bool.and_eq_true, Bool.not_eq_true', bne_iff_ne, decide_eq_true_eq] at h
  obtain ⟨⟨⟨⟨⟨⟨⟨⟨-, -⟩, hold⟩, reset⟩, enable⟩, fault⟩, offered⟩, inflight⟩, room⟩ := h
  exact ⟨hold, reset, enable, fault, offered, inflight, room⟩

end

section
variable {s : State} {g : Fin 256} (k : s.Steady) (may : s.dev.mayAdmit g.val = true)
include k may

theorem itemAdmit_becomes {d1 : Dev} {bytes : List Byte} {item : W144} (free : (s.dev.ring g.val).entries.length < 16 + (s.dev.ring g.val).shared)
    (read : s.dev.readV (ringFn g.val) (s.dev.ring g.val).itemAddr 18 .read = (d1, .ok bytes)) (hi : item = BitVec.ofNat 144 (ofBytes bytes)) :
    Becomes (.itemAdmit g) s (d1.took g.val item (if fld item 54 6 ≠ 0 ∨ fld item 48 4 ≠ 0 then some 0x10 else none)) :=
  becomes_runFrom (exec_itemAdmit g s) k ((itemAdmit_reserved may free).trans (admitItem_read read hi))
    ((readV_reads read).endsAlike.trans (.refl _))

theorem itemAdmit_unread {d1 : Dev} {cause va : Nat} (free : (s.dev.ring g.val).entries.length < 16 + (s.dev.ring g.val).shared)
    (read : s.dev.readV (ringFn g.val) (s.dev.ring g.val).itemAddr 18 .read = (d1, .error (cause, va))) :
    Does (.itemAdmit g) s (fun e =>
      (e.ring g.val).err = setBit (s.dev.ring g.val).err 2 true ∧ (e.ring g.val).acc = (s.dev.ring g.val).acc + 1 ∧
      (e.ring g.val).nextAcc = (s.dev.ring g.val).nextAcc + 1 ∧
      ((e.ring g.val).entries.getLast?).map (fun x => (x.acc, x.phase, x.progStatus)) = some ((s.dev.ring g.val).nextAcc, .ended, causeStatus cause) ∧
      bit (e.fn (g.val / 4)).evStatus 5 = true ∧ e.mem = s.dev.mem ∧ (∀ h, h ≠ g.val → e.ring h = s.dev.ring h) ∧
      { e with rings := s.dev.rings, fns := s.dev.fns, msgs := s.dev.msgs, free := s.dev.free, bus := s.dev.bus } = s.dev) := by
  obtain ⟨only, acc, -, -, others⟩ := admitItem_countsItem s.dev g.val
  refine (does_passed (exec_itemAdmit g s) k (itemAdmit_reserved may free) only.endsAlike only.writes).imp (fun e p => ?_)
  refine ⟨?_, (congrArg Ring.acc (p.ring _)).trans acc, ?_, ?_, ?_, (congrArg Dev.mem (p.ledgerOnly only) :), fun j ne => (p.ring j).trans (others j ne),
    p.ledgerOnly only⟩
  · rw [p.ring, admitItem_unread read, Dev.took, Dev.ring_setRing_same, Dev.ring_setRing_same]
  · rw [p.ring, admitItem_unread read, Dev.took, Dev.ring_setRing_same, Dev.ring_setRing_same]
  · rw [p.ring, admitItem_unread read, Dev.took, Dev.ring_setRing_same, Dev.ring_setRing_same]
    simp [Entry.new]
  · rw [p.fn, admitItem_unread read]
    exact accessFault_raises d1 (ringFn g.val) cause srcItem _ va

theorem itemAdmit_granted_does (full : 16 + (s.dev.ring g.val).shared ≤ (s.dev.ring g.val).entries.length) (one : s.dev.grantsShared g.val = true) :
    Does (.itemAdmit g) s (fun e =>
      e.rrGrant = g.val ∧ (e.ring g.val).acc = (s.dev.ring g.val).acc + 1 ∧ (e.ring g.val).entries.length = (s.dev.ring g.val).entries.length + 1 ∧
      (e.ring g.val).shared = (s.dev.ring g.val).shared + 1 ∧ (∀ h, h ≠ g.val → e.ring h = s.dev.ring h)) := by
  obtain ⟨only, acc, entries, shared, others⟩ := admitItem_countsItem
    (({ s.dev with rrGrant := g.val } : Dev).setRing g.val { s.dev.ring g.val with shared := (s.dev.ring g.val).shared + 1 }) g.val
  rw [Dev.ring_setRing_same] at acc entries shared
  refine (does_passed (exec_itemAdmit g s) k (itemAdmit_granted may full one) (EndsAlike.trans (.refl _) only.endsAlike) only.writes).imp (fun e p => ?_)
  refine ⟨(congrArg Dev.rrGrant (p.ledgerOnly only) :), ?_, ?_, ?_, fun j ne => ?_⟩
  · rw [p.ring, acc]
  · rw [p.ring, entries]
  · rw [p.ring, shared]
  · rw [p.ring, others j ne, Dev.ring_setRing_ne _ ne]
    rfl

end

/-! The start of an item. -/

/-- The thread of an item whose program's header has not been read. -/
def Entry.newThread (x : Entry) : Thread :=
  { Thread.idle with acc := some x.acc, seq := { Seq.idle with base := BitVec.ofNat 48 (itemProg x.item) } }

/-- The thread of an item at the entry of its program (R80). -/
def Entry.entryThread (x : Entry) (h : Header) : Thread :=
  { x.newThread with
    seq := { bank := entryBank (itemParam x.item) (9 * h.params) x.acc (fld x.item 0 48), pc := h.entry, stack := []
             base := BitVec.ofNat 48 (itemProg x.item), length := h.length, limit := h.limit, steps := 0 }
    paramBase := BitVec.ofNat 48 (itemParam x.item), paramLen := h.params }

/-- The device when a run of an item has begun and its header is to be read. -/
def Dev.begun (d : Dev) (g : Nat) (x : Entry) : Dev :=
  d.setRing g
    { d.ring g with
      thread := x.newThread
      entries := (d.ring g).entries.map (fun e => if e.acc = x.acc then { e with phase := .running, runs := e.runs + 1 } else e) }

section
variable (d : Dev) (g : Nat) (x : Entry)

/-- A run begins with the read of its header, and goes on by what that finds (R79). -/
theorem beginRun_eq :
    d.beginRun g x =
      match (d.begun g x).readWords (ringFn g) (itemProg x.item) 2 .exec with
      | (d1, .error (cause, va)) =>
        (d1.excFault (ringFn g) cause srcFetch (ringKind g) va).endProgram g (causeStatus cause) (some (excResult (causeExc cause) (itemProg x.item)))
      | (d1, .ok ws) =>
        match checkHeader 0 (nth ws 0 0) (nth ws 1 0) with
        | none => d1.endProgram g 0x10 (some (excResult 0x0C (itemProg x.item)))
        | some h => d1.updThread g (fun _ => x.entryThread h) := by
  have eq : (d.updThread g (fun _ => x.newThread)).updEntry g x.acc (fun e => { e with phase := .running, runs := e.runs + 1 }) = d.begun g x := by
    simp [Dev.updThread, Dev.updEntry, Ring.updEntry, Dev.begun]
  rw [← eq]
  rfl

theorem begun_ring : ((d.begun g x).ring g).thread.acc = some x.acc := by simp [Dev.begun, Entry.newThread]

/-- A run that ends at its header. -/
def Dev.stopped (d : Dev) (g : Nat) (x : Entry) (status : BitVec 8) (result : BitVec 64) : Dev :=
  d.setRing g
    { d.ring g with
      thread := Thread.idle
      entries := (d.ring g).entries.map (fun y => if y.acc = x.acc then { y with phase := .ended, progStatus := status, result := some result } else y) }

variable {d g x}

theorem endProgram_stopped {e : Dev} (same : e.ring g = (d.begun g x).ring g) (status : BitVec 8) (result : BitVec 64) :
    e.endProgram g status (some result) = e.stopped g x status result := by
  rw [Dev.endProgram_eq (by rw [same, begun_ring])]
  rfl

variable {d1 : Dev} {ws : List W72}

theorem readWords_reads {f va n : Nat} {acc : Acc} {r : Except (Nat × Nat) (List W72)} (h : d.readWords f va n acc = (d1, r)) : Fetched d d1 := by
  have fetched := readWords_fetched d f va n acc
  rw [h] at fetched
  exact fetched

theorem beginRun_faults {cause va : Nat} (h : (d.begun g x).readWords (ringFn g) (itemProg x.item) 2 .exec = (d1, .error (cause, va))) :
    d.beginRun g x = (d1.excFault (ringFn g) cause srcFetch (ringKind g) va).stopped g x (causeStatus cause)
      (excResult (causeExc cause) (itemProg x.item)) := by
  rw [beginRun_eq, h]
  exact endProgram_stopped (((excFault_signalled d1 _ _ _ _ _).ring g).trans ((readWords_reads h).ring g)) _ _

theorem beginRun_invalid (h : (d.begun g x).readWords (ringFn g) (itemProg x.item) 2 .exec = (d1, .ok ws))
    (bad : checkHeader 0 (nth ws 0 0) (nth ws 1 0) = none) : d.beginRun g x = d1.stopped g x 0x10 (excResult 0x0C (itemProg x.item)) := by
  rw [beginRun_eq, h]
  dsimp only
  rw [bad]
  exact endProgram_stopped ((readWords_reads h).ring g) _ _

theorem beginRun_enters (h : (d.begun g x).readWords (ringFn g) (itemProg x.item) 2 .exec = (d1, .ok ws)) {hd : Header}
    (good : checkHeader 0 (nth ws 0 0) (nth ws 1 0) = some hd) : d.beginRun g x = d1.updThread g (fun _ => x.entryThread hd) := by
  rw [beginRun_eq, h]
  dsimp only
  rw [good]

/-- A run whose header is read sends no message. -/
theorem beginRun_msgs (h : (d.begun g x).readWords (ringFn g) (itemProg x.item) 2 .exec = (d1, .ok ws)) : (d.beginRun g x).msgs = d.msgs := by
  have read : d1.msgs = d.msgs := (congrArg Dev.msgs (readWords_reads h).1 :)
  cases header : checkHeader 0 (nth ws 0 0) (nth ws 1 0) with
  | none => rw [beginRun_invalid h header, ← read]; rfl
  | some hd => rw [beginRun_enters h header, ← read]; rfl

/-- A run that begins changes its ring, and what its read and its fault may. -/
theorem beginRun_only (d : Dev) (g : Nat) (x : Entry) : LedgerOnly d (d.beginRun g x) ∧ ∀ j, j ≠ g → (d.beginRun g x).ring j = d.ring j := by
  have start : LedgerOnly d (d.begun g x) := rfl
  have others (j : Nat) (ne : j ≠ g) : (d.begun g x).ring j = d.ring j := Dev.ring_setRing_ne d ne _
  rcases h : (d.begun g x).readWords (ringFn g) (itemProg x.item) 2 .exec with ⟨d1, ⟨cause, va⟩ | ws⟩
  · have fault := excFault_signalled d1 (ringFn g) cause srcFetch (ringKind g) va
    have read := start.trans (readWords_reads h).ledgerOnly
    rw [beginRun_faults h]
    refine ⟨read.trans (fault.ledgerOnly.trans (.setRing _ g _)), fun j ne => ?_⟩
    rw [Dev.stopped, Dev.ring_setRing_ne _ ne, fault.ring, (readWords_reads h).ring, others j ne]
  · have read := start.trans (readWords_reads h).ledgerOnly
    have same (j : Nat) (ne : j ≠ g) : d1.ring j = d.ring j := ((readWords_reads h).ring j).trans (others j ne)
    cases header : checkHeader 0 (nth ws 0 0) (nth ws 1 0) with
    | none =>
      rw [beginRun_invalid h header]
      exact ⟨read.trans (.setRing _ g _), fun j ne => (Dev.ring_setRing_ne d1 ne _).trans (same j ne)⟩
    | some hd =>
      rw [beginRun_enters h header]
      exact ⟨read.trans (.setRing _ g _), fun j ne => (Dev.ring_setRing_ne d1 ne _).trans (same j ne)⟩

end

/-- What ITEM_START does. -/
def Dev.itemStart (d : Dev) (g : Nat) : Dev :=
  match (d.ring g).entries.find? (fun e => e.phase = .unstarted && !e.covered) with
  | none => d
  | some e =>
    if !d.threadUp g || (d.ring g).thread.acc.isSome || d.resetting (ringFn g) ||
      (bit e.item 53 && !(d.ring g).entries.all (fun x => x.acc ≥ e.acc || x.covered)) then d else d.beginRun g e

theorem exec_itemStart (g : Fin 256) (s : State) : exec (.itemStart g) s = run (fun d => d.itemStart g.val) s := rfl

theorem itemStart_begins {d : Dev} {g : Nat} {x : Entry} (next : (d.ring g).entries.find? (fun e => e.phase = .unstarted && !e.covered) = some x)
    (up : d.threadUp g = true) (free : (d.ring g).thread.acc = none) (on : d.resetting (ringFn g) = false)
    (barrier : bit x.item 53 = true → ∀ y ∈ (d.ring g).entries, y.acc < x.acc → y.covered = true) : d.itemStart g = d.beginRun g x := by
  have earlier : bit x.item 53 = true → (d.ring g).entries.all (fun y => y.acc ≥ x.acc || y.covered) = true := fun b => by
    simp only [List.all_eq_true, Bool.or_eq_true, decide_eq_true_eq]
    intro y m
    obtain old | new := Nat.lt_or_ge y.acc x.acc
    · exact .inr (barrier b y m old)
    · exact .inl new
  unfold Dev.itemStart
  rw [next]
  refine if_neg ?_
  cases b : bit x.item 53
  · simp [up, free, on]
  · simp [up, free, on, earlier b]

theorem itemStart_busy {d : Dev} {g : Nat} (busy : (d.ring g).thread.acc ≠ none) : d.itemStart g = d := by
  unfold Dev.itemStart
  split
  · rfl
  · simp [Option.isSome_iff_ne_none.mpr busy]

theorem excResult_header (x : W144) : excResult 0x0C (itemProg x) = BitVec.ofNat 64 (0x0C * 2 ^ 56 + fld x 102 42 * 64) := by
  have small : fld x 102 42 * 64 < 2 ^ 48 := by
    have : fld x 102 42 < 2 ^ 42 := Nat.mod_lt _ (by decide)
    omega
  rw [excResult, itemProg, Nat.mod_eq_of_lt small]
  rfl

section
variable {s : State} {g : Fin 256} {x : Entry} {d1 : Dev} {ws : List W72} (k : s.Steady) (begins : s.dev.itemStart g.val = s.dev.beginRun g.val x)
include k begins

theorem itemStart_faults {cause va : Nat} (h : (s.dev.begun g.val x).readWords (ringFn g.val) (itemProg x.item) 2 .exec = (d1, .error (cause, va))) :
    Does (.itemStart g) s (fun e =>
      (e.ring g.val).thread = Thread.idle ∧ (cause ≠ 0xE → bit (e.fn (ringFn g.val)).evStatus 5 = true) ∧
      (e.ring g.val).entries = ((s.dev.begun g.val x).ring g.val).entries.map (fun y => if y.acc = x.acc then
        { y with phase := .ended, progStatus := causeStatus cause, result := some (excResult (causeExc cause) (itemProg x.item)) } else y) ∧
      { e with rings := s.dev.rings, fns := s.dev.fns, msgs := s.dev.msgs, free := s.dev.free, bus := s.dev.bus } = s.dev) := by
  obtain ⟨only, -⟩ := beginRun_only s.dev g.val x
  refine (does_passed (exec_itemStart g s) k begins only.endsAlike only.writes).imp (fun e p => ⟨?_, fun kept => ?_, ?_, p.ledgerOnly only⟩)
  · rw [p.ring, beginRun_faults h, Dev.stopped, Dev.ring_setRing_same]
  · rw [p.fn, beginRun_faults h]
    exact excFault_raises d1 (ringFn g.val) srcFetch _ va kept
  · rw [p.ring, beginRun_faults h, Dev.stopped, Dev.ring_setRing_same, (excFault_signalled d1 _ _ _ _ _).ring, (readWords_reads h).ring]

/-- A program whose header is valid starts on its thread with R80's registers. -/
theorem itemStart_enters (h : (s.dev.begun g.val x).readWords (ringFn g.val) (itemProg x.item) 2 .exec = (d1, .ok ws)) {hd : Header}
    (good : checkHeader 0 (nth ws 0 0) (nth ws 1 0) = some hd) :
    Does (.itemStart g) s (fun e =>
      (e.ring g.val).thread = x.entryThread hd ∧ (e.ring g.val).entries = ((s.dev.begun g.val x).ring g.val).entries ∧
      (∀ j, j ≠ g.val → e.ring j = s.dev.ring j) ∧
      { e with rings := s.dev.rings, fns := s.dev.fns, free := s.dev.free, bus := s.dev.bus } = s.dev) := by
  obtain ⟨only, others⟩ := beginRun_only s.dev g.val x
  have fetched := readWords_reads h
  have enters := beginRun_enters h good
  refine (does_passed (exec_itemStart g s) k begins only.endsAlike only.writes).imp (fun e p => ⟨?_, ?_, fun j ne => (p.ring j).trans (others j ne), ?_⟩)
  · rw [p.ring, enters, Dev.updThread, Dev.ring_setRing_same]
  · rw [p.ring, enters, Dev.updThread, Dev.ring_setRing_same, ← fetched.ring]
  · exact (p.ledgerOnly only).quietly ((congrArg Dev.msgs p :).trans (beginRun_msgs h))

/-- A program whose header is not valid ends with EX_HEADER. -/
theorem itemStart_invalid (h : (s.dev.begun g.val x).readWords (ringFn g.val) (itemProg x.item) 2 .exec = (d1, .ok ws))
    (bad : checkHeader 0 (nth ws 0 0) (nth ws 1 0) = none) :
    Does (.itemStart g) s (fun e =>
      (e.ring g.val).thread = Thread.idle ∧
      (e.ring g.val).entries = ((s.dev.begun g.val x).ring g.val).entries.map (fun y => if y.acc = x.acc then
        { y with phase := .ended, progStatus := 0x10, result := some (BitVec.ofNat 64 (0x0C * 2 ^ 56 + fld x.item 102 42 * 64)) } else y) ∧
      { e with rings := s.dev.rings, fns := s.dev.fns, free := s.dev.free, bus := s.dev.bus } = s.dev) := by
  obtain ⟨only, -⟩ := beginRun_only s.dev g.val x
  have fetched := readWords_reads h
  have ends := beginRun_invalid h bad
  refine (does_passed (exec_itemStart g s) k begins only.endsAlike only.writes).imp (fun e p => ⟨?_, ?_, ?_⟩)
  · rw [p.ring, ends, Dev.stopped, Dev.ring_setRing_same]
  · rw [p.ring, ends, Dev.stopped, Dev.ring_setRing_same, fetched.ring, excResult_header]
  · exact (p.ledgerOnly only).quietly ((congrArg Dev.msgs p :).trans (beginRun_msgs h))

end

/-- Settles O24: admission by R91's conditions and what the read of the item finds, and the start by what the read of the header finds. -/
theorem itemsAdmittedAndStarted : Obligations.ItemsAdmittedAndStarted := by
  refine ⟨fun s g d1 bytes r item k may free hr read hi => ?_, fun s g d1 cause va r k may free hr read => ?_,
    fun s g k no => becomes_runFrom (exec_itemAdmit g s) k (itemAdmit_held no) (.refl _),
    fun s g k may full => ⟨fun none => becomes_runFrom (exec_itemAdmit g s) k (itemAdmit_waits full none) (.refl _),
      itemAdmit_granted_does k may full⟩,
    fun d g => mayAdmit_conditions, fun s g x d0 d1 ws idle k next up free on barrier hidle hd0 => ?_,
    fun s g k busy => becomes_runFrom (exec_itemStart g s) k (itemStart_busy busy) (.refl _)⟩
  · subst hr
    have took := itemAdmit_becomes k may free read hi
    rw [Dev.took, Entry.new_read, (readV_reads read).ring, (readV_reads read).gen] at took
    exact took
  · subst hr
    exact itemAdmit_unread k may free read
  · subst hidle hd0
    have begins := itemStart_begins next up free on barrier
    exact ⟨fun cause va => itemStart_faults k begins, fun read => ⟨fun h => itemStart_enters k begins read, itemStart_invalid k begins read⟩⟩

end Sys2Proof.Machine
end

section
/-! Completion and reset records (R82, R86, R90, R95, R99, R100, R102). -/

namespace Sys2Proof.Machine

/-! Fields of a record. -/

section
variable {w n : Nat}

theorem fld_ofNat {lo k : Nat} (h : lo + k ≤ w) : fld (BitVec.ofNat w n) lo k = n / 2 ^ lo % 2 ^ k := by
  obtain ⟨m, rfl⟩ := Nat.exists_eq_add_of_le h
  rw [fld, bitsN, BitVec.toNat_ofNat, Nat.shiftRight_eq_div_pow, Nat.add_assoc, Nat.pow_add, Nat.mod_mul_right_div_self, Nat.pow_add,
    Nat.mod_mul_right_mod]

theorem bit_ofNat {i : Nat} {b : Bool} (h : i < w) (e : n / 2 ^ i % 2 = b.toNat) : bit (BitVec.ofNat w n) i = b := by
  rw [bit, BitVec.getLsbD_ofNat, Nat.testBit_eq_decide_div_mod_eq, e, decide_eq_true h, Bool.true_and]
  cases b <;> rfl

end

/-- The fields of a completion record's word are those that it is made of. -/
theorem record_fields {acc status result : Nat} (superseded deferred late replayed : Bool) (ha : acc < 2 ^ 64) (hs : status < 2 ^ 8) (hr : result < 2 ^ 64) :
    let x := BitVec.ofNat 144 (acc * 2 ^ 80 + status * 2 ^ 72 + superseded.toNat * 2 ^ 67 + deferred.toNat * 2 ^ 66 + late.toNat * 2 ^ 65 +
      replayed.toNat * 2 ^ 64 + result)
    fld x 80 64 = acc ∧ fld x 72 8 = status ∧ bit x 71 = false ∧ bit x 67 = superseded ∧ bit x 66 = deferred ∧ bit x 65 = late ∧ bit x 64 = replayed ∧
      fld x 0 64 = result := by
  have b3 := superseded.toNat_le
  have b2 := deferred.toNat_le
  have b1 := late.toNat_le
  have b0 := replayed.toNat_le
  refine ⟨?_, ?_, bit_ofNat (by decide) ?_, bit_ofNat (by decide) ?_, bit_ofNat (by decide) ?_, bit_ofNat (by decide) ?_, bit_ofNat (by decide) ?_, ?_⟩
  · rw [fld_ofNat (by decide)]; omega
  · rw [fld_ofNat (by decide)]; omega
  · rw [Bool.toNat_false]; omega
  · omega
  · omega
  · omega
  · omega
  · rw [fld_ofNat (by decide)]; omega

/-- A reset record names its first and last item, its generation and its mode (R100). -/
theorem resetRecord_fields (first gen mode last : Nat) :
    fld (resetRecord first gen mode last) 80 64 = first % 2 ^ 64 ∧ fld (resetRecord first gen mode last) 72 8 = gen % 256 ∧
      bit (resetRecord first gen mode last) 71 = true ∧ fld (resetRecord first gen mode last) 65 2 = mode % 4 ∧
      fld (resetRecord first gen mode last) 0 64 = last % 2 ^ 64 := by
  refine ⟨?_, ?_, bit_ofNat (by decide) ?_, ?_, ?_⟩
  · rw [resetRecord, fld_ofNat (by decide)]; omega
  · rw [resetRecord, fld_ofNat (by decide)]; omega
  · rw [Bool.toNat_true]; omega
  · rw [resetRecord, fld_ofNat (by decide)]; omega
  · rw [resetRecord, fld_ofNat (by decide)]; omega

/-! The status of an item (R102). -/

section
variable {e : Entry}

theorem status_program (squash : e.squashed = false) (cancels : ∀ x ∈ e.ops, x.2.cancelled = false) (failed : e.progStatus ≠ 0) :
    e.status = e.progStatus := by
  have none : e.ops.any (fun x => x.2.cancelled) = false := by simpa using cancels
  rw [Entry.status, squash, none, Bool.or_self, if_neg (by decide), if_pos failed]

theorem status_squashed (squash : e.squashed = true) : e.status = 0x02 := by simp [Entry.status, squash]

theorem status_ok (squash : e.squashed = false) (ops : ∀ x ∈ e.ops, x.2.cancelled = false ∧ x.2.status = 0) (ended : e.progStatus = 0) :
    e.status = 0 := by
  have none : e.ops.any (fun x => x.2.cancelled) = false := by simpa using fun x m => (ops x m).1
  have found : e.ops.find? (fun x => x.2.status ≠ 0) = .none := by simpa using fun x m => (ops x m).2
  rw [Entry.status, squash, none, Bool.or_self, if_neg (by decide), if_neg (not_not.mpr ended), Entry.opStatus, found]

end

/-! The record that may be written. -/

/-- The item whose record may be written: the oldest without one, its program ended and its operations complete (R29, R95). -/
theorem recordable_some {d : Dev} {g : Nat} {x : Entry} (h : d.recordable g = some x) : x.phase = .ended ∧ (∀ y ∈ x.ops, y.2.done = true) ∧
    (d.ring g).kept = none ∧ (d.ring g).entries.find? (fun e => !e.covered) = some x := by
  unfold Dev.recordable at h
  dsimp only at h
  split at h
  · cases h
  · rename_i e found
    rw [Option.ite_none_right_eq_some] at h
    obtain ⟨ok, h⟩ := h
    cases h
    simp only [Dev.decided, Entry.opsDone, Bool.and_eq_true, decide_eq_true_eq, Option.isNone_iff_eq_none, List.all_eq_true] at ok
    obtain ⟨⟨⟨⟨ended, done⟩, -⟩, -⟩, kept⟩ := ok
    exact ⟨ended, done, kept, found⟩

/-! The write of a record. -/

/-- A write that is refused has stored nothing. -/
theorem writeV_refused {d d1 : Dev} {f va : Nat} {bytes : List Byte} {x : Nat × Nat} (h : d.writeV f va bytes = (d1, .error x)) : Fetched d d1 := by
  have fetched := translateAll_fetched (pieces va bytes.length) d f .write
  unfold Dev.writeV Dev.writeVia at h
  split at h
  · rename_i t
    rw [t] at fetched
    cases h
    exact fetched
  · rename_i t
    rw [t] at fetched
    split at h
    · cases h
      exact fetched
    · cases h

section
variable {d d1 : Dev} {g last : Nat} {rec : W144} {notify : Bool}

/-- What the counting of a record finds for its event is as it was. -/
theorem recordDone_interval (d : Dev) (g last : Nat) :
    ((d.recordDone g last).ring g).every = (d.ring g).every ∧ ((d.recordDone g last).ring g).sinceEv = (d.ring g).sinceEv :=
  ⟨(congrArg Ring.every (recordDone_ring d g last) :), (congrArg Ring.sinceEv (recordDone_ring d g last) :)⟩

theorem writeRecord_ok (h : d.writeV (ringFn g) (d.ring g).recordAddr (toBytes 18 rec.toNat) = (d1, .ok ())) :
    (d.writeRecord g rec last notify).writes = d1.writes ∧
      ((d.writeRecord g rec last notify).ring g).cmplTail = (d.ring g).cmplTail + 1 ∧ ((d.writeRecord g rec last notify).ring g).doneAcc = last ∧
      ((d.writeRecord g rec last notify).ring g).kept = none := by
  rw [writeRecord_written h, ← (writeV_stored h).ring g]
  have ring := recorded_ring d1 g last notify
  refine ⟨?_, (congrArg Ring.cmplTail ring :), (congrArg Ring.doneAcc ring :), (congrArg Ring.kept ring :)⟩
  exact (recordEvent_ledgerOnly _ g notify).writes.trans (congrArg Dev.writes (recordDone_frame d1 g last) :)

theorem writeRecord_raises (h : d.writeV (ringFn g) (d.ring g).recordAddr (toBytes 18 rec.toNat) = (d1, .ok ()))
    (due : notify = true ∨ (d.ring g).every.toNat ≤ (d.ring g).sinceEv) :
    bit ((d.writeRecord g rec last notify).fn (ringFn g)).evStatus (ringKind g) = true ∧ ((d.writeRecord g rec last notify).ring g).sinceEv = 0 := by
  obtain ⟨every, since⟩ := recordDone_interval d1 g last
  rw [writeRecord_written h, recordEvent_raised _ g (by rwa [every, since, (writeV_stored h).ring g])]
  refine ⟨setEv_evStatus _ _ (Nat.lt_of_lt_of_le (Nat.mod_lt g (by decide)) (by decide)), ?_⟩
  rw [(setEv_signalled _ _ _).ring, Dev.ring_setRing_same]

theorem writeRecord_waits (h : d.writeV (ringFn g) (d.ring g).recordAddr (toBytes 18 rec.toNat) = (d1, .ok ()))
    (early : (d.ring g).sinceEv < (d.ring g).every.toNat) :
    ((d.writeRecord g rec last false).ring g).sinceEv = (d.ring g).sinceEv + 1 ∧ ((d.writeRecord g rec last false).ring g).oldestRec.isSome = true := by
  obtain ⟨every, since⟩ := recordDone_interval d1 g last
  rw [writeRecord_written h, recordEvent_waits _ g (by rwa [every, since, (writeV_stored h).ring g]), Dev.ring_setRing_same, since,
    (writeV_stored h).ring g]
  exact ⟨rfl, rfl⟩

/-- A record that cannot be written is kept with CMPL_FAULT and EV_FAULT (R95). -/
theorem writeRecord_faults {cause va : Nat} (h : d.writeV (ringFn g) (d.ring g).recordAddr (toBytes 18 rec.toNat) = (d1, .error (cause, va)))
    (on : d.resetting (ringFn g) = false) :
    (d.writeRecord g rec last notify).ring g = { d.ring g with kept := some rec, lost := false, err := setBit (d.ring g).err 1 true } ∧
      bit ((d.writeRecord g rec last notify).fn (ringFn g)).evStatus 5 = true := by
  have still : d1.resetting (ringFn g) = false := by rw [Dev.resetting, (writeV_refused h).rst, ← on, Dev.resetting]
  rw [writeRecord_kept h, Dev.ring_setRing_same, still]
  exact ⟨rfl, accessFault_raises d1 _ _ _ _ _⟩

end

/-! The commands of records. -/

section
variable (g : Fin 256) (s : State)

/-- What COMPLETION_RECORD_WRITE does. -/
def Dev.recordWrite (d : Dev) (g : Nat) : Dev :=
  if !d.runs 3 then d
  else
    match d.recordable g with
    | some e => d.writeRecord g e.record e.acc (bit e.item 52)
    | none => d

theorem exec_completionRecordWrite : exec (.completionRecordWrite g) s =
    runFrom (mpHost (ringFn g.val), mpHint (mpHost (ringFn g.val))) (fun d => d.recordWrite g.val) s := rfl

theorem exec_cmplRetry : exec (.cmplRetry g) s =
    runFrom (mpHost (ringFn g.val), mpHint (mpHost (ringFn g.val))) (fun d => if d.runs 3 then d.retryRecord g.val else d) s := rfl

/-- What COMPLETION_COALESCE_TIMEOUT does: the wait for the event ends 20 µs after its oldest record (R90). -/
def Dev.coalesceTimeout (d : Dev) (g at_ : Nat) : Dev :=
  match ((d.tick at_).ring g).oldestRec with
  | some t =>
    if t + 20000 ≤ (d.tick at_).now then
      ((d.tick at_).setRing g { (d.tick at_).ring g with sinceEv := 0, oldestRec := none }).setEv (ringFn g) (ringKind g)
    else d
  | none => d

theorem exec_completionCoalesceTimeout (at_ : Nat) : exec (.completionCoalesceTimeout g at_) s =
    runFrom (mpHost (ringFn g.val), mpHint (mpHost (ringFn g.val))) (fun d => d.coalesceTimeout g.val at_) s := rfl

end

/-- A head within the records tries a kept record again, for the item that it names (R95). -/
theorem cmplHead_kept {d : Dev} {g : Nat} {t : BitVec 16} {rec : W144} (within : span (d.ring g).head t ≤ span (d.ring g).head (d.ring g).cmplTail)
    (kept : (d.ring g).kept = some rec) (lost : (d.ring g).lost = false) :
    d.cmplHead g t = (d.setRing g { d.ring g with head := t }).writeRecord g rec (d.recordLast g rec).1 (d.recordLast g rec).2 := by
  have last : (d.setRing g { d.ring g with head := t }).recordLast g rec = d.recordLast g rec := by
    simp only [Dev.recordLast, Dev.entry, Ring.entry, Dev.ring_setRing_same]
  rw [cmplHead_taken within, retryRecord_kept (by rw [Dev.ring_setRing_same]; exact kept) (by rw [Dev.ring_setRing_same]; exact lost), last]

/-- Settles O25: the fields of the records, the item that is recorded, what its write leaves when it is done and when it faults, and the
commands that write, retry and end the wait. -/
theorem completionRecords : Obligations.CompletionRecords := by
  refine ⟨fun e => ?_, resetRecord_fields, fun s g x k up kept found => ?_, fun s g k up kept none => ?_, fun d g x => recordable_some,
    fun d d1 g last rec notify h => ?_, fun d d1 g last cause va rec notify h on => writeRecord_faults h on, fun s g rec k up kept lost => ?_,
    fun s f k v d r rec arr up hr kept lost within => ?_, fun s g t at_ k oldest due => ?_, fun s g at_ k none => ?_⟩
  · obtain ⟨acc, status, kind, superseded, deferred, late, replayed, result⟩ := record_fields (acc := e.acc % 2 ^ 64)
      (e.ops.any (fun x => x.2.superseded)) (e.ops.any (fun x => x.2.deferred)) (e.ops.any (fun x => x.2.late))
      (decide (1 < e.runs) || e.ops.any (fun x => x.2.replayed)) (Nat.mod_lt _ (by decide)) e.status.isLt e.resultField.isLt
    exact ⟨acc, status, kind, superseded, deferred, late, replayed, result, status_program, status_squashed, status_ok⟩
  · refine becomes_runFrom (exec_completionRecordWrite g s) k ?_ (writeRecord_stays s.dev g.val _ _ _).1
    simp [Dev.recordWrite, up, found]
  · refine becomes_runFrom (exec_completionRecordWrite g s) k ?_ (.refl _)
    simp [Dev.recordWrite, none]
  · obtain ⟨writes, tail, done, unkept⟩ := writeRecord_ok (last := last) (notify := notify) h
    refine ⟨rfl, writes, tail, done, unkept, writeRecord_raises h, ?_⟩
    rintro rfl
    exact writeRecord_waits h
  · refine becomes_runFrom (exec_cmplRetry g s) k ?_ (writeRecord_stays s.dev g.val _ _ _).1
    rw [if_pos up, retryRecord_kept kept lost]
  · subst hr
    exact becomes_ringWrite (exec_cmplHead f k v s) arr up (cmplHead_kept within kept lost) (EndsAlike.trans (.refl _) (writeRecord_stays _ _ _ _ _).1)
  · refine becomes_runFrom (exec_completionCoalesceTimeout g s at_) k ?_ (EndsAlike.trans (.refl _) (setEv_endsAlike _ _ _))
    unfold Dev.coalesceTimeout
    rw [show ((s.dev.tick at_).ring g.val).oldestRec = some t from oldest]
    exact if_pos due
  · refine becomes_runFrom (exec_completionCoalesceTimeout g s at_) k ?_ (.refl _)
    unfold Dev.coalesceTimeout
    rw [show ((s.dev.tick at_).ring g.val).oldestRec = Option.none from none]

end Sys2Proof.Machine
end

section
/-! Epoch boundaries (R86, R113, R114, R128, R263). -/

namespace Sys2Proof.Machine

/-! The rings at an epoch boundary. -/

/-- A table whose entries are all changed, when the change leaves the default. -/
theorem tget_map {α : Type} (f : α → α) (t : Tab α) (k : Nat) {e : α} (h : f e = e) : tget (t.map (fun x => (x.1, f x.2))) k e = f (tget t k e) := by
  induction t with
  | nil => exact h.symm
  | cons p r ih =>
    obtain ⟨j, v⟩ := p
    rw [List.map_cons, tget_cons, tget_cons, ih]
    split <;> rfl

/-- A ring whose thread sees an event. -/
def Ring.meet (kind param t : Nat) (r : Ring) : Ring := { r with thread := { r.thread with wait := r.thread.wait.meet kind param t } }

theorem occur_ring (d : Dev) (kind param g : Nat) : (d.occur kind param).ring g = (d.ring g).meet kind param d.now :=
  tget_map (Ring.meet kind param d.now) d.rings g rfl

/-- The rings take over the counts of an epoch. -/
def Dev.ringEpochs (d : Dev) : Dev := { d with rings := d.rings.map (fun x => (x.1, x.2.epoch)) }

theorem ringEpochs_ring (d : Dev) (g : Nat) : d.ringEpochs.ring g = (d.ring g).epoch := tget_map Ring.epoch d.rings g (by decide)

/-! The budgets of ports. -/

/-- A port with its written budget in force (R128). -/
def Port.inForceNow (x : Port) : Port := { x with inForce := x.written }

/-- The written budget of a port comes into force. -/
def Dev.budgetInForce (d : Dev) (p : Nat) : Dev := d.setPort p (d.port p).inForceNow

theorem budgetsInForce_port (d : Dev) (l : List Nat) (p : Nat) :
    (l.foldl Dev.budgetInForce d).port p = if p ∈ l then (d.port p).inForceNow else d.port p := by
  induction l generalizing d with
  | nil => rfl
  | cons q r ih =>
    rw [List.foldl_cons, ih, Dev.budgetInForce, Dev.port_setPort]
    by_cases e : q = p
    · subst e
      simp [Port.inForceNow]
    · simp [e, Ne.symm e]

theorem budgetsInForce_frame (d : Dev) (l : List Nat) : { l.foldl Dev.budgetInForce d with ports := d.ports } = d :=
  List.foldlRecOn l _ (motive := fun e : Dev => { e with ports := d.ports } = d) rfl (fun _ h _ _ => h)

/-! What an instant publishes. -/

/-- Published field words, live status words and the publication counter alone have changed (R263). -/
def StatusOnly (d e : Dev) : Prop := { e with objs := d.objs, comp := d.comp, publication := d.publication } = d

namespace StatusOnly

theorem refl (d : Dev) : StatusOnly d d := rfl

theorem trans {d e r : Dev} (h : StatusOnly d e) (k : StatusOnly e r) : StatusOnly d r :=
  (congrArg (fun x : Dev => { x with objs := d.objs, comp := d.comp, publication := d.publication }) k :).trans h

theorem foldl {α : Type} {f : Dev → α → Dev} (h : ∀ d x, StatusOnly d (f d x)) (l : List α) (d : Dev) : StatusOnly d (l.foldl f d) :=
  List.foldlRecOn l f (motive := StatusOnly d) (.refl d) (fun _ k x _ => k.trans (h _ x))

theorem ring {d e : Dev} (h : StatusOnly d e) (g : Nat) : e.ring g = d.ring g := (congrArg (fun x : Dev => x.ring g) h :)
theorem port {d e : Dev} (h : StatusOnly d e) (p : Nat) : e.port p = d.port p := (congrArg (fun x : Dev => x.port p) h :)

end StatusOnly

theorem publishWords_status (d : Dev) (cls inst : Nat) (ws : List Nat) : StatusOnly d (d.publishWords cls inst ws) :=
  .foldl (fun d w => by dsimp only; split <;> rfl) ws d

theorem setLive_status (d : Dev) (cls inst word : Nat) (v : W72) : StatusOnly d (d.setLive cls inst word v) := rfl

theorem touchStatus_status (d : Dev) (c : Nat) : StatusOnly d (d.touchStatus c) := by
  unfold Dev.touchStatus
  exact (((setLive_status d _ _ _ _).trans (setLive_status _ _ _ _ _)).trans (setLive_status _ _ _ _ _)).trans (publishWords_status _ _ _ _)

theorem hapStatus_status (d : Dev) (c : Nat) : StatusOnly d (d.hapStatus c) := by
  unfold Dev.hapStatus
  exact ((((setLive_status d _ _ _ _).trans (setLive_status _ _ _ _ _)).trans (setLive_status _ _ _ _ _)).trans (setLive_status _ _ _ _ _)).trans
    (publishWords_status _ _ _ _)

theorem cvuStatus_status (d : Dev) (u : Nat) : StatusOnly d (d.cvuStatus u) := by
  unfold Dev.cvuStatus
  exact (((setLive_status d _ _ _ _).trans (setLive_status _ _ _ _ _)).trans (setLive_status _ _ _ _ _)).trans (setLive_status _ _ _ _ _)

theorem timingStatus_status (d : Dev) (p : Nat) : StatusOnly d (d.timingStatus p) := by
  unfold Dev.timingStatus
  exact (((setLive_status d _ _ _ _).trans (setLive_status _ _ _ _ _)).trans (setLive_status _ _ _ _ _)).trans (setLive_status _ _ _ _ _)

theorem layoutStatus_status (d : Dev) (p : Nat) : StatusOnly d (d.layoutStatus p) := setLive_status d _ _ _ _

theorem publishPipe_status (d : Dev) (p : Nat) : StatusOnly d (d.publishPipe p) := by
  have pipe := (((timingStatus_status d p).trans (layoutStatus_status _ p)).trans (publishWords_status _ 0x01 p [12, 13, 14, 15])).trans
    (publishWords_status _ 0x02 p [28, 29, 30])
  have slots := pipe.trans (.foldl (fun d s => publishWords_status d 0x03 (16 * p + s) [20, 21, 22, 23]) (List.range 16) _)
  have planes := slots.trans (.foldl (fun d v => publishWords_status d 0x04 (4 * p + v) [14, 15]) (List.range 4) _)
  unfold Dev.publishPipe
  refine (planes.trans (.foldl (fun d z => ?_) (List.range 256) _)).trans (.foldl (fun d u => ?_) (List.range 32) _)
  · split
    · exact publishWords_status d 0x08 z _
    · exact .refl d
  · split
    · exact (cvuStatus_status d u).trans (publishWords_status _ 0x0A u _)
    · exact .refl d

theorem publishEpoch_status (d : Dev) : StatusOnly d d.publishEpoch := by
  have touch := StatusOnly.foldl touchStatus_status (List.range 12) d
  have haptic := touch.trans (.foldl hapStatus_status (List.range 16) _)
  unfold Dev.publishEpoch
  refine (haptic.trans (.foldl (fun d u => ?_) (List.range 32) _)).trans (.foldl (fun d p => ?_) (List.range 12) _)
  · split
    · exact (cvuStatus_status d u).trans (publishWords_status _ 0x0A u _)
    · exact .refl d
  · split
    · exact .refl d
    · exact publishPipe_status d p

theorem published_status (d e : Dev) : StatusOnly e (d.published e) := by
  unfold Dev.published
  split <;> rfl

/-- No pipe has started since the same state of the device. -/
theorem beginStarted_self (d : Dev) : d.beginStarted d = d := by simp [Dev.beginStarted, indices]

/-- Without commits, an instant only publishes. -/
theorem applyDue_empty {d : Dev} (none : d.commits = []) (due : Commit → Bool) (publish : Dev → Dev) :
    d.applyDue due publish = d.published (publish d) := by
  have same : ({ d with commits := [] } : Dev) = d := by rw [← none]
  simp [Dev.applyDue, none, same]

/-! The boundary. -/

/-- Rings, ports and events at a boundary. -/
def Dev.epochCounts (d : Dev) (at_ : Nat) : Dev :=
  (List.range 4).foldl Dev.budgetInForce (({ d.tick at_ with epochAt := at_ } : Dev).occur 4 0).ringEpochs

/-- What EPOCH_BOUNDARY does. -/
def Dev.epochBoundary (d : Dev) (at_ : Nat) : Dev :=
  if !d.awake || at_ % 1000000 ≠ 0 || at_ < d.now || at_ ≤ d.epochAt then d
  else
    let d3 := d.epochCounts at_
    let d4 := d3.applyDue (fun c => d3.atEpoch c && decide (c.time + 2000 ≤ at_)) (fun d => (d3.beginStarted d).publishEpoch)
    d4.rings.foldl (fun d x => d.retryRecord x.1) d4

theorem exec_epochBoundary (at_ : Nat) (s : State) : exec (.epochBoundary at_) s = run (fun d => d.epochBoundary at_) s := rfl

section
variable {d : Dev} {at_ : Nat}

theorem epochCounts_ring (now : d.now ≤ at_) (g : Nat) : (d.epochCounts at_).ring g = ((d.ring g).meet 4 0 at_).epoch := by
  have frame := budgetsInForce_frame (({ d.tick at_ with epochAt := at_ } : Dev).occur 4 0).ringEpochs (List.range 4)
  have instant : Nat.max d.now at_ = at_ := Nat.max_eq_right now
  refine (congrArg (fun x : Dev => x.ring g) frame :).trans ((ringEpochs_ring _ g).trans ?_)
  rw [occur_ring]
  show ((d.ring g).meet 4 0 (Nat.max d.now at_)).epoch = _
  rw [instant]

/-- Beside the instant, what a boundary changes before it publishes: events counted and seen, the rings and the ports. -/
theorem epochCounts_frame (now : d.now ≤ at_) :
    { d.epochCounts at_ with rings := d.rings, ports := d.ports, fw := d.fw } =
      { d with now := at_, epochAt := at_, events := tset d.events (evKey 4 0) (d.evCount 4 0 + 1) } := by
  have frame := budgetsInForce_frame (({ d.tick at_ with epochAt := at_ } : Dev).occur 4 0).ringEpochs (List.range 4)
  refine (congrArg (fun x : Dev => { x with rings := d.rings, ports := d.ports, fw := d.fw }) frame :).trans ?_
  show ({ d with now := Nat.max d.now at_, epochAt := at_, events := tset d.events (evKey 4 0) (d.evCount 4 0 + 1) } : Dev) = _
  rw [show Nat.max d.now at_ = at_ from Nat.max_eq_right now]

theorem epochBoundary_none (h : d.awake = false ∨ at_ % 1000000 ≠ 0 ∨ at_ < d.now ∨ at_ ≤ d.epochAt) : d.epochBoundary at_ = d := by
  refine if_pos ?_
  rcases h with h | h | h | h <;> simp [h]

/-- A boundary without commits due and records kept publishes, and does nothing else beside its counts. -/
theorem epochBoundary_status (up : d.awake = true) (whole : at_ % 1000000 = 0) (now : d.now ≤ at_) (later : d.epochAt < at_) (commits : d.commits = [])
    (kept : ∀ g, (d.ring g).kept = none) : StatusOnly (d.epochCounts at_) (d.epochBoundary at_) := by
  have none : (d.epochCounts at_).commits = [] := (congrArg Dev.commits (epochCounts_frame now) :).trans commits
  have status : StatusOnly (d.epochCounts at_) ((d.epochCounts at_).published (d.epochCounts at_).publishEpoch) :=
    (publishEpoch_status _).trans (published_status _ _)
  have eq : d.epochBoundary at_ = (d.epochCounts at_).published (d.epochCounts at_).publishEpoch := by
    unfold Dev.epochBoundary
    rw [if_neg (by simp [up, whole, Nat.not_lt.mpr now, Nat.not_le.mpr later])]
    dsimp only
    rw [applyDue_empty none, beginStarted_self]
    refine List.foldlRecOn _ _ (motive := fun e => e = (d.epochCounts at_).published (d.epochCounts at_).publishEpoch) rfl (fun e same x _ => ?_)
    rw [same]
    refine retryRecord_unkept ?_
    rw [status.ring, epochCounts_ring now]
    exact kept x.1
  rw [eq]
  exact status

end

/-- The counts of a complete epoch taken over (R86), as the ring's thread sees the boundary. -/
theorem meet_epoch (r : Ring) (at_ : Nat) :
    (r.meet 4 0 at_).epoch =
      { r with
        thread := { r.thread with wait := r.thread.wait.meet 4 0 at_ }
        offered := Nat.min r.curOffered 0xFFFF, admitted := Nat.min r.curAdmitted 0xFFFF, curOffered := 0, curAdmitted := 0
        blocked := if r.curAdmitted < r.backlog then Nat.min (2 ^ 24 - 1) (r.blocked + 1) else r.blocked
        backlog := (r.tail - r.acc).toNat } := by
  have blocked : satAdd 24 r.blocked 1 = Nat.min (2 ^ 24 - 1) (r.blocked + 1) := Nat.min_comm _ _
  rw [← blocked]
  rfl

theorem epochBoundary_does {s : State} {at_ : Nat} (k : s.Steady) (up : s.dev.awake = true) (whole : at_ % 1000000 = 0) (now : s.dev.now ≤ at_)
    (later : s.dev.epochAt < at_) (commits : s.dev.commits = []) (kept : ∀ g, (s.dev.ring g).kept = none) :
    Does (.epochBoundary at_) s (fun e =>
      e.now = at_ ∧ e.epochAt = at_ ∧ e.mem = s.dev.mem ∧ e.ops = s.dev.ops ∧ e.fns = s.dev.fns ∧ e.evCount 4 0 = s.dev.evCount 4 0 + 1 ∧
      (∀ p, p < 4 → (e.port p).inForce = (s.dev.port p).written ∧ (e.port p).written = (s.dev.port p).written) ∧
      ∀ g, e.ring g = ((s.dev.ring g).meet 4 0 at_).epoch) := by
  have status := epochBoundary_status up whole now later commits kept
  have counts := epochCounts_frame now
  have alike : EndsAlike s.dev (s.dev.epochBoundary at_) := EndsAlike.trans
    (show EndsAlike s.dev (s.dev.epochCounts at_) from ⟨(congrArg Dev.mem counts :), (congrArg Dev.update counts :), (congrArg Dev.safety counts :)⟩)
    ⟨(congrArg Dev.mem status :), (congrArg Dev.update status :), (congrArg Dev.safety status :)⟩
  have writes : (s.dev.epochBoundary at_).writes = s.dev.writes := (congrArg Dev.writes status :).trans (congrArg Dev.writes counts :)
  refine (does_passed (exec_epochBoundary at_ s) k rfl alike writes).imp (fun e p => ?_)
  refine ⟨?_, ?_, ?_, ?_, ?_, ?_, fun q lt => ?_, fun g => ?_⟩
  · exact ((congrArg Dev.now p :).trans (congrArg Dev.now status :)).trans (congrArg Dev.now counts :)
  · exact ((congrArg Dev.epochAt p :).trans (congrArg Dev.epochAt status :)).trans (congrArg Dev.epochAt counts :)
  · exact (congrArg Dev.mem p :).trans alike.1
  · exact ((congrArg Dev.ops p :).trans (congrArg Dev.ops status :)).trans (congrArg Dev.ops counts :)
  · exact ((congrArg Dev.fns p :).trans (congrArg Dev.fns status :)).trans (congrArg Dev.fns counts :)
  · have events : e.events = tset s.dev.events (evKey 4 0) (s.dev.evCount 4 0 + 1) :=
      ((congrArg Dev.events p :).trans (congrArg Dev.events status :)).trans (congrArg Dev.events counts :)
    rw [Dev.evCount, events, tget_tset_same]
  · have port : e.port q = (s.dev.port q).inForceNow :=
      ((congrArg (fun x : Dev => x.port q) p :).trans (status.port q)).trans
        ((budgetsInForce_port _ (List.range 4) q).trans (if_pos (List.mem_range.mpr lt)))
    rw [port]
    exact ⟨rfl, rfl⟩
  · rw [p.ring, status.ring, epochCounts_ring now]

end Sys2Proof.Machine
end

section
/-! Resets of sequencer cores (R105, R106, R109). -/

namespace Sys2Proof.Machine

/-! The rings of a core. -/

theorem mem_coreRings {c g : Nat} (hc : c < 8) (hg : g < 256) : g ∈ coreRings c ↔ g % 8 = c := by
  simp only [coreRings, List.mem_map, List.mem_range]
  exact ⟨fun ⟨i, _, e⟩ => by omega, fun e => ⟨g / 8, by omega, by omega⟩⟩

theorem coreRings_mod {c g : Nat} (hc : c < 8) (m : g ∈ coreRings c) : g % 8 = c := by
  simp only [coreRings, List.mem_map, List.mem_range] at m
  obtain ⟨i, -, e⟩ := m
  omega

theorem coreRings_nodup (c : Nat) : (coreRings c).Nodup := List.nodup_range.map (fun i j (e : 8 * i + c = 8 * j + c) => by omega)

section
variable {f : Dev → Nat → Dev} (others : ∀ d g h, h ≠ g → (f d g).ring h = d.ring h)
include others

/-- Steps that each change one ring leave the rings that they do not name. -/
theorem ring_foldl_ne (l : List Nat) {g : Nat} (out : g ∉ l) (d : Dev) : (l.foldl f d).ring g = d.ring g :=
  List.foldlRecOn l f (motive := fun e => e.ring g = d.ring g) rfl (fun e same a m => (others e a g (fun h => out (h ▸ m))).trans same)

/-- A ring that they name once is what its own step makes of it. -/
theorem ring_foldl_mem {l : List Nat} (once : l.Nodup) {g : Nat} (m : g ∈ l) (d : Dev) :
    ∃ e, e.ring g = d.ring g ∧ (l.foldl f d).ring g = (f e g).ring g := by
  induction l generalizing d with
  | nil => cases m
  | cons a r ih =>
    obtain ⟨out, once⟩ := List.nodup_cons.mp once
    rcases List.mem_cons.mp m with rfl | later
    · exact ⟨d, rfl, ring_foldl_ne others r out _⟩
    · obtain ⟨e, same, at_g⟩ := ih once later (f d a)
      exact ⟨e, same.trans (others d a g (fun h => out (h ▸ later))), at_g⟩

end

/-! Interruptions. -/

/-- The entry of an item after a change of it. -/
theorem entry_updEntry (r : Ring) (a : Nat) (h : Entry → Entry) (keep : ∀ e, (h e).acc = e.acc) :
    (r.updEntry a h).entry a = (r.entry a).map h := by
  have same : ((fun e : Entry => decide (e.acc = a)) ∘ fun e => if e.acc = a then h e else e) = fun e => decide (e.acc = a) := by
    funext e
    simp only [Function.comp_apply]
    split
    · rw [keep]
    · rfl
  rw [Ring.entry, Ring.updEntry, List.find?_map, same, Ring.entry]
  cases found : r.entries.find? (fun e => decide (e.acc = a)) with
  | none => rfl
  | some e =>
    have own : e.acc = a := by simpa using List.find?_some found
    simp [own]

/-- An entry with an interruption counted. -/
def Entry.interrupted (e : Entry) : Entry := { e with interrupts := e.interrupts + 1 }

/-- The ring with an interruption of item a counted. -/
def Ring.counted (r : Ring) (a : Nat) : Ring := r.updEntry a Entry.interrupted

/-- The interruptions of an item so far; none of one that the ledger does not hold. -/
def Ring.interruptions (r : Ring) (a : Nat) : Nat := match r.entry a with | some e => e.interrupts | none => 0

theorem counted_interruptions {r : Ring} {a : Nat} {x : Entry} (entry : r.entry a = some x) : (r.counted a).interruptions a = x.interrupts + 1 := by
  have eq : (r.counted a).entry a = (r.entry a).map Entry.interrupted := entry_updEntry r a Entry.interrupted (fun _ => rfl)
  rw [Ring.interruptions, eq, entry]
  rfl

section
variable {d : Dev} {g a : Nat} {x : Entry} (acc : (d.ring g).thread.acc = some a)
include acc

/-- An interruption is counted; the fourth one ends the program (R105, R109). -/
theorem interrupt_eq :
    d.interrupt g =
      if 4 ≤ ((d.ring g).counted a).interruptions a then (d.setRing g ((d.ring g).counted a)).endProgram g 0x12 (some 4)
      else (d.setRing g ((d.ring g).counted a)).updThread g (fun t => { t with buf := [], tx := none, wait := .none }) := by
  have same : (d.setRing g ((d.ring g).counted a)).entry g a = ((d.ring g).counted a).entry a := by rw [Dev.entry, Dev.ring_setRing_same]
  unfold Dev.interrupt
  rw [acc, Ring.interruptions, ← same]
  rfl

/-- An interrupted item loses its shadow, its wait and the operations in its buffer, and runs again later (R105). -/
theorem interrupt_again (entry : (d.ring g).entry a = some x) (few : x.interrupts < 3) :
    (d.interrupt g).ring g =
      { d.ring g with
        thread := { (d.ring g).thread with buf := [], tx := none, wait := .none }
        entries := (d.ring g).entries.map (fun y => if y.acc = a then { y with interrupts := y.interrupts + 1 } else y) } := by
  rw [interrupt_eq acc, counted_interruptions entry, if_neg (by omega), Dev.updThread, Dev.setRing_setRing, Dev.ring_setRing_same, Dev.ring_setRing_same]
  rfl

/-- A fourth interruption ends the item (R109). -/
theorem interrupt_fourth (entry : (d.ring g).entry a = some x) (many : 3 ≤ x.interrupts) :
    ((d.interrupt g).ring g).thread = Thread.idle ∧ ((d.interrupt g).ring g).entries = (d.ring g).entries.map (fun y => if y.acc = a then
      { y with interrupts := y.interrupts + 1, phase := .ended, progStatus := 0x12, result := some 4 } else y) := by
  have still : ((d.setRing g ((d.ring g).counted a)).ring g).thread.acc = some a := by
    rw [Dev.ring_setRing_same]
    exact acc
  rw [interrupt_eq acc, counted_interruptions entry, if_pos (by omega), Dev.endProgram_eq still, Dev.setRing_setRing, Dev.ring_setRing_same, Dev.ring_setRing_same]
  refine ⟨rfl, ?_⟩
  dsimp only
  rw [Ring.counted, Ring.updEntry, List.map_map]
  refine List.map_congr_left (fun y _ => ?_)
  by_cases own : y.acc = a <;> simp [own, Entry.interrupted]

end

/-- Rings alone have changed. -/
def RingsOnly (d e : Dev) : Prop := { e with rings := d.rings } = d

theorem RingsOnly.trans {d e r : Dev} (h : RingsOnly d e) (k : RingsOnly e r) : RingsOnly d r :=
  (congrArg (fun x : Dev => { x with rings := d.rings }) k :).trans h

theorem RingsOnly.endsAlike {d e : Dev} (h : RingsOnly d e) : EndsAlike d e :=
  ⟨(congrArg Dev.mem h :), (congrArg Dev.update h :), (congrArg Dev.safety h :)⟩

theorem RingsOnly.writes {d e : Dev} (h : RingsOnly d e) : e.writes = d.writes := (congrArg Dev.writes h :)

/-- A step that changes ring g alone. -/
def RingOnly (g : Nat) (d e : Dev) : Prop := RingsOnly d e ∧ ∀ h, h ≠ g → e.ring h = d.ring h

theorem interrupt_ringOnly (d : Dev) (g : Nat) : RingOnly g d (d.interrupt g) := by
  have set (x : Ring) : RingOnly g d (d.setRing g x) := ⟨rfl, fun h ne => Dev.ring_setRing_ne d ne x⟩
  cases acc : (d.ring g).thread.acc with
  | none =>
    rw [show d.interrupt g = d by simp [Dev.interrupt, acc]]
    exact ⟨rfl, fun _ _ => rfl⟩
  | some a =>
    rw [interrupt_eq acc]
    split
    · rw [Dev.endProgram_eq (a := a) (by rw [Dev.ring_setRing_same]; exact acc), Dev.setRing_setRing]
      exact set _
    · rw [Dev.updThread, Dev.setRing_setRing]
      exact set _

/-- The device with other cores down. -/
def Dev.withCoreDown (d : Dev) (t : Tab Nat) : Dev := { d with coreDown := t }

/-- Cores and rings alone have changed, beside the lattice. -/
theorem RingsOnly.passed_coreDown {d r e : Dev} {t : Tab Nat} (h : RingsOnly (d.withCoreDown t) r) (p : Passed r e) :
    e.coreDown = t ∧ { e with rings := d.rings, coreDown := d.coreDown, bus := d.bus } = d :=
  ⟨(congrArg Dev.coreDown p :).trans (congrArg Dev.coreDown h :),
    (congrArg (fun x : Dev => { x with rings := d.rings, coreDown := d.coreDown, bus := d.bus }) p :).trans
      (congrArg (fun x : Dev => { x with coreDown := d.coreDown, bus := d.bus }) h :)⟩

/-! The commands. -/

theorem exec_sequencerCoreReset (c : Fin 8) (s : State) : exec (.sequencerCoreReset c) s =
    run (fun d => if d.awake && (tfind d.coreDown c.val).isNone then d.coreReset c.val else d) s := rfl

theorem exec_sequencerCoreRestart (c : Fin 8) (at_ : Nat) (s : State) : exec (.sequencerCoreRestart c at_) s =
    run (fun d => if d.awake && (tfind d.coreDown c.val).isSome then (d.tick at_).coreRestart c.val else d) s := rfl

theorem coreReset_eq (d : Dev) (c : Nat) : d.coreReset c = (coreRings c).foldl Dev.interrupt (d.withCoreDown (tset d.coreDown c d.now)) := rfl

/-- Beside its rings, a reset leaves the core down. -/
theorem coreReset_only (d : Dev) (c : Nat) : RingsOnly (d.withCoreDown (tset d.coreDown c d.now)) (d.coreReset c) := by
  rw [coreReset_eq]
  exact List.foldlRecOn (coreRings c) Dev.interrupt (motive := RingsOnly _) rfl (fun e same g _ => same.trans (interrupt_ringOnly e g).1)

theorem coreReset_ne (d : Dev) {c g : Nat} (hc : c < 8) (ne : g % 8 ≠ c) : (d.coreReset c).ring g = d.ring g := by
  rw [coreReset_eq, ring_foldl_ne (fun d g => (interrupt_ringOnly d g).2) (coreRings c) (fun m => ne (coreRings_mod hc m))]
  rfl

theorem coreReset_mem (d : Dev) {c g : Nat} (hc : c < 8) (hg : g < 256) (own : g % 8 = c) :
    ∃ e : Dev, e.ring g = d.ring g ∧ (d.coreReset c).ring g = (e.interrupt g).ring g := by
  obtain ⟨e, same, eq⟩ := ring_foldl_mem (fun d g => (interrupt_ringOnly d g).2) (coreRings_nodup c) ((mem_coreRings hc hg).mpr own)
    (d.withCoreDown (tset d.coreDown c d.now))
  exact ⟨e, same, by rw [coreReset_eq, eq]⟩

/-- An interrupted item's run begins again. -/
def Dev.runAgain (d : Dev) (g : Nat) : Dev :=
  match (d.ring g).thread.acc with
  | none => d
  | some acc => match d.entry g acc with | some e => d.beginRun g e | none => d

theorem runAgain_only (d : Dev) (g : Nat) : LedgerOnly d (d.runAgain g) ∧ ∀ h, h ≠ g → (d.runAgain g).ring h = d.ring h := by
  unfold Dev.runAgain
  split
  · exact ⟨rfl, fun _ _ => rfl⟩
  · split
    · exact beginRun_only d g _
    · exact ⟨rfl, fun _ _ => rfl⟩

theorem runAgain_idle {d : Dev} {g : Nat} (idle : (d.ring g).thread.acc = none) : d.runAgain g = d := by simp [Dev.runAgain, idle]

theorem coreRestart_eq (d : Dev) (c : Nat) : d.coreRestart c = (coreRings c).foldl Dev.runAgain (d.withCoreDown (tdel d.coreDown c)) := rfl

theorem coreRestart_only (d : Dev) (c : Nat) : LedgerOnly (d.withCoreDown (tdel d.coreDown c)) (d.coreRestart c) := by
  rw [coreRestart_eq]
  exact List.foldlRecOn (coreRings c) Dev.runAgain (motive := LedgerOnly _) rfl (fun e same g _ => same.trans (runAgain_only e g).1)

theorem coreRestart_ne (d : Dev) {c g : Nat} (hc : c < 8) (ne : g % 8 ≠ c) : (d.coreRestart c).ring g = d.ring g := by
  rw [coreRestart_eq, ring_foldl_ne (fun d g => (runAgain_only d g).2) (coreRings c) (fun m => ne (coreRings_mod hc m))]
  rfl

theorem coreRestart_idle (d : Dev) {c g : Nat} (hc : c < 8) (hg : g < 256) (own : g % 8 = c) (idle : (d.ring g).thread.acc = none) :
    (d.coreRestart c).ring g = d.ring g := by
  obtain ⟨e, same, eq⟩ := ring_foldl_mem (fun d g => (runAgain_only d g).2) (coreRings_nodup c) ((mem_coreRings hc hg).mpr own)
    (d.withCoreDown (tdel d.coreDown c))
  rw [coreRestart_eq, eq, runAgain_idle (by rw [same]; exact idle), same]
  rfl

section
variable {s : State} {c : Fin 8} (k : s.Steady) (up : s.dev.awake = true)
include k up

theorem sequencerCoreReset_does (runs : tfind s.dev.coreDown c.val = none) :
    Does (.sequencerCoreReset c) s (Passed (s.dev.coreReset c.val)) := by
  have only := coreReset_only s.dev c.val
  exact does_passed (exec_sequencerCoreReset c s) k (by simp [up, runs]) (EndsAlike.trans (.refl _) only.endsAlike) only.writes

theorem sequencerCoreRestart_does {at_ t : Nat} (down : tfind s.dev.coreDown c.val = some t) :
    Does (.sequencerCoreRestart c at_) s (Passed ((s.dev.tick at_).coreRestart c.val)) := by
  have only := coreRestart_only (s.dev.tick at_) c.val
  exact does_passed (exec_sequencerCoreRestart c at_ s) k (by simp [up, down]) (EndsAlike.trans (.refl _) only.endsAlike) only.writes

end

/-- Settles O26: the boundary by its counts and what it publishes, the reset and the restart ring by ring. -/
theorem epochsAndCoreResets : Obligations.EpochsAndCoreResets := by
  refine ⟨fun s at_ k up whole now later commits kept => ?_, fun s at_ k out => ?_, fun s c k up runs => ?_, fun s c at_ t k up down => ?_,
    fun s c at_ k runs => ?_⟩
  · refine (epochBoundary_does k up whole now later commits kept).imp (fun e => ?_)
    rintro ⟨instant, epoch, mem, ops, fns, count, ports, rings⟩
    exact ⟨instant, epoch, mem, ops, fns, count, ports, fun g => (rings g).trans (meet_epoch _ at_)⟩
  · exact becomes_runFrom (exec_epochBoundary at_ s) k (epochBoundary_none out) (.refl _)
  · refine (sequencerCoreReset_does k up runs).imp (fun e p => ?_)
    obtain ⟨down, frame⟩ := (coreReset_only s.dev c.val).passed_coreDown p
    refine ⟨by rw [down, tfind_tset_same], frame, fun g ne => (p.ring g).trans (coreReset_ne s.dev c.isLt ne), fun g a lt own acc x entry => ?_⟩
    obtain ⟨d, same, eq⟩ := coreReset_mem s.dev c.isLt lt own
    rw [Dev.entry, ← same] at entry
    rw [← same] at acc
    rw [p.ring, eq, ← same]
    exact ⟨interrupt_again acc entry, interrupt_fourth acc entry⟩
  · refine (sequencerCoreRestart_does k up down).imp (fun e p => ?_)
    have only := p.ledgerOnly (coreRestart_only (s.dev.tick at_) c.val)
    exact ⟨(congrArg Dev.coreDown only :), (congrArg Dev.now only :), fun g ne => (p.ring g).trans (coreRestart_ne _ c.isLt ne), (congrArg Dev.ops only :),
      fun g lt own idle => (p.ring g).trans (coreRestart_idle (s.dev.tick at_) c.isLt lt own idle), (congrArg Dev.mem only :)⟩
  · exact becomes_runFrom (exec_sequencerCoreRestart c at_ s) k (by simp [runs]) (.refl _)

end Sys2Proof.Machine
end

section
/-! The state after reset (R86, R96, R128). -/

namespace Sys2Proof.Machine

/-- No access is left over in the state after reset, and its memory is empty. -/
theorem reset_inv : State.reset.Inv := ⟨rfl, rfl, rfl, rfl⟩

theorem reset_ring (g : Nat) : State.reset.dev.ring g = Ring.atReset := tget_nil g _
theorem reset_port (p : Nat) : State.reset.dev.port p = Port.atReset := tget_nil p _

/-- Settles O5: the state after reset lists nothing, so that its rings and ports are those of their reset values. -/
theorem resetState : Obligations.ResetState := by
  refine ⟨reset_inv, reset_ring, rfl, rfl, rfl, rfl, rfl, rfl, rfl, rfl, rfl, fun p => ?_, rfl, rfl, rfl, rfl, rfl, rfl⟩
  rw [reset_port]
  exact ⟨rfl, rfl, rfl⟩

end Sys2Proof.Machine
end

section
/-! Requests of hosts for control blocks, port registers and configuration space, and what their effects rest on (R122, R126, R450). -/

namespace Sys2Proof.Machine

section
variable {i : Instr} {s : State} {host f : Nat} {h : Dev → Dev} {d e : Dev}

/-- A request that arrives takes effect. -/
theorem becomes_hosted (x : exec i s = run (hosted i f h) s) (k : Arrives s f d) (he : h d = e) (m : EndsAlike d e) : Becomes i s e :=
  becomes_runFrom x k.1 ((k.hosted_eq i h).trans he) (k.endsAlike.trans m)

/-- A write to a control block that the host reaches takes effect (R126). -/
theorem becomes_blockWrite (x : exec i s = run (blockWrite i host f h) s) (k : Arrives s host d) (reach : d.reachesBlock host f = true) (he : h d = e)
    (m : EndsAlike d e) : Becomes i s e :=
  becomes_hosted x k ((if_pos reach).trans he) m

/-- A write to a control block that the host does not reach has no effect (R126). -/
theorem becomes_blockWrite_foreign (x : exec i s = run (blockWrite i host f h) s) (k : Arrives s host d) (out : d.reachesBlock host f = false) :
    Becomes i s d :=
  becomes_hosted x k (if_neg (ne_true_of_eq_false out)) (.refl d)

/-! Configuration requests. -/

theorem Configured.steady (k : Configured s f d) : s.Steady := k.1

/-- A configuration request takes effect on the device at which it arrives. -/
theorem Configured.cfgHosted_eq (k : Configured s f d) (i : Instr) (h : Dev → Dev) : cfgHosted i f h s.dev = h d := by
  obtain ⟨-, reach, awake, rfl⟩ := k
  simp [cfgHosted, reach, awake]

theorem Configured.endsAlike (k : Configured s f d) : EndsAlike s.dev d := by
  obtain ⟨-, -, -, rfl⟩ := k
  rw [Dev.hostFired_eq]
  exact .refl _

theorem Configured.owesNothing (k : Configured s f d) : OwesNothing s d := by
  obtain ⟨steady, -, -, rfl⟩ := k
  exact steady.owesNothing.hostFired f

theorem becomes_configured (x : exec i s = run (cfgHosted i f h) s) (k : Configured s f d) (he : h d = e) (m : EndsAlike d e) : Becomes i s e :=
  becomes_runFrom x k.1 ((k.cfgHosted_eq i h).trans he) (k.endsAlike.trans m)

/-- A function that configuration requests reach: the device is ready, the function exists, its link is up and nothing is frozen. -/
theorem Dev.cfgReach_iff : d.cfgReach f = true ↔ d.boot.stage = .ready ∧ d.exists_ f = true ∧
    ((d.port (f / 16)).link = .l0 ∨ (d.port (f / 16)).link = .l1) ∧ d.freeze.at_ = none := by
  simp [Dev.cfgReach, and_assoc]

end

/-- A write of a register of configuration space. -/
theorem becomes_configRequest_write {s : State} {f : Fin 64} {reg : CfgReg} {v : BitVec 32} {d e : Dev} (k : Configured s f.val d)
    (set : d.cfgSet f.val reg v.toNat = e) (o : OwesNothing s e) :
    Becomes (.configRequest f reg (some v)) s { e with host := some (.data []) } := by
  obtain ⟨-, reach, awake, rfl⟩ := k
  obtain ⟨boot, here, link, -⟩ := Dev.cfgReach_iff.mp reach
  refine becomes_configRequest_served reg (some v) link boot awake ?_ o
  rw [Dev.cfgServe_write (by simpa using here), set]

end Sys2Proof.Machine
end

section
/-! Roots, invalidations, dirty logging, and precision time measurement (R141, R145, R146, R149, R150, R163). -/

namespace Sys2Proof.Machine

/-! Fields that are written. -/

theorem fld_eq_setWidth {w : Nat} (v : BitVec w) (n : Nat) : fld v 0 n = (v.setWidth n).toNat := by
  simp [fld, bitsN]

theorem setWidth_eq_zero_iff {w : Nat} (v : BitVec w) (n : Nat) : v.setWidth n = 0 ↔ fld v 0 n = 0 := by
  rw [fld_eq_setWidth, ← BitVec.toNat_inj]
  rfl

/-! The address space of a function. -/

section
variable {d : Dev} {f : Nat}

/-- Mode 3, and bypass for a function that is not the manager, are discarded (R16, R146). -/
theorem iommuRoot_discarded {v : BitVec 64} (bad : fld v 0 2 = 3 ∨ (fld v 0 2 = 2 ∧ f ≠ d.manager)) : d.iommuRoot f v = d := if_pos bad

/-- A defined mode is taken, and a whole-space invalidation starts or waits (R145). -/
theorem iommuRoot_taken {v : BitVec 64} (mode : fld v 0 2 ≠ 3) (bypass : fld v 0 2 = 2 → f = d.manager) :
    d.iommuRoot f v = d.setFn f ({ d.fn f with iommuRoot := v &&& 0x000000FFFFFFF003 } : Fn).invWholeSpace := by
  refine if_neg ?_
  rintro (three | ⟨two, other⟩)
  · exact mode three
  · exact other (bypass two)

theorem invCtl_busy {v : BitVec 32} (busy : (d.fn f).invGo = true) : d.invCtl f v = d := by simp [Dev.invCtl, busy]

theorem invCtl_starts {v : BitVec 32} (free : (d.fn f).invGo = false) :
    d.invCtl f v = d.setFn f { d.fn f with invPages := v.setWidth 20, invGo := bit v 31, invWhole := bit v 31 && fld v 0 20 = 0 } := by
  have whole : decide ((v.setWidth 20 : BitVec 20) = 0) = decide (fld v 0 20 = 0) := by rw [decide_eq_decide, setWidth_eq_zero_iff]
  simp only [Dev.invCtl, free, whole, Bool.false_eq_true, if_false]

/-- What ENABLE and the clear of OUT_OF_RANGE leave of a function (R149). -/
def Fn.dirtyEnabled (x : Fn) (v : BitVec 32) : Fn :=
  { x with dirtyEnable := bit v 31, dirtyCount := (if bit v 31 && !x.dirtyEnable then 0 else x.dirtyCount), dirtyOut := x.dirtyOut && !bit v 28 }

theorem dirtyCtl_noPages {v : BitVec 32} (on : bit v 31 = true) (none : (d.fn f).dirtyPages = 0) : d.dirtyCtl f v = d := by
  simp [Dev.dirtyCtl, on, none]

/-- The write is taken unless it enables logging of no pages; SWAP exchanges the bitmaps unless an exchange is under way (R149, R150). -/
theorem dirtyCtl_taken {v : BitVec 32} (pages : bit v 31 = false ∨ (d.fn f).dirtyPages ≠ 0) :
    d.dirtyCtl f v = d.setFn f (if bit v 30 && !(d.fn f).dirtySwap then
      { (d.fn f).dirtyEnabled v with dirtyActive := !(d.fn f).dirtyActive, dirtyCount := 0, dirtySwap := true } else (d.fn f).dirtyEnabled v) := by
  refine if_neg ?_
  rcases pages with off | some
  · simp [off]
  · simpa using fun _ => some

end

section
variable (host f : Fin 64) (v : BitVec 32) (s : State)

theorem exec_iommuRoot (u : BitVec 64) : exec (.iommuRoot host f u) s = run (blockWrite (.iommuRoot host f u) host.val f.val (fun d => d.iommuRoot f.val u)) s := rfl
theorem exec_invCtl : exec (.invCtl host f v) s = run (blockWrite (.invCtl host f v) host.val f.val (fun d => d.invCtl f.val v)) s := rfl
theorem exec_dirtyCtlEnable : exec (.dirtyCtlEnable host f v) s =
    run (blockWrite (.dirtyCtlEnable host f v) host.val f.val (fun d => d.dirtyCtl f.val v)) s := rfl
theorem exec_swap : exec (.swap host f v) s = run (blockWrite (.swap host f v) host.val f.val (fun d => d.dirtyCtl f.val v)) s := rfl
theorem exec_swapDone : exec (.swapDone f) s = run (fun d => d.setFn f.val { d.fn f.val with dirtySwap := false }) s := rfl
theorem exec_ptmCtlReq : exec (.ptmCtlReq f v) s = run (hosted (.ptmCtlReq f v) f.val (fun d => d.ptmCtl f.val v)) s := rfl

end

variable {s : State} {host f : Fin 64} {d : Dev}

theorem iommuRoot_becomes {v : BitVec 64} (k : Arrives s host.val d) (reach : d.reachesBlock host.val f.val = true) :
    ((fld v 0 2 = 3 ∨ (fld v 0 2 = 2 ∧ f.val ≠ d.manager)) → Becomes (.iommuRoot host f v) s d) ∧
    (fld v 0 2 ≠ 3 → (fld v 0 2 = 2 → f.val = d.manager) → (d.fn f.val).invGo = false →
      Becomes (.iommuRoot host f v) s (d.setFn f.val { d.fn f.val with iommuRoot := v &&& 0x000000FFFFFFF003, invGo := true, invWhole := true })) ∧
    (fld v 0 2 ≠ 3 → (fld v 0 2 = 2 → f.val = d.manager) → (d.fn f.val).invGo = true →
      Becomes (.iommuRoot host f v) s (d.setFn f.val { d.fn f.val with iommuRoot := v &&& 0x000000FFFFFFF003, invQueued := true })) := by
  have write {e : Dev} := becomes_blockWrite (e := e) (exec_iommuRoot host f s v) k reach
  refine ⟨fun bad => write (iommuRoot_discarded bad) (.refl d), fun mode bypass free => ?_, fun mode bypass busy => ?_⟩
  · refine write ((iommuRoot_taken mode bypass).trans ?_) (.refl _)
    simp [Fn.invWholeSpace, free]
  · refine write ((iommuRoot_taken mode bypass).trans ?_) (.refl _)
    simp [Fn.invWholeSpace, busy]

/-- The end of an invalidation: the cached entries that it takes in are gone, and one that waited begins (R145). -/
def Fn.invalidated (x : Fn) : Fn :=
  { x with tlb := x.tlb.filter (fun e => !x.invCovers e.2), invGo := x.invQueued, invWhole := x.invQueued, invQueued := false }

theorem exec_invalidationDone : exec (.invalidationDone f) s =
    run (fun d => if !(d.fn f.val).invGo then d else d.setFn f.val (d.fn f.val).invalidated) s := rfl

theorem invalidationDone_idle (k : s.Steady) (idle : (s.dev.fn f.val).invGo = false) : Becomes (.invalidationDone f) s s.dev :=
  becomes_run_same exec_invalidationDone k (by simp [idle])

theorem invalidationDone_does (k : s.Steady) (busy : (s.dev.fn f.val).invGo = true) :
    Does (.invalidationDone f) s (Passed (s.dev.setFn f.val (s.dev.fn f.val).invalidated)) :=
  does_passed exec_invalidationDone k (by simp [busy]) (.refl _) rfl

theorem dirtyCtl_becomes {v : BitVec 32} (k : Arrives s host.val d) (reach : d.reachesBlock host.val f.val = true) {e : Dev} (he : d.dirtyCtl f.val v = e)
    (m : EndsAlike d e) : Becomes (.dirtyCtlEnable host f v) s e ∧ Becomes (.swap host f v) s e :=
  ⟨becomes_blockWrite (exec_dirtyCtlEnable host f v s) k reach he m, becomes_blockWrite (exec_swap host f v s) k reach he m⟩

/-! Precision time measurement. -/

section
variable {x : Port} {now : Nat}

theorem Port.ptmStart_starts (on : x.ptmEnable = true) (link : x.link = .l0) (free : x.ptmBusy = false) :
    x.ptmStart now = { x with ptmBusy := true, ptmFrom := now } := by simp [Port.ptmStart, on, link, free]

theorem Port.ptmStart_waits (h : x.ptmEnable = false ∨ x.link ≠ .l0 ∨ x.ptmBusy = true) : x.ptmStart now = x := by
  refine if_neg ?_
  rcases h with off | down | busy
  · simp [off]
  · simp [down]
  · simp [busy]

end

/-- What a PF's write of PTM_CTL leaves of the port beside REQ: the period, and when it is next over (R163). -/
def Port.ptmTimed (x : Port) (v : BitVec 32) (now : Nat) : Port :=
  { x with ptmPeriod := v.setWidth 16, ptmNext := now + fld v 0 16 * 1000000 }

theorem ptmCtl_pf {v : BitVec 32} {f : Nat} (pf : f % 16 = 0) :
    d.ptmCtl f v = d.setPort (f / 16) (if bit v 31 then ({ (d.port (f / 16)).ptmTimed v d.now with ptmReq := true } : Port).ptmStart d.now
      else (d.port (f / 16)).ptmTimed v d.now) := by
  simp [Dev.ptmCtl, pf, Port.ptmTimed, fld_eq_setWidth]

theorem ptmCtl_vf {v : BitVec 32} {f : Nat} (vf : f % 16 ≠ 0) : d.ptmCtl f v = d := if_pos vf

theorem ptmCtlReq_becomes {v : BitVec 32} {y : Port} (k : Arrives s f.val d) (pf : f.val % 16 = 0) (hy : y = (d.port (f.val / 16)).ptmTimed v d.now) :
    (bit v 31 = false → Becomes (.ptmCtlReq f v) s (d.setPort (f.val / 16) y)) ∧
    (bit v 31 = true → (d.port (f.val / 16)).ptmEnable = true → (d.port (f.val / 16)).link = .l0 → (d.port (f.val / 16)).ptmBusy = false →
      Becomes (.ptmCtlReq f v) s (d.setPort (f.val / 16) { y with ptmReq := true, ptmBusy := true, ptmFrom := d.now })) ∧
    (bit v 31 = true → ((d.port (f.val / 16)).ptmEnable = false ∨ (d.port (f.val / 16)).link ≠ .l0 ∨ (d.port (f.val / 16)).ptmBusy = true) →
      Becomes (.ptmCtlReq f v) s (d.setPort (f.val / 16) { y with ptmReq := true })) := by
  subst hy
  have write {e : Dev} := becomes_hosted (e := e) (exec_ptmCtlReq f v s) k
  refine ⟨fun noReq => write ((ptmCtl_pf pf).trans ?_) (.refl _), fun req on link free => write ((ptmCtl_pf pf).trans ?_) (.refl _),
    fun req waits => write ((ptmCtl_pf pf).trans ?_) (.refl _)⟩
  · rw [noReq, if_neg Bool.false_ne_true]
  · rw [req, if_pos rfl, Port.ptmStart_starts (x := { Port.ptmTimed _ v d.now with ptmReq := true }) on link free]
  · rw [req, if_pos rfl, Port.ptmStart_waits (x := { Port.ptmTimed _ v d.now with ptmReq := true }) waits]

/-- The port when its period is over: the next period begins, with a dialog if one can start (R163). -/
def Port.ptmPeriodOver (x : Port) (now : Nat) : Port := ({ x with ptmNext := now + x.ptmPeriod.toNat * 1000000 } : Port).ptmStart now

section
variable {p : Fin 4} {at_ sentAt hostTime delay : Nat} {ok : Bool}

theorem exec_ptmPeriodExpiry : exec (.ptmPeriodExpiry p at_) s =
    run (fun d => if (d.port p.val).ptmPeriod = 0 ∨ Nat.max d.now at_ < (d.port p.val).ptmNext ∨ !(d.tick at_).awake then d
      else (d.tick at_).setPort p.val ((d.port p.val).ptmPeriodOver (Nat.max d.now at_))) s := rfl

theorem ptmPeriodExpiry_becomes (k : s.Steady) (hd : d = { s.dev with now := Nat.max s.dev.now at_ }) (on : (s.dev.port p.val).ptmPeriod ≠ 0)
    (past : (s.dev.port p.val).ptmNext ≤ d.now) (up : s.dev.awake = true) {y : Port} (hy : (s.dev.port p.val).ptmPeriodOver d.now = y) :
    Becomes (.ptmPeriodExpiry p at_) s (d.setPort p.val y) := by
  subst hd hy
  refine becomes_runFrom exec_ptmPeriodExpiry k (if_neg ?_) (.refl _)
  rintro (zero | early | down)
  · exact on zero
  · exact absurd past (Nat.not_le.mpr early)
  · simp [show (s.dev.tick at_).awake = true from up] at down

theorem ptmPeriodExpiry_off (k : s.Steady) (off : (s.dev.port p.val).ptmPeriod = 0) : Becomes (.ptmPeriodExpiry p at_) s s.dev :=
  becomes_run_same exec_ptmPeriodExpiry k (if_pos (.inl off))

/-- The sample that a response gives (R164). -/
def Port.ptmSampled (x : Port) (sentAt hostTime delay : Nat) : Port :=
  { x with
    ptmBusy := false, ptmReq := false, ptmValid := true, ptmDevtime := BitVec.ofNat 64 sentAt, ptmHost := BitVec.ofNat 64 hostTime
    ptmDelay := BitVec.ofNat 32 delay }

theorem exec_ptmResponse : exec (.ptmResponse p ok sentAt hostTime delay) s = run (fun d =>
    if !(d.port p.val).ptmBusy || (ok && (decide (sentAt < (d.port p.val).ptmFrom) || decide (Nat.max d.now (d.port p.val).ptmFrom < sentAt))) then d
    else if !ok then d.setPort p.val { d.port p.val with ptmBusy := false, ptmReq := false }
    else d.setPort p.val ((d.port p.val).ptmSampled sentAt hostTime delay)) s := rfl

/-- A response without a dialog, or to a request sent outside it, changes nothing (R163, R164). -/
theorem ptmResponse_ignored (k : s.Steady) (h : (s.dev.port p.val).ptmBusy = false ∨
      (ok = true ∧ (sentAt < (s.dev.port p.val).ptmFrom ∨ Nat.max s.dev.now (s.dev.port p.val).ptmFrom < sentAt))) :
    Becomes (.ptmResponse p ok sentAt hostTime delay) s s.dev := by
  refine becomes_run_same exec_ptmResponse k (if_pos ?_)
  rcases h with idle | ⟨rfl, early | late⟩
  · rw [idle]
    rfl
  · rw [decide_eq_true early]
    simp
  · rw [decide_eq_true late]
    simp

theorem ptmResponse_samples (k : s.Steady) (busy : (s.dev.port p.val).ptmBusy = true) (lo : (s.dev.port p.val).ptmFrom ≤ sentAt)
    (hi : sentAt ≤ Nat.max s.dev.now (s.dev.port p.val).ptmFrom) :
    Becomes (.ptmResponse p true sentAt hostTime delay) s (s.dev.setPort p.val ((s.dev.port p.val).ptmSampled sentAt hostTime delay)) := by
  refine becomes_runFrom exec_ptmResponse k ((if_neg ?_).trans (if_neg Bool.false_ne_true)) (.refl _)
  rw [busy, decide_eq_false (Nat.not_lt.mpr lo), decide_eq_false (Nat.not_lt.mpr hi)]
  decide

theorem ptmResponse_fails (k : s.Steady) (busy : (s.dev.port p.val).ptmBusy = true) :
    Becomes (.ptmResponse p false sentAt hostTime delay) s (s.dev.setPort p.val { s.dev.port p.val with ptmBusy := false, ptmReq := false }) := by
  refine becomes_runFrom exec_ptmResponse k ((if_neg ?_).trans (if_pos rfl)) (.refl _)
  rw [busy]
  exact Bool.false_ne_true

end

theorem cfgSet_ptmEnable {v : BitVec 32} {f : Nat} (pf : f % 16 = 0) :
    d.cfgSet f .ptmEnable v.toNat = d.setPort (f / 16) ((d.port (f / 16)).ptmSet (bit v 0) d.now) := by
  have on : decide (v.toNat % 2 = 1) = bit v 0 := by simp [bit, BitVec.getLsbD, Nat.testBit_zero]
  simp [Dev.cfgSet, pf, on]

/-- PTM Enable cleared ends the dialog; set, it starts the one that REQ waits for (R163). -/
theorem ptmEnable_becomes {v : BitVec 32} {x y : Port} (k : Configured s f.val d) (pf : f.val % 16 = 0) (hx : x = d.port (f.val / 16))
    (hy : x.ptmSet (bit v 0) d.now = y) :
    Becomes (.configRequest f .ptmEnable (some v)) s { d.setPort (f.val / 16) y with host := some (.data []) } := by
  subst hx hy
  exact becomes_configRequest_write k (cfgSet_ptmEnable pf) k.owesNothing

/-- Settles O31: each register by what its write does, each end by what it waits for. -/
theorem hostAddressAndTime : Obligations.HostAddressAndTime := by
  refine ⟨?_, ?_, ?_, ?_, ?_, ?_, ?_, ?_, ?_, ?_, ?_, ?_⟩
  · rintro s host f v d x k reach rfl
    exact iommuRoot_becomes k reach
  · rintro s host f v d x k reach rfl
    exact ⟨fun busy => becomes_blockWrite (exec_invCtl host f v s) k reach (invCtl_busy busy) (.refl d),
      fun free => becomes_blockWrite (exec_invCtl host f v s) k reach (invCtl_starts free) (.refl _)⟩
  · rintro s f x k rfl
    refine ⟨invalidationDone_idle k, fun busy => (invalidationDone_does k busy).imp (fun e passed => ⟨?_, fun h ne => ?_, ?_⟩)⟩
    · rw [passed.fn, Dev.fn_setFn_same]
      rfl
    · rw [passed.fn, Dev.fn_setFn, if_neg ne.symm]
    · exact (congrArg (fun x : Dev => { x with fns := s.dev.fns }) passed :)
  · rintro s host f v d x k reach rfl
    refine ⟨fun on none => dirtyCtl_becomes k reach (dirtyCtl_noPages on none) (.refl d), fun pages y hy => ⟨fun stay => ?_, fun swap free => ?_⟩⟩
    · refine dirtyCtl_becomes k reach ((dirtyCtl_taken pages).trans ?_) (.refl _)
      rw [hy, if_neg (by rcases stay with off | under <;> simp [*])]
      rfl
    · rw [and_comm]
      refine dirtyCtl_becomes k reach ((dirtyCtl_taken pages).trans ?_) (.refl _)
      rw [hy, if_pos (by simp [swap, free])]
      rfl
  · exact fun s f k => becomes_runFrom (exec_swapDone f s) k rfl (.refl _)
  · exact fun s host f v u d k out => ⟨becomes_blockWrite_foreign (exec_iommuRoot host f s u) k out, becomes_blockWrite_foreign (exec_invCtl host f v s) k out,
      becomes_blockWrite_foreign (exec_dirtyCtlEnable host f v s) k out, becomes_blockWrite_foreign (exec_swap host f v s) k out⟩
  · rintro s f v d x y k pf rfl hy
    exact ptmCtlReq_becomes k pf hy
  · exact fun s f v d k vf => becomes_hosted (exec_ptmCtlReq f v s) k (ptmCtl_vf vf) (.refl d)
  · rintro s p at_ d x k hd rfl
    refine ⟨fun on past up enable link free => ?_, fun on past up waits => ?_, fun off => ptmPeriodExpiry_off k off⟩
    · exact ptmPeriodExpiry_becomes k hd on past up (Port.ptmStart_starts enable link free)
    · exact ptmPeriodExpiry_becomes k hd on past up (Port.ptmStart_waits waits)
  · rintro s p sentAt hostTime delay x k rfl busy
    exact ⟨ptmResponse_samples k busy, fun out => ptmResponse_ignored k (.inr ⟨rfl, out⟩), ptmResponse_fails k busy⟩
  · exact fun s p ok sentAt hostTime delay k idle => ptmResponse_ignored k (.inl idle)
  · intro s f v d x k pf hx
    refine ⟨fun off => ptmEnable_becomes k pf hx ?_, fun on req link free => ptmEnable_becomes k pf hx ?_⟩
    · rw [off]
      rfl
    · simp [on, Port.ptmSet, Port.ptmPending, Port.ptmStart, req, link, free]

end Sys2Proof.Machine
end

section
/-! What stops when a function is reset: its programs, its waiting commits and its operations, and nothing of another function (R102, R158, R161). -/

namespace Sys2Proof.Machine

/-! The entries of a ring whose items are squashed. -/

/-- A change of entries that keeps their items, and what has ended or is squashed. -/
def Squashing (h : Entry → Entry) : Prop :=
  ∀ x, (h x).acc = x.acc ∧ (h x).covered = x.covered ∧ (x.phase = .ended → (h x).phase = .ended) ∧ (x.squashed = true → (h x).squashed = true)

/-- Only the thread of a ring has changed, and its entries by a change of that kind. -/
def Ring.Squashed (r t : Ring) : Prop :=
  (∃ h, Squashing h ∧ t.entries = r.entries.map h) ∧ { t with thread := r.thread, entries := r.entries } = r

theorem Ring.Squashed.refl (r : Ring) : r.Squashed r := ⟨⟨id, fun _ => ⟨rfl, rfl, id, id⟩, (List.map_id _).symm⟩, rfl⟩

theorem Ring.Squashed.trans {r t u : Ring} (h : r.Squashed t) (k : t.Squashed u) : r.Squashed u := by
  obtain ⟨⟨a, sa, ea⟩, frame⟩ := h
  obtain ⟨⟨b, sb, eb⟩, frame'⟩ := k
  refine ⟨⟨b ∘ a, fun x => ?_, by rw [eb, ea, List.map_map]⟩,
    (congrArg (fun y : Ring => { y with thread := r.thread, entries := r.entries }) frame' :).trans frame⟩
  obtain ⟨acc, covered, phase, squash⟩ := sa x
  obtain ⟨acc', covered', phase', squash'⟩ := sb (a x)
  exact ⟨acc'.trans acc, covered'.trans covered, phase' ∘ phase, squash' ∘ squash⟩

/-- An item squashed. -/
theorem squashing_item (a : Nat) : Squashing (fun e => if e.acc = a then { e with squashed := true } else e) := by
  intro x
  dsimp only
  split <;> simp

/-- What its program's stop leaves of a ring (R70, R76, R158). -/
def Ring.halted (r : Ring) : Ring :=
  match r.thread.acc with
  | none => r
  | some a => { r with thread := .idle, entries := r.entries.map (fun e => if e.acc = a then { e with phase := .ended, squashed := true } else e) }

theorem Ring.halted_acc (r : Ring) : r.halted.thread.acc = none := by
  unfold Ring.halted
  split
  · assumption
  · rfl

theorem Ring.halted_squashed (r : Ring) : r.Squashed r.halted := by
  unfold Ring.halted
  split
  · exact .refl r
  · rename_i a _
    refine ⟨⟨_, fun x => ?_, rfl⟩, rfl⟩
    split <;> simp

/-- The item of the program that stopped has ended and is squashed. -/
theorem Ring.halted_item {r : Ring} {a : Nat} (acc : r.thread.acc = some a) {x : Entry} (m : x ∈ r.halted.entries) (own : x.acc = a) :
    x.phase = .ended ∧ x.squashed = true := by
  simp only [Ring.halted, acc, List.mem_map] at m
  obtain ⟨y, -, rfl⟩ := m
  split at own
  · simp [*]
  · rename_i other
    exact absurd own other

/-! The stop of a function's programs. -/

section
variable (d : Dev) (f g : Nat)

theorem stopProgram_ringOnly : RingOnly g d (d.stopProgram g) := by
  unfold Dev.stopProgram
  split
  · exact ⟨rfl, fun _ _ => rfl⟩
  · rw [Dev.updThread, Dev.updEntry, Dev.setRing_setRing]
    exact ⟨rfl, fun h ne => Dev.ring_setRing_ne d ne _⟩

theorem stopProgram_ring : (d.stopProgram g).ring g = (d.ring g).halted := by
  cases acc : (d.ring g).thread.acc with
  | none => simp [Dev.stopProgram, Ring.halted, acc]
  | some a => simp [Dev.stopProgram, Ring.halted, acc, Dev.updThread, Dev.updEntry, Ring.updEntry, Thread.freed]

theorem mem_fnRings : g ∈ fnRings f ↔ g / 4 = f := by
  simp only [fnRings, List.mem_cons, List.not_mem_nil, or_false]
  omega

theorem fnRings_nodup : (fnRings f).Nodup := by simp [fnRings]

/-- The programs of a function stopped. -/
def Dev.haltPrograms : Dev := (fnRings f).foldl (fun d g => d.stopProgram g) d

theorem haltPrograms_only : RingsOnly d (d.haltPrograms f) :=
  List.foldlRecOn (fnRings f) _ (motive := RingsOnly d) rfl (fun e k g _ => k.trans (stopProgram_ringOnly e g).1)

theorem haltPrograms_ring : (d.haltPrograms f).ring g = if g / 4 = f then (d.ring g).halted else d.ring g := by
  have others (e : Dev) (a h : Nat) (ne : h ≠ a) : (e.stopProgram a).ring h = e.ring h := (stopProgram_ringOnly e a).2 h ne
  split
  · rename_i own
    obtain ⟨e, same, stopped⟩ := ring_foldl_mem others (fnRings_nodup f) ((mem_fnRings f g).mpr own) d
    rw [Dev.haltPrograms, stopped, stopProgram_ring, same]
  · rename_i other
    exact ring_foldl_ne others _ (mt (mem_fnRings f g).mp other) d

/-! The withdrawal of a function's commits. -/

/-- Items of a function's rings squashed: rings alone have changed, those of the function by their entries. -/
def ItemsSquashed (d e : Dev) : Prop :=
  RingsOnly d e ∧ (∀ h, h / 4 ≠ f → e.ring h = d.ring h) ∧ ∀ h, (d.ring h).Squashed (e.ring h) ∧ (e.ring h).thread = (d.ring h).thread

theorem squashItem_squashed {d : Dev} {c : Commit} (own : ringFn c.ring = f) :
    ItemsSquashed f d (d.updEntry c.ring c.acc (fun e => { e with squashed := true })) := by
  refine ⟨rfl, fun h other => Dev.ring_setRing_ne d (fun e => other (by rw [e]; exact own)) _, fun h => ?_⟩
  rw [Dev.updEntry, Dev.ring_setRing]
  split
  · rename_i e
    rw [← e]
    exact ⟨⟨⟨_, squashing_item c.acc, rfl⟩, rfl⟩, rfl⟩
  · exact ⟨.refl _, rfl⟩

theorem withdraw_squashed : ItemsSquashed f { d with commits := d.commits.filter (fun c => ringFn c.ring ≠ f) } (d.withdraw f) := by
  refine List.foldlRecOn _ _ (motive := ItemsSquashed f _) ⟨rfl, fun _ _ => rfl, fun _ => ⟨.refl _, rfl⟩⟩ ?_
  rintro e ⟨only, others, rings⟩ c m
  have own : ringFn c.ring = f := by simpa using (List.mem_filter.mp m).2
  obtain ⟨only', others', rings'⟩ := squashItem_squashed f (d := e) own
  exact ⟨only.trans only', fun h other => (others' h other).trans (others h other),
    fun h => ⟨(rings h).1.trans (rings' h).1, (rings' h).2.trans (rings h).2⟩⟩

theorem withdraw_rings : (∀ h, h / 4 ≠ f → (d.withdraw f).ring h = d.ring h) ∧
    ∀ h, (d.ring h).Squashed ((d.withdraw f).ring h) ∧ ((d.withdraw f).ring h).thread = (d.ring h).thread := (withdraw_squashed d f).2

/-! Programs, commits and operations. -/

theorem stopAll_frame : { d.stopAll f with rings := d.rings, commits := d.commits } = d ∧
    (d.stopAll f).commits = d.commits.filter (fun c => ringFn c.ring ≠ f) := by
  have halt := haltPrograms_only d f
  obtain ⟨only, -, -⟩ := withdraw_squashed (d.haltPrograms f) f
  refine ⟨(congrArg (fun x : Dev => { x with rings := d.rings, commits := d.commits }) only :).trans
    (congrArg (fun x : Dev => { x with commits := d.commits }) halt :), (congrArg Dev.commits only :).trans ?_⟩
  exact congrArg (List.filter _) (congrArg Dev.commits halt :)

theorem stopAll_ring_other {g : Nat} (other : g / 4 ≠ f) : (d.stopAll f).ring g = d.ring g := by
  obtain ⟨others, -⟩ := withdraw_rings (d.haltPrograms f) f
  exact (others g other).trans ((haltPrograms_ring d f g).trans (if_neg other))

theorem stopAll_ring {g : Nat} (own : g / 4 = f) :
    (d.ring g).halted.Squashed ((d.stopAll f).ring g) ∧ ((d.stopAll f).ring g).thread = (d.ring g).halted.thread := by
  have ring := (withdraw_rings (d.haltPrograms f) f).2 g
  rw [haltPrograms_ring, if_pos own] at ring
  exact ring

theorem stopAll_squashed : (d.ring g).Squashed ((d.stopAll f).ring g) := by
  by_cases own : g / 4 = f
  · exact (Ring.halted_squashed _).trans (stopAll_ring d f own).1
  · rw [stopAll_ring_other d f own]
    exact .refl _

theorem stopAll_fn (h : Nat) : (d.stopAll f).fn h = d.fn h := (congrArg (fun x : Dev => x.fn h) (stopAll_frame d f).1 :)

theorem functionStops_stopAll : FunctionStops f false d (d.stopAll f) := by
  obtain ⟨frame, commits⟩ := stopAll_frame d f
  refine ⟨fun g own => ?_, fun g => stopAll_ring_other d f, fun h _ => stopAll_fn d f h, ?_, ?_, commits,
    (congrArg (fun x : Dev => { x with fns := d.fns, ops := d.ops, bus := d.bus }) frame :)⟩
  · obtain ⟨-, thread⟩ := stopAll_ring d f own
    exact ⟨(congrArg Thread.acc thread).trans (Ring.halted_acc _), (stopAll_squashed d f g).2⟩
  · intro g a x own acc m item
    obtain ⟨⟨⟨h, squash, entries⟩, -⟩, -⟩ := stopAll_ring d f own
    rw [entries, List.mem_map] at m
    obtain ⟨y, m, rfl⟩ := m
    obtain ⟨same, -, phase, squashed⟩ := squash y
    obtain ⟨ended, was⟩ := Ring.halted_item acc m (same.symm.trans item)
    exact ⟨phase ended, squashed was⟩
  · exact (congrArg Dev.ops frame :).trans (by simp)

end

namespace FunctionStops
variable {f : Nat} {c : Bool} {d e : Dev}

/-- Operations released and started are to be cancelled too. -/
theorem cancelOps (h : FunctionStops f false d e) : FunctionStops f true d (e.cancelOps f) := by
  obtain ⟨rings, others, fns, items, ops, commits, frame⟩ := h
  refine ⟨rings, others, fns, items, ?_, commits, frame⟩
  rw [Dev.cancelOps, ops]
  simp

/-- The registers of the function are not looked at, neither before nor after. -/
theorem of_setFn {x : Fn} (h : FunctionStops f c (d.setFn f x) e) : FunctionStops f c d e := by
  obtain ⟨rings, others, fns, items, ops, commits, frame⟩ := h
  exact ⟨rings, others, fun g ne => (fns g ne).trans (by rw [Dev.fn_setFn, if_neg ne.symm]), items, ops, commits,
    (congrArg (fun x : Dev => { x with fns := d.fns }) frame :)⟩

theorem setFn (h : FunctionStops f c d e) (x : Fn) : FunctionStops f c d (e.setFn f x) := by
  obtain ⟨rings, others, fns, items, ops, commits, frame⟩ := h
  exact ⟨rings, others, fun g ne => Eq.trans (by rw [Dev.fn_setFn, if_neg ne.symm]) (fns g ne), items, ops, commits, frame⟩

theorem passed {r : Dev} (h : FunctionStops f c d e) (p : Passed e r) : FunctionStops f c d r := by
  obtain ⟨rings, others, fns, items, ops, commits, frame⟩ := h
  refine ⟨fun g own => ?_, fun g other => (p.ring g).trans (others g other), fun g ne => (p.fn g).trans (fns g ne), fun g a x own acc m => ?_,
    (congrArg Dev.ops p :).trans ops, (congrArg Dev.commits p :).trans commits,
    (congrArg (fun x : Dev => { x with rings := d.rings, fns := d.fns, ops := d.ops, commits := d.commits, bus := d.bus }) p :).trans frame⟩
  · rw [p.ring g]
    exact rings g own
  · rw [p.ring g] at m
    exact items g a x own acc m

theorem endsAlike (h : FunctionStops f c d e) : EndsAlike d e := by
  obtain ⟨-, -, -, -, -, -, frame⟩ := h
  exact ⟨(congrArg Dev.mem frame :), (congrArg Dev.update frame :), (congrArg Dev.safety frame :)⟩

theorem writes (h : FunctionStops f c d e) : e.writes = d.writes := by
  obtain ⟨-, -, -, -, -, -, frame⟩ := h
  exact (congrArg Dev.writes frame :)

end FunctionStops

/-! A generation discard. -/

/-- What a table that lists the numbers of l with a value finds under one. -/
theorem tfind_filterMap {α : Type} (o : Nat → Option α) (l : List Nat) (k : Nat) :
    tfind (l.filterMap (fun j => (o j).map (fun a => (j, a)))) k = if k ∈ l then o k else none := by
  induction l with
  | nil => rfl
  | cons j r ih =>
    by_cases same : k = j
    · subst same
      cases value : o k <;> simp [value, tfind_cons, ih]
    · cases value : o j <;> simp [value, tfind_cons, ih, same, Ne.symm same]

section
variable (d : Dev) (f : Nat)

theorem recordLast_fst (g : Nat) (rec : W144) : (d.recordLast g rec).1 = if bit rec 71 then fld rec 0 64 else fld rec 80 64 := by
  unfold Dev.recordLast
  split <;> rfl

/-- The first item without a record is the same in a ring whose items are squashed. -/
theorem firstOpen_squashed {d e : Dev} {g : Nat} (h : (d.ring g).Squashed (e.ring g)) : e.firstOpen g = d.firstOpen g := by
  obtain ⟨⟨k, squash, entries⟩, frame⟩ := h
  have kept : (e.ring g).kept = (d.ring g).kept := (congrArg Ring.kept frame :)
  have item (x : Entry) : (k x).acc = x.acc ∧ (k x).covered = x.covered := ⟨(squash x).1, (squash x).2.1⟩
  simp only [Dev.firstOpen, kept, entries, recordLast_fst, List.find?_map, Option.map_map, Function.comp_def, item]

/-- The function stopped by a discard: its operations are cancelled unless the discard is held (R98, R158). -/
def Dev.stoppedFor : Dev := if d.wouldCollide f then d.stopAll f else (d.stopAll f).cancelOps f

theorem stoppedFor_stops : FunctionStops f (!d.wouldCollide f) d (d.stoppedFor f) := by
  unfold Dev.stoppedFor
  split
  · rename_i held
    rw [held]
    exact functionStops_stopAll d f
  · rename_i free
    rw [Bool.not_eq_true] at free
    rw [free]
    exact (functionStops_stopAll d f).cancelOps

theorem stoppedFor_fn (h : Nat) : (d.stoppedFor f).fn h = d.fn h := by
  unfold Dev.stoppedFor
  split <;> exact stopAll_fn d f h

/-- A discard as it begins (R98, R158). -/
def Dev.discardOf (cfg vanish keepFault : Bool) : FnReset :=
  { mode := 3, held := d.wouldCollide f, begun := d.now, limitAt := 0, cfg := cfg, vanish := vanish
    waitFrom := (List.range 4).filterMap (fun k => (d.firstOpen (4 * f + k)).map (fun a => (k, a))), keepFault := keepFault }

theorem beginDiscard_eq (cfg vanish keepFault : Bool) :
    d.beginDiscard f cfg vanish keepFault = (d.stoppedFor f).setFn f { d.fn f with rst := some (d.discardOf f cfg vanish keepFault) } := by
  have now : (d.stoppedFor f).now = d.now := by
    unfold Dev.stoppedFor
    split <;> exact (congrArg Dev.now (stopAll_frame d f).1 :)
  have first (g : Nat) : (d.stoppedFor f).firstOpen g = d.firstOpen g := by
    refine firstOpen_squashed ?_
    unfold Dev.stoppedFor
    split <;> exact stopAll_squashed d f g
  have begun : d.beginDiscard f cfg vanish keepFault = (d.stoppedFor f).setFn f { (d.stoppedFor f).fn f with
      rst := some
        { mode := 3, held := d.wouldCollide f, begun := (d.stoppedFor f).now, limitAt := 0, cfg := cfg, vanish := vanish
          waitFrom := (List.range 4).filterMap (fun k => ((d.stoppedFor f).firstOpen (4 * f + k)).map (fun a => (k, a))), keepFault := keepFault } } := rfl
  rw [begun, now, stoppedFor_fn]
  simp only [first]
  rfl

theorem beginDiscard_stops (cfg vanish keepFault : Bool) : FunctionStops f (!d.wouldCollide f) d (d.beginDiscard f cfg vanish keepFault) := by
  rw [beginDiscard_eq]
  exact (stoppedFor_stops d f).setFn _

theorem beginDiscard_rst (cfg vanish keepFault : Bool) :
    ((d.beginDiscard f cfg vanish keepFault).fn f).rst = some (d.discardOf f cfg vanish keepFault) := by
  rw [beginDiscard_eq, Dev.fn_setFn_same]

/-- The items that a discard waits for are the first ones without a record. -/
theorem discardOf_waitFrom {k : Nat} (lt : k < 4) (cfg vanish keepFault : Bool) :
    tfind (d.discardOf f cfg vanish keepFault).waitFrom k = d.firstOpen (4 * f + k) :=
  (tfind_filterMap (fun k => d.firstOpen (4 * f + k)) (List.range 4) k).trans (if_pos (List.mem_range.mpr lt))

end

end Sys2Proof.Machine
end

section
/-! Discards of the functions of a port, virtual functions, and functions in D3hot (R122, R125, R129, R136, R161). -/

namespace Sys2Proof.Machine

/-! A discard requested. -/

/-- Nothing of another function has changed, nor anything beside rings, operations and commits. -/
def FunctionOnly (f : Nat) (d e : Dev) : Prop :=
  { e with rings := d.rings, fns := d.fns, ops := d.ops, commits := d.commits, bus := d.bus } = d ∧
  (∀ g, g / 4 ≠ f → e.ring g = d.ring g) ∧ ∀ h, h ≠ f → e.fn h = d.fn h

theorem FunctionStops.only {f : Nat} {c : Bool} {d e : Dev} (h : FunctionStops f c d e) : FunctionOnly f d e := by
  obtain ⟨-, others, fns, -, -, -, frame⟩ := h
  exact ⟨frame, others, fns⟩

theorem updReset_only (d : Dev) (f : Nat) (h : FnReset → FnReset) : FunctionOnly f d (d.updReset f h) :=
  ⟨rfl, fun _ _ => rfl, fun g ne => by rw [Dev.updReset, Dev.fn_setFn, if_neg ne.symm]⟩

theorem updReset_rst (d : Dev) (f : Nat) (h : FnReset → FnReset) : ((d.updReset f h).fn f).rst = (d.fn f).rst.map h := by
  rw [Dev.updReset, Dev.fn_setFn_same]

section
variable (d : Dev) (f : Nat) (cfg vanish : Bool)

theorem discardReset_only : FunctionOnly f d (d.discardReset f cfg vanish) := by
  unfold Dev.discardReset
  split
  · split
    · exact updReset_only d f _
    · exact (beginDiscard_stops d f _ _ _).only
  · exact (beginDiscard_stops d f _ _ _).only

/-- A discard requested is in progress, with what it is to clear (R161). -/
theorem discardReset_rst : ∃ r, ((d.discardReset f cfg vanish).fn f).rst = some r ∧ r.mode = 3 ∧ (cfg = true → r.cfg = true) ∧
    (vanish = true → r.vanish = true) := by
  unfold Dev.discardReset
  split
  · rename_i r rst
    split
    · rename_i mode
      refine ⟨{ r with cfg := r.cfg || cfg, vanish := r.vanish || vanish }, ?_, mode, fun h => ?_, fun h => ?_⟩
      · rw [updReset_rst, rst]
        rfl
      · simp [h]
      · simp [h]
    · exact ⟨_, beginDiscard_rst d f _ _ _, rfl, fun h => by simp [Dev.discardOf, h], fun h => by simp [Dev.discardOf, h]⟩
  · exact ⟨_, beginDiscard_rst d f _ _ _, rfl, id, id⟩

end

/-! Discards of several functions of a port. -/

/-- Functions of port p discarded, by their numbers within it. -/
def Dev.discardFunctions (d : Dev) (p : Nat) (vanish : Bool) (l : List Nat) : Dev := l.foldl (fun d i => d.discardReset (16 * p + i) true vanish) d

section
variable (d : Dev) (p : Nat) (vanish : Bool) (l : List Nat)

theorem discardFunctions_frame : { d.discardFunctions p vanish l with rings := d.rings, fns := d.fns, ops := d.ops, commits := d.commits, bus := d.bus } = d := by
  refine List.foldlRecOn l _
    (motive := fun e : Dev => { e with rings := d.rings, fns := d.fns, ops := d.ops, commits := d.commits, bus := d.bus } = d) rfl (fun e same i _ => ?_)
  exact (congrArg (fun x : Dev => { x with rings := d.rings, fns := d.fns, ops := d.ops, commits := d.commits, bus := d.bus })
    (discardReset_only e _ _ _).1 :).trans same

theorem discardFunctions_fn_other {f : Nat} (out : ∀ i ∈ l, 16 * p + i ≠ f) : (d.discardFunctions p vanish l).fn f = d.fn f :=
  List.foldlRecOn l _ (motive := fun e : Dev => e.fn f = d.fn f) rfl
    (fun e same i m => ((discardReset_only e _ _ _).2.2 f (out i m).symm).trans same)

theorem discardFunctions_ring_other {g : Nat} (out : ∀ i ∈ l, 16 * p + i ≠ g / 4) : (d.discardFunctions p vanish l).ring g = d.ring g :=
  List.foldlRecOn l _ (motive := fun e : Dev => e.ring g = d.ring g) rfl
    (fun e same i m => ((discardReset_only e _ _ _).2.1 g (out i m).symm).trans same)

theorem discardFunctions_port (q : Nat) : (d.discardFunctions p vanish l).port q = d.port q :=
  (congrArg (fun x : Dev => x.port q) (discardFunctions_frame d p vanish l) :)

theorem discardFunctions_endsAlike : EndsAlike d (d.discardFunctions p vanish l) :=
  have frame := discardFunctions_frame d p vanish l
  ⟨(congrArg Dev.mem frame :), (congrArg Dev.update frame :), (congrArg Dev.safety frame :)⟩

theorem discardFunctions_writes : (d.discardFunctions p vanish l).writes = d.writes := (congrArg Dev.writes (discardFunctions_frame d p vanish l) :)

/-- Each of them is being discarded, its configuration space with it (R161). -/
theorem discardFunctions_rst {i : Nat} (m : i ∈ l) :
    ∃ r, ((d.discardFunctions p vanish l).fn (16 * p + i)).rst = some r ∧ r.mode = 3 ∧ r.cfg = true ∧ (vanish = true → r.vanish = true) := by
  induction l generalizing d with
  | nil => cases m
  | cons j r ih =>
    by_cases later : i ∈ r
    · exact ih (d.discardReset (16 * p + j) true vanish) later
    · obtain rfl : i = j := (List.mem_cons.mp m).resolve_right later
      obtain ⟨x, rst, mode, cfg, gone⟩ := discardReset_rst d (16 * p + i) true vanish
      refine ⟨x, ?_, mode, cfg rfl, gone⟩
      have last := discardFunctions_fn_other (d.discardReset (16 * p + i) true vanish) p vanish r (f := 16 * p + i)
        (fun k m e => later (by rwa [show i = k by omega]))
      rw [← rst, ← last]
      rfl

end

/-! Links. -/

theorem Dev.setPort_fn (d : Dev) (p : Nat) (x : Port) (f : Nat) : (d.setPort p x).fn f = d.fn f := rfl

theorem Passed.port {d e : Dev} (h : Passed d e) (p : Nat) : e.port p = d.port p := (congrArg (fun x : Dev => x.port p) h :)

section
variable {s : State} {p : Fin 4} {hot : Bool}

/-- A port whose link has gone down, or has been reset hot: its dialog has ended (R163). -/
def Port.lost (x : Port) (hot : Bool) : Port := { x with link := (if hot then .training else .down), ptmValid := false, ptmReq := false, ptmBusy := false }

/-- The existing functions of a port, by their numbers within it. -/
def Dev.livingOf (d : Dev) (p : Nat) : List Nat := (List.range 16).filter (fun i => d.exists_ (16 * p + i))

/-- The link of a port goes down. -/
def Dev.linkLost (d : Dev) (p : Nat) (hot : Bool) : Dev := (d.setPort p ((d.port p).lost hot)).discardFunctions p false (d.livingOf p)

theorem Dev.setPort_setPort (d : Dev) (p : Nat) (x y : Port) : (d.setPort p x).setPort p y = d.setPort p y := by
  simp only [Dev.setPort, tset_tset]

/-- Which functions exist depends of a port on VF Enable and NumVFs alone (R146). -/
theorem Dev.exists_setPort (d : Dev) (p : Nat) {x : Port} (enable : x.vfEnable = (d.port p).vfEnable) (num : x.numVfs = (d.port p).numVfs) (f : Nat) :
    (d.setPort p x).exists_ f = d.exists_ f := by
  simp only [Dev.exists_, Dev.port_setPort]
  split
  · rename_i e
    rw [enable, num, e]
  · rfl

theorem portReset_eq (d : Dev) (p : Nat) (hot : Bool) :
    (d.setPort p { d.port p with link := if hot then .training else .down }).portReset p = d.linkLost p hot := by
  unfold Dev.portReset Dev.linkLost Dev.discardFunctions Dev.livingOf
  simp only [Dev.port_setPort_same, Dev.setPort_setPort, d.exists_setPort p (x := { d.port p with link := if hot then .training else .down }) rfl rfl]
  rfl

theorem exec_linkDown : exec (.linkDown p hot) s = run (fun d => if (d.port p.val).link = .down then d
    else (d.setPort p.val { d.port p.val with link := if hot then .training else .down }).portReset p.val) s := rfl

theorem linkDown_again (k : s.Steady) (down : (s.dev.port p.val).link = .down) : Becomes (.linkDown p hot) s s.dev :=
  becomes_run_same exec_linkDown k (if_pos down)

theorem linkDown_does (k : s.Steady) (up : (s.dev.port p.val).link ≠ .down) : Does (.linkDown p hot) s (Passed (s.dev.linkLost p.val hot)) :=
  does_passed exec_linkDown k ((if_neg up).trans (portReset_eq _ _ _)) (discardFunctions_endsAlike _ _ _ _) (discardFunctions_writes _ _ _ _)

theorem mem_livingOf {d : Dev} {f : Nat} (own : f / 16 = p.val) (here : d.exists_ f = true) : f % 16 ∈ d.livingOf p.val := by
  have number : 16 * p.val + f % 16 = f := by omega
  simp only [Dev.livingOf, List.mem_filter, List.mem_range, number]
  exact ⟨by omega, here⟩

theorem livingOf_lt {d : Dev} {q i : Nat} (m : i ∈ d.livingOf q) : i < 16 := List.mem_range.mp (List.mem_filter.mp m).1

end

/-! Virtual functions. -/

/-- The numbers of the VFs that exist when VF Enable is set. -/
def Port.vfs (x : Port) : List Nat := (List.range 16).filter (fun i => 1 ≤ i && i ≤ x.numVfs)

/-- VF Enable cleared while it is set (R161). -/
theorem vfClear_enabled {d : Dev} {p : Nat} (on : (d.port p).vfEnable = true) :
    d.vfClear p = (d.discardFunctions p true (d.port p).vfs).setPort p { d.port p with vfEnable := false } := by
  have cleared : d.vfClear p = (d.discardFunctions p true (d.port p).vfs).setPort p
      { (d.discardFunctions p true (d.port p).vfs).port p with vfEnable := false } := by
    simp [Dev.vfClear, on, Dev.discardFunctions, Port.vfs, List.foldl_filter]
  rw [cleared, discardFunctions_port]

theorem vfClear_disabled {d : Dev} {p : Nat} (off : (d.port p).vfEnable = false) : d.vfClear p = d := by simp [Dev.vfClear, off]

theorem vfSet_enabled {d : Dev} {p : Nat} (on : (d.port p).vfEnable = true) : d.vfSet p = d := by simp [Dev.vfSet, on]

theorem vfSet_within {d : Dev} {p : Nat} (off : (d.port p).vfEnable = false) (within : (d.port p).numVfs ≤ (d.port p).inForce.maxVfs) :
    d.vfSet p = d.setPort p { d.port p with vfEnable := true } := by simp [Dev.vfSet, off, Nat.not_lt.mpr within]

theorem vfSet_over {d : Dev} {p : Nat} (off : (d.port p).vfEnable = false) (over_ : (d.port p).inForce.maxVfs < (d.port p).numVfs) :
    d.vfSet p = d.setPort p { d.port p with budgetErr := true } := by simp [Dev.vfSet, off, over_]

theorem numVfsSet_taken {d : Dev} {p v : Nat} (off : (d.port p).vfEnable = false) (le : v ≤ 15) :
    d.numVfsSet p v = d.setPort p { d.port p with numVfs := v } := by simp [Dev.numVfsSet, off, Nat.not_lt.mpr le]

theorem numVfsSet_discarded {d : Dev} {p v : Nat} (h : (d.port p).vfEnable = true ∨ 15 < v) : d.numVfsSet p v = d := by
  rcases h with on | many
  · simp [Dev.numVfsSet, on]
  · simp [Dev.numVfsSet, many]

section
variable (s : State) (p : Fin 4) (f : Fin 64)

theorem exec_vfEnableSet : exec (.vfEnableSet p) s = run (cfgHosted (.vfEnableSet p) (16 * p.val) (fun d => d.vfSet p.val)) s := rfl
theorem exec_vfEnableClear : exec (.vfEnableClear p) s = run (cfgHosted (.vfEnableClear p) (16 * p.val) (fun d => d.vfClear p.val)) s := rfl
theorem exec_numvfsWrite (v : BitVec 16) :
    exec (.numvfsWrite p v) s = run (cfgHosted (.numvfsWrite p v) (16 * p.val) (fun d => d.numVfsSet p.val v.toNat)) s := rfl
theorem exec_d3hotTransition (enter : Bool) : exec (.d3hotTransition f enter) s =
    run (cfgHosted (.d3hotTransition f enter) f.val (fun d => d.setFn f.val { d.fn f.val with d3hot := enter })) s := rfl
theorem exec_flr : exec (.flr f) s = run (cfgHosted (.flr f) f.val (fun d => d.requestReset f.val true)) s := rfl

end

/-- A configuration request whose effect stores nothing leaves its device, with the accesses passed to the lattice. -/
theorem does_configured {i : Instr} {s : State} {f : Nat} {h : Dev → Dev} {d e : Dev} (x : exec i s = run (cfgHosted i f h) s) (k : Configured s f d)
    (he : h d = e) (m : EndsAlike d e) (w : e.writes = d.writes) : Does i s (Passed e) := by
  have writes : d.writes = s.dev.writes := k.owesNothing.1.1.trans k.1.1.1.1.symm
  exact does_passed x k.1 ((k.cfgHosted_eq i h).trans he) (k.endsAlike.trans m) (w.trans writes)

theorem vfEnableClear_does {s : State} {p : Fin 4} {d : Dev} (k : Configured s (16 * p.val) d) (on : (d.port p.val).vfEnable = true) :
    Does (.vfEnableClear p) s (fun e =>
      e.port p.val = { d.port p.val with vfEnable := false } ∧ (∀ q, q ≠ p.val → e.port q = d.port q) ∧
      (∀ f, f / 16 = p.val → 1 ≤ f % 16 → f % 16 ≤ (d.port p.val).numVfs → ((e.fn f).rst.map (fun r => (r.mode, r.cfg, r.vanish))) = some (3, true, true)) ∧
      e.fn (16 * p.val) = d.fn (16 * p.val) ∧ e.mem = s.dev.mem) := by
  have alike := discardFunctions_endsAlike d p.val true (d.port p.val).vfs
  refine (does_configured (exec_vfEnableClear s p) k (vfClear_enabled on) (alike.trans (.refl _)) (discardFunctions_writes _ _ _ _)).imp
    (fun e passed => ⟨?_, fun q ne => ?_, fun f own lo hi => ?_, ?_, ?_⟩)
  · rw [passed.port, Dev.port_setPort_same]
  · rw [passed.port, Dev.port_setPort, if_neg ne.symm, discardFunctions_port]
  · have member : f % 16 ∈ (d.port p.val).vfs := List.mem_filter.mpr ⟨List.mem_range.mpr (by omega), by simp [lo, hi]⟩
    obtain ⟨r, rst, mode, cfg, gone⟩ := discardFunctions_rst d p.val true _ member
    rw [show 16 * p.val + f % 16 = f by omega] at rst
    rw [passed.fn, Dev.setPort_fn, rst, Option.map_some, mode, cfg, gone rfl]
  · refine (passed.fn _).trans (discardFunctions_fn_other d p.val true _ (fun i m => ?_))
    have lo : 1 ≤ i := by simpa using (Bool.and_eq_true_iff.mp (List.mem_filter.mp m).2).1
    omega
  · exact (congrArg Dev.mem passed :).trans (alike.1.trans k.endsAlike.1)

/-! Functions in D3hot. -/

/-- A configuration request that finds the device asleep is held (R439). -/
theorem cfgHosted_asleep {d : Dev} {f : Nat} (reach : d.cfgReach f = true) (asleep : d.asleep = true) (i : Instr) (h : Dev → Dev) :
    cfgHosted i f h d = ({ d with held := d.held ++ [i] } : Dev).hostFired f := by simp [cfgHosted, reach, asleep]

/-- A function in D3hot is reached by no register access and sends no message (R125). -/
theorem d3hot_unreached {d : Dev} {f : Nat} (low : (d.fn f).d3hot = true) : d.hostReach f = false ∧ ∀ v, d.canSend f v = false := by
  simp [Dev.hostReach, Dev.canSend, low]

/-- A write to a function in D3hot is an Unsupported Request (R122). -/
theorem unclaimed_d3hot {d : Dev} {f : Nat} {i : Instr} (write : hostRead i = false) (reach : d.cfgReach f = true) :
    d.unclaimed i f = d.requestError f true := by
  obtain ⟨boot, here, link, thawed⟩ := Dev.cfgReach_iff.mp reach
  have linked : ¬((d.port (f / 16)).link ≠ .l0 ∧ (d.port (f / 16)).link ≠ .l1) := by
    rintro ⟨notL0, notL1⟩
    exact link.elim notL0 notL1
  simp [Dev.unclaimed, write, boot, here, thawed, linked]

/-- An Unsupported Request of a write that is neither fatal nor masked, and is reported, sends a non-fatal error message (R123). -/
theorem requestError_nonfatal {d : Dev} {f : Nat} {c : Fn} (hc : c = d.fn (f / 16 * 16)) (severity : bit c.aerUncSev 20 = false)
    (mask : bit c.aerUncMask 20 = false) (enable : bit c.errCtl 1 = true) (shown : bit c.errCtl 3 = true) :
    ((d.requestError f true).port (f / 16)).errs = (d.port (f / 16)).errs ++ [{ fn := f, kind := .nonfatal }] := by
  subst hc
  simp only [Dev.requestError, severity, mask, enable, shown]
  exact congrArg Port.errs (Dev.port_setPort_same _ _ _)

theorem doorbell_d3hot {s : State} {f : Fin 64} {k : Fin 4} {v : BitVec 32} {c : Fn} (steady : s.Steady) (reach : s.dev.cfgReach f.val = true)
    (low : (s.dev.fn f.val).d3hot = true) (hc : c = s.dev.fn (f.val / 16 * 16)) (severity : bit c.aerUncSev 20 = false)
    (mask : bit c.aerUncMask 20 = false) (enable : bit c.errCtl 1 = true) (shown : bit c.errCtl 3 = true) :
    Does (.doorbell f k v) s (fun e =>
      (e.port (f.val / 16)).errs = (s.dev.port (f.val / 16)).errs ++ [{ fn := f.val, kind := .nonfatal }] ∧ e.rings = s.dev.rings ∧ e.mem = s.dev.mem) := by
  have only := requestError_errorsOnly s.dev f.val true
  have error : ringWrite (.doorbell f k v) f.val (fun d => d.doorbell (4 * f.val + k.val) (v.setWidth 16)) s.dev = s.dev.requestError f.val true :=
    (if_pos (by simp [(d3hot_unreached low).1])).trans (unclaimed_d3hot rfl reach)
  refine (does_passed (exec_doorbell f k v s) steady error only.endsAlike (congrArg Dev.writes only.1 :)).imp (fun e passed => ⟨?_, ?_, ?_⟩)
  · rw [passed.port]
    exact requestError_nonfatal hc severity mask enable shown
  · exact (congrArg Dev.rings passed :).trans (congrArg Dev.rings only.1 :)
  · exact (congrArg Dev.mem passed :).trans only.endsAlike.1

/-- Settles O29: link loss and the clear of VF Enable discard function after function; the rest is the write of one register. -/
theorem linksAndFunctions : Obligations.LinksAndFunctions := by
  refine ⟨fun s p hot k up => ?_, fun s p hot k down => linkDown_again k down, ?_, ?_, fun s f enter d k => ?_, fun s f k reach asleep => ?_,
    fun s f k v c steady reach low hc severity mask enable shown => doorbell_d3hot steady reach low hc severity mask enable shown,
    fun d f low => d3hot_unreached low⟩
  · refine (linkDown_does k up).imp (fun e passed => ⟨?_, fun q ne => ?_, fun f other => ?_, fun g other => ?_, fun f own here => ?_, ?_⟩)
    · rw [passed.port, Dev.linkLost, discardFunctions_port, Dev.port_setPort_same]
      rfl
    · rw [passed.port, Dev.linkLost, discardFunctions_port, Dev.port_setPort, if_neg ne.symm]
    · refine (passed.fn f).trans (discardFunctions_fn_other _ _ _ _ (fun i m => ?_))
      have := livingOf_lt m
      omega
    · refine (passed.ring g).trans (discardFunctions_ring_other _ _ _ _ (fun i m => ?_))
      have := livingOf_lt m
      omega
    · obtain ⟨r, rst, mode, cfg, -⟩ := discardFunctions_rst (s.dev.setPort p.val ((s.dev.port p.val).lost hot)) p.val false _ (mem_livingOf own here)
      rw [show 16 * p.val + f % 16 = f by omega] at rst
      rw [passed.fn, Dev.linkLost, rst, Option.map_some, mode, cfg]
    · exact (congrArg Dev.mem passed :).trans (discardFunctions_endsAlike _ _ _ _).1
  · rintro s p x d k rfl off
    refine ⟨fun within => becomes_configured (exec_vfEnableSet s p) k (vfSet_within off within) (.refl _),
      fun over_ => becomes_configured (exec_vfEnableSet s p) k (vfSet_over off over_) (.refl _),
      becomes_configured (exec_vfEnableClear s p) k (vfClear_disabled off) (.refl d),
      fun v le => becomes_configured (exec_numvfsWrite s p v) k (numVfsSet_taken off le) (.refl _),
      fun v many => becomes_configured (exec_numvfsWrite s p v) k (numVfsSet_discarded (.inr many)) (.refl d)⟩
  · rintro s p x d k rfl on
    exact ⟨becomes_configured (exec_vfEnableSet s p) k (vfSet_enabled on) (.refl d),
      fun v => becomes_configured (exec_numvfsWrite s p v) k (numVfsSet_discarded (.inl on)) (.refl d), vfEnableClear_does k on⟩
  · exact becomes_configured (exec_d3hotTransition s f enter) k rfl (.refl _)
  · refine becomes_runFrom (exec_flr s f) k (cfgHosted_asleep reach asleep _ _) ?_
    rw [Dev.hostFired_eq]
    exact .refl _

end Sys2Proof.Machine
end

section
/-! What the ledger's records keep of functions and rings (R82, R95, R99, R100, R160). -/

namespace Sys2Proof.Machine

/-! Events, faults and stores. -/

/-- Of a function, what events, faults, translations and dirty logging may change. -/
def Fn.Noted (x y : Fn) : Prop :=
  { y with
    evStatus := x.evStatus, pba := x.pba, pipeEv := x.pipeEv, faultInfo := x.faultInfo, faultAddr := x.faultAddr, rst := x.rst, tlb := x.tlb
    dirtyOut := x.dirtyOut, dirtyCount := x.dirtyCount } = x

/-- What may happen while records are written: functions note what befalls them, and rings go on counting accessions from where they stood. -/
def Noted (d e : Dev) : Prop := EndsAlike d e ∧ (∀ f, (d.fn f).Noted (e.fn f)) ∧ ∀ g, (e.ring g).nextAcc = (d.ring g).nextAcc

namespace Noted

theorem same {d e : Dev} (m : EndsAlike d e) (fns : ∀ f, e.fn f = d.fn f) (rings : ∀ g, e.ring g = d.ring g) : Noted d e :=
  ⟨m, fun f => by rw [fns f]; rfl, fun g => by rw [rings g]⟩

theorem refl (d : Dev) : Noted d d := same (.refl d) (fun _ => rfl) (fun _ => rfl)

theorem trans {d e r : Dev} (h : Noted d e) (k : Noted e r) : Noted d r := by
  obtain ⟨alike, fns, rings⟩ := h
  obtain ⟨alike', fns', rings'⟩ := k
  refine ⟨alike.trans alike', fun f => ?_, fun g => (rings' g).trans (rings g)⟩
  exact (congrArg (fun y : Fn => { y with
    evStatus := (d.fn f).evStatus, pba := (d.fn f).pba, pipeEv := (d.fn f).pipeEv, faultInfo := (d.fn f).faultInfo, faultAddr := (d.fn f).faultAddr
    rst := (d.fn f).rst, tlb := (d.fn f).tlb, dirtyOut := (d.fn f).dirtyOut, dirtyCount := (d.fn f).dirtyCount }) (fns' f) :).trans (fns f)

theorem foldl {α : Type} {h : Dev → α → Dev} (k : ∀ d x, Noted d (h d x)) (l : List α) (d : Dev) : Noted d (l.foldl h d) :=
  List.foldlRecOn l h (motive := Noted d) (refl d) (fun e n x _ => n.trans (k e x))

theorem setFn (d : Dev) (f : Nat) {x : Fn} (h : (d.fn f).Noted x) : Noted d (d.setFn f x) := by
  refine ⟨.refl d, fun g => ?_, fun _ => rfl⟩
  rw [Dev.fn_setFn]
  split
  · rename_i e
    rwa [← e]
  · rfl

theorem setRing (d : Dev) (g : Nat) {x : Ring} (h : x.nextAcc = (d.ring g).nextAcc) : Noted d (d.setRing g x) := by
  refine ⟨.refl d, fun _ => rfl, fun j => ?_⟩
  rw [Dev.ring_setRing]
  split
  · rename_i e
    rw [h, e]
  · rfl

end Noted

theorem Fetched.noted {d e : Dev} (h : Fetched d e) : Noted d e := by
  refine ⟨h.endsAlike, fun f => ?_, fun g => by rw [h.ring g]⟩
  exact (congrArg (fun y : Fn => { y with
    evStatus := (d.fn f).evStatus, pba := (d.fn f).pba, pipeEv := (d.fn f).pipeEv, faultInfo := (d.fn f).faultInfo, faultAddr := (d.fn f).faultAddr
    rst := (d.fn f).rst, tlb := (d.fn f).tlb, dirtyOut := (d.fn f).dirtyOut, dirtyCount := (d.fn f).dirtyCount }) (h.2 f) :)

section
variable (d : Dev) (f b cause source ring va p g last : Nat)

theorem sendVector_noted : Noted d (d.sendVector f b) := by
  unfold Dev.sendVector
  split
  · exact .same (.refl d) (fun _ => rfl) (fun _ => rfl)
  · exact .setFn d f rfl

theorem setEv_noted : Noted d (d.setEv f b) := by
  have set := Noted.setFn d f (x := { d.fn f with evStatus := setBit (d.fn f).evStatus b true }) rfl
  unfold Dev.setEv
  dsimp only
  split
  · exact set.trans (sendVector_noted _ f _)
  · exact set

theorem faultRec_noted : Noted d (d.faultRec f cause source ring va) := by
  unfold Dev.faultRec
  refine (Noted.setFn d f ?_).trans (setEv_noted _ f 5)
  split <;> rfl

theorem accessFault_noted : Noted d (d.accessFault f cause source ring va) := by
  unfold Dev.accessFault
  split
  · exact setEv_noted d f 5
  · exact faultRec_noted d f cause source ring va

theorem pipeEvent_noted : Noted d (d.pipeEvent p b) := by
  unfold Dev.pipeEvent
  refine Noted.foldl (fun d f => ?_) _ d
  split
  · have set := Noted.setFn d f (x := { d.fn f with pipeEv := tset (d.fn f).pipeEv p (setBit (tget (d.fn f).pipeEv p 0) b true) }) rfl
    dsimp only
    split
    · exact set.trans (sendVector_noted _ f 7)
    · exact set
  · exact .refl d

theorem countOverwrite_noted (cls inst word page frame : Nat) : Noted d (d.countOverwrite cls inst word page frame) := .same (.refl d) (fun _ => rfl) (fun _ => rfl)

theorem scanWatch_noted : Noted d (d.scanWatch f va) := by
  unfold Dev.scanWatch
  refine Noted.foldl (fun d p => ?_) _ d
  dsimp only
  split
  · exact .refl d
  · refine Noted.trans ?_ (pipeEvent_noted _ 6 p)
    split
    · exact (Noted.foldl (fun d n => countOverwrite_noted d 0x03 n 21 _ _) _ d).trans (countOverwrite_noted _ _ _ _ _ _)
    · exact Noted.foldl (fun d n => countOverwrite_noted d 0x03 n 21 _ _) _ d

theorem poke_noted (bytes : List Byte) : Noted d (d.poke va bytes) := .same (.refl d) (fun _ => rfl) (fun _ => rfl)

theorem dirtyLog_noted : Noted d (d.dirtyLog f va) := by
  unfold Dev.dirtyLog
  dsimp only
  split
  · exact .refl d
  · split
    · exact .setFn d f rfl
    · generalize (if (d.fn f).dirtyActive then (d.fn f).dirtyBaseB else (d.fn f).dirtyBaseA).toNat + _ = a
      split
      · exact .refl d
      · exact (poke_noted d a _).trans (.setFn (d.poke a _) f rfl)

end

theorem storePieces_noted (f : Nat) (watch : Bool) (l : List (Nat × Nat × Nat)) (bytes : List Byte) (d : Dev) :
    Noted d (d.storePieces f watch l bytes) := by
  induction l generalizing d bytes with
  | nil => exact .refl d
  | cons p r ih =>
    obtain ⟨va, pa, n⟩ := p
    have piece : Noted d ((d.poke pa (bytes.take n)).dirtyLog f va) := (poke_noted d pa _).trans (dirtyLog_noted _ f va)
    unfold Dev.storePieces
    refine Noted.trans ?_ (ih _ _)
    split
    · exact piece.trans (scanWatch_noted _ f va)
    · exact piece

theorem writeV_noted {d d1 : Dev} {f va : Nat} {bytes : List Byte} {x : Except (Nat × Nat) Unit} (h : d.writeV f va bytes = (d1, x)) : Noted d d1 := by
  have fetched := (translateAll_fetched (pieces va bytes.length) d f .write).noted
  simp only [Dev.writeV, Dev.writeVia] at h
  split at h
  · rename_i t
    rw [t] at fetched
    cases h
    exact fetched
  · rename_i t
    rw [t] at fetched
    split at h
    · cases h
      exact fetched
    · cases h
      exact fetched.trans (storePieces_noted f true _ bytes _)

/-! Records. -/

section
variable (d : Dev) (g : Nat)

/-- Of every ring, entries released change entries and the shared count alone (R94). -/
theorem releaseEntries_rings (j : Nat) :
    { (d.releaseEntries g).ring j with entries := (d.ring j).entries, shared := (d.ring j).shared } = d.ring j := by
  by_cases same : j = g
  · subst same
    exact releaseEntries_ring d j
  · have other : (d.releaseEntries g).ring j = d.ring j := by
      unfold Dev.releaseEntries
      dsimp only
      split
      · rfl
      · exact Dev.ring_setRing_ne d same _
    rw [other]

theorem releaseEntries_noted : Noted d (d.releaseEntries g) := by
  have frame := releaseEntries_frame d g
  refine ⟨⟨(congrArg Dev.mem frame :), (congrArg Dev.update frame :), (congrArg Dev.safety frame :)⟩, fun f => ?_,
    fun j => (congrArg Ring.nextAcc (releaseEntries_rings d g j) :)⟩
  rw [show (d.releaseEntries g).fn f = d.fn f from (congrArg (fun x : Dev => x.fn f) frame :)]
  rfl

theorem recordDone_noted (last : Nat) : Noted d (d.recordDone g last) := by
  refine Noted.trans (.setRing d g ?_) (releaseEntries_noted _ g)
  rfl

theorem recordEvent_noted (notify : Bool) : Noted d (d.recordEvent g notify) := by
  unfold Dev.recordEvent
  dsimp only
  split
  · refine Noted.trans (.setRing d g ?_) (setEv_noted _ _ _)
    rfl
  · exact .setRing d g rfl

theorem writeRecord_noted (rec : W144) (last : Nat) (notify : Bool) : Noted d (d.writeRecord g rec last notify) := by
  rcases h : d.writeV (ringFn g) (d.ring g).recordAddr (toBytes 18 rec.toNat) with ⟨d1, ⟨cause, va⟩ | ⟨⟩⟩
  · rw [writeRecord_kept h]
    have fault := (writeV_noted h).trans (accessFault_noted d1 (ringFn g) cause srcRecord (ringKind g) va)
    exact fault.trans (.setRing _ g (fault.2.2 g).symm)
  · rw [writeRecord_written h]
    exact ((writeV_noted h).trans (recordDone_noted d1 g last)).trans (recordEvent_noted _ g notify)

theorem retryRecord_noted : Noted d (d.retryRecord g) := by
  unfold Dev.retryRecord
  split
  · exact writeRecord_noted d g _ _ _
  · exact .refl d

theorem giveUp_noted : Noted d (d.giveUp g) := by
  unfold Dev.giveUp
  dsimp only
  split
  · exact (retryRecord_noted d g).trans (recordDone_noted _ g _)
  · exact retryRecord_noted d g

theorem finishRecords_noted (n : Nat) : Noted d (d.finishRecords g n) := by
  induction n generalizing d with
  | zero => exact giveUp_noted d g
  | succ n ih =>
    rw [Dev.finishRecords]
    split
    · exact ((giveUp_noted d g).trans (writeRecord_noted _ g _ _ _)).trans (ih _)
    · exact giveUp_noted d g

theorem resetRecordOn_noted (f mode : Nat) (first : Option Nat) : Noted d (d.resetRecordOn f mode g first) := by
  unfold Dev.resetRecordOn
  dsimp only
  split
  · split
    · exact (writeRecord_noted d g _ _ _).trans (giveUp_noted _ g)
    · exact .refl d
  · exact .refl d

end

end Sys2Proof.Machine
end

section
/-! An event of a function, and the message that it sends (R135, R136). -/

namespace Sys2Proof.Machine

section
variable (d : Dev) (f : Nat)

/-- A function with an event set. -/
def Fn.withEvent (x : Fn) (b : Nat) : Fn := { x with evStatus := setBit x.evStatus b true }

theorem sendVector_fn_other {h : Nat} (ne : h ≠ f) (v : Nat) : (d.sendVector f v).fn h = d.fn h := by
  unfold Dev.sendVector
  split
  · rfl
  · rw [Dev.fn_setFn, if_neg ne.symm]

/-- A message that is sent leaves its function alone, and one that cannot be sets its PBA bit. -/
theorem sendVector_fn (v : Nat) : { (d.sendVector f v).fn f with pba := (d.fn f).pba } = d.fn f := by
  unfold Dev.sendVector
  split
  · rfl
  · rw [Dev.fn_setFn_same]

theorem sendVector_sent {v : Nat} (can : d.canSend f v = true) :
    d.sendVector f v = { d with msgs := d.msgs ++ [{ fn := f, vec := v, entry := (d.fn f).msix v }] } := if_pos can

theorem sendVector_pending {v : Nat} (cannot : d.canSend f v = false) :
    d.sendVector f v = d.setFn f { d.fn f with pba := setBit (d.fn f).pba v true } := if_neg (ne_true_of_eq_false cannot)

/-- An event has no part in whether a message can be sent. -/
theorem canSend_withEvent (b v : Nat) : (d.setFn f ((d.fn f).withEvent b)).canSend f v = d.canSend f v := by
  unfold Dev.canSend
  rw [Dev.fn_setFn_same]
  rfl

variable {b : Nat}

theorem setEv_new (clear : bit (d.fn f).evStatus b = false) (enabled : bit (d.fn f).evEnable b = true) :
    d.setEv f b = (d.setFn f ((d.fn f).withEvent b)).sendVector f (vectorOf b) := if_pos (by simp [clear, enabled])

theorem setEv_silent (h : bit (d.fn f).evStatus b = true ∨ bit (d.fn f).evEnable b = false) : d.setEv f b = d.setFn f ((d.fn f).withEvent b) :=
  if_neg (by rcases h with h | h <;> simp [h])

/-- An event either falls silent or falls due as a message. -/
theorem setEv_cases (b : Nat) : d.setEv f b = d.setFn f ((d.fn f).withEvent b) ∨
    d.setEv f b = (d.setFn f ((d.fn f).withEvent b)).sendVector f (vectorOf b) := by
  unfold Dev.setEv
  dsimp only
  split
  · exact .inr rfl
  · exact .inl rfl

theorem setEv_status (b : Nat) : ((d.setEv f b).fn f).evStatus = setBit (d.fn f).evStatus b true := by
  rcases setEv_cases d f b with e | e
  · rw [e, Dev.fn_setFn_same]
    rfl
  · rw [e, sendVector_evStatus, Dev.fn_setFn_same]
    rfl

theorem setEv_fn_other {h : Nat} (ne : h ≠ f) (b : Nat) : (d.setEv f b).fn h = d.fn h := by
  have set : (d.setFn f ((d.fn f).withEvent b)).fn h = d.fn h := by rw [Dev.fn_setFn, if_neg ne.symm]
  rcases setEv_cases d f b with e | e
  · rw [e, set]
  · rw [e, sendVector_fn_other _ f ne, set]

/-- Beside EV_STATUS and the PBA an event leaves the registers of its function. -/
theorem setEv_fn (b : Nat) : { (d.setEv f b).fn f with evStatus := (d.fn f).evStatus, pba := (d.fn f).pba } = d.fn f := by
  rcases setEv_cases d f b with e | e
  · rw [e, Dev.fn_setFn_same]
    rfl
  · have sent := sendVector_fn (d.setFn f ((d.fn f).withEvent b)) f (vectorOf b)
    rw [Dev.fn_setFn_same] at sent
    rw [e]
    exact (congrArg (fun x : Fn => { x with evStatus := (d.fn f).evStatus }) sent :)

end

end Sys2Proof.Machine
end

section
/-! Resets of functions: how they begin (R98, R157, R158) and how they end (R97, R104, R159, R162). -/

namespace Sys2Proof.Machine

/-! A reset begins. -/

section
variable (d : Dev) (f : Nat)

/-- A drain or a squash as it begins (R98, R158). -/
def Dev.resetOf (mode : Nat) (cfg : Bool) : FnReset :=
  { mode := BitVec.ofNat 2 mode, held := d.wouldCollide f, begun := d.now, limitAt := d.now + fld (d.obj 0x0C f 1) 8 8 * 1000000, cfg := cfg, vanish := false
    waitFrom := [], keepFault := false }

/-- What a squash in progress does with a function's work: nothing while it is held (R98). -/
def Dev.squashed (held : Bool) : Dev := if held then d else (d.stopAll f).cancelOps f

theorem squashed_fn (held : Bool) (h : Nat) : (d.squashed f held).fn h = d.fn h := by
  unfold Dev.squashed
  split
  · rfl
  · exact stopAll_fn d f h

theorem squashed_stops : FunctionStops f true d (d.squashed f false) := (functionStops_stopAll d f).cancelOps

theorem squashed_endsAlike (held : Bool) : EndsAlike d (d.squashed f held) := by
  cases held
  · exact (squashed_stops d f).endsAlike
  · exact .refl d

theorem squashed_writes (held : Bool) : (d.squashed f held).writes = d.writes := by
  cases held
  · exact (squashed_stops d f).writes
  · rfl

theorem beginReset_drain (cfg : Bool) : d.beginReset f 1 cfg = d.setFn f { d.fn f with rst := some (d.resetOf f 1 cfg) } := rfl

theorem beginReset_squash (cfg : Bool) :
    d.beginReset f 2 cfg = (d.setFn f { d.fn f with rst := some (d.resetOf f 2 cfg) }).squashed f (d.wouldCollide f) := by
  have begun : d.beginReset f 2 cfg = if (2 = 2 && !d.wouldCollide f) then
      ((d.setFn f { d.fn f with rst := some (d.resetOf f 2 cfg) }).stopAll f).cancelOps f else d.setFn f { d.fn f with rst := some (d.resetOf f 2 cfg) } := rfl
  rw [begun]
  cases d.wouldCollide f <;> rfl

theorem requestReset_first (cfg : Bool) (none : (d.fn f).rst = none) : d.requestReset f cfg = d.beginReset f (fld (d.obj 0x0C f 1) 2 2 + 1) cfg := by
  simp [Dev.requestReset, none]

theorem requestReset_taken {r : FnReset} (cfg : Bool) (some_ : (d.fn f).rst = some r) :
    d.requestReset f cfg = d.setFn f { d.fn f with rst := some { r with cfg := r.cfg || cfg } } := by
  simp [Dev.requestReset, Dev.updReset, some_]

end

/-- A function whose registers alone have been replaced since device d. -/
theorem setFn_passed {d e : Dev} {f : Nat} {x : Fn} (h : Passed (d.setFn f x) e) :
    e.fn f = x ∧ { e with fns := d.fns, bus := d.bus } = d ∧ ∀ h, h ≠ f → e.fn h = d.fn h :=
  ⟨(h.fn f).trans (Dev.fn_setFn_same d f x), (congrArg (fun y : Dev => { y with fns := d.fns }) h :),
    fun g ne => (h.fn g).trans (by rw [Dev.fn_setFn, if_neg ne.symm])⟩

/-- A squash whose function's registers have been replaced. -/
theorem squashed_passed {d e : Dev} {f : Nat} {x : Fn} {held : Bool} (h : Passed ((d.setFn f x).squashed f held) e) :
    e.fn f = x ∧ (held = false → FunctionStops f true d e) ∧
      (held = true → { e with fns := d.fns, bus := d.bus } = d ∧ ∀ h, h ≠ f → e.fn h = d.fn h) := by
  refine ⟨(h.fn f).trans ((squashed_fn _ f held f).trans (Dev.fn_setFn_same d f x)), ?_, ?_⟩
  · rintro rfl
    exact ((squashed_stops _ f).passed h).of_setFn
  · rintro rfl
    exact (setFn_passed h).2

section
variable {i : Instr} {s : State} {h : Dev → Dev} {d : Dev} {f : Nat} {cfg : Bool}

/-- A command that gives its function new registers and then squashes its work, unless that is held. -/
theorem squash_does {y : Fn} {held : Bool} (x : exec i s = run h s) (k : s.Steady) (hd : h s.dev = (d.setFn f y).squashed f held)
    (m : EndsAlike s.dev d) (w : d.writes = s.dev.writes) :
    Does i s (fun e => e.fn f = y ∧ (held = false → FunctionStops f true d e) ∧
      (held = true → { e with fns := d.fns, bus := d.bus } = d ∧ ∀ h, h ≠ f → e.fn h = d.fn h)) :=
  (does_passed x k hd (m.trans (squashed_endsAlike (d.setFn f y) f held)) ((squashed_writes _ f held).trans w)).imp (fun _ passed => squashed_passed passed)

/-- A reset begins as its mode has it. -/
theorem resetBegins_of (x : exec i s = run h s) (k : s.Steady) (hd : h s.dev = d.requestReset f cfg) (none : (d.fn f).rst = none)
    (m : EndsAlike s.dev d) (w : d.writes = s.dev.writes) : ResetBegins i s d f cfg := by
  rw [requestReset_first d f cfg none] at hd
  refine ⟨fun mode => ?_, fun mode => ?_, fun mode => ?_⟩
  · rintro r rfl
    rw [mode] at hd
    exact becomes_runFrom x k (hd.trans (beginReset_drain d f cfg)) (m.trans (.refl _))
  · rw [mode] at hd
    exact (squash_does x k (hd.trans (beginReset_squash d f cfg)) m w).imp (fun e ⟨fn, stops⟩ => ⟨by rw [fn]; rfl, stops⟩)
  · rw [mode] at hd
    have stops := beginDiscard_stops d f cfg false false
    refine (does_passed (d := d.beginDiscard f cfg false false) x k hd (m.trans stops.endsAlike) (stops.writes.trans w)).imp (fun e passed => ?_)
    have rst := (congrArg Fn.rst (passed.fn f)).trans (beginDiscard_rst d f cfg false false)
    refine ⟨by rw [rst]; rfl, fun k lt r is => ?_, stops.passed passed⟩
    obtain rfl := Option.some.inj (rst.symm.trans is)
    exact discardOf_waitFrom d f lt _ _ _

theorem Arrives.writes (k : Arrives s f d) : d.writes = s.dev.writes := k.owesNothing.1.1.trans k.1.1.1.1.symm

theorem Configured.writes (k : Configured s f d) : d.writes = s.dev.writes := k.owesNothing.1.1.trans k.steady.1.1.1.symm

end

/-! Commands that begin resets or carry them on. -/

/-- What DRAIN_LIMIT_EXPIRY does (R158). -/
def Dev.drainExpires (d : Dev) (f at_ : Nat) : Dev :=
  match ((d.tick at_).fn f).rst with
  | some r =>
    if r.mode ≠ 1 ∨ (d.tick at_).now < r.limitAt then d
    else
      let d2 := (d.tick at_).updReset f (fun r => { r with mode := 2 })
      if r.held then d2 else (d2.stopAll f).cancelOps f
  | none => d

/-- What HELD_RESET_RELEASE does (R98). -/
def Dev.heldReleased (d : Dev) (f : Nat) : Dev :=
  match (d.fn f).rst with
  | some r =>
    if !r.held || d.wouldCollide f then d
    else
      let d1 := d.updReset f (fun r => { r with held := false })
      if r.mode = 2 then (d1.stopAll f).cancelOps f else if r.mode = 3 then d1.cancelOps f else d1
  | none => d

section
variable (s : State) (host f : Fin 64) (v : BitVec 32) (at_ : Nat)

theorem exec_resetReq : exec (.resetReq f v) s =
    run (hosted (.resetReq f v) f.val (fun d => if bit v 0 && !d.resetting f.val then d.requestReset f.val false else d)) s := rfl
theorem exec_funcCtlReset : exec (.funcCtlReset host f v) s = run (blockWrite (.funcCtlReset host f v) host.val f.val (fun d => d.funcCtl f.val v)) s := rfl
theorem exec_funcCtlHold : exec (.funcCtlHold host f v) s = run (blockWrite (.funcCtlHold host f v) host.val f.val (fun d => d.funcCtl f.val v)) s := rfl
theorem exec_drainLimitExpiry : exec (.drainLimitExpiry f at_) s = run (fun d => d.drainExpires f.val at_) s := rfl
theorem exec_heldResetRelease : exec (.heldResetRelease f) s = run (fun d => d.heldReleased f.val) s := rfl

end

section
variable {d : Dev} {f at_ : Nat} {r : FnReset}

theorem updReset_some (rst : (d.fn f).rst = some r) (h : FnReset → FnReset) : d.updReset f h = d.setFn f { d.fn f with rst := some (h r) } := by
  rw [Dev.updReset, rst]
  rfl

theorem drainExpires_due (rst : (d.fn f).rst = some r) (mode : r.mode = 1) (due : r.limitAt ≤ (d.tick at_).now) :
    d.drainExpires f at_ = ((d.tick at_).setFn f { d.fn f with rst := some { r with mode := 2 } }).squashed f r.held := by
  have rst' : ((d.tick at_).fn f).rst = some r := rst
  simp only [Dev.drainExpires, rst', updReset_some rst', mode, Nat.not_lt.mpr due]
  rfl

theorem drainExpires_early (rst : (d.fn f).rst = some r) (early : (d.tick at_).now < r.limitAt) : d.drainExpires f at_ = d := by
  have rst' : ((d.tick at_).fn f).rst = some r := rst
  simp only [Dev.drainExpires, rst']
  exact if_pos (.inr early)

theorem heldReleased_collides (rst : (d.fn f).rst = some r) (collides : d.wouldCollide f = true) : d.heldReleased f = d := by
  simp [Dev.heldReleased, rst, collides]

/-- What a held reset goes on with when it is released: a squash stops the function, a discard cancels its operations (R98). -/
theorem heldReleased_free (rst : (d.fn f).rst = some r) (held : r.held = true) (free : d.wouldCollide f = false) :
    d.heldReleased f =
      if r.mode = 2 then (d.setFn f { d.fn f with rst := some { r with held := false } }).squashed f false
      else if r.mode = 3 then (d.setFn f { d.fn f with rst := some { r with held := false } }).cancelOps f
      else d.setFn f { d.fn f with rst := some { r with held := false } } := by
  simp only [Dev.heldReleased, rst, updReset_some rst, held, free]
  rfl

end

theorem funcCtl_eq (d : Dev) (f : Nat) (v : BitVec 32) :
    d.funcCtl f v = if bit v 0 then (d.setFn f { d.fn f with hold := bit v 1 }).requestReset f false else d.setFn f { d.fn f with hold := bit v 1 } := rfl

end Sys2Proof.Machine
end

section
/-! The end of a reset (R97, R104, R159, R162), and the function resets that are settled. -/

namespace Sys2Proof.Machine

/-! Registers at reset. -/

/-- A function's registers of the generation to come (R97, R162). -/
def Fn.reborn (x : Fn) (cfg : Bool) : Fn :=
  let keep := match x.rst with | some y => y.keepFault | none => false
  let x1 : Fn :=
    { x with
      gen := x.gen + 1, rst := none, evStatus := 0, evEnable := 0x1FF, apertureBase := 0, pipeEv := [], pipeEvEn := [], hapStat := []
      faultInfo := if keep then x.faultInfo else 0, faultAddr := if keep then x.faultAddr else 0 }
  if cfg then x1.cfgReset else x1

/-- A function in its new generation, with its event of the reset raised. -/
def Fn.Reborn (x y : Fn) (cfg : Bool) : Prop := y.evStatus = 0x40 ∧ { y with evStatus := 0, pba := (x.reborn cfg).pba } = x.reborn cfg

theorem Fn.reborn_evStatus (x : Fn) (cfg : Bool) : (x.reborn cfg).evStatus = 0 := by cases cfg <;> rfl

/-- What the new generation keeps of the old, and what it has at reset. -/
theorem Fn.Reborn.registers {x y : Fn} {cfg : Bool} (h : x.Reborn y cfg) :
    y.gen = x.gen + 1 ∧ y.rst = none ∧ y.evStatus = 0x40 ∧ y.evEnable = 0x1FF ∧ y.apertureBase = 0 ∧ y.pipeEv = [] ∧ y.hapStat = [] ∧
      y.iommuRoot = x.iommuRoot := by
  obtain ⟨status, same⟩ := h
  have fields := congrArg (fun z : Fn => (z.gen, z.rst, z.evEnable, z.apertureBase, z.pipeEv, z.hapStat, z.iommuRoot)) same
  have reborn : (fun z : Fn => (z.gen, z.rst, z.evEnable, z.apertureBase, z.pipeEv, z.hapStat, z.iommuRoot)) (x.reborn cfg) =
      (x.gen + 1, none, 0x1FF, 0, [], [], x.iommuRoot) := by cases cfg <;> rfl
  have values := fields.trans reborn
  simp only [Prod.mk.injEq] at values
  obtain ⟨gen, rst, enable, base, pipes, haptics, root⟩ := values
  exact ⟨gen, rst, status, enable, base, pipes, haptics, root⟩

theorem Fn.Reborn.cfg {x y : Fn} (h : x.Reborn y true) : y.msixTable = [] ∧ y.msixEnable = false ∧ y.d3hot = false :=
  ⟨(congrArg Fn.msixTable h.2 :), (congrArg Fn.msixEnable h.2 :), (congrArg Fn.d3hot h.2 :)⟩

theorem Fn.Reborn.plain {x y : Fn} (h : x.Reborn y false) : y.msixTable = x.msixTable ∧ y.d3hot = x.d3hot :=
  ⟨(congrArg Fn.msixTable h.2 :), (congrArg Fn.d3hot h.2 :)⟩

/-- A ring but for its entries and the shared count. -/
def Ring.Keeps (r t : Ring) : Prop := { t with entries := r.entries, shared := r.shared } = r

theorem Ring.Keeps.trans {r t u : Ring} (h : r.Keeps t) (k : t.Keeps u) : r.Keeps u :=
  (congrArg (fun y : Ring => { y with entries := r.entries, shared := r.shared }) k :).trans h

/-! The steps of a reset's end. -/

section
variable (d : Dev) (f : Nat) (cfg : Bool)

/-- Registers and rings of a function at reset; operations not yet started are reported with the old generation (R104). -/
def Dev.registersReset : Dev :=
  let d1 := (fnRings f).foldl (fun d g => d.setRing g (d.ring g).cleared)
    (({ d with latch := d.latch.filter (fun y => y.1 / 2 ^ 20 ≠ f) } : Dev).setFn f ((d.fn f).reborn cfg))
  { d1 with ops := d1.ops.map (fun o => if o.fn = f && o.phase = .released && o.gen ≠ ((d.fn f).reborn cfg).gen then { o with phase := .reported } else o) }

/-- The same, with the entries released that waited and EV_RESET_DONE raised. -/
def Dev.resetDone : Dev := ((fnRings f).foldl (fun d g => d.releaseEntries g) (d.registersReset f cfg)).setEv f 6

/-- What the FLR of a PF does to its port (R161, R162). -/
def Dev.portRenewed : Dev :=
  if cfg && f % 16 = 0 then (let d4 := d.vfClear (f / 16); d4.setPort (f / 16) (d4.port (f / 16)).cfgReset) else d

theorem finishReset_eq (r : FnReset) :
    d.finishReset f r =
      let d5 := ((d.resetDone f r.cfg).portRenewed f r.cfg).setTfn f { ((d.resetDone f r.cfg).portRenewed f r.cfg).tfn f with held := [] }
      if r.vanish then d5.vanish f else d5 := rfl

/-- The device whose function has its new registers and whose rings are yet to be cleared. -/
def Dev.registersCleared : Dev := ({ d with latch := d.latch.filter (fun y => y.1 / 2 ^ 20 ≠ f) } : Dev).setFn f ((d.fn f).reborn cfg)

theorem registersReset_frame : { d.registersReset f cfg with rings := d.rings, ops := d.ops } = { d.registersCleared f cfg with ops := d.ops } :=
  List.foldlRecOn (fnRings f) (fun (d : Dev) g => d.setRing g (d.ring g).cleared) (b := d.registersCleared f cfg)
    (motive := fun e : Dev => { e with rings := d.rings, ops := d.ops } = ({ d.registersCleared f cfg with ops := d.ops } : Dev)) rfl (fun _ same _ _ => same)

theorem registersReset_fn : (d.registersReset f cfg).fn f = (d.fn f).reborn cfg :=
  (congrArg (fun x : Dev => x.fn f) (registersReset_frame d f cfg) :).trans (Dev.fn_setFn_same _ f _)

theorem registersReset_ring {g : Nat} (own : g / 4 = f) : (d.registersReset f cfg).ring g = (d.ring g).cleared := by
  have others (e : Dev) (a h : Nat) (ne : h ≠ a) : (e.setRing a (e.ring a).cleared).ring h = e.ring h := Dev.ring_setRing_ne e ne _
  obtain ⟨e, same, set⟩ := ring_foldl_mem others (fnRings_nodup f) ((mem_fnRings f g).mpr own)
    (d.registersCleared f cfg)
  have cleared : (d.registersReset f cfg).ring g = (e.setRing g (e.ring g).cleared).ring g := set
  rw [cleared, Dev.ring_setRing_same, same]
  rfl

theorem registersReset_endsAlike : EndsAlike d (d.registersReset f cfg) :=
  have frame := registersReset_frame d f cfg
  ⟨(congrArg Dev.mem frame :), (congrArg Dev.update frame :), (congrArg Dev.safety frame :)⟩

/-- Releases of entries on several rings leave functions alone, and of rings the registers. -/
theorem releases_keep (l : List Nat) : EndsAlike d (l.foldl (fun d g => d.releaseEntries g) d) ∧
    (∀ h, (l.foldl (fun d g => d.releaseEntries g) d).fn h = d.fn h) ∧ ∀ j, (d.ring j).Keeps ((l.foldl (fun d g => d.releaseEntries g) d).ring j) := by
  refine List.foldlRecOn l (fun (d : Dev) g => d.releaseEntries g)
    (motive := fun e => EndsAlike d e ∧ (∀ h, e.fn h = d.fn h) ∧ ∀ j, (d.ring j).Keeps (e.ring j)) ⟨.refl d, fun _ => rfl, fun _ => rfl⟩ ?_
  rintro e ⟨alike, fns, rings⟩ g -
  have fn (h : Nat) : (e.releaseEntries g).fn h = e.fn h := (congrArg (fun x : Dev => x.fn h) (releaseEntries_frame e g) :)
  exact ⟨alike.trans (releaseEntries_noted e g).1, fun h => (fn h).trans (fns h), fun j => (rings j).trans (releaseEntries_rings e g j)⟩

theorem resetDone_fn : (d.fn f).Reborn ((d.resetDone f cfg).fn f) cfg := by
  obtain ⟨-, fns, -⟩ := releases_keep (d.registersReset f cfg) (fnRings f)
  have before := (fns f).trans (registersReset_fn d f cfg)
  refine ⟨?_, ?_⟩
  · rw [Dev.resetDone, setEv_status, before, Fn.reborn_evStatus]
    rfl
  · have event := setEv_fn ((fnRings f).foldl (fun d g => d.releaseEntries g) (d.registersReset f cfg)) f 6
    rw [before, Fn.reborn_evStatus] at event
    exact event

theorem resetDone_ring {g : Nat} (own : g / 4 = f) : (d.ring g).cleared.Keeps ((d.resetDone f cfg).ring g) := by
  obtain ⟨-, -, rings⟩ := releases_keep (d.registersReset f cfg) (fnRings f)
  have released := rings g
  rw [registersReset_ring d f cfg own] at released
  rw [Dev.resetDone, (setEv_signalled _ f 6).ring]
  exact released

theorem resetDone_endsAlike : EndsAlike d (d.resetDone f cfg) :=
  ((registersReset_endsAlike d f cfg).trans (releases_keep _ (fnRings f)).1).trans (setEv_endsAlike _ f 6)

/-! What leaves the function alone. -/

/-- Function f and its rings are as they were. -/
def FunctionKept (f : Nat) (d e : Dev) : Prop := EndsAlike d e ∧ e.fn f = d.fn f ∧ ∀ g, g / 4 = f → e.ring g = d.ring g

theorem FunctionKept.trans {f : Nat} {d e r : Dev} (h : FunctionKept f d e) (k : FunctionKept f e r) : FunctionKept f d r := by
  obtain ⟨alike, fn, rings⟩ := h
  obtain ⟨alike', fn', rings'⟩ := k
  exact ⟨alike.trans alike', fn'.trans fn, fun g own => (rings' g own).trans (rings g own)⟩

theorem FunctionKept.refl (f : Nat) (d : Dev) : FunctionKept f d d := ⟨.refl d, rfl, fun _ _ => rfl⟩

theorem FunctionKept.foldl {α : Type} {f : Nat} {h : Dev → α → Dev} (k : ∀ d x, FunctionKept f d (h d x)) (l : List α) (d : Dev) :
    FunctionKept f d (l.foldl h d) :=
  List.foldlRecOn l h (motive := FunctionKept f d) (.refl f d) (fun e same x _ => same.trans (k e x))

theorem vfClear_kept (pf : f % 16 = 0) : FunctionKept f d (d.vfClear (f / 16)) := by
  cases on : (d.port (f / 16)).vfEnable
  · rw [vfClear_disabled on]
    exact .refl f d
  · have vf {i : Nat} (m : i ∈ (d.port (f / 16)).vfs) : 16 * (f / 16) + i ≠ f := by
      have lo : 1 ≤ i := by simpa using (Bool.and_eq_true_iff.mp (List.mem_filter.mp m).2).1
      omega
    rw [vfClear_enabled on]
    refine ⟨(discardFunctions_endsAlike _ _ _ _).trans (.refl _), discardFunctions_fn_other _ _ _ _ (fun i m => vf m), fun g own => ?_⟩
    exact discardFunctions_ring_other _ _ _ _ (fun i m => own.symm ▸ vf m)

theorem portRenewed_kept : FunctionKept f d (d.portRenewed f cfg) := by
  unfold Dev.portRenewed
  split
  · rename_i pf
    have kept := vfClear_kept d f (by simpa using (Bool.and_eq_true_iff.mp pf).2)
    exact kept.trans ⟨.refl _, rfl, fun _ _ => rfl⟩
  · exact .refl f d

theorem vanish_kept (h : Nat) : FunctionKept h d (d.vanish f) := by
  have owned (e : Dev) (cls lo hi : Nat) : FunctionKept h e (e.returnOwned cls lo hi f) := by
    refine FunctionKept.foldl (fun e i => ?_) _ e
    split
    · exact ⟨.refl e, rfl, fun _ _ => rfl⟩
    · exact .refl h e
  unfold Dev.vanish
  dsimp only
  refine FunctionKept.trans ?_ (FunctionKept.foldl (fun e n => ?_) _ _)
  · refine FunctionKept.trans (FunctionKept.foldl (fun e cls => owned e cls 0 _) _ d) (FunctionKept.foldl (fun e k => ?_) _ _)
    split
    · exact .refl h e
    · exact ⟨.refl e, rfl, fun _ _ => rfl⟩
  · split
    · exact .refl h e
    · split <;> exact ⟨.refl e, rfl, fun _ _ => rfl⟩

theorem finishReset_kept (r : FnReset) : FunctionKept f (d.resetDone f r.cfg) (d.finishReset f r) := by
  have renewed := portRenewed_kept (d.resetDone f r.cfg) f r.cfg
  have held (x : TouchFn) : FunctionKept f ((d.resetDone f r.cfg).portRenewed f r.cfg) (((d.resetDone f r.cfg).portRenewed f r.cfg).setTfn f x) :=
    ⟨.refl _, rfl, fun _ _ => rfl⟩
  rw [finishReset_eq]
  dsimp only
  split
  · exact (renewed.trans (held _)).trans (vanish_kept _ f f)
  · exact renewed.trans (held _)

end

/-! The command. -/

section
variable (d : Dev) (f : Nat)

/-- The decided records of a function's rings, written or given up (R160). -/
def Dev.decidedRecords : Dev := (fnRings f).foldl (fun d g => d.finishRecords g (d.ring g).entries.length) d

/-- The reset records of a function's rings (R100). -/
def Dev.resetRecords (mode : Nat) (first : Dev → Nat → Option Nat) : Dev := (fnRings f).foldl (fun d g => d.resetRecordOn f mode g (first d g)) d

/-- What RESET_END does. -/
def Dev.resetEnds : Dev :=
  match (d.fn f).rst with
  | none => d
  | some r =>
    if r.held then d
    else
      let d1 := d.decidedRecords f
      if r.mode = 3 then (d1.resetRecords f 3 (fun _ g => tfind r.waitFrom (ringKind g))).finishReset f r
      else if (fnRings f).all (fun g => d.drained g) then (d1.resetRecords f r.mode.toNat (fun d g => d.firstOpen g)).finishReset f r
      else d

theorem records_noted (mode : Nat) (first : Dev → Nat → Option Nat) : Noted d ((d.decidedRecords f).resetRecords f mode first) :=
  (Noted.foldl (fun d g => finishRecords_noted d g _) _ d).trans (Noted.foldl (fun d g => resetRecordOn_noted d g f mode _) _ _)

variable {d f} {r : FnReset}

/-- A reset whose conditions hold ends after its records. -/
theorem resetEnds_ends (rst : (d.fn f).rst = some r) (free : r.held = false)
    (ready : r.mode = 3 ∨ ∀ k, k < 4 → (d.ring (4 * f + k)).kept = none ∧ d.drained (4 * f + k) = true) :
    ∃ e, Noted d e ∧ d.resetEnds f = e.finishReset f r := by
  by_cases mode : r.mode = 3
  · refine ⟨_, records_noted d f 3 (fun _ g => tfind r.waitFrom (ringKind g)), ?_⟩
    simp [Dev.resetEnds, rst, free, mode]
  · have drained : (fnRings f).all (fun g => d.drained g) = true := by
      have each := ready.resolve_left mode
      simp [fnRings, each 1 (by decide), each 2 (by decide), each 3 (by decide), show d.drained (4 * f) = true from (each 0 (by decide)).2]
    refine ⟨_, records_noted d f r.mode.toNat (fun d g => d.firstOpen g), ?_⟩
    simp only [Dev.resetEnds, rst, free, mode, drained, Bool.false_eq_true, if_false, if_true]

theorem resetEnds_waits (rst : (d.fn f).rst = some r) (free : r.held = false) (mode : r.mode ≠ 3)
    (busy : ∃ k, k < 4 ∧ d.drained (4 * f + k) = false) : d.resetEnds f = d := by
  obtain ⟨k, lt, undrained⟩ := busy
  have notAll : ¬(fnRings f).all (fun g => d.drained g) = true := by
    intro all
    have own : 4 * f + k ∈ fnRings f := (mem_fnRings f _).mpr (by omega)
    exact ne_true_of_eq_false undrained (List.all_eq_true.mp all _ own)
  simp only [Dev.resetEnds, rst, free, mode, Bool.false_eq_true, if_false]
  exact if_neg notAll

end

theorem exec_resetEnd (f : Fin 64) (s : State) : exec (.resetEnd f) s = runAs (mpHost f.val) (fun d => d.resetEnds f.val) s := rfl

theorem Is.fn {d e : Dev} (h : Is d e) (f : Nat) : e.fn f = d.fn f := by
  obtain ⟨-, -, -, frame⟩ := h
  exact (congrArg (fun x : Dev => x.fn f) frame :)

/-- A reset that ends: the function is in its new generation, and its rings are cleared but for the accession numbers. -/
theorem resetEnd_ends {s : State} {f : Fin 64} {r : FnReset} (k : s.Steady) (rst : (s.dev.fn f.val).rst = some r) (free : r.held = false)
    (ready : r.mode = 3 ∨ ∀ k, k < 4 → (s.dev.ring (4 * f.val + k)).kept = none ∧ s.dev.drained (4 * f.val + k) = true) :
    Does (.resetEnd f) s (fun e =>
      (∃ x, (s.dev.fn f.val).Noted x ∧ x.Reborn (e.fn f.val) r.cfg) ∧
      ∀ k, k < 4 → ∃ t : Ring, t.nextAcc = (s.dev.ring (4 * f.val + k)).nextAcc ∧ t.cleared.Keeps (e.ring (4 * f.val + k))) := by
  obtain ⟨d, ⟨alike, fns, accessions⟩, ends⟩ := resetEnds_ends rst free ready
  obtain ⟨alike', fn, rings⟩ := finishReset_kept d f.val r
  refine (becomes_runFrom (exec_resetEnd f s) k ends (alike.trans ((resetDone_endsAlike d f.val r.cfg).trans alike'))).imp
    (fun e is => ⟨⟨d.fn f.val, fns f.val, ?_⟩, fun k lt => ⟨d.ring (4 * f.val + k), accessions _, ?_⟩⟩)
  · rw [is.fn, fn]
    exact resetDone_fn d f.val r.cfg
  · have own : (4 * f.val + k) / 4 = f.val := by omega
    rw [is.ring, rings _ own]
    exact resetDone_ring d f.val r.cfg own

/-- Registers of a ring that is cleared (R86, R162). -/
theorem Ring.Keeps.cleared {r t : Ring} (h : r.cleared.Keeps t) :
    t.enable = false ∧ t.base = 0 ∧ t.tail = 0 ∧ t.acc = 0 ∧ t.head = 0 ∧ t.cmplTail = 0 ∧ t.err = 0 ∧ t.thread = Thread.idle ∧ t.nextAcc = r.nextAcc :=
  ⟨(congrArg Ring.enable h :), (congrArg Ring.base h :), (congrArg Ring.tail h :), (congrArg Ring.acc h :), (congrArg Ring.head h :),
    (congrArg Ring.cmplTail h :), (congrArg Ring.err h :), (congrArg Ring.thread h :), (congrArg Ring.nextAcc h :)⟩

/-- What a function that noted something keeps of what a reset looks at. -/
theorem Fn.Noted.registers {x y : Fn} (h : x.Noted y) : y.gen = x.gen ∧ y.iommuRoot = x.iommuRoot ∧ y.msixTable = x.msixTable ∧ y.d3hot = x.d3hot :=
  ⟨(congrArg Fn.gen h :), (congrArg Fn.iommuRoot h :), (congrArg Fn.msixTable h :), (congrArg Fn.d3hot h :)⟩

/-- A held reset that no operation keeps any longer goes on in its mode (R98). -/
theorem heldResetRelease_free {s : State} {f : Fin 64} {r : FnReset} (k : s.Steady) (rst : (s.dev.fn f.val).rst = some r) (held : r.held = true)
    (free : s.dev.wouldCollide f.val = false) :
    Does (.heldResetRelease f) s (fun e =>
      (e.fn f.val).rst = some { r with held := false } ∧ (r.mode = 2 → FunctionStops f.val true s.dev e) ∧
      (r.mode ≠ 2 → { e with fns := s.dev.fns, ops := s.dev.ops, bus := s.dev.bus } = s.dev ∧ (∀ h, h ≠ f.val → e.fn h = s.dev.fn h) ∧
        e.ops = if r.mode = 3 then s.dev.ops.map (fun o => if o.fn = f.val && (o.phase = .released || o.phase = .started) then { o with cancel := true } else o)
          else s.dev.ops)) := by
  have released := heldReleased_free rst held free
  by_cases squash : r.mode = 2
  · rw [if_pos squash] at released
    exact (squash_does (exec_heldResetRelease s f) k released (.refl _) rfl).imp
      (fun e ⟨fn, stops, _⟩ => ⟨by rw [fn], fun _ => stops rfl, fun other => absurd squash other⟩)
  · rw [if_neg squash] at released
    split at released
    · rename_i discard
      refine (does_passed (exec_heldResetRelease s f) k released (.refl _) rfl).imp (fun e passed => ?_)
      refine ⟨by rw [passed.fn]; exact (congrArg Fn.rst (Dev.fn_setFn_same s.dev f.val _) :), fun other => absurd other squash, fun _ => ?_⟩
      rw [if_pos discard]
      exact ⟨(congrArg (fun x : Dev => { x with fns := s.dev.fns, ops := s.dev.ops }) passed :),
        fun h ne => (passed.fn h).trans (show (s.dev.setFn f.val _).fn h = _ by rw [Dev.fn_setFn, if_neg ne.symm]), (congrArg Dev.ops passed :)⟩
    · rename_i drain
      refine (does_passed (exec_heldResetRelease s f) k released (.refl _) rfl).imp (fun e passed => ?_)
      obtain ⟨fn, frame, others⟩ := setFn_passed passed
      rw [if_neg drain]
      have ops : e.ops = s.dev.ops := (congrArg Dev.ops passed :)
      exact ⟨by rw [fn], fun other => absurd other squash, fun _ => ⟨(congrArg (fun x : Dev => { x with ops := s.dev.ops }) frame :), others, ops⟩⟩

theorem Dev.reachesBlock_of {d : Dev} {host f : Fin 64} (reach : host.val = d.manager ∨ (host.val % 16 = 0 ∧ f.val / 16 = host.val / 16 ∧ f ≠ host)) :
    d.reachesBlock host.val f.val = true := by
  rcases reach with manager | ⟨pf, port, other⟩
  · simp [Dev.reachesBlock, manager]
  · simp [Dev.reachesBlock, pf, port, Fin.val_ne_of_ne other]

/-- FUNC_CTL written by a host that reaches it: HOLD is taken, and RESET begins a reset where none is in progress (R146, R157). -/
theorem funcCtl_reached {s : State} {host f : Fin 64} {v : BitVec 32} {d : Dev} (k : Arrives s host.val d) (reaches : d.reachesBlock host.val f.val = true) :
    (bit v 0 = false → Becomes (.funcCtlHold host f v) s (d.setFn f.val { d.fn f.val with hold := bit v 1 }) ∧
      Becomes (.funcCtlReset host f v) s (d.setFn f.val { d.fn f.val with hold := bit v 1 })) ∧
    (bit v 0 = true → (d.fn f.val).rst = none →
      ResetBegins (.funcCtlReset host f v) s (d.setFn f.val { d.fn f.val with hold := bit v 1 }) f.val false ∧
      ResetBegins (.funcCtlHold host f v) s (d.setFn f.val { d.fn f.val with hold := bit v 1 }) f.val false) := by
  refine ⟨fun off => ?_, fun on none => ?_⟩
  · have hold : d.funcCtl f.val v = d.setFn f.val { d.fn f.val with hold := bit v 1 } := (funcCtl_eq d f.val v).trans (if_neg (by simp [off]))
    exact ⟨becomes_blockWrite (exec_funcCtlHold s host f v) k reaches hold (.refl _),
      becomes_blockWrite (exec_funcCtlReset s host f v) k reaches hold (.refl _)⟩
  · have request : d.funcCtl f.val v = (d.setFn f.val { d.fn f.val with hold := bit v 1 }).requestReset f.val false :=
      (funcCtl_eq d f.val v).trans (if_pos on)
    have still : ((d.setFn f.val { d.fn f.val with hold := bit v 1 }).fn f.val).rst = Option.none := by rw [Dev.fn_setFn_same, ← none]
    exact ⟨resetBegins_of (exec_funcCtlReset s host f v) k.1 ((k.hosted_eq _ _).trans ((if_pos reaches).trans request)) still
        (k.endsAlike.trans (.refl _)) k.writes,
      resetBegins_of (exec_funcCtlHold s host f v) k.1 ((k.hosted_eq _ _).trans ((if_pos reaches).trans request)) still
        (k.endsAlike.trans (.refl _)) k.writes⟩

/-- Settles O28: a request begins its mode's reset, and the end of one goes through the records to the function's new generation. -/
theorem functionResets : Obligations.FunctionResets := by
  refine ⟨fun s f d k => ⟨fun none => ?_, fun r some_ => ?_⟩, fun s f v d k => ⟨fun on none => ?_, fun h => ?_⟩, ?_, ?_, ?_,
    fun s f r k rst held => ⟨fun free => ?_, fun collides => ?_⟩, fun s f r k rst free => ⟨fun ready => ?_, fun mode _ busy => ?_⟩⟩
  · exact resetBegins_of (exec_flr s f) k.steady (k.cfgHosted_eq _ _) none k.endsAlike k.writes
  · have taken := requestReset_taken d f.val true some_
    rw [Bool.or_true] at taken
    exact becomes_configured (exec_flr s f) k taken (.refl _)
  · have request : (if bit v 0 && !d.resetting f.val then d.requestReset f.val false else d) = d.requestReset f.val false :=
      if_pos (by simp [on, Dev.resetting, none])
    exact resetBegins_of (exec_resetReq s f v) k.1 ((k.hosted_eq _ _).trans request) none k.endsAlike k.writes
  · refine becomes_hosted (exec_resetReq s f v) k (if_neg ?_) (.refl d)
    rcases h with off | resetting
    · simp [off]
    · simp [Dev.resetting, Option.isSome_iff_ne_none.mpr resetting]
  · rintro s host f v d d1 k reach rfl
    exact funcCtl_reached k (Dev.reachesBlock_of reach)
  · intro s host f v d k foreign h
    have out : d.reachesBlock host.val f.val = false := by
      rcases h with vf | port | rfl
      · simp [Dev.reachesBlock, foreign, vf]
      · simp [Dev.reachesBlock, foreign, port]
      · simp [Dev.reachesBlock, foreign]
    exact ⟨becomes_blockWrite_foreign (exec_funcCtlHold s host f v) k out, becomes_blockWrite_foreign (exec_funcCtlReset s host f v) k out⟩
  · intro s f at_ r d k later rst mode
    obtain rfl : d = s.dev.tick at_ := later
    refine ⟨fun due => ?_, fun early => becomes_run_same (exec_drainLimitExpiry s f at_) k (drainExpires_early rst early)⟩
    exact (squash_does (exec_drainLimitExpiry s f at_) k (drainExpires_due rst mode due) (.refl _) rfl).imp
      (fun e ⟨fn, stops⟩ => ⟨by rw [fn], stops⟩)
  · exact heldResetRelease_free k rst held free
  · exact becomes_run_same (exec_heldResetRelease s f) k (heldReleased_collides rst collides)
  · refine (resetEnd_ends k rst free ready).imp (fun e ⟨⟨x, noted, reborn⟩, rings⟩ => ?_)
    obtain ⟨gen, root, table, d3hot⟩ := noted.registers
    obtain ⟨gen', rst', status, enable, base, pipes, haptics, root'⟩ := reborn.registers
    refine ⟨by rw [gen', gen], rst', status, enable, base, pipes, haptics, root'.trans root, fun cfg => ?_, fun plain => ?_, fun k lt => ?_⟩
    · rw [cfg] at reborn
      exact reborn.cfg
    · rw [plain] at reborn
      exact ⟨reborn.plain.1.trans table, reborn.plain.2.trans d3hot⟩
    · obtain ⟨t, accession, cleared⟩ := rings k lt
      rw [← accession]
      exact cleared.cleared
  · exact becomes_runFrom (exec_resetEnd f s) k (resetEnds_waits rst free mode busy) (.refl _)

end Sys2Proof.Machine
end

section
/-! Events sent and cleared, and faults of the aperture (R11, R133, R136, R138). -/

namespace Sys2Proof.Machine

/-! An event of a function. -/

section
variable (d : Dev) (f b : Nat)

/-- A new event that is enabled sends its vector's message when that can be sent (R136). -/
theorem setEv_sends (clear : bit (d.fn f).evStatus b = false) (enabled : bit (d.fn f).evEnable b = true) (can : d.canSend f (vectorOf b) = true) :
    (d.setEv f b).msgs = d.msgs ++ [{ fn := f, vec := vectorOf b, entry := (d.fn f).msix (vectorOf b) }] ∧ ((d.setEv f b).fn f).pba = (d.fn f).pba := by
  have sent := sendVector_sent (d.setFn f ((d.fn f).withEvent b)) f ((canSend_withEvent d f b _).trans can)
  rw [Dev.fn_setFn_same] at sent
  rw [setEv_new d f clear enabled, sent]
  exact ⟨rfl, (congrArg Fn.pba (Dev.fn_setFn_same d f _) :)⟩

/-- And sets the vector's PBA bit when it cannot (R136). -/
theorem setEv_pends (clear : bit (d.fn f).evStatus b = false) (enabled : bit (d.fn f).evEnable b = true) (cannot : d.canSend f (vectorOf b) = false) :
    (d.setEv f b).msgs = d.msgs ∧ ((d.setEv f b).fn f).pba = setBit (d.fn f).pba (vectorOf b) true := by
  rw [setEv_new d f clear enabled, sendVector_pending _ f ((canSend_withEvent d f b _).trans cannot)]
  simp only [Dev.fn_setFn_same]
  exact ⟨rfl, rfl⟩

theorem setEv_quiet (h : bit (d.fn f).evStatus b = true ∨ bit (d.fn f).evEnable b = false) :
    (d.setEv f b).msgs = d.msgs ∧ ((d.setEv f b).fn f).pba = (d.fn f).pba := by
  rw [setEv_silent d f h, Dev.fn_setFn_same]
  exact ⟨rfl, rfl⟩

end

/-! The pending message of a vector. -/

/-- What MSIX_PENDING_SEND does (R136). -/
def Dev.pendingSent (d : Dev) (f v : Nat) : Dev :=
  if !bit (d.fn f).pba v || !d.canSend f v then d
  else
    let d1 := d.setFn f { d.fn f with pba := setBit (d.fn f).pba v false }
    if d.vectorActive f v then d1.sendVector f v else d1

theorem exec_msixPendingSend (f : Fin 64) (v : Fin 8) (s : State) : exec (.msixPendingSend f v) s = run (fun d => d.pendingSent f.val v.val) s := rfl

section
variable {d : Dev} {f v : Nat}

theorem pendingSent_idle (h : bit (d.fn f).pba v = false ∨ d.canSend f v = false) : d.pendingSent f v = d :=
  if_pos (by rcases h with h | h <;> simp [h])

theorem pendingSent_eq (pending : bit (d.fn f).pba v = true) (can : d.canSend f v = true) :
    d.pendingSent f v = { d.setFn f { d.fn f with pba := setBit (d.fn f).pba v false } with
      msgs := d.msgs ++ (if d.vectorActive f v then [{ fn := f, vec := v, entry := (d.fn f).msix v }] else []) } := by
  have still : (d.setFn f { d.fn f with pba := setBit (d.fn f).pba v false }).canSend f v = true := by
    rw [← can]
    unfold Dev.canSend
    rw [Dev.fn_setFn_same]
    rfl
  have sent := sendVector_sent _ f still
  rw [Dev.fn_setFn_same] at sent
  rw [Dev.pendingSent, if_neg (by simp [pending, can])]
  dsimp only
  split
  · exact sent
  · rw [List.append_nil]
    rfl

end

/-! The clear of EV_STATUS. -/

/-- Events that occur again. -/
def Dev.eventsAgain (d : Dev) (f : Nat) (again : BitVec 9) (l : List Nat) : Dev := l.foldl (fun d b => if bit again b then d.setEv f b else d) d

/-- What EV_STATUS_CLEAR does (R11, R136). -/
def Dev.statusCleared (d : Dev) (f : Nat) (v : BitVec 32) (again : BitVec 9) : Dev :=
  (d.setFn f { d.fn f with evStatus := (d.fn f).evStatus &&& ~~~(v.setWidth 9) }).eventsAgain f again (List.range 8)

theorem exec_evStatusClear (f : Fin 64) (v : BitVec 32) (again : BitVec 9) (s : State) :
    exec (.evStatusClear f v again) s = run (hosted (.evStatusClear f v again) f.val (fun d => d.statusCleared f.val v again)) s := rfl

/-- Of one function EV_STATUS and the PBA alone may have changed, and messages may have been sent. -/
def EventsOnly (f : Nat) (d e : Dev) : Prop :=
  { e.fn f with evStatus := (d.fn f).evStatus, pba := (d.fn f).pba } = d.fn f ∧ (∀ h, h ≠ f → e.fn h = d.fn h) ∧
    { e with fns := d.fns, msgs := d.msgs } = d

theorem EventsOnly.trans {f : Nat} {d e r : Dev} (h : EventsOnly f d e) (k : EventsOnly f e r) : EventsOnly f d r := by
  obtain ⟨own, others, frame⟩ := h
  obtain ⟨own', others', frame'⟩ := k
  exact ⟨(congrArg (fun x : Fn => { x with evStatus := (d.fn f).evStatus, pba := (d.fn f).pba }) own' :).trans own,
    fun h ne => (others' h ne).trans (others h ne), (congrArg (fun x : Dev => { x with fns := d.fns, msgs := d.msgs }) frame' :).trans frame⟩

theorem setEv_eventsOnly (d : Dev) (f b : Nat) : EventsOnly f d (d.setEv f b) :=
  ⟨setEv_fn d f b, fun _ ne => setEv_fn_other d f ne b, (setEv_signalled d f b).1⟩

section
variable (d : Dev) (f : Nat) (again : BitVec 9) (l : List Nat)

theorem eventsAgain_only : EventsOnly f d (d.eventsAgain f again l) := by
  refine List.foldlRecOn l _ (motive := EventsOnly f d) ⟨rfl, fun _ _ => rfl, rfl⟩ (fun e only b _ => ?_)
  split
  · exact only.trans (setEv_eventsOnly e f b)
  · exact only

/-- The bits of the events that occur again are set, and the others stay. -/
theorem eventsAgain_bit {b : Nat} (lt : b < 9) :
    bit ((d.eventsAgain f again l).fn f).evStatus b = (bit (d.fn f).evStatus b || (bit again b && decide (b ∈ l))) := by
  induction l generalizing d with
  | nil => simp [Dev.eventsAgain]
  | cons c r ih =>
    refine (ih _).trans ?_
    by_cases same : c = b
    · subst same
      cases event : bit again c
      · simp [event]
      · simp [event, setEv_status, bit_setBit _ _ _ _ lt]
    · have other : bit ((if bit again c then d.setEv f c else d).fn f).evStatus b = bit (d.fn f).evStatus b := by
        split
        · rw [setEv_status, bit_setBit _ _ _ _ lt, if_neg same]
        · rfl
      rw [other]
      simp [Ne.symm same]

theorem eventsAgain_zero : d.eventsAgain f 0 l = d := by
  refine List.foldlRecOn l _ (motive := fun e => e = d) rfl (fun e same b _ => ?_)
  exact (if_neg (by simp [bit])).trans same

theorem statusCleared_only (v : BitVec 32) : EventsOnly f d (d.statusCleared f v again) := by
  refine EventsOnly.trans ?_ (eventsAgain_only _ f again _)
  exact ⟨by rw [Dev.fn_setFn_same], fun h ne => by rw [Dev.fn_setFn, if_neg ne.symm], rfl⟩

theorem statusCleared_bit (v : BitVec 32) {b : Nat} (lt : b < 8) :
    bit ((d.statusCleared f v again).fn f).evStatus b = ((bit (d.fn f).evStatus b && !bit v b) || bit again b) := by
  have width : b < 9 := Nat.lt_succ_of_lt lt
  rw [Dev.statusCleared, eventsAgain_bit _ _ _ _ width, Dev.fn_setFn_same]
  simp [bit, width, lt]

end

/-! Faults of the aperture. -/

/-- The fault of an access of no ring, as FAULT_INFO and FAULT_ADDR have it (R133, R138). -/
theorem faultRec_apertureFault (d : Dev) (f cause source va : Nat) :
    ApertureFault (d.fn f) ((d.faultRec f cause source 0 va).fn f) source cause va := by
  refine ⟨?_, ?_, setEv_evStatus _ f (by decide)⟩
  · refine (congrArg Fn.faultInfo (setEv_fn _ f 5) :).trans ?_
    rw [Dev.fn_setFn_same]
    split <;> simp
  · refine (congrArg Fn.faultAddr (setEv_fn _ f 5) :).trans ?_
    rw [Dev.fn_setFn_same]
    split <;> rfl

/-- A fault of the aperture after its translation. -/
theorem apertureFault_fetched {d d1 : Dev} (h : Fetched d d1) (f cause va : Nat) {source : Nat} (aperture : source = srcBarRead ∨ source = srcBarWrite) :
    ApertureFault (d.fn f) ((d1.accessFault f cause source 0 va).fn f) source cause va := by
  have recorded : d1.accessFault f cause source 0 va = d1.faultRec f cause source 0 va := by
    refine if_neg ?_
    rcases aperture with rfl | rfl <;> simp [srcBarRead, srcBarWrite]
  have fault := faultRec_apertureFault d1 f cause source va
  have info : (d1.fn f).faultInfo = (d.fn f).faultInfo := (congrArg Fn.faultInfo (h.2 f) :)
  have addr : (d1.fn f).faultAddr = (d.fn f).faultAddr := (congrArg Fn.faultAddr (h.2 f) :)
  rw [ApertureFault, info, addr] at fault
  rw [recorded]
  exact fault

end Sys2Proof.Machine
end

section
/-! The aperture (R137 to R140), and the events and aperture accesses that are settled. -/

namespace Sys2Proof.Machine

/-! Reads. -/

/-- What BAR2_READ does. -/
def Dev.barRead (d : Dev) (f off len : Nat) : Dev :=
  if 2 ^ d.bar2Log2 f < off + len then { d with host := some .unsupported }
  else
    match d.readV f (d.aperture f off) len .read with
    | (d1, .ok b) => { d1 with host := some (.data b) }
    | (d1, .error (cause, va)) => { (d1.accessFault f cause srcBarRead 0 va) with host := some (.data (List.replicate len 0xFF)) }

/-- What BAR2_WRITE does. -/
def Dev.barWrite (d : Dev) (f off : Nat) (data : List (Option Byte)) : Dev :=
  if 2 ^ d.bar2Log2 f < off + data.length then d else d.bar2Store f (d.aperture f off) data

section
variable (f : Fin 64) (off len : Nat) (data : List (Option Byte)) (s : State)

theorem exec_bar2Read : exec (.bar2Read f off len) s = runAs (mpHost f.val) (hosted (.bar2Read f off len) f.val (fun d => d.barRead f.val off len)) s := rfl
theorem exec_bar2Write : exec (.bar2Write f off data) s = runAs (mpHost f.val) (hosted (.bar2Write f off data) f.val (fun d => d.barWrite f.val off data)) s := rfl

end

section
variable {d d1 : Dev} {f off len : Nat}

theorem barRead_past (past : 2 ^ d.bar2Log2 f < off + len) : d.barRead f off len = { d with host := some .unsupported } := if_pos past

theorem barRead_reads (within : off + len ≤ 2 ^ d.bar2Log2 f) {b : List Byte} (h : d.readV f (d.aperture f off) len .read = (d1, .ok b)) :
    d.barRead f off len = { d1 with host := some (.data b) } := by simp [Dev.barRead, Nat.not_lt.mpr within, h]

theorem barRead_faults (within : off + len ≤ 2 ^ d.bar2Log2 f) {cause a : Nat}
    (h : d.readV f (d.aperture f off) len .read = (d1, .error (cause, a))) :
    d.barRead f off len = { (d1.accessFault f cause srcBarRead 0 a) with host := some (.data (List.replicate len 0xFF)) } := by
  simp [Dev.barRead, Nat.not_lt.mpr within, h]

end

/-! Requests that arrive. -/

section
variable {i : Instr} {s : State} {f : Nat} {d e d1 : Dev} {h : Dev → Dev} {cause a : Nat}

/-- A request that arrives, served by a port of its own. -/
theorem becomes_arrived (x : exec i s = runAs (mpHost f) (hosted i f h) s) (k : Arrives s f d) (he : h d = e) (m : EndsAlike d e) : Becomes i s e :=
  becomes_runFrom x k.1 ((k.hosted_eq i h).trans he) (k.endsAlike.trans m)

theorem does_arrived (x : exec i s = runAs (mpHost f) (hosted i f h) s) (k : Arrives s f d) (he : h d = e) (m : EndsAlike d e) (w : e.writes = d.writes) :
    Does i s (Passed e) :=
  does_passed x k.1 ((k.hosted_eq i h).trans he) (k.endsAlike.trans m) (w.trans k.writes)

/-- A fault that an access leaves after its translation, and the device with it. -/
theorem fault_keeps (fetched : Fetched d d1) (source : Nat) :
    EndsAlike d (d1.accessFault f cause source 0 a) ∧ (d1.accessFault f cause source 0 a).writes = d.writes := by
  have only := fetched.ledgerOnly.trans (accessFault_signalled d1 f cause source 0 a).ledgerOnly
  exact ⟨only.endsAlike, only.writes⟩

end

/-! Writes. -/

section
variable {d d1 : Dev} {f va : Nat}

theorem enabledBytes_all (va : Nat) (bytes : List Byte) : (enabledBytes va (bytes.map some)).map (fun x => x.2) = bytes := by
  induction bytes generalizing va with
  | nil => rfl
  | cons b r ih => exact congrArg (b :: ·) (ih (va + 1))

theorem enabledBytes_none (va n : Nat) : enabledBytes va (List.replicate n none) = [] := by
  induction n generalizing va with
  | zero => rfl
  | succ n ih => exact ih (va + 1)

/-- One byte enabled between others that are not. -/
theorem enabledBytes_one (va n m : Nat) (b : Byte) :
    enabledBytes va (List.replicate n none ++ [some b] ++ List.replicate m none) = [((va + n) % 2 ^ 48, b)] := by
  induction n generalizing va with
  | zero => exact congrArg ((va % 2 ^ 48, b) :: ·) (enabledBytes_none (va + 1) m)
  | succ n ih =>
    have rest := ih (va + 1)
    rw [show va + (n + 1) = va + 1 + n by omega]
    exact rest

/-- A write that a host-ingress unit takes no part in. -/
theorem ingress_none {l : List (Nat × Byte)} {u : Nat} (off : d.cvuOn u = false ∨ d.cvuTap u ≠ 0x20 + f / 16) : Dev.ingress f l d u = d := by
  refine if_pos ?_
  rcases off with off | tap
  · simp [off]
  · simp [tap]

theorem ingresses_none {l : List (Nat × Byte)} (off : ∀ u, u < 32 → d.cvuOn u = false ∨ d.cvuTap u ≠ 0x20 + f / 16) :
    (List.range 32).foldl (Dev.ingress f l) d = d :=
  List.foldlRecOn (List.range 32) (Dev.ingress f l) (motive := fun e => e = d) rfl
    (fun e same u m => by rw [same]; exact ingress_none (off u (List.mem_range.mp m)))

/-- What the ingress units do is to their own state. -/
theorem ingresses_frame (l : List (Nat × Byte)) (d : Dev) : { (List.range 32).foldl (Dev.ingress f l) d with cvus := d.cvus } = d := by
  refine List.foldlRecOn (List.range 32) (Dev.ingress f l) (motive := fun e : Dev => { e with cvus := d.cvus } = d) rfl (fun e same u _ => ?_)
  refine Eq.trans ?_ same
  unfold Dev.ingress
  dsimp only
  split
  · rfl
  · split <;> rfl

theorem ingresses_endsAlike (l : List (Nat × Byte)) (d : Dev) : EndsAlike d ((List.range 32).foldl (Dev.ingress f l) d) :=
  have frame := ingresses_frame (f := f) l d
  ⟨(congrArg Dev.mem frame :), (congrArg Dev.update frame :), (congrArg Dev.safety frame :)⟩

theorem ingresses_writes (l : List (Nat × Byte)) (d : Dev) : ((List.range 32).foldl (Dev.ingress f l) d).writes = d.writes :=
  (congrArg Dev.writes (ingresses_frame (f := f) l d) :)

/-- A whole write is stored as any other (R137). -/
theorem bar2Store_whole {bytes : List Byte} (low : va < 2 ^ 48) (off : ∀ u, u < 32 → d.cvuOn u = false ∨ d.cvuTap u ≠ 0x20 + f / 16)
    (h : d.writeV f va bytes = (d1, .ok ())) : d.bar2Store f va (bytes.map some) = d1 := by
  have stored := writeV_stored h
  have still : ∀ u, u < 32 → d1.cvuOn u = false ∨ d1.cvuTap u ≠ 0x20 + f / 16 := by
    intro u lt
    rw [show d1.cvuOn u = d.cvuOn u from (congrArg (fun x : Dev => x.cvuOn u) stored :),
      show d1.cvuTap u = d.cvuTap u from (congrArg (fun x : Dev => x.cvuTap u) stored :)]
    exact off u lt
  have whole : (bytes.map some).all (fun x => x.isSome) = true := by simp
  simp only [Dev.writeV, Dev.writeVia] at h
  simp only [Dev.bar2Store, whole, if_true, Nat.mod_eq_of_lt low, List.length_map, enabledBytes_all]
  split at h
  · cases h
  · rename_i t translated
    rw [translated]
    split at h
    · cases h
    · rename_i clear
      cases h
      simp only [clear]
      exact ingresses_none still

/-- What a write translates: its pieces when every byte is enabled, else each enabled byte on its own (R140). -/
def writePieces (va : Nat) (data : List (Option Byte)) : List (Nat × Nat) :=
  if data.all (fun x => x.isSome) then pieces va data.length else (enabledBytes va data).map (fun x => (x.1, 1))

/-- The trouble of a write through the aperture: in its translation, or in a fenced group. -/
def WriteTrouble (d d1 : Dev) (f : Nat) (l : List (Nat × Nat)) (cause a : Nat) : Prop :=
  d.translateAll f .write l = (d1, .error (cause, a)) ∨
    (∃ t x, d.translateAll f .write l = (d1, .ok t) ∧ t.find? (fun x => d1.dataCause x.2.1 x.2.2 = 0xE) = some x ∧ cause = 0xE ∧ a = x.1)

theorem WriteTrouble.fetched {l : List (Nat × Nat)} {cause a : Nat} (h : WriteTrouble d d1 f l cause a) : Fetched d d1 := by
  have fetched := translateAll_fetched l d f .write
  rcases h with h | ⟨t, x, h, -⟩ <;> rwa [h] at fetched

/-- A write in trouble stores no byte (R138). -/
theorem bar2Store_faults {data : List (Option Byte)} {cause a : Nat} (low : va < 2 ^ 48) (h : WriteTrouble d d1 f (writePieces va data) cause a) :
    d.bar2Store f va data = d1.accessFault f cause srcBarWrite 0 a := by
  unfold WriteTrouble writePieces at h
  unfold Dev.bar2Store
  dsimp only
  rw [Nat.mod_eq_of_lt low]
  rcases h with h | ⟨t, x, h, found, rfl, rfl⟩
  · rw [h]
  · rw [h]
    dsimp only
    rw [found]

theorem Watched.writes {d e : Dev} (h : Watched d e) : e.writes = d.writes := (congrArg Dev.writes h.1 :)

/-- A byte stored at a device-physical address. -/
def Dev.withByte (d : Dev) (pa : Nat) (b : Byte) : Dev := { d with writes := (pa, b) :: d.writes }

theorem translateAll_one {acc : Acc} {a pa : Nat} (h : d.translate f a acc = (d1, .ok pa)) : d.translateAll f acc [(a, 1)] = (d1, .ok [(a, pa, 1)]) := by
  simp only [Dev.translateAll, h]

section
variable {n m a pa : Nat} {b : Byte} (more : 0 < n ∨ 0 < m) (off : (d.fn f).dirtyEnable = false) (at_ : (va + n) % 2 ^ 48 = a)
  (h : d.translate f a .write = (d1, .ok pa)) (kept : d1.dataCause pa 1 ≠ 0xE)
include more off at_ h kept

/-- A write of one byte among others that are not enabled: the byte, the scan watch and the ingress units. -/
theorem bar2Store_one : d.bar2Store f va (List.replicate n none ++ [some b] ++ List.replicate m none) =
    (List.range 32).foldl (Dev.ingress f [(a, b)]) ((d1.withByte pa b).scanWatch f (a / 4096 * 4096)) := by
  have part : (List.replicate n none ++ [some b] ++ List.replicate m none).all (fun x => x.isSome) = false := by
    rcases more with more | more <;> simp [Nat.ne_of_gt more]
  have fetched : Fetched d d1 := by
    have fetched := translate_fetched d f a .write
    rwa [h] at fetched
  have unlogged : ((d1.withByte pa b).fn f).dirtyEnable = false := (congrArg Fn.dirtyEnable (fetched.2 f) :).trans off
  have page : dedup [a / 4096] = [a / 4096] := rfl
  have clear : [(a, pa, 1)].find? (fun x => d1.dataCause x.2.1 x.2.2 = 0xE) = none := by simp [kept]
  simp only [Dev.bar2Store, part, enabledBytes_one, at_, Bool.false_eq_true, if_false, List.map_cons, List.map_nil, translateAll_one h, clear, page,
    List.foldl_cons, List.foldl_nil]
  refine congrArg (List.foldl (Dev.ingress f [(a, b)]) · (List.range 32)) ?_
  exact congrArg (fun x : Dev => x.scanWatch f (a / 4096 * 4096)) (Dev.dirtyLog_off (d := d1.withByte pa b) unlogged _)

/-- It stores that byte and no other. -/
theorem bar2Store_one_stores : EndsAlike d (d.bar2Store f va (List.replicate n none ++ [some b] ++ List.replicate m none)) ∧
    (d.bar2Store f va (List.replicate n none ++ [some b] ++ List.replicate m none)).writes = (pa, b) :: d.writes := by
  have fetched : Fetched d d1 := by
    have fetched := translate_fetched d f a .write
    rwa [h] at fetched
  have byte : EndsAlike d1 (d1.withByte pa b) := .refl d1
  have watched := scanWatch_watched (d1.withByte pa b) f (a / 4096 * 4096)
  have stored : (d1.withByte pa b).writes = (pa, b) :: d1.writes := rfl
  rw [bar2Store_one more off at_ h kept, ingresses_writes, watched.writes, stored, fetched.ledgerOnly.writes]
  exact ⟨((fetched.endsAlike.trans byte).trans watched.stored.endsAlike).trans (ingresses_endsAlike _ _), rfl⟩

end

end

/-! Accesses that are settled. -/

theorem aperture_lt (d : Dev) (f off : Nat) : d.aperture f off < 2 ^ 48 := Nat.mod_lt _ (by decide)

theorem barWrite_within {d : Dev} {f off : Nat} {data : List (Option Byte)} (within : off + data.length ≤ 2 ^ d.bar2Log2 f) :
    d.barWrite f off data = d.bar2Store f (d.aperture f off) data := if_neg (Nat.not_lt.mpr within)

section
variable {s : State} {f : Fin 64} {off : Nat} {d d1 : Dev} (k : Arrives s f.val d)
include k

/-- A read that faults returns all ones and records the fault with source 3 (R138). -/
theorem bar2Read_faults {len cause a : Nat} (within : off + len ≤ 2 ^ d.bar2Log2 f.val)
    (h : d.readV f.val (d.aperture f.val off) len .read = (d1, .error (cause, a))) :
    Does (.bar2Read f off len) s (fun e =>
      e.host = some (.data (List.replicate len 0xFF)) ∧ ApertureFault (d.fn f.val) (e.fn f.val) 3 cause a ∧ e.mem = s.dev.mem) := by
  have fetched := readV_reads h
  obtain ⟨alike, writes⟩ := fault_keeps (f := f.val) (cause := cause) (a := a) fetched srcBarRead
  refine (does_arrived (exec_bar2Read f off len s) k (barRead_faults within h) (alike.trans (.refl _)) writes).imp (fun e passed => ⟨?_, ?_, ?_⟩)
  · exact (congrArg Dev.host passed :)
  · rw [passed.fn]
    exact apertureFault_fetched fetched f.val cause a (.inl rfl)
  · exact (congrArg Dev.mem passed :).trans (alike.1.trans k.endsAlike.1)

/-- A write that faults stores no byte and records the fault with source 4 (R138). -/
theorem bar2Write_faults {data : List (Option Byte)} {cause a : Nat} (within : off + data.length ≤ 2 ^ d.bar2Log2 f.val)
    (h : WriteTrouble d d1 f.val (writePieces (d.aperture f.val off) data) cause a) :
    Does (.bar2Write f off data) s (fun e => ApertureFault (d.fn f.val) (e.fn f.val) 4 cause a ∧ e.mem = s.dev.mem) := by
  have fetched := h.fetched
  obtain ⟨alike, writes⟩ := fault_keeps (f := f.val) (cause := cause) (a := a) fetched srcBarWrite
  have fault := (barWrite_within within).trans (bar2Store_faults (aperture_lt d f.val off) h)
  refine (does_arrived (exec_bar2Write f off data s) k fault alike writes).imp (fun e passed => ⟨?_, ?_⟩)
  · rw [passed.fn]
    exact apertureFault_fetched fetched f.val cause a (.inr rfl)
  · exact (congrArg Dev.mem passed :).trans (alike.1.trans k.endsAlike.1)

/-- A write that enables one byte among others stores that byte and no other (R140). -/
theorem bar2Write_one {n m pa : Nat} {b : Byte} (unlogged : (d.fn f.val).dirtyEnable = false) (more : 0 < n ∨ 0 < m)
    (within : off + (n + 1 + m) ≤ 2 ^ d.bar2Log2 f.val) (h : d.translate f.val ((d.aperture f.val off + n) % 2 ^ 48) .write = (d1, .ok pa))
    (kept : d1.dataCause pa 1 ≠ 0xE) :
    Does (.bar2Write f off (List.replicate n none ++ [some b] ++ List.replicate m none)) s (fun e =>
      cellGet e.mem pa = b ∧ ∀ x, x ≠ pa → cellGet e.mem x = cellGet s.dev.mem x) := by
  obtain ⟨alike, writes⟩ := bar2Store_one_stores (b := b) more unlogged rfl h kept
  have stores := barWrite_within (d := d) (f := f.val) (off := off) (data := List.replicate n none ++ [some b] ++ List.replicate m none)
    (by
      simp only [List.length_append, List.length_replicate, List.length_singleton]
      exact within)
  refine (becomes_arrived (exec_bar2Write f off _ s) k stores alike).imp (fun e ⟨_, bytes, _⟩ => ?_)
  have byte (x : Nat) : cellGet e.mem x = if pa = x then b else cellGet s.dev.mem x := by
    rw [bytes x, Dev.peekByte_eq, writes, k.owesNothing.1.1, alike.1, k.endsAlike.1]
    by_cases same : pa = x <;> simp [same]
  exact ⟨(byte pa).trans (if_pos rfl), fun x ne => (byte x).trans (if_neg ne.symm)⟩

end

/-- Settles O30: the event registers by the cases of an event, the aperture by those of its translation. -/
theorem eventsMessagesAndAperture : Obligations.EventsMessagesAndAperture := by
  refine ⟨fun d f b _ => ?_, fun s f v k pending can => ?_, fun s f v k idle => ?_, fun s f v again d k => ?_, fun s f off len va d k at_ => ?_,
    fun s f off va bytes d k at_ units => ?_, fun s f off va data d d1 cause a k at_ within trouble => ?_,
    fun s f off n m va pa b d d1 k unlogged at_ more within h kept => ?_⟩
  · obtain ⟨-, others, frame⟩ := setEv_eventsOnly d f b
    exact ⟨setEv_status d f b, others, frame, setEv_sends d f b, setEv_pends d f b, setEv_quiet d f b⟩
  · refine (does_passed (exec_msixPendingSend f v s) k (pendingSent_eq pending can) (.refl _) rfl).imp (fun e passed => ⟨?_, fun h ne => ?_, ?_, ?_⟩)
    · exact (passed.fn f.val).trans (Dev.fn_setFn_same s.dev f.val _)
    · exact (passed.fn h).trans ((Dev.fn_setFn s.dev f.val h _).trans (if_neg ne.symm))
    · exact (congrArg Dev.msgs passed :)
    · exact (congrArg (fun x : Dev => { x with fns := s.dev.fns, msgs := s.dev.msgs }) passed :)
  · exact becomes_run_same (exec_msixPendingSend f v s) k (pendingSent_idle idle)
  · obtain ⟨own, others, frame⟩ := statusCleared_only d f.val again v
    have alike : EndsAlike d (d.statusCleared f.val v again) := ⟨(congrArg Dev.mem frame :), (congrArg Dev.update frame :), (congrArg Dev.safety frame :)⟩
    refine (does_passed (exec_evStatusClear f v again s) k.1 (k.hosted_eq _ _) (k.endsAlike.trans alike)
      ((congrArg Dev.writes frame :).trans k.writes)).imp (fun e passed => ⟨fun b lt => ?_, ?_, fun h ne => ?_, ?_, fun none => ?_⟩)
    · rw [passed.fn]
      exact statusCleared_bit d f.val again v lt
    · rw [passed.fn]
      exact own
    · exact (passed.fn h).trans (others h ne)
    · exact (congrArg (fun x : Dev => { x with fns := d.fns, msgs := d.msgs, bus := d.bus }) passed :).trans
        (congrArg (fun x : Dev => { x with bus := d.bus }) frame :)
    · refine (congrArg Dev.msgs passed :).trans ?_
      rw [none, Dev.statusCleared, eventsAgain_zero]
      rfl
  · obtain rfl : va = d.aperture f.val off := at_
    refine ⟨fun past => ?_, fun within d1 b h => ?_, fun within d1 cause a h => bar2Read_faults k within h⟩
    · exact becomes_arrived (exec_bar2Read f off len s) k (barRead_past past) (.refl _)
    · exact becomes_arrived (exec_bar2Read f off len s) k (barRead_reads within h) ((readV_reads h).endsAlike.trans (.refl _))
  · obtain rfl : va = d.aperture f.val off := at_
    refine ⟨fun past => ?_, fun within d1 h => ?_⟩
    · exact becomes_arrived (exec_bar2Write f off _ s) k (if_pos (by simpa using past)) (.refl d)
    · have stores := barWrite_within (d := d) (f := f.val) (off := off) (data := bytes.map some) (by simpa using within)
      exact becomes_arrived (exec_bar2Write f off _ s) k (stores.trans (bar2Store_whole (aperture_lt d f.val off) units h)) (writeV_stored h).endsAlike
  · obtain rfl : va = d.aperture f.val off := at_
    exact bar2Write_faults k within (trouble _ rfl)
  · obtain rfl : va = (d.aperture f.val off + n) % 2 ^ 48 := at_
    exact bar2Write_one k unlogged more within h kept

end Sys2Proof.Machine
end

section
/-! What the composition of a tile changes beside its own pipe (R208, R229 to R239, R244). -/

namespace Sys2Proof.Machine

/-! Texture caches and stores. -/

/-- What the work on a tile may change: stores and what they log, events, translations, texture caches, and the live words of composition.
The pipes, the passes and the cores but for their caches are as they were. -/
structure Drawn (d e : Dev) : Prop where
  frame : { e with
    writes := d.writes, poison := d.poison, comp := d.comp, raster := d.raster, fns := d.fns, msgs := d.msgs, free := d.free, bus := d.bus } = d
  pcs : ∀ q, e.pc q = d.pc q
  passes : e.raster.passes = d.raster.passes
  cores : ∀ n, { e.coreOf n with tex := [] } = { d.coreOf n with tex := [] }

namespace Drawn

theorem trans {d e r : Dev} (h : Drawn d e) (k : Drawn e r) : Drawn d r where
  frame := (congrArg (fun x : Dev => { x with
    writes := d.writes, poison := d.poison, comp := d.comp, raster := d.raster, fns := d.fns, msgs := d.msgs, free := d.free, bus := d.bus })
    k.frame :).trans h.frame
  pcs q := (k.pcs q).trans (h.pcs q)
  passes := k.passes.trans h.passes
  cores n := (k.cores n).trans (h.cores n)

/-- A change of stores, events and translations. -/
theorem of_frame {d e : Dev}
    (h : { e with writes := d.writes, poison := d.poison, fns := d.fns, msgs := d.msgs, free := d.free, bus := d.bus } = d) : Drawn d e where
  frame := (congrArg (fun x : Dev => { x with comp := d.comp, raster := d.raster }) h :)
  pcs q := (congrArg (fun x : Dev => x.pc q) h :)
  passes := (congrArg (fun x : Dev => x.raster.passes) h :)
  cores n := (congrArg (fun x : Dev => ({ x.coreOf n with tex := [] } : Core)) h :)

theorem refl (d : Dev) : Drawn d d := of_frame rfl

theorem endsAlike {d e : Dev} (h : Drawn d e) : EndsAlike d e :=
  ⟨(congrArg Dev.mem h.frame :), (congrArg Dev.update h.frame :), (congrArg Dev.safety h.frame :)⟩

end Drawn

/-- The same of work that stores nothing. -/
def Sampled (d e : Dev) : Prop := Drawn d e ∧ e.writes = d.writes

theorem Sampled.refl (d : Dev) : Sampled d d := ⟨.refl d, rfl⟩

theorem Sampled.trans {d e r : Dev} (h : Sampled d e) (k : Sampled e r) : Sampled d r := ⟨h.1.trans k.1, k.2.trans h.2⟩

theorem Fetched.sampled {d e : Dev} (h : Fetched d e) : Sampled d e :=
  ⟨.of_frame (congrArg (fun x : Dev => { x with writes := d.writes, poison := d.poison, msgs := d.msgs }) h.1 :), (congrArg Dev.writes h.1 :)⟩

theorem Signalled.sampled {d e : Dev} (h : Signalled d e) : Sampled d e :=
  ⟨.of_frame (congrArg (fun x : Dev => { x with writes := d.writes, poison := d.poison, free := d.free, bus := d.bus }) h.1 :),
    (congrArg Dev.writes h.1 :)⟩

/-! Values read in order. -/

section
variable {R : Dev → Dev → Prop}

/-- A value read, or a fault, after a change that R admits. -/
def Got.Along {α : Type} (R : Dev → Dev → Prop) (d : Dev) (x : Got α) : Prop := R d x.1

theorem Got.Along.bind {α β : Type} (trans : ∀ d e r, R d e → R e r → R d r) {d : Dev} {x : Got α} {h : Dev → α → Got β} (a : Along R d x)
    (b : ∀ e v, Along R e (h e v)) : Along R d (Got.bind x h) := by
  obtain ⟨e, r⟩ := x
  cases r with
  | error c => exact a
  | ok v => exact trans _ _ _ a (b e v)

theorem Got.Along.mapGot {α β : Type} (refl : ∀ d, R d d) (trans : ∀ d e r, R d e → R e r → R d r) {h : Dev → α → Got β}
    (b : ∀ e v, Along R e (h e v)) (l : List α) (d : Dev) : Along R d (Machine.mapGot h d l) := by
  induction l generalizing d with
  | nil => exact refl d
  | cons x r ih => exact (b d x).bind trans (fun e y => (ih e).bind trans (fun e t => show R e e from refl e))

end

section
variable {α β : Type} {d : Dev}

theorem Sampled.bind {x : Got α} {h : Dev → α → Got β} (a : Got.Along Sampled d x) (b : ∀ e v, Got.Along Sampled e (h e v)) :
    Got.Along Sampled d (Got.bind x h) := Got.Along.bind (R := Sampled) (fun _ _ _ h k => h.trans k) a b

theorem Sampled.mapGot {h : Dev → α → Got β} (b : ∀ e v, Got.Along Sampled e (h e v)) (l : List α) (d : Dev) :
    Got.Along Sampled d (Machine.mapGot h d l) := Got.Along.mapGot Sampled.refl (fun _ _ _ => Sampled.trans) b l d

theorem Sampled.got (d : Dev) (v : Except (Nat × Nat) α) : Got.Along Sampled d (d, v) := .refl d

theorem Drawn.got (d : Dev) (v : Except (Nat × Nat) α) : Got.Along Drawn d (d, v) := .refl d

theorem Drawn.bind {x : Got α} {h : Dev → α → Got β} (a : Got.Along Drawn d x) (b : ∀ e v, Got.Along Drawn e (h e v)) :
    Got.Along Drawn d (Got.bind x h) := Got.Along.bind (R := Drawn) (fun _ _ _ h k => h.trans k) a b

theorem Drawn.mapGot {h : Dev → α → Got β} (b : ∀ e v, Got.Along Drawn e (h e v)) (l : List α) (d : Dev) :
    Got.Along Drawn d (Machine.mapGot h d l) := Got.Along.mapGot Drawn.refl (fun _ _ _ => Drawn.trans) b l d

end

/-! Texels. -/

section
variable (d : Dev) (f : Nat)

theorem texLine_sampled (core line : Nat) : Sampled d (d.texLine core line).1 := by
  unfold Dev.texLine
  dsimp only
  split
  · exact .refl d
  · split
    · exact .refl d
    · refine ⟨⟨rfl, fun _ => rfl, rfl, fun n => ?_⟩, rfl⟩
      rw [Dev.coreOf_setCore]
      split
      · rename_i same
        rw [same]
      · rfl

theorem texPiece_sampled (core : Nat) (x : Nat × Nat × Nat) : Got.Along Sampled d (d.texPiece core x) := by
  obtain ⟨va, pa, n⟩ := x
  unfold Dev.texPiece
  dsimp only
  split
  · refine Sampled.bind (Sampled.mapGot (fun e y => ?_) _ d) (fun e _ => .got e _)
    have line := texLine_sampled e core y.1
    rcases r : e.texLine core y.1 with ⟨d1, v⟩
    rw [r] at line
    cases v <;> exact line
  · split <;> exact .got d _

theorem texRead_sampled (va n : Nat) : Got.Along Sampled d (d.texRead f va n) := by
  unfold Dev.texRead
  split
  · exact (readV_fetched d f va n .read).sampled
  · have walk := (translateAll_fetched (pieces va n) d f .read).sampled
    split
    · rename_i e
      rw [e] at walk
      exact walk
    · rename_i d1 t e
      rw [e] at walk
      exact walk.trans (Sampled.bind (Sampled.mapGot (fun e x => texPiece_sampled e _ x) t d1) (fun e _ => .got e _))

theorem readNat_sampled (va n : Nat) : Got.Along Sampled d (d.readNat f va n) := Sampled.bind (texRead_sampled d f _ n) (fun e _ => .got e _)

theorem readTile2_sampled (s : Surf) (smp tx ty base : Nat) (clear : W72 → Nat) : Got.Along Sampled d (d.readTile2 f s smp tx ty base clear) := by
  have cleared (e : Dev) : Got.Along Sampled e (Got.bind (e.readNat f s.aux 9) (fun d x => (d, .ok (List.replicate 1024 (clear (BitVec.ofNat 72 x)))))) :=
    Sampled.bind (readNat_sampled e f _ 9) (fun e _ => .got e _)
  unfold Dev.readTile2
  refine Sampled.bind (readNat_sampled d f _ 1) (fun e m => ?_)
  split
  · exact cleared e
  · split
    · exact Sampled.bind (texRead_sampled e f _ _) (fun e _ => .got e _)
    · split
      · exact Sampled.bind (texRead_sampled e f _ _) (fun e _ => .got e _)
      · exact (setEv_signalled e f 5).sampled.trans (cleared _)

theorem chroma_sampled (s : Surf) (layer lv i j : Nat) : Got.Along Sampled d (d.chroma f s layer lv i j) :=
  Sampled.bind (readNat_sampled d f _ _) (fun e _ => .got e _)

theorem yccTexel_sampled (s : Surf) (t : TexCtx) (layer lv x y : Nat) : Got.Along Sampled d (d.yccTexel f s t layer lv x y) := by
  unfold Dev.yccTexel
  dsimp only
  refine Sampled.bind (readNat_sampled d f _ _) (fun e _ => Sampled.bind (Sampled.mapGot (fun e p => ?_) _ e) (fun e _ => .got e _))
  exact chroma_sampled e f s layer lv _ _

theorem texel_sampled (s : Surf) (t : TexCtx) (layer lv x y : Nat) : Got.Along Sampled d (d.texel f s t layer lv x y) := by
  unfold Dev.texel
  dsimp only
  split
  · exact yccTexel_sampled d f s t layer lv x y
  · split
    · exact Sampled.bind (texRead_sampled d f _ _) (fun e _ => .got e _)
    · split
      · exact Sampled.bind (readNat_sampled d f _ _) (fun e _ => .got e _)
      · split
        · exact Sampled.bind (readTile2_sampled d f s _ _ _ _ _) (fun e _ => .got e _)
        · refine Sampled.bind (readNat_sampled d f _ _) (fun e v => ?_)
          split
          · exact Sampled.bind (readNat_sampled e f _ _) (fun e _ => .got e _)
          · exact .got e _

/-! Slots, tone map and LUT. -/

theorem slotSample_sampled (surf : Surf) (c : Composition) (s x y : Nat) : Got.Along Sampled d (d.slotSample f surf c s x y) := by
  unfold Dev.slotSample
  dsimp only
  refine Sampled.bind ?_ (fun e _ => .got e _)
  split
  · exact Sampled.bind (Sampled.mapGot (fun e q => Sampled.bind (texel_sampled e f surf _ 0 0 _ _) (fun e _ => .got e _)) _ d) (fun e _ => .got e _)
  · exact texel_sampled d f surf _ 0 0 _ _

theorem slotTile_sampled (c : Composition) (s : Nat) (pixels : List (Nat × Nat)) (cs : List W72) : Sampled d (d.slotTile c s pixels cs).1 := by
  unfold Dev.slotTile
  dsimp only
  split
  · exact .refl d
  · have samples {h : Dev → Nat × Nat → Got (Option W72)} (each : ∀ e q, Got.Along Sampled e (h e q)) {x : Got (List (Option W72))}
        (r : mapGot h d pixels = x) : Sampled d x.1 := r ▸ Sampled.mapGot each pixels d
    have slot (e : Dev) (surf : Surf) (fn : Nat) (q : Nat × Nat) : Got.Along Sampled e (if inRect (c.w 0x03 s 3) q.1 q.2 then
        Got.bind (e.slotSample fn surf c s q.1 q.2) (fun d p => (d, .ok (some p))) else (e, .ok none)) := by
      split
      · exact Sampled.bind (slotSample_sampled e fn surf c s _ _) (fun e _ => .got e _)
      · exact .got e _
    split
    · rename_i d1 cause va e
      have live (v : W72) : Sampled d1 (d1.setLive 0x03 s 23 v) := ⟨⟨rfl, fun _ => rfl, rfl, fun _ => rfl⟩, rfl⟩
      exact ((samples (fun e q => slot e _ _ q) e).trans (live _)).trans (accessFault_signalled _ _ _ _ _ _).sampled
    · rename_i e
      exact samples (fun e q => slot e _ _ q) e

theorem lutPx_sampled (s : Surf) (scale : Nat) (p : W72) : Sampled d (d.lutPx f s scale p).1 := by
  unfold Dev.lutPx
  dsimp only
  refine List.foldlRecOn (List.range 8) _ (motive := fun acc : Dev × List (W72 × Nat) => Sampled d acc.1) (.refl d) (fun acc sampled i _ => ?_)
  have point {x y : Nat} {r : Got W72} (e : acc.1.texel f s texCtx 0 0 x y = r) : Sampled acc.1 r.1 := e ▸ texel_sampled acc.1 f s texCtx 0 0 x y
  split
  · rename_i e
    exact sampled.trans (point e)
  · rename_i e
    exact sampled.trans (point e)

end

end Sys2Proof.Machine
end

section
/-! A tile composed and stored, and what it changes (R235, R238, R239, R244). -/

namespace Sys2Proof.Machine

theorem composeTile_sampled (d : Dev) (p : Nat) (c : Composition) (pixels : List (Nat × Nat)) : Sampled d (d.composeTile p c pixels).1 := by
  unfold Dev.composeTile
  have slots := List.foldlRecOn ((List.range 16).map (fun k => 16 * p + fld (c.w 0x02 p 2) (4 * k) 4))
    (fun (acc : Dev × List W72) s => acc.1.slotTile c s pixels acc.2) (b := (d, pixels.map (fun _ => c.w 0x02 p 3)))
    (motive := fun acc : Dev × List W72 => Sampled d acc.1) (.refl d) (fun acc sampled s _ => sampled.trans (slotTile_sampled acc.1 c s pixels acc.2))
  dsimp only
  split
  · refine List.foldlRecOn _ _ (motive := fun acc : Dev × List W72 => Sampled d acc.1) slots (fun acc sampled q _ => ?_)
    exact sampled.trans (lutPx_sampled acc.1 _ _ _ q)
  · exact slots

/-! Stores of the compositor, which nothing watches (R261). -/

section
variable (d : Dev) (f va : Nat)

theorem dirtyLog_drawn : Drawn d (d.dirtyLog f va) := by
  unfold Dev.dirtyLog
  dsimp only
  split
  · exact .refl d
  · split
    · exact .of_frame rfl
    · generalize (if (d.fn f).dirtyActive then (d.fn f).dirtyBaseB else (d.fn f).dirtyBaseA).toNat + _ = a
      split
      · exact .refl d
      · exact .of_frame rfl

theorem storePieces_drawn (l : List (Nat × Nat × Nat)) (bytes : List Byte) (d : Dev) : Drawn d (d.storePieces f false l bytes) := by
  induction l generalizing d bytes with
  | nil => exact .refl d
  | cons p r ih =>
    obtain ⟨va, pa, n⟩ := p
    have poke : Drawn d (d.poke pa (bytes.take n)) := .of_frame rfl
    exact (poke.trans (dirtyLog_drawn _ f va)).trans (ih _ _)

theorem put_drawn (bytes : List Byte) : Got.Along Drawn d (d.put f false va bytes) := by
  have fetched := (translateAll_fetched (pieces (va % 2 ^ 48) bytes.length) d f .write).sampled.1
  unfold Dev.put Dev.writeVia
  split
  · rename_i e
    rw [e] at fetched
    exact fetched
  · rename_i t e
    rw [e] at fetched
    split
    · exact fetched
    · exact fetched.trans (storePieces_drawn f t bytes _)

theorem loadPlane_sampled (a : Att) (width height smp tx ty : Nat) (key : List Nat) : Got.Along Sampled d (d.loadPlane f a width height smp tx ty key) := by
  unfold Dev.loadPlane
  dsimp only
  split
  · exact .got d _
  · split
    · exact Sampled.bind (readTile2_sampled d f _ smp tx ty _ _) (fun e _ => .got e _)
    · refine Sampled.mapGot (fun e i => ?_) _ d
      split
      · exact Sampled.bind (readNat_sampled e f _ _) (fun e _ => .got e _)
      · exact .got e _
  · exact .got d _

theorem storePlane_drawn (a : Att) (width height smp tx ty : Nat) (words : List W72) :
    Got.Along Drawn d (d.storePlane f false a width height smp tx ty words) := by
  unfold Dev.storePlane
  dsimp only
  split
  · refine Drawn.bind (readNat_sampled d f _ 9).1 (fun e c => ?_)
    split
    · exact put_drawn e f _ _
    · split
      · exact Drawn.bind (put_drawn e f _ _) (fun e _ => put_drawn e f _ _)
      · exact Drawn.bind (put_drawn e f _ _) (fun e _ => put_drawn e f _ _)
  · refine Drawn.bind (Drawn.mapGot (fun e i => ?_) _ d) (fun e _ => .got e _)
    split
    · exact put_drawn e f _ _
    · exact .got e _

/-- A frame buffer's tile stored, or its fault reported (R244). -/
theorem storeFrameTile_drawn (c : Composition) (t : Nat) (pixels : List (Nat × Nat)) (words : List W72) : Drawn d (d.storeFrameTile c t pixels words) := by
  have reported (f : Nat) (x : Got Unit) : Got.Along Drawn d x →
      Drawn d (match x with | (d1, .ok _) => d1 | (d1, .error (cause, va)) => d1.accessFault f cause srcEngine 1 va) := by
    intro h
    obtain ⟨d1, ⟨cause, va⟩ | v⟩ := x
    · exact h.trans (accessFault_signalled d1 _ _ _ _ _).sampled.1
    · exact h
  unfold Dev.storeFrameTile
  refine reported _ _ ?_
  dsimp only
  split
  · exact Drawn.bind (loadPlane_sampled d _ _ _ _ _ _ _ _).1 (fun e _ => storePlane_drawn e _ _ _ _ _ _ _ _)
  · exact Drawn.bind (Drawn.mapGot (fun e z => put_drawn e _ _ _) _ d) (fun e _ => .got e _)

end

end Sys2Proof.Machine
end

section
/-! Compositor tiles dispatched to cores (R155, R193, R194, R200, R244, R246). -/

namespace Sys2Proof.Machine

/-! The pipe of a tile. -/

/-- Composition state has changed, and of the pipes that of pipe p alone. -/
def PipeOnly (p : Nat) (d e : Dev) : Prop := { e with comp := d.comp } = d ∧ ∀ q, q ≠ p → e.pc q = d.pc q

theorem PipeOnly.refl (p : Nat) (d : Dev) : PipeOnly p d d := ⟨rfl, fun _ _ => rfl⟩

theorem PipeOnly.trans {p : Nat} {d e r : Dev} (h : PipeOnly p d e) (k : PipeOnly p e r) : PipeOnly p d r :=
  ⟨(congrArg (fun x : Dev => { x with comp := d.comp }) k.1 :).trans h.1, fun q ne => (k.2 q ne).trans (h.2 q ne)⟩

theorem PipeOnly.endsAlike {p : Nat} {d e : Dev} (h : PipeOnly p d e) : EndsAlike d e :=
  ⟨(congrArg Dev.mem h.1 :), (congrArg Dev.update h.1 :), (congrArg Dev.safety h.1 :)⟩

section
variable (d : Dev) (p : Nat)

theorem Dev.pc_setPc_same (x : PipeComp) : (d.setPc p x).pc p = x := by rw [Dev.pc_setPc, if_pos rfl]

theorem setPc_only (x : PipeComp) : PipeOnly p d (d.setPc p x) := ⟨rfl, fun q ne => by rw [Dev.pc_setPc, if_neg ne.symm]⟩

theorem setComposed_only (n : Nat) : PipeOnly p d (d.setComposed p n) := ⟨rfl, fun _ _ => rfl⟩

/-- A block drawn changes nothing of a pipe beside it (R200). -/
theorem drawBlock_pipe : PipeOnly p d (d.drawBlock p) ∧ { (d.drawBlock p).pc p with block := (d.pc p).block } = d.pc p := by
  unfold Dev.drawBlock
  split
  · exact ⟨.refl p d, rfl⟩
  · exact ⟨setPc_only d p _, by rw [Dev.pc_setPc_same]⟩

theorem releaseBlock_pipe : PipeOnly p d (d.releaseBlock p) ∧ { (d.releaseBlock p).pc p with block := (d.pc p).block } = d.pc p := by
  have either : d.releaseBlock p = d ∨ d.releaseBlock p = d.setPc p { d.pc p with block := none } := ite_eq_or_eq _ _ _
  rcases either with same | released
  · rw [same]
    exact ⟨.refl p d, rfl⟩
  · rw [released]
    exact ⟨setPc_only d p _, by rw [Dev.pc_setPc_same]⟩

end

/-! The core of a tile. -/

/-- A core that has given up what it held and takes work of the compositor, with the block that its pipe draws. -/
def Dev.granted (d : Dev) (p core : Nat) : Dev := ((d.yieldCore core).wakeCore core none).drawBlock p

section
variable (d : Dev) (p core : Nat)

theorem granted_frame : { d.granted p core with raster := d.raster, comp := d.comp } = d :=
  (congrArg (fun x : Dev => { x with raster := d.raster }) (drawBlock_pipe ((d.yieldCore core).wakeCore core none) p).1.1 :)

theorem granted_pc_other {q : Nat} (ne : q ≠ p) : (d.granted p core).pc q = d.pc q := (drawBlock_pipe ((d.yieldCore core).wakeCore core none) p).1.2 q ne

theorem granted_pc : { (d.granted p core).pc p with block := (d.pc p).block } = d.pc p := (drawBlock_pipe ((d.yieldCore core).wakeCore core none) p).2

theorem granted_raster : (d.granted p core).raster = ((d.yieldCore core).wakeCore core none).raster :=
  (congrArg Dev.raster (drawBlock_pipe ((d.yieldCore core).wakeCore core none) p).1.1 :)

/-- The core is awake from now on, and holds nothing. -/
theorem granted_core : ((d.granted p core).coreOf core).gated = false ∧ ((d.granted p core).coreOf core).idleFrom = d.now ∧
    (d.granted p core).coreBusy core = false := by
  have woken (x : Core) : ((d.yieldCore core).setCore core x).coreOf core = x := by rw [Dev.coreOf_setCore, if_pos rfl]
  have core_ : (d.granted p core).coreOf core = ((d.yieldCore core).wakeCore core none).coreOf core :=
    congrArg (fun r : Raster => tget r.cores core Core.atReset) (granted_raster d p core)
  have passes : (d.granted p core).raster.passes = (d.yieldCore core).raster.passes := (congrArg Raster.passes (granted_raster d p core) :)
  refine ⟨by rw [core_, Dev.wakeCore, woken], by rw [core_, Dev.wakeCore, woken]; rfl, ?_⟩
  rw [Dev.coreBusy, passes]
  simp [Dev.yieldCore, List.any_eq_false]

end

/-! A tile composed. -/

/-- A composition for a frame buffer with one more tile finished (R244). -/
def Composition.withTile (c : Composition) (p t now : Nat) (late : Bool) : Composition :=
  { c with
    tilesDone := c.tilesDone ++ [t], doneAt := if c.tileCount p false ≤ c.tilesDone.length + 1 then some now else none, late := c.late || late }

/-- Whether a composition is past its deadline (R244). -/
def Dev.tooLate (d : Dev) (p : Nat) (c : Composition) : Bool := match d.composeDue p c with | some t => decide (t < d.now) | none => false

section
variable (d : Dev) (p t : Nat) (c : Composition)

/-- A tile of a frame buffer: composed and stored, and then counted in its pipe. -/
theorem composeFrame_counts : ∃ e, Drawn d e ∧ PipeOnly p e (d.composeFrame p t c) ∧
    ((d.composeFrame p t c).pc p).current = some (c.withTile p t d.now (d.tooLate p c)) := by
  have stored := (composeTile_sampled d p c (c.tilePixels p false t)).1.trans
    (storeFrameTile_drawn (d.composeTile p c (c.tilePixels p false t)).1 c t (c.tilePixels p false t) (d.composeTile p c (c.tilePixels p false t)).2)
  generalize made : (d.composeTile p c (c.tilePixels p false t)).1.storeFrameTile c t (c.tilePixels p false t)
    (d.composeTile p c (c.tilePixels p false t)).2 = e at stored
  have now : e.now = d.now := (congrArg Dev.now stored.frame :)
  have counted : d.composeFrame p t c = if c.tileCount p false ≤ c.tilesDone.length + 1 then
      (e.setPc p { e.pc p with current := some (c.withTile p t d.now (d.tooLate p c)) }).setComposed p (c.frame + 1)
      else e.setPc p { e.pc p with current := some (c.withTile p t d.now (d.tooLate p c)) } := by
    have length : (c.tilesDone ++ [t]).length = c.tilesDone.length + 1 := List.length_append
    have count (l : List Nat) : ({ c with tilesDone := l } : Composition).tileCount p false = c.tileCount p false := rfl
    unfold Dev.composeFrame
    dsimp only
    rw [made, length, count, now]
    simp only [decide_eq_true_eq]
    rfl
  refine ⟨e, stored, ?_⟩
  rw [counted]
  split
  · exact ⟨(setPc_only e p _).trans (setComposed_only _ p _), congrArg PipeComp.current (Dev.pc_setPc_same e p _)⟩
  · exact ⟨setPc_only e p _, congrArg PipeComp.current (Dev.pc_setPc_same e p _)⟩

/-- A tile of a chased frame: composed, and then counted in its pipe with nothing stored. -/
theorem composeStrip_counts : ∃ e, Sampled d e ∧ PipeOnly p e (d.composeStrip p t c) ∧
    ((d.composeStrip p t c).pc p).chase.map (fun x => x.tilesDone) = some (c.tilesDone ++ [t]) := by
  refine ⟨_, composeTile_sampled d p c (c.tilePixels p true t), ?_⟩
  unfold Dev.composeStrip
  dsimp only
  split
  · exact ⟨(setPc_only _ p _).trans (setComposed_only _ p _), congrArg (fun x : PipeComp => x.chase.map (fun x => x.tilesDone)) (Dev.pc_setPc_same _ p _)⟩
  · exact ⟨setPc_only _ p _, congrArg (fun x : PipeComp => x.chase.map (fun x => x.tilesDone)) (Dev.pc_setPc_same _ p _)⟩

end

/-! What comes before a tile: frames formed late and strips missed. -/

/-- Frames formed and strips missed change composition, timing and operations, and raise events; they leave the device's blocks as they run. -/
def FrameFormed (d e : Dev) : Prop := { e with ops := d.ops, comp := d.comp, disp := d.disp, fns := d.fns, msgs := d.msgs } = d

theorem FrameFormed.trans {d e r : Dev} (h : FrameFormed d e) (k : FrameFormed e r) : FrameFormed d r :=
  (congrArg (fun x : Dev => { x with ops := d.ops, comp := d.comp, disp := d.disp, fns := d.fns, msgs := d.msgs }) k :).trans h

theorem FrameFormed.runs {d e : Dev} (h : FrameFormed d e) (k : Nat) : e.runs k = d.runs k := (congrArg (fun x : Dev => x.runs k) h :)

theorem endOp_formed (d : Dev) (id : OpId) (status : Nat) (result : Option Nat) (h : Op → Op) : FrameFormed d (d.endOp id status result h) := by
  unfold Dev.endOp
  split
  · split <;> rfl
  · rfl

theorem supersede_formed (d : Dev) (l : List (OpId × Nat)) : FrameFormed d (d.supersede l) :=
  List.foldlRecOn l _ (motive := FrameFormed d) rfl (fun e formed x _ => formed.trans (endOp_formed e x.1 _ _ _))

theorem frameBegin_formed (d : Dev) (p n v : Nat) (dirty : Bool) : FrameFormed d (d.frameBegin p n v dirty) := by
  have pipe (x y : PipeComp) (l : List (OpId × Nat)) : FrameFormed d (((d.setPc p x).setPc p y).supersede l) := by
    have formed : FrameFormed d ((d.setPc p x).setPc p y) := rfl
    exact formed.trans (supersede_formed _ l)
  unfold Dev.frameBegin
  exact pipe _ _ _

theorem ensureFrame_formed (d : Dev) (p : Nat) : FrameFormed d (d.ensureFrame p) := by
  unfold Dev.ensureFrame
  dsimp only
  split
  · split
    · rfl
    · exact frameBegin_formed d p _ _ _
  · exact frameBegin_formed d p _ _ _

theorem Watched.formed {d e : Dev} (h : Watched d e) : FrameFormed d e := (congrArg (fun x : Dev => { x with ops := d.ops, disp := d.disp }) h.1 :)

theorem missStrip_formed (d : Dev) (p j : Nat) (c : Composition) : FrameFormed d (d.missStrip p j c) := by
  have counted (t : PipeTime) (x : PipeComp) (w : W72) : FrameFormed d ((((d.setPt p t).setPc p x).setLive 0x02 p 30 w).pipeEvent p 5) := by
    have set : FrameFormed d (((d.setPt p t).setPc p x).setLive 0x02 p 30 w) := rfl
    exact set.trans (pipeEvent_watched _ p 5).formed
  unfold Dev.missStrip
  exact counted _ _ _

theorem missOverdue_formed (d : Dev) (p : Nat) : FrameFormed d (d.missOverdue p) := by
  unfold Dev.missOverdue
  split
  · rename_i c _
    split
    · rfl
    · exact List.foldlRecOn _ _ (motive := FrameFormed d) rfl (fun e formed j _ => formed.trans (missStrip_formed e p j c))
  · rfl

/-- The device at which a tile is looked for: the frame of an active pipe is formed and its overdue strips are missed (R247, R461). -/
def Dev.upToDate (d : Dev) (p : Nat) : Dev := if (d.pt p).active then (d.ensureFrame p).missOverdue p else d

section
variable {d : Dev} {p tile core : Nat} {c : Composition} {dl : Option Nat}

theorem upToDate_runs (d : Dev) (p k : Nat) : (d.upToDate p).runs k = d.runs k := by
  unfold Dev.upToDate
  split
  · exact ((ensureFrame_formed d p).trans (missOverdue_formed _ p)).runs k
  · rfl

theorem ensureFrame_formedAlready (h : (d.frameOf p).map (fun f => f.n) = some (d.pt p).frame.toNat) : d.ensureFrame p = d := by
  obtain ⟨f, frame, n⟩ := Option.map_eq_some_iff.mp h
  unfold Dev.ensureFrame
  dsimp only
  rw [frame]
  exact if_pos n

/-- A pipe that is up to date: inactive, or with its frame formed and no strip overdue. -/
theorem upToDate_eq (h : (d.pt p).active = false ∨ ((d.frameOf p).map (fun f => f.n) = some (d.pt p).frame.toNat ∧
    ∀ c, (d.pc p).chase = some c → ∀ j, d.stripOverdue p c j = false)) : d.upToDate p = d := by
  unfold Dev.upToDate
  rcases h with off | ⟨frame, timely⟩
  · simp [off]
  · split
    · rw [ensureFrame_formedAlready frame]
      unfold Dev.missOverdue
      split
      · rename_i c chase
        have none : (List.range (c.strips p)).filter (d.stripOverdue p c) = [] := List.filter_eq_nil_iff.mpr (fun j _ => by simp [timely c chase j])
        rw [none]
        exact ite_self d
      · rfl
    · rfl

/-! The command. -/

/-- What COMPOSITOR_TILE_DISPATCH does. -/
def Dev.tileDispatched (d : Dev) (p tile core : Nat) : Dev :=
  let d1 := d.upToDate p
  if !d1.runs 4 || !d1.inService core || !d1.atBoundary core then d
  else
    match d1.tileReady p tile with
    | some dl => if d1.comesFirst p dl && (dl.isSome || d1.composeShare p) then ((d1.granted p core).composeAt p tile).releaseBlock p else d1
    | none => d1

theorem tileDispatched_stopped (stopped : d.runs 4 = false) : d.tileDispatched p tile core = d := if_pos (by simp [upToDate_runs, stopped])

/-- No tile is taken that is not ready, nor one outside its window without a COMPOSE weight (R155, R244). -/
theorem tileDispatched_none (off : (d.pt p).active = false)
    (h : d.tileReady p tile = none ∨ (d.tileReady p tile = some none ∧ weightOf d.obj (d.owner 0x02 p) 1 = 0)) : d.tileDispatched p tile core = d := by
  unfold Dev.tileDispatched
  rw [upToDate_eq (.inl off)]
  dsimp only
  split
  · rfl
  · rcases h with idle | ⟨outside, weightless⟩
    · rw [idle]
    · rw [outside]
      simp [Dev.composeShare, weightless]

theorem tileDispatched_takes (current : d.upToDate p = d) (runs : d.runs 4 = true) (service : d.inService core = true)
    (boundary : d.atBoundary core = true) (ready : d.tileReady p tile = some dl) (first : d.comesFirst p dl = true)
    (share : dl ≠ none ∨ weightOf d.obj (d.owner 0x02 p) 1 ≠ 0) :
    d.tileDispatched p tile core = ((d.granted p core).composeAt p tile).releaseBlock p := by
  have admitted : (d.comesFirst p dl && (dl.isSome || d.composeShare p)) = true := by
    rcases share with deadline | weight
    · simp [first, Option.isSome_iff_ne_none.mpr deadline]
    · simp [first, Dev.composeShare, weight]
  simp only [Dev.tileDispatched, current, runs, service, boundary, ready, admitted, Bool.not_true, Bool.or_self, Bool.false_eq_true, if_false, if_true]

/-! Tiles taken. -/

theorem granted_chase (d : Dev) (p core : Nat) : ((d.granted p core).pc p).chase = (d.pc p).chase := (congrArg PipeComp.chase (granted_pc d p core) :)

theorem granted_current (d : Dev) (p core : Nat) : ((d.granted p core).pc p).current = (d.pc p).current :=
  (congrArg PipeComp.current (granted_pc d p core) :)

theorem composeAt_frame (chase : (d.pc p).chase = none) (current : (d.pc p).current = some c) :
    (d.granted p core).composeAt p tile = (d.granted p core).composeFrame p tile c := by
  rw [← granted_chase d p core] at chase
  rw [← granted_current d p core] at current
  simp [Dev.composeAt, Dev.chaseTiles, chase, current]

theorem composeAt_strip (chase : (d.pc p).chase = some c) (lt : tile < d.chaseTiles p) :
    (d.granted p core).composeAt p tile = ((d.granted p core).noteLt p).composeStrip p tile c := by
  rw [Dev.chaseTiles, chase] at lt
  rw [← granted_chase d p core] at chase
  have strips : tile < (d.granted p core).chaseTiles p := by rwa [Dev.chaseTiles, chase]
  simp [Dev.composeAt, strips, chase]

end

/-- A tile of a frame buffer is composed, stored and counted (R244). -/
theorem frameTile_done (d : Dev) (p tile core : Nat) (c : Composition) {e : Dev} (he : ((d.granted p core).composeFrame p tile c).releaseBlock p = e) :
    EndsAlike d e ∧ (e.pc p).current = some (c.withTile p tile d.now (d.tooLate p c)) ∧ (e.coreOf core).gated = false ∧
      (e.coreOf core).idleFrom = d.now ∧ e.coreBusy core = false ∧ (∀ q, q ≠ p → e.pc q = d.pc q) ∧ e.ops = d.ops ∧ e.rings = d.rings ∧ e.disp = d.disp := by
  obtain ⟨r, drawn, counts, current⟩ := composeFrame_counts (d.granted p core) p tile c
  obtain ⟨released, pipe⟩ := releaseBlock_pipe ((d.granted p core).composeFrame p tile c) p
  rw [he] at released pipe
  have after := counts.trans released
  have before := granted_frame d p core
  obtain ⟨gated, idle, free⟩ := granted_core d p core
  have now : (d.granted p core).now = d.now := (congrArg Dev.now before :)
  have late : (d.granted p core).tooLate p c = d.tooLate p c := (congrArg (fun x : Dev => x.tooLate p c) before :)
  have raster : e.raster = r.raster := (congrArg Dev.raster after.1 :)
  have core_ : ({ e.coreOf core with tex := [] } : Core) = { (d.granted p core).coreOf core with tex := [] } := by
    rw [← drawn.cores core, Dev.coreOf, raster]
    rfl
  refine ⟨?_, ?_, (congrArg Core.gated core_ :).trans gated, (congrArg Core.idleFrom core_ :).trans idle, ?_, fun q ne => ?_, ?_, ?_, ?_⟩
  · have grant : EndsAlike d (d.granted p core) := ⟨(congrArg Dev.mem before :), (congrArg Dev.update before :), (congrArg Dev.safety before :)⟩
    exact (grant.trans drawn.endsAlike).trans after.endsAlike
  · rw [← now, ← late, ← current]
    exact (congrArg PipeComp.current pipe :)
  · rw [← free, Dev.coreBusy, Dev.coreBusy, raster, drawn.passes]
  · exact (after.2 q ne).trans ((drawn.pcs q).trans (granted_pc_other d p core ne))
  · exact (congrArg Dev.ops after.1 :).trans ((congrArg Dev.ops drawn.frame :).trans (congrArg Dev.ops before :))
  · exact (congrArg Dev.rings after.1 :).trans ((congrArg Dev.rings drawn.frame :).trans (congrArg Dev.rings before :))
  · exact (congrArg Dev.disp after.1 :).trans ((congrArg Dev.disp drawn.frame :).trans (congrArg Dev.disp before :))

/-- A tile of a chased frame is composed and counted, and nothing is stored (R246). -/
theorem stripTile_done (d : Dev) (p tile core : Nat) (c : Composition) {e : Dev}
    (he : (((d.granted p core).noteLt p).composeStrip p tile c).releaseBlock p = e) :
    EndsAlike d e ∧ e.writes = d.writes ∧ ((e.pc p).chase.map (fun x => x.tilesDone)) = some (c.tilesDone ++ [tile]) ∧ e.ops = d.ops ∧
      ∀ q, q ≠ p → e.pc q = d.pc q := by
  obtain ⟨r, ⟨drawn, writes⟩, counts, chase⟩ := composeStrip_counts ((d.granted p core).noteLt p) p tile c
  obtain ⟨released, pipe⟩ := releaseBlock_pipe (((d.granted p core).noteLt p).composeStrip p tile c) p
  rw [he] at released pipe
  have after := counts.trans released
  have before := granted_frame d p core
  have noted : { (d.granted p core).noteLt p with disp := (d.granted p core).disp } = d.granted p core := rfl
  refine ⟨?_, ?_, ?_, ?_, fun q ne => ?_⟩
  · have grant : EndsAlike d ((d.granted p core).noteLt p) := ⟨(congrArg Dev.mem before :), (congrArg Dev.update before :), (congrArg Dev.safety before :)⟩
    exact (grant.trans drawn.endsAlike).trans after.endsAlike
  · exact (congrArg Dev.writes after.1 :).trans (writes.trans (congrArg Dev.writes before :))
  · rw [← chase]
    exact (congrArg (fun x : PipeComp => x.chase.map (fun x => x.tilesDone)) pipe :)
  · exact (congrArg Dev.ops after.1 :).trans ((congrArg Dev.ops drawn.frame :).trans (congrArg Dev.ops before :))
  · exact (after.2 q ne).trans ((drawn.pcs q).trans (granted_pc_other d p core ne))

end Sys2Proof.Machine
end

section
/-! Tiles taken from cores, cores that are reset, and the tiles that are settled (R195, R215, R216). -/

namespace Sys2Proof.Machine

/-! A unit executed again. -/

/-- A pass with a unit to be executed again. -/
def Pass.again (q : Pass) (unit : Nat) : Pass := { q with tiles := tdel q.tiles unit, todo := unit :: q.todo, reexec := q.reexec + 1 }

theorem Pass.again_only {q : Pass} {unit : Nat} {t : TileRun} (tiles : q.tiles = [(unit, t)]) :
    q.again unit = { q with tiles := [], todo := unit :: q.todo, reexec := q.reexec + 1 } := by
  have gone : tdel [(unit, t)] unit = [] := by simp [tdel]
  rw [Pass.again, tiles, gone]

section
variable {d : Dev} {q : Pass}

/-- The one pass under way is replaced. -/
theorem setPass_passes {r : Pass} (h : d.raster.passes = [q]) (id : q.id = r.id) : (d.setPass r).raster.passes = [r] := by simp [Dev.setPass, h, id]

theorem redo_passes {r : Pass} (h : d.raster.passes = [r]) (id : r.id = q.id) (unit : Nat) : (d.redo q unit).raster.passes = [q.again unit] :=
  setPass_passes (d := { d with raster := { d.raster with waves := d.raster.waves.filter (fun x => !(x.2.op = q.id && x.2.tile = unit)) } }) h id

/-- Waves and passes alone change when a unit is executed again. -/
theorem redo_frame (d : Dev) (q : Pass) (unit : Nat) : { d.redo q unit with raster := d.raster } = d ∧
    (d.redo q unit).raster.waves = d.raster.waves.filter (fun x => !(x.2.op = q.id && x.2.tile = unit)) := ⟨rfl, rfl⟩

end

/-! Eviction. -/

/-- What TILE_EVICT does. -/
def Dev.tileEvicted (d0 : Dev) (core at_ : Nat) : Dev :=
  let d := d0.tick at_
  let leaving := decide (8 ≤ core) && d.power.applied = 7
  match d.raster.passes.find? (fun q => q.stage = 2 && q.tiles.any (fun t => t.2.on core && t.2.used ≠ 0)) with
  | none => d0
  | some q =>
    match q.tiles.find? (fun t => t.2.on core && t.2.used ≠ 0) with
    | none => d0
    | some (unit, t) =>
      if d.runs 4 && ((d.compositorReady && decide (t.since + d.raster.preemptLimit * 1000 ≤ d.now)) ||
          (leaving && decide (Nat.max t.since d.power.opAt + 50000 ≤ d.now))) then d.redo q unit
      else d0

section
variable {d : Dev} {core at_ unit : Nat} {q : Pass} {t : TileRun}

theorem TileRun.on_of (h : t.core = core ∨ t.guard = some core) : t.on core = true := by rcases h with h | h <;> simp [TileRun.on, h]

theorem tileEvicted_idle (none : d.raster.passes = []) : d.tileEvicted core at_ = d := by
  have still : (d.tick at_).raster.passes = [] := none
  unfold Dev.tileEvicted
  dsimp only
  rw [still]
  rfl

/-- A tile with waves goes from its core for the compositor, or to leave the core to OP7 (R195, R417). -/
theorem tileEvicted_redoes (passes : (d.tick at_).raster.passes = [q]) (stage : q.stage = 2) (tiles : q.tiles = [(unit, t)])
    (held : t.core = core ∨ t.guard = some core) (used : t.used ≠ 0) (runs : (d.tick at_).runs 4 = true)
    (due : ((d.tick at_).compositorReady = true ∧ t.since + (d.tick at_).raster.preemptLimit * 1000 ≤ (d.tick at_).now) ∨
      (8 ≤ core ∧ (d.tick at_).power.applied = 7 ∧ Nat.max t.since (d.tick at_).power.opAt + 50000 ≤ (d.tick at_).now)) :
    d.tileEvicted core at_ = (d.tick at_).redo q unit := by
  have on := TileRun.on_of held
  have pass : [q].find? (fun q => q.stage = 2 && q.tiles.any (fun t => t.2.on core && t.2.used ≠ 0)) = some q := by simp [stage, tiles, on, used]
  have tile : [(unit, t)].find? (fun t => t.2.on core && t.2.used ≠ 0) = some (unit, t) := by simp [on, used]
  unfold Dev.tileEvicted
  generalize d.tick at_ = now at passes runs due ⊢
  dsimp only
  rw [passes, pass]
  dsimp only
  rw [tiles, tile]
  refine if_pos ?_
  rcases due with ⟨ready, limit⟩ | ⟨high, low, settled⟩
  · simp [runs, ready, limit]
  · simp [runs, high, low, settled]

end

/-! The reset of a core. -/

section
variable (d : Dev) (core : Nat)

/-- The device whose core has been reset, with what it held still to be interrupted (R215). -/
def Dev.coreLost : Dev := d.setCore core { d.coreOf core with resetAt := some d.now, work := none, tex := [] }

variable {d core}

theorem resetShader_idle (none : d.raster.passes = []) : d.resetShader core = d.coreLost core := by
  unfold Dev.resetShader
  dsimp only
  rw [none]
  rfl

theorem resetShader_one {q : Pass} {unit : Nat} {t : TileRun} (passes : d.raster.passes = [q]) (tiles : q.tiles = [(unit, t)])
    (held : t.core = core ∨ t.guard = some core) : d.resetShader core = (d.coreLost core).interruptUnit q.id unit := by
  have on := TileRun.on_of held
  unfold Dev.resetShader
  dsimp only
  rw [passes]
  simp [tiles, on]
  rfl

end

section
variable {d : Dev} {q : Pass} {unit n : Nat}

/-- How often a unit of a pass has been interrupted is counted for its stage. -/
def Pass.interrupted (q : Pass) (unit n : Nat) : Pass := { q with interrupts := tset q.interrupts (2 * unit + (if q.stage = 2 then 1 else 0)) n }

/-- An operation one of whose units has been interrupted. -/
def Dev.replayedOp (d : Dev) (id : OpId) : Dev := d.updOp id (fun o => { o with replayed := true })

theorem interruptUnit_eq (passes : d.raster.passes = [q]) (count : n = tget q.interrupts (2 * unit + (if q.stage = 2 then 1 else 0)) 0) :
    d.interruptUnit q.id unit = if 4 ≤ n + 1 then (d.replayedOp q.id).endPass (q.interrupted unit (n + 1)) 0x12
      else (d.replayedOp q.id).redo (q.interrupted unit (n + 1)) unit := by
  have found : d.passOf q.id = some q := by simp [Dev.passOf, passes]
  subst count
  simp only [Dev.interruptUnit, found]
  rfl

end

/-- A pass that ends with a status: its operation has finished with it, and the pass is gone. -/
theorem endPass_ended {d : Dev} {q : Pass} {status : Nat} {o : Op} (held : d.op q.id = some o) :
    ∃ r, (d.endPass q status).op q.id = some (o.ended status r) := by
  have kept : (({ d with free := d.free + 1 } : Dev).stopPass q.id).op q.id = some o := held
  exact ⟨_, Dev.op_finish_same kept status _⟩

theorem endPass_passes (d : Dev) (q : Pass) (status : Nat) : (d.endPass q status).raster.passes = d.raster.passes.filter (fun p => p.id ≠ q.id) := rfl

/-! The commands. -/

/-- What SHADER_CORE_RETURN does. -/
def Dev.coreReturned (d : Dev) (core at_ : Nat) : Dev :=
  match (d.coreOf core).resetAt with
  | some t =>
    let d1 := d.tick (Nat.min at_ (t + 50000))
    d1.setCore core { d1.coreOf core with resetAt := none, idleFrom := d1.now }
  | none => d

section
variable (core : Fin 16) (at_ : Nat) (s : State)

theorem exec_compositorTileDispatch (p : Fin 12) (tile : Nat) : exec (.compositorTileDispatch p tile core) s =
    runAs (mpCore core.val) (fun d => d.tileDispatched p.val tile core.val) s := rfl
theorem exec_tileEvict : exec (.tileEvict core at_) s = runAs (mpCore core.val) (fun d => d.tileEvicted core.val at_) s := rfl
theorem exec_shaderCoreReset : exec (.shaderCoreReset core) s = run (fun d => if d.runs 4 then d.resetShader core.val else d) s := rfl
theorem exec_shaderCoreReturn : exec (.shaderCoreReturn core at_) s = run (fun d => d.coreReturned core.val at_) s := rfl

end

/-- A core returns within 50 µs (R215). -/
theorem coreReturned_returns {d : Dev} {core at_ t : Nat} (reset : (d.coreOf core).resetAt = some t) :
    d.coreReturned core at_ = (d.tick (Nat.min at_ (t + 50000))).setCore core
      { d.coreOf core with resetAt := none, idleFrom := (d.tick (Nat.min at_ (t + 50000))).now } := by
  unfold Dev.coreReturned
  rw [reset]
  rfl

theorem coreReturned_none {d : Dev} {core at_ : Nat} (none : (d.coreOf core).resetAt = none) : d.coreReturned core at_ = d := by
  unfold Dev.coreReturned
  rw [none]

section
variable {s : State} {p : Fin 12} {tile : Nat} {core : Fin 16} {c : Composition} {dl : Option Nat} {r : Dev} (k : s.Steady)
include k

/-- A tile of a frame buffer is taken (R193, R194, R244). -/
theorem frameTile_taken (taken : s.dev.tileDispatched p.val tile core.val = ((s.dev.granted p.val core.val).composeAt p.val tile).releaseBlock p.val)
    (chase : (s.dev.pc p.val).chase = none) (current : (s.dev.pc p.val).current = some c) :
    Does (.compositorTileDispatch p tile core) s (fun e =>
      (e.pc p.val).current = some (c.withTile p.val tile s.dev.now (s.dev.tooLate p.val c)) ∧
      (e.coreOf core.val).gated = false ∧ (e.coreOf core.val).idleFrom = s.dev.now ∧ e.coreBusy core.val = false ∧
      (∀ q, q ≠ p.val → e.pc q = s.dev.pc q) ∧ e.ops = s.dev.ops ∧ e.rings = s.dev.rings ∧ e.disp = s.dev.disp) := by
  rw [composeAt_frame chase current] at taken
  obtain ⟨alike, done, gated, idle, free, pipes, ops, rings, disp⟩ := frameTile_done s.dev p.val tile core.val c rfl
  refine (becomes_runFrom (exec_compositorTileDispatch core s p tile) k taken alike).imp (fun e ⟨_, _, _, frame⟩ => ?_)
  refine ⟨(congrArg (fun x : Dev => (x.pc p.val).current) frame :).trans done, (congrArg (fun x : Dev => (x.coreOf core.val).gated) frame :).trans gated,
    (congrArg (fun x : Dev => (x.coreOf core.val).idleFrom) frame :).trans idle, (congrArg (fun x : Dev => x.coreBusy core.val) frame :).trans free,
    fun q ne => (congrArg (fun x : Dev => x.pc q) frame :).trans (pipes q ne), (congrArg Dev.ops frame :).trans ops,
    (congrArg Dev.rings frame :).trans rings, (congrArg Dev.disp frame :).trans disp⟩

/-- A tile of a chased frame is taken (R193, R194, R246). -/
theorem stripTile_taken (taken : s.dev.tileDispatched p.val tile core.val = ((s.dev.granted p.val core.val).composeAt p.val tile).releaseBlock p.val)
    (chase : (s.dev.pc p.val).chase = some c) (lt : tile < s.dev.chaseTiles p.val) :
    Does (.compositorTileDispatch p tile core) s (fun e =>
      ((e.pc p.val).chase.map (fun x => x.tilesDone)) = some (c.tilesDone ++ [tile]) ∧ e.mem = s.dev.mem ∧ e.ops = s.dev.ops ∧
      (∀ q, q ≠ p.val → e.pc q = s.dev.pc q)) := by
  rw [composeAt_strip chase lt] at taken
  obtain ⟨alike, writes, done, ops, pipes⟩ := stripTile_done s.dev p.val tile core.val c rfl
  refine (does_passed (exec_compositorTileDispatch core s p tile) k taken alike writes).imp (fun e passed => ?_)
  exact ⟨(congrArg (fun x : Dev => (x.pc p.val).chase.map (fun x => x.tilesDone)) passed :).trans done, (congrArg Dev.mem passed :).trans alike.1,
    (congrArg Dev.ops passed :).trans ops, fun q ne => (congrArg (fun x : Dev => x.pc q) passed :).trans (pipes q ne)⟩

/-- A core that held one unit of the one pass under way is reset (R215, R216). -/
theorem shaderCoreReset_held {q : Pass} {unit n : Nat} {t : TileRun} (runs : s.dev.runs 4 = true) (passes : s.dev.raster.passes = [q])
    (tiles : q.tiles = [(unit, t)]) (held : t.core = core.val ∨ t.guard = some core.val)
    (count : n = tget q.interrupts (2 * unit + (if q.stage = 2 then 1 else 0)) 0) :
    (n < 3 → Does (.shaderCoreReset core) s (fun e =>
      (e.coreOf core.val).resetAt = some s.dev.now ∧
      e.raster.passes = [{ q with interrupts := tset q.interrupts (2 * unit + (if q.stage = 2 then 1 else 0)) (n + 1)
                                  tiles := [], todo := unit :: q.todo, reexec := q.reexec + 1 }] ∧
      e.ops = s.dev.ops.map (fun o => if o.id = q.id then { o with replayed := true } else o))) ∧
    (3 ≤ n → Does (.shaderCoreReset core) s (fun e => e.raster.passes = [] ∧ ∀ o, s.dev.op q.id = some o →
      (e.op q.id).map (fun x => (x.phase, x.status, x.replayed)) = some (.finished, 0x12, true))) := by
  have lost : (s.dev.coreLost core.val).raster.passes = [q] := passes
  have interrupt := interruptUnit_eq lost count
  have shader := resetShader_one passes tiles held
  refine ⟨fun few => ?_, fun many => ?_⟩
  · rw [if_neg (by omega)] at interrupt
    refine (does_passed (exec_shaderCoreReset core s) k ((if_pos runs).trans (shader.trans interrupt)) (.refl _) rfl).imp (fun e passed => ⟨?_, ?_, ?_⟩)
    · refine (congrArg (fun x : Dev => (x.coreOf core.val).resetAt) passed :).trans ?_
      exact congrArg Core.resetAt ((Dev.coreOf_setCore s.dev core.val core.val _).trans (if_pos rfl))
    · refine (congrArg (fun x : Dev => x.raster.passes) passed :).trans ((redo_passes (q := q.interrupted unit (n + 1)) (r := q) lost rfl unit).trans ?_)
      rw [Pass.again_only (show (q.interrupted unit (n + 1)).tiles = [(unit, t)] from tiles)]
      rfl
    · exact (congrArg Dev.ops passed :)
  · rw [if_pos (by omega)] at interrupt
    refine (does_passed (exec_shaderCoreReset core s) k ((if_pos runs).trans (shader.trans interrupt)) (.refl _) rfl).imp (fun e passed => ⟨?_, fun o op => ?_⟩)
    · refine (congrArg (fun x : Dev => x.raster.passes) passed :).trans ((endPass_passes _ _ _).trans ?_)
      rw [show ((s.dev.coreLost core.val).replayedOp q.id).raster.passes = [q] from passes]
      simp [Pass.interrupted]
    · have replayed : ((s.dev.coreLost core.val).replayedOp q.id).op (q.interrupted unit (n + 1)).id = some { o with replayed := true } := by
        have found : (s.dev.coreLost core.val).op q.id = some o := op
        refine (Dev.op_updOp _ q.id (fun o => { o with replayed := true }) (fun _ => rfl) _).trans ?_
        simp [Pass.interrupted, found, Dev.op_id found]
      obtain ⟨r, ended⟩ := endPass_ended (status := 0x12) replayed
      rw [show e.op q.id = _ from (congrArg (fun x : Dev => x.op q.id) passed :).trans ended]
      rfl

end

/-- Settles O36: a tile goes through its core's grant, its composition and its pipe's count; a reset through the one unit that its core held. -/
theorem coresAndTiles : Obligations.CoresAndTiles := by
  refine ⟨?_, ?_, fun s p tile core k off h => ?_, fun s p tile core k stopped => ?_, ?_, fun s core at_ k none => ?_,
    fun s core k runs => ⟨fun none => ?_, fun q unit t passes tiles held n count => shaderCoreReset_held k runs passes tiles held count⟩, ?_,
    fun s core at_ k none => ?_, fun d n h => ?_⟩
  · intro s p tile core c dl k runs formed service boundary chase current ready first share
    have upToDate : s.dev.upToDate p.val = s.dev :=
      upToDate_eq (formed.imp_right (fun frame => ⟨frame, fun c some_ => absurd (some_.symm.trans chase) (by simp)⟩))
    exact frameTile_taken k (tileDispatched_takes upToDate runs service boundary ready first share) chase current
  · intro s p tile core c dl k runs formed service boundary chase lt ready first share
    have upToDate : s.dev.upToDate p.val = s.dev :=
      upToDate_eq (formed.imp_right (fun ⟨frame, timely⟩ => ⟨frame, fun c' some_ => Option.some.inj (chase.symm.trans some_) ▸ timely⟩))
    exact stripTile_taken k (tileDispatched_takes upToDate runs service boundary ready first share) chase lt
  · exact becomes_runFrom (exec_compositorTileDispatch core s p tile) k (tileDispatched_none off h) (.refl _)
  · exact becomes_runFrom (exec_compositorTileDispatch core s p tile) k (tileDispatched_stopped stopped) (.refl _)
  · intro s core at_ unit q t d k later passes stage tiles held used runs due
    obtain rfl : d = s.dev.tick at_ := later
    obtain ⟨frame, waves⟩ := redo_frame (s.dev.tick at_) q unit
    refine (does_passed (exec_tileEvict core at_ s) k (tileEvicted_redoes passes stage tiles held used runs due) (.refl _) rfl).imp
      (fun e passed => ⟨?_, ?_, ?_⟩)
    · refine (congrArg (fun x : Dev => x.raster.passes) passed :).trans ((redo_passes passes rfl unit).trans ?_)
      rw [Pass.again_only tiles]
    · exact (congrArg (fun x : Dev => x.raster.waves) passed :).trans waves
    · exact (congrArg (fun x : Dev => { x with raster := (s.dev.tick at_).raster }) passed :).trans frame
  · exact becomes_runFrom (exec_tileEvict core at_ s) k (tileEvicted_idle none) (.refl _)
  · exact becomes_runFrom (exec_shaderCoreReset core s) k ((if_pos runs).trans (resetShader_idle none)) (.refl _)
  · intro s core at_ t d k reset later
    obtain rfl : d = s.dev.tick (Nat.min at_ (t + 50000)) := later
    exact becomes_runFrom (exec_shaderCoreReturn core at_ s) k (coreReturned_returns reset) (.refl _)
  · exact becomes_run_same (exec_shaderCoreReturn core at_ s) k (coreReturned_none none)
  · rcases h with reset | test | ⟨high, low⟩
    · simp [Dev.inService, reset]
    · simp [Dev.inService, test]
    · simp [Dev.inService, high, low]

end Sys2Proof.Machine
end

section
/-! Vector instructions lane by lane: an effect on each executing lane, in ascending order, and EX_ILLEGAL in a wave (R166, R168 to R183). -/

namespace Sys2Proof.Machine

/-! A command, and an instruction of a wave. -/

/-- A command that leaves a calm device with memory as it was: its stores take their place and its accesses in the lattice. -/
theorem does_is_of_calm {i : Instr} {s : State} {who : Nat × Nat} {h : Dev → Dev} {d : Dev} (x : exec i s = runFrom who h s) (hd : h s.dev = d)
    (calm : d.Calm) (mem : d.mem = s.dev.mem) (wf : Memory.wf s.dev.mem = true) : Does i s (Is d) :=
  ⟨commit who s d, by rw [x, runFrom_calm who h s (hd ▸ calm), hd], rfl, rfl, fun a => cellGet_commit wf mem who a, ⟨who, rfl⟩, rfl⟩

section
variable {d : Dev} {i : Nat} {sh : Shape} {w : Insn} {q : Seq} {x : Wave} {types : List Nat} {u : VRegs}

/-- A vector instruction that is ready: EX_ILLEGAL for its lane type or a register, else its effect on the wave (R166, R170). -/
theorem waveOp_ready {h : Dev → Nat → Wave → Dev × Except Exc Flow} (prof : sh.prof = .v) (r : d.Ready (.wave i) sh w q)
    (now : (d.issued (.wave i) q).wave i = some x) :
    waveOp (.wave i) sh w types u h d = Dev.concluded (.wave i)
      (if !types.contains w.lt || u.beyond x.nv w then (d.issued (.wave i) q, .error exIllegal) else h (d.issued (.wave i) q) i x) := by
  have runs : (d.issued (.wave i) q).predicate (.wave i) sh w false = true := by simp [Dev.predicate, prof]
  rw [waveOp, issue_ready d (.wave i) sh w false _ q r, if_pos runs]
  simp only [now]
  rfl

/-- A vector instruction whose effect on each lane succeeds: the lanes in their places, and the next index. -/
theorem vector_ready {eff : Wave → Dev → Nat → Lane → Dev × Except Exc Lane} {d1 : Dev} {ls : List Lane} {y : Wave} (prof : sh.prof = .v)
    (r : d.Ready (.wave i) sh w q) (now : (d.issued (.wave i) q).wave i = some x) (type : types.contains w.lt = true) (regs : u.beyond x.nv w = false)
    (lanes : lanesRun w (eff x) (d.issued (.wave i) q) 0 x.lanes = (d1, .ok ls)) (later : d1.wave i = some y) :
    vector (.wave i) sh w types u eff d = d1.setWave i { y with lanes := ls, seq := { y.seq with pc := y.seq.pc + 1 } } := by
  rw [vector, waveOp_ready prof r now]
  simp only [type, regs, lanes, later, Bool.not_true, Bool.or_self, Bool.false_eq_true, if_false, Dev.concluded_ok, Dev.next_setWave]

/-- An exception in a wave takes its operation's waves and passes away and finishes the operation (R183). -/
theorem Dev.raise_wave (now : d.wave i = some x) (e : Exc) :
    d.raise (.wave i) e = (d.stopPass x.op).finish x.op e.status.toNat
      (some (e.own.getD (excResult (BitVec.ofNat 8 e.code) (x.seq.byteAddr x.seq.pc))).toNat) := by
  simp only [Dev.raise, now]

theorem Dev.raise_wave_endsAlike (now : d.wave i = some x) (e : Exc) : EndsAlike d (d.raise (.wave i) e) := by
  rw [Dev.raise_wave now]
  exact .trans (.refl d) (finish_endsAlike (d.stopPass x.op) _ _ _)

end

/-- A lane type or a register that the wave does not have ends the raster operation with ST_RANGE (R166, R170, R183). -/
theorem waveOp_illegal {ins : Instr} {s : State} {i : Nat} {sh : Shape} {w : Insn} {q : Seq} {x : Wave} {types : List Nat} {u : VRegs}
    {h : Dev → Nat → Wave → Dev × Except Exc Flow} (e : exec ins s = run (waveOp (.wave i) sh w types u h) s) (prof : sh.prof = .v) (k : s.Calm)
    (r : s.dev.Ready (.wave i) sh w q) (wave : s.dev.wave i = some x) (illegal : types.contains w.lt = false ∨ u.beyond x.nv w = true) :
    Does ins s (fun e =>
      (∀ j y, (j, y) ∈ e.raster.waves → y.op ≠ x.op) ∧ (∀ p ∈ e.raster.passes, p.id ≠ x.op) ∧
      e.ops = s.dev.ops.map (fun o => if o.id = x.op then
        { o with phase := .finished, status := 0x10, result := some (BitVec.ofNat 64 (excResult 0x01 (q.byteAddr q.pc)).toNat) } else o) ∧
      e.mem = s.dev.mem ∧ e.rings = s.dev.rings) := by
  have now := issued_wave r wave
  obtain ⟨d, hd⟩ : ∃ d, s.dev.issued (.wave i) q = d := ⟨_, rfl⟩
  have only := r.issued_only
  have alike := only.endsAlike
  have ready := waveOp_ready (types := types) (u := u) (h := h) prof r now
  rw [hd] at now only alike ready
  obtain ⟨-, writes⟩ := only.memory
  obtain ⟨-, -, frame, -⟩ := only
  have refused : (!types.contains w.lt || u.beyond x.nv w) = true := by
    rcases illegal with type | regs
    · rw [type]
      rfl
    · rw [regs, Bool.or_true]
  rw [if_pos refused, Dev.concluded_error] at ready
  have ended := alike.trans (Dev.raise_wave_endsAlike now exIllegal)
  rw [← ready] at ended
  rw [Dev.raise_wave now] at ready
  refine does_runFrom_noStores e k ended ?_ ⟨fun j y resident => ?_, fun p under => ?_, ?_, ended.1, ?_⟩
  · rw [ready]
    exact writes.trans k.1.1
  · rw [ready] at resident
    simpa using (List.mem_filter.1 resident).2
  · rw [ready] at under
    simpa using (List.mem_filter.1 under).2
  · rw [ready, ← show d.ops = s.dev.ops from (congrArg Dev.ops frame :)]
    rfl
  · rw [ready]
    exact (congrArg Dev.rings frame :)

/-! Lanes in ascending order. -/

/-- An effect that answers what h admits, and keeps P, on one lane does so on all lanes. -/
theorem lanesRun_of_goes {w : Insn} {h : Dev → Nat → Lane → Dev → Lane → Prop} {eff : Dev → Nat → Lane → Dev × Except Exc Lane} {P : Dev → Prop}
    (step : ∀ d n l d1 l1, P d → h d n l d1 l1 → eff d n l = (d1, .ok l1) ∧ P d1) {n : Nat} {d e : Dev} {l m : List Lane} (start : P d)
    (goes : LanesGo w h n d l e m) : lanesRun w eff d n l = (e, .ok m) ∧ P e := by
  induction l generalizing n d m with
  | nil =>
    obtain ⟨rfl, rfl⟩ := goes
    exact ⟨rfl, start⟩
  | cons x r ih =>
    obtain ⟨d1, x1, m1, rfl, one, rest⟩ := goes
    have first : (if x.runs w then eff d n x else (d, .ok x)) = (d1, .ok x1) ∧ P d1 := by
      by_cases runs : x.runs w = true
      · rw [if_pos runs] at one ⊢
        exact step d n x d1 x1 start one
      · rw [if_neg runs] at one ⊢
        obtain ⟨rfl, rfl⟩ := one
        exact ⟨rfl, start⟩
    obtain ⟨others, last⟩ := ih first.2 rest
    exact ⟨by simp only [lanesRun, first.1, others], last⟩

/-- Lanes that each stay as they are stay all. -/
theorem LanesGo.same {w : Insn} {h : Dev → Nat → Lane → Dev → Lane → Prop} (same : ∀ d n l d1 l1, h d n l d1 l1 → l1 = l) {n : Nat} {d e : Dev}
    {l m : List Lane} (goes : LanesGo w h n d l e m) : m = l := by
  induction l generalizing n d m with
  | nil => exact goes.2
  | cons x r ih =>
    obtain ⟨d1, x1, m1, rfl, one, rest⟩ := goes
    have stays : x1 = x := by
      by_cases runs : x.runs w = true
      · rw [if_pos runs] at one
        exact same _ _ _ _ _ one
      · rw [if_neg runs] at one
        exact one.2
    rw [stays, ih rest]

section
variable {mk : Ctx → Insn → Instr} {sh : Shape} {types : List Nat} {u : VRegs} {h : Insn → Wave → Dev → Nat → Lane → Dev → Lane → Prop}

/-- A row whose effect on a lane is what h admits, as long as P holds of the wave and the device, as it does at the start. -/
theorem vectorGoes_of_keeps {eff : Ctx → Insn → Wave → Dev → Nat → Lane → Dev × Except Exc Lane} (P : Nat → Wave → Dev → Prop)
    (start : ∀ i x d, d.wave i = some x → P i x d) (e : ∀ c w s, exec (mk c w) s = run (vector c sh w types u (eff c w)) s)
    (step : ∀ i w x d n l d1 l1, P i x d → h w x d n l d1 l1 → eff (.wave i) w x d n l = (d1, .ok l1) ∧ P i x d1)
    (prof : sh.prof = .v := by rfl) : VectorGoes mk sh types u h :=
  fun s i w _ x _ _ _ _ wf r now type regs goes calm mem later =>
    have lanes := (lanesRun_of_goes (P := P i x) (step i w x) (start i x _ now) goes).1
    does_is_of_calm (e (.wave i) w s) (vector_ready prof r now type regs lanes later) calm mem wf

/-- The same of an effect that rests on nothing that the lanes before it keep. -/
theorem vectorGoes_of_exec {eff : Ctx → Insn → Wave → Dev → Nat → Lane → Dev × Except Exc Lane}
    (e : ∀ c w s, exec (mk c w) s = run (vector c sh w types u (eff c w)) s)
    (step : ∀ c w x d n l d1 l1, h w x d n l d1 l1 → eff c w x d n l = (d1, .ok l1)) (prof : sh.prof = .v := by rfl) : VectorGoes mk sh types u h :=
  vectorGoes_of_keeps (fun _ _ _ => True) (fun _ _ _ _ => trivial) e (fun i w x d n l d1 l1 _ one => ⟨step (.wave i) w x d n l d1 l1 one, trivial⟩) prof

/-- The same of a texture instruction (R175, R176): the entry of the slot, then what the texture unit answers. -/
theorem vectorGoes_of_tex {pixelOnly : Bool} {value : Insn → Wave → Nat → Lane → Tex → Dev → Got W72}
    (e : ∀ c w s, exec (mk c w) s = run (texOp c sh w pixelOnly u (value w)) s)
    (step : ∀ w x d n l d1 l1, h w x d n l d1 l1 → (pixelOnly = true → x.kind = .pixel) ∧
      ∃ dm t p, d.texEntry x w.slot = (dm, .ok (some t)) ∧ sampled x.core (value w x n l t) dm = (d1, .ok p) ∧ l1 = l.wr w.d p)
    (prof : sh.prof = .v := by rfl) : VectorGoes mk sh [0] u h :=
  vectorGoes_of_exec e (fun c w x d n l d1 l1 one => by
    obtain ⟨kind, dm, t, p, entry, answer, rfl⟩ := step w x d n l d1 l1 one
    have here : ¬ (pixelOnly && decide (x.kind ≠ .pixel)) = true := by simpa using kind
    simp only [if_neg here, entry, Got.bind, answer]) prof

/-- The same of a pixel instruction (R178, R182): a pixel wave, and an attachment that there is. -/
theorem vectorGoes_of_pixel {eff : Insn → Wave → Dev → Lane → Dev × Except Exc Lane}
    (e : ∀ c w s, exec (mk c w) s = run (pixelOp c sh w u (eff w)) s)
    (step : ∀ w x d n l d1 l1, h w x d n l d1 l1 → pxAtt w ≤ 8 ∧ x.kind = .pixel ∧ eff w x d l = (d1, .ok l1)) (prof : sh.prof = .v := by rfl) :
    VectorGoes mk sh [0] u h :=
  vectorGoes_of_exec e (fun _ w x d n l d1 l1 one => by
    obtain ⟨att, kind, eq⟩ := step w x d n l d1 l1 one
    rw [if_neg (by omega), if_neg (by simpa using kind), eq]) prof

end

/-! Local memory and device-virtual memory (R173, R174). -/

theorem Dev.hinted_wave {d : Dev} {i : Nat} {x : Wave} (now : d.wave i = some x) (w : Insn) :
    d.hinted (.wave i) w = d.asked (some (mpCore x.core, fld w.low 32 2)) := by
  simp only [Dev.hinted, Dev.wavePort, now]

theorem Stored.wave {d e : Dev} (h : Stored d e) (i : Nat) : e.wave i = d.wave i := (congrArg (fun x : Dev => x.wave i) h :)

theorem vldl_goes : VectorGoes .vldl (.vmem 1) [0] .da (fun w x d _ l d1 l1 =>
    localAt w l < x.words ∧ d1 = d ∧
      l1 = l.wr w.d ((tfind x.locals (localAt w l)).getD (BitVec.ofNat 72 (Config.unstated 15 [x.index, x.draw, x.tile, localAt w l])))) :=
  vectorGoes_of_exec (fun _ _ _ => rfl) (fun _ _ _ _ _ _ _ _ ⟨inside, same, value⟩ => by
    subst same value
    exact if_neg (by omega))

theorem vldg_goes : VectorGoes .vldg (.vmem 5) [0] .da (fun w x d _ l d1 l1 =>
    (w.s < 4 → vecAddr w l % vecBytes w.s = 0) ∧
    ∃ b, (d.asked (some (mpCore x.core, fld w.low 32 2))).readV x.fn (vecAddr w l) (vecBytes w.s) .read = (d1, .ok b) ∧
      l1 = l.wr w.d (BitVec.ofNat 72 (ofBytes b))) :=
  vectorGoes_of_keeps (fun i x d => d.wave i = some x) (fun _ _ _ now => now) (fun _ _ _ => rfl) (fun i w x d n l d1 l1 now ⟨aligned, b, read, value⟩ => by
    subst value
    refine ⟨?_, ((readV_reads read).stored.wave i).trans now⟩
    have here : ¬ (w.s < 4 ∧ vecAddr w l % vecBytes w.s ≠ 0) := fun ⟨small, odd⟩ => odd (aligned small)
    simp only [Dev.hinted_wave now, if_neg here, read]
    rfl)

theorem vstg_goes : VectorGoes .vstg (.vmem 5) [0] .da (fun w x d _ l d1 l1 =>
    l1 = l ∧ (if l.helper then d1 = d.asked (some (mpCore x.core, fld w.low 32 2)) else (w.s < 4 → vecAddr w l % vecBytes w.s = 0) ∧
      (d.asked (some (mpCore x.core, fld w.low 32 2))).writeV x.fn (vecAddr w l) (toBytes (vecBytes w.s) (l.rd w.d).toNat) = (d1, .ok ()))) :=
  vectorGoes_of_keeps (fun i x d => d.wave i = some x) (fun _ _ _ now => now) (fun _ _ _ => rfl) (fun i w x d n l d1 l1 now ⟨same, one⟩ => by
    subst same
    by_cases helper : l1.helper = true
    · rw [if_pos helper] at one
      subst one
      exact ⟨by simp only [Dev.hinted_wave now, if_pos helper], now⟩
    · rw [if_neg helper] at one
      obtain ⟨aligned, write⟩ := one
      refine ⟨?_, ((writeV_stored write).wave i).trans now⟩
      have here : ¬ (w.s < 4 ∧ vecAddr w l1 % vecBytes w.s ≠ 0) := fun ⟨small, odd⟩ => odd (aligned small)
      simp only [Dev.hinted_wave now, if_neg helper, if_neg here, write])

theorem vatom_goes : VectorGoes .vatom (.vdabc 6) [0] .dabc (fun w x d _ l d1 l1 =>
    if l.helper then d1 = d ∧ l1 = l
    else vecAddr w l % 8 = 0 ∧
      ∃ old, d.atomic x.fn (vecAddr w l) w.s ((l.rd w.b).setWidth 64) ((l.rd w.c).setWidth 64) = (d1, .ok old) ∧ l1 = l.wr w.d (old.setWidth 72)) :=
  vectorGoes_of_exec (fun _ _ _ => rfl) (fun _ w x d n l d1 l1 one => by
    by_cases helper : l.helper = true
    · rw [if_pos helper] at one
      obtain ⟨rfl, rfl⟩ := one
      exact if_pos helper
    · rw [if_neg helper] at one
      obtain ⟨aligned, old, atomic, rfl⟩ := one
      simp only [if_neg helper, aligned, ne_eq, not_true_eq_false, if_false, atomic])

/-- What a lane of VSTL leaves: its word in the wave's local memory, nothing of a helper (R169, R173). -/
def StoresLocal (i : Nat) (w : Insn) (x : Wave) (d : Dev) (l : Lane) (d1 : Dev) (l1 : Lane) : Prop :=
  l1 = l ∧ (if l.helper then d1 = d else
    localAt w l < x.words ∧ ∃ z, d.wave i = some z ∧ d1 = d.setWave i { z with locals := tset z.locals (localAt w l) (l.rd w.d) })

/-- The wave's lanes, memory and the end of commands are as they were: what the lanes of VSTL keep. -/
def LanesKept (i : Nat) (x : Wave) (d e : Dev) : Prop := EndsAlike d e ∧ ∃ z, e.wave i = some z ∧ z.lanes = x.lanes

theorem StoresLocal.kept {i : Nat} {w : Insn} {x : Wave} {d0 d d1 : Dev} {l l1 : Lane} (one : StoresLocal i w x d l d1 l1) (h : LanesKept i x d0 d) :
    LanesKept i x d0 d1 := by
  obtain ⟨-, one⟩ := one
  by_cases helper : l.helper = true
  · rw [if_pos helper] at one
    exact one ▸ h
  · rw [if_neg helper] at one
    obtain ⟨-, z, now, rfl⟩ := one
    obtain ⟨alike, y, held, lanes⟩ := h
    cases held.symm.trans now
    exact ⟨alike.trans (.refl d), _, Dev.wave_setWave_same _ _ _, lanes⟩

/-- VSTL's effect on a lane, as its row has it. -/
def vstlLane (c : Ctx) (w : Insn) (x : Wave) (d : Dev) (l : Lane) : Dev × Except Exc Lane :=
  if l.helper then (d, .ok l)
  else if x.words ≤ localAt w l then d.localExc c x (localAt w l)
  else
    match c with
    | .wave i =>
      match d.wave i with
      | some y => (d.setWave i { y with locals := tset y.locals (localAt w l) (l.rd w.d) }, .ok l)
      | none => (d, .ok l)
    | _ => (d, .ok l)

theorem exec_vstl (c : Ctx) (w : Insn) (s : State) : exec (.vstl c w) s = run (vector c (.vmem 1) w [0] .da (fun x d _ l => vstlLane c w x d l)) s := rfl

theorem StoresLocal.vstlLane {i : Nat} {w : Insn} {x : Wave} {d d1 : Dev} {l l1 : Lane} (one : StoresLocal i w x d l d1 l1) :
    vstlLane (.wave i) w x d l = (d1, .ok l1) := by
  obtain ⟨rfl, one⟩ := one
  by_cases helper : l1.helper = true
  · rw [if_pos helper] at one
    rw [Machine.vstlLane, if_pos helper, one]
  · rw [if_neg helper] at one
    obtain ⟨inside, z, now, rfl⟩ := one
    rw [Machine.vstlLane, if_neg helper, if_neg (by omega)]
    simp only [now]

theorem vstl_does {s : State} {i : Nat} {w : Insn} {q : Seq} {x y : Wave} {d1 : Dev} {ls : List Lane} (k : s.Calm) (wf : Memory.wf s.dev.mem = true)
    (r : s.dev.Ready (.wave i) (.vmem 1) w q) (now : (s.dev.issued (.wave i) q).wave i = some x) (type : w.lt = 0) (d : w.d < x.nv) (a : w.a < x.nv)
    (goes : LanesGo w (fun d _ l d1 l1 => StoresLocal i w x d l d1 l1) 0 (s.dev.issued (.wave i) q) x.lanes d1 ls) (later : d1.wave i = some y) :
    Does (.vstl (.wave i) w) s (Is (d1.setWave i { y with seq := { y.seq with pc := y.seq.pc + 1 } })) := by
  obtain ⟨lanes, alike, z, held, same⟩ := lanesRun_of_goes (eff := fun d _ l => vstlLane (.wave i) w x d l) (P := LanesKept i x (s.dev.issued (.wave i) q))
    (fun _ _ _ _ _ h one => ⟨one.vstlLane, one.kept h⟩) ⟨.refl _, x, now, rfl⟩ goes
  cases held.symm.trans later
  have stay : ls = y.lanes := (goes.same (fun _ _ _ _ _ one => one.1)).trans same.symm
  have ends := vector_ready (eff := fun x d _ l => vstlLane (.wave i) w x d l) (types := [0]) (u := .da) rfl r now (by simp [type])
    (by simp [VRegs.da, VRegs.beyond, d, a]) lanes later
  have whole : EndsAlike s.dev d1 := r.issued_only.endsAlike.trans alike
  rw [stay] at ends
  exact does_is_of_calm (exec_vstl (.wave i) w s) ends (whole.calm k.2) whole.1 wf

/-- Settles O19: EX_ILLEGAL by the checks that every vector instruction makes, and the memory instructions lane by lane. -/
theorem vectorMemoryAndRaises : Obligations.VectorMemoryAndRaises := by
  refine ⟨fun s i w q x k r wave illegal => ?_, vldl_goes, fun s i w q x y d1 ls k wf r now type d a goes later => ?_, vldg_goes, vstg_goes, vatom_goes⟩
  · refine waveOp_illegal (ins := .vaddH (.wave i) w) (types := [0]) (u := .dab) rfl rfl k r wave (illegal.imp (fun type => ?_) (fun regs => ?_))
    · simpa using type
    · simpa [VRegs.dab, VRegs.beyond, or_assoc] using regs
  · exact vstl_does k wf r now type d a goes later

end Sys2Proof.Machine
end

section
/-! Texture instructions, and the instructions of pixel and vertex waves (R175 to R182). -/

namespace Sys2Proof.Machine

/-! Texture instructions (R175 to R177). -/

/-- A computation of a texture unit whose value is taken on. -/
theorem sampled_map {α β : Type} {core : Nat} {h : Dev → Got α} {f : α → β} {d d1 : Dev} {v : α} (e : sampled core h d = (d1, .ok v)) :
    sampled core (fun d => Got.bind (h d) (fun d v => (d, .ok (f v)))) d = (d1, .ok (f v)) := by
  unfold sampled at e ⊢
  rcases r : h { d with raster := { d.raster with sampling := some core } } with ⟨e1, _ | x⟩
  · rw [r] at e
    cases e
  · rw [r] at e
    cases e
    simp only [r, Got.bind]

theorem sampled_ok {α : Type} (core : Nat) (d : Dev) (v : α) :
    sampled core (fun d => (d, .ok v)) d = ({ d with raster := { d.raster with sampling := none } }, .ok v) := rfl

/-! Output writes (R178 to R180). -/

section
variable {d : Dev} {x : Wave} {l : Lane} (e : Defer)

theorem Dev.pxWrite_helper (helper : l.helper = true) : d.pxWrite x l e = (d, l) := if_pos helper

theorem Dev.pxWrite_inside (helper : ¬ l.helper = true) (inside : l.ilk = 1) :
    d.pxWrite x l e = (d.updTile x (fun t => pxApply (d.descOf x.op) l.x l.y l.cover l.mask t e), l) := by
  rw [Dev.pxWrite, if_neg helper, if_pos inside]

theorem Dev.pxWrite_outside (helper : ¬ l.helper = true) (outside : ¬ l.ilk = 1) :
    d.pxWrite x l e = (d, { l with defer := l.defer ++ [e] }) := by
  rw [Dev.pxWrite, if_neg helper, if_neg outside]

end

/-- Settles O20: each texture instruction by the entry of its slot and what the texture unit answers, the others by their effect on a lane. -/
theorem textureAndPixelInstructions : Obligations.TextureAndPixelInstructions := by
  refine ⟨⟨vectorGoes_of_tex (fun _ _ _ => rfl) fun w x d n l d1 l1 one => ?tex,
      vectorGoes_of_tex (fun _ _ _ => rfl) fun w x d n l d1 l1 one => ?texl,
      vectorGoes_of_tex (fun _ _ _ => rfl) fun w x d n l d1 l1 one => ?texg,
      vectorGoes_of_tex (fun _ _ _ => rfl) fun w x d n l d1 l1 one => ?texf,
      vectorGoes_of_tex (fun _ _ _ => rfl) fun w x d n l d1 l1 one => ?texq⟩,
    vectorGoes_of_pixel (fun _ _ _ => rfl) fun w x d n l d1 l1 one => ?pxld,
    vectorGoes_of_pixel (fun _ _ _ => rfl) fun w x d n l d1 l1 one => ?pxst,
    vectorGoes_of_pixel (fun _ _ _ => rfl) fun w x d n l d1 l1 one => ?pxbld,
    vectorGoes_of_exec (fun _ _ _ => rfl) fun _ w x d n l d1 l1 one => ?ilkb,
    vectorGoes_of_exec (fun _ _ _ => rfl) fun _ w x d n l d1 l1 one => ?ilke,
    vectorGoes_of_exec (fun _ _ _ => rfl) fun _ w x d n l d1 l1 one => ?kill,
    vectorGoes_of_exec (fun _ _ _ => rfl) fun _ w x d n l d1 l1 one => ?emit,
    vectorGoes_of_exec (fun _ _ _ => rfl) fun _ w x d n l d1 l1 one => ?attr,
    vectorGoes_of_exec (fun _ _ _ => rfl) fun _ w x d n l d1 l1 one => ?deriv⟩
  case tex =>
    obtain ⟨pixel, dm, t, p, entry, value, answer⟩ := one
    exact ⟨fun _ => pixel, dm, t, p, entry, answer, value⟩
  case texl =>
    obtain ⟨dm, t, p, entry, value, answer⟩ := one
    exact ⟨fun h => (by cases h), dm, t, p, entry, answer, value⟩
  case texg =>
    obtain ⟨pixel, dm, t, ps, entry, answer, value⟩ := one
    exact ⟨fun _ => pixel, dm, t, _, entry, sampled_map answer, value⟩
  case texf =>
    obtain ⟨dm, t, entry, level, layer, answer⟩ := one
    refine ⟨fun h => (by cases h), dm, t, ?_⟩
    have there : ¬ (t.surf.levels ≤ el36 (l.rd w.b) 0 ∨ t.surf.layers ≤ el36 (l.rd w.b) 1) := by omega
    simp only [if_neg there]
    split at answer
    next outside =>
      obtain ⟨rfl, value⟩ := answer
      exact ⟨0, entry, by simp only [if_pos outside, sampled_ok], value⟩
    next inside =>
      obtain ⟨p, answer, value⟩ := answer
      refine ⟨_, entry, ?_, value⟩
      simp only [if_neg inside]
      exact sampled_map answer
  case texq =>
    obtain ⟨dm, t, entry, rfl, answer⟩ := one
    refine ⟨fun h => (by cases h), dm, t, ?_⟩
    split at answer
    next counts => exact ⟨_, entry, by simp only [if_pos counts, sampled_ok], answer⟩
    next size =>
      obtain ⟨level, value⟩ := answer
      exact ⟨_, entry, by simp only [if_neg size, if_neg (show ¬ t.surf.levels ≤ el36 (l.rd w.b) 0 by omega), sampled_ok], value⟩
  case pxld =>
    obtain ⟨att, pixel, inside, rfl, rfl⟩ := one
    exact ⟨att, pixel, if_neg (by simpa using inside)⟩
  case pxst =>
    obtain ⟨att, pixel, late, answer⟩ := one
    refine ⟨att, pixel, ?_⟩
    have allowed : ¬ (decide (pxAtt w = 8) && !(d.waveDraw x).late) = true := by simpa using late
    rw [if_neg allowed]
    split at answer
    next helper =>
      obtain ⟨rfl, rfl⟩ := answer
      rw [Dev.pxWrite_helper _ helper]
    next active =>
      split at answer
      next inside =>
        obtain ⟨rfl, rfl⟩ := answer
        rw [Dev.pxWrite_inside _ active inside]
      next outside =>
        obtain ⟨rfl, rfl⟩ := answer
        rw [Dev.pxWrite_outside _ active outside]
  case pxbld =>
    obtain ⟨att, pixel, answer⟩ := one
    refine ⟨att, pixel, ?_⟩
    split at answer
    next helper =>
      obtain ⟨rfl, rfl⟩ := answer
      simp only [Dev.pxWrite_helper _ helper, helper, Bool.not_true, Bool.and_false, Bool.false_eq_true, if_false]
    next active =>
      split at answer
      next inside =>
        obtain ⟨rfl, rfl⟩ := answer
        have returned : (decide (l.ilk = 1) && !l.helper) = true := by simp [inside, active]
        rw [Dev.pxWrite_inside _ active inside]
        exact congrArg (fun v => (_, Except.ok v)) (if_pos returned)
      next outside =>
        obtain ⟨rfl, rfl⟩ := answer
        simp only [Dev.pxWrite_outside _ active outside, outside, decide_false, Bool.false_and, Bool.false_eq_true, if_false]
  case ilkb =>
    obtain ⟨pixel, before, rfl, rfl⟩ := one
    exact if_neg (by simp [pixel, before])
  case ilke =>
    obtain ⟨pixel, inside, rfl, rfl⟩ := one
    exact if_neg (by simp [pixel, inside])
  case kill =>
    obtain ⟨pixel, rfl, rfl⟩ := one
    exact if_neg (by simp [pixel])
  case emit =>
    obtain ⟨vertex, rfl, answer⟩ := one
    rw [if_neg (by simp [vertex])]
    split at answer
    next helper => rw [if_pos helper, answer]
    next active =>
      obtain ⟨there, rfl⟩ := answer
      rw [if_neg active, if_neg (by omega)]
  case attr =>
    obtain ⟨pixel, rfl, p, m, pass, prim, rfl⟩ := one
    rw [if_neg (by simp [pixel])]
    simp only [pass, Option.bind_some, prim]
  case deriv =>
    obtain ⟨pixel, rfl, rfl⟩ := one
    rw [if_neg (by simp [pixel])]
    by_cases column : w.s = 0
    · simp only [if_pos column]
    · simp only [if_neg column]

end Sys2Proof.Machine
end

section
/-! PRESENT, the deadlines of compositions, and strips (R244, R246, R247, R249). -/

namespace Sys2Proof.Machine

/-! PRESENT. -/

/-- A PRESENT of the layout's owner waits for its VBLANK; one out of range ends, and one of another function (R249). -/
theorem present_does {s : State} {id : OpId} {o : Op} {p : Nat} (w : Works s id 1 1 5 o) (hp : p = fld (o.word 0) 0 4) :
    ((fld (o.word 0) 4 68 ≠ 0 ∨ 11 < p) → Becomes (.present id) s (s.dev.finish id 0x10 none)) ∧
    (fld (o.word 0) 4 68 = 0 → p ≤ 11 → s.dev.owner 0x02 p ≠ o.fn → Becomes (.present id) s (s.dev.finish id 0x11 none)) ∧
    (fld (o.word 0) 4 68 = 0 → p ≤ 11 → s.dev.owner 0x02 p = o.fn → (∀ w ∈ (s.dev.pc p).presents, w.id ≠ id) →
      Becomes (.present id) s (s.dev.setPc p
        { s.dev.pc p with presents := (s.dev.pc p).presents ++ [{ id := id, at_ := o.due, frame := none, late := false }] })) := by
  obtain ⟨steady, held, runs⟩ := w
  subst hp
  refine ⟨fun bad => ?_, fun zero pipe other => ?_, fun zero pipe own new => ?_⟩ <;>
    refine becomes_runFrom (show execPresent id s = _ by unfold execPresent; rfl) steady ?_ (.refl _)
  · simp [held, runs, bad]
  · simp [held, runs, zero, Nat.not_lt.mpr pipe, other]
  · simp [held, runs, zero, Nat.not_lt.mpr pipe, own]
    exact fun x mem same => absurd same (new x mem)

/-! Deadlines and windows. -/

section
variable {s : State} {p : Fin 12} {c : Composition} {at_ t strip : Nat} {d : Dev} (k : s.Steady) (later : d = s.dev.tick at_)
  (runs : s.dev.runs 10 = true)
include k later runs

/-- A composition that is not finished at its deadline is late (R244). -/
theorem frameComposeDeadline_does (current : (s.dev.pc p.val).current = some c) (due : s.dev.composeDue p.val c = some t) :
    (t ≤ d.now → c.doneAt = none →
      Becomes (.frameComposeDeadline p at_) s (d.setPc p.val { s.dev.pc p.val with current := some { c with late := true } })) ∧
    ((d.now < t ∨ c.doneAt ≠ none) → Becomes (.frameComposeDeadline p at_) s s.dev) := by
  subst later
  change (t ≤ Nat.max s.dev.now at_ → _) ∧ ((Nat.max s.dev.now at_ < t ∨ _) → _)
  refine ⟨fun past unfinished => ?_, fun early => ?_⟩ <;>
    refine becomes_runFrom (show execFrameComposeDeadline p at_ s = _ by unfold execFrameComposeDeadline; rfl) k ?_ (.refl _) <;>
    simp only [current, due, runs]
  · exact if_pos (by simp [past, unfinished])
  · refine if_neg ?_
    rcases early with early | finished
    · simp [Nat.not_le.mpr early]
    · simp [finished]

variable (chase : (s.dev.pc p.val).chase = some c)
include chase

/-- A strip's window opens when the scan has left its ring position (R246). -/
theorem stripWindowOpen_does (lt : strip < c.strips p.val) (depth : c.ringDepth p.val ≤ strip)
    (left : s.dev.lineStart p.val ((strip + 1 - c.ringDepth p.val) * c.stripH p.val) = some t) :
    (t ≤ d.now → strip ∉ (s.dev.pc p.val).opened →
      Becomes (.stripWindowOpen p strip at_) s (d.setPc p.val { s.dev.pc p.val with opened := (s.dev.pc p.val).opened ++ [strip] })) ∧
    ((d.now < t ∨ strip ∈ (s.dev.pc p.val).opened) → Becomes (.stripWindowOpen p strip at_) s s.dev) := by
  subst later
  change (t ≤ Nat.max s.dev.now at_ → _) ∧ ((Nat.max s.dev.now at_ < t ∨ _) → _)
  refine ⟨fun past closed => ?_, fun early => ?_⟩ <;>
    refine becomes_runFrom (show execStripWindowOpen p strip at_ s = _ by unfold execStripWindowOpen; rfl) k ?_ (.refl _) <;>
    simp only [chase, left, runs]
  · exact if_pos (by simp [lt, depth, past, closed])
  · refine if_neg ?_
    rcases early with early | opened
    · simp [Nat.not_le.mpr early]
    · simp [opened]

/-- Only a strip that is not finished at its deadline is missed (R247). -/
theorem stripMiss_kept (due : s.dev.stripDeadline p.val c strip = some t)
    (timely : d.now < t ∨ c.stripDone p.val strip = true ∨ strip ∈ (s.dev.pc p.val).missed) : Becomes (.stripMiss p strip at_) s s.dev := by
  subst later
  change Nat.max s.dev.now at_ < t ∨ _ at timely
  refine becomes_runFrom (show execStripMiss p strip at_ s = _ by unfold execStripMiss; rfl) k ?_ (.refl _)
  simp only [chase, due, runs]
  refine if_neg ?_
  rcases timely with early | finished | missed
  · simp [Nat.not_le.mpr early]
  · simp [finished]
  · simp [missed]

end

/-! Fields that are set. -/

theorem satAdd_lt (n x y : Nat) : satAdd n x y < 2 ^ n :=
  Nat.lt_of_le_of_lt (Nat.min_le_right _ _) (Nat.sub_lt (Nat.two_pow_pos n) Nat.one_pos)

/-- A field read after it was set. -/
theorem fld_setFld_same {w lo n : Nat} (x : BitVec w) (le : lo + n ≤ w) {v : Nat} (lt : v < 2 ^ n) : fld (setFld x lo n v) lo n = v := by
  refine Nat.eq_of_testBit_eq (fun i => ?_)
  rw [fld, bitsN, Nat.testBit_mod_two_pow, Nat.testBit_shiftRight, BitVec.testBit_toNat]
  by_cases h : i < n
  · have inside : lo + i < w := by omega
    have mask : ((2 ^ n - 1) <<< lo).testBit (lo + i) = true := by simp [h]
    have value : (v <<< lo).testBit (lo + i) = v.testBit i := by simp
    simp only [setFld, BitVec.getLsbD_or, BitVec.getLsbD_and, BitVec.getLsbD_not, BitVec.getLsbD_ofNat, inside, mask, value, h, decide_true,
      Bool.true_and, Bool.and_true, Bool.not_true, Bool.and_false, Bool.false_or]
  · have out : v.testBit i = false := Nat.testBit_lt_two_pow (Nat.lt_of_lt_of_le lt (Nat.pow_le_pow_right (by decide) (Nat.not_lt.mp h)))
    simp [h, out]

/-! Events of a pipe (R133, R134). -/

/-- What an event of a pipe is for one function. -/
def Dev.pipeNoted (d : Dev) (p b f : Nat) : Dev :=
  if d.exists_ f && d.seesPipe f p then
    let x := d.fn f
    let before := d.pipeStatus f
    let d1 := d.setFn f { x with pipeEv := tset x.pipeEv p (setBit (tget x.pipeEv p 0) b true) }
    if !before && d1.pipeStatus f && bit x.evEnable 8 then d1.sendVector f 7 else d1
  else d

theorem pipeEvent_eq (d : Dev) (p b : Nat) : d.pipeEvent p b = (List.range 64).foldl (fun d f => d.pipeNoted p b f) d := rfl

/-- Whether an event of a pipe stands in a function's register. -/
def Dev.hasPipeEv (d : Dev) (p b f : Nat) : Prop := bit (tget (d.fn f).pipeEv p 0) b = true

theorem sendVector_pipeEv (d : Dev) (f v g : Nat) : ((d.sendVector f v).fn g).pipeEv = (d.fn g).pipeEv := by
  unfold Dev.sendVector
  split
  · rfl
  · rw [Dev.fn_setFn]
    split
    · rename_i same
      rw [same]
    · rfl

section
variable {d : Dev} {p b f g : Nat}

theorem pipeNoted_signalled (d : Dev) (p b f : Nat) : Signalled d (d.pipeNoted p b f) := by
  unfold Dev.pipeNoted
  split
  · have set := Signalled.setFn d f { d.fn f with pipeEv := tset (d.fn f).pipeEv p (setBit (tget (d.fn f).pipeEv p 0) b true) } rfl
    dsimp only
    split
    · exact set.trans (sendVector_signalled _ f 7)
    · exact set
  · exact .refl d

theorem pipesNoted_signalled (d : Dev) (p b : Nat) (l : List Nat) : Signalled d (l.foldl (fun d f => d.pipeNoted p b f) d) :=
  List.foldlRecOn l _ (motive := Signalled d) (.refl d) (fun e signalled f _ => signalled.trans (pipeNoted_signalled e p b f))

theorem pipeEvent_signalled (d : Dev) (p b : Nat) : Signalled d (d.pipeEvent p b) := pipesNoted_signalled d p b _

/-- The event is put into the register of a function that sees the pipe, and no register loses one. -/
theorem pipeNoted_hasPipeEv (lt : b < 8) :
    (d.pipeNoted p b f).hasPipeEv p b g ↔ (f = g ∧ d.exists_ f = true ∧ d.seesPipe f p = true) ∨ d.hasPipeEv p b g := by
  unfold Dev.pipeNoted Dev.hasPipeEv
  split
  next sees =>
    simp only [Bool.and_eq_true] at sees
    have sent (c : Bool) (e : Dev) : ((if c then e.sendVector f 7 else e).fn g).pipeEv = (e.fn g).pipeEv := by
      cases c
      · rfl
      · exact sendVector_pipeEv e f 7 g
    dsimp only
    rw [sent, Dev.fn_setFn]
    by_cases same : f = g
    · simp [bit_setBit, lt, same, same ▸ sees]
    · simp [same]
  next blind =>
    simp only [Bool.and_eq_true] at blind
    simp [blind]

/-- An event of a pipe reaches every function that sees the pipe. -/
theorem pipeEvent_hasPipeEv (lt : b < 8) (hf : f < 64) (exists_ : d.exists_ f = true) (sees : d.seesPipe f p = true) :
    (d.pipeEvent p b).hasPipeEv p b f := by
  obtain ⟨before, after, split⟩ := List.append_of_mem (List.mem_range.mpr hf)
  rw [pipeEvent_eq, split, List.foldl_append, List.foldl_cons]
  have noted := (pipesNoted_signalled d p b before).1
  generalize before.foldl (fun d f => d.pipeNoted p b f) d = e at noted ⊢
  refine List.foldlRecOn after _ (motive := fun e => Dev.hasPipeEv e p b f) ?_ (fun r has g _ => (pipeNoted_hasPipeEv lt).mpr (.inr has))
  exact (pipeNoted_hasPipeEv lt).mpr (.inl ⟨rfl, (congrArg (fun x : Dev => x.exists_ f) noted :).trans exists_,
    (congrArg (fun x : Dev => x.seesPipe f p) noted :).trans sees⟩)

end

/-! A strip missed. -/

/-- A strip given up (R247), before the event. -/
def Dev.stripLost (d : Dev) (p strip : Nat) (c : Composition) : Dev :=
  let pc := d.pc p
  let w := d.live 0x02 p 30
  ((d.setPt p { d.pt p with ltNow := 0 }).setPc p
    { pc with
      missed := pc.missed ++ [strip], misses := pc.misses ++ [c.frame], wantFallback := pc.wantFallback || d.missesReach p c.frame 1
      presents := pc.presents.map (fun x => if x.frame = some c.frame then { x with late := true } else x) }).setLive 0x02 p 30
    (setFld w 56 16 (satAdd 16 (fld w 56 16) 1))

theorem missStrip_eq (d : Dev) (p strip : Nat) (c : Composition) : d.missStrip p strip c = (d.stripLost p strip c).pipeEvent p 5 := rfl

/-! What follows a strip missed. -/

section
variable {d e : Dev} {p : Nat}

theorem Signalled.pc (h : Signalled d e) (p : Nat) : e.pc p = d.pc p := (congrArg (fun x : Dev => x.pc p) h.1 :)
theorem Signalled.live (h : Signalled d e) (cls inst word : Nat) : e.live cls inst word = d.live cls inst word :=
  (congrArg (fun x : Dev => x.live cls inst word) h.1 :)
theorem PipeOnly.fn (h : PipeOnly p d e) (f : Nat) : e.fn f = d.fn f := (congrArg (fun x : Dev => x.fn f) h.1 :)
theorem PipeOnly.formed (h : PipeOnly p d e) : FrameFormed d e :=
  (congrArg (fun x : Dev => { x with ops := d.ops, disp := d.disp, fns := d.fns, msgs := d.msgs }) h.1 :)
theorem FrameFormed.endsAlike (h : FrameFormed d e) : EndsAlike d e :=
  ⟨(congrArg Dev.mem h :), (congrArg Dev.update h :), (congrArg Dev.safety h :)⟩
theorem FrameFormed.writes (h : FrameFormed d e) : e.writes = d.writes := (congrArg Dev.writes h :)
theorem FrameFormed.now (h : FrameFormed d e) : e.now = d.now := (congrArg Dev.now h :)
theorem Passed.pc (h : Passed d e) (p : Nat) : e.pc p = d.pc p := (congrArg (fun x : Dev => x.pc p) h :)
theorem Passed.live (h : Passed d e) (cls inst word : Nat) : e.live cls inst word = d.live cls inst word :=
  (congrArg (fun x : Dev => x.live cls inst word) h :)
theorem Passed.now (h : Passed d e) : e.now = d.now := (congrArg Dev.now h :)
theorem Passed.mem (h : Passed d e) : e.mem = d.mem := (congrArg Dev.mem h :)

theorem releaseBlock_live (d : Dev) (p cls inst word : Nat) : (d.releaseBlock p).live cls inst word = d.live cls inst word := by
  have either : d.releaseBlock p = d ∨ d.releaseBlock p = d.setPc p { d.pc p with block := none } := ite_eq_or_eq _ _ _
  rcases either with same | released
  · rw [same]
  · rw [released]
    rfl

end

/-- What STRIP_MISS makes of a device for a strip that is missed. -/
def Dev.stripGivenUp (d : Dev) (p strip : Nat) (c : Composition) : Dev := (d.missStrip p strip c).releaseBlock p

section
variable (d : Dev) (p strip : Nat) (c : Composition)

theorem stripGivenUp_formed : FrameFormed d (d.stripGivenUp p strip c) :=
  (missStrip_formed d p strip c).trans (releaseBlock_pipe (d.missStrip p strip c) p).1.formed

/-- The pipe but for its block. -/
theorem stripGivenUp_pc (b : Option Nat) : { (d.stripGivenUp p strip c).pc p with block := b } = { d.pc p with
    missed := (d.pc p).missed ++ [strip], misses := (d.pc p).misses ++ [c.frame], wantFallback := (d.pc p).wantFallback || d.missesReach p c.frame 1
    presents := (d.pc p).presents.map (fun x => if x.frame = some c.frame then { x with late := true } else x), block := b } := by
  have lost : (d.stripLost p strip c).pc p = { d.pc p with
      missed := (d.pc p).missed ++ [strip], misses := (d.pc p).misses ++ [c.frame], wantFallback := (d.pc p).wantFallback || d.missesReach p c.frame 1
      presents := (d.pc p).presents.map (fun x => if x.frame = some c.frame then { x with late := true } else x) } :=
    Dev.pc_setPc_same (d.setPt p { d.pt p with ltNow := 0 }) p _
  have missed := (pipeEvent_signalled (d.stripLost p strip c) p 5).pc p
  rw [← missStrip_eq, lost] at missed
  have released := (releaseBlock_pipe (d.missStrip p strip c) p).2
  rw [missed] at released
  rw [Dev.stripGivenUp]
  generalize (d.missStrip p strip c).releaseBlock p = r at released ⊢
  exact (congrArg (fun x : PipeComp => { x with block := b }) released :)

theorem stripGivenUp_count :
    fld ((d.stripGivenUp p strip c).live 0x02 p 30) 56 16 = Nat.min (fld (d.live 0x02 p 30) 56 16 + 1) 65535 := by
  have lost : (d.stripLost p strip c).live 0x02 p 30 = setFld (d.live 0x02 p 30) 56 16 (satAdd 16 (fld (d.live 0x02 p 30) 56 16) 1) :=
    tget_tset_same _ _ _ _
  rw [Dev.stripGivenUp, releaseBlock_live, missStrip_eq, (pipeEvent_signalled (d.stripLost p strip c) p 5).live, lost,
    fld_setFld_same _ (by decide) (satAdd_lt 16 _ 1)]
  rfl

theorem stripGivenUp_raised {f : Nat} (hf : f < 64) (exists_ : d.exists_ f = true) (sees : d.seesPipe f p = true) :
    (d.stripGivenUp p strip c).hasPipeEv p 5 f := by
  rw [Dev.hasPipeEv, Dev.stripGivenUp, (releaseBlock_pipe (d.missStrip p strip c) p).1.fn, missStrip_eq]
  exact pipeEvent_hasPipeEv (by decide) hf exists_ sees

end

/-- A strip that is not finished at its deadline is missed, counted and raised (R247). -/
theorem stripMiss_does {s : State} {p : Fin 12} {c : Composition} {at_ t strip : Nat} {d : Dev} (k : s.Steady) (later : d = s.dev.tick at_)
    (runs : s.dev.runs 10 = true) (chase : (s.dev.pc p.val).chase = some c) (lt : strip < c.strips p.val)
    (due : s.dev.stripDeadline p.val c strip = some t) (past : t ≤ d.now) (unfinished : c.stripDone p.val strip = false)
    (new : strip ∉ (s.dev.pc p.val).missed) :
    Does (.stripMiss p strip at_) s (fun e =>
      { e.pc p.val with block := (s.dev.pc p.val).block } = { s.dev.pc p.val with
        missed := (s.dev.pc p.val).missed ++ [strip], misses := (s.dev.pc p.val).misses ++ [c.frame]
        wantFallback := (s.dev.pc p.val).wantFallback || s.dev.missesReach p.val c.frame 1
        presents := (s.dev.pc p.val).presents.map (fun x => if x.frame = some c.frame then { x with late := true } else x) } ∧
      fld (e.live 0x02 p.val 30) 56 16 = Nat.min (fld (s.dev.live 0x02 p.val 30) 56 16 + 1) 65535 ∧ e.now = d.now ∧
      (∀ f, f < 64 → s.dev.exists_ f = true → s.dev.seesPipe f p.val = true → bit (tget (e.fn f).pipeEv p.val 0) 5 = true) ∧ e.mem = s.dev.mem) := by
  subst later
  have step : (if s.dev.runs 10 && decide (strip < c.strips p.val) && decide (t ≤ (s.dev.tick at_).now) && !c.stripDone p.val strip &&
      !(s.dev.pc p.val).missed.contains strip then (s.dev.tick at_).stripGivenUp p.val strip c else s.dev) =
      (s.dev.tick at_).stripGivenUp p.val strip c := if_pos (by simp [runs, lt, past, unfinished, new])
  have formed := stripGivenUp_formed (s.dev.tick at_) p.val strip c
  have alike : EndsAlike s.dev (s.dev.tick at_) := .refl s.dev
  refine Does.imp (does_passed (show execStripMiss p strip at_ s = _ by unfold execStripMiss; rfl) k (by simp only [chase, due]; exact step)
    (alike.trans formed.endsAlike) formed.writes) (fun e passed => ⟨?_, ?_, passed.now.trans formed.now, fun f hf exists_ sees => ?_, ?_⟩)
  · rw [passed.pc]
    exact stripGivenUp_pc (s.dev.tick at_) p.val strip c _
  · rw [passed.live]
    exact stripGivenUp_count (s.dev.tick at_) p.val strip c
  · rw [passed.fn]
    exact stripGivenUp_raised (s.dev.tick at_) p.val strip c hf exists_ sees
  · exact passed.mem.trans formed.endsAlike.1

end Sys2Proof.Machine
end

section
/-! The life of buffer handles, and the presents and strips that are settled (R222, R223). -/

namespace Sys2Proof.Machine

/-! An operation that ends with a change of its own. -/

section
variable {d : Dev} {id : OpId} {status : Nat} {r : Option Nat} {h : Op → Op}

theorem endOp_frame (d : Dev) (id : OpId) (status : Nat) (r : Option Nat) (h : Op → Op) : { d.endOp id status r h with ops := d.ops } = d := by
  unfold Dev.endOp
  split
  · split <;> rfl
  · rfl

theorem endOp_op {o : Op} (keep : ∀ o, (h o).id = o.id) (held : d.op id = some o) (started : o.phase = .started) :
    (d.endOp id status r h).op id = some ((h o).ended status r) := by
  have ends : d.endOp id status r h = (d.updOp id h).finish id status r := by simp [Dev.endOp, held, Op.active, started]
  rw [ends]
  refine Dev.op_finish_same ?_ status r
  rw [Dev.op_updOp d id h keep, held, Option.map_some, if_pos (Dev.op_id held)]

end

/-! A handle that becomes FREE. -/

/-- A handle as it is once it is FREE. -/
def Handle.freed (h : Handle) : Handle := { h with state := .free, words := [], freeOp := none, vanished := false }

section
variable (d : Dev) (k : Nat) (waited : Bool)

theorem Dev.handle_setHandle_same (h : Handle) : (d.setHandle k h).handle k = h := by rw [Dev.handle_setHandle, if_pos rfl]

/-- What the end of the BUF_FREE leaves of a handle that becomes FREE (R223). -/
theorem freeHandle_frame : { d.freeHandle k waited with ops := d.ops } = d.setHandle k (d.handle k).freed := by
  unfold Dev.freeHandle
  dsimp only
  split
  · exact endOp_frame (d.setHandle k (d.handle k).freed) _ _ _ _
  · rfl

theorem freeHandle_handle (j : Nat) : (d.freeHandle k waited).handle j = if k = j then (d.handle k).freed else d.handle j :=
  (congrArg (fun x : Dev => x.handle j) (freeHandle_frame d k waited) :).trans (Dev.handle_setHandle d k j _)

theorem freeHandle_endsAlike : EndsAlike d (d.freeHandle k waited) := by
  have frame := freeHandle_frame d k waited
  exact ⟨(congrArg Dev.mem frame :), (congrArg Dev.update frame :), (congrArg Dev.safety frame :)⟩

theorem freeHandle_writes : (d.freeHandle k waited).writes = d.writes := (congrArg Dev.writes (freeHandle_frame d k waited) :)

variable {d k}

/-- The BUF_FREE completes with DEVTIME, and says whether it has waited (R223). -/
theorem freeHandle_op {id : OpId} {o : Op} (free : (d.handle k).freeOp = some id) (held : d.op id = some o) (started : o.phase = .started) :
    (d.freeHandle k waited).op id =
      some { o with phase := .finished, status := 0, result := some (BitVec.ofNat 64 d.now), deferred := waited } := by
  have ends : d.freeHandle k waited = (d.setHandle k (d.handle k).freed).endOp id 0 (some d.now) (fun o => { o with deferred := waited }) := by
    unfold Dev.freeHandle
    dsimp only
    rw [free]
    rfl
  rw [ends]
  exact endOp_op (fun _ => rfl) (d := d.setHandle k (d.handle k).freed) held started

end

theorem Passed.handle {d e : Dev} (h : Passed d e) (k : Nat) : e.handle k = d.handle k := (congrArg (fun x : Dev => x.handle k) h :)
theorem Passed.op {d e : Dev} (h : Passed d e) (id : OpId) : e.op id = d.op id := (congrArg (fun x : Dev => x.op id) h :)

/-- A command that leaves a handle FREE: of the handles, and of the operation that freed it. -/
theorem Passed.freed {d e : Dev} {k : Nat} {waited : Bool} (h : Passed (d.freeHandle k waited) e) :
    e.handle k = (d.handle k).freed ∧ (∀ j, j ≠ k → e.handle j = d.handle j) ∧
      ∀ id o, (d.handle k).freeOp = some id → d.op id = some o → o.phase = .started →
        e.op id = some { o with phase := .finished, status := 0, result := some (BitVec.ofNat 64 d.now), deferred := waited } := by
  refine ⟨?_, fun j ne => ?_, fun id o free held started => ?_⟩
  · rw [h.handle, freeHandle_handle, if_pos rfl]
  · rw [h.handle, freeHandle_handle, if_neg ne.symm]
  · rw [h.op, freeHandle_op waited free held started]

/-- A handle as it is while it is FREEING for an operation. -/
def Handle.freeing (h : Handle) (id : OpId) : Handle := { h with state := .freeing, freeOp := some id, vanished := false }

/-- The same of a handle that was registered until then. -/
theorem Passed.freedAtOnce {d e : Dev} {k : Nat} {id : OpId} {o : Op} (h : Passed ((d.setHandle k ((d.handle k).freeing id)).freeHandle k false) e)
    (held : d.op id = some o) (started : o.phase = .started) :
    e.handle k = (d.handle k).freed ∧ (∀ j, j ≠ k → e.handle j = d.handle j) ∧
      e.op id = some { o with phase := .finished, status := 0, result := some (BitVec.ofNat 64 d.now), deferred := false } := by
  obtain ⟨freed, others, done⟩ := h.freed
  rw [Dev.handle_setHandle_same] at freed done
  refine ⟨freed, fun j ne => ?_, done id o rfl held started⟩
  rw [others j ne, Dev.handle_setHandle, if_neg ne.symm]

/-! The commands. -/

section
variable {s : State} {id : OpId} {o : Op} {k : Nat}

/-- A surface is registered under a free handle, and waits for one that is FREEING (R222). -/
theorem bufRegister_does (w : Works s id 1 2 5 o) (hk : k = 256 * o.fn + fld (o.word 0) 64 8) :
    ((registerOk o = false ∨ (s.dev.handle k).state = .registered) → Becomes (.bufRegister id) s (s.dev.finish id 0x10 none)) ∧
    (registerOk o = true → (s.dev.handle k).state = .freeing → Becomes (.bufRegister id) s s.dev) ∧
    (registerOk o = true → (s.dev.handle k).state = .free → Becomes (.bufRegister id) s
      ((s.dev.setHandle k { state := .registered, words := o.desc.drop 1, serial := (s.dev.handle k).serial + 1, freeOp := none, vanished := false }).finish
        id 0 none)) := by
  obtain ⟨steady, held, runs⟩ := w
  subst hk
  refine ⟨fun bad => ?_, fun ok freeing => ?_, fun ok free => ?_⟩ <;>
    refine becomes_runFrom (show execBufRegister id s = _ by unfold execBufRegister; rfl) steady ?_ (.refl _) <;>
    simp only [held, runs, Bool.not_true, Bool.false_eq_true, if_false]
  · by_cases ok : registerOk o = true
    · have registered := bad.resolve_left (by simp [ok])
      simp [ok, registered]
    · simp [ok]
  · simp [ok, freeing]
  · simp only [ok, free, Bool.not_true, Bool.false_eq_true, if_false]
    rfl

/-- BUF_FREE makes its handle FREEING, and FREE when nothing names or reads it (R223). -/
theorem bufFree_does {d1 : Dev} (w : Works s id 1 3 5 o) (hk : k = 256 * o.fn + fld (o.word 0) 0 8) (new : (s.dev.handle k).freeOp ≠ some id)
    (hd : d1 = s.dev.setHandle k { s.dev.handle k with state := .freeing, freeOp := some id, vanished := false }) :
    ((fld (o.word 0) 8 64 ≠ 0 ∨ fld (o.word 0) 0 8 = 0 ∨ (s.dev.handle k).state ≠ .registered) → Becomes (.bufFree id) s (s.dev.finish id 0x10 none)) ∧
    (fld (o.word 0) 8 64 = 0 → fld (o.word 0) 0 8 ≠ 0 → (s.dev.handle k).state = .registered →
      (d1.handleUsed k = true → Becomes (.bufFree id) s d1) ∧
      (d1.handleUsed k = false → Does (.bufFree id) s (fun e =>
        e.handle k = { s.dev.handle k with state := .free, words := [], freeOp := none, vanished := false } ∧ (∀ j, j ≠ k → e.handle j = s.dev.handle j) ∧
        e.op id = some { o with phase := .finished, status := 0, result := some (BitVec.ofNat 64 s.dev.now), deferred := false }))) := by
  have op := w.op
  obtain ⟨steady, held, runs⟩ := w
  obtain rfl : d1 = s.dev.setHandle k ((s.dev.handle k).freeing id) := hd
  refine ⟨fun bad => ?_, fun zero nonzero registered => ⟨fun used => ?_, fun unused => ?_⟩⟩
  · refine becomes_runFrom (show execBufFree id s = _ by unfold execBufFree; rfl) steady ?_ (.refl _)
    simp only [held, runs, ← hk, new, Bool.not_true, decide_false, Bool.or_self, Bool.false_eq_true, if_false]
    exact if_pos (by simpa [or_assoc] using bad)
  · refine becomes_runFrom (show execBufFree id s = _ by unfold execBufFree; rfl) steady ?_ (.refl _)
    simp only [held, runs, ← hk, new, zero, nonzero, registered, Bool.not_true, decide_false, Bool.or_self, Bool.false_eq_true, if_false, ne_eq,
      not_true_eq_false]
    exact if_pos used
  · refine Does.imp (does_passed (d := (s.dev.setHandle k ((s.dev.handle k).freeing id)).freeHandle k false)
      (show execBufFree id s = _ by unfold execBufFree; rfl) steady ?_ (freeHandle_endsAlike _ k false) (freeHandle_writes _ k false))
      (fun e passed => passed.freedAtOnce op (Dev.activeOp_some held).2.1)
    simp only [held, runs, ← hk, new, zero, nonzero, registered, Bool.not_true, decide_false, Bool.or_self, Bool.false_eq_true, if_false, ne_eq,
      not_true_eq_false]
    exact if_neg (Bool.eq_false_iff.mp unused)

end

/-- A handle that is FREEING is FREE once nothing names or reads it (R223, R227). -/
theorem handleFreed_does {s : State} {f : Fin 64} {h : BitVec 8} {k : Nat} (steady : s.Steady) (awake : s.dev.awake = true)
    (hk : k = 256 * f.val + h.toNat) (freeing : (s.dev.handle k).state = .freeing) :
    (s.dev.handleUsed k = true → Becomes (.handleFreed f h) s s.dev) ∧
    (s.dev.handleUsed k = false → Does (.handleFreed f h) s (fun e =>
      e.handle k = { s.dev.handle k with state := .free, words := [], freeOp := none, vanished := false } ∧ (∀ j, j ≠ k → e.handle j = s.dev.handle j) ∧
      ∀ id o, (s.dev.handle k).freeOp = some id → s.dev.op id = some o → o.phase = .started →
        e.op id = some { o with phase := .finished, status := 0, result := some (BitVec.ofNat 64 s.dev.now), deferred := true })) := by
  subst hk
  refine ⟨fun used => ?_, fun unused => ?_⟩
  · refine becomes_runFrom (show execHandleFreed f h s = _ by unfold execHandleFreed; rfl) steady ?_ (.refl _)
    simp [used]
  · refine Does.imp (does_passed (show execHandleFreed f h s = _ by unfold execHandleFreed; rfl) steady ?_
      (freeHandle_endsAlike _ _ _) (freeHandle_writes _ _ _)) (fun e passed => passed.freed (waited := true))
    simp [awake, freeing, unused]

/-- A handle that is not FREEING stays as it is. -/
theorem handleFreed_kept {s : State} {f : Fin 64} {h : BitVec 8} (steady : s.Steady) (other : (s.dev.handle (256 * f.val + h.toNat)).state ≠ .freeing) :
    Becomes (.handleFreed f h) s s.dev :=
  becomes_runFrom (show execHandleFreed f h s = _ by unfold execHandleFreed; rfl) steady (by simp [other]) (.refl _)

/-- Commands of a composition or a chased frame that a pipe does not have. -/
theorem pipeCommands_idle {s : State} (p : Fin 12) (strip at_ : Nat) (k : s.Steady) :
    ((s.dev.pc p.val).current = none → Becomes (.frameComposeDeadline p at_) s s.dev) ∧
    ((s.dev.pc p.val).chase = none → Becomes (.stripWindowOpen p strip at_) s s.dev ∧ Becomes (.stripMiss p strip at_) s s.dev) := by
  refine ⟨fun none => ?_, fun none => ⟨?_, ?_⟩⟩
  · exact becomes_run_same (show execFrameComposeDeadline p at_ s = _ by unfold execFrameComposeDeadline; rfl) k (by simp only [none])
  · exact becomes_run_same (show execStripWindowOpen p strip at_ s = _ by unfold execStripWindowOpen; rfl) k (by simp only [none])
  · exact becomes_run_same (show execStripMiss p strip at_ s = _ by unfold execStripMiss; rfl) k (by simp only [none])

/-- Settles O37: presents by their checks, deadlines and strips by the instants that they meet, and handles by their state. -/
theorem presentsStripsAndBuffers : Obligations.PresentsStripsAndBuffers := by
  refine ⟨fun s id o p => present_does, fun s p at_ c d k later current runs t due => frameComposeDeadline_does k later runs current due,
    fun s p strip at_ t c d k later chase runs lt depth left => stripWindowOpen_does k later runs chase lt depth left,
    fun s p strip at_ t c d k later chase runs lt due => ⟨fun past unfinished new => stripMiss_does k later runs chase lt due past unfinished new,
      stripMiss_kept k later runs chase due⟩,
    fun s p strip at_ => pipeCommands_idle p strip at_, fun s id o k => bufRegister_does, fun s id o k d1 => bufFree_does,
    fun s f h k => handleFreed_does, fun s f h => handleFreed_kept⟩

end Sys2Proof.Machine
end

section
/-! The end of a command that does not find the device calm: a freeze or a device reset keeps the list of memory's bytes, and clears memory
by the stores that it makes (R442, R455, R502, R516). -/

namespace Sys2Proof.Machine

section
variable {α : Type}

theorem foldl_mem {h : Dev → α → Dev} (keep : ∀ d x, (h d x).mem = d.mem) (l : List α) (d : Dev) : (l.foldl h d).mem = d.mem :=
  List.foldlRecOn l h (motive := fun e => e.mem = d.mem) rfl (fun e same x _ => (keep e x).trans same)

end

section
variable (d : Dev)

/-! Records, freezes and events. -/

@[simp] theorem smRecord_mem (cls : Nat) (locus : W72) (fn : Option Nat) (a b : Nat) : (d.smRecord cls locus fn a b).mem = d.mem := by
  unfold Dev.smRecord
  dsimp only
  split <;> rfl

@[simp] theorem setEv_mem (f b : Nat) : (d.setEv f b).mem = d.mem := (setEv_endsAlike d f b).1

@[simp] theorem pipeEvent_mem (p b : Nat) : (d.pipeEvent p b).mem = d.mem := (pipeEvent_signalled d p b).endsAlike.1

theorem freezeRequest_mem (source : Nat) : (d.freezeRequest source).mem = d.mem := by
  unfold Dev.freezeRequest
  split
  · rfl
  · split
    · exact smRecord_mem d _ _ _ _ _
    · extract_lets d1 d2 frames
      have links : d1.mem = d.mem := foldl_mem (fun _ _ => by rfl) _ d
      have ports : d2.mem = d.mem := (foldl_mem (fun _ _ => by rfl) _ d1).trans links
      clear_value d1 d2 frames
      exact ports

/-! The items of a boot (R456, R489). -/

theorem forEach_mem (a : Area) (tag n : Nat) {h : Dev → Nat → List Byte → Dev} (keep : ∀ d i b, (h d i b).mem = d.mem) : (a.forEach tag n h d).mem = d.mem := by
  refine foldl_mem (fun d i => ?_) _ d
  split
  · exact keep d i _
  · rfl

theorem setWords_mem (cls first n i : Nat) (b : List Byte) :
    ((List.range n).foldl (fun d k => d.setObj cls i (first + k) (wordAt b k)) d).mem = d.mem := foldl_mem (fun _ _ => by rfl) _ d

theorem applyItems_mem : d.applyItems.mem = d.mem := by
  unfold Dev.applyItems
  dsimp only
  split
  all_goals
    iterate 4 refine (forEach_mem _ _ _ _ (fun d i b => setWords_mem d _ _ _ i b)).trans ?_
    refine (forEach_mem _ _ _ _ (fun _ _ _ => by rfl)).trans ?_
    split
    case' h_1 => refine (foldl_mem (fun _ _ => by rfl) _ _).trans ?_
    all_goals
      iterate 3 refine (forEach_mem _ _ _ _ (fun _ _ _ => by rfl)).trans ?_
      rfl

theorem applyOwner_mem (cls inst f : Nat) : (d.applyOwner cls inst f).mem = d.mem := by
  unfold Dev.applyOwner
  dsimp only
  split <;> split
  · split <;> rfl
  · rfl
  · split <;> rfl
  · rfl

theorem applyOwners_mem : d.applyOwners.mem = d.mem := by
  unfold Dev.applyOwners
  split
  · exact foldl_mem (fun e i => applyOwner_mem e _ _ _) _ d
  · rfl

/-! DRAM and budgets (R456, R459, R460). -/

theorem fence_mem (n : Nat) : (d.fence n).mem = d.mem := by
  unfold Dev.fence
  dsimp only
  rw [smRecord_mem, setEv_mem]
  exact foldl_mem (fun _ _ => by rfl) _ _

theorem stepDown_mem (n q : Nat) : (d.stepDown n q).mem = d.mem := by
  unfold Dev.stepDown
  dsimp only
  rw [smRecord_mem, setEv_mem]
  rfl

theorem needSet_mem (n p : Nat) : (d.needSet n p).mem = d.mem := by
  unfold Dev.needSet
  split <;> rfl

theorem bootBudgets_mem : d.bootBudgets.mem = d.mem := by
  unfold Dev.bootBudgets
  extract_lets a top src d1
  have budgets : d1.mem = d.mem := foldl_mem (fun _ _ => by rfl) _ d
  clear_value d1 top
  split <;> exact budgets

theorem bootLinks_mem : d.bootLinks.mem = d.mem := foldl_mem (fun _ _ => by rfl) _ d

/-- The channels are brought up or fenced in turn (R460). -/
theorem bootDram_mem (env : BootEnv) : (d.bootDram env).mem = d.mem := by
  unfold Dev.bootDram
  extract_lets a probe dram cfg all d1 fits bring boot d4
  have brought (e : Dev) (n : Nat) : (bring e n).mem = e.mem := by
    have trained (c : Bool) (b : Boot) : (if c then { e with boot := b } else e).mem = e.mem := by cases c <;> rfl
    dsimp only [bring]
    clear_value fits all
    split
    · rfl
    · split
      · exact fence_mem e n
      · split
        · exact (fence_mem _ n).trans (trained _ _)
        · have up (c : Bool) (b : Boot) (x : Chan) (l : List Nat) :
              (l.foldl (fun d x => d.needSet n x) ((if c then { e with boot := b } else e).setChan n x)).mem = e.mem :=
            (foldl_mem (fun d x => needSet_mem d n x) l _).trans (trained c b)
          split
          · exact up _ _ _ _
          · exact (stepDown_mem _ n _).trans (up _ _ _ _)
  have started : (if all then { d1 with boot := { d1.boot with trainAll := true } } else d1).mem = d.mem := by cases all <;> rfl
  have channels : d4.mem = d.mem := (foldl_mem brought _ _).trans started
  clear_value d4
  exact channels

end
end Sys2Proof.Machine
end

section
/-! A boot keeps the list of memory's bytes, and so does the end of a command whose update step comes at no boundary (R456, R502). -/

namespace Sys2Proof.Machine
section
variable (d : Dev)

/-! Pipes, touch channels and operating points (R263, R311, R420, R461). -/

theorem publishWords_mem (cls inst : Nat) (ws : List Nat) : (d.publishWords cls inst ws).mem = d.mem := by
  refine foldl_mem (fun e w => ?_) ws d
  dsimp only
  split <;> rfl

theorem timingStatus_mem (p : Nat) : (d.timingStatus p).mem = d.mem := by simp only [Dev.timingStatus, Dev.setLive_mem]

theorem layoutStatus_mem (p : Nat) : (d.layoutStatus p).mem = d.mem := by simp only [Dev.layoutStatus, Dev.setLive_mem]

theorem cvuStatus_mem (u : Nat) : (d.cvuStatus u).mem = d.mem := by simp only [Dev.cvuStatus, Dev.setLive_mem]

theorem publishPipe_mem (p : Nat) : (d.publishPipe p).mem = d.mem := by
  unfold Dev.publishPipe
  extract_lets d1 d2 d3 d4 d5
  have m1 : d1.mem = d.mem := (layoutStatus_mem _ p).trans (timingStatus_mem d p)
  have m2 : d2.mem = d.mem := ((publishWords_mem _ _ _ _).trans (publishWords_mem _ _ _ _)).trans m1
  have m3 : d3.mem = d.mem := (foldl_mem (fun e s => publishWords_mem e _ _ _) _ d2).trans m2
  have m4 : d4.mem = d.mem := (foldl_mem (fun e v => publishWords_mem e _ _ _) _ d3).trans m3
  have m5 : d5.mem = d.mem := by
    refine (foldl_mem (fun e z => ?_) _ d4).trans m4
    split
    · exact publishWords_mem e _ _ _
    · rfl
  refine (foldl_mem (fun e u => ?_) _ d5).trans m5
  split
  · exact (publishWords_mem _ _ _ _).trans (cvuStatus_mem e u)
  · rfl

theorem occur_mem (kind param : Nat) : (d.occur kind param).mem = d.mem := rfl

theorem portStart_mem (q : Nat) : (d.portStart q).mem = d.mem := rfl

theorem pipeStart_mem (p : Nat) : (d.pipeStart p).mem = d.mem := by
  unfold Dev.pipeStart
  dsimp only
  rw [occur_mem, pipeEvent_mem, portStart_mem, Dev.setPt_mem]

theorem published_mem (e : Dev) : (d.published e).mem = e.mem := by
  unfold Dev.published
  split <;> rfl

theorem touchBegin_mem (c : Nat) : (d.touchBegin c).mem = d.mem := by
  unfold Dev.touchBegin
  dsimp only
  split
  · split <;> rfl
  · rfl

theorem bootStart_mem : d.bootStart.mem = d.mem := by
  unfold Dev.bootStart
  extract_lets on d1 d2
  have m1 : d1.mem = d.mem := by
    refine (published_mem _ _).trans ((foldl_mem (fun e p => publishPipe_mem e p) _ _).trans ?_)
    exact foldl_mem (fun e p => pipeStart_mem e p) _ d
  have m2 : d2.mem = d.mem := (foldl_mem touchBegin_mem _ _).trans ((bootLinks_mem d1).trans m1)
  clear_value d2
  exact m2

theorem requestSpeeds_mem : d.requestSpeeds.mem = d.mem := by
  refine foldl_mem (fun e g => ?_) _ d
  split
  · split <;> rfl
  · rfl

theorem opFinish_mem : d.opFinish.mem = d.mem := by
  unfold Dev.opFinish
  split <;> rfl

theorem opLower_mem : d.opLower.mem = d.mem := by
  unfold Dev.opLower
  split
  · rfl
  · extract_lets low
    split
    · exact opFinish_mem _
    · rfl

theorem opContinue_mem : d.opContinue.mem = d.mem := by
  unfold Dev.opContinue
  split
  · rfl
  · split
    · exact opLower_mem d
    · rfl

theorem opRaised_mem : d.opRaised.mem = d.mem := by
  unfold Dev.opRaised
  split
  · rfl
  · exact (opContinue_mem _).trans (requestSpeeds_mem _)

theorem opCheck_mem : d.opCheck.mem = d.mem := by
  unfold Dev.opCheck
  extract_lets p t up
  split
  · rfl
  · split
    · exact opRaised_mem _
    · rfl

/-! The boot sequence, and the end of a command. -/

theorem bootRun_mem (env : BootEnv) : (d.bootRun env).mem = d.mem := by
  unfold Dev.bootRun
  extract_lets board d0 firstB firstOk otherOk slotB header b0 b1 t1 d1 d2 bound t2 d3
  have m0 : d0.mem = d.mem := rfl
  have m2 : d2.mem = d.mem := (bootDram_mem _ env).trans (applyItems_mem d1)
  have m3 : d3.mem = d.mem := ((applyOwners_mem _).trans (bootBudgets_mem d2)).trans m2
  clear_value d0 d3 b1 t1 t2
  split
  · exact m0
  · split
    · exact (bootLinks_mem _).trans m0
    · exact (opCheck_mem _).trans ((bootStart_mem _).trans m3)

theorem resetAndBoot_mem (env : BootEnv) : (d.resetAndBoot env).mem = d.mem := bootRun_mem d.deviceReset env

end

theorem settle_mem {d : Dev} (step : d.update.step = 0) : d.settle.mem = d.mem := by
  unfold Dev.settle
  rw [if_pos step]
  extract_lets d0 src d1
  have m1 : d1.mem = d.mem := by
    dsimp only [d1]
    split
    · exact freezeRequest_mem _ 2
    · rfl
  split
  · exact (resetAndBoot_mem _ _).trans m1
  · exact m1

/-- A command of a steady machine that leaves the update engine's step to be made at no boundary ends with what follows at once. -/
theorem becomes_settled {i : Instr} {s : State} {who : Nat × Nat} {h : Dev → Dev} {d : Dev} (x : exec i s = runFrom who h s) (k : s.Steady)
    (hd : h s.dev = d) (mem : d.mem = s.dev.mem) (step : d.update.step = 0) : Becomes i s d.settle := by
  refine ⟨commit who s d.settle, by rw [x, runFrom_next, hd], rfl, rfl, fun a => ?_, ⟨who, rfl⟩, rfl⟩
  exact cellGet_commit k.2 ((settle_mem step).trans mem) who a

end Sys2Proof.Machine
end

section
/-! Vitrine writes: their checks, their pages, and what they end with (R252 to R254, R377). -/

namespace Sys2Proof.Machine

/-! Reports to the safety manager. -/

/-- What a report to the safety manager leaves: memory and the update engine are as they were. -/
def Reported (d e : Dev) : Prop := e.mem = d.mem ∧ e.update = d.update

theorem Reported.trans {d e r : Dev} (h : Reported d e) (k : Reported e r) : Reported d r := ⟨k.1.trans h.1, k.2.trans h.2⟩

theorem EndsAlike.reported {d e : Dev} (h : EndsAlike d e) : Reported d e := ⟨h.1, h.2.1⟩

/-- A command of a steady machine that may report to the safety manager ends with what that decides (R502). -/
theorem becomes_reported {i : Instr} {s : State} {who : Nat × Nat} {h : Dev → Dev} {d : Dev} (x : exec i s = runFrom who h s) (k : s.Steady)
    (hd : h s.dev = d) (m : Reported s.dev d) : Becomes i s d.settle :=
  becomes_settled x k hd m.1 (by rw [m.2]; exact k.1.2.1)

section
variable (d : Dev) (u : Nat)

theorem smRecord_reported (cls : Nat) (locus : W72) (fn : Option Nat) (a b : Nat) : Reported d (d.smRecord cls locus fn a b) := by
  refine ⟨smRecord_mem d cls locus fn a b, ?_⟩
  unfold Dev.smRecord
  dsimp only
  split <;> rfl

theorem cvuReport_reported (cls a b : Nat) : Reported d (d.cvuReport u cls a b) := by
  unfold Dev.cvuReport
  split
  · exact smRecord_reported d _ _ _ _ _
  · exact ⟨rfl, rfl⟩

theorem judgeOnce_reported (v : Nat) : Reported d (d.judgeOnce u v).1 := by
  have set (x : Cvu) : Reported d (d.setCvu u x) := ⟨rfl, rfl⟩
  unfold Dev.judgeOnce
  dsimp only
  split
  · exact ⟨rfl, rfl⟩
  · split
    · exact (set _).trans (smRecord_reported _ _ _ _ _ _)
    · split
      · exact ⟨rfl, rfl⟩
      · exact (set _).trans (cvuReport_reported _ u _ _ _)

theorem Dev.cvu_setCvu_same (x : Cvu) : (d.setCvu u x).cvu u = x := tget_tset_same _ _ _ _

theorem cvuFinal_refBad (v tag : Nat) (active : Bool) : ((d.cvuFinal u v tag active).cvu u).refBad = (d.cvu u).refBad := by
  rw [Dev.cvuFinal, Dev.cvu_setCvu_same]

end

/-! Operations that end on a fault of memory (R66). -/

section
variable (d : Dev) (id : OpId) (f cause va : Nat)

theorem opFault_endsAlike : EndsAlike d (d.opFault id f cause va) := (accessFault_endsAlike d _ _ _ _).trans (finish_endsAlike _ _ _ _)

theorem opFault_comp : (d.opFault id f cause va).comp = d.comp := by
  have fault := accessFault_signalled d f cause srcEngine (ringKind id.ring.val) va
  exact (congrArg Dev.comp fault.1 :)

variable {d id} in
theorem opFault_op {o : Op} (held : d.op id = some o) : (d.opFault id f cause va).op id = some (o.ended (causeStatus cause).toNat none) :=
  Dev.op_finish_same ((accessFault_op d f cause _ va id).trans held) _ _

end

/-! Pages of the Vitrine. -/

/-- A value put at every key of a list stands at each of them. -/
theorem tget_foldl_tset {α : Type} {key : Nat → Nat} {v e : α} {a : Nat} {l : List Nat} (t : Tab α) (h : a ∈ l ∨ tget t (key a) e = v) :
    tget (l.foldl (fun m a => tset m (key a) v) t) (key a) e = v := by
  induction l generalizing t with
  | nil => exact h.resolve_left List.not_mem_nil
  | cons b r ih =>
    refine ih _ ?_
    rw [tget_tset]
    by_cases same : key b = key a
    · exact .inr (if_pos same)
    · rw [if_neg same]
      exact h.imp_left (fun mem => (List.mem_cons.mp mem).resolve_left (fun e => same (congrArg key e.symm)))

theorem markPages_page {d : Dev} {st : BitVec 2} {l : List (Nat × Nat × Nat)} {x : Nat × Nat × Nat} (mem : x ∈ l) :
    tget (d.markPages st (l.map (fun x => x.2.1))).comp.pages ((x.2.1 - vitrineBase) / 4096) 0 = st :=
  tget_foldl_tset (key := fun a => (a - vitrineBase) / 4096) _ (.inl (List.mem_map_of_mem mem))

theorem markPages_stored (d : Dev) (st : BitVec 2) (pas : List Nat) : Stored d (d.markPages st pas) := rfl

/-! The checks and the data of a VITRINE_WRITE. -/

theorem vitrineCheck_fetched {d d1 : Dev} {o : Op} {u : Nat} {t : List (Nat × Nat × Nat)} (h : d.vitrineCheck o = (d1, some (u, t))) : Fetched d d1 := by
  unfold Dev.vitrineCheck at h
  have walk := translateAll_fetched (vitrineDest o.desc) d o.fn .vitrine
  dsimp only at h
  split at h
  · cases h
  · split at h
    · cases h
    · split at h
      · cases h
      · rename_i translated
        rw [translated] at walk
        split at h
        · cases h
        · cases h
          exact walk

theorem arrive_stored (c : Crc) (f : Nat) (l : List (Nat × Nat × Nat)) (d : Dev) (src r : Nat) : Stored d (d.arrive c f src l r).1 := by
  induction l generalizing d src r with
  | nil => exact .refl d
  | cons x rest ih =>
    obtain ⟨va, pa, n⟩ := x
    have read := (readV_fetched d f (src % 2 ^ 48) 4096 .read).stored
    unfold Dev.arrive
    split
    next e => rw [e] at read; exact read
    next d1 b e =>
      rw [e] at read
      have poke : Stored d1 (d1.poke pa b) := rfl
      exact (read.trans poke).trans (ih _ _ _)

/-- One page that arrives: it is copied, and folded into the value (R371, R373). -/
theorem arrive_page {d d1 : Dev} {c : Crc} {f src r va pa : Nat} {b : List Byte} (read : d.readV f (src % 2 ^ 48) 4096 .read = (d1, .ok b)) :
    d.arrive c f src [(va, pa, 4096)] r = (d1.poke pa b, .ok (c.segment r va b)) := by
  simp only [Dev.arrive, read]

theorem vitrineStart_endsAlike (d : Dev) (id : OpId) : EndsAlike d (d.vitrineStart id) := by
  unfold Dev.vitrineStart
  split
  · exact .refl d
  · split
    · exact .refl d
    · split
      next u t check =>
        exact (vitrineCheck_fetched check).endsAlike.trans (.refl _)
      · exact .refl d

/-- The pages of a VITRINE_WRITE are PENDING from its start on (R253). -/
theorem vitrineStart_pending {d d1 : Dev} {id : OpId} {o : Op} {u : Nat} {t : List (Nat × Nat × Nat)} (held : d.activeOp id 3 1 = some o)
    (go : d.vitrineWaits o = false) (check : d.vitrineCheck o = (d1, some (u, t))) {x : Nat × Nat × Nat} (mem : x ∈ t) :
    tget (d.vitrineStart id).comp.pages ((x.2.1 - vitrineBase) / 4096) 0 = 1 := by
  have starts : d.vitrineStart id = (d1.markPages 1 (t.map (fun x => x.2.1))).updOp id (fun x => { x with stage := u + 1 }) := by
    simp [Dev.vitrineStart, held, go, check]
  rw [starts]
  exact markPages_page mem

/-- The start of a VITRINE_WRITE reads its descriptor (R66). -/
theorem engineOpStart_vitrine {s : State} {id : OpId} {o : Op} {d1 : Dev} {ws : List W72} (k : s.Steady) (held : s.dev.op id = some o)
    (released : o.phase = .released) (gen : o.gen = (s.dev.fn o.fn).gen) (target : o.target = 3) (kind : o.kind = 1) (len : o.len = 4)
    (runs : s.dev.runs 5 = true) (read : s.dev.readWords o.fn o.addr.toNat 4 .read = (d1, .ok ws)) :
    Becomes (.engineOpStart id) s ((d1.updOp id (fun o => { o with phase := .started, desc := ws })).vitrineStart id) := by
  have fetched := readWords_fetched s.dev o.fn o.addr.toNat 4 .read
  rw [read] at fetched
  refine becomes_runOp (show execEngineOpStart id s = _ by unfold execEngineOpStart; rfl) k ?_
    (fetched.endsAlike.trans (EndsAlike.trans (.refl _) (vitrineStart_endsAlike _ id)))
  simp [held, released, Dev.current, gen, target, kind, len, read, targetBlock, shareClass, opLengthOk, runs]

/-! The end of a VITRINE_WRITE. -/

theorem Is.op {d e : Dev} (h : Is d e) (id : OpId) : e.op id = d.op id := by
  obtain ⟨-, -, -, frame⟩ := h
  exact (congrArg (fun x : Dev => x.op id) frame :)

theorem Is.comp {d e : Dev} (h : Is d e) : e.comp = d.comp := by
  obtain ⟨-, -, -, frame⟩ := h
  exact (congrArg Dev.comp frame :)

/-- A VITRINE_WRITE that must wait changes nothing (R254, R377). -/
theorem vitrineWrite_waits {s : State} {id : OpId} {o : Op} (w : Works s id 3 1 5 o) (waits : s.dev.vitrineWaits o = true) : Becomes (.vitrineWrite id) s s.dev := by
  obtain ⟨steady, held, runs⟩ := w
  exact becomes_runOp (show execVitrineWrite id s = _ by unfold execVitrineWrite; rfl) steady (by simp [held, waits]) (.refl _)

/-- The device once the data of a VITRINE_WRITE have arrived. -/
theorem arrived_stored {d d1 d2 : Dev} {o : Op} {u : Nat} {t : List (Nat × Nat × Nat)} (check : d.vitrineCheck o = (d1, some (u, t))) {x : Except (Nat × Nat) Nat}
    (arrived : (d1.markPages 1 (t.map (fun x => x.2.1))).arrive (d1.crcOf u) o.fn (fld (o.word 1) 0 48) t (d1.crcOf u).init = (d2, x)) : Stored d d2 := by
  have stored := arrive_stored (d1.crcOf u) o.fn t (d1.markPages 1 (t.map (fun x => x.2.1))) (fld (o.word 1) 0 48) (d1.crcOf u).init
  rw [arrived] at stored
  exact ((vitrineCheck_fetched check).stored.trans (markPages_stored d1 1 _)).trans stored

section
variable {s : State} {id : OpId} {o : Op} {d1 d2 : Dev} {u : Nat} {t : List (Nat × Nat × Nat)} (w : Works s id 3 1 5 o)
  (runs6 : s.dev.runs 6 = true) (go : s.dev.vitrineWaits o = false) (check : s.dev.vitrineCheck o = (d1, some (u, t)))
include w runs6 go check

/-- The value decides whether the pages are CHECKED or BAD, and a mismatch is reported (R252, R253, R377). -/
theorem vitrineWrite_ends {r v : Nat}
    (arrived : (d1.markPages 1 (t.map (fun x => x.2.1))).arrive (d1.crcOf u) o.fn (fld (o.word 1) 0 48) t (d1.crcOf u).init = (d2, .ok r))
    (hv : v = (d1.crcOf u).value r) (ref : (d2.cvu u).refBad = false) :
    (v = fld (o.word 3) 0 64 →
      Becomes (.vitrineWrite id) s (((d2.cvuFinal u v ((d2.cvu u).tag.toNat + 1) false).markPages 2 (t.map (fun x => x.2.1))).finish id 0 (some v))) ∧
    (v ≠ fld (o.word 3) 0 64 → ∀ d3 : Dev, d3 = d2.cvuFinal u v ((d2.cvu u).tag.toNat + 1) false →
      Becomes (.vitrineWrite id) s ((((d3.setCvu u { d3.cvu u with mismatches := satInc (d3.cvu u).mismatches }).smRecord 0x14 (locusEngine 0x09 u) (some o.fn) v
        (fld (o.word 3) 0 64)).markPages 3 (t.map (fun x => x.2.1))).finish id 0x22 (some v)).settle) := by
  have alike := (arrived_stored check arrived).endsAlike
  have good := (cvuFinal_refBad d2 u v ((d2.cvu u).tag.toNat + 1) false).trans ref
  obtain ⟨steady, held, runs⟩ := w
  subst hv
  refine ⟨fun same => ?_, fun differs d3 hd => ?_⟩
  · refine becomes_runOp (show execVitrineWrite id s = _ by unfold execVitrineWrite; rfl) steady ?_ (alike.trans (.refl _))
    simp only [held, runs, runs6, go, check, arrived, Dev.cvuCount, good, Bool.not_true, Bool.or_self, Bool.false_eq_true, if_false]
    exact if_pos same
  · subst hd
    refine becomes_reported (show execVitrineWrite id s = runOp id _ s by unfold execVitrineWrite; rfl) steady ?_
      (alike.reported.trans (Reported.trans (e := _) ⟨rfl, rfl⟩ (smRecord_reported _ _ _ _ _ _)))
    simp only [held, runs, runs6, go, check, arrived, Dev.cvuCount, good, Bool.not_true, Bool.or_self, Bool.false_eq_true, if_false]
    exact if_neg differs

/-- A copy that faults leaves the pages BAD (R254). -/
theorem vitrineWrite_faults {cause va : Nat}
    (arrived : (d1.markPages 1 (t.map (fun x => x.2.1))).arrive (d1.crcOf u) o.fn (fld (o.word 1) 0 48) t (d1.crcOf u).init = (d2, .error (cause, va))) :
    Does (.vitrineWrite id) s (fun e => (e.op id).map (fun x => (x.phase, x.status)) = some (.finished, causeStatus cause) ∧
      ∀ x ∈ t, tget e.comp.pages ((x.2.1 - vitrineBase) / 4096) 0 = 3) := by
  have stored := arrived_stored check arrived
  have marked : EndsAlike d2 (d2.markPages 3 (t.map (fun x => x.2.1))) := (markPages_stored d2 3 _).endsAlike
  have op : (d2.markPages 3 (t.map (fun x => x.2.1))).op id = some o := (congrArg (fun x : Dev => x.op id) stored :).trans w.op
  obtain ⟨steady, held, runs⟩ := w
  have ends : Becomes (.vitrineWrite id) s ((d2.markPages 3 (t.map (fun x => x.2.1))).opFault id o.fn cause va) := by
    refine becomes_runOp (show execVitrineWrite id s = _ by unfold execVitrineWrite; rfl) steady ?_
      ((stored.endsAlike.trans marked).trans (opFault_endsAlike _ _ _ _ _))
    simp only [held, runs, runs6, go, check, arrived, Bool.not_true, Bool.or_self, Bool.false_eq_true, if_false]
  refine ends.imp (fun e is => ⟨?_, fun x mem => ?_⟩)
  · rw [is.op, opFault_op _ _ _ op]
    simp [Op.ended]
  · rw [is.comp, opFault_comp]
    exact markPages_page mem

end

end Sys2Proof.Machine
end

section
/-! COPY and FILL, and the writes and moves that are settled (R366, R371, R410 to R412). -/

namespace Sys2Proof.Machine

/-! Lines. -/

theorem fld_lt {w : Nat} (x : BitVec w) (lo n : Nat) : fld x lo n < 2 ^ n := Nat.mod_lt _ (Nat.two_pow_pos n)

/-- A row that lies in one line of its destination is one piece. -/
theorem Dma.lines_one {m : Dma} (rows : m.rows = 1) (some_ : m.bytes ≠ 0) (fits : m.bytes ≤ 64 - m.dest % 64) : m.lines = [(0, 0, m.bytes)] := by
  have piece : Nat.min m.bytes (64 - m.dest % 64) = m.bytes := Nat.min_eq_left fits
  have pieces : linePieces (m.bytes / 64 + 2) m.dest 0 m.bytes = [(0, m.bytes)] := by
    simp [linePieces, some_, piece]
  simp [Dma.lines, rows, pieces]

/-- The first row's first piece starts at the row's own address (R411). -/
theorem firstPiece_addr {a p : Nat} (h : a < 2 ^ 48) : (a + 0 * p + 0) % 2 ^ 48 = a := by
  rw [Nat.zero_mul, Nat.add_zero, Nat.mod_eq_of_lt h]

/-- A byte of FILL's pattern (R410). -/
theorem patternByte_eq (x i : Nat) : BitVec.ofNat 8 (bitsN x (8 * (i % 9)) 8) = BitVec.ofNat 8 (x / 256 ^ (i % 9)) := by
  apply BitVec.eq_of_toNat_eq
  simp [bitsN, Nat.shiftRight_eq_div_pow, Nat.pow_mul]

section
variable {f : Nat} {m : Dma} {c : Crc} {reg : Nat} {d d1 d2 : Dev} {b : List Byte}

theorem dmaMove_stored (copy : Bool) (f : Nat) (m : Dma) (c : Crc) (l : List (Nat × Nat × Nat)) (d : Dev) (reg : Nat) :
    Stored d (d.dmaMove copy f m c l reg).1 := by
  induction l generalizing d reg with
  | nil => exact .refl d
  | cons x rest ih =>
    obtain ⟨r, off, n⟩ := x
    have write (e : Dev) (b : List Byte) (stored : Stored d e) : Stored d (match e.writeV f ((m.dest + r * m.dstPitch + off) % 2 ^ 48) b with
        | (d2, .error e) => ((d2, .error e) : Dev × Except (Nat × Nat) Nat)
        | (d2, .ok _) => d2.dmaMove copy f m c rest (c.bytes reg b)).1 := by
      have written := writeVia_stored e f ((m.dest + r * m.dstPitch + off) % 2 ^ 48) b true
      split
      next h => rw [show e.writeVia .. = _ from h] at written; exact stored.trans written
      next h => rw [show e.writeVia .. = _ from h] at written; exact (stored.trans written).trans (ih _ _)
    unfold Dev.dmaMove
    dsimp only
    cases copy
    · exact write d _ (.refl d)
    · have read := (readV_fetched d f ((m.source + r * m.srcPitch + off) % 2 ^ 48) n .read).stored
      simp only [if_true]
      split
      next h => rw [h] at read; exact read
      next h => rw [h] at read; exact write _ _ read

variable (rows : m.rows = 1) (some_ : m.bytes ≠ 0) (fits : m.bytes ≤ 64 - m.dest % 64) (dest : m.dest < 2 ^ 48)
include rows some_ fits dest

theorem dmaMove_copy_line (source : m.source < 2 ^ 48) (read : d.readV f m.source m.bytes .read = (d1, .ok b)) (write : d1.writeV f m.dest b = (d2, .ok ())) :
    d.dmaMove true f m c m.lines reg = (d2, .ok (c.bytes reg b)) := by
  rw [Dma.lines_one rows some_ fits]
  simp only [Dev.dmaMove, firstPiece_addr source, firstPiece_addr dest, if_true, read, write]

theorem dmaMove_fill_line
    (write : d.writeV f m.dest ((List.range m.bytes).map (fun i => BitVec.ofNat 8 (m.pattern.toNat / 256 ^ (i % 9)))) = (d2, .ok ())) :
    ∃ r, d.dmaMove false f m c m.lines reg = (d2, .ok r) := by
  rw [Dma.lines_one rows some_ fits]
  simp only [Dev.dmaMove, firstPiece_addr dest, Bool.false_eq_true, if_false, Nat.zero_add, patternByte_eq, write]
  exact ⟨_, rfl⟩

end

/-! The checks. -/

section
variable {d : Dev} {o : Op} {copy : Bool}

theorem dmaStop_range (bad : dmaOk copy o.desc = false) : d.dmaStop copy o = some 0x10 := by simp [Dev.dmaStop, bad]

theorem dmaStop_plain (ok : dmaOk copy o.desc = true) (plain : (dmaOf o.desc).unit = none) : d.dmaStop copy o = none := by simp [Dev.dmaStop, ok, plain]

/-- A unit named must be its function's own (R412). -/
theorem dmaStop_unit {u : Nat} (ok : dmaOk copy o.desc = true) (named : (dmaOf o.desc).unit = some u) (on : d.cvuOn u = true) (tap : d.cvuTap u = 0x30) :
    d.dmaStop copy o = if d.owner 0x0A u = o.fn then none else some 0x11 := by
  simp only [Dev.dmaStop, ok, named, on, tap]
  simp only [ne_eq, ite_not]
  rfl

theorem dmaOk_of_dmaStop (go : d.dmaStop copy o = none) : dmaOk copy o.desc = true := by
  by_contra bad
  rw [dmaStop_range (Bool.eq_false_iff.mpr bad)] at go
  cases go

theorem dmaOk_bytes {l : List W72} (ok : dmaOk copy l = true) : (dmaOf l).bytes ≠ 0 := by
  simp only [dmaOk, Bool.and_eq_true] at ok
  obtain ⟨⟨⟨⟨⟨-, bytes⟩, -⟩, -⟩, -⟩, -⟩ := ok
  exact of_decide_eq_true bytes

end

/-! The operations. -/

section
variable {d d1 : Dev} {copy : Bool} {o : Op} {r : Nat} (runs : d.runs 5 = true)
include runs

theorem dma_stops {st : Nat} (go : d.dmaWaits o = false) (stop : d.dmaStop copy o = some st) : d.dma copy o = d.finish o.id st none := by
  simp [Dev.dma, runs, go, stop]

variable (ok : d.dmaStop copy o = none)
include ok

/-- A move without a unit ends with no value (R411). -/
theorem dma_moves (plain : (dmaOf o.desc).unit = none)
    (moved : d.dmaMove copy o.fn (dmaOf o.desc) (crcPreset 0) (dmaOf o.desc).lines 0 = (d1, .ok r)) : d.dma copy o = d1.finish o.id 0 none := by
  simp [Dev.dma, runs, Dev.dmaWaits, ok, plain, moved]

/-- A move under a unit ends with the value of the bytes moved (R371, R412). -/
theorem dma_folds {u : Nat} (go : d.dmaWaits o = false) (named : (dmaOf o.desc).unit = some u)
    (moved : d.dmaMove copy o.fn (dmaOf o.desc) (d.crcOf u) (dmaOf o.desc).lines (d.dmaStart o (dmaOf o.desc) u) = (d1, .ok r)) {v : Nat}
    (hv : v = (d.crcOf u).value r) :
    d.dma copy o = ((d1.cvuFinal u v ((d1.cvu u).tag.toNat + 1) false).judgeOnce u v).1.finish o.id
      (if ((d1.cvuFinal u v ((d1.cvu u).tag.toNat + 1) false).judgeOnce u v).2 then 0 else 0x22) (some v) := by
  subst hv
  simp only [Dev.dma, runs, go, ok, named, moved, Dev.cvuCount, Bool.not_true, Bool.or_self, Bool.false_eq_true, if_false]
  rfl

end

section
variable {s : State} {id : OpId} {o : Op} {d : Dev}

theorem copy_becomes (w : Works s id 2 1 5 o) (step : s.dev.dma true o = d) (m : EndsAlike s.dev d) : Becomes (.copy id) s d := by
  obtain ⟨steady, held, -⟩ := w
  exact becomes_runOp (show execCopy id s = _ by unfold execCopy; rfl) steady (by simp only [held, step]) m

theorem fill_becomes (w : Works s id 2 2 5 o) (step : s.dev.dma false o = d) (m : EndsAlike s.dev d) : Becomes (.fill id) s d := by
  obtain ⟨steady, held, -⟩ := w
  exact becomes_runOp (show execFill id s = _ by unfold execFill; rfl) steady (by simp only [held, step]) m

/-- A DMA operation that its checks refuse (R410 to R412). -/
theorem dma_refused {st : Nat} (go : s.dev.dmaWaits o = false) :
    (Works s id 2 1 5 o → s.dev.dmaStop true o = some st → Becomes (.copy id) s (s.dev.finish id st none)) ∧
    (Works s id 2 2 5 o → s.dev.dmaStop false o = some st → Becomes (.fill id) s (s.dev.finish id st none)) := by
  refine ⟨fun w stop => ?_, fun w stop => ?_⟩
  · exact copy_becomes w (w.op_id ▸ dma_stops w.2.2 go stop) (.refl _)
  · exact fill_becomes w (w.op_id ▸ dma_stops w.2.2 go stop) (.refl _)

theorem dmaMoved_endsAlike {copy : Bool} {f : Nat} {m : Dma} {c : Crc} {l : List (Nat × Nat × Nat)} {reg r : Nat} {d1 : Dev}
    (moved : s.dev.dmaMove copy f m c l reg = (d1, .ok r)) : EndsAlike s.dev d1 := by
  have stored := dmaMove_stored copy f m c l s.dev reg
  rw [moved] at stored
  exact stored.endsAlike

/-- COPY and FILL without a unit (R411). -/
theorem dma_plain {m : Dma} {d1 : Dev} {r : Nat} (hm : m = dmaOf o.desc) (plain : m.unit = none) :
    (Works s id 2 1 5 o → s.dev.dmaStop true o = none → s.dev.dmaMove true o.fn m (crcPreset 0) m.lines 0 = (d1, .ok r) →
      Becomes (.copy id) s (d1.finish id 0 none)) ∧
    (Works s id 2 2 5 o → s.dev.dmaStop false o = none → s.dev.dmaMove false o.fn m (crcPreset 0) m.lines 0 = (d1, .ok r) →
      Becomes (.fill id) s (d1.finish id 0 none)) := by
  subst hm
  refine ⟨fun w ok moved => ?_, fun w ok moved => ?_⟩
  · exact copy_becomes w (w.op_id ▸ dma_moves w.2.2 ok plain moved) ((dmaMoved_endsAlike moved).trans (finish_endsAlike _ _ _ _))
  · exact fill_becomes w (w.op_id ▸ dma_moves w.2.2 ok plain moved) ((dmaMoved_endsAlike moved).trans (finish_endsAlike _ _ _ _))

/-- COPY under a unit, which gets the value of the bytes moved and may report it (R371, R412). -/
theorem copy_folds {m : Dma} {u r v : Nat} {d1 : Dev} (hm : m = dmaOf o.desc) (named : m.unit = some u) (go : s.dev.dmaWaits o = false)
    (w : Works s id 2 1 5 o) (ok : s.dev.dmaStop true o = none)
    (moved : s.dev.dmaMove true o.fn m (s.dev.crcOf u) m.lines (s.dev.dmaStart o m u) = (d1, .ok r)) (hv : v = (s.dev.crcOf u).value r) :
    Becomes (.copy id) s ((((d1.cvuFinal u v ((d1.cvu u).tag.toNat + 1) false).judgeOnce u v).1.finish id
      (if ((d1.cvuFinal u v ((d1.cvu u).tag.toNat + 1) false).judgeOnce u v).2 then 0 else 0x22) (some v)).settle) := by
  subst hm
  have folds := dma_folds w.2.2 ok go named moved hv
  have judged : Reported d1 ((d1.cvuFinal u v ((d1.cvu u).tag.toNat + 1) false).judgeOnce u v).1 :=
    Reported.trans (e := d1.cvuFinal u v ((d1.cvu u).tag.toNat + 1) false) ⟨rfl, rfl⟩ (judgeOnce_reported _ u v)
  rw [w.op_id] at folds
  obtain ⟨steady, held, -⟩ := w
  exact becomes_reported (show execCopy id s = runOp id _ s by unfold execCopy; rfl) steady (by simp only [held, folds])
    ((dmaMoved_endsAlike moved).reported.trans (judged.trans ⟨rfl, rfl⟩))

/-- One row inside one line of the destination (R411). -/
theorem copy_line {m : Dma} {d1 d2 : Dev} {b : List Byte} (w : Works s id 2 1 5 o) (hm : m = dmaOf o.desc) (ok : s.dev.dmaStop true o = none)
    (plain : m.unit = none) (rows : m.rows = 1) (fits : m.bytes ≤ 64 - m.dest % 64) (read : s.dev.readV o.fn m.source m.bytes .read = (d1, .ok b))
    (write : d1.writeV o.fn m.dest b = (d2, .ok ())) : Becomes (.copy id) s (d2.finish id 0 none) := by
  subst hm
  have bytes := dmaOk_bytes (dmaOk_of_dmaStop ok)
  exact (dma_plain rfl plain).1 w ok (dmaMove_copy_line rows bytes fits (fld_lt _ _ _) (fld_lt _ _ _) read write)

theorem fill_line {m : Dma} {d2 : Dev} (w : Works s id 2 2 5 o) (hm : m = dmaOf o.desc) (ok : s.dev.dmaStop false o = none)
    (plain : m.unit = none) (rows : m.rows = 1) (fits : m.bytes ≤ 64 - m.dest % 64)
    (write : s.dev.writeV o.fn m.dest ((List.range m.bytes).map (fun i => BitVec.ofNat 8 (m.pattern.toNat / 256 ^ (i % 9)))) = (d2, .ok ())) :
    Becomes (.fill id) s (d2.finish id 0 none) := by
  subst hm
  have bytes := dmaOk_bytes (dmaOk_of_dmaStop ok)
  obtain ⟨r, moved⟩ := dmaMove_fill_line (c := crcPreset 0) (reg := 0) rows bytes fits (fld_lt _ _ _) write
  exact (dma_plain rfl plain).2 w ok moved

end

/-- Settles O39: a write by its checks, its data and its value, a move by its checks, its lines and its unit. -/
theorem vitrineAndDataMovement : Obligations.VitrineAndDataMovement := by
  refine ⟨fun s id o d1 d2 u r v t w runs6 go check arrived hv ref => vitrineWrite_ends w runs6 go check arrived hv ref,
    fun s id o d1 d2 u cause va t w runs6 go check arrived => vitrineWrite_faults w runs6 go check arrived,
    fun s id o => vitrineWrite_waits, fun d id o d1 u t held go check x mem => vitrineStart_pending held go check mem,
    fun s id o d1 ws => engineOpStart_vitrine, fun d c f src r va pa d1 b => arrive_page, fun s id o st => dma_refused,
    fun d o copy => ⟨dmaStop_range, dmaStop_plain, fun ok u => dmaStop_unit ok⟩,
    fun s id o m d1 d2 b => copy_line, fun s id o m d2 => fill_line, fun s id o m d1 r => dma_plain, fun s id o m u r v d1 => copy_folds⟩

end Sys2Proof.Machine
end

section
/-! FLIP, MODE_READ, MODE_DEFINE and PORT_MSG (R272, R280 to R284). -/

namespace Sys2Proof.Machine

section
variable {s : State} {id : OpId} {o : Op}

/-- A FLIP of a function that sees the pipe waits for its VBLANK; one out of range ends, and one of a function that does not see it (R280, R281). -/
theorem flip_does {p : Nat} (w : Works s id 4 1 10 o) (hp : p = fld (o.word 0) 0 4) :
    ((fld (o.word 0) 4 68 ≠ 0 ∨ 11 < p) → Becomes (.flip id) s (s.dev.finish id 0x10 none)) ∧
    (fld (o.word 0) 4 68 = 0 → p ≤ 11 → s.dev.seesPipe o.fn p = false → Becomes (.flip id) s (s.dev.finish id 0x11 none)) ∧
    (fld (o.word 0) 4 68 = 0 → p ≤ 11 → s.dev.seesPipe o.fn p = true → (∀ w ∈ s.dev.disp.flips, w.id ≠ id) → Becomes (.flip id) s
      { s.dev with disp := { s.dev.disp with flips := s.dev.disp.flips ++ [{ id := id, fn := o.fn, pipe := p, at_ := o.due, frame := none, late := false }] } }) := by
  obtain ⟨steady, held, runs⟩ := w
  subst hp
  refine ⟨fun bad => ?_, fun zero pipe blind => ?_, fun zero pipe sees new => ?_⟩ <;>
    refine becomes_runFrom (show execFlip id s = _ by unfold execFlip; rfl) steady ?_ (.refl _) <;>
    simp only [held, runs, Bool.not_true, Bool.false_eq_true, if_false]
  · exact if_pos (by simpa using bad)
  · simp [zero, Nat.not_lt.mpr pipe, blind]
  · have fresh : s.dev.disp.flips.any (fun w => w.id = id) = false := by simpa using new
    simp [zero, Nat.not_lt.mpr pipe, sees, fresh]

/-- The words that a MODE_READ stores of an entry: zeros for one that is absent. -/
def modeReadWords (l : List W72) : List W72 := if bit (nth l 0 0) 71 = true then [nth l 0 0, nth l 1 0, nth l 2 0, nth l 3 0] else [0, 0, 0, 0]

theorem writeWords_stored {d d1 : Dev} {f va : Nat} {ws : List W72} {x : Except (Nat × Nat) Unit} (h : d.writeWords f va ws = (d1, x)) : Stored d d1 :=
  writeV_stored h

/-- MODE_READ stores the words of an entry (R282). -/
theorem modeRead_does {l ws : List W72} {d1 : Dev} (w : Works s id 4 2 10 o) :
    ((fld (o.word 0) 10 62 ≠ 0 ∨ fld (o.word 1) 48 24 ≠ 0) → Becomes (.modeRead id) s (s.dev.finish id 0x10 none)) ∧
    (fld (o.word 0) 10 62 = 0 → fld (o.word 1) 48 24 = 0 → s.dev.modeEntry (fld (o.word 0) 0 10) = l → ws = modeReadWords l →
      (s.dev.writeWords o.fn (fld (o.word 1) 0 48) ws = (d1, .ok ()) → Becomes (.modeRead id) s (d1.finish id 0 none)) ∧
      (∀ cause va, s.dev.writeWords o.fn (fld (o.word 1) 0 48) ws = (d1, .error (cause, va)) → Becomes (.modeRead id) s (d1.opFault id o.fn cause va))) := by
  obtain ⟨steady, held, runs⟩ := w
  have words : (List.range 4).map (fun i => nth l i 0) = [nth l 0 0, nth l 1 0, nth l 2 0, nth l 3 0] := rfl
  refine ⟨fun bad => ?_, fun low high entry hws => ?_⟩
  · refine becomes_runFrom (show execModeRead id s = _ by unfold execModeRead; rfl) steady ?_ (.refl _)
    simp only [held, runs, Bool.not_true, Bool.false_eq_true, if_false]
    exact if_pos (by simpa using bad)
  · subst hws entry
    refine ⟨fun stored => ?_, fun cause va failed => ?_⟩
    · refine becomes_runFrom (show execModeRead id s = _ by unfold execModeRead; rfl) steady ?_ (writeWords_stored stored).endsAlike
      simp only [held, runs, Bool.not_true, Bool.false_eq_true, if_false]
      refine (if_neg (by simp [low, high])).trans ?_
      rw [modeReadWords, ← words] at stored
      rw [stored]
    · refine becomes_runFrom (show execModeRead id s = _ by unfold execModeRead; rfl) steady ?_
        ((writeWords_stored failed).endsAlike.trans (opFault_endsAlike d1 _ _ _ _))
      simp only [held, runs, Bool.not_true, Bool.false_eq_true, if_false]
      refine (if_neg (by simp [low, high])).trans ?_
      rw [modeReadWords, ← words] at failed
      rw [failed]

/-- MODE_DEFINE takes the entry of the manager into the range of the defined modes (R272, R280, R283). -/
theorem modeDefine_does {m : Nat} (w : Works s id 4 3 10 o) (hm : m = fld (o.word 0) 0 10) :
    (o.fn ≠ s.dev.manager → Becomes (.modeDefine id) s (s.dev.finish id 0x11 none)) ∧
    (o.fn = s.dev.manager → (definedEntry o = none ∨ m < 0x240 ∨ 0x280 ≤ m ∨ s.dev.modeNamed m = true ∨ fld (o.word 0) 10 60 ≠ 0) →
      Becomes (.modeDefine id) s (s.dev.finish id 0x10 none)) ∧
    (o.fn = s.dev.manager → 0x240 ≤ m → m < 0x280 → s.dev.modeNamed m = false → fld (o.word 0) 10 60 = 0 → ∀ l, definedEntry o = some l →
      (timingOf l).ok = true → Becomes (.modeDefine id) s
        (({ s.dev with disp := { s.dev.disp with modes := tset s.dev.disp.modes m l } } : Dev).finish id 0 (some (timingOf l).pclk))) := by
  obtain ⟨steady, held, runs⟩ := w
  subst hm
  refine ⟨fun other => ?_, fun own bad => ?_, fun own lo hi unnamed zero l entry ok => ?_⟩ <;>
    refine becomes_runFrom (show execModeDefine id s = _ by unfold execModeDefine; rfl) steady ?_ (.refl _) <;>
    simp only [held, runs, Bool.not_true, Bool.false_eq_true, if_false]
  · exact if_pos other
  · rw [if_neg (not_not.mpr own)]
    cases entry : definedEntry o with
    | none => rfl
    | some l =>
      have rest := bad.resolve_left (by simp [entry])
      refine if_pos ?_
      rcases rest with h | h | h | h <;> simp [h]
  · rw [if_neg (not_not.mpr own), entry]
    exact if_neg (by simp [zero, Nat.not_lt.mpr lo, Nat.not_le.mpr hi, ok, unnamed])

end

/-! PORT_MSG. -/

section
variable {s : State} {id : OpId} {o : Op} {q : Nat}

/-- A message sent now, whose retries are all left (R284). -/
def Dev.sendMsg (d : Dev) (id : OpId) : Dev := { d with disp := { d.disp with msgs := d.disp.msgs ++ [(id, d.now, 7)] } }

/-- What PORT_MSG does. -/
def Dev.portMsg (d : Dev) (id : OpId) : Dev :=
  match d.activeOp id 4 4 with
  | none => d
  | some o =>
    let q := fld (o.word 0) 64 4
    let busy := d.disp.msgs.any (fun m => match d.op m.1 with | some x => fld (x.word 0) 64 4 = q | none => false)
    if !d.runs 10 || d.disp.msgs.any (fun m => m.1 = id) then d
    else if !portMsgOk o then d.finish id 0x10 none
    else if !d.mayMessage o.fn q then d.finish id 0x11 none
    else if (d.dport q).link = 0 || (decide (q < 4) && !(d.dport q).hpd) then d.finish id 0x12 none
    else if busy || (d.dport q).link = 1 then d
    else if msgReads (fld (o.word 0) 68 4) then d.sendMsg id
    else
      match d.readV o.fn (fld (o.word 1) 0 48) (fld (o.word 0) 56 8) .read with
      | (d1, .error (cause, va)) => d1.opFault id o.fn cause va
      | (d1, .ok _) => d1.sendMsg id

theorem exec_portMsg : exec (.portMsg id) s = runOp id (fun d => d.portMsg id) s := rfl

/-- PORT_MSG by its checks; one that is sent waits for its reply, after its data have been read (R280, R284). -/
theorem portMsg_does (w : Works s id 4 4 10 o) (hq : q = fld (o.word 0) 64 4) (new : ∀ m ∈ s.dev.disp.msgs, m.1 ≠ id) :
    (portMsgOk o = false → Becomes (.portMsg id) s (s.dev.finish id 0x10 none)) ∧
    (portMsgOk o = true → s.dev.mayMessage o.fn q = false → Becomes (.portMsg id) s (s.dev.finish id 0x11 none)) ∧
    (portMsgOk o = true → s.dev.mayMessage o.fn q = true → (s.dev.dport q).link = 0 → Becomes (.portMsg id) s (s.dev.finish id 0x12 none)) ∧
    (portMsgOk o = true → s.dev.mayMessage o.fn q = true → (s.dev.dport q).link = 2 → (4 ≤ q ∨ (s.dev.dport q).hpd = true) → s.dev.disp.msgs = [] →
      (msgReads (fld (o.word 0) 68 4) = true → Becomes (.portMsg id) s { s.dev with disp := { s.dev.disp with msgs := [(id, s.dev.now, 7)] } }) ∧
      (∀ d1, msgReads (fld (o.word 0) 68 4) = false →
        (∀ bytes, s.dev.readV o.fn (fld (o.word 1) 0 48) (fld (o.word 0) 56 8) .read = (d1, .ok bytes) → Becomes (.portMsg id) s (d1.sendMsg id)) ∧
        (∀ cause va, s.dev.readV o.fn (fld (o.word 1) 0 48) (fld (o.word 0) 56 8) .read = (d1, .error (cause, va)) →
          Becomes (.portMsg id) s (d1.opFault id o.fn cause va)))) := by
  obtain ⟨steady, held, runs⟩ := w
  subst hq
  have fresh : s.dev.disp.msgs.any (fun m => m.1 = id) = false := by simpa using new
  refine ⟨fun bad => ?_, fun ok may => ?_, fun ok may off => ?_, fun ok may up there quiet => ⟨fun reads => ?_, fun d1 writes => ⟨fun bytes read => ?_, fun cause va failed => ?_⟩⟩⟩
  · exact becomes_runOp exec_portMsg steady (by simp [Dev.portMsg, held, runs, fresh, bad]) (.refl _)
  · exact becomes_runOp exec_portMsg steady (by simp [Dev.portMsg, held, runs, fresh, ok, may]) (.refl _)
  · exact becomes_runOp exec_portMsg steady (by simp [Dev.portMsg, held, runs, fresh, ok, may, off]) (.refl _)
  all_goals
    have sink : ¬ (fld (o.word 0) 64 4 < 4 ∧ (s.dev.dport (fld (o.word 0) 64 4)).hpd = false) := by
      rintro ⟨low, none⟩
      rcases there with high | hpd
      · omega
      · simp [none] at hpd
  · exact becomes_runOp exec_portMsg steady (by simp [Dev.portMsg, Dev.sendMsg, held, runs, quiet, ok, may, up, sink, reads]) (.refl _)
  · exact becomes_runOp exec_portMsg steady (by simp [Dev.portMsg, held, runs, quiet, ok, may, up, sink, writes, read]) (readV_reads read).endsAlike
  · exact becomes_runOp exec_portMsg steady (by simp [Dev.portMsg, held, runs, quiet, ok, may, up, sink, writes, failed])
      ((readV_reads failed).endsAlike.trans (opFault_endsAlike d1 _ _ _ _))

/-- What PORT_MSG_TIMEOUT does. -/
def Dev.msgExpires (d : Dev) (id : OpId) (at_ : Nat) : Dev :=
  match d.disp.msgs.find? (fun m => m.1 = id) with
  | some (_, t, _) => if d.awake && decide (t + 10000000 ≤ Nat.max d.now at_) then ((d.tick at_).endMsg id).endOp id 0x12 none (fun o => o) else d
  | none => d

/-- What a reply does for its operation o, which has so many retries left. -/
def Dev.replied (d : Dev) (id : OpId) (reply : SideReply) (o : Op) (left : Nat) : Dev :=
  let q := fld (o.word 0) 64 4
  let len := fld (o.word 0) 56 8
  let reads := msgReads (fld (o.word 0) 68 4)
  let d1 := d.endMsg id
  match reply with
  | .ack data =>
    if reads then
      match d1.writeV o.fn (fld (o.word 1) 0 48) (data.take len) with
      | (d2, .error (cause, va)) => d2.opFault id o.fn cause va
      | (d2, .ok _) => d2.finish id 0 (some (data.take len).length)
    else d1.finish id 0 (some len)
  | .nack => d1.finish id 0 (some 0x100)
  | .defer =>
    if left = 0 then d1.finish id 0 (some 0x200)
    else { d with disp := { d.disp with msgs := d.disp.msgs.map (fun m => if m.1 = id then (id, d.now, left - 1) else m) } }
  | .dsiError report =>
    (d1.setDport q { d1.dport q with irqs := satInc (d1.dport q).irqs }).finish id 0 (some (report.toNat * 2 ^ 16 + 0x300 + (if reads then 0 else len)))

/-- What SIDEBAND_REPLY does. -/
def Dev.sideband (d : Dev) (id : OpId) (reply : SideReply) : Dev :=
  match d.disp.msgs.find? (fun m => m.1 = id), d.op id with
  | some (_, _, left), some o => if !d.awake then d else if !o.active then d.endMsg id else d.replied id reply o left
  | _, _ => d

theorem exec_portMsgTimeout (at_ : Nat) : exec (.portMsgTimeout id at_) s = run (fun d => d.msgExpires id at_) s := rfl

theorem exec_sidebandReply (reply : SideReply) : exec (.sidebandReply id reply) s = runOp id (fun d => d.sideband id reply) s := by
  cases reply <;> rfl

/-- An operation that is still active ends as any other. -/
theorem endOp_active {d : Dev} (held : d.op id = some o) (started : o.phase = .started) (status : Nat) (r : Option Nat) :
    d.endOp id status r (fun o => o) = d.finish id status r := by
  have same : d.updOp id (fun o => o) = d := by simp [Dev.updOp]
  simp [Dev.endOp, held, Op.active, started, same]

section
variable {t left : Nat} (k : s.Steady) (up : s.dev.awake = true) (held : s.dev.op id = some o) (started : o.phase = .started)
  (sent : s.dev.disp.msgs.find? (fun m => m.1 = id) = some (id, t, left))
include k up held started sent

/-- No reply within 10 ms ends a PORT_MSG (R284). -/
theorem portMsgTimeout_does (at_ : Nat) :
    (t + 10000000 ≤ Nat.max s.dev.now at_ → Becomes (.portMsgTimeout id at_) s (((s.dev.endMsg id).tick at_).finish id 0x12 none)) ∧
    (Nat.max s.dev.now at_ < t + 10000000 → Becomes (.portMsgTimeout id at_) s s.dev) := by
  refine ⟨fun past => ?_, fun early => ?_⟩
  · refine becomes_runFrom (exec_portMsgTimeout at_) k ?_ (.refl _)
    have ends : ((s.dev.tick at_).endMsg id).endOp id 0x12 none (fun o => o) = ((s.dev.tick at_).endMsg id).finish id 0x12 none :=
      endOp_active (d := (s.dev.tick at_).endMsg id) held started _ _
    simp only [Dev.msgExpires, sent, up, past, decide_true, Bool.and_self, if_true, ends]
    rfl
  · refine becomes_runFrom (exec_portMsgTimeout at_) k ?_ (.refl _)
    simp [Dev.msgExpires, sent, Nat.not_le.mpr early]

/-- A reply to a PORT_MSG that waits for one. -/
theorem sidebandReply_becomes {reply : SideReply} {e : Dev} (he : s.dev.replied id reply o left = e) (m : EndsAlike s.dev e) :
    Becomes (.sidebandReply id reply) s e := by
  refine becomes_runOp (exec_sidebandReply reply) k ?_ m
  simp [Dev.sideband, sent, held, up, Op.active, started, he]

/-- An ACK completes a PORT_MSG with its length, a NACK and an error report with their code, a DEFER once no retry is left (R284). -/
theorem sidebandReply_does :
    (∀ data, msgReads (fld (o.word 0) 68 4) = false →
      Becomes (.sidebandReply id (.ack data)) s ((s.dev.endMsg id).finish id 0 (some (fld (o.word 0) 56 8)))) ∧
    (∀ data d2, msgReads (fld (o.word 0) 68 4) = true →
      (s.dev.endMsg id).writeV o.fn (fld (o.word 1) 0 48) (data.take (fld (o.word 0) 56 8)) = (d2, .ok ()) →
      Becomes (.sidebandReply id (.ack data)) s (d2.finish id 0 (some (data.take (fld (o.word 0) 56 8)).length))) ∧
    Becomes (.sidebandReply id .nack) s ((s.dev.endMsg id).finish id 0 (some 0x100)) ∧
    (∀ report : BitVec 16, Becomes (.sidebandReply id (.dsiError report)) s
      (((s.dev.endMsg id).setDport (fld (o.word 0) 64 4)
        { (s.dev.endMsg id).dport (fld (o.word 0) 64 4) with irqs := satInc ((s.dev.endMsg id).dport (fld (o.word 0) 64 4)).irqs }).finish id 0
        (some (report.toNat * 2 ^ 16 + 0x300 + (if msgReads (fld (o.word 0) 68 4) = true then 0 else fld (o.word 0) 56 8))))) ∧
    (left = 0 → Becomes (.sidebandReply id .defer) s ((s.dev.endMsg id).finish id 0 (some 0x200))) ∧
    (left ≠ 0 → Becomes (.sidebandReply id .defer) s
      { s.dev with disp := { s.dev.disp with msgs := s.dev.disp.msgs.map (fun m => if m.1 = id then (id, s.dev.now, left - 1) else m) } }) := by
  refine ⟨fun data writes => ?_, fun data d2 reads stored => ?_, ?_, fun report => ?_, fun last => ?_, fun more => ?_⟩
  · exact sidebandReply_becomes k up held started sent (by simp [Dev.replied, writes]) (.refl _)
  · have alike : EndsAlike s.dev d2 := EndsAlike.trans (.refl s.dev) (writeV_stored stored).endsAlike
    exact sidebandReply_becomes k up held started sent (by simp [Dev.replied, reads, stored]) alike
  · exact sidebandReply_becomes k up held started sent rfl (.refl _)
  · exact sidebandReply_becomes k up held started sent rfl (.refl _)
  · exact sidebandReply_becomes k up held started sent (if_pos last) (.refl _)
  · exact sidebandReply_becomes k up held started sent (if_neg more) (.refl _)

end

end

/-- Settles O41: each operation by its checks, and a PORT_MSG by the reply that it gets or waits for in vain. -/
theorem displayOperations : Obligations.DisplayOperations := by
  refine ⟨fun s id o p w => flip_does w, fun s id o l ws d1 w => modeRead_does w, fun s id o m w => modeDefine_does w,
    fun s id o q w => portMsg_does w, fun s id o t left d k up held started sent hd => ?_⟩
  subst hd
  exact ⟨fun at_ => (portMsgTimeout_does k up held started sent at_).1, fun at_ => (portMsgTimeout_does k up held started sent at_).2,
    sidebandReply_does k up held started sent⟩

end Sys2Proof.Machine
end

section
/-! Genlock: edges and periods, the phase of a pipe, alignment and holdover (R276, R289 to R293, R302). -/

namespace Sys2Proof.Machine

/-! An edge at one pipe. -/

section
variable {d : Dev} {p edge l : Nat}

theorem Signalled.writes {d e : Dev} (h : Signalled d e) : e.writes = d.writes := (congrArg Dev.writes h.1 :)
theorem Signalled.now {d e : Dev} (h : Signalled d e) : e.now = d.now := (congrArg Dev.now h.1 :)
theorem Signalled.pt {d e : Dev} (h : Signalled d e) (p : Nat) : e.pt p = d.pt p := (congrArg (fun x : Dev => x.pt p) h.1 :)

theorem pipeEvent_pt (d : Dev) (p b q : Nat) : (d.pipeEvent p b).pt q = d.pt q := (pipeEvent_signalled d p b).pt q

/-- The pipe as a frame edge finds it, its period and phase measured (R290). -/
def Dev.measured (d : Dev) (p edge : Nat) : PipeTime :=
  let x := d.pt p
  let period := x.lastEdge.map (fun l => edge - l)
  let good := match period with | some t => d.inRange p t | none => false
  { x with
    lastEdge := some edge, phaseErr := BitVec.ofInt 24 (clampI (-(2 ^ 23)) (2 ^ 23 - 1) (d.phase p edge + 1 / 2).floor)
    glkPeriod := match period with | some t => BitVec.ofNat 40 t | none => x.glkPeriod
    good := if good then x.good + 1 else 0, bad := if good || period.isNone then 0 else x.bad + 1 }

/-- A period in range counts towards LOCKED (R290). -/
theorem measured_good (last : (d.pt p).lastEdge = some l) (good : d.inRange p (edge - l) = true) :
    d.measured p edge =
      { d.pt p with lastEdge := some edge, phaseErr := BitVec.ofInt 24 (clampI (-(2 ^ 23)) (2 ^ 23 - 1) (d.phase p edge + 1 / 2).floor)
                    glkPeriod := BitVec.ofNat 40 (edge - l), good := (d.pt p).good + 1, bad := 0 } := by
  simp [Dev.measured, last, good]

theorem measured_bad (last : (d.pt p).lastEdge = some l) (bad : d.inRange p (edge - l) = false) : (d.measured p edge).bad = (d.pt p).bad + 1 := by
  simp [Dev.measured, last, bad]

/-- Alignment begins with a correction that is wanted (R293). -/
theorem align_pt (d : Dev) (p edge : Nat) : ((d.align p edge).pt p).glk = 2 ∧ ((d.align p edge).pt p).offsetWant.isSome = true := by
  unfold Dev.align
  dsimp only
  split
  · simp
  · split <;> simp

/-- A measured edge at a pipe in a state of genlock (R290 to R293). -/
def Dev.edgeTaken (d : Dev) (p edge state : Nat) (x1 : PipeTime) : Dev :=
  let d1 := d.setPt p x1
  let e := d.phase p edge
  match state with
  | 1 => if 8 ≤ x1.good then d1.align p edge else d1
  | 4 => if 8 ≤ x1.good then d1.align p edge else d1
  | 2 =>
    if absRat e ≤ 500 then
      (d1.setPt p { x1.retune ((edge : Rat) / 64) (d1.nominalInc p) with
        glk := 3, held := (d1.nominalInc p : Nat), offsetWant := none, offsetUntil := none, slipNext := 0, missPhase := 0, bad := 0 }).pipeEvent p 4
    else if x1.offsetWant.isNone && x1.offsetUntil.isNone && x1.slipNext = 0 then d1.align p edge
    else d1
  | 3 =>
    let miss := if 8 * d.lineNs p < absRat e then (d.pt p).missPhase + 1 else 0
    let d2 := d1.setPt p { x1 with missPhase := miss }
    if 3 ≤ x1.bad || 4 ≤ miss then d2.holdover p ((edge : Rat) / 64)
    else d2.loopStep p edge e ((((d.pt p).lastEdge.map (fun l => edge - l)).getD 0 : Nat) / 64)
  | _ => d1

theorem pipeEdge_eq (d : Dev) (p edge : Nat) : d.pipeEdge p edge = d.edgeTaken p edge (d.pt p).glk.toNat (d.measured p edge) := rfl

/-- An edge while genlock acquires: the eighth good one starts the alignment (R290). -/
theorem pipeEdge_acquiring (acquiring : (d.pt p).glk = 1) :
    d.pipeEdge p edge = if 8 ≤ (d.measured p edge).good then (d.setPt p (d.measured p edge)).align p edge else d.setPt p (d.measured p edge) := by
  rw [pipeEdge_eq, acquiring]
  rfl

theorem pipeEdge_counts (acquiring : (d.pt p).glk = 1) (last : (d.pt p).lastEdge = some l) (good : d.inRange p (edge - l) = true) :
    ((d.pt p).good < 7 → (d.pipeEdge p edge).pt p =
      { d.pt p with lastEdge := some edge, phaseErr := BitVec.ofInt 24 (clampI (-(2 ^ 23)) (2 ^ 23 - 1) (d.phase p edge + 1 / 2).floor)
                    glkPeriod := BitVec.ofNat 40 (edge - l), good := (d.pt p).good + 1, bad := 0 }) ∧
    (7 ≤ (d.pt p).good → ((d.pipeEdge p edge).pt p).glk = 2 ∧ ((d.pipeEdge p edge).pt p).offsetWant.isSome = true) := by
  have counted : (d.measured p edge).good = (d.pt p).good + 1 := by rw [measured_good last good]
  rw [pipeEdge_acquiring acquiring, counted]
  refine ⟨fun few => ?_, fun many => ?_⟩
  · rw [if_neg (by omega), Dev.pt_setPt_same, measured_good last good]
  · rw [if_pos (by omega)]
    exact align_pt _ p edge

/-- A small phase error locks the pipe at its nominal increment (R291, R293). -/
theorem pipeEdge_locks (aligning : (d.pt p).glk = 2) (small : absRat (d.phase p edge) ≤ 500) :
    ((d.pipeEdge p edge).pt p).glk = 3 ∧ ((d.pipeEdge p edge).pt p).inc = BitVec.ofNat 40 (d.nominalInc p) := by
  have taken : d.pipeEdge p edge = d.edgeTaken p edge 2 (d.measured p edge) := by rw [pipeEdge_eq, aligning]; rfl
  rw [taken, Dev.edgeTaken]
  simp only [small, if_true, pipeEvent_pt, Dev.pt_setPt_same]
  exact ⟨trivial, rfl⟩

/-- A pipe that leaves LOCKED at an instant (R292). -/
def PipeTime.heldOver (x : PipeTime) (t : Rat) : PipeTime := { x.retune t (wholeInc x.held) with glk := 4, good := 0, bad := 0, missPhase := 0 }

theorem holdover_pt (d : Dev) (p : Nat) (t : Rat) : (d.holdover p t).pt p = (d.pt p).heldOver t := by
  rw [Dev.holdover, pipeEvent_pt, Dev.pt_setPt_same]
  rfl

theorem holdover_signalled (d : Dev) (p : Nat) (t : Rat) : Signalled (d.setPt p ((d.pt p).heldOver t)) (d.holdover p t) := pipeEvent_signalled _ _ _

/-- The third bad period in a row in LOCKED is HOLDOVER, with the increment held (R292). -/
theorem pipeEdge_holds (locked : (d.pt p).glk = 3) (last : (d.pt p).lastEdge = some l) (bad : d.inRange p (edge - l) = false) (two : 2 ≤ (d.pt p).bad) :
    ((d.pipeEdge p edge).pt p).glk = 4 ∧ ((d.pipeEdge p edge).pt p).inc = BitVec.ofNat 40 (wholeInc (d.pt p).held) := by
  have third : 3 ≤ (d.measured p edge).bad := by rw [measured_bad last bad]; omega
  have taken : d.pipeEdge p edge = d.edgeTaken p edge 3 (d.measured p edge) := by rw [pipeEdge_eq, locked]; rfl
  have reached : (decide (3 ≤ (d.measured p edge).bad) || decide (4 ≤ if 8 * d.lineNs p < absRat (d.phase p edge) then (d.pt p).missPhase + 1 else 0)) = true := by
    simp [third]
  rw [taken, Dev.edgeTaken]
  simp only [reached, if_true, holdover_pt, Dev.pt_setPt_same]
  exact ⟨rfl, rfl⟩

/-- The loop keeps the increment within RANGE of the nominal one (R291). -/
theorem clampInc_le (d : Dev) (p : Nat) (x : Rat) :
    d.clampInc p x ≤ (d.nominalInc p : Nat) + (d.nominalInc p * rangePpm (d.obj 0x01 p 3) / 1000000 : Nat) := by
  refine max_le ?_ (min_le_left _ _)
  have step : (0 : Rat) ≤ (d.nominalInc p * rangePpm (d.obj 0x01 p 3) / 1000000 : Nat) := Nat.cast_nonneg _
  linarith

theorem inRange_iff (d : Dev) (p n : Nat) :
    d.inRange p n = true ↔ absRat ((n : Rat) / 64 - d.pn p) * 1000000 ≤ d.pn p * (rangePpm (d.obj 0x01 p 3) : Nat) := decide_eq_true_iff

end

/-! An edge at an input. -/

section
variable {x : GlkIn} {w3 : W72} {at64 width l : Nat} {falling : Bool}

theorem glkEdge_frame (frame : isFrameEdge w3 width falling = true) (last : x.lastEdge = some l) :
    x.edge w3 at64 width falling = { x with period := BitVec.ofNat 40 (at64 - l), lastEdge := some at64 } := by
  simp [GlkIn.edge, frame, last]

/-- A line pulse is shorter than any frame edge (R289). -/
theorem isFrameEdge_of_linePulse (line : isLinePulse w3 width falling = true) : isFrameEdge w3 width falling = false := by
  simp only [isLinePulse, Bool.and_eq_true, decide_eq_true_eq] at line
  obtain ⟨⟨⟨-, tri⟩, -⟩, short⟩ := line
  have long : ¬ 192000 ≤ width := by omega
  simp [isFrameEdge, tri, long]

theorem glkEdge_line (line : isLinePulse w3 width falling = true) (last : x.lastLine = some l) (lo : 320000 ≤ at64 - l) (hi : at64 - l ≤ 6400000) :
    x.edge w3 at64 width falling = { x with lastLine := some at64, linePeriod := some (at64 - l) } := by
  simp [GlkIn.edge, isFrameEdge_of_linePulse line, line, last, lo, hi]

theorem glkEdge_none (frame : isFrameEdge w3 width falling = false) (line : isLinePulse w3 width falling = false) :
    x.edge w3 at64 width falling = x := by
  simp [GlkIn.edge, frame, line]

end

/-! The commands of genlock. -/

/-- What GLK_FRAME_EDGE does. -/
def Dev.glkEdge (d : Dev) (g at64 : Nat) (pulse : GlkPulse) : Dev :=
  let edge := at64 / 10 * 10
  let x := d.glkIn g
  if !d.awake || pulse.width64 < 1280 || edge + 128 < 64 * d.now || (match x.lastEdge with | some l => decide (edge ≤ l) | none => false) then d
  else
    let d1 := d.tick ((edge + 32) / 64)
    let d2 : Dev := { d1 with disp := { d1.disp with glks := tset d1.disp.glks g (x.edge (d1.glkWord g) edge pulse.width64 pulse.falling) } }
    (List.range 12).foldl (fun d p => if d.follows p g && isFrameEdge (d.obj 0x01 p 3) pulse.width64 pulse.falling then d.pipeEdge p edge else d) d2

theorem exec_glkFrameEdge (g : Fin 2) (at64 : Nat) (pulse : GlkPulse) (s : State) :
    exec (.glkFrameEdge g at64 pulse) s = run (fun d => d.glkEdge g.val at64 pulse) s := rfl

/-- A step that leaves a device as it is at every element leaves it so after all. -/
theorem foldl_same {α β : Type} {f : β → α → β} {b : β} {l : List α} (h : ∀ a ∈ l, f b a = b) : l.foldl f b = b :=
  List.foldlRecOn l f (motive := fun e => e = b) rfl (fun _ same a mem => by rw [same]; exact h a mem)

section
variable {s : State} {g : Fin 2} {at64 edge : Nat} {pulse : GlkPulse} {x : GlkIn}

/-- An edge of a pulse that is too short, or that comes too early, has no effect; else it is measured, by the input alone when no pipe follows it (R289, R302). -/
theorem glkFrameEdge_does (k : s.Steady) (up : s.dev.awake = true) (hx : x = s.dev.glkIn g.val) (he : edge = at64 / 10 * 10) :
    ((pulse.width64 < 1280 ∨ edge + 128 < 64 * s.dev.now ∨ ∃ l, x.lastEdge = some l ∧ edge ≤ l) → Becomes (.glkFrameEdge g at64 pulse) s s.dev) ∧
    (1280 ≤ pulse.width64 → 64 * s.dev.now ≤ edge + 128 → (∀ l, x.lastEdge = some l → l < edge) → (∀ p, p < 12 → s.dev.follows p g.val = false) →
      Becomes (.glkFrameEdge g at64 pulse) s
        { s.dev with
          now := Nat.max s.dev.now ((edge + 32) / 64)
          disp := { s.dev.disp with glks := tset s.dev.disp.glks g.val (x.edge (s.dev.glkWord g.val) edge pulse.width64 pulse.falling) } }) := by
  subst hx he
  refine ⟨fun bad => ?_, fun wide timely later unfollowed => ?_⟩ <;> refine becomes_runFrom (exec_glkFrameEdge g at64 pulse s) k ?_ (.refl _)
  · refine if_pos ?_
    rcases bad with h | h | ⟨l, last, h⟩
    · simp [h]
    · simp [h]
    · simp [last, h]
  · have go : ¬ (!s.dev.awake || decide (pulse.width64 < 1280) || decide (at64 / 10 * 10 + 128 < 64 * s.dev.now) ||
        (match (s.dev.glkIn g.val).lastEdge with | some l => decide (at64 / 10 * 10 ≤ l) | none => false)) = true := by
      have new : (match (s.dev.glkIn g.val).lastEdge with | some l => decide (at64 / 10 * 10 ≤ l) | none => false) = false := by
        split
        · exact decide_eq_false (Nat.not_le.mpr (later _ (by assumption)))
        · rfl
      simp [up, Nat.not_lt.mpr wide, Nat.not_lt.mpr timely, new]
    refine (if_neg go).trans (foldl_same (fun p mem => ?_))
    refine if_neg (fun taken => ?_)
    have off : s.dev.follows p g.val = false := unfollowed p (List.mem_range.mp mem)
    exact Bool.false_ne_true (off.symm.trans (Bool.and_eq_true_iff.mp taken).1)

end

/-- A change of the increment at an instant keeps the place of the scan (R276). -/
theorem retune_eq (x : PipeTime) (t : Rat) (n : Nat) : x.retune t n =
    { x with mark := t, markPos := x.markPos + (t - x.mark) * (64 * x.inc.toNat : Nat) / (2 ^ 40 * 10 : Nat), inc := BitVec.ofNat 40 n } := rfl

theorem Passed.pt {d e : Dev} (h : Passed d e) (p : Nat) : e.pt p = d.pt p := (congrArg (fun x : Dev => x.pt p) h :)

section
variable {s : State} {p : Fin 12} {at_ : Nat} {d : Dev} (k : s.Steady) (hd : d = { s.dev with now := Nat.max s.dev.now at_ })
include k hd

/-- A frame edge that does not come is HOLDOVER, with its event (R292). -/
theorem glkEdgeTimeout_does {l : Nat} (last : (s.dev.pt p.val).lastEdge = some l) (runs : s.dev.pipeRuns p.val = true) (locked : (s.dev.pt p.val).glk = 3) :
    (stampOf ((l : Rat) / 64 + 5 / 4 * s.dev.pn p.val) ≤ d.now → Does (.glkEdgeTimeout p at_) s (fun e =>
      e.pt p.val = { (s.dev.pt p.val).retune ((l : Rat) / 64 + 5 / 4 * s.dev.pn p.val) (wholeInc (s.dev.pt p.val).held) with
        glk := 4, good := 0, bad := 0, missPhase := 0 } ∧ e.now = d.now ∧
      (∀ f, f < 64 → s.dev.exists_ f = true → s.dev.seesPipe f p.val = true → bit (tget (e.fn f).pipeEv p.val 0) 3 = true) ∧ (∀ q, q ≠ p.val → e.pt q = s.dev.pt q))) ∧
    (d.now < stampOf ((l : Rat) / 64 + 5 / 4 * s.dev.pn p.val) → Becomes (.glkEdgeTimeout p at_) s s.dev) := by
  subst hd
  refine ⟨fun missed => ?_, fun early => ?_⟩
  · have past : stampOf (s.dev.edgeLimit p.val l) ≤ Nat.max s.dev.now at_ := missed
    have signalled := holdover_signalled (s.dev.tick at_) p.val (s.dev.edgeLimit p.val l)
    have alike : EndsAlike s.dev ((s.dev.tick at_).setPt p.val ((s.dev.pt p.val).heldOver (s.dev.edgeLimit p.val l))) := .refl _
    refine Does.imp (does_passed (show execGlkEdgeTimeout p at_ s = _ by unfold execGlkEdgeTimeout; rfl) k ?_ (alike.trans signalled.endsAlike)
      signalled.writes) (fun e passed => ⟨?_, ?_, fun f hf exists_ sees => ?_, fun q ne => ?_⟩)
    · simp only [last, runs, locked, past, decide_true, Bool.and_self, if_true]
    · rw [passed.pt, holdover_pt]
      rfl
    · exact passed.now.trans signalled.now
    · rw [passed.fn]
      exact pipeEvent_hasPipeEv (d := (s.dev.tick at_).setPt p.val ((s.dev.pt p.val).heldOver (s.dev.edgeLimit p.val l))) (by decide) hf exists_ sees
    · rw [passed.pt, signalled.pt, Dev.pt_setPt, if_neg ne.symm]
      rfl
  · refine becomes_runFrom (show execGlkEdgeTimeout p at_ s = _ by unfold execGlkEdgeTimeout; rfl) k ?_ (.refl _)
    have soon : ¬ stampOf (s.dev.edgeLimit p.val l) ≤ Nat.max s.dev.now at_ := Nat.not_le.mpr early
    simp only [last, soon, decide_false, Bool.and_false, Bool.false_eq_true, if_false]

/-- A correction by offset ends on time (R293). -/
theorem offsetCorrectionEnd_does {t : Rat} (until_ : (s.dev.pt p.val).offsetUntil = some t) (runs : s.dev.pipeRuns p.val = true) :
    (near at_ (stampOf t) = true → Becomes (.offsetCorrectionEnd p at_) s
      (d.setPt p.val { (s.dev.pt p.val).retune t (s.dev.nominalInc p.val) with offsetUntil := none })) ∧
    (near at_ (stampOf t) = false → Becomes (.offsetCorrectionEnd p at_) s s.dev) := by
  subst hd
  refine ⟨fun due => ?_, fun early => ?_⟩ <;>
    refine becomes_runFrom (show execOffsetCorrectionEnd p at_ s = _ by unfold execOffsetCorrectionEnd; rfl) k ?_ (.refl _)
  · simp only [until_, runs, due, Bool.and_self, if_true]
    rfl
  · simp only [until_, early, Bool.and_false, Bool.false_eq_true, if_false]

end

end Sys2Proof.Machine
end

section
/-! Tearing-effect inputs, and the genlock that is settled (R294, R295). -/

namespace Sys2Proof.Machine

/-! An edge at the pipes. -/

/-- Time and the timing of pipes alone have changed. -/
def TimingOnly (d e : Dev) : Prop := { e with now := d.now, disp := { e.disp with pipes := d.disp.pipes } } = d

theorem TimingOnly.trans {d e r : Dev} (h : TimingOnly d e) (k : TimingOnly e r) : TimingOnly d r :=
  (congrArg (fun x : Dev => { x with now := d.now, disp := { x.disp with pipes := d.disp.pipes } }) k :).trans h

theorem TimingOnly.endsAlike {d e : Dev} (h : TimingOnly d e) : EndsAlike d e :=
  ⟨(congrArg Dev.mem h :), (congrArg Dev.update h :), (congrArg Dev.safety h :)⟩

theorem TimingOnly.writes {d e : Dev} (h : TimingOnly d e) : e.writes = d.writes := (congrArg Dev.writes h :)

/-- What a TE edge does at pipe p. -/
def Dev.teStep (t at_ : Nat) (falling : Bool) (d : Dev) (p : Nat) : Dev :=
  if fld (d.obj 0x01 p 4) 24 2 = t && d.teCounts p at_ falling then d.teQualified p at_ else d

section
variable {d e : Dev} {p t at_ : Nat} {falling : Bool}

/-- Whether an edge counts at a pipe depends on that pipe's timing alone. -/
theorem TimingOnly.teCounts (h : TimingOnly d e) (same : e.pt p = d.pt p) (t : Nat) (falling : Bool) : e.teCounts p t falling = d.teCounts p t falling := by
  have back : d = { e with now := d.now, disp := { e.disp with pipes := d.disp.pipes } } := h.symm
  generalize d.now = n, d.disp.pipes = l at back
  subst back
  simp only [Dev.teCounts, Dev.activeEnd, Dev.lineAt, Dev.lineInstant, Dev.linePos, Dev.pipeRuns, same]
  rfl

theorem TimingOnly.teSelects (h : TimingOnly d e) (p : Nat) : fld (e.obj 0x01 p 4) 24 2 = fld (d.obj 0x01 p 4) 24 2 :=
  (congrArg (fun x : Dev => fld (x.obj 0x01 p 4) 24 2) h :)

theorem teQualified_timing (d : Dev) (p t : Nat) : TimingOnly d (d.teQualified p t) := rfl

theorem teQualified_pt (d : Dev) (p t : Nat) :
    ((d.teQualified p t).pt p).teLast = some t ∧ ((d.teQualified p t).pt p).tePrev = (d.pt p).teLast ∧ (d.teQualified p t).now = Nat.max d.now t := by
  unfold Dev.teQualified
  dsimp only
  rw [Dev.pt_setPt_same]
  exact ⟨rfl, rfl, rfl⟩

theorem teQualified_pt_ne (d : Dev) {p q : Nat} (ne : q ≠ p) (t : Nat) : (d.teQualified p t).pt q = d.pt q := by
  unfold Dev.teQualified
  dsimp only
  rw [Dev.pt_setPt, if_neg ne.symm]
  rfl

theorem teStep_timing (d : Dev) (p : Nat) : TimingOnly d (d.teStep t at_ falling p) := by
  unfold Dev.teStep
  split
  · exact teQualified_timing d p at_
  · rfl

theorem teStep_pt_ne (d : Dev) {p q : Nat} (ne : q ≠ p) : (d.teStep t at_ falling p).pt q = d.pt q := by
  unfold Dev.teStep
  split
  · exact teQualified_pt_ne d ne at_
  · rfl

/-- Time does not pass the instant of the edge. -/
theorem teStep_now (le : d.now ≤ at_) : (d.teStep t at_ falling p).now = d.now ∨ (d.teStep t at_ falling p).now = at_ := by
  unfold Dev.teStep
  split
  · exact .inr ((teQualified_pt d p at_).2.2.trans (Nat.max_eq_right le))
  · exact .inl rfl

theorem teStep_counts (sel : fld (d.obj 0x01 p 4) 24 2 = t) (counts : d.teCounts p at_ falling = true) : d.teStep t at_ falling p = d.teQualified p at_ :=
  if_pos (by simp [sel, counts])

/-- The edge at pipes other than p. -/
theorem teSteps_other (l : List Nat) (out : p ∉ l) (le : d.now ≤ at_) :
    TimingOnly d (l.foldl (Dev.teStep t at_ falling) d) ∧ (l.foldl (Dev.teStep t at_ falling) d).pt p = d.pt p ∧
      ((l.foldl (Dev.teStep t at_ falling) d).now = d.now ∨ (l.foldl (Dev.teStep t at_ falling) d).now = at_) := by
  refine List.foldlRecOn l _ (motive := fun e => TimingOnly d e ∧ e.pt p = d.pt p ∧ (e.now = d.now ∨ e.now = at_)) ⟨rfl, rfl, .inl rfl⟩ (fun e h q mem => ?_)
  obtain ⟨timing, same, now⟩ := h
  have early : e.now ≤ at_ := by rcases now with h | h <;> omega
  refine ⟨timing.trans (teStep_timing e q), (teStep_pt_ne e (fun h => out (by rw [h]; exact mem))).trans same, ?_⟩
  rcases teStep_now (t := t) (falling := falling) (p := q) early with h | h
  · rw [h]; exact now
  · exact .inr h

/-- An edge that counts at a pipe, among all pipes. -/
theorem teSteps_counts {l : List Nat} (once : l.Nodup) (mem : p ∈ l) (le : d.now ≤ at_) (sel : fld (d.obj 0x01 p 4) 24 2 = t)
    (counts : d.teCounts p at_ falling = true) :
    TimingOnly d (l.foldl (Dev.teStep t at_ falling) d) ∧ ((l.foldl (Dev.teStep t at_ falling) d).pt p).teLast = some at_ ∧
      ((l.foldl (Dev.teStep t at_ falling) d).pt p).tePrev = (d.pt p).teLast ∧ (l.foldl (Dev.teStep t at_ falling) d).now = at_ := by
  obtain ⟨before, after, rfl⟩ := List.append_of_mem mem
  obtain ⟨-, rest, apart⟩ := List.nodup_append.mp once
  have first : p ∉ before := fun m => apart p m p List.mem_cons_self rfl
  have last : p ∉ after := (List.nodup_cons.mp rest).1
  rw [List.foldl_append, List.foldl_cons]
  obtain ⟨timing, same, now⟩ := teSteps_other (t := t) (falling := falling) before first le
  generalize before.foldl (Dev.teStep t at_ falling) d = e at timing same now ⊢
  have early : e.now ≤ at_ := by rcases now with h | h <;> omega
  rw [teStep_counts ((timing.teSelects p).trans sel) ((timing.teCounts same at_ falling).trans counts)]
  obtain ⟨teLast, tePrev, instant⟩ := teQualified_pt e p at_
  replace instant := instant.trans (Nat.max_eq_right early)
  obtain ⟨later, kept, ends⟩ := teSteps_other (d := e.teQualified p at_) (t := t) (falling := falling) after last (Nat.le_of_eq instant)
  refine ⟨(timing.trans (teQualified_timing e p at_)).trans later, ?_, ?_, ?_⟩
  · rw [kept, teLast]
  · rw [kept, tePrev, same]
  · rcases ends with h | h
    · exact h.trans instant
    · exact h

end

/-- An edge counts at a pipe in command mode with the polarity that it selects, half a frame after the last one (R294). -/
theorem teCounts_implies {d : Dev} {p t : Nat} {falling : Bool} (h : d.teCounts p t falling = true) :
    d.dsiCmd p = true ∧ falling = bit (d.obj 0x01 p 4) 23 ∧ ∀ l, (d.pt p).teLast = some l → d.framePeriod p ≤ 2 * (t - l) := by
  simp only [Dev.teCounts, Bool.and_eq_true, decide_eq_true_eq] at h
  obtain ⟨⟨⟨⟨⟨-, cmd⟩, -⟩, polarity⟩, apart⟩, -⟩ := h
  refine ⟨cmd, polarity, fun l last => ?_⟩
  simpa [last] using apart

/-! The commands of TE inputs. -/

theorem exec_teEdge (t : Fin 4) (at_ width : Nat) (falling : Bool) (s : State) : exec (.teEdge t at_ width falling) s =
    run (fun d => if width < 1000 || decide (at_ < d.now) then d else (List.range 12).foldl (Dev.teStep t.val at_ falling) d) s := rfl

/-- A qualified edge counts for every pipe that selects the input, half a frame after the last one (R294). -/
theorem teEdge_does {s : State} {t : Fin 4} {at_ width : Nat} {falling : Bool} (k : s.Steady) :
    ((width < 1000 ∨ at_ < s.dev.now ∨ ∀ p, p < 12 → fld (s.dev.obj 0x01 p 4) 24 2 ≠ t.val ∨ s.dev.teCounts p at_ falling = false) →
      Becomes (.teEdge t at_ width falling) s s.dev) ∧
    (∀ p, p < 12 → 1000 ≤ width → s.dev.now ≤ at_ → fld (s.dev.obj 0x01 p 4) 24 2 = t.val → s.dev.teCounts p at_ falling = true →
      Does (.teEdge t at_ width falling) s (fun e => (e.pt p).teLast = some at_ ∧ (e.pt p).tePrev = (s.dev.pt p).teLast ∧ e.now = at_ ∧ e.mem = s.dev.mem)) := by
  refine ⟨fun bad => becomes_run_same (exec_teEdge t at_ width falling s) k ?_, fun p lt wide le sel counts => ?_⟩
  · rcases bad with short | early | none
    · exact if_pos (by simp [short])
    · exact if_pos (by simp [early])
    · refine ite_eq_left_iff.mpr (fun _ => foldl_same (fun p mem => if_neg ?_))
      rcases none p (List.mem_range.mp mem) with h | h <;> simp [h]
  · obtain ⟨timing, teLast, tePrev, now⟩ := teSteps_counts List.nodup_range (List.mem_range.mpr lt) le sel counts
    have step : (if width < 1000 || decide (at_ < s.dev.now) then s.dev else (List.range 12).foldl (Dev.teStep t.val at_ falling) s.dev) =
        (List.range 12).foldl (Dev.teStep t.val at_ falling) s.dev := if_neg (by simp [Nat.not_lt.mpr wide, Nat.not_lt.mpr le])
    refine (does_passed (exec_teEdge t at_ width falling s) k step timing.endsAlike timing.writes).imp (fun e passed => ?_)
    rw [passed.pt, passed.now, passed.mem]
    exact ⟨teLast, tePrev, now, timing.endsAlike.1⟩

/-- A pipe whose TE input is lost at an instant. -/
def Dev.teGone (d : Dev) (p at_ : Nat) : Dev := (d.tick at_).setPt p { d.pt p with teMissing := true, teLostAt := Nat.max d.now at_ }

/-- The absence of edges for one and a half frames is TE_LOST, with its event (R295). -/
theorem teLost_does {s : State} {p : Fin 12} {at_ : Nat} {d : Dev} (k : s.Steady) (hd : d = { s.dev with now := Nat.max s.dev.now at_ })
    (runs : s.dev.pipeRuns p.val = true) (cmd : s.dev.dsiCmd p.val = true) (present : (s.dev.pt p.val).teMissing = false)
    (up : (s.dev.dport (s.dev.pipePort p.val)).link = 2) :
    (2 * s.dev.teBase p.val + 3 * s.dev.framePeriod p.val ≤ 2 * d.now → Does (.teLost p at_) s (fun e =>
      e.pt p.val = { s.dev.pt p.val with teMissing := true, teLostAt := d.now } ∧ e.now = d.now ∧
      ∀ f, f < 64 → s.dev.exists_ f = true → s.dev.seesPipe f p.val = true → bit (tget (e.fn f).pipeEv p.val 0) 2 = true)) ∧
    (2 * d.now < 2 * s.dev.teBase p.val + 3 * s.dev.framePeriod p.val → Becomes (.teLost p at_) s s.dev) := by
  subst hd
  refine ⟨fun late => ?_, fun early => ?_⟩
  · have past : 2 * s.dev.teBase p.val + 3 * s.dev.framePeriod p.val ≤ 2 * Nat.max s.dev.now at_ := late
    have signalled := pipeEvent_signalled (s.dev.teGone p.val at_) p.val 2
    have alike : EndsAlike s.dev (s.dev.teGone p.val at_) := .refl _
    refine Does.imp (does_passed (show execTeLost p at_ s = _ by unfold execTeLost; rfl) k ?_ (alike.trans signalled.endsAlike) signalled.writes)
      (fun e passed => ⟨?_, passed.now.trans signalled.now, fun f hf exists_ sees => ?_⟩)
    · simp only [runs, cmd, present, up, past, decide_true, Bool.not_false, Bool.and_self, if_true]
      rfl
    · rw [passed.pt, signalled.pt]
      exact Dev.pt_setPt_same _ _ _
    · rw [passed.fn]
      exact pipeEvent_hasPipeEv (d := s.dev.teGone p.val at_) (by decide) hf exists_ sees
  · refine becomes_runFrom (show execTeLost p at_ s = _ by unfold execTeLost; rfl) k ?_ (.refl _)
    have soon : ¬ 2 * s.dev.teBase p.val + 3 * s.dev.framePeriod p.val ≤ 2 * Nat.max s.dev.now at_ := Nat.not_le.mpr early
    simp only [soon, decide_false, Bool.and_false, Bool.false_eq_true, if_false]

/-- Settles O42: edges by the state of genlock that they find, inputs by the pulse, and timeouts by their instants. -/
theorem genlockAndTearing : Obligations.GenlockAndTearing := by
  refine ⟨fun d p edge l acquiring last good => pipeEdge_counts acquiring last good, fun d p edge aligning small => pipeEdge_locks aligning small,
    fun d p edge l locked last bad two => pipeEdge_holds locked last bad two, fun d p n x => ⟨clampInc_le d p x, inRange_iff d p n⟩,
    fun x w3 at64 width l falling => ⟨glkEdge_frame, glkEdge_line, glkEdge_none⟩, fun s g at64 edge pulse x k up hx he => glkFrameEdge_does k up hx he,
    fun s p at_ l d k hd last runs locked => glkEdgeTimeout_does k hd last runs locked, fun s p at_ t d k hd until_ runs => offsetCorrectionEnd_does k hd until_ runs,
    retune_eq, fun s t at_ width falling k => teEdge_does k, fun d p t falling h => teCounts_implies h,
    fun s p at_ d k hd runs cmd present up => teLost_does k hd runs cmd present up⟩

end Sys2Proof.Machine
end

section
/-! Display links: hot plug, losses, retries, training and panel initialisation (R300, R301, R462, R463). -/

namespace Sys2Proof.Machine

/-! A port that goes out of use. -/

section
variable {d : Dev} {q : Nat} {state : BitVec 3} {x : DispPort}

/-- A port put into a state of LINK that is not UP, now. -/
def Dev.portOut (d : Dev) (q : Nat) (state : BitVec 3) (x : DispPort) : Dev := d.setDport q { x with link := state, trainFrom := d.now }

/-- Without a pipe, or with one that need not be shown, nothing is recorded (R301). -/
theorem linkOut_quiet (h : ∀ p, d.portPipe q = some p → d.mustShowNow p = false) : d.linkOut q state x = d.portOut q state x := by
  have pipe : (d.portOut q state x).portPipe q = d.portPipe q := rfl
  unfold Dev.linkOut
  change (match (d.portOut q state x).portPipe q with | some p => (d.portOut q state x).linkDark p | none => d.portOut q state x) = _
  rw [pipe]
  cases found : d.portPipe q with
  | none => rfl
  | some p =>
    have blank : (d.portOut q state x).mustShowNow p = false := h p found
    simp only [Dev.linkDark, blank, Bool.false_eq_true, if_false]

theorem linkOut_unused (none : d.portPipe q = none) : d.linkOut q state x = d.portOut q state x :=
  linkOut_quiet (fun p found => by rw [none] at found; cases found)

/-- A pipe with a plane that must be shown is reported as dark (R301). -/
theorem linkOut_shown {p : Nat} (found : d.portPipe q = some p) (shown : d.mustShowNow p = true) (port : d.pipePort p = q) :
    d.linkOut q state x = (d.portOut q state x).smRecord 0x18 (locusEngine 0x05 (portEngine q)) none state.toNat p := by
  have pipe : (d.portOut q state x).portPipe q = some p := found
  have planes : (d.portOut q state x).mustShowNow p = true := shown
  have own : (d.portOut q state x).pipePort p = q := port
  have link : ((d.portOut q state x).dport q).link = state := by rw [Dev.portOut, Dev.dport_setDport_same]
  unfold Dev.linkOut
  change (match (d.portOut q state x).portPipe q with | some p => (d.portOut q state x).linkDark p | none => d.portOut q state x) = _
  rw [pipe]
  simp only [Dev.linkDark, planes, if_true, own, link]

end

/-! Hot plug. -/

section
variable {s : State} {q : Fin 12} {at_ : Nat} {d : Dev} {x : DispPort} (k : s.Steady) (up : s.dev.awake = true)
include k up

/-- A short HPD pulse counts, and trains a link again that has lost its sink; others are none (R300). -/
theorem hpdIrq_does {low : Nat} {good : Bool} (hx : x = s.dev.dport q.val) :
    ((4 ≤ q.val ∨ low < 250000 ∨ 2000000 < low) → Becomes (.hpdIrq q low good) s s.dev) ∧
    (q.val < 4 → 250000 ≤ low → low ≤ 2000000 → (x.link ≠ 2 ∨ good = true) → Becomes (.hpdIrq q low good) s (s.dev.setDport q.val { x with irqs := satInc x.irqs })) ∧
    (q.val < 4 → 250000 ≤ low → low ≤ 2000000 → x.link = 2 → good = false → Becomes (.hpdIrq q low good) s (s.dev.setDport q.val
      { x with irqs := satInc x.irqs, link := 1, trainFrom := s.dev.now, initStep := 0, initFails := 0, initDue := s.dev.now })) := by
  subst hx
  refine ⟨fun bad => ?_, fun dpx lo hi keeps => ?_, fun dpx lo hi link lost => ?_⟩ <;>
    refine becomes_runFrom (show execHpdIrq q low good s = _ by unfold execHpdIrq; rfl) k ?_ (.refl _)
  · exact if_pos (by rcases bad with h | h | h <;> simp [h])
  all_goals
    refine (if_neg (by simp [up, Nat.not_le.mpr dpx, Nat.not_lt.mpr lo, Nat.not_lt.mpr hi])).trans ?_
  · refine congrArg (s.dev.setDport q.val) (if_neg (fun taken => ?_))
    simp only [Bool.and_eq_true, decide_eq_true_eq, Bool.not_eq_true'] at taken
    rcases keeps with running | holds
    · exact running taken.1
    · exact Bool.false_ne_true (taken.2.symm.trans holds)
  · exact congrArg (s.dev.setDport q.val) (if_pos (by simp [link, lost]))

end

/-! Losses. -/

/-- A port as a loss of its link finds it (R300). -/
def DispPort.lossSeen (x : DispPort) (c : LossCause) : DispPort :=
  { x with hpd := x.hpd && decide (c ≠ .hpdLow), irqs := if c = .busContention then satInc x.irqs else x.irqs }

/-- A port whose link has been lost, before it is DOWN. -/
def DispPort.lossCounted (x : DispPort) : DispPort := { x with losses := satInc x.losses, tries := 0 }

/-- What LINK_LOSS does. -/
def Dev.sinkLost (d : Dev) (q : Nat) (c : LossCause) (at_ : Nat) : Dev :=
  if !d.awake || !lossFits q c then d
  else
    let x := ((d.tick at_).dport q).lossSeen c
    if x.link = 1 || x.link = 2 then (d.tick at_).linkOut q 3 x.lossCounted else (d.tick at_).setDport q x

theorem exec_linkLoss (q : Fin 12) (c : LossCause) (at_ : Nat) (s : State) : exec (.linkLoss q c at_) s = run (fun d => d.sinkLost q.val c at_) s := rfl

section
variable {d : Dev} {q : Nat} {c : LossCause} {at_ : Nat}

theorem sinkLost_unfit (unfit : lossFits q c = false) : d.sinkLost q c at_ = d := if_pos (by simp [unfit])

/-- A port that neither trains nor runs stays in its state. -/
theorem sinkLost_idle (up : d.awake = true) (fits : lossFits q c = true) (training : (d.dport q).link ≠ 1) (running : (d.dport q).link ≠ 2) :
    d.sinkLost q c at_ = (d.tick at_).setDport q ((d.dport q).lossSeen c) :=
  (if_neg (by simp [up, fits])).trans (if_neg (fun taken => by
    simp only [Bool.or_eq_true, decide_eq_true_eq] at taken
    exact taken.elim training running))

theorem sinkLost_down (up : d.awake = true) (fits : lossFits q c = true) (active : (d.dport q).link = 1 ∨ (d.dport q).link = 2) :
    d.sinkLost q c at_ = (d.tick at_).linkOut q 3 ((d.dport q).lossSeen c).lossCounted :=
  (if_neg (by simp [up, fits])).trans (if_pos (by
    simp only [Bool.or_eq_true, decide_eq_true_eq]
    exact active))

end

/-- A loss that fits the port makes a training or running link DOWN and counts; a pipe that must be shown is reported (R300, R301). -/
theorem linkLoss_does {s : State} {q : Fin 12} {c : LossCause} {at_ : Nat} {d : Dev} {x : DispPort} (k : s.Steady) (up : s.dev.awake = true)
    (hd : d = s.dev.tick at_) (hx : x = (s.dev.dport q.val).lossSeen c) :
    (lossFits q.val c = false → Becomes (.linkLoss q c at_) s s.dev) ∧
    (lossFits q.val c = true → x.link ≠ 1 → x.link ≠ 2 → Becomes (.linkLoss q c at_) s (d.setDport q.val x)) ∧
    (lossFits q.val c = true → (x.link = 1 ∨ x.link = 2) → s.dev.portPipe q.val = none → Becomes (.linkLoss q c at_) s (d.portOut q.val 3 x.lossCounted)) ∧
    (lossFits q.val c = true → (x.link = 1 ∨ x.link = 2) → ∀ p, s.dev.portPipe q.val = some p → s.dev.mustShowNow p = true → s.dev.pipePort p = q.val →
      ∀ d1, d1 = d.portOut q.val 3 x.lossCounted →
      Becomes (.linkLoss q c at_) s (d1.smRecord 0x18 (locusEngine 0x05 (portEngine q.val)) none 3 p).settle) ∧
    (lossFits q.val c = true → (x.link = 1 ∨ x.link = 2) → ∀ p, s.dev.portPipe q.val = some p → s.dev.mustShowNow p = false →
      Becomes (.linkLoss q c at_) s (d.portOut q.val 3 x.lossCounted)) := by
  subst hd hx
  refine ⟨fun unfit => ?_, fun fits training running => ?_, fun fits active unused => ?_, fun fits active p found shown port d1 hd1 => ?_,
    fun fits active p found blank => ?_⟩
  · exact becomes_run_same (exec_linkLoss q c at_ s) k (sinkLost_unfit unfit)
  · exact becomes_runFrom (exec_linkLoss q c at_ s) k (sinkLost_idle up fits training running) (.refl _)
  · exact becomes_runFrom (exec_linkLoss q c at_ s) k ((sinkLost_down up fits active).trans (linkOut_unused unused)) (.refl _)
  · subst hd1
    have set : Reported s.dev ((s.dev.tick at_).portOut q.val 3 ((s.dev.dport q.val).lossSeen c).lossCounted) := ⟨rfl, rfl⟩
    exact becomes_reported (exec_linkLoss q c at_ s) k ((sinkLost_down up fits active).trans (linkOut_shown found shown port))
      (set.trans (smRecord_reported _ _ _ _ _ _))
  · refine becomes_runFrom (exec_linkLoss q c at_ s) k ((sinkLost_down up fits active).trans (linkOut_quiet (fun r other => ?_))) (.refl _)
    obtain rfl : p = r := Option.some.inj (found.symm.trans other)
    exact blank

/-! Retries. -/

/-- What LINK_RETRY does. -/
def Dev.linkRetried (d : Dev) (q at_ : Nat) : Dev :=
  let x := d.dport q
  let t := Nat.max d.now at_
  if !d.awake then d
  else if q < 4 && !x.hpd then
    let y := { x with hpd := true }
    (d.tick at_).setDport q (if x.link = 1 || x.link = 3 || x.link = 4 then y.train t else y)
  else if (x.link = 4 && decide (x.trainFrom + 1000000000 ≤ t)) || (x.link = 3 && decide (4 ≤ q) && decide (x.trainFrom + 100000000 ≤ t)) then
    (d.tick at_).setDport q (x.train t)
  else d

theorem exec_linkRetry (q : Fin 12) (at_ : Nat) (s : State) : exec (.linkRetry q at_) s = run (fun d => d.linkRetried q.val at_) s := rfl

section
variable {d : Dev} {q at_ : Nat}

/-- HPD rises: a link that is to run trains. -/
theorem linkRetried_rises (up : d.awake = true) (dpx : q < 4) (low : (d.dport q).hpd = false) :
    d.linkRetried q at_ = (d.tick at_).setDport q
      (if (d.dport q).link = 1 || (d.dport q).link = 3 || (d.dport q).link = 4 then ({ d.dport q with hpd := true } : DispPort).train (Nat.max d.now at_)
        else { d.dport q with hpd := true }) :=
  (if_neg (by simp [up])).trans (if_pos (by simp [dpx, low]))

/-- A retry timer has run out. -/
def DispPort.retryDue (x : DispPort) (q t : Nat) : Prop :=
  (x.link = 4 ∧ x.trainFrom + 1000000000 ≤ t) ∨ (x.link = 3 ∧ 4 ≤ q ∧ x.trainFrom + 100000000 ≤ t)

theorem linkRetried_timer (up : d.awake = true) (there : 4 ≤ q ∨ (d.dport q).hpd = true) :
    ((d.dport q).retryDue q (Nat.max d.now at_) → d.linkRetried q at_ = (d.tick at_).setDport q ((d.dport q).train (Nat.max d.now at_))) ∧
    (¬ (d.dport q).retryDue q (Nat.max d.now at_) → d.linkRetried q at_ = d) := by
  have steady : ¬ (decide (q < 4) && !(d.dport q).hpd) = true := by
    rcases there with h | h
    · simp [Nat.not_lt.mpr h]
    · simp [h]
  have due : ((decide ((d.dport q).link = 4) && decide ((d.dport q).trainFrom + 1000000000 ≤ Nat.max d.now at_)) ||
      (decide ((d.dport q).link = 3) && decide (4 ≤ q) && decide ((d.dport q).trainFrom + 100000000 ≤ Nat.max d.now at_))) = true ↔
      (d.dport q).retryDue q (Nat.max d.now at_) := by
    simp [DispPort.retryDue, and_assoc]
  exact ⟨fun h => (if_neg (by simp [up])).trans ((if_neg steady).trans (if_pos (due.mpr h))),
    fun h => (if_neg (by simp [up])).trans ((if_neg steady).trans (if_neg (fun c => h (due.mp c))))⟩

end

/-- A retry starts training when HPD rises or its timer has run (R300). -/
theorem linkRetry_does {s : State} {q : Fin 12} {at_ t : Nat} {d : Dev} {x y : DispPort} (k : s.Steady) (up : s.dev.awake = true) (ht : t = Nat.max s.dev.now at_)
    (hd : d = { s.dev with now := t }) (hx : x = s.dev.dport q.val) (hy : y = { x with hpd := true }) :
    (q.val < 4 → x.hpd = false → (x.link = 1 ∨ x.link = 3 ∨ x.link = 4) → Becomes (.linkRetry q at_) s (d.setDport q.val (y.train t))) ∧
    (q.val < 4 → x.hpd = false → (x.link = 0 ∨ x.link = 2) → Becomes (.linkRetry q at_) s (d.setDport q.val y)) ∧
    ((4 ≤ q.val ∨ x.hpd = true) → x.retryDue q.val t → Becomes (.linkRetry q at_) s (d.setDport q.val (x.train t))) ∧
    ((4 ≤ q.val ∨ x.hpd = true) → (x.link = 0 ∨ x.link = 1 ∨ x.link = 2) → Becomes (.linkRetry q at_) s s.dev) := by
  subst ht hd hx hy
  refine ⟨fun dpx low link => ?_, fun dpx low link => ?_, fun there due => ?_, fun there link => ?_⟩
  · refine becomes_runFrom (exec_linkRetry q at_ s) k ((linkRetried_rises up dpx low).trans (congrArg _ (if_pos ?_))) (.refl _)
    simpa [or_assoc] using link
  · refine becomes_runFrom (exec_linkRetry q at_ s) k ((linkRetried_rises up dpx low).trans (congrArg _ (if_neg ?_))) (.refl _)
    rcases link with h | h <;> simp [h]
  · exact becomes_runFrom (exec_linkRetry q at_ s) k ((linkRetried_timer up there).1 due) (.refl _)
  · refine becomes_run_same (exec_linkRetry q at_ s) k ((linkRetried_timer up there).2 (fun due => ?_))
    rcases due with ⟨h, -⟩ | ⟨h, -⟩ <;> simp [h] at link

/-! Training. -/

/-- What LINK_TRAINING_FAILED does. -/
def Dev.trainingFailed (d : Dev) (q at_ : Nat) : Dev :=
  let x := d.dport q
  if !d.awake || x.link ≠ 1 || (decide (q < 4) && !x.edp && !x.hpd) then d
  else
    let d1 := d.tick at_
    let y := { x with tries := x.tries + 1 }
    if 3 ≤ y.tries then d1.linkOut q 4 y else if q < 4 then d1.setDport q (y.train d1.now) else d1.linkOut q 3 y

theorem exec_linkTrainingFailed (q : Fin 12) (at_ : Nat) (s : State) :
    exec (.linkTrainingFailed q at_) s = run (fun d => d.trainingFailed q.val at_) s := rfl

/-- A failed training is tried again, by DPX at once; the third in a row is FAILED (R300). -/
theorem linkTrainingFailed_does {s : State} {q : Fin 12} {at_ : Nat} {d : Dev} {x : DispPort} (k : s.Steady) (up : s.dev.awake = true)
    (hd : d = s.dev.tick at_) (hx : x = s.dev.dport q.val) (training : x.link = 1) (there : 4 ≤ q.val ∨ x.edp = true ∨ x.hpd = true) :
    (x.tries < 2 → q.val < 4 → Becomes (.linkTrainingFailed q at_) s (d.setDport q.val (({ x with tries := x.tries + 1 } : DispPort).train d.now))) ∧
    (x.tries < 2 → 4 ≤ q.val → s.dev.portPipe q.val = none → Becomes (.linkTrainingFailed q at_) s (d.portOut q.val 3 { x with tries := x.tries + 1 })) ∧
    (2 ≤ x.tries → s.dev.portPipe q.val = none → Becomes (.linkTrainingFailed q at_) s (d.portOut q.val 4 { x with tries := x.tries + 1 })) := by
  subst hd hx
  have go : ¬ (!s.dev.awake || decide ((s.dev.dport q.val).link ≠ 1) || (decide (q.val < 4) && !(s.dev.dport q.val).edp && !(s.dev.dport q.val).hpd)) = true := by
    rcases there with h | h | h
    · simp [up, training, Nat.not_lt.mpr h]
    · simp [up, training, h]
    · simp [up, training, h]
  refine ⟨fun few dpx => ?_, fun few other unused => ?_, fun many unused => ?_⟩ <;>
    refine becomes_runFrom (exec_linkTrainingFailed q at_ s) k ((if_neg go).trans ?_) (.refl _)
  · exact (if_neg (show ¬ 3 ≤ (s.dev.dport q.val).tries + 1 by omega)).trans (if_pos dpx)
  · exact (if_neg (show ¬ 3 ≤ (s.dev.dport q.val).tries + 1 by omega)).trans ((if_neg (Nat.not_lt.mpr other)).trans (linkOut_unused unused))
  · exact (if_pos (show 3 ≤ (s.dev.dport q.val).tries + 1 by omega)).trans (linkOut_unused unused)

/-! Links that are up. -/

/-- Whether a port that trains is ready to be UP at an instant (R462, R463). -/
def Dev.linkReady (d : Dev) (q t : Nat) : Bool :=
  if q < 4 then (d.dport q).edp || (d.dport q).hpd else decide ((d.panelSteps q).length ≤ (d.dport q).initStep) && decide ((d.dport q).initDue ≤ t)

/-- A port that is UP, and its pipe from then on. -/
def Dev.linkedUp (d : Dev) (q p : Nat) (x : DispPort) : Dev :=
  (d.setDport q { x with link := 2, tries := 0, trainFrom := d.now, trained := BitVec.ofNat 4 (fld (d.obj 0x01 p 2) 33 4) }).setPt p
    { d.pt p with relinkUp := some d.now, teLast := none, tePrev := none }

/-- What LINK_UP does. -/
def Dev.linkTrained (d : Dev) (q at_ : Nat) : Dev :=
  let x := d.dport q
  match d.portPipe q with
  | some p =>
    if d.awake && x.link = 1 && d.linkReady q (Nat.max d.now at_) then
      let d0 := d.tick at_
      let d1 := if x.edp && decide (q < 4) then d0.storeLink q p else d0
      d1.linkedUp q p x
    else d
  | none => d

theorem exec_linkUp (q : Fin 12) (at_ : Nat) (s : State) : exec (.linkUp q at_) s = run (fun d => d.linkTrained q.val at_) s := rfl

/-- The link settings of a panel change the store alone (R462, R489). -/
theorem storeLink_frame (d : Dev) (q p : Nat) : { d.storeLink q p with flash := d.flash } = d := by
  unfold Dev.storeLink
  dsimp only
  split
  · split <;> rfl
  · rfl

/-- Settings that fit are kept (R489). -/
theorem storeLink_fits {d : Dev} {q p : Nat} {b : List Byte} (item : d.deviceItem 0x0203 q = some b) (rate : natAt b 0 1 = fld (d.obj 0x01 p 2) 33 4)
    (lanes : natAt b 1 1 = fld (d.obj 0x01 p 2) 30 3) : d.storeLink q p = d := by
  unfold Dev.storeLink
  simp [item, rate, lanes]

/-- The settings of a panel are stored, unless those that are stored fit; what LINK_UP reads is as it was. -/
theorem linkTrained_up {d : Dev} {q at_ p : Nat} (up : d.awake = true) (found : d.portPipe q = some p) (training : (d.dport q).link = 1)
    (ready : d.linkReady q (Nat.max d.now at_) = true) {d0 : Dev} (hd0 : d0 = if (d.dport q).edp = true ∧ q < 4 then (d.tick at_).storeLink q p else d.tick at_) :
    d.linkTrained q at_ = (d0.setDport q { d.dport q with
      link := 2, tries := 0, trainFrom := Nat.max d.now at_, trained := BitVec.ofNat 4 (fld (d.obj 0x01 p 2) 33 4) }).setPt p
      { d.pt p with relinkUp := some (Nat.max d.now at_), teLast := none, tePrev := none } ∧ { d0 with flash := d.flash } = d.tick at_ := by
  have frame : { d0 with flash := d.flash } = d.tick at_ := by
    rw [hd0]
    split
    · exact storeLink_frame (d.tick at_) q p
    · rfl
  have step : d.linkTrained q at_ = d0.linkedUp q p (d.dport q) := by
    unfold Dev.linkTrained
    simp only [found, up, training, ready, decide_true, Bool.and_self, if_true, Bool.and_eq_true, decide_eq_true_eq, hd0]
  have now : d0.now = Nat.max d.now at_ := (congrArg Dev.now frame :)
  have obj : d0.obj 0x01 p 2 = d.obj 0x01 p 2 := (congrArg (fun x : Dev => x.obj 0x01 p 2) frame :)
  have pt : d0.pt p = d.pt p := (congrArg (fun x : Dev => x.pt p) frame :)
  exact ⟨step.trans (by rw [Dev.linkedUp, now, obj, pt]), frame⟩

theorem linkUp_does {s : State} {q : Fin 12} {at_ p : Nat} {d : Dev} {x : DispPort} (k : s.Steady) (up : s.dev.awake = true) (hd : d = s.dev.tick at_)
    (hx : x = s.dev.dport q.val) (found : s.dev.portPipe q.val = some p) (training : x.link = 1)
    (ready : if q.val < 4 then x.edp = true ∨ x.hpd = true else (s.dev.panelSteps q.val).length ≤ x.initStep ∧ x.initDue ≤ d.now)
    {d0 : Dev} (hd0 : d0 = if x.edp = true ∧ q.val < 4 then d.storeLink q.val p else d) :
    Becomes (.linkUp q at_) s ((d0.setDport q.val { x with link := 2, tries := 0, trainFrom := d.now, trained := BitVec.ofNat 4 (fld (s.dev.obj 0x01 p 2) 33 4) }).setPt p
      { s.dev.pt p with relinkUp := some d.now, teLast := none, tePrev := none }) := by
  subst hd hx
  have go : s.dev.linkReady q.val (Nat.max s.dev.now at_) = true := by
    unfold Dev.linkReady
    split at ready
    next dpx => simpa [dpx] using ready
    next other =>
      simp only [other, if_false, Bool.and_eq_true, decide_eq_true_eq]
      exact ready
  obtain ⟨step, frame⟩ := linkTrained_up up found training go hd0
  exact becomes_runFrom (exec_linkUp q at_ s) k step ⟨(congrArg Dev.mem frame :), (congrArg Dev.update frame :), (congrArg Dev.safety frame :)⟩

/-! PANEL_INIT. -/

/-- What PANEL_INIT_STEP does. -/
def Dev.panelStepped (d : Dev) (q : Nat) (ok : Bool) (at_ : Nat) : Dev :=
  let x := d.dport q
  match (d.panelSteps q)[x.initStep]? with
  | some st =>
    if d.awake && decide (4 ≤ q) && x.link = 1 && decide (x.initDue ≤ Nat.max d.now at_) then
      let d1 := d.tick at_
      if ok then d1.setDport q { x with initStep := x.initStep + 1, initFails := 0, initDue := d1.now + st.delay }
      else if x.initFails = 0 then d1.setDport q { x with initFails := 1 }
      else d1.linkOut q 4 { x with initFails := 0 }
    else d
  | none => d

theorem exec_panelInitStep (q : Fin 12) (ok : Bool) (at_ : Nat) (s : State) :
    exec (.panelInitStep q ok at_) s = run (fun d => d.panelStepped q.val ok at_) s := rfl

/-- A step of PANEL_INIT passes, fails, or fails again, which is FAILED (R463). -/
theorem panelInitStep_does {s : State} {q : Fin 12} {at_ : Nat} {st : PanelStep} {d : Dev} {x : DispPort} (k : s.Steady) (up : s.dev.awake = true)
    (hd : d = s.dev.tick at_) (hx : x = s.dev.dport q.val) (next : (s.dev.panelSteps q.val)[x.initStep]? = some st) (dsi : 4 ≤ q.val) (training : x.link = 1)
    (due : x.initDue ≤ d.now) :
    Becomes (.panelInitStep q true at_) s (d.setDport q.val { x with initStep := x.initStep + 1, initFails := 0, initDue := d.now + st.delay }) ∧
    (x.initFails = 0 → Becomes (.panelInitStep q false at_) s (d.setDport q.val { x with initFails := 1 })) ∧
    (x.initFails ≠ 0 → s.dev.portPipe q.val = none → Becomes (.panelInitStep q false at_) s (d.portOut q.val 4 { x with initFails := 0 })) := by
  subst hd hx
  change (s.dev.dport q.val).initDue ≤ Nat.max s.dev.now at_ at due
  refine ⟨?_, fun first => ?_, fun again unused => ?_⟩ <;>
    refine becomes_runFrom (exec_panelInitStep q _ at_ s) k ?_ (.refl _) <;>
    simp only [Dev.panelStepped, next, up, dsi, training, due, decide_true, Bool.and_self, if_true, Bool.false_eq_true, if_false]
  · exact if_pos first
  · exact (if_neg again).trans (linkOut_unused unused)

/-- A link that does not train takes neither its end nor a step (R300, R463). -/
theorem training_none {s : State} {q : Fin 12} {at_ : Nat} (k : s.Steady) (idle : (s.dev.dport q.val).link ≠ 1) :
    Becomes (.linkUp q at_) s s.dev ∧ Becomes (.linkTrainingFailed q at_) s s.dev ∧ ∀ ok, Becomes (.panelInitStep q ok at_) s s.dev := by
  have untrained : s.dev.trainingFailed q.val at_ = s.dev := by
    unfold Dev.trainingFailed
    exact if_pos (by simp only [decide_eq_true idle, Bool.or_true, Bool.true_or])
  refine ⟨becomes_run_same (exec_linkUp q at_ s) k ?_, becomes_run_same (exec_linkTrainingFailed q at_ s) k untrained,
    fun ok => becomes_run_same (exec_panelInitStep q ok at_ s) k ?_⟩
  · unfold Dev.linkTrained
    dsimp only
    split
    · simp only [idle, decide_false, Bool.and_false, Bool.false_and, Bool.false_eq_true, if_false]
    · rfl
  · unfold Dev.panelStepped
    dsimp only
    split
    · simp only [idle, decide_false, Bool.and_false, Bool.false_and, Bool.false_eq_true, if_false]
    · rfl

/-- Settles O43: each command of a link by the state that it finds the port in. -/
theorem displayLinks : Obligations.DisplayLinks :=
  ⟨fun _ _ _ _ _ k up hx => hpdIrq_does k up hx, fun _ _ _ _ _ _ k up hd hx => linkLoss_does k up hd hx,
    fun _ _ _ _ _ _ _ k up ht hd hx hy => linkRetry_does k up ht hd hx hy,
    fun _ _ _ _ _ k up hd hx training there => linkTrainingFailed_does k up hd hx training there,
    fun _ _ _ _ _ _ k up hd hx found training ready _ hd0 => linkUp_does k up hd hx found training ready hd0,
    fun _ _ _ _ item rate lanes => storeLink_fits item rate lanes, fun _ _ _ k idle => training_none k idle,
    fun _ _ _ _ _ _ k up hd hx next dsi training due => panelInitStep_does k up hd hx next dsi training due⟩

end Sys2Proof.Machine
end

section
/-! The instants of a frame: VBLANK as it is fixed, and the end of an adaptive hold (R40, R277, R287). -/

namespace Sys2Proof.Machine

section
variable {d : Dev} {p t k : Nat}

theorem vblankDue_iff : d.vblankDue p t = true ↔ ∃ v, d.vblankAt p = some v ∧ t ≤ stampOf v + 2 ∧ stampOf v ≤ t + 2 := by
  unfold Dev.vblankDue
  cases d.vblankAt p <;> simp [near]

/-- Outside command mode a frame ends with its active area, or after the lines that an adaptive hold has lasted (R277, R287). -/
theorem vblankAt_scanning (video : d.dsiCmd p = false) (scanning : (d.pt p).firstLine ≠ none) :
    (d.adaptive p = false → d.vblankAt p = some (d.lineInstant p (d.timing p).vact)) ∧
    (∀ k, d.adaptive p = true → (d.pt p).hold = some k → d.vblankAt p = some (d.lineInstant p ((d.timing p).vact + k))) ∧
    (d.adaptive p = true → (d.pt p).hold = none → d.vblankAt p = none) := by
  obtain ⟨t, first⟩ := Option.ne_none_iff_exists'.mp scanning
  have ends : d.activeEndAt p = some (d.lineInstant p (d.timing p).vact) := by rw [Dev.activeEndAt, first]; rfl
  refine ⟨fun fixed => ?_, fun k adaptive hold => ?_, fun adaptive hold => ?_⟩
  · simp [Dev.vblankAt, ends, video, fixed]
  · simp [Dev.vblankAt, ends, video, adaptive, hold]
  · simp [Dev.vblankAt, ends, video, adaptive, hold]

theorem holdLimit_iff : d.holdLimit p k = true ↔ d.holdEnds p (d.holdLine p k) = true ∨ fld (d.obj 0x01 p 4) 26 14 ≤ k := by
  simp [Dev.holdLimit]

end

section
variable {s : State} {p : Fin 12} {at_ : Nat} (k : s.Steady)
include k

/-- A hold ends at the first line boundary at which a condition holds (R287). -/
theorem adaptiveHoldEnd_does {lines : Nat} {e : Rat} {d : Dev} (hd : d = { s.dev with now := Nat.max s.dev.now at_ })
    (ends : s.dev.activeEndAt p.val = some e)
    (hk : lines = stampOf (((at_ : Rat) - e) / pixelsNs ((s.dev.timing p.val).htotal : Nat) (s.dev.pt p.val).inc.toNat))
    (runs : s.dev.pipeRuns p.val = true) (adaptive : s.dev.adaptive p.val = true) (holding : (s.dev.pt p.val).hold = none) (timely : s.dev.now ≤ at_) :
    (near at_ (s.dev.holdLine p.val lines) = true → s.dev.holdLimit p.val lines = true → (lines = 0 ∨ s.dev.holdLimit p.val (lines - 1) = false) →
      Becomes (.adaptiveHoldEnd p at_) s (d.setPt p.val { s.dev.pt p.val with hold := some lines })) ∧
    ((near at_ (s.dev.holdLine p.val lines) = false ∨ s.dev.holdLimit p.val lines = false ∨ (lines ≠ 0 ∧ s.dev.holdLimit p.val (lines - 1) = true)) →
      Becomes (.adaptiveHoldEnd p at_) s s.dev) := by
  subst hd
  have held : (s.dev.pt p.val).hold.isNone = true := by rw [holding]; rfl
  refine ⟨fun boundary limit first => ?_, fun other => ?_⟩ <;>
    refine becomes_runFrom (show execAdaptiveHoldEnd p at_ s = _ by unfold execAdaptiveHoldEnd; rfl) k ?_ (.refl _) <;>
    simp only [ends, ← hk]
  · have earliest : (decide (lines = 0) || !s.dev.holdLimit p.val (lines - 1)) = true := by
      rcases first with zero | before
      · simp [zero]
      · simp [before]
    exact if_pos (by simp only [runs, adaptive, held, timely, boundary, limit, earliest, decide_true, Bool.and_self])
  · refine if_neg ?_
    rcases other with apart | unlimited | ⟨later, before⟩
    · simp [apart]
    · simp [unlimited]
    · simp [later, before]

/-- Before the first active line no hold has begun. -/
theorem adaptiveHoldEnd_blank (blank : (s.dev.pt p.val).firstLine = none) : Becomes (.adaptiveHoldEnd p at_) s s.dev := by
  have unended : s.dev.activeEndAt p.val = none := by rw [Dev.activeEndAt, blank]; rfl
  refine becomes_runFrom (show execAdaptiveHoldEnd p at_ s = _ by unfold execAdaptiveHoldEnd; rfl) k ?_ (.refl _)
  simp only [unended]

end
end Sys2Proof.Machine
end

section
/-! What the work on a frame at its VBLANK leaves alone (R227, R242 to R249, R263, R281, R288, R293). -/

namespace Sys2Proof.Machine

/-- The frame that a pipe scans is the same: its number, its instants, its first line and its hold. -/
def PipeTime.SameFrame (x y : PipeTime) : Prop :=
  y.frame = x.frame ∧ y.lastVb = x.lastVb ∧ y.firstLine = x.firstLine ∧ y.hold = x.hold ∧ y.vbAt = x.vbAt

theorem PipeTime.SameFrame.refl (x : PipeTime) : x.SameFrame x := ⟨rfl, rfl, rfl, rfl, rfl⟩

theorem PipeTime.SameFrame.trans {x y z : PipeTime} (h : x.SameFrame y) (k : y.SameFrame z) : x.SameFrame z := by
  obtain ⟨h1, h2, h3, h4, h5⟩ := h
  obtain ⟨k1, k2, k3, k4, k5⟩ := k
  exact ⟨k1.trans h1, k2.trans h2, k3.trans h3, k4.trans h4, k5.trans h5⟩

/-- Published words, operations, the composition, function registers and the timing of pipe p, for its same frame, alone have changed. -/
def FrameWork (p : Nat) (d e : Dev) : Prop :=
  { e with objs := d.objs, publication := d.publication, ops := d.ops, comp := d.comp, disp := { e.disp with pipes := d.disp.pipes }, fns := d.fns
           msgs := d.msgs } = d ∧
  (∀ q, q ≠ p → e.pt q = d.pt q) ∧ (d.pt p).SameFrame (e.pt p)

namespace FrameWork
variable {d e : Dev} {p : Nat}

theorem trans {r : Dev} (h : FrameWork p d e) (k : FrameWork p e r) : FrameWork p d r := by
  obtain ⟨frame, others, same⟩ := h
  obtain ⟨frame', others', same'⟩ := k
  exact ⟨(congrArg (fun x : Dev => { x with
    objs := d.objs, publication := d.publication, ops := d.ops, comp := d.comp, disp := { x.disp with pipes := d.disp.pipes }, fns := d.fns
    msgs := d.msgs }) frame' :).trans frame, fun q ne => (others' q ne).trans (others q ne), same.trans same'⟩

/-- A pipe's timing replaced within its frame. -/
theorem setPt {x : PipeTime} (same : (d.pt p).SameFrame x) : FrameWork p d (d.setPt p x) :=
  ⟨rfl, fun q ne => by rw [Dev.pt_setPt, if_neg ne.symm], by rw [Dev.pt_setPt_same]; exact same⟩

end FrameWork

theorem frameWork_of_untimed {d e : Dev} {p : Nat} (frame : { e with
    objs := d.objs, publication := d.publication, ops := d.ops, comp := d.comp, fns := d.fns, msgs := d.msgs } = d) : FrameWork p d e := by
  have disp : e.disp = d.disp := (congrArg Dev.disp frame :)
  have pt (q : Nat) : e.pt q = d.pt q := by rw [Dev.pt, disp]; rfl
  refine ⟨?_, fun q _ => pt q, pt p ▸ .refl _⟩
  rw [← disp]
  exact (congrArg (fun x : Dev => { x with disp := e.disp }) frame :).trans (by rw [disp])

theorem StatusOnly.work {d e : Dev} {p : Nat} (h : StatusOnly d e) : FrameWork p d e :=
  frameWork_of_untimed (congrArg (fun x : Dev => { x with ops := d.ops, fns := d.fns, msgs := d.msgs }) h :)

section
variable (d : Dev) (p : Nat)

theorem dropSlots_status : StatusOnly d (d.dropSlots p) := by
  refine .foldl (fun d s => ?_) (List.range 16) d
  dsimp only
  split
  · split <;> rfl
  · rfl

theorem endOps_frame {α : Type} (l : List α) (d : Dev) {id : α → OpId} {status : Nat} {r : α → Option Nat} {h : α → Op → Op} :
    { l.foldl (fun d x => d.endOp (id x) status (r x) (h x)) d with ops := d.ops } = d :=
  List.foldlRecOn l _ (motive := fun e : Dev => { e with ops := d.ops } = d) rfl
    (fun e frame x _ => (congrArg (fun y : Dev => { y with ops := d.ops }) (endOp_frame e (id x) status (r x) (h x)) :).trans frame)

theorem supersede_frame (l : List (OpId × Nat)) : { d.supersede l with ops := d.ops } = d := endOps_frame l d

theorem supersede_work (l : List (OpId × Nat)) : FrameWork p d (d.supersede l) :=
  frameWork_of_untimed (congrArg (fun x : Dev => { x with
    objs := d.objs, publication := d.publication, comp := d.comp, fns := d.fns, msgs := d.msgs }) (supersede_frame d l) :)

theorem frameBegin_work (n v : Nat) (dirty : Bool) : FrameWork p d (d.frameBegin p n v dirty) := by
  have pipe (x y : PipeComp) (l : List (OpId × Nat)) : FrameWork p d (((d.setPc p x).setPc p y).supersede l) := by
    have formed : FrameWork p d ((d.setPc p x).setPc p y) := frameWork_of_untimed rfl
    exact formed.trans (supersede_work _ p l)
  unfold Dev.frameBegin
  exact pipe _ _ _

theorem startOffset_work (e : Rat) : FrameWork p d (d.startOffset p e) := .setPt ⟨rfl, rfl, rfl, rfl, rfl⟩

theorem alignStep_work : FrameWork p d (d.alignStep p) := by
  have slip : FrameWork p d (d.setPt p { d.pt p with slipLines := (d.pt p).slipNext, slipNext := 0 }) := .setPt ⟨rfl, rfl, rfl, rfl, rfl⟩
  unfold Dev.alignStep
  dsimp only
  split
  · exact slip
  · split
    · exact slip.trans (startOffset_work _ p _)
    · exact slip

theorem refreshStep_work (quiet : Bool) : FrameWork p d (d.refreshStep p quiet) := .setPt ⟨rfl, rfl, rfl, rfl, rfl⟩

theorem noteLt_work : FrameWork p d (d.noteLt p) := .setPt ⟨rfl, rfl, rfl, rfl, rfl⟩

/-- The latency tolerance of a frame kept as the next one begins. -/
theorem keepLt_work (n : Nat) : FrameWork p d (d.setPt p { d.pt p with ltMin := (d.pt p).ltNow, ltNow := n, late := false }) :=
  .setPt ⟨rfl, rfl, rfl, rfl, rfl⟩

theorem vblankPublish_work (n t : Nat) (dirty quiet : Bool) : FrameWork p d (d.vblankPublish p n t dirty quiet) := by
  have begun := ((alignStep_work d p).trans (frameBegin_work _ p n t dirty)).trans (refreshStep_work _ p quiet)
  unfold Dev.vblankPublish
  split
  · exact (publishPipe_status d p).work
  · exact ((begun.trans (keepLt_work _ p _)).trans (noteLt_work _ p)).trans (publishPipe_status _ p).work

end

end Sys2Proof.Machine
end

section
/-! VBLANK (R27, R134, R247, R277, R281, R503). -/

namespace Sys2Proof.Machine

/-! Overdue strips. -/

/-- The composition, function registers and the tolerance of pipe p alone have changed. -/
def StripsMissed (p : Nat) (d e : Dev) : Prop :=
  { e with comp := d.comp, disp := { e.disp with pipes := d.disp.pipes }, fns := d.fns, msgs := d.msgs } = d ∧
  (∀ q, q ≠ p → e.pt q = d.pt q) ∧ { e.pt p with ltNow := (d.pt p).ltNow } = d.pt p

namespace StripsMissed
variable {d e : Dev} {p : Nat}

theorem refl (d : Dev) (p : Nat) : StripsMissed p d d := ⟨rfl, fun _ _ => rfl, rfl⟩

theorem trans {r : Dev} (h : StripsMissed p d e) (k : StripsMissed p e r) : StripsMissed p d r := by
  obtain ⟨frame, others, own⟩ := h
  obtain ⟨frame', others', own'⟩ := k
  exact ⟨(congrArg (fun x : Dev => { x with comp := d.comp, disp := { x.disp with pipes := d.disp.pipes }, fns := d.fns, msgs := d.msgs }) frame' :).trans frame,
    fun q ne => (others' q ne).trans (others q ne), (congrArg (fun x : PipeTime => { x with ltNow := (d.pt p).ltNow }) own' :).trans own⟩

/-- VBLANK is fixed at the same instant (R277). -/
theorem vblankAt (h : StripsMissed p d e) : e.vblankAt p = d.vblankAt p := by
  obtain ⟨frame, -, own⟩ := h
  have timing : e.timing p = d.timing p := (congrArg (fun x : Dev => x.timing p) frame :)
  have command : e.dsiCmd p = d.dsiCmd p := (congrArg (fun x : Dev => x.dsiCmd p) frame :)
  have adaptive : e.adaptive p = d.adaptive p := (congrArg (fun x : Dev => x.adaptive p) frame :)
  have period : e.frameNs p = d.frameNs p := (congrArg (fun x : Dev => x.frameNs p) frame :)
  have pipe : d.pt p = { e.pt p with ltNow := (d.pt p).ltNow } := own.symm
  simp only [Dev.vblankAt, Dev.activeEndAt, Dev.lineInstant, Dev.linePos, Dev.predicted, Dev.teBase, timing, command, adaptive, period]
  generalize (d.pt p).ltNow = l at pipe
  rw [pipe]
  rfl

end StripsMissed

theorem Signalled.missed {d e : Dev} (h : Signalled d e) (p : Nat) : StripsMissed p d e := by
  have disp : e.disp = d.disp := (congrArg Dev.disp h.1 :)
  refine ⟨?_, fun q _ => h.pt q, by rw [h.pt]⟩
  rw [disp]
  exact (congrArg (fun x : Dev => { x with comp := d.comp, disp := d.disp }) h.1 :)

theorem stripLost_missed (d : Dev) (p j : Nat) (c : Composition) : StripsMissed p d (d.stripLost p j c) := by
  have pt (q : Nat) : (d.stripLost p j c).pt q = (d.setPt p { d.pt p with ltNow := 0 }).pt q := rfl
  exact ⟨rfl, fun q ne => by rw [pt, Dev.pt_setPt, if_neg ne.symm], by rw [pt, Dev.pt_setPt_same]⟩

theorem missStrip_missed (d : Dev) (p j : Nat) (c : Composition) : StripsMissed p d (d.missStrip p j c) :=
  (stripLost_missed d p j c).trans ((pipeEvent_signalled (d.stripLost p j c) p 5).missed p)

theorem missOverdue_missed (d : Dev) (p : Nat) : StripsMissed p d (d.missOverdue p) := by
  unfold Dev.missOverdue
  split
  · rename_i c _
    split
    · exact .refl d p
    · exact List.foldlRecOn _ _ (motive := StripsMissed p d) (.refl d p) (fun e missed j _ => missed.trans (missStrip_missed e p j c))
  · exact .refl d p

/-- No word of the Vitrine is uncorrectable, and none is reported (R258). -/
theorem vitrineScan_clean {d : Dev} (clean : ∀ l ∈ d.poison, l < 2 ^ 40) (p : Nat) : d.vitrineScan p = d := by
  have low (l : Nat) (mem : l ∈ d.poison) : decide (2 ^ 40 ≤ l) = false := decide_eq_false (Nat.not_le.mpr (clean l mem))
  unfold Dev.vitrineScan
  dsimp only
  rw [List.filter_eq_nil_iff.mpr (fun l mem => by simp only [low l mem, Bool.false_and, Bool.false_eq_true, not_false_eq_true])]
  rfl

/-! The frame that begins. -/

/-- The next frame of pipe p begins at t, and is counted (R277). -/
def Dev.frameStarted (d : Dev) (p t : Nat) : Dev :=
  (d.setPt p { (d.pt p).anchor ((d.vblankAt p).getD (t : Nat)) with
    frame := (d.pt p).frame + 1, lastVb := some t, firstLine := none, hold := none, showcase := d.showcaseNow p }).occur 1 p

/-- The flips that are due are taken up, and a force that has waited for VBLANK (R281, R503). -/
def Dev.frameDue (d : Dev) (p n t : Nat) : Dev :=
  { d with
    disp := { d.disp with flips := (Dev.dueFlips d.disp.flips p n t).1 }
    safety := { d.safety with
      force := d.safety.force ||| (d.safety.forceWanted &&& BitVec.ofNat 12 (2 ^ p))
      forceWanted := d.safety.forceWanted &&& ~~~(BitVec.ofNat 12 (2 ^ p)) } }

/-- A VBLANK is the start of a frame, what is due, the work on the frame, and the event. -/
theorem vblankStep_eq (d : Dev) (p t : Nat) : ∃ n due dirty quiet old, d.vblankStep p t =
    ((((((((d.tick t).missOverdue p).vitrineScan p).frameStarted p t).frameDue p n t).dropSlots p).applyDue due
      (Dev.vblankPublish p n t dirty quiet)).supersede old).pipeEvent p 0 := ⟨_, _, _, _, _, rfl⟩

section
variable (d : Dev) (p t n : Nat)

theorem frameStarted_pt : (d.frameStarted p t).pt p = { (d.pt p).anchor ((d.vblankAt p).getD (t : Nat)) with
    frame := (d.pt p).frame + 1, lastVb := some t, firstLine := none, hold := none, showcase := d.showcaseNow p } :=
  Dev.pt_setPt_same d p _

theorem frameStarted_pt_ne {q : Nat} (ne : q ≠ p) : (d.frameStarted p t).pt q = d.pt q := (Dev.pt_setPt d p q _).trans (if_neg ne.symm)

theorem occur_evCount (kind param : Nat) : (d.occur kind param).evCount kind param = d.evCount kind param + 1 := tget_tset_same _ _ _ _

theorem forceTaken (force wanted : BitVec 12) (lt : p < 12) :
    bit (force ||| (wanted &&& BitVec.ofNat 12 (2 ^ p))) p = (bit force p || bit wanted p) ∧ bit (wanted &&& ~~~(BitVec.ofNat 12 (2 ^ p))) p = false := by
  have own : (BitVec.ofNat 12 (2 ^ p)).getLsbD p = true := by
    rw [BitVec.getLsbD_ofNat, Nat.testBit_two_pow_self, decide_eq_true lt]
    rfl
  simp only [bit, BitVec.getLsbD_or, BitVec.getLsbD_and, BitVec.getLsbD_not, own, Bool.and_true, Bool.not_true, Bool.and_false, and_self]

end

/-! The command. -/

theorem Signalled.work {d e : Dev} (h : Signalled d e) (p : Nat) : FrameWork p d e :=
  frameWork_of_untimed (congrArg (fun x : Dev => { x with objs := d.objs, publication := d.publication, ops := d.ops, comp := d.comp }) h.1 :)

/-- The work on a frame without commits, up to the event (R242 to R249, R263, R281). -/
theorem frameWorked {d : Dev} (none : d.commits = []) (p n t : Nat) (due : Commit → Bool) (dirty quiet : Bool) (old : List (OpId × Nat)) :
    FrameWork p d (((d.dropSlots p).applyDue due (Dev.vblankPublish p n t dirty quiet)).supersede old) := by
  have drop := dropSlots_status d p
  have none' : (d.dropSlots p).commits = [] := (congrArg Dev.commits drop :).trans none
  rw [applyDue_empty none']
  exact ((drop.work.trans (vblankPublish_work _ p n t dirty quiet)).trans (published_status _ _).work).trans (supersede_work _ p old)

/-- The device at the start of the frame, with what is due. -/
def Dev.vblankBegun (d : Dev) (p n t : Nat) : Dev := (((d.tick t).missOverdue p).frameStarted p t).frameDue p n t

section
variable {d : Dev} {p n t : Nat}

/-- A VBLANK without commits and reports is the start of the frame, work on it, and the event. -/
theorem vblankStep_work (p t : Nat) (none : d.commits = []) (clean : ∀ l ∈ d.poison, l < 2 ^ 40) :
    ∃ n e, FrameWork p (d.vblankBegun p n t) e ∧ d.vblankStep p t = e.pipeEvent p 0 := by
  obtain ⟨n, due, dirty, quiet, old, step⟩ := vblankStep_eq d p t
  have frame := (missOverdue_missed (d.tick t) p).1
  have poison : ((d.tick t).missOverdue p).poison = d.poison := (congrArg Dev.poison frame :)
  have commits : (d.vblankBegun p n t).commits = [] := (congrArg Dev.commits frame :).trans none
  rw [vitrineScan_clean (poison ▸ clean)] at step
  exact ⟨n, _, frameWorked commits p n t due dirty quiet old, step⟩

theorem vblankBegun_frame : { d.vblankBegun p n t with
    comp := d.comp, disp := d.disp, fns := d.fns, msgs := d.msgs, events := d.events, rings := d.rings, fw := d.fw, safety := d.safety } = d.tick t := by
  have frame := (missOverdue_missed (d.tick t) p).1
  unfold Dev.vblankBegun
  generalize (d.tick t).missOverdue p = m at frame ⊢
  exact (congrArg (fun x : Dev => { x with disp := d.disp, events := d.events, rings := d.rings, fw := d.fw, safety := d.safety }) frame :)

theorem vblankBegun_safety : (d.vblankBegun p n t).safety = { d.safety with
    force := d.safety.force ||| (d.safety.forceWanted &&& BitVec.ofNat 12 (2 ^ p))
    forceWanted := d.safety.forceWanted &&& ~~~(BitVec.ofNat 12 (2 ^ p)) } := by
  have safety : ((d.tick t).missOverdue p).safety = d.safety := (congrArg Dev.safety (missOverdue_missed (d.tick t) p).1 :)
  rw [← safety]
  rfl

theorem vblankBegun_calm (h : d.Calm) : (d.vblankBegun p n t).Calm := by
  obtain ⟨still, quiet⟩ := h
  refine ⟨(congrArg (fun x : Dev => x.update.step) (vblankBegun_frame (n := n)) :).trans still, ?_⟩
  rw [vblankBegun_safety]
  exact quiet

/-- The frame is the next one, begun at the instant fixed (R277). -/
theorem vblankBegun_pt : ((d.vblankBegun p n t).pt p).frame = (d.pt p).frame + 1 ∧ ((d.vblankBegun p n t).pt p).lastVb = some t ∧
    ((d.vblankBegun p n t).pt p).firstLine = none ∧ ((d.vblankBegun p n t).pt p).hold = none ∧
    ((d.vblankBegun p n t).pt p).vbAt = (d.vblankAt p).getD (t : Nat) := by
  have missed := missOverdue_missed (d.tick t) p
  have frame : (((d.tick t).missOverdue p).pt p).frame = (d.pt p).frame := (congrArg PipeTime.frame missed.2.2 :)
  have fixed : ((d.tick t).missOverdue p).vblankAt p = d.vblankAt p := missed.vblankAt
  have pt : (d.vblankBegun p n t).pt p = (((d.tick t).missOverdue p).frameStarted p t).pt p := rfl
  rw [pt, frameStarted_pt, ← frame, ← fixed]
  exact ⟨rfl, rfl, rfl, rfl, rfl⟩

theorem vblankBegun_pt_ne {q : Nat} (ne : q ≠ p) : (d.vblankBegun p n t).pt q = d.pt q :=
  (frameStarted_pt_ne _ p t ne).trans ((missOverdue_missed (d.tick t) p).2.1 q ne)

theorem vblankBegun_evCount : (d.vblankBegun p n t).evCount 1 p = d.evCount 1 p + 1 := by
  have events : ((d.tick t).missOverdue p).evCount 1 p = d.evCount 1 p := (congrArg (fun x : Dev => x.evCount 1 p) (missOverdue_missed (d.tick t) p).1 :)
  rw [← events]
  exact occur_evCount _ 1 p

theorem vblankBegun_ring (g : Nat) : (d.vblankBegun p n t).ring g = (d.ring g).meet 1 p (Nat.max d.now t) := by
  have frame := (missOverdue_missed (d.tick t) p).1
  have ring : ((d.tick t).missOverdue p).ring g = d.ring g := (congrArg (fun x : Dev => x.ring g) frame :)
  have now : ((d.tick t).missOverdue p).now = Nat.max d.now t := (congrArg Dev.now frame :)
  rw [← ring, ← now]
  exact occur_ring _ 1 p g

end

/-- A command that leaves a calm device without stores passes it on. -/
theorem does_passed_of_calm {i : Instr} {s : State} {who : Nat × Nat} {h : Dev → Dev} {d : Dev} (x : exec i s = runFrom who h s) (hd : h s.dev = d)
    (calm : d.Calm) (writes : d.writes = []) (mem : d.mem = s.dev.mem) : Does i s (Passed d) :=
  ⟨commit who s d, by rw [x, runFrom_calm who h s (hd ▸ calm), hd], rfl, by rw [commit_memory who s d writes mem]; rfl⟩

section
variable {d e : Dev} {p : Nat} (h : FrameWork p d e)
include h

theorem FrameWork.endsAlike : EndsAlike d e := ⟨(congrArg Dev.mem h.1 :), (congrArg Dev.update h.1 :), (congrArg Dev.safety h.1 :)⟩
theorem FrameWork.now : e.now = d.now := (congrArg Dev.now h.1 :)
theorem FrameWork.writes : e.writes = d.writes := (congrArg Dev.writes h.1 :)
theorem FrameWork.ring (g : Nat) : e.ring g = d.ring g := (congrArg (fun x : Dev => x.ring g) h.1 :)
theorem FrameWork.evCount (kind param : Nat) : e.evCount kind param = d.evCount kind param := (congrArg (fun x : Dev => x.evCount kind param) h.1 :)
theorem FrameWork.exists_ (f : Nat) : e.exists_ f = d.exists_ f := (congrArg (fun x : Dev => x.exists_ f) h.1 :)
theorem FrameWork.manager : e.manager = d.manager := (congrArg Dev.manager h.1 :)

end

theorem Passed.evCount {d e : Dev} (h : Passed d e) (kind param : Nat) : e.evCount kind param = d.evCount kind param :=
  (congrArg (fun x : Dev => x.evCount kind param) h :)
theorem Passed.safety {d e : Dev} (h : Passed d e) : e.safety = d.safety := (congrArg Dev.safety h :)

theorem seesPipe_manager {d : Dev} {f : Nat} (h : f = d.manager) (p : Nat) : d.seesPipe f p = true := by simp [Dev.seesPipe, h]

/-- VBLANK at its instant begins the next frame (R277). -/
theorem vblank_does {s : State} {p : Fin 12} {at_ : Nat} (k : s.Steady) (runs : s.dev.pipeRuns p.val = true) (timely : s.dev.now ≤ at_)
    (due : s.dev.vblankDue p.val at_ = true) (formed : (s.dev.frameOf p.val).map (fun f => f.n) = some (s.dev.pt p.val).frame.toNat)
    (none : s.dev.commits = []) (clean : ∀ l ∈ s.dev.poison, l < 2 ^ 40) : Does (.vblank p at_) s (fun e =>
      e.now = Nat.max s.dev.now at_ ∧ (e.pt p.val).frame = (s.dev.pt p.val).frame + 1 ∧ (e.pt p.val).lastVb = some at_ ∧ (e.pt p.val).firstLine = .none ∧
      (e.pt p.val).hold = .none ∧ e.evCount 1 p.val = s.dev.evCount 1 p.val + 1 ∧
      bit e.safety.force p.val = (bit s.dev.safety.force p.val || bit s.dev.safety.forceWanted p.val) ∧ bit e.safety.forceWanted p.val = false ∧
      (∀ f, f < 64 → s.dev.exists_ f = true → f = s.dev.manager → bit (tget (e.fn f).pipeEv p.val 0) 0 = true) ∧
      (∀ q, q ≠ p.val → e.pt q = s.dev.pt q) ∧ e.mem = s.dev.mem ∧
      (∀ v, s.dev.vblankAt p.val = some v → (e.pt p.val).vbAt = v) ∧
      ∀ g, e.ring g = { s.dev.ring g with thread := { (s.dev.ring g).thread with wait := (s.dev.ring g).thread.wait.meet 1 p.val at_ } }) := by
  obtain ⟨n, r, begun, step⟩ := vblankStep_work p.val at_ none clean
  have work := begun.trans ((pipeEvent_signalled r p.val 0).work p.val)
  have frame := vblankBegun_frame (d := s.dev) (p := p.val) (n := n) (t := at_)
  obtain ⟨mem, -, safety⟩ := work.endsAlike
  have force := forceTaken p.val s.dev.safety.force s.dev.safety.forceWanted p.isLt
  obtain ⟨-, others, number, stamp, line, hold, instant⟩ := id work
  obtain ⟨next, now, blank, fresh, fixed⟩ := vblankBegun_pt (d := s.dev) (p := p.val) (n := n) (t := at_)
  rw [vblankBegun_safety] at safety
  have go : (if s.dev.pipeRuns p.val && decide (s.dev.now ≤ at_) && s.dev.vblankDue p.val at_ then (s.dev.ensureFrame p.val).vblankStep p.val at_ else s.dev) =
      r.pipeEvent p.val 0 := by
    rw [if_pos (by simp [runs, timely, due]), ensureFrame_formedAlready formed, step]
  have calm : (r.pipeEvent p.val 0).Calm := work.endsAlike.calm (vblankBegun_calm k.1.2)
  have latest : Nat.max s.dev.now at_ = at_ := Nat.max_eq_right timely
  have writes : (r.pipeEvent p.val 0).writes = [] := (work.writes.trans (congrArg Dev.writes frame :)).trans k.1.1.1
  have kept : (r.pipeEvent p.val 0).mem = s.dev.mem := mem.trans (congrArg Dev.mem frame :)
  refine Does.imp (does_passed_of_calm (show execVblank p at_ s = _ by unfold execVblank; rfl) go calm writes kept) (fun e passed => ⟨?_, ?_, ?_, ?_, ?_, ?_,
    ?_, ?_, fun f lt exists_ manager => ?_, fun q ne => ?_, passed.mem.trans kept, fun v at' => ?_, fun g => ?_⟩)
  · exact (passed.now.trans work.now).trans (congrArg Dev.now frame :)
  · exact (congrArg PipeTime.frame (passed.pt p.val)).trans (number.trans next)
  · exact (congrArg PipeTime.lastVb (passed.pt p.val)).trans (stamp.trans now)
  · exact (congrArg PipeTime.firstLine (passed.pt p.val)).trans (line.trans blank)
  · exact (congrArg PipeTime.hold (passed.pt p.val)).trans (hold.trans fresh)
  · exact (passed.evCount 1 p.val).trans ((work.evCount 1 p.val).trans vblankBegun_evCount)
  · rw [passed.safety, safety]
    exact force.1
  · rw [passed.safety, safety]
    exact force.2
  · rw [passed.fn]
    have found : r.exists_ f = true := (begun.exists_ f).trans ((congrArg (fun x : Dev => x.exists_ f) frame :).trans exists_)
    have own : f = r.manager := manager.trans (begun.manager.trans (congrArg Dev.manager frame :)).symm
    exact pipeEvent_hasPipeEv (by decide) lt found (seesPipe_manager own p.val)
  · exact (passed.pt q).trans ((others q ne).trans (vblankBegun_pt_ne ne))
  · exact (congrArg PipeTime.vbAt (passed.pt p.val)).trans (instant.trans (fixed.trans (by rw [at']; rfl)))
  · rw [passed.ring, work.ring, vblankBegun_ring, latest]
    rfl

/-- Another instant, or a pipe that does not scan, has no VBLANK (R40, R277). -/
theorem vblank_none {s : State} {p : Fin 12} {at_ : Nat} (k : s.Steady)
    (idle : s.dev.pipeRuns p.val = false ∨ at_ < s.dev.now ∨ s.dev.vblankDue p.val at_ = false) : Becomes (.vblank p at_) s s.dev := by
  refine becomes_runFrom (show execVblank p at_ s = _ by unfold execVblank; rfl) k (if_neg ?_) (.refl _)
  rcases idle with off | past | early
  · simp [off]
  · simp [Nat.not_le.mpr past]
  · simp [early]

end Sys2Proof.Machine
end

section
/-! The first active line of a frame: its stamp, and the flips that it ends or leaves (R224, R249, R278, R281, R301). -/

namespace Sys2Proof.Machine

/-! The stamp. -/

/-- Whether a flip of pipe p has fallen due with frame n or before (R281). -/
def FlipWait.fallen (p n : Nat) (w : FlipWait) : Bool := w.pipe = p && (match w.frame with | some k => decide (k ≤ n) | none => false)

/-- The frame that pipe p scans with its stamp t (R278). -/
def Dev.lineStarted (d : Dev) (p t : Nat) (dark : Bool) : Dev :=
  (d.tick t).setPt p
    { d.pt p with
      stampedFrame := (d.pt p).frame, flipStamp := BitVec.ofNat 64 t, firstLine := some t
      darkFrames := if dark then satInc (d.pt p).darkFrames else (d.pt p).darkFrames }

/-- The stamped frame with the operations that it shows, or that a dark frame makes late. -/
def Dev.lineShown (d : Dev) (p t : Nat) (dark : Bool) : Dev :=
  ((d.lineStarted p t dark).frameStamp p t dark).completeFlips p (d.pt p).frame.toNat t dark

section
variable {d : Dev} {p t n : Nat}

theorem retireFrame_frame (d : Dev) (f : Frame) : { d.retireFrame f with comp := d.comp } = d :=
  List.foldlRecOn f.shown _ (motive := fun e : Dev => { e with comp := d.comp } = d) rfl (fun _ frame _ _ => frame)

theorem retireBefore_frame (d : Dev) (p n : Nat) : { d.retireBefore p n with comp := d.comp } = d := by
  unfold Dev.retireBefore
  exact List.foldlRecOn _ _ (motive := fun e : Dev => { e with comp := d.comp } = d) rfl
    (fun e frame f _ => (congrArg (fun x : Dev => { x with comp := d.comp }) (retireFrame_frame e f) :).trans frame)

/-- The stamp of a frame changes the composition, and the operations that the frame shows. -/
theorem frameStamp_frame (d : Dev) (p t : Nat) (dark : Bool) : { d.frameStamp p t dark with ops := d.ops, comp := d.comp } = d := by
  have stamped (x : PipeComp) (l : List PresentWait) (late : Bool) :
      { l.foldl (fun d w => d.endOp w.id 0 (some t) (fun o => { o with late := w.late || late })) ((d.setPc p x).retireBefore p (d.pt p).frame.toNat) with
        ops := d.ops, comp := d.comp } = d :=
    (congrArg (fun x : Dev => { x with ops := d.ops, comp := d.comp }) (endOps_frame l ((d.setPc p x).retireBefore p (d.pt p).frame.toNat)) :).trans
      (congrArg (fun x : Dev => { x with ops := d.ops, comp := d.comp }) (retireBefore_frame (d.setPc p x) p (d.pt p).frame.toNat) :)
  unfold Dev.frameStamp
  dsimp only
  split
  · rfl
  · exact stamped _ _ _

/-- A dark frame shows no operation (R278). -/
theorem frameStamp_dark (d : Dev) (p t : Nat) : { d.frameStamp p t true with comp := d.comp } = d := by
  unfold Dev.frameStamp
  dsimp only
  split
  · rfl
  · exact (congrArg (fun x : Dev => { x with comp := d.comp }) (retireBefore_frame (d.setPc p _) p (d.pt p).frame.toNat) :)

theorem completeFlips_lit (d : Dev) (p n t : Nat) : { d.completeFlips p n t false with ops := d.ops } =
    { d with disp := { d.disp with flips := d.disp.flips.filter (fun w => !w.fallen p n) } } :=
  endOps_frame (d.disp.flips.filter (FlipWait.fallen p n)) { d with disp := { d.disp with flips := d.disp.flips.filter (fun w => !w.fallen p n) } }

theorem lineStarted_pt (d : Dev) (p t : Nat) (dark : Bool) : (d.lineStarted p t dark).pt p = { d.pt p with
    stampedFrame := (d.pt p).frame, flipStamp := BitVec.ofNat 64 t, firstLine := some t
    darkFrames := if dark then satInc (d.pt p).darkFrames else (d.pt p).darkFrames } := Dev.pt_setPt_same _ p _

theorem lineStarted_pt_lit (d : Dev) (p t : Nat) : (d.lineStarted p t false).pt p = { d.pt p with
    stampedFrame := (d.pt p).frame, flipStamp := BitVec.ofNat 64 t, firstLine := some t } := by
  rw [lineStarted_pt, if_neg Bool.false_ne_true]

/-- A frame that is not dark completes its flips, and FLIP_DONE is raised. -/
theorem firstLineStep_lit (lit : d.frameDark p = false) : d.firstLineStep p t = ((d.lineShown p t false).pipeEvent p 1).occur 2 p := by
  unfold Dev.firstLineStep
  simp only [lit]
  rfl

/-- A dark frame of a pipe that need not be shown is not reported (R301). -/
theorem firstLineStep_dark (dark : d.frameDark p = true) (hidden : (d.lineShown p t true).mustShowNow p = false) :
    d.firstLineStep p t = d.lineShown p t true := by
  have unreported : (d.lineShown p t true).linkDark p = d.lineShown p t true := if_neg (by rw [hidden]; exact Bool.false_ne_true)
  unfold Dev.firstLineStep
  simp only [dark, Bool.not_true, Bool.false_eq_true, if_false]
  change (if _ then d.lineShown p t true else (d.lineShown p t true).linkDark p) = _
  rw [unreported]
  exact ite_self _

theorem lineShown_lit (d : Dev) (p t : Nat) : { d.lineShown p t false with ops := d.ops, comp := d.comp } =
    { d.lineStarted p t false with disp := { (d.lineStarted p t false).disp with
      flips := d.disp.flips.filter (fun w => !w.fallen p (d.pt p).frame.toNat) } } :=
  (congrArg (fun x : Dev => { x with ops := d.ops, comp := d.comp })
    (completeFlips_lit ((d.lineStarted p t false).frameStamp p t false) p (d.pt p).frame.toNat t) :).trans
  (congrArg (fun x : Dev => { x with disp := { x.disp with flips := x.disp.flips.filter (fun (w : FlipWait) => !w.fallen p (d.pt p).frame.toNat) } })
    (frameStamp_frame (d.lineStarted p t false) p t false) :)

theorem lineShown_dark (d : Dev) (p t : Nat) : { d.lineShown p t true with comp := d.comp } =
    { d.lineStarted p t true with disp := { (d.lineStarted p t true).disp with
      flips := d.disp.flips.map (fun w => if w.fallen p (d.pt p).frame.toNat then { w with late := true } else w) } } :=
  (congrArg (fun x : Dev => { x with disp := { x.disp with
    flips := x.disp.flips.map (fun (w : FlipWait) => if w.fallen p (d.pt p).frame.toNat then { w with late := true } else w) } })
    (frameStamp_dark (d.lineStarted p t true) p t) :)

theorem lineShown_pt (d : Dev) (p t : Nat) (dark : Bool) : (d.lineShown p t dark).pt p = (d.lineStarted p t dark).pt p := by
  cases dark
  · exact (congrArg (fun x : Dev => x.pt p) (lineShown_lit d p t) :)
  · exact (congrArg (fun x : Dev => x.pt p) (lineShown_dark d p t) :)

end

/-! The command. -/

/-- What FIRST_ACTIVE_LINE does. -/
def Dev.firstLine (d0 : Dev) (p at_ : Nat) : Dev :=
  let d := ((d0.tick at_).ensureFrame p).missOverdue p
  match d.scanStart p with
  | some t => if d.pipeRuns p && (d.pt p).firstLine.isNone && decide (d0.now ≤ at_) && near at_ t then d.firstLineStep p at_ else d0
  | none => d0

theorem exec_firstActiveLine (p : Fin 12) (at_ : Nat) (s : State) : exec (.firstActiveLine p at_) s = run (fun d => d.firstLine p.val at_) s := rfl

/-- A pipe that is up to date begins its first line at the instant of it (R278). -/
theorem firstLine_due {d : Dev} {p at_ t : Nat} (runs : d.pipeRuns p = true) (timely : d.now ≤ at_)
    (formed : (d.frameOf p).map (fun f => f.n) = some (d.pt p).frame.toNat) (new : (d.pt p).firstLine = none) (start : d.scanStart p = some t)
    (due : near at_ t = true) (strips : ∀ c, (d.pc p).chase = some c → ∀ j, (d.tick at_).stripOverdue p c j = false) :
    d.firstLine p at_ = (d.tick at_).firstLineStep p at_ := by
  have active : ((d.tick at_).pt p).active = true := by
    simp only [Dev.pipeRuns, Bool.and_eq_true] at runs
    exact runs.1.1.1.1
  have same : ((d.tick at_).ensureFrame p).missOverdue p = d.tick at_ := by
    have upToDate := upToDate_eq (d := d.tick at_) (p := p) (.inr ⟨formed, strips⟩)
    rwa [Dev.upToDate, if_pos active] at upToDate
  have scan : (d.tick at_).scanStart p = some t := start
  have running : (d.tick at_).pipeRuns p = true := runs
  have blank : ((d.tick at_).pt p).firstLine.isNone = true := (congrArg Option.isNone new :)
  unfold Dev.firstLine
  simp only [same, scan]
  exact if_pos (by simp only [running, blank, timely, due, decide_true, Bool.and_self])

section
variable {d e : Dev} {kind param : Nat} (h : Passed (d.occur kind param) e)
include h

theorem Passed.occur_pt (p : Nat) : e.pt p = d.pt p := (congrArg (fun x : Dev => x.pt p) h :)
theorem Passed.occur_fn (f : Nat) : e.fn f = d.fn f := (congrArg (fun x : Dev => x.fn f) h :)
theorem Passed.occur_disp : e.disp = d.disp := (congrArg Dev.disp h :)
theorem Passed.occur_mem : e.mem = d.mem := (congrArg Dev.mem h :)
theorem Passed.occur_evCount : e.evCount kind param = d.evCount kind param + 1 := (h.evCount kind param).trans (Sys2Proof.Machine.occur_evCount d kind param)

end

theorem Signalled.disp {d e : Dev} (h : Signalled d e) : e.disp = d.disp := (congrArg Dev.disp h.1 :)
theorem Signalled.evCount {d e : Dev} (h : Signalled d e) (kind param : Nat) : e.evCount kind param = d.evCount kind param :=
  (congrArg (fun x : Dev => x.evCount kind param) h.1 :)

theorem occur_writes (d : Dev) (kind param : Nat) : (d.occur kind param).writes = d.writes := rfl

theorem occur_endsAlike (d : Dev) (kind param : Nat) : EndsAlike d (d.occur kind param) := ⟨rfl, rfl, rfl⟩

section
variable {s : State} {p : Fin 12} {at_ : Nat} (k : s.Steady) (begins : s.dev.firstLine p.val at_ = (s.dev.tick at_).firstLineStep p.val at_)
include k begins

/-- The first line of a frame that is not dark completes the flips that are due, and raises FLIP_DONE (R278, R281). -/
theorem firstActiveLine_lit (lit : s.dev.frameDark p.val = false) : Does (.firstActiveLine p at_) s (fun e =>
    e.pt p.val = { s.dev.pt p.val with stampedFrame := (s.dev.pt p.val).frame, flipStamp := BitVec.ofNat 64 at_, firstLine := some at_ } ∧
    e.disp.flips = s.dev.disp.flips.filter (fun w => !w.fallen p.val (s.dev.pt p.val).frame.toNat) ∧
    e.evCount 2 p.val = s.dev.evCount 2 p.val + 1 ∧
    (∀ f, f < 64 → s.dev.exists_ f = true → f = s.dev.manager → bit (tget (e.fn f).pipeEv p.val 0) 1 = true) ∧ e.mem = s.dev.mem) := by
  have frame := lineShown_lit (s.dev.tick at_) p.val at_
  have event := pipeEvent_signalled ((s.dev.tick at_).lineShown p.val at_ false) p.val 1
  have shown : EndsAlike s.dev ((s.dev.tick at_).lineShown p.val at_ false) :=
    ⟨(congrArg Dev.mem frame :), (congrArg Dev.update frame :), (congrArg Dev.safety frame :)⟩
  refine Does.imp (does_passed (exec_firstActiveLine p at_ s) k (begins.trans (firstLineStep_lit lit))
    ((shown.trans event.endsAlike).trans (occur_endsAlike _ 2 p.val)) ((occur_writes _ 2 p.val).trans (event.writes.trans (congrArg Dev.writes frame :))))
    (fun e passed => ⟨?_, ?_, ?_, fun f lt exists_ manager => ?_, ?_⟩)
  · exact ((passed.occur_pt p.val).trans (event.pt p.val)).trans ((lineShown_pt _ p.val at_ false).trans (lineStarted_pt_lit _ p.val at_))
  · exact (congrArg Disp.flips (passed.occur_disp.trans event.disp)).trans (congrArg (fun x : Dev => x.disp.flips) frame :)
  · refine passed.occur_evCount.trans (congrArg (· + 1) ?_)
    exact (event.evCount 2 p.val).trans (congrArg (fun x : Dev => x.evCount 2 p.val) frame :)
  · rw [passed.occur_fn]
    have found : ((s.dev.tick at_).lineShown p.val at_ false).exists_ f = true := (congrArg (fun x : Dev => x.exists_ f) frame :).trans exists_
    have own : f = ((s.dev.tick at_).lineShown p.val at_ false).manager := manager.trans (congrArg Dev.manager frame :).symm
    exact pipeEvent_hasPipeEv (by decide) lt found (seesPipe_manager own p.val)
  · exact passed.occur_mem.trans (shown.trans event.endsAlike).1

/-- The first line of a dark frame makes the flips that are due late (R278, R281, R301). -/
theorem firstActiveLine_dark (dark : s.dev.frameDark p.val = true) (hidden : s.dev.mustShowNow p.val = false) : Does (.firstActiveLine p at_) s (fun e =>
    e.pt p.val = { s.dev.pt p.val with
      stampedFrame := (s.dev.pt p.val).frame, flipStamp := BitVec.ofNat 64 at_, firstLine := some at_, darkFrames := satInc (s.dev.pt p.val).darkFrames } ∧
    e.disp.flips = s.dev.disp.flips.map (fun w => if w.fallen p.val (s.dev.pt p.val).frame.toNat then { w with late := true } else w) ∧
    e.evCount 2 p.val = s.dev.evCount 2 p.val ∧ e.ops = s.dev.ops ∧ e.mem = s.dev.mem) := by
  have frame := lineShown_dark (s.dev.tick at_) p.val at_
  have unshown : ((s.dev.tick at_).lineShown p.val at_ true).mustShowNow p.val = false := (congrArg (fun x : Dev => x.mustShowNow p.val) frame :).trans hidden
  have shown : EndsAlike s.dev ((s.dev.tick at_).lineShown p.val at_ true) :=
    ⟨(congrArg Dev.mem frame :), (congrArg Dev.update frame :), (congrArg Dev.safety frame :)⟩
  refine Does.imp (does_passed (exec_firstActiveLine p at_ s) k (begins.trans (firstLineStep_dark dark unshown)) shown (congrArg Dev.writes frame :))
    (fun e passed => ⟨?_, ?_, ?_, ?_, passed.mem.trans shown.1⟩)
  · exact (passed.pt p.val).trans ((lineShown_pt _ p.val at_ true).trans (lineStarted_pt _ p.val at_ true))
  · exact (congrArg (fun x : Dev => x.disp.flips) passed :).trans (congrArg (fun x : Dev => x.disp.flips) frame :)
  · exact (passed.evCount 2 p.val).trans (congrArg (fun x : Dev => x.evCount 2 p.val) frame :)
  · exact (congrArg Dev.ops passed :).trans (congrArg Dev.ops frame :)

end

/-- Settles O40: each command by the branch of its instant, a VBLANK by the start of the frame and what the work on it leaves. -/
theorem framesAndStamps : Obligations.FramesAndStamps :=
  ⟨fun _ _ _ k runs timely due formed none clean => vblank_does k runs timely due formed none clean, fun _ _ _ => vblankDue_iff,
    fun _ _ video scanning => vblankAt_scanning video scanning, fun _ _ _ k idle => vblank_none k idle,
    fun _ _ _ _ k runs timely formed new start due strips =>
      have begins := firstLine_due runs timely formed new start due strips
      ⟨fun lit => firstActiveLine_lit k begins lit, fun dark hidden => firstActiveLine_dark k begins dark hidden⟩,
    fun _ _ _ _ _ _ k hd ends hk runs adaptive holding timely => adaptiveHoldEnd_does k hd ends hk runs adaptive holding timely,
    fun _ _ _ => holdLimit_iff, fun _ _ _ k blank => adaptiveHoldEnd_blank k blank⟩

end Sys2Proof.Machine
end

section
/-! Touch channels, the delivery of their records, haptic channels and effect slots: what is read after a write (R304, R319, R325, R331). -/

namespace Sys2Proof.Machine

@[simp] theorem Dev.tch_setTch_same (d : Dev) (c : Nat) (x : TouchChan) : (d.setTch c x).tch c = x := tget_tset_same ..

theorem Dev.tch_setTch_ne (d : Dev) {c j : Nat} (ne : j ≠ c) (x : TouchChan) : (d.setTch c x).tch j = d.tch j := tget_tset_ne _ _ _ _ _ ne.symm

@[simp] theorem Dev.setTch_setTch (d : Dev) (c : Nat) (x y : TouchChan) : (d.setTch c x).setTch c y = d.setTch c y := by
  simp [Dev.setTch, tset_tset]

@[simp] theorem Dev.tw_setTch (d : Dev) (c w : Nat) (x : TouchChan) (j : Nat) : (d.setTch c x).tw j w = d.tw j w := rfl

@[simp] theorem Dev.tfn_setTfn_same (d : Dev) (f : Nat) (x : TouchFn) : (d.setTfn f x).tfn f = x := tget_tset_same ..

@[simp] theorem Dev.setTfn_setTfn (d : Dev) (f : Nat) (x y : TouchFn) : (d.setTfn f x).setTfn f y = d.setTfn f y := by
  simp [Dev.setTfn, tset_tset]

@[simp] theorem Dev.hch_setHch_same (d : Dev) (c : Nat) (x : HapChan) : (d.setHch c x).hch c = x := tget_tset_same ..

theorem Dev.hch_setHch_ne (d : Dev) {c j : Nat} (ne : j ≠ c) (x : HapChan) : (d.setHch c x).hch j = d.hch j := tget_tset_ne _ _ _ _ _ ne.symm

end Sys2Proof.Machine
end

section
/-! The delivery of touch records, and the end of contacts (R306, R314 to R321, R338, R339). -/

namespace Sys2Proof.Machine

/-! What the delivery of records changes. -/

/-- Of every touch channel, the count of discarded records alone may have changed (R320). -/
def ChannelsKept (d e : Dev) : Prop := ∀ c, { e.tch c with overflows := (d.tch c).overflows } = d.tch c

namespace ChannelsKept

theorem refl (d : Dev) : ChannelsKept d d := fun _ => rfl

theorem trans {d e r : Dev} (h : ChannelsKept d e) (k : ChannelsKept e r) : ChannelsKept d r := fun c =>
  (congrArg (fun x : TouchChan => { x with overflows := (d.tch c).overflows }) (k c) :).trans (h c)

variable {d e : Dev} (h : ChannelsKept d e) (c : Nat)
include h

theorem contacts : (e.tch c).contacts = (d.tch c).contacts := (congrArg TouchChan.contacts (h c) :)

end ChannelsKept

/-- What records that are delivered may change, of the device beside the touch engine: what stores change, events, and operations that end. -/
def Delivered (d e : Dev) : Prop :=
  { e with
    writes := d.writes, poison := d.poison, comp := d.comp, msgs := d.msgs, fns := d.fns, free := d.free, bus := d.bus, ops := d.ops, touch := d.touch } = d ∧
  ChannelsKept d e

namespace Delivered

theorem refl (d : Dev) : Delivered d d := ⟨rfl, .refl d⟩

theorem trans {d e r : Dev} (h : Delivered d e) (k : Delivered e r) : Delivered d r :=
  ⟨(congrArg (fun x : Dev => { x with
      writes := d.writes, poison := d.poison, comp := d.comp, msgs := d.msgs, fns := d.fns, free := d.free, bus := d.bus, ops := d.ops
      touch := d.touch }) k.1 :).trans h.1, h.2.trans k.2⟩

theorem foldl {α : Type} {h : Dev → α → Dev} (k : ∀ d x, Delivered d (h d x)) (l : List α) (d : Dev) : Delivered d (l.foldl h d) :=
  List.foldlRecOn l h (motive := Delivered d) (refl d) (fun e n x _ => n.trans (k e x))

end Delivered

theorem Stored.delivered {d e : Dev} (h : Stored d e) : Delivered d e :=
  ⟨(congrArg (fun x : Dev => { x with ops := d.ops, touch := d.touch }) h :),
    fun c => (congrArg (fun x : Dev => { x.tch c with overflows := (d.tch c).overflows }) h :)⟩

theorem Signalled.delivered {d e : Dev} (h : Signalled d e) : Delivered d e :=
  ⟨(congrArg (fun x : Dev => { x with
      writes := d.writes, poison := d.poison, comp := d.comp, free := d.free, bus := d.bus, ops := d.ops, touch := d.touch }) h.1 :),
    fun c => (congrArg (fun x : Dev => { x.tch c with overflows := (d.tch c).overflows }) h.1 :)⟩

section
variable (d : Dev)

theorem setTfn_delivered (f : Nat) (x : TouchFn) : Delivered d (d.setTfn f x) := ⟨rfl, fun _ => rfl⟩

theorem setLive_delivered (cls inst word : Nat) (v : W72) : Delivered d (d.setLive cls inst word v) := ⟨rfl, fun _ => rfl⟩

theorem finish_delivered (id : OpId) (status : Nat) (r : Option Nat) : Delivered d (d.finish id status r) := ⟨rfl, fun _ => rfl⟩

theorem opFault_delivered (id : OpId) (f cause va : Nat) : Delivered d (d.opFault id f cause va) :=
  (accessFault_signalled d f cause _ _ va).delivered.trans (finish_delivered _ id _ _)

/-- A discard counts at its channel (R320). -/
theorem touchDrop_delivered (f c : Nat) : Delivered d (d.touchDrop f c) := by
  refine ⟨rfl, fun j => ?_⟩
  by_cases own : j = c
  · subst own
    exact (congrArg (fun x : TouchChan => { x with overflows := (d.tch j).overflows }) (Dev.tch_setTch_same _ j _) :)
  · exact (congrArg (fun x : TouchChan => { x with overflows := (d.tch j).overflows }) (Dev.tch_setTch_ne _ own _) :)

end

theorem deliver_delivered (n f : Nat) (d : Dev) : Delivered d (Dev.deliver n f d) := by
  induction n generalizing d with
  | zero => exact .refl d
  | succ n ih =>
    unfold Dev.deliver
    dsimp only
    split
    · split
      · rename_i failed
        exact (((writeWords_stored failed).delivered.trans (setTfn_delivered _ f _)).trans (opFault_delivered _ _ f _ _)).trans (ih _)
      · rename_i stored
        refine Delivered.trans ?_ (ih _)
        have put := (writeWords_stored stored).delivered
        split
        · exact put.trans ((setTfn_delivered _ f _).trans ((setEv_signalled _ f 4).delivered.trans (finish_delivered _ _ _ _)))
        · exact put.trans ((setTfn_delivered _ f _).trans (setEv_signalled _ f 4).delivered)
    · exact .refl d

theorem deliverAll_delivered (d : Dev) (f : Nat) : Delivered d (d.deliverAll f) := deliver_delivered _ f d

section
variable (d : Dev) (c : Nat)

theorem touchPut_delivered (f : Nat) (r : List W72) : Delivered d (d.touchPut f c r) := by
  unfold Dev.touchPut
  dsimp only
  split
  · exact (setTfn_delivered d f _).trans (deliverAll_delivered _ f)
  · split
    · exact (setTfn_delivered d f _).trans (touchDrop_delivered _ f c)
    · split
      · exact (setTfn_delivered d f _).trans (touchDrop_delivered _ f _)
      · exact touchDrop_delivered d f c

theorem touchPlain_delivered (event stamp flags : Nat) (k : Contact) : Delivered d (d.touchPlain c event stamp flags k) := touchPut_delivered d c _ _

theorem zoneResolved_delivered (zone defer : Nat) : Delivered d (d.zoneResolved zone defer) := by
  refine .foldl (fun d f => ?_) _ d
  dsimp only
  split
  · exact .refl d
  · exact (setTfn_delivered d f _).trans (deliverAll_delivered _ f)

end

/-! What the events of contacts change. -/

/-- What touch events may change: what a delivery may, and the haptic channels on which zones fire (R338). -/
def Touched (d e : Dev) : Prop :=
  { e with
    writes := d.writes, poison := d.poison, comp := d.comp, msgs := d.msgs, fns := d.fns, free := d.free, bus := d.bus, ops := d.ops, touch := d.touch
    haptic := d.haptic } = d

namespace Touched

theorem refl (d : Dev) : Touched d d := rfl

theorem trans {d e r : Dev} (h : Touched d e) (k : Touched e r) : Touched d r :=
  (congrArg (fun x : Dev => { x with
    writes := d.writes, poison := d.poison, comp := d.comp, msgs := d.msgs, fns := d.fns, free := d.free, bus := d.bus, ops := d.ops, touch := d.touch
    haptic := d.haptic }) k :).trans h

theorem foldl {α : Type} {h : Dev → α → Dev} (k : ∀ d x, Touched d (h d x)) (l : List α) (d : Dev) : Touched d (l.foldl h d) :=
  List.foldlRecOn l h (motive := Touched d) (refl d) (fun e n x _ => n.trans (k e x))

theorem setTch (d : Dev) (c : Nat) (x : TouchChan) : Touched d (d.setTch c x) := rfl
theorem setHch (d : Dev) (c : Nat) (x : HapChan) : Touched d (d.setHch c x) := rfl

variable {d e : Dev} (h : Touched d e)
include h

theorem endsAlike : EndsAlike d e := ⟨(congrArg Dev.mem h :), (congrArg Dev.update h :), (congrArg Dev.safety h :)⟩
theorem tw (c w : Nat) : e.tw c w = d.tw c w := (congrArg (fun x : Dev => x.tw c w) h :)
theorem now : e.now = d.now := (congrArg Dev.now h :)
theorem storedBaseline (c : Nat) : e.storedBaseline c = d.storedBaseline c := (congrArg (fun x : Dev => x.storedBaseline c) h :)

end Touched

theorem Delivered.touched {d e : Dev} (h : Delivered d e) : Touched d e := (congrArg (fun x : Dev => { x with haptic := d.haptic }) h.1 :)

section
variable (d : Dev) (c stamp flags : Nat)

/-- A zone that fires leaves the touch engine alone (R338). -/
theorem zoneFire_touched (z : MapZone) (frame : Nat) : Touched d (d.zoneFire z frame stamp).1 ∧ ChannelsKept d (d.zoneFire z frame stamp).1 := by
  unfold Dev.zoneFire
  extract_lets w1 owner ch slot n d1 e
  obtain ⟨frame', kept⟩ : Delivered d d1 := (setLive_delivered d _ _ _ _).trans (setLive_delivered _ _ _ _ _)
  have touched : Touched d d1 := Delivered.touched ⟨frame', kept⟩
  clear_value d1
  split
  · exact ⟨touched.trans (.setHch d1 ch _), kept.trans (fun _ => rfl)⟩
  · exact ⟨touched, kept⟩

theorem touchHit_touched (up : Bool) (k : Contact) : Touched d (d.touchHit c stamp flags up k).1 ∧ ChannelsKept d (d.touchHit c stamp flags up k).1 := by
  have fires (z : MapZone) (frame : Nat) (e : Dev × Bool) (h : d.zoneFire z frame stamp = e) (f : Nat) (r : List W72) :
      Touched d (e.1.touchPut f c r) ∧ ChannelsKept d (e.1.touchPut f c r) := by
    obtain ⟨touched, kept⟩ := zoneFire_touched d stamp z frame
    rw [h] at touched kept
    have put := touchPut_delivered e.1 c f r
    exact ⟨touched.trans put.touched, kept.trans put.2⟩
  have plain (f : Nat) (r : List W72) := touchPut_delivered d c f r
  unfold Dev.touchHit
  dsimp only
  split
  · exact ⟨(plain _ _).touched, (plain _ _).2⟩
  · split
    · rename_i fired
      exact fires _ _ _ fired _ _
    · rename_i unfired
      exact fires _ _ _ unfired _ _

/-! Contacts that end. -/

theorem cancelContacts_delivered : Delivered (d.setTch c { d.tch c with contacts := [] }) (d.cancelContacts c stamp flags) :=
  .foldl (fun d k => touchPlain_delivered d c 4 stamp flags k) _ _

theorem cancelContacts_touched : Touched d (d.cancelContacts c stamp flags) :=
  (Touched.setTch d c _).trans (cancelContacts_delivered d c stamp flags).touched

/-- The channel is left without contacts. -/
theorem cancelContacts_own : { (d.cancelContacts c stamp flags).tch c with overflows := (d.tch c).overflows } = { d.tch c with contacts := [] } := by
  have kept := (cancelContacts_delivered d c stamp flags).2 c
  rw [Dev.tch_setTch_same] at kept
  exact kept

theorem cancelContacts_other {j : Nat} (ne : j ≠ c) : { (d.cancelContacts c stamp flags).tch j with overflows := (d.tch j).overflows } = d.tch j := by
  have kept := (cancelContacts_delivered d c stamp flags).2 j
  rw [Dev.tch_setTch_ne d ne] at kept
  exact kept

theorem touchUp_touched (k : Contact) : Touched d (d.touchUp c stamp flags k) := (Touched.setTch d c _).trans (touchHit_touched _ c stamp flags true k).1

theorem touchUp_contacts (k : Contact) : ((d.touchUp c stamp flags k).tch c).contacts = (d.tch c).contacts.filter (fun x => x.num ≠ k.num) :=
  ((touchHit_touched (d.dropContact c k.num) c stamp flags true k).2.contacts c).trans (congrArg TouchChan.contacts (Dev.tch_setTch_same d c _))

theorem touchCancel_touched (k : Contact) : Touched d (d.touchCancel c stamp flags k) :=
  (Touched.setTch d c _).trans (touchPlain_delivered _ c 4 stamp flags k).touched

theorem touchCancel_contacts (k : Contact) : ((d.touchCancel c stamp flags k).tch c).contacts = (d.tch c).contacts.filter (fun x => x.num ≠ k.num) :=
  ((touchPlain_delivered (d.dropContact c k.num) c 4 stamp flags k).2.contacts c).trans (congrArg TouchChan.contacts (Dev.tch_setTch_same d c _))

end

end Sys2Proof.Machine
end

section
/-! Contacts that are measured, and the states of touch channels (R304 to R317). -/

namespace Sys2Proof.Machine

section
variable (d : Dev) (c stamp : Nat)

/-! Measurements. -/

theorem setContact_contacts (k : Contact) :
    ((d.setContact c k).tch c).contacts = (d.tch c).contacts.map (fun x => if x.num = k.num then k else x) :=
  congrArg TouchChan.contacts (Dev.tch_setTch_same d c _)

/-- A later measurement takes up a contact in its place, with or without a record (R314). -/
theorem touchMove_cases (k : Contact) (m : Meas) : ∃ k1, d.touchMove c stamp k m = d.setContact c k1 ∨
    d.touchMove c stamp k m = (d.setContact c k1).touchPlain c 2 stamp 0 k1 := by
  unfold Dev.touchMove
  dsimp only
  split
  · exact ⟨_, .inr rfl⟩
  · exact ⟨_, .inl rfl⟩

theorem touchMove_touched (k : Contact) (m : Meas) : Touched d (d.touchMove c stamp k m) := by
  obtain ⟨k1, e | e⟩ := touchMove_cases d c stamp k m <;> rw [e]
  · exact .setTch d c _
  · exact (Touched.setTch d c _).trans (touchPlain_delivered _ c 2 stamp 0 k1).touched

theorem touchMove_count (k : Contact) (m : Meas) : ((d.touchMove c stamp k m).tch c).contacts.length = (d.tch c).contacts.length := by
  obtain ⟨k1, e | e⟩ := touchMove_cases d c stamp k m <;> rw [e]
  · rw [setContact_contacts, List.length_map]
  · rw [(touchPlain_delivered _ c 2 stamp 0 k1).2.contacts, setContact_contacts, List.length_map]

/-- The most contacts that a channel takes (R308, R316). -/
def Dev.maxContacts (d : Dev) (c : Nat) : Nat := Nat.min 10 (fld (d.tw c 6) 0 4)

/-- A new contact beyond the channel's most is discarded; any other is hit-tested and joins the rest (R316). -/
theorem touchDown_cases (ident : Nat) (m : Meas) :
    d.touchDown c stamp ident m = d.setTch c { d.tch c with overflows := satInc (d.tch c).overflows } ∨
    (d.tch c).contacts.length < d.maxContacts c ∧ ∃ d1 k1 n, Touched d d1 ∧ ChannelsKept d d1 ∧
      d.touchDown c stamp ident m = d1.setTch c { d1.tch c with contacts := (d1.tch c).contacts ++ [k1], serial := n } := by
  unfold Dev.touchDown
  dsimp only
  split
  · exact .inl rfl
  · rename_i room
    obtain ⟨touched, kept⟩ := touchHit_touched d c stamp 0 false
      { num := (d.tch c).freeNum, serial := (d.tch c).serial + 1, ident := ident, owner := 0, px := m.px, py := m.py, x := m.x, y := m.y, sentX := m.x
        sentY := m.y, width := m.width, height := m.height, pressure := Nat.min m.pressure 1023, sentPressure := Nat.min m.pressure 1023, absent := 0
        fresh := true }
    exact .inr ⟨Nat.not_le.mp room, _, _, _, touched, kept, rfl⟩

theorem touchDown_touched (ident : Nat) (m : Meas) : Touched d (d.touchDown c stamp ident m) := by
  obtain e | ⟨-, d1, k1, n, touched, -, e⟩ := touchDown_cases d c stamp ident m <;> rw [e]
  · exact .setTch d c _
  · exact touched.trans (.setTch d1 c _)

variable {d c} in
theorem touchDown_count (room : (d.tch c).contacts.length ≤ d.maxContacts c) (ident : Nat) (m : Meas) :
    ((d.touchDown c stamp ident m).tch c).contacts.length ≤ d.maxContacts c := by
  obtain e | ⟨less, d1, k1, n, -, kept, e⟩ := touchDown_cases d c stamp ident m <;> rw [e, Dev.tch_setTch_same]
  · exact room
  · rw [List.length_append, kept.contacts]
    exact less

theorem touchStale_touched : Touched d (d.touchStale c stamp) := by
  refine Touched.trans (.foldl (fun d k => ?_) _ d) (.setTch _ c _)
  split
  · exact touchUp_touched d c stamp 32 k
  · exact .setTch d c _

/-! Fingers of a report. -/

/-- What a finger entry does: nothing, a count of positions out of range, or an event of a contact (R308, R312, R313). -/
theorem finger_cases (f : Finger) :
    Dev.finger stamp c d f = d ∨ Dev.finger stamp c d f = d.setTch c { d.tch c with rangeDrops := satInc (d.tch c).rangeDrops } ∨
    (∃ k, Dev.finger stamp c d f = d.touchCancel c stamp 128 k) ∨ (∃ k, Dev.finger stamp c d f = d.touchUp c stamp 0 k) ∨
    (∃ k m, Dev.finger stamp c d f = d.touchMove c stamp k m) ∨ ∃ m, Dev.finger stamp c d f = d.touchDown c stamp f.id m := by
  unfold Dev.finger
  dsimp only
  split
  · exact .inr (.inl rfl)
  split
  · split
    · exact .inr (.inr (.inl ⟨_, rfl⟩))
    · exact .inl rfl
  split
  · split
    · exact .inr (.inr (.inr (.inl ⟨_, rfl⟩)))
    · exact .inl rfl
  generalize d.touchMap c _ _ = p
  split
  · exact .inl rfl
  split
  · exact .inr (.inr (.inr (.inr (.inl ⟨_, _, rfl⟩))))
  · exact .inr (.inr (.inr (.inr (.inr ⟨_, rfl⟩))))

theorem finger_touched (f : Finger) : Touched d (Dev.finger stamp c d f) := by
  obtain e | e | ⟨k, e⟩ | ⟨k, e⟩ | ⟨k, m, e⟩ | ⟨m, e⟩ := finger_cases d c stamp f <;> rw [e]
  · exact .refl d
  · exact .setTch d c _
  · exact touchCancel_touched d c stamp 128 k
  · exact touchUp_touched d c stamp 0 k
  · exact touchMove_touched d c stamp k m
  · exact touchDown_touched d c stamp f.id m

variable {d c} in
/-- A finger entry leaves no more contacts than the channel takes. -/
theorem finger_count (room : (d.tch c).contacts.length ≤ d.maxContacts c) (f : Finger) :
    ((Dev.finger stamp c d f).tch c).contacts.length ≤ d.maxContacts c := by
  obtain e | e | ⟨k, e⟩ | ⟨k, e⟩ | ⟨k, m, e⟩ | ⟨m, e⟩ := finger_cases d c stamp f <;> rw [e]
  · exact room
  · rw [Dev.tch_setTch_same]
    exact room
  · rw [touchCancel_contacts]
    exact (List.length_filter_le _ _).trans room
  · rw [touchUp_contacts]
    exact (List.length_filter_le _ _).trans room
  · rw [touchMove_count]
    exact room
  · exact touchDown_count stamp room f.id m

variable {d c} in
theorem finger_outside {f : Finger} (out : f.x < f.xMin ∨ f.xMax < f.x ∨ f.y < f.yMin ∨ f.yMax < f.y) :
    Dev.finger stamp c d f = d.setTch c { d.tch c with rangeDrops := satInc (d.tch c).rangeDrops } :=
  if_pos (by simpa [or_assoc] using out)

/-! Faults and starts. -/

theorem touchFault_touched (cause : Nat) : Touched d (d.touchFault c cause) := (cancelContacts_touched d c d.now 0).trans (.setTch _ c _)

theorem touchError_touched (cause : Nat) : Touched d (d.touchError c cause) := by
  unfold Dev.touchError
  dsimp only
  split
  · exact (Touched.setTch d c _).trans (touchFault_touched _ c cause)
  · exact .setTch d c _

theorem touchBus_touched (bus : TouchBus) : Touched d (d.touchBus c bus) := by
  cases bus with
  | quiet => exact .refl d
  | error => exact touchError_touched d c 3
  | noAcknowledge => exact touchFault_touched d c 1

/-- A fault leaves no contacts, with its cause and its instant (R306, R315). -/
theorem touchFault_own (cause : Nat) : ((d.touchFault c cause).tch c).contacts = [] ∧ ((d.touchFault c cause).tch c).state = 4 ∧
    ((d.touchFault c cause).tch c).cause = BitVec.ofNat 5 cause ∧ ((d.touchFault c cause).tch c).faultAt = d.now := by
  have none : ((d.cancelContacts c d.now 0).tch c).contacts = [] := (congrArg TouchChan.contacts (cancelContacts_own d c d.now 0) :)
  unfold Dev.touchFault
  rw [Dev.tch_setTch_same]
  exact ⟨none, rfl, rfl, (cancelContacts_touched d c d.now 0).now⟩

/-- The third bus error in a row is a fault (R304, R315). -/
theorem touchError_does (cause : Nat) {x : TouchChan} (hx : x = { d.tch c with busErrors := satInc (d.tch c).busErrors, errRun := (d.tch c).errRun + 1 }) :
    ((d.tch c).errRun < 2 → d.touchError c cause = d.setTch c x) ∧
    (2 ≤ (d.tch c).errRun → d.touchError c cause = (d.setTch c x).touchFault c cause) := by
  subst hx
  exact ⟨fun few => if_neg (by omega), fun third => if_pos (by omega)⟩

theorem learnBaseline_touched : Touched d (d.learnBaseline c) := .setTch d c _

theorem touchBegin_touched : Touched d (d.touchBegin c) := by
  unfold Dev.touchBegin
  dsimp only
  split
  · split <;> rfl
  · rfl

/-- A channel begins in the state of its kind: a raw one ACTIVE with a stored baseline and BASELINE without one, any other INIT (R306, R311). -/
theorem touchBegin_own : ((d.touchBegin c).tch c).contacts = (d.tch c).contacts ∧
    ((d.touchBegin c).tch c).state = (if fld (d.tw c 1) 26 2 = 1 then (if (d.storedBaseline c).isSome = true then 3 else 2) else 1) := by
  obtain ⟨d1, hd⟩ : ∃ d1, d.setTch c { d.tch c with state := 1, cause := 0, scan := [], scanLeft := 0, errRun := 0, desc := none } = d1 := ⟨_, rfl⟩
  have own : (d1.tch c).contacts = (d.tch c).contacts ∧ (d1.tch c).state = 1 := by rw [← hd, Dev.tch_setTch_same]; exact ⟨rfl, rfl⟩
  have stored : d1.storedBaseline c = d.storedBaseline c := by rw [← hd]; rfl
  have kind : d1.tw c 1 = d.tw c 1 := by rw [← hd]; rfl
  unfold Dev.touchBegin
  simp only [hd, kind, stored]
  by_cases raw : fld (d.tw c 1) 26 2 = 1
  · rw [if_pos raw, if_pos raw]
    cases d.storedBaseline c with
    | none => simp [Dev.learnBaseline, own.1]
    | some b => simp [own.1]
  · rw [if_neg raw, if_neg raw]
    exact own

theorem touchStart_touched : Touched d (d.touchStart c) := (cancelContacts_touched d c d.now 0).trans (touchBegin_touched _ c)

theorem touchStart_own : ((d.touchStart c).tch c).contacts = [] ∧
    ((d.touchStart c).tch c).state = (if fld (d.tw c 1) 26 2 = 1 then (if (d.storedBaseline c).isSome = true then 3 else 2) else 1) := by
  have touched := cancelContacts_touched d c d.now 0
  have begun := touchBegin_own (d.cancelContacts c d.now 0) c
  rw [touched.tw, touched.storedBaseline] at begun
  have none : ((d.cancelContacts c d.now 0).tch c).contacts = [] := (congrArg TouchChan.contacts (cancelContacts_own d c d.now 0) :)
  exact ⟨begun.1.trans none, begun.2⟩

end

end Sys2Proof.Machine
end

section
/-! Reports of touch channels (R307, R308, R315). -/

namespace Sys2Proof.Machine

/-- A touch channel that has accepted a report or frame, now. -/
def TouchChan.accepted (x : TouchChan) (now : Nat) : TouchChan := { x with reports := satInc x.reports, lastStamp := BitVec.ofNat 64 now, errRun := 0 }

theorem touchAccept_eq (d : Dev) (c : Nat) : d.touchAccept c = d.setTch c ((d.tch c).accepted d.now) := rfl

/-- What an accepted report does with its scan, which it begins by its Contact Count n or continues (R308). -/
def Dev.scanned (d : Dev) (c : Nat) (x : TouchChan) (n : Nat) (fingers : List Finger) : Dev :=
  let (old, left) := if n = 0 then (x.scan, x.scanLeft) else ([], n)
  let now := if n = 0 && left = 0 then fingers else fingers.take left
  if left - now.length = 0 then d.touchScan c (old ++ now) else d.setTch c { d.tch c with scan := old ++ now, scanLeft := left - now.length }

section
variable {d : Dev} {c n : Nat} {x : TouchChan} {fingers : List Finger}

theorem scanned_begun (part : fingers.length < n) : d.scanned c x n fingers = d.setTch c { d.tch c with scan := fingers, scanLeft := n - fingers.length } := by
  have begins : n ≠ 0 := by omega
  have more : n - fingers.length ≠ 0 := by omega
  simp [Dev.scanned, begins, List.take_of_length_le part.le, more]

theorem scanned_continued (part : fingers.length < x.scanLeft) :
    d.scanned c x 0 fingers = d.setTch c { d.tch c with scan := x.scan ++ fingers, scanLeft := x.scanLeft - fingers.length } := by
  have under : x.scanLeft ≠ 0 := by omega
  have more : x.scanLeft - fingers.length ≠ 0 := by omega
  simp [Dev.scanned, under, List.take_of_length_le part.le, more]

theorem scanned_complete {l : List Finger} (whole : n ≠ 0 ∧ n ≤ fingers.length ∧ l = fingers.take n ∨
    n = 0 ∧ x.scanLeft ≠ 0 ∧ x.scanLeft ≤ fingers.length ∧ l = x.scan ++ fingers.take x.scanLeft) : d.scanned c x n fingers = d.touchScan c l := by
  obtain ⟨begins, all, rfl⟩ | ⟨rfl, under, all, rfl⟩ := whole
  · simp [Dev.scanned, begins, all]
  · simp [Dev.scanned, under, all]

end

section
variable {s : State} {ch : Fin 12} {at_ : Nat} {id : Option Byte} {data : List Byte} (k : s.Steady)
include k

/-- A channel that is not an ACTIVE HID channel takes no report, nor does one whose block does not run, nor one by another descriptor. -/
theorem touchReport_ignored
    (bad : (s.dev.tch ch.val).desc = none ∨ (∃ desc, (s.dev.tch ch.val).desc = some desc ∧ desc.report (id.toList ++ data) = none) ∨
      (s.dev.tch ch.val).state ≠ 3 ∨ fld (s.dev.tw ch.val 1) 26 2 ≠ 0 ∨ s.dev.runs 9 = false) :
    Becomes (.touchReport ch at_ id data) s s.dev := by
  refine becomes_runFrom (show execTouchReport ch at_ id data s = _ by unfold execTouchReport; rfl) k ?_ (.refl _)
  dsimp only
  split
  · rfl
  · rename_i reads
    refine if_pos ?_
    rcases bad with none | ⟨desc, some_, unread⟩ | h | h | h
    · rw [none] at reads
      cases reads
    · rw [some_, Option.bind_some, unread] at reads
      cases reads
    · simpa using .inl (.inl h)
    · simp [h]
    · simp [h]

/-- A report that is accepted begins or continues its scan, which is measured once it is complete. -/
theorem touchReport_accepted {d : Dev} {desc : HidDesc} {n : Nat} {fingers : List Finger} {x : TouchChan} (hx : x = s.dev.tch ch.val)
    (hd : d = s.dev.tick at_) (known : x.desc = some desc) (reads : desc.report (id.toList ++ data) = some (n, fingers)) (active : x.state = 3)
    (hid : fld (s.dev.tw ch.val 1) 26 2 = 0) (up : s.dev.runs 9 = true) :
    (n ≠ 0 → fingers.length < n → Becomes (.touchReport ch at_ id data) s
      (d.setTch ch.val { x.accepted d.now with scan := fingers, scanLeft := n - fingers.length })) ∧
    (n = 0 → fingers.length < x.scanLeft → Becomes (.touchReport ch at_ id data) s
      (d.setTch ch.val { x.accepted d.now with scan := x.scan ++ fingers, scanLeft := x.scanLeft - fingers.length })) ∧
    ∀ l, (n ≠ 0 ∧ n ≤ fingers.length ∧ l = fingers.take n ∨
        n = 0 ∧ x.scanLeft ≠ 0 ∧ x.scanLeft ≤ fingers.length ∧ l = x.scan ++ fingers.take x.scanLeft) →
      Becomes (.touchReport ch at_ id data) s
        ((l.foldl (Dev.finger d.now ch.val) (d.setTch ch.val { x.accepted d.now with scan := [], scanLeft := 0 })).touchStale ch.val d.now) := by
  subst hx hd
  have goes {e : Dev} (he : ((s.dev.tick at_).touchAccept ch.val).scanned ch.val (s.dev.tch ch.val) n fingers = e) (t : Touched (s.dev.tick at_) e) :
      Becomes (.touchReport ch at_ id data) s e := by
    refine becomes_runFrom (show execTouchReport ch at_ id data s = _ by unfold execTouchReport; rfl) k ?_ (EndsAlike.trans (.refl _) t.endsAlike)
    simp only [known, Option.bind_some, reads]
    exact (if_neg (by simp [active, hid, up])).trans he
  refine ⟨fun _ part => goes ((scanned_begun part).trans ?_) (.setTch _ _ _), fun zero part => ?_, fun l whole => ?_⟩
  · rw [touchAccept_eq, Dev.tch_setTch_same, Dev.setTch_setTch]
    rfl
  · subst zero
    refine goes ((scanned_continued part).trans ?_) (.setTch _ _ _)
    rw [touchAccept_eq, Dev.tch_setTch_same, Dev.setTch_setTch]
    rfl
  · refine goes ((scanned_complete whole).trans ?_)
      (((Touched.setTch _ _ _).trans (.foldl (fun d f => finger_touched d ch.val _ f) l _)).trans (touchStale_touched _ _ _))
    rw [touchAccept_eq, Dev.touchScan, Dev.tch_setTch_same, Dev.setTch_setTch]
    rfl

end

end Sys2Proof.Machine
end

section
/-! Timeouts, starts and bus errors of touch channels (R306, R307, R311, R315). -/

namespace Sys2Proof.Machine

section
variable {s : State} {ch : Fin 12} {at_ : Nat} {x : TouchChan} {d : Dev} (k : s.Steady)
include k

/-- REPORT_TIMEOUT cancels the contacts of an ACTIVE channel that has been quiet too long, and no others (R315). -/
theorem reportTimeout_does (hx : x = s.dev.tch ch.val) (hd : d = s.dev.tick at_) :
    (x.state = 3 → x.contacts ≠ [] → s.dev.runs 9 = true → x.lastStamp.toNat + fld (s.dev.tw ch.val 6) 12 8 * 1000000 ≤ d.now →
      Becomes (.reportTimeout ch at_) s ((d.setTch ch.val { x with timeouts := satInc x.timeouts }).cancelContacts ch.val d.now 64)) ∧
    ((x.state ≠ 3 ∨ x.contacts = [] ∨ s.dev.runs 9 = false ∨ d.now < x.lastStamp.toNat + fld (s.dev.tw ch.val 6) 12 8 * 1000000) →
      Becomes (.reportTimeout ch at_) s s.dev) := by
  subst hx hd
  refine ⟨fun active some_ up late => ?_, fun early => ?_⟩
  · refine becomes_runFrom (show execReportTimeout ch at_ s = _ by unfold execReportTimeout; rfl) k ?_
      (EndsAlike.trans (.refl _) (cancelContacts_touched ((s.dev.tick at_).setTch ch.val _) ch.val _ 64).endsAlike)
    refine if_neg ?_
    simp only [active, some_, up]
    simpa using late
  · refine becomes_runFrom (show execReportTimeout ch at_ s = _ by unfold execReportTimeout; rfl) k ?_ (.refl _)
    refine if_pos ?_
    rcases early with h | h | h | h
    · simpa using .inl (.inl (.inl h))
    · simp [h]
    · simp [h]
    · simp [h]

/-- A channel that is disabled, or whose block does not run, does not start. -/
theorem touchChannelStart_idle {desc : TouchDesc} (bad : bit (s.dev.tw ch.val 1) 31 = false ∨ s.dev.runs 9 = false) :
    Becomes (.touchChannelStart ch desc) s s.dev := by
  refine becomes_runFrom (show execTouchChannelStart ch desc s = _ by unfold execTouchChannelStart; rfl) k ?_ (.refl _)
  refine if_pos ?_
  rcases bad with h | h <;> simp [h]

/-- A channel that starts: a controller that does not answer is a fault, and so is a descriptor that is not usable; a usable one makes it ACTIVE. -/
theorem touchChannelStart_does {desc : TouchDesc} (hd : d = if (s.dev.tch ch.val).state = 0 then s.dev.touchStart ch.val else s.dev)
    (on : bit (s.dev.tw ch.val 1) 31 = true) (up : s.dev.runs 9 = true) :
    ((d.tch ch.val).state ≠ 1 → (desc.answered = true ∨ (s.dev.tch ch.val).state ≠ 0) → Becomes (.touchChannelStart ch desc) s d) ∧
    (((s.dev.tch ch.val).state = 0 ∨ (d.tch ch.val).state = 1) → desc.answered = false → Becomes (.touchChannelStart ch desc) s (d.touchFault ch.val 1)) ∧
    ((d.tch ch.val).state = 1 → desc.answered = true → descUsable desc.bytes = false → Becomes (.touchChannelStart ch desc) s (d.touchFault ch.val 2)) ∧
    ((d.tch ch.val).state = 1 → desc.answered = true → descUsable desc.bytes = true →
      Becomes (.touchChannelStart ch desc) s (d.setTch ch.val { d.tch ch.val with state := 3, desc := some (hidDesc desc.bytes) })) := by
  have begun : Touched s.dev d := by
    rw [hd]
    split
    · exact touchStart_touched s.dev ch.val
    · exact .refl _
  have goes {e : Dev} (t : Touched d e)
      (he : (if !desc.answered && ((s.dev.tch ch.val).state = 0 || (d.tch ch.val).state = 1) then d.touchFault ch.val 1
        else if (d.tch ch.val).state ≠ 1 then d
        else if !descUsable desc.bytes then d.touchFault ch.val 2
        else d.setTch ch.val { d.tch ch.val with state := 3, desc := some (hidDesc desc.bytes) }) = e) : Becomes (.touchChannelStart ch desc) s e := by
    refine becomes_runFrom (show execTouchChannelStart ch desc s = _ by unfold execTouchChannelStart; rfl) k ?_ (begun.trans t).endsAlike
    rw [hd] at he
    exact (if_neg (by simp [on, up])).trans he
  refine ⟨fun other known => goes (.refl d) ?_, fun begins silent => goes (touchFault_touched d _ 1) ?_,
    fun init answered bad => goes (touchFault_touched d _ 2) ?_, fun init answered good => goes (.setTch d _ _) ?_⟩
  · refine (if_neg ?_).trans (if_pos other)
    rcases known with h | h
    · simp [h]
    · simpa using fun _ => ⟨h, other⟩
  · exact if_pos (by simpa [silent] using begins)
  · simp [init, answered, bad]
  · simp [init, answered, good]

/-- A channel in FAULT starts again after 100 ms; a bus error or a transfer without acknowledge meets a channel that runs (R315). -/
theorem touchFaultRetry_does {bus : TouchBus} (hx : x = s.dev.tch ch.val) (hd : d = s.dev.tick at_) :
    ((bit (s.dev.tw ch.val 1) 31 = false ∨ s.dev.runs 9 = false ∨ x.state = 0) → Becomes (.touchFaultRetry ch at_ bus) s s.dev) ∧
    (bit (s.dev.tw ch.val 1) 31 = true → s.dev.runs 9 = true →
      (x.state = 4 → x.faultAt + 100000000 ≤ d.now → Becomes (.touchFaultRetry ch at_ bus) s ((d.touchStart ch.val).touchBus ch.val bus)) ∧
      (x.state = 4 → d.now < x.faultAt + 100000000 → Becomes (.touchFaultRetry ch at_ bus) s s.dev) ∧
      (x.state ≠ 4 → x.state ≠ 0 → bus = .error → Becomes (.touchFaultRetry ch at_ bus) s (d.touchError ch.val 3)) ∧
      (x.state ≠ 4 → x.state ≠ 0 → bus = .noAcknowledge → Becomes (.touchFaultRetry ch at_ bus) s (d.touchFault ch.val 1)) ∧
      (x.state ≠ 4 → bus = .quiet → Becomes (.touchFaultRetry ch at_ bus) s s.dev)) := by
  subst hx hd
  have goes {e : Dev} (he : (if !bit (s.dev.tw ch.val 1) 31 || !s.dev.runs 9 || (s.dev.tch ch.val).state = 0 then s.dev
      else if (s.dev.tch ch.val).state = 4 then
        (if (s.dev.tick at_).now < (s.dev.tch ch.val).faultAt + 100000000 then s.dev else ((s.dev.tick at_).touchStart ch.val).touchBus ch.val bus)
      else if bus = .quiet then s.dev
      else (s.dev.tick at_).touchBus ch.val bus) = e) (m : EndsAlike s.dev e) : Becomes (.touchFaultRetry ch at_ bus) s e :=
    becomes_runFrom (show execTouchFaultRetry ch at_ bus s = _ by unfold execTouchFaultRetry; rfl) k he m
  have later {e : Dev} (t : Touched (s.dev.tick at_) e) : EndsAlike s.dev e := EndsAlike.trans (.refl _) t.endsAlike
  refine ⟨fun idle => goes (if_pos ?_) (.refl _), fun on up => ⟨fun fault due => ?_, fun fault early => ?_, fun ok begun err => ?_, fun ok begun silent => ?_,
    fun ok quiet => ?_⟩⟩
  · rcases idle with h | h | h <;> simp [h]
  · refine goes ?_ (later ((touchStart_touched _ _).trans (touchBus_touched _ _ bus)))
    simp [on, up, fault, Nat.not_lt.mpr due]
  · refine goes ?_ (.refl _)
    simp [on, up, fault, early]
  · refine goes ?_ (later (touchError_touched _ _ 3))
    exact (if_neg (by simpa [on, up] using begun)).trans ((if_neg ok).trans (by simp [err, Dev.touchBus]))
  · refine goes ?_ (later (touchFault_touched _ _ 1))
    exact (if_neg (by simpa [on, up] using begun)).trans ((if_neg ok).trans (by simp [silent, Dev.touchBus]))
  · refine goes ?_ (.refl _)
    rw [if_neg ok, if_pos quiet, ite_self]

end

/-- What R307 requires of a report descriptor. -/
theorem descUsable_iff (l : List Byte) : descUsable l = true ↔ l.length ≤ 4096 ∧ (hidDesc l).touchScreen = true ∧ 1 ≤ (hidDesc l).fingers ∧
    (hidDesc l).fingers ≤ 10 ∧ (hidDesc l).has none 0x000D0054 = true ∧
    ∀ n, n < (hidDesc l).fingers → ∀ u ∈ [0x000D0042, 0x000D0051, 0x00010030, 0x00010031], (hidDesc l).has (some n) u = true := by
  simp [descUsable, useCount, useTip, useContact, useX, useY, and_assoc]

end Sys2Proof.Machine
end

section
/-! Raw frames of touch channels (R309 to R311, R315). -/

namespace Sys2Proof.Machine

/-! Peaks (R310). -/

/-- The nodes of a neighbourhood come with their signals. -/
theorem around_signal {rows cols n : Nat} {sig : List Int} {z : Nat × Int} (near : z ∈ around rows cols sig n) : sig[z.1]? = some z.2 := by
  simp only [around, List.mem_flatMap, List.mem_filterMap, Option.map_eq_some_iff] at near
  obtain ⟨dr, -, dk, -, y, at_, rfl⟩ := near
  unfold signalAt at at_
  split at at_
  · exact at_
  · cases at_

/-- A peak is a node of at least RELEASE that no neighbour exceeds. -/
theorem peaksOf_mem {rows cols : Nat} {sig : List Int} {release : Int} {p : Peak} (mem : p ∈ peaksOf rows cols sig release) :
    p.node < rows * cols ∧ release ≤ p.s ∧ p.s = (sig[p.node]?).getD 0 ∧ ∀ z ∈ around rows cols sig p.node, z.2 ≤ p.s := by
  simp only [peaksOf, List.mem_filterMap, List.mem_range] at mem
  obtain ⟨n, inside, found⟩ := mem
  split at found
  · rename_i peak
    cases found
    simp only [Bool.and_eq_true, decide_eq_true_eq, List.all_eq_true, Bool.or_eq_true] at peak
    obtain ⟨strong, highest⟩ := peak
    refine ⟨inside, strong, rfl, fun z near => ?_⟩
    rcases highest z near with (own | less) | ⟨equal, -⟩
    · have signal := around_signal near
      rw [own] at signal
      simp [signal]
    · exact less.le
    · exact equal.le
  · cases found

/-! Contacts and baseline of a frame (R310, R311). -/

section
variable (d : Dev) (c : Nat)

theorem rawContacts_touched (sig : List Int) : Touched d (d.rawContacts c sig) := by
  unfold Dev.rawContacts
  dsimp only
  refine (Touched.foldl (fun e z => ?_) _ d).trans (Touched.trans (.foldl (fun e p => ?_) _ _) (touchStale_touched _ c _))
  · split
    · split
      · exact touchMove_touched e c _ _ _
      · exact .setTch e c _
    · exact .refl e
  · split
    · exact .refl e
    · split
      · exact touchDown_touched e c _ _ _
      · exact .refl e

theorem trackBaseline_touched (raw sig : List Int) : Touched d (d.trackBaseline c raw sig) := by
  unfold Dev.trackBaseline
  dsimp only
  split
  · exact (cancelContacts_touched d c d.now 0).trans (learnBaseline_touched _ c)
  · exact .setTch d c _

/-- The sums of a channel in BASELINE with a frame added. -/
def TouchChan.summed (x : TouchChan) (raw : List Int) : List Nat := ((List.range raw.length).zip raw).map (fun z => (x.sums[z.1]?).getD 0 + z.2.toNat)

variable {d c} {raw : List Int}

theorem learnFrame_more (few : (d.tch c).learnt < 31) :
    d.learnFrame c raw = d.setTch c { d.tch c with learnt := (d.tch c).learnt + 1, sums := (d.tch c).summed raw } := if_neg (by omega)

theorem learnFrame_last (all : 31 ≤ (d.tch c).learnt) : d.learnFrame c raw = d.setTch c
    { d.tch c with state := 3, src := 2, learnt := 32, sums := [], baseline := ((d.tch c).summed raw).map (fun n => ((n / 32 : Nat) : Int)) } :=
  if_pos (by omega)

end

/-- The raw values of a frame of n nodes (R309). -/
def rawValues (bytes : List Byte) (n : Nat) : List Int := (List.range n).map (fun i => ((natAt bytes (4 + 2 * i) 2 : Nat) : Int))

/-- The baseline learnt is the mean of 32 frames, node by node (R311). -/
theorem summed_mean (x : TouchChan) (bytes : List Byte) (n : Nat) : (x.summed (rawValues bytes n)).map (fun m => ((m / 32 : Nat) : Int)) =
    (List.range n).map (fun i => ((((x.sums[i]?).getD 0 + natAt bytes (4 + 2 * i) 2) / 32 : Nat) : Int)) :=
  List.ext_getElem (by simp [TouchChan.summed, rawValues]) (fun i _ _ => by simp [TouchChan.summed, rawValues])

/-! Frames. -/

/-- What a frame does at a raw channel x in BASELINE or ACTIVE. -/
def Dev.framed (d : Dev) (c : Nat) (x : TouchChan) (rows cols : Nat) (bytes : List Byte) : Dev :=
  if natAt bytes 0 1 ≠ 0x5A || natAt bytes 2 1 ≠ rows || natAt bytes 3 1 ≠ cols then d.touchError c 4
  else if bytes.length < 4 + 2 * (rows * cols) then d.touchError c 3
  else if x.state = 2 then (d.touchAccept c).learnFrame c (rawValues bytes (rows * cols))
  else
    let sig := (x.baseline.zip (rawValues bytes (rows * cols))).map (fun z => z.1 - z.2)
    ((d.touchAccept c).rawContacts c sig).trackBaseline c (rawValues bytes (rows * cols)) sig

/-- A device whose touch channel alone has changed, at a later instant, with its accesses passed to the lattice. -/
theorem passed_channel {d e : Dev} {at_ c : Nat} {x : TouchChan} (passed : Passed ((d.tick at_).setTch c x) e) :
    e.tch c = x ∧ (∀ j, j ≠ c → e.tch j = d.tch j) ∧ { e with touch := d.touch, now := d.now, bus := d.bus } = d := by
  have channel (j : Nat) : e.tch j = ((d.tick at_).setTch c x).tch j := (congrArg (fun y : Dev => y.tch j) passed :)
  refine ⟨(channel c).trans (Dev.tch_setTch_same _ c x), fun j ne => (channel j).trans (Dev.tch_setTch_ne _ ne x), ?_⟩
  exact (congrArg (fun y : Dev => { y with touch := d.touch, now := d.now, bus := d.bus }) passed :)

section
variable {s : State} {ch : Fin 12} {at_ rows cols : Nat} {bytes : List Byte} {x : TouchChan} {d : Dev} (k : s.Steady) (hx : x = s.dev.tch ch.val)
  (hd : d = s.dev.tick at_) (grid : s.dev.grid ch.val = (rows, cols))
include k hx

/-- A channel that is not raw, or neither in BASELINE nor ACTIVE, or whose block does not run, takes no frame. -/
theorem rawFrame_ignored (bad : (x.state ≠ 2 ∧ x.state ≠ 3) ∨ fld (s.dev.tw ch.val 1) 26 2 ≠ 1 ∨ s.dev.runs 9 = false) :
    Becomes (.rawFrame ch at_ bytes) s s.dev := by
  subst hx
  refine becomes_runFrom (show execRawFrame ch at_ bytes s = _ by unfold execRawFrame; rfl) k ?_ (.refl _)
  refine if_pos ?_
  rcases bad with h | h | h
  · simpa using .inl (.inl h)
  · simp [h]
  · simp [h]

variable (runs : x.state = 2 ∨ x.state = 3) (kind : fld (s.dev.tw ch.val 1) 26 2 = 1) (up : s.dev.runs 9 = true)
include hd grid runs kind up

omit k in
theorem rawFrame_runs : ∃ h, exec (.rawFrame ch at_ bytes) s = runAs mpStream h s ∧ h s.dev = d.framed ch.val x rows cols bytes := by
  refine ⟨_, show execRawFrame ch at_ bytes s = _ by unfold execRawFrame; rfl, ?_⟩
  subst hx hd
  simp only [grid]
  exact if_neg (by simpa [kind, up] using fun h => runs.resolve_left h)

theorem rawFrame_becomes {e : Dev} (he : d.framed ch.val x rows cols bytes = e) (t : Touched d e) : Becomes (.rawFrame ch at_ bytes) s e := by
  obtain ⟨h, exec_, eff⟩ := rawFrame_runs (bytes := bytes) hx hd grid runs kind up
  subst hd
  exact becomes_runFrom exec_ k (eff.trans he) (EndsAlike.trans (.refl _) t.endsAlike)

/-- A frame with a wrong header, or cut short, is a bus error. -/
theorem rawFrame_bad :
    ((natAt bytes 0 1 ≠ 0x5A ∨ natAt bytes 2 1 ≠ rows ∨ natAt bytes 3 1 ≠ cols) → Becomes (.rawFrame ch at_ bytes) s (d.touchError ch.val 4)) ∧
    (natAt bytes 0 1 = 0x5A → natAt bytes 2 1 = rows → natAt bytes 3 1 = cols → bytes.length < 4 + 2 * (rows * cols) →
      Becomes (.rawFrame ch at_ bytes) s (d.touchError ch.val 3)) := by
  refine ⟨fun bad => rawFrame_becomes k hx hd grid runs kind up (if_pos ?_) (touchError_touched d _ 4),
    fun head hrows hcols short => rawFrame_becomes k hx hd grid runs kind up ?_ (touchError_touched d _ 3)⟩
  · simpa [or_assoc] using bad
  · exact (if_neg (by simp [head, hrows, hcols])).trans (if_pos short)

variable (head : natAt bytes 0 1 = 0x5A) (hrows : natAt bytes 2 1 = rows) (hcols : natAt bytes 3 1 = cols) (whole : 4 + 2 * (rows * cols) ≤ bytes.length)
include head hrows hcols whole

omit k runs hx hd grid kind up in
theorem framed_whole : d.framed ch.val x rows cols bytes =
    if x.state = 2 then (d.touchAccept ch.val).learnFrame ch.val (rawValues bytes (rows * cols))
    else ((d.touchAccept ch.val).rawContacts ch.val ((x.baseline.zip (rawValues bytes (rows * cols))).map (fun z => z.1 - z.2))).trackBaseline ch.val
      (rawValues bytes (rows * cols)) ((x.baseline.zip (rawValues bytes (rows * cols))).map (fun z => z.1 - z.2)) :=
  (if_neg (by simp [head, hrows, hcols])).trans (if_neg (Nat.not_lt.mpr whole))

/-- In BASELINE a frame is learnt: the channel alone changes. -/
theorem rawFrame_learns {y : TouchChan} (learning : x.state = 2)
    (learnt : (d.setTch ch.val (x.accepted d.now)).learnFrame ch.val (rawValues bytes (rows * cols)) = d.setTch ch.val y) :
    Does (.rawFrame ch at_ bytes) s (fun e =>
      e.tch ch.val = y ∧ (∀ j, j ≠ ch.val → e.tch j = s.dev.tch j) ∧ { e with touch := s.dev.touch, now := s.dev.now, bus := s.dev.bus } = s.dev) := by
  obtain ⟨h, exec_, eff⟩ := rawFrame_runs (bytes := bytes) hx hd grid runs kind up
  have step : h s.dev = d.setTch ch.val y := by
    rw [eff, framed_whole head hrows hcols whole, if_pos learning, touchAccept_eq, ← learnt, hx, hd]
    rfl
  subst hd
  exact (does_passed exec_ k step (.refl _) rfl).imp (fun e passed => passed_channel passed)

theorem rawFrame_baseline (learning : x.state = 2) :
    (x.learnt < 31 → Does (.rawFrame ch at_ bytes) s (fun e =>
      (e.tch ch.val).state = 2 ∧ (e.tch ch.val).learnt = x.learnt + 1 ∧ (e.tch ch.val).reports = satInc x.reports ∧
      (e.tch ch.val).lastStamp = BitVec.ofNat 64 d.now ∧ (e.tch ch.val).contacts = x.contacts ∧ (∀ j, j ≠ ch.val → e.tch j = s.dev.tch j) ∧
      { e with touch := s.dev.touch, now := s.dev.now, bus := s.dev.bus } = s.dev)) ∧
    (31 ≤ x.learnt → Does (.rawFrame ch at_ bytes) s (fun e =>
      (e.tch ch.val).state = 3 ∧ (e.tch ch.val).src = 2 ∧
      (e.tch ch.val).baseline = (List.range (rows * cols)).map (fun i => ((((x.sums[i]?).getD 0 + natAt bytes (4 + 2 * i) 2) / 32 : Nat) : Int)) ∧
      (∀ j, j ≠ ch.val → e.tch j = s.dev.tch j) ∧ { e with touch := s.dev.touch, now := s.dev.now, bus := s.dev.bus } = s.dev)) := by
  have own : (d.setTch ch.val (x.accepted d.now)).tch ch.val = x.accepted d.now := Dev.tch_setTch_same _ _ _
  refine ⟨fun few => ?_, fun all => ?_⟩
  · have learnt := learnFrame_more (d := d.setTch ch.val (x.accepted d.now)) (c := ch.val) (raw := rawValues bytes (rows * cols)) (by rw [own]; exact few)
    rw [own, Dev.setTch_setTch] at learnt
    refine (rawFrame_learns k hx hd grid runs kind up head hrows hcols whole learning learnt).imp (fun e h => ?_)
    obtain ⟨channel, others, frame⟩ := h
    rw [channel]
    exact ⟨learning, rfl, rfl, rfl, rfl, others, frame⟩
  · have learnt := learnFrame_last (d := d.setTch ch.val (x.accepted d.now)) (c := ch.val) (raw := rawValues bytes (rows * cols)) (by rw [own]; exact all)
    rw [own, Dev.setTch_setTch] at learnt
    refine (rawFrame_learns k hx hd grid runs kind up head hrows hcols whole learning learnt).imp (fun e h => ?_)
    obtain ⟨channel, others, frame⟩ := h
    rw [channel]
    exact ⟨rfl, rfl, summed_mean _ bytes _, others, frame⟩

/-- In ACTIVE a frame is read for contacts, and the baseline follows it. -/
theorem rawFrame_active (active : x.state = 3) : Becomes (.rawFrame ch at_ bytes) s
    (((d.setTch ch.val (x.accepted d.now)).rawContacts ch.val ((x.baseline.zip (rawValues bytes (rows * cols))).map (fun z => z.1 - z.2))).trackBaseline ch.val
      (rawValues bytes (rows * cols)) ((x.baseline.zip (rawValues bytes (rows * cols))).map (fun z => z.1 - z.2))) := by
  refine rawFrame_becomes k hx hd grid runs kind up ?_ (((Touched.setTch d _ _).trans (rawContacts_touched _ _ _)).trans (trackBaseline_touched _ _ _ _))
  rw [framed_whole head hrows hcols whole, if_neg (by rw [active]; decide), touchAccept_eq, hx, hd]
  rfl

end

end Sys2Proof.Machine
end

section
/-! Touch operations (R318 to R321), and the touch engine that is settled. -/

namespace Sys2Proof.Machine

section
variable {s : State} {id : OpId} {o : Op}

/-! TOUCH_RECEIVE. -/

/-- A TOUCH_RECEIVE buffer of n records, posted. -/
def postedBuf (id : OpId) (addr n : Nat) : TouchBuf := { id := id, addr := BitVec.ofNat 48 addr, count := n, filled := 0 }

/-- The words of a held record as it is delivered: with OVERFLOW when records were discarded before it, and with its SEQ (R320, R321). -/
def TouchFn.outgoing (t : TouchFn) (r : List W72) : List W72 :=
  [nth r 0 0, nth r 1 0 ||| (if t.overflow = true then BitVec.ofNat 72 (2 ^ 8) else 0), nth r 2 0,
    nth r 3 0 ||| BitVec.ofNat 72 ((t.seq + 1).toNat * 2 ^ 56)]

section
variable {d d1 : Dev} {f n m addr : Nat} {t : TouchFn} {r : List W72}

/-- Nothing is delivered without a record, or without a buffer. -/
theorem deliver_idle (h : (d.tfn f).bufs = [] ∨ (d.tfn f).held = []) : Dev.deliver n f d = d := by
  cases n with
  | zero => rfl
  | succ n =>
    rcases h with none | none
    · simp [Dev.deliver, none]
    · simp [Dev.deliver, none, firstReady]

theorem setEv_tfn (d : Dev) (f b g : Nat) : (d.setEv f b).tfn g = d.tfn g := (congrArg (fun x : Dev => x.tfn g) (setEv_signalled d f b).1 :)

variable (now : d.tfn f = { t with held := [r], bufs := [postedBuf id addr n] }) (room : addr < 2 ^ 48) (ready : recWaits r = false)
  (stored : d.writeWords f addr (t.outgoing r) = (d1, .ok ()))
include now room ready stored

/-- A record that is held and does not wait goes into the buffer that is posted (R319 to R321). -/
theorem deliver_first : Dev.deliver (m + 1) f d = Dev.deliver m f
    (let d2 := (d1.setTfn f { t with
        seq := t.seq + 1, overflow := false, held := [], bufs := if n ≤ 1 then [] else [{ postedBuf id addr n with filled := 1 }] }).setEv f 4
     if n ≤ 1 then d2.finish id 0 (some n) else d2) := by
  have first : firstReady [] [r] = some r := by simp [firstReady, ready]
  have place : ((postedBuf id addr n).addr.toNat + 36 * (postedBuf id addr n).filled) % 2 ^ 48 = addr := by
    simpa [postedBuf] using room
  unfold TouchFn.outgoing at stored
  rw [Dev.deliver]
  simp only [now, first, place, stored, List.erase_cons_head]
  rfl

/-- A buffer with room for more stays posted. -/
theorem deliver_partly (more : 1 < n) : Dev.deliver (m + 2) f d =
    (d1.setTfn f { t with seq := t.seq + 1, overflow := false, held := [], bufs := [{ postedBuf id addr n with filled := 1 }] }).setEv f 4 := by
  rw [deliver_first now room ready stored]
  simp only [Nat.not_le.mpr more, if_false]
  exact deliver_idle (.inr (by rw [setEv_tfn, Dev.tfn_setTfn_same]))

/-- A buffer that is full ends its operation. -/
theorem deliver_full (one : n = 1) : Dev.deliver (m + 2) f d =
    ((d1.setTfn f { t with seq := t.seq + 1, overflow := false, held := [], bufs := [] }).setEv f 4).finish id 0 (some 1) := by
  subst one
  rw [deliver_first now room ready stored]
  simp only [Nat.le_refl, if_true]
  exact deliver_idle (.inl (congrArg TouchFn.bufs ((setEv_tfn _ f 4 f).trans (Dev.tfn_setTfn_same d1 f _))))

end

section
variable {t : TouchFn} {n addr : Nat} {d : Dev} (w : Works s id 7 1 9 o) (ht : t = s.dev.tfn o.fn) (new : ∀ b ∈ t.bufs, b.id ≠ id)
  (first : s.dev.receiveWaits o = false) (hn : n = fld (o.word 1) 0 11) (ha : addr = fld (o.word 0) 0 48)
include w ht new first hn ha

/-- A TOUCH_RECEIVE out of range ends (R318). -/
theorem touchReceive_refused (bad : fld (o.word 0) 48 24 ≠ 0 ∨ fld (o.word 1) 11 61 ≠ 0 ∨ addr % 64 ≠ 0 ∨ n = 0 ∨ 1024 < n) :
    Becomes (.touchReceive id) s (s.dev.finish id 0x10 none) := by
  obtain ⟨steady, held, runs⟩ := w
  subst ht hn ha
  have fresh : (s.dev.tfn o.fn).bufs.any (fun b => b.id = id) = false := by simpa using new
  refine becomes_runFrom (show execTouchReceive id s = _ by unfold execTouchReceive; rfl) steady ?_ (.refl _)
  simp only [held, runs, fresh, first, Bool.not_true, Bool.or_self, Bool.false_eq_true, if_false]
  exact if_pos (by simpa [or_assoc] using bad)

variable (hd : d = s.dev.setTfn o.fn { t with bufs := t.bufs ++ [postedBuf id addr n] })
include hd

/-- Any other posts its buffer, and delivery goes as far as it can (R319). -/
theorem touchReceive_delivers (high : fld (o.word 0) 48 24 = 0) (high' : fld (o.word 1) 11 61 = 0) (aligned : addr % 64 = 0) (some_ : n ≠ 0)
    (few : n ≤ 1024) {e : Dev} (he : d.deliverAll o.fn = e) : Becomes (.touchReceive id) s e := by
  obtain ⟨steady, held, runs⟩ := w
  subst ht hn ha hd
  have fresh : (s.dev.tfn o.fn).bufs.any (fun b => b.id = id) = false := by simpa using new
  refine becomes_runFrom (show execTouchReceive id s = _ by unfold execTouchReceive; rfl) steady ?_
    (he ▸ (EndsAlike.trans (.refl _) (deliverAll_delivered _ o.fn).touched.endsAlike))
  simp only [held, runs, fresh, first, Bool.not_true, Bool.or_self, Bool.false_eq_true, if_false]
  exact (if_neg (by simpa [high, high', aligned, some_] using few)).trans he

/-- A posted buffer takes the one record that is held for its function, if it does not wait (R319 to R321). -/
theorem touchReceive_posts (high : fld (o.word 0) 48 24 = 0) (high' : fld (o.word 1) 11 61 = 0) (aligned : addr % 64 = 0) (some_ : n ≠ 0) (few : n ≤ 1024) :
    (t.held = [] → Becomes (.touchReceive id) s d) ∧
    (∀ (r : List W72) (d1 : Dev), t.held = [r] → t.bufs = [] → recWaits r = false → 1 < n → d.writeWords o.fn addr (t.outgoing r) = (d1, .ok ()) →
      Becomes (.touchReceive id) s ((d1.setTfn o.fn
        { t with seq := t.seq + 1, overflow := false, held := [], bufs := [{ postedBuf id addr n with filled := 1 }] }).setEv o.fn 4)) ∧
    (∀ (r : List W72) (d1 : Dev), t.held = [r] → t.bufs = [] → recWaits r = false → n = 1 → d.writeWords o.fn addr (t.outgoing r) = (d1, .ok ()) →
      Becomes (.touchReceive id) s (((d1.setTfn o.fn { t with seq := t.seq + 1, overflow := false, held := [], bufs := [] }).setEv o.fn 4).finish id 0 (some 1))) := by
  have posts {e : Dev} (he : d.deliverAll o.fn = e) : Becomes (.touchReceive id) s e :=
    touchReceive_delivers w ht new first hn ha hd high high' aligned some_ few he
  have now : d.tfn o.fn = { t with bufs := t.bufs ++ [postedBuf id addr n] } := by rw [hd, Dev.tfn_setTfn_same]
  have room : addr < 2 ^ 48 := ha ▸ fld_lt _ _ _
  have alone {r : List W72} (one : t.held = [r]) (none : t.bufs = []) : d.tfn o.fn = { t with held := [r], bufs := [postedBuf id addr n] } := by
    rw [now, ← one, none]
    rfl
  have fuel {r : List W72} (one : t.held = [r]) (none : t.bufs = []) : d.deliverAll o.fn = Dev.deliver 3 o.fn d := by
    rw [Dev.deliverAll, alone one none]
    rfl
  refine ⟨fun none => posts (deliver_idle (.inr (by rw [now]; exact none))), fun r d1 one none ready more stored => ?_,
    fun r d1 one none ready last stored => ?_⟩
  · exact posts ((fuel one none).trans (deliver_partly (alone one none) room ready stored more))
  · exact posts ((fuel one none).trans (deliver_full (alone one none) room ready stored last))

end

/-! The baseline. -/

variable {c : Nat}

/-- BASELINE_SAVE stores the baseline of a raw ACTIVE channel for the manager alone (R318). -/
theorem baselineSave_does (w : Works s id 7 2 9 o) (hc : c = fld (o.word 0) 0 4) :
    (o.fn ≠ s.dev.manager → Becomes (.baselineSave id) s (s.dev.finish id 0x11 none)) ∧
    (o.fn = s.dev.manager → s.dev.rawActive o = false → Becomes (.baselineSave id) s (s.dev.finish id 0x10 none)) ∧
    (o.fn = s.dev.manager → s.dev.rawActive o = true →
      Becomes (.baselineSave id) s ((s.dev.storeItem 0x0201 c (s.dev.baselineBytes c)).finish id 0 none)) := by
  obtain ⟨steady, held, runs⟩ := w
  subst hc
  refine ⟨fun other => ?_, fun own bad => ?_, fun own raw => ?_⟩ <;>
    refine becomes_runFrom (show execBaselineSave id s = _ by unfold execBaselineSave; rfl) steady ?_ (.refl _) <;>
    simp only [held, runs, Bool.not_true, Bool.false_eq_true, if_false]
  · exact if_pos other
  · simp [own, bad]
  · simp [own, raw]

/-- BASELINE_RELEARN belongs to the channel's owner, cancels its contacts and learns anew (R311, R318). -/
theorem baselineRelearn_does (w : Works s id 7 3 9 o) (hc : c = fld (o.word 0) 0 4) :
    (c < 12 → s.dev.owner 0x09 c ≠ o.fn → Becomes (.baselineRelearn id) s (s.dev.finish id 0x11 none)) ∧
    ((12 ≤ c ∨ s.dev.owner 0x09 c = o.fn) → s.dev.rawActive o = false → Becomes (.baselineRelearn id) s (s.dev.finish id 0x10 none)) ∧
    (s.dev.owner 0x09 c = o.fn → s.dev.rawActive o = true →
      Becomes (.baselineRelearn id) s (((s.dev.cancelContacts c s.dev.now 0).learnBaseline c).finish id 0 none)) := by
  obtain ⟨steady, held, runs⟩ := w
  subst hc
  refine ⟨fun low other => ?_, fun mine bad => ?_, fun own raw => ?_⟩
  · refine becomes_runFrom (show execBaselineRelearn id s = _ by unfold execBaselineRelearn; rfl) steady ?_ (.refl _)
    simp [held, runs, low, other]
  · refine becomes_runFrom (show execBaselineRelearn id s = _ by unfold execBaselineRelearn; rfl) steady ?_ (.refl _)
    simp only [held, runs, bad, Bool.not_true, Bool.false_eq_true, if_false]
    refine (if_neg ?_).trans (if_pos (by simp))
    rcases mine with h | h <;> simp [h]
  · refine becomes_runFrom (show execBaselineRelearn id s = _ by unfold execBaselineRelearn; rfl) steady ?_
      (cancelContacts_touched s.dev _ s.dev.now 0).endsAlike
    simp [held, runs, own, raw]

theorem Is.frame {d e : Dev} (h : Is d e) : { e with mem := d.mem, writes := d.writes, bus := d.bus } = d := by
  obtain ⟨-, -, -, frame⟩ := h
  exact frame

/-- What BASELINE_RELEARN leaves: a channel in BASELINE without contacts, the others in their states, and its operation ended. -/
theorem relearnt (d : Dev) (c : Nat) (id : OpId) {e : Dev} (is : Is (((d.cancelContacts c d.now 0).learnBaseline c).finish id 0 none) e) :
    (e.tch c).state = 2 ∧ (e.tch c).contacts = [] ∧ (e.tch c).learnt = 0 ∧ (e.tch c).baseline = [] ∧
    (∀ j, j ≠ c → (e.tch j).state = (d.tch j).state ∧ (e.tch j).baseline = (d.tch j).baseline) ∧
    (∀ x, e.op id = some x → x.phase = .finished) ∧ e.rings = d.rings ∧ e.objs = d.objs := by
  have touched := (cancelContacts_touched d c d.now 0).trans (learnBaseline_touched _ c)
  have channel (j : Nat) : e.tch j = ((d.cancelContacts c d.now 0).learnBaseline c).tch j := (congrArg (fun x : Dev => x.tch j) is.frame :)
  have none : ((d.cancelContacts c d.now 0).tch c).contacts = [] := (congrArg TouchChan.contacts (cancelContacts_own d c d.now 0) :)
  refine ⟨?_, ?_, ?_, ?_, fun j ne => ?_, fun x found => ?_, ?_, ?_⟩
  · rw [channel, Dev.learnBaseline, Dev.tch_setTch_same]
  · rw [channel, Dev.learnBaseline, Dev.tch_setTch_same]
    exact none
  · rw [channel, Dev.learnBaseline, Dev.tch_setTch_same]
  · rw [channel, Dev.learnBaseline, Dev.tch_setTch_same]
  · rw [channel, Dev.learnBaseline, Dev.tch_setTch_ne _ ne]
    have other := cancelContacts_other d c d.now 0 ne
    exact ⟨(congrArg TouchChan.state other :), (congrArg TouchChan.baseline other :)⟩
  · rw [is.op, Dev.op_finish, Option.map_eq_some_iff] at found
    obtain ⟨y, was, rfl⟩ := found
    rw [if_pos (Dev.op_id was)]
    rfl
  · exact (congrArg Dev.rings is.frame :).trans (congrArg Dev.rings touched :)
  · exact (congrArg Dev.objs is.frame :).trans (congrArg Dev.objs touched :)

end

/-- Settles O44: each command by its checks; what it leaves follows from what the delivery of records and the events of contacts change. -/
theorem touchEngine : Obligations.TouchEngine := by
  refine ⟨fun s ch at_ id data report x d k hx hr hd => ?_, fun d stamp c f out => finger_outside stamp out,
    fun d stamp c f room => finger_count stamp room f, fun s ch at_ bytes x rows cols d raw k hx hd grid hraw => ?_,
    fun rows cols sig release p mem => peaksOf_mem mem, fun d c cause x hx => touchError_does d c cause hx,
    fun d c stamp flags => ⟨(congrArg TouchChan.contacts (cancelContacts_own d c stamp flags) :),
      fun j ne => (congrArg TouchChan.contacts (cancelContacts_other d c stamp flags ne) :)⟩,
    fun d c => touchStart_own d c, fun d c cause => touchFault_own d c cause, fun s ch at_ x d k hx hd => reportTimeout_does k hx hd,
    fun s ch desc d k hd => ⟨fun bad => touchChannelStart_idle k bad, fun on up => touchChannelStart_does k hd on up⟩, descUsable_iff,
    fun s ch at_ bus x d k hx hd => touchFaultRetry_does k hx hd,
    fun s id o t n addr d w ht new first hn ha hd => ⟨fun bad => touchReceive_refused w ht new first hn ha bad,
      fun high high' aligned some_ few => touchReceive_posts w ht new first hn ha hd high high' aligned some_ few⟩,
    fun s id o c w hc => baselineSave_does w hc, fun s id o c w hc => ?_⟩
  · subst hr
    exact ⟨fun bad => touchReport_ignored k (hx ▸ bad),
      fun desc n fingers known reads active hid up => touchReport_accepted k hx hd known reads active hid up⟩
  · subst hraw
    refine ⟨fun bad => rawFrame_ignored k hx bad, fun runs kind up => ?_⟩
    obtain ⟨wrong, short⟩ := rawFrame_bad (bytes := bytes) k hx hd grid runs kind up
    refine ⟨wrong, fun head hrows hcols => ⟨short head hrows hcols, fun whole learning => ?_, fun whole learning => ?_, fun whole active sig hsig => ?_⟩⟩
    · exact (rawFrame_baseline k hx hd grid runs kind up head hrows hcols whole learning).1
    · exact (rawFrame_baseline k hx hd grid runs kind up head hrows hcols whole learning).2
    · subst hsig
      exact rawFrame_active k hx hd grid runs kind up head hrows hcols whole active
  · obtain ⟨other, bad, goes⟩ := baselineRelearn_does w hc
    exact ⟨other, bad, fun own raw => (goes own raw).imp (fun e is => relearnt s.dev c id is)⟩

end Sys2Proof.Machine
end

section
/-! Effect slots, PLAY, STREAM and HAP_TRIG (R331 to R336). -/

namespace Sys2Proof.Machine

theorem ceilDiv_four (k : Nat) : ceilDiv k 4 = (k + 3) / 4 := rfl

theorem effectSamples_at (l : List W72) {n j : Nat} (lt : j < n) : (effectSamples l n)[j]? = some (fld (nth l (j / 4) 0) (18 * (j % 4)) 18) := by
  simp [effectSamples, lt]

section
variable {s : State} {id : OpId} {o : Op} {n k c : Nat} {x : HapChan}

/-- SLOT_LOAD takes a slot that is free or its function's own with the samples it reads, once no channel plays the slot (R332, R333). -/
theorem slotLoad_does (w : Works s id 6 1 8 o) (hn : n = fld (o.word 0) 0 6) (hk : k = fld (o.word 2) 0 13) :
    ((fld (o.word 0) 6 66 ≠ 0 ∨ fld (o.word 1) 48 24 ≠ 0 ∨ fld (o.word 2) 13 59 ≠ 0 ∨ k = 0 ∨ 4096 < k) → Becomes (.slotLoad id) s (s.dev.finish id 0x10 none)) ∧
    (fld (o.word 0) 6 66 = 0 → fld (o.word 1) 48 24 = 0 → fld (o.word 2) 13 59 = 0 → k ≠ 0 → k ≤ 4096 →
      (o.holdsSlot n = false → o.slotEmpty n = false → Becomes (.slotLoad id) s (s.dev.finish id 0x11 none)) ∧
      ((o.holdsSlot n = true ∨ o.slotEmpty n = true) → s.dev.slotPlaying n = true → Becomes (.slotLoad id) s (s.dev.updOp id (fun o => { o with deferred := true }))) ∧
      ((o.holdsSlot n = true ∨ o.slotEmpty n = true) → s.dev.slotPlaying n = false → ∀ d1,
        (∀ l, s.dev.readWords o.fn (fld (o.word 1) 0 48) ((k + 3) / 4) .read = (d1, .ok l) →
          Becomes (.slotLoad id) s ((d1.setEffSlot n { holder := some o.fn, samples := effectSamples l k, emptyAfter := false }).finish id 0 none)) ∧
        (∀ cause va, s.dev.readWords o.fn (fld (o.word 1) 0 48) ((k + 3) / 4) .read = (d1, .error (cause, va)) →
          Becomes (.slotLoad id) s (d1.opFault id o.fn cause va)))) := by
  obtain ⟨steady, held, runs⟩ := w
  subst hn hk
  refine ⟨fun bad => ?_, fun low mid high some_ few => ⟨fun foreign full => ?_, fun mine playing => ?_,
    fun mine still d1 => ⟨fun l read => ?_, fun cause va failed => ?_⟩⟩⟩
  · refine becomes_runOp (show execSlotLoad id s = _ by unfold execSlotLoad; rfl) steady ?_ (.refl _)
    simp only [held, runs, Bool.not_true, Bool.false_eq_true, if_false]
    exact if_pos (by simpa [or_assoc] using bad)
  · refine becomes_runOp (show execSlotLoad id s = _ by unfold execSlotLoad; rfl) steady ?_ (.refl _)
    simp [held, runs, low, mid, high, some_, Nat.not_lt.mpr few, foreign, full]
  all_goals
    have may : (o.holdsSlot (fld (o.word 0) 0 6) || o.slotEmpty (fld (o.word 0) 0 6)) = true := by simpa using mine
  · refine becomes_runOp (show execSlotLoad id s = _ by unfold execSlotLoad; rfl) steady ?_ (.refl _)
    simp [held, runs, low, mid, high, some_, Nat.not_lt.mpr few, may, playing]
  · refine becomes_runOp (show execSlotLoad id s = _ by unfold execSlotLoad; rfl) steady ?_ (EndsAlike.trans (readWords_reads read).endsAlike (.refl _))
    simp [held, runs, low, mid, high, some_, Nat.not_lt.mpr few, may, still, ceilDiv_four, read]
  · refine becomes_runOp (show execSlotLoad id s = _ by unfold execSlotLoad; rfl) steady ?_
      ((readWords_reads failed).endsAlike.trans (opFault_endsAlike d1 _ _ _ _))
    simp [held, runs, low, mid, high, some_, Nat.not_lt.mpr few, may, still, ceilDiv_four, failed]

/-- SLOT_RELEASE empties a slot of its function, or any slot for the manager, once no channel plays it (R332, R333). -/
theorem slotRelease_does (w : Works s id 6 2 8 o) (hn : n = fld (o.word 0) 0 6) :
    (fld (o.word 0) 6 66 ≠ 0 → Becomes (.slotRelease id) s (s.dev.finish id 0x10 none)) ∧
    (fld (o.word 0) 6 66 = 0 → o.holdsSlot n = false → o.byManager = false → Becomes (.slotRelease id) s (s.dev.finish id 0x11 none)) ∧
    (fld (o.word 0) 6 66 = 0 → (o.holdsSlot n = true ∨ o.byManager = true) →
      (s.dev.slotPlaying n = true → Becomes (.slotRelease id) s (s.dev.updOp id (fun o => { o with deferred := true }))) ∧
      (s.dev.slotPlaying n = false → Becomes (.slotRelease id) s ((s.dev.setEffSlot n { holder := none, samples := [], emptyAfter := false }).finish id 0 none))) := by
  obtain ⟨steady, held, runs⟩ := w
  subst hn
  refine ⟨fun bad => ?_, fun zero foreign plain => ?_, fun zero mine => ⟨fun playing => ?_, fun still => ?_⟩⟩ <;>
    refine becomes_runFrom (show execSlotRelease id s = _ by unfold execSlotRelease; rfl) steady ?_ (.refl _)
  · simp [held, runs, bad]
  · simp [held, runs, zero, foreign, plain]
  all_goals
    have may : (o.holdsSlot (fld (o.word 0) 0 6) || o.byManager) = true := by simpa using mine
  · simp [held, runs, zero, may, playing]
  · simp [held, runs, zero, may, still]

/-- PLAY becomes a trigger of a channel of its function with a slot of its own (R332, R334). -/
theorem hapticPlay_does (w : Works s id 6 3 8 o) (hc : c = fld (o.word 0) 0 4) (hn : n = fld (o.word 0) 4 6) (hx : x = s.dev.hch c) (new : x.holds id = false) :
    (fld (o.word 0) 18 54 ≠ 0 → Becomes (.hapticPlay id) s (s.dev.finish id 0x10 none)) ∧
    (fld (o.word 0) 18 54 = 0 → (o.ownsChannel c = false ∨ o.holdsSlot n = false) → Becomes (.hapticPlay id) s (s.dev.finish id 0x11 none)) ∧
    (fld (o.word 0) 18 54 = 0 → o.ownsChannel c = true → o.holdsSlot n = true →
      (bit (s.dev.hw c 1) 31 = false → Becomes (.hapticPlay id) s (s.dev.finish id 0x10 none)) ∧
      (bit (s.dev.hw c 1) 31 = true → Becomes (.hapticPlay id) s (s.dev.setHch c
        { x with pending := x.pending ++ [{ kind := .play id, slot := n, gain := fld (o.word 0) 10 8, reached := none }] }))) := by
  obtain ⟨steady, held, runs⟩ := w
  subst hc hn hx
  refine ⟨fun bad => ?_, fun zero foreign => ?_, fun zero owns holds => ⟨fun off => ?_, fun on => ?_⟩⟩ <;>
    refine becomes_runFrom (show execHapticPlay id s = _ by unfold execHapticPlay; rfl) steady ?_ (.refl _)
  · simp [held, runs, new, bad]
  · have none : (o.ownsChannel (fld (o.word 0) 0 4) && o.holdsSlot (fld (o.word 0) 4 6)) = false := by rcases foreign with h | h <;> simp [h]
    simp only [held, runs, new, zero, none]
    rfl
  · simp [held, runs, new, zero, owns, holds, off]
  · simp [held, runs, new, zero, owns, holds, on]

/-- STREAM reads its samples and queues them at a channel of its function, up to eight (R332, R335). -/
theorem stream_does (w : Works s id 6 4 8 o) (hc : c = fld (o.word 0) 0 4) (hk : k = fld (o.word 0) 4 13) (hx : x = s.dev.hch c)
    (new : ∀ b ∈ x.queue, b.id ≠ id) (first : s.dev.streamWaits o = false) :
    ((fld (o.word 0) 17 55 ≠ 0 ∨ fld (o.word 1) 48 24 ≠ 0 ∨ k = 0 ∨ 4096 < k) → Becomes (.stream id) s (s.dev.finish id 0x10 none)) ∧
    (fld (o.word 0) 17 55 = 0 → fld (o.word 1) 48 24 = 0 → k ≠ 0 → k ≤ 4096 →
      (o.ownsChannel c = false → Becomes (.stream id) s (s.dev.finish id 0x11 none)) ∧
      (o.ownsChannel c = true → bit (s.dev.hw c 1) 31 = false → Becomes (.stream id) s (s.dev.finish id 0x10 none)) ∧
      (o.ownsChannel c = true → bit (s.dev.hw c 1) 31 = true → 8 ≤ x.queue.length → Becomes (.stream id) s s.dev) ∧
      (o.ownsChannel c = true → bit (s.dev.hw c 1) 31 = true → x.queue.length < 8 → ∀ d1,
        (∀ l, s.dev.readWords o.fn (fld (o.word 1) 0 48) ((k + 3) / 4) .read = (d1, .ok l) → Becomes (.stream id) s (d1.setHch c
          { x with queue := x.queue ++ [{ id := id, samples := effectSamples l k, sent := 0, released := o.due }], lastRelease := o.due })) ∧
        (∀ cause va, s.dev.readWords o.fn (fld (o.word 1) 0 48) ((k + 3) / 4) .read = (d1, .error (cause, va)) →
          Becomes (.stream id) s (d1.opFault id o.fn cause va)))) := by
  obtain ⟨steady, held, runs⟩ := w
  subst hc hk hx
  have fresh : (s.dev.hch (fld (o.word 0) 0 4)).queue.any (fun b => b.id = id) = false := by simpa using new
  refine ⟨fun bad => ?_, fun low high some_ few => ⟨fun foreign => ?_, fun owns off => ?_, fun owns on full => ?_,
    fun owns on room d1 => ⟨fun l read => ?_, fun cause va failed => ?_⟩⟩⟩
  · refine becomes_runOp (show execStream id s = _ by unfold execStream; rfl) steady ?_ (.refl _)
    simp only [held, runs, fresh, first, Bool.not_true, Bool.or_self, Bool.false_eq_true, if_false]
    exact if_pos (by simpa [or_assoc] using bad)
  · refine becomes_runOp (show execStream id s = _ by unfold execStream; rfl) steady ?_ (.refl _)
    simp [held, runs, fresh, first, low, high, some_, Nat.not_lt.mpr few, foreign]
  · refine becomes_runOp (show execStream id s = _ by unfold execStream; rfl) steady ?_ (.refl _)
    simp [held, runs, fresh, first, low, high, some_, Nat.not_lt.mpr few, owns, off]
  · refine becomes_runOp (show execStream id s = _ by unfold execStream; rfl) steady ?_ (.refl _)
    simp [held, runs, fresh, first, low, high, some_, Nat.not_lt.mpr few, owns, on, full]
  · refine becomes_runOp (show execStream id s = _ by unfold execStream; rfl) steady ?_ (EndsAlike.trans (readWords_reads read).endsAlike (.refl _))
    simp [held, runs, fresh, first, low, high, some_, Nat.not_lt.mpr few, owns, on, Nat.not_le.mpr room, ceilDiv_four, read]
  · refine becomes_runOp (show execStream id s = _ by unfold execStream; rfl) steady ?_
      ((readWords_reads failed).endsAlike.trans (opFault_endsAlike d1 _ _ _ _))
    simp [held, runs, fresh, first, low, high, some_, Nat.not_lt.mpr few, owns, on, Nat.not_le.mpr room, ceilDiv_four, failed]

end

/-- A GO of HAP_TRIG becomes a trigger of a channel of its function with a slot of its own, else it sets REFUSED (R336). -/
theorem hapTrig_does {s : State} {f : Fin 64} {c : Fin 16} {v : BitVec 32} {d : Dev} {x : HapChan} (arr : Arrives s f.val d) (hx : x = d.hch c.val) :
    (bit v 31 = false → Becomes (.hapTrig f c v) s d) ∧
    (bit v 31 = true → d.owner 0x07 c.val = f.val → (d.effSlot (fld v 16 6)).holder = some f.val → bit (d.hw c.val 1) 31 = true →
      Becomes (.hapTrig f c v) s (d.setHch c.val { x with pending := x.pending ++ [{ kind := .go f.val, slot := fld v 16 6, gain := fld v 0 8, reached := none }] })) ∧
    (bit v 31 = true → (d.owner 0x07 c.val ≠ f.val ∨ (d.effSlot (fld v 16 6)).holder ≠ some f.val ∨ bit (d.hw c.val 1) 31 = false) →
      Becomes (.hapTrig f c v) s (d.setHapStat f.val c.val (setBit (d.hapStat f.val c.val) 27 true))) := by
  subst hx
  have goes {e : Dev} (he : d.hapTrigger f.val c.val v = e) (m : EndsAlike d e) : Becomes (.hapTrig f c v) s e :=
    becomes_hosted (show execHapTrig f c v s = _ from rfl) arr he m
  refine ⟨fun none => goes ?_ (.refl d), fun go owns holds on => goes ?_ (.refl d), fun go refused => goes ?_ (.refl d)⟩
  · simp [Dev.hapTrigger, none]
  · simp [Dev.hapTrigger, go, owns, holds, on]
  · have not_ : ¬ (d.owner 0x07 c.val = f.val && (d.effSlot (fld v 16 6)).holder = some f.val && bit (d.hw c.val 1) 31) := by
      rcases refused with h | h | h <;> simp [h]
    unfold Dev.hapTrigger
    simp only [go]
    exact if_neg not_

end Sys2Proof.Machine
end

section
/-! One sample of a haptic channel (R323 to R330, R335, R339, R340). -/

namespace Sys2Proof.Machine

/-! What the sample of a channel changes. -/

/-- Of the haptic channels, channel c alone may have changed; beside them, what touch events may change. -/
def AtChannel (c : Nat) (d e : Dev) : Prop := Touched d e ∧ ∀ j, j ≠ c → e.hch j = d.hch j

namespace AtChannel

theorem refl (c : Nat) (d : Dev) : AtChannel c d d := ⟨.refl d, fun _ _ => rfl⟩

theorem trans {c : Nat} {d e r : Dev} (h : AtChannel c d e) (k : AtChannel c e r) : AtChannel c d r :=
  ⟨h.1.trans k.1, fun j ne => (k.2 j ne).trans (h.2 j ne)⟩

theorem foldl {c : Nat} {α : Type} {h : Dev → α → Dev} (k : ∀ d x, AtChannel c d (h d x)) (l : List α) (d : Dev) : AtChannel c d (l.foldl h d) :=
  List.foldlRecOn l h (motive := AtChannel c d) (refl c d) (fun e n x _ => n.trans (k e x))

theorem setHch (c : Nat) (d : Dev) (x : HapChan) : AtChannel c d (d.setHch c x) := ⟨.setHch d c x, fun _ ne => Dev.hch_setHch_ne d ne x⟩

end AtChannel

/-- What leaves the haptic engine alone leaves its channels. -/
theorem Delivered.hch {d e : Dev} (h : Delivered d e) (c : Nat) : e.hch c = d.hch c := (congrArg (fun x : Dev => x.hch c) h.1 :)

theorem Delivered.atChannel {d e : Dev} (h : Delivered d e) (c : Nat) : AtChannel c d e := ⟨h.touched, fun j _ => h.hch j⟩

theorem setHapStat_delivered (d : Dev) (f c : Nat) (v : BitVec 32) : Delivered d (d.setHapStat f c v) := ⟨rfl, fun _ => rfl⟩

theorem updOp_delivered (d : Dev) (id : OpId) (h : Op → Op) : Delivered d (d.updOp id h) := ⟨rfl, fun _ => rfl⟩

section
variable (d : Dev) (c : Nat)

/-! Triggers (R338 to R340). -/

theorem trigDone_at (t : Trig) (defer at_ : Nat) : AtChannel c d (d.trigDone c t defer at_) := by
  obtain ⟨d1, hd⟩ : ∃ d1, (if defer = 0 then d else d.setHch c { d.hch c with deferrals := satInc (d.hch c).deferrals }) = d1 := ⟨_, rfl⟩
  have counted : AtChannel c d d1 := by
    rw [← hd]
    split
    · exact .refl c d
    · exact .setHch c d _
  simp only [Dev.trigDone, hd]
  refine counted.trans ?_
  split
  · exact (zoneResolved_delivered d1 _ defer).atChannel c
  · split
    · exact .refl c d1
    · exact (setHapStat_delivered d1 _ c _).atChannel c
  · split
    · split
      · exact ((updOp_delivered d1 _ _).trans (finish_delivered _ _ 0 _)).atChannel c
      · exact .refl c d1
    · exact .refl c d1

theorem startTriggers_at (at_ : Nat) (l : List Trig) : AtChannel c d (d.startTriggers c at_ l) := by
  unfold Dev.startTriggers
  split
  · exact .refl c d
  · exact (AtChannel.setHch c d _).trans (.foldl (fun e t => trigDone_at e c t _ at_) l _)

/-- What a channel in FAULT tells its zones is delivered; beside that the channel's triggers alone change. -/
theorem tellZones_gives : ∃ p q, Delivered (d.setHch c { d.hch c with pending := p, deferred := q }) (d.tellZones c) :=
  ⟨_, _, Delivered.foldl (fun e z => zoneResolved_delivered e z 0) _ _⟩

theorem tellZones_at : AtChannel c d (d.tellZones c) := by
  obtain ⟨p, q, told⟩ := tellZones_gives d c
  exact (AtChannel.setHch c d _).trans (told.atChannel c)

theorem triggerStep_at (at_ : Nat) : AtChannel c d (d.triggerStep c at_) := by
  unfold Dev.triggerStep
  dsimp only
  split
  · exact tellZones_at d c
  split
  · exact .refl c d
  split
  · exact (AtChannel.setHch c d _).trans (.setHch c _ _)
  · exact (AtChannel.setHch c d _).trans (startTriggers_at _ c at_ _)

/-- What a disabled channel gives up is told to zones and operations; beside that the channel alone changes. -/
theorem flushChannel_gives : Delivered (d.setHch c { d.hch c with pending := [], deferred := [], queue := [] }) (d.flushChannel c) := by
  refine Delivered.trans (.foldl (fun e t => ?_) _ _) (.foldl (fun e (b : StreamBuf) => finish_delivered e b.id 0x10 none) _ _)
  split
  · exact zoneResolved_delivered e _ 0
  · exact .refl e
  · exact finish_delivered e _ 0x10 none

/-! The sample. -/

theorem tookSample_at (at_ : Nat) : AtChannel c d (d.tookSample c at_) := by
  unfold Dev.tookSample
  dsimp only
  split
  · exact .setHch c d _
  · split
    · exact .refl c d
    · split
      · exact (AtChannel.setHch c d _).trans ((finish_delivered _ _ 0 _).atChannel c)
      · exact .setHch c d _

theorem modelStep_state (u : Nat) (x : HapChan) : (d.modelStep c u x).state = x.state ∧ (d.modelStep c u x).faults = x.faults := by
  unfold Dev.modelStep
  split <;> exact ⟨rfl, rfl⟩

/-- A channel with the histories of a sample taken (R328 to R330). -/
def Dev.sensed (d : Dev) (c n : Nat) (z : Sense) : Dev :=
  d.setHch c ((d.hch c).sense n (mul36 (ofCode z.accel) (d.hf c 2 0)) (ofCode z.backEmf) z.current)

/-- A channel that is not driven, and its frame (R324, R328). -/
def Dev.undriven (d : Dev) (c : Nat) : Dev × (BitVec 24 × Bool) := (d.setHch c (d.modelStep c 0 (d.hch c)), (0, false))

theorem undriven_at : AtChannel c d (d.undriven c).1 := .setHch c d _

theorem undriven_state : ((d.undriven c).1.hch c).state = (d.hch c).state ∧ ((d.undriven c).1.hch c).faults = (d.hch c).faults := by
  rw [show (d.undriven c).1.hch c = _ from Dev.hch_setHch_same d c _]
  exact modelStep_state d c 0 _

variable (at_ n : Nat) (z : Sense)

theorem sensed_hch : (d.sensed c n z).hch c = (d.hch c).sense n (mul36 (ofCode z.accel) (d.hf c 2 0)) (ofCode z.backEmf) z.current :=
  Dev.hch_setHch_same d c _

theorem sensed_at : AtChannel c d (d.sensed c n z) := .setHch c d _

variable {d c}

theorem channelSample_off (off : bit (d.hw c 1) 31 = false) :
    Dev.channelSample at_ n z d c = ((d.sensed c n z).flushChannel c).undriven c := if_pos (by simp [off])

theorem channelSample_fault (on : bit (d.hw c 1) 31 = true) (fault : (d.hch c).state = 4) :
    Dev.channelSample at_ n z d c = ((d.sensed c n z).tellZones c).undriven c := (if_neg (by simp [on])).trans (if_pos fault)

theorem channelSample_driver (on : bit (d.hw c 1) 31 = true) (ok : (d.hch c).state ≠ 4) (bad : z.fault = true ∨ z.overTemp = true ∨ z.overCurrent = true) :
    Dev.channelSample at_ n z d c = ((d.sensed c n z).driverFault c z).undriven c :=
  (if_neg (by simp [on])).trans ((if_neg ok).trans (if_pos (by simpa [or_assoc] using bad)))

/-- A channel that is disabled or in FAULT is sent zero drive (R324, R328). -/
theorem channelSample_quiet (quiet : bit (d.hw c 1) 31 = false ∨ (d.hch c).state = 4) : (Dev.channelSample at_ n z d c).2 = (0, false) := by
  by_cases on : bit (d.hw c 1) 31 = true
  · rw [channelSample_fault at_ n z on (quiet.resolve_left (by simp [on]))]
    rfl
  · rw [channelSample_off at_ n z (eq_false_of_ne_true on)]
    rfl

/-- A channel in FAULT stays so at a sample (R324). -/
theorem channelSample_stays (fault : (d.hch c).state = 4) : ((Dev.channelSample at_ n z d c).1.hch c).state = 4 := by
  have sensed : ((d.sensed c n z).hch c).state = 4 := (congrArg HapChan.state (sensed_hch d c n z)).trans fault
  by_cases on : bit (d.hw c 1) 31 = true
  · obtain ⟨p, q, told⟩ := tellZones_gives (d.sensed c n z) c
    rw [channelSample_fault at_ n z on fault, (undriven_state _ c).1, told.hch, Dev.hch_setHch_same]
    exact sensed
  · rw [channelSample_off at_ n z (eq_false_of_ne_true on), (undriven_state _ c).1, (flushChannel_gives _ c).hch, Dev.hch_setHch_same]
    exact sensed

/-- Without a driver's fault a sample changes its channel alone of the haptic engine's. -/
theorem channelSample_at (good : z.fault = false ∧ z.overTemp = false ∧ z.overCurrent = false) : AtChannel c d (Dev.channelSample at_ n z d c).1 := by
  by_cases off : bit (d.hw c 1) 31 = false
  · rw [channelSample_off at_ n z off]
    exact (sensed_at d c n z).trans (((AtChannel.setHch c _ _).trans ((flushChannel_gives _ c).atChannel c)).trans (undriven_at _ c))
  have on : bit (d.hw c 1) 31 = true := eq_true_of_ne_false off
  by_cases fault : (d.hch c).state = 4
  · rw [channelSample_fault at_ n z on fault]
    exact (sensed_at d c n z).trans ((tellZones_at _ c).trans (undriven_at _ c))
  · obtain ⟨noFault, noTemp, noCurrent⟩ := good
    unfold Dev.channelSample
    rw [if_neg (by simp [on]), if_neg fault, if_neg (by simp [noFault, noTemp, noCurrent])]
    extract_lets d1 go d2 x playing smp ends y0 d3 smp2 d4 y v
    have begun : AtChannel c d d3 := (((sensed_at d c n z).trans (triggerStep_at (d.sensed c n z) c at_)).trans (.setHch c d1 _)).trans (.setHch c d2 _)
    have taken : AtChannel c d3 d4 := by
      unfold d4
      split
      · exact tookSample_at d3 c at_
      · exact .refl c d3
    exact (begun.trans taken).trans (.setHch c d4 _)

end

end Sys2Proof.Machine
end

section
/-! The 24 kHz sample and the faults of drivers (R323, R324), and the haptic engine that is settled. -/

namespace Sys2Proof.Machine

/-! The sixteen channels of a sample. -/

/-- The first n channels sampled from the links' frames, with their drives. -/
def Dev.sampleFirst (d : Dev) (at_ k : Nat) (di : List (List (BitVec 32))) (n : Nat) : Dev × List (BitVec 24 × Bool) :=
  (List.range n).foldl (fun acc c =>
    let r := Dev.channelSample at_ k (senseOf (nth di (c / 4) []) (c % 4)) acc.1 c
    (r.1, acc.2 ++ [r.2])) (d, [])

/-- No driver reports a fault of one of the sixteen channels (R323). -/
def DriversGood (di : List (List (BitVec 32))) : Prop :=
  ∀ c, c < 16 → ∀ z, z = senseOf (nth di (c / 4) []) (c % 4) → z.fault = false ∧ z.overTemp = false ∧ z.overCurrent = false

/-- What the samples of the first n channels leave: the other channels as they were, zero drive of a channel that is disabled or in FAULT, and FAULT where it was. -/
structure HapticSampled (d : Dev) (n : Nat) (p : Dev × List (BitVec 24 × Bool)) : Prop where
  touched : Touched d p.1
  drives : p.2.length = n
  rest : ∀ c, n ≤ c → p.1.hch c = d.hch c
  quiet : ∀ c, c < n → (bit (d.hw c 1) 31 = false ∨ (d.hch c).state = 4) → p.2[c]? = some (0, false)
  stays : ∀ c, c < n → (d.hch c).state = 4 → (p.1.hch c).state = 4

theorem Touched.hw {d e : Dev} (h : Touched d e) (c w : Nat) : e.hw c w = d.hw c w := (congrArg (fun x : Dev => x.hw c w) h :)

section
variable {d : Dev} {at_ k : Nat} {di : List (List (BitVec 32))}

theorem sampleFirst_succ (n : Nat) : d.sampleFirst at_ k di (n + 1) =
    ((Dev.channelSample at_ k (senseOf (nth di (n / 4) []) (n % 4)) (d.sampleFirst at_ k di n).1 n).1,
      (d.sampleFirst at_ k di n).2 ++ [(Dev.channelSample at_ k (senseOf (nth di (n / 4) []) (n % 4)) (d.sampleFirst at_ k di n).1 n).2]) := by
  simp [Dev.sampleFirst, List.range_succ]

theorem sampleFirst_sampled (good : DriversGood di) {n : Nat} (le : n ≤ 16) : HapticSampled d n (d.sampleFirst at_ k di n) := by
  induction n with
  | zero => exact ⟨.refl d, rfl, fun _ _ => rfl, fun _ lt => absurd lt (Nat.not_lt_zero _), fun _ lt => absurd lt (Nat.not_lt_zero _)⟩
  | succ n ih =>
    obtain ⟨touched, drives, rest, quiet, stays⟩ := ih (by omega)
    obtain ⟨p, hp⟩ : ∃ p, d.sampleFirst at_ k di n = p := ⟨_, rfl⟩
    rw [hp] at touched drives rest quiet stays
    rw [sampleFirst_succ, hp]
    have own : p.1.hch n = d.hch n := rest n le_rfl
    obtain ⟨changes, others⟩ := channelSample_at (d := p.1) (c := n) at_ k _ (good n (by omega) _ rfl)
    refine ⟨touched.trans changes, by simp [drives], fun c le => ?_, fun c lt off => ?_, fun c lt fault => ?_⟩
    · exact (others c (by omega)).trans (rest c (by omega))
    · rcases Nat.lt_succ_iff_lt_or_eq.mp lt with before | rfl
      · rw [List.getElem?_append_left (by omega)]
        exact quiet c before off
      · rw [List.getElem?_append_right (by omega), drives, Nat.sub_self]
        have zero := channelSample_quiet (d := p.1) (c := c) at_ k (senseOf (nth di (c / 4) []) (c % 4)) (by rw [touched.hw, own]; exact off)
        rw [zero]
        rfl
    · rcases Nat.lt_succ_iff_lt_or_eq.mp lt with before | rfl
      · rw [others c (by omega)]
        exact stays c before fault
      · exact channelSample_stays at_ k _ (by rw [own]; exact fault)

end

/-! The frames of the links. -/

/-- The four frames sent for the drives of sixteen channels (R323). -/
def linkFrames (codes : List (BitVec 24 × Bool)) : List (List (BitVec 32)) := (List.range 4).map (fun n => linkFrame ((codes.drop (4 * n)).take 4))

/-- The four drives of a link. -/
theorem linkCodes_length {codes : List (BitVec 24 × Bool)} (all : codes.length = 16) {n : Nat} (lt : n < 4) : ((codes.drop (4 * n)).take 4).length = 4 := by
  rw [List.length_take, List.length_drop]
  omega

theorem linkFrames_length {codes : List (BitVec 24 × Bool)} (all : codes.length = 16) : ∀ l ∈ linkFrames codes, l.length = 16 := by
  intro l mem
  obtain ⟨n, lt, rfl⟩ := List.mem_map.mp mem
  simp only [linkFrame, List.length_append, List.length_map, List.length_replicate, linkCodes_length all (List.mem_range.mp lt)]

/-- A drive of zero is sent as zero, disabled. -/
theorem linkFrame_quiet {codes : List (BitVec 24 × Bool)} (four : codes.length = 4) {i : Nat} (lt : i < 4) (zero : codes[i]? = some (0, false)) :
    nth (linkFrame codes) i 0 = 0 ∧ nth (linkFrame codes) (4 + i) 0 = 0 := by
  unfold nth linkFrame
  constructor
  · rw [List.append_assoc, List.getElem?_append_left (by simpa [four] using lt), List.getElem?_map, zero]
    rfl
  · rw [List.append_assoc, List.getElem?_append_right (by simp [four]), List.getElem?_append_left (by simp [four, lt]), List.getElem?_map, List.length_map, four,
      Nat.add_sub_cancel_left, zero]
    rfl

theorem linkFrames_quiet {codes : List (BitVec 24 × Bool)} (all : codes.length = 16) {c : Nat} (lt : c < 16) (zero : codes[c]? = some (0, false)) :
    nth (nth (linkFrames codes) (c / 4) []) (c % 4) 0 = 0 ∧ nth (nth (linkFrames codes) (c / 4) []) (4 + c % 4) 0 = 0 := by
  have link : c / 4 < 4 := by omega
  have frame : nth (linkFrames codes) (c / 4) [] = linkFrame ((codes.drop (4 * (c / 4))).take 4) := by simp [nth, linkFrames, link]
  have drive : ((codes.drop (4 * (c / 4))).take 4)[c % 4]? = some (0, false) := by
    rw [List.getElem?_take_of_lt (Nat.mod_lt c (by decide)), List.getElem?_drop, Nat.div_add_mod]
    exact zero
  rw [frame]
  exact linkFrame_quiet (linkCodes_length all link) (Nat.mod_lt c (by decide)) drive

/-! The command. -/

/-- Slots that are emptied once their effects have ended change the slots alone (R333). -/
theorem emptySlots_frame (d : Dev) : ∃ t, d.emptySlots = { d with haptic := { d.haptic with slots := t } } := by
  refine List.foldlRecOn (List.range 64) _ (motive := fun e : Dev => ∃ t, e = { d with haptic := { d.haptic with slots := t } }) ⟨d.haptic.slots, rfl⟩ ?_
  rintro e ⟨t, rfl⟩ n -
  split
  · exact ⟨_, rfl⟩
  · exact ⟨t, rfl⟩

/-- What sample k of the engine leaves: its channels sampled, and the frames sent (R323). -/
def Dev.sampleTaken (d : Dev) (k : Nat) (di : List (List (BitVec 32))) : Dev :=
  let p := d.sampleFirst d.now k di 16
  ({ p.1 with haptic := { p.1.haptic with
      links := linkFrames p.2, samples := k + 1, lastAt := d.now, origin := some (d.haptic.origin.getD (d.now, k)) } } : Dev).emptySlots

section
variable {s : State} {at_ : Nat} {di : List (List (BitVec 32))} (steady : s.Steady)
include steady

/-- No sample is taken off the grid, or while the block does not run (R323). -/
theorem hapticSample_none (idle : s.dev.runs 8 = false ∨ s.dev.haptic.sampleAt at_ = none) : Becomes (.hapticSample at_ di) s s.dev := by
  refine becomes_runFrom (show execHapticSample at_ di s = _ by unfold execHapticSample; rfl) steady ?_ (.refl _)
  dsimp only
  split
  · rfl
  · rename_i due
    rcases idle with off | none
    · simp [off]
    · rw [none] at due
      cases due

/-- A sample on the grid is taken and sent, with zero drive for a channel that is disabled or in FAULT (R323, R324). -/
theorem hapticSample_does {k : Nat} (up : s.dev.runs 8 = true) (due : s.dev.haptic.sampleAt at_ = some k) (good : DriversGood di) :
    Does (.hapticSample at_ di) s (fun e =>
      e.now = Nat.max s.dev.now at_ ∧ e.haptic.samples = k + 1 ∧ e.haptic.lastAt = Nat.max s.dev.now at_ ∧ e.haptic.links.length = 4 ∧
      (∀ l ∈ e.haptic.links, l.length = 16) ∧ (s.dev.haptic.origin.isSome = true → e.haptic.origin = s.dev.haptic.origin) ∧
      (∀ c, c < 16 → (bit (s.dev.hw c 1) 31 = false ∨ (s.dev.hch c).state = 4) →
        nth (nth e.haptic.links (c / 4) []) (c % 4) 0 = 0 ∧ nth (nth e.haptic.links (c / 4) []) (4 + c % 4) 0 = 0) ∧
      (∀ c, c < 16 → (s.dev.hch c).state = 4 → (e.hch c).state = 4) ∧ e.rings = s.dev.rings ∧ e.objs = s.dev.objs ∧ e.power = s.dev.power) := by
  obtain ⟨touched, drives, -, quiet, stays⟩ := sampleFirst_sampled (d := s.dev.tick at_) (at_ := (s.dev.tick at_).now) (k := k) good le_rfl
  obtain ⟨p, hp⟩ : ∃ p, (s.dev.tick at_).sampleFirst (s.dev.tick at_).now k di 16 = p := ⟨_, rfl⟩
  rw [hp] at touched drives quiet stays
  obtain ⟨t, taken⟩ : ∃ t, (s.dev.tick at_).sampleTaken k di = { p.1 with haptic := { p.1.haptic with
      links := linkFrames p.2, samples := k + 1, lastAt := (s.dev.tick at_).now, origin := some (s.dev.haptic.origin.getD ((s.dev.tick at_).now, k)), slots := t } } := by
    rw [Dev.sampleTaken, hp]
    obtain ⟨t, h⟩ := emptySlots_frame { p.1 with haptic := { p.1.haptic with
      links := linkFrames p.2, samples := k + 1, lastAt := (s.dev.tick at_).now, origin := some (s.dev.haptic.origin.getD ((s.dev.tick at_).now, k)) } }
    exact ⟨t, h⟩
  have becomes : Becomes (.hapticSample at_ di) s ((s.dev.tick at_).sampleTaken k di) := by
    refine becomes_runFrom (show execHapticSample at_ di s = _ by unfold execHapticSample; rfl) steady ?_ ?_
    · simp only [due]
      exact if_neg (by simp [up])
    · rw [taken]
      exact EndsAlike.trans (.refl _) touched.endsAlike
  refine becomes.imp (fun e is => ?_)
  have frame := is.frame
  rw [taken] at frame
  have haptic : e.haptic = _ := (congrArg Dev.haptic frame :)
  have channel (c : Nat) : e.hch c = p.1.hch c := (congrArg (fun x : Dev => x.hch c) frame :)
  refine ⟨(congrArg Dev.now frame :).trans touched.now, by rw [haptic], by rw [haptic]; rfl, by rw [haptic]; rfl, ?_, fun begun => ?_, fun c lt off => ?_,
    fun c lt fault => ?_, (congrArg Dev.rings frame :).trans (congrArg Dev.rings touched :), (congrArg Dev.objs frame :).trans (congrArg Dev.objs touched :),
    (congrArg Dev.power frame :).trans (congrArg Dev.power touched :)⟩
  · rw [haptic]
    exact linkFrames_length drives
  · obtain ⟨o, origin⟩ := Option.isSome_iff_exists.mp begun
    rw [haptic, origin]
    rfl
  · rw [haptic]
    exact linkFrames_quiet drives lt (quiet c lt off)
  · rw [channel]
    exact stays c lt fault

end

/-- A sample lies within 2 ns of a point of the grid, and after the last one (R40, R323). -/
theorem sampleAt_grid {h : Haptic} {at_ k : Nat} (due : h.sampleAt at_ = some k) : h.samples ≤ k ∧
    ∀ t n, h.origin = some (t, n) → ∀ stamp, stamp = t + roundHalfUp ((k - n) * 125000) 3 → stamp ≤ at_ + 2 ∧ at_ ≤ stamp + 2 := by
  unfold Haptic.sampleAt at due
  split at due
  · rename_i none
    cases due
    refine ⟨le_rfl, fun t n some_ => ?_⟩
    rw [none] at some_
    cases some_
  · rename_i t n origin
    dsimp only at due
    split at due
    · rename_i near
      cases due
      simp only [Bool.and_eq_true, decide_eq_true_eq] at near
      obtain ⟨⟨later, after⟩, before⟩ := near
      refine ⟨later, fun t' n' same stamp hs => ?_⟩
      rw [origin] at same
      cases same
      subst hs
      exact ⟨after, before⟩
    · cases due

/-! The fault of a driver (R324). -/

theorem smRecord_safety (d : Dev) (cls : Nat) (locus : W72) (fn : Option Nat) (a b : Nat) : ∃ x, d.smRecord cls locus fn a b = { d with safety := x } := by
  unfold Dev.smRecord
  dsimp only
  split
  · exact ⟨d.safety, rfl⟩
  · exact ⟨_, rfl⟩

section
variable (d : Dev) (f c : Nat)

theorem hapStat_setHapStat (v : BitVec 32) : (d.setHapStat f c v).hapStat f c = v := by
  rw [Dev.hapStat, Dev.setHapStat, Dev.fn_setFn_same]
  exact tget_tset_same ..

theorem setHapStat_evStatus (v : BitVec 32) : ((d.setHapStat f c v).fn f).evStatus = (d.fn f).evStatus := by
  rw [Dev.setHapStat, Dev.fn_setFn_same]

variable {d c}

theorem driverFault_eq (z : Sense) : ∃ (y : HapChan) (r : Safety), y.state = 4 ∧ y.faults = satInc (d.hch c).faults ∧
    d.driverFault c z = { ((d.setHch c y).setEv (d.owner 0x07 c) 5).setHapStat (d.owner 0x07 c) c
      (setBit ((d.setHch c y).hapStat (d.owner 0x07 c) c) 26 true) with safety := r } := by
  obtain ⟨r, e⟩ := smRecord_safety (((d.setHch c
    { (if (d.hch c).state = 1 || (d.hch c).state = 2 then (d.hch c).effectEnd else d.hch c) with
      state := 4, streaming := false, pos := 0, lastU := 0, faults := satInc (d.hch c).faults }).setEv (d.owner 0x07 c) 5).setHapStat (d.owner 0x07 c) c
      (setBit (d.hapStat (d.owner 0x07 c) c) 26 true)) 0x30 (locusEngine 0x07 c) (some (d.owner 0x07 c))
    ((z.fault.toNat * 4 + z.overTemp.toNat * 2 + z.overCurrent.toNat) * 2 ^ 29) 0
  exact ⟨_, r, rfl, rfl, e⟩

/-- A driver's fault puts its channel in FAULT, counts, sets FAULT in HAP_STAT and raises EV_FAULT at the channel's owner. -/
theorem driverFault_does (z : Sense) : ((d.driverFault c z).hch c).state = 4 ∧ ((d.driverFault c z).hch c).faults = satInc (d.hch c).faults ∧
    bit ((d.driverFault c z).hapStat (d.owner 0x07 c) c) 26 = true ∧ bit ((d.driverFault c z).fn (d.owner 0x07 c)).evStatus 5 = true := by
  obtain ⟨y, r, state, faults, e⟩ := driverFault_eq (d := d) (c := c) z
  obtain ⟨d1, hd⟩ : ∃ d1, (d.setHch c y).setEv (d.owner 0x07 c) 5 = d1 := ⟨_, rfl⟩
  have channel : d1.hch c = y := by rw [← hd, (setEv_signalled _ _ 5).delivered.hch, Dev.hch_setHch_same]
  have event : bit (d1.fn (d.owner 0x07 c)).evStatus 5 = true := hd ▸ setEv_evStatus _ _ (by decide)
  rw [e, hd]
  refine ⟨(congrArg HapChan.state channel).trans state, (congrArg HapChan.faults channel).trans faults, ?_, ?_⟩
  · refine (congrArg (fun v => bit v 26) (hapStat_setHapStat d1 _ c _)).trans ?_
    rw [bit_setBit _ _ _ _ (by decide), if_pos rfl]
  · exact (congrArg (fun v => bit v 5) (setHapStat_evStatus d1 _ c _)).trans event

/-- At a sample with a driver's fault the channel is not driven, and the fault is taken (R324). -/
theorem channelSample_faults (at_ n : Nat) {z : Sense} (on : bit (d.hw c 1) 31 = true) (ok : (d.hch c).state ≠ 4)
    (bad : z.fault = true ∨ z.overTemp = true ∨ z.overCurrent = true) :
    (Dev.channelSample at_ n z d c).2 = (0, false) ∧ ((Dev.channelSample at_ n z d c).1.hch c).state = 4 ∧
    ((Dev.channelSample at_ n z d c).1.hch c).faults = satInc (d.hch c).faults ∧
    bit ((Dev.channelSample at_ n z d c).1.hapStat (d.owner 0x07 c) c) 26 = true ∧
    bit ((Dev.channelSample at_ n z d c).1.fn (d.owner 0x07 c)).evStatus 5 = true := by
  obtain ⟨state, faults, stat, event⟩ := driverFault_does (d := d.sensed c n z) (c := c) z
  rw [channelSample_driver at_ n z on ok bad, (undriven_state _ c).1, (undriven_state _ c).2]
  rw [sensed_hch] at faults
  exact ⟨rfl, state, faults, stat, event⟩

end

theorem clamp36_cases (u limit : Nat) : clamp36 u limit = (limit, true) ∨ clamp36 u limit = (limit + 2 ^ 35, true) ∨ clamp36 u limit = (u, false) := by
  unfold clamp36
  split
  · exact .inl rfl
  · split
    · exact .inr (.inl rfl)
    · exact .inr (.inr rfl)

/-- Settles O45: operations and triggers by their checks, a sample channel by channel, and a driver's fault by what its channel's sample then does. -/
theorem hapticEngine : Obligations.HapticEngine :=
  ⟨fun _ _ _ _ _ w hn hk => slotLoad_does w hn hk, fun l _ _ lt => effectSamples_at l lt, fun _ _ _ _ w hn => slotRelease_does w hn,
    fun _ _ _ _ _ _ w hc hn hx new => hapticPlay_does w hc hn hx new, fun _ _ _ _ _ _ w hc hk hx new first => stream_does w hc hk hx new first,
    fun _ _ _ _ _ _ arr hx => hapTrig_does arr hx,
    fun _ _ _ steady => ⟨fun idle => hapticSample_none steady idle, fun _ up due good => hapticSample_does steady up due good⟩,
    fun _ _ _ due => sampleAt_grid due, fun _ _ => ⟨rfl, rfl, rfl, rfl, rfl, rfl⟩,
    fun at_ n _ _ _ on ok bad => channelSample_faults at_ n on ok bad, clamp36_cases⟩

end Sys2Proof.Machine
end

section
/-! The A-profile instructions, lane by lane in ascending order (R345 to R348). -/

namespace Sys2Proof.Machine

/-! A command, and an instruction of a slice. -/

/-- A command that leaves a calm device without stores, said whole: its accesses take their place in the lattice. -/
theorem does_is_noStores {i : Instr} {s : State} {who : Nat × Nat} {h : Dev → Dev} {d : Dev} (x : exec i s = runFrom who h s) (hd : h s.dev = d)
    (calm : d.Calm) (writes : d.writes = []) (mem : d.mem = s.dev.mem) : Does i s (Is d) := by
  refine ⟨commit who s d, by rw [x, runFrom_calm who h s (hd ▸ calm), hd], rfl, rfl, fun a => ?_, ⟨who, rfl⟩, rfl⟩
  rw [commit_mem, Dev.peekByte_eq, writes, mem]
  rfl

@[simp] theorem Dev.setSlice_setSlice (d : Dev) (n : Nat) (x y : Slice) : (d.setSlice n x).setSlice n y = d.setSlice n y := by
  simp [Dev.setSlice, tset_tset]

theorem Dev.next_setSlice (d : Dev) (n : Fin 4) (x : Slice) :
    (d.setSlice n.val x).proceed (.slice n) .next = d.setSlice n.val { x with seq := { x.seq with pc := x.seq.pc + 1 } } := by
  simp [Dev.proceed, Dev.updSeq]

/-- An effect that answers what h admits on one lane does so on all lanes of a slice. -/
theorem laneFold_of_goes {w : Insn} {h : Dev → Nat → Bank → Dev → Bank → Prop} {eff : Dev → Nat → Bank → Dev × Except Exc Bank}
    (step : ∀ d n b d1 b1, h d n b d1 b1 → eff d n b = (d1, .ok b1)) {n : Nat} {d e : Dev} {l m : List Bank} (goes : BanksGo w h n d l e m) :
    Dev.laneFold eff w d n l = (e, .ok m) := by
  induction l generalizing n d m with
  | nil =>
    obtain ⟨rfl, rfl⟩ := goes
    rfl
  | cons x r ih =>
    obtain ⟨d1, x1, m1, rfl, one, rest⟩ := goes
    have first : (if x.holds w then eff d n x else (d, .ok x)) = (d1, .ok x1) := by
      by_cases holds : x.holds w = true
      · rw [if_pos holds] at one ⊢
        exact step d n x d1 x1 one
      · rw [if_neg holds] at one ⊢
        obtain ⟨rfl, rfl⟩ := one
        rfl
    simp only [Dev.laneFold, first, ih rest]

/-- An A-profile instruction whose effect on each lane succeeds: the banks in their places, and the next index (R345). -/
theorem audio_ready {d d1 : Dev} {n : Fin 4} {u : AudUse} {abiq : Bool} {w : Insn} {q : Seq} {b : Bank} {ls : List Bank}
    {eff : Nat → Dev → Nat → Bank → Dev × Except Exc Bank} (r : d.Ready (.slice n) (u.shape abiq w) w q)
    (lanes : Dev.laneFold (eff n.val) w (d.issued (.slice n) q) 0 (d.lanes (.slice n)) = (d1, .ok (b :: ls))) :
    audio (.slice n) u abiq w eff d = d1.setSlice n.val
      { d1.slice n.val with seq := { (d1.slice n.val).seq with bank := b, pc := (d1.slice n.val).seq.pc + 1 }, others := ls } := by
  have banks : ((d.issued (.slice n) q).slice n.val).seq.bank :: ((d.issued (.slice n) q).slice n.val).others = d.lanes (.slice n) :=
    issued_lanes d (.slice n) q r.seq r.fetches
  have runs : (d.issued (.slice n) q).predicate (.slice n) (u.shape abiq w) w false = true := rfl
  rw [audio, issue_ready d (.slice n) _ w false _ q r, if_pos runs]
  simp only [banks, lanes, Dev.next_setSlice]
  rfl

/-- A row whose effect on a lane is what h admits. -/
theorem audioGoes_of_exec {mk : Ctx → Insn → Instr} {use : Insn → AudUse} {abiq : Bool} {h : Insn → Nat → Dev → Nat → Bank → Dev → Bank → Prop}
    {eff : Insn → Nat → Dev → Nat → Bank → Dev × Except Exc Bank}
    (e : ∀ c w s, exec (mk c w) s = run (audio c (use w) abiq w (eff w)) s)
    (step : ∀ w n d l b d1 b1, h w n d l b d1 b1 → eff w n d l b = (d1, .ok b1)) : AudioGoes mk use abiq h :=
  fun s n w _ _ _ _ _ r goes calm writes mem =>
    does_is_noStores (e (.slice n) w s) (audio_ready r (laneFold_of_goes (step w n.val) goes)) calm writes mem

/-- A lane without the channel that an instruction writes leaves the device. -/
theorem answer_of_ite {c : Prop} [Decidable c] {d d1 x : Dev} {b : Bank} (h : if c then d1 = d else d1 = x) :
    (if c then (d, .ok b) else (x, .ok b) : Dev × Except Exc Bank) = (d1, .ok b) := by
  by_cases k : c
  · rw [if_pos k] at h ⊢
    rw [h]
  · rw [if_neg k] at h ⊢
    rw [h]

/-! Delay lines and state words (R347). -/

section
variable {d : Dev} {w : Insn} {g : GNode} (node : d.gnode (refNode w) = some g)
include node

theorem delayNode_state (bank : refBank w = 2) : d.delayNode w = .ok g := by simp [Dev.delayNode, node, bank]

theorem delayNode_tap (tap : fld w.low 0 14 < g.delayLen) : d.delayNode w = .ok g := by
  simp [Dev.delayNode, node, Nat.not_le.mpr tap]

end

/-- AMAC and AMSU add the product, or its negation, to the accumulator (R347). -/
theorem multiplyAdd_of_refVal (neg : Bool) {d : Dev} {w : Insn} (n l : Nat) {b : Bank} {v : Int} (value : d.refVal w b = .ok v) :
    multiplyAdd neg w n d l b = (d.setAcc n l (accD w) (d.acc n l (accD w) +
      (if neg then -(elemVal (b.rd w.a) (w.s % 2) * v) else elemVal (b.rd w.a) (w.s % 2) * v)), .ok b) := by
  simp only [multiplyAdd, value]
  rfl

/-- Settles O21: each row is an effect on the banks of the lanes whose predicate holds. -/
theorem audioInstructions : Obligations.AudioInstructions := by
  refine ⟨audioGoes_of_exec (fun _ _ _ => rfl) ?amac, audioGoes_of_exec (fun _ _ _ => rfl) ?amsu, audioGoes_of_exec (fun _ _ _ => rfl) ?aldc,
    audioGoes_of_exec (fun _ _ _ => rfl) ?adlr, audioGoes_of_exec (fun _ _ _ => rfl) ?adlw, audioGoes_of_exec (fun _ _ _ => rfl) ?ain,
    audioGoes_of_exec (fun _ _ _ => rfl) ?aout, audioGoes_of_exec (fun _ _ _ => rfl) ?arnd, audioGoes_of_exec (fun _ _ _ => rfl) ?abiq,
    audioGoes_of_exec (fun _ _ _ => rfl) ?aramp, audioGoes_of_exec (fun _ _ _ => rfl) ?apeak⟩
  case amac =>
    rintro w n d l b _ _ ⟨v, value, rfl, rfl⟩
    exact multiplyAdd_of_refVal false n l value
  case amsu =>
    rintro w n d l b _ _ ⟨v, value, rfl, rfl⟩
    exact multiplyAdd_of_refVal true n l value
  case aldc =>
    rintro w n d l b _ _ ⟨v, value, rfl, rfl⟩
    simp only [value]
    rfl
  case adlr =>
    rintro w n d l b _ b1 ⟨g, node, rfl, read⟩
    by_cases bank : refBank w = 2
    · rw [if_pos bank] at read
      simp only [delayNode_state node bank, if_pos bank, read]
      rfl
    · rw [if_neg bank] at read
      obtain ⟨tap, channel, -, rfl⟩ := read
      simp only [delayNode_tap node tap, if_neg bank, if_neg (Nat.not_le.mpr channel)]
      rfl
  case adlw =>
    rintro w n d l b d1 _ ⟨g, node, rfl, stored⟩
    by_cases bank : refBank w = 2
    · rw [if_pos bank] at stored
      simp only [delayNode_state node bank, if_pos bank, stored]
      rfl
    · rw [if_neg bank] at stored
      obtain ⟨tap, -, line⟩ := stored
      simp only [delayNode_tap node tap, if_neg bank]
      exact answer_of_ite line
  case ain =>
    rintro w n d l b _ _ ⟨g, node, rfl, rfl⟩
    simp only [node]
    rfl
  case aout =>
    rintro w n d l b d1 _ ⟨g, node, rfl, output⟩
    simp only [node]
    exact answer_of_ite output
  case arnd =>
    rintro w n d l b _ _ ⟨rfl, rfl⟩
    rfl
  case abiq =>
    rintro w n d l b _ _ ⟨node, word, f0, f1, f2, x, y, z0, z1, rfl, rfl, rfl, rfl, rfl, rfl, rfl, rfl, rfl⟩
    obtain ⟨g, here⟩ := Option.isSome_iff_exists.mp node
    simp only [here, Option.isNone_some, Bool.false_eq_true, if_false, if_neg (Nat.not_lt.mpr word)]
    rfl
  case aramp =>
    rintro w n d l b _ _ ⟨t, g, v, value, rfl, rfl, rfl, rfl⟩
    simp only [value]
    rfl
  case apeak =>
    rintro w n d l b d1 _ ⟨g, node, rfl, meter⟩
    simp only [node]
    exact answer_of_ite meter

end Sys2Proof.Machine
end

section
/-! PLAY, CAPTURE and HS_WAIT (R350, R355, R363). -/

namespace Sys2Proof.Machine

/-! Buffers queued on streams (R355). -/

/-- The buffer that a PLAY or CAPTURE queues (R355). -/
def Op.streamBuffer (o : Op) : StreamOp :=
  { id := o.id, addr := BitVec.ofNat 48 (fld (o.word 1) 0 48), frames := fld (o.word 2) 0 16, recAt := BitVec.ofNat 48 (fld (o.word 3) 0 48), done := 0
    first := none, flags := 0, status := 0 }

section
variable {d : Dev} {cap : Bool} {o : Op}

theorem queueBuffer_malformed (bad : streamDescOk cap o = false) : d.queueBuffer cap o = d.finish o.id 0x10 none := if_pos (by simp [bad])

theorem queueBuffer_foreign (ok : streamDescOk cap o = true) (foreign : d.ownsStream o.fn (if cap = true then 2 else 1) (fld (o.word 0) 0 6) = false) :
    d.queueBuffer cap o = d.finish o.id 0x11 none := (if_neg (by simp [ok])).trans (if_pos (by simp [foreign]))

variable (ok : streamDescOk cap o = true) (owns : d.ownsStream o.fn (if cap = true then 2 else 1) (fld (o.word 0) 0 6) = true)
include ok owns

theorem queueBuffer_waits (wait : (∃ b ∈ (d.stream cap (fld (o.word 0) 0 6)).queue, b.id = o.id) ∨ 16 ≤ (d.stream cap (fld (o.word 0) 0 6)).queue.length ∨
    d.bufferWaits cap o = true) : d.queueBuffer cap o = d :=
  (if_neg (by simp [ok])).trans ((if_neg (by simp [owns])).trans (if_pos (by simpa [or_assoc] using wait)))

theorem queueBuffer_takes (new : ∀ b ∈ (d.stream cap (fld (o.word 0) 0 6)).queue, b.id ≠ o.id)
    (room : (d.stream cap (fld (o.word 0) 0 6)).queue.length < 16) (first : d.bufferWaits cap o = false) :
    d.queueBuffer cap o = d.setStream cap (fld (o.word 0) 0 6) { d.stream cap (fld (o.word 0) 0 6) with
      queue := (d.stream cap (fld (o.word 0) 0 6)).queue ++ [o.streamBuffer] } := by
  have fresh : (d.stream cap (fld (o.word 0) 0 6)).queue.any (fun b => b.id = o.id) = false := by simpa using new
  exact (if_neg (by simp [ok])).trans ((if_neg (by simp [owns])).trans (if_neg (by simp [fresh, room, first])))

end

section
variable {s : State} {id : OpId} {o : Op} {cap : Bool} {mk : OpId → Instr} {kind n : Nat} {x : Stream}

/-- A PLAY or CAPTURE that is held queues its buffer. -/
theorem streamBuffer_becomes {d : Dev} (which : (cap = false ∧ mk = Instr.audioPlay ∧ kind = 3) ∨ (cap = true ∧ mk = Instr.capture ∧ kind = 4))
    (w : Works s id 5 kind 7 o) (step : s.dev.queueBuffer cap o = d) (m : EndsAlike s.dev d) : Becomes (mk id) s d := by
  obtain ⟨steady, held, runs⟩ := w
  rcases which with ⟨rfl, rfl, rfl⟩ | ⟨rfl, rfl, rfl⟩
  · exact becomes_runOp (show execAudioPlay id s = _ by unfold execAudioPlay; rfl) steady (by simp only [held, runs, if_true, step]) m
  · exact becomes_runOp (show execCapture id s = _ by unfold execCapture; rfl) steady (by simp only [held, runs, if_true, step]) m

/-- PLAY and CAPTURE queue a buffer on a stream of their function, up to 16 (R355). -/
theorem streamBuffer_does (which : (cap = false ∧ mk = Instr.audioPlay ∧ kind = 3) ∨ (cap = true ∧ mk = Instr.capture ∧ kind = 4))
    (w : Works s id 5 kind 7 o) (hn : n = fld (o.word 0) 0 6) (hx : x = s.dev.stream cap n) :
    (streamDescOk cap o = false → Becomes (mk id) s (s.dev.finish id 0x10 none)) ∧
    (streamDescOk cap o = true → s.dev.ownsStream o.fn (if cap = true then 2 else 1) n = false → Becomes (mk id) s (s.dev.finish id 0x11 none)) ∧
    (streamDescOk cap o = true → s.dev.ownsStream o.fn (if cap = true then 2 else 1) n = true →
      (((∃ b ∈ x.queue, b.id = id) ∨ 16 ≤ x.queue.length ∨ s.dev.bufferWaits cap o = true) → Becomes (mk id) s s.dev) ∧
      ((∀ b ∈ x.queue, b.id ≠ id) → x.queue.length < 16 → s.dev.bufferWaits cap o = false → ∀ b : StreamOp,
        b = { id := id, addr := BitVec.ofNat 48 (fld (o.word 1) 0 48), frames := fld (o.word 2) 0 16, recAt := BitVec.ofNat 48 (fld (o.word 3) 0 48), done := 0
              first := none, flags := 0, status := 0 } →
        Becomes (mk id) s (s.dev.setStream cap n { x with queue := x.queue ++ [b] }))) := by
  subst hn hx
  obtain rfl := w.op_id
  refine ⟨fun bad => ?_, fun ok foreign => ?_, fun ok owns => ⟨fun wait => ?_, ?_⟩⟩
  · exact streamBuffer_becomes which w (queueBuffer_malformed bad) (.refl _)
  · exact streamBuffer_becomes which w (queueBuffer_foreign ok foreign) (.refl _)
  · exact streamBuffer_becomes which w (queueBuffer_waits ok owns wait) (.refl _)
  · rintro new room first _ rfl
    exact streamBuffer_becomes which w (queueBuffer_takes ok owns new room first) (.refl _)

end

/-! HS_WAIT (R350, R363). -/

/-- The result of an HS_WAIT whose headset is in state x (R363). -/
def AudPort.waitResult (x : AudPort) : Nat := x.code * 2 ^ 56 + x.button.toNat * 2 ^ 48 + x.changeAt % 2 ^ 48

/-- The operations that wait for headsets, replaced. -/
def Dev.withWaits (d : Dev) (l : List OpId) : Dev := { d with audio := { d.audio with waits := l } }

/-- Without an HS_WAIT nothing is notified (R363). -/
theorem hsNotify_none {d : Dev} (none : d.audio.waits = []) : d.hsNotify = d := by
  unfold Dev.hsNotify
  rw [none]
  rfl

/-- An HS_WAIT that is alone stays while its headset is as it expects, else it ends (R363). -/
theorem hsNotify_alone {d : Dev} {id : OpId} {o : Op} (none : d.audio.waits = []) (op : d.op id = some o) (active : o.phase = .started) :
    (d.withWaits [id]).hsNotify = if (d.aport (fld (o.word 0) 0 4)).code = fld (o.word 0) 8 8 then d.withWaits [id]
      else d.finish id 0 (some (d.aport (fld (o.word 0) 0 4)).waitResult) := by
  have held : (d.withWaits [id]).op id = some o := op
  have same : d.withWaits [] = d := by
    unfold Dev.withWaits
    rw [← none]
  have left : (d.withWaits [id]).withWaits ((d.withWaits [id]).audio.waits.filter (fun x => decide (x ≠ id))) = d := by
    rw [show (d.withWaits [id]).audio.waits.filter (fun x => decide (x ≠ id)) = [] by simp [Dev.withWaits]]
    exact same
  rw [Dev.hsNotify, show (d.withWaits [id]).audio.waits = [id] from rfl, List.foldl_cons, List.foldl_nil]
  simp only [held, Op.active, active, decide_true, Bool.not_true, Bool.false_eq_true, if_false]
  refine ite_congr rfl (fun _ => rfl) (fun _ => ?_)
  exact congrArg (fun e : Dev => e.finish id 0 (some (d.aport (fld (o.word 0) 0 4)).waitResult)) left

/-- HS_WAIT waits for a change of a headset of its function, and ends at once when the headset is not as it expects (R350, R363). -/
theorem hsWait_does {s : State} {id : OpId} {o : Op} {q : Nat} {x : AudPort} (w : Works s id 5 5 7 o) (hq : q = fld (o.word 0) 0 4) (hx : x = s.dev.aport q) :
    ((fld (o.word 0) 4 4 ≠ 0 ∨ fld (o.word 0) 16 56 ≠ 0 ∨ (q ≠ 10 ∧ q ≠ 11)) → Becomes (.hsWait id) s (s.dev.finish id 0x10 none)) ∧
    (fld (o.word 0) 4 4 = 0 → fld (o.word 0) 16 56 = 0 → (q = 10 ∨ q = 11) →
      (s.dev.owner 0x06 q ≠ o.fn → Becomes (.hsWait id) s (s.dev.finish id 0x11 none)) ∧
      (s.dev.owner 0x06 q = o.fn → s.dev.audio.waits = [] →
        (x.code = fld (o.word 0) 8 8 → Becomes (.hsWait id) s { s.dev with audio := { s.dev.audio with waits := [id] } }) ∧
        (x.code ≠ fld (o.word 0) 8 8 →
          Becomes (.hsWait id) s (s.dev.finish id 0 (some (x.code * 2 ^ 56 + x.button.toNat * 2 ^ 48 + x.changeAt % 2 ^ 48)))))) := by
  have op := w.op
  obtain ⟨steady, held, runs⟩ := w
  obtain ⟨-, active, -, -⟩ := Dev.activeOp_some held
  subst hq hx
  refine ⟨fun bad => ?_, fun low high port => ⟨fun foreign => ?_, fun own none => ?_⟩⟩
  · refine becomes_runFrom (show execHsWait id s = _ by unfold execHsWait; rfl) steady ?_ (.refl _)
    simp only [held, runs, Bool.not_true, Bool.false_eq_true, if_false]
    exact if_pos (by simpa [or_assoc] using bad)
  all_goals
    have ok : ¬ (decide (fld (o.word 0) 4 4 ≠ 0) || decide (fld (o.word 0) 16 56 ≠ 0) ||
        (decide (fld (o.word 0) 0 4 ≠ 10) && decide (fld (o.word 0) 0 4 ≠ 11))) = true := by
      rcases port with p | p <;> simp [low, high, p]
  · refine becomes_runFrom (show execHsWait id s = _ by unfold execHsWait; rfl) steady ?_ (.refl _)
    simp only [held, runs, Bool.not_true, Bool.false_eq_true, if_false, if_neg ok, if_pos foreign]
  · have notified := hsNotify_alone none op active
    have becomes {d : Dev} (h : (s.dev.withWaits [id]).hsNotify = d) (m : EndsAlike s.dev d) : Becomes (.hsWait id) s d := by
      refine becomes_runFrom (show execHsWait id s = _ by unfold execHsWait; rfl) steady ?_ m
      simp only [held, runs, Bool.not_true, Bool.false_eq_true, if_false, if_neg ok, own, ne_eq, not_true_eq_false, none, List.contains_nil, List.nil_append]
      exact h
    exact ⟨fun same => becomes (notified.trans (if_pos same)) (.refl _), fun changed => becomes (notified.trans (if_neg changed)) (.refl _)⟩

end Sys2Proof.Machine
end

section
/-! Converters, serial ports and headsets (R357 to R363), and the streams and ports that are settled. -/

namespace Sys2Proof.Machine

/-! Converters (R358). -/

section
variable {s : State} {node at_ t : Nat} {c : Conv} (steady : s.Steady) (found : tfind s.dev.audio.convs node = some c) (ht : t = fld (s.dev.obj 0x05 node 1) 10 6)
include steady found ht

/-- A converter with a signal that may lock does so (R358). -/
theorem asrcLock_locks (running : s.dev.audio.running = true) (runs : s.dev.runs 7 = true) (unlocked : c.state = 1)
    (signal : t = 1 ∨ t = 2 ∨ (s.dev.aport (fld (s.dev.obj 0x05 node 2) 0 4)).state = 2) (may : s.dev.mayLock node = true) :
    Becomes (.asrcLock node at_) s (({ s.dev with now := Nat.max s.dev.now at_ } : Dev).setConv node { c with state := 2, lockedAt := s.dev.audio.count }) := by
  subst ht
  refine becomes_runFrom (show execAsrcLock node at_ s = _ by unfold execAsrcLock; rfl) steady ?_ (.refl _)
  simp only [found]
  exact if_pos (by simpa [running, runs, unlocked, may, or_assoc] using signal)

/-- A converter that cannot lock stays as it is (R358). -/
theorem asrcLock_none (idle : s.dev.audio.running = false ∨ s.dev.runs 7 = false ∨ c.state ≠ 1 ∨ s.dev.mayLock node = false ∨
    (t ≠ 1 ∧ t ≠ 2 ∧ (s.dev.aport (fld (s.dev.obj 0x05 node 2) 0 4)).state ≠ 2)) : Becomes (.asrcLock node at_) s s.dev := by
  subst ht
  refine becomes_runFrom (show execAsrcLock node at_ s = _ by unfold execAsrcLock; rfl) steady ?_ (.refl _)
  simp only [found]
  refine if_neg ?_
  rcases idle with h | h | h | h | ⟨h1, h2, h3⟩
  · simp [h]
  · simp [h]
  · simp [show c.state ≠ 1#3 from h]
  · simp [h]
  · simp [h1, h2, show (s.dev.aport (fld (s.dev.obj 0x05 node 2) 0 4)).state ≠ 2#3 from h3]

end

/-- A converter may lock once the group delays are filled where its ratio is exact, else once its ratio has stayed for 10 ms (R357, R358). -/
theorem mayLock_iff (d : Dev) (node : Nat) : d.mayLock node = true ↔
    (d.exactRatio node = true ∧ outerDelay ≤ (d.conv node).taken ∧ innerDelay ≤ (d.conv node).age ∨
      d.exactRatio node = false ∧ 1920 ≤ (d.conv node).steady) := by
  by_cases exact_ : d.exactRatio node = true
  · simp [Dev.mayLock, exact_]
  · simp [Dev.mayLock, exact_]

/-- The offset in force lies within 1,000 ppm, and is none for an exact ratio (R358). -/
theorem ppmOf_bounds (d : Dev) (n i : Nat) : -100000 ≤ d.ppmOf n i ∧ d.ppmOf n i ≤ 100000 ∧ (d.exactRatio n = true → d.ppmOf n i = 0) := by
  refine ⟨?_, ?_, fun exact_ => ?_⟩
  · rw [Dev.ppmOf, clampI_eq_max_min (by decide)]
    exact le_max_left _ _
  · rw [Dev.ppmOf, clampI_eq_max_min (by decide)]
    exact max_le (by decide) (min_le_left _ _)
  · have none : d.ppmWant n i = 0 := if_pos exact_
    rw [Dev.ppmOf, none]
    rfl

/-! Slave ports (R361). -/

theorem unlockPort_endsAlike (d : Dev) (q : Nat) (x : AudPort) : EndsAlike d ((d.setAport q x).unlockPort q) := ⟨rfl, rfl, rfl⟩

section
variable {s : State} {q : Fin 12} {rate : Nat} {x : AudPort} (steady : s.Steady) (hx : x = s.dev.aport q.val)
include steady hx

/-- A slave port whose frame rate is lost is unlocked, with EV_FAULT at its owner (R361). -/
theorem portLost_does :
    (s.dev.runs 7 = true → q.val < 8 → bit (s.dev.obj 0x06 q.val 1) 31 = true → bit (s.dev.obj 0x06 q.val 1) 30 = true → (x.state = 1 ∨ x.state = 2) →
      s.dev.rateGood q.val rate = false → Becomes (.portLost q rate) s (((s.dev.setAport q.val
        { x with state := 3, measured := BitVec.ofNat 40 rate, errors := satInc x.errors, good := 0 }).unlockPort q.val).setEv (s.dev.owner 0x06 q.val) 5)) ∧
    ((s.dev.runs 7 = false ∨ 8 ≤ q.val ∨ bit (s.dev.obj 0x06 q.val 1) 31 = false ∨ bit (s.dev.obj 0x06 q.val 1) 30 = false ∨ (x.state ≠ 1 ∧ x.state ≠ 2) ∨
      s.dev.rateGood q.val rate = true) → Becomes (.portLost q rate) s s.dev) := by
  subst hx
  refine ⟨fun runs tdm on slave up bad => ?_, fun idle => ?_⟩
  · refine becomes_runFrom (show execPortLost q rate s = _ by unfold execPortLost; rfl) steady ?_
      ((unlockPort_endsAlike s.dev q.val _).trans (setEv_endsAlike _ _ 5))
    exact if_pos (by simpa [runs, tdm, on, slave, bad] using up)
  · refine becomes_runFrom (show execPortLost q rate s = _ by unfold execPortLost; rfl) steady (if_neg ?_) (.refl _)
    rcases idle with h | h | h | h | ⟨h1, h2⟩ | h
    · simp [h]
    · simp [Nat.not_lt.mpr h]
    · simp [h]
    · simp [h]
    · simp [show (s.dev.aport q.val).state ≠ 1#3 from h1, show (s.dev.aport q.val).state ≠ 2#3 from h2]
    · simp [h]

/-- A port that has lost its frame rate starts again when the rate is good (R361). -/
theorem portRecover_does :
    (s.dev.runs 7 = true → x.state = 3 → s.dev.rateGood q.val rate = true →
      Becomes (.portRecover q rate) s (s.dev.setAport q.val { x with state := 1, measured := BitVec.ofNat 40 rate, good := 8 })) ∧
    ((s.dev.runs 7 = false ∨ x.state ≠ 3 ∨ s.dev.rateGood q.val rate = false) → Becomes (.portRecover q rate) s s.dev) := by
  subst hx
  refine ⟨fun runs lost good => ?_, fun idle => ?_⟩
  · exact becomes_runFrom (show execPortRecover q rate s = _ by unfold execPortRecover; rfl) steady (if_pos (by simp [runs, lost, good])) (.refl _)
  · refine becomes_runFrom (show execPortRecover q rate s = _ by unfold execPortRecover; rfl) steady (if_neg ?_) (.refl _)
    rcases idle with h | h | h
    · simp [h]
    · simp [show (s.dev.aport q.val).state ≠ 3#3 from h]
    · simp [h]

end

/-! Headsets (R362, R363). -/

/-- A headset port with no HS_WAIT: a change of its encoded state is stamped and counted (R363). -/
theorem setHeadset_alone {d : Dev} {i : Nat} (headset : 10 ≤ i) (none : d.audio.waits = []) (y : AudPort) :
    d.setHeadset i y = d.setAport i (if y.code = (d.aport i).code then y else { y with changeAt := d.now, errors := satInc y.errors }) :=
  (if_neg (Nat.not_lt.mpr headset)).trans (hsNotify_none none)

/-- A 1 kHz sample of a headset takes a step of its detection; a change is stamped and counted (R362, R363). -/
theorem hsSample_does {s : State} {n : Fin 2} {at_ mv i : Nat} {det : Bool} {x y : AudPort} {d : Dev} (steady : s.Steady) (hi : i = 10 + n.val)
    (hx : x = s.dev.aport i) (hy : y = x.hsStep (bit (s.dev.obj 0x06 i 1) 0) det mv) (hd : d = { s.dev with now := Nat.max s.dev.now at_ })
    (none : s.dev.audio.waits = []) :
    ((s.dev.runs 7 = false ∨ bit (s.dev.obj 0x06 i 1) 31 = false) → Becomes (.hsSample n at_ det mv) s s.dev) ∧
    (s.dev.runs 7 = true → bit (s.dev.obj 0x06 i 1) 31 = true →
      (y.code = x.code → Becomes (.hsSample n at_ det mv) s (d.setAport i y)) ∧
      (y.code ≠ x.code → Becomes (.hsSample n at_ det mv) s (d.setAport i { y with changeAt := d.now, errors := satInc y.errors }))) := by
  subst hi hx hy hd
  have stepped := setHeadset_alone (d := s.dev.tick at_) (Nat.le_add_right 10 n.val) none
    ((s.dev.aport (10 + n.val)).hsStep (bit (s.dev.obj 0x06 (10 + n.val) 1) 0) det mv)
  refine ⟨fun idle => ?_, fun runs on => ?_⟩
  · refine becomes_runFrom (show execHsSample n at_ det mv s = _ by unfold execHsSample; rfl) steady (if_neg ?_) (.refl _)
    rcases idle with h | h <;> simp [h]
  · have go : (s.dev.runs 7 && bit (s.dev.obj 0x06 (10 + n.val) 1) 31) = true := by simp [runs, on]
    refine ⟨fun same => ?_, fun changed => ?_⟩ <;>
      refine becomes_runFrom (show execHsSample n at_ det mv s = _ by unfold execHsSample; rfl) steady ((if_pos go).trans (stepped.trans ?_)) (.refl _)
    · exact congrArg ((s.dev.tick at_).setAport (10 + n.val)) (if_pos same)
    · exact congrArg ((s.dev.tick at_).setAport (10 + n.val)) (if_neg changed)

section
variable {x : AudPort} {bias : Bool} {mv : Nat}

/-- A headset is detected after 200 ms (R362). -/
theorem hsStep_absent (absent : x.state = 1) :
    (x.det < 199 → (x.hsStep bias true mv).state = 1 ∧ (x.hsStep bias true mv).det = x.det + 1) ∧
    (199 ≤ x.det → (x.hsStep bias true mv).state = 2 ∧ (x.hsStep bias true mv).bias = bias) ∧
    ((x.hsStep bias false mv).state = 1 ∧ (x.hsStep bias false mv).det = 0) := by
  refine ⟨fun early => ?_, fun late => ?_, ?_⟩
  · have short : ¬ 200 ≤ x.det + 1 := by omega
    simp [AudPort.hsStep, absent, short]
  · have long : 200 ≤ x.det + 1 := by omega
    simp [AudPort.hsStep, absent, long]
  · simp [AudPort.hsStep, absent]

/-- A headset is gone after 10 ms (R362). -/
theorem hsStep_gone (present : x.state ≠ 1) (long : 9 ≤ x.rel) : (x.hsStep bias false mv).state = 1 ∧ (x.hsStep bias false mv).hsType = 0 ∧
    (x.hsStep bias false mv).button = 0 ∧ (x.hsStep bias false mv).bias = false := by
  have ten : 10 ≤ x.rel + 1 := by omega
  simp [AudPort.hsStep, show x.state ≠ 1#3 from present, ten]

/-- A headset that has been detected is typed after 30 ms (R362). -/
theorem hsStep_settling (settling : x.state = 2) :
    (x.settle = 29 → (x.hsStep bias true mv).state = 3 ∧ (x.hsStep bias true mv).hsType = micType (x.sum + mv)) ∧
    (x.settle < 29 → (x.hsStep bias true mv).state = 2 ∧ (x.hsStep bias true mv).settle = x.settle + 1) := by
  refine ⟨fun last => ?_, fun early => ?_⟩
  · simp [AudPort.hsStep, settling, last]
  · have short : x.settle + 1 < 30 := by omega
    simp [AudPort.hsStep, settling, short]

/-- A button is pressed once its band has been read for 20 ms (R362). -/
theorem hsStep_button (typed : x.state = 3) (mic : x.hsType = 2) (least : 1 ≤ micBand mv) (most : micBand mv ≤ 4) (same : x.band = micBand mv)
    (long : 19 ≤ x.bandMs) : (x.hsStep bias true mv).button = BitVec.ofNat 3 (micBand mv) := by
  have held : ¬ x.bandMs + 1 < 20 := by omega
  have some_ : micBand mv ≠ 0 := by omega
  have press : micBand mv ≠ 5 := by omega
  simp [AudPort.hsStep, typed, mic, same, held, some_, press]

end

/-- Settles O47: operations by their checks, converters and ports by their branches, and a headset's sample by the step of its detection. -/
theorem audioStreamsAndPorts : Obligations.AudioStreamsAndPorts :=
  ⟨fun _ _ _ _ _ _ _ _ which w hn hx => streamBuffer_does which w hn hx, fun _ _ _ _ _ w hq hx => hsWait_does w hq hx,
    fun _ _ _ _ _ steady found ht => ⟨fun running runs unlocked signal may => asrcLock_locks steady found ht running runs unlocked signal may,
      fun idle => asrcLock_none steady found ht idle⟩,
    mayLock_iff, ppmOf_bounds,
    fun _ _ _ _ steady hx =>
      have ⟨lost, stays⟩ := portLost_does steady hx
      have ⟨recovers, waits⟩ := portRecover_does steady hx
      ⟨lost, stays, recovers, waits⟩,
    fun _ _ _ _ _ _ _ _ _ steady hi hx hy hd none => hsSample_does steady hi hx hy hd none,
    fun _ _ _ => ⟨fun absent => (hsStep_absent absent).1, fun absent => (hsStep_absent absent).2.1, fun absent => (hsStep_absent absent).2.2, hsStep_gone,
      fun settling => (hsStep_settling settling).1, fun settling => (hsStep_settling settling).2, hsStep_button⟩⟩

end Sys2Proof.Machine
end

section
/-! What streams, converters and ports change in a sample (R355 to R361, R371). -/

namespace Sys2Proof.Machine

/-- What streams, converters, ports and the units on sinks may change: converters, streams and ports, units, what stores change, events, and operations
that end. -/
def Sounded (d e : Dev) : Prop :=
  { e with
    writes := d.writes, poison := d.poison, comp := d.comp, msgs := d.msgs, fns := d.fns, free := d.free, bus := d.bus, ops := d.ops, cvus := d.cvus
    audio := { e.audio with convs := d.audio.convs, plays := d.audio.plays, caps := d.audio.caps, ports := d.audio.ports } } = d

namespace Sounded

theorem refl (d : Dev) : Sounded d d := rfl

theorem trans {d e r : Dev} (h : Sounded d e) (k : Sounded e r) : Sounded d r :=
  (congrArg (fun x : Dev => { x with
    writes := d.writes, poison := d.poison, comp := d.comp, msgs := d.msgs, fns := d.fns, free := d.free, bus := d.bus, ops := d.ops, cvus := d.cvus
    audio := { x.audio with convs := d.audio.convs, plays := d.audio.plays, caps := d.audio.caps, ports := d.audio.ports } }) k :).trans h

theorem foldl {α : Type} {h : Dev → α → Dev} (k : ∀ d x, Sounded d (h d x)) (l : List α) (d : Dev) : Sounded d (l.foldl h d) :=
  List.foldlRecOn l h (motive := Sounded d) (refl d) (fun e n x _ => n.trans (k e x))

theorem setConv (d : Dev) (n : Nat) (x : Conv) : Sounded d (d.setConv n x) := rfl
theorem setAport (d : Dev) (q : Nat) (x : AudPort) : Sounded d (d.setAport q x) := rfl
theorem setCvu (d : Dev) (u : Nat) (x : Cvu) : Sounded d (d.setCvu u x) := rfl
theorem unlockPort (d : Dev) (q : Nat) : Sounded d (d.unlockPort q) := rfl
theorem finish (d : Dev) (id : OpId) (status : Nat) (r : Option Nat) : Sounded d (d.finish id status r) := rfl

theorem setStream (d : Dev) (cap : Bool) (s : Nat) (x : Stream) : Sounded d (d.setStream cap s x) := by cases cap <;> rfl

end Sounded

theorem Stored.sounded {d e : Dev} (h : Stored d e) : Sounded d e :=
  (congrArg (fun x : Dev => { x with ops := d.ops, cvus := d.cvus, audio := { x.audio with
    convs := d.audio.convs, plays := d.audio.plays, caps := d.audio.caps, ports := d.audio.ports } }) h :)

theorem Signalled.sounded {d e : Dev} (h : Signalled d e) : Sounded d e :=
  (congrArg (fun x : Dev => { x with
    writes := d.writes, poison := d.poison, comp := d.comp, free := d.free, bus := d.bus, ops := d.ops, cvus := d.cvus, audio := { x.audio with
      convs := d.audio.convs, plays := d.audio.plays, caps := d.audio.caps, ports := d.audio.ports } }) h.1 :)

section
variable (d : Dev) (cap : Bool) (i s stamp : Nat) (n : GNode)

/-! Streams (R355, R356, R359). -/

theorem endBuffer_sounded (b : StreamOp) : Sounded d (d.endBuffer cap i s b) := by
  unfold Dev.endBuffer
  dsimp only
  split
  · exact .setStream d cap s _
  · split
    · exact .setStream d cap s _
    · split
      · rename_i failed
        exact ((Sounded.setStream d cap s _).trans (writeWords_stored failed).sounded).trans
          ((accessFault_signalled _ _ _ _ _ _).sounded.trans (.finish _ _ _ _))
      · rename_i stored
        exact ((Sounded.setStream d cap s _).trans (writeWords_stored stored).sounded).trans (.finish _ _ _ _)

/-- A frame stored in a buffer or read from it, as long as its buffer has met no fault (R355). -/
def Dev.frameAccess (d : Dev) (cap : Bool) (b : StreamOp) (f va size : Nat) (data : List Byte) : Dev × Except (Nat × Nat) (List Byte) :=
  if b.status ≠ 0 then (d, .ok [])
  else if cap then (match d.writeV f va data with | (e, .error x) => (e, .error x) | (e, .ok _) => (e, .ok []))
  else d.readV f va size .read

theorem frameAccess_stored (b : StreamOp) (f va size : Nat) (data : List Byte) : Stored d (d.frameAccess cap b f va size data).1 := by
  unfold Dev.frameAccess
  split
  · exact .refl d
  · split
    · split
      · rename_i failed
        exact writeV_stored failed
      · rename_i stored
        exact writeV_stored stored
    · exact (readV_fetched d f va size .read).stored

theorem moveFrame_sounded (b : StreamOp) (size : Nat) (data : List Byte) : Sounded d (d.moveFrame cap i s b stamp size data).1 := by
  have moved (e : Dev) (x : Stream) (y : StreamOp) : Sounded e (if y.frames ≤ y.done then (e.setStream cap s x).endBuffer cap i s y else e.setStream cap s x) := by
    split
    · exact (Sounded.setStream e cap s x).trans (endBuffer_sounded _ cap i s y)
    · exact .setStream e cap s x
  unfold Dev.moveFrame
  extract_lets f va
  have access := (frameAccess_stored d cap b f va size data).sounded
  split
  rename_i d1 got reached
  rw [show d.frameAccess cap b f va size data = (d1, got) from reached] at access
  cases got with
  | error c => exact (access.trans (accessFault_signalled _ _ _ _ _ _).sounded).trans (moved _ _ _)
  | ok l => exact access.trans (moved _ _ _)

/-! Converters (R357, R358). -/

theorem enterFrame_sounded (counts : Bool) (f : List Nat) : Sounded d (d.enterFrame n counts f) := .setConv d _ _

theorem playFrames_sounded (k : Nat) : Sounded d (Dev.playFrames k n s stamp d) := by
  induction k generalizing d with
  | zero => exact .refl d
  | succ k ih =>
    have none_ : Sounded d ((d.setStream false s { d.stream false s with flags := (d.stream false s).flags ||| flagUnder }).enterFrame n false []) :=
      (Sounded.setStream d false s _).trans (enterFrame_sounded _ n false [])
    unfold Dev.playFrames
    dsimp only
    split
    · split
      · exact ((moveFrame_sounded d false n.node s stamp _ _ []).trans (enterFrame_sounded _ n true _)).trans (ih _)
      · exact none_.trans (ih _)
    · exact none_.trans (ih _)

theorem portFrames_sounded (k : Nat) : Sounded d (Dev.portFrames k n stamp d) := .foldl (fun e _ => enterFrame_sounded e n true _) _ d

theorem sourceCompute_sounded (phase : Nat) (ppm : Int) : Sounded d (d.sourceCompute n phase ppm) := .setConv d _ _

theorem sourceStep_sounded : Sounded d (Dev.sourceStep i d n) := by
  unfold Dev.sourceStep
  dsimp only
  split
  · exact ((Sounded.setConv d _ _).trans (portFrames_sounded _ _ n _)).trans (sourceCompute_sounded _ n _ _)
  · exact ((((Sounded.setConv d _ _).trans (.setStream _ false _ _)).trans (.setConv _ _ _)).trans (playFrames_sounded _ _ _ n _)).trans
      (sourceCompute_sounded _ n _ _)

theorem sinkFrames_sounded (k phase : Nat) (ppm : Int) : Sounded d (Dev.sinkFrames k n i phase ppm d).1 :=
  List.foldlRecOn (List.range k) _ (motive := fun acc : Dev × List (List Nat) => Sounded d acc.1) (.refl d) (fun _ h _ _ => h.trans (.setConv _ _ _))

theorem captureFrames_sounded (fuel : Nat) : Sounded d (Dev.captureFrames fuel n s stamp d) := by
  induction fuel generalizing d with
  | zero => exact .refl d
  | succ fuel ih =>
    unfold Dev.captureFrames
    dsimp only
    split
    · split
      · exact ((Sounded.setStream d true s _).trans (moveFrame_sounded _ true n.node s stamp _ _ _)).trans (ih _)
      · exact .refl d
    · exact .refl d

theorem sinkStep_sounded : Sounded d (Dev.sinkStep i d n) := by
  unfold Dev.sinkStep
  extract_lets ppm c now x0 d1 x st y
  have entered : Sounded d d1 := .setConv d _ _
  split
  · exact (entered.trans (sinkFrames_sounded d1 i n _ _ _)).trans (.setConv _ _ _)
  · split
    rename_i k phase due
    have captured (fuel stamp : Nat) (z : Stream) :
        Sounded d (Dev.captureFrames fuel n st stamp ((Dev.sinkFrames k n i y.phase ppm d1).1.setStream true st z)) :=
      ((entered.trans (sinkFrames_sounded d1 i n k y.phase ppm)).trans (.setStream _ true st z)).trans (captureFrames_sounded _ st stamp n fuel)
    dsimp only
    split
    · exact captured _ _ _
    · exact ((captured _ _ _).trans (.setStream _ true st _)).trans (.setConv _ _ _)

/-! Ports (R360, R361, R371). -/

theorem portTick_sounded (q : Nat) : Sounded d (Dev.portTick i d q) := .setAport d q _

theorem tapFrame_sounded (u no : Nat) (slot : Nat → List Byte) : Sounded d (d.tapFrame u no slot) := by
  unfold Dev.tapFrame
  dsimp only
  split
  · exact .refl d
  · exact .setCvu d u _

theorem tapPorts_sounded (nodes : List GNode) : Sounded d (d.tapPorts nodes) := by
  refine .foldl (fun e u => ?_) (List.range 32) d
  dsimp only
  split
  · exact .refl e
  · exact .foldl (fun e _ => tapFrame_sounded e u _ _) _ e

theorem portFades_sounded : Sounded d d.portFades := by
  refine .foldl (fun e q => ?_) (List.range 8) d
  dsimp only
  split
  · exact .refl e
  · split
    · exact (Sounded.setAport e q _).trans (.unlockPort _ q)
    · exact .setAport e q _

end

end Sys2Proof.Machine
end

section
/-! The sample of the audio engine (R342, R345, R348, R353). -/

namespace Sys2Proof.Machine

/-! What a sample begins with. -/

/-- The state of a graph whose swap's ramp may end with sample i (R353). -/
def Audio.rampState (a : Audio) (i : Nat) : BitVec 3 :=
  match a.graph with
  | some g => if a.state = 2 && decide (g.rampLen ≤ i - a.since) then 1 else a.state
  | none => a.state

section
variable {a : Audio} {d : Dev} {i : Nat}

theorem rampState_ramping {g : Graph} (graph : a.graph = some g) (ramping : a.state = 2) :
    a.rampState i = if g.rampLen ≤ i - a.since then 1 else 2 := by
  simp [Audio.rampState, graph, ramping]

/-- The end of a ramp leaves the graph in force as it was. -/
theorem active_rampState : ({ a with state := a.rampState i } : Audio).active = a.active := by
  have same : (a.rampState i = 0 ∨ a.rampState i = 3) ↔ (a.state = 0 ∨ a.state = 3) := by
    unfold Audio.rampState
    split
    · split
      · rename_i ends
        simp only [Bool.and_eq_true, decide_eq_true_eq] at ends
        rw [ends.1]
        decide
      · rfl
    · rfl
  exact if_congr same rfl rfl

/-- A ramp that ends while no graph stops changes the graph's state alone (R353). -/
theorem rampEnd_eq (running : d.audio.state ≠ 4) : d.rampEnd i = { d with audio := { d.audio with state := d.audio.rampState i } } := by
  cases graph : d.audio.graph with
  | none =>
    have same : d.audio.rampState i = d.audio.state := by simp only [Audio.rampState, graph]
    rw [same, Dev.rampEnd, graph]
  | some g =>
    have state : d.audio.rampState i = if d.audio.state = 2 && decide (g.rampLen ≤ i - d.audio.since) then 1 else d.audio.state := by
      simp only [Audio.rampState, graph]
    rw [state, Dev.rampEnd, graph]
    simp only [if_neg running]
    split <;> rfl

end

/-- The engine at the start of sample i, before its converters and its slices run, with its nodes' mutes: the outputs are the previous ones, and the sinks
carry what they were given. -/
def Dev.sampleBegun (d : Dev) (i : Nat) (mutes : Tab Nat) : Dev :=
  { d with audio := { d.audio with
      state := d.audio.rampState i, sent := d.sinkOuts, prev := d.audio.outs, written := [], mutes := mutes, count := i + 1 } }

/-- A sample is its start, what converters and ports change, and the runs of the slices. -/
theorem sampleStep_eq {d : Dev} (running : d.audio.state ≠ 4) : ∃ m e, Sounded (d.sampleBegun d.audio.count m) e ∧ d.sampleStep = e.startSlices := by
  have ramp : ({ d with audio := { d.audio with sent := d.sinkOuts } } : Dev).rampEnd d.audio.count =
    { d with audio := { d.audio with sent := d.sinkOuts, state := d.audio.rampState d.audio.count } } := rampEnd_eq running
  unfold Dev.sampleStep
  extract_lets i a d1 d2 nodes mutes b d3 d4 d5
  have begun : d3 = d.sampleBegun d.audio.count mutes := by
    clear_value mutes
    unfold d3 b d2 d1 a i
    rw [ramp]
    rfl
  have ticked : Sounded d3 d4 := .foldl (fun e q => portTick_sounded e i q) _ d3
  have converted : Sounded d4 d5 :=
    (Sounded.foldl (fun e n => sourceStep_sounded e i n) d4.audio.sources d4).trans (.foldl (fun e n => sinkStep_sounded e i n) _ _)
  exact ⟨mutes, _, begun ▸ ((ticked.trans converted).trans ((tapPorts_sounded d5 nodes).trans (portFades_sounded _))), rfl⟩

/-! The runs of the slices (R345). -/

/-- A slice with a program begins its run afresh (R345). -/
def Slice.begin (x : Slice) (p : AProg) : Slice :=
  { x with
    idle := false, running := true
    seq := { x.seq with pc := p.entry, stack := [], base := 0, length := p.words.length, limit := p.limit, steps := 0 } }

/-- The slice runs from the start of its program. -/
def Slice.Fresh (x : Slice) : Prop := x.running = true ∧ x.seq.steps = 0 ∧ x.seq.stack = []

/-- The runs of the slices with the programs of a list begin. -/
def Dev.beginSlices (d : Dev) (l : Tab AProg) : Dev := l.foldl (fun d p => d.setSlice p.1 ((d.slice p.1).begin p.2)) d

theorem startSlices_none {d : Dev} (none : d.audio.active = none) : d.startSlices = d := by
  unfold Dev.startSlices
  rw [none]

theorem startSlices_some {d : Dev} {g : Graph} (graph : d.audio.active = some g) : d.startSlices = d.beginSlices g.progs := by
  unfold Dev.startSlices
  rw [graph]
  rfl

theorem beginSlices_frame (l : Tab AProg) (d : Dev) : { d.beginSlices l with audio := { (d.beginSlices l).audio with slices := d.audio.slices } } = d :=
  List.foldlRecOn l _ (motive := fun e : Dev => { e with audio := { e.audio with slices := d.audio.slices } } = d) rfl (fun _ h _ _ => h)

theorem startSlices_frame (d : Dev) : { d.startSlices with audio := { d.startSlices.audio with slices := d.audio.slices } } = d := by
  cases graph : d.audio.active with
  | none => rw [startSlices_none graph]
  | some g =>
    rw [startSlices_some graph]
    exact beginSlices_frame g.progs d

/-- Slices keep their accumulators when their runs begin. -/
theorem beginSlices_acc (l : Tab AProg) (d : Dev) (n : Nat) : ((d.beginSlices l).slice n).acc = (d.slice n).acc := by
  refine List.foldlRecOn l _ (motive := fun e : Dev => (e.slice n).acc = (d.slice n).acc) rfl (fun e h p _ => ?_)
  rw [Dev.slice_setSlice]
  split
  · rename_i own
    rw [← h, ← own]
    rfl
  · exact h

/-- Every slice with a program runs afresh. -/
theorem beginSlices_fresh (l : Tab AProg) (d : Dev) (n : Nat) (here : (∃ p ∈ l, p.1 = n) ∨ (d.slice n).Fresh) : ((d.beginSlices l).slice n).Fresh := by
  induction l generalizing d with
  | nil => exact here.resolve_left (by simp)
  | cons p r ih =>
    refine ih _ ?_
    by_cases own : p.1 = n
    · subst own
      exact .inr (by rw [Dev.slice_setSlice_same]; exact ⟨rfl, rfl, rfl⟩)
    · rw [Dev.slice_setSlice, if_neg own]
      refine here.imp_left (fun ⟨x, mem, eq⟩ => ⟨x, (List.mem_cons.1 mem).resolve_left (fun same => own (same ▸ eq)), eq⟩)

/-! The sample. -/

/-- Slices, and what converters and ports change, alone have changed. -/
def Played (d e : Dev) : Prop := Sounded d { e with audio := { e.audio with slices := d.audio.slices } }

theorem Played.endsAlike {d e : Dev} (h : Played d e) : EndsAlike d e :=
  ⟨(congrArg Dev.mem h :), (congrArg Dev.update h :), (congrArg Dev.safety h :)⟩

section
variable {d : Dev} (running : d.audio.state ≠ 4)
include running

/-- A sample begins, and then converters, ports and slices alone change. -/
theorem sampleStep_played : ∃ m, Played (d.sampleBegun d.audio.count m) d.sampleStep := by
  obtain ⟨m, e, sounded, step⟩ := sampleStep_eq running
  have slices : e.audio.slices = (d.sampleBegun d.audio.count m).audio.slices := (congrArg (fun x : Dev => x.audio.slices) sounded :)
  refine ⟨m, ?_⟩
  rw [Played, step, ← slices, startSlices_frame]
  exact sounded

/-- At a sample every slice with a program runs afresh, with its accumulators (R345). -/
theorem sampleStep_slices {g : Graph} (graph : d.audio.active = some g) {p : Nat × AProg} (mem : p ∈ g.progs) :
    (d.sampleStep.slice p.1).Fresh ∧ (d.sampleStep.slice p.1).acc = (d.slice p.1).acc := by
  obtain ⟨m, e, sounded, step⟩ := sampleStep_eq running
  have active : e.audio.active = d.audio.active := ((congrArg (fun x : Dev => x.audio.active) sounded :) : e.audio.active = _).trans active_rampState
  rw [step, startSlices_some (active.trans graph)]
  exact ⟨beginSlices_fresh g.progs e p.1 (.inl ⟨p, mem, rfl⟩),
    (beginSlices_acc g.progs e p.1).trans (congrArg (fun x : Dev => (x.slice p.1).acc) sounded :)⟩

end

/-! The commands (R40, R342, R343). -/

/-- No sample begins before its instant, nor while a slice runs (R342). -/
theorem sampleReady_none {s : State} {at_ : Nat} (k : s.Steady) (early : s.dev.sampleReady at_ = false) :
    Becomes (.audioSample at_) s s.dev ∧ Becomes (.audioBlock at_) s s.dev := by
  constructor
  · refine becomes_runFrom (show execAudioSample at_ s = _ by unfold execAudioSample; rfl) k ?_ (.refl _)
    exact if_pos (by simp [early])
  · refine becomes_runFrom (show execAudioBlock at_ s = _ by unfold execAudioBlock; rfl) k ?_ (.refl _)
    exact if_neg (by simp [early])

/-- A block begins once, at every 48th sample (R343). -/
theorem audioBlock_none {s : State} {at_ : Nat} (k : s.Steady) (other : s.dev.audio.count % 48 ≠ 0 ∨ s.dev.audio.blockDone s.dev.audio.count = true) :
    Becomes (.audioBlock at_) s s.dev := by
  refine becomes_runFrom (show execAudioBlock at_ s = _ by unfold execAudioBlock; rfl) k (if_neg ?_) (.refl _)
  rcases other with h | h <;> simp [h]

/-- A sample at its instant (R342, R345). -/
theorem audioSample_does {s : State} {at_ : Nat} (k : s.Steady) (ready : s.dev.sampleReady at_ = true)
    (noBlock : s.dev.audio.count % 48 ≠ 0 ∨ s.dev.audio.blockDone s.dev.audio.count = true) (running : s.dev.audio.state ≠ 4) :
    Does (.audioSample at_) s (fun e =>
      e.now = Nat.max s.dev.now (s.dev.audio.stamp s.dev.audio.count) ∧ e.audio.count = s.dev.audio.count + 1 ∧ e.audio.prev = s.dev.audio.outs ∧
      e.audio.outs = s.dev.audio.outs ∧ e.audio.written = [] ∧ e.audio.sent = s.dev.sinkOuts ∧ e.audio.graph = s.dev.audio.graph ∧
      (∀ g, s.dev.audio.graph = some g → s.dev.audio.state = 2 →
        e.audio.state = (if g.rampLen ≤ s.dev.audio.count - s.dev.audio.since then 1 else 2)) ∧
      (∀ g, s.dev.audio.active = some g → ∀ p ∈ g.progs,
        (e.slice p.1).running = true ∧ (e.slice p.1).seq.steps = 0 ∧ (e.slice p.1).seq.stack = [] ∧ (e.slice p.1).acc = (s.dev.slice p.1).acc) ∧
      e.rings = s.dev.rings ∧ e.objs = s.dev.objs ∧ e.power = s.dev.power) := by
  obtain ⟨mutes, played⟩ := sampleStep_played (d := s.dev.tick (s.dev.audio.stamp s.dev.audio.count)) running
  have slices (g : Graph) (graph : s.dev.audio.active = some g) (p : Nat × AProg) (mem : p ∈ g.progs) :=
    sampleStep_slices (d := s.dev.tick (s.dev.audio.stamp s.dev.audio.count)) running graph mem
  obtain ⟨r, step⟩ : ∃ r, (s.dev.tick (s.dev.audio.stamp s.dev.audio.count)).sampleStep = r := ⟨_, rfl⟩
  rw [step] at played slices
  have block : ¬ (decide (s.dev.audio.count % 48 = 0) && !s.dev.audio.blockDone s.dev.audio.count) = true := by
    rcases noBlock with h | h <;> simp [h]
  have becomes : Becomes (.audioSample at_) s r := by
    refine becomes_runFrom (show execAudioSample at_ s = _ by unfold execAudioSample; rfl) k ?_ played.endsAlike
    exact (if_neg (by simp [ready])).trans ((congrArg Dev.sampleStep (if_neg block)).trans step)
  refine becomes.imp (fun e is => ?_)
  have audio : e.audio = r.audio := (congrArg Dev.audio is.frame :)
  refine ⟨(congrArg Dev.now is.frame :).trans (congrArg Dev.now played :), ?_, ?_, ?_, ?_, ?_, ?_, fun g graph ramping => ?_, fun g graph p mem => ?_,
    (congrArg Dev.rings is.frame :).trans (congrArg Dev.rings played :), (congrArg Dev.objs is.frame :).trans (congrArg Dev.objs played :),
    (congrArg Dev.power is.frame :).trans (congrArg Dev.power played :)⟩
  · exact (congrArg Audio.count audio).trans (congrArg (fun x : Dev => x.audio.count) played :)
  · exact (congrArg Audio.prev audio).trans (congrArg (fun x : Dev => x.audio.prev) played :)
  · exact (congrArg Audio.outs audio).trans (congrArg (fun x : Dev => x.audio.outs) played :)
  · exact (congrArg Audio.written audio).trans (congrArg (fun x : Dev => x.audio.written) played :)
  · exact (congrArg Audio.sent audio).trans (congrArg (fun x : Dev => x.audio.sent) played :)
  · exact (congrArg Audio.graph audio).trans (congrArg (fun x : Dev => x.audio.graph) played :)
  · exact (congrArg Audio.state audio).trans ((congrArg (fun x : Dev => x.audio.state) played :).trans (rampState_ramping graph ramping))
  · obtain ⟨⟨runs, steps, stack⟩, acc⟩ := slices g graph p mem
    rw [show e.slice p.1 = r.slice p.1 from (congrArg (fun x : Dev => x.slice p.1) is.frame :)]
    exact ⟨runs, steps, stack, acc⟩

end Sys2Proof.Machine
end

section
/-! Block boundaries, and the graphs that take over at them (R113, R343, R351, R352). -/

namespace Sys2Proof.Machine

/-! What a boundary publishes (R343, R360, R364). -/

theorem putLive_status (d : Dev) (cls inst word : Nat) (v : W72) : StatusOnly d (d.putLive cls inst word v) := by
  unfold Dev.putLive
  split
  · exact .refl d
  · exact setLive_status d cls inst word v

theorem publishBlock_status (d : Dev) : StatusOnly d d.publishBlock := by
  unfold Dev.publishBlock
  refine (StatusOnly.foldl (fun e n => ?_) (List.range 1024) d).trans (.foldl (fun e q => ?_) (List.range 12) _)
  · have words (v w : W72) := (putLive_status e 0x05 n 58 v).trans (putLive_status _ 0x05 n 59 w)
    exact ((words _ _).trans (.foldl (fun x i => putLive_status x 0x05 n (60 + i) _) (List.range 4) _)).trans (publishWords_status _ 0x05 n _)
  · exact ((setLive_status e 0x06 q 12 _).trans (setLive_status _ 0x06 q 13 _)).trans (publishWords_status _ 0x06 q _)

/-! Ports that have started (R360). -/

/-- A port that has started runs from the boundary on. -/
def Dev.portStarted (d : Dev) (q : Nat) : Dev := if (d.aport q).state = 1 then d.setAport q { d.aport q with state := 2 } else d

/-- The audio ports, replaced. -/
def Dev.withPorts (d : Dev) (t : Tab AudPort) : Dev := { d with audio := { d.audio with ports := t } }

theorem Dev.aport_setAport (d : Dev) (q j : Nat) (x : AudPort) : (d.setAport q x).aport j = if q = j then x else d.aport j := tget_tset _ _ _ _ _

/-- The state of a port that starts runs. -/
def startedState (x : BitVec 3) : BitVec 3 := if x = 1 then 2 else x

theorem portStarted_state (d : Dev) (q j : Nat) :
    ((d.portStarted q).aport j).state = if q = j then startedState (d.aport j).state else (d.aport j).state := by
  unfold Dev.portStarted
  by_cases starts : (d.aport q).state = 1
  · rw [if_pos starts, Dev.aport_setAport]
    split
    · rename_i own
      rw [← own, startedState, if_pos starts]
    · rfl
  · rw [if_neg starts]
    split
    · rename_i own
      rw [← own, startedState, if_neg starts]
    · rfl

theorem startedState_twice (x : BitVec 3) : startedState (startedState x) = startedState x := by
  unfold startedState
  split <;> rfl

theorem portsStarted_state (l : List Nat) (d : Dev) (j : Nat) :
    ((l.foldl Dev.portStarted d).aport j).state = if j ∈ l then startedState (d.aport j).state else (d.aport j).state := by
  induction l generalizing d with
  | nil => rfl
  | cons q r ih =>
    rw [List.foldl_cons, ih, portStarted_state]
    by_cases own : q = j
    · subst own
      simp [startedState_twice]
    · simp [own, Ne.symm own]

/-- The ports that have started run, and nothing else changes. -/
theorem portsStarted_eq (l : List Nat) (d : Dev) : ∃ t, l.foldl Dev.portStarted d = d.withPorts t ∧
    ∀ j, (tget t j .atReset).state = if j ∈ l then startedState (d.aport j).state else (d.aport j).state := by
  obtain ⟨t, eq⟩ : ∃ t, l.foldl Dev.portStarted d = d.withPorts t := by
    refine List.foldlRecOn l _ (motive := fun e : Dev => ∃ t, e = d.withPorts t) ⟨d.audio.ports, rfl⟩ ?_
    rintro _ ⟨t, rfl⟩ q -
    unfold Dev.portStarted
    split
    · exact ⟨_, rfl⟩
    · exact ⟨t, rfl⟩
  exact ⟨t, eq, fun j => (congrArg (fun x : Dev => (x.aport j).state) eq).symm.trans (portsStarted_state l d j)⟩

/-! A graph that takes over (R351, R352). -/

/-- A graph that waits for a boundary takes over at the first one after its time (R351). -/
def Dev.graphTurn (d : Dev) (i stamp : Nat) : Dev :=
  match d.audio.loaded with
  | some (g, id, t) => if t ≤ stamp then d.swapGraph g id i stamp else d
  | none => d

theorem graphTurn_none {d : Dev} (none : d.audio.loaded = none) (i stamp : Nat) : d.graphTurn i stamp = d := by
  unfold Dev.graphTurn
  rw [none]

theorem graphTurn_due {d : Dev} {g : Graph} {id : OpId} {t stamp : Nat} (loaded : d.audio.loaded = some (g, id, t)) (due : t ≤ stamp) (i : Nat) :
    d.graphTurn i stamp = d.swapGraph g id i stamp := by
  unfold Dev.graphTurn
  rw [loaded]
  exact if_pos due

/-- What the turn of a graph leaves at sample i: the graph in force with no other waiting, and its GRAPH_LOAD at its end (R351, R352). -/
structure GraphSwapped (d : Dev) (g : Graph) (id : OpId) (i stamp : Nat) (e : Dev) : Prop where
  frame : { e with audio := d.audio, ops := d.ops } = d
  graph : e.audio.graph = some g
  loaded : e.audio.loaded = none
  state : e.audio.state = if g.rampMs = 0 then 1 else 2
  since : e.audio.since = i
  faultCode : e.audio.faultCode = 0
  ended : ∀ o, d.op id = some o → o.phase = .started → e.op id = some (o.ended 0 (some stamp))
  others : ∀ j, j ≠ id → e.op j = d.op j

theorem swapGraph_swapped (d : Dev) (g : Graph) (id : OpId) (i stamp : Nat) : ∃ e, d.swapGraph g id i stamp = e ∧ GraphSwapped d g id i stamp e := by
  unfold Dev.swapGraph
  extract_lets a old here convs keepOut d1
  have held : d1.op id = d.op id := rfl
  rw [held]
  split
  · rename_i o op
    split
    · exact ⟨_, rfl, rfl, rfl, rfl, rfl, rfl, rfl, fun x found _ => Dev.op_finish_same (held.trans found) 0 _, fun j ne => Dev.op_finish_ne d1 ne 0 _⟩
    · rename_i idle
      refine ⟨_, rfl, rfl, rfl, rfl, rfl, rfl, rfl, fun x found started => ?_, fun _ _ => rfl⟩
      cases op.symm.trans found
      exact absurd (by simp [Op.active, started]) idle
  · rename_i none
    refine ⟨_, rfl, rfl, rfl, rfl, rfl, rfl, rfl, fun x found _ => ?_, fun _ _ => rfl⟩
    cases none.symm.trans found

/-! The boundary (R113, R343). -/

/-- The boundary itself: its instant, and the graph that takes over at it. -/
def Dev.blockBegun (d : Dev) (i : Nat) : Dev := ((d.tick (d.audio.stamp i)).occur 3 0).graphTurn i (d.audio.stamp i)

/-- What a boundary leaves beside what it publishes: the ports, its number and its stamp, and no meters. -/
def Dev.blockTaken (d : Dev) (i stamp : Nat) : Dev :=
  { d with audio := { d.audio with meters := [], sampleReg := BitVec.ofNat 64 i, stampReg := BitVec.ofNat 64 stamp } }

/-- A boundary without commits and cancellations: the instant, the graph, the ports, and what is published. -/
theorem blockStep_eq {d : Dev} {i : Nat} (commits : d.commits = []) (uncut : ∀ o ∈ d.ops, o.streamCut = false) :
    ∃ t e, (∀ q, q < 10 → (tget t q .atReset).state = startedState ((d.blockBegun i).aport q).state) ∧
      StatusOnly ((d.blockBegun i).withPorts t) e ∧ d.blockStep i = e.blockTaken i (d.audio.stamp i) := by
  obtain ⟨t, ports, states⟩ := portsStarted_eq (List.range 10) (d.blockBegun i)
  have none : ((d.tick (d.audio.stamp i)).occur 3 0).ops.filter Op.streamCut = [] :=
    List.filter_eq_nil_iff.mpr (fun o mem => by rw [uncut o mem]; decide)
  unfold Dev.blockStep
  extract_lets stamp d0 d1 publish d4
  have same : d1 = d0 := by
    unfold d1
    rw [show d0.ops.filter Op.streamCut = [] from none]
    rfl
  have quiet : d0.commits = [] := commits
  have published : publish d0 = ((d.blockBegun i).withPorts t).publishBlock := congrArg Dev.publishBlock ports
  refine ⟨t, d4, fun q lt => (states q).trans (if_pos (List.mem_range.mpr lt)), ?_, rfl⟩
  unfold d4
  rw [same, applyDue_empty quiet, published]
  exact (publishBlock_status _).trans (published_status _ _)

section
variable {s : State} {at_ : Nat} (k : s.Steady) (ready : s.dev.sampleReady at_ = true) (multiple : s.dev.audio.count % 48 = 0)
  (new : s.dev.audio.blockDone s.dev.audio.count = false) (commits : s.dev.commits = []) (uncut : ∀ o ∈ s.dev.ops, o.streamCut = false)
include k ready multiple new commits uncut

/-- A boundary's command leaves what its step does. -/
theorem audioBlock_passed {d : Dev} (begun : s.dev.blockBegun s.dev.audio.count = d) (m : EndsAlike s.dev d) (w : d.writes = s.dev.writes) :
    ∃ t e, (∀ q, q < 10 → (tget t q .atReset).state = startedState (d.aport q).state) ∧ StatusOnly (d.withPorts t) e ∧
      Does (.audioBlock at_) s (Passed (e.blockTaken s.dev.audio.count (s.dev.audio.stamp s.dev.audio.count))) := by
  obtain ⟨t, e, states, status, step⟩ := blockStep_eq (i := s.dev.audio.count) commits uncut
  rw [begun] at states status
  have ends : EndsAlike d e := ⟨(congrArg Dev.mem status :), (congrArg Dev.update status :), (congrArg Dev.safety status :)⟩
  refine ⟨t, e, states, status, does_passed (show execAudioBlock at_ s = _ by unfold execAudioBlock; rfl) k ?_ (m.trans ends) ?_⟩
  · exact (if_pos (by simp [ready, multiple, new])).trans step
  · exact (congrArg Dev.writes status :).trans w

/-- A boundary at which no graph waits (R113, R343, R360). -/
theorem audioBlock_steady (none : s.dev.audio.loaded = none) : Does (.audioBlock at_) s (fun e =>
    e.now = Nat.max s.dev.now (s.dev.audio.stamp s.dev.audio.count) ∧ e.evCount 3 0 = s.dev.evCount 3 0 + 1 ∧
    e.audio.sampleReg = BitVec.ofNat 64 s.dev.audio.count ∧ e.audio.stampReg = BitVec.ofNat 64 (s.dev.audio.stamp s.dev.audio.count) ∧
    e.audio.meters = [] ∧ e.audio.count = s.dev.audio.count ∧ e.audio.graph = s.dev.audio.graph ∧
    (∀ q, q < 10 → (e.aport q).state = (if (s.dev.aport q).state = 1 then 2 else (s.dev.aport q).state)) ∧
    e.ops = s.dev.ops ∧ e.mem = s.dev.mem ∧ ∀ r, e.ring r =
      { s.dev.ring r with thread := { (s.dev.ring r).thread with
          wait := (s.dev.ring r).thread.wait.meet 3 0 (Nat.max s.dev.now (s.dev.audio.stamp s.dev.audio.count)) } }) := by
  obtain ⟨t, r, states, status, does⟩ := audioBlock_passed k ready multiple new commits uncut
    (graphTurn_none (d := (s.dev.tick (s.dev.audio.stamp s.dev.audio.count)).occur 3 0) none _ _) (.refl _) rfl
  refine does.imp (fun e passed => ?_)
  have audio : e.audio = _ := (congrArg Dev.audio passed :)
  refine ⟨?_, ?_, by rw [audio]; rfl, by rw [audio]; rfl, by rw [audio]; rfl, ?_, ?_, fun q lt => ?_, ?_, ?_, fun g => ?_⟩
  · exact (congrArg Dev.now passed :).trans (congrArg Dev.now status :)
  · refine Eq.trans ?_ (occur_evCount (s.dev.tick (s.dev.audio.stamp s.dev.audio.count)) 3 0)
    exact (passed.evCount 3 0).trans (congrArg (fun x : Dev => x.evCount 3 0) status :)
  · rw [audio]
    exact (congrArg (fun x : Dev => x.audio.count) status :)
  · rw [audio]
    exact (congrArg (fun x : Dev => x.audio.graph) status :)
  · exact ((congrArg (fun x : Dev => (x.aport q).state) passed :).trans (congrArg (fun x : Dev => (x.aport q).state) status :)).trans (states q lt)
  · exact (congrArg Dev.ops passed :).trans (congrArg Dev.ops status :)
  · exact (congrArg Dev.mem passed :).trans (congrArg Dev.mem status :)
  · refine Eq.trans ?_ (occur_ring (s.dev.tick (s.dev.audio.stamp s.dev.audio.count)) 3 0 g)
    exact (passed.ring g).trans (status.ring g)

/-- A boundary at which a graph that has waited takes over; its GRAPH_LOAD ends with the boundary's stamp (R351, R352). -/
theorem audioBlock_swaps {g : Graph} {id : OpId} {t : Nat} (loaded : s.dev.audio.loaded = some (g, id, t))
    (due : t ≤ s.dev.audio.stamp s.dev.audio.count) : Does (.audioBlock at_) s (fun e =>
    e.audio.graph = some g ∧ e.audio.loaded = none ∧ e.audio.state = (if g.rampMs = 0 then 1 else 2) ∧ e.audio.since = s.dev.audio.count ∧
    e.audio.faultCode = 0 ∧
    (∀ o, s.dev.op id = some o → o.phase = .started →
      e.op id = some { o with phase := .finished, status := 0, result := some (BitVec.ofNat 64 (s.dev.audio.stamp s.dev.audio.count)) }) ∧
    (∀ j, j ≠ id → e.op j = s.dev.op j) ∧ e.mem = s.dev.mem) := by
  obtain ⟨d, hd, swapped⟩ := swapGraph_swapped ((s.dev.tick (s.dev.audio.stamp s.dev.audio.count)).occur 3 0) g id s.dev.audio.count
    (s.dev.audio.stamp s.dev.audio.count)
  obtain ⟨frame, graph, waits, state, since, fault, ended, others⟩ := swapped
  have begun : s.dev.blockBegun s.dev.audio.count = d := (graphTurn_due (d := (s.dev.tick (s.dev.audio.stamp s.dev.audio.count)).occur 3 0) loaded due _).trans hd
  obtain ⟨u, r, -, status, does⟩ := audioBlock_passed k ready multiple new commits uncut begun
    ⟨(congrArg Dev.mem frame :), (congrArg Dev.update frame :), (congrArg Dev.safety frame :)⟩ (congrArg Dev.writes frame :)
  refine does.imp (fun e passed => ?_)
  have audio : e.audio = _ := (congrArg Dev.audio passed :)
  have ops (j : OpId) : e.op j = d.op j := (congrArg (fun x : Dev => x.op j) passed :).trans (congrArg (fun x : Dev => x.op j) status :)
  refine ⟨?_, ?_, ?_, ?_, ?_, fun o held started => ?_, fun j ne => ?_, ?_⟩
  · rw [audio]
    exact (congrArg (fun x : Dev => x.audio.graph) status :).trans graph
  · rw [audio]
    exact (congrArg (fun x : Dev => x.audio.loaded) status :).trans waits
  · rw [audio]
    exact (congrArg (fun x : Dev => x.audio.state) status :).trans state
  · rw [audio]
    exact (congrArg (fun x : Dev => x.audio.since) status :).trans since
  · rw [audio]
    exact (congrArg (fun x : Dev => x.audio.faultCode) status :).trans fault
  · exact (ops id).trans (ended o held started)
  · exact (ops j).trans (others j ne)
  · exact ((congrArg Dev.mem passed :).trans (congrArg Dev.mem status :)).trans (congrArg Dev.mem frame :)

end

end Sys2Proof.Machine
end

section
/-! GRAPH_LOAD and GRAPH_STOP (R349 to R351, R354), and the samples and graphs that are settled. -/

namespace Sys2Proof.Machine

/-! What the fetch of a graph changes (R349). -/

section
variable (d : Dev) (f : Nat)

theorem loadProg_fetched (addr : Nat) : Fetched d (d.loadProg f addr).1 := by
  unfold Dev.loadProg
  split
  · exact .refl d
  split
  · exact .refl d
  split
  · rename_i failed
    exact readWords_reads failed
  · rename_i header
    have read := readWords_reads header
    split
    · exact read
    split
    · exact read
    split
    · rename_i failed
      exact read.trans (readWords_reads failed)
    · rename_i body
      exact read.trans (readWords_reads body)

theorem loadProgs_fetched (n : Nat) (l : List Nat) : Fetched d (d.loadProgs f n l).1 := by
  induction l generalizing d n with
  | nil => exact .refl d
  | cons a r ih =>
    have first := loadProg_fetched d f a
    unfold Dev.loadProgs
    split
    · rename_i failed
      rw [failed] at first
      exact first
    · rename_i d1 p got
      rw [got] at first
      have rest := ih d1 (n + 1)
      split
      · rename_i failed
        rw [failed] at rest
        exact first.trans rest
      · rename_i all
        rw [all] at rest
        exact first.trans rest

theorem loadTable_fetched (addr : Nat) (progs : Tab AProg) : Fetched d (d.loadTable f addr progs).1 := by
  unfold Dev.loadTable
  split
  · exact .refl d
  split
  · rename_i failed
    exact readWords_reads failed
  · rename_i header
    have read := readWords_reads header
    dsimp only
    split
    · exact read
    split
    · rename_i failed
      exact read.trans (readWords_reads failed)
    · rename_i words
      have all := read.trans (readWords_reads words)
      split
      · exact all
      · exact all

end

theorem Fetched.now {d e : Dev} (h : Fetched d e) : e.now = d.now := by rw [h.eq]

/-! GRAPH_LOAD (R350, R351). -/

/-- The addresses of the programs that a GRAPH_LOAD names (R350). -/
def Op.progAddrs (o : Op) : List Nat := [fld (o.word 1) 0 48, fld (o.word 2) 0 48, fld (o.word 3) 0 48, fld (o.word 4) 0 48]

section
variable {d d1 d2 : Dev} {o : Op}

theorem graphLoad_malformed (bad : ∃ i, i < 5 ∧ fld (o.word i) 48 24 ≠ 0) : d.graphLoad o = d.finish o.id 0x10 none := by
  obtain ⟨i, lt, high⟩ := bad
  exact if_pos (List.any_eq_true.mpr ⟨i, List.mem_range.mpr lt, by simpa using high⟩)

variable (ok : ∀ i, i < 5 → fld (o.word i) 48 24 = 0)
include ok

theorem graphLoad_wellFormed : (List.range 5).any (fun i => decide (fld (o.word i) 48 24 ≠ 0)) = false :=
  List.any_eq_false.mpr (fun i mem => by simp [ok i (List.mem_range.mp mem)])

theorem graphLoad_range (progs : d.loadProgs o.fn 0 o.progAddrs = (d1, .error .range)) : d.graphLoad o = d1.finish o.id 0x10 none := by
  unfold Dev.graphLoad
  simp only [graphLoad_wellFormed ok, Bool.false_eq_true, if_false]
  rw [show (List.range 4).map (fun i => fld (o.word (i + 1)) 0 48) = o.progAddrs from rfl, progs]

theorem graphLoad_fault {c va : Nat} (progs : d.loadProgs o.fn 0 o.progAddrs = (d1, .error (.fault c va))) : d.graphLoad o = d1.opFault o.id o.fn c va := by
  unfold Dev.graphLoad
  simp only [graphLoad_wellFormed ok, Bool.false_eq_true, if_false]
  rw [show (List.range 4).map (fun i => fld (o.word (i + 1)) 0 48) = o.progAddrs from rfl, progs]

theorem graphLoad_fetched {t : Tab AProg} {g : Graph} {pred : Nat} (progs : d.loadProgs o.fn 0 o.progAddrs = (d1, .ok t))
    (table : d1.loadTable o.fn (fld (o.word 0) 0 48) t = (d2, .ok (g, pred))) : d.graphLoad o =
      if d2.graphOk g pred then { d2 with audio := { d2.audio with loaded := some (g, o.id, d2.now + 2000) } } else d2.finish o.id 0x10 none := by
  unfold Dev.graphLoad
  simp only [graphLoad_wellFormed ok, Bool.false_eq_true, if_false]
  rw [show (List.range 4).map (fun i => fld (o.word (i + 1)) 0 48) = o.progAddrs from rfl, progs]
  simp only [table]

end

section
variable {s : State} {id : OpId} {o : Op}

/-- GRAPH_LOAD belongs to the manager, and waits for a ramp and for another graph (R350, R351). -/
theorem graphLoad_waits (w : Works s id 5 1 7 o) :
    (o.fn ≠ s.dev.manager → Becomes (.graphLoad id) s (s.dev.finish id 0x11 none)) ∧
    (o.fn = s.dev.manager → (s.dev.audio.state = 2 ∨ s.dev.audio.state = 4 ∨ s.dev.audio.loaded.isSome = true) → Becomes (.graphLoad id) s s.dev) := by
  obtain ⟨steady, held, runs⟩ := w
  refine ⟨fun foreign => ?_, fun own wait => ?_⟩ <;>
    refine becomes_runOp (show execGraphLoad id s = _ by unfold execGraphLoad; rfl) steady ?_ (.refl _) <;>
    simp only [held, runs, Bool.not_true, Bool.false_eq_true, if_false]
  · exact if_pos foreign
  · exact (if_neg (by simp [own])).trans (if_pos (by simpa [or_assoc] using wait))

section
variable (w : Works s id 5 1 7 o) (own : o.fn = s.dev.manager) (still : s.dev.audio.state ≠ 2) (running : s.dev.audio.state ≠ 4)
  (free : s.dev.audio.loaded = none)
include w own still running free

theorem graphLoad_becomes {d : Dev} (load : s.dev.graphLoad o = d) (m : EndsAlike s.dev d) : Becomes (.graphLoad id) s d := by
  obtain ⟨steady, held, runs⟩ := w
  refine becomes_runOp (show execGraphLoad id s = _ by unfold execGraphLoad; rfl) steady ?_ m
  simp only [held, runs, Bool.not_true, Bool.false_eq_true, if_false]
  refine (if_neg (by simp [own])).trans ((if_neg ?_).trans load)
  simp [show s.dev.audio.state ≠ 2#3 from still, show s.dev.audio.state ≠ 4#3 from running, free]

/-- What a GRAPH_LOAD that need not wait leaves: a graph that waits for its boundary, or the operation at its end (R350, R351). -/
theorem graphLoad_loads :
    ((∃ i, i < 5 ∧ fld (o.word i) 48 24 ≠ 0) → Becomes (.graphLoad id) s (s.dev.finish id 0x10 none)) ∧
    ((∀ i, i < 5 → fld (o.word i) 48 24 = 0) →
      (∀ d1, s.dev.loadProgs o.fn 0 o.progAddrs = (d1, .error .range) → Becomes (.graphLoad id) s (d1.finish id 0x10 none)) ∧
      (∀ d1 c va, s.dev.loadProgs o.fn 0 o.progAddrs = (d1, .error (.fault c va)) → Becomes (.graphLoad id) s (d1.opFault id o.fn c va)) ∧
      (∀ d1 progs d2 g pred, s.dev.loadProgs o.fn 0 o.progAddrs = (d1, .ok progs) →
        d1.loadTable o.fn (fld (o.word 0) 0 48) progs = (d2, .ok (g, pred)) →
        (d2.graphOk g pred = false → Becomes (.graphLoad id) s (d2.finish id 0x10 none)) ∧
        (d2.graphOk g pred = true → Becomes (.graphLoad id) s { d2 with audio := { d2.audio with loaded := some (g, id, s.dev.now + 2000) } }))) := by
  have load (d : Dev) (step : s.dev.graphLoad o = d) (m : EndsAlike s.dev d) := graphLoad_becomes w own still running free step m
  have fetched := loadProgs_fetched s.dev o.fn 0 o.progAddrs
  obtain rfl := w.op_id
  refine ⟨fun bad => load _ (graphLoad_malformed bad) (.refl _), fun ok => ⟨fun d1 progs => ?_, fun d1 c va progs => ?_, fun d1 t d2 g pred progs table => ?_⟩⟩
  all_goals rw [progs] at fetched
  · exact load _ (graphLoad_range ok progs) (fetched.endsAlike.trans (finish_endsAlike d1 _ _ _))
  · exact load _ (graphLoad_fault ok progs) (fetched.endsAlike.trans (opFault_endsAlike d1 _ _ _ _))
  · have all := loadTable_fetched d1 o.fn (fld (o.word 0) 0 48) t
    rw [table] at all
    have whole := fetched.trans all
    have loads := graphLoad_fetched ok progs table
    refine ⟨fun bad => load _ (loads.trans (if_neg (by simp [bad]))) (whole.endsAlike.trans (finish_endsAlike d2 _ _ _)), fun good => ?_⟩
    rw [← whole.now]
    exact load _ (loads.trans (if_pos good)) (whole.endsAlike.trans ⟨rfl, rfl, rfl⟩)

end

end

/-! The checks of a graph (R351). -/

/-- Repeats alone are left out. -/
theorem dedup_foldl_length (l acc : List Nat) :
    (l.foldl (fun acc x => if acc.contains x then acc else acc ++ [x]) acc).length ≤ acc.length + l.length := by
  induction l generalizing acc with
  | nil => simp
  | cons x r ih =>
    rw [List.foldl_cons]
    refine (ih _).trans ?_
    split
    · simp
    · simp only [List.length_append, List.length_cons, List.length_nil]
      omega

theorem dedup_foldl_nodup (l acc : List Nat) (none : acc.Nodup)
    (all : (l.foldl (fun acc x => if acc.contains x then acc else acc ++ [x]) acc).length = acc.length + l.length) : (acc ++ l).Nodup := by
  induction l generalizing acc with
  | nil => simpa using none
  | cons x r ih =>
    rw [List.foldl_cons] at all
    by_cases again : acc.contains x = true
    · rw [if_pos again] at all
      have fewer := dedup_foldl_length r acc
      rw [all, List.length_cons] at fewer
      omega
    · rw [if_neg again] at all
      have new : x ∉ acc := by simpa using again
      have longer : (acc ++ [x]).Nodup := List.nodup_append.mpr ⟨none, List.nodup_singleton x, fun a mem b own => by
        rw [List.mem_singleton.mp own]
        exact fun same => new (same ▸ mem)⟩
      have rest := ih (acc ++ [x]) longer (by rw [all]; simp only [List.length_append, List.length_cons, List.length_nil]; omega)
      rwa [List.append_assoc, List.singleton_append] at rest

theorem nodup_of_distinct {l : List Nat} (h : distinct l = true) : l.Nodup := by
  have all : (dedup l).length = l.length := by simpa [distinct] using h
  exact dedup_foldl_nodup l [] List.nodup_nil (by simpa [dedup] using all)

/-- A graph that is in range names each node once, with its type, and its edges join its nodes; it follows the graph in force (R351). -/
theorem graphOk_checks {d : Dev} {g : Graph} {pred : Nat} (ok : d.graphOk g pred = true) :
    (g.nodes.map (fun n => n.node)).Nodup ∧ (∀ n ∈ g.nodes, n.type = fld (d.projected 0x05 n.node 1) 10 6) ∧
    (∀ e ∈ g.edges, (∃ n ∈ g.nodes, n.node = e.src) ∧ ∃ n ∈ g.nodes, n.node = e.dst) ∧
    pred = (match d.audio.active with | some r => r.id | none => 0) := by
  unfold Dev.graphOk at ok
  simp only [Bool.and_eq_true, decide_eq_true_eq, List.all_eq_true, List.any_eq_true] at ok
  obtain ⟨⟨⟨⟨⟨⟨⟨⟨⟨⟨nodes, -⟩, -⟩, -⟩, ends⟩, -⟩, -⟩, types⟩, follows⟩, -⟩, -⟩ := ok
  exact ⟨nodup_of_distinct nodes, types, ends, follows.trans rfl⟩

/-! GRAPH_STOP (R350, R354). -/

/-- GRAPH_STOP belongs to the manager; it ends at once without a graph, and waits for another and for a graph that waits (R350, R354). -/
theorem graphStop_does {s : State} {id : OpId} {o : Op} (w : Works s id 5 2 7 o) :
    (o.fn ≠ s.dev.manager → Becomes (.graphStop id) s (s.dev.finish id 0x11 none)) ∧
    (o.fn = s.dev.manager → o.word 0 ≠ 0 → Becomes (.graphStop id) s (s.dev.finish id 0x10 none)) ∧
    (o.fn = s.dev.manager → o.word 0 = 0 → s.dev.audio.active = none → Becomes (.graphStop id) s (s.dev.finish id 0 none)) ∧
    (o.fn = s.dev.manager → o.word 0 = 0 → s.dev.audio.active.isSome = true → (s.dev.audio.state = 4 ∨ s.dev.audio.loaded.isSome = true) →
      Becomes (.graphStop id) s s.dev) ∧
    (o.fn = s.dev.manager → o.word 0 = 0 → s.dev.audio.active.isSome = true → s.dev.audio.state ≠ 4 → s.dev.audio.loaded = none →
      Becomes (.graphStop id) s { s.dev with audio := { s.dev.audio with state := 4, stopOp := some id, stopAt := s.dev.audio.count } }) := by
  obtain ⟨steady, held, runs⟩ := w
  refine ⟨fun foreign => ?_, fun own bad => ?_, fun own zero none => ?_, fun own zero graph wait => ?_, fun own zero graph running none => ?_⟩ <;>
    refine becomes_runFrom (show execGraphStop id s = _ by unfold execGraphStop; rfl) steady ?_ (.refl _) <;>
    simp only [held, runs, Bool.not_true, Bool.false_eq_true, if_false]
  · exact if_pos foreign
  all_goals refine (if_neg (by simp [own])).trans ?_
  · exact if_pos bad
  all_goals refine (if_neg (by simp [zero])).trans ?_
  · exact if_pos (by simp [none])
  all_goals refine (if_neg (by simpa [Option.isSome_iff_ne_none] using graph)).trans ?_
  · exact if_pos (by simpa using wait)
  · exact if_neg (by simp [show s.dev.audio.state ≠ 4#3 from running, none])

/-- Settles O46: a sample by what it begins with and what converters and slices change, a boundary by the graph that takes over and what is published, and
the operations by their checks. -/
theorem audioSamplesAndGraphs : Obligations.AudioSamplesAndGraphs := by
  refine ⟨?_, fun _ _ _ w => ?_, fun _ _ _ ok => graphOk_checks ok, fun _ _ _ w => graphStop_does w⟩
  · rintro s at_ _ k rfl
    exact ⟨sampleReady_none k, audioBlock_none k, audioSample_does k, fun ready multiple new commits uncut =>
      ⟨audioBlock_steady k ready multiple new commits uncut, fun _ _ _ loaded due => audioBlock_swaps k ready multiple new commits uncut loaded due⟩⟩
  · obtain ⟨foreign, waits⟩ := graphLoad_waits w
    exact ⟨foreign, waits, graphLoad_loads w⟩

end Sys2Proof.Machine
end
